-- ==== Sys2Proof/Word.lean ====
section
/-! DEFINITION. The word types: bytes, the 64-bit words of the serve engines, byte strings. -/

namespace Sys2Proof

/-- One byte (R5, R6). -/
abbrev Byte := BitVec 8

/-- A register of a serve engine thread (R289) and a limb of the big-number engine (R331). -/
abbrev Word64 := BitVec 64

/-- A byte string, first byte first. -/
abbrev Bytes := List Byte

end Sys2Proof
end

