-- ==== Sys2Proof/Syntax.lean ====
section
/-! DEFINITION. The commands the block takes, one constructor per row of spec/opcode_table.json, and their operands. -/

namespace Sys2Proof

/-- The three paths an OOL frame travels (R52): the management port, a port in-band, the host SPI link. -/
inductive Path where
  | mgmt
  | inband (port : Fin 64)
  | spi
deriving DecidableEq, Repr

/-- What a memory tile that failed its check held (R371), where the spec does not lay the array out: cache lines by entry
index, slots of the timer wheel, descriptors of a ring by position, counters of the sketch. -/
inductive TileHolds where
  | plain
  | lines (l : List Nat)
  | slots (l : List Nat)
  | descriptors (ring : Nat) (positions : List Nat)
  | counters (l : List Nat)
deriving DecidableEq, Repr

/-- What has become of a memory tile since it was written, when it is read (R369): nothing; bytes (by offset, the bits that
changed) and bits of its check value have changed; the tile of another address was written to its place. -/
inductive TileFault where
  | none
  | flips (bytes : List (Nat × Byte)) (check : BitVec 32)
  | misplaced (addr : Nat)
deriving DecidableEq, Repr

/-- The sums of a tracker's eight correlators over one coherent integration, I and Q by tap (R198). -/
abbrev Dump := Vector (Int × Int) 8

/-- What the correlators of a tracker have delivered by an observation epoch since the last delivery (R198, R204); whether
its half cycle is unresolved. -/
structure SkyObs where
  channel : Fin 256
  band : Fin 2
  dumps : List Dump := []
  half : Bool := false
deriving DecidableEq, Repr

/-- A detection by the acquisition engine (R191): the code phase within the primary code in 2^-32 chip and the Doppler in
mHz, at the end of the dwell. -/
structure Detection where
  code : Nat
  dop : Int
deriving DecidableEq, Repr

/-- The first edge of a sentinel's collection (R239): its raw stamp, its count in the word stream, the count of the word in
which the next marker crosses. -/
structure FirstEdge where
  stamp : Nat
  word : Nat
  marker : Nat
deriving DecidableEq, Repr

/-- What a sentinel sees that may end its lock (R239, R253): the raw stamp of an edge, marker lock lost, a word slip, the end
of a receive quiet period: its ticks and the raw stamps of the word edges after the wake. -/
inductive SentinelEvent where
  | edge (stamp : Nat)
  | markerLost
  | wordSlip
  | quiet (ticks : Nat) (edges : List Nat)
deriving DecidableEq, Repr

/-- An event of a port's transmit or receive sentinel. -/
structure SentinelLoss where
  tx : Bool
  event : SentinelEvent
deriving DecidableEq, Repr

/-- What a navigation page, word or message brings (R201): nothing, for its error-correcting code did not decode; an
orbit record's kind, satellite, message, issue and content; the health of a satellite's signal; the UTC parameters ΔtLS,
the week number and day of the leap, ΔtLSF, and the offset of system time from the UTC realisation; an inter-system
offset. -/
inductive NavItem where
  | bad
  | orbit (kind sat message issue : Nat) (content : Bytes)
  | health (sat signal : Nat) (usable : Bool)
  | utc (dtLS : Int) (week day : Nat) (dtLSF : Int) (delta : Int)
  | isb (offset : Int)
deriving DecidableEq, Repr

/-- The samples of 1 ms that a band monitor sees: pin bytes, I above Q, each with how often it stood there (R181, R182). -/
abbrev PinBlock := List (Fin 256 × Nat)

/-- What the correlators of one tracker brought since they were last looked at (R198, R199): the band of the tracker, its
dumps. -/
structure TrackerRun where
  band : Fin 2
  dumps : List Dump
deriving DecidableEq, Repr

/-- The transmit time the navigation message of a tracker's signal states (R200): the band of the tracker; the week
and the millisecond of the week, in system time; the code phase of the replica which that time belongs to. -/
structure MessageTime where
  band : Fin 2
  week : Nat
  towMs : Nat
  code : Int
deriving DecidableEq, Repr

/-- A received navigation page, word or message (R201): its bits, under its error-detecting code, and what it brings. -/
structure NavPageRead where
  bits : List Bool
  item : NavItem
deriving DecidableEq, Repr

/-- A frequency measurement for DPLL-F (R130): the slot; for a SyncE slot the recovered clock's rate in 2^-64, none where the
slot's own edges give it. -/
structure FreqSample where
  slot : Fin 16
  freq : Option Int
deriving DecidableEq, Repr

/-- What a client brings to an NTS-KE exchange (R329): a connection number, whether it is on the management port; TLS 1.3 and the ALPN offered; cipher suites;
key shares (group 0 x25519, 1 secp256r1, 2 secp384r1, and the point); signature algorithms accepted (0 ECDSA P-256, 1 ECDSA
P-384, 2 Ed25519); the handshake messages of both sides up to the server's Certificate; its NTS-KE records. `sigBad`: the signature made fails its
verification (R341). -/
structure KeHello where
  conn : Nat
  mgmt : Bool := false
  tls13 : Bool := true
  alpn : Bool := true
  suites : List Nat
  shares : List (Nat × Bytes)
  sigs : List Nat
  transcript : Bytes := []
  records : Bytes
  sigBad : Bool := false
deriving DecidableEq, Repr


/-- The commands of PV-6425: one constructor per row of the opcode table (spec/opcode_table.json), with its operands. -/
inductive Instr where
  /-- HELLO (R55): A HELLO request starts an OOL session setup and is answered with a session_id, a device nonce and, for method 2, a signature. -/
  | hello (sigBad : Bool)
  /-- CERT (R55): A CERT frame carries a chunk of a certificate chain during a method 2 setup. -/
  | cert
  /-- FINISH (R55): A FINISH request checks the setup proof and either opens the session with the lowest free session number or discards the setup. -/
  | finish
  /-- CLOSE (R57): CLOSE closes the session and aborts any transaction it holds. -/
  | close
  /-- READ (R42): READ returns up to 64 items, all taken from one committed state, together with its generation. -/
  | read
  /-- READ_RECORD (R37): READ_RECORD returns every subindex of a RECORD or ARRAY index from one state. -/
  | readRecord
  /-- WRITE (R44): WRITE checks its items and stages them in the open transaction, or, with txn_id 0, commits them at once. -/
  | write
  /-- BULK_READ (R432): BULK_READ copies up to 1024 bytes of a bulk window at one instant. -/
  | bulkRead
  /-- BULK_WRITE (R433): BULK_WRITE stages bytes of an RW bulk window in the open transaction, or writes firmware_staging straight to flash. -/
  | bulkWrite
  /-- BEGIN (R44): BEGIN opens a transaction for the owner and returns its txn_id. -/
  | begin
  /-- COMMIT (R45): COMMIT checks the open transaction and then either applies it whole at once or accepts it as a scheduled commit. -/
  | commit
  /-- OBJECT_WRITE (R45): A committed value of an object without behaviour of its own takes effect and becomes visible with the new generation. -/
  | objectWrite (index : Nat) (sub : Nat) (value : Bytes)
  /-- ABORT (R44): ABORT discards the open transaction and its staged items. -/
  | abort
  /-- SCHED_CANCEL (R49): SCHED_CANCEL removes a pending scheduled commit, identified by its schedule identifier. -/
  | schedCancel
  /-- SCHEDULED_COMMIT_EXECUTE (R48): At the first tick at or after its scheduled time, a pending commit is checked again and either applied or failed. -/
  | scheduledCommitExecute
  /-- PERSIST_WRITE_COMPLETE (R50): The configuration set being written to the inactive boot-flash bank completes, and that bank becomes active. -/
  | persistWriteComplete (ok : Bool)
  /-- CLAIM (R58): CLAIM opens or joins an election, takes ownership from a lower-priority owner, updates the owner's own claim, or is refused. -/
  | claim
  /-- ELECTION_WINDOW_END (R58): When the 200 ms election window ends, the highest claim wins and every claimant is answered. -/
  | electionWindowEnd
  /-- HEARTBEAT (R58): HEARTBEAT renews the owner's lease and returns the lease remaining. -/
  | heartbeat
  /-- LEASE_EXPIRY (R58): When the owner's 3 s lease expires, its transaction is aborted and ownership becomes FREE. -/
  | leaseExpiry
  /-- HANDOVER (R58): HANDOVER names a successor and starts a 1 s confirmation timer, or is refused. -/
  | handover
  /-- CONFIRM (R58): CONFIRM from the named successor makes it the owner. -/
  | confirm
  /-- HANDOVER_TIMER_EXPIRY (R58): When the confirmation timer expires without a CONFIRM, the former owner stays owner. -/
  | handoverTimerExpiry
  /-- RELEASE (R58): RELEASE aborts the owner's transaction and makes ownership FREE. -/
  | release
  /-- SETUP_TIMEOUT (R56): A setup that is not finished within 5 s after its HELLO is discarded. -/
  | setupTimeout
  /-- SESSION_IDLE_TIMEOUT (R57): A session that receives no accepted request within session_idle_timeout closes. -/
  | sessionIdleTimeout
  /-- HOST_SPI_WRITE (R447): A host SPI write transaction delivers one enveloped OOL frame to the device. -/
  | hostSpiWrite (bytes : Bytes)
  /-- HOST_SPI_READ (R447): A host SPI read transaction returns the oldest pending device frame and updates HSPI_INTn. -/
  | hostSpiRead (clocked : Nat)
  /-- MGMT_FRAME_RECEIVE (R255): A frame received on the management port is accepted or discarded, and accepted frames go to the OOL rings or to ring 2. -/
  | mgmtFrameReceive (frame : Bytes)
  /-- MGMT_PHY_POLL (R255): Every 100 ms the device polls the management PHY over MDIO for link status and speed. -/
  | mgmtPhyPoll (r1 : Nat) (r4 : Nat) (r5 : Nat) (r9 : Nat) (r10 : Nat)
  /-- FIRST_POWER (R379): VKEEP or main supply applied to an unpowered keep island causes a power-on reset, or CELLAR when main supply is absent. -/
  | firstPower (vkeep : Bool) (main : Bool)
  /-- MAIN_SUPPLY_LOSS (R396): A main rail leaving its power-good window starts CELLAR entry without the steps of R82. -/
  | mainSupplyLoss
  /-- MAIN_SUPPLY_RETURN (R379): Main power-good returning while the keep island runs causes a cold reset. -/
  | mainSupplyReturn
  /-- RSTN_ASSERT (R379): RSTn low asserts a cold reset. -/
  | rstnAssert
  /-- RSTN_DEASSERT (R388): RSTn high allows the cold reset to be released once the release conditions hold. -/
  | rstnDeassert
  /-- WRSTN_ASSERT (R379): WRSTn low asserts a warm reset, or a cold reset before bring-up completes. -/
  | wrstnAssert
  /-- WRSTN_DEASSERT (R388): WRSTn high releases the warm reset. -/
  | wrstnDeassert
  /-- COLD_RESET_RELEASE (R388): The cold reset is released at instant 0 of bring-up: straps are sampled and the device enters STEEP. -/
  | coldResetRelease (bootsel : Fin 8) (oscsel : Fin 4) (oscdiff : Bool) (dukOk : Bool) (tj : Int)
  /-- TRIM_LOAD_COMPLETE (R387): Trim loading from OTP ends, using copy A, falling back to copy B, or entering the trim-failure hold. -/
  | trimLoadComplete (aOk : Bool) (bOk : Bool)
  /-- TICK_CLOCK_LOCK (R71): The tick clock locks: the raw counter starts at 0 and the time domain becomes awake. -/
  | tickClockLock (bankA : Nat) (bankB : Nat)
  /-- FIRMWARE_BOOT_CHECK (R357): The boot ROM checks the active image and then the other, and starts the first image that passes. -/
  | firmwareBootCheck (download : Option Bytes)
  /-- CONFIG_SET_APPLY (R377): At bring-up step 6, the valid configuration bank with the higher sequence is applied. -/
  | configSetApply (bad : List Nat)
  /-- DRAM_TRAINING_COMPLETE (R365): DRAM training of the four channels ends, succeeding or setting dram_state to failed. -/
  | dramTrainingComplete (fail : Fin 16) (capacity : Nat) (ms : Nat)
  /-- CLIENT_TABLE_INIT_COMPLETE (R71): The client table is initialised, and ports 8–63 and engines 1–7 become awake. -/
  | clientTableInitComplete
  /-- BRINGUP_COMPLETE (R71): Bring-up ends and the device enters MASH, unless steep_hold is true. -/
  | bringupComplete
  /-- DOMAIN_WAKE_COMPLETE (R24): A waking domain has its clocks running and its units out of reset, and its state object reads 2. -/
  | domainWakeComplete (domain : Nat)
  /-- WARM_RESET_RELEASE (R388): The control, serve and crypto domains and the port MACs leave reset and restart following the warm-release instants. -/
  | warmResetRelease
  /-- WARM_SERVING_RESUME (R388): Serving resumes after a warm release, within 250 ms of that release. -/
  | warmServingResume
  /-- SLOT_MISSING_CHECK_RESUME (R121): 500 ms after serving resumes, the missing checks of slots of kind 5 resume. -/
  | slotMissingCheckResume
  /-- THERMAL_TRIP (R393): Tj at or above 125 °C for 1 ms causes a cold reset, held until Tj falls to 105 °C. -/
  | thermalTrip
  /-- THERMAL_WARNING (R393): Die temperature crossing thermal_warn_limit is journalled with code 0x1505. -/
  | thermalWarning (temp : Int)
  /-- WATCHDOG_WARM (R392): wd_timeout passing without service causes a warm reset. -/
  | watchdogWarm
  /-- WATCHDOG_COLD (R392): A missed service after a warm-watchdog release, or a third warm-watchdog reset within 600 s, causes a cold reset. -/
  | watchdogCold
  /-- RESET_REQUEST_WARM (R392): A confirmed commit of reset_request := 1 asserts a warm reset 10 ms after it takes effect. -/
  | resetRequestWarm
  /-- RESET_REQUEST_COLD (R392): A confirmed commit of reset_request := 2 asserts a cold reset 10 ms after it takes effect. -/
  | resetRequestCold
  /-- BLOCK_RESET (R390): A commit of block_reset_target asks the named block to go idle. -/
  | blockReset (code : Nat) (force : Bool)
  /-- BLOCK_QUIESCED (R390): The block reports idle and is reset for 16 cycles, its crossings are resynchronised and it resumes. -/
  | blockQuiesced
  /-- QUIESCE_TIMEOUT (R390): When quiesce_timeout expires, the block is reset anyway if forced, or the commit fails with QUIESCE_TIMEOUT. -/
  | quiesceTimeout
  /-- OSC_EDGE_LOSS (R383): No oscillator edge for 2 µs moves the reset controller onto the keep clock. -/
  | oscEdgeLoss
  /-- OSC_RESTORED (R383): After 10 ms of unbroken oscillator running, the reset controller moves back to the oscillator. -/
  | oscRestored
  /-- VKEEP_MONITOR (R396): Every 60 s VKEEP is measured, and a low reading journals code 0x1506. -/
  | vkeepMonitor (mV : Nat)
  /-- TAMPER_ASSERT (R352): A filtered TAMPn assertion sets the tamper latch, zeroises key RAM and causes a cold reset. -/
  | tamperAssert
  /-- TAMPER_LATCH_CLEAR (R352): A confirmed commit of tamper_latch := false clears the latch. -/
  | tamperLatchClear (session : Fin 32)
  /-- TIMING_CONDITION_EVALUATE (R67): Every 100 µs the time domain evaluates the timing condition and the holdover bound and makes the resulting mode transitions. -/
  | timingConditionEvaluate
  /-- MASH_TIMEOUT (R66): mash_timeout expiring in condition 0 or 1 moves the device to FLAT. -/
  | mashTimeout
  /-- SPARGE_REQUEST (R76): A commit of sparge_request enters SPARGE, restarts its timeout, or, when false, ends SPARGE and confirms a firmware trial. -/
  | spargeRequest (request : Bool)
  /-- SPARGE_TIMEOUT (R76): When sparge_timeout expires, SPARGE ends, and any firmware trial then reverts. -/
  | spargeTimeout
  /-- KILN_REQUEST (R81): A confirmed commit of kiln_request in STEEP enters KILN, zeroising key RAM and stopping service. -/
  | kilnRequest
  /-- CELLAR_REQUEST (R82): A confirmed commit of cellar_request aligns Snowdrop, stops service and outputs, and stops every domain's clocks except the keep island's. -/
  | cellarRequest
  /-- CELLAR_WAKE_TIME (R83): Snowdrop coarse time reaching cellar_wake_time causes a cold reset. -/
  | cellarWakeTime
  /-- CELLAR_VERIFY_WAKE (R83): Once per cellar_verify_interval, the keep island wakes domains to take and solve a Grist capture against Snowdrop time. -/
  | cellarVerifyWake
  /-- CELLAR_VERIFY_END (R83): A verification wake ends: Snowdrop is updated or a disagreement is counted, and the domains sleep again. -/
  | cellarVerifyEnd
  /-- SNOWDROP_ALIGN (R72): Once per second while main supply runs, Snowdrop coarse time is aligned to device time. -/
  | snowdropAlign
  /-- SEGMENT_START (R90): A segment comes into force at its start_raw, and time readers and outputs act on any step bit. -/
  | segmentStart
  /-- SLOPE_FOLLOWUP_SEGMENT (R91): While the slope clamp acts, a follow-up segment is issued every 10 ms. -/
  | slopeFollowupSegment
  /-- STEP (R96): A confirmed owner commit of step_amount issues one step segment. -/
  | step (amount : Int) (session : Nat)
  /-- LEAP_COMPLETE (R99): At leap completion, utc_offset is updated and the leap schedule is cleared. -/
  | leapComplete
  /-- JOURNAL_ENTRY_VISIBLE (R102): An entry becomes visible with the next sequence once the raw counter has passed its stamp by journal_reorder_delay. -/
  | journalEntryVisible
  /-- REFIN_EDGE (R118): A monitored REFIN edge is stamped and checked, and qualification is updated. -/
  | refinEdge (input : Fin 8) (stamp : Nat)
  /-- MISSING_EDGE (R120): No monitored edge by (1 + tol) × Pm counts as a missing edge. -/
  | missingEdge (slot : Fin 16)
  /-- TODIN_FRAME (R114): A received Reference Announcement Frame labels the latest monitored edge, or is discarded. -/
  | todinFrame (input : Fin 8) (start : Nat) (frame : Bytes)
  /-- NMEA_SENTENCE (R115): A ZDA or RMC sentence on a kind 3 slot labels an edge. -/
  | nmeaSentence (input : Fin 8) (start : Nat) (sentence : Bytes)
  /-- ESMC_PDU_RECEIVE (R117): A received ESMC PDU updates the quality of its SyncE slot. -/
  | esmcPduReceive (port : Fin 64) (ssm : Nat) (essm : Option Nat)
  /-- ESMC_ABSENT (R117): ESMC absent for 5 s gives the slot quality 255. -/
  | esmcAbsent (slot : Fin 16)
  /-- QUALIFY_TIMER_EXPIRY (R119): When the qualify timer ends with checks passing, the slot becomes QUALIFIED or WAIT_TO_RESTORE. -/
  | qualifyTimerExpiry (slot : Fin 16)
  /-- WTR_TIMER_EXPIRY (R119): When wtr_time elapses with every check passing, the slot becomes QUALIFIED. -/
  | wtrTimerExpiry (slot : Fin 16)
  /-- OPERATOR_VALIDITY_EXPIRY (R110): When operator_validity elapses after the latest entry, the operator slot fails. -/
  | operatorValidityExpiry (slot : Fin 16)
  /-- OPERATOR_TIME (R110): A timed commit of operator_time adds the error to pending_phase, without a step. -/
  | operatorTime (slot : Fin 16) (time : Int)
  /-- SLOT_CONFIG_COMMIT (R119): A commit of slot_enable, source_kind or source_number disables or requalifies the slot. -/
  | slotConfigCommit (slot : Fin 16) (enable : Bool) (kind : Nat) (number : Nat)
  /-- MANUAL_SLOT_ARM (R123): A commit that writes a manual slot arms it. -/
  | manualSlotArm (forF : Bool) (manual : Nat)
  /-- SELECTION_EVALUATE (R123): The selector decides each selection from the decision table, at least every 10 ms and after state changes. -/
  | selectionEvaluate
  /-- TRANSITION_COMPLETE (R127): After transition_time, B is handed to the timebase as pending_phase. -/
  | transitionComplete (forF : Bool)
  /-- DISPUTE_COMPARE (R125): Every 10 s, equal-ranked qualified slots are compared, and disputes are voted, worsened or cleared. -/
  | disputeCompare
  /-- DPLL_T_MEASUREMENT (R130): A DPLL-T measurement updates the loop terms, checks lock and requests a rate. -/
  | dpllTMeasurement (slot : Fin 16)
  /-- DPLL_F_MEASUREMENT (R130): A DPLL-F measurement updates its frequency word and checks lock. -/
  | dpllFMeasurement (sample : FreqSample)
  /-- MEDIA_LOOP_UPDATE (R151): Every 1 µs, DPLL-A and DPLL-B compare their phase with device time and adjust. -/
  | mediaLoopUpdate (loopB : Bool)
  /-- STEERING (R137): A timed commit of steering changes the owner's steering term. -/
  | steering (value : Int)
  /-- OSC_MONITOR (R138): Every 10 s the oscillator is compared with the keep clock, and an alarm is raised beyond the limit. -/
  | oscMonitor (offset : Int)
  /-- EFC_UPDATE (R140): The EFC code moves by 1 LSB towards a zero predicted offset. -/
  | efcUpdate
  /-- EFC_COMPENSATE (R140): At the write stamp plus efc_settle, the code change is compensated in every loop and synthesiser. -/
  | efcCompensate
  /-- MODEL_LEARN_SAMPLE (R142): Once per second while locked, the estimator takes a sample and refits the model. -/
  | modelLearnSample (temp : Int)
  /-- HOLDOVER_RATE_UPDATE (R91): Once per second in holdover and free-run, the estimator requests a rate. -/
  | holdoverRateUpdate (temp : Int)
  /-- HOLDOVER_REMAINING_UPDATE (R149): holdover_remaining is recomputed every 1 s. -/
  | holdoverRemainingUpdate
  /-- MODEL_STORE (R143): Every 60 s the model is written to Snowdrop. -/
  | modelStore
  /-- MODEL_RESET (R142): A commit of model_reset := true clears the model to NONE. -/
  | modelReset
  /-- OUTPUT_EDGE (R153): An output generator produces the edge for a grid instant. -/
  | outputEdge (output : Fin 20) (pad : Option Int)
  /-- PAD_COMPENSATION_UPDATE (R166): Once per second, pad delay is re-measured and the compensation adjusted. -/
  | padCompensationUpdate (output : Fin 20) (delay : Option Int)
  /-- OUTPUT_PHASE_JUMP (R163): A timed output change takes effect as a phase jump at the next grid instant. -/
  | outputPhaseJump (output : Fin 20)
  /-- START_TIME_COMMIT (R160): A commit of start_time starts a new start-pulse series. -/
  | startTimeCommit (output : Fin 20) (time : Nat)
  /-- ALIGN_TRIGGER (R169): A commit of align_trigger starts measuring input edges for alignment. -/
  | alignTrigger (output : Fin 20)
  /-- ALIGN_APPLIED (R169): After align_count edges, the correction C is applied as a phase jump. -/
  | alignApplied (output : Fin 20)
  /-- ALIGN_TIMEOUT (R169): Edges missing within the limit make the alignment fail, leaving the output unchanged. -/
  | alignTimeout (output : Fin 20)
  /-- ALIGN_CONTINUOUS_UPDATE (R170): Each later block of edges gives a correction that is slewed in. -/
  | alignContinuousUpdate (output : Fin 20)
  /-- TODOUT_FRAME (R172): A TODOUT frame is sent todout_delay after the labelled edge. -/
  | todoutFrame (todout : Fin 4)
  /-- CAPTURE_EDGE (R173): An accepted capture edge is stamped and enters the stamp queue. -/
  | captureEdge (capture : Fin 16) (stamp : Nat) (falling : Bool) (stable : Nat)
  /-- CAPTURE_CONVERT (R175): Conversion drains one stamp-queue entry into the FIFO. -/
  | captureConvert (capture : Fin 16)
  /-- CAP_ACK_SEQ (R175): A commit of cap_ack_seq consumes FIFO entries. -/
  | capAckSeq (capture : Fin 16) (seq : Nat)
  /-- BAND_MONITOR (R182): Every 100 ms the band monitor evaluates band_state, power and clipping. -/
  | bandMonitor (band : Fin 2) (ms0 ms20 ms40 ms60 ms80 : List PinBlock)
  /-- FESPI_SCRIPT_SEND (R183): A band's front-end script is sent over FESPI, at wake or at a commit of the script. -/
  | fespiScriptSend (band : Fin 2) (reads : List Bytes)
  /-- FESPI_SETTLE_END (R183): 10 ms after a script ends, that band's samples are used again. -/
  | fespiSettleEnd (band : Fin 2)
  /-- ANT_SHORT (R184): ANTSHORT high for 1 ms turns the antenna supply off. -/
  | antShort
  /-- ANT_RETRY (R184): After ant_retry seconds, ANTEN is driven high again. -/
  | antRetry
  /-- ANT_OPEN (R184): ANTOK low for 1 s with ANTEN high gives ant_state 2. -/
  | antOpen
  /-- NOTCH_SCAN (R187): Every 10 ms a spectrum is taken, and notches are placed or released. -/
  | notchScan (band : Fin 2) (lines : List (Int × Nat))
  /-- ACQUISITION_SEARCH (R191): A search stage completes, with a detection or the stages exhausted. -/
  | acquisitionSearch (channel : Fin 256) (band : Fin 2) (found : Option Detection)
  /-- TRACKER_LOCK (R199): A tracker reaches the pull-in criterion and moves to TRACK. -/
  | trackerLock (channel : Fin 256) (run : TrackerRun)
  /-- PULL_IN_TIMEOUT (R199): 2 s in PULL_IN without TRACK moves the tracker to REACQ. -/
  | pullInTimeout (channel : Fin 256) (band : Fin 2)
  /-- TRACKER_LOSS (R199): Weak signal for loss_time, or coasting beyond 20 ms, moves the tracker to REACQ. -/
  | trackerLoss (channel : Fin 256) (run : TrackerRun)
  /-- REACQ_TIMEOUT (R199): When reacq_time elapses, the tracker returns to IDLE. -/
  | reacqTimeout (channel : Fin 256) (band : Fin 2)
  /-- SYMBOL_SYNC (R199): Symbol sync and pilot secondary-code sync move the tracker to SYNC. -/
  | symbolSync (channel : Fin 256) (band : Fin 2)
  /-- TRANSMIT_TIME_RESOLVED (R200): The full transmit time is resolved and the tracker becomes READY. -/
  | transmitTimeResolved (channel : Fin 256) (read : MessageTime)
  /-- NAV_PAGE (R201): A decoded navigation page is checked and its content is used or discarded. -/
  | navPage (channel : Fin 256) (band : Fin 2) (page : NavPageRead)
  /-- ORBIT_STORE_PERSIST (R196): Every 900 s the orbit store is written to the boot-flash orbit area. -/
  | orbitStorePersist
  /-- OBSERVATION_EPOCH (R203): At an epoch, observations are formed for every tracker and the observation window is replaced. -/
  | observationEpoch (obs : List SkyObs)
  /-- TIMING_SOLUTION (R208): The solution for an epoch delivers ε, its sigma and the integrity state to the sky slot. -/
  | timingSolution
  /-- POSITION_CHECK_FIX (R215): Every 60 s a navigation fix is checked against the held position. -/
  | positionCheckFix (epoch : Nat)
  /-- SURVEY_RESTART (R214): A commit of survey_restart discards the held position and restarts survey-in. -/
  | surveyRestart
  /-- GRIST_REQUEST (R221): An owner commit of grist_request requests a capture, or fails with BUSY. -/
  | gristRequest (request : Nat)
  /-- GRIST_CAPTURE_START (R222): A Grist capture starts at the first grid sample after the latest of its start instants. -/
  | gristCaptureStart
  /-- GRIST_CAPTURE_COMPLETE (R222): The capture completes, its header is written and the capture is journalled. -/
  | gristCaptureComplete (samples : Bytes)
  /-- GRIST_SOLVE_COMPLETE (R224): A snapshot solve ends with a fix or a failure status. -/
  | gristSolveComplete
  /-- GRIST_HOLD (R225): A commit of grist_hold keeps or releases the snapshot buffer. -/
  | gristHold (hold : Bool)
  /-- LINK_UP (R229): Lock held for 10 ms, or negotiation resolved, brings the port link up. -/
  | linkUp (port : Fin 64) (speed : Nat) (fec : Nat) (eee : Bool)
  /-- LINK_DOWN (R229): Loss of lock, module loss or module absence takes the port link down. -/
  | linkDown (port : Fin 64) (cause : Nat)
  /-- PORT_SPEED_CHANGE (R229): A commit of port_speed or port_fec takes the link down and restarts it as a new link. -/
  | portSpeedChange (port : Fin 64) (speed : Nat) (fec : Nat)
  /-- PORT_FRAME_RECEIVE (R230): A received frame is stamped, checked, filtered and classified to an engine queue or a ring. -/
  | portFrameReceive (port : Fin 64) (edge : Rat) (o : Nat) (skew : Rat) (frame : Bytes)
  /-- SENTINEL_LOCK (R239): 4096 good stamps with marker lock make the sentinel LOCKED. -/
  | sentinelLock (port : Fin 64) (tx : Bool) (first : FirstEdge) (later : List Nat)
  /-- SENTINEL_UNLOCK (R239): A residual beyond ±50 ps, loss of marker lock or a word slip returns the sentinel to ACQUIRING. -/
  | sentinelUnlock (port : Fin 64) (loss : SentinelLoss)
  /-- CAL_FRAME_SEND (R241): Every cal_interval, each port of a pair sends a calibration frame. -/
  | calFrameSend (port : Fin 64)
  /-- CAL_FRAME_RECEIVE (R243): A received calibration frame completes an exchange and updates cal_offset and cal_correction. -/
  | calFrameReceive (port : Fin 64) (edge : Rat) (o : Nat) (frame : Bytes)
  /-- DEPARTURE_FIX (R244): The egress scheduler fixes a frame's departure tick and stamp, and fills the reservation. -/
  | departureFix (port : Fin 64) (word : Nat) (o : Nat)
  /-- FRAME_DEPARTURE (R246): The frame is sent at D, with its timestamp inserted and its checksums corrected. -/
  | frameDeparture (port : Fin 64) (err : Rat)
  /-- GOVERNOR_EVALUATE (R251): The speed governor lowers or raises the port speed by Clause 73 renegotiation. -/
  | governorEvaluate (port : Fin 64)
  /-- LPI_ENTER (R253): After gov_lpi_idle µs without a frame, the transmit side enters low-power idle. -/
  | lpiEnter (port : Fin 64)
  /-- ESMC_TX (R254): Once per second, a port sends an ESMC information PDU. -/
  | esmcTx (port : Fin 64)
  /-- ESMC_EVENT_PDU (R254): Within 10 ms of a change of code, the port sends an event PDU. -/
  | esmcEventPdu (port : Fin 64)
  /-- SIDEBAND_SCAN (R256): Every sb_period the module sideband chains are scanned and module inputs take effect. -/
  | sidebandScan (first : Nat) (second : Nat) (third : Nat)
  /-- THREAD_START (R264): A free thread takes the next frame or timer event from its engine's class queues. -/
  | threadStart (engine : Fin 8) (thread : Fin 16)
  /-- INSTRUCTION_LIMIT (R264): A thread that reaches instr_limit is stopped and its frame discarded. -/
  | instructionLimit (engine : Fin 8) (thread : Fin 16)
  /-- AES_JOB_COMPLETE (R270): An AES-SIV job completes on its lane and writes its output. -/
  | aesJobComplete (engine : Fin 8) (thread : Fin 16) (tag : Nat)
  /-- CLIENT_LOOKUP_COMPLETE (R274): A client table lookup completes, or returns late at lookup_deadline. -/
  | clientLookupComplete (engine : Fin 8) (thread : Fin 16)
  /-- CACHE_WRITEBACK (R274): A dirty cache entry is written back to DRAM within 100 ms, or at eviction. -/
  | cacheWriteback (index : Nat)
  /-- CLIENT_TABLE_SWEEP (R276): Every 60 s the client table unit reclaims aged entries. -/
  | clientTableSweep
  /-- TIMER_WHEEL_SLOT (R277): At each due slot, the wheel issues timer events for grants and multicast ports. -/
  | timerWheelSlot
  /-- SKETCH_DECAY (R280): Every sketch_period, every sketch counter is halved. -/
  | sketchDecay
  /-- QUIETN_ASSERT (R282): QUIETn low stops serving. -/
  | quietnAssert
  /-- QUIETN_DEASSERT (R282): QUIETn goes high again after a stop. -/
  | quietnDeassert
  /-- SERVE_QUIET (R282): A commit of serve_quiet stops or permits serving. -/
  | serveQuiet (value : Bool)
  /-- SERVING_RESUME (R282): 1 ms after QUIETn is high and serve_quiet is false, serving resumes. -/
  | servingResume
  /-- CONSOLIDATION_EVALUATE (R283): Each 1 ms, engine demand sets the number of pairs kept, and buckets are moved. -/
  | consolidationEvaluate
  /-- PAIR_GATE (R283): A pair holding no bucket and idle for gate_delay is gated. -/
  | pairGate (pair : Fin 4)
  /-- PAIR_WAKE_COMPLETE (R35): A woken engine pair serves within 2 µs. -/
  | pairWakeComplete (pair : Fin 4)
  /-- PROGRAM_VERIFY (R286): A commit that stages program_staging starts verification of the image. -/
  | programVerify (image : Bytes)
  /-- PROGRAM_VERIFY_COMPLETE (R286): The image check ends, with the image verified or rejected. -/
  | programVerifyComplete
  /-- PROGRAM_ACTIVATE (R286): At the activation tick, every engine loads region B and resumes. -/
  | programActivate
  /-- PROGRAM_COUNTER_CLEAR (R458): A commit of program_counter_clear clears counters 128–255. -/
  | programCounterClear
  /-- RING_FRAME_HANDLE (R266): Firmware takes a frame from rings 2, 4, 5, 6 or 8–127, handles it and frees it. -/
  | ringFrameHandle (ring : Nat)
  /-- NOP (R298): The nop instruction does nothing. -/
  | isaNop (engine : Fin 8) (thread : Fin 16)
  /-- ADD (R298): dest := A + B. -/
  | isaAdd (engine : Fin 8) (thread : Fin 16)
  /-- SUB (R298): dest := A − B. -/
  | isaSub (engine : Fin 8) (thread : Fin 16)
  /-- AND (R298): Bitwise AND of A and B. -/
  | isaAnd (engine : Fin 8) (thread : Fin 16)
  /-- OR (R298): Bitwise OR of A and B. -/
  | isaOr (engine : Fin 8) (thread : Fin 16)
  /-- XOR (R298): Bitwise exclusive OR of A and B. -/
  | isaXor (engine : Fin 8) (thread : Fin 16)
  /-- SHL (R298): Logical shift left. -/
  | isaShl (engine : Fin 8) (thread : Fin 16)
  /-- SHR (R298): Logical shift right. -/
  | isaShr (engine : Fin 8) (thread : Fin 16)
  /-- SAR (R298): Arithmetic shift right. -/
  | isaSar (engine : Fin 8) (thread : Fin 16)
  /-- MUL (R298): Low 64 bits of the unsigned product. -/
  | isaMul (engine : Fin 8) (thread : Fin 16)
  /-- MULHU (R298): High 64 bits of the unsigned product. -/
  | isaMulhu (engine : Fin 8) (thread : Fin 16)
  /-- ADDC (R298): 16-bit one's complement sum with end-around carry. -/
  | isaAddc (engine : Fin 8) (thread : Fin 16)
  /-- MINU (R298): Unsigned minimum. -/
  | isaMinu (engine : Fin 8) (thread : Fin 16)
  /-- MAXU (R298): Unsigned maximum. -/
  | isaMaxu (engine : Fin 8) (thread : Fin 16)
  /-- SLTU (R298): dest := 1 if A < B unsigned, else 0. -/
  | isaSltu (engine : Fin 8) (thread : Fin 16)
  /-- ORHI (R298): dest := A OR (imm << 32). -/
  | isaOrhi (engine : Fin 8) (thread : Fin 16)
  /-- BEQ (R298): Branch when A equals B. -/
  | isaBeq (engine : Fin 8) (thread : Fin 16)
  /-- BNE (R298): Branch when A differs from B. -/
  | isaBne (engine : Fin 8) (thread : Fin 16)
  /-- BLTU (R298): Branch when A < B unsigned. -/
  | isaBltu (engine : Fin 8) (thread : Fin 16)
  /-- BGEU (R298): Branch when A ≥ B unsigned. -/
  | isaBgeu (engine : Fin 8) (thread : Fin 16)
  /-- BLT (R298): Branch when A < B signed. -/
  | isaBlt (engine : Fin 8) (thread : Fin 16)
  /-- BGE (R298): Branch when A ≥ B signed. -/
  | isaBge (engine : Fin 8) (thread : Fin 16)
  /-- BSET (R298): Branch when the named bit of A is 1. -/
  | isaBset (engine : Fin 8) (thread : Fin 16)
  /-- BCLR (R298): Branch when the named bit of A is 0. -/
  | isaBclr (engine : Fin 8) (thread : Fin 16)
  /-- JMP (R298): Jump to an absolute address. -/
  | isaJmp (engine : Fin 8) (thread : Fin 16)
  /-- CALL (R299): Push the next address and jump, faulting on stack overflow. -/
  | isaCall (engine : Fin 8) (thread : Fin 16)
  /-- RET (R299): Pop and jump, faulting on an empty stack. -/
  | isaRet (engine : Fin 8) (thread : Fin 16)
  /-- XENT (R300): Restart at a built-in entry point with cleared registers and scratch. -/
  | isaXent (engine : Fin 8) (thread : Fin 16)
  /-- LD8 (R298): Load one byte from the windows. -/
  | isaLd8 (engine : Fin 8) (thread : Fin 16)
  /-- LD16 (R298): Load two bytes from the windows. -/
  | isaLd16 (engine : Fin 8) (thread : Fin 16)
  /-- LD32 (R298): Load four bytes from the windows. -/
  | isaLd32 (engine : Fin 8) (thread : Fin 16)
  /-- LD64 (R298): Load eight bytes from the windows. -/
  | isaLd64 (engine : Fin 8) (thread : Fin 16)
  /-- ST8 (R298): Store one byte into the windows. -/
  | isaSt8 (engine : Fin 8) (thread : Fin 16)
  /-- ST16 (R298): Store two bytes into the windows. -/
  | isaSt16 (engine : Fin 8) (thread : Fin 16)
  /-- ST32 (R298): Store four bytes into the windows. -/
  | isaSt32 (engine : Fin 8) (thread : Fin 16)
  /-- ST64 (R298): Store eight bytes into the windows. -/
  | isaSt64 (engine : Fin 8) (thread : Fin 16)
  /-- CPY (R298): Copy up to 512 window bytes as if through a temporary. -/
  | isaCpy (engine : Fin 8) (thread : Fin 16)
  /-- CSUM (R298): One's complement sum over a window range. -/
  | isaCsum (engine : Fin 8) (thread : Fin 16)
  /-- TURN (R301): Transform the packet window for a reply by swapping addresses and ports and setting the TTL. -/
  | isaTurn (engine : Fin 8) (thread : Fin 16)
  /-- CLOOK (R302): Client lookup, with bucket refill and optional taking of a request. -/
  | isaClook (engine : Fin 8) (thread : Fin 16)
  /-- CCREATE (R302): Client entry creation under the conditions of R275. -/
  | isaCcreate (engine : Fin 8) (thread : Fin 16)
  /-- CWRITE (R302): Write the client window to the held entry. -/
  | isaCwrite (engine : Fin 8) (thread : Fin 16)
  /-- SKETCH (R280): Count the source key in the sketch and return the estimate. -/
  | isaSketch (engine : Fin 8) (thread : Fin 16)
  /-- AESQ (R303): Submit an AES job and return its tag. -/
  | isaAesq (engine : Fin 8) (thread : Fin 16)
  /-- AESW (R303): Wait for an AES job and return its status. -/
  | isaAesw (engine : Fin 8) (thread : Fin 16)
  /-- RAND (R298): Take 64 bits from the random-number source. -/
  | isaRand (engine : Fin 8) (thread : Fin 16)
  /-- EMIT (R304): Emit a copy of the packet window with a timestamp insertion request. -/
  | isaEmit (engine : Fin 8) (thread : Fin 16)
  /-- DROP (R305): Discard the frame and end the thread, optionally counting. -/
  | isaDrop (engine : Fin 8) (thread : Fin 16)
  /-- PUNT (R305): Pass the frame to a ring and end the thread. -/
  | isaPunt (engine : Fin 8) (thread : Fin 16)
  /-- CINC (R306): Atomically increment a program counter. -/
  | isaCinc (engine : Fin 8) (thread : Fin 16)
  /-- ANNOUNCE_RECEIVE (R311): Firmware runs the BMCA on a received Announce and applies the state decision. -/
  | announceReceive
  /-- ANNOUNCE_RECEIPT_TIMEOUT (R313): announceReceiptTimeout expiring changes the port state. -/
  | announceReceiptTimeout (inst : Fin 4) (port : Fin 64)
  /-- PTP_MANAGEMENT (R317): A PTP Management message is answered: GET with data, SET and COMMAND with NOT_SUPPORTED. -/
  | ptpManagement
  /-- SM_TLV_SEND (R317): Once per second, profile 4 ports send the synchronization metadata TLV. -/
  | smTlvSend (inst : Fin 4) (port : Fin 64)
  /-- UNICAST_RENEW (R318): A time-receiver renews its grants at half duration and retries refusals after 8 s. -/
  | unicastRenew (inst : Fin 4) (master : Fin 4) (message : Nat)
  /-- COOKIE_KEY_ROTATE (R328): At a key boundary, the current cookie key number advances. -/
  | cookieKeyRotate
  /-- NTS_MASTER_KEY (R328): A commit of nts_master_key takes effect at the next key boundary. -/
  | ntsMasterKey (key : Bytes)
  /-- NTS_KE_HANDSHAKE (R329): Firmware runs an NTS-KE TLS 1.3 exchange and returns keys and cookies. -/
  | ntsKeHandshake (hello : KeHello)
  /-- NTS_KE_IDLE_TIMEOUT (R329): An NTS-KE connection idle for 10 s is closed. -/
  | ntsKeIdleTimeout (conn : Nat)
  /-- BN_CHAIN_START (R335): The engine takes the next chain round-robin and fetches and checks its descriptors. -/
  | bnChainStart (post : Option (Fin 4 × Nat × List (Nat × Bytes)))
  /-- ROW_MAC (R332): Compute C + A·b. -/
  | rowMac (bad : Option (Nat × Byte))
  /-- PRODUCT (R332): Compute C + A·B. -/
  | product (bad : Option (Nat × Byte))
  /-- MONT_ROW (R332): Compute one Montgomery row. -/
  | montRow (bad : Option (Nat × Byte))
  /-- BN_ABORT (R342): A chain is aborted by its queue, a block reset or a reset. -/
  | bnAbort (queue : Fin 4)
  /-- BN_SELFTEST (R343): The known-answer self-test runs and ends with pass or fail. -/
  | bnSelftest (pass : Bool)
  /-- NTS_KE_KEYGEN (R434): A commit of nts_ke_keygen generates the slot 1 key and then zeroes nts_ke_chain. -/
  | ntsKeKeygen
  /-- FW_VERIFY (R358): A commit of fw_verify checks the staged firmware image. -/
  | fwVerify
  /-- FW_ACTIVATE (R358): A commit of fw_activate starts a trial and restarts the control domain on the new image. -/
  | fwActivate
  /-- DEBUG_CHALLENGE (R362): A read of debug_challenge creates a challenge if none is pending. -/
  | debugChallenge
  /-- DEBUG_RESPONSE (R362): A write of debug_response unlocks diagnostic or full debug, or is rejected. -/
  | debugResponse (response : Bytes)
  /-- DEBUG_CHALLENGE_EXPIRY (R362): A pending challenge expires after 300 s. -/
  | debugChallengeExpiry
  /-- JTAG_BYPASS (R361): The JTAG BYPASS instruction. -/
  | jtagBypass
  /-- JTAG_IDCODE (R361): The JTAG IDCODE instruction. -/
  | jtagIdcode
  /-- JTAG_SAMPLE_PRELOAD (R361): The JTAG SAMPLE/PRELOAD instruction. -/
  | jtagSamplePreload
  /-- JTAG_EXTEST (R361): The JTAG EXTEST instruction, which takes the pins from the device's functions. -/
  | jtagExtest
  /-- PATROL_READ (R370): A patrol reads and verifies an unread tile. -/
  | patrolRead (region : Nat) (addr : BitVec 64) (fault : TileFault) (last : Bool) (holds : TileHolds)
  /-- QUARANTINE_COMPLETE (R372): A quarantined tile is zeroed, read back and freed, or retired. -/
  | quarantineComplete (region : Nat) (addr : BitVec 64)
  /-- TILE_COPY_RELOAD (R371): A firmware or region B copy in DRAM is reloaded within 100 ms. -/
  | tileCopyReload
  /-- CROSSING_RESYNC (R404): A crossing resynchronises by handshake after one side leaves reset. -/
  | crossingResync (crossing : Nat) (discarded : Nat)
  /-- CROSSING_HANG (R403): A request unanswered for 1 ms is latched and counted. -/
  | crossingHang (crossing : Nat) (processor : Option (Fin 4))
  /-- SNAP_REQUEST (R412): A timed commit of snap_request latches every counter block. -/
  | snapRequest
  /-- SNAP_PERIODIC (R412): A periodic snapshot is made at each multiple of snap_period. -/
  | snapPeriodic
  /-- COUNTER_WRAP (R414): A counter wraps and sets its overflow bit. -/
  | counterWrap (block : Fin 16) (counter : Fin 9)
  /-- SAMPLE_CLEAR (R420): A commit of sample_clear empties every sample buffer. -/
  | sampleClear
  /-- ACTIVATION_COMPLETE (R79): The control domain finishes restarting on the new image: OOL answers HELLO again, BMCA decisions and ring processing resume, and a SPARGE exit deferred during the activation takes effect. -/
  | activationComplete
  /-- SYNC_RECEIPT_TIMEOUT (R118): No Sync arrives within the receipt timeout of a kind 5 slot's instance, and the slot fails with cause source down. -/
  | syncReceiptTimeout (slot : Fin 16)
  /-- ANT_CURRENT_IN_RANGE (R184): ANTOK goes high with ANTEN high and ant_state returns from 2 (open) to 1 (ok), journalled with code 0x3003. -/
  | antCurrentInRange
  /-- VKEEP_REMOVAL (R396): VKEEP is removed while main supply is off, the keep island falls below retention and loses its coarse time, model store and tamper latch. -/
  | vkeepRemoval
  /-- DELAY_REQ_SEND (R313): A time-receiver port of an E2E instance sends its periodic Delay_Req at log_delay_req. -/
  | delayReqSend (inst : Fin 4) (port : Fin 64)
  /-- PDELAY_REQ_SEND (R316): A member port of a P2P or 802.1AS instance sends its periodic Pdelay_Req to measure the mean link delay. -/
  | pdelayReqSend (inst : Fin 4) (port : Fin 64)
deriving DecidableEq, Repr

end Sys2Proof
end

