-- ==== Sys2Proof/Machine/Bits.lean ====
section
/-! DEFINITION. Byte order, rounding and check sums used everywhere: big-endian fields (R6), half-to-even rounding
(R11, R18), CRC-32C (R19, RFC 3720), the one's complement sum. -/

namespace Sys2Proof.Machine

/-- The `w` low bytes of a natural number, most significant first (R6). -/
def beNat : Nat → Nat → Bytes
  | 0, _ => []
  | w + 1, x => BitVec.ofNat 8 (x / 2 ^ (8 * w)) :: beNat w x

/-- The `w` bytes of an integer in two's complement, most significant first. -/
def be (w : Nat) (x : Int) : Bytes := beNat w (x % 2 ^ (8 * w)).toNat

/-- The number a byte string spells, most significant byte first. -/
def ofBe (b : Bytes) : Nat := b.foldl (fun a x => a * 256 + x.toNat) 0

/-- A field of a byte string: `n` bytes from `i`, missing bytes read 0. -/
def field (b : Bytes) (i n : Nat) : Bytes := (List.range n).map fun k => b.getD (i + k) 0

/-- Pad with zeros or cut to a size. -/
def padTo (size : Nat) (b : Bytes) : Bytes := b.take size ++ List.replicate (size - b.length) 0

/-- A numeric field. -/
def fieldN (b : Bytes) (i n : Nat) : Nat := ofBe (field b i n)

/-- A natural number read as a `w`-bit two's complement number. -/
def signed (w : Nat) (x : Nat) : Int := if x < 2 ^ (w - 1) then x else (x : Int) - 2 ^ w

/-- Rounding half to even of a / d (R11, R18). -/
def rneDiv (a : Int) (d : Nat) : Int :=
  let q := a / (d : Int)
  let r := a % (d : Int)
  if 2 * r < d then q else if (d : Int) < 2 * r then q + 1 else if q % 2 = 0 then q else q + 1

/-- Clamp to an interval. -/
def clampInt (lo hi x : Int) : Int := if x < lo then lo else if hi < x then hi else x

/-- The largest natural number whose square is at most `n` (by bisection over `fuel` bits). -/
def isqrtAux (n : Nat) : Nat → Nat → Nat
  | 0, r => r
  | k + 1, r => if (r + 2 ^ k) * (r + 2 ^ k) ≤ n then isqrtAux n k (r + 2 ^ k) else isqrtAux n k r

/-- Integer square root of numbers below 2^256. -/
def isqrt (n : Nat) : Nat := isqrtAux n 128 0

/-- The square root of a / d, rounded to the nearest integer, half to even (R11). -/
def roundSqrt (a d : Nat) : Nat :=
  let r := isqrt (4 * a / d)
  if r % 4 = 1 ∧ r * r * d = 4 * a then r / 2 else (r + 1) / 2

/-- One bit of CRC-32C, reflected polynomial of 0x1EDC6F41. -/
def crcBit : Nat → Nat → Nat
  | 0, c => c
  | k + 1, c => crcBit k (if c % 2 = 1 then (c / 2) ^^^ 0x82F63B78 else c / 2)

/-- CRC-32C of a byte string (R19). -/
def crc32c (b : Bytes) : Nat :=
  (b.foldl (fun c x => crcBit 8 (c ^^^ x.toNat)) 0xFFFFFFFF) ^^^ 0xFFFFFFFF

/-- The one's complement 16-bit sum of a byte string, an odd last byte padded with zero. -/
def sum16 : Bytes → Nat
  | [] => 0
  | [a] => a.toNat * 256
  | a :: b :: r => a.toNat * 256 + b.toNat + sum16 r

/-- Fold a sum into 16 bits with end-around carry. -/
def fold16 (x : Nat) : Nat :=
  let y := x % 65536 + x / 65536
  let z := y % 65536 + y / 65536
  z % 65536 + z / 65536

/-- Bit `i` of a number. -/
def bit (x i : Nat) : Bool := x / 2 ^ i % 2 = 1

/-- Set or clear bit `i`. -/
def setBit (x i : Nat) (v : Bool) : Nat :=
  if v then (if bit x i then x else x + 2 ^ i) else (if bit x i then x - 2 ^ i else x)

/-- Replace the bytes of a string from offset `i`. -/
def patch (b : Bytes) (i : Nat) (p : Bytes) : Bytes := b.take i ++ p ++ b.drop (i + p.length)

/-- Elapsed ticks of 0.8 ns in microseconds, milliseconds and seconds (R8). -/
abbrev ticksUs (n : Nat) : Nat := n * 1250
abbrev ticksMs (n : Nat) : Nat := n * 1250000
abbrev ticksS (n : Nat) : Nat := n * 1250000000

/-- 2^-16 ns units per second. -/
abbrev unitsPerS : Int := 65536000000000

/-- A TIME112 value in 2^-16 ns units from its 14 bytes (R8), and back. -/
def timeOfBytes (b : Bytes) : Int :=
  (fieldN b 0 8 : Int) * unitsPerS + (fieldN b 8 4 : Int) * 65536 + fieldN b 12 2

def timeToBytes (t : Int) : Bytes :=
  let sub := t % unitsPerS
  be 8 (t / unitsPerS) ++ be 4 (sub / 65536) ++ be 2 (sub % 65536)

/-- A DUR96 value in ns from its 12 bytes (R9), and back. -/
def durOfBytes (b : Bytes) : Int := signed 64 (fieldN b 0 8) * 1000000000 + fieldN b 8 4

def durToBytes (d : Int) : Bytes := be 8 (d / 1000000000) ++ be 4 (d % 1000000000)

/-- 2^-16 ns units to ns, half to even. -/
def unitsToNs (u : Int) : Int := rneDiv u 65536

/-- ps to 2^-16 ns units, half to even. -/
def psToUnits (p : Int) : Int := rneDiv (p * 65536) 1000

/-- ps to raw stamp units of 1/256 tick (3.125 ps), half to even. -/
def psToStamp (p : Int) : Int := rneDiv (p * 8) 25

/-- Round a raw stamp to 1/128 tick (R86), half to even. -/
def stamp128 (x : Nat) : Nat := (rneDiv x 2).toNat * 2

/-- A raw stamp less a delay in ps, rounded once to 1/128 tick, half to even (R11, R86). -/
def stampLess (stamp : Nat) (ps : Int) : Nat := (rneDiv (25 * (stamp : Int) - 8 * ps) 50).toNat * 2

end Sys2Proof.Machine
end

