-- ==== Sys2Proof/Machine/Digest.lean ====
section
/-! DEFINITION. SHA-2 (FIPS 180-4), HMAC (RFC 2104), HKDF and the exporter of TLS 1.3 (RFC 8446), in the editions of R19. -/

namespace Sys2Proof.Machine

/-! ## Constants of FIPS 180-4 -/

/-- The first primes, 80 of them. -/
def firstPrimes : List Nat :=
  (List.range 410).filter fun n => 2 ≤ n && ((List.range 21).all fun d => d < 2 || n ≤ d || n % d ≠ 0)

/-- The largest natural number whose cube is at most `n` (by bisection over `fuel` bits). -/
def cubeRootAux (n : Nat) : Nat → Nat → Nat
  | 0, r => r
  | k + 1, r => if (r + 2 ^ k) ^ 3 ≤ n then cubeRootAux n k (r + 2 ^ k) else cubeRootAux n k r

/-- The first 64 fraction bits of the cube roots of the primes: the constants of SHA-512; those of SHA-256 are the high
halves of the first 64. -/
def shaConstants : List Nat := firstPrimes.map fun p => cubeRootAux (p * 2 ^ 192) 68 0 % 2 ^ 64

/-- The first 64 fraction bits of the square roots of the first sixteen primes: the initial values of SHA-512, then those
of SHA-384; those of SHA-256 are the high halves of the first eight. -/
def shaInitial : List Nat := (firstPrimes.take 16).map fun p => isqrt (p * 2 ^ 128) % 2 ^ 64

/-! ## The compression function -/

/-- What SHA-256 and SHA-512 differ in: bytes of a word, the amounts of the four sigma functions, the constants. -/
structure ShaKind where
  bytes : Nat
  big0 : Nat × Nat × Nat
  big1 : Nat × Nat × Nat
  small0 : Nat × Nat × Nat
  small1 : Nat × Nat × Nat
  constants : List Nat

def sha256Kind : ShaKind :=
  { bytes := 4, big0 := (2, 13, 22), big1 := (6, 11, 25), small0 := (7, 18, 3), small1 := (17, 19, 10),
    constants := (shaConstants.take 64).map fun k => k / 2 ^ 32 }

def sha512Kind : ShaKind :=
  { bytes := 8, big0 := (28, 34, 39), big1 := (14, 18, 41), small0 := (1, 8, 7), small1 := (19, 61, 6), constants := shaConstants }

/-- Rotate a word of `w` bits right. -/
def rotateRight (w x n : Nat) : Nat := x / 2 ^ n + x % 2 ^ n * 2 ^ (w - n)

/-- A sigma function of three rotations, and one whose last amount is a shift. -/
def sigmaRotate (w : Nat) (r : Nat × Nat × Nat) (x : Nat) : Nat := rotateRight w x r.1 ^^^ rotateRight w x r.2.1 ^^^ rotateRight w x r.2.2
def sigmaShift (w : Nat) (r : Nat × Nat × Nat) (x : Nat) : Nat := rotateRight w x r.1 ^^^ rotateRight w x r.2.1 ^^^ x / 2 ^ r.2.2

/-- The message schedule, newest word first, with `n` more words to form. -/
def shaSchedule (k : ShaKind) : Nat → List Nat → List Nat
  | 0, l => l
  | n + 1, l =>
    let w := 8 * k.bytes
    shaSchedule k n ((sigmaShift w k.small1 (l.getD 1 0) + l.getD 6 0 + sigmaShift w k.small0 (l.getD 14 0) + l.getD 15 0) % 2 ^ w :: l)

/-- The eight working variables. -/
structure ShaVars where
  a : Nat
  b : Nat
  c : Nat
  d : Nat
  e : Nat
  f : Nat
  g : Nat
  h : Nat

/-- One round with constant plus schedule word. -/
def shaRound (k : ShaKind) (v : ShaVars) (kw : Nat) : ShaVars :=
  let w := 8 * k.bytes
  let choose := (v.e &&& v.f) ^^^ ((2 ^ w - 1 - v.e) &&& v.g)
  let t := v.h + sigmaRotate w k.big1 v.e + choose + kw
  let majority := (v.a &&& v.b) ^^^ (v.a &&& v.c) ^^^ (v.b &&& v.c)
  { a := (t + sigmaRotate w k.big0 v.a + majority) % 2 ^ w, b := v.a, c := v.b, d := v.c, e := (v.d + t) % 2 ^ w, f := v.e, g := v.f,
    h := v.g }

/-- The chaining values after one block. -/
def shaBlock (k : ShaKind) (h : List Nat) (block : Bytes) : List Nat :=
  let first := ((List.range 16).map fun i => fieldN block (i * k.bytes) k.bytes).reverse
  let words := (shaSchedule k (k.constants.length - 16) first).reverse
  let start : ShaVars :=
    { a := h.getD 0 0, b := h.getD 1 0, c := h.getD 2 0, d := h.getD 3 0, e := h.getD 4 0, f := h.getD 5 0, g := h.getD 6 0, h := h.getD 7 0 }
  let v := (List.zipWith (fun x y => x + y) k.constants words).foldl (shaRound k) start
  List.zipWith (fun x y => (x + y) % 2 ^ (8 * k.bytes)) h [v.a, v.b, v.c, v.d, v.e, v.f, v.g, v.h]

/-- Fold the blocks of a padded message. -/
def shaBlocks (k : ShaKind) : Nat → List Nat → Bytes → List Nat
  | 0, h, _ => h
  | n + 1, h, b => shaBlocks k n (shaBlock k h (b.take (16 * k.bytes))) (b.drop (16 * k.bytes))

/-- The digest, `n` bytes, of a message from initial values: one bit, zeros and the length in bits pad it to whole blocks. -/
@[irreducible] def shaDigest (k : ShaKind) (initial : List Nat) (n : Nat) (m : Bytes) : Bytes :=
  let size := 16 * k.bytes
  let zeros := (2 * size - 1 - 2 * k.bytes - m.length % size) % size
  let padded := m ++ (0x80 :: List.replicate zeros 0) ++ beNat (2 * k.bytes) (8 * m.length)
  ((shaBlocks k (padded.length / size) initial padded).flatMap fun x => beNat k.bytes x).take n

def sha256 (m : Bytes) : Bytes := shaDigest sha256Kind ((shaInitial.take 8).map fun x => x / 2 ^ 32) 32 m
def sha384 (m : Bytes) : Bytes := shaDigest sha512Kind (shaInitial.drop 8) 48 m
def sha512 (m : Bytes) : Bytes := shaDigest sha512Kind (shaInitial.take 8) 64 m

/-! ## HMAC and HKDF -/

/-- The ASCII codes of a text. -/
def ascii (t : String) : Bytes := t.toList.map fun c => BitVec.ofNat 8 c.toNat

/-- HMAC with a digest and its block size (RFC 2104). -/
def hmac (digest : Bytes → Bytes) (size : Nat) (key m : Bytes) : Bytes :=
  let k := padTo size (if size < key.length then digest key else key)
  digest ((k.map fun x => x ^^^ 0x5C) ++ digest ((k.map fun x => x ^^^ 0x36) ++ m))

def hmacSha256 (key m : Bytes) : Bytes := hmac sha256 64 key m
def hmacSha384 (key m : Bytes) : Bytes := hmac sha384 128 key m

/-- HKDF's output, `rounds` blocks, with the block before and its number. -/
def hkdfBlocks (mac : Bytes → Bytes → Bytes) (prk info : Bytes) : Nat → Nat → Bytes → Bytes
  | 0, _, _ => []
  | r + 1, i, last =>
    let t := mac prk (last ++ info ++ beNat 1 i)
    t ++ hkdfBlocks mac prk info r (i + 1) t

/-- HKDF-Expand of at most four blocks. -/
def hkdfExpand (mac : Bytes → Bytes → Bytes) (prk info : Bytes) (n : Nat) : Bytes := (hkdfBlocks mac prk info 4 1 []).take n

/-- HKDF-SHA-256 with an empty salt, 32 bytes (RFC 5869). -/
def hkdfSha256 (secret info : Bytes) : Bytes := hkdfExpand hmacSha256 (hmacSha256 (List.replicate 32 0) secret) info 32

/-! ## The exporter of TLS 1.3 (RFC 8446, RFC 8915) -/

/-- A cipher suite's hash: SHA-256 for 0x1301, SHA-384 for 0x1302. -/
def suiteHash (suite : Nat) : Bytes → Bytes := if suite = 0x1302 then sha384 else sha256
def suiteMac (suite : Nat) : Bytes → Bytes → Bytes := if suite = 0x1302 then hmacSha384 else hmacSha256
def suiteLen (suite : Nat) : Nat := if suite = 0x1302 then 48 else 32

/-- HKDF-Expand-Label. -/
def expandLabel (suite : Nat) (secret label context : Bytes) (n : Nat) : Bytes :=
  let text := ascii "tls13 " ++ label
  hkdfExpand (suiteMac suite) secret (beNat 2 n ++ beNat 1 text.length ++ text ++ beNat 1 context.length ++ context) n

/-- Derive-Secret from a transcript's hash. -/
def deriveSecret (suite : Nat) (secret label hash : Bytes) : Bytes := expandLabel suite secret label hash (suiteLen suite)

/-- The handshake secret of an exchange without a pre-shared key. -/
def handshakeSecret (suite : Nat) (secret : Bytes) : Bytes :=
  let zeros := List.replicate (suiteLen suite) (0 : Byte)
  suiteMac suite (deriveSecret suite (suiteMac suite zeros zeros) (ascii "derived") (suiteHash suite [])) secret

/-- The exporter master secret: the shared secret and the transcript's hash up to the server's Finished. -/
def exporterMaster (suite : Nat) (secret hash : Bytes) : Bytes :=
  let zeros := List.replicate (suiteLen suite) (0 : Byte)
  let main := suiteMac suite (deriveSecret suite (handshakeSecret suite secret) (ascii "derived") (suiteHash suite [])) zeros
  deriveSecret suite main (ascii "exp master") hash

/-- A key of NTS (R329): label EXPORTER-network-time-security, context 0x0000, the AEAD, 0 for C2S and 1 for S2C. -/
def ntsExport (suite : Nat) (master : Bytes) (aead way n : Nat) : Bytes :=
  let context := [0, 0] ++ beNat 2 aead ++ beNat 1 way
  let nothing := suiteHash suite []
  expandLabel suite (deriveSecret suite master (ascii "EXPORTER-network-time-security") nothing) (ascii "exporter")
    (suiteHash suite context) n

end Sys2Proof.Machine
end

