-- ==== Sys2Proof/Config.lean ====
section
/-! DEFINITION. What an implementation fixes and the values the spec leaves open: opaque constants. -/

namespace Sys2Proof.Config

/-- Free integers: applied to the model's own counter `State.freeIdx` where the spec leaves a value open. -/
opaque freeInt : Nat → Int
/-- Free naturals, for open values that are bounded by taking them modulo the bound's width. -/
opaque freeNat : Nat → Nat
/-- Free byte strings: open contents of a given length. -/
opaque freeBytes : Nat → Nat → Bytes

/-- The random-number source (R344): the n-th draw, as bytes of the asked length. -/
opaque randomBytes : Nat → Nat → Bytes

/-- The 256-bit seed programmed in OTP at test, and the error-corrected response of the unclonable circuit (R348). -/
opaque otpSeed : Bytes
opaque pufResponse : Bytes
/-- The nonce of the identity key's record, written at test (R349). -/
opaque identityNonce : Bytes

/-- Firmware version of the running image after the factory load (0x1210.01, Default "Firmware"). -/
opaque fwVersion : Int
/-- Version of the region A programs of the running firmware (0x5100.07). -/
opaque regionAVersion : Int
/-- Monotonic security floor held in OTP (0x1210.04). -/
opaque otpSecurityFloor : Int
/-- Public identity key (0x1401.01, "Test value"). -/
opaque identityPublicKey : Bytes
/-- The Sirkor program key's public key (R360). -/
opaque sirkorProgramKey : Bytes
/-- Key identifier of Sirkor's program key (0x1438.03). -/
opaque sirkorProgramKeyId : Int
/-- Silicon stepping (0x1000.03). -/
opaque stepping : Int
/-- Device serial, 8 bytes (0x1000.04). -/
opaque serial : Bytes
/-- Factory MAC address as a 48-bit number (0x1000.05). -/
opaque factoryMac : Nat
/-- Edition of the object map (0x1000.06). -/
opaque mapEdition : Int
/-- Records in the object directory (0x1000.07). -/
opaque directoryEntries : Int
/-- t_fix of a port in trim, receive and transmit, ps, for a resolved mode and FEC (R236, R461). -/
opaque rxTrimDelay : Nat → Nat → Nat → Int
opaque txTrimDelay : Nat → Nat → Nat → Int

/-- Where in the ±10% that R133 allows a loop's bandwidth lies, for a bandwidth code and a damping. -/
opaque bwTolerance : Nat → Nat → Nat

/-- Calibrated pad delay of an output for a slew code and DOUT level, ps (R166). -/
opaque padCal : Nat → Nat → Nat → Int
/-- What the keep clock adds to an ideal clock between an alignment and a later elapsed tick, 2^-16 ns: the spec bounds
its drift only through keep_drift_bound (R72). -/
opaque keepDrift : Nat → Nat → Int

/-- The broadcast orbit of a record's content, as its interface document defines it (R19, R209): the satellite's position
(ECEF mm, in the frame of that instant) at a system time as nominal TAI in 2^-16 ns. -/
opaque satPosition : Bytes → Int → Int × Int × Int
/-- dt_sat of R209, 2^-16 ns: the broadcast clock polynomial with the relativistic term of the interface document (R19). -/
opaque satClock : Bytes → Int → Int
/-- The Saastamoinen zenith delays of R209 for a standard atmosphere, dry and wet, 2^-16 ns, at a latitude (0.01 degrees)
and height (mm): the spec names the model and gives no figure of it. -/
opaque zenithDry : Int → Int → Int
opaque zenithWet : Int → Int → Int
/-- The Niell dry and wet mapping functions of R209 over 2^32: latitude (0.01 degrees), height (mm) and time (2^-16 ns,
TAI) for the dry one, elevation (0.01 degrees); named by the spec without a figure. -/
opaque niellDry : Int → Int → Int → Int → Int
opaque niellWet : Int → Int → Int
/-- bgd of a signal code (R209), 2^-16 ns. -/
opaque satGroupDelay : Bytes → Nat → Int
/-- The single-band ionosphere model of R209: band, transmit time, position, 2^-16 ns. -/
opaque satIono : Bytes → Nat → Int → Int × Int × Int → Int
/-- The fit interval a record's interface document states, s (R194). -/
opaque fitInterval : Nat → Nat
/-- What 1 / sin(el)² stands for at elevation 0, where the formula of R216 has no value. -/
opaque zeroElevation : Nat
/-- The satellite broadcasts L1C, or a band-1 signal (R186). -/
opaque broadcastsL1C : Nat → Bool
opaque broadcastsBand1 : Nat → Bool
/-- Group delay (ps) and phase (2^-32 cycle) at a signal's centre (Hz in the complex samples) of second-order complex
filters, each with its zero on the unit circle at a frequency (Hz in the samples) and a −3 dB width in Hz (R188): the spec
fixes these and not the poles. -/
opaque notchDelay : List Int → Nat → Int → Nat → Int
opaque notchPhase : List Int → Nat → Int → Nat → Int
/-- The filters of a tracker's code, phase-locked and frequency-locked loops (R198), whose orders the spec leaves open: the
bandwidth in mHz, the ms since the last step, the discriminator (code: over 2^16; carrier: 2^-32 cycle; frequency: 2^-16
mHz) and the filter's memory give the correction (code: 2^-32 chip; carrier and frequency: 2^-16 mHz) and the memory. -/
opaque codeLoop : Nat → Nat → Int → Int → Int × Int
opaque carrierLoop : Nat → Nat → Int → Int → Int × Int
opaque freqLoop : Nat → Nat → Int → Int
/-- The angle of a complex sum, 2^-32 cycle. -/
opaque angle : Int → Int → Int
/-- The phase lock indicator of R199, over 2^16, from a prompt sum and its last value: the spec gives no formula. -/
opaque phaseLock : Int → Int → Int → Int
/-- C/N0 in 0.01 dB-Hz from prompt and noise power and the ms summed (R198): the spec gives no formula. -/
opaque cn0Estimate : Nat → Nat → Nat → Nat
/-- What a tracker whose transmit time is not resolved reports for it: channel, band. -/
opaque unresolvedOrigin : Nat → Nat → Int
/-- A snapshot solve on each band's complex samples (none of a band it ignores), orbit records, the held or fixed position,
a priori time and half window (R224): the fixes (2^-16 ns) with 3 sigma in ns of the candidate times that pass; the number
of satellites acquired. -/
opaque gristCandidates : List (List (Int × Int)) → List Bytes → Option (Int × Int × Int) → Int → Int → List (Int × Int)
opaque gristSatellites : List (List (Int × Int)) → List Bytes → Option (Int × Int × Int) → Int → Int → Nat

/-- The two hash functions of the client table and the four of the sketch: which, key (R272, R280). -/
opaque ctHash : Nat → Bytes → Nat
opaque sketchHash : Nat → Bytes → Nat
/-- The device's address on a port: 4 or 16 bytes (firmware's; the spec gives no object for it). -/
opaque deviceAddress : Nat → Bool → Bytes
/-- The octets of the TLS 1.3 records that carry the device's flight of an NTS-KE exchange: a draw, suite, group, signature,
NTS-KE records (R329). -/
opaque tlsFlight : Nat → Nat → Nat → Bytes → Bytes → Bytes
/-- The next hop's MAC address for a destination on a port, as firmware resolves it. -/
opaque nextHop : Nat → Bytes → Bytes

/-- The contents of a firmware bank of the boot flash when the device leaves test: 0 image A, 1 image B (R374). -/
opaque flashImage : Nat → Bytes
/-- The Sirkor firmware public keys 0-3 of the boot ROM and their revocation bits in OTP (R356). -/
opaque firmwareKey : Nat → Bytes
opaque firmwareRevoked : Nat → Bool
/-- The bytes of a tile of an array whose layout the spec does not give: region, address (R369). -/
opaque tileContents : Nat → Nat → Bytes
/-- The byte that names the action taken on a tile mismatch of a region (R371): its codes are not stated. -/
opaque tileAction : Nat → Nat
/-- The Sirkor debug key (R362). -/
opaque sirkorDebugKey : Bytes
/-- The device identity private key of slot 0 (R350). -/
opaque identityKey : Bytes
/-- The identity chain the device leaves test with (0x8342, Default "Sirkor chain"). -/
opaque sirkorChain : Bytes
/-- A port's FEC codeword counters at an elapsed tick: port, 0 corrected or 1 uncorrected, tick: what the line brings. -/
opaque fecCount : Nat → Nat → Nat → Nat
/-- Busy time of the big-number engine over the second before an elapsed tick, 0.01 %. -/
opaque bnOccupancy : Nat → Nat
/-- Certificates laid end to end, leaf first, zeros after the last (R434): the leaf's public key where each parses and is
signed by the next. -/
opaque chainKey : Bytes → Option Bytes
/-- A client's chain: the algorithm code and public key of its leaf; whether it reaches an anchor's certificate, with its
validity checked at a device time in TAI s where one is given (R354). -/
opaque leafKey : Bytes → Option (Nat × Bytes)
opaque chainReaches : Bytes → Bytes → Option Int → Bool
/-- Where the triangular modulation of a spread clock stands at elapsed tick 0, half ticks (R30): 0 engine, 1 processor, 2
DRAM, 3 fabric. -/
opaque spreadPhase : Nat → Nat
/-- The capacity of the boot flash, KiB (0x1630.03). -/
opaque flashSize : Nat

end Sys2Proof.Config
end

