-- ==== Sys2Proof/Machine/Objects.lean ====
section
/-! DEFINITION. The object dictionary's static table (R36-R41, R424-R431): one row per object or template member of
the object tables, with its type, access class, domain, persistence, default, encoding and range checks; the rows
are transcribed from the chapters' tables. -/

namespace Sys2Proof.Machine

/-- A dictionary value: a number (integers, TIME112 in units of 2^-16 ns since the epoch, DUR96 in ns, PPT, BOOL as
0 or 1) or a byte string (STRING, OCTETS). -/
inductive Val where
  | num (n : Int)
  | oct (b : Bytes)
deriving DecidableEq, Repr

/-- The data types of R37. -/
inductive Ty where
  | bool | u8 | u16 | u32 | u64 | i8 | i16 | i32 | i64 | time | dur | ppt | str | oct | record | array
deriving DecidableEq, Repr

/-- The access classes of R39. -/
inductive Access where
  | const | ro | rw | ow | wo | rx
deriving DecidableEq, Repr

/-- How a row's default is given: a number, one per unit, one per subindex, k mod 8, the trimmed port delays, the
factory MAC address plus an offset, a byte string, zero bytes of the type's stated length, or the empty string. -/
inductive Dflt where
  | n (v : Int)
  | perUnit (vs : List Int)
  | perSub (vs : List Int)
  | mod8
  | cfgRxDelay
  | cfgTxDelay
  | mac (k : Nat)
  | bytes (b : Bytes)
  | zeros
  | empty
deriving DecidableEq, Repr

/-- Reserved encodings (R7, check 6 of R458): none; codes above `n` are reserved; bits outside the mask are reserved;
codes outside the listed intervals are reserved. -/
inductive Enc where
  | any
  /-- A front-end script, whose records' flags bits [7:1] are reserved (R183). -/
  | script
  | upTo (n : Int)
  | mask (m : Nat)
  | oneOf (l : List (Int × Int))
deriving DecidableEq, Repr

/-- The stated lengths of a STRING or OCTETS object (check 5 of R458). -/
inductive Lens where
  | maxLen (n : Nat)
  | fixed (n : Nat)
  | oneOf (l : List Nat)
deriving DecidableEq, Repr

/-- One row of the object tables: it covers the indices base + stride * unit + e (unit below `units`, e below
`units2`) and the subindices `sub` to `sub + subs - 1`. -/
structure ObjRow where
  base : Nat
  stride : Nat := 1
  units : Nat := 1
  units2 : Nat := 1
  sub : Nat := 0
  subs : Nat := 1
  ty : Ty
  acc : Access
  /-- Domain number of R21; 0 stands for the domain of a counter block (R407). -/
  dom : Nat
  persist : Bool := false
  dflt : Dflt := .n 0
  enc : Enc := .any
  /-- Allowed intervals; the empty list is the type's own range. -/
  rng : List (Int × Int) := []
  lens : Lens := .maxLen 1024
  /-- Timed under R48. -/
  timed : Bool := false
  /-- Secret under R353. -/
  secret : Bool := false
  /-- Confirmation object of R41: index, subindex, required value. -/
  confirm : Option (Nat × Nat × Int) := none
deriving DecidableEq, Repr

/-- Objects of chapter 01 of spec/, part 1: each line follows its row of the object tables. -/
def rows01_0 : List ObjRow := [
  -- domain_state_count
  { base := 0x1540, ty := .u8, acc := .const, dom := 1, dflt := .n 8 },
  -- domain_state
  { base := 0x1540, sub := 0x01, subs := 8, ty := .u8, acc := .ro, dom := 1, dflt := .perSub [2, 0, 0, 0, 0, 0, 0, 0] },
  -- ssc_depth_count
  { base := 0x1541, ty := .u8, acc := .const, dom := 6, dflt := .n 4 },
  -- ssc_depth_engine
  { base := 0x1541, sub := 0x01, ty := .u16, acc := .ow, dom := 6, persist := true, rng := [(0, 50)] },
  -- ssc_depth_fabric
  { base := 0x1541, sub := 0x02, ty := .u16, acc := .ow, dom := 6, persist := true, rng := [(0, 50)] },
  -- ssc_depth_processor
  { base := 0x1541, sub := 0x03, ty := .u16, acc := .ow, dom := 6, persist := true, rng := [(0, 50)] },
  -- ssc_depth_dram
  { base := 0x1541, sub := 0x04, ty := .u16, acc := .ow, dom := 6, persist := true, rng := [(0, 50)] } ]
/-- All object rows of chapter 01. -/
def rows01 : List ObjRow := rows01_0
/-- Objects of chapter 02 of spec/, part 1: each line follows its row of the object tables. -/
def rows02_0 : List ObjRow := [
  -- ool_udp_port
  { base := 0x1100, ty := .u16, acc := .ow, dom := 6, persist := true, dflt := .n 43190, rng := [(1024, 65535)] },
  -- ool_inband_enable
  { base := 0x1101, ty := .bool, acc := .ow, dom := 6, persist := true, dflt := .n 1 },
  -- local_authority_enable
  { base := 0x1102, ty := .bool, acc := .ow, dom := 6, persist := true },
  -- session_open_count
  { base := 0x1103, ty := .u8, acc := .ro, dom := 6 },
  -- owner_record
  { base := 0x1104, ty := .record, acc := .ro, dom := 6, dflt := .n 5 },
  -- owner_session
  { base := 0x1104, sub := 0x01, ty := .u8, acc := .ro, dom := 6, dflt := .n 255 },
  -- owner_priority
  { base := 0x1104, sub := 0x02, ty := .u8, acc := .ro, dom := 6 },
  -- owner_node_id
  { base := 0x1104, sub := 0x03, ty := .u64, acc := .ro, dom := 6 },
  -- owner_state
  { base := 0x1104, sub := 0x04, ty := .u8, acc := .ro, dom := 6 },
  -- owner_epoch
  { base := 0x1104, sub := 0x05, ty := .u32, acc := .ro, dom := 6 },
  -- generation
  { base := 0x1105, ty := .u64, acc := .ro, dom := 6 },
  -- txn_state
  { base := 0x1106, sub := 0x01, ty := .u8, acc := .ro, dom := 6 },
  -- txn_staged_count
  { base := 0x1106, sub := 0x02, ty := .u16, acc := .ro, dom := 6 },
  -- sched_pending
  { base := 0x1107, sub := 0x01, ty := .u8, acc := .ro, dom := 6 },
  -- sched_next_time
  { base := 0x1107, sub := 0x02, ty := .time, acc := .ro, dom := 6 },
  -- sched_failed_count
  { base := 0x1107, sub := 0x03, ty := .u32, acc := .rw, dom := 6, rng := [(0, 0)] },
  -- ool_auth_fail
  { base := 0x1108, sub := 0x01, ty := .u32, acc := .rw, dom := 6, rng := [(0, 0)] },
  -- ool_replay
  { base := 0x1108, sub := 0x02, ty := .u32, acc := .rw, dom := 6, rng := [(0, 0)] },
  -- ool_malformed
  { base := 0x1108, sub := 0x03, ty := .u32, acc := .rw, dom := 6, rng := [(0, 0)] },
  -- ool_setup_dropped
  { base := 0x1108, sub := 0x04, ty := .u32, acc := .rw, dom := 6, rng := [(0, 0)] },
  -- ool_session_drop
  { base := 0x1108, sub := 0x05, ty := .u32, acc := .rw, dom := 6, rng := [(0, 0)] },
  -- session_idle_timeout
  { base := 0x1109, ty := .u16, acc := .ow, dom := 6, persist := true, dflt := .n 30, rng := [(5, 300)] },
  -- persist_state
  { base := 0x1200, sub := 0x01, ty := .u8, acc := .ro, dom := 6 },
  -- active_bank
  { base := 0x1200, sub := 0x02, ty := .u8, acc := .ro, dom := 6 },
  -- persist_generation
  { base := 0x1200, sub := 0x03, ty := .u64, acc := .ro, dom := 6 },
  -- persist_fail
  { base := 0x1200, sub := 0x04, ty := .u32, acc := .rw, dom := 6, rng := [(0, 0)] } ]
/-- All object rows of chapter 02. -/
def rows02 : List ObjRow := rows02_0
/-- Objects of chapter 03 of spec/, part 1: each line follows its row of the object tables. -/
def rows03_0 : List ObjRow := [
  -- mode_record
  { base := 0x1010, ty := .record, acc := .ro, dom := 2, dflt := .n 6 },
  -- mode
  { base := 0x1010, sub := 0x01, ty := .u8, acc := .ro, dom := 2, dflt := .n 1 },
  -- timing_condition
  { base := 0x1010, sub := 0x02, ty := .u8, acc := .ro, dom := 2 },
  -- mode_entry_time
  { base := 0x1010, sub := 0x03, ty := .time, acc := .ro, dom := 2 },
  -- mode_change_count
  { base := 0x1010, sub := 0x04, ty := .u32, acc := .ro, dom := 2 },
  -- seed_source
  { base := 0x1010, sub := 0x05, ty := .u8, acc := .ro, dom := 2 },
  -- time_uncertainty
  { base := 0x1010, sub := 0x06, ty := .dur, acc := .ro, dom := 2 },
  -- mode_control
  { base := 0x1011, ty := .record, acc := .ro, dom := 2, dflt := .n 6 },
  -- sparge_request
  { base := 0x1011, sub := 0x01, ty := .bool, acc := .rw, dom := 2 },
  -- sparge_timeout
  { base := 0x1011, sub := 0x02, ty := .u16, acc := .ow, dom := 2, persist := true, dflt := .n 900, rng := [(60, 7200)] },
  -- kiln_request
  { base := 0x1011, sub := 0x03, ty := .bool, acc := .rw, dom := 2, confirm := some (0x1011, 4, 0x4B494C4E) },
  -- kiln_confirm
  { base := 0x1011, sub := 0x04, ty := .u32, acc := .wo, dom := 2 },
  -- cellar_request
  { base := 0x1011, sub := 0x05, ty := .bool, acc := .rw, dom := 2, confirm := some (0x1011, 6, 0x43454C4C) },
  -- cellar_confirm
  { base := 0x1011, sub := 0x06, ty := .u32, acc := .wo, dom := 2 },
  -- mode_policy
  { base := 0x1012, ty := .record, acc := .ro, dom := 2, dflt := .n 5 },
  -- mash_timeout
  { base := 0x1012, sub := 0x01, ty := .u32, acc := .ow, dom := 2, persist := true, dflt := .n 600, rng := [(0, 0), (10, 86400)] },
  -- steep_hold
  { base := 0x1012, sub := 0x02, ty := .bool, acc := .ow, dom := 2, persist := true },
  -- serve_in_flat
  { base := 0x1012, sub := 0x03, ty := .bool, acc := .ow, dom := 2, persist := true },
  -- seed_limit
  { base := 0x1012, sub := 0x04, ty := .dur, acc := .ow, dom := 2, persist := true, dflt := .n 1000000000, rng := [(1000000, 16000000000)] },
  -- keep_drift_bound
  { base := 0x1012, sub := 0x05, ty := .u32, acc := .ow, dom := 2, persist := true, dflt := .n 20000, rng := [(1000, 200000)] },
  -- cellar_record
  { base := 0x1013, ty := .record, acc := .ro, dom := 2, dflt := .n 4 },
  -- cellar_wake_time
  { base := 0x1013, sub := 0x01, ty := .time, acc := .ow, dom := 2 },
  -- cellar_verify_interval
  { base := 0x1013, sub := 0x02, ty := .u32, acc := .ow, dom := 2, persist := true, rng := [(0, 0), (3600, 604800)] },
  -- cellar_verify_count
  { base := 0x1013, sub := 0x03, ty := .u32, acc := .ro, dom := 2 },
  -- cellar_verify_disagree
  { base := 0x1013, sub := 0x04, ty := .u32, acc := .ro, dom := 2 } ]
/-- All object rows of chapter 03. -/
def rows03 : List ObjRow := rows03_0
/-- Objects of chapter 04 of spec/, part 1: each line follows its row of the object tables. -/
def rows04_0 : List ObjRow := [
  -- journal_record
  { base := 0x1300, ty := .record, acc := .ro, dom := 6, dflt := .n 4 },
  -- journal_count
  { base := 0x1300, sub := 0x01, ty := .u16, acc := .ro, dom := 6 },
  -- journal_newest_seq
  { base := 0x1300, sub := 0x02, ty := .u32, acc := .ro, dom := 6 },
  -- journal_overflow
  { base := 0x1300, sub := 0x03, ty := .u32, acc := .rw, dom := 6, rng := [(0, 0)] },
  -- journal_reorder_delay
  { base := 0x1300, sub := 0x04, ty := .u32, acc := .const, dom := 6, dflt := .n 2000 },
  -- timebase_status
  { base := 0x2000, ty := .record, acc := .ro, dom := 2, dflt := .n 8 },
  -- tb_state
  { base := 0x2000, sub := 0x01, ty := .u8, acc := .ro, dom := 2 },
  -- time_now
  { base := 0x2000, sub := 0x02, ty := .time, acc := .ro, dom := 2 },
  -- raw_now
  { base := 0x2000, sub := 0x03, ty := .oct, acc := .ro, dom := 2, dflt := .zeros, lens := .fixed 9 },
  -- seg_sequence
  { base := 0x2000, sub := 0x04, ty := .u32, acc := .ro, dom := 2 },
  -- seg_rate
  { base := 0x2000, sub := 0x05, ty := .i64, acc := .ro, dom := 2 },
  -- rate_correction
  { base := 0x2000, sub := 0x06, ty := .ppt, acc := .ro, dom := 2 },
  -- pending_phase
  { base := 0x2000, sub := 0x07, ty := .dur, acc := .ro, dom := 2 },
  -- step_count
  { base := 0x2000, sub := 0x08, ty := .u32, acc := .ro, dom := 2 },
  -- timebase_policy
  { base := 0x2001, ty := .record, acc := .ro, dom := 2, dflt := .n 4 },
  -- step_first_enable
  { base := 0x2001, sub := 0x01, ty := .bool, acc := .ow, dom := 2, persist := true, dflt := .n 1 },
  -- step_threshold
  { base := 0x2001, sub := 0x02, ty := .dur, acc := .ow, dom := 2, persist := true, dflt := .n 1000, rng := [(10, 1000000000000)] },
  -- rate_limit
  { base := 0x2001, sub := 0x03, ty := .ppt, acc := .ow, dom := 2, persist := true, dflt := .n 1000000, rng := [(1000, 100000000)] },
  -- slope_limit
  { base := 0x2001, sub := 0x04, ty := .u32, acc := .ow, dom := 2, persist := true, dflt := .n 50000, rng := [(1000, 10000000)] },
  -- timebase_step
  { base := 0x2002, ty := .record, acc := .ro, dom := 2, dflt := .n 2 },
  -- step_amount
  { base := 0x2002, sub := 0x01, ty := .dur, acc := .wo, dom := 2, rng := [((-4294967296000000000), (-1)), (1, 4294967296000000000)], timed := true, confirm := some (0x2002, 2, 0x53544550) },
  -- step_confirm
  { base := 0x2002, sub := 0x02, ty := .u32, acc := .wo, dom := 2 },
  -- utc_record
  { base := 0x2003, ty := .record, acc := .ro, dom := 2, dflt := .n 5 },
  -- utc_offset
  { base := 0x2003, sub := 0x01, ty := .i16, acc := .rw, dom := 2, persist := true, dflt := .n 37, rng := [(0, 255)] },
  -- leap_time
  { base := 0x2003, sub := 0x02, ty := .time, acc := .rw, dom := 2, persist := true },
  -- leap_delta
  { base := 0x2003, sub := 0x03, ty := .i8, acc := .rw, dom := 2, persist := true, enc := .oneOf [(-1, 1)] },
  -- leap_source_lock
  { base := 0x2003, sub := 0x04, ty := .bool, acc := .ow, dom := 2, persist := true },
  -- leap_warning
  { base := 0x2003, sub := 0x05, ty := .u32, acc := .ow, dom := 2, persist := true, dflt := .n 86400, rng := [(3600, 2678400)] } ]
/-- All object rows of chapter 04. -/
def rows04 : List ObjRow := rows04_0
/-- Objects of chapter 05 of spec/, part 1: each line follows its row of the object tables. -/
def rows05_0 : List ObjRow := [
  -- t_manual_slot
  { base := 0x2200, sub := 0x01, ty := .u8, acc := .ow, dom := 2, persist := true, dflt := .n 255, enc := .oneOf [(0, 15), (255, 255)] },
  -- f_manual_slot
  { base := 0x2200, sub := 0x02, ty := .u8, acc := .ow, dom := 2, persist := true, dflt := .n 255, enc := .oneOf [(0, 15), (255, 255)] },
  -- revertive
  { base := 0x2200, sub := 0x03, ty := .bool, acc := .ow, dom := 2, persist := true, dflt := .n 1 },
  -- transition_time
  { base := 0x2200, sub := 0x04, ty := .u32, acc := .ow, dom := 2, persist := true, dflt := .n 2000, rng := [(100, 60000)] },
  -- dispute_limit
  { base := 0x2200, sub := 0x05, ty := .ppt, acc := .ow, dom := 2, persist := true, dflt := .n 50000, rng := [(1000, 10000000)] },
  -- dispute_window
  { base := 0x2200, sub := 0x06, ty := .u16, acc := .ow, dom := 2, persist := true, dflt := .n 100, rng := [(10, 3600)] },
  -- quality_hold
  { base := 0x2200, sub := 0x07, ty := .u16, acc := .ow, dom := 2, persist := true, dflt := .n 5, rng := [(0, 600)] },
  -- min_quality
  { base := 0x2200, sub := 0x08, ty := .u8, acc := .ow, dom := 2, persist := true, dflt := .n 254, rng := [(0, 254)] },
  -- t_active_slot
  { base := 0x2201, sub := 0x01, ty := .u8, acc := .ro, dom := 2, dflt := .n 255 },
  -- f_active_slot
  { base := 0x2201, sub := 0x02, ty := .u8, acc := .ro, dom := 2, dflt := .n 255 },
  -- transition_state
  { base := 0x2201, sub := 0x03, ty := .u8, acc := .ro, dom := 2 },
  -- transition_remaining
  { base := 0x2201, sub := 0x04, ty := .u32, acc := .ro, dom := 2 },
  -- buildout
  { base := 0x2201, sub := 0x05, ty := .dur, acc := .ro, dom := 2 },
  -- switch_count
  { base := 0x2201, sub := 0x06, ty := .u32, acc := .ro, dom := 2 },
  -- slot_enable
  { base := 0x2300, stride := 0x10, units := 16, sub := 0x01, ty := .bool, acc := .ow, dom := 2, persist := true },
  -- source_kind
  { base := 0x2300, stride := 0x10, units := 16, sub := 0x02, ty := .u8, acc := .ow, dom := 2, persist := true, enc := .upTo 7 },
  -- source_number
  { base := 0x2300, stride := 0x10, units := 16, sub := 0x03, ty := .u8, acc := .ow, dom := 2, persist := true },
  -- priority
  { base := 0x2300, stride := 0x10, units := 16, sub := 0x04, ty := .u8, acc := .ow, dom := 2, persist := true, dflt := .n 8, rng := [(0, 15)] },
  -- quality_override
  { base := 0x2300, stride := 0x10, units := 16, sub := 0x05, ty := .u8, acc := .ow, dom := 2, persist := true, rng := [(0, 255)] },
  -- freq_limit
  { base := 0x2300, stride := 0x10, units := 16, sub := 0x06, ty := .ppt, acc := .ow, dom := 2, persist := true, dflt := .n 4600000, rng := [(1000, 100000000)] },
  -- phase_limit
  { base := 0x2300, stride := 0x10, units := 16, sub := 0x07, ty := .dur, acc := .ow, dom := 2, persist := true, dflt := .n 1000, rng := [(0, 0), (10, 1000000000)] },
  -- qualify_time
  { base := 0x2300, stride := 0x10, units := 16, sub := 0x08, ty := .u16, acc := .ow, dom := 2, persist := true, dflt := .n 10, rng := [(1, 3600)] },
  -- wtr_time
  { base := 0x2300, stride := 0x10, units := 16, sub := 0x09, ty := .u16, acc := .ow, dom := 2, persist := true, dflt := .n 300, rng := [(0, 3600)] },
  -- slot_delay
  { base := 0x2300, stride := 0x10, units := 16, sub := 0x0A, ty := .i64, acc := .ow, dom := 2, persist := true, rng := [((-1000000000000), 1000000000000)] },
  -- interval_tolerance
  { base := 0x2300, stride := 0x10, units := 16, sub := 0x0B, ty := .u16, acc := .ow, dom := 2, persist := true, dflt := .n 100, rng := [(1, 2000)] },
  -- missing_limit
  { base := 0x2300, stride := 0x10, units := 16, sub := 0x0C, ty := .u8, acc := .ow, dom := 2, persist := true, dflt := .n 2, rng := [(1, 255)] },
  -- esmc_mode
  { base := 0x2300, stride := 0x10, units := 16, sub := 0x0D, ty := .u8, acc := .ow, dom := 2, persist := true, enc := .upTo 2 },
  -- operator_validity
  { base := 0x2300, stride := 0x10, units := 16, sub := 0x0E, ty := .u32, acc := .ow, dom := 2, persist := true, dflt := .n 3600, rng := [(60, 2592000)] },
  -- slot_state
  { base := 0x2301, stride := 0x10, units := 16, sub := 0x01, ty := .u8, acc := .ro, dom := 2 },
  -- slot_class
  { base := 0x2301, stride := 0x10, units := 16, sub := 0x02, ty := .u8, acc := .ro, dom := 2, dflt := .n 255 } ]
/-- Objects of chapter 05 of spec/, part 2: each line follows its row of the object tables. -/
def rows05_1 : List ObjRow := [
  -- slot_flags
  { base := 0x2301, stride := 0x10, units := 16, sub := 0x03, ty := .u8, acc := .ro, dom := 2 },
  -- quality_received
  { base := 0x2301, stride := 0x10, units := 16, sub := 0x04, ty := .u8, acc := .ro, dom := 2, dflt := .n 255 },
  -- quality_effective
  { base := 0x2301, stride := 0x10, units := 16, sub := 0x05, ty := .u8, acc := .ro, dom := 2, dflt := .n 255 },
  -- fail_cause
  { base := 0x2301, stride := 0x10, units := 16, sub := 0x06, ty := .u16, acc := .ro, dom := 2 },
  -- timer_remaining
  { base := 0x2301, stride := 0x10, units := 16, sub := 0x07, ty := .u32, acc := .ro, dom := 2 },
  -- freq_offset
  { base := 0x2301, stride := 0x10, units := 16, sub := 0x08, ty := .ppt, acc := .ro, dom := 2 },
  -- phase_offset
  { base := 0x2301, stride := 0x10, units := 16, sub := 0x09, ty := .dur, acc := .ro, dom := 2 },
  -- operator_time
  { base := 0x2302, stride := 0x10, units := 16, sub := 0x01, ty := .time, acc := .wo, dom := 2, timed := true },
  -- fail_count
  { base := 0x2303, stride := 0x10, units := 16, sub := 0x01, ty := .u32, acc := .rw, dom := 2, rng := [(0, 0)] },
  -- missing_count
  { base := 0x2303, stride := 0x10, units := 16, sub := 0x02, ty := .u32, acc := .rw, dom := 2, rng := [(0, 0)] },
  -- refin_mode
  { base := 0x2600, stride := 0x10, units := 8, sub := 0x01, ty := .u8, acc := .ow, dom := 2, persist := true, enc := .upTo 2 },
  -- refin_termination
  { base := 0x2600, stride := 0x10, units := 8, sub := 0x02, ty := .bool, acc := .ow, dom := 2, persist := true },
  -- refin_edge
  { base := 0x2600, stride := 0x10, units := 8, sub := 0x03, ty := .u8, acc := .ow, dom := 2, persist := true, enc := .upTo 1 },
  -- refin_frequency
  { base := 0x2600, stride := 0x10, units := 8, sub := 0x04, ty := .u64, acc := .ow, dom := 2, persist := true, dflt := .n 1000, rng := [(1000, 800000000000)] },
  -- refin_last_stamp
  { base := 0x2600, stride := 0x10, units := 8, sub := 0x05, ty := .oct, acc := .ro, dom := 2, dflt := .zeros, lens := .fixed 9 },
  -- todin_baud
  { base := 0x2680, stride := 0x10, units := 8, sub := 0x01, ty := .u32, acc := .ow, dom := 2, persist := true, dflt := .n 115200, rng := [(4800, 4800), (9600, 9600), (19200, 19200), (38400, 38400), (57600, 57600), (115200, 115200), (230400, 230400), (460800, 460800)] },
  -- nmea_label
  { base := 0x2680, stride := 0x10, units := 8, sub := 0x02, ty := .u8, acc := .ow, dom := 2, persist := true, rng := [(0, 1)] },
  -- todin_accepted
  { base := 0x2680, stride := 0x10, units := 8, sub := 0x03, ty := .u32, acc := .ro, dom := 2 },
  -- todin_discards
  { base := 0x2680, stride := 0x10, units := 8, sub := 0x04, ty := .u32, acc := .rw, dom := 2, rng := [(0, 0)] } ]
/-- All object rows of chapter 05. -/
def rows05 : List ObjRow := rows05_0 ++ rows05_1
/-- Objects of chapter 06 of spec/, part 1: each line follows its row of the object tables. -/
def rows06_0 : List ObjRow := [
  -- osc_nominal
  { base := 0x2100, sub := 0x01, ty := .u32, acc := .ro, dom := 2 },
  -- osc_differential
  { base := 0x2100, sub := 0x02, ty := .bool, acc := .ro, dom := 2 },
  -- osc_freq_spec
  { base := 0x2100, sub := 0x03, ty := .ppt, acc := .ow, dom := 2, persist := true, dflt := .n 50, rng := [(1, 10000000)] },
  -- osc_aging_spec
  { base := 0x2100, sub := 0x04, ty := .u32, acc := .ow, dom := 2, persist := true, dflt := .n 500, rng := [(1, 10000000)] },
  -- osc_tempco_spec
  { base := 0x2100, sub := 0x05, ty := .u32, acc := .ow, dom := 2, persist := true, dflt := .n 10, rng := [(0, 1000000)] },
  -- osc_retrace
  { base := 0x2100, sub := 0x06, ty := .ppt, acc := .ow, dom := 2, persist := true, dflt := .n 20000, rng := [(0, 10000000)] },
  -- osc_monitor_limit
  { base := 0x2100, sub := 0x07, ty := .u32, acc := .ow, dom := 2, persist := true, dflt := .n 100, rng := [(10, 1000)] },
  -- osc_monitor_offset
  { base := 0x2100, sub := 0x08, ty := .ppt, acc := .ro, dom := 2 },
  -- die_temperature
  { base := 0x2100, sub := 0x09, ty := .i16, acc := .ro, dom := 2 },
  -- osc_alarm
  { base := 0x2100, sub := 0x0A, ty := .bool, acc := .ro, dom := 2 },
  -- efc_enable
  { base := 0x2101, sub := 0x01, ty := .bool, acc := .ow, dom := 2, persist := true },
  -- efc_bits
  { base := 0x2101, sub := 0x02, ty := .u8, acc := .ow, dom := 2, persist := true, dflt := .n 16, rng := [(8, 24)] },
  -- efc_frame_bits
  { base := 0x2101, sub := 0x03, ty := .u8, acc := .ow, dom := 2, persist := true, dflt := .n 24, enc := .oneOf [(16, 16), (24, 24), (32, 32)] },
  -- efc_gain
  { base := 0x2101, sub := 0x04, ty := .i32, acc := .ow, dom := 2, persist := true },
  -- efc_initial
  { base := 0x2101, sub := 0x05, ty := .u32, acc := .ow, dom := 2, persist := true, dflt := .n 32768 },
  -- efc_deadband
  { base := 0x2101, sub := 0x06, ty := .u32, acc := .ow, dom := 2, persist := true, dflt := .n 10000, rng := [(100, 1000000)] },
  -- efc_settle
  { base := 0x2101, sub := 0x07, ty := .u32, acc := .ow, dom := 2, persist := true, dflt := .n 1000, rng := [(100, 1000000)] },
  -- efc_code
  { base := 0x2101, sub := 0x08, ty := .u32, acc := .ro, dom := 2 },
  -- efc_update_count
  { base := 0x2101, sub := 0x09, ty := .u32, acc := .ro, dom := 2 },
  -- steering
  { base := 0x2104, sub := 0x01, ty := .ppt, acc := .ow, dom := 2, rng := [((-100000000), 100000000)], timed := true },
  -- steering_applied
  { base := 0x2104, sub := 0x02, ty := .ppt, acc := .ro, dom := 2 },
  -- model_state
  { base := 0x2105, sub := 0x01, ty := .u8, acc := .ro, dom := 2 },
  -- model_freq
  { base := 0x2105, sub := 0x02, ty := .ppt, acc := .ro, dom := 2 },
  -- model_aging
  { base := 0x2105, sub := 0x03, ty := .i32, acc := .ro, dom := 2 },
  -- model_tempco
  { base := 0x2105, sub := 0x04, ty := .i32, acc := .ro, dom := 2 },
  -- model_temp_ref
  { base := 0x2105, sub := 0x05, ty := .i16, acc := .ro, dom := 2 },
  -- model_freq_unc
  { base := 0x2105, sub := 0x06, ty := .u32, acc := .ro, dom := 2 },
  -- model_aging_unc
  { base := 0x2105, sub := 0x07, ty := .u32, acc := .ro, dom := 2 },
  -- model_tempco_unc
  { base := 0x2105, sub := 0x08, ty := .u32, acc := .ro, dom := 2 },
  -- model_learn_time
  { base := 0x2105, sub := 0x09, ty := .u32, acc := .ro, dom := 2 } ]
/-- Objects of chapter 06 of spec/, part 2: each line follows its row of the object tables. -/
def rows06_1 : List ObjRow := [
  -- model_window
  { base := 0x2105, sub := 0x0A, ty := .u32, acc := .ow, dom := 2, persist := true, dflt := .n 604800, rng := [(86400, 2592000)] },
  -- model_min_learn
  { base := 0x2105, sub := 0x0B, ty := .u32, acc := .ow, dom := 2, persist := true, dflt := .n 86400, rng := [(3600, 2592000)] },
  -- model_restore_limit
  { base := 0x2105, sub := 0x0C, ty := .u32, acc := .ow, dom := 2, persist := true, dflt := .n 604800, rng := [(0, 2592000)] },
  -- model_reset
  { base := 0x2105, sub := 0x0D, ty := .bool, acc := .rw, dom := 2 },
  -- temp_tau
  { base := 0x2105, sub := 0x0E, ty := .u16, acc := .ow, dom := 2, persist := true, dflt := .n 600, rng := [(10, 7200)] },
  -- holdover_budget
  { base := 0x2106, sub := 0x01, ty := .dur, acc := .ow, dom := 2, persist := true, dflt := .n 1100, rng := [(10, 1000000000000)] },
  -- ref_uncertainty
  { base := 0x2106, sub := 0x02, ty := .dur, acc := .ow, dom := 2, persist := true, dflt := .n 100, rng := [(0, 1000000000)] },
  -- assist_enable
  { base := 0x2106, sub := 0x03, ty := .bool, acc := .ow, dom := 2, persist := true, dflt := .n 1 },
  -- assist_max_quality
  { base := 0x2106, sub := 0x04, ty := .u8, acc := .ow, dom := 2, persist := true, dflt := .n 64, rng := [(0, 254)] },
  -- assist_freq_unc
  { base := 0x2106, sub := 0x05, ty := .ppt, acc := .ow, dom := 2, persist := true, dflt := .n 10, rng := [(1, 1000000)] },
  -- assist_wander
  { base := 0x2106, sub := 0x06, ty := .dur, acc := .ow, dom := 2, persist := true, dflt := .n 100, rng := [(0, 1000000)] },
  -- holdover_bound
  { base := 0x2107, sub := 0x01, ty := .dur, acc := .ro, dom := 2 },
  -- holdover_remaining
  { base := 0x2107, sub := 0x02, ty := .u32, acc := .ro, dom := 2, dflt := .n 4294967295 },
  -- out_of_spec
  { base := 0x2107, sub := 0x03, ty := .bool, acc := .ro, dom := 2 },
  -- holdover_elapsed
  { base := 0x2107, sub := 0x04, ty := .u32, acc := .ro, dom := 2 },
  -- holdover_temp_dev
  { base := 0x2107, sub := 0x05, ty := .i16, acc := .ro, dom := 2 },
  -- assist_active
  { base := 0x2107, sub := 0x06, ty := .bool, acc := .ro, dom := 2 },
  -- holdover_count
  { base := 0x2107, sub := 0x07, ty := .u32, acc := .ro, dom := 2 },
  -- bw_acquire
  { base := 0x2110, stride := 0x10, units := 4, sub := 0x01, ty := .u8, acc := .ow, dom := 2, persist := true, dflt := .perUnit [6, 11, 12, 12], enc := .upTo 20 },
  -- bw_track
  { base := 0x2110, stride := 0x10, units := 4, sub := 0x02, ty := .u8, acc := .ow, dom := 2, persist := true, dflt := .perUnit [3, 9, 12, 12], enc := .upTo 20 },
  -- damping
  { base := 0x2110, stride := 0x10, units := 4, sub := 0x03, ty := .u8, acc := .ow, dom := 2, persist := true, dflt := .n 50, rng := [(5, 100)] },
  -- phase_slope_limit
  { base := 0x2110, stride := 0x10, units := 4, sub := 0x04, ty := .ppt, acc := .ow, dom := 2, persist := true, dflt := .perUnit [0, 7500000, 100000, 100000], rng := [(0, 0), (1000, 100000000)] },
  -- lock_phase_limit
  { base := 0x2110, stride := 0x10, units := 4, sub := 0x05, ty := .dur, acc := .ow, dom := 2, persist := true, dflt := .perUnit [100, 100, 10, 10], rng := [(1, 1000000)] },
  -- lock_freq_limit
  { base := 0x2110, stride := 0x10, units := 4, sub := 0x06, ty := .ppt, acc := .ow, dom := 2, persist := true, dflt := .perUnit [10000, 10000, 1000, 1000], rng := [(1, 10000000)] },
  -- lock_hold
  { base := 0x2110, stride := 0x10, units := 4, sub := 0x07, ty := .u16, acc := .ow, dom := 2, persist := true, dflt := .perUnit [2, 2, 1, 1], rng := [(1, 600)] },
  -- step_mode
  { base := 0x2110, stride := 0x10, units := 4, sub := 0x08, ty := .u8, acc := .ow, dom := 2, persist := true, enc := .upTo 1 },
  -- holdover_average
  { base := 0x2110, stride := 0x10, units := 4, sub := 0x09, ty := .u16, acc := .ow, dom := 2, persist := true, dflt := .n 100, rng := [(1, 3600)] },
  -- dpll_state
  { base := 0x2111, stride := 0x10, units := 4, sub := 0x01, ty := .u8, acc := .ro, dom := 2 },
  -- bw_in_use
  { base := 0x2111, stride := 0x10, units := 4, sub := 0x02, ty := .u8, acc := .ro, dom := 2 },
  -- phase_error
  { base := 0x2111, stride := 0x10, units := 4, sub := 0x03, ty := .dur, acc := .ro, dom := 2 } ]
/-- Objects of chapter 06 of spec/, part 3: each line follows its row of the object tables. -/
def rows06_2 : List ObjRow := [
  -- freq_estimate
  { base := 0x2111, stride := 0x10, units := 4, sub := 0x04, ty := .ppt, acc := .ro, dom := 2 },
  -- lock_count
  { base := 0x2111, stride := 0x10, units := 4, sub := 0x05, ty := .u32, acc := .ro, dom := 2 },
  -- bw_clamped
  { base := 0x2111, stride := 0x10, units := 4, sub := 0x06, ty := .bool, acc := .ro, dom := 2 } ]
/-- All object rows of chapter 06. -/
def rows06 : List ObjRow := rows06_0 ++ rows06_1 ++ rows06_2
/-- Objects of chapter 07 of spec/, part 1: each line follows its row of the object tables. -/
def rows07_0 : List ObjRow := [
  -- out_function
  { base := 0x2400, stride := 0x10, units := 20, sub := 0x01, ty := .u8, acc := .ow, dom := 2, persist := true, enc := .upTo 7 },
  -- out_loop
  { base := 0x2400, stride := 0x10, units := 20, sub := 0x02, ty := .u8, acc := .ow, dom := 2, persist := true, enc := .upTo 3 },
  -- out_period
  { base := 0x2400, stride := 0x10, units := 20, sub := 0x03, ty := .dur, acc := .ow, dom := 2, persist := true, dflt := .n 1000000000, rng := [(100, 86400000000000)], timed := true },
  -- out_width
  { base := 0x2400, stride := 0x10, units := 20, sub := 0x04, ty := .u64, acc := .ow, dom := 2, persist := true, dflt := .n 100000000, timed := true },
  -- out_frequency
  { base := 0x2400, stride := 0x10, units := 20, sub := 0x05, ty := .u64, acc := .ow, dom := 2, persist := true, dflt := .n 10000000000, rng := [(1000, 800000000000)], timed := true },
  -- output_offset
  { base := 0x2400, stride := 0x10, units := 20, sub := 0x06, ty := .i64, acc := .ow, dom := 2, persist := true, rng := [((-1000000000000), 1000000000000)], timed := true },
  -- out_polarity
  { base := 0x2400, stride := 0x10, units := 20, sub := 0x07, ty := .bool, acc := .ow, dom := 2, persist := true },
  -- out_slew
  { base := 0x2400, stride := 0x10, units := 20, sub := 0x08, ty := .u8, acc := .ow, dom := 2, persist := true, dflt := .n 2, enc := .upTo 3 },
  -- out_squelch
  { base := 0x2400, stride := 0x10, units := 20, sub := 0x09, ty := .u8, acc := .ow, dom := 2, persist := true, enc := .upTo 2 },
  -- dout_level
  { base := 0x2400, stride := 0x10, units := 20, sub := 0x0A, ty := .u8, acc := .ow, dom := 2, persist := true, dflt := .perUnit [0, 0, 0, 0, 0, 0, 0, 0, 0, 0, 0, 0, 0, 0, 0, 0, 1, 1, 1, 1], rng := [(0, 3)] },
  -- out_phase_slope
  { base := 0x2400, stride := 0x10, units := 20, sub := 0x0B, ty := .ppt, acc := .ow, dom := 2, persist := true, dflt := .n 100000, rng := [(1000, 100000000)] },
  -- out_state
  { base := 0x2401, stride := 0x10, units := 20, sub := 0x01, ty := .u8, acc := .ro, dom := 2 },
  -- pad_delay
  { base := 0x2401, stride := 0x10, units := 20, sub := 0x02, ty := .i32, acc := .ro, dom := 2 },
  -- align_correction
  { base := 0x2401, stride := 0x10, units := 20, sub := 0x03, ty := .i64, acc := .ro, dom := 2 },
  -- last_edge
  { base := 0x2401, stride := 0x10, units := 20, sub := 0x04, ty := .oct, acc := .ro, dom := 2, dflt := .zeros, lens := .fixed 9 },
  -- skipped_count
  { base := 0x2401, stride := 0x10, units := 20, sub := 0x05, ty := .u32, acc := .rw, dom := 2, rng := [(0, 0)] },
  -- jump_count
  { base := 0x2401, stride := 0x10, units := 20, sub := 0x06, ty := .u32, acc := .ro, dom := 2 },
  -- word_rate
  { base := 0x2402, stride := 0x10, units := 20, sub := 0x01, ty := .u32, acc := .ow, dom := 2, persist := true, dflt := .n 48000, rng := [(32000, 32000), (44100, 44100), (48000, 48000), (88200, 88200), (96000, 96000), (176400, 176400), (192000, 192000), (352800, 352800), (384000, 384000)], timed := true },
  -- frame_rate
  { base := 0x2402, stride := 0x10, units := 20, sub := 0x02, ty := .u8, acc := .ow, dom := 2, persist := true, dflt := .n 1, rng := [(0, 6)] },
  -- frame_divider
  { base := 0x2402, stride := 0x10, units := 20, sub := 0x03, ty := .u8, acc := .ow, dom := 2, persist := true, dflt := .n 1, rng := [(1, 16)] },
  -- tc_scale
  { base := 0x2402, stride := 0x10, units := 20, sub := 0x04, ty := .u8, acc := .ow, dom := 2, persist := true, dflt := .n 1, rng := [(0, 2)] },
  -- tc_local_offset
  { base := 0x2402, stride := 0x10, units := 20, sub := 0x05, ty := .i32, acc := .ow, dom := 2, persist := true, rng := [((-86399), 86399)] },
  -- ltc_rate
  { base := 0x2402, stride := 0x10, units := 20, sub := 0x06, ty := .u8, acc := .ow, dom := 2, persist := true, dflt := .n 1, rng := [(0, 4)] },
  -- ltc_user_bits
  { base := 0x2402, stride := 0x10, units := 20, sub := 0x07, ty := .u32, acc := .ow, dom := 2, persist := true },
  -- irig_format
  { base := 0x2402, stride := 0x10, units := 20, sub := 0x08, ty := .u8, acc := .ow, dom := 2, persist := true, dflt := .n 4, rng := [(0, 7)] },
  -- irig_cf
  { base := 0x2402, stride := 0x10, units := 20, sub := 0x09, ty := .u32, acc := .ow, dom := 2, persist := true, enc := .mask 134217727 },
  -- start_time
  { base := 0x2402, stride := 0x10, units := 20, sub := 0x0A, ty := .time, acc := .ow, dom := 2, timed := true },
  -- start_count
  { base := 0x2402, stride := 0x10, units := 20, sub := 0x0B, ty := .u32, acc := .ow, dom := 2, persist := true, dflt := .n 1 },
  -- align_source
  { base := 0x2403, stride := 0x10, units := 20, sub := 0x01, ty := .u8, acc := .ow, dom := 2, persist := true, enc := .oneOf [(0, 8), (16, 31)] },
  -- align_mode
  { base := 0x2403, stride := 0x10, units := 20, sub := 0x02, ty := .u8, acc := .ow, dom := 2, persist := true, rng := [(0, 2)] } ]
/-- Objects of chapter 07 of spec/, part 2: each line follows its row of the object tables. -/
def rows07_1 : List ObjRow := [
  -- align_offset
  { base := 0x2403, stride := 0x10, units := 20, sub := 0x03, ty := .i64, acc := .ow, dom := 2, persist := true, rng := [((-1000000000000), 1000000000000)] },
  -- align_count
  { base := 0x2403, stride := 0x10, units := 20, sub := 0x04, ty := .u16, acc := .ow, dom := 2, persist := true, dflt := .n 16, rng := [(1, 1024)] },
  -- align_trigger
  { base := 0x2403, stride := 0x10, units := 20, sub := 0x05, ty := .bool, acc := .rw, dom := 2 },
  -- align_status
  { base := 0x2403, stride := 0x10, units := 20, sub := 0x06, ty := .u8, acc := .ro, dom := 2 },
  -- bank_a_voltage
  { base := 0x2540, sub := 0x01, ty := .u16, acc := .ro, dom := 2 },
  -- bank_b_voltage
  { base := 0x2540, sub := 0x02, ty := .u16, acc := .ro, dom := 2 },
  -- todout_output
  { base := 0x2550, stride := 0x8, units := 4, sub := 0x01, ty := .u8, acc := .ow, dom := 2, persist := true, dflt := .n 255, rng := [(0, 19), (255, 255)] },
  -- todout_format
  { base := 0x2550, stride := 0x8, units := 4, sub := 0x02, ty := .u8, acc := .ow, dom := 2, persist := true, rng := [(0, 1)] },
  -- todout_baud
  { base := 0x2550, stride := 0x8, units := 4, sub := 0x03, ty := .u32, acc := .ow, dom := 2, persist := true, dflt := .n 115200, rng := [(4800, 4800), (9600, 9600), (19200, 19200), (38400, 38400), (57600, 57600), (115200, 115200), (230400, 230400), (460800, 460800)] },
  -- todout_delay
  { base := 0x2550, stride := 0x8, units := 4, sub := 0x04, ty := .u16, acc := .ow, dom := 2, persist := true, dflt := .n 10, rng := [(1, 400)] },
  -- todout_sent
  { base := 0x2550, stride := 0x8, units := 4, sub := 0x05, ty := .u32, acc := .ro, dom := 2 },
  -- cap_enable
  { base := 0x2580, stride := 0x8, units := 16, sub := 0x01, ty := .bool, acc := .ow, dom := 2, persist := true },
  -- cap_input
  { base := 0x2580, stride := 0x8, units := 16, sub := 0x02, ty := .u8, acc := .ow, dom := 2, persist := true, enc := .upTo 8 },
  -- cap_edge
  { base := 0x2580, stride := 0x8, units := 16, sub := 0x03, ty := .u8, acc := .ow, dom := 2, persist := true, rng := [(0, 2)] },
  -- cap_filter
  { base := 0x2580, stride := 0x8, units := 16, sub := 0x04, ty := .u8, acc := .ow, dom := 2, persist := true, dflt := .n 4, rng := [(0, 255)] },
  -- cap_delay
  { base := 0x2580, stride := 0x8, units := 16, sub := 0x05, ty := .i64, acc := .ow, dom := 2, persist := true, rng := [((-1000000000000), 1000000000000)] },
  -- cap_fifo_mode
  { base := 0x2580, stride := 0x8, units := 16, sub := 0x06, ty := .u8, acc := .ow, dom := 2, persist := true, rng := [(0, 1)] },
  -- cap_journal
  { base := 0x2580, stride := 0x8, units := 16, sub := 0x07, ty := .bool, acc := .ow, dom := 2, persist := true },
  -- cap_count
  { base := 0x2581, stride := 0x8, units := 16, sub := 0x01, ty := .u8, acc := .ro, dom := 2 },
  -- cap_overflow
  { base := 0x2581, stride := 0x8, units := 16, sub := 0x02, ty := .bool, acc := .rw, dom := 2, rng := [(0, 0)] },
  -- cap_lost
  { base := 0x2581, stride := 0x8, units := 16, sub := 0x03, ty := .u32, acc := .rw, dom := 2, rng := [(0, 0)] },
  -- cap_ack_seq
  { base := 0x2581, stride := 0x8, units := 16, sub := 0x04, ty := .u32, acc := .rw, dom := 2 },
  -- cap_newest_seq
  { base := 0x2581, stride := 0x8, units := 16, sub := 0x05, ty := .u32, acc := .ro, dom := 2 },
  -- cap_glitch
  { base := 0x2581, stride := 0x8, units := 16, sub := 0x06, ty := .u32, acc := .ro, dom := 2 },
  -- cap_entries
  { base := 0x2582, stride := 0x8, units := 16, ty := .array, acc := .ro, dom := 2 },
  -- cap_entry
  { base := 0x2582, stride := 0x8, units := 16, sub := 0x01, subs := 64, ty := .oct, acc := .ro, dom := 2, dflt := .zeros, lens := .maxLen 32 } ]
/-- All object rows of chapter 07. -/
def rows07 : List ObjRow := rows07_0 ++ rows07_1
/-- Objects of chapter 08 of spec/, part 1: each line follows its row of the object tables. -/
def rows08_0 : List ObjRow := [
  -- sky_systems
  { base := 0x3000, sub := 0x01, ty := .u8, acc := .ow, dom := 3, persist := true, dflt := .n 15, enc := .mask 15 },
  -- l1_signal
  { base := 0x3000, sub := 0x02, ty := .u8, acc := .ow, dom := 3, persist := true, enc := .upTo 1 },
  -- acq_elevation_mask
  { base := 0x3000, sub := 0x03, ty := .i16, acc := .ow, dom := 3, persist := true, dflt := .n 500, rng := [((-500), 4500)] },
  -- use_unhealthy
  { base := 0x3000, sub := 0x04, ty := .bool, acc := .ow, dom := 3, persist := true },
  -- obs_interval
  { base := 0x3000, sub := 0x05, ty := .u16, acc := .ow, dom := 3, persist := true, dflt := .n 1000, rng := [(100, 100), (200, 200), (500, 500), (1000, 1000)] },
  -- acq_osc_uncertainty
  { base := 0x3000, sub := 0x06, ty := .ppt, acc := .ow, dom := 3, persist := true, dflt := .n 2000000, rng := [(1000, 50000000)] },
  -- aid_position_x
  { base := 0x3000, sub := 0x07, ty := .i64, acc := .ow, dom := 3, persist := true },
  -- aid_position_y
  { base := 0x3000, sub := 0x08, ty := .i64, acc := .ow, dom := 3, persist := true },
  -- aid_position_z
  { base := 0x3000, sub := 0x09, ty := .i64, acc := .ow, dom := 3, persist := true },
  -- aid_position_unc
  { base := 0x3000, sub := 0x0A, ty := .u32, acc := .ow, dom := 3, persist := true, dflt := .n 4294967295 },
  -- dll_bw
  { base := 0x3001, sub := 0x01, ty := .u16, acc := .ow, dom := 3, persist := true, dflt := .n 500, rng := [(50, 5000)] },
  -- pll_bw
  { base := 0x3001, sub := 0x02, ty := .u16, acc := .ow, dom := 3, persist := true, dflt := .n 10000, rng := [(1000, 30000)] },
  -- fll_bw
  { base := 0x3001, sub := 0x03, ty := .u16, acc := .ow, dom := 3, persist := true, dflt := .n 10000, rng := [(1000, 50000)] },
  -- el_spacing_bpsk1
  { base := 0x3001, sub := 0x04, ty := .u16, acc := .ow, dom := 3, persist := true, dflt := .n 100, rng := [(50, 1000)] },
  -- el_spacing_bpsk10
  { base := 0x3001, sub := 0x05, ty := .u16, acc := .ow, dom := 3, persist := true, dflt := .n 500, rng := [(50, 1000)] },
  -- el_spacing_boc
  { base := 0x3001, sub := 0x06, ty := .u16, acc := .ow, dom := 3, persist := true, dflt := .n 100, rng := [(50, 500)] },
  -- vel_spacing
  { base := 0x3001, sub := 0x07, ty := .u16, acc := .ow, dom := 3, persist := true, dflt := .n 500, rng := [(100, 2000)] },
  -- monitor_offset
  { base := 0x3001, sub := 0x08, ty := .i16, acc := .ow, dom := 3, persist := true, dflt := .n (-250), rng := [((-2000), 2000)] },
  -- coh_max
  { base := 0x3001, sub := 0x09, ty := .u8, acc := .ow, dom := 3, persist := true, dflt := .n 20, rng := [(1, 1), (2, 2), (4, 4), (5, 5), (10, 10), (20, 20)] },
  -- reacq_time
  { base := 0x3001, sub := 0x0B, ty := .u16, acc := .ow, dom := 3, persist := true, dflt := .n 10, rng := [(1, 600)] },
  -- loss_time
  { base := 0x3001, sub := 0x0C, ty := .u16, acc := .ow, dom := 3, persist := true, dflt := .n 2000, rng := [(200, 10000)] },
  -- sat_exclude
  { base := 0x3002, ty := .array, acc := .ow, dom := 3, persist := true, rng := [(0, 32)] },
  -- sat_exclude_id
  { base := 0x3002, sub := 0x01, subs := 32, ty := .u16, acc := .ow, dom := 3, persist := true },
  -- fespi_clock
  { base := 0x3020, sub := 0x01, ty := .u32, acc := .ow, dom := 3, persist := true, dflt := .n 10000000, rng := [(100000, 20000000)] },
  -- fespi_mode
  { base := 0x3020, sub := 0x02, ty := .u8, acc := .ow, dom := 3, persist := true, rng := [(0, 3)] },
  -- fespi_script
  { base := 0x3021, stride := 0x1, units := 2, sub := 0x01, ty := .oct, acc := .ow, dom := 3, persist := true, dflt := .empty, enc := .script, lens := .maxLen 1024 },
  -- fespi_status
  { base := 0x3021, stride := 0x1, units := 2, sub := 0x02, ty := .u8, acc := .ro, dom := 3 },
  -- ant_supply_enable
  { base := 0x3028, sub := 0x01, ty := .bool, acc := .ow, dom := 3, persist := true, dflt := .n 1 },
  -- ant_retry
  { base := 0x3028, sub := 0x02, ty := .u16, acc := .ow, dom := 3, persist := true, dflt := .n 10, rng := [(1, 3600)] },
  -- ant_state
  { base := 0x3028, sub := 0x03, ty := .u8, acc := .ro, dom := 3 } ]
/-- Objects of chapter 08 of spec/, part 2: each line follows its row of the object tables. -/
def rows08_1 : List ObjRow := [
  -- ant_short_count
  { base := 0x3028, sub := 0x04, ty := .u32, acc := .ro, dom := 3 },
  -- band_enable
  { base := 0x3010, stride := 0x8, units := 2, sub := 0x01, ty := .bool, acc := .ow, dom := 3, persist := true, dflt := .n 1 },
  -- sample_format
  { base := 0x3010, stride := 0x8, units := 2, sub := 0x02, ty := .u8, acc := .ow, dom := 3, persist := true, enc := .upTo 2 },
  -- sample_bits
  { base := 0x3010, stride := 0x8, units := 2, sub := 0x03, ty := .u8, acc := .ow, dom := 3, persist := true, dflt := .n 4, rng := [(1, 4)] },
  -- iq_swap
  { base := 0x3010, stride := 0x8, units := 2, sub := 0x04, ty := .bool, acc := .ow, dom := 3, persist := true },
  -- fe_if_offset
  { base := 0x3010, stride := 0x8, units := 2, sub := 0x05, ty := .i32, acc := .ow, dom := 3, persist := true, rng := [((-15000000), 15000000)] },
  -- band_state
  { base := 0x3010, stride := 0x8, units := 2, sub := 0x06, ty := .u8, acc := .ro, dom := 3 },
  -- band_power
  { base := 0x3010, stride := 0x8, units := 2, sub := 0x07, ty := .i16, acc := .ro, dom := 3 },
  -- band_clip
  { base := 0x3010, stride := 0x8, units := 2, sub := 0x08, ty := .u16, acc := .ro, dom := 3 },
  -- notch_enable
  { base := 0x3011, stride := 0x8, units := 2, sub := 0x01, ty := .bool, acc := .ow, dom := 3, persist := true, dflt := .n 1 },
  -- notch_threshold
  { base := 0x3011, stride := 0x8, units := 2, sub := 0x02, ty := .u8, acc := .ow, dom := 3, persist := true, dflt := .n 15, rng := [(6, 40)] },
  -- notch_width
  { base := 0x3011, stride := 0x8, units := 2, sub := 0x03, ty := .u8, acc := .ow, dom := 3, persist := true, dflt := .n 1, enc := .upTo 3 },
  -- notch_freq
  { base := 0x3012, stride := 0x8, units := 2, sub := 0x01, subs := 4, ty := .i32, acc := .ro, dom := 3, dflt := .n 2147483647 },
  -- notch_level
  { base := 0x3012, stride := 0x8, units := 2, sub := 0x05, subs := 4, ty := .u16, acc := .ro, dom := 3 },
  -- acq_start_class
  { base := 0x3030, sub := 0x01, ty := .u8, acc := .ro, dom := 3 },
  -- ttff
  { base := 0x3030, sub := 0x02, ty := .u32, acc := .ro, dom := 3, dflt := .n 4294967295 },
  -- channels_ready
  { base := 0x3030, sub := 0x03, ty := .u16, acc := .ro, dom := 3 },
  -- channels_tracking
  { base := 0x3030, sub := 0x04, ty := .u16, acc := .ro, dom := 3 },
  -- orbit_records
  { base := 0x3030, sub := 0x05, ty := .u16, acc := .ro, dom := 3 },
  -- nav_page_errors
  { base := 0x3030, sub := 0x06, ty := .u32, acc := .rw, dom := 3, rng := [(0, 0)] },
  -- channel_count
  { base := 0x3030, sub := 0x07, ty := .u16, acc := .const, dom := 3, dflt := .n 256 },
  -- channel_status (elements valid on the page)
  { base := 0x3100, stride := 0x1, units := 2, ty := .array, acc := .ro, dom := 3, dflt := .n 128 },
  -- channel_status
  { base := 0x3100, stride := 0x1, units := 2, sub := 0x01, subs := 128, ty := .oct, acc := .ro, dom := 3, dflt := .zeros, lens := .fixed 32 } ]
/-- All object rows of chapter 08. -/
def rows08 : List ObjRow := rows08_0 ++ rows08_1
/-- Objects of chapter 09 of spec/, part 1: each line follows its row of the object tables. -/
def rows09_0 : List ObjRow := [
  -- cable_delay
  { base := 0x3040, sub := 0x01, ty := .i64, acc := .ow, dom := 3, persist := true, rng := [(0, 100000000)] },
  -- ant_delay_0
  { base := 0x3040, sub := 0x02, ty := .i32, acc := .ow, dom := 3, persist := true, rng := [((-1000000), 1000000)] },
  -- ant_delay_1
  { base := 0x3040, sub := 0x03, ty := .i32, acc := .ow, dom := 3, persist := true, rng := [((-1000000), 1000000)] },
  -- fe_delay_0
  { base := 0x3040, sub := 0x04, ty := .i32, acc := .ow, dom := 3, persist := true, rng := [((-1000000), 1000000)] },
  -- fe_delay_1
  { base := 0x3040, sub := 0x05, ty := .i32, acc := .ow, dom := 3, persist := true, rng := [((-1000000), 1000000)] },
  -- sig_bias_count
  { base := 0x3041, ty := .u8, acc := .const, dom := 3, dflt := .n 10 },
  -- sig_bias
  { base := 0x3041, sub := 0x01, subs := 10, ty := .i32, acc := .ow, dom := 3, persist := true, rng := [((-1000000), 1000000)] },
  -- position_mode
  { base := 0x3042, sub := 0x01, ty := .u8, acc := .ow, dom := 3, persist := true, enc := .upTo 2 },
  -- fixed_position
  { base := 0x3042, sub := 0x02, subs := 3, ty := .i64, acc := .ow, dom := 3, persist := true },
  -- sol_elevation_mask
  { base := 0x3042, sub := 0x05, ty := .i16, acc := .ow, dom := 3, persist := true, dflt := .n 1000, rng := [(0, 4500)] },
  -- sol_min_dual
  { base := 0x3042, sub := 0x06, ty := .u8, acc := .ow, dom := 3, persist := true, dflt := .n 4, rng := [(1, 16)] },
  -- sol_smoothing
  { base := 0x3042, sub := 0x07, ty := .u16, acc := .ow, dom := 3, persist := true, dflt := .n 100, rng := [(0, 0), (1, 300)] },
  -- sky_ref_system
  { base := 0x3042, sub := 0x08, ty := .u8, acc := .ow, dom := 3, persist := true, dflt := .n 1, rng := [(1, 4)] },
  -- isb_mode
  { base := 0x3042, sub := 0x09, ty := .u8, acc := .ow, dom := 3, persist := true, rng := [(0, 1)] },
  -- sky_time_scale
  { base := 0x3042, sub := 0x0A, ty := .u8, acc := .ow, dom := 3, persist := true, enc := .upTo 1 },
  -- survey_min_time
  { base := 0x3043, sub := 0x01, ty := .u32, acc := .ow, dom := 3, persist := true, dflt := .n 1800, rng := [(60, 86400)] },
  -- survey_max_time
  { base := 0x3043, sub := 0x02, ty := .u32, acc := .ow, dom := 3, persist := true, dflt := .n 86400, rng := [(600, 604800)] },
  -- survey_accuracy
  { base := 0x3043, sub := 0x03, ty := .u32, acc := .ow, dom := 3, persist := true, dflt := .n 2000, rng := [(100, 100000)] },
  -- survey_restart
  { base := 0x3043, sub := 0x04, ty := .bool, acc := .rw, dom := 3 },
  -- move_limit
  { base := 0x3043, sub := 0x05, ty := .u32, acc := .ow, dom := 3, persist := true, dflt := .n 50, rng := [(5, 10000)] },
  -- pos_auto_resurvey
  { base := 0x3043, sub := 0x06, ty := .bool, acc := .ow, dom := 3, persist := true },
  -- fde_pfa
  { base := 0x3044, sub := 0x01, ty := .u8, acc := .ow, dom := 3, persist := true, dflt := .n 5, rng := [(3, 9)] },
  -- fde_max_exclude
  { base := 0x3044, sub := 0x02, ty := .u8, acc := .ow, dom := 3, persist := true, dflt := .n 3, rng := [(0, 8)] },
  -- exclusion_hold
  { base := 0x3044, sub := 0x03, ty := .u16, acc := .ow, dom := 3, persist := true, dflt := .n 600, rng := [(10, 3600)] },
  -- jam_margin
  { base := 0x3044, sub := 0x04, ty := .u8, acc := .ow, dom := 3, persist := true, dflt := .n 6, rng := [(3, 30)] },
  -- cn0_spread_limit
  { base := 0x3044, sub := 0x05, ty := .u16, acc := .ow, dom := 3, persist := true, dflt := .n 80, rng := [(10, 500)] },
  -- clock_jump_limit
  { base := 0x3044, sub := 0x06, ty := .u32, acc := .ow, dom := 3, persist := true, dflt := .n 50000, rng := [(1000, 10000000)] },
  -- xcheck_slot
  { base := 0x3044, sub := 0x07, ty := .u8, acc := .ow, dom := 3, persist := true, dflt := .n 255, rng := [(0, 15), (255, 255)] },
  -- xcheck_limit
  { base := 0x3044, sub := 0x08, ty := .u32, acc := .ow, dom := 3, persist := true, dflt := .n 1500000, rng := [(10000, 1000000000)] },
  -- xcheck_time
  { base := 0x3044, sub := 0x09, ty := .u16, acc := .ow, dom := 3, persist := true, dflt := .n 10, rng := [(1, 600)] } ]
/-- Objects of chapter 09 of spec/, part 2: each line follows its row of the object tables. -/
def rows09_1 : List ObjRow := [
  -- alarm_hold
  { base := 0x3044, sub := 0x0A, ty := .u16, acc := .ow, dom := 3, persist := true, rng := [(0, 3600)] },
  -- sky_state
  { base := 0x3045, sub := 0x01, ty := .u8, acc := .ro, dom := 3 },
  -- sky_time_error
  { base := 0x3045, sub := 0x02, ty := .dur, acc := .ro, dom := 3 },
  -- sky_time_sigma
  { base := 0x3045, sub := 0x03, ty := .u32, acc := .ro, dom := 3 },
  -- sats_used
  { base := 0x3045, sub := 0x04, ty := .u16, acc := .ro, dom := 3 },
  -- sats_excluded
  { base := 0x3045, sub := 0x05, ty := .u16, acc := .ro, dom := 3 },
  -- redundancy
  { base := 0x3045, sub := 0x06, ty := .u8, acc := .ro, dom := 3 },
  -- sol_mode
  { base := 0x3045, sub := 0x07, ty := .u8, acc := .ro, dom := 3 },
  -- position_state
  { base := 0x3045, sub := 0x08, ty := .u8, acc := .ro, dom := 3 },
  -- held_position
  { base := 0x3045, sub := 0x09, subs := 3, ty := .i64, acc := .ro, dom := 3 },
  -- survey_elapsed
  { base := 0x3045, sub := 0x0C, ty := .u32, acc := .ro, dom := 3 },
  -- survey_uncertainty
  { base := 0x3045, sub := 0x0D, ty := .u32, acc := .ro, dom := 3 },
  -- sky_alarms
  { base := 0x3045, sub := 0x0E, ty := .u16, acc := .ro, dom := 3 },
  -- grist_request
  { base := 0x3048, sub := 0x01, ty := .u8, acc := .rw, dom := 3, enc := .upTo 2 },
  -- grist_length
  { base := 0x3048, sub := 0x02, ty := .u8, acc := .ow, dom := 3, persist := true, dflt := .n 32, rng := [(1, 64)] },
  -- grist_hold
  { base := 0x3048, sub := 0x03, ty := .bool, acc := .rw, dom := 3 },
  -- grist_state
  { base := 0x3048, sub := 0x04, ty := .u8, acc := .ro, dom := 3 },
  -- grist_fix_time_error
  { base := 0x3048, sub := 0x05, ty := .dur, acc := .ro, dom := 3 },
  -- grist_fix_uncertainty
  { base := 0x3048, sub := 0x06, ty := .dur, acc := .ro, dom := 3 },
  -- grist_fix_status
  { base := 0x3048, sub := 0x07, ty := .u8, acc := .ro, dom := 3 },
  -- coarse_fix_margin
  { base := 0x3048, sub := 0x08, ty := .dur, acc := .ow, dom := 3, persist := true, dflt := .n 1000000, rng := [(0, 1000000000)] },
  -- grist_sequence
  { base := 0x3048, sub := 0x09, ty := .u32, acc := .ro, dom := 3 },
  -- grist_start_time
  { base := 0x3048, sub := 0x0A, ty := .time, acc := .ow, dom := 3, timed := true } ]
/-- All object rows of chapter 09. -/
def rows09 : List ObjRow := rows09_0 ++ rows09_1
/-- Objects of chapter 10 of spec/, part 1: each line follows its row of the object tables. -/
def rows10_0 : List ObjRow := [
  -- dep_depth
  { base := 0x4000, ty := .u16, acc := .const, dom := 4, dflt := .n 1024 },
  -- port_enable
  { base := 0x4000, stride := 0x40, units := 64, sub := 0x01, ty := .bool, acc := .ow, dom := 4, persist := true, dflt := .n 1 },
  -- port_speed
  { base := 0x4000, stride := 0x40, units := 64, sub := 0x02, ty := .u8, acc := .ow, dom := 4, persist := true, dflt := .n 4, enc := .upTo 5 },
  -- port_fec
  { base := 0x4000, stride := 0x40, units := 64, sub := 0x03, ty := .u8, acc := .ow, dom := 4, persist := true, dflt := .n 2, rng := [(0, 2)] },
  -- an_enable
  { base := 0x4000, stride := 0x40, units := 64, sub := 0x04, ty := .bool, acc := .ow, dom := 4, persist := true },
  -- an_abilities
  { base := 0x4000, stride := 0x40, units := 64, sub := 0x05, ty := .u8, acc := .ow, dom := 4, persist := true, dflt := .n 31, enc := .mask 31 },
  -- max_frame
  { base := 0x4000, stride := 0x40, units := 64, sub := 0x06, ty := .u16, acc := .ow, dom := 4, persist := true, dflt := .n 1522, rng := [(1518, 9216)] },
  -- vlan_tpid
  { base := 0x4000, stride := 0x40, units := 64, sub := 0x07, ty := .u16, acc := .ow, dom := 4, persist := true, dflt := .n 33024, rng := [(33024, 33024), (34984, 34984)] },
  -- promiscuous
  { base := 0x4000, stride := 0x40, units := 64, sub := 0x08, ty := .bool, acc := .ow, dom := 4, persist := true },
  -- promisc_ring
  { base := 0x4000, stride := 0x40, units := 64, sub := 0x09, ty := .u8, acc := .ow, dom := 4, persist := true, dflt := .n 127, rng := [(2, 127)] },
  -- rx_ext_delay
  { base := 0x4000, stride := 0x40, units := 64, sub := 0x0A, ty := .i64, acc := .ow, dom := 4, persist := true, rng := [((-1000000000), 1000000000)] },
  -- tx_ext_delay
  { base := 0x4000, stride := 0x40, units := 64, sub := 0x0B, ty := .i64, acc := .ow, dom := 4, persist := true, rng := [((-1000000000), 1000000000)] },
  -- los_action
  { base := 0x4000, stride := 0x40, units := 64, sub := 0x0C, ty := .bool, acc := .ow, dom := 4, persist := true, dflt := .n 1 },
  -- module_disable
  { base := 0x4000, stride := 0x40, units := 64, sub := 0x0D, ty := .bool, acc := .ow, dom := 4, persist := true },
  -- link_state
  { base := 0x4001, stride := 0x40, units := 64, sub := 0x01, ty := .u8, acc := .ro, dom := 4, dflt := .n 1 },
  -- speed_resolved
  { base := 0x4001, stride := 0x40, units := 64, sub := 0x02, ty := .u8, acc := .ro, dom := 4 },
  -- fec_resolved
  { base := 0x4001, stride := 0x40, units := 64, sub := 0x03, ty := .u8, acc := .ro, dom := 4 },
  -- link_up_time
  { base := 0x4001, stride := 0x40, units := 64, sub := 0x04, ty := .time, acc := .ro, dom := 4 },
  -- module_flags
  { base := 0x4001, stride := 0x40, units := 64, sub := 0x05, ty := .u8, acc := .ro, dom := 4 },
  -- speed_change_state
  { base := 0x4001, stride := 0x40, units := 64, sub := 0x06, ty := .u8, acc := .ro, dom := 4 },
  -- link_change_count
  { base := 0x4001, stride := 0x40, units := 64, sub := 0x07, ty := .u32, acc := .ro, dom := 4 },
  -- rx_sentinel_state
  { base := 0x4002, stride := 0x40, units := 64, sub := 0x01, ty := .u8, acc := .ro, dom := 4 },
  -- tx_sentinel_state
  { base := 0x4002, stride := 0x40, units := 64, sub := 0x02, ty := .u8, acc := .ro, dom := 4 },
  -- sref_offset
  { base := 0x4002, stride := 0x40, units := 64, sub := 0x03, ty := .ppt, acc := .ro, dom := 4 },
  -- rx_fixed_delay
  { base := 0x4002, stride := 0x40, units := 64, sub := 0x04, ty := .i32, acc := .ro, dom := 4, dflt := .cfgRxDelay },
  -- tx_fixed_delay
  { base := 0x4002, stride := 0x40, units := 64, sub := 0x05, ty := .i32, acc := .ro, dom := 4, dflt := .cfgTxDelay },
  -- fit_residual
  { base := 0x4002, stride := 0x40, units := 64, sub := 0x06, ty := .u16, acc := .ro, dom := 4 },
  -- relock_count
  { base := 0x4002, stride := 0x40, units := 64, sub := 0x07, ty := .u32, acc := .ro, dom := 4 },
  -- tx_mispredict
  { base := 0x4002, stride := 0x40, units := 64, sub := 0x08, ty := .u32, acc := .ro, dom := 4 },
  -- tx_mispredict_max
  { base := 0x4002, stride := 0x40, units := 64, sub := 0x09, ty := .u32, acc := .ro, dom := 4 } ]
/-- Objects of chapter 10 of spec/, part 2: each line follows its row of the object tables. -/
def rows10_1 : List ObjRow := [
  -- cal_partner
  { base := 0x4003, stride := 0x40, units := 64, sub := 0x01, ty := .u8, acc := .ow, dom := 4, persist := true, dflt := .n 255, rng := [(0, 63), (255, 255)] },
  -- cal_interval
  { base := 0x4003, stride := 0x40, units := 64, sub := 0x02, ty := .u16, acc := .ow, dom := 4, persist := true, dflt := .n 1000, rng := [(10, 10000)] },
  -- cal_window
  { base := 0x4003, stride := 0x40, units := 64, sub := 0x03, ty := .u16, acc := .ow, dom := 4, persist := true, dflt := .n 64, rng := [(8, 4096)] },
  -- cal_apply
  { base := 0x4003, stride := 0x40, units := 64, sub := 0x04, ty := .bool, acc := .ow, dom := 4, persist := true },
  -- cal_limit
  { base := 0x4003, stride := 0x40, units := 64, sub := 0x05, ty := .u32, acc := .ow, dom := 4, persist := true, dflt := .n 3000, rng := [(100, 10000)] },
  -- cal_state
  { base := 0x4003, stride := 0x40, units := 64, sub := 0x06, ty := .u8, acc := .ro, dom := 4 },
  -- cal_offset
  { base := 0x4003, stride := 0x40, units := 64, sub := 0x07, ty := .i64, acc := .ro, dom := 4 },
  -- cal_delay
  { base := 0x4003, stride := 0x40, units := 64, sub := 0x08, ty := .i64, acc := .ro, dom := 4 },
  -- cal_correction
  { base := 0x4003, stride := 0x40, units := 64, sub := 0x09, ty := .i64, acc := .ro, dom := 4 },
  -- cal_lost
  { base := 0x4003, stride := 0x40, units := 64, sub := 0x0A, ty := .u32, acc := .ro, dom := 4 },
  -- gov_enable
  { base := 0x4004, stride := 0x40, units := 64, sub := 0x01, ty := .bool, acc := .ow, dom := 4, persist := true, dflt := .n 1 },
  -- gov_receiver_allow
  { base := 0x4004, stride := 0x40, units := 64, sub := 0x02, ty := .bool, acc := .ow, dom := 4, persist := true },
  -- gov_lpi
  { base := 0x4004, stride := 0x40, units := 64, sub := 0x03, ty := .bool, acc := .ow, dom := 4, persist := true, dflt := .n 1 },
  -- gov_window
  { base := 0x4004, stride := 0x40, units := 64, sub := 0x04, ty := .u16, acc := .ow, dom := 4, persist := true, dflt := .n 60, rng := [(10, 3600)] },
  -- gov_down
  { base := 0x4004, stride := 0x40, units := 64, sub := 0x05, ty := .u8, acc := .ow, dom := 4, persist := true, dflt := .n 40, rng := [(5, 70)] },
  -- gov_up
  { base := 0x4004, stride := 0x40, units := 64, sub := 0x06, ty := .u8, acc := .ow, dom := 4, persist := true, dflt := .n 80, rng := [(50, 95)] },
  -- gov_dwell
  { base := 0x4004, stride := 0x40, units := 64, sub := 0x07, ty := .u16, acc := .ow, dom := 4, persist := true, dflt := .n 600, rng := [(60, 86400)] },
  -- gov_lpi_idle
  { base := 0x4004, stride := 0x40, units := 64, sub := 0x08, ty := .u16, acc := .ow, dom := 4, persist := true, dflt := .n 100, rng := [(10, 10000)] },
  -- gov_changes
  { base := 0x4004, stride := 0x40, units := 64, sub := 0x09, ty := .u32, acc := .ro, dom := 4 },
  -- lpi_time
  { base := 0x4004, stride := 0x40, units := 64, sub := 0x0A, ty := .u64, acc := .ro, dom := 4 },
  -- esmc_tx_enable
  { base := 0x4005, stride := 0x40, units := 64, sub := 0x01, ty := .bool, acc := .ow, dom := 4, persist := true },
  -- esmc_tx_option
  { base := 0x4005, stride := 0x40, units := 64, sub := 0x02, ty := .u8, acc := .ow, dom := 4, persist := true, rng := [(0, 1)] },
  -- esmc_tx_code
  { base := 0x4005, stride := 0x40, units := 64, sub := 0x03, ty := .u16, acc := .ro, dom := 4, dflt := .n 4095 },
  -- rx_frames
  { base := 0x4006, stride := 0x40, units := 64, sub := 0x01, ty := .u64, acc := .ro, dom := 4 },
  -- rx_bytes
  { base := 0x4006, stride := 0x40, units := 64, sub := 0x02, ty := .u64, acc := .ro, dom := 4 },
  -- rx_fcs_errors
  { base := 0x4006, stride := 0x40, units := 64, sub := 0x03, ty := .u32, acc := .ro, dom := 4 },
  -- rx_size_errors
  { base := 0x4006, stride := 0x40, units := 64, sub := 0x04, ty := .u32, acc := .ro, dom := 4 },
  -- rx_filtered
  { base := 0x4006, stride := 0x40, units := 64, sub := 0x05, ty := .u64, acc := .ro, dom := 4 },
  -- rx_control_discard
  { base := 0x4006, stride := 0x40, units := 64, sub := 0x06, ty := .u32, acc := .ro, dom := 4 },
  -- tx_frames
  { base := 0x4006, stride := 0x40, units := 64, sub := 0x07, ty := .u64, acc := .ro, dom := 4 } ]
/-- Objects of chapter 10 of spec/, part 3: each line follows its row of the object tables. -/
def rows10_2 : List ObjRow := [
  -- tx_bytes
  { base := 0x4006, stride := 0x40, units := 64, sub := 0x08, ty := .u64, acc := .ro, dom := 4 },
  -- ts_uncal_drop
  { base := 0x4006, stride := 0x40, units := 64, sub := 0x09, ty := .u32, acc := .ro, dom := 4 },
  -- tx_csum_skip
  { base := 0x4006, stride := 0x40, units := 64, sub := 0x0A, ty := .u32, acc := .ro, dom := 4 },
  -- tx_aborted
  { base := 0x4006, stride := 0x40, units := 64, sub := 0x0B, ty := .u32, acc := .ro, dom := 4 },
  -- fec_corrected
  { base := 0x4006, stride := 0x40, units := 64, sub := 0x0C, ty := .u64, acc := .ro, dom := 4 },
  -- fec_uncorrected
  { base := 0x4006, stride := 0x40, units := 64, sub := 0x0D, ty := .u64, acc := .ro, dom := 4 },
  -- pm_enable, e = 0
  { base := 0x4010, stride := 0x40, units := 64, sub := 0x01, ty := .bool, acc := .ro, dom := 4, dflt := .n 1 },
  -- pm_enable, e = 1-15
  { base := 0x4011, stride := 0x40, units := 64, units2 := 15, sub := 0x01, ty := .bool, acc := .ow, dom := 4, persist := true },
  -- pm_mac, e = 0
  { base := 0x4010, stride := 0x40, units := 64, sub := 0x02, ty := .oct, acc := .ro, dom := 4, dflt := .mac 0, lens := .fixed 6 },
  -- pm_mac, e = 1-15
  { base := 0x4011, stride := 0x40, units := 64, units2 := 15, sub := 0x02, ty := .oct, acc := .ow, dom := 4, persist := true, dflt := .zeros, lens := .fixed 6 },
  -- pm_vlan_mode, e = 0
  { base := 0x4010, stride := 0x40, units := 64, sub := 0x03, ty := .u8, acc := .ro, dom := 4, dflt := .n 2 },
  -- pm_vlan_mode, e = 1-15
  { base := 0x4011, stride := 0x40, units := 64, units2 := 15, sub := 0x03, ty := .u8, acc := .ow, dom := 4, persist := true, dflt := .n 2, enc := .upTo 2 },
  -- pm_vid, e = 0
  { base := 0x4010, stride := 0x40, units := 64, sub := 0x04, ty := .u16, acc := .ro, dom := 4, dflt := .n 1 },
  -- pm_vid, e = 1-15
  { base := 0x4011, stride := 0x40, units := 64, units2 := 15, sub := 0x04, ty := .u16, acc := .ow, dom := 4, persist := true, dflt := .n 1, rng := [(1, 4094)] },
  -- inband_mac
  { base := 0x4030, sub := 0x01, ty := .oct, acc := .ow, dom := 4, persist := true, dflt := .mac 0, lens := .fixed 6 },
  -- inband_vlan_mode
  { base := 0x4030, sub := 0x02, ty := .u8, acc := .ow, dom := 4, persist := true, dflt := .n 2, enc := .upTo 2 },
  -- inband_vid
  { base := 0x4030, sub := 0x03, ty := .u16, acc := .ow, dom := 4, persist := true, dflt := .n 1, rng := [(1, 4094)] },
  -- mgmt_enable
  { base := 0x4031, sub := 0x01, ty := .bool, acc := .ow, dom := 4, persist := true, dflt := .n 1 },
  -- mgmt_mac
  { base := 0x4031, sub := 0x02, ty := .oct, acc := .ow, dom := 4, persist := true, dflt := .mac 1, lens := .fixed 6 },
  -- mgmt_phy_addr
  { base := 0x4031, sub := 0x03, ty := .u8, acc := .ow, dom := 4, persist := true, dflt := .n 1, rng := [(0, 31)] },
  -- rgmii_tx_delay
  { base := 0x4031, sub := 0x04, ty := .bool, acc := .ow, dom := 4, persist := true },
  -- rgmii_rx_delay
  { base := 0x4031, sub := 0x05, ty := .bool, acc := .ow, dom := 4, persist := true },
  -- mgmt_link
  { base := 0x4031, sub := 0x06, ty := .u8, acc := .ro, dom := 4 },
  -- mgmt_rx_frames
  { base := 0x4031, sub := 0x07, ty := .u64, acc := .ro, dom := 4 },
  -- mgmt_rx_dropped
  { base := 0x4031, sub := 0x08, ty := .u32, acc := .ro, dom := 4 },
  -- sb_enable
  { base := 0x4032, sub := 0x01, ty := .bool, acc := .ow, dom := 4, persist := true },
  -- sb_clock
  { base := 0x4032, sub := 0x02, ty := .u32, acc := .ow, dom := 4, persist := true, dflt := .n 10000000, rng := [(1000000, 25000000)] },
  -- sb_period
  { base := 0x4032, sub := 0x03, ty := .u16, acc := .ow, dom := 4, persist := true, dflt := .n 100, rng := [(30, 10000)] },
  -- sb_invert
  { base := 0x4032, sub := 0x04, ty := .u8, acc := .ow, dom := 4, persist := true, enc := .mask 15 },
  -- sb_scan_count
  { base := 0x4032, sub := 0x05, ty := .u32, acc := .ro, dom := 4 } ]
/-- Objects of chapter 10 of spec/, part 4: each line follows its row of the object tables. -/
def rows10_3 : List ObjRow := [
  -- sref_ql_mode
  { base := 0x4033, sub := 0x01, subs := 4, ty := .u8, acc := .ow, dom := 4, persist := true, enc := .upTo 2 },
  -- sref_ql_fixed
  { base := 0x4033, sub := 0x05, subs := 4, ty := .u16, acc := .ow, dom := 4, persist := true, dflt := .n 3071 } ]
/-- All object rows of chapter 10. -/
def rows10 : List ObjRow := rows10_0 ++ rows10_1 ++ rows10_2 ++ rows10_3
/-- Objects of chapter 11 of spec/, part 1: each line follows its row of the object tables. -/
def rows11_0 : List ObjRow := [
  -- serve_state
  { base := 0x5000, sub := 0x01, ty := .u8, acc := .ro, dom := 5 },
  -- quiet_pin
  { base := 0x5000, sub := 0x02, ty := .bool, acc := .ro, dom := 5 },
  -- serve_quiet
  { base := 0x5000, sub := 0x03, ty := .bool, acc := .rw, dom := 5 },
  -- quiet_drop
  { base := 0x5000, sub := 0x04, ty := .u64, acc := .ro, dom := 5 },
  -- unclassified
  { base := 0x5000, sub := 0x05, ty := .u64, acc := .ro, dom := 5 },
  -- consolidate_enable
  { base := 0x5000, sub := 0x06, ty := .bool, acc := .ow, dom := 5, persist := true, dflt := .n 1 },
  -- consolidate_target
  { base := 0x5000, sub := 0x07, ty := .u8, acc := .ow, dom := 5, persist := true, dflt := .n 70, rng := [(30, 95)] },
  -- gate_delay
  { base := 0x5000, sub := 0x08, ty := .u16, acc := .ow, dom := 5, persist := true, dflt := .n 10, rng := [(1, 10000)] },
  -- active_pairs
  { base := 0x5000, sub := 0x09, ty := .u8, acc := .ro, dom := 5, dflt := .n 1 },
  -- queue_age_limit
  { base := 0x5000, sub := 0x0A, ty := .u32, acc := .ow, dom := 5, persist := true, dflt := .n 200, rng := [(20, 10000)] },
  -- instr_limit
  { base := 0x5000, sub := 0x0C, ty := .u16, acc := .ow, dom := 5, persist := true, dflt := .n 2048, rng := [(256, 8192)] },
  -- class_limit
  { base := 0x5001, sub := 0x01, subs := 3, ty := .u16, acc := .ow, dom := 5, persist := true, dflt := .perSub [256, 512, 512], rng := [(16, 1024)] },
  -- class_weight_1
  { base := 0x5001, sub := 0x04, ty := .u8, acc := .ow, dom := 5, persist := true, dflt := .n 1, rng := [(1, 16)] },
  -- class_weight_2
  { base := 0x5001, sub := 0x05, ty := .u8, acc := .ow, dom := 5, persist := true, dflt := .n 1, rng := [(1, 16)] },
  -- bucket_map (elements valid on the page)
  { base := 0x5080, stride := 0x1, units := 2, ty := .array, acc := .ro, dom := 5, dflt := .n 128 },
  -- bucket_map
  { base := 0x5080, stride := 0x1, units := 2, sub := 0x01, subs := 128, ty := .u8, acc := .ro, dom := 5, dflt := .mod8 },
  -- ring_fill (elements valid on the page)
  { base := 0x5090, stride := 0x1, units := 2, ty := .array, acc := .ro, dom := 5, dflt := .n 128 },
  -- ring_fill
  { base := 0x5090, stride := 0x1, units := 2, sub := 0x01, subs := 128, ty := .u16, acc := .ro, dom := 5 },
  -- ring_drop (elements valid on the page)
  { base := 0x5092, stride := 0x1, units := 2, ty := .array, acc := .ro, dom := 5, dflt := .n 128 },
  -- ring_drop
  { base := 0x5092, stride := 0x1, units := 2, sub := 0x01, subs := 128, ty := .u32, acc := .ro, dom := 5 },
  -- tap_ring
  { base := 0x5094, sub := 0x01, ty := .u8, acc := .ow, dom := 5, rng := [(0, 0), (2, 127)] },
  -- aes_lanes_active
  { base := 0x50A0, sub := 0x01, ty := .u8, acc := .ro, dom := 5 },
  -- aes_blocks
  { base := 0x50A0, sub := 0x02, ty := .u64, acc := .ro, dom := 5 },
  -- aes_auth_fail
  { base := 0x50A0, sub := 0x03, ty := .u64, acc := .ro, dom := 5 },
  -- engine_state
  { base := 0x5010, stride := 0x8, units := 8, sub := 0x01, ty := .u8, acc := .ro, dom := 5 },
  -- frames_taken
  { base := 0x5010, stride := 0x8, units := 8, sub := 0x02, ty := .u64, acc := .ro, dom := 5 },
  -- drop_class0–drop_class2
  { base := 0x5010, stride := 0x8, units := 8, sub := 0x03, subs := 3, ty := .u64, acc := .ro, dom := 5 },
  -- drop_stale
  { base := 0x5010, stride := 0x8, units := 8, sub := 0x06, ty := .u64, acc := .ro, dom := 5 },
  -- engine_faults
  { base := 0x5010, stride := 0x8, units := 8, sub := 0x07, ty := .u32, acc := .ro, dom := 5 },
  -- wake_count
  { base := 0x5010, stride := 0x8, units := 8, sub := 0x08, ty := .u32, acc := .ro, dom := 5 } ]
/-- Objects of chapter 11 of spec/, part 2: each line follows its row of the object tables. -/
def rows11_1 : List ObjRow := [
  -- rule_enable, rules 0-15
  { base := 0x5060, stride := 0x1, units := 16, sub := 0x01, ty := .bool, acc := .ow, dom := 5, persist := true },
  -- rule_enable, rules 16-31
  { base := 0x5070, stride := 0x1, units := 16, sub := 0x01, ty := .bool, acc := .ro, dom := 5, dflt := .perUnit [1, 1, 1, 1, 1, 1, 1, 1, 1, 1, 1, 1, 1, 0, 0, 0] },
  -- match_ethertype, rules 0-15
  { base := 0x5060, stride := 0x1, units := 16, sub := 0x02, ty := .u16, acc := .ow, dom := 5, persist := true },
  -- match_ethertype, rules 16-31
  { base := 0x5070, stride := 0x1, units := 16, sub := 0x02, ty := .u16, acc := .ro, dom := 5, dflt := .perUnit [0, 0, 0, 0, 0x88F7, 0x88F7, 0x88F7, 0x88F7, 0, 0, 0, 0x0806, 0, 0, 0, 0] },
  -- match_ip_proto, rules 0-15
  { base := 0x5060, stride := 0x1, units := 16, sub := 0x03, ty := .u8, acc := .ow, dom := 5, persist := true },
  -- match_ip_proto, rules 16-31
  { base := 0x5070, stride := 0x1, units := 16, sub := 0x03, ty := .u8, acc := .ro, dom := 5, dflt := .perUnit [17, 17, 17, 17, 0, 0, 0, 0, 17, 17, 6, 0, 1, 0, 0, 0] },
  -- match_l4_port, rules 0-15
  { base := 0x5060, stride := 0x1, units := 16, sub := 0x04, ty := .u16, acc := .ow, dom := 5, persist := true },
  -- match_l4_port, rules 16-31
  { base := 0x5070, stride := 0x1, units := 16, sub := 0x04, ty := .u16, acc := .ro, dom := 5, dflt := .perUnit [319, 320, 320, 320, 0, 0, 0, 0, 123, 123, 4460, 0, 0, 0, 0, 0] },
  -- match_ptp_types, rules 0-15
  { base := 0x5060, stride := 0x1, units := 16, sub := 0x05, ty := .u16, acc := .ow, dom := 5, persist := true },
  -- match_ptp_types, rules 16-31
  { base := 0x5070, stride := 0x1, units := 16, sub := 0x05, ty := .u16, acc := .ro, dom := 5, dflt := .perUnit [0x000F, 0x0700, 0x1000, 0x2800, 0xFFFF, 0x000F, 0x0700, 0x2800, 0, 0, 0, 0, 0, 0, 0, 0] },
  -- match_sdo, rules 0-15
  { base := 0x5060, stride := 0x1, units := 16, sub := 0x06, ty := .u8, acc := .ow, dom := 5, persist := true, dflt := .n 255, rng := [(0, 15), (255, 255)] },
  -- match_sdo, rules 16-31
  { base := 0x5070, stride := 0x1, units := 16, sub := 0x06, ty := .u8, acc := .ro, dom := 5, dflt := .perUnit [255, 255, 255, 255, 1, 0, 0, 0, 255, 255, 255, 255, 255, 255, 255, 255] },
  -- match_ntp_ext, rules 0-15
  { base := 0x5060, stride := 0x1, units := 16, sub := 0x07, ty := .u8, acc := .ow, dom := 5, persist := true, enc := .upTo 2 },
  -- match_ntp_ext, rules 16-31
  { base := 0x5070, stride := 0x1, units := 16, sub := 0x07, ty := .u8, acc := .ro, dom := 5, dflt := .perUnit [0, 0, 0, 0, 0, 0, 0, 0, 1, 2, 0, 0, 0, 0, 0, 0] },
  -- rule_action, rules 0-15
  { base := 0x5060, stride := 0x1, units := 16, sub := 0x08, ty := .u8, acc := .ow, dom := 5, persist := true, rng := [(0, 2)] },
  -- rule_action, rules 16-31
  { base := 0x5070, stride := 0x1, units := 16, sub := 0x08, ty := .u8, acc := .ro, dom := 5, dflt := .perUnit [1, 1, 1, 2, 1, 1, 1, 2, 1, 1, 2, 2, 2, 0, 0, 0] },
  -- rule_target, rules 0-15
  { base := 0x5060, stride := 0x1, units := 16, sub := 0x09, ty := .u8, acc := .ow, dom := 5, persist := true },
  -- rule_target, rules 16-31
  { base := 0x5070, stride := 0x1, units := 16, sub := 0x09, ty := .u8, acc := .ro, dom := 5, dflt := .perUnit [3, 4, 5, 4, 6, 3, 4, 4, 1, 2, 3, 5, 5, 0, 0, 0] },
  -- rule_class, rules 0-15
  { base := 0x5060, stride := 0x1, units := 16, sub := 0x0A, ty := .u8, acc := .ow, dom := 5, persist := true, dflt := .n 1, rng := [(0, 2)] },
  -- rule_class, rules 16-31
  { base := 0x5070, stride := 0x1, units := 16, sub := 0x0A, ty := .u8, acc := .ro, dom := 5, dflt := .perUnit [0, 0, 0, 1, 0, 0, 0, 1, 1, 2, 1, 1, 1, 1, 1, 1] },
  -- rule_matches
  { base := 0x5060, stride := 0x1, units := 32, sub := 0x0B, ty := .u64, acc := .ro, dom := 5 },
  -- program_status
  { base := 0x5100, sub := 0x01, ty := .u8, acc := .ro, dom := 5 },
  -- program_reject_cause
  { base := 0x5100, sub := 0x02, ty := .u8, acc := .ro, dom := 5 },
  -- program_version_active
  { base := 0x5100, sub := 0x03, ty := .u32, acc := .ro, dom := 5 },
  -- program_version_staged
  { base := 0x5100, sub := 0x04, ty := .u32, acc := .ro, dom := 5 },
  -- program_activate
  { base := 0x5100, sub := 0x05, ty := .bool, acc := .rw, dom := 5, timed := true },
  -- program_signer_active
  { base := 0x5100, sub := 0x06, ty := .u8, acc := .ro, dom := 5 },
  -- region_a_version
  { base := 0x5100, sub := 0x07, ty := .u32, acc := .ro, dom := 5, dflt := .n Config.regionAVersion },
  -- ct_entries
  { base := 0x5200, sub := 0x01, ty := .u32, acc := .ro, dom := 5 },
  -- ct_grants
  { base := 0x5200, sub := 0x02, ty := .u32, acc := .ro, dom := 5 } ]
/-- Objects of chapter 11 of spec/, part 3: each line follows its row of the object tables. -/
def rows11_2 : List ObjRow := [
  -- ct_full
  { base := 0x5200, sub := 0x03, ty := .bool, acc := .ro, dom := 5 },
  -- ct_stateless
  { base := 0x5200, sub := 0x04, ty := .u64, acc := .ro, dom := 5 },
  -- ct_late
  { base := 0x5200, sub := 0x05, ty := .u64, acc := .ro, dom := 5 },
  -- ct_reclaimed
  { base := 0x5200, sub := 0x06, ty := .u64, acc := .ro, dom := 5 },
  -- reclaim_age
  { base := 0x5200, sub := 0x07, ty := .u32, acc := .ow, dom := 5, persist := true, dflt := .n 3600, rng := [(600, 604800)] },
  -- ct_create_rate
  { base := 0x5200, sub := 0x08, ty := .u32, acc := .ow, dom := 5, persist := true, dflt := .n 2000000, rng := [(1000, 100000000)] },
  -- grant_limit
  { base := 0x5200, sub := 0x09, ty := .u32, acc := .ow, dom := 5, persist := true, dflt := .n 1048576, rng := [(0, 1048576)] },
  -- ct_insert_fail
  { base := 0x5200, sub := 0x0A, ty := .u64, acc := .ro, dom := 5 },
  -- lookup_deadline
  { base := 0x5200, sub := 0x0B, ty := .u16, acc := .ow, dom := 5, persist := true, dflt := .n 8, rng := [(2, 100)] },
  -- ntp_bucket_rate
  { base := 0x5201, sub := 0x01, ty := .u32, acc := .ow, dom := 5, persist := true, dflt := .n 256, rng := [(16, 65536)] },
  -- ntp_bucket_burst
  { base := 0x5201, sub := 0x02, ty := .u8, acc := .ow, dom := 5, persist := true, dflt := .n 8, rng := [(1, 255)] },
  -- kod_enable
  { base := 0x5201, sub := 0x03, ty := .bool, acc := .ow, dom := 5, persist := true, dflt := .n 1 },
  -- ptp_bucket_burst
  { base := 0x5201, sub := 0x04, ty := .u8, acc := .ow, dom := 5, persist := true, dflt := .n 16, rng := [(1, 255)] },
  -- sketch_limit
  { base := 0x5201, sub := 0x05, ty := .u16, acc := .ow, dom := 5, persist := true, dflt := .n 200, rng := [(2, 65535)] },
  -- sketch_period
  { base := 0x5201, sub := 0x06, ty := .u16, acc := .ow, dom := 5, persist := true, dflt := .n 1000, rng := [(100, 60000)] },
  -- rate_kod_sent
  { base := 0x5201, sub := 0x07, ty := .u64, acc := .ro, dom := 5 },
  -- rate_dropped
  { base := 0x5201, sub := 0x08, ty := .u64, acc := .ro, dom := 5 },
  -- sketch_dropped
  { base := 0x5201, sub := 0x09, ty := .u64, acc := .ro, dom := 5 } ]
/-- All object rows of chapter 11. -/
def rows11 : List ObjRow := rows11_0 ++ rows11_1 ++ rows11_2
/-- Objects of chapter 12 of spec/, part 1: each line follows its row of the object tables. -/
def rows12_0 : List ObjRow := [
  -- program_params
  { base := 0x5101, sub := 0x01, ty := .oct, acc := .ow, dom := 5, persist := true, dflt := .bytes (List.replicate 32 0), lens := .fixed 32 },
  -- program_counter_count
  { base := 0x5101, sub := 0x02, ty := .u16, acc := .const, dom := 5, dflt := .n 256 },
  -- program_counter_clear
  { base := 0x5101, sub := 0x03, ty := .bool, acc := .rw, dom := 5 },
  -- program_counters (elements valid on the page)
  { base := 0x5110, stride := 0x1, units := 2, ty := .array, acc := .ro, dom := 5, dflt := .n 128 },
  -- program_counters
  { base := 0x5110, stride := 0x1, units := 2, sub := 0x01, subs := 128, ty := .u64, acc := .ro, dom := 5 } ]
/-- All object rows of chapter 12. -/
def rows12 : List ObjRow := rows12_0
/-- Objects of chapter 13 of spec/, part 1: each line follows its row of the object tables. -/
def rows13_0 : List ObjRow := [
  -- inst_enable
  { base := 0x5400, stride := 0x40, units := 4, sub := 0x01, ty := .bool, acc := .ow, dom := 5, persist := true },
  -- profile
  { base := 0x5400, stride := 0x40, units := 4, sub := 0x02, ty := .u8, acc := .ow, dom := 5, persist := true, enc := .upTo 6 },
  -- instance_role
  { base := 0x5400, stride := 0x40, units := 4, sub := 0x03, ty := .u8, acc := .ow, dom := 5, persist := true, rng := [(0, 2)] },
  -- domain_number
  { base := 0x5400, stride := 0x40, units := 4, sub := 0x04, ty := .u8, acc := .ow, dom := 5, persist := true, dflt := .n 255, rng := [(0, 127)] },
  -- transport
  { base := 0x5400, stride := 0x40, units := 4, sub := 0x05, ty := .u8, acc := .ow, dom := 5, persist := true, dflt := .n 1, rng := [(0, 2)] },
  -- priority1
  { base := 0x5400, stride := 0x40, units := 4, sub := 0x06, ty := .u8, acc := .ow, dom := 5, persist := true, dflt := .n 128 },
  -- priority2
  { base := 0x5400, stride := 0x40, units := 4, sub := 0x07, ty := .u8, acc := .ow, dom := 5, persist := true, dflt := .n 128 },
  -- two_step
  { base := 0x5400, stride := 0x40, units := 4, sub := 0x08, ty := .bool, acc := .ow, dom := 5, persist := true },
  -- unicast_enable
  { base := 0x5400, stride := 0x40, units := 4, sub := 0x09, ty := .bool, acc := .ow, dom := 5, persist := true, dflt := .n 2 },
  -- announce_timeout
  { base := 0x5400, stride := 0x40, units := 4, sub := 0x0A, ty := .u8, acc := .ow, dom := 5, persist := true, dflt := .n 3, rng := [(2, 255)] },
  -- pdelay_valid
  { base := 0x5400, stride := 0x40, units := 4, sub := 0x0B, ty := .u8, acc := .ow, dom := 5, persist := true, dflt := .n 4, rng := [(1, 64)] },
  -- neighbor_prop_thresh
  { base := 0x5400, stride := 0x40, units := 4, sub := 0x0C, ty := .u32, acc := .ow, dom := 5, persist := true, dflt := .n 800, rng := [(1, 1000000)] },
  -- sm_local_offset
  { base := 0x5400, stride := 0x40, units := 4, sub := 0x0D, ty := .i32, acc := .ow, dom := 5, persist := true },
  -- grant_max_duration
  { base := 0x5400, stride := 0x40, units := 4, sub := 0x0E, ty := .u16, acc := .ow, dom := 5, persist := true, dflt := .n 300, rng := [(10, 1000)] },
  -- log_sync
  { base := 0x5400, stride := 0x40, units := 4, sub := 0x0F, ty := .i8, acc := .ow, dom := 5, persist := true, dflt := .n 100, rng := [((-7), 1)] },
  -- log_announce
  { base := 0x5400, stride := 0x40, units := 4, sub := 0x10, ty := .i8, acc := .ow, dom := 5, persist := true, dflt := .n 100, rng := [((-3), 4)] },
  -- log_delay_req
  { base := 0x5400, stride := 0x40, units := 4, sub := 0x11, ty := .i8, acc := .ow, dom := 5, persist := true, dflt := .n 100, rng := [((-7), 5)] },
  -- member_ports
  { base := 0x5400, stride := 0x40, units := 4, sub := 0x12, ty := .u64, acc := .ow, dom := 5, persist := true },
  -- rx_mac_mode
  { base := 0x5400, stride := 0x40, units := 4, sub := 0x13, ty := .u8, acc := .ow, dom := 5, persist := true, rng := [(0, 1)] },
  -- parent_identity
  { base := 0x5401, stride := 0x40, units := 4, sub := 0x01, ty := .oct, acc := .ro, dom := 5, dflt := .zeros, lens := .fixed 10 },
  -- gm_identity
  { base := 0x5401, stride := 0x40, units := 4, sub := 0x02, ty := .oct, acc := .ro, dom := 5, dflt := .zeros, lens := .fixed 8 },
  -- mean_path_delay
  { base := 0x5401, stride := 0x40, units := 4, sub := 0x03, ty := .dur, acc := .ro, dom := 5 },
  -- receiver_port
  { base := 0x5401, stride := 0x40, units := 4, sub := 0x04, ty := .u8, acc := .ro, dom := 5, dflt := .n 255 },
  -- sec_icv_fail
  { base := 0x5401, stride := 0x40, units := 4, sub := 0x05, ty := .u32, acc := .ro, dom := 5 },
  -- unicast_masters
  { base := 0x5402, stride := 0x40, units := 4, sub := 0x01, subs := 4, ty := .oct, acc := .ow, dom := 5, persist := true, dflt := .zeros, lens := .fixed 16 },
  -- sec_mode
  { base := 0x5403, stride := 0x40, units := 4, sub := 0x01, ty := .u8, acc := .ow, dom := 5, persist := true, rng := [(0, 2)] },
  -- sec_spp
  { base := 0x5403, stride := 0x40, units := 4, sub := 0x02, ty := .u8, acc := .ow, dom := 5, persist := true, rng := [(0, 255)] },
  -- sec_key_id
  { base := 0x5403, stride := 0x40, units := 4, sub := 0x03, ty := .u32, acc := .ow, dom := 5, persist := true },
  -- sec_key
  { base := 0x5403, stride := 0x40, units := 4, sub := 0x04, ty := .oct, acc := .wo, dom := 5, persist := true, dflt := .empty, lens := .fixed 32, secret := true },
  -- port_local_priority (highest subindex)
  { base := 0x5404, stride := 0x40, units := 4, ty := .array, acc := .ro, dom := 5, dflt := .n 64 } ]
/-- Objects of chapter 13 of spec/, part 2: each line follows its row of the object tables. -/
def rows13_1 : List ObjRow := [
  -- port_local_priority
  { base := 0x5404, stride := 0x40, units := 4, sub := 0x01, subs := 64, ty := .u8, acc := .ow, dom := 5, persist := true, dflt := .n 128 },
  -- port_state (highest subindex)
  { base := 0x5405, stride := 0x40, units := 4, ty := .array, acc := .ro, dom := 5, dflt := .n 64 },
  -- port_state
  { base := 0x5405, stride := 0x40, units := 4, sub := 0x01, subs := 64, ty := .u8, acc := .ro, dom := 5 },
  -- ntp_precision
  { base := 0x5300, sub := 0x03, ty := .i8, acc := .const, dom := 5, dflt := .n (-29) },
  -- ntp_min_dispersion
  { base := 0x5300, sub := 0x04, ty := .dur, acc := .ow, dom := 5, persist := true, dflt := .n 16000, rng := [(0, 1000000000)] },
  -- kod_min_poll
  { base := 0x5300, sub := 0x05, ty := .i8, acc := .ow, dom := 5, persist := true, dflt := .n 10, rng := [(4, 17)] },
  -- nts_master_key
  { base := 0x5500, sub := 0x01, ty := .oct, acc := .wo, dom := 5, persist := true, dflt := .empty, lens := .fixed 32, secret := true },
  -- nts_key_period
  { base := 0x5500, sub := 0x02, ty := .u32, acc := .ow, dom := 5, persist := true, dflt := .n 86400, rng := [(3600, 604800)] },
  -- nts_key_accept
  { base := 0x5500, sub := 0x03, ty := .u8, acc := .ow, dom := 5, persist := true, dflt := .n 2, rng := [(0, 7)] },
  -- nts_allow_512
  { base := 0x5500, sub := 0x04, ty := .bool, acc := .ow, dom := 5, persist := true },
  -- nts_server_name
  { base := 0x5500, sub := 0x05, ty := .str, acc := .ow, dom := 5, persist := true, dflt := .empty, lens := .maxLen 255 },
  -- nts_ke_max_sessions
  { base := 0x5500, sub := 0x06, ty := .u16, acc := .ow, dom := 5, persist := true, dflt := .n 4096, rng := [(16, 16384)] },
  -- nts_key_number
  { base := 0x5500, sub := 0x07, ty := .u16, acc := .ro, dom := 5 } ]
/-- All object rows of chapter 13. -/
def rows13 : List ObjRow := rows13_0 ++ rows13_1
/-- Objects of chapter 14 of spec/, part 1: each line follows its row of the object tables. -/
def rows14_0 : List ObjRow := [
  -- bn_state
  { base := 0x5800, sub := 0x01, ty := .u8, acc := .ro, dom := 7 },
  -- bn_chains
  { base := 0x5800, sub := 0x02, ty := .u64, acc := .ro, dom := 7 },
  -- bn_descriptors
  { base := 0x5800, sub := 0x03, ty := .u64, acc := .ro, dom := 7 },
  -- bn_aborts
  { base := 0x5800, sub := 0x04, ty := .u32, acc := .ro, dom := 7 },
  -- bn_rejects
  { base := 0x5800, sub := 0x05, ty := .u32, acc := .ro, dom := 7 },
  -- bn_occupancy
  { base := 0x5800, sub := 0x06, ty := .u16, acc := .ro, dom := 7 },
  -- bn_point_invalid
  { base := 0x5800, sub := 0x07, ty := .u32, acc := .ro, dom := 7 },
  -- bn_sig_withheld
  { base := 0x5800, sub := 0x08, ty := .u32, acc := .ro, dom := 7 },
  -- bn_selftest
  { base := 0x5801, sub := 0x01, ty := .bool, acc := .rw, dom := 7 },
  -- bn_selftest_result
  { base := 0x5801, sub := 0x02, ty := .u8, acc := .ro, dom := 7 },
  -- bn_selftest_time
  { base := 0x5801, sub := 0x03, ty := .time, acc := .ro, dom := 7 } ]
/-- All object rows of chapter 14. -/
def rows14 : List ObjRow := rows14_0
/-- Objects of chapter 15 of spec/, part 1: each line follows its row of the object tables. -/
def rows15_0 : List ObjRow := [
  -- fw_running_version
  { base := 0x1210, sub := 0x01, ty := .u32, acc := .ro, dom := 6, dflt := .n Config.fwVersion },
  -- fw_running_bank
  { base := 0x1210, sub := 0x02, ty := .u8, acc := .ro, dom := 6 },
  -- fw_staged_status
  { base := 0x1210, sub := 0x03, ty := .u8, acc := .ro, dom := 6 },
  -- security_floor
  { base := 0x1210, sub := 0x04, ty := .u16, acc := .ro, dom := 6, dflt := .n Config.otpSecurityFloor },
  -- fw_verify
  { base := 0x1210, sub := 0x05, ty := .bool, acc := .rw, dom := 6 },
  -- fw_activate
  { base := 0x1210, sub := 0x06, ty := .bool, acc := .rw, dom := 6 },
  -- fw_trial
  { base := 0x1210, sub := 0x07, ty := .bool, acc := .ro, dom := 6 },
  -- enrolled
  { base := 0x1400, sub := 0x01, ty := .bool, acc := .ro, dom := 6 },
  -- duk_state
  { base := 0x1400, sub := 0x02, ty := .u8, acc := .ro, dom := 6 },
  -- tamper_latch
  { base := 0x1400, sub := 0x03, ty := .bool, acc := .rw, dom := 6, confirm := some (0x1400, 5, 0x54414D50) },
  -- tamper_policy
  { base := 0x1400, sub := 0x04, ty := .u8, acc := .ow, dom := 6, persist := true, dflt := .n 7, enc := .mask 15 },
  -- tamper_clear_confirm
  { base := 0x1400, sub := 0x05, ty := .u32, acc := .wo, dom := 6 },
  -- security_event_count
  { base := 0x1400, sub := 0x06, ty := .u32, acc := .ro, dom := 6 },
  -- identity_public_key
  { base := 0x1401, sub := 0x01, ty := .oct, acc := .ro, dom := 6, dflt := .bytes Config.identityPublicKey, lens := .maxLen 1024 },
  -- nts_ke_key_alg
  { base := 0x1401, sub := 0x02, ty := .u8, acc := .ow, dom := 6, persist := true, rng := [(0, 2)] },
  -- nts_ke_keygen
  { base := 0x1401, sub := 0x03, ty := .bool, acc := .rw, dom := 6 },
  -- nts_ke_public_key
  { base := 0x1401, sub := 0x04, ty := .oct, acc := .ro, dom := 6, dflt := .empty, lens := .maxLen 1024 },
  -- psk_id
  { base := 0x1410, stride := 0x1, units := 32, sub := 0x01, ty := .u16, acc := .ow, dom := 6, persist := true },
  -- psk_rights
  { base := 0x1410, stride := 0x1, units := 32, sub := 0x02, ty := .u8, acc := .ow, dom := 6, persist := true, enc := .mask 3 },
  -- psk_key
  { base := 0x1410, stride := 0x1, units := 32, sub := 0x03, ty := .oct, acc := .wo, dom := 6, persist := true, dflt := .empty, lens := .fixed 32, secret := true },
  -- anchor_cert
  { base := 0x1430, stride := 0x1, units := 8, sub := 0x01, ty := .oct, acc := .ow, dom := 6, persist := true, dflt := .empty, lens := .maxLen 1024 },
  -- anchor_rights
  { base := 0x1430, stride := 0x1, units := 8, sub := 0x02, ty := .u8, acc := .ow, dom := 6, persist := true, enc := .mask 3 },
  -- owner_program_key
  { base := 0x1438, sub := 0x01, ty := .oct, acc := .ow, dom := 6, persist := true, dflt := .empty, lens := .oneOf [0, 97] },
  -- owner_program_key_id
  { base := 0x1438, sub := 0x02, ty := .u64, acc := .ow, dom := 6, persist := true },
  -- sirkor_program_key_id
  { base := 0x1438, sub := 0x03, ty := .u64, acc := .const, dom := 6, dflt := .n Config.sirkorProgramKeyId },
  -- rb_key
  { base := 0x1440, stride := 0x1, units := 32, sub := 0x01, ty := .oct, acc := .wo, dom := 6, persist := true, dflt := .empty, lens := .oneOf [32, 64], secret := true },
  -- debug_state
  { base := 0x1460, sub := 0x01, ty := .u8, acc := .ro, dom := 6 },
  -- debug_challenge
  { base := 0x1460, sub := 0x02, ty := .oct, acc := .ro, dom := 6, dflt := .empty, lens := .maxLen 1024 },
  -- debug_response
  { base := 0x1460, sub := 0x03, ty := .oct, acc := .wo, dom := 6, dflt := .empty, lens := .maxLen 1024 },
  -- owner_debug_key
  { base := 0x1461, sub := 0x01, ty := .oct, acc := .wo, dom := 6, persist := true, dflt := .empty, lens := .fixed 97, secret := true } ]
/-- All object rows of chapter 15. -/
def rows15 : List ObjRow := rows15_0
/-- Objects of chapter 16 of spec/, part 1: each line follows its row of the object tables. -/
def rows16_0 : List ObjRow := [
  -- dram_state
  { base := 0x1600, sub := 0x01, ty := .u8, acc := .ro, dom := 8 },
  -- dram_capacity
  { base := 0x1600, sub := 0x02, ty := .u32, acc := .ro, dom := 8 },
  -- dram_train_fail
  { base := 0x1600, sub := 0x03, ty := .u8, acc := .ro, dom := 8 },
  -- dram_train_time
  { base := 0x1600, sub := 0x04, ty := .u16, acc := .ro, dom := 8 },
  -- patrol_sram_period
  { base := 0x1610, sub := 0x01, ty := .u16, acc := .ow, dom := 8, persist := true, dflt := .n 10, rng := [(1, 3600)] },
  -- patrol_dram_period
  { base := 0x1610, sub := 0x02, ty := .u32, acc := .ow, dom := 8, persist := true, dflt := .n 3600, rng := [(600, 604800)] },
  -- patrol_passes
  { base := 0x1610, sub := 0x03, ty := .u32, acc := .ro, dom := 8 },
  -- tile_errors
  { base := 0x1620, ty := .array, acc := .ro, dom := 8, dflt := .n 10 },
  -- tile_errors_region
  { base := 0x1620, sub := 0x01, subs := 10, ty := .u32, acc := .rw, dom := 8, rng := [(0, 0)] },
  -- tiles_retired
  { base := 0x1621, ty := .array, acc := .ro, dom := 8, dflt := .n 10 },
  -- tiles_retired_region
  { base := 0x1621, sub := 0x01, subs := 10, ty := .u16, acc := .ro, dom := 8 },
  -- cfg_records_skipped
  { base := 0x1630, sub := 0x01, ty := .u32, acc := .ro, dom := 8 },
  -- cfg_default
  { base := 0x1630, sub := 0x02, ty := .bool, acc := .ro, dom := 8 },
  -- flash_size
  { base := 0x1630, sub := 0x03, ty := .u32, acc := .ro, dom := 8 } ]
/-- All object rows of chapter 16. -/
def rows16 : List ObjRow := rows16_0
/-- Objects of chapter 17 of spec/, part 1: each line follows its row of the object tables. -/
def rows17_0 : List ObjRow := [
  -- reset_cause
  { base := 0x1008, ty := .u16, acc := .ro, dom := 1 },
  -- reset_cause_time
  { base := 0x1009, ty := .time, acc := .ro, dom := 1 },
  -- strap_bootsel
  { base := 0x1020, sub := 0x01, ty := .u8, acc := .ro, dom := 1 },
  -- strap_oscsel
  { base := 0x1020, sub := 0x02, ty := .u8, acc := .ro, dom := 1 },
  -- strap_oscdiff
  { base := 0x1020, sub := 0x03, ty := .bool, acc := .ro, dom := 1 },
  -- boot_source_used
  { base := 0x1020, sub := 0x04, ty := .u8, acc := .ro, dom := 1 },
  -- strap_reserved
  { base := 0x1020, sub := 0x05, ty := .bool, acc := .ro, dom := 1 },
  -- trim_copy
  { base := 0x1021, sub := 0x01, ty := .u8, acc := .ro, dom := 1 },
  -- reset_request
  { base := 0x1500, sub := 0x01, ty := .u8, acc := .rw, dom := 6, enc := .upTo 2, timed := true, confirm := some (0x1500, 2, 0x52535420) },
  -- reset_confirm
  { base := 0x1500, sub := 0x02, ty := .u32, acc := .wo, dom := 6 },
  -- block_reset_target
  { base := 0x1501, sub := 0x01, ty := .u16, acc := .rw, dom := 6, rng := [(0, 0), (256, 319), (512, 515), (768, 768), (1024, 1024), (1280, 1280)] },
  -- block_force
  { base := 0x1501, sub := 0x02, ty := .bool, acc := .rw, dom := 6 },
  -- quiesce_timeout
  { base := 0x1501, sub := 0x03, ty := .u16, acc := .ow, dom := 6, persist := true, dflt := .n 10, rng := [(1, 1000)] },
  -- block_reset_state
  { base := 0x1501, sub := 0x04, ty := .u8, acc := .ro, dom := 6 },
  -- block_lost
  { base := 0x1501, sub := 0x05, ty := .u32, acc := .ro, dom := 6 },
  -- wd_timeout
  { base := 0x1510, sub := 0x01, ty := .u16, acc := .ow, dom := 6, persist := true, dflt := .n 1000, rng := [(100, 10000)] },
  -- wd_warm_count
  { base := 0x1510, sub := 0x02, ty := .u32, acc := .ro, dom := 6 },
  -- thermal_warn_limit
  { base := 0x1520, sub := 0x01, ty := .i16, acc := .ow, dom := 6, persist := true, dflt := .n 11000, rng := [(8000, 12000)] },
  -- thermal_trip_count
  { base := 0x1520, sub := 0x02, ty := .u32, acc := .ro, dom := 6 },
  -- keep_supply
  { base := 0x1530, sub := 0x01, ty := .u8, acc := .ro, dom := 1 },
  -- vkeep_voltage
  { base := 0x1530, sub := 0x02, ty := .u16, acc := .ro, dom := 1 },
  -- vkeep_low_limit
  { base := 0x1530, sub := 0x03, ty := .u16, acc := .ow, dom := 1, persist := true, dflt := .n 2200, rng := [(1800, 3300)] } ]
/-- All object rows of chapter 17. -/
def rows17 : List ObjRow := rows17_0
/-- Objects of chapter 18 of spec/, part 1: each line follows its row of the object tables. -/
def rows18_0 : List ObjRow := [
  -- xing_record
  { base := 0x1550, ty := .record, acc := .ro, dom := 1, dflt := .n 5 },
  -- xing_discard_count
  { base := 0x1550, sub := 0x01, ty := .u64, acc := .ro, dom := 1 },
  -- xing_resync_count
  { base := 0x1550, sub := 0x02, ty := .u32, acc := .ro, dom := 1 },
  -- xing_pulse_overflow
  { base := 0x1550, sub := 0x03, ty := .u8, acc := .rw, dom := 1, rng := [(0, 0)] },
  -- xing_hang_last
  { base := 0x1550, sub := 0x04, ty := .u16, acc := .ro, dom := 1, dflt := .n 65535 },
  -- xing_hang_count
  { base := 0x1550, sub := 0x05, ty := .u32, acc := .ro, dom := 1 } ]
/-- All object rows of chapter 18. -/
def rows18 : List ObjRow := rows18_0
/-- Objects of chapter 19 of spec/, part 1: each line follows its row of the object tables. -/
def rows19_0 : List ObjRow := [
  -- snap_request
  { base := 0x1700, sub := 0x01, ty := .bool, acc := .rw, dom := 6, timed := true },
  -- snap_period
  { base := 0x1700, sub := 0x02, ty := .u32, acc := .ow, dom := 6, persist := true, rng := [(0, 0), (1, 3600000)] },
  -- snap_epoch
  { base := 0x1700, sub := 0x03, ty := .u64, acc := .ro, dom := 6 },
  -- snap_raw
  { base := 0x1700, sub := 0x04, ty := .oct, acc := .ro, dom := 6, dflt := .zeros, lens := .fixed 9 },
  -- snap_time
  { base := 0x1700, sub := 0x05, ty := .time, acc := .ro, dom := 6 },
  -- sample_enable
  { base := 0x1701, sub := 0x01, ty := .u8, acc := .ow, dom := 6, persist := true },
  -- sample_interval
  { base := 0x1701, sub := 0x02, ty := .u16, acc := .ow, dom := 6, persist := true, dflt := .n 4096, rng := [(1, 65535)] },
  -- sample_latency
  { base := 0x1701, sub := 0x03, ty := .u32, acc := .ow, dom := 6, persist := true },
  -- sample_mode
  { base := 0x1701, sub := 0x04, ty := .u8, acc := .ow, dom := 6, persist := true, enc := .upTo 1 },
  -- sample_clear
  { base := 0x1701, sub := 0x05, ty := .bool, acc := .rw, dom := 6 },
  -- sample_newest_seq
  { base := 0x1702, sub := 0x01, subs := 8, ty := .u32, acc := .rx, dom := 6 },
  -- block_mode
  { base := 0x6000, stride := 0x20, units := 16, sub := 0x01, ty := .u8, acc := .ow, dom := 0, persist := true, enc := .upTo 2 },
  -- bw_port
  { base := 0x6000, stride := 0x20, units := 16, sub := 0x02, ty := .u8, acc := .ow, dom := 0, persist := true, rng := [(0, 15)] },
  -- ctr_select
  { base := 0x6001, stride := 0x20, units := 16, sub := 0x01, subs := 8, ty := .u16, acc := .ow, dom := 0, persist := true, enc := .mask 0xFFFC },
  -- snap_values
  { base := 0x6002, stride := 0x20, units := 16, ty := .array, acc := .rx, dom := 0, dflt := .n 9 },
  -- snap_cycles
  { base := 0x6002, stride := 0x20, units := 16, sub := 0x01, ty := .u64, acc := .rx, dom := 0 },
  -- snap_ctr
  { base := 0x6002, stride := 0x20, units := 16, sub := 0x02, subs := 8, ty := .u64, acc := .rx, dom := 0 },
  -- block_epoch
  { base := 0x6003, stride := 0x20, units := 16, sub := 0x01, ty := .u64, acc := .rx, dom := 0 },
  -- snap_overflow
  { base := 0x6003, stride := 0x20, units := 16, sub := 0x02, ty := .u16, acc := .rx, dom := 0 },
  -- ctr_select_active
  { base := 0x6004, stride := 0x20, units := 16, sub := 0x01, subs := 8, ty := .u16, acc := .ro, dom := 0 },
  -- bw_port_rx_rate, bw_port_tx_rate
  { base := 0x6005, stride := 0x20, units := 16, sub := 0x01, subs := 2, ty := .u64, acc := .rx, dom := 0 },
  -- bw_port_rx_util, bw_port_tx_util
  { base := 0x6005, stride := 0x20, units := 16, sub := 0x03, subs := 2, ty := .u16, acc := .rx, dom := 0 },
  -- bw_group_rx_rate, bw_group_tx_rate
  { base := 0x6005, stride := 0x20, units := 16, sub := 0x05, subs := 2, ty := .u64, acc := .rx, dom := 0 },
  -- td_retired, td_wasted, td_front, td_back_crypto, td_back_memory, td_back_egress
  { base := 0x6005, stride := 0x20, units := 16, sub := 0x07, subs := 6, ty := .u16, acc := .rx, dom := 0 },
  -- ctr_overflow
  { base := 0x6006, stride := 0x20, units := 16, sub := 0x01, ty := .u16, acc := .rw, dom := 0, rng := [(0, 0)] } ]
/-- All object rows of chapter 19. -/
def rows19 : List ObjRow := rows19_0
/-- Objects of chapter 20 of spec/, part 1: each line follows its row of the object tables. -/
def rows20_0 : List ObjRow := [
  -- id_record
  { base := 0x1000, ty := .record, acc := .ro, dom := 6, dflt := .n 7 },
  -- id_vendor
  { base := 0x1000, sub := 0x01, ty := .str, acc := .const, dom := 6, dflt := .bytes [83, 105, 114, 107, 111, 114, 32, 68, 101, 118, 105, 99, 101, 115], lens := .maxLen 1024 },
  -- id_part
  { base := 0x1000, sub := 0x02, ty := .str, acc := .const, dom := 6, dflt := .bytes [80, 86, 45, 54, 52, 50, 53, 45, 69], lens := .maxLen 1024 },
  -- id_stepping
  { base := 0x1000, sub := 0x03, ty := .u16, acc := .const, dom := 6, dflt := .n Config.stepping },
  -- id_serial
  { base := 0x1000, sub := 0x04, ty := .oct, acc := .const, dom := 6, dflt := .bytes Config.serial, lens := .fixed 8 },
  -- id_factory_mac
  { base := 0x1000, sub := 0x05, ty := .oct, acc := .const, dom := 6, dflt := .mac 0, lens := .fixed 6 },
  -- id_map_edition
  { base := 0x1000, sub := 0x06, ty := .u32, acc := .const, dom := 6, dflt := .n Config.mapEdition },
  -- id_directory_entries
  { base := 0x1000, sub := 0x07, ty := .u32, acc := .const, dom := 6, dflt := .n Config.directoryEntries },
  -- type_bool
  { base := 0x0001, ty := .u16, acc := .const, dom := 6, dflt := .n 1 },
  -- type_u8
  { base := 0x0002, ty := .u16, acc := .const, dom := 6, dflt := .n 1 },
  -- type_u16
  { base := 0x0003, ty := .u16, acc := .const, dom := 6, dflt := .n 2 },
  -- type_u32
  { base := 0x0004, ty := .u16, acc := .const, dom := 6, dflt := .n 4 },
  -- type_u64
  { base := 0x0005, ty := .u16, acc := .const, dom := 6, dflt := .n 8 },
  -- type_i8
  { base := 0x0006, ty := .u16, acc := .const, dom := 6, dflt := .n 1 },
  -- type_i16
  { base := 0x0007, ty := .u16, acc := .const, dom := 6, dflt := .n 2 },
  -- type_i32
  { base := 0x0008, ty := .u16, acc := .const, dom := 6, dflt := .n 4 },
  -- type_i64
  { base := 0x0009, ty := .u16, acc := .const, dom := 6, dflt := .n 8 },
  -- type_time112
  { base := 0x000A, ty := .u16, acc := .const, dom := 6, dflt := .n 14 },
  -- type_dur96
  { base := 0x000B, ty := .u16, acc := .const, dom := 6, dflt := .n 12 },
  -- type_ppt
  { base := 0x000C, ty := .u16, acc := .const, dom := 6, dflt := .n 8 },
  -- type_string
  { base := 0x000D, ty := .u16, acc := .const, dom := 6, dflt := .n 1024 },
  -- type_octets
  { base := 0x000E, ty := .u16, acc := .const, dom := 6, dflt := .n 1024 },
  -- type_record
  { base := 0x000F, ty := .u16, acc := .const, dom := 6, dflt := .n 1 },
  -- type_array
  { base := 0x0010, ty := .u16, acc := .const, dom := 6, dflt := .n 1 } ]
/-- All object rows of chapter 20. -/
def rows20 : List ObjRow := rows20_0

/-- The rows of one stretch of the index space (R424). -/
def rowsAt (i : Nat) : List ObjRow :=
  if i < 0x1000 then rows20
  else if i < 0x1400 then rows20 ++ rows17 ++ rows03 ++ rows02 ++ rows15 ++ rows04
  else if i < 0x1540 then rows15 ++ rows17
  else if i < 0x1600 then rows01 ++ rows18
  else if i < 0x1700 then rows16
  else if i < 0x2000 then rows19
  else if i < 0x2100 then rows04
  else if i < 0x2200 then rows06
  else if i < 0x2400 then rows05
  else if i < 0x2600 then rows07
  else if i < 0x3000 then rows05
  else if i < 0x3040 then rows08
  else if i < 0x3100 then rows09
  else if i < 0x4000 then rows08
  else if i < 0x5000 then rows10
  else if i < 0x5101 then rows11
  else if i < 0x5200 then rows12
  else if i < 0x5300 then rows11
  else if i < 0x5800 then rows13
  else if i < 0x6000 then rows14
  else rows19

/-- The key of an object: index * 256 + subindex (R36). -/
abbrev objKey (i sb : Nat) : Nat := i * 256 + sb

/-- Whether a row covers an index and subindex. -/
def ObjRow.covers (r : ObjRow) (i sb : Nat) : Bool :=
  r.base ≤ i && (i - r.base) / r.stride < r.units && (i - r.base) % r.stride < r.units2
    && r.sub ≤ sb && sb < r.sub + r.subs

/-- The row of an object, if the object exists (R36). -/
def objRow (key : Nat) : Option ObjRow :=
  (rowsAt (key / 256)).find? fun r => r.covers (key / 256) (key % 256)

/-- The unit number of an index under a row: slot, output, port and so on (R428); for the two-level port filter
entries, the entry within the row. -/
def ObjRow.unit (r : ObjRow) (i : Nat) : Nat := (i - r.base) / r.stride

/-- The six bytes of a 48-bit number, most significant first (R6). -/
def macBytes (n : Nat) : Bytes :=
  [BitVec.ofNat 8 (n / 2 ^ 40), BitVec.ofNat 8 (n / 2 ^ 32), BitVec.ofNat 8 (n / 2 ^ 24),
   BitVec.ofNat 8 (n / 2 ^ 16), BitVec.ofNat 8 (n / 2 ^ 8), BitVec.ofNat 8 n]

/-- A t_fix value lies within 1,000,000 ps of 0 (R461). -/
def tfix (x : Int) : Int := if x < -1000000 then -1000000 else if 1000000 < x then 1000000 else x

/-- The default of an object under its row (R40). -/
def ObjRow.default (r : ObjRow) (i sb : Nat) : Val :=
  match r.dflt with
  | .n v => .num v
  | .perUnit vs => .num (vs.getD (r.unit i) 0)
  | .perSub vs => .num (vs.getD (sb - r.sub) 0)
  | .mod8 => .num (((i - r.base) * 128 + (sb - 1)) % 8 : Nat)
  | .cfgRxDelay => .num (tfix (Config.rxTrimDelay (r.unit i) 4 2))
  | .cfgTxDelay => .num (tfix (Config.txTrimDelay (r.unit i) 4 2))
  | .mac k => .oct (macBytes (Config.factoryMac + k))
  | .bytes b => .oct b
  | .zeros => .oct (List.replicate (match r.lens with | .fixed n => n | .maxLen _ => 0 | .oneOf l => l.getD 0 0) 0)
  | .empty => .oct []

/-- What an object reads as while nothing is stored for it: its default; 0 for a key that names no object. -/
def objDefault (key : Nat) : Val :=
  match objRow key with
  | some r => r.default (key / 256) (key % 256)
  | none => .num 0

/-! ## Bulk windows (R431) -/

/-- One row of the bulk window table. -/
structure BulkRow where
  index : Nat
  size : Nat
  acc : Access
  dom : Nat
deriving DecidableEq, Repr

/-- The bulk windows of R431. -/
def bulkRows : List BulkRow := [
  { index := 0x8000, size := 262144, acc := .ro, dom := 6 },
  { index := 0x8300, size := 1024, acc := .ro, dom := 2 },
  { index := 0x8301, size := 196608, acc := .ro, dom := 6 },
  { index := 0x8310, size := 65536, acc := .rw, dom := 3 },
  { index := 0x8312, size := 32832, acc := .ro, dom := 3 },
  { index := 0x8314, size := 8388608, acc := .ro, dom := 3 },
  { index := 0x8316, size := 4128, acc := .ro, dom := 3 },
  { index := 0x8320, size := 18432, acc := .ro, dom := 5 },
  { index := 0x8330, size := 65536, acc := .rw, dom := 5 },
  { index := 0x8340, size := 6291456, acc := .rw, dom := 6 },
  { index := 0x8342, size := 4096, acc := .rw, dom := 6 },
  { index := 0x8344, size := 4096, acc := .rw, dom := 6 },
  { index := 0x8348, size := 1048576, acc := .rw, dom := 6 },
  { index := 0x8350, size := 32768, acc := .rx, dom := 5 },
  { index := 0x8351, size := 32768, acc := .rx, dom := 5 },
  { index := 0x8352, size := 32768, acc := .rx, dom := 5 },
  { index := 0x8353, size := 32768, acc := .rx, dom := 5 },
  { index := 0x8354, size := 32768, acc := .rx, dom := 5 },
  { index := 0x8355, size := 32768, acc := .rx, dom := 5 },
  { index := 0x8356, size := 32768, acc := .rx, dom := 5 },
  { index := 0x8357, size := 32768, acc := .rx, dom := 5 } ]

/-- The window at an index, if it is one. -/
def bulkRow (i : Nat) : Option BulkRow := bulkRows.find? fun r => r.index == i

end Sys2Proof.Machine
end

