-- ==== Sys2Proof/Machine/Keys.lean ====
section
/-! DEFINITION. The keys of the objects under the names of the object tables (R435): index * 256 + subindex; a
member of a template takes its unit number, a repeated subindex its position. -/

namespace Sys2Proof.Machine.Obj

def domain_state_count : Nat := (0x1540) * 256 + 0
def domain_state (i : Nat) : Nat := (0x1540) * 256 + 1 + i
def ssc_depth_count : Nat := (0x1541) * 256 + 0
def ssc_depth_engine : Nat := (0x1541) * 256 + 1
def ssc_depth_fabric : Nat := (0x1541) * 256 + 2
def ssc_depth_processor : Nat := (0x1541) * 256 + 3
def ssc_depth_dram : Nat := (0x1541) * 256 + 4
def ool_udp_port : Nat := (0x1100) * 256 + 0
def ool_inband_enable : Nat := (0x1101) * 256 + 0
def local_authority_enable : Nat := (0x1102) * 256 + 0
def session_open_count : Nat := (0x1103) * 256 + 0
def owner_record : Nat := (0x1104) * 256 + 0
def owner_session : Nat := (0x1104) * 256 + 1
def owner_priority : Nat := (0x1104) * 256 + 2
def owner_node_id : Nat := (0x1104) * 256 + 3
def owner_state : Nat := (0x1104) * 256 + 4
def owner_epoch : Nat := (0x1104) * 256 + 5
def generation : Nat := (0x1105) * 256 + 0
def txn_state : Nat := (0x1106) * 256 + 1
def txn_staged_count : Nat := (0x1106) * 256 + 2
def sched_pending : Nat := (0x1107) * 256 + 1
def sched_next_time : Nat := (0x1107) * 256 + 2
def sched_failed_count : Nat := (0x1107) * 256 + 3
def ool_auth_fail : Nat := (0x1108) * 256 + 1
def ool_replay : Nat := (0x1108) * 256 + 2
def ool_malformed : Nat := (0x1108) * 256 + 3
def ool_setup_dropped : Nat := (0x1108) * 256 + 4
def ool_session_drop : Nat := (0x1108) * 256 + 5
def session_idle_timeout : Nat := (0x1109) * 256 + 0
def persist_state : Nat := (0x1200) * 256 + 1
def active_bank : Nat := (0x1200) * 256 + 2
def persist_generation : Nat := (0x1200) * 256 + 3
def persist_fail : Nat := (0x1200) * 256 + 4
def mode_record : Nat := (0x1010) * 256 + 0
def mode : Nat := (0x1010) * 256 + 1
def timing_condition : Nat := (0x1010) * 256 + 2
def mode_entry_time : Nat := (0x1010) * 256 + 3
def mode_change_count : Nat := (0x1010) * 256 + 4
def seed_source : Nat := (0x1010) * 256 + 5
def time_uncertainty : Nat := (0x1010) * 256 + 6
def mode_control : Nat := (0x1011) * 256 + 0
def sparge_request : Nat := (0x1011) * 256 + 1
def sparge_timeout : Nat := (0x1011) * 256 + 2
def kiln_request : Nat := (0x1011) * 256 + 3
def kiln_confirm : Nat := (0x1011) * 256 + 4
def cellar_request : Nat := (0x1011) * 256 + 5
def cellar_confirm : Nat := (0x1011) * 256 + 6
def mode_policy : Nat := (0x1012) * 256 + 0
def mash_timeout : Nat := (0x1012) * 256 + 1
def steep_hold : Nat := (0x1012) * 256 + 2
def serve_in_flat : Nat := (0x1012) * 256 + 3
def seed_limit : Nat := (0x1012) * 256 + 4
def keep_drift_bound : Nat := (0x1012) * 256 + 5
def cellar_record : Nat := (0x1013) * 256 + 0
def cellar_wake_time : Nat := (0x1013) * 256 + 1
def cellar_verify_interval : Nat := (0x1013) * 256 + 2
def cellar_verify_count : Nat := (0x1013) * 256 + 3
def cellar_verify_disagree : Nat := (0x1013) * 256 + 4
def journal_record : Nat := (0x1300) * 256 + 0
def journal_count : Nat := (0x1300) * 256 + 1
def journal_newest_seq : Nat := (0x1300) * 256 + 2
def journal_overflow : Nat := (0x1300) * 256 + 3
def journal_reorder_delay : Nat := (0x1300) * 256 + 4
def timebase_status : Nat := (0x2000) * 256 + 0
def tb_state : Nat := (0x2000) * 256 + 1
def time_now : Nat := (0x2000) * 256 + 2
def raw_now : Nat := (0x2000) * 256 + 3
def seg_sequence : Nat := (0x2000) * 256 + 4
def seg_rate : Nat := (0x2000) * 256 + 5
def rate_correction : Nat := (0x2000) * 256 + 6
def pending_phase : Nat := (0x2000) * 256 + 7
def step_count : Nat := (0x2000) * 256 + 8
def timebase_policy : Nat := (0x2001) * 256 + 0
def step_first_enable : Nat := (0x2001) * 256 + 1
def step_threshold : Nat := (0x2001) * 256 + 2
def rate_limit : Nat := (0x2001) * 256 + 3
def slope_limit : Nat := (0x2001) * 256 + 4
def timebase_step : Nat := (0x2002) * 256 + 0
def step_amount : Nat := (0x2002) * 256 + 1
def step_confirm : Nat := (0x2002) * 256 + 2
def utc_record : Nat := (0x2003) * 256 + 0
def utc_offset : Nat := (0x2003) * 256 + 1
def leap_time : Nat := (0x2003) * 256 + 2
def leap_delta : Nat := (0x2003) * 256 + 3
def leap_source_lock : Nat := (0x2003) * 256 + 4
def leap_warning : Nat := (0x2003) * 256 + 5
def t_manual_slot : Nat := (0x2200) * 256 + 1
def f_manual_slot : Nat := (0x2200) * 256 + 2
def revertive : Nat := (0x2200) * 256 + 3
def transition_time : Nat := (0x2200) * 256 + 4
def dispute_limit : Nat := (0x2200) * 256 + 5
def dispute_window : Nat := (0x2200) * 256 + 6
def quality_hold : Nat := (0x2200) * 256 + 7
def min_quality : Nat := (0x2200) * 256 + 8
def t_active_slot : Nat := (0x2201) * 256 + 1
def f_active_slot : Nat := (0x2201) * 256 + 2
def transition_state : Nat := (0x2201) * 256 + 3
def transition_remaining : Nat := (0x2201) * 256 + 4
def buildout : Nat := (0x2201) * 256 + 5
def switch_count : Nat := (0x2201) * 256 + 6
def slot_enable (u : Nat) : Nat := (0x2300 + 0x10 * u) * 256 + 1
def source_kind (u : Nat) : Nat := (0x2300 + 0x10 * u) * 256 + 2
def source_number (u : Nat) : Nat := (0x2300 + 0x10 * u) * 256 + 3
def priority (u : Nat) : Nat := (0x2300 + 0x10 * u) * 256 + 4
def quality_override (u : Nat) : Nat := (0x2300 + 0x10 * u) * 256 + 5
def freq_limit (u : Nat) : Nat := (0x2300 + 0x10 * u) * 256 + 6
def phase_limit (u : Nat) : Nat := (0x2300 + 0x10 * u) * 256 + 7
def qualify_time (u : Nat) : Nat := (0x2300 + 0x10 * u) * 256 + 8
def wtr_time (u : Nat) : Nat := (0x2300 + 0x10 * u) * 256 + 9
def slot_delay (u : Nat) : Nat := (0x2300 + 0x10 * u) * 256 + 10
def interval_tolerance (u : Nat) : Nat := (0x2300 + 0x10 * u) * 256 + 11
def missing_limit (u : Nat) : Nat := (0x2300 + 0x10 * u) * 256 + 12
def esmc_mode (u : Nat) : Nat := (0x2300 + 0x10 * u) * 256 + 13
def operator_validity (u : Nat) : Nat := (0x2300 + 0x10 * u) * 256 + 14
def slot_state (u : Nat) : Nat := (0x2301 + 0x10 * u) * 256 + 1
def slot_class (u : Nat) : Nat := (0x2301 + 0x10 * u) * 256 + 2
def slot_flags (u : Nat) : Nat := (0x2301 + 0x10 * u) * 256 + 3
def quality_received (u : Nat) : Nat := (0x2301 + 0x10 * u) * 256 + 4
def quality_effective (u : Nat) : Nat := (0x2301 + 0x10 * u) * 256 + 5
def fail_cause (u : Nat) : Nat := (0x2301 + 0x10 * u) * 256 + 6
def timer_remaining (u : Nat) : Nat := (0x2301 + 0x10 * u) * 256 + 7
def freq_offset (u : Nat) : Nat := (0x2301 + 0x10 * u) * 256 + 8
def phase_offset (u : Nat) : Nat := (0x2301 + 0x10 * u) * 256 + 9
def operator_time (u : Nat) : Nat := (0x2302 + 0x10 * u) * 256 + 1
def fail_count (u : Nat) : Nat := (0x2303 + 0x10 * u) * 256 + 1
def missing_count (u : Nat) : Nat := (0x2303 + 0x10 * u) * 256 + 2
def refin_mode (u : Nat) : Nat := (0x2600 + 0x10 * u) * 256 + 1
def refin_termination (u : Nat) : Nat := (0x2600 + 0x10 * u) * 256 + 2
def refin_edge (u : Nat) : Nat := (0x2600 + 0x10 * u) * 256 + 3
def refin_frequency (u : Nat) : Nat := (0x2600 + 0x10 * u) * 256 + 4
def refin_last_stamp (u : Nat) : Nat := (0x2600 + 0x10 * u) * 256 + 5
def todin_baud (u : Nat) : Nat := (0x2680 + 0x10 * u) * 256 + 1
def nmea_label (u : Nat) : Nat := (0x2680 + 0x10 * u) * 256 + 2
def todin_accepted (u : Nat) : Nat := (0x2680 + 0x10 * u) * 256 + 3
def todin_discards (u : Nat) : Nat := (0x2680 + 0x10 * u) * 256 + 4
def osc_nominal : Nat := (0x2100) * 256 + 1
def osc_differential : Nat := (0x2100) * 256 + 2
def osc_freq_spec : Nat := (0x2100) * 256 + 3
def osc_aging_spec : Nat := (0x2100) * 256 + 4
def osc_tempco_spec : Nat := (0x2100) * 256 + 5
def osc_retrace : Nat := (0x2100) * 256 + 6
def osc_monitor_limit : Nat := (0x2100) * 256 + 7
def osc_monitor_offset : Nat := (0x2100) * 256 + 8
def die_temperature : Nat := (0x2100) * 256 + 9
def osc_alarm : Nat := (0x2100) * 256 + 10
def efc_enable : Nat := (0x2101) * 256 + 1
def efc_bits : Nat := (0x2101) * 256 + 2
def efc_frame_bits : Nat := (0x2101) * 256 + 3
def efc_gain : Nat := (0x2101) * 256 + 4
def efc_initial : Nat := (0x2101) * 256 + 5
def efc_deadband : Nat := (0x2101) * 256 + 6
def efc_settle : Nat := (0x2101) * 256 + 7
def efc_code : Nat := (0x2101) * 256 + 8
def efc_update_count : Nat := (0x2101) * 256 + 9
def steering : Nat := (0x2104) * 256 + 1
def steering_applied : Nat := (0x2104) * 256 + 2
def model_state : Nat := (0x2105) * 256 + 1
def model_freq : Nat := (0x2105) * 256 + 2
def model_aging : Nat := (0x2105) * 256 + 3
def model_tempco : Nat := (0x2105) * 256 + 4
def model_temp_ref : Nat := (0x2105) * 256 + 5
def model_freq_unc : Nat := (0x2105) * 256 + 6
def model_aging_unc : Nat := (0x2105) * 256 + 7
def model_tempco_unc : Nat := (0x2105) * 256 + 8
def model_learn_time : Nat := (0x2105) * 256 + 9
def model_window : Nat := (0x2105) * 256 + 10
def model_min_learn : Nat := (0x2105) * 256 + 11
def model_restore_limit : Nat := (0x2105) * 256 + 12
def model_reset : Nat := (0x2105) * 256 + 13
def temp_tau : Nat := (0x2105) * 256 + 14
def holdover_budget : Nat := (0x2106) * 256 + 1
def ref_uncertainty : Nat := (0x2106) * 256 + 2
def assist_enable : Nat := (0x2106) * 256 + 3
def assist_max_quality : Nat := (0x2106) * 256 + 4
def assist_freq_unc : Nat := (0x2106) * 256 + 5
def assist_wander : Nat := (0x2106) * 256 + 6
def holdover_bound : Nat := (0x2107) * 256 + 1
def holdover_remaining : Nat := (0x2107) * 256 + 2
def out_of_spec : Nat := (0x2107) * 256 + 3
def holdover_elapsed : Nat := (0x2107) * 256 + 4
def holdover_temp_dev : Nat := (0x2107) * 256 + 5
def assist_active : Nat := (0x2107) * 256 + 6
def holdover_count : Nat := (0x2107) * 256 + 7
def bw_acquire (u : Nat) : Nat := (0x2110 + 0x10 * u) * 256 + 1
def bw_track (u : Nat) : Nat := (0x2110 + 0x10 * u) * 256 + 2
def damping (u : Nat) : Nat := (0x2110 + 0x10 * u) * 256 + 3
def phase_slope_limit (u : Nat) : Nat := (0x2110 + 0x10 * u) * 256 + 4
def lock_phase_limit (u : Nat) : Nat := (0x2110 + 0x10 * u) * 256 + 5
def lock_freq_limit (u : Nat) : Nat := (0x2110 + 0x10 * u) * 256 + 6
def lock_hold (u : Nat) : Nat := (0x2110 + 0x10 * u) * 256 + 7
def step_mode (u : Nat) : Nat := (0x2110 + 0x10 * u) * 256 + 8
def holdover_average (u : Nat) : Nat := (0x2110 + 0x10 * u) * 256 + 9
def dpll_state (u : Nat) : Nat := (0x2111 + 0x10 * u) * 256 + 1
def bw_in_use (u : Nat) : Nat := (0x2111 + 0x10 * u) * 256 + 2
def phase_error (u : Nat) : Nat := (0x2111 + 0x10 * u) * 256 + 3
def freq_estimate (u : Nat) : Nat := (0x2111 + 0x10 * u) * 256 + 4
def lock_count (u : Nat) : Nat := (0x2111 + 0x10 * u) * 256 + 5
def bw_clamped (u : Nat) : Nat := (0x2111 + 0x10 * u) * 256 + 6
def out_function (u : Nat) : Nat := (0x2400 + 0x10 * u) * 256 + 1
def out_loop (u : Nat) : Nat := (0x2400 + 0x10 * u) * 256 + 2
def out_period (u : Nat) : Nat := (0x2400 + 0x10 * u) * 256 + 3
def out_width (u : Nat) : Nat := (0x2400 + 0x10 * u) * 256 + 4
def out_frequency (u : Nat) : Nat := (0x2400 + 0x10 * u) * 256 + 5
def output_offset (u : Nat) : Nat := (0x2400 + 0x10 * u) * 256 + 6
def out_polarity (u : Nat) : Nat := (0x2400 + 0x10 * u) * 256 + 7
def out_slew (u : Nat) : Nat := (0x2400 + 0x10 * u) * 256 + 8
def out_squelch (u : Nat) : Nat := (0x2400 + 0x10 * u) * 256 + 9
def dout_level (u : Nat) : Nat := (0x2400 + 0x10 * u) * 256 + 10
def out_phase_slope (u : Nat) : Nat := (0x2400 + 0x10 * u) * 256 + 11
def out_state (u : Nat) : Nat := (0x2401 + 0x10 * u) * 256 + 1
def pad_delay (u : Nat) : Nat := (0x2401 + 0x10 * u) * 256 + 2
def align_correction (u : Nat) : Nat := (0x2401 + 0x10 * u) * 256 + 3
def last_edge (u : Nat) : Nat := (0x2401 + 0x10 * u) * 256 + 4
def skipped_count (u : Nat) : Nat := (0x2401 + 0x10 * u) * 256 + 5
def jump_count (u : Nat) : Nat := (0x2401 + 0x10 * u) * 256 + 6
def word_rate (u : Nat) : Nat := (0x2402 + 0x10 * u) * 256 + 1
def frame_rate (u : Nat) : Nat := (0x2402 + 0x10 * u) * 256 + 2
def frame_divider (u : Nat) : Nat := (0x2402 + 0x10 * u) * 256 + 3
def tc_scale (u : Nat) : Nat := (0x2402 + 0x10 * u) * 256 + 4
def tc_local_offset (u : Nat) : Nat := (0x2402 + 0x10 * u) * 256 + 5
def ltc_rate (u : Nat) : Nat := (0x2402 + 0x10 * u) * 256 + 6
def ltc_user_bits (u : Nat) : Nat := (0x2402 + 0x10 * u) * 256 + 7
def irig_format (u : Nat) : Nat := (0x2402 + 0x10 * u) * 256 + 8
def irig_cf (u : Nat) : Nat := (0x2402 + 0x10 * u) * 256 + 9
def start_time (u : Nat) : Nat := (0x2402 + 0x10 * u) * 256 + 10
def start_count (u : Nat) : Nat := (0x2402 + 0x10 * u) * 256 + 11
def align_source (u : Nat) : Nat := (0x2403 + 0x10 * u) * 256 + 1
def align_mode (u : Nat) : Nat := (0x2403 + 0x10 * u) * 256 + 2
def align_offset (u : Nat) : Nat := (0x2403 + 0x10 * u) * 256 + 3
def align_count (u : Nat) : Nat := (0x2403 + 0x10 * u) * 256 + 4
def align_trigger (u : Nat) : Nat := (0x2403 + 0x10 * u) * 256 + 5
def align_status (u : Nat) : Nat := (0x2403 + 0x10 * u) * 256 + 6
def bank_a_voltage : Nat := (0x2540) * 256 + 1
def bank_b_voltage : Nat := (0x2540) * 256 + 2
def todout_output (u : Nat) : Nat := (0x2550 + 0x8 * u) * 256 + 1
def todout_format (u : Nat) : Nat := (0x2550 + 0x8 * u) * 256 + 2
def todout_baud (u : Nat) : Nat := (0x2550 + 0x8 * u) * 256 + 3
def todout_delay (u : Nat) : Nat := (0x2550 + 0x8 * u) * 256 + 4
def todout_sent (u : Nat) : Nat := (0x2550 + 0x8 * u) * 256 + 5
def cap_enable (u : Nat) : Nat := (0x2580 + 0x8 * u) * 256 + 1
def cap_input (u : Nat) : Nat := (0x2580 + 0x8 * u) * 256 + 2
def cap_edge (u : Nat) : Nat := (0x2580 + 0x8 * u) * 256 + 3
def cap_filter (u : Nat) : Nat := (0x2580 + 0x8 * u) * 256 + 4
def cap_delay (u : Nat) : Nat := (0x2580 + 0x8 * u) * 256 + 5
def cap_fifo_mode (u : Nat) : Nat := (0x2580 + 0x8 * u) * 256 + 6
def cap_journal (u : Nat) : Nat := (0x2580 + 0x8 * u) * 256 + 7
def cap_count (u : Nat) : Nat := (0x2581 + 0x8 * u) * 256 + 1
def cap_overflow (u : Nat) : Nat := (0x2581 + 0x8 * u) * 256 + 2
def cap_lost (u : Nat) : Nat := (0x2581 + 0x8 * u) * 256 + 3
def cap_ack_seq (u : Nat) : Nat := (0x2581 + 0x8 * u) * 256 + 4
def cap_newest_seq (u : Nat) : Nat := (0x2581 + 0x8 * u) * 256 + 5
def cap_glitch (u : Nat) : Nat := (0x2581 + 0x8 * u) * 256 + 6
def cap_entries (u : Nat) : Nat := (0x2582 + 0x8 * u) * 256 + 0
def cap_entry (u i : Nat) : Nat := (0x2582 + 0x8 * u) * 256 + 1 + i
def sky_systems : Nat := (0x3000) * 256 + 1
def l1_signal : Nat := (0x3000) * 256 + 2
def acq_elevation_mask : Nat := (0x3000) * 256 + 3
def use_unhealthy : Nat := (0x3000) * 256 + 4
def obs_interval : Nat := (0x3000) * 256 + 5
def acq_osc_uncertainty : Nat := (0x3000) * 256 + 6
def aid_position_x : Nat := (0x3000) * 256 + 7
def aid_position_y : Nat := (0x3000) * 256 + 8
def aid_position_z : Nat := (0x3000) * 256 + 9
def aid_position_unc : Nat := (0x3000) * 256 + 10
def dll_bw : Nat := (0x3001) * 256 + 1
def pll_bw : Nat := (0x3001) * 256 + 2
def fll_bw : Nat := (0x3001) * 256 + 3
def el_spacing_bpsk1 : Nat := (0x3001) * 256 + 4
def el_spacing_bpsk10 : Nat := (0x3001) * 256 + 5
def el_spacing_boc : Nat := (0x3001) * 256 + 6
def vel_spacing : Nat := (0x3001) * 256 + 7
def monitor_offset : Nat := (0x3001) * 256 + 8
def coh_max : Nat := (0x3001) * 256 + 9
def reacq_time : Nat := (0x3001) * 256 + 11
def loss_time : Nat := (0x3001) * 256 + 12
def sat_exclude : Nat := (0x3002) * 256 + 0
def sat_exclude_id (i : Nat) : Nat := (0x3002) * 256 + 1 + i
def fespi_clock : Nat := (0x3020) * 256 + 1
def fespi_mode : Nat := (0x3020) * 256 + 2
def fespi_script (u : Nat) : Nat := (0x3021 + u) * 256 + 1
def fespi_status (u : Nat) : Nat := (0x3021 + u) * 256 + 2
def ant_supply_enable : Nat := (0x3028) * 256 + 1
def ant_retry : Nat := (0x3028) * 256 + 2
def ant_state : Nat := (0x3028) * 256 + 3
def ant_short_count : Nat := (0x3028) * 256 + 4
def band_enable (u : Nat) : Nat := (0x3010 + 0x8 * u) * 256 + 1
def sample_format (u : Nat) : Nat := (0x3010 + 0x8 * u) * 256 + 2
def sample_bits (u : Nat) : Nat := (0x3010 + 0x8 * u) * 256 + 3
def iq_swap (u : Nat) : Nat := (0x3010 + 0x8 * u) * 256 + 4
def fe_if_offset (u : Nat) : Nat := (0x3010 + 0x8 * u) * 256 + 5
def band_state (u : Nat) : Nat := (0x3010 + 0x8 * u) * 256 + 6
def band_power (u : Nat) : Nat := (0x3010 + 0x8 * u) * 256 + 7
def band_clip (u : Nat) : Nat := (0x3010 + 0x8 * u) * 256 + 8
def notch_enable (u : Nat) : Nat := (0x3011 + 0x8 * u) * 256 + 1
def notch_threshold (u : Nat) : Nat := (0x3011 + 0x8 * u) * 256 + 2
def notch_width (u : Nat) : Nat := (0x3011 + 0x8 * u) * 256 + 3
def notch_freq (u i : Nat) : Nat := (0x3012 + 0x8 * u) * 256 + 1 + i
def notch_level (u i : Nat) : Nat := (0x3012 + 0x8 * u) * 256 + 5 + i
def acq_start_class : Nat := (0x3030) * 256 + 1
def ttff : Nat := (0x3030) * 256 + 2
def channels_ready : Nat := (0x3030) * 256 + 3
def channels_tracking : Nat := (0x3030) * 256 + 4
def orbit_records : Nat := (0x3030) * 256 + 5
def nav_page_errors : Nat := (0x3030) * 256 + 6
def channel_count : Nat := (0x3030) * 256 + 7
def channel_status (k : Nat) : Nat := (0x3100 + k / 128) * 256 + 1 + k % 128
def cable_delay : Nat := (0x3040) * 256 + 1
def ant_delay_0 : Nat := (0x3040) * 256 + 2
def ant_delay_1 : Nat := (0x3040) * 256 + 3
def fe_delay_0 : Nat := (0x3040) * 256 + 4
def fe_delay_1 : Nat := (0x3040) * 256 + 5
def sig_bias_count : Nat := (0x3041) * 256 + 0
def sig_bias (i : Nat) : Nat := (0x3041) * 256 + 1 + i
def position_mode : Nat := (0x3042) * 256 + 1
def fixed_position (i : Nat) : Nat := (0x3042) * 256 + 2 + i
def sol_elevation_mask : Nat := (0x3042) * 256 + 5
def sol_min_dual : Nat := (0x3042) * 256 + 6
def sol_smoothing : Nat := (0x3042) * 256 + 7
def sky_ref_system : Nat := (0x3042) * 256 + 8
def isb_mode : Nat := (0x3042) * 256 + 9
def sky_time_scale : Nat := (0x3042) * 256 + 10
def survey_min_time : Nat := (0x3043) * 256 + 1
def survey_max_time : Nat := (0x3043) * 256 + 2
def survey_accuracy : Nat := (0x3043) * 256 + 3
def survey_restart : Nat := (0x3043) * 256 + 4
def move_limit : Nat := (0x3043) * 256 + 5
def pos_auto_resurvey : Nat := (0x3043) * 256 + 6
def fde_pfa : Nat := (0x3044) * 256 + 1
def fde_max_exclude : Nat := (0x3044) * 256 + 2
def exclusion_hold : Nat := (0x3044) * 256 + 3
def jam_margin : Nat := (0x3044) * 256 + 4
def cn0_spread_limit : Nat := (0x3044) * 256 + 5
def clock_jump_limit : Nat := (0x3044) * 256 + 6
def xcheck_slot : Nat := (0x3044) * 256 + 7
def xcheck_limit : Nat := (0x3044) * 256 + 8
def xcheck_time : Nat := (0x3044) * 256 + 9
def alarm_hold : Nat := (0x3044) * 256 + 10
def sky_state : Nat := (0x3045) * 256 + 1
def sky_time_error : Nat := (0x3045) * 256 + 2
def sky_time_sigma : Nat := (0x3045) * 256 + 3
def sats_used : Nat := (0x3045) * 256 + 4
def sats_excluded : Nat := (0x3045) * 256 + 5
def redundancy : Nat := (0x3045) * 256 + 6
def sol_mode : Nat := (0x3045) * 256 + 7
def position_state : Nat := (0x3045) * 256 + 8
def held_position (i : Nat) : Nat := (0x3045) * 256 + 9 + i
def survey_elapsed : Nat := (0x3045) * 256 + 12
def survey_uncertainty : Nat := (0x3045) * 256 + 13
def sky_alarms : Nat := (0x3045) * 256 + 14
def grist_request : Nat := (0x3048) * 256 + 1
def grist_length : Nat := (0x3048) * 256 + 2
def grist_hold : Nat := (0x3048) * 256 + 3
def grist_state : Nat := (0x3048) * 256 + 4
def grist_fix_time_error : Nat := (0x3048) * 256 + 5
def grist_fix_uncertainty : Nat := (0x3048) * 256 + 6
def grist_fix_status : Nat := (0x3048) * 256 + 7
def coarse_fix_margin : Nat := (0x3048) * 256 + 8
def grist_sequence : Nat := (0x3048) * 256 + 9
def grist_start_time : Nat := (0x3048) * 256 + 10
def dep_depth : Nat := (0x4000) * 256 + 0
def port_enable (u : Nat) : Nat := (0x4000 + 0x40 * u) * 256 + 1
def port_speed (u : Nat) : Nat := (0x4000 + 0x40 * u) * 256 + 2
def port_fec (u : Nat) : Nat := (0x4000 + 0x40 * u) * 256 + 3
def an_enable (u : Nat) : Nat := (0x4000 + 0x40 * u) * 256 + 4
def an_abilities (u : Nat) : Nat := (0x4000 + 0x40 * u) * 256 + 5
def max_frame (u : Nat) : Nat := (0x4000 + 0x40 * u) * 256 + 6
def vlan_tpid (u : Nat) : Nat := (0x4000 + 0x40 * u) * 256 + 7
def promiscuous (u : Nat) : Nat := (0x4000 + 0x40 * u) * 256 + 8
def promisc_ring (u : Nat) : Nat := (0x4000 + 0x40 * u) * 256 + 9
def rx_ext_delay (u : Nat) : Nat := (0x4000 + 0x40 * u) * 256 + 10
def tx_ext_delay (u : Nat) : Nat := (0x4000 + 0x40 * u) * 256 + 11
def los_action (u : Nat) : Nat := (0x4000 + 0x40 * u) * 256 + 12
def module_disable (u : Nat) : Nat := (0x4000 + 0x40 * u) * 256 + 13
def link_state (u : Nat) : Nat := (0x4001 + 0x40 * u) * 256 + 1
def speed_resolved (u : Nat) : Nat := (0x4001 + 0x40 * u) * 256 + 2
def fec_resolved (u : Nat) : Nat := (0x4001 + 0x40 * u) * 256 + 3
def link_up_time (u : Nat) : Nat := (0x4001 + 0x40 * u) * 256 + 4
def module_flags (u : Nat) : Nat := (0x4001 + 0x40 * u) * 256 + 5
def speed_change_state (u : Nat) : Nat := (0x4001 + 0x40 * u) * 256 + 6
def link_change_count (u : Nat) : Nat := (0x4001 + 0x40 * u) * 256 + 7
def rx_sentinel_state (u : Nat) : Nat := (0x4002 + 0x40 * u) * 256 + 1
def tx_sentinel_state (u : Nat) : Nat := (0x4002 + 0x40 * u) * 256 + 2
def sref_offset (u : Nat) : Nat := (0x4002 + 0x40 * u) * 256 + 3
def rx_fixed_delay (u : Nat) : Nat := (0x4002 + 0x40 * u) * 256 + 4
def tx_fixed_delay (u : Nat) : Nat := (0x4002 + 0x40 * u) * 256 + 5
def fit_residual (u : Nat) : Nat := (0x4002 + 0x40 * u) * 256 + 6
def relock_count (u : Nat) : Nat := (0x4002 + 0x40 * u) * 256 + 7
def tx_mispredict (u : Nat) : Nat := (0x4002 + 0x40 * u) * 256 + 8
def tx_mispredict_max (u : Nat) : Nat := (0x4002 + 0x40 * u) * 256 + 9
def cal_partner (u : Nat) : Nat := (0x4003 + 0x40 * u) * 256 + 1
def cal_interval (u : Nat) : Nat := (0x4003 + 0x40 * u) * 256 + 2
def cal_window (u : Nat) : Nat := (0x4003 + 0x40 * u) * 256 + 3
def cal_apply (u : Nat) : Nat := (0x4003 + 0x40 * u) * 256 + 4
def cal_limit (u : Nat) : Nat := (0x4003 + 0x40 * u) * 256 + 5
def cal_state (u : Nat) : Nat := (0x4003 + 0x40 * u) * 256 + 6
def cal_offset (u : Nat) : Nat := (0x4003 + 0x40 * u) * 256 + 7
def cal_delay (u : Nat) : Nat := (0x4003 + 0x40 * u) * 256 + 8
def cal_correction (u : Nat) : Nat := (0x4003 + 0x40 * u) * 256 + 9
def cal_lost (u : Nat) : Nat := (0x4003 + 0x40 * u) * 256 + 10
def gov_enable (u : Nat) : Nat := (0x4004 + 0x40 * u) * 256 + 1
def gov_receiver_allow (u : Nat) : Nat := (0x4004 + 0x40 * u) * 256 + 2
def gov_lpi (u : Nat) : Nat := (0x4004 + 0x40 * u) * 256 + 3
def gov_window (u : Nat) : Nat := (0x4004 + 0x40 * u) * 256 + 4
def gov_down (u : Nat) : Nat := (0x4004 + 0x40 * u) * 256 + 5
def gov_up (u : Nat) : Nat := (0x4004 + 0x40 * u) * 256 + 6
def gov_dwell (u : Nat) : Nat := (0x4004 + 0x40 * u) * 256 + 7
def gov_lpi_idle (u : Nat) : Nat := (0x4004 + 0x40 * u) * 256 + 8
def gov_changes (u : Nat) : Nat := (0x4004 + 0x40 * u) * 256 + 9
def lpi_time (u : Nat) : Nat := (0x4004 + 0x40 * u) * 256 + 10
def esmc_tx_enable (u : Nat) : Nat := (0x4005 + 0x40 * u) * 256 + 1
def esmc_tx_option (u : Nat) : Nat := (0x4005 + 0x40 * u) * 256 + 2
def esmc_tx_code (u : Nat) : Nat := (0x4005 + 0x40 * u) * 256 + 3
def rx_frames (u : Nat) : Nat := (0x4006 + 0x40 * u) * 256 + 1
def rx_bytes (u : Nat) : Nat := (0x4006 + 0x40 * u) * 256 + 2
def rx_fcs_errors (u : Nat) : Nat := (0x4006 + 0x40 * u) * 256 + 3
def rx_size_errors (u : Nat) : Nat := (0x4006 + 0x40 * u) * 256 + 4
def rx_filtered (u : Nat) : Nat := (0x4006 + 0x40 * u) * 256 + 5
def rx_control_discard (u : Nat) : Nat := (0x4006 + 0x40 * u) * 256 + 6
def tx_frames (u : Nat) : Nat := (0x4006 + 0x40 * u) * 256 + 7
def tx_bytes (u : Nat) : Nat := (0x4006 + 0x40 * u) * 256 + 8
def ts_uncal_drop (u : Nat) : Nat := (0x4006 + 0x40 * u) * 256 + 9
def tx_csum_skip (u : Nat) : Nat := (0x4006 + 0x40 * u) * 256 + 10
def tx_aborted (u : Nat) : Nat := (0x4006 + 0x40 * u) * 256 + 11
def fec_corrected (u : Nat) : Nat := (0x4006 + 0x40 * u) * 256 + 12
def fec_uncorrected (u : Nat) : Nat := (0x4006 + 0x40 * u) * 256 + 13
def pm_enable (u e : Nat) : Nat := (0x4010 + 0x40 * u + e) * 256 + 1
def pm_mac (u e : Nat) : Nat := (0x4010 + 0x40 * u + e) * 256 + 2
def pm_vlan_mode (u e : Nat) : Nat := (0x4010 + 0x40 * u + e) * 256 + 3
def pm_vid (u e : Nat) : Nat := (0x4010 + 0x40 * u + e) * 256 + 4
def inband_mac : Nat := (0x4030) * 256 + 1
def inband_vlan_mode : Nat := (0x4030) * 256 + 2
def inband_vid : Nat := (0x4030) * 256 + 3
def mgmt_enable : Nat := (0x4031) * 256 + 1
def mgmt_mac : Nat := (0x4031) * 256 + 2
def mgmt_phy_addr : Nat := (0x4031) * 256 + 3
def rgmii_tx_delay : Nat := (0x4031) * 256 + 4
def rgmii_rx_delay : Nat := (0x4031) * 256 + 5
def mgmt_link : Nat := (0x4031) * 256 + 6
def mgmt_rx_frames : Nat := (0x4031) * 256 + 7
def mgmt_rx_dropped : Nat := (0x4031) * 256 + 8
def sb_enable : Nat := (0x4032) * 256 + 1
def sb_clock : Nat := (0x4032) * 256 + 2
def sb_period : Nat := (0x4032) * 256 + 3
def sb_invert : Nat := (0x4032) * 256 + 4
def sb_scan_count : Nat := (0x4032) * 256 + 5
def sref_ql_mode (i : Nat) : Nat := (0x4033) * 256 + 1 + i
def sref_ql_fixed (i : Nat) : Nat := (0x4033) * 256 + 5 + i
def serve_state : Nat := (0x5000) * 256 + 1
def quiet_pin : Nat := (0x5000) * 256 + 2
def serve_quiet : Nat := (0x5000) * 256 + 3
def quiet_drop : Nat := (0x5000) * 256 + 4
def unclassified : Nat := (0x5000) * 256 + 5
def consolidate_enable : Nat := (0x5000) * 256 + 6
def consolidate_target : Nat := (0x5000) * 256 + 7
def gate_delay : Nat := (0x5000) * 256 + 8
def active_pairs : Nat := (0x5000) * 256 + 9
def queue_age_limit : Nat := (0x5000) * 256 + 10
def instr_limit : Nat := (0x5000) * 256 + 12
def class_limit (i : Nat) : Nat := (0x5001) * 256 + 1 + i
def class_weight_1 : Nat := (0x5001) * 256 + 4
def class_weight_2 : Nat := (0x5001) * 256 + 5
def bucket_map (k : Nat) : Nat := (0x5080 + k / 128) * 256 + 1 + k % 128
def ring_fill (k : Nat) : Nat := (0x5090 + k / 128) * 256 + 1 + k % 128
def ring_drop (k : Nat) : Nat := (0x5092 + k / 128) * 256 + 1 + k % 128
def tap_ring : Nat := (0x5094) * 256 + 1
def aes_lanes_active : Nat := (0x50A0) * 256 + 1
def aes_blocks : Nat := (0x50A0) * 256 + 2
def aes_auth_fail : Nat := (0x50A0) * 256 + 3
def engine_state (u : Nat) : Nat := (0x5010 + 0x8 * u) * 256 + 1
def frames_taken (u : Nat) : Nat := (0x5010 + 0x8 * u) * 256 + 2
def drop_class0 (u : Nat) : Nat := (0x5010 + 0x8 * u) * 256 + 3
def drop_class1 (u : Nat) : Nat := (0x5010 + 0x8 * u) * 256 + 4
def drop_class2 (u : Nat) : Nat := (0x5010 + 0x8 * u) * 256 + 5
def drop_stale (u : Nat) : Nat := (0x5010 + 0x8 * u) * 256 + 6
def engine_faults (u : Nat) : Nat := (0x5010 + 0x8 * u) * 256 + 7
def wake_count (u : Nat) : Nat := (0x5010 + 0x8 * u) * 256 + 8
def rule_enable (u : Nat) : Nat := (0x5060 + u) * 256 + 1
def match_ethertype (u : Nat) : Nat := (0x5060 + u) * 256 + 2
def match_ip_proto (u : Nat) : Nat := (0x5060 + u) * 256 + 3
def match_l4_port (u : Nat) : Nat := (0x5060 + u) * 256 + 4
def match_ptp_types (u : Nat) : Nat := (0x5060 + u) * 256 + 5
def match_sdo (u : Nat) : Nat := (0x5060 + u) * 256 + 6
def match_ntp_ext (u : Nat) : Nat := (0x5060 + u) * 256 + 7
def rule_action (u : Nat) : Nat := (0x5060 + u) * 256 + 8
def rule_target (u : Nat) : Nat := (0x5060 + u) * 256 + 9
def rule_class (u : Nat) : Nat := (0x5060 + u) * 256 + 10
def rule_matches (u : Nat) : Nat := (0x5060 + u) * 256 + 11
def program_status : Nat := (0x5100) * 256 + 1
def program_reject_cause : Nat := (0x5100) * 256 + 2
def program_version_active : Nat := (0x5100) * 256 + 3
def program_version_staged : Nat := (0x5100) * 256 + 4
def program_activate : Nat := (0x5100) * 256 + 5
def program_signer_active : Nat := (0x5100) * 256 + 6
def region_a_version : Nat := (0x5100) * 256 + 7
def ct_entries : Nat := (0x5200) * 256 + 1
def ct_grants : Nat := (0x5200) * 256 + 2
def ct_full : Nat := (0x5200) * 256 + 3
def ct_stateless : Nat := (0x5200) * 256 + 4
def ct_late : Nat := (0x5200) * 256 + 5
def ct_reclaimed : Nat := (0x5200) * 256 + 6
def reclaim_age : Nat := (0x5200) * 256 + 7
def ct_create_rate : Nat := (0x5200) * 256 + 8
def grant_limit : Nat := (0x5200) * 256 + 9
def ct_insert_fail : Nat := (0x5200) * 256 + 10
def lookup_deadline : Nat := (0x5200) * 256 + 11
def ntp_bucket_rate : Nat := (0x5201) * 256 + 1
def ntp_bucket_burst : Nat := (0x5201) * 256 + 2
def kod_enable : Nat := (0x5201) * 256 + 3
def ptp_bucket_burst : Nat := (0x5201) * 256 + 4
def sketch_limit : Nat := (0x5201) * 256 + 5
def sketch_period : Nat := (0x5201) * 256 + 6
def rate_kod_sent : Nat := (0x5201) * 256 + 7
def rate_dropped : Nat := (0x5201) * 256 + 8
def sketch_dropped : Nat := (0x5201) * 256 + 9
def program_params : Nat := (0x5101) * 256 + 1
def program_counter_count : Nat := (0x5101) * 256 + 2
def program_counter_clear : Nat := (0x5101) * 256 + 3
def program_counters (k : Nat) : Nat := (0x5110 + k / 128) * 256 + 1 + k % 128
def inst_enable (u : Nat) : Nat := (0x5400 + 0x40 * u) * 256 + 1
def profile (u : Nat) : Nat := (0x5400 + 0x40 * u) * 256 + 2
def instance_role (u : Nat) : Nat := (0x5400 + 0x40 * u) * 256 + 3
def domain_number (u : Nat) : Nat := (0x5400 + 0x40 * u) * 256 + 4
def transport (u : Nat) : Nat := (0x5400 + 0x40 * u) * 256 + 5
def priority1 (u : Nat) : Nat := (0x5400 + 0x40 * u) * 256 + 6
def priority2 (u : Nat) : Nat := (0x5400 + 0x40 * u) * 256 + 7
def two_step (u : Nat) : Nat := (0x5400 + 0x40 * u) * 256 + 8
def unicast_enable (u : Nat) : Nat := (0x5400 + 0x40 * u) * 256 + 9
def announce_timeout (u : Nat) : Nat := (0x5400 + 0x40 * u) * 256 + 10
def pdelay_valid (u : Nat) : Nat := (0x5400 + 0x40 * u) * 256 + 11
def neighbor_prop_thresh (u : Nat) : Nat := (0x5400 + 0x40 * u) * 256 + 12
def sm_local_offset (u : Nat) : Nat := (0x5400 + 0x40 * u) * 256 + 13
def grant_max_duration (u : Nat) : Nat := (0x5400 + 0x40 * u) * 256 + 14
def log_sync (u : Nat) : Nat := (0x5400 + 0x40 * u) * 256 + 15
def log_announce (u : Nat) : Nat := (0x5400 + 0x40 * u) * 256 + 16
def log_delay_req (u : Nat) : Nat := (0x5400 + 0x40 * u) * 256 + 17
def member_ports (u : Nat) : Nat := (0x5400 + 0x40 * u) * 256 + 18
def rx_mac_mode (u : Nat) : Nat := (0x5400 + 0x40 * u) * 256 + 19
def parent_identity (u : Nat) : Nat := (0x5401 + 0x40 * u) * 256 + 1
def gm_identity (u : Nat) : Nat := (0x5401 + 0x40 * u) * 256 + 2
def mean_path_delay (u : Nat) : Nat := (0x5401 + 0x40 * u) * 256 + 3
def receiver_port (u : Nat) : Nat := (0x5401 + 0x40 * u) * 256 + 4
def sec_icv_fail (u : Nat) : Nat := (0x5401 + 0x40 * u) * 256 + 5
def unicast_masters (u i : Nat) : Nat := (0x5402 + 0x40 * u) * 256 + 1 + i
def sec_mode (u : Nat) : Nat := (0x5403 + 0x40 * u) * 256 + 1
def sec_spp (u : Nat) : Nat := (0x5403 + 0x40 * u) * 256 + 2
def sec_key_id (u : Nat) : Nat := (0x5403 + 0x40 * u) * 256 + 3
def sec_key (u : Nat) : Nat := (0x5403 + 0x40 * u) * 256 + 4
def port_local_priority (i n : Nat) : Nat := (0x5404 + 0x40 * i) * 256 + 1 + n
def port_state (i n : Nat) : Nat := (0x5405 + 0x40 * i) * 256 + 1 + n
def ntp_precision : Nat := (0x5300) * 256 + 3
def ntp_min_dispersion : Nat := (0x5300) * 256 + 4
def kod_min_poll : Nat := (0x5300) * 256 + 5
def nts_master_key : Nat := (0x5500) * 256 + 1
def nts_key_period : Nat := (0x5500) * 256 + 2
def nts_key_accept : Nat := (0x5500) * 256 + 3
def nts_allow_512 : Nat := (0x5500) * 256 + 4
def nts_server_name : Nat := (0x5500) * 256 + 5
def nts_ke_max_sessions : Nat := (0x5500) * 256 + 6
def nts_key_number : Nat := (0x5500) * 256 + 7
def bn_state : Nat := (0x5800) * 256 + 1
def bn_chains : Nat := (0x5800) * 256 + 2
def bn_descriptors : Nat := (0x5800) * 256 + 3
def bn_aborts : Nat := (0x5800) * 256 + 4
def bn_rejects : Nat := (0x5800) * 256 + 5
def bn_occupancy : Nat := (0x5800) * 256 + 6
def bn_point_invalid : Nat := (0x5800) * 256 + 7
def bn_sig_withheld : Nat := (0x5800) * 256 + 8
def bn_selftest : Nat := (0x5801) * 256 + 1
def bn_selftest_result : Nat := (0x5801) * 256 + 2
def bn_selftest_time : Nat := (0x5801) * 256 + 3
def fw_running_version : Nat := (0x1210) * 256 + 1
def fw_running_bank : Nat := (0x1210) * 256 + 2
def fw_staged_status : Nat := (0x1210) * 256 + 3
def security_floor : Nat := (0x1210) * 256 + 4
def fw_verify : Nat := (0x1210) * 256 + 5
def fw_activate : Nat := (0x1210) * 256 + 6
def fw_trial : Nat := (0x1210) * 256 + 7
def enrolled : Nat := (0x1400) * 256 + 1
def duk_state : Nat := (0x1400) * 256 + 2
def tamper_latch : Nat := (0x1400) * 256 + 3
def tamper_policy : Nat := (0x1400) * 256 + 4
def tamper_clear_confirm : Nat := (0x1400) * 256 + 5
def security_event_count : Nat := (0x1400) * 256 + 6
def identity_public_key : Nat := (0x1401) * 256 + 1
def nts_ke_key_alg : Nat := (0x1401) * 256 + 2
def nts_ke_keygen : Nat := (0x1401) * 256 + 3
def nts_ke_public_key : Nat := (0x1401) * 256 + 4
def psk_id (u : Nat) : Nat := (0x1410 + u) * 256 + 1
def psk_rights (u : Nat) : Nat := (0x1410 + u) * 256 + 2
def psk_key (u : Nat) : Nat := (0x1410 + u) * 256 + 3
def anchor_cert (u : Nat) : Nat := (0x1430 + u) * 256 + 1
def anchor_rights (u : Nat) : Nat := (0x1430 + u) * 256 + 2
def owner_program_key : Nat := (0x1438) * 256 + 1
def owner_program_key_id : Nat := (0x1438) * 256 + 2
def sirkor_program_key_id : Nat := (0x1438) * 256 + 3
def rb_key (u : Nat) : Nat := (0x1440 + u) * 256 + 1
def debug_state : Nat := (0x1460) * 256 + 1
def debug_challenge : Nat := (0x1460) * 256 + 2
def debug_response : Nat := (0x1460) * 256 + 3
def owner_debug_key : Nat := (0x1461) * 256 + 1
def dram_state : Nat := (0x1600) * 256 + 1
def dram_capacity : Nat := (0x1600) * 256 + 2
def dram_train_fail : Nat := (0x1600) * 256 + 3
def dram_train_time : Nat := (0x1600) * 256 + 4
def patrol_sram_period : Nat := (0x1610) * 256 + 1
def patrol_dram_period : Nat := (0x1610) * 256 + 2
def patrol_passes : Nat := (0x1610) * 256 + 3
def tile_errors : Nat := (0x1620) * 256 + 0
def tile_errors_region (i : Nat) : Nat := (0x1620) * 256 + 1 + i
def tiles_retired : Nat := (0x1621) * 256 + 0
def tiles_retired_region (i : Nat) : Nat := (0x1621) * 256 + 1 + i
def cfg_records_skipped : Nat := (0x1630) * 256 + 1
def cfg_default : Nat := (0x1630) * 256 + 2
def flash_size : Nat := (0x1630) * 256 + 3
def reset_cause : Nat := (0x1008) * 256 + 0
def reset_cause_time : Nat := (0x1009) * 256 + 0
def strap_bootsel : Nat := (0x1020) * 256 + 1
def strap_oscsel : Nat := (0x1020) * 256 + 2
def strap_oscdiff : Nat := (0x1020) * 256 + 3
def boot_source_used : Nat := (0x1020) * 256 + 4
def strap_reserved : Nat := (0x1020) * 256 + 5
def trim_copy : Nat := (0x1021) * 256 + 1
def reset_request : Nat := (0x1500) * 256 + 1
def reset_confirm : Nat := (0x1500) * 256 + 2
def block_reset_target : Nat := (0x1501) * 256 + 1
def block_force : Nat := (0x1501) * 256 + 2
def quiesce_timeout : Nat := (0x1501) * 256 + 3
def block_reset_state : Nat := (0x1501) * 256 + 4
def block_lost : Nat := (0x1501) * 256 + 5
def wd_timeout : Nat := (0x1510) * 256 + 1
def wd_warm_count : Nat := (0x1510) * 256 + 2
def thermal_warn_limit : Nat := (0x1520) * 256 + 1
def thermal_trip_count : Nat := (0x1520) * 256 + 2
def keep_supply : Nat := (0x1530) * 256 + 1
def vkeep_voltage : Nat := (0x1530) * 256 + 2
def vkeep_low_limit : Nat := (0x1530) * 256 + 3
def xing_record : Nat := (0x1550) * 256 + 0
def xing_discard_count : Nat := (0x1550) * 256 + 1
def xing_resync_count : Nat := (0x1550) * 256 + 2
def xing_pulse_overflow : Nat := (0x1550) * 256 + 3
def xing_hang_last : Nat := (0x1550) * 256 + 4
def xing_hang_count : Nat := (0x1550) * 256 + 5
def snap_request : Nat := (0x1700) * 256 + 1
def snap_period : Nat := (0x1700) * 256 + 2
def snap_epoch : Nat := (0x1700) * 256 + 3
def snap_raw : Nat := (0x1700) * 256 + 4
def snap_time : Nat := (0x1700) * 256 + 5
def sample_enable : Nat := (0x1701) * 256 + 1
def sample_interval : Nat := (0x1701) * 256 + 2
def sample_latency : Nat := (0x1701) * 256 + 3
def sample_mode : Nat := (0x1701) * 256 + 4
def sample_clear : Nat := (0x1701) * 256 + 5
def sample_newest_seq (i : Nat) : Nat := (0x1702) * 256 + 1 + i
def block_mode (u : Nat) : Nat := (0x6000 + 0x20 * u) * 256 + 1
def bw_port (u : Nat) : Nat := (0x6000 + 0x20 * u) * 256 + 2
def ctr_select (u i : Nat) : Nat := (0x6001 + 0x20 * u) * 256 + 1 + i
def snap_values (u : Nat) : Nat := (0x6002 + 0x20 * u) * 256 + 0
def snap_cycles (u : Nat) : Nat := (0x6002 + 0x20 * u) * 256 + 1
def snap_ctr (u i : Nat) : Nat := (0x6002 + 0x20 * u) * 256 + 2 + i
def block_epoch (u : Nat) : Nat := (0x6003 + 0x20 * u) * 256 + 1
def snap_overflow (u : Nat) : Nat := (0x6003 + 0x20 * u) * 256 + 2
def ctr_select_active (u i : Nat) : Nat := (0x6004 + 0x20 * u) * 256 + 1 + i
def bw_port_rx_rate (u : Nat) : Nat := (0x6005 + 0x20 * u) * 256 + 1
def bw_port_tx_rate (u : Nat) : Nat := (0x6005 + 0x20 * u) * 256 + 2
def bw_port_rx_util (u : Nat) : Nat := (0x6005 + 0x20 * u) * 256 + 3
def bw_port_tx_util (u : Nat) : Nat := (0x6005 + 0x20 * u) * 256 + 4
def bw_group_rx_rate (u : Nat) : Nat := (0x6005 + 0x20 * u) * 256 + 5
def bw_group_tx_rate (u : Nat) : Nat := (0x6005 + 0x20 * u) * 256 + 6
def td_retired (u : Nat) : Nat := (0x6005 + 0x20 * u) * 256 + 7
def td_wasted (u : Nat) : Nat := (0x6005 + 0x20 * u) * 256 + 8
def td_front (u : Nat) : Nat := (0x6005 + 0x20 * u) * 256 + 9
def td_back_crypto (u : Nat) : Nat := (0x6005 + 0x20 * u) * 256 + 10
def td_back_memory (u : Nat) : Nat := (0x6005 + 0x20 * u) * 256 + 11
def td_back_egress (u : Nat) : Nat := (0x6005 + 0x20 * u) * 256 + 12
def ctr_overflow (u : Nat) : Nat := (0x6006 + 0x20 * u) * 256 + 1
def id_record : Nat := (0x1000) * 256 + 0
def id_vendor : Nat := (0x1000) * 256 + 1
def id_part : Nat := (0x1000) * 256 + 2
def id_stepping : Nat := (0x1000) * 256 + 3
def id_serial : Nat := (0x1000) * 256 + 4
def id_factory_mac : Nat := (0x1000) * 256 + 5
def id_map_edition : Nat := (0x1000) * 256 + 6
def id_directory_entries : Nat := (0x1000) * 256 + 7
def type_bool : Nat := (0x0001) * 256 + 0
def type_u8 : Nat := (0x0002) * 256 + 0
def type_u16 : Nat := (0x0003) * 256 + 0
def type_u32 : Nat := (0x0004) * 256 + 0
def type_u64 : Nat := (0x0005) * 256 + 0
def type_i8 : Nat := (0x0006) * 256 + 0
def type_i16 : Nat := (0x0007) * 256 + 0
def type_i32 : Nat := (0x0008) * 256 + 0
def type_i64 : Nat := (0x0009) * 256 + 0
def type_time112 : Nat := (0x000A) * 256 + 0
def type_dur96 : Nat := (0x000B) * 256 + 0
def type_ppt : Nat := (0x000C) * 256 + 0
def type_string : Nat := (0x000D) * 256 + 0
def type_octets : Nat := (0x000E) * 256 + 0
def type_record : Nat := (0x000F) * 256 + 0
def type_array : Nat := (0x0010) * 256 + 0

end Sys2Proof.Machine.Obj
end

