-- ==== Sys2Proof/Machine/State/BigNum.lean ====
section
/-! DEFINITION. The big-number engine's state (chapter 14). -/

namespace Sys2Proof.Machine

/-- The chain running: its queue, the address of the descriptor in progress, its index, the previous len_a. -/
structure BnChain where
  queue : Fin 4
  addr : Nat
  index : Nat := 0
  prevA : Option Nat := none
deriving DecidableEq, Repr

/-- The engine (R334, R335). Values are the numbers that word arrays spell; a mark says that one came from key RAM. -/
structure BigNum where
  /-- Chains posted: addresses of their first descriptors, per control processor, oldest first. -/
  queues : Vector (List Nat) 4 := Vector.replicate 4 []
  cur : Option BnChain := none
  acc : Nat := 0
  accKey : Bool := false
  bufA : Nat := 0
  aKey : Bool := false
  bufN : Nat := 0
  nKey : Bool := false
  nPrime : Nat := 0
  /-- The queue the round robin looks at next. -/
  next : Fin 4 := 0
  /-- Status of the latest chain of each queue that ended (R336). -/
  status : Vector (Option Nat) 4 := Vector.replicate 4 none
  /-- A self-test is due or running: its cause, 0 scheduled, 1 commit, 2 withheld signatures. -/
  test : Option Nat := none
  /-- Processor-clock cycles of the chain in progress or the latest one: arithmetic with transitions (R337), transfers with
  key RAM (R338). -/
  cycles : Nat := 0
  keyCycles : Nat := 0
  /-- Completions signalled to each control processor (R334, flag bit 6). -/
  signals : Vector Nat 4 := Vector.replicate 4 0
  /-- The latest test failed (R343). -/
  failed : Bool := false
deriving DecidableEq, Repr

end Sys2Proof.Machine
end

