-- ==== Sys2Proof/Machine/State/Count.lean ====
section
/-! DEFINITION. The counter blocks' state (chapter 19). -/

namespace Sys2Proof.Machine

/-- A counter block (R407-R419). -/
structure CtrBlock where
  /-- Cycles counted since the cold reset, in 1/(200,000,000 × 78,125) cycle. -/
  cyc : Nat := 0
  /-- Counters 0-7, and the selections and modes in force since the last snapshot (R415). -/
  ctr : Vector Nat 8 := Vector.replicate 8 0
  sel : Vector Nat 8 := Vector.replicate 8 0
  mode : Nat := 0
  bwPort : Nat := 0
  /-- Units for which each counter's level event held at the last tick, as masks. -/
  level : Vector Nat 8 := Vector.replicate 8 0
  /-- Wraps of the present epoch and those not yet reported; first wraps journalled: bit 0 cycles, bit k + 1 counter. -/
  epochWraps : Nat := 0
  newWraps : Nat := 0
  firstWraps : Nat := 0
  /-- Slots issued and not yet counted at a tick (R418). -/
  slotsTick : Nat := 0
  /-- Cycles and counters at the previous snapshot (R419). -/
  prevCyc : Nat := 0
  prevCtr : Vector Nat 8 := Vector.replicate 8 0
deriving DecidableEq, Repr

/-- Snapshots (R412): the raw tick of the latest one. -/
structure Snapshots where
  last : Option Nat := none
deriving DecidableEq, Repr

end Sys2Proof.Machine
end

