-- ==== Sys2Proof/Machine/Cipher.lean ====
section
/-! DEFINITION. AES (FIPS 197), its counter mode, CMAC and AES-SIV (RFC 5297), in the editions of R19. -/

namespace Sys2Proof.Machine

/-! ## AES -/

/-- The substitution box: row x holds the images of 16x to 16x + 15, the image of 16x in its low byte. -/
def sboxRows : List Nat :=
  [0x76ABD7FE2B670130C56F6BF27B777C63, 0xC072A49CAFA2D4ADF04759FA7DC982CA, 0x1531D871F1E5A534CCF73F362693FDB7,
   0x75B227EBE28012079A059618C323C704, 0x842FE329B3D63B52A05A6E1B1A2C8309, 0xCF584C4A39BECB6A5BB1FC20ED00D153,
   0xA89F3C507F02F94585334D43FBAAEFD0, 0xD2F3FF1021DAB6BCF5389D928F40A351]
  ++ [0x73195D643D7EA7C41744975FEC130CCD, 0xDB0B5EDE14B8EE4688902A22DC4F8160, 0x79E4959162ACD3C25C2406490A3A32E0,
   0x08AE7A65EAF4566CA94ED58D6D37C8E7, 0x8A8BBD4B1F74DDE8C6B4A61C2E2578BA, 0x9E1DC186B95735610EF6034866B53E70,
   0xDF2855CEE9871E9B948ED9691198F8E1, 0x16BB54B00F2D99416842E6BF0D89A18C]

/-- SubBytes on one byte. -/
def subByte (x : Nat) : Nat := sboxRows.getD (x / 16) 0 / 256 ^ (x % 16) % 256

/-- Twice a byte in the field of AES. -/
def xtime (x : Nat) : Nat := if x < 128 then 2 * x else (2 * x - 256) ^^^ 0x1B

/-- The round keys as words of four bytes, newest first; `n` words to add, key of `nk` words. -/
def aesExpand (nk : Nat) : Nat → Nat → Nat → List (List Nat) → List (List Nat)
  | 0, _, _, l => l
  | n + 1, i, rcon, l =>
    let last := l.headD []
    let back := l.getD (nk - 1) []
    let first := i % nk == 0
    let temp :=
      if first then
        match (last.drop 1 ++ last.take 1).map subByte with
        | a :: r => (a ^^^ rcon) :: r
        | [] => []
      else if 6 < nk && i % nk == 4 then last.map subByte
      else last
    aesExpand nk n (i + 1) (if first then xtime rcon else rcon) (List.zipWith (fun x y => x ^^^ y) back temp :: l)

/-- The round keys of a key of 16 or 32 bytes, 16 bytes each. -/
def aesKeys (key : Bytes) : List (List Nat) :=
  let nk := key.length / 4
  let words := ((List.range nk).map fun i => (field key (4 * i) 4).map fun x => x.toNat).reverse
  let w := (aesExpand nk (4 * (nk + 7) - nk) nk 1 words).reverse
  (List.range (nk + 7)).map fun r => (w.drop (4 * r)).take 4 |>.flatten

/-- ShiftRows and MixColumns of one column, by the four bytes that it takes. -/
def mixColumn (a b c d : Nat) : List Nat :=
  let all := a ^^^ b ^^^ c ^^^ d
  [a ^^^ all ^^^ xtime (a ^^^ b), b ^^^ all ^^^ xtime (b ^^^ c), c ^^^ all ^^^ xtime (c ^^^ d), d ^^^ all ^^^ xtime (d ^^^ a)]

/-- One round; the last one mixes no columns. -/
def aesRound (state key : List Nat) (last : Bool) : List Nat :=
  let s := state.map subByte
  let at' := fun (c r : Nat) => s.getD (4 * ((c + r) % 4) + r) 0
  let out := (List.range 4).flatMap fun c =>
    if last then [at' c 0, at' c 1, at' c 2, at' c 3] else mixColumn (at' c 0) (at' c 1) (at' c 2) (at' c 3)
  List.zipWith (fun x y => x ^^^ y) out key

/-- The rounds with the round keys left. -/
def aesRounds : List (List Nat) → List Nat → List Nat
  | [], s => s
  | [k], s => aesRound s k true
  | k :: r, s => aesRounds r (aesRound s k false)

/-- The encryption of one block of 16 bytes. -/
@[irreducible] def aesBlock (key block : Bytes) : Bytes :=
  let start := (field block 0 16).map fun x => x.toNat
  match aesKeys key with
  | [] => []
  | k :: r => (aesRounds r (List.zipWith (fun x y => x ^^^ y) start k)).map fun x => BitVec.ofNat 8 x

/-- Exclusive or of byte strings. -/
def xorBytes (a b : Bytes) : Bytes := List.zipWith (fun x y => x ^^^ y) a b

/-- The counter-mode keystream from a counter block of 128 bits. -/
def aesCtr (key iv : Bytes) (n : Nat) : Bytes :=
  ((List.range ((n + 15) / 16)).flatMap fun i => aesBlock key (beNat 16 ((ofBe iv + i) % 2 ^ 128))).take n

/-! ## CMAC and SIV (RFC 5297) -/

/-- Twice a block in the field of CMAC. -/
def doubled (b : Bytes) : Bytes :=
  let x := 2 * ofBe b
  beNat 16 (if x < 2 ^ 128 then x else (x - 2 ^ 128) ^^^ 0x87)

/-- The chaining of whole blocks before the last one, and the last part of 1 to 16 bytes (none of an empty message). -/
def cmacChain (key : Bytes) : Nat → Bytes → Bytes → Bytes × Bytes
  | 0, x, m => (x, m)
  | n + 1, x, m => if m.length ≤ 16 then (x, m) else cmacChain key n (aesBlock key (xorBytes x (m.take 16))) (m.drop 16)

/-- AES-CMAC. -/
def cmac (key m : Bytes) : Bytes :=
  let k1 := doubled (aesBlock key (List.replicate 16 0))
  let (x, last) := cmacChain key m.length (List.replicate 16 0) m
  let last := if last.length = 16 then xorBytes last k1 else xorBytes (padTo 16 (last ++ [0x80])) (doubled k1)
  aesBlock key (xorBytes x last)

/-- S2V under the first half of a SIV key: the associated data, then the text. -/
def sivS2v (key : Bytes) (components : List Bytes) : Bytes :=
  let k := key.take (key.length / 2)
  match components.reverse with
  | [] => cmac k (beNat 16 1)
  | text :: data =>
    let d := data.reverse.foldl (fun d c => xorBytes (doubled d) (cmac k c)) (cmac k (List.replicate 16 0))
    if 16 ≤ text.length then
      cmac k (text.take (text.length - 16) ++ xorBytes (text.drop (text.length - 16)) d)
    else cmac k (xorBytes (doubled d) (padTo 16 (text ++ [0x80])))

/-- The keystream of SIV under the second half of a key, from V with two of its bits cleared. -/
def sivCtr (key v : Bytes) (n : Nat) : Bytes :=
  let x := ofBe (field v 0 16)
  aesCtr (key.drop (key.length / 2)) (beNat 16 (setBit (setBit x 63 false) 31 false)) n

/-- Sealing gives V and the ciphertext. -/
def sivSeal (key : Bytes) (data : List Bytes) (text : Bytes) : Bytes :=
  let v := sivS2v key (data ++ [text])
  v ++ xorBytes text (sivCtr key v text.length)

/-- Opening gives the plaintext, none where V does not match. -/
def sivOpen (key : Bytes) (data : List Bytes) (sealed : Bytes) : Option Bytes :=
  let v := sealed.take 16
  let c := sealed.drop 16
  let text := xorBytes c (sivCtr key v c.length)
  if sivS2v key (data ++ [text]) == v then some text else none

/-! ## GCM (SP 800-38D) -/

/-- The product in the field of GHASH of a block, by its bits from the first, and `y`: what is gathered, the multiple. -/
def ghashMul (x : Nat) : Nat → Nat → Nat → Nat
  | 0, z, _ => z
  | n + 1, z, y =>
    ghashMul x n (if bit x n then z ^^^ y else z) (if bit y 0 then y / 2 ^^^ 0xE1 * 2 ^ 120 else y / 2)

/-- GHASH of whole blocks under the hash key. -/
def ghash (h : Nat) : Nat → Nat → Bytes → Nat
  | 0, y, _ => y
  | n + 1, y, m => ghash h n (ghashMul (y ^^^ fieldN m 0 16) 128 0 h) (m.drop 16)

/-- A string padded with zeros to whole blocks. -/
def wholeBlocks (b : Bytes) : Bytes := padTo ((b.length + 15) / 16 * 16) b

/-- The tag of a ciphertext, with a nonce of 12 bytes. -/
def gcmTag (key nonce data c : Bytes) : Bytes :=
  let m := wholeBlocks data ++ wholeBlocks c ++ beNat 8 (8 * data.length) ++ beNat 8 (8 * c.length)
  let y := ghash (ofBe (aesBlock key (List.replicate 16 0))) (m.length / 16) 0 m
  xorBytes (aesBlock key (nonce ++ beNat 4 1)) (beNat 16 y)

/-- Sealing gives the ciphertext and its tag. -/
def gcmSeal (key nonce data text : Bytes) : Bytes :=
  let c := xorBytes text (aesCtr key (nonce ++ beNat 4 2) text.length)
  c ++ gcmTag key nonce data c

/-- Opening gives the plaintext, none where the tag does not match. -/
def gcmOpen (key nonce data sealed : Bytes) : Option Bytes :=
  let c := sealed.take (sealed.length - 16)
  if gcmTag key nonce data c == sealed.drop (sealed.length - 16) then
    some (xorBytes c (aesCtr key (nonce ++ beNat 4 2) c.length))
  else none

end Sys2Proof.Machine
end

