-- ==== Sys2Proof/Machine/Storage.lean ====
section
/-! DEFINITION. The storage cipher (R348, R349): the device-unique key, enciphered records. -/

namespace Sys2Proof.Machine

/-- The device-unique key: HKDF-SHA-256 of the seed and the circuit's response (R348). -/
def deviceKey : Bytes := hkdfSha256 (Config.otpSeed ++ Config.pufResponse) []

/-- The key of the storage cipher (R349). -/
def storageKey : Bytes := hkdfSha256 deviceKey (ascii "PV6425-store")

/-- The associated data of a record: index and subindex. -/
def recordData (key : Nat) : Bytes := beNat 2 (key / 256) ++ beNat 1 (key % 256)

/-- An enciphered value: its 12-byte nonce, the ciphertext, its 16-byte tag (R376). -/
def sealRecord (store nonce : Bytes) (key : Nat) (b : Bytes) : Bytes := nonce ++ gcmSeal store nonce (recordData key) b

/-- The value of an enciphered record, none where its tag fails. -/
def openRecord (store : Bytes) (key : Nat) (v : Bytes) : Option Bytes :=
  if v.length < 28 then none else gcmOpen store (v.take 12) (recordData key) (v.drop 12)

end Sys2Proof.Machine
end

