-- ==== Sys2Proof/Machine/State/Flash.lean ====
section
/-! DEFINITION. The boot flash (chapters 3, 8, 15, 16): what survives every reset and loss of supply. -/

namespace Sys2Proof.Machine

/-- What a copy of the orbit area carries (R196, R214): the records and the held position. -/
structure OrbitArea where
  recs : List (Nat × Bytes) := []
  held : Option (Int × Int × Int) := none
deriving DecidableEq, Repr

/-- A configuration bank (R374, R376): its bytes, none where it is erased. The program image stored with its set (R286) has
no place among them: it lies beside them. -/
structure CfgBank where
  image : Bytes := []
  program : Option Bytes := none
deriving DecidableEq, Repr

/-- A record of a configuration bank (R376): the object, its type's code, the flags, the value, enciphered under flag bit 0. -/
structure CfgRecord where
  key : Nat
  ty : Nat
  flags : Nat := 0
  value : Bytes
deriving DecidableEq, Repr

/-- A configuration set: what the header and the records of a bank say. -/
structure CfgSet where
  sequence : Nat
  generation : Nat
  records : List CfgRecord
  program : Option Bytes := none
deriving DecidableEq, Repr

/-- What a copy of the boot record carries (R375). -/
structure BootRecord where
  bank : Nat
  trial : Bool
deriving DecidableEq, Repr

/-- The boot flash, the OTP security floor apart. -/
structure Flash where
  /-- The two copies of the orbit area and of the boot record (R375): their bytes, none where they are erased. -/
  orbitA : Bytes := []
  orbitB : Bytes := []
  bootA : Bytes := []
  bootB : Bytes := []
  /-- Firmware images A and B (R374): the contents the device leaves test with. -/
  imageA : Bytes := Config.flashImage 0
  imageB : Bytes := Config.flashImage 1
  cfg0 : CfgBank := {}
  cfg1 : CfgBank := {}
  /-- The device identity key's record (R349), enciphered at test. -/
  identity : Bytes := sealRecord storageKey Config.identityNonce Obj.identity_public_key Config.identityKey
  /-- The NTS-KE server key's record (R349): the enciphered private key, its algorithm. -/
  keKey : Option (Bytes × Nat) := none
  /-- The record of the master key generated at the first bring-up (R328), enciphered. -/
  master : Option Bytes := none
  /-- Enrolment has completed (R355); the debug unlock count (R362). -/
  enrolled : Bool := false
  unlocks : Nat := 0
deriving DecidableEq, Repr

end Sys2Proof.Machine
end

