-- ==== Sys2Proof/Machine/State/Memory.lean ====
section
/-! DEFINITION. Byte memories the big-number engine addresses (R334), and the tiles under quarantine (R372). -/

namespace Sys2Proof.Machine

/-- A byte memory: cells by strictly rising address, none equal to 0, which is what an unlisted address reads as. -/
abbrev Memory := List Host.Cell

/-- A tile under quarantine or retired: region of R371, tile address. -/
structure BadTile where
  region : Nat
  addr : Nat
  /-- Elapsed tick of the mismatch. -/
  since : Nat
  /-- Written with zeros and freed again, or retired. -/
  freed : Bool := false
  retired : Bool := false
  /-- It had failed within the 24 h before (R372). -/
  again : Bool := false
deriving DecidableEq, Repr

/-- Memory and tile checks (chapter 16). -/
structure MemUnits where
  /-- Control-processor SRAM, DRAM working space, key RAM as the big-number engine addresses them: spaces 0, 1, 2. -/
  sram : Memory := []
  dram : Memory := []
  key : Memory := []
  /-- The check values of their tiles, by rising tile number (R369); a tile not listed holds the check value of zeros. -/
  sramSums : List (Nat × Nat) := []
  dramSums : List (Nat × Nat) := []
  keySums : List (Nat × Nat) := []
  tiles : List BadTile := []
  /-- Elapsed ticks of fatal mismatches in the last 60 s, newest first (R373). -/
  fatal : List Nat := []
  /-- A copy in DRAM waits for its reload: elapsed tick of the mismatch (R371). -/
  reload : Option Nat := none
  /-- The latest mismatch: region, tile address, elapsed tick (R370). -/
  lastFail : Option (Nat × Nat × Nat) := none
  /-- The next patrols of the SRAM and of the DRAM arrays are due: elapsed ticks. -/
  patrolSram : Nat := 0
  patrolDram : Nat := 0
deriving DecidableEq, Repr

end Sys2Proof.Machine
end

