-- ==== Sys2Proof/Machine/State/Ool.lean ====
section
/-! DEFINITION. The dictionary agent's state (chapter 2): frame queues, sessions, setups, the election, the transaction,
scheduled commits, the persisted write. -/

namespace Sys2Proof.Machine

/-- A staged object write: key and value (R44). -/
structure StagedItem where
  key : Nat
  val : Val
deriving DecidableEq, Repr

/-- Staged bytes of a bulk window (R433). -/
structure StagedBulk where
  index : Nat
  offset : Nat
  data : Bytes
deriving DecidableEq, Repr

/-- A scheduled commit (R48, R49). -/
structure Sched where
  id : Nat
  /-- Scheduled device time, 2^-16 ns. -/
  time : Int
  session : Nat
  /-- The COMMIT flags. -/
  flags : Nat := 0
  expected : Nat := 0
  items : List StagedItem
  bulk : List StagedBulk := []
deriving DecidableEq, Repr

/-- An OOL frame waiting for the dictionary agent (R62): its path, the Ethernet frame's bytes before the UDP payload
(empty over SPI), the OOL frame. -/
structure RxItem where
  path : Path
  hdr : Bytes := []
  frame : Bytes
  /-- Byte offset in the packet buffer's reserve, over UDP. -/
  buffer : Nat := 0
  /-- What its descriptor on ring 0 or 1 holds besides (R267): receive stamp, flags, sequence. -/
  stamp : Nat := 0
  uncal : Bool := false
  tagged : Bool := false
  seq : Nat := 0
deriving DecidableEq, Repr

/-- A cached response (R57). -/
structure Cached where
  seq : Nat
  frames : List Bytes
deriving DecidableEq, Repr

/-- An open session (R55-R57). -/
structure Session where
  id : Nat
  key : Bytes
  method : Nat
  path : Path
  hdr : Bytes := []
  node : Nat := 0
  owner : Bool := false
  extended : Bool := false
  localAuth : Bool := false
  /-- The UDP port of its requests: ool_udp_port when it opened. -/
  port : Nat := 43190
  /-- The pre-shared key entry it was opened with (R356). -/
  psk : Option Nat := none
  /-- The length of the proof its FINISH carried (R460). -/
  proof : Nat := 32
  /-- Highest sequence accepted; those accepted within 64 below it; the 8 latest responses, newest first. -/
  hi : Nat := 0
  seen : List Nat := []
  cache : List Cached := []
  /-- Elapsed tick of the last accepted request. -/
  lastAt : Nat := 0
  /-- Second and frames of the admission count (R61). -/
  rateSec : Nat := 0
  rateCount : Nat := 0
deriving DecidableEq, Repr

/-- A setup in progress (R55, R459). -/
structure Setup where
  id : Nat
  key : Bytes
  method : Nat
  path : Path
  hdr : Bytes := []
  node : Nat := 0
  psk : Option Nat := none
  /-- Rights the pre-shared-key entry gives. -/
  owner : Bool := false
  extended : Bool := false
  /-- Transcript of steps 1 and 2, and of step 3. -/
  hello : Bytes
  certs : Bytes := []
  /-- Client chain received. -/
  chain : Bytes := []
  /-- Highest sequence accepted; those accepted within 64 below it; the responses (R57). -/
  hi : Nat := 0
  seen : List Nat := []
  cache : List Cached := []
  startedAt : Nat
deriving DecidableEq, Repr

/-- A claim recorded in an election window (R58). -/
structure Claimant where
  session : Fin 32
  prio : Nat
  node : Nat
  seq : Nat
  path : Path
  hdr : Bytes := []
deriving DecidableEq, Repr

/-- The open transaction (R44). -/
structure Txn where
  id : Nat
  items : List StagedItem := []
  bulk : List StagedBulk := []
  /-- A WRITE of the transaction carried a reserved encoding: no part of it may take effect (R7). -/
  spoiled : Bool := false
deriving DecidableEq, Repr

/-- A persisted write in progress (R50): the configuration set and the elapsed tick it began at. -/
structure Persisting where
  set : CfgSet
  since : Nat
deriving DecidableEq, Repr

/-- The dictionary agent. -/
structure Ool where
  /-- Frames waiting: host SPI, ring 0, ring 1 (R62). -/
  spiQ : List RxItem := []
  ring0 : List RxItem := []
  ring1 : List RxItem := []
  /-- The next sequence on rings 0 and 1 (R267). -/
  seq0 : Nat := 0
  seq1 : Nat := 0
  /-- Device frames pending for the SPI host, oldest first (R447). -/
  spiOut : List Bytes := []
  /-- HSPI_MISO from byte 4 of the latest read transaction (R447). -/
  spiMiso : Bytes := []
  /-- Ethernet frames without FCS sent on the management port by the latest command that sent any. -/
  mgmtOut : List Bytes := []
  /-- Elapsed tick of the next poll of the management PHY; the MDIO frames of the latest one (R255). -/
  phyNext : Nat := 0
  mdio : List Nat := []
  sessions : Vector (Option Session) 32 := Vector.replicate 32 none
  setups : List Setup := []
  /-- Second and frames of ring 1's admission (R61). -/
  setupSec : Nat := 0
  setupCount : Nat := 0
  txn : Option Txn := none
  nextTxn : Nat := 1
  nextSched : Nat := 1
  /-- Elections (R58): the window's end and claims; the lease's end; the handover's successor, its timer's end, the
  successor's session identifier. -/
  windowEnd : Nat := 0
  claims : List Claimant := []
  leaseEnd : Nat := 0
  successor : Option (Fin 32 × Nat × Nat) := none
  persisting : Option Persisting := none
deriving DecidableEq, Repr

end Sys2Proof.Machine
end

