-- ==== Sys2Proof/Machine/State/Output.lean ====
section
/-! DEFINITION. The state of the output generators, the time-of-day outputs and the captures that no object holds.
Device times are exact rational numbers of 2^-16 ns; raw stamps are in 1/256 tick. -/

namespace Sys2Proof.Machine

/-- The measurement of an alignment (R169, R170). -/
structure Align where
  /-- Measuring, from the elapsed tick `since`; `first` until a continuous alignment has made its first update. -/
  on : Bool := false
  first : Bool := true
  since : Nat := 0
  /-- Elapsed tick and raw stamp of the edges since the commit, newest first. -/
  stamps : List (Nat × Nat) := []
  /-- The differences d of the block in progress, in ps times a rational. -/
  diffs : List Rat := []
deriving DecidableEq, Repr

/-- An output generator (R153-R170). -/
structure OutGen where
  /-- Function and loop the generator runs with; they differ from the objects until a change takes effect. -/
  fn : Nat := 0
  loop : Nat := 0
  /-- The device time of the next grid edge; a clock on DPLL-F has the raw stamp of its next rising edge instead. -/
  next : Option Rat := none
  nextRaw : Option Rat := none
  /-- A phase jump waits for the next grid instant; the edge after that instant, once the jump is taken. -/
  jump : Bool := false
  after : Option Rat := none
  /-- The raw stamp at which the active interval in progress ends; its device time but for a clock on DPLL-F (R162). -/
  activeUntil : Nat := 0
  activeEnd : Option Rat := none
  /-- The transitions of the pulse, phase or frame in progress: device time and whether the level after it is the active one
  (R154-R160). -/
  wave : List (Rat × Bool) := []
  /-- Raw stamp of the last grid edge and its conversion (R25). -/
  lastEdge : Nat × Int := (0, 0)
  /-- Start stamp of the last step segment that re-phased the output, and how many edges or indices it skipped (R164, R165). -/
  stepAt : Option (Nat × Nat) := none
  /-- R161 has released the output since the last cold reset: its pin is driven (R176). -/
  released : Bool := false
  /-- Start pulse: device time of index 0 and the next index (R160). -/
  base : Rat := 0
  index : Nat := 0
  /-- Continuous alignment still to be slewed in, 2^-16 ns (R170). -/
  slew : Rat := 0
  align : Align := {}
  /-- The timecode frame of the latest edge: bits of an LTC frame, elements of an IRIG-B frame (2 a marker). -/
  frame : List Nat := []
  /-- Pad sampling (R166): delays of the first 64 edges, edges in a row without a crossing, compensation in force, ps. -/
  padFirst : List Int := []
  padMiss : Nat := 0
  padComp : Int := 0
  /-- Elapsed tick of the last change of the compensation. -/
  padAt : Option Nat := none
deriving DecidableEq, Repr

/-- How a pin of the device is driven: not at all, or to a level. OUT and TODOUT pins that are not driven have a 50 kΩ
pull-down; a DOUT pair's drivers are off (R163, R176). -/
inductive PinDrive where
  | undriven
  | driven (high : Bool)
deriving DecidableEq, Repr

/-- A time-of-day output (R171, R172). -/
structure TodOut where
  /-- The labelled edge that awaits its frame: raw stamp and device time. -/
  edge : Option (Nat × Int) := none
  seq : Nat := 0
  /-- The last frame or sentence sent, the raw stamp at which its first start bit began, its rate in baud. -/
  sent : Bytes := []
  sentFrom : Option Nat := none
  sentBaud : Nat := 115200
deriving DecidableEq, Repr

/-- A capture unit (R173-R175). -/
structure Capture where
  /-- The level the glitch filter accepts, and the raw stamp of the last selected edge. -/
  level : Bool := false
  lastEdge : Option Nat := none
  /-- The stamp queue, oldest first: stamp and falling edge. -/
  queue : List (Nat × Bool) := []
  /-- Elapsed tick before which conversion is busy. -/
  busyUntil : Nat := 0
deriving DecidableEq, Repr

end Sys2Proof.Machine
end

