-- ==== Sys2Proof/Machine/State/Port.lean ====
section
/-! DEFINITION. The port domain's state (chapter 10): links, sentinels, calibration pairs, egress, the sideband. -/

namespace Sys2Proof.Machine

/-- What the program that emitted a frame does once the departure is fixed: the interleaved state of an NTP entry (R323:
index, rx_ntp, the request's transmit timestamp); the Follow_Up of a two-step Sync or Pdelay_Resp (R316: instance, headers,
message, class); the stamp of a Delay_Req or Pdelay_Req. -/
inductive After where
  | none
  | ntp (index rx : Nat) (org : Bytes)
  | follow (inst : Fin 4) (hdr msg : Bytes) (cls : Nat)
  | request (inst : Fin 4) (peer : Bool)
deriving DecidableEq, Repr

/-- A frame waiting for its departure (R244, R246, R269). -/
structure EFrame where
  /-- Order of R269: 0 calibration, 1 ring 128, 2 engine class 0 and timer events, 3 ring 130, 4 engine classes 1, 2. -/
  cls : Nat
  /-- The frame without FCS. -/
  data : Bytes
  /-- The egress descriptor's flags, insertion kind and offset (R267). -/
  flags : Nat := 0
  kind : Nat := 0
  offset : Nat := 0
  /-- Earliest departure tick; 0 as soon as R244 allows. -/
  notBefore : Nat := 0
  /-- The emitting engine, thread and the thread's serial number. -/
  owner : Option (Fin 8 × Fin 16 × Nat) := none
  /-- Sequence of a calibration frame (R241). -/
  cal : Option Nat := none
  /-- An ESMC PDU of the port itself (R254), which no ring holds. -/
  esmc : Bool := false
  after : After := .none
  /-- Byte offset in the packet buffer. -/
  buffer : Nat := 0
  /-- The descriptor's sequence on its egress ring (R267). -/
  seq : Nat := 0
deriving DecidableEq, Repr

/-- A frame whose departure is fixed (R244): D, the stamp, and the terms the check of R248 recomputes it from. -/
structure Fixed where
  frame : EFrame
  depart : Nat
  stamp : Nat
  /-- Its device time, kept with it (R25, R238). -/
  time : Int
  /-- The predicted word edge and what is added to it, ticks; predicted by the transmit fit. -/
  edge : Rat
  rest : Rat
  fitted : Bool := true
  /-- The fields the insertion writes: offset and bytes (R246). -/
  ins : List (Nat × Bytes) := []
deriving DecidableEq, Repr

/-- A calibration exchange and the pair's results (R241-R243); held at the lower-numbered port of the pair. -/
structure CalPair where
  seq : Nat := 0
  /-- The exchange is open; which side has sent. -/
  isOpen : Bool := false
  sentLo : Bool := false
  sentHi : Bool := false
  t1 : Option Nat := none
  t2 : Option Nat := none
  t3 : Option Nat := none
  t4 : Option Nat := none
  /-- The last complete exchanges, newest first: t2 - t1 and t4 - t3 in 1/256 tick, a the lower-numbered port. -/
  done : List (Int × Int) := []
deriving DecidableEq, Repr

/-- A port unit. -/
structure PortUnit where
  /-- Resolved mode and FEC of the previous link-up (R229). -/
  lastMode : Option (Nat × Nat) := none
  /-- The next link-up is a speed change (R229, R252). -/
  newLink : Bool := false
  /-- PTP sends nothing until both sentinels lock (R252). -/
  ptpHold : Bool := false
  /-- The highest mode the governor advertises; none: bounded by port_speed alone (R251). -/
  govCap : Option Nat := none
  govAt : Option Nat := none
  govNext : Nat := 0
  /-- Octets of line time since the last evaluation, and per past second, newest first: received, transmitted. -/
  rxOct : Nat := 0
  txOct : Nat := 0
  govHist : List (Nat × Nat) := []
  /-- Clause 73 resolved Energy-Efficient Ethernet (R253). -/
  eee : Bool := false
  /-- Unit interval measured by the sentinels, and the fitted raw time of the first edge of the fit, ticks (R239). -/
  rxUi : Rat := 0
  txUi : Rat := 0
  rxEdge : Rat := 0
  txEdge : Rat := 0
  /-- The raw stamp at which each sentinel began to acquire, and of its latest fit in ticks; the counts of the fit's first
  word and of the word in which its marker crosses (R239, R247). -/
  rxSince : Nat := 0
  txSince : Nat := 0
  rxFitAt : Rat := 0
  txFitAt : Rat := 0
  rxWord : Nat := 0
  txWord : Nat := 0
  rxMarker : Nat := 0
  txMarker : Nat := 0
  /-- Elapsed tick since which the port has been a group member, its counters idle (R228). -/
  frozen : Option Nat := none
  egress : List EFrame := []
  fixed : List Fixed := []
  /-- The first tick free for the next departure (R244). -/
  lineFree : Nat := 0
  /-- Elapsed tick at which a frame was last fixed; entry into low-power idle; its part of a millisecond (R253). -/
  lastFix : Nat := 0
  lpi : Option Nat := none
  lpiRest : Nat := 0
  mispredictAt : Option Nat := none
  cal : CalPair := {}
  calNext : Nat := 0
  esmcNext : Nat := 0
  /-- The last ESMC PDU sent: code, event PDU (R254). -/
  esmcSent : Option (Nat × Bool) := none
  /-- Frames discarded while the MAC is in reset, held for rx_filtered (R258, R405). -/
  held : Nat := 0
  /-- The latest frame sent, with the insertions made (R246, R249). -/
  wire : Bytes := []
deriving DecidableEq, Repr

/-- The module sideband chains (R256, R257): masks, bit n for port n. -/
structure Sideband where
  next : Nat := 0
  /-- Elapsed tick at which the latest scan began. -/
  scanAt : Nat := 0
  rawAbsent : Nat := 0
  rawLoss : Nat := 0
  rawFault : Nat := 0
  /-- In effect: absent, loss, fault. -/
  absent : Nat := 0
  loss : Nat := 0
  fault : Nat := 0
  /-- Shifted into the output chain; latched at its outputs. -/
  shifted : Nat := 0
  latched : Nat := 0
  anyScan : Bool := false
deriving DecidableEq, Repr

end Sys2Proof.Machine
end

