-- ==== Sys2Proof/Machine/State/Ptp.lean ====
section
/-! DEFINITION. The protocols' state (chapter 13): PTP instances, NTS keys and NTS-KE connections. -/

namespace Sys2Proof.Machine

/-- What an Announce message carries (IEEE 1588-2019; R311, R315). -/
structure AnnData where
  prio1 : Nat
  cls : Nat
  acc : Nat
  var : Nat
  prio2 : Nat
  gm : Bytes
  steps : Nat
  sender : Bytes
  timeSource : Nat
  utc : Int
  flags : Nat
deriving DecidableEq, Repr

/-- A foreign time transmitter heard on a port: its latest Announce, the elapsed ticks at which the latest ones arrived, and
its unicast address where it announces to one: the address flags and bytes of R273. -/
structure Foreign where
  data : AnnData
  times : List Nat
  address : Option (Nat × Bytes) := none
deriving DecidableEq, Repr

/-- A member port of an instance. -/
structure PtpPort where
  foreign : List Foreign := []
  /-- Elapsed tick at which announceReceiptTimeout expires. -/
  timeoutAt : Option Nat := none
  /-- Elapsed tick at which PRE_TIME_TRANSMITTER ends (R311). -/
  qualifyAt : Option Nat := none
  announceSeq : Nat := 0
  syncSeq : Nat := 0
  reqSeq : Nat := 0
  reqNext : Nat := 0
  pdelaySeq : Nat := 0
  pdelayNext : Nat := 0
  /-- Consecutive complete peer-delay exchanges with the neighbor rate ratio within 200 ppm; the mean link or path delay,
  2^-16 ns, and whether one has been measured on the present link. -/
  pdelayGood : Nat := 0
  linkDelay : Int := 0
  delayKnown : Bool := false
  /-- A speed change: a peer-delay port answers no Pdelay_Req before the mean link delay is valid again (R252). -/
  relearn : Bool := false
  /-- Exchange in progress, 2^-16 ns: own Pdelay_Req sent, response's t2, its reception t4; the previous t3, t4. -/
  pd1 : Option Int := none
  pd24 : Option (Int × Int) := none
  pdPrev : Option (Int × Int) := none
  /-- A two-step Sync whose Follow_Up is awaited: sequence, reception, raw stamp, correction; own Delay_Req sent; t2 − t1. -/
  sync : Option (Nat × Int × Nat × Int) := none
  dl3 : Option Int := none
  t2t1 : Option Int := none
  managementSeq : Nat := 0
  smNext : Nat := 0
deriving DecidableEq, Repr

/-- A unicast request of a time-receiver: master, message type, elapsed tick of the next request (R318). -/
structure Renewal where
  master : Nat
  message : Nat
  due : Nat
deriving DecidableEq, Repr

/-- A PTP instance (R310). -/
structure PtpInst where
  /-- The member ports that differ from the initial state, by rising number. -/
  ports : List (Nat × PtpPort) := []
  parent : Option AnnData := none
  /-- The parent's unicast address, where it announces to one. -/
  parentAt : Option (Nat × Bytes) := none
  renewals : List Renewal := []
  signalSeq : Nat := 0
  icvSec : Option Nat := none
deriving DecidableEq, Repr

/-- An NTS-KE connection (R329). -/
structure KeConn where
  id : Nat
  lastAt : Nat
deriving DecidableEq, Repr

/-- What the latest NTS-KE exchange answered (R329): its connection, the TLS alert that ended it, the suite, group and
signature chosen, the NTS-KE records sent. -/
structure KeReply where
  conn : Nat
  alert : Option Nat := none
  suite : Nat := 0
  group : Nat := 0
  signature : Bytes := []
  records : Bytes := []
deriving DecidableEq, Repr

/-- NTP, PTP and NTS state. -/
structure Protocols where
  insts : Vector PtpInst 4 := Vector.replicate 4 {}
  /-- The master key cookies are sealed under now; those of the accepted keys before it (R328). -/
  master : Bytes := []
  /-- Until the next key boundary, the keys of boundary indices before `masterFrom` derive from `masterOld`. -/
  masterOld : Bytes := []
  masterFrom : Option Nat := none
  /-- Open NTS-KE connections and the latest answer. -/
  keConns : List KeConn := []
  keOut : Option KeReply := none
  keFailSec : Option Nat := none
  /-- Boundary index of the current cookie key. -/
  keyIndex : Option Nat := none
deriving DecidableEq, Repr

end Sys2Proof.Machine
end

