-- ==== Sys2Proof/Machine/State/Security.lean ====
section
/-! DEFINITION. Security state (chapter 15): key RAM, the debug challenge, withheld signatures, JTAG. -/

namespace Sys2Proof.Machine

/-- The instructions of the test access port (R361). -/
inductive Jtag where
  | bypass | idcode | samplePreload | extest
deriving DecidableEq, Repr

structure Security where
  /-- Key RAM slots 0, 1 and 11-47 that hold a key, by rising number (R350); a slot not listed is zero. -/
  keySlots : List (Nat × Bytes) := []
  /-- The cookie keys of slots 2-10 are derived. -/
  cookieKeys : Bool := false
  /-- The storage cipher is disabled by a full debug unlock, or has no key (R348, R362). -/
  storageOff : Bool := false
  /-- The pending debug challenge and the elapsed tick it was created at. -/
  challenge : Option (Bytes × Nat) := none
  /-- Elapsed ticks of withheld signatures in the last 60 s (R341); seconds of the last journalled invalid point. -/
  withheld : List Nat := []
  pointSec : Option Nat := none
  /-- The JTAG instruction selected. -/
  jtag : Jtag := .idcode
deriving DecidableEq, Repr

end Sys2Proof.Machine
end

