-- ==== Sys2Proof/Machine/State/Serve.lean ====
section
/-! DEFINITION. The serve domain's state (chapters 11 and 12): the packet buffer's queues and rings, engines and
threads, AES jobs, the client table, the sketch, the timer wheel, programs. -/

namespace Sys2Proof.Machine

/-- A frame in the packet buffer, with what the port and the classifier front found (R260, R294). -/
structure Pkt where
  /-- Byte offset in the packet buffer. -/
  buffer : Nat := 0
  /-- The frame without FCS. -/
  data : Bytes := []
  /-- 0-63; 0xFF the management port. -/
  port : Nat := 0
  /-- Receive raw stamp; 0 for the management port. -/
  stamp : Nat := 0
  /-- Its device time, converted at reception and kept with it (R25, R238), 2^-16 ns. -/
  time : Int := 0
  uncal : Bool := false
  tagged : Bool := false
  vid : Nat := 0
  v6 : Bool := false
  /-- Offsets of the network, transport and payload headers; 0xFFFF none. -/
  l3 : Nat := 0xFFFF
  l4 : Nat := 0xFFFF
  payload : Nat := 0xFFFF
  /-- The entry of the perfect-match filter it matched (R230). -/
  filter : Option Nat := none
  rule : Nat := 0xFF
  entry : Nat := 0
  cls : Nat := 0
  bucket : Nat := 0
  /-- It waited in a class queue while its engine pair was being reset: queue_age_limit does not apply (R390). -/
  ageless : Bool := false
deriving DecidableEq, Repr

/-- What a thread takes from a class queue: a frame, or a timer event of a client entry (R277): entry index, message
(1 Sync, 2 Announce), bucket, raw stamp of its slot. -/
inductive Work where
  | frame (p : Pkt)
  | timer (index message bucket due : Nat)
  /-- A timer event of a multicast port: instance, port, message, raw stamp of its slot. -/
  | port (inst port message due : Nat)
deriving DecidableEq, Repr

/-- A descriptor on an ingress ring with its frame (R267). -/
structure RingItem where
  pkt : Pkt
  reason : Nat
  code : Nat := 0
  engine : Nat := 0xFF
  client : Nat := 0xFFFFFFFF
  seq : Nat
deriving DecidableEq, Repr

/-- An ingress ring 2-127 (R268): descriptors waiting, oldest first; the next sequence; the latest 64 that
entered, oldest first. -/
structure Ring where
  items : List RingItem := []
  seq : Nat := 0
  tap : List RingItem := []
deriving DecidableEq, Repr

/-- An AES job (R270, R303): its thread and tag, its result and where it goes. -/
structure AesJob where
  engine : Fin 8
  thread : Fin 16
  serial : Nat
  tag : Nat
  blocks : Nat
  out : Nat
  result : Bytes
  status : Nat
deriving DecidableEq, Repr

/-- What a thread that is not ready waits for (R264). -/
inductive Wait where
  | none
  /-- clook (take T) or ccreate: destination register, kind, instance, elapsed tick of issue. -/
  | lookup (create : Bool) (dest kind inst : Nat) (take : Bool) (since : Nat)
  | aes (dest tag : Nat)
  | emit
  /-- rand while the random-number source has no bits ready (R303): destination register. -/
  | rand (dest : Nat)
  /-- The look-up of a built-in program (R281 step 6), elapsed tick of issue. -/
  | builtin (since : Nat)
deriving DecidableEq, Repr

/-- A serve engine thread (R290, R291). -/
structure Thread where
  busy : Bool := false
  /-- The model's own: the thread's number among all thread starts. -/
  serial : Nat := 0
  work : Work := .frame {}
  entry : Nat := 0
  pc : Nat := 0
  regs : Vector Word64 32 := Vector.replicate 32 0
  /-- The 1024 window bytes of R293. -/
  win : Bytes := []
  stack : List Nat := []
  /-- Instructions issued. -/
  issued : Nat := 0
  /-- Index of the client entry loaded last, which cwrite writes; the further entries held until the thread ends (R302). -/
  held : Option Nat := none
  also : List Nat := []
  /-- Program counters the thread has incremented, which a warm reset that discards it loses (R306). -/
  incs : List (Nat × Nat) := []
  /-- Its held entry lay in a tile that failed: its cwrite is discarded (R372). -/
  heldLost : Bool := false
  /-- Frames emitted; how many were answered with status 2; how many wait for their departure. -/
  emits : Nat := 0
  refused : Nat := 0
  /-- Tags of outstanding AES jobs; the status of those complete and not yet waited for. -/
  jobs : List Nat := []
  doneJobs : List (Nat × Nat) := []
  wait : Wait := .none
  /-- A clook, ccreate, sketch or aesq was issued (R418). -/
  worked : Bool := false
  /-- The longest wait: address, elapsed ticks; the address and start of the present one (R421). -/
  waitMax : Option (Nat × Nat) := none
  waitFrom : Nat × Nat := (0, 0)
  /-- Elapsed tick of the start. -/
  startedAt : Nat := 0
deriving DecidableEq, Repr

/-- A thread that has ended and whose sample record waits for the departure of its last emit (R420). -/
structure EndedThread where
  serial : Nat
  endPc : Nat
  endKind : Nat
  waitPc : Nat
  waitTicks : Nat
  entry : Nat
  timer : Bool
  interval : Bool
  wasted : Bool
  emits : Nat
  refused : Nat
  thread : Nat
  buffer : Nat
  client : Nat
  since : Nat
  issued : Nat
deriving DecidableEq, Repr

/-- A serve engine. -/
structure Engine where
  threads : Vector Thread 16 := Vector.replicate 16 {}
  /-- The class queues (R263), oldest first. -/
  queues : Vector (List Work) 3 := Vector.replicate 3 []
  /-- Starts taken in the present round from classes 1 and 2 (R264). -/
  round1 : Nat := 0
  round2 : Nat := 0
  /-- Second of the last journalled discard, its discards and those of the second before, per class (R263). -/
  dropSec : Vector (Option Nat) 3 := Vector.replicate 3 none
  dropCount : Vector (Nat × Nat) 3 := Vector.replicate 3 (0, 0)
  /-- Seconds of the last journalled fault and limit stop (R264, R307). -/
  faultSec : Option Nat := none
  limitSec : Option Nat := none
  /-- Instructions issued since the last demand measurement (R283). -/
  demand : Nat := 0
  /-- Requests answered in the present second, for STEEP (R74). -/
  steepSec : Nat := 0
  steepCount : Nat := 0
  /-- Threads ended since the last interval sample; sample records, newest first; records since the last clear. -/
  sinceSample : Nat := 0
  samples : List Bytes := []
  sampleCount : Nat := 0
  ended : List EndedThread := []
deriving DecidableEq, Repr

/-- An engine pair (R283): 0 gated, 1 waking, 2 active; idle since; waking until. -/
structure Pair where
  state : Nat := 0
  idleAt : Nat := 0
  wakeAt : Nat := 0
deriving DecidableEq, Repr

/-- A line of the client cache (R274). -/
structure CacheLine where
  index : Nat
  data : Bytes
  /-- Elapsed tick of the latest update not yet written back. -/
  dirty : Option Nat := none
deriving DecidableEq, Repr

/-- The client table unit. -/
structure ClientTable where
  /-- Entries in DRAM by rising index: 8 per bucket, 64 bytes each (R272, R273). -/
  dram : List (Nat × Bytes) := []
  /-- The cache, most recently used first. -/
  cache : List CacheLine := []
  /-- Second of the creations counted, and their number (R275). -/
  createSec : Nat := 0
  created : Nat := 0
  sweepNext : Nat := 0
  /-- Initialised at bring-up step 10. -/
  ready : Bool := false
  /-- Counters of the sketch that are not 0, by rising row * 65536 + column (R280). -/
  sketch : List (Nat × Nat) := []
  sketchNext : Nat := 0
  sketchSec : Option Nat := none
  /-- Next slot of the timer wheel, in 1/1024 s of device time since the epoch (R277). -/
  wheel : Nat := 0
  /-- Slots whose entries lay in a wheel tile that failed, until the next sweep (R371). -/
  badSlots : List Nat := []
deriving DecidableEq, Repr

/-- Programs (R284-R286). -/
structure Programs where
  /-- Region B as loaded: instructions from address 10,240; entries 8-15. -/
  regionB : List Word64 := []
  entries : List Nat := []
  /-- The active image's bytes, kept in DRAM; the one stored with the configuration set. -/
  active : Option Bytes := none
  /-- The program_staging window. -/
  staging : Bytes := []
  /-- A check is running on these bytes. -/
  checking : Bool := false
  /-- The image that passed; the one an accepted activation loads. -/
  verified : Option Bytes := none
  activating : Option Bytes := none
  /-- Activation is due at this elapsed tick, by 50 us later; engines take no frames. -/
  activateAt : Option Nat := none
  persistIt : Bool := false
  /-- Raw ticks of the latest activation's begin and end: frames stamped between are not checked against age. -/
  noAge : Nat × Nat := (0, 0)
  /-- Region A is loaded. -/
  loadedA : Bool := false
deriving DecidableEq, Repr

/-- The serve domain. -/
structure Serve where
  engines : Vector Engine 8 := Vector.replicate 8 {}
  /-- At reset one pair is awake (active_pairs). -/
  pairs : Vector Pair 4 := #v[{ state := 2 }, {}, {}, {}]
  /-- Pairs to keep (R283) and buckets' target engines while they move; frames waiting for a move. -/
  keepPairs : Nat := 1
  moving : List Work := []
  demandNext : Nat := 0
  /-- Rings 2-127 that hold anything or have a sequence, by number. -/
  rings : List (Nat × Ring) := []
  /-- Next place in the packet buffer. -/
  bufNext : Nat := 0
  /-- Egress rings 128 and 130 wait in each port's egress (R269); ring 129 holds what waits for the management port while
  serving is stopped (R282). The next sequence of each of the three (R267). -/
  ring129 : List EFrame := []
  seq128 : Nat := 0
  seq129 : Nat := 0
  seq130 : Nat := 0
  jobs : List AesJob := []
  serial : Nat := 0
  ct : ClientTable := {}
  prog : Programs := {}
  /-- QUIETn level and the elapsed tick of its last rise; serving stopped (R282). -/
  quietLow : Bool := false
  quietHighAt : Option Nat := none
  stopped : Bool := false
  esmcQuietUntil : Nat := 0
deriving DecidableEq, Repr

end Sys2Proof.Machine
end

