-- ==== Sys2Proof/Machine/State/Sky.lean ====
section
/-! DEFINITION. The state of the sky domain that no object holds (chapters 8 and 9): trackers and channels, notches,
the orbit store, observations, the timing solution, snapshots. -/

namespace Sys2Proof.Machine

/-- Channel and tracker states (R199). -/
inductive TrkState where
  | idle | search | pullIn | track | sync | ready | reacq
deriving DecidableEq, Repr

/-- What the correlators and loops of a tracker hold (R198). -/
structure Replica where
  /-- The grid sample (R179) at which the values below hold. -/
  sample : Nat := 0
  /-- Code phase of the prompt replica since the start of a primary code period, 2^-32 chip; it does not wrap. -/
  code : Int := 0
  /-- Doppler of the carrier replica, 2^-16 mHz, positive when approaching. -/
  freq : Int := 0
  /-- Carrier phase phi, 2^-32 cycle: it increases as range increases (R204). -/
  phase : Int := 0
  /-- Memories of the code loop's and the carrier loop's filters. -/
  codeMem : Int := 0
  carMem : Int := 0
  /-- The last prompt sum, for the frequency-locked loop of PULL_IN. -/
  last : Option (Int × Int) := none
  /-- The BOC side-peak check: power of the very early, prompt and very late taps over the running 20 ms sum and its ms;
  sums in a row in which very early, and very late, power exceeded prompt power. -/
  sideEarly : Nat := 0
  sidePrompt : Nat := 0
  sideLate : Nat := 0
  sideMs : Nat := 0
  earlySums : Nat := 0
  lateSums : Nat := 0
  /-- Prompt and noise power over the running second, and its ms. -/
  promptPow : Nat := 0
  noisePow : Nat := 0
  powMs : Nat := 0
  /-- A whole second has been summed. -/
  second : Bool := false
  /-- The phase lock indicator, over 2^16 (R199). -/
  indicator : Int := 0
  /-- ms for which the indicator stayed at or above 0.8 with C/N0 at or above 20 dB-Hz; ms for which the indicator stayed
  below 0.5 or C/N0 below 20 dB-Hz. -/
  goodMs : Nat := 0
  weakMs : Nat := 0
  /-- Nominal-TAI transmit time of code phase 0, 2^-16 ns, once resolved (R186, R200). -/
  origin : Option Int := none
deriving DecidableEq, Repr

/-- One tracker (R198, R199). -/
structure Tracker where
  st : TrkState := .idle
  signal : Nat := 0
  /-- Elapsed tick of the entry to the state. -/
  since : Nat := 0
  /-- Search stage B (R191). -/
  stageB : Bool := false
  /-- C/N0, 0.01 dB-Hz, and its values of the last 60 s by elapsed tick, newest first. -/
  cn0 : Nat := 0
  cn0Hist : List (Nat × Nat) := []
  /-- Carrier lock and the elapsed tick it began; restarted since the previous epoch. -/
  carrier : Bool := false
  lockSince : Nat := 0
  restarted : Bool := false
  /-- Transmit time resolved by aiding (R200). -/
  aided : Bool := false
  /-- The symbols and the pilot's secondary code are in sync (R198, R199). -/
  sync : Bool := false
  /-- Doppler at the latest epoch, mHz. -/
  dop : Int := 0
  rep : Replica := {}
deriving DecidableEq, Repr

/-- One channel (R186, R197, R211, R217). -/
structure Channel where
  /-- Satellite ID, 0 none. -/
  sat : Nat := 0
  predicted : Bool := false
  trk : Vector Tracker 2 := Vector.replicate 2 {}
  /-- A predicted satellite not found on band 0 is searched on band 1 first (R192). -/
  band1First : Bool := false
  elev : Int := 0
  azim : Int := 0
  /-- Elapsed tick of the last journalled check failure (R201). -/
  lastBad : Option Nat := none
  /-- Excluded since an elapsed tick; epochs in a row whose predicted residual stayed within 3 sigma (R217). -/
  excluded : Option Nat := none
  good : Nat := 0
  /-- Carrier smoothing (R211): n, smoothed q, last L, in 2^-16 ns. -/
  smoothN : Nat := 0
  smoothQ : Rat := 0
  smoothL : Rat := 0
deriving DecidableEq, Repr

/-- One notch (R187): frequency in Hz, power over the median in 0.01 dB. -/
structure Notch where
  freq : Option Int := none
  level : Nat := 0
  /-- Elapsed tick since which the interferer has stayed 3 dB below the threshold. -/
  lowSince : Option Nat := none
deriving DecidableEq, Repr

/-- A change of a band's notch coefficients (R188): the sample from which they hold, the zeros in Hz in the samples, the
−3 dB width in Hz. -/
structure NotchChange where
  sample : Nat
  zeros : List Int
  width : Nat
deriving DecidableEq, Repr

/-- The sample clock of a band (R180): stopped and low; running from a grid sample's rising edge; stopping after the low
phase of a last sample. -/
inductive SampleClock where
  | low | runs (first : Nat) | ends (first last : Nat)
deriving DecidableEq, Repr

/-- One band (R180-R188, R218). -/
structure Band where
  clock : SampleClock := .low
  /-- A script waits to be sent (R183); the records of the script last sent: the bytes put on FESPI_MOSI. -/
  scriptDue : Bool := false
  sent : List Bytes := []
  notches : Vector Notch 4 := Vector.replicate 4 {}
  /-- Lines seen in consecutive scans: frequency, scans, level. -/
  lines : List (Int × Nat × Nat) := []
  /-- Samples are unused until an elapsed tick, after a script (R183); the tick at which the script was begun. -/
  settle : Option (Nat × Nat) := none
  /-- Elapsed tick from which the samples have been used without a break, or will be (R180, R183). -/
  usedFrom : Nat := 0
  /-- The changes of notch coefficients (R188), newest first. -/
  changes : List NotchChange := []
  /-- Elapsed tick of the last evaluation of the band monitor (R182). -/
  monitoredAt : Nat := 0
  /-- Elapsed tick of the last scan (R187). -/
  scannedAt : Nat := 0
  /-- band_power of evaluations without an alarm over 24 h: elapsed tick and power (R218). -/
  quiet : List (Nat × Int) := []
  /-- Mean C/N0 of the band's READY trackers at the evaluations of the last 60 s, newest first. -/
  meanCn0 : List (Nat × Int) := []
deriving DecidableEq, Repr

/-- An observation record (R204, R205). -/
structure SkyRec where
  channel : Fin 256
  band : Fin 2
  sat : Nat
  signal : Nat
  st : TrkState
  flags : Nat
  tau : Int
  p : Int
  phi : Int
  dop : Int
  cn0 : Nat
  lockMs : Nat
  dNotch : Int
deriving DecidableEq, Repr

/-- The header of the observation window (R205). -/
structure SkyEpoch where
  seq : Nat := 0
  raw : Nat := 0
  time : Int := 0
  segSeq : Nat := 0
  flags : Nat := 0
  /-- The grid instant E of the epoch, 2^-16 ns. -/
  grid : Int := 0
deriving DecidableEq, Repr

/-- One record of the solution window (0x8316). -/
structure SolRec where
  sat : Nat
  channel : Fin 256
  used : Bool
  excluded : Bool
  dual : Bool
  smoothed : Bool
  /-- ps. -/
  residual : Int
  sigma : Nat
  elev : Int
deriving DecidableEq, Repr

/-- The solution header (0x8316). -/
structure Sol where
  seq : Nat := 0
  mode : Nat := 0
  state : Nat := 0
  used : Nat := 0
  eps : Int := 0
  sigma : Nat := 0
  biases : List Int := []
  recs : List SolRec := []
deriving DecidableEq, Repr

/-- The UTC parameters of a system (R202): TAI − UTC in s, the schedule (leap_time in TAI s, leap_delta), the offset of
system time from the broadcast UTC realisation in 2^-16 ns. -/
structure SkyUtc where
  offset : Int
  sched : Option (Int × Int)
  delta : Int
deriving DecidableEq, Repr

/-- Where a snapshot request comes from (R221). -/
inductive GristFrom where
  | steep | verify | owner (solve : Bool)
deriving DecidableEq, Repr

/-- The Grist snapshot unit (R221-R225). -/
structure Grist where
  /-- The request in progress and the elapsed tick it took effect. -/
  req : Option (GristFrom × Nat) := none
  /-- n0 and the device time and segment sequence at the first sample. -/
  n0 : Nat := 0
  firstTime : Int := 0
  segSeq : Nat := 0
  flags : Nat := 0
  /-- Bands with a script sent during the capture, as a mask. -/
  scripted : Nat := 0
  length : Nat := 0
  /-- Bytes 40 to 95 of the header, as taken at the first sample. -/
  format : Bytes := []
  /-- The header and the samples (R223), once a capture is complete. -/
  header : Bytes := []
  samples : Bytes := []
  /-- The latest fix: time of first_raw (2^-16 ns), uncertainty (ns), first_raw. -/
  fix : Option (Int × Int × Nat) := none
deriving DecidableEq, Repr

/-- The sky domain. -/
structure Sky where
  channels : Vector Channel 256 := Vector.replicate 256 {}
  bands : Vector Band 2 := Vector.replicate 2 {}
  /-- Elapsed tick since which ANTSHORT turned the supply off. -/
  antShortAt : Option Nat := none
  antEn : Bool := false
  /-- The orbit store: position and 128-byte record, positions rising, no empty record (R194). -/
  orbit : List (Nat × Bytes) := []
  /-- Satellites and signal codes that the latest broadcast health marks unusable (R197). -/
  unhealthy : List (Nat × Nat) := []
  /-- Decoded UTC parameters and inter-system offsets of systems 1 to 4. -/
  utc : Vector (Option SkyUtc) 4 := Vector.replicate 4 none
  isb : Vector (Option Int) 4 := Vector.replicate 4 none
  utcDisagree : Bool := false
  /-- Elapsed tick until which the acquisition engine works on the stages completed so far (R191). -/
  engine : Nat := 0
  /-- Elapsed tick and raw stamp at which the domain woke or the slot was enabled (R193). -/
  startAt : Nat := 0
  startStamp : Nat := 0
  /-- An epoch with 4 channels READY has occurred since the wake (R203). -/
  firstFix : Bool := false
  /-- The orbit store has been restored since the cold reset (R196). -/
  restored : Bool := false
  /-- Elapsed tick of the store's last write to, or restoration from, the boot flash (R196). -/
  persistedAt : Nat := 0
  /-- The last epoch_sequence used since the cold reset. -/
  seq : Nat := 0
  epoch : Option SkyEpoch := none
  recs : List SkyRec := []
  /-- The epoch's solution has been made. -/
  solved : Bool := true
  sol : Sol := {}
  /-- The last epoch failed under R216; the reference fallback of R212; an unconfirmed orbit record was used. -/
  failed : Bool := false
  fallback : Bool := false
  unconfirmed : Bool := false
  /-- ε of the previous epoch with its raw stamp (R218). -/
  lastEps : Option (Int × Nat) := none
  /-- Epochs in a row with a C/N0 spread below the limit; elapsed tick since which the cross-check has failed. -/
  uniform : Nat := 0
  xcheckSince : Option Nat := none
  /-- Elapsed tick since which each indicator's condition has been false. -/
  clearSince : Vector (Option Nat) 8 := Vector.replicate 8 none
  /-- The clock jump detector's condition at the latest epoch. -/
  jump : Bool := false
  /-- Satellites without a channel that are excluded, with the elapsed tick of the exclusion (R217). -/
  outcasts : List (Nat × Nat) := []
  /-- A held position exists; the survey: start tick, positions of the epochs averaged (mm). -/
  held : Bool := false
  surveySince : Option Nat := none
  survey : List (Int × Int × Int) := []
  /-- Consecutive departing fixes, the position alarm (R215). -/
  departs : Nat := 0
  /-- The position last fitted as an unknown (R212). -/
  fitted : Option (Int × Int × Int) := none
  /-- Elapsed tick of the last navigation fix (R215). -/
  fixedAt : Nat := 0
  posAlarm : Bool := false
  /-- The matching row of R220 at the last evaluation. -/
  row : Nat := 1
  grist : Grist := {}
deriving DecidableEq, Repr

end Sys2Proof.Machine
end

