-- ==== Sys2Proof/Machine/State/System.lean ====
section
/-! DEFINITION. The reset controller's state (chapter 17), firmware activation (R79), the watchdog. -/

namespace Sys2Proof.Machine

/-- A block reset in progress (R390): block code, force flag, elapsed tick of the request; the session and the request its response goes
to. Its target and force flag stay staged, invisible to reads (R44): the commit has not taken effect. -/
structure BlockReq where
  code : Nat
  force : Bool
  since : Nat
  session : Option (Fin 32) := none
  /-- The session's identifier. -/
  sid : Nat := 0
  seq : Nat := 0
  opcode : Nat := 0
  /-- Items of a single-frame WRITE, whose statuses the response carries. -/
  items : Nat := 0
  path : Path := .spi
  hdr : Bytes := []
  /-- The generation a conditional commit expects (R46). -/
  expected : Option Nat := none
  /-- The oldest AES jobs that were running at the request and still are. -/
  aes : Nat := 0
deriving DecidableEq, Repr

structure System where
  /-- A reset is asserted: 1 power-on, 2 cold, 3 warm (R384). -/
  scope : Option Nat := none
  /-- Elapsed tick of its assertion, and until which its sources hold it. -/
  assertedAt : Nat := 0
  holdUntil : Nat := 0
  rstnLow : Bool := false
  wrstnLow : Bool := false
  /-- The last bring-up step of R71 reached; 1 at release. -/
  step : Nat := 1
  releasedAt : Nat := 0
  /-- The controller runs on the keep clock; elapsed ticks since when the oscillator runs without a break (none: it does
  not) and since when the rails are good. -/
  keepClock : Bool := false
  oscSince : Option Nat := some 0
  mainSince : Nat := 0
  trimHold : Bool := false
  imageHold : Bool := false
  /-- Warm release: its elapsed tick and the last step of R388 done; journal entry of the restart due. -/
  warmAt : Option Nat := none
  warmStage : Nat := 0
  /-- Elapsed tick at which serving resumed after a warm release. -/
  servedAt : Option Nat := none
  block : Option BlockReq := none
  /-- Elapsed tick of the watchdog's last service; of warm-watchdog resets in the last 600 s; of the release of one. -/
  wdAt : Nat := 0
  wdWarm : List Nat := []
  wdRelease : Option Nat := none
  /-- A commanded reset: scope and due tick (R392). -/
  cmd : Option (Nat × Nat) := none
  /-- A firmware activation runs since this elapsed tick. -/
  activation : Option Nat := none
  /-- A reset cause, a tamper assertion, a trial reversion, a fatal mismatch wait for the journal of the next start. -/
  notes : List (Nat × Nat × Bytes) := []
  /-- Generation of a persisted write a warm reset abandoned (R394); a write a cold reset or a loss of supply broke off
  (R51). -/
  abandoned : Option Nat := none
  persistLost : Bool := false
  /-- The DRAM clock's depth since the last cold reset, 0.01 % (R31). -/
  sscDram : Nat := 0
  warned : Bool := false
  /-- Domains released from reset whose crossings resynchronise, and the crossings that have (R404). -/
  resync : List Nat := []
  /-- Those of them of which only a unit was reset (R390, R258). -/
  parts : List Nat := []
  resynced : List Nat := []
  /-- The keep island is powered. -/
  keepPowered : Bool := true
deriving DecidableEq, Repr

end Sys2Proof.Machine
end

