-- ==== Sys2Proof/Machine/State/Time.lean ====
section
/-! DEFINITION. The state of the keep island and the time domain that no object holds: segments, the journal, modes,
status pins, reference slots, selections, loops, the holdover estimator. Units: raw stamps in 1/256 tick, device
times in 2^-16 ns, frequency terms in 10^-18, elapsed ticks of 0.8 ns. -/

namespace Sys2Proof.Machine

/-- A segment (R87); `start` is a raw stamp, `time` device time in 2^-16 ns, `rate` in 2^-60; `cause` as R105. -/
structure Segment where
  seq : Nat := 0
  start : Nat := 0
  time : Int := 0
  rate : Int := 0
  valid : Bool := false
  step : Bool := false
  cause : Nat := 0
deriving DecidableEq, Repr

/-- What a merged segment request adds to the rate (R91, R93), amounts in 2^-16 ns: nothing (with the mark of a
steering change), a seed (amount added to the running conversion, source as 0x1010.05, uncertainty in ns, slot), the
withdrawal of the seed, a first step, an owner step with the owner's session. -/
inductive SegKind where
  | rate (steering : Bool)
  | seed (amount : Int) (source : Nat) (unc : Int) (slot : Nat)
  | withdraw
  | firstStep (amount : Int) (slot : Nat)
  | ownerStep (amount : Int) (session : Nat)
deriving DecidableEq, Repr

/-- A segment request that waits for the spacing of R89: the most recent rate and the pending step (R91). -/
structure SegRequest where
  rate : Int
  kind : SegKind
deriving DecidableEq, Repr

/-- An owner step whose segment is fixed ahead of its scheduled commit (R91, R245): the commit, the request that waited before,
what the timebase does when the commit takes effect. -/
structure StepReserve where
  id : Nat
  before : Option SegRequest
  kind : SegKind
deriving DecidableEq, Repr

/-- The timebase (R85-R96). -/
structure Timebase where
  /-- The tick clock is locked and the raw counter runs. -/
  running : Bool := false
  /-- The raw counter in ticks. -/
  raw : Nat := 0
  /-- The segment in force and the older ones, newest first, at most 32 (R105). -/
  segs : List Segment := [{}]
  /-- The segment fixed, or issued too, and not yet started (R89, R245). -/
  issued : Option Segment := none
  /-- The raw tick at which it is issued: until then only the transmit paths hold it (R245). -/
  issueTick : Nat := 0
  /-- The scheduled owner step it carries, until the commit takes effect (R91, R245). -/
  reserved : Option StepReserve := none
  /-- The merged request not yet issued (R91). -/
  want : Option SegRequest := none
  /-- The requested rate the slope clamp holds the segment away from (R91). -/
  followUp : Option Int := none
  /-- A rate or slope clamp period is on (R92). -/
  rateClamped : Bool := false
  slopeClamped : Bool := false
  /-- pending_phase in 2^-16 ns (0x2000.07). -/
  pendingPhase : Int := 0
  /-- Phase correction plus steering after the clamp, in 10^-18 (0x2000.06). -/
  rateCorr : Int := 0
  /-- Raw stamp until which pendingPhase has been reduced. -/
  phaseStamp : Nat := 0
  /-- The first step or the decision not to step has been made or is withdrawn by failure (R93, R94). -/
  firstDone : Bool := false
  /-- Device time at the start of the segment that last seeded it (R321). -/
  seedTime : Int := 0
deriving DecidableEq, Repr

/-- A journal entry (R102): stamp in 1/256 tick, its conversion, source, code, flags and data. -/
structure JEntry where
  seq : Nat := 0
  stamp : Nat
  time : Int
  source : Nat
  code : Nat
  timeValid : Bool
  held : Bool := false
  /-- Domain of the queue that held it (R103). -/
  dom : Nat
  data : Bytes
deriving DecidableEq, Repr

/-- The event journal (R102, R103). -/
structure Journal where
  /-- Entries delivered and not yet visible. -/
  queue : List JEntry := []
  /-- Visible entries, oldest first, at most 4096. -/
  visible : List JEntry := []
  /-- Entries lost from a domain's source queue during a warm reset: domain, count. -/
  lost : List (Nat × Nat) := []
deriving DecidableEq, Repr

/-- The modes of R64. -/
inductive Mode where
  | cellar | steep | mash | tap | lager | flat | sparge | kiln
deriving DecidableEq, Repr

/-- The levels of a status pin (R16, R17). -/
inductive Pin where
  | low | high | highZ | unpowered
deriving DecidableEq, Repr

/-- The status pins of R68; `mode` is MODE[2:0] when driven. -/
structure StatusPins where
  mode : Option Nat := none
  refok : Pin := .low
  holdn : Pin := .high
  alarmn : Pin := .low
deriving DecidableEq, Repr

/-- The mode machine (R64-R84). -/
structure ModeState where
  cur : Mode := .steep
  pins : StatusPins := {}
  /-- Bring-up has completed (R71 step 11). -/
  bringupDone : Bool := false
  /-- Elapsed tick of the entry to MASH, while mash_timeout counts (R66). -/
  mashSince : Option Nat := none
  /-- mash_timeout has expired in condition 0 or 1 and the next evaluation takes it (R67). -/
  mashExpired : Bool := false
  /-- Condition 4 came from mash_timeout in condition 0 or 1 without a lock (R147). -/
  flatFromMash : Bool := false
  /-- Elapsed tick at which sparge_timeout ends (R76). -/
  spargeDeadline : Option Nat := none
  /-- A SPARGE exit waits for a running firmware activation (R76): by commit (true) or by timeout. -/
  spargeExit : Option Bool := none
  /-- Loss of the last qualified slot since the last evaluation (R67). -/
  lossSeen : Bool := false
  /-- DPLL-T has locked since the cold reset (R65). -/
  everLocked : Bool := false
  /-- Missing checks of slots of kind 5 are suspended (R121). -/
  suspend5 : Bool := false
  /-- A seed has been withdrawn (R73). -/
  withdrawn : Bool := false
  /-- CELLAR was entered by command with main supply present (R68). -/
  cellarIdled : Bool := false
deriving DecidableEq, Repr

/-- A Snowdrop model record (R143), values as stored. -/
structure ModelRecord where
  version : Nat := 1
  valid : Bool := false
  storedTime : Nat := 0
  y0 : Int := 0
  aging : Int := 0
  tempco : Int := 0
  tRef : Int := 0
  uy : Nat := 0
  ua : Nat := 0
  uc : Nat := 0
  learnTime : Nat := 0
  efcCode : Nat := 0
  /-- The stored CRC over the encoded record. -/
  crc : Nat := 0
deriving DecidableEq, Repr

/-- The keep island (Snowdrop): state that survives loss of main supply while VKEEP holds. -/
structure Keep where
  /-- VKEEP is supplied (R396). -/
  vkeep : Bool := true
  /-- The main rails are in their power-good windows (R437). -/
  mainGood : Bool := true
  /-- Coarse time is valid (R72). -/
  coarseValid : Bool := false
  /-- Coarse time at the last alignment, in 2^-16 ns. -/
  coarse : Int := 0
  /-- Elapsed tick of the last alignment. -/
  alignedAt : Nat := 0
  /-- Uncertainty at the last alignment, ns. -/
  uncAtAlign : Int := 0
  /-- Copies of seed_limit (ns) and keep_drift_bound (ppb) (R72). -/
  seedLimit : Int := 1000000000
  driftBound : Int := 20000
  /-- Copies of cellar_wake_time (2^-16 ns) and cellar_verify_interval (s), taken at CELLAR entry. -/
  wakeTime : Int := 0
  verifyInterval : Nat := 0
  /-- Elapsed tick of the next verification wake; a wake in progress and the tick it started (R83). -/
  verifyDue : Option Nat := none
  verifyWake : Option Nat := none
  /-- Coarse time sampled at r0 of a verification wake, and r0. -/
  verifySample : Option (Int × Nat) := none
  /-- Disagreements to journal at the next bring-up: the count and the latest difference, ns. -/
  disagree : Option (Nat × Int) := none
  /-- The two copies of the oscillator model. -/
  modelA : Option ModelRecord := none
  modelB : Option ModelRecord := none
  /-- The next model write goes to copy B. -/
  nextB : Bool := false
deriving DecidableEq, Repr

/-- One measurement of a slot: raw stamp, time carried by the source (2^-16 ns), phase offset (2^-16 ns). -/
structure Sample where
  stamp : Nat
  carried : Int
  phase : Option Int
deriving DecidableEq, Repr

/-- The slot states of R119. -/
inductive SlotState where
  | disabled | failed | qualifying | waitToRestore | qualified
deriving DecidableEq, Repr

/-- A reference slot (R107-R121); objects hold its configuration. -/
structure Slot where
  state : SlotState := .disabled
  /-- Bits of fail_cause (R118). -/
  cause : Nat := 0
  /-- Causes in force now, before they reach fail_cause. -/
  failing : Nat := 0
  /-- Elapsed tick at which the qualify or wait-to-restore timer ends. -/
  deadline : Option Nat := none
  everQualified : Bool := false
  /-- Measurements, newest first, kept for an hour. -/
  samples : List Sample := []
  /-- Edges monitored since the slot was bound (REFIN kinds), the last edge, missing edges in a row. -/
  edges : Nat := 0
  /-- Monitored periods between the first of them and the last, missing edges' too (REFIN kinds, R112). -/
  periods : Nat := 0
  lastEdge : Option Nat := none
  missed : Nat := 0
  /-- The last edge carries an accepted label; edges in a row without one. -/
  labelled : Bool := true
  unlabelled : Nat := 0
  /-- Raw stamp and elapsed tick at which the slot was bound. -/
  boundStamp : Nat := 0
  boundAt : Nat := 0
  /-- Labels waiting for the next edge (nmea_label 1), oldest first: the time and the stamp of the sentence. -/
  nextLabels : List (Int × Nat) := []
  /-- The previous accepted label: its edge count and time. -/
  lastLabel : Option (Nat × Int) := none
  /-- Received quality, mapped (R116). -/
  qualityReceived : Nat := 255
  /-- time_source of the latest accepted frame (R113), kind 2. -/
  timeSource : Nat := 0xA0
  /-- Elapsed tick of the last ESMC PDU; ESMC has been absent for 5 s (R117). -/
  lastEsmc : Option Nat := none
  esmcAbsent : Bool := false
  /-- Elapsed tick of the latest operator entry (R110). -/
  operatorAt : Option Nat := none
  /-- Error at the latest operator entry, 2^-16 ns. -/
  operatorError : Int := 0
  /-- The source is down (R118). -/
  down : Bool := false
  /-- Stamp and carried time of each measurement in the last 1 s of the qualify timer (R94). -/
  qualified1s : List (Nat × Int) := []
  /-- The mean phase offset over the last 10 s of measurements that a new binding discarded (R147), 2^-16 ns. -/
  leftMean : Option Int := none
  /-- The slot is disputed with another; worsened (R126); outvoted by a winner (R125). -/
  disputed : Option (Fin 16) := none
  worse : Bool := false
  outvotedBy : Option (Fin 16) := none
  /-- Elapsed tick since which the slot has been QUALIFIED. -/
  qualifiedAt : Nat := 0
  /-- Elapsed tick since which an outvoted slot has agreed with its winner (R125). -/
  agreedSince : Option Nat := none
  /-- Latest measured frequency against the oscillator (SyncE), 10^-18, with its elapsed tick, newest first. -/
  freqs : List (Nat × Int) := []
  /-- Elapsed tick of the last discard entry 0x2308. -/
  lastDiscard : Option Nat := none
deriving DecidableEq, Repr

/-- A reference input (R112): the selected edges counted since the last monitored one; the raw stamp of the last monitored
edge and its conversion (R25). -/
structure RefIn where
  edges : Nat := 0
  stamp : Nat := 0
  time : Int := 0
deriving DecidableEq, Repr

/-- One selection, for DPLL-T or DPLL-F (R122-R128). -/
structure Selection where
  active : Option (Fin 16) := none
  /-- The slot that is or was last active (R321). -/
  lastActive : Option (Fin 16) := none
  armed : Bool := false
  /-- The transition in progress: slot left, end tick, build-out in 2^-16 ns. -/
  transition : Option (Option (Fin 16) × Nat × Int) := none
  /-- The QUALIFIED candidates that rank ahead of the active slot, each with the elapsed tick since which it has without
  a break (R124). -/
  ahead : List (Fin 16 × Nat) := []
  /-- Start of the transition of DPLL-F and the frequency word it leaves, 10^-18 (R127). -/
  moveFrom : Nat × Int := (0, 0)
deriving DecidableEq, Repr

/-- A dispute in progress (R125): the two slots, since when the difference has stayed below half the limit. -/
structure Dispute where
  a : Fin 16
  b : Fin 16
  forF : Bool
  quietSince : Option Nat := none
  undecided : Bool := false
deriving DecidableEq, Repr

/-- The DPLL states of R131. -/
inductive DpllState where
  | freeRun | acquiring | locked | holdover
deriving DecidableEq, Repr

/-- One loop (R130-R136). -/
structure Loop where
  state : DpllState := .freeRun
  everLocked : Bool := false
  /-- Integral path, 10^-18. -/
  freqEst : Int := 0
  /-- Proportional path after its clamps, 10^-18. -/
  phaseCorr : Int := 0
  /-- Phase error, 2^-16 ns, and the stamp of the last update. -/
  phaseErr : Int := 0
  lastStamp : Option Nat := none
  /-- Stamp since which the lock criterion has held; measurements before `freshFrom` do not count for it (R132). -/
  goodSince : Option Nat := none
  freshFrom : Nat := 0
  bwInUse : Nat := 0
  clamped : Bool := false
  /-- The measurement rate its gains are set for, µHz. -/
  rate : Nat := 1000000000000
  /-- Frequency estimates with their stamps, newest first, for holdover_average. -/
  history : List (Nat × Int) := []
  /-- Synthesiser phase minus device time (A, B) or minus the active slot's phase (F), exact, in 10^-18 of 1/256 tick;
  frequency word, 10^-18. -/
  synthPhase : Int := 0
  freqWord : Int := 0
deriving DecidableEq, Repr

/-- The model states of R142. -/
inductive ModelSt where
  | none | restored | learning | valid | frozen
deriving DecidableEq, Repr

/-- A learning sample: elapsed tick, frequency in 10^-18, filtered temperature in 2^-32 of 0.01 °C. -/
structure LearnSample where
  t : Int
  y : Int
  temp : Int
deriving DecidableEq, Repr

/-- The holdover estimator and the holdover episode (R141-R149). -/
structure Holdover where
  model : ModelSt := .none
  /-- State before FROZEN (R142). -/
  frozenFrom : ModelSt := .none
  /-- y0 (10^-18) at t0 (elapsed tick), a (10^-18 per day), c (10^-18 per K), T0, 3-sigma uncertainties; temperatures in
  2^-32 of 0.01 °C. -/
  y0 : Int := 0
  t0 : Int := 0
  a : Int := 0
  c : Int := 0
  tRef : Int := 0
  uy : Int := 0
  ua : Int := 0
  uc : Int := 0
  /-- Seconds learned, and whether the model was restored with too little learning. -/
  learned : Nat := 0
  fromRestore : Bool := false
  samples : List LearnSample := []
  /-- Filtered die temperature and the elapsed tick of its last update. -/
  tFilt : Int := 0
  tFiltAt : Option Nat := none
  /-- An episode is on, or the bound grows from a seed (R147); its start tick, B over the bound's denominator, T_h,
  tick of the last growth. -/
  episode : Bool := false
  fromSeed : Bool := false
  start : Nat := 0
  bound : Int := 0
  tEntry : Int := 0
  grownAt : Nat := 0
  /-- Frequency assistance: start value F_a, y_F at its start, assisting slot (R146). -/
  assist : Option (Int × Int × Fin 16) := none
  /-- The holdover frequency term of DPLL-F, 10^-18. -/
  fTerm : Int := 0
  /-- EFC: last write tick, compensations waiting (due tick, amount 10^-18), last direction up. -/
  efcLast : Option Nat := none
  efcPending : List (Nat × Int) := []
  efcUp : Option Bool := none
  /-- Sum of the compensations applied, 10^-18, removed from the samples (R140). -/
  efcApplied : Int := 0
  /-- Codes written to the DAC, newest first. -/
  dacCode : Nat := 0
  lockedAt : Option Nat := none
deriving DecidableEq, Repr

end Sys2Proof.Machine
end

