-- ==== Sys2Proof/Machine/State.lean ====
section
/-! DEFINITION. The machine state: the dictionary store, the units' internal state, the queue of waiting commands,
and the state after reset. -/

namespace Sys2Proof.Machine

/-- Why a step stops although the command has a meaning. -/
inductive Fault where
  /-- Raised by no meaning of this model: kept so that the type is inhabited. Safe. -/
  | none
deriving DecidableEq, Repr

/-- Why a command has no meaning. -/
inductive Refusal where
  /-- Raised by the dispatch alone, for a command whose meaning the model does not hold yet. Safe. -/
  | notModelled (mnemonic : String)
deriving DecidableEq, Repr

/-- The state of the block. -/
structure State where
  /-- The commands waiting, first in, first out. -/
  pending : List Instr := []
  /-- The model's own: elapsed ticks of 0.8 ns since the start of the model's time. -/
  now : Nat := 0
  /-- The model's own: the next free value's number, and the next draw of the random-number source. -/
  freeIdx : Nat := 0
  draws : Nat := 0
  /-- The dictionary store: the objects that differ from their default, by rising key. -/
  obj : List (Nat × Val) := []
  tb : Timebase := {}
  journal : Journal := {}
  mode : ModeState := {}
  keep : Keep := {}
  slots : Vector Slot 16 := Vector.replicate 16 {}
  refins : Vector RefIn 8 := Vector.replicate 8 {}
  selT : Selection := {}
  selF : Selection := {}
  disputes : List Dispute := []
  loops : Vector Loop 4 := ⟨#[{}, {}, { state := .acquiring }, { state := .acquiring }], rfl⟩
  hold : Holdover := {}
  outs : Vector OutGen 20 := Vector.replicate 20 {}
  tods : Vector TodOut 4 := Vector.replicate 4 {}
  caps : Vector Capture 16 := Vector.replicate 16 {}
  sky : Sky := {}
  flash : Flash := {}
  ports : Vector PortUnit 64 := Vector.replicate 64 {}
  side : Sideband := {}
  serve : Serve := {}
  ctrs : Vector CtrBlock 16 := Vector.replicate 16 {}
  snaps : Snapshots := {}
  ool : Ool := {}
  prot : Protocols := {}
  sec : Security := {}
  mem : MemUnits := {}
  bn : BigNum := {}
  sys : System := {}
  /-- Pending scheduled commits (R48), oldest first. -/
  sched : List Sched := []
deriving DecidableEq, Repr

/-- The machine at the release of a power-on reset with main supply good (instant 0 of R71): STEEP, timing
condition 0, every domain but the keep island asleep, nothing stored. -/
def State.reset : State := {}

end Sys2Proof.Machine
end

