-- ==== Sys2Proof/Machine/Ops.lean ====
section
/-! DEFINITION. The named operations over the state that every meaning uses: the dictionary store, free values, device
time, the journal, domain states, unit access. -/

namespace Sys2Proof.Machine

/-! ## The dictionary store -/

/-- The stored entry of a key. -/
def storeGet : List (Nat × Val) → Nat → Option Val
  | [], _ => none
  | (k, v) :: r, key => if k = key then some v else storeGet r key

/-- Remove a key. -/
def storeDel : List (Nat × Val) → Nat → List (Nat × Val)
  | [], _ => []
  | (k, v) :: r, key => if k = key then r else (k, v) :: storeDel r key

/-- Insert or replace a key in a list of rising keys. -/
def storeIns : List (Nat × Val) → Nat → Val → List (Nat × Val)
  | [], key, x => [(key, x)]
  | (k, v) :: r, key, x =>
    if key < k then (key, x) :: (k, v) :: r else if k = key then (key, x) :: r else (k, v) :: storeIns r key x

/-- Write a value: a value equal to the object's default is not listed. -/
def storePut (l : List (Nat × Val)) (key : Nat) (x : Val) : List (Nat × Val) :=
  if x = objDefault key then storeDel l key else storeIns l key x

/-- The canonical form of the store: keys strictly rising, no entry equal to its default. -/
def storeWf : List (Nat × Val) → Bool
  | [] => true
  | [(k, v)] => v != objDefault k
  | (k, v) :: (k', v') :: r => k < k' && v != objDefault k && storeWf ((k', v') :: r)

/-- The value of an object: the stored one, else its default (R40). -/
def State.get (s : State) (key : Nat) : Val := (storeGet s.obj key).getD (objDefault key)

/-- The number an object holds. -/
def State.n (s : State) (key : Nat) : Int :=
  match s.get key with
  | .num x => x
  | .oct _ => 0

/-- The number an object holds, as a natural number. -/
def State.nn (s : State) (key : Nat) : Nat := (s.n key).toNat

/-- A BOOL object. -/
def State.flag (s : State) (key : Nat) : Bool := s.n key != 0

/-- The bytes an object holds. -/
def State.octs (s : State) (key : Nat) : Bytes :=
  match s.get key with
  | .num _ => []
  | .oct b => b

/-- Write an object. -/
def State.put (s : State) (key : Nat) (x : Val) : State := { s with obj := storePut s.obj key x }

/-- Write a number. -/
def State.putN (s : State) (key : Nat) (x : Int) : State := s.put key (.num x)

/-- Write a BOOL. -/
def State.putB (s : State) (key : Nat) (x : Bool) : State := s.put key (.num (if x then 1 else 0))

/-- Write bytes. -/
def State.putO (s : State) (key : Nat) (b : Bytes) : State := s.put key (.oct b)

/-- The number of values of a counter's type. -/
def Ty.modulus : Ty → Nat
  | .bool => 2
  | .u8 | .i8 => 2 ^ 8
  | .u16 | .i16 => 2 ^ 16
  | .u32 | .i32 => 2 ^ 32
  | _ => 2 ^ 64

/-- The modulus of an object's counter. -/
def counterModulus (key : Nat) : Nat :=
  match objRow key with
  | some r => r.ty.modulus
  | none => 2 ^ 64

/-- Add to a counter, which wraps at the width of its type. -/
def State.bump (s : State) (key : Nat) (d : Nat := 1) : State :=
  s.putN key (((s.nn key + d) % counterModulus key : Nat) : Int)

/-! ## Values the spec leaves open -/

/-- Take the next free integer. -/
def State.freeInt (s : State) : Int × State := (Config.freeInt s.freeIdx, { s with freeIdx := s.freeIdx + 1 })

/-- Take the next free natural number. -/
def State.freeNat (s : State) : Nat × State := (Config.freeNat s.freeIdx, { s with freeIdx := s.freeIdx + 1 })

/-- Take the next free byte string of a length. -/
def State.freeBytes (s : State) (len : Nat) : Bytes × State :=
  (Config.freeBytes s.freeIdx len, { s with freeIdx := s.freeIdx + 1 })

/-- Draw bytes from the random-number source (R344). -/
def State.random (s : State) (len : Nat) : Bytes × State :=
  (Config.randomBytes s.draws len, { s with draws := s.draws + 1 })

/-! ## Raw stamps and device time (R85-R90) -/

/-- The raw stamp of the present instant, a whole tick (R86); 0 before the counter runs (R66). -/
def State.stamp (s : State) : Nat := if s.tb.running then s.tb.raw * 256 else 0

/-- Convert a raw stamp with a segment (R88): exact, one rounding half to even. -/
def Segment.convert (g : Segment) (stamp : Nat) : Int :=
  g.time + rneDiv (((stamp : Int) - g.start) * 1024 * (2 ^ 60 + g.rate)) (5 * 2 ^ 60)

/-- The first segment that has started at a stamp. -/
def segAt : List Segment → Nat → Segment
  | [], _ => {}
  | [g], _ => g
  | g :: r, stamp => if g.start ≤ stamp then g else segAt r stamp

/-- The segments that are fixed: a transmit path holds the one fixed in advance beside those a reader has (R245). -/
def Timebase.fixed (t : Timebase) : List Segment :=
  match t.issued with
  | some g => g :: t.segs
  | none => t.segs

/-- The segments a reader may choose from: the one issued and the ones in force before it (R89); that of a scheduled owner
step once its commit has taken effect. -/
def Timebase.known (t : Timebase) : List Segment :=
  match t.issued, t.reserved with
  | some g, none => if t.issueTick ≤ t.raw then g :: t.segs else t.segs
  | _, _ => t.segs

/-- The conversion of a transmit stamp, which lies ahead: with the segment in force at the stamp (R245). -/
def State.convertAhead (s : State) (stamp : Nat) : Int := (segAt s.tb.fixed stamp).convert stamp

/-- The segment a stamp is converted with (R89). -/
def State.segFor (s : State) (stamp : Nat) : Segment := segAt s.tb.known stamp

/-- The conversion of a raw stamp to device time (R88, R89). -/
def State.convert (s : State) (stamp : Nat) : Int := (s.segFor stamp).convert stamp

/-- The segment in force now. -/
def State.seg (s : State) : Segment := s.segFor s.stamp

/-- Device time now (R25, dictionary agent). -/
def State.time (s : State) : Int := s.convert s.stamp

/-- Device time is seeded: the segment in force has valid 1. -/
def State.timeValid (s : State) : Bool := s.seg.valid

/-- The first whole tick whose device time under a segment is at or after `t`, not before tick `lo` (R91). -/
def Segment.tickReaching (g : Segment) (t : Int) (lo : Nat) : Nat :=
  let need := t - g.time
  -- one tick is 52428.8 units at rate 0: units * 5 * 2^60 / (262144 * (2^60 + rate)), then the rounding's neighbours
  let est : Int := ((g.start / 256 : Nat) : Int) + (need * 5 * 2 ^ 60) / (262144 * (2 ^ 60 + g.rate)) - 1
  let t0 := max est.toNat lo
  if t ≤ g.convert (t0 * 256) then t0
  else if t ≤ g.convert ((t0 + 1) * 256) then t0 + 1
  else if t ≤ g.convert ((t0 + 2) * 256) then t0 + 2
  else t0 + 3

/-! ## Units -/

/-- Replace a slot. -/
def State.setSlot (s : State) (i : Fin 16) (x : Slot) : State := { s with slots := s.slots.set i x }

/-- Replace a loop: 0 DPLL-T, 1 DPLL-F, 2 DPLL-A, 3 DPLL-B. -/
def State.setLoop (s : State) (i : Fin 4) (x : Loop) : State := { s with loops := s.loops.set i x }

/-- Replace a reference input. -/
def State.setRefin (s : State) (i : Fin 8) (x : RefIn) : State := { s with refins := s.refins.set i x }

/-- Replace an output generator, a time-of-day output, a capture unit. -/
def State.setOut (s : State) (i : Fin 20) (x : OutGen) : State := { s with outs := s.outs.set i x }

def State.setTod (s : State) (i : Fin 4) (x : TodOut) : State := { s with tods := s.tods.set i x }

def State.setCap (s : State) (i : Fin 16) (x : Capture) : State := { s with caps := s.caps.set i x }

/-- Replace a port unit, a serve engine, a thread, a counter block. -/
def State.setPort (s : State) (i : Fin 64) (x : PortUnit) : State := { s with ports := s.ports.set i x }

def State.setEngine (s : State) (i : Fin 8) (x : Engine) : State :=
  { s with serve := { s.serve with engines := s.serve.engines.set i x } }

def State.thread (s : State) (e : Fin 8) (t : Fin 16) : Thread := s.serve.engines[e].threads[t]

def State.setThread (s : State) (e : Fin 8) (t : Fin 16) (x : Thread) : State :=
  s.setEngine e { s.serve.engines[e] with threads := s.serve.engines[e].threads.set t x }

def State.setCt (s : State) (x : ClientTable) : State := { s with serve := { s.serve with ct := x } }

def State.setCtr (s : State) (i : Fin 16) (x : CtrBlock) : State := { s with ctrs := s.ctrs.set i x }

/-- The second of elapsed time, for limits per second. -/
def State.second (s : State) : Nat := s.now / 1250000000

/-! ## Counting (R408-R411, R417, R418) -/

/-- The four events of bandwidth mode: bytes and frames received, bytes and frames transmitted (R417). -/
def bandwidthEvent (k : Nat) : Nat := [2, 1, 4, 3].getD (k % 4) 0

/-- The selection that a counter of a block follows: in bandwidth mode the four events of the port, then of the group
(R417); in top-down mode events 1 to 6 for counters 0 to 5 (R418). -/
def CtrBlock.selection (b : CtrBlock) (k : Fin 8) : Nat :=
  if b.mode = 1 then
    if k.val < 4 then bandwidthEvent k * 256 + b.bwPort * 16 else bandwidthEvent k * 256 + 4
  else if b.mode = 2 && k.val < 6 then (k.val + 1) * 256
  else b.sel[k]

/-- A selection counts an event of a unit: the event code, and the unit unless all units are selected. -/
def selects (sel code unit : Nat) : Bool := sel / 256 == code && (bit sel 2 || sel / 16 % 16 == unit)

/-- Add to one counter; a wrap is noted (R414). -/
def CtrBlock.add (b : CtrBlock) (k : Fin 8) (w : Nat) : CtrBlock :=
  let x := b.ctr[k] + w
  if x < 2 ^ 64 then { b with ctr := b.ctr.set k x }
  else
    { b with ctr := b.ctr.set k (x % 2 ^ 64), epochWraps := setBit b.epochWraps (k.val + 1) true,
             newWraps := setBit b.newWraps (k.val + 1) true }

/-- An edge event of a block occurs (R409). -/
def State.count (s : State) (blk : Fin 16) (code : Nat) (w : Nat := 1) (unit : Nat := 0) : State :=
  let b := s.ctrs[blk]
  s.setCtr blk ((List.finRange 8).foldl (fun (b : CtrBlock) (k : Fin 8) =>
    if selects (b.selection k) code unit then b.add k w else b) b)

/-- An event of an engine, and of a port within its group. -/
def State.countE (s : State) (e : Fin 8) (code : Nat) (w : Nat := 1) : State := s.count ⟨e.val, by omega⟩ code w

/-- An engine issues slots; they are counted tick by tick (R418). -/
def State.issueSlots (s : State) (e : Fin 8) (n : Nat) : State :=
  let b := s.ctrs[(⟨e.val, by omega⟩ : Fin 16)]
  s.setCtr ⟨e.val, by omega⟩ { b with slotsTick := b.slotsTick + n }

def State.countP (s : State) (n : Fin 64) (code : Nat) (w : Nat := 1) : State :=
  s.count ⟨12 + n.val / 16, by omega⟩ code w (n.val % 16)

/-- Domain states (R21-R24): 0 asleep, 1 waking, 2 awake, 3 held in reset. -/
def State.domState (s : State) (d : Nat) : Nat := s.nn (Obj.domain_state (d - 1))

/-- A domain is awake. -/
def State.awake (s : State) (d : Nat) : Bool := s.domState d == 2

/-- Put a domain into a state. -/
def State.setDom (s : State) (d v : Nat) : State := s.putN (Obj.domain_state (d - 1)) v

/-! ## The event journal (R101-R104) -/

/-- The domain whose source queue holds an entry: the one the table of R28 binds its source number to; the device's own
source 0x0000 is the control domain's. -/
def journalDomain (source : Nat) : Nat :=
  let h := source / 256
  if h = 1 then 4 else if h = 2 || h = 3 || h = 4 then 2 else if h = 5 then 3 else if h = 6 then 5
  else if source = 0x0800 then 1 else if source = 0x0900 then 7 else 6

/-- The control domain restarts: from a reset's assertion to the admission of step 2 of a warm release (R103, R388), the
sources' queues hold entries. -/
def State.controlDown (s : State) : Bool := s.domState 6 == 3 || (s.domState 6 == 1 && s.sys.warmAt.isSome)

/-- Firmware runs: the control domain is awake and no activation restarts it (R79). -/
def State.firmwareUp (s : State) : Bool := s.awake 6 && s.sys.activation.isNone

/-- The port MACs, their filters and the management MAC are in reset: a warm reset, to step 5 of its release (R258,
R388). -/
def State.macDown (s : State) : Bool := s.sys.scope == some 3 || (s.sys.warmAt.isSome && s.sys.warmStage < 5)

/-- A block reset of this block runs (R390). -/
def State.blockBusy (s : State) (code : Nat) : Bool :=
  match s.sys.block with
  | some b => b.code == code
  | none => false

/-- Count one more lost entry of a domain. -/
def lostAdd : List (Nat × Nat) → Nat → List (Nat × Nat)
  | [], d => [(d, 1)]
  | (e, n) :: r, d => if e = d then (e, n + 1) :: r else (e, n) :: lostAdd r d

/-- Deliver an entry to its source queue (R102, R103): while the control domain restarts, a domain holds at most 256
and further entries are lost. Every entry with source 0x0900 counts in security_event_count (R363). -/
def State.logAt (s : State) (stamp source code : Nat) (data : Bytes) : State :=
  let d := journalDomain source
  let e : JEntry :=
    { stamp, time := s.convert stamp, source, code, timeValid := s.tb.running && (s.segFor stamp).valid,
      held := s.controlDown, dom := d, data := field data 0 16 }
  let s := if source = 0x0900 then s.bump Obj.security_event_count else s
  if s.controlDown && 256 ≤ (s.journal.queue.filter fun x => x.held && x.dom == d).length then
    { s with journal := { s.journal with lost := lostAdd s.journal.lost d } }
  else
    { s with journal := { s.journal with queue := s.journal.queue ++ [e] } }

/-- Journal an event of the present instant. -/
def State.log (s : State) (source code : Nat) (data : Bytes) : State := s.logAt s.stamp source code data

/-- Journal a security event, source 0x0900 (R363). -/
def State.logSec (s : State) (code : Nat) (data : Bytes) : State := s.log 0x0900 code data

end Sys2Proof.Machine
end

