-- ==== Sys2Proof/Machine/Values.lean ====
section
/-! DEFINITION. Values of objects as they travel and lie in flash (R6, R8, R9, R37), and the checks of a value's type, encoding
and range. -/

namespace Sys2Proof.Machine

/-! ## Types (R37) -/

/-- The type codes. -/
def Ty.code : Ty → Nat
  | .bool => 1
  | .u8 => 2
  | .u16 => 3
  | .u32 => 4
  | .u64 => 5
  | .i8 => 6
  | .i16 => 7
  | .i32 => 8
  | .i64 => 9
  | .time => 10
  | .dur => 11
  | .ppt => 12
  | .str => 13
  | .oct => 14
  | .record => 15
  | .array => 16

/-- The length of a type in bytes; none for STRING and OCTETS. -/
def Ty.len : Ty → Option Nat
  | .bool | .u8 | .i8 | .record | .array => some 1
  | .u16 | .i16 => some 2
  | .u32 | .i32 => some 4
  | .u64 | .i64 | .ppt => some 8
  | .time => some 14
  | .dur => some 12
  | .str | .oct => none

/-- A type of two's complement numbers. -/
def Ty.isSigned : Ty → Bool
  | .i8 | .i16 | .i32 | .i64 | .ppt => true
  | _ => false

/-- A value as it travels (R6, R8, R9). -/
def encodeVal (ty : Ty) (v : Val) : Bytes :=
  match v with
  | .oct b => b
  | .num n =>
    match ty with
    | .time => timeToBytes n
    | .dur => durToBytes n
    | _ =>
      match ty.len with
      | some w => be w n
      | none => []

/-- The value that bytes of the right length spell. -/
def decodeVal (ty : Ty) (b : Bytes) : Val :=
  match ty with
  | .str | .oct => .oct b
  | .time => .num (timeOfBytes b)
  | .dur => .num (durOfBytes b)
  | _ => .num (if ty.isSigned then signed (8 * b.length) (ofBe b) else (ofBe b : Nat))

/-- A continuation byte of UTF-8, in an interval. -/
def inByte (x : Byte) (lo hi : Nat) : Bool := lo ≤ x.toNat && x.toNat ≤ hi

/-- Well-formed UTF-8. -/
def utf8Ok : Bytes → Bool
  | [] => true
  | a :: r =>
    if inByte a 0x00 0x7F then utf8Ok r
    else
      match r with
      | [] => false
      | b :: r2 =>
        if inByte a 0xC2 0xDF then inByte b 0x80 0xBF && utf8Ok r2
        else
          match r2 with
          | [] => false
          | c :: r3 =>
            if inByte a 0xE0 0xEF then
              inByte b (if a = 0xE0 then 0xA0 else 0x80) (if a = 0xED then 0x9F else 0xBF) && inByte c 0x80 0xBF && utf8Ok r3
            else
              match r3 with
              | [] => false
              | d :: r4 =>
                inByte a 0xF0 0xF4 && inByte b (if a = 0xF0 then 0x90 else 0x80) (if a = 0xF4 then 0x8F else 0xBF)
                  && inByte c 0x80 0xBF && inByte d 0x80 0xBF && utf8Ok r4

/-! ## The checks of a value (R458) -/

/-- The length fits the object (check 5). -/
def ObjRow.lengthOk (r : ObjRow) (len : Nat) : Bool :=
  match r.ty.len with
  | some w => len == w
  | none => match r.lens with
    | .maxLen n => len ≤ n
    | .fixed n => len == n
    | .oneOf l => l.contains len

/-- A code or bit pattern that the object's meaning does not reserve (check 6). -/
def Enc.ok (e : Enc) (v : Int) : Bool :=
  match e with
  | .any | .script => true
  | .upTo n => v ≤ n
  | .mask m => v.toNat &&& m == v.toNat
  | .oneOf l => l.any fun p => p.1 ≤ v && v ≤ p.2

/-- The flags byte of every record of a front-end script leaves its reserved bits [7:1] clear (R183); at most `fuel` records. -/
def scriptFlagsOk : Nat → Bytes → Bool
  | fuel + 1, len :: flags :: r =>
    decide (flags.toNat < 2) && scriptFlagsOk fuel (r.drop (len.toNat * (flags.toNat + 1)))
  | _, _ => true

/-- The encoding is not reserved (check 6). -/
def ObjRow.encodingOk (r : ObjRow) (b : Bytes) : Bool :=
  match r.ty with
  | .bool => ofBe b ≤ 1
  | .str => utf8Ok b
  | .oct => r.enc != .script || scriptFlagsOk b.length b
  | _ => match decodeVal r.ty b with
    | .num v => r.enc.ok v
    | .oct _ => true

/-- The value lies in the object's range (check 7, R9). -/
def ObjRow.rangeOk (r : ObjRow) (b : Bytes) : Bool :=
  let ns := match r.ty with
    | .time | .dur => fieldN b 8 4 ≤ 999999999
    | _ => true
  let inRange := match decodeVal r.ty b with
    | .num v => r.rng.isEmpty || r.rng.any fun p => p.1 ≤ v && v ≤ p.2
    | .oct _ => true
  ns && inRange

end Sys2Proof.Machine
end

