-- ==== Sys2Proof/Machine/Banks.lean ====
section
/-! DEFINITION. Configuration banks (R376, R377, R349): their layout, the checks of a bank, the values of its records. -/

namespace Sys2Proof.Machine

/-- The keys of the chains' windows, whose contents are persistent (R434). -/
def chainKeys : List Nat := [0x8342 * 256, 0x8344 * 256]

/-- A key that a configuration set holds: a persistent object's, or a chain's (R434). -/
def persistKey (key : Nat) : Bool :=
  chainKeys.contains key || match objRow key with
    | some r => r.persist
    | none => false

/-- A secret object's key. -/
def secretKey (key : Nat) : Bool := match objRow key with | some r => r.secret | none => false

/-! ## Records -/

/-- The type code of an object's records; a chain's are OCTETS. -/
def recordType (key : Nat) : Nat := match objRow key with | some r => r.ty.code | none => Ty.oct.code

/-- A record that is not enciphered. -/
def clearRecord (key : Nat) (value : Bytes) : CfgRecord := { key, ty := recordType key, value }

def CfgRecord.bytes (r : CfgRecord) : Bytes :=
  beNat 2 (r.key / 256) ++ beNat 1 (r.key % 256) ++ beNat 1 r.ty ++ beNat 1 r.flags ++ [0] ++ beNat 2 r.value.length ++ r.value

/-- The records that bytes hold, and whether the last one is whole; the reserved byte is ignored (R7). -/
def cfgRecords : Nat → Bytes → List CfgRecord × Bool
  | 0, b => ([], b.isEmpty)
  | fuel + 1, b =>
    if b.isEmpty then ([], true)
    else
      let n := fieldN b 6 2
      let v := (b.drop 8).take n
      if v.length < n then ([], false)
      else
        let (l, whole) := cfgRecords fuel (b.drop (8 + n))
        ({ key := objKey (fieldN b 0 2) (fieldN b 2 1), ty := fieldN b 3 1, flags := fieldN b 4 1, value := v } :: l, whole)

/-- What a record gives: it is skipped, its value cannot be opened, or it has a value. -/
inductive RecordValue where
  | skipped
  | closed
  | value (v : Val)
deriving DecidableEq, Repr

/-- A record read under the storage cipher's key (R349, R377): skipped where it names no persistent object or carries a
reserved encoding; a secret object's is enciphered, any other's is not. -/
def CfgRecord.read (r : CfgRecord) (store : Option Bytes) : RecordValue :=
  match objRow r.key with
  | none => if chainKeys.contains r.key && r.ty == Ty.oct.code && !bit r.flags 0 then .value (.oct r.value) else .skipped
  | some o =>
    if !o.persist || r.ty != o.ty.code || bit r.flags 0 != o.secret then .skipped
    else
      match if o.secret then store.bind fun k => openRecord k r.key r.value else some r.value with
      | none => .closed
      | some b => if o.lengthOk b.length && o.encodingOk b then .value (decodeVal o.ty b) else .skipped

/-! ## Banks -/

/-- A set in the layout of R376: the header, the records from byte 4096, their CRC. -/
def CfgSet.image (c : CfgSet) : Bytes :=
  let body := c.records.flatMap CfgRecord.bytes
  let head := beNat 4 0x43464753 ++ beNat 4 c.sequence ++ beNat 8 c.generation ++ beNat 4 body.length ++ List.replicate 8 0
  head ++ beNat 4 (crc32c head) ++ List.replicate 4064 0 ++ body ++ beNat 4 (crc32c body)

/-- A set that its fields and a bank can hold. -/
def CfgSet.fits (c : CfgSet) : Bool :=
  decide (c.sequence < 2 ^ 32) && decide (c.generation < 2 ^ 64) && decide ((c.records.flatMap CfgRecord.bytes).length ≤ 1044448)
    && c.records.all fun r => decide (r.key < 2 ^ 24) && decide (r.ty < 256) && decide (r.flags < 256) && decide (r.value.length < 65536)

/-- A set with its program image as a bank holds them. -/
def CfgSet.bank (c : CfgSet) : CfgBank := { image := c.image, program := c.program }

/-- The header passes: magic, length and header_crc. -/
def headerOk (b : Bytes) : Bool :=
  fieldN b 0 4 == 0x43464753 && decide (fieldN b 16 4 ≤ 1044448) && fieldN b 28 4 == crc32c (field b 0 28)

/-- The bytes of the records that a header announces. -/
def cfgBody (b : Bytes) : Bytes := (b.drop 4096).take (fieldN b 16 4)

/-- The records pass body_crc. -/
def bodyOk (b : Bytes) : Bool :=
  let n := fieldN b 16 4
  decide (4100 + n ≤ b.length) && fieldN (b.drop (4096 + n)) 0 4 == crc32c (cfgBody b)

/-- The set of a bank whose header and body pass. -/
def CfgBank.set (b : CfgBank) : Option CfgSet :=
  if headerOk b.image && bodyOk b.image then
    some { sequence := fieldN b.image 4 4, generation := fieldN b.image 8 8,
           records := (cfgRecords (fieldN b.image 16 4) (cfgBody b.image)).1, program := b.program }
  else none

/-- Change the records of a bank that passes its checks. -/
def CfgBank.edit (f : List CfgRecord → List CfgRecord) (b : CfgBank) : CfgBank :=
  match b.set with
  | none => b
  | some c => if f c.records = c.records then b else ({ c with records := f c.records } : CfgSet).bank

/-- What failed of a bank: bit 0 its header, bit 1 its body, which has no known length under a failed header (0x1605). -/
def CfgBank.failures (b : CfgBank) : Nat := if !headerOk b.image then 1 else if !bodyOk b.image then 2 else 0

/-- The values of a set's records under the storage cipher's key. -/
def CfgSet.values (c : CfgSet) (store : Option Bytes) : List (Nat × Val) :=
  c.records.filterMap fun r => match r.read store with | .value v => some (r.key, v) | _ => none

/-- The bank in force (R377): the one of higher sequence among those that pass their checks. -/
def Flash.activeBank (f : Flash) : Option (Nat × CfgSet) :=
  match f.cfg0.set, f.cfg1.set with
  | some a, some b => if a.sequence < b.sequence then some (1, b) else some (0, a)
  | some a, none => some (0, a)
  | none, some b => some (1, b)
  | none, none => none

/-- The values of the set in force, none of them where there is none. -/
def Flash.values (f : Flash) (store : Option Bytes) : List (Nat × Val) :=
  match f.activeBank with
  | some (_, b) => b.values store
  | none => []

/-- The value a persistent object that is not secret takes at a reset (R40): from the set in force, else its default. -/
def Flash.configValue (f : Flash) (key : Nat) : Val := (storeGet (f.values none) key).getD (objDefault key)

/-! ## The storage cipher in use (R348, R349, R362) -/

/-- The key of the storage cipher, none where the circuit's response failed or a full debug unlock disabled it. -/
def State.storeKey (s : State) : Option Bytes := if s.sec.storageOff then none else some storageKey

/-- The values of the set in force, the secret ones where the storage cipher has a key. -/
def State.setValues (s : State) : List (Nat × Val) := s.flash.values s.storeKey

/-- The secret of a record in force, none where there is none. -/
def State.secretOf (s : State) (key : Nat) : Option Bytes :=
  match storeGet s.setValues key with
  | some (.oct b) => if b.isEmpty then none else some b
  | _ => none

/-- A secret enciphered under a fresh nonce; nothing where the cipher has no key. -/
def State.sealed (s : State) (key : Nat) (b : Bytes) : Option Bytes × State :=
  match s.storeKey with
  | none => (none, s)
  | some k =>
    let (nonce, s) := s.random 12
    (some (sealRecord k nonce key b), s)

/-- The record of an object's value; a secret's is enciphered, a chain never committed has none. -/
def State.recordOf (s : State) (key : Nat) (v : Val) : Option CfgRecord × State :=
  match objRow key with
  | none => (match v with | .oct b => some (clearRecord key b) | .num _ => none, s)
  | some o =>
    let b := encodeVal o.ty v
    if o.secret then
      let (c, s) := s.sealed key b
      (c.map fun x => { key, ty := o.ty.code, flags := 1, value := x }, s)
    else (some (clearRecord key b), s)

/-- The records of a list of values. -/
def State.recordsOf : List (Nat × Val) → State → List CfgRecord × State
  | [], s => ([], s)
  | p :: l, s =>
    let (r, s) := s.recordOf p.1 p.2
    let (rest, s) := State.recordsOf l s
    (r.toList ++ rest, s)

end Sys2Proof.Machine
end

