-- ==== Sys2Proof/Machine/Crossings.lean ====
section
/-! DEFINITION. Clock-domain crossings (R398, R399): their structures and depths, the domains they join, and the counting
pulses of the port MACs (R405). -/

namespace Sys2Proof.Machine

/-- The four structures of R398. -/
inductive CrossStructure where
  | grayFifo
  | requestResponse
  | countingPulse
  | fixedPhase
deriving DecidableEq, Repr

/-- The ten crossings of R399. -/
inductive Crossing where
  | portReceive
  | portTransmit
  | engineAccess
  | stamps
  | dramAccess
  | mgmtReceive
  | registerAccess
  | keepAccess
  | pulses
  | samplePorts
deriving DecidableEq, Repr

/-- The structure of a crossing (R399). -/
def crossStructure (c : Crossing) : CrossStructure :=
  match c with
  | .registerAccess | .keepAccess => .requestResponse
  | .pulses => .countingPulse
  | .samplePorts => .fixedPhase
  | _ => .grayFifo

/-- The depth of a crossing (R399): entries each way, requests outstanding, bits of the count; a coherent transfer holds
nothing. -/
def crossDepth (c : Crossing) : Nat :=
  match c with
  | .portReceive | .portTransmit => 32
  | .engineAccess | .stamps | .mgmtReceive => 16
  | .dramAccess => 64
  | .registerAccess => 4
  | .keepAccess => 1
  | .pulses => 8
  | .samplePorts => 0

/-- Directions in which a crossing holds entries (R399). -/
def crossWays (c : Crossing) : Nat :=
  match c with
  | .engineAccess | .dramAccess | .registerAccess | .keepAccess => 2
  | _ => 1

/-- The units of a domain (R21); of the SRAM tile-check units, one for each region of R364. -/
def unitsOf (d : Nat) : Nat := [0, 6, 52, 271, 67, 35, 264, 3, 10].getD d 0

/-- The crossings of structures 1 and 2, by initiating and target domain, and how many there are (R21, R25, R399; DEDUCED:
the units' places among the clocks). -/
def crossLinks : List (Crossing × Nat × Nat × Nat) :=
  [(.portReceive, 4, 4, 64), (.portTransmit, 4, 4, 64), (.mgmtReceive, 4, 4, 1), (.stamps, 4, 4, 64), (.stamps, 2, 4, 64),
   (.stamps, 2, 5, 8), (.engineAccess, 5, 5, 10), (.engineAccess, 5, 6, 10), (.engineAccess, 5, 8, 10), (.dramAccess, 5, 8, 4),
   (.dramAccess, 6, 8, 4), (.dramAccess, 8, 8, 4), (.keepAccess, 6, 1, 4), (.keepAccess, 2, 1, 1)]
  ++ [2, 3, 4, 5, 6, 7, 8].map (fun d => (.stamps, d, 6, unitsOf d))
  ++ [2, 3, 4, 5, 6, 7, 8].map (fun d => (.registerAccess, 6, d, 4 * unitsOf d))

/-- Entries that the crossings between two domains can hold in flight (R399). -/
def crossCapacity (a b : Nat) : Nat :=
  (crossLinks.filter fun l => (l.2.1 == a && l.2.2.1 == b) || (l.2.1 == b && l.2.2.1 == a)).foldl
    (fun n l => n + crossWays l.1 * crossDepth l.1 * l.2.2.2) 0

/-- A request/response crossing from one domain to another (R398, R403). -/
def requestCrossing (a b : Nat) : Bool :=
  crossLinks.any fun l => crossStructure l.1 == .requestResponse && l.2.1 == a && l.2.2.1 == b

/-! ## Counting pulses (R405) -/

/-- The greatest value of a count. -/
def pulseMax : Nat := 2 ^ crossDepth .pulses - 1

/-- Pulses of a source domain were lost: the bit of the domain, and the first time code 0x150B. -/
def State.pulseLost (s : State) (source destination : Nat) : State :=
  let v := s.nn Obj.xing_pulse_overflow
  if bit v (source - 1) then s
  else (s.putN Obj.xing_pulse_overflow (setBit v (source - 1) true)).log 0x0800 0x150B (be 1 source ++ be 1 destination)

/-- A frame discarded on the PCS side while the port's MAC is in reset: a pulse held for rx_filtered (R258, R405). -/
def State.holdPulse (s : State) (n : Fin 64) : State :=
  let c := (s.ports[n]).held
  if c < pulseMax then s.setPort n { s.ports[n] with held := c + 1 } else s.pulseLost 4 4

/-- The MAC resumes: the first transfer delivers the count whole (R405). -/
def State.deliverPulses (s : State) (n : Fin 64) : State :=
  let c := (s.ports[n]).held
  if c = 0 then s else (s.bump (Obj.rx_filtered n) c).setPort n { s.ports[n] with held := 0 }

/-! ## Sides released from reset (R404) -/

/-- A domain leaves reset, wholly or one of its units: its crossings resynchronise. -/
def State.releaseSide (s : State) (d : Nat) (whole : Bool) : State :=
  { s with sys := { s.sys with resync := d :: s.sys.resync,
                               parts := if whole then s.sys.parts.filter fun p => p ≠ d else d :: s.sys.parts,
                               resynced := s.sys.resynced.filter fun c => c / 256 ≠ d && c % 256 ≠ d } }

/-- Both sides of a crossing were reset whole: nothing is in flight (R404). -/
def State.bothReset (s : State) (a b : Nat) : Bool :=
  s.sys.resync.contains a && s.sys.resync.contains b && !s.sys.parts.contains a && !s.sys.parts.contains b

/-- Entries that may be in flight when the crossings of two domains resynchronise (R399, R404). -/
def State.inFlight (s : State) (a b : Nat) : Nat := if s.bothReset a b then 0 else crossCapacity a b

end Sys2Proof.Machine
end

