-- ==== Sys2Proof/Machine/Timebase.lean ====
section
/-! DEFINITION. The timebase (chapter 4): rate requests and their clamps, segments, seeds and steps, leap seconds, NTP
time, the journal. -/

namespace Sys2Proof.Machine

/-! ## Rate terms and clamps (R92) -/

/-- A frequency term in 10^-18 as a rate in 2^-60 (R92 stage 1). -/
def rateOfTerm (x : Int) : Int := rneDiv (x * 2 ^ 60) (10 ^ 18)

/-- The largest magnitude of a segment rate, 500 ppm (R87). -/
def rateMax : Int := 576460752303423

/-- tb_state reads RATE_ONLY. -/
def State.rateOnly (s : State) : Bool := s.n Obj.tb_state == 2

/-- The steering term in force, in 10^-18 (R137). -/
def State.steeringTerm (s : State) : Int := s.n Obj.steering_applied * 1000000

/-- Phase correction plus steering before and after the clamp of stage 2, as rates. -/
def State.corrRates (s : State) : Int × Int :=
  let sum := rateOfTerm s.loops[0].phaseCorr + rateOfTerm s.steeringTerm
  let lim := rateOfTerm (s.n Obj.rate_limit * 1000000)
  (sum, if s.rateOnly then clampInt (-lim) lim sum else sum)

/-- The requested segment rate after stages 1 to 3 (R92). -/
def State.requestedRate (s : State) : Int :=
  clampInt (-rateMax) rateMax (s.corrRates.2 + rateOfTerm s.loops[0].freqEst)

/-- The newest segment: fixed, issued or in force. -/
def Timebase.newest (t : Timebase) : Segment :=
  match t.fixed with
  | g :: _ => g
  | [] => {}

/-- The bound A of stage 4 over `dt` ticks (R92). -/
def State.slopeBound (s : State) (dt : Nat) : Int :=
  s.n Obj.slope_limit * 2 ^ 60 * dt / (10 ^ 12 * 1250000000)

/-- Merge a request: the most recent rate, and any pending step (R91). Two owner steps that wait together add. -/
def mergeKind (old new : SegKind) : SegKind :=
  match old, new with
  | .rate _, k => k
  | k, .rate _ => k
  | .ownerStep a _, .ownerStep b n => .ownerStep (a + b) n
  | _, k => k

/-- The spec's causes of R105. -/
def SegKind.cause : SegKind → Nat
  | .rate false => 4
  | .rate true => 5
  | .seed _ _ _ _ => 1
  | .withdraw => 6
  | .firstStep _ _ => 2
  | .ownerStep _ _ => 3

/-- The amount added to the conversion of the start stamp (R90). -/
def SegKind.amount : SegKind → Int
  | .seed a _ _ _ => a
  | .firstStep a _ => a
  | .ownerStep a _ => a
  | _ => 0

/-- The segment starts with a step or a seed (R87). -/
def SegKind.isStep : SegKind → Bool
  | .seed _ _ _ _ | .firstStep _ _ | .ownerStep _ _ => true
  | _ => false

/-- Device time is seeded in the new segment (R93). -/
def SegKind.validAfter (k : SegKind) (before : Bool) : Bool :=
  match k with
  | .seed _ _ _ _ => true
  | .withdraw => false
  | _ => before

/-- The journal of a clamp whose period begins (R92, codes 0x2006 and 0x2007). -/
def State.logClamp (s : State) (code : Nat) (asked applied : Int) : State := s.log 0 code (be 8 asked ++ be 8 applied)

/-- What the timebase state machine does when the segment of a request is issued (R93, R94, R96), journalled at the
segment's start stamp. -/
def State.segKindEffect (s : State) (k : SegKind) (start : Nat) : State :=
  match k with
  | .rate _ => s
  | .seed _ src unc slot =>
    let s := s.putN Obj.tb_state (if src = 3 then 2 else 1)
    let s := s.putN Obj.seed_source src
    let s := if src = 3 then s.bump Obj.step_count else s
    let s := { s with tb := { s.tb with firstDone := s.tb.firstDone || src == 3 } }
    s.logAt start 0 0x2001 (be 1 src ++ durToBytes (if src = 3 then 0 else unc) ++ be 2 (if src = 3 then (slot : Int) else 0xFFFF))
  | .withdraw => s.putN Obj.tb_state 0
  | .firstStep a slot =>
    let s := (s.putN Obj.tb_state 2).bump Obj.step_count
    let s := { s with tb := { s.tb with firstDone := true } }
    s.logAt start 0 0x2003 (durToBytes (unitsToNs a) ++ be 2 slot)
  | .ownerStep a n =>
    (s.bump Obj.step_count).logAt start 0 0x2005 (durToBytes (unitsToNs a) ++ be 1 n)

/-- The segment of a request at a start tick (R90-R92): the rate under the slope clamp, the start time continuous but for the
step amount. -/
def State.segmentAt (s : State) (w : SegRequest) (tick : Nat) : Segment :=
  let cur := s.tb.newest
  let a := s.slopeBound (tick - cur.start / 256)
  { seq := cur.seq + 1, start := tick * 256, time := cur.convert (tick * 256) + w.kind.amount,
    rate := if s.rateOnly then clampInt (cur.rate - a) (cur.rate + a) w.rate else w.rate,
    valid := w.kind.validAfter cur.valid, step := w.kind.isStep, cause := w.kind.cause }

/-- Fix the segment of a request at a start tick: it takes the request's place, is issued 40 to 60 ticks before its start (R89),
the number being open, and the slope clamp that acts is journalled once (R92). -/
def State.fixAt (s : State) (w : SegRequest) (tick : Nat) : State :=
  let g := s.segmentAt w tick
  let clamped := g.rate != w.rate
  let s := if clamped && !s.tb.slopeClamped then s.logClamp 0x2007 w.rate g.rate else s
  let (x, s) := s.freeNat
  { s with tb := { s.tb with issued := some g, issueTick := tick - (40 + x % 21), want := none, slopeClamped := clamped,
                             followUp := if clamped then some w.rate else none,
                             seedTime := match w.kind with | .seed .. => g.time | _ => s.tb.seedTime } }

/-- Fix a segment at a start tick for a request, with what the timebase does at it. -/
def State.issueAt (s : State) (w : SegRequest) (tick : Nat) : State := (s.fixAt w tick).segKindEffect w.kind (tick * 256)

/-- A pending scheduled commit holds an owner step whose start lies so near that no other segment may be issued in the 10 µs
before it, or is reached (R91): the fields of a segment are fixed less than 2 µs before it is issued. -/
def State.stepReserved (s : State) : Bool :=
  s.sched.any fun c => c.items.any (fun i => i.key == Obj.step_amount) && decide (c.time - 786432000 ≤ s.time)

/-- Fix the waiting request once the spacing of 2500 ticks allows it (R89, R91, R245): its start lies at least 2000 ticks ahead;
by how many more is open (log entry 199). A segment reserved for a scheduled owner step forbids it. -/
def State.tryIssue (s : State) : State :=
  match s.tb.issued, s.tb.want with
  | none, some w =>
    let earliest := s.tb.newest.start / 256 + 2500
    if s.stepReserved || !s.tb.running || s.tb.raw + 2060 < earliest then s
    else
      let (x, s) := s.freeNat
      s.issueAt w (max (s.tb.raw + 2000 + x % 61) earliest)
  | _, _ => s

/-- Form a request with the present terms (R91): none waits while the rate equals the current one and no step or seed is
pending. A slope clamp's period ends where the request meets the current rate (R92). -/
def State.wantSegment (s : State) (k : SegKind) : State :=
  let (asked, applied) := s.corrRates
  let clamped := asked != applied
  let s := if clamped && !s.tb.rateClamped then s.logClamp 0x2006 asked applied else s
  let r := s.requestedRate
  let kind := match s.tb.want with
    | some w => mergeKind w.kind k
    | none => k
  let want : Option SegRequest :=
    match kind with
    | .rate _ => if r = s.tb.newest.rate then none else some { rate := r, kind }
    | _ => some { rate := r, kind }
  { s with tb := { s.tb with want, rateClamped := clamped, slopeClamped := s.tb.slopeClamped && want.isSome, followUp := none,
                              rateCorr := rneDiv (applied * 10 ^ 18) (2 ^ 60) } }

/-- Ask for a segment with the present terms, issued as soon as the spacing allows (R91). -/
def State.requestSegment (s : State) (k : SegKind) : State := (s.wantSegment k).tryIssue

/-- Fix the segment of a scheduled owner step at the start tick reserved for it (R91, R245): it takes precedence over the
spacing and carries the request that waits. -/
def State.reserveStep (s : State) (id : Nat) (k : SegKind) (tick : Nat) : State :=
  let before := s.tb.want
  let s := s.wantSegment k
  match s.tb.want with
  | some w =>
    let s := s.fixAt w tick
    { s with tb := { s.tb with reserved := some { id, before, kind := w.kind } } }
  | none => s

/-- The commit takes effect that a step segment was fixed for: the segment is issued, with what the timebase does at it. -/
def State.takeReserved (s : State) (r : StepReserve) : State :=
  match s.tb.issued with
  | some g => ({ s with tb := { s.tb with reserved := none } } : State).segKindEffect r.kind g.start
  | none => s

/-- The commit that a step segment was fixed for is gone, failed or withdrawn: the segment never starts, the request that
waited before it waits again. -/
def State.dropLostStep (s : State) : State :=
  match s.tb.reserved with
  | some r =>
    if s.sched.any fun c => c.id == r.id then s
    else { s with tb := { s.tb with issued := none, reserved := none, want := r.before } }
  | none => s

/-- Seed device time (R72, R93): the time that the source gives for a raw stamp, the source, its uncertainty, the slot. -/
def State.seed (s : State) (time : Int) (stamp : Nat) (source : Nat) (unc : Int) (slot : Nat) : State :=
  s.requestSegment (.seed (time - s.convert stamp) source unc slot)

/-! ## The segment history (R105) and the start of a segment -/

/-- The issued segment comes into force once its start stamp is reached; a step makes every loop's lock measurement start
afresh (R132). -/
def State.startIssued (s : State) : State :=
  match s.tb.issued with
  | some g =>
    if s.tb.running && g.start ≤ s.tb.raw * 256 then
      let s := { s with tb := { s.tb with segs := (g :: s.tb.segs).take 32, issued := none } }
      if g.step then { s with loops := s.loops.map fun l => { l with goodSince := none, freshFrom := g.start } } else s
    else s
  | none => s

/-- One 32-byte entry of the segment history (R105). -/
def Segment.bytes (g : Segment) : Bytes :=
  be 9 g.start ++ timeToBytes g.time ++ be 8 g.rate
    ++ be 1 ((g.cause * 16 + (if g.valid then 8 else 0) + (if g.step then 4 else 0) : Nat) : Int)

/-! ## UTC and NTP (R97-R101) -/

/-- TAI − UTC at a device time (R99). -/
def State.utcOffsetAt (s : State) (t : Int) : Int :=
  if s.n Obj.leap_delta ≠ 0 ∧ s.n Obj.leap_time ≤ t then s.n Obj.utc_offset + s.n Obj.leap_delta else s.n Obj.utc_offset

/-- A device time as an NTP timestamp: seconds, fraction, era (R101). -/
def State.ntpOf (s : State) (t : Int) : Nat × Nat × Nat :=
  let u := t / unitsPerS - s.utcOffsetAt t + 2208988800
  let f := rneDiv (t % unitsPerS * 65536) (10 ^ 9)
  let (u, f) := if f = 2 ^ 32 then (u + 1, 0) else (u, f)
  ((u % 2 ^ 32).toNat, f.toNat, (u / 2 ^ 32).toNat)

/-- The NTP seconds since era 0 that a 32-bit seconds field received from a client stands for: the era brings it within
2^31 s of device time (R101). -/
def State.ntpPlace (s : State) (sec : Nat) : Int :=
  let now := s.time / unitsPerS - s.utcOffsetAt s.time + 2208988800
  now + (((sec : Int) - now + 2 ^ 31) % 2 ^ 32 - 2 ^ 31)

/-- A duration in ns in the NTP short format, half to even (R101). -/
def ntpShort (ns : Int) : Nat := (clampInt 0 (2 ^ 32 - 1) (rneDiv (ns * 65536) (10 ^ 9))).toNat

/-- The leap indicator of the leap schedule (R99): 1 insertion ahead, 2 deletion ahead, 0 otherwise. -/
def State.leapIndicator (s : State) : Nat :=
  let d := s.n Obj.leap_delta
  let t := s.time
  let lt := s.n Obj.leap_time
  if d ≠ 0 ∧ lt - s.n Obj.leap_warning * unitsPerS ≤ t then (if d = 1 then 1 else 2) else 0

/-- The first day of a month, for a count of days since 1970-01-01 (proleptic Gregorian calendar). -/
def firstOfMonth (days : Int) : Bool :=
  let z := days + 719468
  let era := z / 146097
  let doe := z - era * 146097
  let yoe := (doe - doe / 1460 + doe / 36524 - doe / 146096) / 365
  let doy := doe - (365 * yoe + yoe / 4 - yoe / 100)
  let mp := (5 * doy + 2) / 153
  doy - (153 * mp + 2) / 5 + 1 == 1

/-- The checks of R98 on a leap schedule: offset, leap time, direction, at a device time. -/
def leapOk (offset leapTime delta now : Int) : Bool :=
  if delta = 0 then leapTime == 0
  else
    let sec := leapTime / unitsPerS
    leapTime % unitsPerS == 0 && now + unitsPerS < leapTime
      && (sec - offset) % 86400 == (if delta = 1 then 0 else 86399)
      && firstOfMonth ((sec - offset + (if delta = 1 then 0 else 1)) / 86400)

/-- Adopt a UTC offset and leap schedule from the active slot (R100): `sched` is none where the slot carries no schedule,
`some none` where it states that no leap is scheduled. A schedule that fails R98 is not adopted. DESIGN CHOICE (log entry
149): an offset outside the 0-255 of the object is adopted as the slot carries it. -/
def State.adoptLeap (s : State) (offset : Int) (sched : Option (Option (Int × Int))) : State :=
  if s.flag Obj.leap_source_lock || s.n Obj.timing_condition != 2 then s
  else
    let cur := (s.n Obj.leap_time, s.n Obj.leap_delta)
    let next := match sched with
      | some (some (t, d)) => if leapOk offset t d s.time then (t, d) else cur
      | some none => (0, 0)
      | none => cur
    if offset = s.n Obj.utc_offset ∧ next = cur then s
    else
      let s := ((s.putN Obj.utc_offset offset).putN Obj.leap_time next.1).putN Obj.leap_delta next.2
      s.log 0 0x2009 (be 2 offset ++ be 1 next.2 ++ be 8 (next.1 / unitsPerS))

/-! ## The meanings -/

/-- SLOPE_FOLLOWUP_SEGMENT (R91, R89): while the slope clamp holds the rate away from the request, a follow-up segment
starts 12,500,000 ticks after the previous segment's start. DESIGN CHOICE (log entry 150): one that a reserved owner step
has held back past that tick starts 2000 to 2060 ticks after it is fixed. -/
def execSlopeFollowupSegment (s : State) : Host.Outcome State Fault Refusal :=
  match s.tb.followUp, s.tb.issued with
  | some r, none =>
    let tick := s.tb.newest.start / 256 + 12500000
    let w : SegRequest := { rate := r, kind := .rate false }
    if !s.tb.running || s.stepReserved || s.tb.raw + 2060 < tick then .next s
    else if s.tb.raw + 2000 ≤ tick then .next (s.issueAt w tick)
    else
      let (x, s) := s.freeNat
      .next (s.issueAt w (s.tb.raw + 2000 + x % 61))
  | _, _ => .next s

/-- LEAP_COMPLETE (R99): an insertion completes one second after leap_time, a deletion at leap_time. -/
def execLeapComplete (s : State) : Host.Outcome State Fault Refusal :=
  let d := s.n Obj.leap_delta
  let due := s.n Obj.leap_time + (if d = 1 then unitsPerS else 0)
  if d ≠ 0 ∧ due ≤ s.time then
    let o := s.n Obj.utc_offset + d
    let s := ((s.putN Obj.utc_offset o).putN Obj.leap_time 0).putN Obj.leap_delta 0
    .next (s.log 0 0x2008 (be 1 d ++ be 2 o))
  else .next s

/-- The order of the journal (R102): stamp, source, code. -/
def JEntry.before (a b : JEntry) : Bool :=
  a.stamp < b.stamp || (a.stamp == b.stamp && (a.source < b.source || (a.source == b.source && a.code < b.code)))

/-- The first entry of a queue in journal order. -/
def firstEntry : List JEntry → Option JEntry
  | [] => none
  | e :: r =>
    match firstEntry r with
    | some f => if f.before e then some f else some e
    | none => some e

/-- JOURNAL_ENTRY_VISIBLE (R102): the first entry in order becomes visible once the raw counter has passed its stamp
by journal_reorder_delay; a full journal loses its lowest sequence. -/
def execJournalEntryVisible (s : State) : Host.Outcome State Fault Refusal :=
  match firstEntry s.journal.queue with
  | none => .next s
  | some e =>
    if !s.awake 6 || s.tb.raw * 256 < e.stamp + s.nn Obj.journal_reorder_delay * 1250 * 256 then .next s
    else
      let seq := (s.nn Obj.journal_newest_seq + 1) % 2 ^ 32
      let full := 4096 ≤ s.journal.visible.length
      let kept := if full then s.journal.visible.drop 1 else s.journal.visible
      let vis := kept ++ [{ e with seq }]
      let s := { s with journal := { s.journal with queue := s.journal.queue.erase e, visible := vis } }
      let s := ((s.putN Obj.journal_newest_seq seq).putN Obj.journal_count vis.length).count 8 0x0B
      .next (if full then s.bump Obj.journal_overflow else s)

/-- The 48 bytes of a journal entry (R102). -/
def JEntry.bytes (e : JEntry) : Bytes :=
  be 4 e.seq ++ be 9 e.stamp ++ timeToBytes e.time ++ be 2 e.source ++ be 2 e.code
    ++ be 1 ((if e.timeValid then 1 else 0) + (if e.held then 2 else 0)) ++ field e.data 0 16

/-- Admit the entries held at their sources once the control domain runs again (R103): one 0x1301 entry for each
domain whose queue overflowed. -/
def State.admitHeld (s : State) : State :=
  let lost := s.journal.lost
  let s := { s with journal := { s.journal with lost := [] } }
  lost.foldl (fun s (d, n) => (s.bump Obj.journal_overflow n).log 0 0x1301 (be 4 n ++ be 1 d)) s

end Sys2Proof.Machine
end

