-- ==== Sys2Proof/Machine/Frames.lean ====
section
/-! DEFINITION. Frames: the FCS, the headers the classifier front and the transmit path parse (R230, R249, R261, R294),
insertions and checksums (R246, R249, R250). -/

namespace Sys2Proof.Machine

/-- One bit of the IEEE 802.3 CRC-32, reflected. -/
def fcsBit : Nat → Nat → Nat
  | 0, c => c
  | k + 1, c => fcsBit k (if c % 2 = 1 then (c / 2) ^^^ 0xEDB88320 else c / 2)

/-- The FCS bytes of a frame, in transmission order (IEEE 802.3). -/
def fcs (b : Bytes) : Bytes :=
  let c := (b.foldl (fun c x => fcsBit 8 (c ^^^ x.toNat)) 0xFFFFFFFF) ^^^ 0xFFFFFFFF
  [BitVec.ofNat 8 c, BitVec.ofNat 8 (c / 2 ^ 8), BitVec.ofNat 8 (c / 2 ^ 16), BitVec.ofNat 8 (c / 2 ^ 24)]

/-- A frame with its FCS passes the FCS check (R230). -/
def fcsOk (b : Bytes) : Bool := b.drop (b.length - 4) == fcs (b.take (b.length - 4))

/-- The header fields a frame shows. -/
structure Headers where
  tagged : Bool := false
  vid : Nat := 0
  etype : Nat := 0
  /-- Offset of what follows the ethertype. -/
  after : Nat := 14
  v4 : Bool := false
  v6 : Bool := false
  l3 : Nat := 0xFFFF
  l4 : Nat := 0xFFFF
  payload : Nat := 0xFFFF
  proto : Nat := 0
  /-- UDP payload length, from the UDP header. -/
  udpLen : Nat := 0
deriving DecidableEq, Repr

/-- The network and transport headers at an offset: IPv4 with any IHL, IPv6 without extension headers, then UDP or TCP;
a later fragment shows no transport header. -/
def ipHeaders (b : Bytes) (h : Headers) : Headers :=
  let i := h.after
  if h.etype = 0x0800 && fieldN b i 1 / 16 = 4 && 5 ≤ fieldN b i 1 % 16 && i + fieldN b i 1 % 16 * 4 ≤ b.length then
    let l4 := i + fieldN b i 1 % 16 * 4
    let proto := fieldN b (i + 9) 1
    let h := { h with v4 := true, l3 := i, proto := proto }
    if fieldN b (i + 6) 2 % 8192 ≠ 0 then h
    else if proto = 17 && l4 + 8 ≤ b.length then { h with l4 := l4, payload := l4 + 8, udpLen := fieldN b (l4 + 4) 2 - 8 }
    else if proto = 6 && l4 + 20 ≤ b.length then { h with l4 := l4 }
    else h
  else if h.etype = 0x86DD && fieldN b i 1 / 16 = 6 && i + 40 ≤ b.length then
    let proto := fieldN b (i + 6) 1
    let h := { h with v6 := true, l3 := i, proto := proto }
    if proto = 17 && i + 48 ≤ b.length then { h with l4 := i + 40, payload := i + 48, udpLen := fieldN b (i + 44) 2 - 8 }
    else if proto = 6 && i + 60 ≤ b.length then { h with l4 := i + 40 }
    else h
  else h

/-- Skip up to `n` tags of the TPIDs; the outer one gives the VID. -/
def skipTags (tpids : List Nat) (b : Bytes) : Nat → Headers → Headers
  | 0, h => { h with etype := fieldN b (h.after - 2) 2 }
  | n + 1, h =>
    if tpids.contains (fieldN b (h.after - 2) 2) && h.after + 4 ≤ b.length then
      skipTags tpids b n { h with tagged := true, vid := if h.tagged then h.vid else fieldN b h.after 2 % 4096, after := h.after + 4 }
    else { h with etype := fieldN b (h.after - 2) 2 }

/-- What the receive path reads of a frame without FCS: one outer tag of the port's TPID (R231, R261); the payload of a
layer-2 PTP frame is its PTP header (R294). -/
def rxHeaders (tpid : Nat) (b : Bytes) : Headers :=
  let h := ipHeaders b (skipTags [tpid] b 1 {})
  if h.etype = 0x88F7 then { h with payload := h.after } else h

/-- What the transmit path parses (R249): up to two tags, IPv4 or IPv6, UDP. -/
def txHeaders (b : Bytes) : Headers := ipHeaders b (skipTags [0x8100, 0x88A8] b 2 {})

/-- The one's complement of a 16-bit number. -/
def not16 (x : Nat) : Nat := 65535 - x % 65536

/-- The one's complement sum of two 16-bit numbers. -/
def addc16 (a b : Nat) : Nat := fold16 (a % 65536 + b % 65536)

/-- The IPv4 header checksum over a header whose checksum field is taken as zero (R249). -/
def ipv4Sum (b : Bytes) (l3 : Nat) : Nat :=
  let len := fieldN b l3 1 % 16 * 4
  let hdr := field b l3 len
  not16 (fold16 (sum16 (patch hdr 10 [0, 0])))

/-- The sum of a field's 16-bit words, aligned to its parity within the UDP datagram. -/
def alignedSum (l4 offset : Nat) (f : Bytes) : Nat :=
  if (offset - l4) % 2 = 0 then fold16 (sum16 f) else fold16 (sum16 (0 :: f))

/-- RFC 1624: the checksum after a field changes from `old` to `new` (R249). -/
def csumUpdate (c old new : Nat) : Nat := not16 (addc16 (addc16 (not16 c) new) (not16 old))

/-- The fields an insertion writes: offset and new bytes (R246), for a transmit stamp and its device time `t`. Kind 1: the NTP timestamp; kind 2: the PTP Timestamp and
the correctionField at offset − 26; kind 3: the raw stamp. -/
def State.insertions (s : State) (kind offset stamp : Nat) (t : Int) (b : Bytes) : List (Nat × Bytes) :=
  match kind with
  | 1 => let n := s.ntpOf t
         [(offset, beNat 4 n.1 ++ beNat 4 n.2.1)]
  | 2 => let sub := t % unitsPerS
         let cf := signed 64 (fieldN b (offset - 26) 8) + sub % 65536
         [(offset, be 6 (t / unitsPerS) ++ be 4 (sub / 65536)), (offset - 26, be 8 cf)]
  | 3 => [(offset, beNat 9 stamp)]
  | _ => []

/-- A frame as it leaves: the insertions `ins` made, checksums corrected (R246, R249, R250); and whether a checksum action was
skipped because the frame does not parse. -/
def EFrame.departing (f : EFrame) (ins : List (Nat × Bytes)) : Bytes × Bool :=
  let out := ins.foldl (fun b x => patch b x.1 x.2) f.data
  let h := txHeaders f.data
  let wantIp := bit f.flags 7
  let wantUdp := bit f.flags 6 || bit f.flags 5
  if !(wantIp || wantUdp) then (out, false)
  else if h.payload = 0xFFFF || h.proto ≠ 17 || !(h.v4 || h.v6) then (out, true)
  else
    let out := if wantIp && h.v4 then patch out (h.l3 + 10) (beNat 2 (ipv4Sum out h.l3)) else out
    let c := fieldN f.data (h.l4 + 6) 2
    -- the change the inserted fields make
    let upd := fun (c : Nat) =>
      (ins.filter fun x => h.l4 ≤ x.1).foldl (fun c x => csumUpdate c (alignedSum h.l4 x.1 (field f.data x.1 x.2.length)) (alignedSum h.l4 x.1 x.2)) c
    let out :=
      if bit f.flags 5 && h.v6 then
        -- R250: the trailing two payload bytes take the value that keeps the emitted checksum correct
        let i := h.l4 + 6 + h.udpLen
        let d := addc16 (upd c) (not16 c)
        patch out i (beNat 2 (if (i - h.l4) % 2 = 0 then d else d % 256 * 256 + d / 256))
      else if bit f.flags 6 && !(h.v4 && c = 0) then
        let c' := upd c
        patch out (h.l4 + 6) (beNat 2 (if c' = 0 then 65535 else c'))
      else out
    (out, false)

/-- A frame padded to 60 bytes with its FCS (R304). -/
def withFcs (b : Bytes) : Bytes :=
  let b := b ++ List.replicate (60 - b.length) 0
  b ++ fcs b

end Sys2Proof.Machine
end

