-- ==== Sys2Proof/Machine/Profile.lean ====
section
/-! DEFINITION. The defaults a PTP profile gives an instance's objects (R15, R313). -/

namespace Sys2Proof.Machine

def State.profile (s : State) (i : Fin 4) : Nat := s.nn (Obj.profile i)

/-- A profile's default, used where the object holds no committed value, which the store shows by a value outside the
object's range. -/
def State.orDefault (s : State) (i : Fin 4) (key sentinel : Nat) (l : List Int) : Int :=
  if s.n key = sentinel then l.getD (s.profile i) 0 else s.n key

def State.domain (s : State) (i : Fin 4) : Nat := (s.orDefault i (Obj.domain_number i) 255 [0, 0, 24, 44, 127, 0, 0]).toNat
def State.logSync (s : State) (i : Fin 4) : Int := s.orDefault i (Obj.log_sync i) 100 [0, 0, -4, -4, -3, -3, -3]
def State.logAnnounce (s : State) (i : Fin 4) : Int := s.orDefault i (Obj.log_announce i) 100 [1, 1, -3, -3, -2, 1, 0]
def State.logDelay (s : State) (i : Fin 4) : Int := s.orDefault i (Obj.log_delay_req i) 100 [0, 0, -4, -4, -3, 0, 0]
def State.unicastOn (s : State) (i : Fin 4) : Bool := s.orDefault i (Obj.unicast_enable i) 2 [0, 0, 0, 1, 0, 0, 0] == 1

/-- The objects whose default is the profile's, and priority1 of a profile that fixes it, as a read shows them (R15, R315). -/
def State.viewProfile (s : State) (key : Nat) : Option Int :=
  (List.finRange 4).findSome? fun (i : Fin 4) =>
    if key = Obj.domain_number i then some (s.domain i : Int)
    else if key = Obj.log_sync i then some (s.logSync i)
    else if key = Obj.log_announce i then some (s.logAnnounce i)
    else if key = Obj.log_delay_req i then some (s.logDelay i)
    else if key = Obj.priority1 i && (s.profile i = 2 || s.profile i = 3) then some 128
    else if key = Obj.unicast_enable i then some (if s.unicastOn i then 1 else 0)
    else none

end Sys2Proof.Machine
end

