-- ==== Sys2Proof/Machine/PtpPorts.lean ====
section
/-! DEFINITION. The ports of PTP instances and the states of their port state machine (R310, R311). -/

namespace Sys2Proof.Machine

/-- 2^l seconds in ticks. -/
def logTicks (l : Int) : Nat := if 0 ≤ l then ticksS (2 ^ l.toNat) else ticksS 1 / 2 ^ l.natAbs

def State.member (s : State) (i : Fin 4) (n : Nat) : Bool := s.flag (Obj.inst_enable i) && bit (s.nn (Obj.member_ports i)) n

/-- A port of an instance. -/
def State.ptpPort (s : State) (i : Fin 4) (n : Nat) : PtpPort :=
  ((s.prot.insts[i].ports.find? fun p => p.1 == n).map fun p => p.2).getD {}

def portIns : List (Nat × PtpPort) → Nat → PtpPort → List (Nat × PtpPort)
  | [], k, x => [(k, x)]
  | (j, y) :: r, k, x => if k < j then (k, x) :: (j, y) :: r else if j = k then (k, x) :: r else (j, y) :: portIns r k x

def State.setInst (s : State) (i : Fin 4) (x : PtpInst) : State := { s with prot := { s.prot with insts := s.prot.insts.set i x } }

def State.setPtpPort (s : State) (i : Fin 4) (n : Nat) (x : PtpPort) : State :=
  s.setInst i { s.prot.insts[i] with ports := portIns s.prot.insts[i].ports n x }

/-- The states of IEEE 1588-2019 clause 9.2 (R311). -/
abbrev ptpFaulty : Nat := 2
abbrev ptpDisabled : Nat := 3
abbrev ptpListening : Nat := 4
abbrev ptpPreTransmitter : Nat := 5
abbrev ptpTransmitter : Nat := 6
abbrev ptpPassive : Nat := 7
abbrev ptpUncalibrated : Nat := 8
abbrev ptpReceiverState : Nat := 9

/-- Set a port's state (R311): code 0x5401. -/
def State.setPtpState (s : State) (i : Fin 4) (n : Nat) (v : Nat) : State :=
  let old := s.nn (Obj.port_state i n)
  if old = v then s
  else (s.putN (Obj.port_state i n) v).log (0x0100 + n) 0x5401 (beNat 1 i ++ beNat 1 old ++ beNat 1 v)

/-- The port is TIME_RECEIVER or about to become one, UNCALIBRATED (R311). -/
def State.followsParent (s : State) (i : Fin 4) (n : Nat) : Bool :=
  let v := s.nn (Obj.port_state i n)
  v == ptpReceiverState || v == ptpUncalibrated

/-- The state of a member port whose link is not up: DISABLED where the port is not enabled, else FAULTY (log entry 187). -/
def State.ptpDown (s : State) (n : Nat) : Nat := if s.flag (Obj.port_enable n) then ptpFaulty else ptpDisabled

/-- A port starts LISTENING, its announce receipt timeout running; where its link is not up it is FAULTY or DISABLED (R311). -/
def State.listenOn (s : State) (i : Fin 4) (n : Nat) : State :=
  if s.nn (Obj.link_state n) = 3 then
    (s.setPtpPort i n { s.ptpPort i n with
      timeoutAt := some (s.now + s.nn (Obj.announce_timeout i) * logTicks (s.logAnnounce i)), qualifyAt := none }).setPtpState i n ptpListening
  else s.setPtpState i n (s.ptpDown n)

/-- A member port that becomes one starts LISTENING (R311). -/
def State.startListening (s : State) (i : Fin 4) : State :=
  (List.range 64).foldl (fun (s : State) n =>
    if s.member i n && s.nn (Obj.port_state i n) = 0 then s.listenOn i n else s) s

/-- A port's link came up or went down: the port starts anew in every instance it runs in (R311). -/
def State.ptpLink (s : State) (n : Nat) : State :=
  (List.finRange 4).foldl (fun (s : State) (i : Fin 4) =>
    if s.member i n && s.nn (Obj.port_state i n) ≠ 0 then s.listenOn i n else s) s

end Sys2Proof.Machine
end

