-- ==== Sys2Proof/Machine/Samples.lean ====
section
/-! DEFINITION. The end of an emit: the reservation window (R296) and the sample records of ended threads (R420,
R421). -/

namespace Sys2Proof.Machine

/-- The reservation window's 44 bytes with a departure (R296). -/
def State.reservation (s : State) (port depart stamp : Nat) : Bytes :=
  let t := s.convertAhead stamp
  let n := s.ntpOf t
  [1, BitVec.ofNat 8 port, 0, 0] ++ beNat 9 (depart * 256) ++ beNat 9 stamp ++ timeToBytes t ++ beNat 4 n.1 ++ beNat 4 n.2.1

/-- The waiting time a thread adds when it becomes ready (R421): the longest wait, its address and its ticks. -/
def Thread.ready (x : Thread) (now : Nat) : Thread :=
  let d := now - x.waitFrom.2
  let m := match x.waitMax with
    | some (a, k) => if k < d then some (x.waitFrom.1, d) else some (a, k)
    | none => some (x.waitFrom.1, d)
  { x with wait := .none, waitMax := m }

/-- A thread starts to wait at the instruction at its present address. -/
def Thread.waits (x : Thread) (w : Wait) (now : Nat) : Thread := { x with wait := w, waitFrom := (x.pc, now) }

/-- Store a sample record of an engine (R420): with sample_mode 1 sampling stops after 1024 records, code 0x1702. -/
def State.storeSample (s : State) (e : Fin 8) (rec : Bytes) : State :=
  let g := s.serve.engines[e]
  if s.nn Obj.sample_mode = 1 && 1024 ≤ g.sampleCount then s
  else
    let s := s.setEngine e { g with samples := (rec :: g.samples).take 1024, sampleCount := g.sampleCount + 1 }
    let s := s.bump (Obj.sample_newest_seq e)
    if s.nn Obj.sample_mode = 1 && g.sampleCount + 1 = 1024 then s.log 0 0x1702 (be 1 (e.val : Nat)) else s

/-- The sample record of an ended thread (R421), when it is sampled: `depart` the tick of its last emit's departure. -/
def State.sampleEnded (s : State) (e : Fin 8) (x : EndedThread) (depart : Option Nat) : State :=
  let wasted := x.wasted || (x.endKind = 0 && 0 < x.emits && x.refused = x.emits)
  let s := if wasted then s.countE e 0x02 x.issued else s
  if !(bit (s.nn Obj.sample_enable) e) then s
  else
    let latency := match depart with
      | some d => min 0xFFFFFFFE ((d * 256 - x.since) / 256)
      | none => 0xFFFFFFFF
    let lim := s.nn Obj.sample_latency
    let late := lim ≠ 0 && depart.isSome && lim < latency
    if !(late || x.interval) then s
    else
      let seq := (s.nn (Obj.sample_newest_seq e) + 1) % 2 ^ 32
      let flags := (if x.timer then 128 else 0) + (if late then 64 else 0) + (if x.interval then 32 else 0)
        + (if wasted then 16 else 0) + x.emits
      s.storeSample e (beNat 4 seq ++ beNat 2 x.endPc ++ beNat 2 x.waitPc ++ beNat 1 x.entry ++ beNat 1 x.endKind
        ++ beNat 1 flags ++ beNat 1 x.thread ++ beNat 4 x.buffer ++ beNat 4 x.client ++ beNat 4 latency ++ beNat 2 x.issued
        ++ beNat 2 (min 65535 (x.waitTicks * 32 / 25)) ++ beNat 4 (s.nn Obj.snap_epoch % 2 ^ 32))

/-- An emit's departure is fixed (some (D, stamp)) or its frame is discarded (none): the reservation window of the
waiting thread (R296), or the record of the ended one (R420). -/
def State.emitDone (s : State) (owner : Option (Fin 8 × Fin 16 × Nat)) (port : Nat) (r : Option (Nat × Nat)) : State :=
  match owner with
  | none => s
  | some (e, t, serial) =>
    let s := if r.isSome then s.countE e 0x08 else s
    let x := s.thread e t
    if x.busy && x.serial = serial then
      let w := match r with
        | some (d, st) => s.reservation port d st
        | none => [2, BitVec.ofNat 8 port]
      let win := patch x.win 0x280 (w ++ List.replicate (64 - w.length) 0)
      let x := { x with win := win, refused := if r.isSome then x.refused else x.refused + 1 }
      s.setThread e t (if x.wait = .emit then x.ready s.now else x)
    else
      let g := s.serve.engines[e]
      match g.ended.find? fun y => y.serial = serial with
      | none => s
      | some y =>
        let s := s.setEngine e { g with ended := g.ended.filter fun z => z.serial ≠ serial }
        s.sampleEnded e { y with refused := if r.isSome then y.refused else y.refused + 1 } (r.map fun p => p.1)

/-- Discard every frame a predicate picks from a port's egress, counting each in an object and answering its thread. -/
def State.dropEgress (s : State) (n : Fin 64) (p : EFrame → Bool) (counter : Nat) : State :=
  let gone := s.ports[n].egress.filter p
  let s := s.setPort n { s.ports[n] with egress := s.ports[n].egress.filter fun f => !p f }
  gone.foldl (fun (s : State) f => (s.bump counter).emitDone f.owner n none) s

end Sys2Proof.Machine
end

