-- ==== Sys2Proof/Machine/Loops.lean ====
section
/-! DEFINITION. Clock clean-up and holdover (chapter 6): loop parameters, the oscillator model, the holdover bound, EFC. -/

namespace Sys2Proof.Machine

/-! ## Bandwidths (R133-R135) -/

/-- A bandwidth code's bandwidth in µHz (R133). -/
def bandwidth (k : Nat) : Nat :=
  if k = 20 then 4000000000 else [1, 2, 5].getD (k % 3) 1 * 10 ^ (k / 3 + 3)

/-- The largest code not above `k` whose bandwidth does not exceed a limit; code 0 at least (R134). -/
def bwLimited (limit : Nat) : Nat → Nat
  | 0 => 0
  | k + 1 => if bandwidth (k + 1) ≤ limit then k + 1 else bwLimited limit k

/-- The configured bandwidth code of a loop in its state (R135). -/
def State.bwConfigured (s : State) (d : Fin 4) : Nat :=
  if s.loops[d].state = .locked then s.nn (Obj.bw_track d) else s.nn (Obj.bw_acquire d)

/-- Set a loop's bandwidth in use for a measurement rate in µHz (R134, R135), none where nothing measures; each change is
journalled (R152). -/
def State.setBandwidth (s : State) (d : Fin 4) (rate : Option Nat) : State :=
  let conf := s.bwConfigured d
  let use := match rate with
    | some r => bwLimited (r / 20) conf
    | none => conf
  let l := s.loops[d]
  let s' := s.setLoop d { l with bwInUse := use, clamped := use < conf, rate := rate.getD 1000000000000 }
  if use = l.bwInUse then s'
  else s'.log 0 0x2102 (be 1 (d : Nat) ++ be 1 l.bwInUse ++ be 1 use ++ be 1 (if use < conf then 1 else 0))

/-! ## Gains (R133) -/

/-- |z − 1|² at a loop's −3 dB point, in 2^-80, for a bandwidth and a measurement rate in µHz: 2 − 2 cos Ω with
Ω = 2π × bandwidth / rate, by its series to Ω⁶, exact to 10^-8 for the bandwidths R134 allows. `tol` is the bandwidth's tolerance
in thousandths (R133). -/
def loopAngle (bw rate tol : Nat) : Nat :=
  let w2 := (6283185307179586 * bw * tol) ^ 2 * 2 ^ 80 / (10 ^ 18 * rate) ^ 2
  w2 - w2 * w2 / (12 * 2 ^ 80) + w2 * w2 * w2 / (360 * 2 ^ 160)

/-- A loop with the gains a = 2ζωT and b = ω²T² = a² / 4ζ², one update each T, has the closed-loop transfer
((a + b) z − a) / ((z − 1)² + (a + b) z − a): its power at |z − 1|² = u is at least one half. All in 2^-80. -/
def passes (u a b : Nat) : Bool :=
  decide (u * u * 2 ^ 80 ≤ a * a * u + a * b * u + b * b * 2 ^ 80 + a * u * u + 2 * b * u * 2 ^ 80)

/-- The integral gain that goes with a proportional one at a damping in units of 0.1, both in 2^-80. -/
def integralGain (damp a : Nat) : Nat := 25 * a * a / (damp * damp * 2 ^ 80)

/-- The largest proportional gain below r + 2^k, from r on, whose −3 dB point does not lie above the bandwidth's. -/
def gainAux (u damp : Nat) : Nat → Nat → Nat
  | 0, r => r
  | k + 1, r => if passes u (r + 2 ^ k) (integralGain damp (r + 2 ^ k)) then gainAux u damp k r else gainAux u damp k (r + 2 ^ k)

/-- The proportional gain a = 2ζωT, in 2^-80, of a type-2 loop with a bandwidth code, a damping in units of 0.1 and a
measurement rate in µHz: its closed loop falls to −3 dB at the bandwidth, which R133 sets within ±10%. At ζ = 5 and above its gain
peaks by less than 0.1 dB. -/
def loopGain (k damp rate : Nat) : Nat := gainAux (loopAngle (bandwidth k) rate (901 + Config.bwTolerance k damp % 199)) damp 80 0

/-- What the proportional path asks for an error in 2^-16 ns, 10^-18: −(a / T) × error. -/
def loopProp (k damp rate : Nat) (err : Int) : Int :=
  -rneDiv (err * (loopGain k damp rate * rate : Nat) * 10 ^ 3) (65536 * 2 ^ 80)

/-- What the integral path adds for an error in 2^-16 ns over `dt` stamps, 10^-18: −(b / T²) × error × time. -/
def loopInt (k damp rate : Nat) (err : Int) (dt : Nat) : Int :=
  -rneDiv (err * (dt * integralGain damp (loopGain k damp rate) * rate * rate : Nat)) (320 * 65536 * 2 ^ 80 * 10 ^ 12)

/-- The codes of R131. -/
def DpllState.code : DpllState → Nat
  | .freeRun => 0
  | .acquiring => 1
  | .locked => 2
  | .holdover => 3

/-- Move a loop to a state, journalled (R152). -/
def State.setDpll (s : State) (d : Fin 4) (x : DpllState) : State :=
  let l := s.loops[d]
  if l.state = x then s
  else
    let s := s.setLoop d { l with state := x, everLocked := l.everLocked || decide (x = .locked), goodSince := none }
    let s := if x = .locked then s.bump (Obj.lock_count d) else s
    s.log 0 0x2101 (be 1 (d : Nat) ++ be 1 l.state.code ++ be 1 x.code)

/-! ## The oscillator model (R141, R142) -/

/-- The codes of R142. -/
def ModelSt.code : ModelSt → Nat
  | .none => 0
  | .restored => 1
  | .learning => 2
  | .valid => 3
  | .frozen => 4

/-- The model is usable for holdover, free-run and the frequency check (R142). -/
def Holdover.usable (h : Holdover) : Bool :=
  match h.model with
  | .restored | .valid => true
  | .frozen => decide (h.frozenFrom = .valid)
  | _ => false

/-- Ticks of a day. -/
def dayTicks : Int := 86400 * 1250000000

/-- The model's temperature unit: 2^-32 of 0.01 °C. -/
abbrev tempUnit : Nat := 2 ^ 32

/-- A coefficient in 10^-18 per K times a temperature difference (R141). -/
def perKelvin (c d : Int) : Int := rneDiv (c * d) (100 * tempUnit)

/-- y0 carried forward by the aging term to an elapsed tick, 10^-18 (R141). -/
def Holdover.agedY0 (h : Holdover) (now : Nat) : Int := h.y0 + rneDiv (h.a * ((now : Int) - h.t0)) dayTicks.toNat

/-- y_p at an elapsed tick, 10^-18 (R141). -/
def Holdover.predict (h : Holdover) (now : Nat) : Int := h.agedY0 now + perKelvin h.c (h.tFilt - h.tRef)

/-- T_f after a reading that holds for `dt` ticks (R141): a first-order filter with time constant `tau` in s. DESIGN CHOICE
(log entry 151): taken step by step with the weight dt / (dt + tau). -/
def tempFilter (tau dt : Nat) (old new : Int) : Int := old + rneDiv ((new - old) * dt) (dt + ticksS tau)

/-- Sums of a list of integers. -/
def sumBy (f : LearnSample → Int) (l : List LearnSample) : Int := (l.map f).sum

/-- What a refit determines (R142): y0, a per day, c per K and three times their standard errors; none where the samples
leave a term or its error open. -/
structure Fit where
  y0 : Option Int := none
  a : Option Int := none
  c : Option Int := none
  uy : Option Int := none
  ua : Option Int := none
  uc : Option Int := none
deriving DecidableEq, Repr

/-- Three standard errors: sqrt(9 × residual sum × cofactor / (det² × degrees of freedom)), scaled; none without degrees of
freedom. -/
def stdErr3 (rss cof det dof scale : Int) : Option Int :=
  if dof ≤ 0 then none else some (roundSqrt (9 * rss * max 0 cof * (scale * scale)).toNat (det * det * dof).toNat : Nat)

/-- The least-squares fit of R142 over samples with the latest instant as t0 and the mean temperature as T0. Samples of one
temperature leave c open, samples of one instant a too. -/
def fitFull (l : List LearnSample) (t0 : Int) : Fit :=
  let n : Int := l.length
  let sumT := sumBy (·.temp) l
  let x1 := fun p : LearnSample => p.t - t0
  let x2 := fun p : LearnSample => n * p.temp - sumT
  let s1 := sumBy x1 l
  let s11 := sumBy (fun p => x1 p * x1 p) l
  let s12 := sumBy (fun p => x1 p * x2 p) l
  let s22 := sumBy (fun p => x2 p * x2 p) l
  let v0 := sumBy (·.y) l
  let v1 := sumBy (fun p => p.y * x1 p) l
  let v2 := sumBy (fun p => p.y * x2 p) l
  let yy := sumBy (fun p => p.y * p.y) l
  -- the temperature regressor sums to zero, so the cofactors of the normal matrix are these
  let c00 := s11 * s22 - s12 * s12
  let c01 := -(s1 * s22)
  let c02 := s1 * s12
  let c11 := n * s22
  let c12 := -(n * s12)
  let c22 := n * s11 - s1 * s1
  let det := n * c00 + s1 * c01
  let det2 := n * s11 - s1 * s1
  if s22 = 0 ∧ det2 ≤ 0 then { y0 := if 0 < n then some (rneDiv v0 n.toNat) else none }
  else if s22 = 0 then
    let b0 := s11 * v0 - s1 * v1
    let b1 := n * v1 - s1 * v0
    let rss := max 0 (det2 * yy - (b0 * v0 + b1 * v1))
    { y0 := some (rneDiv b0 det2.toNat), a := some (rneDiv (b1 * dayTicks) det2.toNat),
      uy := stdErr3 rss s11 det2 (n - 2) 1, ua := stdErr3 rss n det2 (n - 2) dayTicks }
  else if det ≤ 0 then {}
  else
    let b0 := c00 * v0 + c01 * v1 + c02 * v2
    let b1 := c01 * v0 + c11 * v1 + c12 * v2
    let b2 := c02 * v0 + c12 * v1 + c22 * v2
    let rss := max 0 (det * yy - (b0 * v0 + b1 * v1 + b2 * v2))
    let kelvin := n * 100 * tempUnit
    { y0 := some (rneDiv b0 det.toNat), a := some (rneDiv (b1 * dayTicks) det.toNat), c := some (rneDiv (b2 * kelvin) det.toNat),
      uy := stdErr3 rss c00 det (n - 3) 1, ua := stdErr3 rss c11 det (n - 3) dayTicks, uc := stdErr3 rss c22 det (n - 3) kelvin }

/-- The mean temperature of the samples (R142). -/
def meanTemp (l : List LearnSample) : Int := rneDiv (sumBy (·.temp) l) (max 1 l.length)

/-- The refit of a restored model that has learned too little: y0 and u_y only (R142). -/
def fitOffset (h : Holdover) (l : List LearnSample) (t0 : Int) : Fit :=
  let n := l.length
  let r := l.map fun p => p.y - rneDiv (h.a * (p.t - t0)) dayTicks.toNat - perKelvin h.c (p.temp - h.tRef)
  let sum := r.sum
  let sq := (r.map fun x => x * x).sum
  let rss := max 0 ((n : Int) * sq - sum * sum)
  { y0 := if n = 0 then none else some (rneDiv sum n), uy := stdErr3 rss 1 n ((n : Int) - 1) 1 }

/-- A term of a refit, a free value where the samples leave it open (log entry 152). -/
def State.orFree (s : State) (x : Option Int) : Int × State :=
  match x with
  | some v => (v, s)
  | none => s.freeInt

/-- The frequency term the estimator supplies: −y_p, plus the EFC compensations that the learning samples leave out
(R140, R141). -/
def State.estimatorTerm (s : State) : Int := s.hold.efcApplied - s.hold.predict s.now

/-! ## The holdover bound (R147-R149) -/

/-- The denominator of the bound: B is held in 1/boundDen of 10^-18 s, so that its growth is exact. -/
def boundDen : Int := 27000000000000000000000000

/-- B in ns, rounded half to even. -/
def Holdover.boundNs (h : Holdover) : Int := rneDiv h.bound (boundDen * 10 ^ 9).toNat

/-- The 3σ uncertainties of y0 (10^-18), a (per day) and c (per K): the specification values while the model is not usable
(R141, R147). -/
def State.uncY (s : State) : Int := if s.hold.usable then s.hold.uy else s.n Obj.osc_freq_spec * 1000000
def State.uncA (s : State) : Int := if s.hold.usable then s.hold.ua else s.n Obj.osc_aging_spec * 1000000
def State.uncC (s : State) : Int := if s.hold.usable then s.hold.uc else s.n Obj.osc_tempco_spec * 1000000

/-- Growth coefficients: constant rate, aging rate per day, in 10^-18 per s and 10^-18 per s per day (R147). -/
def State.growth (s : State) : Int × Int :=
  let h := s.hold
  let dev := (h.tFilt - h.tEntry).natAbs
  if h.episode && h.assist.isSome then (s.n Obj.assist_freq_unc * 1000000, 0)
  else if h.episode && s.loops[0].state = .acquiring then (0, 0)
  else (s.uncY + perKelvin s.uncC dev, s.uncA)

/-- The exact growth of B from elapsed tick `t1` to `t2` of an episode, over boundDen. -/
def growthOver (g : Int × Int) (t1 t2 : Int) : Int :=
  g.1 * (t2 - t1) * (boundDen / 1250000000) + g.2 * (t2 * t2 - t1 * t1) * 100

/-- Grow the bound to the present (R148). -/
def State.growBound (s : State) : State :=
  let h := s.hold
  if h.episode || h.fromSeed then
    let add := growthOver s.growth ((h.grownAt : Int) - h.start) ((s.now : Int) - h.start)
    { s with hold := { h with bound := h.bound + max 0 add, grownAt := s.now } }
  else s

/-- Move the model to a state, journalled (code 0x2106); the bound has grown to the change of its rate (R147). -/
def State.setModel (s : State) (m : ModelSt) : State :=
  if s.hold.model = m then s
  else
    let s' := s.growBound
    let s' := { s' with hold := { s'.hold with model := m } }
    s'.log 0 0x2106 (be 1 s.hold.model.code ++ be 1 m.code)

/-- Update the filtered die temperature from a reading in 0.01 °C (R141); the bound first grows under the temperature that
ends (R147). DESIGN CHOICE (log entry 151): the filter starts from its first reading, which is then T_h too of an entry that came
before it. -/
def State.updateTemp (s : State) (temp : Int) : State :=
  let s := s.growBound
  let h := s.hold
  let f := match h.tFiltAt with
    | some t => tempFilter (s.nn Obj.temp_tau) (s.now - t) h.tFilt (temp * tempUnit)
    | none => temp * tempUnit
  { s.putN Obj.die_temperature temp with hold :=
      { h with tFilt := f, tFiltAt := some s.now, tEntry := if h.tFiltAt.isSome then h.tEntry else f } }

/-- Whole seconds, half to even (R11), since an elapsed tick. -/
def State.secondsSince (s : State) (t : Nat) : Int := rneDiv ((s.now : Int) - t) 1250000000

/-- The largest number of seconds below 2^k + r for which a growth stays within a margin. -/
def remainingAux (g : Int × Int) (tau margin : Int) : Nat → Nat → Nat
  | 0, r => r
  | k + 1, r =>
    if growthOver g tau (tau + ((r + 2 ^ k : Nat) : Int) * 1250000000) ≤ margin then remainingAux g tau margin k (r + 2 ^ k)
    else remainingAux g tau margin k r

/-- holdover_remaining (R149), from the bound grown to the present. -/
def State.remaining (s : State) : Nat :=
  let h := s.growBound.hold
  if s.flag Obj.out_of_spec then 0
  else if !h.episode then 0xFFFFFFFF
  else
    let margin := s.n Obj.holdover_budget * 10 ^ 9 * boundDen - h.bound
    if margin < 0 then 0 else remainingAux s.growth ((s.now : Int) - h.start) margin 32 0

/-- End the holdover episode at a lock (R148), and the assistance of an operator slot's episode with it (code 0x2109). -/
def State.endEpisode (s : State) : State :=
  let h := s.hold
  if h.episode then
    let s := match h.assist with
      | some (_, _, i) => s.log (0x0200 + i) 0x2109 (be 1 0 ++ be 1 (i : Nat))
      | none => s
    let s := s.log 0 0x2105 (durToBytes h.boundNs ++ be 4 (s.secondsSince h.start))
    let s := { s with hold := { h with episode := false, fromSeed := false, bound := 0, assist := none } }
    ((s.putB Obj.out_of_spec false).putN Obj.holdover_remaining 0xFFFFFFFF).putB Obj.assist_active false
  else
    { s with hold := { h with fromSeed := false, bound := 0 } }

/-- The bound grows from a seed with its uncertainty in ns (R147). -/
def State.startSeedBound (s : State) (unc : Int) : State :=
  let h := s.hold
  { s with hold := { h with fromSeed := true, start := s.now, grownAt := s.now, tEntry := h.tFilt,
                            bound := unc * 10 ^ 9 * boundDen } }

/-- DPLL-T reaches LOCKED (R131, R132, R148). -/
def State.lockT (s : State) (rate : Option Nat) : State :=
  let s := (s.growBound.setDpll 0 .locked).endEpisode
  let s := { s with hold := { s.hold with lockedAt := some s.now } }
  s.setBandwidth 0 rate

/-- The mean of a loop's frequency estimates over its holdover_average, ending at the newest (R145). -/
def State.meanEstimate (s : State) (d : Fin 4) : Int :=
  match s.loops[d].history with
  | [] => s.loops[d].freqEst
  | (t, y) :: r =>
    let l := ((t, y) :: r).filter fun p => t ≤ p.1 + s.nn (Obj.holdover_average d) * 1250000000 * 256
    rneDiv (l.map (·.2)).sum l.length

/-- The bound of a loop by phase_slope_limit, in 10^-18 (R136). DPLL-T's phase-correction term is bounded by rate_limit too, where
stage 2 of R92 clamps its sum with steering. -/
def State.phaseLimit (s : State) (d : Fin 4) : Option Int :=
  let p := s.n (Obj.phase_slope_limit d)
  if p = 0 then none else some (p * 1000000)

/-- One update of a loop with an error and a stamp (R130, R135, R136): the integral path moves only when `integrate`. -/
def State.updateLoop (s : State) (d : Fin 4) (err : Int) (stamp : Nat) (integrate : Bool) : State :=
  let l := s.loops[d]
  let dt := stamp - l.lastStamp.getD stamp
  let damp := s.nn (Obj.damping d)
  let corr0 := loopProp l.bwInUse damp l.rate err
  let f := if integrate then l.freqEst + loopInt l.bwInUse damp l.rate err dt else l.freqEst
  let old := match (l.history.filter fun p => p.1 + 1250000000 * 256 ≤ stamp) with
    | p :: _ => p.2
    | [] => (l.history.getLastD (stamp, l.freqEst)).2
  let (f, corr) := match s.phaseLimit d with
    | none => (f, corr0)
    | some lim =>
      if d = 0 then (f, clampInt (-lim) lim corr0)
      else
        let f := clampInt (old - lim) (old + lim) f
        (f, clampInt (-lim) lim (corr0 + (f - old)) - (f - old))
  let keep := (if d.val < 2 then 3600 else 2) * (1250000000 * 256)
  let hist := ((stamp, f) :: l.history).filter fun p => stamp ≤ p.1 + keep
  s.setLoop d { l with freqEst := f, phaseCorr := corr, phaseErr := err, lastStamp := some stamp, history := hist,
                       freqWord := f + corr }

/-- The phase correction that the segment in force makes, 10^-18: what DPLL-T asks, or where a clamp acts what its rate
leaves beside the frequency estimate and steering (R92). -/
def State.corrInForce (s : State) : Int :=
  if s.tb.rateClamped || s.tb.slopeClamped then
    rneDiv (s.seg.rate * 10 ^ 18) (2 ^ 60) - s.loops[0].freqEst - s.steeringTerm
  else s.loops[0].phaseCorr

/-- Reduce pending_phase by what the phase correction has removed up to a stamp (R92): never past zero. -/
def State.reducePending (s : State) (stamp : Nat) : State :=
  let t := s.tb
  let moved := rneDiv (s.corrInForce * ((stamp : Int) - t.phaseStamp) * 1024) (5 * 10 ^ 18)
  let p := t.pendingPhase
  let p' := if 0 < p then clampInt 0 p (p + moved) else clampInt p 0 (p + moved)
  { s with tb := { t with pendingPhase := p', phaseStamp := stamp } }

/-- pending_phase takes more error, once it has been reduced to the present (R92, R110, R127). -/
def State.addPending (s : State) (e : Int) : State :=
  let s := s.reducePending s.stamp
  { s with tb := { s.tb with pendingPhase := s.tb.pendingPhase + e } }

/-- A loop's frequency estimate and word in force, 10^-18: in FREE_RUN DPLL-F takes DPLL-T's frequency term (R145). -/
def State.loopWord (s : State) (d : Fin 4) : Int × Int :=
  if d = 1 && s.loops[1].state == .freeRun then (s.loops[0].freqEst, s.loops[0].freqEst)
  else (s.loops[d].freqEst, s.loops[d].freqWord)

/-- An exact synthesiser phase in 2^-16 ns, half to even, and back. -/
def fineUnits (x : Int) : Int := rneDiv (x * 1024) (5 * 10 ^ 18)
def unitsFine (u : Int) : Int := u * 4882812500000000

/-! ## Meanings -/

/-- OSC_MONITOR (R138): the measured offset against the keep clock, ppt. DESIGN CHOICE (log entry 208): the alarm's end, one entry for an excess that lasts. -/
def execOscMonitor (offset : Int) (s : State) : Host.Outcome State Fault Refusal :=
  let s := s.putN Obj.osc_monitor_offset offset
  let above := s.n Obj.osc_monitor_limit * 1000000 < offset.natAbs
  if above && !s.flag Obj.osc_alarm then .next ((s.putB Obj.osc_alarm true).log 0 0x2108 (be 8 offset))
  else .next (s.putB Obj.osc_alarm above)

/-- MODEL_LEARN_SAMPLE (R142): one sample per second while DPLL-T is LOCKED without a transition and no dispute stops it; the
refit. -/
def execModelLearnSample (temp : Int) (s : State) : Host.Outcome State Fault Refusal :=
  let s := s.updateTemp temp
  let h := s.hold
  if s.loops[0].state ≠ .locked || s.selT.transition.isSome || h.model = .frozen || !s.disputes.isEmpty then .next s
  else
    let window := s.nn Obj.model_window
    let p : LearnSample := { t := s.now, y := h.efcApplied - s.loops[0].freqEst, temp := h.tFilt }
    let l := (p :: h.samples).filter fun x => (s.now : Int) - x.t ≤ (ticksS window : Nat)
    let learned := l.length
    let s := { s with hold := { h with samples := l, learned } }
    let s := if h.model = .none then s.setModel .learning else s
    let h := s.hold
    let offsetOnly := h.fromRestore && learned < s.nn Obj.model_min_learn
    let fit := if offsetOnly then fitOffset h l s.now else fitFull l s.now
    let (y0, s) := s.orFree fit.y0
    let (uy, s) := s.orFree fit.uy
    let s : State := { s with hold := { s.hold with y0, uy := uy.natAbs, t0 := s.now } }
    let s :=
      if offsetOnly then s
      else
        let (a, s) := s.orFree fit.a
        let (c, s) := s.orFree fit.c
        let (ua, s) := s.orFree fit.ua
        let (uc, s) := s.orFree fit.uc
        { s with hold := { s.hold with a, c, ua := ua.natAbs, uc := uc.natAbs, tRef := meanTemp l } }
    let s := s.putN Obj.model_learn_time (min learned window)
    if s.hold.model = .learning && s.nn Obj.model_min_learn ≤ learned then .next (s.setModel .valid)
    else if s.hold.model = .restored && 3600 ≤ learned then .next (s.setModel .valid)
    else .next s

/-- MODEL_RESET (R142): the committed model_reset := true makes the state NONE, without terms; the device writes false. -/
def execModelReset (s : State) : Host.Outcome State Fault Refusal :=
  let s := s.setModel .none
  let s := { s with hold := { s.hold with samples := [], learned := 0, fromRestore := false, frozenFrom := .none,
                                          y0 := 0, t0 := s.now, a := 0, c := 0, tRef := 0, uy := 0, ua := 0, uc := 0 } }
  .next ((s.putN Obj.model_learn_time 0).putB Obj.model_reset false)

/-- The predicted offset with the EFC in force, 10^-18 (R140). -/
def State.predictedOffset (s : State) : Int := s.hold.predict s.now - s.hold.efcApplied

/-- The least spacing of EFC updates in ticks (R140). -/
def State.efcSpacing (s : State) : Nat :=
  let slope := s.nn Obj.slope_limit
  max (ticksUs (s.nn Obj.efc_settle)) ((4 * (s.n Obj.efc_gain).natAbs * 1250000 + (slope - 1)) / slope)

/-- An EFC update is allowed now (R140). -/
def State.efcMay (s : State) : Bool :=
  s.flag Obj.efc_enable && decide (s.hold.model = .valid)
    && s.n Obj.efc_deadband * 1000000 < (s.hold.predict s.now).natAbs
    && (match s.hold.efcLast with | none => true | some t => t + s.efcSpacing ≤ s.now)
    && s.selT.transition.isNone && s.selF.transition.isNone
    && (match s.hold.lockedAt with | none => true | some t => t + ticksS (s.nn (Obj.lock_hold 0)) ≤ s.now)

/-- The frame on EFC_SDO (R139): the code in the top efc_bits of efc_frame_bits. -/
def State.efcFrame (s : State) (code : Nat) : Nat :=
  code * 2 ^ (s.nn Obj.efc_frame_bits - s.nn Obj.efc_bits)

/-- Write the DAC code (R139). -/
def State.writeDac (s : State) (code : Nat) : State :=
  { s.putN Obj.efc_code code with hold := { s.hold with dacCode := s.efcFrame code } }

/-- EFC_UPDATE (R140): the code moves by 1 LSB towards a zero predicted offset. DESIGN CHOICE (log entry 209): an offset below one step. -/
def execEfcUpdate (s : State) : Host.Outcome State Fault Refusal :=
  let gain := s.n Obj.efc_gain
  let y := s.predictedOffset
  if !s.efcMay || gain = 0 || y = 0 then .next s
  else
    let up := decide ((0 < gain) ≠ (0 < y))
    let code := s.nn Obj.efc_code
    if (up && 2 ^ s.nn Obj.efc_bits ≤ code + 1) || (!up && code = 0) then .next s
    else
      let code' := if up then code + 1 else code - 1
      let amount := (if up then -gain else gain) * 1000
      let turned := match s.hold.efcUp with
        | some u => u != up
        | none => false
      let s := s.writeDac code'
      let s := { s with hold := { s.hold with efcLast := some s.now, efcUp := some up,
                                              efcPending := s.hold.efcPending ++ [(s.now + ticksUs (s.nn Obj.efc_settle), amount)] } }
      let s := s.bump Obj.efc_update_count
      .next (if turned then s.log 0 0x2107 (be 4 code' ++ be 1 (if up then 1 else 0)) else s)

/-- Add a compensation to every loop's frequency estimate and word (R140). -/
def State.compensate (s : State) (x : Int) : State :=
  let add := fun l : Loop => { l with freqEst := l.freqEst + x, freqWord := l.freqWord + x }
  { s with loops := s.loops.map add, hold := { s.hold with efcApplied := s.hold.efcApplied + x, fTerm := s.hold.fTerm + x } }

/-- EFC_COMPENSATE (R140): the compensations due at the write stamp plus efc_settle act, all at one tick. -/
def execEfcCompensate (s : State) : Host.Outcome State Fault Refusal :=
  let due := s.hold.efcPending.filter fun p => p.1 ≤ s.now
  if due = [] then .next s
  else
    let s := { s with hold := { s.hold with efcPending := s.hold.efcPending.filter fun p => s.now < p.1 } }
    .next ((s.compensate (due.map (·.2)).sum).requestSegment (.rate false))

/-- STEERING (R137): a timed commit of steering changes the owner's term. -/
def execSteering (value : Int) (s : State) : Host.Outcome State Fault Refusal :=
  let s := (s.putN Obj.steering value).putN Obj.steering_applied value
  .next (s.requestSegment (.rate true))

/-- HOLDOVER_REMAINING_UPDATE (R149). -/
def execHoldoverRemainingUpdate (s : State) : Host.Outcome State Fault Refusal :=
  .next (s.putN Obj.holdover_remaining s.remaining)

/-- The model as a Snowdrop record (R143). -/
def State.modelRecord (s : State) : ModelRecord :=
  let h := s.hold
  { valid := decide (h.model = .valid), storedTime := (s.time / unitsPerS).toNat, y0 := h.agedY0 s.now, aging := h.a,
    tempco := h.c, tRef := rneDiv h.tRef tempUnit, uy := (rneDiv h.uy 1000).toNat, ua := (rneDiv h.ua 1000).toNat,
    uc := (rneDiv h.uc 1000).toNat, learnTime := s.nn Obj.model_learn_time, efcCode := s.nn Obj.efc_code }

/-- Bytes 0 to 59 of a model record (R143). -/
def ModelRecord.body (r : ModelRecord) : Bytes :=
  be 1 r.version ++ be 1 (if r.valid then 0x80 else 0) ++ be 8 r.storedTime ++ be 8 r.y0 ++ be 8 r.aging ++ be 8 r.tempco
    ++ be 2 r.tRef ++ be 4 r.uy ++ be 4 r.ua ++ be 4 r.uc ++ be 4 r.learnTime ++ be 4 r.efcCode ++ be 4 0

/-- The record's CRC and version pass (R144). -/
def ModelRecord.ok (r : ModelRecord) : Bool := r.version == 1 && r.crc == crc32c r.body

/-- Write the model to the next Snowdrop copy (R143). -/
def State.storeModel (s : State) : State :=
  if s.hold.model = .none then s
  else
    let r := s.modelRecord
    let r := { r with crc := crc32c r.body }
    let k := s.keep
    { s with keep := if k.nextB then { k with modelB := some r, nextB := false } else { k with modelA := some r, nextB := true } }

/-- MODEL_STORE (R143): every 60 s while main supply runs and the model state is 1 to 4. -/
def execModelStore (s : State) : Host.Outcome State Fault Refusal :=
  .next (if s.keep.mainGood then s.storeModel else s)

/-- The newer Snowdrop copy whose CRC and version pass (R144). -/
def Keep.bestModel (k : Keep) : Option ModelRecord :=
  match k.modelA.filter (·.ok), k.modelB.filter (·.ok) with
  | some a, some b => if b.storedTime < a.storedTime then some a else some b
  | some a, none => some a
  | none, x => x

/-- Restore the model at bring-up step 4 from Snowdrop, or start with none; write the EFC code (R139, R144). DESIGN CHOICE (log entry 210): a stored_time in the future. -/
def State.restoreModel (s : State) (snowdropSeconds : Option Int) : State :=
  let fallback := fun s : State => if s.flag Obj.efc_enable then s.writeDac (s.nn Obj.efc_initial) else s
  match s.keep.bestModel, snowdropSeconds with
  | some r, some t =>
    let el := t - r.storedTime
    if el < 0 || s.n Obj.model_restore_limit < el then fallback (s.setModel .none)
    else
      let adv := rneDiv (r.aging * el) 86400
      let uy := (r.uy : Int) * 1000 + s.n Obj.osc_retrace * 1000000 + rneDiv ((r.ua : Int) * 1000 * el) 86400
      let h := s.hold
      let s := { s with hold := { h with y0 := r.y0 + adv, t0 := s.now, a := r.aging, c := r.tempco, tRef := r.tRef * tempUnit,
                                         uy, ua := (r.ua : Int) * 1000, uc := (r.uc : Int) * 1000, fromRestore := true,
                                         samples := [], learned := 0 } }
      let s := s.setModel .restored
      if s.flag Obj.efc_enable then s.writeDac r.efcCode else s
  | _, _ => fallback (s.setModel .none)

end Sys2Proof.Machine
end

