-- ==== Sys2Proof/Machine/Slots.lean ====
section
/-! DEFINITION. Reference slots: sources, measurements, quality, checks and states (R107-R121). -/

namespace Sys2Proof.Machine

/-! ## Sources and classes (R107, R112) -/

def State.kind (s : State) (i : Fin 16) : Nat := s.nn (Obj.source_kind i)
def State.number (s : State) (i : Fin 16) : Nat := s.nn (Obj.source_number i)
def State.slotEnabled (s : State) (i : Fin 16) : Bool := s.flag (Obj.slot_enable i)

/-- The classes of R107 with the codes of slot_class. -/
inductive SlotClass where
  | f | p | t | o | unbound
deriving DecidableEq, Repr

def SlotClass.code : SlotClass → Nat
  | .f => 0
  | .p => 1
  | .t => 2
  | .o => 3
  | .unbound => 255

/-- The class of a slot (R107). -/
def State.slotClass (s : State) (i : Fin 16) : SlotClass :=
  match s.kind i with
  | 1 => if s.nn (Obj.refin_frequency (s.number i)) = 1000 then .p else .f
  | 2 | 3 | 5 | 6 => .t
  | 4 => .f
  | 7 => .o
  | _ => .unbound

/-- N of R112: the smallest integer for which the nominal frequency (mHz) over N is at most 1 kHz. -/
def refinDivider (mHz : Nat) : Nat := max 1 ((mHz + 999999) / 1000000)

/-- The monitored period as a fraction over the frequency in mHz, in 1/256 tick: Pm = period / mHz (R112). -/
def refinPeriodNum (mHz : Nat) : Nat := refinDivider mHz * 1000 * 320000000000

/-- The measurement rate of a slot in µHz (R112, R130, R134). -/
def State.slotRate (s : State) (i : Fin 16) : Option Nat :=
  match s.kind i with
  | 1 | 2 | 3 => let f := s.nn (Obj.refin_frequency (s.number i)); some (f * 1000 / refinDivider f)
  | 4 => some 100000000000
  | 5 =>
    let l := s.logSync (Fin.ofNat 4 (s.number i))
    some (if 0 ≤ l then 1000000 / 2 ^ l.toNat else 1000000 * 2 ^ (-l).toNat)
  | 6 => some (1000000000 / max 1 (s.nn Obj.obs_interval))
  | _ => none

/-! ## Measurements (R111) -/

/-- Stamps in one second. -/
abbrev stampS : Nat := 320000000000

/-- A slot's event at the reference plane: its stamp less slot_delay (R111). -/
def State.eventStamp (s : State) (i : Fin 16) (stamp : Nat) : Nat :=
  ((stamp : Int) - psToStamp (s.n (Obj.slot_delay i))).toNat

/-- The phase offset of an event: device time at the event, minus the carried time (R111). -/
def State.phaseOf (s : State) (i : Fin 16) (stamp : Nat) (carried : Int) : Int := s.convert (s.eventStamp i stamp) - carried

/-- Add a measurement, which replaces one of the same stamp; the list keeps one hour. -/
def Slot.addSample (x : Slot) (m : Sample) : Slot :=
  { x with samples := m :: x.samples.filter fun q => q.stamp ≠ m.stamp && m.stamp ≤ q.stamp + 3600 * stampS }

/-- The samples of the last `sec` seconds before the newest one. -/
def Slot.recent (x : Slot) (sec : Nat) : List Sample :=
  match x.samples with
  | [] => []
  | m :: _ => x.samples.filter fun q => m.stamp ≤ q.stamp + sec * stampS

/-- The mean phase offset over the last `sec` seconds of measurements (R111). -/
def Slot.phaseMean (x : Slot) (sec : Nat) : Option Int :=
  let l := (x.recent sec).filterMap (·.phase)
  if l = [] then none else some (rneDiv l.sum l.length)

/-- The phase offset of R111 as it stood at a measurement's stamp: the mean over the second up to it, of the measurements
since `from`. -/
def Slot.phaseAt (x : Slot) (stamp from' : Nat) : Option Int :=
  let l := (x.samples.filter fun q => q.stamp ≤ stamp && stamp ≤ q.stamp + stampS && from' ≤ q.stamp).filterMap (·.phase)
  if l = [] then none else some (rneDiv l.sum l.length)

/-- The slope of the phase offset over the last `sec` seconds, of the measurements since `from`, 10^-18 (R132); over the last two
measurements where no other lies that near. -/
def Slot.phaseSlope (x : Slot) (sec from' : Nat) : Option Int :=
  match x.samples.filter fun q => from' ≤ q.stamp with
  | [] => none
  | m :: r =>
    match ((r.filter fun q => m.stamp ≤ q.stamp + sec * stampS).getLast?).orElse fun _ => r.head? with
    | none => none
    | some o =>
      match x.phaseAt m.stamp from', x.phaseAt o.stamp from' with
      | some p, some q => if m.stamp ≤ o.stamp then none else some (rneDiv ((p - q) * 5 * 10 ^ 18) ((m.stamp - o.stamp) * 1024))
      | _, _ => none

/-- The fractional frequency of a source against the oscillator between two of its measurements, 10^-18. -/
def sampleFreq (m o : Sample) : Option Int :=
  if m.stamp ≤ o.stamp then none
  else
    let d := m.stamp - o.stamp
    some (rneDiv ((m.carried - o.carried) * 5 * 10 ^ 18 - (d : Int) * 1024 * 10 ^ 18) (d * 1024))

/-- The fractional frequency of the source against the oscillator over the last `sec` seconds, 10^-18; over the last two
measurements where no other lies that near. -/
def Slot.freqRaw (x : Slot) (now : Nat) (sec : Nat) : Option Int :=
  if x.freqs ≠ [] then
    let l := (x.freqs.filter fun q => now ≤ q.1 + ticksS sec).map (·.2)
    if l = [] then none else some (rneDiv l.sum l.length)
  else
    match x.samples with
    | m :: o :: r => sampleFreq m (((o :: r).filter fun q => m.stamp ≤ q.stamp + sec * stampS).getLastD o)
    | _ => none

/-- One frequency measurement (R130): a SyncE slot's latest, else the last two measurements'. -/
def Slot.freqLast (x : Slot) : Option Int :=
  match x.freqs with
  | (_, y) :: _ => some y
  | [] =>
    match x.samples with
    | m :: o :: _ => sampleFreq m o
    | _ => none

/-- The frequency of a slot against the oscillator corrected by the model where it is usable (R118). -/
def State.slotFreq (s : State) (i : Fin 16) (sec : Nat) : Option Int :=
  (s.slots[i].freqRaw s.now sec).map fun y => if s.hold.usable then y + s.hold.predict s.now else y

/-! ## Quality (R116, R117) -/

/-- The quality grades, best first. -/
def grades : List Nat := [16, 32, 48, 64, 96, 128, 160, 176, 208, 224, 240, 255]

/-- One grade worse: the next value down the table; 255 stays (R117). DESIGN CHOICE (log entry 204): a value that is no grade. -/
def gradeWorse (q : Nat) : Nat := (grades.find? (q < ·)).getD 255

/-- ESMC codes to device quality, option 1 or 2 (R116); an eSSM code not in the table counts as 0xFF. -/
def esmcQuality (option2 : Bool) (ssm essm : Nat) : Nat :=
  if option2 then
    match ssm with
    | 1 => if essm = 0x21 then 16 else if essm = 0x20 then 32 else if essm = 0x23 then 48 else 64
    | 0 | 7 => 96
    | 4 => 128
    | 0xD => 160
    | 0xA => 176
    | 0xC | 0xE => 208
    | _ => 255
  else
    match ssm with
    | 2 => if essm = 0x21 then 16 else if essm = 0x20 then 32 else if essm = 0x23 then 48 else 64
    | 4 => 96
    | 8 => 128
    | 0xB => if essm = 0x22 then 160 else 176
    | _ => 255

/-- PTP clockClass and clockAccuracy to device quality (R116). -/
def ptpQuality (cls acc : Nat) : Nat :=
  match cls with
  | 6 => if 0x17 ≤ acc && acc ≤ 0x20 then 16 else if acc = 0x21 then 32 else if acc = 0x22 then 48 else 64
  | 7 => 64
  | 135 | 165 => 96
  | 140 => 128
  | 150 => 160
  | 52 | 160 | 187 => 176
  | 58 | 193 => 208
  | 248 => 224
  | 255 => 255
  | _ => 240

/-- The sky integrity state to device quality (R116). -/
def skyQuality : Nat → Nat
  | 3 => 32
  | 2 => 48
  | 1 => 128
  | _ => 255

/-- The quality that a slot of kind 5 takes from its instance's parent (R107, R116); 255 where it has none. -/
def State.instanceQuality (s : State) (i : Fin 16) : Nat :=
  if s.kind i = 5 then
    match (s.prot.insts[Fin.ofNat 4 (s.number i)]).parent with
    | some d => ptpQuality d.cls d.acc
    | none => 255
  else 255

/-- The mapped received value of a slot (R116): the sky receiver's integrity state maps as it stands. -/
def State.receivedQuality (s : State) (i : Fin 16) : Nat :=
  if s.kind i = 6 then skyQuality (s.nn Obj.sky_state) else s.slots[i].qualityReceived

/-- The slot quality (R117), before any dispute worsening; an absent ESMC comes after the override. -/
def State.slotQuality (s : State) (i : Fin 16) : Nat :=
  let o := s.nn (Obj.quality_override i)
  let k := s.kind i
  let ignored := s.nn (Obj.esmc_mode i) == 2
  if k = 4 && !ignored && s.slots[i].esmcAbsent then 255
  else if o ≠ 0 then o
  else if k = 1 || k = 3 || k = 7 || (k = 4 && ignored) then 208
  else if k = 0 then 255
  else s.receivedQuality i

/-- The effective quality (R117, R126). -/
def State.effQuality (s : State) (i : Fin 16) : Nat :=
  if s.slots[i].worse then gradeWorse (s.slotQuality i) else s.slotQuality i

/-! ## Checks (R118) -/

/-- Bits of fail_cause. -/
abbrev causeEarly : Nat := 0
abbrev causeMissing : Nat := 1
abbrev causeTod : Nat := 2
abbrev causeJump : Nat := 3

/-- A port's link is up (R229). -/
def State.linkUp (s : State) (p : Nat) : Bool := s.nn (Obj.link_state p) == 3

/-- The source of a slot is down (R118); the checks of a PTP source are suspended over a warm reset (R121). -/
def State.sourceDown (s : State) (i : Fin 16) : Bool :=
  match s.kind i with
  | 4 => !s.linkUp (s.number i)
  | 5 => !s.mode.suspend5 && (s.nn (Obj.receiver_port (s.number i)) == 255 || s.slots[i].down)
  | 6 => s.nn Obj.sky_state == 0
  | _ => false

/-- The operator entry is absent or too old (R110). -/
def State.operatorStale (s : State) (i : Fin 16) : Bool :=
  match s.slots[i].operatorAt with
  | none => true
  | some t => t + ticksS (s.nn (Obj.operator_validity i)) ≤ s.now

/-- The phase check (R118). -/
def State.phaseFails (s : State) (i : Fin 16) : Bool :=
  let lim := s.n (Obj.phase_limit i)
  let c := s.slotClass i
  if lim = 0 || !(c = .t || c = .p) || s.selT.active = some i then false
  else
    match s.slots[i].phaseMean 1 with
    | none => false
    | some p =>
      match s.n Obj.timing_condition with
      | 2 => decide (lim * 65536 < p.natAbs)
      | 3 | 4 => decide ((lim + s.growBound.hold.boundNs) * 65536 < p.natAbs)
      | _ => false

/-- The checks that fail now, as fail_cause bits: the event-driven ones kept in the slot and the ones that follow from
the present state (R118). -/
def State.failingChecks (s : State) (i : Fin 16) : Nat :=
  let x := s.slots[i]
  let c := s.slotClass i
  let q := s.effQuality i
  let freq := match s.slotFreq i 10 with
    | some y => (c = .t || c = .p || c = .f) && decide (s.n (Obj.freq_limit i) * 1000000 < y.natAbs)
    | none => false
  let b := x.failing % 16
  let b := setBit b 4 freq
  let b := setBit b 5 (s.phaseFails i)
  let b := setBit b 6 (decide (s.nn Obj.min_quality < q) || q == 255)
  let b := setBit b 7 (s.sourceDown i)
  let b := setBit b 8 x.outvotedBy.isSome
  setBit b 9 (c = .o && s.operatorStale i)

/-! ## Slot states (R119) -/

def SlotState.code : SlotState → Nat
  | .disabled => 0
  | .failed => 1
  | .qualifying => 2
  | .waitToRestore => 3
  | .qualified => 4

/-- The slot's journal source (R28). -/
def slotSource (i : Fin 16) : Nat := 0x0200 + i

/-- The other slot of a dispute. -/
def Dispute.other (d : Dispute) (i : Fin 16) : Fin 16 := if d.a = i then d.b else d.a

/-- A slot's dispute marks follow the disputes it is in: one of them, and the worsening of an undecided one (R126). -/
def State.markDisputes (s : State) (i : Fin 16) : State :=
  let mine := s.disputes.filter fun d => d.a == i || d.b == i
  s.setSlot i { s.slots[i] with disputed := mine.head?.map fun d => d.other i, worse := mine.any (·.undecided) }

/-- Disputes that clear (R126): the marks of their slots follow the disputes that go on, code 0x2307, and the model is free
once none is left. -/
def State.endDisputes (s : State) (gone : Dispute → Bool) : State :=
  let mine := s.disputes.filter gone
  let s : State := { s with disputes := s.disputes.filter fun d => !gone d }
  let s : State := mine.foldl (fun (s : State) d =>
    (((s.markDisputes d.a).markDisputes d.b).log (slotSource d.a) 0x2307 (be 1 (d.b : Nat))).log (slotSource d.b) 0x2307
      (be 1 (d.a : Nat))) s
  if mine ≠ [] ∧ s.disputes = [] ∧ s.hold.model = .frozen then s.setModel s.hold.frozenFrom else s

/-- A slot leaves QUALIFIED: the disputes it is in clear, and a slot it outvoted may return (R125, R126). -/
def State.leaveQualified (s : State) (i : Fin 16) : State :=
  let s : State := { s with slots := s.slots.map fun x => if x.outvotedBy = some i then { x with outvotedBy := none } else x }
  s.endDisputes fun d => d.a == i || d.b == i

/-- A first step or seed that waits for a slot is not made once the slot is lost (R94). -/
def State.dropFirst (s : State) (i : Fin 16) : State :=
  let mine : Bool := match s.tb.want with
    | some w => (match w.kind with
      | .firstStep _ k => k == i
      | .seed _ src _ k => src == 3 && k == i
      | _ => false)
    | none => false
  if mine then { s with tb := { s.tb with want := none } } else s

/-- A slot fails (R118, R119): fail_cause takes the failing checks, fail_count increments, code 0x2302. -/
def State.failSlot (s : State) (i : Fin 16) (bits : Nat) : State :=
  let x := s.slots[i]
  let s' := s.setSlot i { x with state := .failed, cause := bits, deadline := none }
  let s' := ((s'.bump (Obj.fail_count i)).log (slotSource i) 0x2302 (be 2 bits)).dropFirst i
  if x.state = .qualified then s'.leaveQualified i else s'

/-- Journal a change of state to QUALIFYING or DISABLED (R120). DESIGN CHOICE (log entry 156): R129 has no code for it; the
entry's code and data are free values. -/
def State.logSlot (s : State) (i : Fin 16) : State :=
  let (c, s) := s.freeNat
  let (data, s) := s.freeBytes 16
  s.log (slotSource i) (c % 65536) data

/-- Apply the checks to a slot (R118, R119): a failing check puts it in FAILED at once; a failed slot whose checks all
pass starts to qualify. Each change is journalled (R120). -/
def State.evalSlot (s : State) (i : Fin 16) : State :=
  let x := s.slots[i]
  let bits := s.failingChecks i
  if x.state = .disabled then s
  else if bits ≠ 0 then
    if x.state = .failed then s.setSlot i { x with cause := x.cause ||| bits } else s.failSlot i bits
  else if x.state = .failed then
    (s.setSlot i { x with state := .qualifying, cause := 0, deadline := some (s.now + ticksS (s.nn (Obj.qualify_time i))) }).logSlot i
  else s

/-- A slot becomes QUALIFIED (R119), code 0x2301. -/
def State.qualifySlot (s : State) (i : Fin 16) : State :=
  let x := s.slots[i]
  (s.setSlot i { x with state := .qualified, deadline := none, everQualified := true, qualifiedAt := s.now }).log
    (slotSource i) 0x2301 (be 1 (if x.everQualified then 1 else 0))

/-- Bind a slot under a commit of slot_enable, source_kind or source_number (R119): it starts from DISABLED, forgets
its measurements and, when enabled, is checked at once. A new source of an enabled slot counts as never QUALIFIED. The
active slot of DPLL-T leaves its mean phase offset to the holdover bound (R147). -/
def State.bindSlot (s : State) (i : Fin 16) (enabled : Bool) : State :=
  let x := s.slots[i]
  let s := (if x.state = .qualified then s.leaveQualified i else s).dropFirst i
  let s := if x.state = .disabled then s else s.logSlot i
  let fresh : Slot := { qualityReceived := s.instanceQuality i, boundStamp := s.stamp, boundAt := s.now, leftMean := if s.selT.active = some i then x.phaseMean 10 else none }
  if !enabled then s.setSlot i { fresh with everQualified := x.everQualified }
  else
    let kept : Bool := x.everQualified && (match x.state with | .disabled => true | _ => false)
    let fresh : Slot := { fresh with everQualified := kept }
    let s := s.setSlot i { fresh with state := .qualifying, deadline := some (s.now + ticksS (s.nn (Obj.qualify_time i))) }
    let s := s.evalSlot i
    if s.slots[i].state = .qualifying then s.logSlot i else s

/-! ## Edges and labels (R112-R115) -/

/-- An accepted label for an edge at `stamp` (R114): the label jump check, the measurement, the ToD check. -/
def State.acceptLabel (s : State) (i : Fin 16) (stamp : Nat) (time : Int) : State :=
  let x := s.slots[i]
  let jump := match x.lastLabel with
    | none => false
    | some (k, t) => decide (time ≠ t + ((x.edges - k : Nat) : Int) * unitsPerS)
  let x := x.addSample { stamp, carried := time, phase := some (s.phaseOf i stamp time) }
  let x := { x with labelled := true, unlabelled := 0, lastLabel := some (x.edges, time),
                    failing := setBit (setBit x.failing causeTod false) causeJump jump }
  (s.setSlot i x).evalSlot i

/-- The first discard in a second is journalled (R129, code 0x2308). -/
def State.noteDiscard (s : State) (i : Fin 16) (reason : Nat) : State :=
  let x := s.slots[i]
  let quiet := match x.lastDiscard with
    | none => false
    | some t => decide (s.now < t + ticksS 1)
  if quiet then s
  else (s.setSlot i { x with lastDiscard := some s.now }).log (slotSource i) 0x2308 (be 1 reason)

/-- A discarded frame or sentence counts in todin_discards (R114). -/
def State.discardTod (s : State) (input : Nat) (i : Fin 16) (reason : Nat) : State :=
  (s.bump (Obj.todin_discards input)).noteDiscard i reason

/-- A sentence that labels the edge after it (R115, nmea_label 1). DESIGN CHOICE (log entry 157): R114's window mirrored, the
edge comes 1 ms to 500 ms after the sentence's first character. -/
def State.lateLabel (s : State) (i : Fin 16) (stamp : Nat) (label : Int × Nat) : State :=
  if label.2 + stampS / 1000 ≤ stamp && stamp ≤ label.2 + stampS / 2 then
    (s.bump (Obj.todin_accepted (s.number i))).acceptLabel i stamp label.1
  else s.discardTod (s.number i) i 0

/-- A monitored edge reaches a slot of kinds 1 to 3 (R112, R114, R118). -/
def State.slotEdge (s : State) (i : Fin 16) (stamp : Nat) : State :=
  let x := s.slots[i]
  let f := s.nn (Obj.refin_frequency (s.number i))
  let tol := s.nn (Obj.interval_tolerance i)
  let early := match x.lastEdge with
    | none => false
    | some e => decide ((stamp - e) * f * 10000 < (10000 - tol) * refinPeriodNum f)
  let tod := s.kind i == 2 || s.kind i == 3
  let lost := tod && !x.labelled
  let un := if lost then x.unlabelled + 1 else x.unlabelled
  let s := if lost then s.bump (Obj.missing_count i) else s
  let edges := x.edges + 1
  -- the source's time since its first edge, in monitored periods: its frequency against the oscillator follows from raw stamps
  let periods := match x.lastEdge with
    | none => 0
    | some e => x.periods + (max 1 (rneDiv (((stamp - e) * f : Nat) : Int) (max 1 (refinPeriodNum f)))).toNat
  let carried := rneDiv ((periods * refinDivider f * 1000 * 65536000000000 : Nat) : Int) (max 1 f)
  let fail := setBit (setBit x.failing causeEarly early) causeMissing false
  let fail := if tod then setBit fail causeTod (bit fail causeTod || decide (2 ≤ un)) else fail
  let y := { x with edges, periods, lastEdge := some stamp, missed := 0, unlabelled := un, labelled := !tod, failing := fail }
  match s.slotClass i with
  | .p =>
    let t := s.convert (s.eventStamp i stamp)
    let label := rneDiv t unitsPerS.toNat * unitsPerS
    (s.setSlot i (y.addSample { stamp, carried, phase := some (t - label) })).evalSlot i
  | .f =>
    (s.setSlot i (y.addSample { stamp, carried, phase := none })).evalSlot i
  | _ =>
    let s := s.setSlot i { y with nextLabels := [] }
    (y.nextLabels.foldl (fun (s : State) l => s.lateLabel i stamp l) s).evalSlot i

/-- The slots of given kinds that are enabled and bound to an input. -/
def State.slotsOn (s : State) (kinds : List Nat) (number : Nat) : List (Fin 16) :=
  (List.finRange 16).filter fun i => s.slotEnabled i && kinds.contains (s.kind i) && s.number i == number

/-- The window of R114: the start bit begins 1 ms to 500 ms after the edge. -/
def inLabelWindow (edge : Option Nat) (start : Nat) : Bool :=
  match edge with
  | none => false
  | some e => decide (e + stampS / 1000 ≤ start) && decide (start ≤ e + stampS / 2)

/-- A Reference Announcement Frame carries no reserved encoding (R7, R9, R113). DESIGN CHOICE (log entry 154): a set reserved
bit of the flags byte counts as one. DESIGN CHOICE (log entry 201): a leap_delta that is none of +1, 0, −1. -/
def rafOk (b : Bytes) : Bool :=
  b.length == 48 && fieldN b 0 2 == 0x5352 && fieldN b 2 1 == 1 && fieldN b 3 1 == 48
    && fieldN b 14 4 ≤ 999999999 && fieldN b 34 4 ≤ 999999999 && fieldN b 24 1 % 8 == 0
    && (let d := fieldN b 25 1; d == 0 || d == 1 || d == 255)

/-- The CRC of a Reference Announcement Frame holds (R113). -/
def rafCrcOk (b : Bytes) : Bool := fieldN b 44 4 == crc32c (field b 0 44)

/-- The adoption of R100 from a frame's flags. -/
def State.adoptRaf (s : State) (b : Bytes) : State :=
  let flags := fieldN b 24 1
  if !bit flags 3 then s
  else s.adoptLeap (signed 16 (fieldN b 22 2))
    (some (if bit flags 4 then some (timeOfBytes (field b 26 14), signed 8 (fieldN b 25 1)) else none))

/-- A frame for one slot of kind 2 (R113, R114, R116). -/
def State.rafSlot (s : State) (input : Nat) (start : Nat) (b : Bytes) (i : Fin 16) : State :=
  let x := s.slots[i]
  if !inLabelWindow x.lastEdge start then s.discardTod input i 0
  else if !rafCrcOk b then s.discardTod input i 1
  else if !rafOk b then s.discardTod input i 2
  else
    let s := s.bump (Obj.todin_accepted input)
    let s := s.setSlot i { x with qualityReceived := fieldN b 20 1, timeSource := fieldN b 21 1 }
    let s := s.acceptLabel i (x.lastEdge.getD 0) (timeOfBytes (field b 6 14))
    if s.selT.active = some i then s.adoptRaf b else s

/-! ## NMEA sentences (R115) -/

/-- Split a byte string at a byte. -/
def splitAt (c : Byte) : Bytes → List Bytes
  | [] => [[]]
  | x :: r =>
    if x = c then [] :: splitAt c r
    else
      match splitAt c r with
      | h :: t => (x :: h) :: t
      | [] => [[x]]

/-- A decimal number in ASCII, none where a byte is no digit. -/
def asciiNat (b : Bytes) : Option Nat :=
  b.foldl (fun a x => a.bind fun v => if 48 ≤ x.toNat && x.toNat ≤ 57 then some (v * 10 + (x.toNat - 48)) else none) (some 0)

/-- One hexadecimal digit in ASCII. -/
def hexDigit (x : Byte) : Option Nat :=
  let v := x.toNat
  if 48 ≤ v && v ≤ 57 then some (v - 48)
  else if 65 ≤ v && v ≤ 70 then some (v - 55)
  else if 97 ≤ v && v ≤ 102 then some (v - 87)
  else none

/-- The body of a sentence between `$` and `*` whose checksum is correct. -/
def nmeaBody (b : Bytes) : Option Bytes :=
  match b with
  | [] => none
  | d :: r =>
    if d ≠ 0x24 then none
    else
      match splitAt 0x2A r with
      | body :: tail :: _ =>
        let sum := body.foldl (fun a x => a ^^^ x) (0 : Byte)
        match hexDigit (tail.getD 0 0), hexDigit (tail.getD 1 0) with
        | some h, some l => if h * 16 + l = sum.toNat then some body else none
        | _, _ => none
      | _ => none

/-- Days since 1970-01-01 of a Gregorian date. -/
def daysOfDate (y m d : Nat) : Int :=
  let y' : Int := if m ≤ 2 then (y : Int) - 1 else y
  let era := y' / 400
  let yoe := y' - era * 400
  let mp := ((m : Int) + 9) % 12
  let doy := (153 * mp + 2) / 5 + d - 1
  let doe := yoe * 365 + yoe / 4 - yoe / 100 + doy
  era * 146097 + doe - 719468

/-- The time of day of a field hhmmss[.ss]: seconds, and whether the fraction is nonzero. -/
def nmeaTod (b : Bytes) : Option (Nat × Bool) :=
  match asciiNat (field b 0 2), asciiNat (field b 2 2), asciiNat (field b 4 2) with
  | some h, some m, some sec => some (h * 3600 + m * 60 + sec, (b.drop 7).any fun x => x != 48)
  | _, _, _ => none

/-- What a sentence says: UTC seconds since 1970, and a nonzero fraction; none where the sentence is not used. -/
def nmeaTime (body : Bytes) : Option (Int × Bool) :=
  let f := splitAt 0x2C body
  let id := f.getD 0 []
  let kind := id.drop (id.length - 3)
  let get := fun k => f.getD k []
  let date := fun (d m y : Option Nat) =>
    match d, m, y, nmeaTod (get 1) with
    | some d, some m, some y, some (t, fr) => some (daysOfDate y m d * 86400 + t, fr)
    | _, _, _, _ => none
  if kind = [90, 68, 65] then date (asciiNat (get 2)) (asciiNat (get 3)) (asciiNat (get 4))
  else if kind = [82, 77, 67] then
    if get 2 = [65] then
      date (asciiNat (field (get 9) 0 2)) (asciiNat (field (get 9) 2 2)) ((asciiNat (field (get 9) 4 2)).map (2000 + ·))
    else none
  else none

/-- A sentence for one slot of kind 3 (R115). One whose checksum is not correct is journalled (R129, reason 1) and, as R115
has it, not counted (DEDUCED, log entry 158). -/
def State.nmeaSlot (s : State) (input : Nat) (start : Nat) (b : Bytes) (i : Fin 16) : State :=
  match nmeaBody b with
  | none => s.noteDiscard i 1
  | some body =>
    match nmeaTime body with
    | none => s
    | some (t, true) => let _ := t; s.discardTod input i 3
    | some (t, false) =>
      let x := s.slots[i]
      let label := (t + s.n Obj.utc_offset) * unitsPerS
      if s.nn (Obj.nmea_label input) = 1 then
        s.setSlot i { x with nextLabels := x.nextLabels ++ [(label, start)] }
      else if !inLabelWindow x.lastEdge start then s.discardTod input i 0
      else (s.bump (Obj.todin_accepted input)).acceptLabel i (x.lastEdge.getD 0) label

/-! ## Meanings -/

/-- MISSING_EDGE (R118, R120): declared at (1 + tol) × Pm after the previous edge, present or missing. -/
def execMissingEdge (slot : Fin 16) (s : State) : Host.Outcome State Fault Refusal :=
  let x := s.slots[slot]
  let k := s.kind slot
  let f := s.nn (Obj.refin_frequency (s.number slot))
  let tol := s.nn (Obj.interval_tolerance slot)
  let since := x.lastEdge.getD x.boundStamp
  let due := (x.missed * 10000 + 10000 + tol) * refinPeriodNum f ≤ (s.stamp - since) * f * 10000
  if x.state = .disabled || !(k = 1 || k = 2 || k = 3) || !due then .next s
  else
    let missed := x.missed + 1
    let fail := if s.nn (Obj.missing_limit slot) ≤ missed then setBit x.failing causeMissing true else x.failing
    let s := s.bump (Obj.missing_count slot)
    .next ((s.setSlot slot { x with missed, failing := fail }).evalSlot slot)

/-- A measurement of a PTP or sky slot, active or not (R107, R111, R120): its stamp and the time its source carries. -/
def State.slotMeasure (s : State) (i : Fin 16) (stamp : Nat) (carried : Int) : State :=
  let m : Sample := { stamp, carried, phase := some (s.phaseOf i stamp carried) }
  (s.setSlot i { s.slots[i].addSample m with down := false }).evalSlot i

/-- A measurement of a SyncE slot, active or not: its frequency against the oscillator in 10^-18. -/
def State.slotFreqMeasure (s : State) (i : Fin 16) (y : Int) : State :=
  let x := s.slots[i]
  (s.setSlot i { x with freqs := ((s.now, y) :: x.freqs).filter fun q => s.now ≤ q.1 + ticksS 3600 }).evalSlot i

/-- TODIN_FRAME (R113, R114, R100). -/
def execTodinFrame (input : Fin 8) (start : Nat) (frame : Bytes) (s : State) : Host.Outcome State Fault Refusal :=
  .next ((s.slotsOn [2] input).foldl (fun (s : State) (i : Fin 16) => s.rafSlot input start frame i) s)

/-- NMEA_SENTENCE (R115). -/
def execNmeaSentence (input : Fin 8) (start : Nat) (sentence : Bytes) (s : State) : Host.Outcome State Fault Refusal :=
  .next ((s.slotsOn [3] input).foldl (fun (s : State) (i : Fin 16) => s.nmeaSlot input start sentence i) s)

/-- ESMC_PDU_RECEIVE (R116, R117). -/
def execEsmcPduReceive (port : Fin 64) (ssm : Nat) (essm : Option Nat) (s : State) : Host.Outcome State Fault Refusal :=
  .next ((s.slotsOn [4] port).foldl (fun (s : State) (i : Fin 16) =>
    let m := s.nn (Obj.esmc_mode i)
    let x := { s.slots[i] with lastEsmc := some s.now, esmcAbsent := false }
    if m = 2 then s.setSlot i x
    else (s.setSlot i { x with qualityReceived := esmcQuality (m == 1) ssm (essm.getD 0xFF) }).evalSlot i) s)

/-- ESMC_ABSENT (R117): no PDU for 5 s on a SyncE slot that uses ESMC gives quality 255. -/
def execEsmcAbsent (slot : Fin 16) (s : State) : Host.Outcome State Fault Refusal :=
  let x := s.slots[slot]
  let due := x.lastEsmc.getD x.boundAt + ticksS 5 ≤ s.now
  if s.kind slot = 4 ∧ s.nn (Obj.esmc_mode slot) ≠ 2 ∧ x.state ≠ .disabled ∧ due then
    .next ((s.setSlot slot { x with qualityReceived := 255, esmcAbsent := true }).evalSlot slot)
  else .next s

/-- The measurements of the last 1 s of the qualify timer, which ends now; the latest where that second had none (R94). -/
def State.lastSecond (s : State) (x : Slot) : List (Nat × Int) :=
  let l := x.samples.filter fun q => s.stamp ≤ q.stamp + stampS
  (if l = [] then x.samples.take 1 else l).map fun q => (q.stamp, q.carried)

/-- QUALIFY_TIMER_EXPIRY (R119, R94); the timers start at step 11 of bring-up (R71). -/
def execQualifyTimerExpiry (slot : Fin 16) (s : State) : Host.Outcome State Fault Refusal :=
  let s := s.evalSlot slot
  let x := s.slots[slot]
  let due : Bool := match x.deadline with
    | some d => decide (d ≤ s.now)
    | none => false
  if x.state ≠ .qualifying || !due || !s.mode.bringupDone then .next s
  else
  let x := { x with qualified1s := s.lastSecond x }
  let s := s.setSlot slot x
  if !x.everQualified || s.n (Obj.wtr_time slot) = 0 then .next (s.qualifySlot slot)
  else
    let w := s.nn (Obj.wtr_time slot)
    .next ((s.setSlot slot { x with state := .waitToRestore, deadline := some (s.now + ticksS w) }).log
      (slotSource slot) 0x2303 (be 2 w))

/-- WTR_TIMER_EXPIRY (R119). -/
def execWtrTimerExpiry (slot : Fin 16) (s : State) : Host.Outcome State Fault Refusal :=
  let s := s.evalSlot slot
  let x := s.slots[slot]
  let due : Bool := match x.deadline with
    | some d => decide (d ≤ s.now)
    | none => false
  if x.state = .waitToRestore ∧ due then .next (s.qualifySlot slot) else .next s

/-- OPERATOR_VALIDITY_EXPIRY (R110): the check fails once operator_validity has elapsed after the latest entry. -/
def execOperatorValidityExpiry (slot : Fin 16) (s : State) : Host.Outcome State Fault Refusal := .next (s.evalSlot slot)

/-- SYNC_RECEIPT_TIMEOUT (R118, R121): no Sync within the receipt timeout of a kind 5 slot's instance. -/
def execSyncReceiptTimeout (slot : Fin 16) (s : State) : Host.Outcome State Fault Refusal :=
  if s.kind slot = 5 ∧ !s.mode.suspend5 then
    .next ((s.setSlot slot { s.slots[slot] with down := true }).evalSlot slot)
  else .next s

/-- An operator entry (R110): the error of device time against the entry, at the present tick or at the first one at or
after a scheduled time, joins pending_phase when the slot is active; no step is made; DPLL-T is LOCKED from the first entry.
DESIGN CHOICE (log entry 155): an entry for a slot that is not enabled is ignored. -/
def State.operatorEntry (s : State) (slot : Fin 16) (time : Int) (due : Option Int := none) : State :=
  if s.kind slot ≠ 7 ∨ !s.slotEnabled slot then s
  else
    let stamp := match due with
      | some t => min s.stamp (s.seg.tickReaching t (s.seg.start / 256) * 256)
      | none => s.stamp
    let err := s.convert stamp - time
    let x := s.slots[slot]
    let x := { x with operatorAt := some s.now, operatorError := err, samples := [{ stamp, carried := time, phase := some err }] }
    let s := (s.setSlot slot x).evalSlot slot
    if s.selT.active = some slot then
      let s := s.addPending err
      let s := if s.loops[0].state = .acquiring then s.lockT none else s
      let s := s.updateLoop 0 s.tb.pendingPhase s.stamp false
      s.requestSegment (.rate false)
    else s

/-- OPERATOR_TIME (R110): an immediate commit of operator_time. -/
def execOperatorTime (slot : Fin 16) (time : Int) (s : State) : Host.Outcome State Fault Refusal :=
  .next (s.operatorEntry slot time)

end Sys2Proof.Machine
end

