-- ==== Sys2Proof/Machine/Ports.lean ====
section
/-! DEFINITION. Ports (chapter 10): modes and groups, links, stamps, sentinels, the speed governor, low-power idle, ESMC
transmission, the module sideband, the management PHY. -/

namespace Sys2Proof.Machine

/-! ## Modes and groups (R227, R228, R236) -/

/-- The FEC settings a mode allows (R227). -/
def modeOk (speed fec : Nat) : Bool :=
  match speed with
  | 0 | 1 | 2 | 3 => fec == 0
  | 4 => fec ≤ 2
  | 5 => fec == 2
  | _ => false

/-- Nominal unit interval of a mode, ticks (R236). -/
def modeUi : Nat → Rat
  | 1 => 1
  | 2 => 2 / 5
  | 3 => 4 / 33
  | _ => 8 / 165

/-- Bits of a word of the parallel word clock (R236). -/
def modeWord : Nat → Nat
  | 1 | 2 => 20
  | 3 => 40
  | _ => 80

/-- The markers that the bit position is counted from (R236). -/
inductive Marker where
  | comma | syncHeader | codeword (bits : Nat) | codewordAndAlignment
deriving DecidableEq, Repr

def modeMarker : Nat → Nat → Marker
  | 1, _ | 2, _ => .comma
  | 4, 1 => .codeword 2112
  | 4, 2 => .codeword 5280
  | 5, _ => .codewordAndAlignment
  | _, _ => .syncHeader

/-- The period of PCS start positions, ticks (R244): an even code-group boundary, or a 66-bit block before FEC. -/
def startPeriod : Nat → Rat
  | 1 => 20
  | 2 | 3 => 8
  | 4 => 16 / 5
  | _ => 4 / 5

/-- Bits on the lane, and the most bits of FEC parity and markers that may fall before the end of the SFD (R244): 8 octets
coded in 8b/10b or in a 66-bit block, of which a transcoding keeps 64 and more and a group's lane carries a quarter; parity
and codeword or alignment markers as IEEE 802.3 lays them out (R19). -/
def sfdBits : Nat → Nat → Nat × Nat
  | 1, _ | 2, _ => (80, 80)
  | 4, 1 => (64, 66 + 32)
  | 4, 2 => (64, 66 + 140 + 257)
  | 5, _ => (16, 66 + 35 + 322)
  | _, _ => (66, 66)

/-- Line rate of a mode in octets per second. -/
def modeOctets : Nat → Nat
  | 1 => 125000000
  | 2 => 312500000
  | 3 => 1250000000
  | 4 => 3125000000
  | 5 => 12500000000
  | _ => 0

/-- Line time of octets in ticks, rounded up (R244). -/
def lineTicks (speed octets : Nat) : Nat :=
  if modeOctets speed = 0 then 0 else (octets * 1250000000 + modeOctets speed - 1) / modeOctets speed

/-- The port domain is awake. -/
def State.portsAwake (s : State) : Bool := s.awake 4

def portSource (n : Fin 64) : Nat := 0x0100 + n

/-- The lead port of a port's group of four. -/
def leadOf (n : Nat) : Nat := n / 4 * 4

/-- A port is a member of a 100GBASE-R group (R228). -/
def State.isMember (s : State) (n : Nat) : Bool := n % 4 ≠ 0 && s.nn (Obj.port_speed (leadOf n)) == 5

/-- Some port names this port as its calibration partner. -/
def State.namedPartner (s : State) (n : Nat) : Bool :=
  (List.range 64).any fun k => s.nn (Obj.cal_partner k) == n

/-- An enabled slot of kind 4 is bound to the port. -/
def State.slotOnPort (s : State) (n : Nat) : Bool := !(s.slotsOn [4] n).isEmpty

/-- The port configuration rules of R227 and R228 for a port. -/
def State.portOk (s : State) (n : Nat) : Bool :=
  let sp := s.nn (Obj.port_speed n)
  modeOk sp (s.nn (Obj.port_fec n)) &&
    (sp != 5 || (n % 4 == 0 && [n + 1, n + 2, n + 3].all fun m =>
      !s.slotOnPort m && !s.namedPartner m && s.nn (Obj.cal_partner m) == 255 && s.nn (Obj.port_speed m) != 5))

/-- The rules of a port's calibration partner (R241). -/
def State.partnerOk (t : State) (n : Fin 64) : Bool :=
  let p := t.nn (Obj.cal_partner n)
  p == 255 || (p != n.val && t.nn (Obj.cal_partner p) == n.val && t.nn (Obj.port_speed p) == t.nn (Obj.port_speed n)
    && t.nn (Obj.port_fec p) == t.nn (Obj.port_fec n) && !t.isMember n && !t.isMember p
    && !(t.flag (Obj.cal_apply n) && t.flag (Obj.cal_apply p)))

/-- Auto-negotiation runs on the port: Clause 73 on modes 3 to 5, Clause 37 on mode 1 (R229). -/
def State.negotiates (s : State) (n : Nat) : Bool :=
  s.flag (Obj.an_enable n) && [1, 3, 4, 5].contains (s.nn (Obj.port_speed n))

/-- The modes a port advertises (R229, R251). -/
def State.advertised (s : State) (n : Fin 64) : List Nat :=
  let ab := s.nn (Obj.an_abilities n)
  let top := s.nn (Obj.port_speed n)
  if top = 1 then [1]
  else [(1, 0), (3, 1), (4, 2), (5, 3)].filterMap fun (m, b) =>
    if bit ab b && m ≤ top && m ≤ (s.ports[n].govCap).getD 5 && (m ≠ 5 || n.val % 4 = 0) then some m else none

/-! ## Links (R229) and sentinels (R239) -/

/-- Change link_state: counted, and journalled 0x4001 when up, 0x4002 otherwise. -/
def State.setLink (s : State) (n : Fin 64) (v : Nat) (code : Nat) (data : Bytes) : State :=
  if s.nn (Obj.link_state n) = v then s
  else ((s.putN (Obj.link_state n) v).bump (Obj.link_change_count n)).log (portSource n) code data

/-- The key of a sentinel's state. -/
def sentinelKey (n : Fin 64) (tx : Bool) : Nat := if tx then Obj.tx_sentinel_state n else Obj.rx_sentinel_state n

/-- Change a sentinel's state (R239): code 0x4003; a return to ACQUIRING counts. -/
def State.setSentinel (s : State) (n : Fin 64) (tx : Bool) (v : Nat) : State :=
  let old := s.nn (sentinelKey n tx)
  if old = v then s
  else
    let s := (s.putN (sentinelKey n tx) v).log (portSource n) 0x4003 [if tx then 1 else 0, BitVec.ofNat 8 old, BitVec.ofNat 8 v]
    let u := s.ports[n]
    let s := if v ≠ 1 then s else s.setPort n (if tx then { u with txSince := s.stamp } else { u with rxSince := s.stamp })
    if old = 2 && v = 1 then (s.bump (Obj.relock_count n)).countP n 0x09 else s

/-- The port that holds a pair's exchange: the lower-numbered of the two; none when the port is in no pair (R241). -/
def State.calPairOf (s : State) (n : Fin 64) : Option (Fin 64 × Fin 64) :=
  let p := s.nn (Obj.cal_partner n)
  if h : p < 64 then
    if p = n.val || s.nn (Obj.cal_partner p) ≠ n.val then none
    else if n.val < p then some (n, ⟨p, h⟩) else some (⟨p, h⟩, n)
  else none

/-- Clear a pair's means and restart its window (R243); cal_correction holds. -/
def State.clearPair (s : State) (n : Fin 64) : State :=
  match s.calPairOf n with
  | none => s
  | some (a, b) =>
    let c := s.ports[a].cal
    let s := s.setPort a { s.ports[a] with cal := { seq := c.seq } }
    [a, b].foldl (fun (s : State) (m : Fin 64) =>
      ((s.putN (Obj.cal_state m) 1).putN (Obj.cal_offset m) 0).putN (Obj.cal_delay m) 0) s

/-- Leave low-power idle: its time counts in lpi_time, ms (R253). -/
def State.endLpi (s : State) (n : Fin 64) : State :=
  match s.ports[n].lpi with
  | none => s
  | some t =>
    let d := s.now - t + s.ports[n].lpiRest
    (s.setPort n { s.ports[n] with lpi := none, lpiRest := d % 1250000 }).bump (Obj.lpi_time n) (d / 1250000)

/-- Both sentinels are LOCKED. -/
def State.sentinelsLocked (s : State) (n : Nat) : Bool :=
  s.nn (Obj.rx_sentinel_state n) == 2 && s.nn (Obj.tx_sentinel_state n) == 2

/-- Take the link down (R229): sentinels to OFF, frames waiting or fixed are lost and counted in tx_aborted (R244), the
pair's means clear, slots on the port are checked. `v` is the state it goes to. -/
def State.portDown (s : State) (n : Fin 64) (v cause : Nat) : State :=
  let s := s.setLink n v 0x4002 [BitVec.ofNat 8 cause]
  let s := (s.setSentinel n false 0).setSentinel n true 0
  let s := s.dropEgress n (fun _ => true) (Obj.tx_aborted n)
  let s := s.bump (Obj.tx_aborted n) s.ports[n].fixed.length
  let s := s.endLpi n
  let frozen := if v = 4 then some (s.ports[n].frozen.getD s.now) else none
  let s := s.setPort n { s.ports[n] with fixed := [], lineFree := 0, eee := false, frozen }
  let s := (((s.putN (Obj.speed_resolved n) 0).putN (Obj.fec_resolved n) 0).clearPair n).ptpLink n
  (s.slotsOn [4] n).foldl (fun (s : State) i => s.evalSlot i) s

/-- The link state of a port that is not up: member, disabled, negotiating or down (R228, R229); ports 8-63 wait for
step 10 (R71). -/
def State.restState (s : State) (n : Fin 64) : Nat :=
  if s.isMember n then 4
  else if !s.flag (Obj.port_enable n) || s.nn (Obj.port_speed n) = 0 || (8 ≤ n.val && s.sys.step < 10) then 0
  else if s.negotiates n && !(bit s.side.absent n) then 2
  else 1

/-- Bring a port's link state in line with its configuration and module: used where an enable, a membership or a module
input changes. -/
def State.refreshPort (s : State) (n : Fin 64) (cause : Nat) : State :=
  let v := s.restState n
  let modLoss := bit s.side.loss n && s.flag (Obj.los_action n)
  if s.linkUp n && !(v = 4 || v = 0 || bit s.side.absent n || modLoss) then s
  else s.portDown n v (if v = 4 || v = 0 then 3 else if bit s.side.absent n then 2 else if modLoss then 1 else cause)

/-- A committed change of port_speed or port_fec (R229, R252): the link goes down, a new link starts; the group follows
the lead port (R228). -/
def State.newPortMode (s : State) (n : Fin 64) : State :=
  let s := s.setPort n { s.ports[n] with newLink := true, govCap := none }
  let s := if s.isMember n then s else (s.putN (Obj.speed_change_state n) 1).portDown n (s.restState n) 4
  if n.val % 4 = 0 then
    (List.finRange 64).foldl (fun (s : State) (m : Fin 64) =>
      if m ≠ n && leadOf m = n.val && (s.isMember m || s.nn (Obj.link_state m) = 4) then s.refreshPort m 4 else s) s
  else s

/-- A link after a speed change: earlier delay measurements on the port are discarded (R252). -/
def PtpPort.forgetDelays (x : PtpPort) : PtpPort :=
  { x with pdelayGood := 0, linkDelay := 0, delayKnown := false, relearn := true, pd1 := none, pd24 := none, pdPrev := none, sync := none,
           dl3 := none, t2t1 := none }

/-- Discard the delay measurements of every PTP instance on a port. -/
def State.forgetDelays (s : State) (n : Fin 64) : State :=
  let s : State := { s with prot := { s.prot with insts := s.prot.insts.map fun x =>
    { x with ports := x.ports.map fun p => if p.1 = n.val then (p.1, p.2.forgetDelays) else p } } }
  (List.range 4).foldl (fun (s : State) i =>
    if s.flag (Obj.inst_enable i) && s.nn (Obj.receiver_port i) = n.val then s.putN (Obj.mean_path_delay i) 0 else s) s

/-- LINK_UP (R229): lock held for 10 ms, or negotiation resolved to (speed, fec) with or without EEE. -/
def execLinkUp (port : Fin 64) (speed fec : Nat) (eee : Bool) (s : State) : Host.Outcome State Fault Refusal :=
  let n := port
  let u := s.ports[n]
  let modLoss := bit s.side.loss n && s.flag (Obj.los_action n)
  let can := s.portsAwake && (s.restState n = 1 || s.restState n = 2) && !s.linkUp n && !(bit s.side.absent n) && !modLoss
  -- Clause 73 resolves mode 4 to no weaker a FEC than the one requested
  let fits := if s.negotiates n then modeOk speed fec && (s.advertised n).contains speed && (speed ≠ 4 || s.nn (Obj.port_fec n) ≤ fec)
    else speed = s.nn (Obj.port_speed n) && fec = s.nn (Obj.port_fec n)
  if !(can && fits) then .next s
  else
    let change := u.newLink || (match u.lastMode with | some m => decide (m ≠ (speed, fec)) | none => false)
    let s := s.setPort n { u with lastMode := some (speed, fec), newLink := false, ptpHold := change || u.ptpHold,
                                  eee := eee && s.negotiates n && bit (s.nn (Obj.an_abilities n)) 4, rxUi := modeUi speed, txUi := modeUi speed,
                                  lastFix := s.now }
    let s := ((s.putN (Obj.speed_resolved n) speed).putN (Obj.fec_resolved n) fec).putN (Obj.link_up_time n) s.time
    let s := (s.putN (Obj.rx_fixed_delay n) (tfix (Config.rxTrimDelay n speed fec))).putN (Obj.tx_fixed_delay n)
      (tfix (Config.txTrimDelay n speed fec))
    let s := s.putN (Obj.speed_change_state n) (if change then 2 else 0)
    let s := s.setLink n 3 0x4001 [BitVec.ofNat 8 speed, BitVec.ofNat 8 fec, if change then 1 else 0]
    let s := (s.setSentinel n false 1).setSentinel n true 1
    let s := (if change then (s.clearPair n).forgetDelays n else s).ptpLink n
    .next ((s.slotsOn [4] n).foldl (fun (s : State) i => s.evalSlot i) s)

/-- LINK_DOWN (R229): cause 0 lock lost for 1 ms, 1 module loss with los_action, 2 module absent. -/
def execLinkDown (port : Fin 64) (cause : Nat) (s : State) : Host.Outcome State Fault Refusal :=
  let holds : Bool := match cause with
    | 0 => true
    | 1 => bit s.side.loss port && s.flag (Obj.los_action port)
    | 2 => bit s.side.absent port
    | _ => false
  if s.portsAwake && s.linkUp port && holds then .next (s.portDown port (s.restState port) cause) else .next s

/-- PORT_SPEED_CHANGE (R229): a commit of port_speed and port_fec that the rules of R227, R228 and R241 allow. -/
def execPortSpeedChange (port : Fin 64) (speed fec : Nat) (s : State) : Host.Outcome State Fault Refusal :=
  let s' := (s.putN (Obj.port_speed port) speed).putN (Obj.port_fec port) fec
  let partners := (List.finRange 64).all fun n => !(n == port || s.nn (Obj.cal_partner n) == port.val) || s'.partnerOk n
  if s.portsAwake && s'.portOk port && partners then .next (s'.newPortMode port) else .next s

/-- The least-squares line through equally spaced stamps, exactly (R239): with n stamps, the slope in 1/256 tick per step is
`slope` / `den`, the line's first point `first` / (n × `den`) after the first stamp, each residual `errors[k]` / (n × `den`). -/
structure StampLine where
  slope : Int
  first : Int
  den : Nat
  errors : List Int
deriving DecidableEq, Repr

/-- The line a sentinel fits through its stamps. -/
def stampLine (l : List Nat) : StampLine :=
  let n := l.length
  let y := l.map fun (x : Nat) => (x : Int) - (l.headD 0 : Nat)
  let steps := (List.range n).zip y
  let sx := n * (n - 1) / 2
  let sy := y.sum
  let den := n * (n * (n - 1) * (2 * n - 1) / 6) - sx * sx
  let slope : Int := n * steps.foldl (fun (a : Int) p => a + p.1 * p.2) 0 - sx * sy
  let first : Int := sy * den - slope * sx
  { slope, first, den, errors := steps.map fun p => n * den * p.2 - first - n * slope * p.1 }

/-- Every residual lies within ±25 ps, 8/256 tick (R239). -/
def StampLine.good (f : StampLine) : Bool :=
  0 < f.slope && f.errors.all fun e => e.natAbs ≤ 8 * (f.errors.length * f.den)

/-- The unit interval the line gives, ticks: 64 words lie between two stamps. -/
def StampLine.unit (f : StampLine) (word : Nat) : Rat := (f.slope : Rat) / (f.den * 16384 * word : Nat)

/-- The rms residual in 0.01 ps. -/
def StampLine.residual (f : StampLine) : Nat :=
  let n := f.errors.length
  roundSqrt (f.errors.foldl (fun a e => a + e.natAbs * e.natAbs) 0 * 390625) (4 * n * (n * f.den) ^ 2)

/-- The edge of a fit: the raw time in ticks at which the word `k` after its first one starts. -/
def wordEdge (edge ui : Rat) (word : Nat) (k : Rat) : Rat := edge + k * word * ui

/-- Two fits differ by at most 2 ps at every instant within 2000 ticks of a stamp (R247): at the words nearest its ends. -/
def fitsAgree (word : Nat) (e u e' u' : Rat) (stamp : Nat) : Bool :=
  let at' := fun t : Rat =>
    let k : Rat := ((t - e) / (word * u)).floor
    let d := wordEdge e u word k - wordEdge e' u' word (((wordEdge e u word k - e') / (word * u') + 1 / 2).floor : Int)
    decide (-1 ≤ 400 * d) && decide (400 * d ≤ 1)
  u' ≠ 0 && at' ((stamp : Rat) / 256) && at' ((stamp : Rat) / 256 + 2000)

/-- SENTINEL_LOCK (R239, R247): with marker lock, a sentinel has collected the raw stamps of 4096 edges, 64 words apart, the
first counted as word `word` of the stream and the marker crossing at word `marker`; residuals within ±25 ps make it LOCKED.
The line gives the unit interval, the receive fit's rms residual and, from the transmit words, which SREF clocks, the offset of
SREF against the tick clock. A LOCKED sentinel's fit is updated so, at most once per 64 words and by at most 2 ps. -/
def execSentinelLock (port : Fin 64) (tx : Bool) (first : FirstEdge) (later : List Nat) (s : State) :
    Host.Outcome State Fault Refusal :=
  let line := stampLine (first.stamp :: later)
  let u := s.ports[port]
  let st := s.nn (sentinelKey port tx)
  let last := later.getLast?.getD 0
  let collected := later.length = 4095 && (if tx then u.txSince else u.rxSince) ≤ first.stamp && last ≤ s.stamp
  if !(s.portsAwake && s.linkUp port && (st = 1 || st = 2) && collected && line.good) then .next s
  else
    let speed := s.nn (Obj.speed_resolved port)
    let ui := line.unit (modeWord speed)
    let edge : Rat := ((first.stamp : Rat) + (line.first : Rat) / (4096 * line.den : Nat)) / 256
    let update := fitsAgree (modeWord speed) (if tx then u.txEdge else u.rxEdge) (if tx then u.txUi else u.rxUi) edge ui s.stamp
      && (if tx then u.txFitAt else u.rxFitAt) + 64 * modeWord speed * ui ≤ (s.stamp : Rat) / 256
    if st = 2 && !update then .next s
    else
      let fitAt : Rat := (s.stamp : Rat) / 256
      let s := s.setPort port (if tx then { u with txUi := ui, txEdge := edge, txWord := first.word, txMarker := first.marker, txFitAt := fitAt }
        else { u with rxUi := ui, rxEdge := edge, rxWord := first.word, rxMarker := first.marker, rxFitAt := fitAt })
      let off := modeUi speed / ui - 1
      let s := if tx then s.putN (Obj.sref_offset port) (rneDiv (off.num * 10 ^ 12) off.den)
        else s.putN (Obj.fit_residual port) (min line.residual 65535 : Nat)
      let s := s.setSentinel port tx 2
      if s.sentinelsLocked port then
        .next ((s.setPort port { s.ports[port] with ptpHold := false }).putN (Obj.speed_change_state port) 0)
      else .next s

/-- An edge stamp lies further than 50 ps from the nearest edge of a fit (R239). -/
def beyondFit (edge ui : Rat) (word : Nat) (stamp : Nat) : Bool :=
  let t : Rat := (stamp : Rat) / 256
  let k : Int := ((t - edge) / (word * ui) + 1 / 2).floor
  let d := t - wordEdge edge ui word k
  decide (1 < 16 * d) || decide (16 * d < -1)

/-- A LOCKED sentinel no longer is (R239, R253): an edge stamp beyond ±50 ps of its fit, marker lock lost, a word slip; or, on
the receive side of a port with Energy-Efficient Ethernet, a quiet period of more than 10 ms, or an edge among the first 64
after the wake beyond ±50 ps. -/
def State.sentinelFails (s : State) (n : Fin 64) (tx : Bool) : SentinelEvent → Bool
  | .edge stamp =>
    let u := s.ports[n]
    beyondFit (if tx then u.txEdge else u.rxEdge) (if tx then u.txUi else u.rxUi) (modeWord (s.nn (Obj.speed_resolved n))) stamp
  | .markerLost | .wordSlip => true
  | .quiet ticks edges =>
    !tx && s.ports[n].eee && (decide (ticksMs 10 < ticks) || (edges.take 64).any fun x =>
      beyondFit s.ports[n].rxEdge s.ports[n].rxUi (modeWord (s.nn (Obj.speed_resolved n))) x)

/-- SENTINEL_UNLOCK (R239): a residual beyond 50 ps, loss of marker lock or a word slip; the fit restarts. -/
def execSentinelUnlock (port : Fin 64) (loss : SentinelLoss) (s : State) : Host.Outcome State Fault Refusal :=
  if s.portsAwake && s.nn (sentinelKey port loss.tx) = 2 && s.sentinelFails port loss.tx loss.event then
    .next (s.setSentinel port loss.tx 1)
  else .next s

/-! ## Stamps (R234, R235) -/

/-- Rounding to 1/128 tick, half to even, in units of 1/256 tick. -/
def rne7 (q : Rat) : Nat := (2 * rneDiv (q.num * 128) q.den).toNat

/-- The unit interval a stamp uses: the fit's, or the nominal one when the sentinel is not LOCKED (R240). -/
def State.uiOf (s : State) (n : Fin 64) (tx : Bool) : Rat :=
  if s.nn (sentinelKey n tx) = 2 then (if tx then s.ports[n].txUi else s.ports[n].rxUi)
  else modeUi (s.nn (Obj.speed_resolved n))

/-- R235, receive: word edge, bit position, lane skew (ticks), with or without cal_correction. -/
def State.rxStamp (s : State) (n : Fin 64) (edge : Rat) (o : Nat) (skew : Rat) (corr : Bool := true) : Nat :=
  let plane := edge + o * s.uiOf n false + (s.n (Obj.rx_fixed_delay n) : Rat) / 800
  let c : Rat := if corr then s.n (Obj.cal_correction n) else 0
  rne7 (plane - skew - ((s.n (Obj.rx_ext_delay n) : Rat) + c) / 800)

/-- R235, transmit: what is added to the predicted word edge, ticks. -/
def State.txRest (s : State) (n : Fin 64) (o : Nat) (corr : Bool := true) : Rat :=
  let c : Rat := if corr then s.n (Obj.cal_correction n) else 0
  o * s.uiOf n true + (s.n (Obj.tx_fixed_delay n) : Rat) / 800 + ((s.n (Obj.tx_ext_delay n) : Rat) - c) / 800

/-! ## Governor and low-power idle (R251, R253) -/

/-- A PTP instance has the port in the time-receiver state. -/
def State.ptpReceiver (s : State) (n : Nat) : Bool :=
  (List.range 4).any fun i => s.flag (Obj.inst_enable i) && s.nn (Obj.receiver_port i) == n

/-- The conditions under which the governor acts (R251). -/
def State.governs (s : State) (n : Fin 64) : Bool :=
  s.flag (Obj.gov_enable n) && s.negotiates n && s.linkUp n && !s.isMember n && s.nn (Obj.port_speed n) != 5
    && (s.calPairOf n).isNone && (s.mode.cur = .mash || s.mode.cur = .tap || s.mode.cur = .lager || s.mode.cur = .flat)
    && !s.slotOnPort n && (!s.ptpReceiver n || s.flag (Obj.gov_receiver_allow n))

/-- The abilities between which the governor moves, whatever its present cap. -/
def State.govModes (s : State) (n : Fin 64) : List Nat :=
  ({ s with ports := s.ports.set n { s.ports[n] with govCap := none } } : State).advertised n

/-- Restart Clause 73 with abilities up to a mode (R251): code 0x4005. -/
def State.governTo (s : State) (n : Fin 64) (target : Nat) : State :=
  let old := s.nn (Obj.speed_resolved n)
  let s := s.setPort n { s.ports[n] with govCap := some target, govAt := some s.now, newLink := true, govHist := [] }
  let s := (s.bump (Obj.gov_changes n)).log (portSource n) 0x4005 [BitVec.ofNat 8 old, BitVec.ofNat 8 target]
  (s.putN (Obj.speed_change_state n) 1).portDown n 2 4

/-- GOVERNOR_EVALUATE (R251): each second, on the line time of the last second and of the last gov_window. -/
def execGovernorEvaluate (port : Fin 64) (s : State) : Host.Outcome State Fault Refusal :=
  let n := port
  let u := s.ports[n]
  if !s.portsAwake || s.now < u.govNext then .next s
  else
    let hist := ((u.rxOct, u.txOct) :: u.govHist).take 3600
    let s := s.setPort n { u with rxOct := 0, txOct := 0, govHist := hist, govNext := s.now + ticksS 1 }
    let w := s.nn (Obj.gov_window n)
    let cur := s.nn (Obj.speed_resolved n)
    let dwelt : Bool := match u.govAt with | some t => t + ticksS (s.nn (Obj.gov_dwell n)) ≤ s.now | none => true
    if !(s.governs n && dwelt) then .next s
    else
      let lower := ((s.govModes n).filter fun m => m < cur).getLast?
      let higher := ((s.govModes n).filter fun m => cur < m).head?
      let sec := max u.rxOct u.txOct
      let win := hist.take w
      let tot := max (win.foldl (fun a x => a + x.1) 0) (win.foldl (fun a x => a + x.2) 0)
      let down : Option Nat := lower.bind fun m =>
        if w ≤ hist.length && tot * 100 < s.nn (Obj.gov_down n) * w * modeOctets m then some m else none
      let up : Option Nat := higher.bind fun m =>
        if s.nn (Obj.gov_up n) * modeOctets cur < sec * 100 then some m else none
      match up, down with
      | some m, _ => .next (s.governTo n m)
      | none, some m => .next (s.governTo n m)
      | none, none => .next s

/-- LPI_ENTER (R253): the transmit side enters low-power idle after gov_lpi_idle µs with no frame fixed. -/
def execLpiEnter (port : Fin 64) (s : State) : Host.Outcome State Fault Refusal :=
  let u := s.ports[port]
  let sp := s.nn (Obj.speed_resolved port)
  if s.portsAwake && s.linkUp port && (sp = 3 || sp = 4) && s.nn (Obj.fec_resolved port) < 2 && u.eee
      && s.flag (Obj.gov_lpi port) && u.lpi.isNone && u.fixed.isEmpty
      && u.lastFix + ticksUs (s.nn (Obj.gov_lpi_idle port)) ≤ s.now then
    .next (s.setPort port { u with lpi := some s.now })
  else .next s

/-! ## ESMC transmission (R254) -/

/-- The first code listed for a quality in the table of R116, with its eSSM: option 1. -/
def esmcCode1 (q : Nat) : Nat :=
  match q with
  | 16 => 0x0221 | 32 => 0x0220 | 48 => 0x0223 | 64 => 0x02FF | 96 => 0x04FF | 128 => 0x08FF | 160 => 0x0B22
  | 176 => 0x0BFF | _ => 0x0FFF

/-- The same for option 2, with the exceptions of R254. -/
def esmcCode2 (q : Nat) : Nat :=
  match q with
  | 16 => 0x0121 | 32 => 0x0120 | 48 => 0x0123 | 64 => 0x01FF | 96 => 0x07FF | 128 => 0x04FF | 160 => 0x0DFF
  | 176 => 0x0AFF | 208 => 0x0CFF | _ => 0x0FFF

/-- The code in force for a port (R254, R282): SSM in bits [15:8], eSSM in bits [7:0]. -/
def State.esmcCode (s : State) (n : Fin 64) : Nat :=
  let k := n.val / 16
  let o2 := s.nn (Obj.esmc_tx_option n) == 1
  let own : Bool := match s.selF.active with
    | some i => s.kind i == 4 && s.number i == n.val
    | none => false
  if own || s.serve.stopped then 0x0FFF
  else
    match s.nn (Obj.sref_ql_mode k) with
    | 1 => s.nn (Obj.sref_ql_fixed k)
    | 2 => 0x0FFF
    | _ =>
      match s.loops[1].state, s.selF.active with
      | .locked, some i => let q := s.effQuality i; if o2 then esmcCode2 q else esmcCode1 q
      | .holdover, _ | .freeRun, _ => if o2 then 0x0AFF else 0x0BFF
      -- no code is stated while DPLL-F acquires: the code sent last stays
      | _, _ => s.nn (Obj.esmc_tx_code n)

/-- The device's clockIdentity (R310). -/
def State.clockId (s : State) : Bytes := let m := s.octs Obj.inband_mac; m.take 3 ++ [0xFF, 0xFE] ++ m.drop 3

/-- An ESMC PDU in the layout of ITU-T G.8264 (R19, R254): the QL TLV with the SSM, the extended QL TLV with the eSSM and the
clockIdentity. Its flags and its two counts of cascaded clocks are not stated: free. -/
def State.esmcPdu (s : State) (code : Nat) (event : Bool) (tail : Bytes) : Bytes :=
  [0x01, 0x80, 0xC2, 0, 0, 2] ++ s.octs Obj.inband_mac ++ [0x88, 0x09, 0x0A, 0x00, 0x19, 0xA7, 0, 1, if event then 0x18 else 0x10, 0, 0, 0]
    ++ [1, 0, 4] ++ beNat 1 (code / 256 % 16) ++ [2, 0, 20] ++ beNat 1 (code % 256) ++ s.clockId ++ field tail 0 3 ++ List.replicate 5 0

/-- Send an ESMC PDU on a port: it waits for the egress scheduler beside ring 128, as every frame does (R244). -/
def State.sendEsmc (s : State) (n : Fin 64) (event : Bool) : State :=
  let c := s.esmcCode n
  let (tail, s) := s.freeBytes 3
  let u := s.ports[n]
  (s.setPort n { u with esmcSent := some (c, event), egress := u.egress ++ [{ cls := 1, data := s.esmcPdu c event tail, esmc := true }] }).putN
    (Obj.esmc_tx_code n) c

/-- A port may send ESMC PDUs: enabled, link up, MACs out of reset. -/
def State.esmcOn (s : State) (n : Fin 64) : Bool :=
  s.portsAwake && s.linkUp n && s.flag (Obj.esmc_tx_enable n) && !s.macDown

/-- ESMC_TX (R254): the information PDU, once per second. -/
def execEsmcTx (port : Fin 64) (s : State) : Host.Outcome State Fault Refusal :=
  if s.esmcOn port && s.ports[port].esmcNext ≤ s.now then
    let s := s.sendEsmc port false
    .next (s.setPort port { s.ports[port] with esmcNext := s.now + ticksS 1 })
  else .next s

/-- ESMC_EVENT_PDU (R254): within 10 ms of a change of code. -/
def execEsmcEventPdu (port : Fin 64) (s : State) : Host.Outcome State Fault Refusal :=
  match s.ports[port].esmcSent with
  | some (c, _) => if s.esmcOn port && c ≠ s.esmcCode port then .next (s.sendEsmc port true) else .next s
  | none => .next s

/-! ## Module sideband (R256, R257) -/

/-- The 64 disable bits, as shifted: inverted by sb_invert bit 3. -/
def State.disableMask (s : State) : Nat :=
  let d := (List.range 64).foldl (fun m n =>
    let k := if s.isMember n then leadOf n else n
    setBit m n (!s.flag (Obj.port_enable k) || s.nn (Obj.port_speed k) == 0 || s.flag (Obj.module_disable k))) 0
  if bit (s.nn Obj.sb_invert) 3 then 2 ^ 64 - 1 - d else d

/-- A chain's reading as true bits: inverted where sb_invert says so. -/
def State.sbRead (s : State) (kind raw : Nat) : Nat :=
  let m := raw % 2 ^ 64
  if bit (s.nn Obj.sb_invert) kind then 2 ^ 64 - 1 - m else m

/-- Bits that read the same in two scans take effect (R257). -/
def debounce (now before cur : Nat) : Nat :=
  (List.range 64).foldl (fun m n => setBit m n (if bit now n = bit before n then bit now n else bit cur n)) 0

/-- The effect of a port's module inputs (R257): presence 0x4007, fault 0x4008, loss. -/
def State.moduleEffect (s : State) (old : Sideband) (n : Fin 64) : State :=
  let ab := bit s.side.absent n
  let s := if ab ≠ bit old.absent n then s.log (portSource n) 0x4007 [if ab then 0 else 1] else s
  let f := bit s.side.fault n
  let s := if f ≠ bit old.fault n then s.log (portSource n) 0x4008 [if f then 1 else 0] else s
  let lossDown := bit s.side.loss n && s.flag (Obj.los_action n)
  if s.linkUp n && (ab || lossDown) then s.portDown n (s.restState n) (if ab then 2 else 1)
  else if ab ≠ bit old.absent n && !s.linkUp n then s.setLink n (s.restState n) 0x4002 [2]
  else s

/-- The bit sampled at SBCLK's rising edge k of a scan, from 0: three words of 64 clocks, the first clock in the top bit. -/
def chainBit (w0 w1 w2 k : Nat) : Bool := bit (if k < 64 then w0 else if k < 128 then w1 else w2) (63 - k % 64)

/-- The input chain's bits of a kind (R256): port 0's absent, loss and fault bits come first, then those of port 1. -/
def chainMask (w0 w1 w2 kind : Nat) : Nat :=
  (List.range 64).foldl (fun m n => setBit m n (chainBit w0 w1 w2 (3 * n + kind))) 0

/-- What SBDO carries in clock k of a scan, from 0 (R256): 0 in the first 128, then the disable bits, port 63 first. -/
def State.shiftedOut (s : State) (k : Nat) : Bool := decide (128 ≤ k) && decide (k < 192) && bit s.side.shifted (191 - k)

/-- The levels of SBLD, SBCLK and SBDO (R256): in a scan SBLD is low for 4 periods with SBCLK low, then 192 cycles follow,
each a low half in which SBDO has changed and a high half at whose beginning SBDI is sampled. -/
def State.sidebandLines (s : State) : Bool × Bool × Bool :=
  if !s.flag Obj.sb_enable then (false, false, false)
  else
    let halves := (s.now - s.side.scanAt) * (2 * s.nn Obj.sb_clock) / 1250000000
    if !s.side.anyScan || 8 + 2 * 192 ≤ halves then (true, false, false)
    else if halves < 8 then (false, false, false)
    else (true, halves % 2 == 1, s.shiftedOut ((halves - 8) / 2))

/-- SIDEBAND_SCAN (R256): the output chain transfers at SBLD's rise what the previous scan shifted; the 192 clocks bring
the three inputs of every port, in three words of 64 clocks, and shift the disable bits. -/
def execSidebandScan (first second third : Nat) (s : State) : Host.Outcome State Fault Refusal :=
  let b := s.side
  if !(s.portsAwake && s.flag Obj.sb_enable && b.next ≤ s.now) then .next s
  else
    let a := s.sbRead 0 (chainMask first second third 0)
    let l := s.sbRead 1 (chainMask first second third 1)
    let f := s.sbRead 2 (chainMask first second third 2)
    let pa := if b.anyScan then b.rawAbsent else 2 ^ 64 - 1 - a
    let pl := if b.anyScan then b.rawLoss else 2 ^ 64 - 1 - l
    let pf := if b.anyScan then b.rawFault else 2 ^ 64 - 1 - f
    let g : Sideband :=
      { next := s.now + ticksUs (s.nn Obj.sb_period), scanAt := s.now, rawAbsent := a, rawLoss := l, rawFault := f,
        absent := debounce a pa b.absent, loss := debounce l pl b.loss, fault := debounce f pf b.fault,
        latched := b.shifted, shifted := s.disableMask, anyScan := true }
    let s : State := { s with side := g }
    let s := s.bump Obj.sb_scan_count
    .next ((List.finRange 64).foldl (fun (s : State) n => s.moduleEffect b n) s)

/-- A commit of sb_enable := false: every port reads as present, without loss or fault (R256). -/
def State.sidebandOff (s : State) : State :=
  let b := s.side
  let s : State := { s with side := { b with rawAbsent := 0, rawLoss := 0, rawFault := 0, absent := 0, loss := 0, fault := 0, anyScan := false } }
  (List.finRange 64).foldl (fun (s : State) n => s.moduleEffect b n) s

/-- module_flags (R257): bit 0 present, bit 1 loss, bit 2 fault. -/
def State.moduleFlags (s : State) (n : Nat) : Nat :=
  (if bit s.side.absent n then 0 else 1) + (if bit s.side.loss n then 2 else 0) + (if bit s.side.fault n then 4 else 0)

/-! ## The management PHY (R255) -/

/-- The speed that Clause 22 registers 1, 4, 5, 9 and 10 resolve: 0 down, 1, 2, 3 for 10, 100, 1000 Mb/s. -/
def phyLink (r1 r4 r5 r9 r10 : Nat) : Nat :=
  if !(bit r1 2) then 0
  else if (bit r9 9 && bit r10 11) || (bit r9 8 && bit r10 10) then 3
  else if [7, 8, 9].any fun b => bit r4 b && bit r5 b then 2
  else if [5, 6].any fun b => bit r4 b && bit r5 b then 1
  else 0

/-- The Clause 22 frame of an MDIO read up to its turnaround: start 01, read 10, the PHY's and the register's address. -/
def mdioRead (phy reg : Nat) : Nat := 0x1800 + phy * 32 + reg

/-- The frames by which a poll reads a PHY (R255). -/
def phyPoll (phy : Nat) : List Nat := [1, 4, 5, 9, 10].map (mdioRead phy)

/-- The internal clock delay of a direction of RGMII, ps (R255). -/
def State.rgmiiDelay (s : State) (tx : Bool) : Nat :=
  if s.flag (if tx then Obj.rgmii_tx_delay else Obj.rgmii_rx_delay) then 2000 else 0

/-- MGMT_PHY_POLL (R255): every 100 ms the registers of the PHY at mgmt_phy_addr are read over MDIO; code 0x4009 on a
change. -/
def execMgmtPhyPoll (r1 r4 r5 r9 r10 : Nat) (s : State) : Host.Outcome State Fault Refusal :=
  if !(s.portsAwake && s.flag Obj.mgmt_enable && s.ool.phyNext ≤ s.now) then .next s
  else
    let s : State := { s with ool := { s.ool with phyNext := s.now + ticksMs 100, mdio := phyPoll (s.nn Obj.mgmt_phy_addr) } }
    let v := phyLink r1 r4 r5 r9 r10
    if v = s.nn Obj.mgmt_link then .next s
    else .next ((s.putN Obj.mgmt_link v).log 0 0x4009 (be 1 (v : Nat)))

end Sys2Proof.Machine
end

