-- ==== Sys2Proof/Machine/Serve.lean ====
section
/-! DEFINITION. The classifier front (R260-R263), rings (R266-R268), the OOL admission (R61, R62), frames received on the
ports and the management port, calibration pairs (R241-R243), QUIETn (R282). -/

namespace Sys2Proof.Machine

/-- The serve domain is awake. -/
def State.serveAwake (s : State) : Bool := s.awake 5

/-! ## Rings (R266-R268) -/

/-- Replace the entry of a ring in the list by rising number. -/
def ringIns : List (Nat × Ring) → Nat → Ring → List (Nat × Ring)
  | [], k, x => [(k, x)]
  | (j, y) :: r, k, x => if k < j then (k, x) :: (j, y) :: r else if j = k then (k, x) :: r else (j, y) :: ringIns r k x

def State.ring (s : State) (k : Nat) : Ring := ((s.serve.rings.find? fun p => p.1 == k).map fun p => p.2).getD {}

def State.setRing (s : State) (k : Nat) (x : Ring) : State :=
  { s with serve := { s.serve with rings := ringIns s.serve.rings k x } }

def Ring.bytes (x : Ring) : Nat := x.items.foldl (fun a i => a + i.pkt.data.length) 0

/-- Bytes that rings 2-127 hold of their common pool. -/
def State.ringPool (s : State) : Nat := s.serve.rings.foldl (fun a p => a + p.2.bytes) 0

/-- Admission of a frame to a ring (R268): at most 4096 descriptors, 512 KiB per ring, 2 MiB in all. -/
def State.toRing (s : State) (k : Nat) (i : RingItem) : State :=
  let x := s.ring k
  let len := i.pkt.data.length
  if 4096 ≤ x.items.length || 524288 < x.bytes + len || 2097152 < s.ringPool + len then
    (s.bump (Obj.ring_drop k)).count 10 0x04
  else
    let i := { i with seq := x.seq }
    let tap := (x.tap ++ [i]).drop (x.tap.length + 1 - 64)
    (s.setRing k { items := x.items ++ [i], seq := (x.seq + 1) % 2 ^ 32, tap := tap }).count 10 0x03

/-- An ingress descriptor (R267). -/
def ingressDescriptor (buffer length port : Nat) (uncal tagged : Bool) (stamp reason code engine client seq : Nat) : Bytes :=
  beNat 4 buffer ++ beNat 2 length ++ beNat 1 port ++ beNat 1 ((if uncal then 128 else 0) + (if tagged then 64 else 0)) ++ beNat 9 stamp
    ++ beNat 1 reason ++ beNat 1 code ++ beNat 1 engine ++ beNat 4 client ++ beNat 4 seq ++ beNat 4 0

/-- The descriptor of a frame on rings 2 to 127. -/
def RingItem.descriptor (i : RingItem) : Bytes :=
  ingressDescriptor i.pkt.buffer i.pkt.data.length i.pkt.port i.pkt.uncal i.pkt.tagged i.pkt.stamp i.reason i.code i.engine i.client i.seq

/-- The descriptor of a frame on ring 0 or 1; reason 3 is entry 0. -/
def RxItem.descriptor (i : RxItem) : Bytes :=
  let port := match i.path with | .inband n => n.val | _ => 0xFF
  ingressDescriptor i.buffer (i.hdr.length + i.frame.length) port i.uncal i.tagged i.stamp 3 0 0xFF 0xFFFFFFFF i.seq

/-- An egress descriptor (R267) for a port. -/
def EFrame.descriptor (f : EFrame) (port : Nat) : Bytes :=
  beNat 4 f.buffer ++ beNat 2 f.data.length ++ beNat 1 port ++ beNat 1 f.flags ++ beNat 1 f.kind ++ [0] ++ beNat 2 f.offset
    ++ beNat 9 (f.notBefore * 256) ++ [0, 0, 0] ++ beNat 4 f.seq ++ beNat 4 0

/-- Place a frame in the packet buffer of 16 MiB: its byte offset. -/
def State.buffer (s : State) (len : Nat) : Nat × State :=
  (s.serve.bufNext, ({ s with serve := { s.serve with bufNext := (s.serve.bufNext + (len + 255) / 256 * 256) % 16777216 } } : State).count 10 0x01 ((len + 255) / 256))

/-! ## Classification (R261, R262) -/

/-- The remainder of an NTP payload after its header tells whether it carries extension fields (R261). -/
def ntpExtOk (mode udpLen : Nat) : Bool :=
  let r := udpLen - 48
  match mode with
  | 0 => true
  | 1 => 48 ≤ udpLen && (r = 0 || r = 4 || r = 20 || r = 24)
  | _ => 48 ≤ udpLen && !(r = 0 || r = 4 || r = 20 || r = 24)

/-- Every match field of rule r holds (R261); rule 28 pairs IPv4 with protocol 1 and IPv6 with 58. -/
def State.ruleMatches (s : State) (r : Nat) (h : Headers) (b : Bytes) : Bool :=
  let et := s.nn (Obj.match_ethertype r)
  let pr := s.nn (Obj.match_ip_proto r)
  let lp := s.nn (Obj.match_l4_port r)
  let types := s.nn (Obj.match_ptp_types r)
  let sdo := s.nn (Obj.match_sdo r)
  let b0 := fieldN b h.payload 1
  let ptp := h.payload ≠ 0xFFFF && h.payload < b.length
  s.flag (Obj.rule_enable r)
    && (if et = 0 then h.v4 || h.v6 else h.etype == et)
    && (pr = 0 || (if r = 28 then (h.v4 && h.proto == 1) || (h.v6 && h.proto == 58) else (h.v4 || h.v6) && h.proto == pr))
    && (lp = 0 || (h.l4 ≠ 0xFFFF && fieldN b (h.l4 + 2) 2 == lp))
    && (types = 0 || (ptp && bit types (b0 % 16)))
    && (sdo = 0xFF || types = 0 || (ptp && b0 / 16 == sdo))
    && (s.nn (Obj.match_ntp_ext r) = 0 || (h.proto == 17 && h.payload ≠ 0xFFFF && ntpExtOk (s.nn (Obj.match_ntp_ext r)) h.udpLen))

/-- The first enabled rule that matches. -/
def State.decideRule (s : State) (h : Headers) (b : Bytes) : Option Nat := (List.range 32).find? fun r => s.ruleMatches r h b

/-- The frame's source address as carried (R262): IPv4, IPv6, else MAC. -/
def sourceAddress (h : Headers) (b : Bytes) : Bytes :=
  if h.v4 then field b (h.l3 + 12) 4 else if h.v6 then field b (h.l3 + 8) 16 else field b 6 6

/-- The hash bucket of an address and an outer VID (R262). -/
def hashBucket (addr : Bytes) (vid : Nat) : Nat := crc32c (addr ++ beNat 2 (vid % 4096)) % 256

/-- The engine of a bucket (R262, R74). -/
def State.engineOf (s : State) (bucket : Nat) : Fin 8 :=
  if s.mode.cur = .steep then 0 else ⟨s.nn (Obj.bucket_map bucket) % 8, Nat.mod_lt _ (by decide)⟩

/-- The drop counter of an engine's class (R263). -/
def dropKey (e : Nat) (c : Nat) : Nat :=
  match c with
  | 0 => Obj.drop_class0 e
  | 1 => Obj.drop_class1 e
  | _ => Obj.drop_class2 e

/-! ## Class queues (R263) -/

def Work.bytes : Work → Nat
  | .frame p => p.data.length
  | .timer .. => 0
  | .port .. => 0

def Work.bucket : Work → Nat
  | .frame p => p.bucket
  | .timer _ _ b _ => b
  | .port _ n _ _ => n

/-- The raw stamp of a work item: the ingress stamp, or a timer event's due slot. -/
def Work.stamp : Work → Nat
  | .frame p => p.stamp
  | .timer _ _ _ d => d
  | .port _ _ _ d => d

def Work.isFrame : Work → Bool
  | .frame _ => true
  | _ => false

def queueBytes (q : List Work) : Nat := q.foldl (fun a w => a + w.bytes) 0

/-- A class discard: counted, the first of each second journalled with code 0x5002 and the count of the second before. -/
def State.classDiscard (s : State) (e : Fin 8) (c : Fin 3) : State :=
  let s := s.bump (dropKey e c)
  let g := s.serve.engines[e]
  if g.dropSec[c] = some s.second then
    s.setEngine e { g with dropCount := g.dropCount.set c (g.dropCount[c].1 + 1, g.dropCount[c].2) }
  else
    let prev := if g.dropSec[c] = some (s.second - 1) then g.dropCount[c].1 else 0
    let s := s.setEngine e { g with dropSec := g.dropSec.set c (some s.second), dropCount := g.dropCount.set c (1, prev) }
    s.log (0x0600 + e) 0x5002 (be 1 (c.val : Nat) ++ be 4 (prev : Nat))

/-- Wake a pair (R283): it serves within 2 µs. -/
def State.wakePair (s : State) (p : Fin 4) : State :=
  let x := s.serve.pairs[p]
  if x.state ≠ 0 || s.blockBusy (0x0200 + p) then s
  else { s with serve := { s.serve with pairs := s.serve.pairs.set p { x with state := 1, wakeAt := s.now } } }

/-- The buckets' target engine when `k` pairs are kept. -/
def bucketTarget (k b : Nat) : Nat := b % (2 * k)

/-- A bucket's target differs from its engine: it is moving (R283). -/
def State.moves (s : State) (b : Nat) : Bool :=
  s.mode.cur ≠ .steep && s.nn (Obj.bucket_map b) != bucketTarget (max 1 s.serve.keepPairs) b

/-- Put work into its engine's class queue; work of a bucket that is moving waits in the packet buffer. A queue beyond a
quarter of its limit adds a pair at once (R283). -/
def State.enqueue (s : State) (w : Work) (c : Fin 3) : State :=
  if s.moves w.bucket then { s with serve := { s.serve with moving := s.serve.moving ++ [w] } }
  else
    let e := s.engineOf w.bucket
    let g := s.serve.engines[e]
    let lim := s.nn (Obj.class_limit c) * 1024
    let held := queueBytes g.queues[c]
    if w.isFrame && lim ≤ held then s.classDiscard e c
    else
      let s := s.setEngine e { g with queues := g.queues.set c (g.queues[c] ++ [w]) }
      let k := s.serve.keepPairs
      if h : s.flag Obj.consolidate_enable ∧ lim < 4 * (held + w.bytes) ∧ k < 4 then
        ({ s with serve := { s.serve with keepPairs := k + 1 } } : State).wakePair ⟨k, h.2.2⟩
      else s

/-- STEEP serves NTP without extension fields on ports 0-7, by rule 24, at most 10,000,000 requests per second; every
other engine frame is counted in engine 0's drop counter of its class (R74). -/
def State.steepFrame (s : State) (p : Pkt) (c : Fin 3) : State :=
  let g := s.serve.engines[(0 : Fin 8)]
  let n := if g.steepSec = s.second then g.steepCount else 0
  if p.rule = 24 && p.port < 8 && n < 10000000 then
    let s := s.setEngine 0 { g with steepSec := s.second, steepCount := n + 1 }
    s.enqueue (.frame { p with entry := 0 }) c
  else s.bump (dropKey 0 c)

/-- The classifier front's decision on an accepted frame (R260). -/
def State.classify (s : State) (p : Pkt) (h : Headers) : State :=
  if s.serve.stopped then s.bump Obj.quiet_drop
  else
    match s.decideRule h p.data with
    | none => s.bump Obj.unclassified
    | some r =>
      let s := s.bump (Obj.rule_matches r)
      let p := { p with rule := r, bucket := hashBucket (sourceAddress h p.data) p.vid }
      let target := s.nn (Obj.rule_target r)
      match s.nn (Obj.rule_action r) with
      | 1 =>
        let c : Fin 3 := ⟨min 2 (s.nn (Obj.rule_class r)), by omega⟩
        let p := { p with entry := target, cls := c }
        if s.mode.cur = .steep then s.steepFrame p c else s.enqueue (.frame p) c
      | 2 => s.toRing target { pkt := p, reason := 0, code := r, seq := 0 }
      | _ => s

/-! ## OOL admission (R52, R61, R62) -/

/-- The magic, version or length of an OOL frame is wrong (R52). -/
def oolMalformed (b : Bytes) : Bool :=
  b.length < 52 || fieldN b 0 2 != 0x4F4C || fieldN b 2 1 != 1 || fieldN b 16 2 + 52 != b.length || 1400 < fieldN b 16 2

/-- The session that holds an identifier. -/
def State.sessionOf (s : State) (id : Nat) : Option (Fin 32 × Session) :=
  (List.finRange 32).findSome? fun k => match s.ool.sessions[k] with
    | some x => if x.id = id then some (k, x) else none
    | none => none

/-- Replace a session. -/
def State.setSession (s : State) (k : Fin 32) (x : Option Session) : State :=
  { s with ool := { s.ool with sessions := s.ool.sessions.set k x } }

/-- Bytes held on rings 0 and 1. -/
def rxBytes (q : List RxItem) : Nat := q.foldl (fun a i => a + i.hdr.length + i.frame.length) 0

/-- Admission to ring 1 (R61, R62): 1000 frames per second, 16,384 bytes. DESIGN CHOICE (log entry 203): the counter where the reserve is full. -/
def State.toRing1 (s : State) (i : RxItem) : State :=
  let o := s.ool
  let n := if o.setupSec = s.second then o.setupCount else 0
  let len := i.hdr.length + i.frame.length
  if 1000 ≤ n || 16384 < rxBytes o.ring1 + len || 167772 < rxBytes o.ring0 + rxBytes o.ring1 + len then
    s.bump Obj.ool_setup_dropped
  else
    let (buffer, s) := s.buffer len
    let o := s.ool
    { s with ool := { o with setupSec := s.second, setupCount := n + 1, ring1 := o.ring1 ++ [{ i with buffer, seq := o.seq1 }],
                             seq1 := (o.seq1 + 1) % 2 ^ 32 } }

/-- Admission to ring 0 (R61, R62): 10,000 frames per second and session. DESIGN CHOICE (log entry 203): the counter where the reserve is full. -/
def State.toRing0 (s : State) (k : Fin 32) (x : Session) (i : RxItem) : State :=
  let n := if x.rateSec = s.second then x.rateCount else 0
  if 10000 ≤ n || 167772 < rxBytes s.ool.ring0 + rxBytes s.ool.ring1 + i.hdr.length + i.frame.length then
    s.bump Obj.ool_session_drop
  else
    let s := s.setSession k (some { x with rateSec := s.second, rateCount := n + 1 })
    let (buffer, s) := s.buffer (i.hdr.length + i.frame.length)
    { s with ool := { s.ool with ring0 := s.ool.ring0 ++ [{ i with buffer, seq := s.ool.seq0 }], seq0 := (s.ool.seq0 + 1) % 2 ^ 32 } }

/-- The destination port of a request that came over UDP: its headers end with the UDP header. -/
def RxItem.port (i : RxItem) : Nat := fieldN i.hdr (i.hdr.length - 6) 2

/-- Place an OOL frame that came over UDP (R61); a session's frames come to the port it was opened with. -/
def State.placeOol (s : State) (i : RxItem) : State :=
  if oolMalformed i.frame then s.bump Obj.ool_malformed
  else
    let id := fieldN i.frame 4 4
    let seq := fieldN i.frame 8 8
    if id = 0 || s.ool.setups.any (fun x => x.id == id) then s.toRing1 i
    else
      match s.sessionOf id with
      | some (k, x) => if x.hi ≤ seq + 64 && i.port = x.port then s.toRing0 k x i else s.bump Obj.ool_replay
      | none => s.bump Obj.ool_replay

/-- Address resolution or neighbour discovery. -/
def isResolution (h : Headers) (b : Bytes) : Bool :=
  h.etype == 0x0806 || (h.v6 && h.proto == 58 && [133, 134, 135, 136].contains (fieldN b (h.l3 + 40) 1))

/-- A frame is OOL (R61): UDP to ool_udp_port, or a frame of an open session to the port it was opened with. -/
def State.isOol (s : State) (h : Headers) (b : Bytes) : Bool :=
  let port := fieldN b (h.l4 + 2) 2
  let own := match s.sessionOf (fieldN b (h.payload + 4) 4) with
    | some (_, y) => y.path != .spi && y.port == port
    | none => false
  h.proto == 17 && h.payload ≠ 0xFFFF && (port == s.nn Obj.ool_udp_port || own)

/-! ## The perfect-match filter (R231, R232) -/

/-- Entry 0 is enabled. -/
def State.entry0 (s : State) (n : Nat) : Bool := s.flag Obj.ool_inband_enable && s.mode.cur ≠ .kiln && (s.mode.cur ≠ .steep || n < 8)

/-- The lowest-numbered entry that a frame matches. -/
def State.matchEntry (s : State) (n : Nat) (h : Headers) (b : Bytes) : Option Nat :=
  (List.range 16).find? fun e =>
    let (on, mac, mode, vid) :=
      if e = 0 then (s.entry0 n, s.octs Obj.inband_mac, s.nn Obj.inband_vlan_mode, s.nn Obj.inband_vid)
      else (s.flag (Obj.pm_enable n e), s.octs (Obj.pm_mac n e), s.nn (Obj.pm_vlan_mode n e), s.nn (Obj.pm_vid n e))
    on && field b 0 6 == mac
      && (match mode with | 0 => !h.tagged | 1 => h.tagged && h.vid == vid | _ => true)

/-! ## Calibration pairs (R241-R243) -/

/-- The frame of a calibration exchange without FCS (R242). -/
def State.calFrame (s : State) (sender partner seq : Nat) : Bytes :=
  [0x01, 0x80, 0xC2, 0, 0, 0x0E] ++ s.octs Obj.inband_mac ++ [0x88, 0xB5, 0x53, 0x43, 1] ++ beNat 1 sender ++ beNat 1 partner
    ++ [0] ++ beNat 4 seq ++ List.replicate 36 0

/-- A pair is enabled: both ports have the same configuration and are up. -/
def State.pairUp (s : State) (a b : Fin 64) : Bool := s.linkUp a && s.linkUp b

/-- The mean of a list of integers in 1/256 tick, in ps, halved. -/
def halfMeanPs (l : List Int) : Int :=
  if l = [] then 0 else rneDiv (l.foldl (· + ·) 0 * 25) (16 * l.length)

/-- A complete exchange (R243): the means over cal_window exchanges, then cal_correction on the port whose cal_apply is
true. With cal_apply on the lower-numbered port that port is b, else the higher-numbered one. -/
def State.pairResult (s : State) (a b : Fin 64) : State :=
  let c := s.ports[a].cal
  let w := s.nn (Obj.cal_window a)
  let done := c.done.take w
  let flip : Int := if s.flag (Obj.cal_apply a) then -1 else 1
  let delay := halfMeanPs (done.map fun p => p.1 + p.2)
  let offset := halfMeanPs (done.map fun p => flip * (p.1 - p.2))
  let pb := if s.flag (Obj.cal_apply a) then a else b
  let full := w ≤ c.done.length
  let beyond := full && (s.nn (Obj.cal_limit pb) : Int) < offset.natAbs
  let old := s.nn (Obj.cal_state a)
  let s : State := [a, b].foldl (fun (s : State) (m : Fin 64) =>
    ((s.putN (Obj.cal_delay m) delay).putN (Obj.cal_offset m) offset).putN (Obj.cal_state m)
      (if beyond then 3 else if full then 2 else 1)) s
  if beyond then
    if old = 3 then s else s.log (portSource pb) 0x4006 (be 8 offset)
  else if full && s.flag (Obj.cal_apply pb) then
    let x := s.n (Obj.cal_correction pb)
    s.putN (Obj.cal_correction pb) (x + clampInt (-10) 10 (offset - x))
  else s

/-- Note a stamp of exchange `seq`; a complete exchange gives its differences. -/
def State.pairStamp (s : State) (a b : Fin 64) (seq : Nat) (f : CalPair → CalPair) : State :=
  let c := s.ports[a].cal
  if !(c.isOpen && c.seq = seq) then s
  else
    let c := f c
    match c.t1, c.t2, c.t3, c.t4 with
    | some t1, some t2, some t3, some t4 =>
      let c := { c with isOpen := false, done := (((t2 : Int) - t1, (t4 : Int) - t3) :: c.done).take 4096 }
      (s.setPort a { s.ports[a] with cal := c }).pairResult a b
    | _, _, _, _ => s.setPort a { s.ports[a] with cal := c }

/-- CAL_FRAME_SEND (R241): every cal_interval, each port of a pair sends the frame of the exchange. An exchange with a
missing frame is dropped and counted when the next one starts (R243). -/
def execCalFrameSend (port : Fin 64) (s : State) : Host.Outcome State Fault Refusal :=
  match s.calPairOf port with
  | none => .next s
  | some (a, b) =>
    if !(s.portsAwake && s.pairUp a b && s.ports[port].calNext ≤ s.now && !s.macDown) then .next s
    else
      let c := s.ports[a].cal
      let lo := port = a
      let again := !c.isOpen || (if lo then c.sentLo else c.sentHi)
      let s := if again && c.isOpen then (s.bump (Obj.cal_lost a)).bump (Obj.cal_lost b) else s
      let c : CalPair := if again then { seq := (c.seq + 1) % 2 ^ 32, isOpen := true, done := c.done } else c
      let c : CalPair := if lo then { c with sentLo := true } else { c with sentHi := true }
      let s := s.setPort a { s.ports[a] with cal := c }
      let s := if s.nn (Obj.cal_state port) = 0 then (s.putN (Obj.cal_state a) 1).putN (Obj.cal_state b) 1 else s
      let peer := if lo then b else a
      let f : EFrame := { cls := 0, data := s.calFrame port peer c.seq, cal := some c.seq }
      let u := s.ports[port]
      let s := s.setPort port { u with egress := u.egress ++ [f], calNext := s.now + ticksMs (s.nn (Obj.cal_interval port)) }
      .next (s.countP port 0x0C)

/-- A calibration frame received on a port of a pair, with its stamp taken without cal_correction (R242, R243). -/
def State.calReceive (s : State) (n : Fin 64) (stamp : Nat) (b : Bytes) : State :=
  match s.calPairOf n with
  | none => s
  | some (lo, hi) =>
    let peer := if n = lo then hi else lo
    if fieldN b 16 1 ≠ 1 || fieldN b 17 1 ≠ peer.val || fieldN b 18 1 ≠ n.val then s.bump (Obj.cal_lost n)
    else s.pairStamp lo hi (fieldN b 20 4) fun c => if n = hi then { c with t2 := some stamp } else { c with t4 := some stamp }

/-- A frame has the destination and type of R242. -/
def isCalFrame (b : Bytes) : Bool := field b 0 6 == [0x01, 0x80, 0xC2, 0, 0, 0x0E] && fieldN b 12 4 == 0x88B55343

/-! ## Frames received (R230) -/

/-- The SSM and eSSM of an ESMC PDU (R230; its layout is that of ITU-T G.8264). -/
def esmcOf (b : Bytes) : Nat × Option Nat :=
  (fieldN b 27 1 % 16, if fieldN b 28 1 = 2 && fieldN b 29 2 = 20 then some (fieldN b 31 1) else none)

/-- Stages 3 to 5 of R230 for a frame without FCS. -/
def State.acceptFrame (s : State) (n : Fin 64) (stamp calStamp : Nat) (uncal : Bool) (b : Bytes) : State :=
  let h := rxHeaders (s.nn (Obj.vlan_tpid n)) b
  if h.etype = 0x8809 && field b 0 6 == [0x01, 0x80, 0xC2, 0, 0, 2] && fieldN b h.after 1 = 0x0A then
    let (ssm, essm) := esmcOf b
    match execEsmcPduReceive n ssm essm s with
    | .next t => t
    | _ => s
  else if isCalFrame b && (s.calPairOf n).isSome then s.calReceive n calStamp b
  else if h.etype = 0x8809 || h.etype = 0x8808 then s.bump (Obj.rx_control_discard n)
  else
    let filtered := (s.bump (Obj.rx_filtered n)).countP n 0x06
    let (buf, s1) := s.buffer b.length
    let p : Pkt := { buffer := buf, data := b, port := n, stamp, time := s.convert stamp, uncal, tagged := h.tagged, vid := h.vid, v6 := h.v6,
                     l3 := h.l3, l4 := h.l4, payload := h.payload }
    let entry := s.matchEntry n h b
    let p := { p with filter := entry }
    match entry with
    | none =>
      if s.flag (Obj.promiscuous n) then s1.toRing (s.nn (Obj.promisc_ring n)) { pkt := p, reason := 1, seq := 0 } else filtered
    | some 0 =>
      if s.isOol h b then
        s.placeOol { path := .inband n, hdr := b.take h.payload, frame := b.drop h.payload |>.take h.udpLen, stamp, uncal, tagged := h.tagged }
      else if isResolution h b then s.toRing1 { path := .inband n, hdr := b, frame := [], stamp, uncal, tagged := h.tagged }
      else filtered
    | some _ => if s.serveAwake then s1.classify p h else s

/-- The receive path (R230) for a frame with its FCS, the word edge and bit position of the end of its SFD, and the lane's
skew to lane 0 (R234, R235); a bit position lies within a word (R236). -/
def State.receivePort (s : State) (n : Fin 64) (edge : Rat) (o : Nat) (skew : Rat) (frame : Bytes) : State :=
  if !(s.portsAwake && s.linkUp n && o ≤ modeWord (s.nn (Obj.speed_resolved n))) then s
  else if s.macDown then
    let s := s.setPort n { s.ports[n] with rxOct := s.ports[n].rxOct + frame.length + 20 }
    (s.holdPulse n).countP n 0x06
  else
    let sk : Rat := if s.nn (Obj.speed_resolved n) = 5 then skew else 0
    let stamp := s.rxStamp n edge o sk
    let uncal := s.nn (Obj.rx_sentinel_state n) != 2
    let s := s.setPort n { s.ports[n] with rxOct := s.ports[n].rxOct + frame.length + 20 }
    if s.blockBusy (0x0100 + n) then (s.bump (Obj.rx_filtered n)).countP n 0x06
    else if !fcsOk frame then (s.bump (Obj.rx_fcs_errors n)).countP n 0x05
    else
      let s := (s.bump (Obj.rx_frames n)).bump (Obj.rx_bytes n) frame.length
      let s := (s.countP n 0x01).countP n 0x02 frame.length
      if frame.length < 64 || s.nn (Obj.max_frame n) < frame.length then s.bump (Obj.rx_size_errors n)
      else s.acceptFrame n stamp (s.rxStamp n edge o sk false) uncal (frame.take (frame.length - 4))

/-- PORT_FRAME_RECEIVE (R230). -/
def execPortFrameReceive (port : Fin 64) (edge : Rat) (o : Nat) (skew : Rat) (frame : Bytes) (s : State) :
    Host.Outcome State Fault Refusal :=
  .next (s.receivePort port edge o skew frame)

/-- CAL_FRAME_RECEIVE (R242, R243): a calibration frame with its FCS arrives on a port in a pair and passes the stages of
R230; no group's lane has a part in a pair, so no skew applies. -/
def execCalFrameReceive (port : Fin 64) (edge : Rat) (o : Nat) (frame : Bytes) (s : State) : Host.Outcome State Fault Refusal :=
  if isCalFrame frame && (s.calPairOf port).isSome then .next (s.receivePort port edge o 0 frame) else .next s

/-- MGMT_FRAME_RECEIVE (R255): the frame with its FCS. OOL goes as R61 states, other frames to ring 2 (R260). -/
def execMgmtFrameReceive (frame : Bytes) (s : State) : Host.Outcome State Fault Refusal :=
  if !(s.portsAwake && s.flag Obj.mgmt_enable && s.nn Obj.mgmt_link != 0 && !s.macDown) then .next s
  else
    let b := frame.take (frame.length - 4)
    let mac := s.octs Obj.mgmt_mac
    let dst := field b 0 6
    let mine := dst == mac || dst == List.replicate 6 0xFF || dst == [0x33, 0x33, 0xFF] ++ mac.drop 3
    if !(fcsOk frame && 64 ≤ frame.length && mine) then .next (s.bump Obj.mgmt_rx_dropped)
    else
      let s := s.bump Obj.mgmt_rx_frames
      let h := rxHeaders 0x8100 b
      if s.isOol h b then
        .next (s.placeOol { path := .mgmt, hdr := b.take h.payload, frame := b.drop h.payload |>.take h.udpLen, tagged := h.tagged })
      else
        let (buf, s) := s.buffer b.length
        .next (s.toRing 2 { pkt := { buffer := buf, data := b, port := 0xFF, tagged := h.tagged, vid := h.vid }, reason := 0, seq := 0 })

/-! ## QUIETn and serve_quiet (R282) -/

/-- Serving stops: code 0x5004; emissions whose departure is not fixed are answered with status 2, quiet_drop (R304). -/
def State.stopServing (s : State) (cause : Nat) : State :=
  if s.serve.stopped then s
  else
    let s : State := { s with serve := { s.serve with stopped := true } }
    let s := s.log 0 0x5004 (be 1 (cause : Nat))
    (List.finRange 64).foldl (fun (s : State) n => s.dropEgress n (fun f => f.owner.isSome) Obj.quiet_drop) s

/-- QUIETN_ASSERT (R282): QUIETn low after its glitch filter. -/
def execQuietnAssert (s : State) : Host.Outcome State Fault Refusal :=
  .next (({ s with serve := { s.serve with quietLow := true, quietHighAt := none } } : State).putB Obj.quiet_pin true |>.stopServing 0)

/-- QUIETN_DEASSERT (R282). -/
def execQuietnDeassert (s : State) : Host.Outcome State Fault Refusal :=
  if !s.serve.quietLow then .next s
  else .next (({ s with serve := { s.serve with quietLow := false, quietHighAt := some s.now } } : State).putB Obj.quiet_pin false)

/-- The effect of a commit of serve_quiet. -/
def State.serveQuiet (s : State) : State := if s.flag Obj.serve_quiet then s.stopServing 1 else s

/-- SERVE_QUIET (R282): a commit of serve_quiet. -/
def execServeQuiet (value : Bool) (s : State) : Host.Outcome State Fault Refusal :=
  if s.serveAwake then .next (s.putB Obj.serve_quiet value).serveQuiet else .next s

/-- The frames that waited on ring 129 leave on the management port. -/
def State.release129 (s : State) : State :=
  if s.serve.ring129 = [] then s
  else
    { s with ool := { s.ool with mgmtOut := s.serve.ring129.map fun f => f.data }, serve := { s.serve with ring129 := [] } }

/-- SERVING_RESUME (R282): 1 ms after QUIETn has been high without a break, with serve_quiet false; code 0x5005. -/
def execServingResume (s : State) : Host.Outcome State Fault Refusal :=
  let highFor : Bool := match s.serve.quietHighAt with | some t => t + ticksMs 1 ≤ s.now | none => true
  if s.serve.stopped && !s.serve.quietLow && highFor && !s.flag Obj.serve_quiet then
    .next (({ s with serve := { s.serve with stopped := false } } : State).log 0 0x5005 []).release129
  else .next s

/-- serve_state (0x5000.01): 0 stopped, 1 reduced as R74, 2 full. -/
def State.serveState (s : State) : Nat :=
  if !s.serveAwake || s.serve.stopped then 0 else if s.mode.cur = .steep then 1 else 2

end Sys2Proof.Machine
end

