-- ==== Sys2Proof/Machine/Ownership.lean ====
section
/-! DEFINITION. Ownership, transactions and the closing of sessions (R44, R57, R58, R63): what the dictionary's commands
and the resets share. -/

namespace Sys2Proof.Machine

/-- The owner: a session number while ownership is held, through a handover too (R58). -/
def State.owner (s : State) : Option (Fin 32) :=
  let n := s.nn Obj.owner_session
  if h : n < 32 then (if 2 ≤ s.nn Obj.owner_state then some ⟨n, h⟩ else none) else none

/-- The open transaction ends without effect (R44). -/
def State.abortTxn (s : State) : State :=
  (({ s with ool := { s.ool with txn := none } } : State).putN Obj.txn_state 0).putN Obj.txn_staged_count 0

/-- Journal a change of ownership (R63, code 0x1101). -/
def State.logOwner (s : State) (cause : Nat) : State :=
  let o := s.nn Obj.owner_session
  s.log (if o < 32 then 0x0700 + o else 0) 0x1101
    (be 1 (s.n Obj.owner_state) ++ be 1 o ++ be 1 cause ++ be 8 (s.n Obj.owner_node_id) ++ be 4 (s.n Obj.owner_epoch)
      ++ be 1 (s.n Obj.owner_priority))

/-- A session becomes the owner (R58): the transaction of the former owner is aborted, its handover cancelled, the lease
starts. -/
def State.takeOwnership (s : State) (k : Fin 32) (prio node cause : Nat) : State :=
  let s := s.abortTxn
  let s : State := { s with ool := { s.ool with successor := none, claims := [], leaseEnd := s.now + ticksS 3 } }
  let s := ((s.putN Obj.owner_session k).putN Obj.owner_priority prio).putN Obj.owner_node_id node
  ((s.putN Obj.owner_state 2).bump Obj.owner_epoch).logOwner cause

/-- Ownership becomes FREE (R58). -/
def State.freeOwnership (s : State) (cause : Nat) : State :=
  let s := s.abortTxn
  let s : State := { s with ool := { s.ool with successor := none } }
  let s := ((s.putN Obj.owner_session 255).putN Obj.owner_priority 0).putN Obj.owner_node_id 0
  ((s.putN Obj.owner_state 0).bump Obj.owner_epoch).logOwner cause

/-- Set session_open_count. -/
def State.countSessions (s : State) : State :=
  s.putN Obj.session_open_count (s.ool.sessions.toList.filter fun x => x.isSome).length

/-- A session closes (R57, R58, R63): code 0x1103; an owner's closing frees ownership; a claimant's claim lapses. -/
def State.closeSession (s : State) (k : Fin 32) (cause : Nat) : State :=
  match s.ool.sessions[k] with
  | none => s
  | some _ =>
    let wasOwner := s.owner == some k
    let s := (s.setSession k none).countSessions
    let s : State := { s with ool := { s.ool with claims := s.ool.claims.filter fun c => c.session ≠ k } }
    let s := s.log (0x0700 + k) 0x1103 (be 1 cause)
    if wasOwner then s.freeOwnership 5 else s

/-- Every session closes. -/
def State.closeSessions (s : State) (cause : Nat) : State :=
  (List.finRange 32).foldl (fun (s : State) (k : Fin 32) => s.closeSession k cause) s

/-- The control domain restarts (R79, R381): sessions, setups, queued frames, the transaction and an election end. -/
def State.resetOol (s : State) (cause : Nat) : State :=
  let s := s.closeSessions cause
  let s := if s.nn Obj.owner_state = 1 then s.putN Obj.owner_state 0 else s
  let o := s.ool
  let s := s.abortTxn
  { s with ool := { ring0 := o.ring0, ring1 := o.ring1, nextTxn := o.nextTxn, nextSched := o.nextSched, persisting := o.persisting } }

/-- A scheduled commit's time has come: it executes (R48, R49). -/
def State.schedDue (s : State) (c : Sched) : Bool := s.timeValid && decide (c.time ≤ s.time)

/-- The scheduled commits that are pending: those whose time has not come (R49). -/
def State.schedPending (s : State) : List Sched := s.sched.filter fun c => !s.schedDue c

/-- The earliest time of a list of scheduled commits, 0 of none. -/
def earliestSched (l : List Sched) : Int :=
  match l with
  | [] => 0
  | c :: r => r.foldl (fun a d => min a d.time) c.time

/-- Discard every pending scheduled commit (R49, code 0x1105); one whose time has come is executing and stays. -/
def State.discardSched (s : State) : State :=
  let gone := s.schedPending
  let stay := s.sched.filter fun c => s.schedDue c
  let s := gone.foldl (fun (s : State) c => s.log 0 0x1105 (be 4 c.id ++ be 8 (c.time / unitsPerS))) s
  ({ s with sched := stay } : State).dropLostStep

/-- Zeroise key RAM (R351): slots, cookie keys and working space. -/
def State.zeroiseKeys (s : State) : State :=
  { s with sec := { s.sec with keySlots := [], cookieKeys := false }, mem := { s.mem with key := [], keySums := [] } }

/-- Load key RAM slots 0, 1, 11-14 and 16-47 from their records (R350); none where the storage cipher has no key (R348,
R362). -/
def State.loadKeys (s : State) : State :=
  match s.storeKey with
  | none => { s with sec := { s.sec with keySlots := [] } }
  | some store =>
    let opt := fun (n : Nat) (b : Option Bytes) => match b with | some x => [(n, x)] | none => []
    let slots := opt 0 (openRecord store Obj.identity_public_key s.flash.identity)
      ++ opt 1 (s.flash.keKey.bind fun p => openRecord store Obj.nts_ke_keygen p.1)
      ++ (List.range 4).flatMap (fun i => opt (11 + i) (s.secretOf (Obj.sec_key i)))
      ++ (List.range 32).flatMap (fun k => opt (16 + k) (s.secretOf (Obj.rb_key k)))
    { s with sec := { s.sec with keySlots := slots } }

end Sys2Proof.Machine
end

