-- ==== Sys2Proof/Machine/Client.lean ====
section
/-! DEFINITION. The client table unit (R272-R278), the sketch (R280). -/

namespace Sys2Proof.Machine

/-! ## Entries (R272-R274) -/

/-- The entry at an index: the cached one, else the one in DRAM; none when free. -/
def State.ctEntry (s : State) (i : Nat) : Option Bytes :=
  match s.serve.ct.cache.find? fun l => l.index == i with
  | some l => if l.data.headD 0 = 0 then none else some l.data
  | none => (s.serve.ct.dram.find? fun p => p.1 == i).map fun p => p.2

/-- Insert, replace or (none) remove an entry in the list by rising index. -/
def ctIns : List (Nat × Bytes) → Nat → Option Bytes → List (Nat × Bytes)
  | [], i, x => match x with | some d => [(i, d)] | none => []
  | (j, y) :: r, i, x =>
    if j < i then (j, y) :: ctIns r i x
    else
      let rest := if j = i then r else (j, y) :: r
      match x with | some d => (i, d) :: rest | none => rest

/-- A line's data in DRAM form: an entry of kind 0 is free. -/
def lineEntry (d : Bytes) : Option Bytes := if d.headD 0 = 0 then none else some d

/-- Write a cache line back to DRAM (R274). -/
def State.writeBack (s : State) (l : CacheLine) : State :=
  let s := s.count 10 0x07
  s.setCt { s.serve.ct with
    dram := ctIns s.serve.ct.dram l.index (lineEntry l.data),
    cache := s.serve.ct.cache.map fun m => if m.index = l.index then { m with dirty := none } else m }

/-- A tile is under quarantine or retired (R372): region, byte address in it. -/
def State.tileOut (s : State) (region addr : Nat) : Bool :=
  s.mem.tiles.any fun t => t.region == region && t.addr / 256 == addr / 256 && (t.retired || !t.freed)

/-- The ways of a set of the client cache: 16, less 4 for each of its tiles retired (R274, R372). -/
def State.cacheWays (s : State) (set : Nat) : Nat :=
  16 - 4 * (s.mem.tiles.filter fun t => t.region == 2 && t.retired && t.addr / 1024 == set).length

/-- Bring a line to the front of its set; the line beyond the set's ways is evicted, written back when dirty (R274). -/
def State.cacheLine (s : State) (l : CacheLine) : State :=
  let s := s.setCt { s.serve.ct with cache := l :: s.serve.ct.cache.filter fun m => m.index ≠ l.index }
  match (s.serve.ct.cache.filter fun m => m.index % 32768 = l.index % 32768)[s.cacheWays (l.index % 32768)]? with
  | none => s
  | some v =>
    let s := if v.dirty.isSome then s.writeBack v else s
    s.setCt { s.serve.ct with cache := s.serve.ct.cache.filter fun m => m.index ≠ v.index }

/-- Update an entry: the whole entry is written in the cache (R274). -/
def State.ctWrite (s : State) (i : Nat) (d : Bytes) : State := s.cacheLine { index := i, data := d, dirty := some s.now }

/-- Read an entry into the cache: a hit or a miss. -/
def State.ctRead (s : State) (i : Nat) : State :=
  match s.serve.ct.cache.find? fun l => l.index == i with
  | some l => (s.cacheLine l).count 10 0x05
  | none =>
    match s.ctEntry i with
    | some d => (s.cacheLine { index := i, data := d }).count 10 0x06
    | none => s.count 10 0x06

/-- The indices in use with their entries. -/
def State.ctAll (s : State) : List (Nat × Bytes) :=
  s.serve.ct.cache.foldl (fun l c => ctIns l c.index (lineEntry c.data)) s.serve.ct.dram

/-- Set the counts of entries and grants. -/
def State.ctCount (s : State) : State :=
  let l := s.ctAll
  (s.putN Obj.ct_entries l.length).putN Obj.ct_grants (l.filter fun p => fieldN p.2 0 1 = 2).length

/-- The 24 key bytes of an entry: all before last_seen, with only the address-kind flags (R272). -/
def entryKey (d : Bytes) : Bytes := patch (d.take 24) 1 [BitVec.ofNat 8 (fieldN d 1 1 / 128 * 128 + (if bit (fieldN d 1 1) 4 then 16 else 0))]

/-- The key of a frame for a kind and instance (R272, R302). -/
def Pkt.clientKey (p : Pkt) (kind inst : Nat) : Bytes :=
  let mac := p.l3 = 0xFFFF
  let addr := if mac then List.replicate 10 0 ++ field p.data 6 6
    else if p.v6 then field p.data (p.l3 + 8) 16
    else List.replicate 10 0 ++ [0xFF, 0xFF] ++ field p.data (p.l3 + 12) 4
  let flags := if mac then 16 else if p.v6 then 128 else 0
  let udp := if kind = 1 && p.l4 ≠ 0xFFFF then fieldN p.data p.l4 2 else 0
  beNat 1 kind ++ beNat 1 flags ++ beNat 1 p.port ++ beNat 1 (if kind = 2 then inst else 0) ++ beNat 2 p.vid ++ beNat 2 udp ++ addr

/-- The candidate buckets of a key. -/
def candidates (key : Bytes) : List Nat := [Config.ctHash 0 key % 2 ^ 21, Config.ctHash 1 key % 2 ^ 21]

def bucketIndices (b : Nat) : List Nat := (List.range 8).map fun i => b * 8 + i

/-- The entry with a key: both candidate buckets are examined; a quarantined tile and a table that failed training hold
none (R365, R372). -/
def State.ctFind (s : State) (key : Bytes) : Option Nat :=
  if !s.serve.ct.ready then none
  else ((candidates key).flatMap bucketIndices).find? fun i => !s.tileOut 1 (i * 64) && match s.ctEntry i with
    | some d => entryKey d == key
    | none => false

/-- A free index in a bucket. -/
def State.freeIn (s : State) (b : Nat) : Option Nat :=
  (bucketIndices b).find? fun i => (s.ctEntry i).isNone && !s.tileOut 1 (i * 64)

/-- A thread holds the entry. -/
def State.ctHeld (s : State) (i : Nat) : Bool :=
  s.serve.engines.toList.any fun g => g.threads.toList.any fun t => t.busy && (t.held == some i || t.also.contains i)

/-- The other candidate bucket of the entry at an index. -/
def State.otherBucket (s : State) (i : Nat) : Nat :=
  match s.ctEntry i with
  | some d => ((candidates (entryKey d)).find? fun b => b ≠ i / 8).getD (i / 8)
  | none => i / 8

/-- Free an index of a bucket by moving up to `n` resident entries, each to its other candidate bucket (R272). -/
def State.makeRoom (s : State) : Nat → Nat → Option (Nat × State)
  | 0, b => (s.freeIn b).map fun i => (i, s)
  | n + 1, b =>
    match s.freeIn b with
    | some i => some (i, s)
    | none =>
      let mov := (bucketIndices b).filter fun i => !s.ctHeld i && s.otherBucket i ≠ b
      let pick := (mov.find? fun i => (s.freeIn (s.otherBucket i)).isSome).orElse fun _ => mov[n % 8]?
      match pick with
      | none => none
      | some i =>
        match s.makeRoom n (s.otherBucket i) with
        | none => none
        | some (j, t) =>
          match t.ctEntry i with
          | none => some (i, t)
          | some d => some (i, (t.ctWrite j d).ctWrite i (List.replicate 64 0))

/-! ## Buckets (R278, R279) -/

/-- Device-time seconds modulo 2^32, milliseconds modulo 65,536. -/
def State.secNow (s : State) : Nat := (s.time / unitsPerS % 2 ^ 32).toNat

def State.msNow (s : State) : Nat := (s.time * 1000 / unitsPerS % 65536).toNat

/-- Rate in 1/256 request per second, and burst in requests, of an entry's bucket. -/
def State.bucketRate (s : State) (d : Bytes) : Nat × Nat :=
  if fieldN d 0 1 = 2 then
    let l := signed 8 (fieldN d 45 1)
    let dr := if !(bit (fieldN d 42 1) 2) then 0 else if l ≤ 0 then 512 * 2 ^ l.natAbs else 512 / 2 ^ l.natAbs
    (dr + 256, s.nn Obj.ptp_bucket_burst)
  else (s.nn Obj.ntp_bucket_rate, s.nn Obj.ntp_bucket_burst)

/-- The tokens of an entry after its refill now. -/
def State.refilled (s : State) (d : Bytes) : Nat :=
  let (rate, burst) := s.bucketRate d
  let full := burst * 256
  if 65 ≤ (s.secNow + 2 ^ 32 - fieldN d 24 4) % 2 ^ 32 then full
  else min full (fieldN d 28 2 + (rneDiv (rate * ((s.msNow + 65536 - fieldN d 30 2) % 65536) : Nat) 1000).toNat)

/-! ## Lookup and creation (R274, R275, R302) -/

/-- A lookup for a frame that finds the entry at `i`: refilled, a request taken under T; last_seen, tokens and refill_ms
are written, and the KoD flag clears when the bucket again holds a request (R278, R279). Answers whether the bucket held one. -/
def State.ctTouch (s : State) (i : Nat) (take : Bool) : Bool × State :=
  match s.ctEntry i with
  | none => (false, s)
  | some d =>
    let tok := s.refilled d
    let ok := 256 ≤ tok
    let tok' := if ok && take then tok - 256 else tok
    let d := if ok then patch d 1 (beNat 1 (setBit (fieldN d 1 1) 5 false)) else d
    let d := patch d 24 (beNat 4 s.secNow ++ beNat 2 tok' ++ beNat 2 s.msNow)
    (ok, (s.ctRead i).ctWrite i d)

/-- A kind 1 request that finds its bucket empty is due a Kiss-o'-Death (R279). -/
def State.kodDue (s : State) (i : Nat) : Bool :=
  match s.ctEntry i with
  | some d => fieldN d 0 1 == 1 && s.flag Obj.kod_enable && !(bit (fieldN d 1 1) 5)
  | none => false

/-- The Kiss-o'-Death of an entry is sent: its flag is set (R279). -/
def State.kodSent (s : State) (i : Nat) : State :=
  let s := s.bump Obj.rate_kod_sent
  match s.ctEntry i with
  | some d => s.ctWrite i (patch d 1 (beNat 1 (setBit (fieldN d 1 1) 5 true)))
  | none => s

/-- Remove entries (R276): they count as reclaimed. -/
def State.reclaim (s : State) (l : List Nat) : State :=
  let s := l.foldl (fun (s : State) i => s.ctWrite i (List.replicate 64 0)) s
  (s.bump Obj.ct_reclaimed l.length).ctCount

/-- Age of an entry's latest request, s. -/
def State.ctAge (s : State) (d : Bytes) : Nat := (s.secNow + 2 ^ 32 - fieldN d 24 4) % 2 ^ 32

/-- A grant end lies in the past (modulo 2^32). -/
def State.grantPast (s : State) (sec : Nat) : Bool := (s.secNow + 2 ^ 32 - sec) % 2 ^ 32 < 2 ^ 31

/-- Reclaim on demand when the table is full (R276): kind 1 entries past reclaim_age, oldest first, up to 1%. -/
def State.reclaimFull (s : State) : State :=
  let old := s.ctAll.filter fun p => fieldN p.2 0 1 = 1 && s.nn Obj.reclaim_age < s.ctAge p.2 && !s.ctHeld p.1
  let old := old.mergeSort fun a b => s.ctAge b.2 ≤ s.ctAge a.2
  s.reclaim ((old.take 167773).map fun p => p.1)

/-- The unit answers a request without state (R275). -/
def State.stateless (s : State) : State := s.bump Obj.ct_stateless

/-- Create an entry (R275, R302): some index, or refused. -/
def State.ctCreate (s : State) (key : Bytes) (kind : Nat) : Option Nat × State :=
  if !s.serve.ct.ready then (none, s.stateless) else
  let s := if s.nn Obj.ct_entries < 2 ^ 24 then s else s.reclaimFull
  let n := if s.serve.ct.createSec = s.second then s.serve.ct.created else 0
  if 2 ^ 24 ≤ s.nn Obj.ct_entries then
    let s := if s.flag Obj.ct_full then s
      else (s.putB Obj.ct_full true).log 0 0x5201 (beNat 4 (s.nn Obj.ct_entries))
    (none, s.stateless)
  else if s.nn Obj.ct_create_rate ≤ n || (kind = 2 && s.nn Obj.grant_limit ≤ s.nn Obj.ct_grants) then (none, s.stateless)
  else
    let room := ((candidates key).findSome? fun b => (s.freeIn b).map fun i => (i, s)).orElse fun _ => s.makeRoom 8 ((candidates key).headD 0)
    match room with
    | none => (none, (s.bump Obj.ct_insert_fail).stateless)
    | some (i, s) =>
      let burst := (s.bucketRate (beNat 1 kind ++ List.replicate 63 0)).2
      let d := key ++ beNat 4 s.secNow ++ beNat 2 (256 * (burst - 1)) ++ beNat 2 s.msNow ++ List.replicate 32 0
      let s := ((s.ctWrite i d).count 10 0x08).setCt { (s.ctWrite i d).serve.ct with createSec := s.second, created := n + 1 }
      let s := s.ctCount
      let s := if s.flag Obj.ct_full then (s.putB Obj.ct_full false).log 0 0x5202 (beNat 4 (s.nn Obj.ct_entries)) else s
      (some i, s)

/-- CACHE_WRITEBACK (R274): a dirty entry goes back to DRAM. -/
def execCacheWriteback (index : Nat) (s : State) : Host.Outcome State Fault Refusal :=
  match s.serve.ct.cache.find? fun l => l.index == index && l.dirty.isSome with
  | some l => .next (s.writeBack l)
  | none => .next s

/-- CLIENT_TABLE_SWEEP (R276), every 60 s. -/
def execClientTableSweep (s : State) : Host.Outcome State Fault Refusal :=
  if !(s.serveAwake && s.serve.ct.ready && s.serve.ct.sweepNext ≤ s.now) then .next s
  else
    let s := s.setCt { s.serve.ct with sweepNext := s.now + ticksS 60, badSlots := [] }
    let old := s.ctAll.filter fun p => !s.ctHeld p.1 &&
      (if fieldN p.2 0 1 = 1 then s.nn Obj.reclaim_age < s.ctAge p.2
       else s.grantPast (fieldN p.2 52 4) && s.grantPast (fieldN p.2 56 4) && s.grantPast (fieldN p.2 60 4) && 60 < s.ctAge p.2)
    .next (s.reclaim (old.map fun p => p.1))

/-! ## The sketch (R280) -/

/-- The source key of a frame: IPv4 /32, IPv6 /64, or MAC; its kind. -/
def Pkt.sketchKey (p : Pkt) : Nat × Bytes :=
  if p.l3 = 0xFFFF then (2, field p.data 6 6)
  else if p.v6 then (1, field p.data (p.l3 + 8) 8)
  else (0, field p.data (p.l3 + 12) 4)

/-- One counter of the sketch. -/
def State.sketchAt (s : State) (cell : Nat) : Nat := ((s.serve.ct.sketch.find? fun p => p.1 == cell).map fun p => p.2).getD 0

/-- Set a counter in the list by rising cell; 0 is not listed. -/
def sketchIns : List (Nat × Nat) → Nat → Nat → List (Nat × Nat)
  | [], c, v => if v = 0 then [] else [(c, v)]
  | (j, y) :: r, c, v =>
    if j < c then (j, y) :: sketchIns r c v
    else
      let rest := if j = c then r else (j, y) :: r
      if v = 0 then rest else (c, v) :: rest

/-- The four cells of a key. -/
def sketchCells (key : Bytes) : List Nat := (List.range 4).map fun r => r * 65536 + Config.sketchHash r key % 65536

/-- Count a key by conservative update, saturating; the estimate after counting. -/
def State.sketchCount (s : State) (key : Bytes) : Nat × State :=
  let cells := sketchCells key
  let est := cells.foldl (fun m c => min m (s.sketchAt c)) 65535
  let v := min 65535 (est + 1)
  let sk := cells.foldl (fun l c => if s.sketchAt c < v then sketchIns l c v else l) s.serve.ct.sketch
  (v, ({ s with serve := { s.serve with ct := { s.serve.ct with sketch := sk } } } : State).count 10 0x09)

/-- A request over sketch_limit is discarded: counted, the first per second journalled with code 0x5006. -/
def State.sketchDrop (s : State) (key : Nat × Bytes) : State :=
  let s := s.bump Obj.sketch_dropped
  if s.serve.ct.sketchSec = some s.second then s
  else (s.setCt { s.serve.ct with sketchSec := some s.second }).log 0 0x5006 (beNat 1 key.1 ++ key.2)

/-- SKETCH_DECAY (R280): every sketch_period, every counter is halved. -/
def execSketchDecay (s : State) : Host.Outcome State Fault Refusal :=
  if !(s.serveAwake && s.serve.ct.sketchNext ≤ s.now) then .next s
  else
    let sk := (s.serve.ct.sketch.map fun p => (p.1, p.2 / 2)).filter fun p => p.2 ≠ 0
    .next (s.setCt { s.serve.ct with sketch := sk, sketchNext := s.now + ticksMs (s.nn Obj.sketch_period) })

end Sys2Proof.Machine
end

