-- ==== Sys2Proof/Machine/Selection.lean ====
section
/-! DEFINITION. Selection, disputes, transitions (R122-R128), holdover entry and assistance (R145, R146, R150), the
loop measurements (R130-R136, R151). -/

namespace Sys2Proof.Machine

/-- A selection: DPLL-T's or DPLL-F's. -/
def State.sel (s : State) (forF : Bool) : Selection := if forF then s.selF else s.selT

def State.setSel (s : State) (forF : Bool) (x : Selection) : State :=
  let x := { x with lastActive := x.active.orElse fun _ => x.lastActive }
  if forF then { s with selF := x } else { s with selT := x }

/-- The loop of a selection. -/
def selLoop (forF : Bool) : Fin 4 := if forF then 1 else 0

/-- The uncertainty of seeded device time that DPLL-T has never locked, ns (0x1010.06, R147), grown to the present. -/
def State.timeUncertainty (s : State) : Int :=
  let c := s.n Obj.timing_condition
  if c = 1 || (c = 4 && s.mode.flatFromMash && s.timeValid && !s.mode.everLocked) then s.growBound.hold.boundNs else 0

/-- The classes a selection considers (R109). -/
def State.considered (s : State) (forF : Bool) (i : Fin 16) : Bool :=
  match s.slotClass i with
  | .t => true
  | .f => forF
  | .o => !forF
  | .p => forF || s.rateOnly || (s.n Obj.tb_state == 1 && decide (s.timeUncertainty < 400000000))
  | .unbound => false

/-- The candidates of a selection in a state. -/
def State.candidates (s : State) (forF : Bool) (st : SlotState) : List (Fin 16) :=
  (List.finRange 16).filter fun i => s.considered forF i && decide (s.slots[i].state = st)

/-- At least one slot is qualified in the sense of R109: a DPLL-T candidate in QUALIFIED or WAIT_TO_RESTORE. -/
def State.anyQualified (s : State) : Bool :=
  s.candidates false .qualified != [] || s.candidates false .waitToRestore != []

/-- Slot A ranks ahead of slot B (R122). -/
def State.ahead (s : State) (forF : Bool) (a b : Fin 16) : Bool :=
  let pa := s.n (Obj.priority a)
  let pb := s.n (Obj.priority b)
  let qa := s.slotQuality a
  let qb := s.slotQuality b
  let act := (s.sel forF).active
  if pa ≠ pb then decide (pa < pb)
  else if qa ≠ qb then decide (qa < qb)
  else if act = some a then true
  else if act = some b then false
  else decide (a < b)

/-- The best-ranked slot of a list. -/
def State.best (s : State) (forF : Bool) : List (Fin 16) → Option (Fin 16)
  | [] => none
  | i :: r =>
    match s.best forF r with
    | none => some i
    | some j => if s.ahead forF j i then some j else some i

/-! ## Holdover (R145, R146) -/

/-- DPLL-T finds no candidate (R131, R145, R148); `left` is the slot it leaves. -/
def State.holdT (s : State) (left : Option (Fin 16)) : State :=
  let l := s.loops[0]
  if l.state = .freeRun ∨ l.state = .holdover then s
  else if !l.everLocked then
    (s.setLoop 0 { l with phaseCorr := 0 }).setDpll 0 .freeRun
  else
    let s := (s.reducePending s.stamp).growBound
    let pend : Int := s.tb.pendingPhase.natAbs
    let mean := left.bind fun i => (s.slots[i].phaseMean 10).orElse fun _ => s.slots[i].leftMean
    let phase : Int := match mean with
      | some p => p.natAbs
      | none => 0
    let f := if s.hold.usable then s.estimatorTerm else s.meanEstimate 0
    let s := s.setLoop 0 { l with freqEst := f, phaseCorr := 0 }
    let s : State := { s with tb := { s.tb with pendingPhase := 0 } }
    let s := s.setDpll 0 .holdover
    let toAs := fun u : Int => rneDiv (u * boundDen * 10 ^ 9) 65536
    let s : State :=
      if s.hold.episode then
        { s with hold := { s.hold with bound := s.hold.bound + toAs pend, grownAt := s.now } }
      else
        let b := toAs (phase + pend) + s.n Obj.ref_uncertainty * 10 ^ 9 * boundDen
        let s : State := { s with hold := { s.hold with episode := true, fromSeed := false, start := s.now, grownAt := s.now,
                                                        bound := b, tEntry := s.hold.tFilt } }
        (s.bump Obj.holdover_count).log 0 0x2103 (be 1 0 ++ durToBytes s.hold.boundNs)
    s.requestSegment (.rate false)

/-- DPLL-F finds no candidate (R131, R145). DESIGN CHOICE (log entry 213): a bound of 0 in the data. -/
def State.holdF (s : State) : State :=
  let l := s.loops[1]
  if l.state = .freeRun ∨ l.state = .holdover then s
  else if !l.everLocked then s.setDpll 1 .freeRun
  else
    let f := s.meanEstimate 1
    let s := s.setLoop 1 { l with freqEst := f, freqWord := f }
    let s : State := { s with hold := { s.hold with fTerm := f } }
    (s.setDpll 1 .holdover).log 0 0x2103 (be 1 1 ++ durToBytes 0)

/-- The conditions of frequency assistance (R146). -/
def State.assistSlot (s : State) : Option (Fin 16) :=
  match s.selF.active with
  | none => none
  | some i =>
    if s.flag Obj.assist_enable && decide (s.loops[0].state = .holdover) && decide (s.slots[i].state = .qualified)
        && decide ((s.effQuality i : Int) ≤ s.n Obj.assist_max_quality) then some i else none

/-- Start or end assistance (R146), code 0x2109: y_F is what DPLL-F's word says of the oscillator, the slot's frequency through
the closed loop, so at its bandwidth in use. assist_wander joins the bound at each start, and the bound grows to the
change of its rate (R147). -/
def State.updateAssist (s : State) : State :=
  let s := s.growBound
  match s.hold.assist, s.assistSlot with
  | none, some i =>
    let h := s.hold
    let s : State := { s with hold := { h with assist := some (s.loops[0].freqEst, -s.loops[1].freqWord, i),
                                               bound := h.bound + s.n Obj.assist_wander * 10 ^ 9 * boundDen } }
    (s.putB Obj.assist_active true).log (slotSource i) 0x2109 (be 1 1 ++ be 1 (i : Nat))
  | some (_, _, i), none =>
    let s : State := { s with hold := { s.hold with assist := none } }
    (s.putB Obj.assist_active false).log (slotSource i) 0x2109 (be 1 0 ++ be 1 (i : Nat))
  | some (fa, y, i), some j =>
    if i = j then s
    else { s with hold := { s.hold with assist := some (fa, y, j) } }
  | none, none => s

/-! ## Switching (R93, R94, R127) -/

/-- The loop of a selection takes a slot: FREE_RUN and HOLDOVER go to ACQUIRING, from the frequency in force, LOCKED stays
(R131); the bandwidth follows the slot's measurement rate (R134); the holdover bound has grown to this change (R147). -/
def State.loopTakes (s : State) (forF : Bool) (i : Fin 16) : State :=
  let d := selLoop forF
  let st := s.loops[d].state
  let s := s.growBound
  let w := s.loopWord d
  let s := if st = .freeRun ∨ st = .holdover then
      (s.setLoop d { s.loops[d] with freqEst := w.1, freqWord := w.2, synthPhase := 0, lastStamp := none }).setDpll d .acquiring
    else s
  let s := s.setBandwidth d (s.slotRate i)
  if !forF && s.slotClass i = .o && s.slots[i].operatorAt.isSome then s.lockT none else s

/-- Device time at a stamp by the line it has followed since its last step or seed. -/
def State.convertSince (s : State) (stamp : Nat) : Int :=
  match s.tb.known.find? (·.step) with
  | some g => if g.start ≤ stamp then s.convert stamp else g.convert stamp
  | none => s.convert stamp

/-- The error a first reference brings (R94): the mean, over its measurements in the last 1 s of its qualify timer, of device
time against them; its phase offset where it brought none. -/
def State.firstError (s : State) (i : Fin 16) : Int :=
  let x := s.slots[i]
  let err := fun q : Nat × Int =>
    let t := s.convertSince (s.eventStamp i q.1)
    t - (if s.slotClass i = .p then rneDiv t unitsPerS.toNat * unitsPerS else q.2)
  if x.qualified1s = [] then (x.phaseMean 1).getD 0 else rneDiv (x.qualified1s.map err).sum x.qualified1s.length

/-- The first reference seeds or steps device time, or its error is left to the rate (R93, R94): a loop that measures the
slot removes it, an operator slot's joins pending_phase. A seed in condition 4 starts the bound's growth (R147). -/
def State.firstReference (s : State) (i : Fin 16) : State :=
  let err := s.firstError i
  if s.n Obj.tb_state = 0 then
    let s := if s.n Obj.timing_condition = 4 then s.startSeedBound 0 else s
    s.requestSegment (.seed (-err) 3 0 i)
  else if s.flag Obj.step_first_enable ∧ s.n Obj.step_threshold * 65536 < err.natAbs then
    s.requestSegment (.firstStep (-err) i)
  else
    let s := s.putN Obj.tb_state 2
    let s : State := { s with tb := { s.tb with firstDone := true } }
    let s := if s.slotClass i = .o then s.addPending err else s
    s.log 0 0x2004 (durToBytes (unitsToNs err) ++ be 2 (i : Nat))

/-- The build-out of a DPLL-T switch (R127): the target's mean phase offset over the last second less that of the slot left
over the same second, where it delivered a measurement in it. DESIGN CHOICE (log entry 200): of a target without a measurement in
that second the latest second that has one counts. -/
def State.buildOut (s : State) (left : Option (Fin 16)) (target : Fin 16) : Int :=
  let x := s.slots[target]
  let t := ((x.phaseAt s.stamp 0).orElse fun _ => x.phaseMean 1).getD 0
  match left with
  | none => t
  | some j => t - ((s.slots[j]).phaseAt s.stamp 0).getD 0

/-- Switch a selection to a slot: the first DPLL-T reference seeds or steps, every other switch starts a transition. -/
def State.switchTo (s : State) (forF : Bool) (i : Fin 16) : State :=
  let sel := s.sel forF
  if !forF && !s.rateOnly then
    let s := s.setSel false { sel with active := some i, transition := none, ahead := [] }
    let s := (s.firstReference i).loopTakes false i
    if s.slotClass i = .o then (s.updateLoop 0 s.tb.pendingPhase s.stamp false).requestSegment (.rate false) else s
  else
    let b := if forF then 0 else s.buildOut sel.active i
    let s := s.setSel forF { sel with active := some i, ahead := [], moveFrom := (s.now, (s.loopWord (selLoop forF)).2),
                                      transition := some (sel.active, s.now + ticksMs (s.nn Obj.transition_time), b) }
    let s := (s.bump Obj.switch_count).log (slotSource i) 0x2201
      (be 1 (if forF then 1 else 0) ++ be 1 (match sel.active with | some j => ((j : Nat) : Int) | none => 255)
        ++ be 1 (i : Nat) ++ durToBytes (unitsToNs b))
    s.loopTakes forF i

/-- No candidate: the loop enters holdover or free-run (R123 row 3), code 0x2204. -/
def State.noCandidate (s : State) (forF : Bool) : State :=
  let sel := s.sel forF
  if sel.active = none ∧ sel.transition = none then s
  else
    let s := s.setSel forF { sel with active := none, transition := none, ahead := [] }
    let s := s.log 0 0x2204 (be 1 (if forF then 1 else 0))
    if forF then s.holdF
    else
      let s : State := { s with mode := { s.mode with lossSeen := true } }
      s.holdT sel.active

/-- The manual slot of a selection (R123). -/
def State.manual (s : State) (forF : Bool) : Option (Fin 16) :=
  let v := s.nn (if forF then Obj.f_manual_slot else Obj.t_manual_slot)
  if h : v < 16 then some ⟨v, h⟩ else none

/-- The QUALIFIED candidates that rank ahead of the active slot at this evaluation, each since when it has without a break
(R124): whatever row decides. -/
def State.trackAhead (s : State) (forF : Bool) : State :=
  let sel := s.sel forF
  let now := match sel.active with
    | none => []
    | some a => (s.candidates forF .qualified).filter fun i => i != a && s.ahead forF i a
  s.setSel forF { sel with ahead := now.map fun i => (i, ((sel.ahead.find? fun p => p.1 == i).map (·.2)).getD s.now) }

/-- Rows 6 to 8 of the decision table (R123, R124). DEDUCED (log entry 160): row 7 takes the best of the candidates whose
ranking R124 lets act. -/
def State.decide68 (s : State) (forF : Bool) (a : Fin 16) (qual : List (Fin 16)) : State :=
  let sel := s.sel forF
  if s.slots[a].state = .waitToRestore ∧ qual ≠ [] then
    match s.best forF qual with
    | some i => s.switchTo forF i
    | none => s
  else if !s.flag Obj.revertive then s
  else
    let may := sel.ahead.filter fun p =>
      decide (s.n (Obj.priority p.1) < s.n (Obj.priority a)) || decide (p.2 + ticksS (s.nn Obj.quality_hold) ≤ s.now)
    match s.best forF (may.map (·.1)) with
    | none => s
    | some i => s.switchTo forF i

/-- The active slot is fit to stay. DEDUCED (log entry 153): one found QUALIFYING has passed through FAILED or DISABLED since
the last evaluation. -/
def State.fitActive (s : State) (i : Fin 16) : Bool := s.slots[i].state == .qualified || s.slots[i].state == .waitToRestore

/-- Rows 3 to 8 of the decision table (R123, R124). -/
def State.decide38 (s : State) (forF : Bool) : State :=
  let sel := s.sel forF
  let qual := s.candidates forF .qualified
  let wtr := s.candidates forF .waitToRestore
  let usable := match sel.active with
    | none => false
    | some a => s.fitActive a
  if !usable then
    let failed := match sel.active with
      | none => false
      | some a => s.slots[a].state == .failed
    let leftManual := sel.armed && failed && sel.active == s.manual forF
    let s := if leftManual && !s.flag Obj.revertive then s.setSel forF { sel with armed := false } else s
    match s.best forF qual with
    | some i => s.switchTo forF i
    | none =>
      match s.best forF wtr with
      | some i => s.switchTo forF i
      | none => s.noCandidate forF
  else
    match sel.active with
    | none => s
    | some a =>
      let man := if sel.armed then s.manual forF else none
      match man with
      | some m =>
        if m ≠ a ∧ qual.contains m then s.switchTo forF m
        else if m = a then s
        else s.decide68 forF a qual
      | none => s.decide68 forF a qual

/-- One evaluation of a selection (R120, R123, R124, R128). -/
def State.evalSelection (s : State) (forF : Bool) : State :=
  let s := s.trackAhead forF
  let sel := s.sel forF
  match sel.transition, sel.active with
  | some _, some t =>
    if s.fitActive t then s
    else
      let s := s.setSel forF { sel with transition := none }
      (s.log (slotSource t) 0x2203 (be 1 (if forF then 1 else 0) ++ be 1 (t : Nat))).decide38 forF
  | _, _ => s.decide38 forF

/-- One evaluation (R120, R123): slot state changes first, then each selection, then assistance. -/
def State.evaluate (s : State) : State :=
  let s : State := (List.finRange 16).foldl (fun (s : State) (i : Fin 16) => s.evalSlot i) s
  ((s.evalSelection false).evalSelection true).updateAssist

/-- SELECTION_EVALUATE (R120, R123). -/
def execSelectionEvaluate (s : State) : Host.Outcome State Fault Refusal := .next s.evaluate

/-- MANUAL_SLOT_ARM (R123): a commit that writes a manual slot arms it, even with the present value. -/
def execManualSlotArm (forF : Bool) (manual : Nat) (s : State) : Host.Outcome State Fault Refusal :=
  let s := s.putN (if forF then Obj.f_manual_slot else Obj.t_manual_slot) manual
  .next (s.setSel forF { s.sel forF with armed := decide (manual < 16) })

/-- TRANSITION_COMPLETE (R127, R128, R132): after transition_time B is handed to the timebase as pending_phase and lock is
measured afresh; a transition whose target has failed is abandoned; either way the selections evaluate again (R123). -/
def execTransitionComplete (forF : Bool) (s : State) : Host.Outcome State Fault Refusal :=
  let sel := s.sel forF
  match sel.transition, sel.active with
  | some (_, tEnd, b), some t =>
    if s.now < tEnd then .next s
    else if !(s.evalSlot t).fitActive t then .next s.evaluate
    else
      let s := s.setSel forF { sel with transition := none }
      let s := if forF then s else s.addPending b
      let d := selLoop forF
      let s := s.setLoop d { s.loops[d] with goodSince := none, freshFrom := s.stamp }
      .next (s.log (slotSource t) 0x2202 (be 1 (if forF then 1 else 0) ++ durToBytes (unitsToNs b))).evaluate
  | _, _ => .next s

/-! ## Disputes (R125, R126) -/

/-- The frequencies of two slots over the dispute window, and whether both have been QUALIFIED for a full window. -/
def State.comparable (s : State) (a b : Fin 16) : Option Int :=
  let w := s.nn Obj.dispute_window
  let full := fun i : Fin 16 => decide (s.slots[i].state = .qualified) && decide (s.slots[i].qualifiedAt + ticksS w ≤ s.now)
  match s.slotFreq a w, s.slotFreq b w with
  | some x, some y => if full a && full b then some (x - y) else none
  | _, _ => none

/-- A dispute begins (R125, R142): both slots are marked, the model is frozen. DESIGN CHOICE (log entry 205): the sign of the difference. -/
def State.beginDispute (s : State) (a b : Fin 16) (forF : Bool) (diff : Int) : State :=
  let ppt := rneDiv diff 1000000
  let s : State := { s with disputes := s.disputes ++ [{ a, b, forF }] }
  let s := (s.markDisputes a).markDisputes b
  let s := (s.log (slotSource a) 0x2304 (be 1 (b : Nat) ++ be 8 ppt)).log (slotSource b) 0x2304 (be 1 (a : Nat) ++ be 8 (-ppt))
  if s.hold.model = .frozen then s
  else
    let s : State := { s with hold := { s.hold with frozenFrom := s.hold.model } }
    s.setModel .frozen

/-- The votes for two disputed slots (R125). -/
def State.votes (s : State) (a b : Fin 16) : Nat × Nat :=
  let w := s.nn Obj.dispute_window
  let lim := s.n Obj.dispute_limit * 1000000
  let fa := (s.slotFreq a w).getD 0
  let fb := (s.slotFreq b w).getD 0
  let voters := (List.finRange 16).filter fun i =>
    i != a && i != b && decide (s.slots[i].state = .qualified) && decide (s.slotClass i ≠ .o)
  let est := if s.hold.model = .frozen ∧ s.hold.frozenFrom = .valid then [(0 : Int)] else []
  let fs := voters.filterMap (fun i => s.slotFreq i w) ++ est
  let inA := fun f : Int => decide (((f - fa).natAbs : Int) ≤ lim)
  let inB := fun f : Int => decide (((f - fb).natAbs : Int) ≤ lim)
  ((fs.filter fun f => inA f && !inB f).length, (fs.filter fun f => inB f && !inA f).length)

/-- The loser of a vote fails with cause outvoted (R125). -/
def State.outvote (s : State) (winner loser : Fin 16) (vw vl : Nat) : State :=
  let s := s.setSlot loser { s.slots[loser] with outvotedBy := some winner, agreedSince := none }
  let s := s.log (slotSource loser) 0x2305 (be 1 (winner : Nat) ++ be 1 vw ++ be 1 vl)
  s.evalSlot loser

/-- A dispute without a decision: the effective quality of both is one grade worse, journalled once (R126). -/
def State.undecided (s : State) (a b : Fin 16) : State :=
  if s.disputes.any fun d => d.a == a && d.b == b && d.undecided then s
  else
    let s : State := { s with disputes := s.disputes.map fun d => if d.a == a && d.b == b then { d with undecided := true } else d }
    let s := (s.markDisputes a).markDisputes b
    (s.log (slotSource a) 0x2306 (be 1 (b : Nat) ++ be 1 (s.effQuality a))).log (slotSource b) 0x2306
      (be 1 (a : Nat) ++ be 1 (s.effQuality b))

/-- A dispute clears (R126). -/
def State.clearDispute (s : State) (d : Dispute) : State := s.endDisputes fun e => e.a == d.a && e.b == d.b

/-- The vote of R125 and its outcomes. -/
def State.settle (s : State) (a b : Fin 16) : State :=
  let v := s.votes a b
  if v.2 < v.1 then s.outvote a b v.1 v.2
  else if v.1 < v.2 then s.outvote b a v.2 v.1
  else s.undecided a b

/-- Compare one pair of slots of a selection (R125, R126). -/
def State.comparePair (s : State) (forF : Bool) (a b : Fin 16) : State :=
  let equal := s.n (Obj.priority a) == s.n (Obj.priority b) && s.slotQuality a == s.slotQuality b
  match s.comparable a b with
  | none => s
  | some diff =>
    let lim := s.n Obj.dispute_limit * 1000000
    let m : Int := diff.natAbs
    match s.disputes.find? fun d => d.a == a && d.b == b with
    | some d =>
      if 2 * m < lim then
        let since := d.quietSince.getD s.now
        if since + ticksS (s.nn Obj.dispute_window) ≤ s.now then s.clearDispute d
        else { s with disputes := s.disputes.map fun e => if e.a == a && e.b == b then { e with quietSince := some since } else e }
      else
        let s : State := { s with disputes := s.disputes.map fun e => if e.a == a && e.b == b then { e with quietSince := none } else e }
        if m ≤ lim then s else s.settle a b
    | none => if equal && decide (lim < m) then (s.beginDispute a b forF diff).settle a b else s

/-- An outvoted slot that has agreed with its winner over a full window may qualify again (R125). DEDUCED (log entry 159): its
mean frequency over the window has stayed within dispute_limit of the winner's at every comparison of one further window. -/
def State.checkOutvoted (s : State) (i : Fin 16) : State :=
  let x := s.slots[i]
  match x.outvotedBy with
  | none => s
  | some w =>
    let win := s.nn Obj.dispute_window
    match s.slotFreq i win, s.slotFreq w win with
    | some f, some g =>
      if ((f - g).natAbs : Int) ≤ s.n Obj.dispute_limit * 1000000 then
        let since := x.agreedSince.getD s.now
        if since + ticksS win ≤ s.now then (s.setSlot i { x with outvotedBy := none, agreedSince := none }).evalSlot i
        else s.setSlot i { x with agreedSince := some since }
      else s.setSlot i { x with agreedSince := none }
    | _, _ => s

/-- The ordered pairs of slots a < b. -/
def slotPairs : List (Fin 16 × Fin 16) :=
  (List.finRange 16).flatMap fun a => ((List.finRange 16).filter fun b => decide (a < b)).map fun b => (a, b)

/-- DISPUTE_COMPARE (R125, R126): every 10 s. -/
def execDisputeCompare (s : State) : Host.Outcome State Fault Refusal :=
  let pass := fun (forF : Bool) (s : State) =>
    slotPairs.foldl (fun (s : State) (p : Fin 16 × Fin 16) =>
      if s.considered forF p.1 && s.considered forF p.2 then s.comparePair forF p.1 p.2 else s) s
  let s := pass true (pass false s)
  .next ((List.finRange 16).foldl (fun (s : State) (i : Fin 16) => s.checkOutvoted i) s)

/-! ## Measurements of the loops (R130, R132, R135, R136) -/

/-- The lock criterion of DPLL-T at a measurement (R132): its phase offset without build-out, and that offset's slope over
lock_hold (DEDUCED, log entry 161: over the measurements there are since a fresh start), are within the limits. -/
def State.lockGoodT (s : State) (i : Fin 16) (stamp : Nat) : Bool :=
  let x := s.slots[i]
  let from' := s.loops[0].freshFrom
  match x.phaseAt stamp from', x.phaseSlope (s.nn (Obj.lock_hold 0)) from' with
  | some p, some f =>
    decide ((p.natAbs : Int) ≤ s.n (Obj.lock_phase_limit 0) * 65536)
      && decide ((f.natAbs : Int) ≤ s.n (Obj.lock_freq_limit 0) * 1000000)
  | _, _ => false

/-- Count the time a loop's lock criterion has held; the loop locks after lock_hold without a break (R132). -/
def State.lockCheck (s : State) (d : Fin 4) (good : Bool) (stamp : Nat) : State × Bool :=
  let l := s.loops[d]
  if !good then (s.setLoop d { l with goodSince := none }, false)
  else
    let since := l.goodSince.getD stamp
    (s.setLoop d { l with goodSince := some since }, decide (since + s.nn (Obj.lock_hold d) * stampS ≤ stamp))

/-- The error a DPLL-T measurement feeds to the loop: the phase offset less the build-out in progress (R127). -/
def State.loopErrorT (s : State) (phase : Int) : Int :=
  match s.selT.transition with
  | some (_, _, b) => phase - b
  | none => phase

/-- One measurement of DPLL-T's active slot drives the loop (R130, R132, R136): its error less the build-out, the lock
criterion, the rate. What a clamp leaves uncorrected is pending_phase (R92). -/
def State.driveT (s : State) (i : Fin 16) (stamp : Nat) (p : Int) : State :=
  let s := s.reducePending stamp
  let s := s.setBandwidth 0 (s.slotRate i)
  let e := s.loopErrorT p
  let s := s.updateLoop 0 e stamp true
  let l := s.loops[0]
  let s := s.setLoop 0 { l with phaseErr := (s.slots[i].phaseMean 1).getD p }
  let (s, held) := s.lockCheck 0 (s.lockGoodT i stamp) stamp
  let s := if held && decide (s.loops[0].state = .acquiring) then s.lockT (s.slotRate i) else s
  let s := s.requestSegment (.rate false)
  if s.tb.rateClamped || s.tb.slopeClamped then { s with tb := { s.tb with pendingPhase := e } } else s

/-- DPLL_T_MEASUREMENT (R130): the newest measurement of DPLL-T's active slot drives the loop. Edges, received Syncs and
timing solutions bring every slot its measurements, active or not. -/
def execDpllTMeasurement (slot : Fin 16) (s : State) : Host.Outcome State Fault Refusal :=
  let i := slot
  if s.selT.active ≠ some i then .next s
  else
    if s.slotClass i = .o then
      let s := s.reducePending s.stamp
      let l := s.loops[0]
      let f := if s.hold.usable then s.estimatorTerm else s.meanEstimate 0
      let s := s.setLoop 0 { l with freqEst := f }
      .next ((s.updateLoop 0 s.tb.pendingPhase s.stamp false).requestSegment (.rate false))
    else
      match s.slots[i].samples with
      | [] => .next s
      | m :: _ =>
        match m.phase with
        | none => .next s
        | some p => .next (s.driveT i m.stamp p)

/-- The frequency DPLL-F follows for a target's frequency: over transition_time it moves from the word it left to the target's
(R127). -/
def State.followedFreq (s : State) (y : Int) : Int :=
  match s.selF.transition with
  | none => y
  | some (_, tEnd, _) =>
    let (t0, f) := s.selF.moveFrom
    if tEnd ≤ s.now || tEnd ≤ t0 then y else f + rneDiv ((y - f) * ((s.now : Int) - t0)) (tEnd - t0)

/-- One update of a synthesiser's loop (R130, R133, R135, R136): its phase against the frequency `y` it follows moves on to a
stamp, and the loop removes it. -/
def State.driveSynth (s : State) (d : Fin 4) (y : Int) (stamp : Nat) : State :=
  let l := s.loops[d]
  let fine := l.synthPhase + (l.freqWord - y) * ((stamp - l.lastStamp.getD stamp : Nat) : Int)
  (s.setLoop d { l with synthPhase := fine }).updateLoop d (fineUnits fine) stamp true

/-- One measurement of DPLL-F's active slot drives the loop (R130, R132): its frequency error decides lock. -/
def State.driveF (s : State) (i : Fin 16) (stamp : Nat) (y : Int) : State :=
  let s := (s.setBandwidth 1 (s.slotRate i)).driveSynth 1 (s.followedFreq y) stamp
  let good := decide (((s.loops[1].freqWord - y).natAbs : Int) ≤ s.n (Obj.lock_freq_limit 1) * 1000000)
  let (s, held) := s.lockCheck 1 good stamp
  if held && decide (s.loops[1].state = .acquiring) then (s.setDpll 1 .locked).setBandwidth 1 (s.slotRate i) else s

/-- DPLL_F_MEASUREMENT (R107, R118, R130): a measurement of a slot. A SyncE slot brings its frequency against the oscillator
in 10^-18; the other kinds take it from the slot's measurements. The active slot's drives the loop. -/
def execDpllFMeasurement (sample : FreqSample) (s : State) : Host.Outcome State Fault Refusal :=
  let slot := sample.slot
  let k := s.kind slot
  let s : State := match sample.freq with
    | some y => if k = 4 ∧ s.slotEnabled slot then s.slotFreqMeasure slot y else s
    | none => s
  if s.selF.active ≠ some slot then .next s
  else
    let x := s.slots[slot]
    match x.freqLast with
    | none => .next s
    | some y =>
      let stamp := match k, x.samples with
        | 4, _ | _, [] => s.stamp
        | _, m :: _ => m.stamp
      .next (s.driveF slot stamp y)

/-- The rate of device time in 10^-18. -/
def State.deviceRate (s : State) : Int := rneDiv (s.seg.rate * 10 ^ 18) (2 ^ 60)

/-- MEDIA_LOOP_UPDATE (R151): DPLL-A or DPLL-B compares its synthesised phase with device time and adjusts; it is LOCKED while
its criterion has held for lock_hold, measured afresh after a step (R131, R132). -/
def execMediaLoopUpdate (loopB : Bool) (s : State) : Host.Outcome State Fault Refusal :=
  let d : Fin 4 := if loopB then 3 else 2
  let s := (s.setBandwidth d (some 1000000000000)).driveSynth d s.deviceRate s.stamp
  let e := s.loops[d].phaseErr
  let diff := s.loops[d].freqWord - s.deviceRate
  let good := decide ((e.natAbs : Int) ≤ s.n (Obj.lock_phase_limit d) * 65536)
    && decide ((diff.natAbs : Int) ≤ s.n (Obj.lock_freq_limit d) * 1000000)
  let (s, held) := s.lockCheck d good s.stamp
  let since := s.loops[d].goodSince
  let s := s.setDpll d (if held then .locked else .acquiring)
  .next (s.setLoop d { s.loops[d] with goodSince := since })

/-- DPLL-A and DPLL-B at a segment that steps device time (R151): re-phase, or follow the step within the limits. -/
def State.mediaStep (s : State) (amount : Int) : State :=
  [(2 : Fin 4), 3].foldl (fun (s : State) (d : Fin 4) =>
    let l := s.loops[d]
    if s.n (Obj.step_mode d) = 0 then s.setLoop d { l with synthPhase := 0, phaseErr := 0, lastStamp := some s.stamp }
    else
      let fine := l.synthPhase - unitsFine amount
      s.setLoop d { l with synthPhase := fine, phaseErr := fineUnits fine }) s

/-- HOLDOVER_RATE_UPDATE (R91, R141, R145, R146): once per second in holdover and free-run the estimator requests a
rate: the assisted term, the model's, or the one held. DESIGN CHOICE (log entry 211): the end of assistance without a usable model. -/
def execHoldoverRateUpdate (temp : Int) (s : State) : Host.Outcome State Fault Refusal :=
  let s := s.updateTemp temp
  let st := s.loops[0].state
  if st = .holdover ∨ st = .freeRun then
    let s := s.updateAssist
    let l := s.loops[0]
    let f := match s.hold.assist with
      | some (fa, y, _) => fa - (-s.loops[1].freqWord - y)
      | none => if s.hold.usable then s.estimatorTerm else l.freqEst
    let s := s.setLoop 0 { l with freqEst := f, phaseCorr := 0 }
    .next (s.requestSegment (.rate false))
  else .next s

end Sys2Proof.Machine
end

