-- ==== Sys2Proof/Machine/Timecode.lean ====
section
/-! DEFINITION. Label times and the frames outputs carry: linear timecode (R158), IRIG-B (R159), the Reference
Announcement Frame and the ZDA sentence of a time-of-day output (R172). The bit layouts of SMPTE ST 12-1 and IRIG
200-04, which the spec cites, are PRESUMED (log entry 30). -/

namespace Sys2Proof.Machine

/-- Year, month, day and day of the year of a count of days since 1970-01-01 (Gregorian). -/
def civil (days : Int) : Nat × Nat × Nat × Nat :=
  let z := days + 719468
  let era := z / 146097
  let doe := z - era * 146097
  let yoe := (doe - doe / 1460 + doe / 36524 - doe / 146096) / 365
  let doy := doe - (365 * yoe + yoe / 4 - yoe / 100)
  let mp := (5 * doy + 2) / 153
  let d := doy - (153 * mp + 2) / 5 + 1
  let m := if mp < 10 then mp + 3 else mp - 9
  let y := yoe + era * 400 + (if m ≤ 2 then 1 else 0)
  (y.toNat, m.toNat, d.toNat, (days - daysOfDate y.toNat 1 1 + 1).toNat)

/-- An inserted leap second is being counted at a device time (R99). -/
def State.insertedSecond (s : State) (t : Int) : Bool :=
  s.n Obj.leap_delta == 1 && decide (s.n Obj.leap_time ≤ t) && decide (t < s.n Obj.leap_time + unitsPerS)

/-- The label time of a device time in a scale: 0 TAI, 1 UTC, 2 local, in 2^-16 ns (R158). -/
def State.labelTime (s : State) (scale : Nat) (localOffset : Int) (t : Int) : Int :=
  match scale with
  | 0 => t
  | 1 => t - s.utcOffsetAt t * unitsPerS
  | _ => t - s.utcOffsetAt t * unitsPerS + localOffset * unitsPerS

/-- `w` bits of a number, least significant first. -/
def lsbBits : Nat → Nat → List Nat
  | 0, _ => []
  | w + 1, x => x % 2 :: lsbBits w (x / 2)

/-- Frames per second an LTC time address counts, the frame period in s, drop-frame numbering (R158). -/
def ltcRate : Nat → Nat × Rat × Bool
  | 0 => (24, (1 : Rat) / 24, false)
  | 1 => (25, (1 : Rat) / 25, false)
  | 2 => (30, (1001 : Rat) / 30000, true)
  | 3 => (30, (1001 : Rat) / 30000, false)
  | _ => (30, (1 : Rat) / 30, false)

/-- The frame number that drop-frame numbering gives the N-th frame of a day. -/
def dropFrame (n : Nat) : Nat :=
  let d := n / 17982
  let m := n % 17982
  n + 18 * d + (if m < 1800 then 0 else 2 * ((m - 1800) / 1798 + 1))

/-- The 80 bits of the LTC frame whose boundary has a label time (R158). -/
def ltcFrame (rate : Nat) (userBits : Nat) (label : Rat) : List Nat :=
  let (fps, period, drop) := ltcRate rate
  let day : Rat := 86400 * (unitsPerS : Int)
  let tod := label - (label / day).floor * day
  let n := (tod / (period * (unitsPerS : Int))).floor.toNat
  let n := if drop then dropFrame n else n
  let ff := n % fps
  let ss := n / fps % 60
  let mm := n / (fps * 60) % 60
  let hh := n / (fps * 3600) % 24
  -- binary group 1 carries bits 31 to 28 (R158)
  let u := fun k => lsbBits 4 (userBits / 2 ^ (28 - 4 * k))
  let body := fun (p27 p59 : Nat) =>
    lsbBits 4 (ff % 10) ++ u 0 ++ lsbBits 2 (ff / 10) ++ [if drop then 1 else 0, 0] ++ u 1
      ++ lsbBits 4 (ss % 10) ++ u 2 ++ lsbBits 3 (ss / 10) ++ [p27] ++ u 3
      ++ lsbBits 4 (mm % 10) ++ u 4 ++ lsbBits 3 (mm / 10) ++ [0] ++ u 5
      ++ lsbBits 4 (hh % 10) ++ u 6 ++ lsbBits 2 (hh / 10) ++ [0, p59] ++ u 7
      ++ [0, 0, 1, 1, 1, 1, 1, 1, 1, 1, 1, 1, 1, 1, 0, 1]
  -- the polarity correction bit makes the number of zeros even
  let zeros := ((body 0 0).filter (· == 0)).length
  if zeros % 2 = 0 then body 0 0 else if fps = 25 then body 0 1 else body 1 0

/-- The 100 elements of an IRIG-B frame: 0, 1, 2 for a marker (R159). -/
def irigFrame (fmt : Nat) (cf : Nat) (label : Int) (inserted : Bool) : List Nat :=
  let secs := label / unitsPerS
  let (y, _, _, doy) := civil (secs / 86400)
  let tod := (secs % 86400).toNat
  let ss := if inserted then 60 else tod % 60
  let mm := tod / 60 % 60
  let hh := tod / 3600
  let year := 4 ≤ fmt
  let hasCf := fmt = 0 || fmt = 1 || fmt = 4 || fmt = 5
  let hasSbs := fmt = 0 || fmt = 3 || fmt = 4 || fmt = 7
  let c := if hasCf then lsbBits 27 cf else List.replicate 27 0
  let sbs := if hasSbs then lsbBits 17 tod else List.replicate 17 0
  let f5 := if year then lsbBits 4 (y % 10) ++ [0] ++ lsbBits 4 (y / 10 % 10) else c.take 9
  [2] ++ lsbBits 4 (ss % 10) ++ [0] ++ lsbBits 3 (ss / 10) ++ [2]
    ++ lsbBits 4 (mm % 10) ++ [0] ++ lsbBits 3 (mm / 10) ++ [0, 2]
    ++ lsbBits 4 (hh % 10) ++ [0] ++ lsbBits 2 (hh / 10) ++ [0, 0, 2]
    ++ lsbBits 4 (doy % 10) ++ [0] ++ lsbBits 4 (doy / 10 % 10) ++ [2]
    ++ lsbBits 2 (doy / 100) ++ [0, 0, 0, 0, 0, 0, 0, 2]
    ++ f5 ++ [2] ++ (c.drop 9).take 9 ++ [2] ++ c.drop 18 ++ [2]
    ++ sbs.take 9 ++ [2] ++ sbs.drop 9 ++ [0, 2]

/-- The biphase-mark transitions of an LTC frame (R158): every bit cell begins with one, a 1 has another in its middle. `level`
is the level before; cells begin at `t` and last `cell`. -/
def biphase (t cell : Rat) (level : Bool) : List Nat → List (Rat × Bool)
  | [] => []
  | b :: r =>
    if b = 1 then (t, !level) :: (t + cell / 2, level) :: biphase (t + cell) cell level r
    else (t, !level) :: biphase (t + cell) cell (!level) r

/-- The width of an IRIG-B element in ms (R159). -/
def irigWidth : Nat → Nat
  | 0 => 2
  | 1 => 5
  | _ => 8

/-- The transitions of an IRIG-B frame (R159): 100 elements of 10 ms, each active for its width. -/
def irigWave (t : Rat) : List Nat → List (Rat × Bool)
  | [] => []
  | e :: r =>
    let ms : Rat := (unitsPerS : Rat) / 1000
    (t, true) :: (t + irigWidth e * ms, false) :: irigWave (t + 10 * ms) r

/-- `w` decimal digits in ASCII. -/
def decDigits : Nat → Nat → Bytes
  | 0, _ => []
  | w + 1, x => decDigits w (x / 10) ++ [BitVec.ofNat 8 (48 + x % 10)]

/-- One hexadecimal digit in ASCII, capital. -/
def hexChar (x : Nat) : Byte := BitVec.ofNat 8 (if x < 10 then 48 + x else 55 + x)

/-- The ZDA sentence of R172 for an edge at a device time. -/
def State.zda (s : State) (t : Int) : Bytes :=
  let label := s.labelTime 1 0 t
  let secs := label / unitsPerS
  let (y, m, d, _) := civil (secs / 86400)
  let tod := (secs % 86400).toNat
  let ss := if s.insertedSecond t then 60 else tod % 60
  let body : Bytes := [0x47, 0x4E, 0x5A, 0x44, 0x41, 0x2C] ++ decDigits 2 (tod / 3600) ++ decDigits 2 (tod / 60 % 60)
    ++ decDigits 2 ss ++ [0x2E, 0x30, 0x30, 0x2C] ++ decDigits 2 d ++ [0x2C] ++ decDigits 2 m ++ [0x2C] ++ decDigits 4 y
    ++ [0x2C, 0x30, 0x30, 0x2C, 0x30, 0x30]
  let sum := (body.foldl (fun a x => a ^^^ x) (0 : Byte)).toNat
  [0x24] ++ body ++ [0x2A, hexChar (sum / 16), hexChar (sum % 16), 0x0D, 0x0A]

/-- A division rounded up. -/
def ceilDiv (a : Int) (d : Int) : Int := -((-a) / d)

/-- time_source of the frame for the DPLL-T active slot (R172). -/
def State.rafSource (s : State) : Nat :=
  let c := s.n Obj.timing_condition
  match s.selT.active with
  | some i =>
    if c ≠ 2 then 0xA0
    else
      match s.kind i with
      | 6 => 0x20
      | 5 => 0x40
      | 2 => s.slots[i].timeSource
      | 3 => 0x39
      | 7 => 0x60
      | 1 => 0x90
      | _ => 0xA0
  | none => 0xA0

/-- The Reference Announcement Frame of R172 for a labelled edge. -/
def State.rafFrame (s : State) (seq : Nat) (t : Int) : Bytes :=
  let c := s.n Obj.timing_condition
  let quality : Int := match c with
    | 2 => match s.selT.active with
      | some i => s.effQuality i
      | none => 255
    | 3 => 64
    | 4 => 176
    | _ => 224
  let d := s.n Obj.leap_delta
  let flags : Int := (if c = 3 ∨ c = 4 then 128 else 0) + (if c = 2 then 96 else 0) + (if d ≠ 0 then 16 else 0) + 8
  let bound : Int := match c with
    | 2 => s.n Obj.ref_uncertainty + ceilDiv (s.loops[0].phaseErr.natAbs : Int) 65536
    | _ => ceilDiv s.growBound.hold.bound (boundDen * 10 ^ 9)
  let body := be 2 0x5352 ++ be 1 1 ++ be 1 48 ++ be 2 seq ++ timeToBytes t ++ be 1 quality ++ be 1 s.rafSource
    ++ be 2 (s.n Obj.utc_offset) ++ be 1 flags ++ be 1 d ++ timeToBytes (if d = 0 then 0 else s.n Obj.leap_time)
    ++ be 4 (min bound 0xFFFFFFFE)
  body ++ be 4 (crc32c body)

end Sys2Proof.Machine
end

