-- ==== Sys2Proof/Machine/Outputs.lean ====
section
/-! DEFINITION. Output generators (R153-R166), alignment (R168-R170), time-of-day outputs (R171, R172), the start of a
segment as readers, outputs and loops see it (R90, R164). -/

namespace Sys2Proof.Machine

/-! ## Grids (R153) -/

/-- 1 ps in units of 2^-16 ns. -/
def unitsPerPs : Rat := (8192 : Rat) / 125

/-- Half-to-even rounding of a rational number. -/
def rneRat (q : Rat) : Int := rneDiv q.num q.den

/-- q modulo p, in [0, p). -/
def ratMod (q p : Rat) : Rat := if p = 0 then 0 else q - (q / p).floor * p

/-- Video frame periods in s by frame_rate (R157). -/
def framePeriod : Nat → Rat
  | 0 => (1 : Rat) / 24
  | 1 => (1 : Rat) / 25
  | 2 => (1001 : Rat) / 30000
  | 3 => (1 : Rat) / 30
  | 4 => (1 : Rat) / 50
  | 5 => (1001 : Rat) / 60000
  | _ => (1 : Rat) / 60

/-- The grid period of a function, 2^-16 ns (R153). -/
def State.gridPeriod (s : State) (n : Nat) : Nat → Rat
  | 1 => s.n (Obj.out_period n) * 65536
  | 2 => (unitsPerS * 1000 : Rat) / max 1 (s.nn (Obj.out_frequency n))
  | 3 => (unitsPerS : Rat) / max 1 (s.nn (Obj.word_rate n))
  | 4 => s.n (Obj.frame_divider n) * framePeriod (s.nn (Obj.frame_rate n)) * unitsPerS
  | 5 => (ltcRate (s.nn (Obj.ltc_rate n))).2.1 * unitsPerS
  | 6 => unitsPerS
  | 7 => s.n (Obj.out_period n) * 65536
  | _ => 0

/-- The active interval of a function, 2^-16 ns. -/
def State.activeWidth (s : State) (n : Nat) (fn : Nat) : Rat :=
  if fn = 1 || fn = 4 || fn = 7 then s.n (Obj.out_width n) * unitsPerPs
  else if fn = 2 || fn = 3 then s.gridPeriod n fn / 2
  else s.gridPeriod n fn

/-- Grid origin with output_offset and align_correction, less what is still to be slewed in (R153, R170). -/
def State.gridOrigin (s : State) (n : Fin 20) (fn : Nat) : Rat :=
  let corr : Rat := (s.n (Obj.output_offset n) + s.n (Obj.align_correction n)) * unitsPerPs - s.outs[n].slew
  if fn = 7 then s.n (Obj.start_time n) + corr else corr

/-- The first grid instant at or after a device time. -/
def State.gridFrom (s : State) (n : Fin 20) (fn : Nat) (t : Rat) : Option Rat :=
  let p := s.gridPeriod n fn
  let o := s.gridOrigin n fn
  if p ≤ 0 then none else some (o + ((t - o) / p).ceil * p)

/-- The raw stamp at which device time under a segment reaches an instant, to 1/128 tick (R86, R153). -/
def Segment.stampOf (g : Segment) (t : Rat) : Int :=
  g.start + 2 * rneRat ((t - g.time) * (5 * 2 ^ 60) / ((2 ^ 60 + g.rate) * 2048))

/-- The raw stamp of an instant under the segment in force at that stamp; one that a positive step passes over is not reached
before the step's segment starts (R153). -/
def State.stampOf (s : State) (t : Rat) : Nat :=
  let g := s.segFor (s.seg.stampOf t).toNat
  max (g.stampOf t).toNat g.start

/-- What DPLL-A or DPLL-B adds to device time for its outputs (R153). -/
def State.loopPhase (s : State) (loop : Nat) : Int :=
  match loop with
  | 2 => fineUnits s.loops[2].synthPhase
  | 3 => fineUnits s.loops[3].synthPhase
  | _ => 0

/-- The raw stamp of a grid edge of an output. -/
def State.edgeStamp (s : State) (n : Fin 20) (t : Rat) : Nat := s.stampOf (t - s.loopPhase s.outs[n].loop)

/-- The output's journal source. -/
def outSource (n : Fin 20) : Nat := 0x0300 + n

/-! ## Hold, squelch and start (R161) -/

/-- Squelch acts on an output in the present timing condition. -/
def State.squelched (s : State) (n : Fin 20) : Bool :=
  let c := s.n Obj.timing_condition
  let q := s.n (Obj.out_squelch n)
  (q == 1 && c == 4) || (q == 2 && (c == 3 || c == 4))

/-- Why an output with a grid is held: 0 time invalid, 1 squelch, 2 before start_time (R161, code 0x2402). -/
def State.holdCause (s : State) (n : Fin 20) : Option Nat :=
  if !s.seg.valid then some 0
  else if s.squelched n then some 1
  else if s.outs[n].fn = 7 ∧ (s.n (Obj.start_time n) = 0 ∨ (s.time : Rat) < s.outs[n].base) then some 2
  else none

/-- An output starts: from its first release on the pin is driven (R161, R176); journalled. -/
def State.logStarted (s : State) (n : Fin 20) : State :=
  (s.setOut n { s.outs[n] with released := true }).log (outSource n) 0x2401 (be 1 s.outs[n].fn ++ be 1 s.outs[n].loop)

/-- The calibrated pad delay is in force again, and the first 64 edges are measured (R166). -/
def OutGen.padStart (g : OutGen) (s : State) (n : Fin 20) : OutGen :=
  { g with padFirst := [], padMiss := 0,
           padComp := Config.padCal n (s.nn (Obj.out_slew n)) (s.nn (Obj.dout_level n)) }

/-- Indices of a start pulse that pass without a pulse count as skipped; the count is bounded by start_count. -/
def State.skipIndices (s : State) (n : Fin 20) (k : Nat) : State × Nat :=
  let c := s.nn (Obj.start_count n)
  let i := s.outs[n].index
  let k := if c = 0 then k else min k (c - i)
  (s.bump (Obj.skipped_count n) k, k)

/-- A series still has a pulse with an index. -/
def State.hasIndex (s : State) (n : Fin 20) (i : Nat) : Bool :=
  let c := s.nn (Obj.start_count n)
  c == 0 || i < c

/-- Start an output at its first grid instant at least 1 µs from now (R161, R163). -/
def State.startOut (s : State) (n : Fin 20) : State :=
  let g := s.outs[n]
  let fromT : Rat := (s.time + 65536000 : Int)
  let s := s.putN (Obj.out_state n) 2
  if g.fn = 7 then
    let p := s.gridPeriod n 7
    let k := if p ≤ 0 || fromT ≤ g.base then 0 else ((fromT - g.base) / p).ceil.toNat
    let (s, d) := s.skipIndices n (k - g.index)
    let i := g.index + d
    let g := { g with index := i, next := if s.hasIndex n i then some (g.base + i * p) else none, jump := false, after := none }
    (s.setOut n (g.padStart s n)).logStarted n
  else
    let g := { g with next := s.gridFrom n g.fn fromT, jump := false, after := none }
    (s.setOut n (g.padStart s n)).logStarted n

/-- The period of a clock on DPLL-F in 1/256 tick, at DPLL-F's frequency or, in free-run, at the rate of device time
(R155). -/
def State.periodF (s : State) (n : Fin 20) : Rat :=
  let f : Rat := if s.loops[1].state = .freeRun then 1 + (s.seg.rate : Rat) / 2 ^ 60 else 1 + (s.loops[1].freqWord : Rat) / 10 ^ 18
  (stampS * 1000 : Rat) / max 1 (s.nn (Obj.out_frequency n)) / f

/-- Start a clock on DPLL-F within one period; its phase is not specified (R155). -/
def State.startF (s : State) (n : Fin 20) : State :=
  let (x, s) := s.freeNat
  let p := s.periodF n
  let g := { s.outs[n] with nextRaw := some (s.stamp + p * (x % 2 ^ 32 : Nat) / 2 ^ 32), next := none }
  ((s.setOut n (g.padStart s n)).putN (Obj.out_state n) 2).logStarted n

/-- A change of function or loop takes effect once the active interval in progress has ended (R163). -/
def State.adoptFunction (s : State) (n : Fin 20) : State :=
  let g := s.outs[n]
  let fn := s.nn (Obj.out_function n)
  let loop := s.nn (Obj.out_loop n)
  if g.fn = fn ∧ g.loop = loop then s
  else
    let base : Rat := s.n (Obj.start_time n) + s.n (Obj.output_offset n) * unitsPerPs
    let s := s.setOut n { g with fn, loop, next := none, nextRaw := none, jump := false, after := none, base, frame := [], wave := [],
                                 activeEnd := none }
    s.putN (Obj.out_state n) 0

/-- Bring one output's hold, squelch or release up to date (R161): nothing cuts an active interval short. A series whose start
lies ahead, again ahead after a backward step, waits for the time of its next index (R160, R164). -/
def State.evalOut (s : State) (n : Fin 20) : State :=
  if s.stamp < s.outs[n].activeUntil then s
  else
    let s := s.adoptFunction n
    let g := s.outs[n]
    let st := s.n (Obj.out_state n)
    if g.fn = 0 then s
    else if g.loop = 1 then (if st = 0 then s.startF n else s)
    else
      match s.holdCause n with
      | some c =>
        let held : Int := if c = 1 then 3 else 1
        let waits := c = 2 ∧ s.n (Obj.start_time n) ≠ 0 ∧ s.hasIndex n g.index
        let g := { g with next := if waits then some (g.base + g.index * s.gridPeriod n 7) else none, jump := false, after := none }
        let s := s.setOut n g
        if st = held then s else (s.putN (Obj.out_state n) held).log (outSource n) 0x2402 (be 1 c)
      | none => if st = 2 ∨ st = 4 ∨ (g.fn = 7 ∧ st = 1 ∧ g.index = 0 ∧ g.next.isSome) then s else s.startOut n

/-- OUTPUT_SQUELCH (R161) for every output. -/
def State.evalOuts (s : State) : State :=
  if s.awake 2 then (List.finRange 20).foldl (fun (s : State) (n : Fin 20) => s.evalOut n) s else s

/-! ## Edges (R153), jumps (R163), pads (R166) -/

/-- Take the phase jump at the grid instant `t`: the edge after it is the first instant of the new grid at least one
period later, J that delay (R163). -/
def State.takeJump (s : State) (n : Fin 20) (t : Rat) : State :=
  let g := s.outs[n]
  let p := s.gridPeriod n g.fn
  match s.gridFrom n g.fn (t + p) with
  | none => s.setOut n { g with jump := false }
  | some a =>
    let base := if g.fn = 7 then a - (g.index + 1 : Nat) * p else g.base
    let s := s.setOut n { g with jump := false, after := some a, base }
    (s.bump (Obj.jump_count n)).log (outSource n) 0x2403 (be 8 (rneRat ((a - (t + p)) / unitsPerPs)))

/-- One scheduled edge at the return sampler: its measured delay in ps, or no crossing (R166). -/
def State.padSample (s : State) (n : Fin 20) (pad : Option Int) : State :=
  let g := s.outs[n]
  match pad with
  | none =>
    let s := s.setOut n { g with padMiss := g.padMiss + 1 }
    if g.padMiss + 1 = 16 then
      (s.putN (Obj.out_state n) 4).log (outSource n) 0x2408 (be 4 (s.n (Obj.pad_delay n)))
    else s
  | some d =>
    if g.padFirst.length < 64 then
      let l := d :: g.padFirst
      let s := s.setOut n { g with padMiss := 0, padFirst := l }
      if l.length = 64 then s.putN (Obj.pad_delay n) (rneDiv l.sum 64) else s
    else s.setOut n { g with padMiss := 0 }

/-- A labelled edge arms the time-of-day outputs that name this output (R171). -/
def State.armTod (s : State) (n : Fin 20) (stamp : Nat) (t : Rat) : State :=
  (List.finRange 4).foldl (fun (s : State) (k : Fin 4) =>
    if s.nn (Obj.todout_output k) = n then s.setTod k { s.tods[k] with edge := some (stamp, rneRat t) } else s) s

/-- The timecode frame that starts at an edge. -/
def State.frameAt (s : State) (n : Fin 20) (fn : Nat) (t : Rat) : List Nat :=
  let p := s.gridPeriod n fn
  let g : Rat := ((t - s.gridOrigin n fn) / p + 1 / 2).floor * p
  let dt := g.floor
  let label : Rat := g + (s.labelTime (s.nn (Obj.tc_scale n)) (s.n (Obj.tc_local_offset n)) dt - dt : Int)
  if fn = 5 then ltcFrame (s.nn (Obj.ltc_rate n)) (s.nn (Obj.ltc_user_bits n)) label
  else if fn = 6 then
    irigFrame (s.nn (Obj.irig_format n)) (s.nn (Obj.irig_cf n)) label.floor
      (s.nn (Obj.tc_scale n) != 0 && s.insertedSecond dt)
  else []

/-- The transitions that begin at a grid instant: a timecode frame's, or the active interval (R154-R160). -/
def State.waveAt (s : State) (n : Fin 20) (fn : Nat) (t : Rat) (frame : List Nat) : List (Rat × Bool) :=
  if fn = 5 then
    biphase t (s.gridPeriod n 5 / 80) (match s.outs[n].wave.getLast? with | some (_, l) => l | none => false) frame
  else if fn = 6 then irigWave t frame
  else [(t, true), (t + s.activeWidth n fn, false)]

/-- Produce the edge of an output's grid instant `t` (R153, R162). DESIGN CHOICE (log entry 214): a commit of a frame rate or LTC rate. -/
def State.produceEdge (s : State) (n : Fin 20) (t : Rat) (pad : Option Int) : State :=
  let stamp := s.edgeStamp n t
  let fn := s.outs[n].fn
  let s := s.putO (Obj.last_edge n) (be 9 stamp)
  let s := if s.outs[n].jump then s.takeJump n t else s
  let g := s.outs[n]
  let p := s.gridPeriod n fn
  let d := s.n (Obj.out_phase_slope n) * p / 10 ^ 12
  let move := if g.slew < -d then -d else if d < g.slew then d else g.slew
  let ends := t + s.activeWidth n fn
  let frame := s.frameAt n fn t
  let s := s.setOut n { g with slew := g.slew - move, after := none, activeUntil := s.edgeStamp n ends, activeEnd := some ends,
                               frame, wave := s.waveAt n fn t frame, lastEdge := (stamp, s.convert stamp) }
  let next := match g.after with
    | some a => some a
    | none => if fn = 7 then some (g.base + (g.index + 1 : Nat) * p) else s.gridFrom n fn (t + p / 2)
  let g' := s.outs[n]
  let g' := if fn = 7 then { g' with index := g.index + 1, next := if s.hasIndex n (g.index + 1) then next else none }
            else { g' with next }
  let s := s.setOut n g'
  let s := if fn = 1 then s.armTod n stamp t else s
  s.padSample n pad

/-- OUTPUT_EDGE (R153, R155, R160): once the raw counter has reached the edge's stamp. -/
def execOutputEdge (output : Fin 20) (pad : Option Int) (s : State) : Host.Outcome State Fault Refusal :=
  let g := s.outs[output]
  let changed := decide (g.fn ≠ s.nn (Obj.out_function output)) || decide (g.loop ≠ s.nn (Obj.out_loop output))
  if !s.awake 2 then .next s
  else if changed && g.activeUntil ≤ s.stamp then .next (s.evalOut output)
  else
    match g.nextRaw, g.next with
    | some r, _ =>
      if (s.stamp : Rat) < r || g.fn = 0 then .next s
      else
        let p := s.periodF output
        let s := s.setOut output { g with nextRaw := some (r + p), activeUntil := (r + p / 2).floor.toNat,
                                          lastEdge := (r.floor.toNat, s.convert r.floor.toNat) }
        .next ((s.padSample output pad).evalOut output)
    | none, some t =>
      if s.stamp < s.edgeStamp output t then .next s
      else
        let due : Bool := match s.holdCause output with
          | some 2 => true
          | some _ => false
          | none => true
        if !due then .next (s.evalOut output)
        else
          let s := if s.n (Obj.out_state output) = 1 then
              let s := s.setOut output (g.padStart s output)
              (s.putN (Obj.out_state output) 2).logStarted output
            else s
          .next (s.produceEdge output t pad)
    | none, none => .next (s.evalOut output)

/-- OUTPUT_PHASE_JUMP (R163): the pending change takes effect at the next grid instant. -/
def execOutputPhaseJump (output : Fin 20) (s : State) : Host.Outcome State Fault Refusal :=
  let g := s.outs[output]
  match g.next with
  | some t => if g.jump && s.edgeStamp output t ≤ s.stamp then .next (s.takeJump output t) else .next s
  | none => .next s

/-- A step of the present tick skips `k` edges or indices of an output (R164): counted, and journalled once. -/
def State.skipAtStep (s : State) (n : Fin 20) (start k : Nat) : State :=
  let s := s.setOut n { s.outs[n] with stepAt := some (start, k) }
  if k = 0 then s else (s.bump (Obj.skipped_count n) k).log (outSource n) 0x2404 (be 4 k)

/-- What a step of the present tick has skipped is taken back, for the tick's writes or correction form the grid anew (R165). -/
def State.unskipAtStep (s : State) (n : Fin 20) (start : Nat) : State :=
  match s.outs[n].stepAt with
  | some (st, k) =>
    if st ≠ start || k = 0 then s
    else
      let mine := fun e : JEntry => e.source == outSource n && e.code == 0x2404 && e.stamp == start
      let s : State := { s with journal := { s.journal with queue := s.journal.queue.filter fun e => !mine e } }
      s.putN (Obj.skipped_count n) (s.n (Obj.skipped_count n) - k)
  | none => s

/-- The next leading edge or frame after a step segment (R164): the first grid instant under the new time; where the inactive
interval before it would be shorter than 10% of its nominal length, that edge is skipped and counted, once for a step. -/
def State.rephase (s : State) (n : Fin 20) (seg : Segment) : State :=
  let g := s.outs[n]
  let p := s.gridPeriod n g.fn
  match s.gridFrom n g.fn seg.time with
  | none => s
  | some t =>
    let ended : Rat := seg.time + ((g.activeUntil : Int) - seg.start : Int) * 1024 * (2 ^ 60 + seg.rate) / (5 * 2 ^ 60 : Rat)
    let nominal := p - s.activeWidth n g.fn
    let short : Bool := 10 * (t - ended) < nominal
    let s := s.setOut n { g with next := some (if short then t + p else t), jump := false, after := none }
    s.skipAtStep n seg.start (if short then 1 else 0)

/-- A start pulse at a step segment (R164): the indices whose times the step jumps over are skipped. -/
def State.seriesStep (s : State) (n : Fin 20) (seg : Segment) (t : Rat) : State :=
  let g := s.outs[n]
  let p := s.gridPeriod n 7
  let c := s.nn (Obj.start_count n)
  let past := if t < seg.time ∧ 0 < p then ((seg.time - t) / p).ceil.toNat else 0
  let k := if c = 0 then past else min past (c - g.index)
  let i := g.index + k
  let s := s.setOut n { g with index := i, next := if s.hasIndex n i then some (t + k * p) else none }
  s.skipAtStep n seg.start k

/-- The grid of a series moves at once (R163): its next index comes at the first instant of the new grid at or after its old
time. -/
def State.moveSeries (s : State) (n : Fin 20) : State :=
  let g := s.outs[n]
  let p := s.gridPeriod n 7
  match s.gridFrom n 7 (g.base + g.index * p) with
  | some a => s.setOut n { g with base := a - g.index * p, next := g.next.map fun _ => a, jump := false, after := none }
  | none => s

/-- The grid has moved: a phase jump at its next instant (R163); on the tick of a step segment that re-phases the function,
that one adjustment takes the change in, and the step's skips are those of the final grid (R165). -/
def State.regrid (s : State) (n : Fin 20) : State :=
  let g := s.outs[n]
  let skipped := match g.stepAt with | some (st, k) => if st == s.stamp && s.seg.start == st then some k else none | none => none
  match skipped with
  | none => s.setOut n { g with jump := true }
  | some k =>
    if g.fn = 2 || g.fn = 3 then s.setOut n { g with jump := true }
    else
      let s := s.unskipAtStep n s.stamp
      if g.fn = 7 then
        let s := (s.setOut n { s.outs[n] with index := g.index - k, stepAt := none }).moveSeries n
        let g := s.outs[n]
        s.seriesStep n s.seg (g.base + g.index * s.gridPeriod n 7)
      else (s.setOut n { s.outs[n] with stepAt := none }).rephase n s.seg

/-- A committed change of a timed object that the running function uses makes a jump pending (R163); a series that has
not started, or is held, moves at once. -/
def State.timedWrite (s : State) (n : Fin 20) (key : Nat) : State :=
  let g := s.outs[n]
  let uses := (key == Obj.out_period n && (g.fn == 1 || g.fn == 7))
    || (key == Obj.out_width n && (g.fn == 1 || g.fn == 4 || g.fn == 7))
    || (key == Obj.out_frequency n && g.fn == 2) || (key == Obj.word_rate n && g.fn == 3)
    || (key == Obj.output_offset n && g.fn != 0)
  let st := s.n (Obj.out_state n)
  if uses && g.loop != 1 && (st == 2 || st == 4) then s.regrid n
  else if g.fn = 7 then
    let base : Rat := s.n (Obj.start_time n) + s.n (Obj.output_offset n) * unitsPerPs
    if g.index = 0 then s.setOut n { g with base, next := g.next.map fun _ => base }
    else if uses then s.moveSeries n
    else s
  else s

/-- A change of out_slew or dout_level: the first 64 edges are measured again, the calibrated value is the target
meanwhile (R166). -/
def State.padRestart (s : State) (n : Fin 20) : State := s.setOut n { s.outs[n] with padFirst := [], padMiss := 0 }

/-- A new series (R160); the former one's indices not yet emitted, of its `c` (0 no end), are cancelled and counted. A time
less than 1 ms ahead fails the commit and changes nothing. -/
def State.startSeries (s : State) (output : Fin 20) (time c : Nat) : State :=
  if time ≠ 0 ∧ (time : Int) < s.time + 65536000000 then s
  else
    let g := s.outs[output]
    let former := s.n (Obj.start_time output) ≠ 0 ∧ g.fn = 7
    let s := s.putN (Obj.start_time output) time
    let s := if !former then s
      else if c = 0 then
        let (x, s) := s.freeNat
        s.bump (Obj.skipped_count output) (x % 2 ^ 32)
      else s.bump (Obj.skipped_count output) (c - g.index)
    let base : Rat := (time : Int) + s.n (Obj.output_offset output) * unitsPerPs
    let s := s.setOut output { g with base, index := 0, next := if g.fn = 7 ∧ time ≠ 0 then some base else none, jump := false,
                                      after := none }
    s.evalOut output

/-- START_TIME_COMMIT (R160): a commit of start_time alone. -/
def execStartTimeCommit (output : Fin 20) (time : Nat) (s : State) : Host.Outcome State Fault Refusal :=
  .next (s.startSeries output time (s.nn (Obj.start_count output)))

/-- PAD_COMPENSATION_UPDATE (R166): once per second the delay is measured again and the compensation moves by at most
10 ps in a second; under a pad fault it holds its value. -/
def execPadCompensationUpdate (output : Fin 20) (delay : Option Int) (s : State) : Host.Outcome State Fault Refusal :=
  let g := s.outs[output]
  let st := s.n (Obj.out_state output)
  if !(st == 2 || st == 4) then .next s
  else
    match delay with
    | none => .next s
    | some d =>
      let early : Bool := match g.padAt with | some t => decide (s.now < t + ticksS 1) | none => false
      if early then .next s
      else
        let s := if g.padFirst.length < 64 then s else s.putN (Obj.pad_delay output) d
        let target := if g.padFirst.length < 64 then Config.padCal output (s.nn (Obj.out_slew output)) (s.nn (Obj.dout_level output)) else d
        let move := if st = 4 then 0 else clampInt (-10) 10 (target - g.padComp)
        .next (s.setOut output { g with padComp := g.padComp + move, padAt := some s.now })

/-! ## Steps (R164, R165) -/

/-- The output sees the steps of device time: not a clock on DPLL-F, and on DPLL-A or DPLL-B only where step_mode is 0 (R164). -/
def State.seesStep (s : State) (n : Fin 20) : Bool :=
  let l := s.outs[n].loop
  !(l = 1 || ((l = 2 || l = 3) && s.n (Obj.step_mode (if l = 2 then 2 else 3)) == 1))

/-- What an output has in progress when a step of `amount` comes at stamp `start` lasts its width of device time (R162, R164):
the transitions and the end that are still to come move with the step; those that have come stay in the past, as do those of an
interval that has ended. -/
def State.carryWave (s : State) (n : Fin 20) (start : Nat) (amount : Int) : State :=
  let g := s.outs[n]
  let ends := decide (g.activeUntil ≤ start)
  let move := fun t : Rat => if !ends && decide (start < s.edgeStamp n t) then t + amount else 0
  s.setOut n { g with wave := g.wave.map fun p => (move p.1, p.2),
                      activeEnd := if ends then g.activeEnd else g.activeEnd.map (· + amount) }

/-- The end of an interval in progress under the segments now known (R162). -/
def State.spanActive (s : State) (n : Fin 20) (start : Nat) : State :=
  let g := s.outs[n]
  match g.activeEnd with
  | some t => if start < g.activeUntil then s.setOut n { g with activeUntil := s.edgeStamp n t } else s
  | none => s

/-- One output at a step segment whose step amount is `amount` (R164). -/
def State.outStep (s : State) (n : Fin 20) (seg : Segment) (amount : Int) : State :=
  let g := s.outs[n]
  let st := s.n (Obj.out_state n)
  if !s.seesStep n || !(st == 2 || st == 4 || (g.fn == 7 && g.next.isSome)) then s
  else
    match g.fn, g.next with
    | 7, some t => s.seriesStep n seg t
    | 2, some t => s.setOut n { g with next := some (t + amount), jump := true, after := none }
    | 3, some t => s.setOut n { g with next := some (t + amount), jump := true, after := none }
    | _, some _ => s.rephase n seg
    | _, none => s

/-- SEGMENT_START (R90, R151, R162, R164, R165): the issued segment comes into force at its start stamp; intervals in progress
last by its rate; at a step bit the loops and outputs act, and holds are brought up to date. The next waiting request may then be
issued. A scheduled owner step starts once its commit has taken effect. -/
def execSegmentStart (s : State) : Host.Outcome State Fault Refusal :=
  match s.tb.issued, s.tb.reserved with
  | none, _ => .next s.tryIssue
  | some _, some _ => .next s
  | some g, none =>
    if s.tb.running && g.start ≤ s.tb.raw * 256 then
      let old := s.tb.segs.headD {}
      let amount := g.time - old.convert g.start
      let s := if g.step then
          (List.finRange 20).foldl (fun (s : State) n => if s.seesStep n then s.carryWave n g.start amount else s) s
        else s
      let s := s.startIssued
      let s := if g.step then s.mediaStep amount else s
      let s := (List.finRange 20).foldl (fun (s : State) n => s.spanActive n g.start) s
      let s := if g.step then (List.finRange 20).foldl (fun (s : State) n => s.outStep n g amount) s else s
      .next s.evalOuts.tryIssue
    else .next s.tryIssue

/-! ## Alignment (R168-R170) -/

/-- Begin measuring (R169). -/
def State.alignBegin (s : State) (n : Fin 20) : State :=
  (s.setOut n { s.outs[n] with align := { on := true, since := s.now } }).putN (Obj.align_status n) 1

/-- ALIGN_TRIGGER (R169): a commit of align_trigger := true starts measuring; without a mode or a source it fails. -/
def execAlignTrigger (output : Fin 20) (s : State) : Host.Outcome State Fault Refusal :=
  if s.n (Obj.align_mode output) = 0 ∨ s.n (Obj.align_source output) = 0 then .next s
  else .next ((s.putB (Obj.align_trigger output) true).alignBegin output)

/-- An input edge for the alignment of one output: d is its time less that of the nearest grid edge with the whole of
align_correction, also what is still to be slewed in, ps (R169, R170). -/
def State.alignEdge (s : State) (n : Fin 20) (stamp : Nat) : State :=
  let g := s.outs[n]
  let p := s.gridPeriod n g.fn
  if !g.align.on || p ≤ 0 || g.loop = 1 || g.fn = 7 then s
  else
    let x : Rat := s.convert stamp - (s.gridOrigin n g.fn + g.slew)
    let d := x - (x / p + 1 / 2).floor * p
    let a := { g.align with diffs := d / unitsPerPs :: g.align.diffs, stamps := (g.align.stamps ++ [(s.now, stamp)]).take 2 }
    let s := s.setOut n { g with align := a }
    if !g.align.first && s.n (Obj.align_status n) = 3 then s.putN (Obj.align_status n) 2 else s

/-- An edge of an alignment source reaches every output that names it (R168). -/
def State.alignFeed (s : State) (source : Nat) (stamp : Nat) : State :=
  (List.finRange 20).foldl (fun (s : State) (n : Fin 20) =>
    if s.nn (Obj.align_source n) = source then s.alignEdge n stamp else s) s

/-- The block of align_count edges is complete. -/
def State.blockFull (s : State) (n : Fin 20) : Bool :=
  s.outs[n].align.on && s.nn (Obj.align_count n) ≤ s.outs[n].align.diffs.length && s.outs[n].align.diffs != []

/-- m + align_offset for a full block, ps (R169). -/
def State.blockMean (s : State) (n : Fin 20) : Int :=
  let l := s.outs[n].align.diffs.reverse.take (s.nn (Obj.align_count n))
  rneRat (l.sum / max 1 l.length) + s.n (Obj.align_offset n)

/-- ps reduced modulo a period in 2^-16 ns, rounded to the ps (R169). -/
def psMod (x : Rat) (p : Rat) : Int :=
  let q := p / unitsPerPs
  let r := rneRat (ratMod x q)
  if q ≤ r then 0 else r

/-- ALIGN_APPLIED (R169): C becomes a phase jump; a one-shot alignment ends, a continuous one goes on. -/
def execAlignApplied (output : Fin 20) (s : State) : Host.Outcome State Fault Refusal :=
  let g := s.outs[output]
  let p := s.gridPeriod output g.fn
  let mode := s.n (Obj.align_mode output)
  if !s.blockFull output || !(mode == 1 || (mode == 2 && g.align.first)) || p ≤ 0 then .next s
  else
    let c := psMod (s.blockMean output) p
    let s := s.putN (Obj.align_correction output) (psMod ((s.n (Obj.align_correction output) + c : Int) : Rat) p)
    let st := s.n (Obj.out_state output)
    let s := s.setOut output { g with align := { on := mode == 2, first := false, since := s.now } }
    let s := if st == 2 || st == 4 then s.regrid output else s
    let s := (s.putB (Obj.align_trigger output) false).putN (Obj.align_status output) 2
    .next (s.log (outSource output) 0x2406 (be 8 c ++ be 1 mode))

/-- ALIGN_CONTINUOUS_UPDATE (R170): a later block's correction in (−P/2, P/2] is slewed in. -/
def execAlignContinuousUpdate (output : Fin 20) (s : State) : Host.Outcome State Fault Refusal :=
  let g := s.outs[output]
  let p := s.gridPeriod output g.fn
  if !s.blockFull output || s.n (Obj.align_mode output) ≠ 2 || g.align.first || p ≤ 0 then .next s
  else
    let r := psMod (s.blockMean output) p
    let q := p / unitsPerPs
    let c : Rat := if q / 2 < r then r - q else r
    let c := rneRat c
    let s := s.putN (Obj.align_correction output) (psMod ((s.n (Obj.align_correction output) + c : Int) : Rat) p)
    let s := s.setOut output { g with slew := g.slew + c * unitsPerPs, align := { on := true, first := false, since := s.now } }
    .next ((s.putN (Obj.align_status output) 2).log (outSource output) 0x2406 (be 8 c ++ be 1 2))

/-- The time limit of a block in elapsed ticks (R169). -/
def State.alignLimit (s : State) (n : Fin 20) : Nat :=
  let src := s.nn (Obj.align_source n)
  let k := 2 * s.nn (Obj.align_count n)
  if src < 9 then
    let f := max 1 (s.nn (Obj.refin_frequency (src - 1)))
    max (ticksS 2) (k * refinPeriodNum f / (f * 256))
  else
    match s.outs[n].align.stamps with
    | (_, a) :: (_, b) :: _ => max (ticksS 2) (k * (b - a) / 256)
    | _ => ticksS 2

/-- ALIGN_TIMEOUT (R169, R170). -/
def execAlignTimeout (output : Fin 20) (s : State) : Host.Outcome State Fault Refusal :=
  let g := s.outs[output]
  if !g.align.on || s.blockFull output || s.now < g.align.since + s.alignLimit output then .next s
  else if s.n (Obj.align_mode output) = 2 ∧ !g.align.first then
    let s := s.setOut output { g with align := { g.align with diffs := [], stamps := [], since := s.now } }
    .next (s.putN (Obj.align_status output) 3)
  else
    let s := s.setOut output { g with align := {} }
    let s := (s.putN (Obj.align_status output) 3).putB (Obj.align_trigger output) false
    .next (s.log (outSource output) 0x2407 (be 1 (s.n (Obj.align_source output))))

/-! ## Time-of-day outputs (R171, R172) -/

/-- TODOUT_FRAME (R171, R172): todout_delay after the labelled edge; none while the output is held or in condition 0. -/
def execTodoutFrame (todout : Fin 4) (s : State) : Host.Outcome State Fault Refusal :=
  let x := s.tods[todout]
  let o := s.nn (Obj.todout_output todout)
  match x.edge with
  | none => .next s
  | some (stamp, t) =>
    if s.stamp < stamp + s.nn (Obj.todout_delay todout) * 320000000 then .next s
    else
      let st := s.n (Obj.out_state o)
      if s.n Obj.timing_condition = 0 ∨ !(st == 2 || st == 4) then .next (s.setTod todout { x with edge := none })
      else
        let frame := if s.n (Obj.todout_format todout) = 0 then s.rafFrame x.seq t else s.zda t
        let s := s.setTod todout { edge := none, seq := (x.seq + 1) % 65536, sent := frame,
                                   sentFrom := some (stamp + s.nn (Obj.todout_delay todout) * 320000000),
                                   sentBaud := s.nn (Obj.todout_baud todout) }
        .next (s.bump (Obj.todout_sent todout))

/-! ## Pin levels (R153, R163, R171, R176) -/

/-- The raw stamp of a transition at the pin: the edge's less the pad delay compensated (R153). -/
def State.pinStamp (s : State) (n : Fin 20) (t : Rat) : Nat := stampLess (s.edgeStamp n t) s.outs[n].padComp

/-- The output marks its next edge: it runs, or only its start pulse's time is awaited (R161). -/
def State.marks (s : State) (n : Fin 20) : Bool :=
  let st := s.n (Obj.out_state n)
  st == 2 || st == 4 || (s.outs[n].fn == 7 && st == 1 && s.holdCause n == some 2)

/-- The transitions to come of the next grid instant, whose first precedes it at the pin by the pad delay (R153). -/
def State.nextWave (s : State) (n : Fin 20) : List (Rat × Bool) :=
  match s.outs[n].next with
  | some t => if s.marks n then s.waveAt n s.outs[n].fn t (s.frameAt n s.outs[n].fn t) else []
  | none => []

/-- The level of a running generator at a raw stamp: active or not. -/
def State.waveLevel (s : State) (n : Fin 20) (stamp : Nat) : Bool :=
  let g := s.outs[n]
  if g.loop = 1 then
    let at' : Rat := stamp + (g.padComp * 8 : Rat) / 25
    decide (at' < g.activeUntil) || (match g.nextRaw with | some r => decide (r ≤ at') | none => false)
  else (g.wave ++ s.nextWave n).foldl (fun lvl p => if s.pinStamp n p.1 ≤ stamp then p.2 else lvl) false

/-- The configuration set has been applied since the last cold reset or power-on, and the time domain runs: before, no
output pin is driven (R176). -/
def State.pinsLive (s : State) : Bool :=
  s.awake 2 && 6 ≤ s.sys.step && s.sys.scope != some 1 && s.sys.scope != some 2 && s.mode.cur != .cellar

/-- How an output's pin is driven now (R163, R167, R176): off, or not yet released since the cold reset; held at its inactive
level; or following the generator. -/
def State.outPin (s : State) (n : Fin 20) : PinDrive :=
  let g := s.outs[n]
  let st := s.n (Obj.out_state n)
  let low := s.flag (Obj.out_polarity n)
  let level := s.waveLevel n s.stamp
  if !s.pinsLive || g.fn = 0 || st = 0 || (16 ≤ n.val && s.n (Obj.dout_level n) = 0) || !(g.released || level) then .undriven
  else if s.marks n then .driven (level != low)
  else .driven low

/-- A UART line at a bit number since its first start bit: 8 data bits, least significant first, no parity, 1 stop bit. -/
def uartLevel (b : Bytes) (k : Nat) : Bool :=
  if 10 * b.length ≤ k then true
  else if k % 10 = 0 then false
  else if k % 10 = 9 then true
  else bit (b.getD (k / 10) 0).toNat (k % 10 - 1)

/-- How a time-of-day output's pin is driven now (R171, R176): high while no frame is sent. -/
def State.todPin (s : State) (k : Fin 4) : PinDrive :=
  let x := s.tods[k]
  if !s.pinsLive then .undriven
  else
    match x.sentFrom with
    | some t => .driven (uartLevel x.sent ((s.stamp - t) * x.sentBaud / stampS))
    | none => .driven true

end Sys2Proof.Machine
end

