-- ==== Sys2Proof/Machine/Captures.lean ====
section
/-! DEFINITION. Captures (R173-R175) and the reference inputs' edges (R112, R118, R168). -/

namespace Sys2Proof.Machine

def capSource (c : Fin 16) : Nat := 0x0400 + c

/-- One entry lost, discarded or overwritten (R175). -/
def State.capLose (s : State) (c : Fin 16) : State :=
  let s := s.bump (Obj.cap_lost c)
  if s.flag (Obj.cap_overflow c) then s
  else (s.putB (Obj.cap_overflow c) true).log (capSource c) 0x2502 (be 4 (s.n (Obj.cap_lost c)))

/-- A stamp enters the 16-entry stamp queue, cap_delay subtracted (R173, R175). -/
def State.capPush (s : State) (c : Fin 16) (stamp : Nat) (falling : Bool) : State :=
  let x := s.caps[c]
  let st := stampLess stamp (s.n (Obj.cap_delay c))
  if !s.flag (Obj.cap_enable c) then s
  else if 16 ≤ x.queue.length then s.capLose c
  else s.setCap c { x with queue := x.queue ++ [(st, falling)],
                           busyUntil := if x.queue = [] then max x.busyUntil (s.now + 50) else x.busyUntil }

/-- CAPTURE_EDGE (R173, R174): a transition of CAPn at a raw stamp, to a level that then stays for `stable` ticks. With a REFIN
source the pin feeds alignment alone (R168) and no object of the unit counts its edges. -/
def execCaptureEdge (capture : Fin 16) (stamp : Nat) (falling : Bool) (stable : Nat) (s : State) :
    Host.Outcome State Fault Refusal :=
  let x := s.caps[capture]
  let pin := s.n (Obj.cap_input capture) == 0
  if !s.awake 2 || x.level == !falling then .next s
  else if stable < s.nn (Obj.cap_filter capture) then .next (if pin then s.bump (Obj.cap_glitch capture) else s)
  else
    let s := s.setCap capture { x with level := !falling }
    let sel := s.n (Obj.cap_edge capture)
    if (sel == 0 && falling) || (sel == 1 && !falling) then .next s
    else
      let close : Bool := match x.lastEdge with
        | some e => s.n (Obj.cap_filter capture) == 0 && decide (stamp < e + 4 * 256)
        | none => false
      if close then .next (if pin && s.flag (Obj.cap_enable capture) then s.capLose capture else s)
      else
        let s := s.setCap capture { s.caps[capture] with lastEdge := some stamp }
        let s := if pin then s.capPush capture stamp falling else s
        let st := stampLess stamp (s.n (Obj.cap_delay capture))
        .next (s.alignFeed (16 + capture) st)

/-- The 32 bytes of an entry (cap_entry). -/
def State.capBytes (s : State) (seq stamp : Nat) (falling : Bool) : Bytes :=
  let valid := (s.segFor stamp).valid
  be 4 seq ++ be 9 stamp ++ timeToBytes (s.convert stamp)
    ++ be 1 ((if valid then 1 else 0) + (if falling then 2 else 0)) ++ List.replicate 4 0

/-- CAPTURE_CONVERT (R173, R175): one entry every 40 ns goes from the stamp queue into the FIFO. -/
def execCaptureConvert (capture : Fin 16) (s : State) : Host.Outcome State Fault Refusal :=
  let x := s.caps[capture]
  match x.queue with
  | [] => .next s
  | (stamp, falling) :: r =>
    if s.now < x.busyUntil then .next s
    else
      let s := s.setCap capture { x with queue := r, busyUntil := s.now + 50 }
      let count := s.nn (Obj.cap_count capture)
      let full := decide (64 ≤ count)
      let s := if full then s.capLose capture else s
      if full && s.n (Obj.cap_fifo_mode capture) = 0 then .next s
      else
        let seq : Nat := (s.nn (Obj.cap_newest_seq capture) + 1) % 2 ^ 32
        let s := s.putN (Obj.cap_newest_seq capture) seq
        let s := if full then s else (s.putN (Obj.cap_count capture) (count + 1)).putN (Obj.cap_entries capture) (count + 1)
        let s := s.putO (Obj.cap_entry capture (seq % 64)) (s.capBytes seq stamp falling)
        .next (if s.flag (Obj.cap_journal capture) then
            s.log (capSource capture) 0x2501 (be 4 seq ++ be 1 (if falling then 1 else 0)) else s)

/-- A value cap_ack_seq accepts (R175). -/
def State.capAckOk (s : State) (c : Nat) (seq : Int) : Bool :=
  decide (s.n (Obj.cap_ack_seq c) ≤ seq) && decide (seq ≤ s.n (Obj.cap_newest_seq c))

/-- CAP_ACK_SEQ (R175): the commit consumes the entries up to a sequence; another value fails the commit. -/
def execCapAckSeq (capture : Fin 16) (seq : Nat) (s : State) : Host.Outcome State Fault Refusal :=
  if !s.capAckOk capture seq then .next s
  else
    let left : Int := min (s.n (Obj.cap_count capture)) (s.n (Obj.cap_newest_seq capture) - seq)
    .next (((s.putN (Obj.cap_ack_seq capture) seq).putN (Obj.cap_count capture) left).putN (Obj.cap_entries capture) left)

/-- REFIN_EDGE (R112, R118, R168, R173): a selected edge of an input that is on. Every N-th is monitored: stamped to 1/128 tick
and converted (R86, R25); the others are counted. DESIGN CHOICE (log entry 162): the count starts with the input's first
edge, so the N-th is the first monitored. -/
def execRefinEdge (input : Fin 8) (stamp : Nat) (s : State) : Host.Outcome State Fault Refusal :=
  let x := s.refins[input]
  if !s.awake 2 || s.n (Obj.refin_mode input) = 0 then .next s
  else if x.edges + 1 < refinDivider (s.nn (Obj.refin_frequency input)) then .next (s.setRefin input { x with edges := x.edges + 1 })
  else
    let stamp := stamp128 stamp
    let s := s.setRefin input { edges := 0, stamp, time := s.convert stamp }
    let s := s.putO (Obj.refin_last_stamp input) (be 9 stamp)
    let s : State := (s.slotsOn [1, 2, 3] input).foldl (fun (s : State) (i : Fin 16) => s.slotEdge i stamp) s
    let s := s.alignFeed (1 + input) stamp
    let falling := s.n (Obj.refin_edge input) == 1
    .next ((List.finRange 16).foldl (fun (s : State) (c : Fin 16) =>
      if s.nn (Obj.cap_input c) = 1 + input then s.capPush c stamp falling else s) s)

end Sys2Proof.Machine
end

