-- ==== Sys2Proof/Machine/Modes.lean ====
section
/-! DEFINITION. The mode machine (R64-R70): transitions, status pins, the timing condition; owner steps (R96); the
alignment of Snowdrop (R72). -/

namespace Sys2Proof.Machine

/-- The codes of R64; CELLAR has none and counts as 0 in the journal. -/
def Mode.code : Mode → Nat
  | .cellar => 0
  | .steep => 1
  | .mash => 2
  | .tap => 3
  | .lager => 4
  | .flat => 5
  | .sparge => 6
  | .kiln => 7

/-- The mode a timing condition names (R65). -/
def conditionMode (c : Int) : Mode :=
  if c = 2 then .tap else if c = 3 then .lager else if c = 4 then .flat else .mash

/-- The mode follows the timing condition (R65). -/
def Mode.follows : Mode → Bool
  | .mash | .tap | .lager | .flat => true
  | _ => false

/-- The states of the status pins (R68). -/
def State.pinsNow (s : State) : StatusPins :=
  let c := s.n Obj.timing_condition
  let level := fun b : Bool => if b then Pin.high else Pin.low
  let alarm := fun b : Bool => if b then Pin.low else Pin.highZ
  let refok := level s.anyQualified
  let holdn := level !(c == 3 || c == 4)
  match s.mode.cur with
  | .cellar =>
    if s.mode.cellarIdled then { mode := none, refok := .low, holdn := .high, alarmn := .low }
    else { mode := none, refok := .unpowered, holdn := .unpowered, alarmn := .unpowered }
  | .steep => { mode := some 1, refok := .low, holdn := .high, alarmn := alarm (c == 0) }
  | .mash => { mode := some 2, refok, holdn := .high, alarmn := alarm (c == 0) }
  | .tap => { mode := some 3, refok := .high, holdn := .high, alarmn := .highZ }
  | .lager => { mode := some 4, refok, holdn := .low, alarmn := .highZ }
  | .flat => { mode := some 5, refok, holdn := .low, alarmn := alarm !(s.flag Obj.serve_in_flat) }
  | .sparge => { mode := some 6, refok, holdn, alarmn := alarm (c == 0 || c == 4) }
  | .kiln => { mode := some 7, refok := .low, holdn := .high, alarmn := .low }

/-- The pins take the state of the mode (R68). -/
def State.drivePins (s : State) : State := { s with mode := { s.mode with pins := s.pinsNow } }

/-- Move to a mode (R66), journalled with code 0x1001 and its cause (R84). A mash_timeout that has expired is still taken at the
interval's evaluation when SPARGE was entered within the interval (R67). -/
def State.setMode (s : State) (m : Mode) (cause : Nat) : State :=
  let before := s.mode.cur
  let c := s.n Obj.timing_condition
  let s : State := { s with mode := { s.mode with cur := m, mashSince := if m = .mash then some s.now else none,
                                                  mashExpired := s.mode.mashExpired && (m.follows || m == .sparge) } }
  let s := (s.bump Obj.mode_change_count).putN Obj.mode_entry_time (if c = 0 then 0 else s.time)
  (s.log 0 0x1001 (be 1 before.code ++ be 1 m.code ++ be 1 c ++ be 1 cause)).drivePins

/-- Set the timing condition; in MASH, TAP, LAGER and FLAT the mode follows it (R65, R66). -/
def State.setCondition (s : State) (c : Int) : State :=
  let s := s.putN Obj.timing_condition c
  if s.mode.cur.follows && s.mode.cur != conditionMode c then s.setMode (conditionMode c) 0 else s

/-- The holdover bound is beyond the budget. -/
def State.overBudget (s : State) : Bool := decide (s.n Obj.holdover_budget * 10 ^ 9 * boundDen < s.hold.bound)

/-- The budget crossing (R148): out_of_spec, code 0x2104, condition 4. -/
def State.crossBudget (s : State) : State :=
  let s := (s.putB Obj.out_of_spec true).log 0 0x2104 (durToBytes s.hold.boundNs)
  s.setCondition 4

/-- Loss of the last qualified slot (R66, R67): from condition 2 to holdover, or beyond budget at once. -/
def State.takeLoss (s : State) : State :=
  let lost := s.mode.lossSeen
  let s : State := { s with mode := { s.mode with lossSeen := false } }
  if s.n Obj.timing_condition = 2 ∧ (lost ∨ s.loops[0].state ≠ .locked) then
    if s.overBudget then
      ((s.putB Obj.out_of_spec true).log 0 0x2104 (durToBytes s.hold.boundNs)).setCondition 4
    else s.setCondition 3
  else s

/-- Lock (R65, R148): condition 2 while DPLL-T is locked. -/
def State.takeLock (s : State) : State :=
  if s.loops[0].state = .locked ∧ s.n Obj.timing_condition ≠ 2 then
    let s : State := { s with mode := { s.mode with everLocked := true, flatFromMash := false } }
    (s.putB Obj.out_of_spec false).setCondition 2
  else s

/-- mash_timeout expiry in condition 0 or 1 (R66, R67). -/
def State.takeMash (s : State) : State :=
  let c := s.n Obj.timing_condition
  let due := s.mode.mashExpired
  let s : State := { s with mode := { s.mode with mashExpired := false } }
  if due ∧ (c = 0 ∨ c = 1) then
    let s : State := { s with mode := { s.mode with flatFromMash := true } }
    s.setCondition 4
  else s

/-- TIMING_CONDITION_EVALUATE (R67): every 100 µs the bound grows, the events of the interval are taken in order, the
pins and the outputs' holds follow. -/
def execTimingConditionEvaluate (s : State) : Host.Outcome State Fault Refusal :=
  if !s.awake 2 then .next s
  else
    let s := s.growBound.takeLoss
    let s := if s.n Obj.timing_condition = 3 ∧ s.overBudget then s.crossBudget else s
    .next s.takeLock.takeMash.drivePins.evalOuts

/-- MASH_TIMEOUT (R66): the timeout is taken at the next evaluation. -/
def execMashTimeout (s : State) : Host.Outcome State Fault Refusal :=
  let t := s.nn Obj.mash_timeout
  match s.mode.mashSince with
  | some t0 =>
    let c := s.n Obj.timing_condition
    if t ≠ 0 ∧ t0 + ticksS t ≤ s.now ∧ (c = 0 ∨ c = 1) then
      .next { s with mode := { s.mode with mashExpired := true, mashSince := none } }
    else .next s
  | none => .next s

/-- The owner step that a scheduled commit holds, ns. -/
def Sched.stepAmount (c : Sched) : Option Int :=
  (c.items.find? fun x => x.key == Obj.step_amount).bind fun x => match x.val with | .num a => some a | .oct _ => none

/-- The earlier of two scheduled owner steps; of two of one time the one accepted first. -/
def earlierStep (a b : Sched × Int) : Sched × Int := if b.1.time < a.1.time then b else a

/-- The scheduled commit whose owner step comes first, and its amount. -/
def State.nextStep (s : State) : Option (Sched × Int) :=
  match s.sched.filterMap fun c => c.stepAmount.map fun a => (c, a) with
  | [] => none
  | x :: l => some (l.foldl earlierStep x)

/-- The segment of the next scheduled owner step is fixed 2060 ticks before it starts, at the first whole tick whose device time
is at or after the scheduled time (R91, R245). -/
def State.reserveSteps (s : State) : State :=
  match s.tb.issued, s.nextStep with
  | none, some (c, a) =>
    let tick := s.tb.newest.tickReaching c.time (s.tb.newest.start / 256 + 1)
    if s.tb.running && s.rateOnly && s.tb.raw < tick && tick ≤ s.tb.raw + 2060 then
      s.reserveStep c.id (.ownerStep (a * 65536) c.session) tick
    else s
  | _, _ => s

/-- An owner step (R96): in RATE_ONLY a step segment with the amount; in a holdover episode the bound grows by its
magnitude (R148). That of a scheduled commit has been fixed ahead (`due`). -/
def State.ownerStep (s : State) (amount : Int) (session : Nat) (due : Option Int := none) : State :=
  let s : State := if s.hold.episode then
      { s with hold := { s.hold with bound := s.hold.bound + (amount.natAbs : Int) * 10 ^ 9 * boundDen } }
    else s
  let k := SegKind.ownerStep (amount * 65536) session
  match due, s.tb.reserved with
  | some _, some r => s.takeReserved r
  | _, _ => s.requestSegment k

/-- The values step_amount accepts, ns (R96). -/
def State.stepOk (s : State) (amount : Int) : Bool :=
  amount != 0 && decide (amount.natAbs ≤ 4294967296000000000) && decide (0 ≤ s.time + amount * 65536)

/-- STEP (R96): an immediate commit of step_amount, in ns, by a session. -/
def execStep (amount : Int) (session : Nat) (s : State) : Host.Outcome State Fault Refusal :=
  if s.rateOnly ∧ s.stepOk amount then .next (s.ownerStep amount session) else .next s

/-- The uncertainty of device time, ns, that Snowdrop takes over at an alignment (R72), half to even (R11): the bound in
conditions 1, 3 and 4, else the reference's uncertainty and the loop's phase error. -/
def State.currentUncertainty (s : State) : Int :=
  let c := s.n Obj.timing_condition
  if c = 2 then s.n Obj.ref_uncertainty + rneDiv (s.loops[0].phaseErr.natAbs : Int) 65536
  else s.hold.boundNs

/-- One keep-clock period, 1/32768 s in ns, half to even (R72, R11). -/
def keepPeriodNs : Int := 30518

/-- Align Snowdrop's coarse time to device time (R72). -/
def State.alignSnowdrop (s : State) : State :=
  if s.timeValid then
    { s with keep := { s.keep with coarseValid := true, coarse := s.time, alignedAt := s.now,
                                   uncAtAlign := s.currentUncertainty + keepPeriodNs } }
  else s

/-- Snowdrop's coarse time now (R72): it runs on the keep clock from the last alignment. -/
def State.coarseNow (s : State) : Int :=
  s.keep.coarse + rneDiv (((s.now : Int) - s.keep.alignedAt) * 262144) 5 + Config.keepDrift s.keep.alignedAt s.now

/-- Snowdrop's uncertainty now, ns, half to even (R72, R11). -/
def State.coarseUnc (s : State) : Int :=
  s.keep.uncAtAlign + rneDiv (s.keep.driftBound * ((s.now : Int) - s.keep.alignedAt) * 4) (5 * 10 ^ 9)

/-- SNOWDROP_ALIGN (R72): once per second while main supply runs. -/
def execSnowdropAlign (s : State) : Host.Outcome State Fault Refusal :=
  if s.keep.mainGood && s.awake 2 && s.mode.cur != .cellar then .next s.alignSnowdrop else .next s

end Sys2Proof.Machine
end

