-- ==== Sys2Proof/Machine/Served.lean ====
section
/-! DEFINITION. The served quality (R75, R295, R314, R315, R321, R322). -/

namespace Sys2Proof.Machine

/-- FLAT with device time unseeded (R75). -/
def State.flatUnseeded (s : State) : Bool := s.n Obj.timing_condition == 4 && !s.timeValid

/-- The root-dispersion basis in 2^-16 ns (R322); none in condition 0. -/
def State.dispersionBasis (s : State) : Option Int :=
  match s.n Obj.timing_condition with
  | 1 => some (s.timeUncertainty * 65536)
  | 2 => some (s.n Obj.ref_uncertainty * 65536 + s.loops[0].phaseErr.natAbs)
  | 3 => some (s.hold.boundNs * 65536)
  | 4 => some ((if s.mode.everLocked then s.hold.boundNs else s.timeUncertainty) * 65536)
  | _ => none

/-- Stratum 16: condition 0, unseeded FLAT, and FLAT without serve_in_flat (R75). -/
def State.unserved (s : State) : Bool :=
  let c := s.n Obj.timing_condition
  c == 0 || s.flatUnseeded || (c == 4 && !s.flag Obj.serve_in_flat)

/-- The instant of a past elapsed tick in device time. -/
def State.timeOfElapsed (s : State) (t : Nat) : Int := s.convert ((s.tb.raw - (s.now - t)) * 256)

/-- The reference timestamp (R321). -/
def State.referenceTime (s : State) : Int :=
  match s.n Obj.timing_condition with
  | 2 => match s.loops[0].lastStamp with | some k => s.convert k | none => 0
  | 3 | 4 => if s.hold.fromSeed then s.tb.seedTime else s.timeOfElapsed s.hold.start
  | 1 => s.tb.seedTime
  | _ => 0

/-- The name of a satellite system (R186, R321). -/
def systemName : Nat → Bytes
  | 1 => [71, 80, 83, 0]
  | 2 => [71, 65, 76, 0]
  | 3 => [66, 68, 83, 0]
  | _ => [81, 90, 83, 83]

/-- The reference ID (R321). -/
def State.referenceId (s : State) : Bytes :=
  let c := s.n Obj.timing_condition
  let locl : Bytes := [76, 79, 67, 76]
  let sky := systemName (s.nn Obj.sky_ref_system)
  let seeded := if s.nn Obj.seed_source = 2 then sky else locl
  if s.unserved then (if c = 0 then [73, 78, 73, 84] else locl)
  else if c = 1 then seeded
  else
    match s.selT.lastActive with
    | none => seeded
    | some i =>
      match s.kind i with
      | 6 => sky
      | 5 => [80, 84, 80, 0]
      | 1 | 2 | 3 => [80, 80, 83, 0]
      | _ => locl

/-- Root delay in ns (R321). -/
def State.rootDelay (s : State) : Int :=
  match s.n Obj.timing_condition, s.selT.active with
  | 2, some i => if s.kind i = 5 then 2 * s.n (Obj.mean_path_delay (s.number i)) else 0
  | _, _ => 0

/-- The limits of the clockAccuracy codes from 0x17 to 0x30 in 0.1 ps (IEEE 1588-2019). -/
def accuracyLimits : List Nat :=
  [10, 25, 100, 250, 1000, 2500, 10000, 25000, 100000, 250000, 1000000, 2500000, 10000000, 25000000, 100000000, 250000000,
   1000000000, 2500000000, 10000000000, 25000000000, 100000000000, 250000000000, 1000000000000, 2500000000000,
   10000000000000, 100000000000000]

/-- clockAccuracy (R315): the smallest code whose limit is at least the basis; 0xFE in condition 0. -/
def State.clockAccuracy (s : State) : Nat :=
  match s.dispersionBasis with
  | none => 0xFE
  | some u => 0x17 + (accuracyLimits.findIdx fun (l : Nat) => u * 10000 ≤ (l : Int) * 65536)

/-- clockClass of a profile (R314). -/
def State.clockClass (s : State) (profile : Nat) : Nat :=
  let c := s.n Obj.timing_condition
  if s.mode.cur = .steep || s.mode.cur = .mash || c = 0 || c = 1 then 248
  else if c = 2 then 6
  else if c = 3 then 7
  else if s.flatUnseeded then 248
  else if profile = 2 || profile = 3 then
    if !s.mode.everLocked || s.hold.assist.isNone then 248
    else
      match s.selF.active with
      | none => 248
      | some i => let q := s.effQuality i
                  if q ≤ 64 then 140 else if q ≤ 96 then 150 else if q ≤ 128 then 160 else 248
  else if profile = 6 && !s.mode.everLocked then 248
  else 52

/-- Announce is withheld: class 248 in STEEP or MASH, unseeded FLAT (R75, R314). -/
def State.announceWithheld (s : State) : Bool :=
  s.mode.cur = .steep || s.mode.cur = .mash || s.n Obj.timing_condition == 0 || s.n Obj.timing_condition == 1 || s.flatUnseeded

/-- offsetScaledLogVariance (R315): in TAP, whose quality SPARGE in condition 2 has too (R75). -/
def State.scaledVariance (s : State) : Nat :=
  if s.n Obj.timing_condition = 2 && (s.mode.cur = .tap || s.mode.cur = .sparge) then 0x4E5D else 0xFFFF

/-- The 32 bytes of the served-state window (R295). Root dispersion in condition 0 is not stated: a free value. -/
def State.servedState (s : State) : Bytes :=
  let un := s.unserved
  let li := if un then 3 else s.leapIndicator
  let disp := match s.dispersionBasis with
    | some u => beNat 4 (ntpShort (max (unitsToNs u) (s.n Obj.ntp_min_dispersion)))
    | none => field (Config.freeBytes s.freeIdx 4) 0 4
  let rt := s.ntpOf s.referenceTime
  let ref := if s.n Obj.timing_condition = 0 then List.replicate 8 0 else beNat 4 rt.1 ++ beNat 4 rt.2.1
  beNat 1 (li * 64) ++ beNat 1 (if un then 16 else 1) ++ be 1 (-29) ++ [0] ++ beNat 4 (ntpShort s.rootDelay) ++ disp
    ++ s.referenceId ++ ref ++ beNat 1 (s.clockClass 0) ++ beNat 1 s.clockAccuracy ++ beNat 2 s.scaledVariance
    ++ be 2 (s.utcOffsetAt s.time) ++ beNat 1 s.mode.cur.code ++ be 1 (s.n Obj.timing_condition)

end Sys2Proof.Machine
end

