-- ==== Sys2Proof/Machine/Ptp.lean ====
section
/-! DEFINITION. PTP instances (R310-R319): configuration, messages, the best time transmitter, delays, unicast and
management. -/

namespace Sys2Proof.Machine

/-! ## Configuration (R310, R313) -/

/-- The profile measures by peer delay (R313). -/
def State.isP2p (s : State) (i : Fin 4) : Bool := s.profile i == 1 || s.profile i == 6

/-- An instance is two-step: configured, or with integrated security (R316, R319). -/
def State.twoStep (s : State) (i : Fin 4) : Bool := s.flag (Obj.two_step i) || s.nn (Obj.sec_mode i) != 0

/-- A port's identity (R310). -/
def State.portId (s : State) (n : Nat) : Bytes := s.clockId ++ beNat 2 (n + 1)

def State.sdo (s : State) (i : Fin 4) : Nat := if s.profile i = 6 then 1 else 0

/-- The transport a frame carries PTP on: 0 L2, 1 IPv4, 2 IPv6. -/
def transportOf (h : Headers) : Nat := if h.v4 then 1 else if h.v6 then 2 else 0

/-- The enabled instance a PTP message belongs to (R310): port, transport, majorSdoId, domainNumber. -/
def State.instOf (s : State) (n : Nat) (tr : Nat) (msg : Bytes) : Option (Fin 4) :=
  (List.finRange 4).find? fun i => s.member i n && (if s.profile i = 2 || s.profile i = 6 then 0 else s.nn (Obj.transport i)) == tr
    && fieldN msg 0 1 / 16 == s.sdo i && fieldN msg 4 1 == s.domain i

/-! ## Frames and messages (R315, R316) -/

/-- The IPv6 UDP checksum of a datagram. -/
def udpSum6 (src dst udp : Bytes) : Nat :=
  let c := not16 (fold16 (sum16 (src ++ dst ++ beNat 4 udp.length ++ [0, 0, 0, 17] ++ udp)))
  if c = 0 then 0xFFFF else c

/-- Headers with a payload: the lengths and checksums follow the payload; over IPv4 the UDP checksum is 0. -/
def wrap (hdr msg : Bytes) : Bytes :=
  let h := txHeaders (hdr ++ msg)
  if h.v4 then
    let b := patch hdr (h.l3 + 2) (beNat 2 (hdr.length - h.l3 + msg.length))
    let b := patch b (h.l4 + 4) (beNat 2 (8 + msg.length) ++ [0, 0])
    patch b (h.l3 + 10) (beNat 2 (ipv4Sum b h.l3)) ++ msg
  else if h.v6 then
    let b := patch hdr (h.l3 + 4) (beNat 2 (8 + msg.length))
    let b := patch b (h.l4 + 4) (beNat 2 (8 + msg.length) ++ [0, 0])
    patch b (h.l4 + 6) (beNat 2 (udpSum6 (field b (h.l3 + 8) 16) (field b (h.l3 + 24) 16) (b.drop h.l4 ++ msg))) ++ msg
  else hdr ++ msg

/-- Ethernet, IP and UDP headers from the device to an address. -/
def State.ipHeader (n : Nat) (v6 : Bool) (mac dst : Bytes) (src : Bytes) (port : Nat) : Bytes :=
  let udp := beNat 2 port ++ beNat 2 port ++ [0, 8, 0, 0]
  let own := field (Config.deviceAddress n v6) 0 (if v6 then 16 else 4)
  if v6 then mac ++ src ++ [0x86, 0xDD, 0x60, 0, 0, 0, 0, 0, 17, 64] ++ own ++ dst ++ udp
  else mac ++ src ++ [0x08, 0x00, 0x45, 0, 0, 0, 0, 0, 0, 0, 64, 17, 0, 0] ++ own ++ dst ++ udp

/-- The headers of a multicast message of an instance: L2 with the profile's address, or UDP to the PTP groups. -/
def State.multicastHeader (s : State) (i : Fin 4) (n : Nat) (event peer : Bool) : Bytes :=
  let src := s.octs Obj.inband_mac
  let l2 := s.profile i = 2 || s.profile i = 6 || s.nn (Obj.transport i) = 0
  if l2 then
    let near := peer || s.profile i = 6 || (s.profile i = 2 && s.nn (Obj.rx_mac_mode i) = 1)
    (if near then [0x01, 0x80, 0xC2, 0, 0, 0x0E] else [0x01, 0x1B, 0x19, 0, 0, 0]) ++ src ++ [0x88, 0xF7]
  else
    let port := if event then 319 else 320
    if s.nn (Obj.transport i) = 1 then
      State.ipHeader n false [0x01, 0, 0x5E, 0, if peer then 0 else 1, if peer then 0x6B else 0x81]
        [224, 0, if peer then 0 else 1, if peer then 107 else 129] src port
    else
      let dst := [0xFF, if peer then 2 else 0x0E] ++ List.replicate 11 0 ++ [0, if peer then 0 else 1, if peer then 0x6B else 0x81]
      State.ipHeader n true [0x33, 0x33, 0, 0, if peer then 0 else 1, if peer then 0x6B else 0x81] dst src port

/-- The headers of a unicast message to an address held as R273 holds it. -/
def State.unicastHeader (s : State) (n : Nat) (flags : Nat) (addr : Bytes) (event : Bool) : Bytes :=
  let src := s.octs Obj.inband_mac
  let port := if event then 319 else 320
  if bit flags 4 then addr.drop 10 ++ src ++ [0x88, 0xF7]
  else if bit flags 7 then State.ipHeader n true (field (Config.nextHop n addr) 0 6) addr src port
  else State.ipHeader n false (field (Config.nextHop n (addr.drop 12)) 0 6) (addr.drop 12) src port

/-- A reply's headers: the request's with addresses exchanged, UDP ports set. -/
def replyHeader (p : Pkt) (port : Nat) : Bytes :=
  let b := p.data
  let b := patch b 0 (field p.data 6 6 ++ field p.data 0 6)
  let b := if p.l3 = 0xFFFF then b
    else if p.v6 then patch b (p.l3 + 7) ([64] ++ field p.data (p.l3 + 24) 16 ++ field p.data (p.l3 + 8) 16)
    else patch (patch b (p.l3 + 8) [64]) (p.l3 + 12) (field p.data (p.l3 + 16) 4 ++ field p.data (p.l3 + 12) 4)
  let b := if p.l4 = 0xFFFF then b else patch b p.l4 (beNat 2 port ++ beNat 2 port)
  b.take p.payload

/-- The flag field's second byte (R315). -/
def State.timeFlags (s : State) : Nat :=
  let c := s.n Obj.timing_condition
  let d := s.n Obj.leap_delta
  let ahead : Int := s.n Obj.leap_time - s.time
  let l61 := d = 1 && ahead ≤ 86400 * unitsPerS
  let l59 := d = -1 && ahead ≤ 86399 * unitsPerS
  let freq := c = 2 || c = 3 || (c = 4 && s.hold.assist.isSome && (match s.selF.active with | some i => s.effQuality i ≤ 64 | none => false))
  (if l61 then 1 else 0) + (if l59 then 2 else 0) + (if 2 ≤ c then 4 else 0) + 8 + (if c = 2 || c = 3 then 16 else 0) + (if freq then 32 else 0)

/-- controlField of a message type. -/
def controlField : Nat → Nat
  | 0 => 0 | 1 => 1 | 8 => 2 | 9 => 3 | 13 => 4 | _ => 5

/-- A PTP header of 34 bytes followed by a body. -/
def State.ptpMessage (s : State) (i : Fin 4) (n type : Nat) (flags0 : Nat) (corr : Int) (seq : Nat) (log : Int) (body : Bytes) : Bytes :=
  beNat 1 (s.sdo i * 16 + type) ++ [0x12] ++ beNat 2 (34 + body.length) ++ beNat 1 (s.domain i) ++ [0] ++ beNat 1 flags0
    ++ beNat 1 (if type = 11 then s.timeFlags else 8) ++ be 8 corr ++ List.replicate 4 0 ++ s.portId n ++ beNat 2 seq
    ++ beNat 1 (controlField type) ++ be 1 log ++ body

/-- The security association's key as key RAM holds it, slot 11 + instance (R319, R350): zero where it is zeroised. -/
def State.secKey (s : State) (i : Fin 4) : Bytes :=
  ((s.sec.keySlots.find? fun p => p.1 == 11 + i.val).map fun p => p.2).getD (List.replicate 32 0)

/-- Integrated security (R319): the AUTHENTICATION TLV with its HMAC-SHA256-128 is appended to a covered message. -/
def State.secured (s : State) (i : Fin 4) (msg : Bytes) : Bytes :=
  if s.nn (Obj.sec_mode i) = 0 then msg
  else
    let m := patch msg 2 (beNat 2 (msg.length + 26)) ++ [0x80, 0x09, 0, 22] ++ beNat 1 (s.nn (Obj.sec_spp i)) ++ [0]
      ++ beNat 4 (s.nn (Obj.sec_key_id i))
    m ++ field (hmacSha256 (s.secKey i) m) 0 16

/-- The security verdict on a covered message (R319): accepted, or discarded for a failed or missing TLV; whether the ICV
failed. -/
def State.secCheck (s : State) (i : Fin 4) (msg : Bytes) : Bool × Bool :=
  if s.nn (Obj.sec_mode i) = 0 then (true, false)
  else
    -- the TLV ends the message, as messageLength gives its end
    let len := fieldN msg 2 2
    let k := len - 26
    let has := 34 + 26 ≤ len && len ≤ msg.length && fieldN msg k 2 = 0x8009
    if !has then (s.nn (Obj.sec_mode i) = 1, false)
    else
      let ok := fieldN msg (k + 4) 1 = s.nn (Obj.sec_spp i) && fieldN msg (k + 6) 4 = s.nn (Obj.sec_key_id i)
        && field msg (k + 10) 16 == field (hmacSha256 (s.secKey i) (msg.take (k + 10))) 0 16
      (ok, !ok)

/-- Apply the security verdict: whether the message is accepted. -/
def State.secured? (s : State) (i : Fin 4) (msg : Bytes) : Bool × State :=
  match s.secCheck i msg with
  | (true, _) => (true, s)
  | (false, icv) =>
    let s := s.bump (Obj.program_counters 13)
    let s := if !icv then s
      else
        let s := s.bump (Obj.sec_icv_fail i)
        if s.prot.insts[i].icvSec = some s.second then s
        else (s.setInst i { s.prot.insts[i] with icvSec := some s.second }).logSec 0x5403
          (beNat 1 i ++ beNat 2 (fieldN msg 0 1 % 16))
    (false, s)

/-- The priority1 of the instance's own data set: 128 in profiles 2 and 3 (R315). -/
def State.ownPriority1 (s : State) (i : Fin 4) : Nat :=
  if s.profile i = 2 || s.profile i = 3 then 128 else s.nn (Obj.priority1 i)

/-- The data set an instance announces (R315): the parent's in TAP with DPLL-T on a slot of kind 5, else its own. -/
def State.announced (s : State) (i : Fin 4) : AnnData :=
  let prof := s.profile i
  let own : AnnData :=
    { prio1 := s.ownPriority1 i, cls := s.clockClass prof, acc := s.clockAccuracy,
      var := s.scaledVariance, prio2 := s.nn (Obj.priority2 i), gm := s.clockId, steps := 0, sender := s.portId 0,
      timeSource := s.rafSource, utc := s.utcOffsetAt s.time, flags := s.timeFlags }
  match s.n Obj.timing_condition, s.selT.active with
  | 2, some k =>
    if s.kind k ≠ 5 then own
    else
      match s.prot.insts[(⟨s.number k % 4, Nat.mod_lt _ (by decide)⟩ : Fin 4)].parent with
      | some p => { own with prio1 := p.prio1, cls := p.cls, acc := p.acc, var := p.var, prio2 := p.prio2, gm := p.gm,
                             steps := p.steps + 1, timeSource := p.timeSource }
      | none => own
  | _, _ => own

/-- The body of an Announce. -/
def AnnData.body (d : AnnData) : Bytes :=
  List.replicate 10 0 ++ be 2 d.utc ++ [0] ++ beNat 1 d.prio1 ++ beNat 1 d.cls ++ beNat 1 d.acc ++ beNat 2 d.var ++ beNat 1 d.prio2
    ++ d.gm ++ beNat 2 d.steps ++ beNat 1 d.timeSource

/-- An Announce message as data. -/
def annOf (msg : Bytes) : AnnData :=
  { prio1 := fieldN msg 47 1, cls := fieldN msg 48 1, acc := fieldN msg 49 1, var := fieldN msg 50 2, prio2 := fieldN msg 52 1,
    gm := field msg 53 8, steps := fieldN msg 61 2, sender := field msg 20 10, timeSource := fieldN msg 63 1,
    utc := signed 16 (fieldN msg 44 2), flags := fieldN msg 7 1 }

/-! ## Roles (R311, R312) and the best time transmitter -/

/-- Peer delay allows a port to operate: the mean link delay is valid, and an 802.1AS port is asCapable (R316). -/
def State.delayGood (s : State) (i : Fin 4) (n : Nat) : Bool :=
  let x := s.ptpPort i n
  !s.isP2p i || (s.nn (Obj.pdelay_valid i) ≤ x.pdelayGood
    && (s.profile i != 6 || x.linkDelay ≤ s.n (Obj.neighbor_prop_thresh i) * 65536))

/-- The mode lets time-transmitter ports operate and answer unicast requests (R312): TAP, LAGER, FLAT and SPARGE in those
conditions, seeded. -/
def State.transmitMode (s : State) : Bool :=
  let c := s.n Obj.timing_condition
  (match s.mode.cur with | .tap | .lager | .flat => true | .sparge => 2 ≤ c | _ => false) && !s.flatUnseeded

/-- Time-transmitter ports operate (R312): the mode allows it and the port's link is free of R252's hold. -/
def State.transmits (s : State) (i : Fin 4) (n : Fin 64) : Bool :=
  s.member i n && s.nn (Obj.instance_role i) != 2 && s.nn (Obj.port_state i n) == ptpTransmitter && s.transmitMode
    && s.linkUp n && !s.ports[n].ptpHold && s.delayGood i n

/-- A port of a peer-delay instance takes part in the exchange (R312, R316): never in STEEP; in MASH and in unseeded FLAT, where
time-transmitter ports send nothing, only in the time-receiver role. -/
def State.answersPeer (s : State) (i : Fin 4) (n : Fin 64) : Bool :=
  s.isP2p i && s.member i n && s.mode.cur ≠ .steep && s.linkUp n
    && (s.transmitMode || s.nn (Obj.port_state i n) != ptpTransmitter)

/-- Time-receiver ports operate (R312); one of 802.1AS while it is asCapable (R316). -/
def State.receives (s : State) (i : Fin 4) (n : Nat) : Bool :=
  s.member i n && s.nn (Obj.instance_role i) != 0 && s.mode.cur ≠ .steep && s.linkUp n && (s.profile i != 6 || s.delayGood i n)

/-- Lexicographic comparison of number lists: the first is smaller. -/
def lexLess : List Nat → List Nat → Bool
  | a :: x, b :: y => a < b || (a = b && lexLess x y)
  | _, _ => false

/-- The order of a data set: IEEE 1588-2019 clause 9.3, or the alternate order of G.8275 with localPriority. -/
def rankOf (alternate : Bool) (localPriority : Nat) (d : AnnData) : List Nat :=
  if alternate then
    [d.cls, d.acc, d.var, d.prio2, localPriority] ++ (if d.cls < 128 then [] else [ofBe d.gm]) ++ [d.steps, ofBe d.sender]
  else [d.prio1, d.cls, d.acc, d.var, d.prio2, ofBe d.gm, d.steps, ofBe d.sender]

/-- A foreign transmitter is qualified: two Announce messages within four intervals, or one for 802.1AS. -/
def State.foreignOk (s : State) (i : Fin 4) (f : Foreign) : Bool :=
  let w := 4 * logTicks (s.logAnnounce i)
  (if s.profile i = 6 then 1 else 2) ≤ (f.times.filter fun t => s.now ≤ t + w).length && f.data.steps < 255
    && f.data.sender.take 8 ≠ s.clockId

/-- The best foreign data set of a port with its rank. -/
def State.bestOn (s : State) (i : Fin 4) (n : Nat) : Option (List Nat × AnnData) :=
  let alt := s.profile i = 2 || s.profile i = 3
  if s.nn (Obj.link_state n) ≠ 3 then none
  else ((s.ptpPort i n).foreign.filter fun f => s.foreignOk i f).foldl (fun b f =>
    let r := rankOf alt (s.nn (Obj.port_local_priority i n)) f.data
    match b with | some (q, d) => if lexLess r q then some (r, f.data) else some (q, d) | none => some (r, f.data)) none

/-- The member ports of an instance. -/
def State.members (s : State) (i : Fin 4) : List Nat := (List.range 64).filter fun n => s.member i n

/-- The port with the best foreign data set of an instance. -/
def State.bestPort (s : State) (i : Fin 4) : Option (Nat × List Nat × AnnData) :=
  (s.members i).foldl (fun b n =>
    match s.bestOn i n, b with
    | none, b => b
    | some (r, d), none => some (n, r, d)
    | some (r, d), some (m, q, e) => if lexLess r q then some (n, r, d) else some (m, q, e)) none

/-- The state decision for a port (R311): `own` is the device's rank and class. -/
def State.decide9 (s : State) (i : Fin 4) (best : Option (Nat × List Nat × AnnData)) (n : Nat) : Nat :=
  let own := s.announced i
  let alt := s.profile i = 2 || s.profile i = 3
  let follows5 : Bool := match s.selT.active with | some k => s.kind k == 5 | none => false
  let cls := if follows5 then 248 else own.cls
  let rank := rankOf alt 128 { own with cls := cls, steps := 0, gm := s.clockId, prio1 := s.ownPriority1 i,
                                        prio2 := s.nn (Obj.priority2 i), sender := s.portId n }
  let role := s.nn (Obj.instance_role i)
  let transmit := if role = 2 then ptpListening else ptpTransmitter
  let as := s.profile i = 6
  -- LISTENING with no foreign data set lasts until the announce receipt timeout (clause 9.2.6, 9.3.3)
  let listens := s.nn (Obj.port_state i n) = ptpListening && (s.ptpPort i n).timeoutAt.isSome && (s.bestOn i n).isNone
  if s.nn (Obj.link_state n) ≠ 3 then s.ptpDown n
  else if role = 0 then ptpTransmitter
  else if listens then ptpListening
  else
    match best with
    | none => transmit
    | some (m, q, e) =>
      let here := s.bestOn i n
      -- clause 10.3 of 802.1AS has no such rule for a clockClass below 128
      if !as && cls < 128 && role ≠ 2 then
        match here with
        | some (r, _) => if lexLess r rank then ptpPassive else ptpTransmitter
        | none => ptpTransmitter
      else if lexLess rank q && role ≠ 2 then ptpTransmitter
      else if n = m then ptpReceiverState
      else
        match here with
        | none => transmit
        | some (r, d) =>
          -- 802.1AS: the vector this port would send against the one it receives; 1588: another path to the same grandmaster
          let sends := rankOf false 128 { e with steps := e.steps + 1, sender := s.portId n }
          if role = 2 then ptpListening
          else if as then (if lexLess sends r then ptpTransmitter else ptpPassive)
          else if d.gm = e.gm then ptpPassive else ptpTransmitter

/-- The parent of an instance: objects, code 0x5402, the quality of its slots (R116), which keep theirs where none is known
over a warm reset (R121). -/
def State.setParent (s : State) (i : Fin 4) (p : Option (Nat × AnnData)) : State :=
  let x := s.prot.insts[i]
  let newGm := (p.map fun q => q.2.gm).getD s.clockId
  let oldGm := (x.parent.map fun d => d.gm).getD s.clockId
  let at? := p.bind fun q => ((s.ptpPort i q.1).foreign.find? fun f => f.data.sender == q.2.sender).bind fun f => f.address
  let s := s.setInst i { x with parent := p.map fun q => q.2, parentAt := at? }
  let s := s.putN (Obj.receiver_port i) ((p.map fun q => q.1).getD 255)
  let s := (s.putO (Obj.parent_identity i) ((p.map fun q => q.2.sender).getD (s.portId 0))).putO (Obj.gm_identity i) newGm
  let s := if newGm = oldGm && (x.parent.map fun d => d.sender) == (p.map fun q => q.2.sender) then s else s.log 0 0x5402 (beNat 1 i ++ newGm)
  if p.isNone && s.mode.suspend5 then s
  else (s.slotsOn [5] i).foldl (fun (s : State) k =>
    (s.setSlot k { s.slots[k] with qualityReceived := s.instanceQuality k }).evalSlot k) s

/-- The leap announcement of a parent's flags as a schedule: at the end of the present UTC day (R100). DESIGN CHOICE (log
entry 148): an Announce with both flags clear states that no leap is scheduled, as R100 says of bit 4 of a Reference
Announcement Frame. -/
def State.leapOfFlags (s : State) (d : AnnData) : Option (Int × Int) :=
  let day := (s.time / unitsPerS - d.utc) / 86400
  if bit d.flags 0 then some (((day + 1) * 86400 + d.utc) * unitsPerS, 1)
  else if bit d.flags 1 then some (((day + 1) * 86400 + d.utc - 1) * unitsPerS, -1)
  else none

/-- Apply a state decision to a port (R311): a new parent makes it UNCALIBRATED until its time is measured, a transmitter that
steps down from another grandmaster is PRE_TIME_TRANSMITTER for as many Announce intervals as that one's steps and one more
(clause 9.2.6.11); `parent` is the decided one. 802.1AS has neither state. -/
def State.applyDecision (s : State) (i : Fin 4) (n v : Nat) (parent : Option AnnData) : State :=
  let old := s.nn (Obj.port_state i n)
  let x := s.ptpPort i n
  if s.profile i = 6 then s.setPtpState i n v
  else if v = ptpReceiverState then
    let same := (s.prot.insts[i].parent.map fun d => d.sender) == parent.map fun d => d.sender
    if same && s.followsParent i n then s else s.setPtpState i n ptpUncalibrated
  else if v = ptpTransmitter then
    match parent with
    | none => s.setPtpState i n v
    | some d =>
      if old = ptpTransmitter || old = ptpPreTransmitter then s
      else (s.setPtpPort i n { x with qualifyAt := some (s.now + (d.steps + 1) * logTicks (s.logAnnounce i)) }).setPtpState i n ptpPreTransmitter
  else s.setPtpState i n v

/-- The ports whose PRE_TIME_TRANSMITTER time is over transmit (R311). -/
def State.qualifyPorts (s : State) : State :=
  (List.finRange 4).foldl (fun (s : State) (i : Fin 4) =>
    s.prot.insts[i].ports.foldl (fun (s : State) p =>
      match p.2.qualifyAt with
      | some t =>
        if t ≤ s.now && s.nn (Obj.port_state i p.1) == ptpPreTransmitter then
          (s.setPtpPort i p.1 { s.ptpPort i p.1 with qualifyAt := none }).setPtpState i p.1 ptpTransmitter
        else s
      | none => s) s) s

/-- The state decisions of an instance (R311), with the adoption of the parent's UTC offset and leap (R100). -/
def State.runBmca (s : State) (i : Fin 4) : State :=
  let best := s.bestPort i
  let ds := (s.members i).map fun n => (n, s.decide9 i best n)
  let parent := if ds.any fun p => p.2 = ptpReceiverState then best.map fun b => b.2.2 else none
  let s := ds.foldl (fun (s : State) p => s.applyDecision i p.1 p.2 parent) s
  match ds.find? fun p => p.2 = ptpReceiverState, best with
  | some (n, _), some (_, _, d) =>
    let s := s.setParent i (some (n, d))
    let active : Bool := match s.selT.active with | some k => s.kind k == 5 && s.number k == i.val | none => false
    if active && bit d.flags 2 then s.adoptLeap d.utc (some (s.leapOfFlags d)) else s
  | _, _ => s.setParent i none

/-! ## Announce (R311, R313) -/

/-- The oldest frame on ring 4 whose PTP message has a type. -/
def State.takeRing4 (s : State) (type : Nat) : Option (Pkt × State) :=
  let x := s.ring 4
  match x.items.find? fun it => fieldN it.pkt.data it.pkt.payload 1 % 16 == type with
  | none => none
  | some it => some (it.pkt, (s.setRing 4 { x with items := x.items.erase it }).count 8 0x08)

/-- The transport of a frame in the packet buffer. -/
def Pkt.transport (p : Pkt) : Nat := if p.l3 = 0xFFFF then 0 else if p.v6 then 2 else 1

/-- The elapsed tick at which a frame arrived, from its ingress raw stamp (R79). -/
def State.arrival (s : State) (p : Pkt) : Nat := s.now - (s.tb.raw - p.stamp / 256)

/-- The unicast address a frame to one came from, as R273 holds it: address flags, bytes. -/
def Pkt.unicastFrom (p : Pkt) : Option (Nat × Bytes) :=
  if fieldN p.data 0 1 % 2 = 1 then none
  else let k := p.clientKey 2 0; some (fieldN k 1 1, field k 8 16)

/-- ANNOUNCE_RECEIVE (R79, R311): firmware takes the next Announce of ring 4 and runs the BMCA; the receipt timeout runs from
its ingress raw stamp. -/
def execAnnounceReceive (s : State) : Host.Outcome State Fault Refusal :=
  if !s.firmwareUp then .next s
  else
    match s.takeRing4 11 with
    | none => .next s
    | some (p, s) =>
      let msg := p.data.drop p.payload
      match s.instOf p.port p.transport msg with
      | none => .next (s.bump (Obj.program_counters 12))
      | some i =>
        let (ok, s) := s.secured? i msg
        if !ok then .next s
        else
          let d := annOf msg
          let x := s.ptpPort i p.port
          let old := x.foreign.find? fun f => f.data.sender == d.sender
          let times := (s.arrival p :: (old.map fun f => f.times).getD []).take 8
          let x := { x with foreign := { data := d, times, address := p.unicastFrom } :: x.foreign.filter (fun f => f.data.sender != d.sender),
                            timeoutAt := some (s.arrival p + s.nn (Obj.announce_timeout i) * logTicks (s.logAnnounce i)) }
          .next ((s.setPtpPort i p.port x).runBmca i)

/-- An Announce for an instance's port waits on ring 4. -/
def State.announceWaits (s : State) (i : Fin 4) (n : Nat) : Bool :=
  (s.ring 4).items.any fun it =>
    let msg := it.pkt.data.drop it.pkt.payload
    fieldN msg 0 1 % 16 == 11 && it.pkt.port == n && s.instOf n it.pkt.transport msg == some i

/-- ANNOUNCE_RECEIPT_TIMEOUT (R79, R313): announceReceiptTimeout expires on a port: its foreign data sets go. An Announce
that waits on ring 4 is evaluated first. -/
def execAnnounceReceiptTimeout (inst : Fin 4) (port : Fin 64) (s : State) : Host.Outcome State Fault Refusal :=
  let x := s.ptpPort inst port
  match x.timeoutAt with
  | none => .next s
  | some t =>
    if s.firmwareUp && t ≤ s.now && !s.announceWaits inst port then
      .next ((s.setPtpPort inst port { x with timeoutAt := none, foreign := [] }).runBmca inst)
    else .next s

/-! ## Messages firmware sends (R313, R316, R317, R318) -/

/-- Place a frame in the packet buffer with its egress descriptor's sequence, that of ring 128, 129 or 130 (R267); an
engine's emission is on no ring. -/
def State.describe (s : State) (ring : Nat) (f : EFrame) : EFrame × State :=
  let (buffer, s) := s.buffer f.data.length
  let v := s.serve
  match ring with
  | 128 => ({ f with buffer, seq := v.seq128 }, { s with serve := { v with seq128 := (v.seq128 + 1) % 2 ^ 32 } })
  | 129 => ({ f with buffer, seq := v.seq129 }, { s with serve := { v with seq129 := (v.seq129 + 1) % 2 ^ 32 } })
  | 130 => ({ f with buffer, seq := v.seq130 }, { s with serve := { v with seq130 := (v.seq130 + 1) % 2 ^ 32 } })
  | _ => ({ f with buffer }, s)

/-- Put a frame into a port's egress. -/
def State.toEgress (s : State) (n : Fin 64) (f : EFrame) : State :=
  let (f, s) := s.describe (if f.cls = 1 then 128 else if f.cls = 3 then 130 else 0) f
  s.setPort n { s.ports[n] with egress := s.ports[n].egress ++ [f] }

/-- Firmware posts an egress descriptor for a frame (R266). -/
def State.post (s : State) (n : Fin 64) (f : EFrame) : State := (s.toEgress n f).count 8 0x09

/-- Firmware posts frames on ring 129: they leave on the management port, or wait while serving is stopped (R266, R282). -/
def State.postMgmt (s : State) (l : List Bytes) : State :=
  let s : State := l.foldl (fun (s : State) b =>
    let (f, s) := s.describe 129 { cls := 3, data := b }
    ({ s with serve := { s.serve with ring129 := s.serve.ring129 ++ [f] } } : State).count 8 0x09) s
  if s.serve.stopped then s else s.release129

/-- The headers of an instance's event message to its parent: unicast where the parent announces to this device alone
(R313, R318), else multicast; and the first byte of the flag field. -/
def State.toParent (s : State) (i : Fin 4) (n : Nat) : Bytes × Nat :=
  match s.prot.insts[i].parentAt with
  | some (flags, addr) => (s.unicastHeader n flags addr true, 4)
  | none => (s.multicastHeader i n true false, 0)

/-- DELAY_REQ_SEND (R313): the periodic Delay_Req of a time-receiver port of an E2E instance. -/
def execDelayReqSend (inst : Fin 4) (port : Fin 64) (s : State) : Host.Outcome State Fault Refusal :=
  let x := s.ptpPort inst port
  if !(s.serveAwake && !s.serve.stopped && s.receives inst port && s.followsParent inst port
      && !s.isP2p inst && x.reqNext ≤ s.now) then .next s
  else
    let (hdr, flags) := s.toParent inst port
    let msg := s.ptpMessage inst port 1 flags 0 x.reqSeq 0x7F (List.replicate 10 0)
    let s := s.setPtpPort inst port { x with reqSeq := (x.reqSeq + 1) % 65536, reqNext := s.now + logTicks (s.logDelay inst), dl3 := none }
    .next (s.post port { cls := 3, data := wrap hdr msg, after := .request inst false })

/-- PDELAY_REQ_SEND (R316): the periodic Pdelay_Req of a member port of a peer-delay instance. -/
def execPdelayReqSend (inst : Fin 4) (port : Fin 64) (s : State) : Host.Outcome State Fault Refusal :=
  let x := s.ptpPort inst port
  if !(s.serveAwake && !s.serve.stopped && s.answersPeer inst port && x.pdelayNext ≤ s.now) then .next s
  else
    let msg := s.ptpMessage inst port 2 0 0 x.pdelaySeq 0x7F (List.replicate 20 0)
    let hdr := s.multicastHeader inst port true true
    let good := if x.pd1.isSome then 0 else x.pdelayGood
    let s := s.setPtpPort inst port { x with pdelaySeq := (x.pdelaySeq + 1) % 65536, pdelayNext := s.now + logTicks (s.logDelay inst),
                                             pd1 := none, pd24 := none, pdelayGood := good }
    .next (s.post port { cls := 3, data := wrap hdr msg, after := .request inst true })

/-- The data of a management GET (IEEE 1588-2019 clause 15): data set by managementId; none when not answered. -/
def State.managementData (s : State) (i : Fin 4) (n : Nat) (id : Nat) : Option Bytes :=
  let a := s.announced i
  match id with
  | 0x2000 => some ([if s.twoStep i then 1 else 0, 0] ++ beNat 2 64 ++ beNat 1 (s.ownPriority1 i) ++ beNat 1 (s.clockClass (s.profile i))
      ++ beNat 1 s.clockAccuracy ++ beNat 2 s.scaledVariance ++ beNat 1 (s.nn (Obj.priority2 i)) ++ s.clockId ++ beNat 1 (s.domain i) ++ [0])
  | 0x2001 =>
    let x := s.ptpPort i (s.nn (Obj.receiver_port i))
    let off : Int := match x.t2t1 with | some d => d - x.linkDelay | none => 0
    some (beNat 2 ((s.prot.insts[i].parent.map fun d => d.steps + 1).getD 0) ++ be 8 off ++ be 8 (s.n (Obj.mean_path_delay i) * 65536))
  | 0x2002 =>
    let p := s.prot.insts[i].parent
    some ((p.map fun d => d.sender).getD (s.portId 0) ++ [0, 0] ++ beNat 2 0xFFFF ++ beNat 4 0x7FFFFFFF ++ beNat 1 ((p.map fun d => d.prio1).getD a.prio1)
      ++ beNat 1 ((p.map fun d => d.cls).getD a.cls) ++ beNat 1 ((p.map fun d => d.acc).getD a.acc) ++ beNat 2 ((p.map fun d => d.var).getD a.var)
      ++ beNat 1 ((p.map fun d => d.prio2).getD a.prio2) ++ (p.map fun d => d.gm).getD s.clockId)
  | 0x2003 => some (be 2 a.utc ++ beNat 1 s.timeFlags ++ beNat 1 a.timeSource)
  | 0x2004 =>
    some (s.portId n ++ beNat 1 (s.nn (Obj.port_state i n)) ++ be 1 (s.logDelay i) ++ be 8 (if s.isP2p i then (s.ptpPort i n).linkDelay else 0)
      ++ be 1 (s.logAnnounce i) ++ beNat 1 (s.nn (Obj.announce_timeout i)) ++ be 1 (s.logSync i) ++ [if s.isP2p i then 2 else 1]
      ++ be 1 (s.logDelay i) ++ [0x02])
  | _ => none

/-- PTP_MANAGEMENT (R317): the next Management message of ring 4 is answered: GET with the data set, SET and COMMAND with
NOT_SUPPORTED. In STEEP no PTP message is sent (R74, R312). -/
def execPtpManagement (s : State) : Host.Outcome State Fault Refusal :=
  if !s.firmwareUp then .next s
  else
    match s.takeRing4 13 with
    | none => .next s
    | some (p, s) =>
      let msg := p.data.drop p.payload
      match s.instOf p.port p.transport msg with
      | none => .next (s.bump (Obj.program_counters 12))
      | some i =>
        let (ok, s) := s.secured? i msg
        let act := fieldN msg 46 1 % 16
        -- time-transmitter ports send nothing in MASH and in unseeded FLAT (R312)
        let silent := s.mode.cur = .steep || (!s.transmitMode && s.nn (Obj.port_state i p.port) == ptpTransmitter)
        if !ok || silent || !(act = 0 || act = 1 || act = 3) then .next s
        else
          if h : p.port < 64 then
            let id := fieldN msg 52 2
            let data := if act = 0 then s.managementData i p.port id else none
            let tlv := match data with
              | some d => [0, 1] ++ beNat 2 (2 + d.length) ++ beNat 2 id ++ d
              -- MANAGEMENT_ERROR_STATUS, NOT_SUPPORTED
              | none => [0, 2, 0, 8, 0, 6] ++ beNat 2 id ++ [0, 0, 0, 0]
            let body := field msg 20 10 ++ field msg 44 2 ++ beNat 1 (if act = 3 then 4 else 2) ++ [0] ++ tlv
            -- a multicast request is answered to the group from the device's own addresses, a unicast one to its sender
            let group := fieldN p.data 0 1 % 2 = 1
            let hdr := if group then s.multicastHeader i p.port false false else replyHeader p 320
            let reply := s.secured i (s.ptpMessage i p.port 13 (if group then 0 else 4) 0 (fieldN msg 30 2) 0x7F body)
            .next (s.post ⟨p.port, h⟩ { cls := 3, data := wrap hdr reply })
          else .next s

/-- masterLockingStatus (R317). -/
def State.lockingStatus (s : State) : Nat :=
  match s.mode.cur with
  | .tap => 4
  | .mash => 2
  | _ => if s.loops[0].state = .acquiring && s.loops[0].everLocked then 3 else if s.n Obj.timing_condition = 2 then 4 else 1

/-- SM_TLV_SEND (R317): once per second, the ST 2059-2 metadata TLV of a profile 4 time-transmitter port. -/
def execSmTlvSend (inst : Fin 4) (port : Fin 64) (s : State) : Host.Outcome State Fault Refusal :=
  let x := s.ptpPort inst port
  if !(s.firmwareUp && !s.serve.stopped && s.profile inst = 4 && s.transmits inst port && x.smNext ≤ s.now) then .next s
  else
    let d := s.n Obj.leap_delta
    let off := s.n (Obj.sm_local_offset inst)
    let data := [0x68, 0x97, 0xE8, 0, 0, 1] ++ List.replicate 8 0 ++ beNat 1 s.lockingStatus ++ [0] ++ be 4 off ++ be 4 d
      ++ be 6 (if d = 0 then 0 else s.n Obj.leap_time / unitsPerS) ++ List.replicate 18 0
    let body := List.replicate 10 0xFF ++ [0, 0, 3, 0] ++ [0, 3] ++ beNat 2 data.length ++ data
    let msg := s.secured inst (s.ptpMessage inst port 13 0 0 x.managementSeq 0x7F body)
    let s := s.setPtpPort inst port { x with smNext := s.now + ticksS 1, managementSeq := (x.managementSeq + 1) % 65536 }
    .next (s.post port { cls := 3, data := wrap (s.multicastHeader inst port false false) msg })

/-- UNICAST_RENEW (R318): a time-receiver asks for Announce from each address of unicast_masters, for Sync and Delay_Resp
from the parent only; again at half of the granted duration, or 8 s after a refusal. -/
def execUnicastRenew (inst : Fin 4) (master : Fin 4) (message : Nat) (s : State) : Host.Outcome State Fault Refusal :=
  let addr := s.octs (Obj.unicast_masters inst master)
  let x := s.prot.insts[inst]
  let due : Bool := match x.renewals.find? fun r => r.master == master.val && r.message == message with
    | some r => r.due ≤ s.now
    | none => true
  let n := s.nn (Obj.receiver_port inst)
  let allowed := message = 11 || ((message = 0 || message = 9) && n ≠ 255 && (x.parentAt.map fun a => a.2) == some addr)
  let port := if n ≠ 255 then some n else (s.members inst).head?
  match port with
  | none => .next s
  | some n =>
    if h : n < 64 then
      if !(s.serveAwake && !s.serve.stopped && s.unicastOn inst && s.receives inst n && addr.length = 16 && addr ≠ List.replicate 16 0 && due && allowed)
      then .next s
      else
        let v4 := addr.take 12 == List.replicate 10 0 ++ [0xFF, 0xFF]
        let log := if message = 11 then s.logAnnounce inst else if message = 0 then s.logSync inst else s.logDelay inst
        let tlv := [0, 4, 0, 6] ++ beNat 1 (message * 16) ++ be 1 log ++ beNat 4 (s.nn (Obj.grant_max_duration inst))
        let msg := s.secured inst (s.ptpMessage inst n 12 4 0 x.signalSeq 0x7F (List.replicate 10 0xFF ++ tlv))
        -- the answer brings the grant; until then the request is retried as after a refusal
        let r : Renewal := { master := master, message, due := s.now + ticksS 8 }
        let s := s.setInst inst { x with signalSeq := (x.signalSeq + 1) % 65536,
                                         renewals := r :: x.renewals.filter fun q => !(q.master == master.val && q.message == message) }
        .next (s.post ⟨n, h⟩ { cls := 3, data := wrap (s.unicastHeader n (if v4 then 0 else 128) addr false) msg })
    else .next s

end Sys2Proof.Machine
end

