-- ==== Sys2Proof/Machine/Link.lean ====
section
/-! DEFINITION. The Onlis Object Link's frames (R52-R54): responses, the paths they leave by, the response cache (R57). -/

namespace Sys2Proof.Machine

/-! ## Status codes (R54) -/

abbrev stOk : Nat := 0x00
abbrev stNoObject : Nat := 0x01
abbrev stDenied : Nat := 0x02
abbrev stNotOwner : Nat := 0x03
abbrev stType : Nat := 0x04
abbrev stRange : Nat := 0x05
abbrev stReserved : Nat := 0x06
abbrev stAsleep : Nat := 0x07
abbrev stTxnNone : Nat := 0x08
abbrev stTxnOpen : Nat := 0x09
abbrev stTxnFull : Nat := 0x0A
abbrev stConfirm : Nat := 0x0B
abbrev stGeneration : Nat := 0x0C
abbrev stPast : Nat := 0x0D
abbrev stFar : Nat := 0x0E
abbrev stSchedFull : Nat := 0x0F
abbrev stPersistBusy : Nat := 0x10
abbrev stConsistency : Nat := 0x11
abbrev stOwnerHeld : Nat := 0x12
abbrev stHandover : Nat := 0x13
abbrev stSessionLimit : Nat := 0x14
abbrev stAuthFailed : Nat := 0x15
abbrev stBusy : Nat := 0x16
abbrev stQuiesce : Nat := 0x17
abbrev stBulkRange : Nat := 0x18

/-! ## Frames (R52) -/

/-- The tag of a frame: HMAC-SHA-256 under the session's frame key, 32 zero bytes with session identifier 0. -/
def oolTag (key : Option Bytes) (body : Bytes) : Bytes :=
  match key with
  | some k => field (hmacSha256 k body) 0 32
  | none => List.replicate 32 0

/-- One response frame (R52). -/
def oolFrame (key : Option Bytes) (opcode id seq : Nat) (final : Bool) (status : Nat) (payload : Bytes) : Bytes :=
  let body := [0x4F, 0x4C, 0x01] ++ beNat 1 (opcode + 128) ++ beNat 4 id ++ beNat 8 seq ++ beNat 2 payload.length
    ++ [if final then 1 else 0] ++ beNat 1 status ++ payload
  body ++ oolTag key body

/-- The frames of a response: its payload in pieces of at most 1400 bytes, every frame but the last with flags bit 0
clear; `more` where further frames of the response follow later (R58). -/
def oolFrames (key : Option Bytes) (opcode id seq status : Nat) (more : Bool) : Nat → Bytes → List Bytes
  | 0, p => [oolFrame key opcode id seq (!more) status (p.take 1400)]
  | n + 1, p =>
    if p.length ≤ 1400 then [oolFrame key opcode id seq (!more) status p]
    else oolFrame key opcode id seq false status (p.take 1400) :: oolFrames key opcode id seq status more n (p.drop 1400)

/-- The response frames of a payload. -/
def oolResponse (key : Option Bytes) (opcode id seq status : Nat) (payload : Bytes) (more : Bool := false) : List Bytes :=
  oolFrames key opcode id seq status more (payload.length / 1400) payload

/-! ## Paths (R53, R61, R447) -/

/-- The headers of a request turned round, with a response as the UDP payload. -/
def turnRound (h : Headers) (hdr mac msg : Bytes) : Bytes :=
  let b := patch hdr 0 (field hdr 6 6 ++ mac)
  let b := patch b h.l4 (field hdr (h.l4 + 2) 2 ++ field hdr h.l4 2 ++ beNat 2 (8 + msg.length) ++ [0, 0])
  if h.v6 then
    let b := patch b (h.l3 + 4) (beNat 2 (8 + msg.length))
    let b := patch b (h.l3 + 7) ([64] ++ field hdr (h.l3 + 24) 16 ++ field hdr (h.l3 + 8) 16)
    patch b (h.l4 + 6) (beNat 2 (udpSum6 (field b (h.l3 + 8) 16) (field b (h.l3 + 24) 16) (b.drop h.l4 ++ msg))) ++ msg
  else
    let b := patch b (h.l3 + 2) (beNat 2 (hdr.length - h.l3 + msg.length))
    let b := patch (patch b (h.l3 + 8) [64]) (h.l3 + 12) (field hdr (h.l3 + 16) 4 ++ field hdr (h.l3 + 12) 4)
    patch b (h.l3 + 10) (beNat 2 (ipv4Sum b h.l3)) ++ msg

/-- The envelope of a frame from the device to the SPI host (R53). -/
def spiEnvelope (frame : Bytes) : Bytes := [0x5A, 0x80] ++ beNat 2 frame.length

/-- Send a response frame on the path its request came by, to the request's source (R53): the management port and the
ports through ring 128 (R61), the SPI host from the queue of pending device frames (R447). -/
def State.sendOol (s : State) (path : Path) (hdr frame : Bytes) : State :=
  match path with
  | .spi => { s with ool := { s.ool with spiOut := s.ool.spiOut ++ [frame] } }
  | .mgmt =>
    let f := turnRound (rxHeaders 0x8100 hdr) hdr (s.octs Obj.mgmt_mac) frame
    ({ s with ool := { s.ool with mgmtOut := s.ool.mgmtOut ++ [f] } } : State).count 8 0x09
  | .inband n =>
    if !s.linkUp n then s
    else s.post n { cls := 1, data := turnRound (rxHeaders (s.nn (Obj.vlan_tpid n)) hdr) hdr (s.octs Obj.inband_mac) frame }

/-- Send frames one after the other. -/
def State.sendFrames (s : State) (path : Path) (hdr : Bytes) (l : List Bytes) : State :=
  l.foldl (fun (s : State) f => s.sendOol path hdr f) s

/-- Add frames to the cached response of a sequence (R57, R58). -/
def cacheAdd : List Cached → Nat → List Bytes → List Cached
  | [], _, _ => []
  | c :: r, seq, l => if c.seq = seq then { c with frames := c.frames ++ l } :: r else c :: cacheAdd r seq l

/-- Answer a request of a session: the frames are cached and sent. -/
def State.answer (s : State) (k : Fin 32) (path : Path) (hdr : Bytes) (opcode seq status : Nat) (payload : Bytes)
    (more : Bool := false) : State :=
  match s.ool.sessions[k] with
  | none => s
  | some x =>
    let l := oolResponse (some x.key) opcode x.id seq status payload more
    let s := s.setSession k (some { x with cache := cacheAdd x.cache seq l })
    s.sendFrames path hdr l

end Sys2Proof.Machine
end

