-- ==== Sys2Proof/Machine/Emit.lean ====
section
/-! DEFINITION. Shared by the built-in programs and the instruction set: the end of a thread, emits (R304), the cost of
AES jobs (R271). -/

namespace Sys2Proof.Machine

/-- The journal source of an engine (R28). -/
def engineSource (e : Fin 8) : Nat := 0x0600 + e

/-- The departure tick of the latest emit in a thread's reservation window. -/
def Thread.lastDeparture (x : Thread) : Option Nat :=
  if fieldN x.win 0x280 1 = 1 then some (fieldN x.win 0x284 9 / 256) else none

/-- A thread ends (R290): 0 emit, 1 drop, 2 punt, 3 fault, 4 instruction limit. Its entry is released; its sample record
waits while its last emit's departure is not fixed (R420). -/
def State.endThread (s : State) (e : Fin 8) (t : Fin 16) (kind : Nat) (waits : Bool) : State :=
  let g := s.serve.engines[e]
  let x := g.threads[t]
  let n := g.sinceSample + 1
  let on := bit (s.nn Obj.sample_enable) e
  let hit := on && s.nn Obj.sample_interval ≤ n
  let y : EndedThread :=
    { serial := x.serial, endPc := x.pc, endKind := kind, waitPc := (x.waitMax.map fun w => w.1).getD 0xFFFF,
      waitTicks := (x.waitMax.map fun w => w.2).getD 0, entry := x.entry, timer := !x.work.isFrame, interval := hit,
      wasted := (kind = 1 && x.worked) || kind = 3 || kind = 4, emits := x.emits, refused := x.refused, thread := t,
      buffer := (match x.work with | .frame p => p.buffer | _ => 0), client := x.held.getD 0xFFFFFFFF, since := x.work.stamp,
      issued := x.issued }
  let s := s.setEngine e { g with threads := g.threads.set t { x with busy := false, held := none, also := [], incs := [], wait := .none },
                                  sinceSample := if hit then 0 else n, ended := if waits then g.ended ++ [y] else g.ended }
  let p : Fin 4 := ⟨e.val / 2, by omega⟩
  let s : State := { s with serve := { s.serve with pairs := s.serve.pairs.set p { s.serve.pairs[p] with idleAt := s.now } } }
  if waits then s else s.sampleEnded e y x.lastDeparture

/-- Emit a frame on a port (R304): refused with status 2 while serving is stopped, when an insertion is refused under
R240, and when the port is down, disabled or a member; otherwise it waits for its departure. -/
def State.emitFrame (s : State) (n : Fin 64) (f : EFrame) : State :=
  if s.serve.stopped then (s.bump Obj.quiet_drop).emitDone f.owner n none
  else if f.kind ≠ 0 && s.nn (Obj.tx_sentinel_state n) ≠ 2 then
    ((s.bump (Obj.ts_uncal_drop n)).countP n 0x07).emitDone f.owner n none
  else if !s.linkUp n then (s.bump (Obj.tx_aborted n)).emitDone f.owner n none
  else s.toEgress n f

/-- AES blocks of a number of bytes; an empty component costs one. -/
def aesBlocks (len : Nat) : Nat := max 1 ((len + 15) / 16)

/-- Blocks of an AES-SIV job (R271): D0 for a key not held with its D0, the components, the text, and the CTR blocks. -/
def sivBlocks (d0 : Bool) (comps : List Bytes) (text : Nat) : Nat :=
  (if d0 then 1 else 0) + comps.foldl (fun a c => a + aesBlocks c.length) 0 + aesBlocks text + (text + 15) / 16

/-- Count a job and its blocks. -/
def State.countJob (s : State) (e : Fin 8) (blocks : Nat) : State :=
  ((s.bump Obj.aes_blocks blocks).countE e 0x0E).countE e 0x0F blocks

end Sys2Proof.Machine
end

