-- ==== Sys2Proof/Machine/Builtin.lean ====
section
/-! DEFINITION. The built-in programs of region A (R284), each run as one step at its thread's start: NTP (R320-R324), NTS
(R325-R328), PTP (R316, R318), timer events (R277, R316). Their code is firmware's; the spec gives their behaviour. -/

namespace Sys2Proof.Machine

/-- A built-in program's thread: engine, thread number, serial. -/
structure Ctx where
  e : Fin 8
  t : Fin 16
  serial : Nat
deriving DecidableEq, Repr

/-- The program discards its frame, counting it in an object. -/
def State.bDrop (s : State) (c : Ctx) (key : Option Nat) : State :=
  let s := match key with | some k => s.bump k | none => s
  (s.countE c.e 0x09).endThread c.e c.t 1 false

/-- The program emits a frame and ends. -/
def State.bEmit (s : State) (c : Ctx) (n : Nat) (f : EFrame) : State :=
  if h : n < 64 then
    let x := s.thread c.e c.t
    let s := s.setThread c.e c.t { x with emits := 1 }
    (s.endThread c.e c.t 0 true).emitFrame ⟨n, h⟩ { f with owner := some (c.e, c.t, c.serial) }
  else s.bDrop c none

/-- Egress class of a rule's class (R269). -/
def egressClass (cls : Nat) : Nat := if cls = 0 then 2 else 4

/-! ## NTP (R320-R324) -/

/-- The request's headers with source and destination exchanged (R301), TTL 64. -/
def turned (p : Pkt) : Bytes :=
  let b := replyHeader p 0
  if p.l4 = 0xFFFF then b else patch b p.l4 (field p.data (p.l4 + 2) 2 ++ field p.data p.l4 2)

/-- The receive time as an NTP timestamp. -/
def State.rxNtp (s : State) (p : Pkt) : Bytes := let n := s.ntpOf p.time; beNat 4 n.1 ++ beNat 4 n.2.1

/-- The thread's copy of the served state, made at its start (R291). -/
def State.servedCopy (s : State) (c : Ctx) : Bytes := field (s.thread c.e c.t).win 0x2C0 32

/-- A response's NTP header (R321): transmit zero until insertion. -/
def State.ntpHeader (s : State) (w : Bytes) (p : Pkt) : Bytes :=
  let q := p.data.drop p.payload
  beNat 1 (fieldN w 0 1 + fieldN q 0 1 / 8 % 8 * 8 + 4) ++ field w 1 1 ++ field q 2 1 ++ field w 2 1 ++ field w 4 20
    ++ field q 40 8 ++ s.rxNtp p ++ List.replicate 8 0

/-- A Kiss-o'-Death (R324, R325). -/
def State.kodHeader (s : State) (p : Pkt) (refid : Bytes) : Bytes :=
  let q := p.data.drop p.payload
  let poll := max (signed 8 (fieldN q 2 1)) (s.n Obj.kod_min_poll)
  beNat 1 (192 + fieldN q 0 1 / 8 % 8 * 8 + 4) ++ [0] ++ be 1 poll ++ List.replicate 9 0 ++ refid ++ List.replicate 8 0
    ++ field q 40 8 ++ List.replicate 16 0

/-- Emit an NTP payload as the reply to a request; the UDP checksum is corrected over IPv6. -/
def State.ntpReply (s : State) (c : Ctx) (p : Pkt) (msg : Bytes) (insert : Bool) (after : After) : State :=
  s.bEmit c p.port
    { cls := egressClass p.cls, data := wrap (turned p) msg, flags := if p.v6 then 64 else 0, kind := if insert then 1 else 0,
      offset := p.payload + 40, after }

/-- The outcome of the table checks of R281, steps 6 to 9. -/
inductive Checked where
  /-- Answered, with an entry or without state. -/
  | go (entry : Option Nat)
  /-- A Kiss-o'-Death is due, with the entry. -/
  | kod (entry : Nat)
  | drop
deriving DecidableEq, Repr

/-- One more request in the count of a kind 1 entry (R273, bytes 56-59). -/
def State.countRequest (s : State) (i : Nat) : State :=
  match s.ctEntry i with
  | some d => s.ctWrite i (patch d 56 (beNat 4 ((fieldN d 56 4 + 1) % 2 ^ 32)))
  | none => s

/-- Steps 6 to 8 of R281: lookup and bucket, else the sketch. A late lookup goes on as one that finds no entry (R274). A
kind 2 request over its bucket is discarded and counted (R279) in rate_dropped (DEDUCED, log entry 186). -/
def State.lookupChecks (s : State) (p : Pkt) (kind inst : Nat) (late : Bool) : Checked × State :=
  match if late then none else s.ctFind (p.clientKey kind inst) with
  | some i =>
    let (ok, s) := s.ctTouch i true
    let s := if kind = 1 then s.countRequest i else s
    if ok then (.go (some i), s) else if s.kodDue i then (.kod i, s) else (.drop, s.bump Obj.rate_dropped)
  | none =>
    let sk := p.sketchKey
    let (est, s) := s.sketchCount (beNat 1 sk.1 ++ sk.2)
    if s.nn Obj.sketch_limit < est then (.drop, s.sketchDrop sk) else (.go none, s)

/-- Steps 6 to 9 of R281 for an NTP or NTS request: lookup and bucket, else sketch and creation; after a late lookup none is
created (R274). -/
def State.tableChecks (s : State) (p : Pkt) (late : Bool) : Checked × State :=
  match s.lookupChecks p 1 0 late with
  | (.go none, s) =>
    if late then (.go none, s.stateless)
    else
      match s.ctCreate (p.clientKey 1 0) 1 with
      | (some i, s) => (.go (some i), s.countRequest i)
      | (none, s) => (.go none, s)
  | r => r

/-- What follows the response to a request with an entry (R323). -/
def State.afterNtp (s : State) (i : Nat) (p : Pkt) : After := .ntp i (ofBe (s.rxNtp p)) (field (p.data.drop p.payload) 40 8)

/-- An NTP header that the NTP and NTS programs take for a request: mode 3, version 3 or 4 (R320). -/
def ntpRequest (p : Pkt) : Bool :=
  let li := fieldN p.data p.payload 1
  p.payload ≠ 0xFFFF && 56 ≤ fieldN p.data (p.l4 + 4) 2 && li % 8 == 3 && (li / 8 % 8 == 3 || li / 8 % 8 == 4)

/-- A request without a symmetric-key MAC or crypto-NAK after its header (R320). -/
def noMac (p : Pkt) : Bool := !([4, 20, 24].contains (fieldN p.data (p.l4 + 4) 2 - 56))

/-- The NTP server: entry 0 stateless, entry 1 with the client table and interleaved mode. -/
def State.ntpProgram (s : State) (c : Ctx) (p : Pkt) (table late : Bool) : State :=
  let q := p.data.drop p.payload
  if !(ntpRequest p && noMac p) then s.bDrop c (some (Obj.program_counters 2))
  else
    let (r, s) := if table then s.tableChecks p late else (Checked.go none, s)
    match r with
    | .drop => s.bDrop c none
    | .kod i => ((s.kodSent i).bump (Obj.program_counters 6)).ntpReply c p (s.kodHeader p [82, 65, 84, 69]) false (s.afterNtp i p)
    | .go entry =>
      let hdr := s.ntpHeader (s.servedCopy c) p
      let d := (entry.bind fun i => s.ctEntry i).getD []
      let inter := entry.isSome && bit (fieldN d 1 1) 6 && field q 24 8 == field d 32 8 && field q 24 8 != field q 40 8
      let after : After := match entry with
        | some i => s.afterNtp i p
        | none => .none
      if inter then
        let hdr := patch (patch hdr 24 (field q 32 8)) 40 (field d 40 8)
        (s.bump (Obj.program_counters 1)).ntpReply c p hdr false after
      else (s.bump (Obj.program_counters 0)).ntpReply c p hdr true after

/-! ## NTS (R325-R328) -/

/-- HKDF-SHA-256 of the master key with an empty salt and info "PV6425-cookie" and the key number (R328). -/
def cookieKey (master : Bytes) (k : Nat) : Bytes := hkdfSha256 master (ascii "PV6425-cookie" ++ beNat 2 k)

/-- The boundary index and the current key number (R328). -/
def State.keyIndexNow (s : State) : Nat := (s.time / unitsPerS).toNat / max 1 (s.nn Obj.nts_key_period)

/-- The master key that a boundary index's key derives from: until the boundary a committed one takes effect at, the keys
before that boundary derive from the old one; from then on every key derives from the new one (R328). -/
def State.masterOf (s : State) (idx : Nat) : Bytes :=
  match s.prot.masterFrom with
  | some k => if idx < k then s.prot.masterOld else s.prot.master
  | none => s.prot.master

/-- The boundary indices whose keys open cookies: k + 1, k and the nts_key_accept before. -/
def State.openIndices (s : State) : List Nat :=
  let k := (s.prot.keyIndex).getD 0
  (k + 1) :: (List.range (s.nn Obj.nts_key_accept + 1)).filterMap fun j => if j ≤ k then some (k - j) else none

/-- The algorithm a cookie names is 17 (R327). -/
def cookie17 (b : Bytes) : Bool := 32768 ≤ fieldN b 0 2

/-- The key a cookie names among those that open cookies; none where its length is wrong or no such key is kept (R327,
R328). -/
def State.cookieKeyOf (s : State) (b : Bytes) : Option Bytes :=
  let id := fieldN b 0 2 % 32768
  if b.length ≠ (if cookie17 b then 152 else 88) || !s.sec.cookieKeys then none
  else (s.openIndices.find? fun k => k % 32768 == id).map fun k => cookieKey (s.masterOf k) (k % 32768)

/-- Open a cookie under a key: its keys (R325, R327); none where its SIV tag fails. -/
def openCookie (key b : Bytes) : Option (Bytes × Bytes) :=
  let h := if cookie17 b then 64 else 32
  (sivOpen key [field b 2 6] (b.drop 8)).map fun pt => (field pt 0 h, field pt h h)

/-- The job that opens a cookie: its keys, counted (R270); a failed SIV tag check counts in aes_auth_fail. -/
def State.tryCookie (s : State) (c : Ctx) (b : Bytes) : Option (Bytes × Bytes) × State :=
  match s.cookieKeyOf b with
  | none => (none, s)
  | some key =>
    let s := s.countJob c.e (sivBlocks false [field b 2 6] (b.length - 24))
    match openCookie key b with
    | some k => (some k, s)
    | none => (none, s.bump Obj.aes_auth_fail)

/-- Seal a new cookie under the current key. -/
def State.sealCookie (s : State) (c2s s2c : Bytes) (alg17 : Bool) : Bytes × State :=
  let k := (s.prot.keyIndex).getD 0
  let (nonce, s) := s.random 6
  let id := k % 32768 + (if alg17 then 32768 else 0)
  (beNat 2 id ++ field nonce 0 6 ++ sivSeal (cookieKey (s.masterOf k) (k % 32768)) [field nonce 0 6] (c2s ++ s2c), s)

/-- The extension fields of an NTP payload (RFC 7822): type, offset, length; none when the layout is broken. -/
def extFields (b : Bytes) : Nat → Nat → Option (List (Nat × Nat × Nat))
  | 0, _ => none
  | fuel + 1, o =>
    if o = b.length then some []
    else
      let len := fieldN b (o + 2) 2
      if len < 16 || len % 4 ≠ 0 || b.length < o + len then none
      else (extFields b fuel (o + len)).map fun l => (fieldN b o 2, o, len) :: l

/-- What an acceptable NTS request shows: offset and length of the Unique Identifier, the Cookie, the Authenticator; the
number of placeholders (R325). -/
structure NtsRequest where
  uid : Nat × Nat
  cookie : Nat × Nat
  auth : Nat × Nat
  placeholders : Nat
deriving DecidableEq, Repr

/-- The format rules of R325; the field types are those of RFC 8915. -/
def ntsRequest (b : Bytes) : Option NtsRequest :=
  match extFields b (b.length / 16 + 1) 48 with
  | none => none
  | some l =>
    let of := fun (ty : Nat) => l.filter fun f => f.1 == ty
    match of 0x0104, of 0x0204, l.getLast? with
    | [u], [k], some last =>
      let ph := of 0x0304
      if last.1 = 0x0404 && (of 0x0404).length = 1 && 36 ≤ u.2.2 && u.2.2 ≤ 68 && ph.length ≤ 7 && ph.all (fun f => f.2.2 == k.2.2) then
        some { uid := u.2, cookie := k.2, auth := last.2, placeholders := ph.length }
      else none
    | _, _, _ => none

/-- Repeat the sealing of n cookies: the Cookie extensions. -/
def State.newCookies (s : State) (c2s s2c : Bytes) (alg17 : Bool) : Nat → Bytes × State
  | 0 => ([], s)
  | n + 1 =>
    let (k, s) := s.sealCookie c2s s2c alg17
    let (r, s) := s.newCookies c2s s2c alg17 n
    ([2, 4] ++ beNat 2 (4 + k.length) ++ k ++ r, s)

/-- A request's Unique Identifier extension. -/
def NtsRequest.id (r : NtsRequest) (q : Bytes) : Bytes := field q r.uid.1 r.uid.2

/-- The answer to a request whose cookie gave its keys (R325, R326): the Authenticator is verified first; the response, or the
RATE reply, carries fresh cookies. -/
def State.ntsAnswer (s : State) (c : Ctx) (p : Pkt) (q : Bytes) (r : NtsRequest) (alg17 : Bool) (keys : Bytes × Bytes) (chk : Checked) : State :=
  let n := 1 + r.placeholders
  let text := r.cookie.2 - 4 - 24
  let nl := fieldN q (r.auth.1 + 4) 2
  let cl := fieldN q (r.auth.1 + 6) 2
  let ad := q.take r.auth.1
  let nonce := field q (r.auth.1 + 8) nl
  let ct := field q (r.auth.1 + 8 + (nl + 3) / 4 * 4) cl
  let s := s.countJob c.e (sivBlocks true [ad, nonce] (cl - 16))
  if r.auth.2 < 8 + (nl + 3) / 4 * 4 + cl || (sivOpen keys.1 [ad, nonce] ct).isNone then s.bDrop c (some Obj.aes_auth_fail)
  else
    let (hdr, s) := match chk with
      | .kod i => (s.kodHeader p [82, 65, 84, 69], s.kodSent i)
      | _ => (s.ntpHeader (s.servedCopy c) p, s)
    let kod : Bool := match chk with | .kod _ => true | _ => false
    let (cookies, s) := s.newCookies keys.1 keys.2 alg17 n
    let s := s.countJob c.e (n * sivBlocks false [List.replicate 6 0] text)
    let (nonce, s) := s.random 16
    let nonce := field nonce 0 16
    let ad := hdr ++ r.id q
    let sealed := sivSeal keys.2 [ad, nonce] cookies
    let s := s.countJob c.e (sivBlocks true [ad, nonce] cookies.length)
    let body := [0, 16] ++ beNat 2 sealed.length ++ nonce ++ sealed
    let pad := (4 - body.length % 4) % 4
    let ext := [4, 4] ++ beNat 2 (4 + body.length + pad) ++ body ++ List.replicate pad 0
    let s := s.bump (Obj.program_counters (if kod then 6 else 3))
    s.ntpReply c p (ad ++ ext) (!kod) .none

/-- The NTS server (entry 2), its checks in the order of R281: the table first, then the format of R325, the timing condition,
the size of the response, the cookie and the request. -/
def State.ntsProgram (s : State) (c : Ctx) (p : Pkt) (late : Bool) : State :=
  let len := fieldN p.data (p.l4 + 4) 2 - 8
  let q := field p.data p.payload len
  if !ntpRequest p then s.bDrop c (some (Obj.program_counters 2))
  else
    match s.tableChecks p late with
    | (.drop, s) => s.bDrop c none
    | (chk, s) =>
      match ntsRequest q with
      | none => s.bDrop c (some (Obj.program_counters 4))
      | some r =>
        let cookie := field q (r.cookie.1 + 4) (r.cookie.2 - 4)
        let size := 48 + r.uid.2 + 24 + 16 + (1 + r.placeholders) * (4 + cookie.length)
        if s.n Obj.timing_condition = 0 then (s.bump (Obj.program_counters 14)).bDrop c (some (Obj.program_counters 4))
        else if len < size then s.bDrop c (some (Obj.program_counters 4))
        else
          match s.tryCookie c cookie with
          | (none, s) => ((s.bump (Obj.program_counters 5)).ntpReply c p (s.kodHeader p [78, 84, 83, 78] ++ r.id q) false .none)
          | (some keys, s) => s.ntsAnswer c p q r (cookie17 cookie) keys chk

/-! ## PTP (R316, R318) -/

/-- A PTP Timestamp, truncated to the nanosecond, as 10 bytes; and back. -/
def ptpStamp (t : Int) : Bytes := be 6 (t / unitsPerS) ++ be 4 (t % unitsPerS / 65536)
def ptpTime (b : Bytes) (o : Nat) : Int := (fieldN b o 6 : Int) * unitsPerS + (fieldN b (o + 6) 4 : Int) * 65536

/-- The correctionField of a message, 2^-16 ns. -/
def ptpCorr (b : Bytes) : Int := signed 64 (fieldN b 8 8)

/-- The grant ends of a client entry: message type to byte offset, mask bit, interval byte (R273). -/
def grantField : Nat → Option (Nat × Nat × Nat)
  | 11 => some (56, 0, 44)
  | 0 => some (52, 1, 43)
  | 9 => some (60, 2, 45)
  | _ => none

/-- A grant for a message type is live. -/
def State.grantLive (s : State) (d : Bytes) (message : Nat) : Bool :=
  match grantField message with
  | some (o, b, _) => bit (fieldN d 42 1) b && !s.grantPast (fieldN d o 4)
  | none => false

/-- The range of intervals of a profile for a message type (R313). -/
def intervalOk (prof message : Nat) (l : Int) : Bool :=
  let r : Int × Int := match message, prof with
    | 0, 0 | 0, 1 => (-7, 1) | 0, 3 => (-7, 0) | 0, 4 => (-7, -1) | 0, 5 => (-4, 1) | 0, 6 => (-7, 0) | 0, _ => (-4, -4)
    | 11, 0 | 11, 1 | 11, 5 => (0, 4) | 11, 3 => (-3, 0) | 11, 4 => (-3, 1) | 11, 6 => (-3, 1) | 11, _ => (-3, -3)
    | _, 0 | _, 1 => (0, 5) | _, 3 => (-7, 0) | _, 4 => (-7, 5) | _, 5 => (-3, 5) | _, 6 => (-3, 1) | _, _ => (-4, -4)
  r.1 ≤ l && l ≤ r.2

/-- A general message of an instance as a frame. -/
def general (hdr msg : Bytes) : EFrame := { cls := 2, data := wrap hdr msg, flags := 0 }

/-- A peer-delay exchange is complete (R316): the mean link delay, and whether the neighbor rate ratio lies within
200 ppm. -/
def State.pdelayDone (s : State) (i : Fin 4) (n : Nat) (t3 : Int) : State :=
  let x := s.ptpPort i n
  match x.pd1, x.pd24 with
  | some t1, some (t2, t4) =>
    let d := rneDiv ((t4 - t1) - (t3 - t2)) 2
    -- the first exchange has no neighbor rate ratio
    let ok := match x.pdPrev with
      | some (a, b) => decide (((t3 - a) - (t4 - b)).natAbs * 5000 ≤ (t4 - b).natAbs)
      | none => false
    let good := if ok then x.pdelayGood + 1 else 0
    let valid : Bool := s.nn (Obj.pdelay_valid i) ≤ good
    let s := s.setPtpPort i n { x with pd1 := none, pd24 := none, pdPrev := some (t3, t4), linkDelay := d, pdelayGood := good,
                                       delayKnown := valid, relearn := x.relearn && !valid }
    if s.nn (Obj.receiver_port i) = n then s.putN (Obj.mean_path_delay i) (unitsToNs d) else s
  | _, _ => s

/-- A Sync of the parent, with its origin time corrected, measures the slots of the instance (R107, R111, R130), active or
not: the parent's time at reception is that origin and the mean delay. DEDUCED (log entry 177): no measurement before a delay
has been measured on the link. -/
def State.syncMeasure (s : State) (i : Fin 4) (n stamp : Nat) (origin : Int) : State :=
  let x := s.ptpPort i n
  if !x.delayKnown then s
  else
    -- the parent's time is measured: UNCALIBRATED ends (R311)
    let s := if s.nn (Obj.port_state i n) = ptpUncalibrated then s.setPtpState i n ptpReceiverState else s
    (s.slotsOn [5] i).foldl (fun (s : State) k => s.slotMeasure k stamp (origin + x.linkDelay)) s

/-- The time of the parent's Sync is known: t2 − t1 is noted, the slots are measured. -/
def State.syncKnown (s : State) (i : Fin 4) (n stamp : Nat) (t2 origin : Int) : State :=
  (s.setPtpPort i n { s.ptpPort i n with sync := none, t2t1 := some (t2 - origin) }).syncMeasure i n stamp origin

/-- The signaling TLVs of a message (R318): request, cancel, grant. Answers the reply TLVs; a request or a cancellation has
none where unicast negotiation does not run, or time-transmitter ports do not operate (R312). After a late lookup a request
is answered without state (R274, R275). The fuel is the message's length: each TLV takes at least 4 of its octets. -/
def State.signal (s : State) (i : Fin 4) (p : Pkt) (msg : Bytes) (late : Bool) : Nat → Nat → Bytes × State
  | 0, _ => ([], s)
  | fuel + 1, o =>
    if msg.length < o + 4 then ([], s)
    else
      let ty := fieldN msg o 2
      let len := fieldN msg (o + 2) 2
      let m := fieldN msg (o + 4) 1 / 16
      let next := o + 4 + len
      if (ty = 4 || ty = 6) && !(s.transmitMode && s.unicastOn i) then s.signal i p msg late fuel next
      else if ty = 4 then
        let log := signed 8 (fieldN msg (o + 5) 1)
        let dur := fieldN msg (o + 6) 4
        let may := intervalOk (s.profile i) m log && 10 ≤ dur && (grantField m).isSome
        let key := p.clientKey 2 i
        let (idx, s) := if !may then (none, s) else if late then (none, s.stateless) else match s.ctFind key with
          | some k => (some k, s)
          | none => s.ctCreate key 2
        let give := match idx with | some _ => min dur (s.nn (Obj.grant_max_duration i)) | none => 0
        let s := match idx, grantField m with
          | some k, some (off, b, iv) =>
            let d := (s.ctEntry k).getD (List.replicate 64 0)
            let d := patch (patch (patch d 32 (field msg 20 10)) 42 (beNat 1 (setBit (fieldN d 42 1) b true))) iv (be 1 log)
            s.ctWrite k (patch d off (beNat 4 ((s.secNow + give) % 2 ^ 32)))
          | _, _ => s
        let s := if give = 0 then s.bump (Obj.program_counters 11) else s
        let (r, s) := s.signal i p msg late fuel next
        ([0, 5, 0, 8] ++ beNat 1 (m * 16) ++ be 1 log ++ beNat 4 give ++ [0, 1] ++ r, s)
      else if ty = 6 then
        let s := match s.ctFind (p.clientKey 2 i), grantField m with
          | some k, some (off, _, _) => s.ctWrite k (patch ((s.ctEntry k).getD (List.replicate 64 0)) off (beNat 4 s.secNow))
          | _, _ => s
        let (r, s) := s.signal i p msg late fuel next
        ([0, 7, 0, 2] ++ beNat 1 (m * 16) ++ [0] ++ r, s)
      else if ty = 5 then
        -- a grant to this time-receiver: renewed at half its duration, a refusal retried after 8 s
        let dur := fieldN msg (o + 6) 4
        let due := s.now + (if dur = 0 then ticksS 8 else ticksS dur / 2)
        let x := s.prot.insts[i]
        let src := if p.v6 then field p.data (p.l3 + 8) 16 else List.replicate 10 0 ++ [0xFF, 0xFF] ++ field p.data (p.l3 + 12) 4
        let renew := fun (r : Renewal) =>
          if r.message == m && s.octs (Obj.unicast_masters i r.master) == src then ({ r with due := due } : Renewal) else r
        let s := s.setInst i { x with renewals := x.renewals.map renew }
        s.signal i p msg late fuel next
      else s.signal i p msg late fuel next

/-- The PTP programs of entries 3 to 6 on a received message (R316, R318). -/
def State.ptpProgram (s : State) (c : Ctx) (p : Pkt) (late : Bool) : State :=
  let msg := p.data.drop p.payload
  let type := fieldN msg 0 1 % 16
  match s.instOf p.port p.transport msg with
  | none => s.bDrop c (some (Obj.program_counters 12))
  | some i =>
    if h : p.port < 64 then
      let n : Fin 64 := ⟨p.port, h⟩
      let covered := [8, 9, 10, 12].contains type
      let (ok, s) := if covered then s.secured? i msg else (true, s)
      if !ok then s.bDrop c none
      else
        let t := p.time
        let frac := t % 65536
        let seq := fieldN msg 30 2
        let group := fieldN p.data 0 1 % 2 = 1
        let x := s.ptpPort i n
        let sender := field msg 20 10
        let receiving := s.receives i n && s.followsParent i n
          && (s.prot.insts[i].parent.map fun d => d.sender) == some sender
        match type with
        | 0 =>
          if !receiving then s.bDrop c none
          else
            (if bit (fieldN msg 6 1) 1 then s.setPtpPort i n { x with sync := some (seq, t, p.stamp, ptpCorr msg) }
              else s.syncKnown i n p.stamp t (ptpTime msg 34 + ptpCorr msg)).bDrop c none
        | 1 =>
          -- profiles 1 and 6 measure by peer delay alone (R313)
          if s.isP2p i || !s.transmits i n then s.bDrop c none
          else
            let body := ptpStamp t ++ field msg 20 10
            let corr := ptpCorr msg - frac
            if group then
              -- profile 3 is unicast (R313)
              if s.profile i = 3 then s.bDrop c none
              else
              let m := s.secured i (s.ptpMessage i n 9 0 corr seq (s.logDelay i) body)
              (s.bump (Obj.program_counters 9)).bEmit c n (general (s.multicastHeader i n false false) m)
            else
              let (chk, s) := s.lookupChecks p 2 i late
              let may := match chk with
                | .go (some k) => if s.unicastOn i then s.grantLive ((s.ctEntry k).getD []) 9 else s.profile i == 4
                | .go none => !s.unicastOn i && s.profile i == 4
                | _ => false
              if !may then s.bDrop c none
              else
                let m := s.secured i (s.ptpMessage i n 9 4 corr seq 0x7F body)
                (s.bump (Obj.program_counters 9)).bEmit c n (general (replyHeader p 320) m)
        | 2 =>
          if !(s.answersPeer i n && !s.ports[n].ptpHold && !x.relearn) then s.bDrop c none
          else
            let m := s.ptpMessage i n 3 2 (-frac) seq 0x7F (ptpStamp t ++ field msg 20 10)
            let fu := s.ptpMessage i n 10 0 (ptpCorr msg) seq 0x7F (List.replicate 10 0 ++ field msg 20 10)
            let f : EFrame := { cls := 2, data := wrap (s.multicastHeader i n true true) m,
                                after := .follow i (s.multicastHeader i n false true) fu 2 }
            (s.bump (Obj.program_counters 10)).bEmit c n f
        | 3 =>
          let mine := field msg 44 10 == s.portId n && (seq + 1) % 65536 = x.pdelaySeq
          let s : State := if mine then s.setPtpPort i n { x with pd24 := some (ptpTime msg 34 - ptpCorr msg, t) } else s
          s.bDrop c none
        | 8 =>
          match x.sync with
          | some (q, t2, stamp, corr) =>
            (if receiving && q = seq then s.syncKnown i n stamp t2 (ptpTime msg 34 + corr + ptpCorr msg) else s).bDrop c none
          | none => s.bDrop c none
        | 9 =>
          match x.dl3, x.t2t1 with
          | some t3, some d =>
            if receiving && field msg 44 10 == s.portId n && (seq + 1) % 65536 = x.reqSeq then
              let d := rneDiv (d + (ptpTime msg 34 - ptpCorr msg - t3)) 2
              ((s.setPtpPort i n { x with dl3 := none, linkDelay := d, delayKnown := true }).putN (Obj.mean_path_delay i)
                (unitsToNs d)).bDrop c none
            else s.bDrop c none
          | _, _ => s.bDrop c none
        | 10 =>
          (if field msg 44 10 == s.portId n then s.pdelayDone i n (ptpTime msg 34 + ptpCorr msg) else s).bDrop c none
        | 12 =>
          if !(s.transmits i n || s.receives i n) then s.bDrop c none
          else
            let (chk, s) := s.lookupChecks p 2 i late
            let (tlvs, s) := if chk = .drop then ([], s) else s.signal i p msg late msg.length 44
            if tlvs = [] then s.bDrop c none
            else
              let x := s.prot.insts[i]
              let m := s.secured i (s.ptpMessage i n 12 4 0 x.signalSeq 0x7F (field msg 20 10 ++ tlvs))
              (s.setInst i { x with signalSeq := (x.signalSeq + 1) % 65536 }).bEmit c n (general (replyHeader p 320) m)
        | _ =>
          -- Announce and Management reach firmware on ring 4, as rules 19 and 23 deliver them (R266, R311, R313)
          if type = 11 || type = 13 then
            ((s.countE c.e 0x0A).endThread c.e c.t 2 false).toRing 4
              { pkt := p, reason := 2, engine := c.e.val, seq := 0 }
          else s.bDrop c none
    else s.bDrop c none

/-- The key of the look-up that a built-in program makes for its work (R281 step 6, R302): none where it makes none. -/
def State.builtinKey (s : State) (entry : Nat) (w : Work) : Option Bytes :=
  match w with
  | .frame p =>
    if p.uncal then none
    else
      match entry with
      | 0 => none
      | 1 => if ntpRequest p && noMac p then some (p.clientKey 1 0) else none
      | 2 => if ntpRequest p then some (p.clientKey 1 0) else none
      | 7 => none
      | _ =>
        let msg := p.data.drop p.payload
        let type := fieldN msg 0 1 % 16
        let unicast := fieldN p.data 0 1 % 2 = 0
        match s.instOf p.port p.transport msg with
        | none => none
        | some i =>
          if h : p.port < 64 then
            let n : Fin 64 := ⟨p.port, h⟩
            if (type = 1 && unicast && !s.isP2p i && s.transmits i n)
                || (type = 12 && (s.secCheck i msg).1 && (s.transmits i n || s.receives i n)) then some (p.clientKey 2 i)
            else none
          else none
  | .timer k _ _ _ => (s.ctEntry k).map entryKey
  | .port .. => none

/-! ## Timer events (R277, R316) -/

/-- A Sync or an Announce to given headers: the frame; Sync is one-step with insertion kind 2, or two-step with its
Follow_Up. -/
def State.timerFrame (s : State) (i : Fin 4) (n : Nat) (message seq : Nat) (flags0 : Nat) (evHdr genHdr : Bytes) (log : Int) : EFrame :=
  if message = 2 then general genHdr (s.secured i (s.ptpMessage i n 11 flags0 0 seq log (s.announced i).body))
  else if s.twoStep i then
    let fu := s.ptpMessage i n 8 flags0 0 seq log (List.replicate 10 0)
    { cls := 2, data := wrap evHdr (s.ptpMessage i n 0 (flags0 + 2) 0 seq log (List.replicate 10 0)), after := .follow i genHdr fu 2 }
  else
    let d := wrap evHdr (s.ptpMessage i n 0 flags0 0 seq log (List.replicate 10 0))
    { cls := 2, data := d, flags := if (txHeaders d).v6 then 64 else 0, kind := 2, offset := evHdr.length + 34 }

/-- The timer program (entry 7): Sync and Announce for a grant or a multicast port. -/
def State.timerProgram (s : State) (c : Ctx) (w : Work) : State :=
  match w with
  | .frame _ => s.bDrop c none
  | .timer k message _ _ =>
    match s.ctEntry k with
    | none => s.bDrop c none
    | some d =>
      let i : Fin 4 := ⟨fieldN d 3 1 % 4, Nat.mod_lt _ (by decide)⟩
      let n : Fin 64 := ⟨fieldN d 2 1 % 64, Nat.mod_lt _ (by decide)⟩
      if !(s.transmits i n && (message ≠ 2 || !s.announceWithheld)) then s.bDrop c none
      else
        let o := if message = 2 then 48 else 46
        let hdr := fun ev => s.unicastHeader n (fieldN d 1 1) (field d 8 16) ev
        let f := s.timerFrame i n message (fieldN d o 2) 4 (hdr true) (hdr false) 0x7F
        let s := s.ctWrite k (patch d o (beNat 2 ((fieldN d o 2 + 1) % 65536)))
        (if message = 2 then s else s.bump (Obj.program_counters 7)).bEmit c n f
  | .port inst n message _ =>
    let i : Fin 4 := ⟨inst % 4, Nat.mod_lt _ (by decide)⟩
    if h : n < 64 then
      let m : Fin 64 := ⟨n, h⟩
      if !(s.transmits i m && (message ≠ 2 || !s.announceWithheld)) then s.bDrop c none
      else
        let x := s.ptpPort i n
        let seq := if message = 2 then x.announceSeq else x.syncSeq
        let f := s.timerFrame i n message seq 0 (s.multicastHeader i n true false) (s.multicastHeader i n false false)
          (if message = 2 then s.logAnnounce i else s.logSync i)
        let s := s.setPtpPort i n (if message = 2 then { x with announceSeq := (seq + 1) % 65536 } else { x with syncSeq := (seq + 1) % 65536 })
        (if message = 2 then s else s.bump (Obj.program_counters 7)).bEmit c n f
    else s.bDrop c none

/-- Engine cycles per message in hundredths (R287), for the demand of R283. -/
def builtinCycles (entry : Nat) : Nat :=
  match entry with
  | 0 => 696 | 1 => 840 | 2 => 1800 | _ => 900

/-- Engine cycles of a timer event in hundredths (R287): an Announce, a two-step Sync with its Follow_Up, a one-step Sync. -/
def timerCycles (announce twoStep : Bool) : Nat := if announce then 1200 else if twoStep then 1900 else 1100

/-- Engine cycles of a thread's work in hundredths. -/
def State.workCycles (s : State) (entry : Nat) (w : Work) : Nat :=
  match w with
  | .frame _ => builtinCycles entry
  | .timer k message _ _ => timerCycles (message == 2) (s.twoStep (Fin.ofNat 4 (fieldN ((s.ctEntry k).getD []) 3 1)))
  | .port inst _ message _ => timerCycles (message == 2) (s.twoStep (Fin.ofNat 4 inst))

/-- Run a built-in program on its thread (R284). Frames stamped while the sentinel was not LOCKED are never answered
(R240). -/
def State.runBuiltin (s : State) (c : Ctx) (entry : Nat) (late : Bool) : State :=
  let x := s.thread c.e c.t
  let slots := s.workCycles entry x.work * 4 / 100
  let s := s.setThread c.e c.t { x with issued := x.issued + slots }
  let s := s.setEngine c.e { s.serve.engines[c.e] with demand := s.serve.engines[c.e].demand + slots }
  let s := s.issueSlots c.e slots
  match x.work with
  | .frame p =>
    if p.uncal then
      if h : p.port < 64 then ((s.bump (Obj.ts_uncal_drop p.port)).countP ⟨p.port, h⟩ 0x07).bDrop c none else s.bDrop c none
    else
      match entry with
      | 0 => s.ntpProgram c p false late
      | 1 => s.ntpProgram c p true late
      | 2 => s.ntsProgram c p late
      | 7 => s.bDrop c none
      | _ => s.ptpProgram c p late
  | w => s.timerProgram c w

/-- What follows a fixed departure (R316, R323). -/
def State.afterFix (s : State) (n : Fin 64) (a : After) (stamp : Nat) : State :=
  let t := s.convertAhead stamp
  match a with
  | .none => s
  | .ntp i rx org =>
    match s.ctEntry i with
    | none => s
    | some d =>
      let k := s.ntpOf t
      let d := patch (patch (patch d 32 (beNat 8 rx)) 40 (beNat 4 k.1 ++ beNat 4 k.2.1)) 48 org
      s.ctWrite i (patch d 1 (beNat 1 (setBit (fieldN d 1 1) 6 true)))
  | .follow i hdr msg cls =>
    -- a Follow_Up adds the fraction to its correction; a Pdelay_Resp_Follow_Up subtracts it
    let frac := t % 65536
    let sync := fieldN msg 0 1 % 16 = 8
    let m := patch (patch msg 34 (ptpStamp t)) 8 (be 8 (ptpCorr msg + if sync then frac else -frac))
    let s := if sync then s.bump (Obj.program_counters 8) else s
    s.toEgress n { cls, data := wrap hdr (s.secured i m) }
  | .request i peer =>
    let x := s.ptpPort i n
    s.setPtpPort i n (if peer then { x with pd1 := some t } else { x with dl3 := some t })

end Sys2Proof.Machine
end

