-- ==== Sys2Proof/Machine/Curve.lean ====
section
/-! DEFINITION. X25519 (RFC 7748), Ed25519 (RFC 8032) and ECDSA and ECDH over secp256r1 and secp384r1 (FIPS 186-5), in the
editions of R19. -/

namespace Sys2Proof.Machine

/-! ## Modular arithmetic -/

/-- x^e mod m by the low `n` bits of e. -/
def powModAux (m : Nat) : Nat → Nat → Nat → Nat → Nat
  | 0, _, _, acc => acc
  | n + 1, x, e, acc => powModAux m n (x * x % m) (e / 2) (if e % 2 = 1 then acc * x % m else acc)

/-- x^e mod m for e below 2^400. -/
def powMod (m x e : Nat) : Nat := powModAux m 400 (x % m) e (1 % m)

/-- The inverse modulo a prime; 0 of 0. -/
def invMod (p x : Nat) : Nat := powMod p x (p - 2)

/-- x - y modulo m, for y below m. -/
def subMod (m x y : Nat) : Nat := (x + (m - y % m)) % m

/-- The number a byte string spells, least significant byte first, and back. -/
def ofLe (b : Bytes) : Nat := ofBe b.reverse
def leNat (n x : Nat) : Bytes := (beNat n x).reverse

/-! ## X25519 -/

/-- The prime of curve25519 and edwards25519. -/
def p25519 : Nat := 2 ^ 255 - 19

/-- A private scalar with its fixed bits set and cleared. -/
def clampScalar (b : Bytes) : Nat := ofLe (field b 0 32) % 2 ^ 254 / 8 * 8 + 2 ^ 254

/-- A step of the ladder: the two points (X : Z) with the bit of the scalar, and the base's u. -/
def ladderStep (u : Nat) (b : Bool) (s : (Nat × Nat) × (Nat × Nat)) : (Nat × Nat) × (Nat × Nat) :=
  let p := p25519
  let s := if b then (s.2, s.1) else s
  let a := (s.1.1 + s.1.2) % p
  let c := subMod p s.1.1 s.1.2
  let da := subMod p s.2.1 s.2.2 * a % p
  let cb := (s.2.1 + s.2.2) * c % p
  let aa := a * a % p
  let bb := c * c % p
  let e := subMod p aa bb
  let sum := (da + cb) % p
  let difference := subMod p da cb
  let two := (aa * bb % p, e * ((aa + 121665 * e) % p) % p)
  let three := (sum * sum % p, u * (difference * difference % p) % p)
  if b then (three, two) else (two, three)

/-- The ladder over the scalar's bits from bit n - 1 down. -/
def ladder (u k : Nat) : Nat → (Nat × Nat) × (Nat × Nat) → (Nat × Nat) × (Nat × Nat)
  | 0, s => s
  | n + 1, s => ladder u k n (ladderStep u (bit k n) s)

/-- X25519 of a private scalar and a public coordinate. -/
@[irreducible] def x25519 (priv point : Bytes) : Bytes :=
  let u := ofLe (field point 0 32) % 2 ^ 255
  let r := (ladder u (clampScalar priv) 255 ((1, 0), (u, 1))).1
  leNat 32 (r.1 * invMod p25519 r.2 % p25519)

/-- The public coordinate of a private scalar. -/
def x25519Public (priv : Bytes) : Bytes := x25519 priv (leNat 32 9)

/-! ## Ed25519 -/

/-- A point (X : Y : Z : T) of edwards25519. -/
abbrev EdPoint := Nat × Nat × Nat × Nat

/-- The constant d, and a square root of -1. -/
def edD : Nat := (p25519 - 121665) * invMod p25519 121666 % p25519
def edRoot : Nat := powMod p25519 2 ((p25519 - 1) / 4)

def edAdd (a b : EdPoint) : EdPoint :=
  let p := p25519
  let x := subMod p a.2.1 a.1 * subMod p b.2.1 b.1 % p
  let y := (a.2.1 + a.1) * (b.2.1 + b.1) % p
  let t := 2 * a.2.2.2 * b.2.2.2 % p * edD % p
  let z := 2 * a.2.2.1 * b.2.2.1 % p
  let e := subMod p y x
  let f := subMod p z t
  let g := (z + t) % p
  let h := (y + x) % p
  (e * f % p, g * h % p, f * g % p, e * h % p)

/-- A multiple of a point, by the scalar's bits from bit n - 1 down. -/
def edMulAux (k : Nat) (a : EdPoint) : Nat → EdPoint → EdPoint
  | 0, r => r
  | n + 1, r =>
    let r := edAdd r r
    edMulAux k a n (if bit k n then edAdd r a else r)

def edMul (k : Nat) (a : EdPoint) : EdPoint := edMulAux k a 256 (0, 1, 1, 0)

/-- The x of a y with a parity, where the point is on the curve. -/
def edX (y : Nat) (odd : Bool) : Option Nat :=
  let p := p25519
  let u := subMod p (y * y) 1
  let v := (edD * (y * y % p) + 1) % p
  let square := u * invMod p v % p
  let root := powMod p square ((p + 3) / 8)
  let x := if root * root % p = square then root else root * edRoot % p
  if p ≤ y || x * x % p ≠ square || (x = 0 && odd) then none
  else some (if (x % 2 = 1) == odd then x else subMod p 0 x)

/-- A point from its 32 bytes, and back. -/
def edDecode (b : Bytes) : Option EdPoint :=
  let n := ofLe (field b 0 32)
  let y := n % 2 ^ 255
  (edX y (bit n 255)).map fun x => (x, y, 1, x * y % p25519)

def edEncode (a : EdPoint) : Bytes :=
  let z := invMod p25519 a.2.2.1
  let x := a.1 * z % p25519
  leNat 32 (a.2.1 * z % p25519 + (if x % 2 = 1 then 2 ^ 255 else 0))

/-- The base point and its order. -/
def edBase : EdPoint :=
  let y := 4 * invMod p25519 5 % p25519
  let x := (edX y false).getD 0
  (x, y, 1, x * y % p25519)

def edOrder : Nat := 2 ^ 252 + 27742317777372353535851937790883648493

/-- Ed25519: public key, signature, verification. -/
@[irreducible] def edPublic (priv : Bytes) : Bytes := edEncode (edMul (clampScalar (sha512 priv)) edBase)

@[irreducible] def edSign (priv m : Bytes) : Bytes :=
  let h := sha512 priv
  let s := clampScalar h
  let a := edEncode (edMul s edBase)
  let r := ofLe (sha512 (h.drop 32 ++ m)) % edOrder
  let point := edEncode (edMul r edBase)
  let k := ofLe (sha512 (point ++ a ++ m)) % edOrder
  point ++ leNat 32 ((r + k * s) % edOrder)

@[irreducible] def edVerify (pub m sig : Bytes) : Bool :=
  let s := ofLe (field sig 32 32)
  match edDecode pub, edDecode (sig.take 32) with
  | some a, some r =>
    let k := ofLe (sha512 (sig.take 32 ++ pub ++ m)) % edOrder
    pub.length == 32 && sig.length == 64 && decide (s < edOrder) && edEncode (edMul s edBase) == edEncode (edAdd r (edMul k a))
  | _, _ => false

/-! ## secp256r1 and secp384r1 -/

/-- The primes, constants b, orders and base points of secp256r1 (1) and secp384r1 (2), a = -3. -/
def curveP (group : Nat) : Nat :=
  if group = 1 then 2 ^ 256 - 2 ^ 224 + 2 ^ 192 + 2 ^ 96 - 1 else 2 ^ 384 - 2 ^ 128 - 2 ^ 96 + 2 ^ 32 - 1

def curveB (group : Nat) : Nat :=
  if group = 1 then 0x5AC635D8AA3A93E7B3EBBD55769886BC651D06B0CC53B0F63BCE3C3E27D2604B
  else 0xB3312FA7E23EE7E4988E056BE3F82D19181D9C6EFE8141120314088F5013875AC656398D8A2ED19D2A85C8EDD3EC2AEF

def curveN (group : Nat) : Nat :=
  if group = 1 then 0xFFFFFFFF00000000FFFFFFFFFFFFFFFFBCE6FAADA7179E84F3B9CAC2FC632551
  else 0xFFFFFFFFFFFFFFFFFFFFFFFFFFFFFFFFFFFFFFFFFFFFFFFFC7634D81F4372DDF581A0DB248B0A77AECEC196ACCC52973

def curveG (group : Nat) : Nat × Nat :=
  if group = 1 then
    (0x6B17D1F2E12C4247F8BCE6E563A440F277037D812DEB33A0F4A13945D898C296,
     0x4FE342E2FE1A7F9B8EE7EB4A7C0F9E162BCE33576B315ECECBB6406837BF51F5)
  else
    (0xAA87CA22BE8B05378EB1C71EF320AD746E1D3B628BA79B9859F741E082542A385502F25DBF55296C3A545E3872760AB7,
     0x3617DE4A96262C6F5D9E98BF9292DC29F8F41DBD289A147CE9DA3113B5F0B8C00A60B1CE1D7E819D7A431D7C90EA0E5F)

/-- Bytes of a coordinate. -/
def curveBytes (group : Nat) : Nat := if group = 1 then 32 else 48

/-- A coordinate pair is on the curve (R339). -/
def onCurve (group x y : Nat) : Bool :=
  let p := curveP group
  decide (x < p) && decide (y < p) && (y * y) % p == (x * x * x + (p - 3) * x + curveB group) % p

/-- A point with coordinates X / Z², Y / Z³; Z = 0 is the point at infinity. -/
abbrev EcPoint := Nat × Nat × Nat

def ecDouble (p : Nat) (a : EcPoint) : EcPoint :=
  let delta := a.2.2 * a.2.2 % p
  let gamma := a.2.1 * a.2.1 % p
  let beta := a.1 * gamma % p
  let alpha := 3 * subMod p a.1 delta * (a.1 + delta) % p
  let x := subMod p (alpha * alpha) (8 * beta)
  let z := (a.2.1 + a.2.2) * (a.2.1 + a.2.2)
  (x, subMod p (alpha * subMod p (4 * beta) x) (8 * gamma * gamma), subMod p z (gamma + delta))

def ecAdd (p : Nat) (a b : EcPoint) : EcPoint :=
  if a.2.2 = 0 then b
  else if b.2.2 = 0 then a
  else
    let za := a.2.2 * a.2.2 % p
    let zb := b.2.2 * b.2.2 % p
    let ua := a.1 * zb % p
    let ub := b.1 * za % p
    let sa := a.2.1 * b.2.2 % p * zb % p
    let sb := b.2.1 * a.2.2 % p * za % p
    let h := subMod p ub ua
    let r := subMod p sb sa
    if h = 0 then (if r = 0 then ecDouble p a else (1, 1, 0))
    else
      let hh := h * h % p
      let hhh := h * hh % p
      let v := ua * hh % p
      let x := subMod p (r * r) (hhh + 2 * v)
      (x, subMod p (r * subMod p v x) (sa * hhh), h * a.2.2 % p * b.2.2 % p)

/-- A multiple of a point, by the scalar's bits from bit n - 1 down. -/
def ecMulAux (p k : Nat) (a : EcPoint) : Nat → EcPoint → EcPoint
  | 0, r => r
  | n + 1, r =>
    let r := ecDouble p r
    ecMulAux p k a n (if bit k n then ecAdd p r a else r)

def ecMul (group k : Nat) (a : Nat × Nat) : EcPoint := ecMulAux (curveP group) k (a.1, a.2, 1) 384 (1, 1, 0)

/-- Coordinates of a point that is not at infinity. -/
def ecAffine (group : Nat) (a : EcPoint) : Nat × Nat :=
  let p := curveP group
  let z := invMod p a.2.2
  (a.1 * (z * z % p) % p, a.2.1 * (z * z % p * z % p) % p)

/-- An uncompressed point of its length, on the curve (R339). -/
def ecDecode (group : Nat) (b : Bytes) : Option (Nat × Nat) :=
  let w := curveBytes group
  let x := fieldN b 1 w
  let y := fieldN b (1 + w) w
  if b.length == 1 + 2 * w && fieldN b 0 1 == 4 && onCurve group x y then some (x, y) else none

/-- The uncompressed public key of a private scalar. -/
@[irreducible] def ecPublic (group : Nat) (priv : Bytes) : Bytes :=
  let w := curveBytes group
  let q := ecAffine group (ecMul group (ofBe (field priv 0 w) % curveN group) (curveG group))
  4 :: (beNat w q.1 ++ beNat w q.2)

/-- The x coordinate of an ECDH exchange. -/
@[irreducible] def ecdh (group : Nat) (priv point : Bytes) : Bytes :=
  match ecDecode group point with
  | some q => beNat (curveBytes group) (ecAffine group (ecMul group (ofBe (field priv 0 (curveBytes group)) % curveN group) q)).1
  | none => []

/-- The digest that an ECDSA signature covers: SHA-256 for secp256r1, SHA-384 for secp384r1. -/
def ecDigest (group : Nat) (m : Bytes) : Nat := ofBe (if group = 1 then sha256 m else sha384 m)

/-- An ECDSA signature, r then s, with the secret number k. -/
@[irreducible] def ecdsaSign (group : Nat) (priv m : Bytes) (k : Nat) : Bytes :=
  let n := curveN group
  let w := curveBytes group
  let r := (ecAffine group (ecMul group k (curveG group))).1 % n
  beNat w r ++ beNat w (invMod n k * (ecDigest group m + r * ofBe (field priv 0 w)) % n)

/-- ECDSA verification. -/
@[irreducible] def ecdsaVerify (group : Nat) (pub m sig : Bytes) : Bool :=
  let n := curveN group
  let w := curveBytes group
  let r := fieldN sig 0 w
  let s := fieldN sig w w
  match ecDecode group pub with
  | none => false
  | some q =>
    let i := invMod n s
    let t := ecAdd (curveP group) (ecMul group (ecDigest group m * i % n) (curveG group)) (ecMul group (r * i % n) q)
    sig.length == 2 * w && decide (0 < r) && decide (r < n) && decide (0 < s) && decide (s < n)
      && t.2.2 != 0 && (ecAffine group t).1 % n == r

/-! ## The device's three algorithms (R329, R341): 0 ECDSA P-256, 1 ECDSA P-384, 2 Ed25519 -/

/-- The public key of a private key. -/
def publicKey (alg : Nat) (priv : Bytes) : Bytes := if alg = 2 then edPublic (field priv 0 32) else ecPublic (alg + 1) priv

/-- A signature over a message; `draw` supplies the secret number of ECDSA. -/
def signWith (alg : Nat) (priv m draw : Bytes) : Bytes :=
  if alg = 2 then edSign (field priv 0 32) m else ecdsaSign (alg + 1) priv m (ofBe draw % (curveN (alg + 1) - 1) + 1)

/-- A signature verifies. -/
def sigVerify (alg : Nat) (pub m sig : Bytes) : Bool :=
  if alg = 2 then edVerify pub m sig else ecdsaVerify (alg + 1) pub m sig

end Sys2Proof.Machine
end

