-- ==== Sys2Proof/Machine/Threads.lean ====
section
/-! DEFINITION. Threads of the serve engines (R264, R265, R283, R290-R296): starts, windows, lookups and AES jobs that
complete, faults; engine pairs; the timer wheel (R277); programs (R284-R286, R308). -/

namespace Sys2Proof.Machine

/-! ## Windows (R293-R296) -/

/-- The ingress window of a work item (R294). -/
def State.ingressWindow (s : State) (w : Work) (entry : Nat) : Bytes :=
  let (stamp, t) := match w with | .frame p => (p.stamp, p.time) | _ => (0, s.convert 0)
  let k := s.ntpOf t
  let head := beNat 9 stamp ++ timeToBytes t ++ beNat 4 k.1 ++ beNat 4 k.2.1
  let bad := if (s.segFor stamp).valid then 0 else 8
  match w with
  | .frame p =>
    let f := (if p.uncal then 128 else 0) + (if p.tagged then 64 else 0) + (if p.v6 then 32 else 0) + bad
    head ++ beNat 1 f ++ beNat 2 p.data.length ++ beNat 1 p.port ++ beNat 1 p.rule ++ beNat 1 entry ++ beNat 1 p.bucket
      ++ beNat 2 p.vid ++ beNat 2 p.l3 ++ beNat 2 p.l4 ++ beNat 2 p.payload ++ [0, 0] ++ beNat 4 0xFFFFFFFF
      ++ List.replicate 12 0
  | .timer i m b _ =>
    let d := (s.ctEntry i).getD []
    head ++ beNat 1 (16 + bad) ++ [0, 0] ++ field d 2 1 ++ [0xFF] ++ beNat 1 entry ++ beNat 1 b ++ field d 4 2
      ++ List.replicate 6 0 ++ beNat 1 m ++ [0] ++ beNat 4 i ++ List.replicate 12 0
  | .port _ n m _ =>
    head ++ beNat 1 (16 + bad) ++ [0, 0] ++ beNat 1 n ++ [0xFF] ++ beNat 1 entry ++ beNat 1 n ++ [0, 0]
      ++ List.replicate 6 0 ++ beNat 1 m ++ [0] ++ beNat 4 0xFFFFFFFF ++ List.replicate 12 0

/-- The windows of a thread at its start (R291). -/
def State.startWindows (s : State) (w : Work) (entry : Nat) : Bytes :=
  let packet := match w with | .frame p => field p.data 0 512 | _ => List.replicate 512 0
  let client := match w with | .timer i _ _ _ => (s.ctEntry i).getD (List.replicate 64 0) | _ => List.replicate 64 0
  packet ++ field client 0 64 ++ field (s.ingressWindow w entry) 0 64 ++ List.replicate 64 0 ++ field s.servedState 0 32
    ++ field (s.octs Obj.program_params) 0 32 ++ List.replicate 256 0

/-! ## Thread starts (R264, R265) -/

/-- The engine pair of an engine. -/
def pairOfEngine (e : Fin 8) : Fin 4 := ⟨e.val / 2, by omega⟩

/-- The engine takes frames: its domain awake, its pair active, no activation under way; engines 1-7 from bring-up step
10 on (R71). -/
def State.engineRuns (s : State) (e : Fin 8) : Bool :=
  s.serveAwake && s.serve.pairs[pairOfEngine e].state == 2
    && (e == 0 || 10 ≤ s.sys.step) && s.sys.warmAt.isNone

/-- The class a free thread takes from (R264): class 0 first, else classes 1 and 2 in the ratio of their weights; the
engine with its round advanced. -/
def State.nextClass (s : State) (g : Engine) : Option (Fin 3) × Engine :=
  if g.queues[0] ≠ [] then (some 0, g)
  else
    match g.queues[1], g.queues[2] with
    | [], [] => (none, g)
    | _ :: _, [] => (some 1, g)
    | [], _ :: _ => (some 2, g)
    | _ :: _, _ :: _ =>
      if g.round1 < s.nn Obj.class_weight_1 then (some 1, { g with round1 := g.round1 + 1 })
      else if g.round2 < s.nn Obj.class_weight_2 then (some 2, { g with round2 := g.round2 + 1 })
      else (some 1, { g with round1 := 1, round2 := 0 })

/-- A frame has waited more than queue_age_limit; frames that arrive during an activation (R286) or waited out a block
reset (R390) are not checked. -/
def State.isStale (s : State) (p : Pkt) : Bool :=
  let d := p.stamp / 256
  !(s.serve.prog.noAge.1 ≤ d && d < s.serve.prog.noAge.2) && !p.ageless && ticksUs (s.nn Obj.queue_age_limit) * 256 + p.stamp < s.stamp

/-- The address of an entry point from 8 on (R285). -/
def State.entryAddress (s : State) (entry : Nat) : Nat := (s.serve.prog.entries[entry - 8]?).getD 0xFFFFFFFF

/-- Write a register; g0 discards writes (R292). -/
def Thread.setReg (x : Thread) (d : Fin 32) (v : Word64) : Thread := if d = 0 then x else { x with regs := x.regs.set d v }

/-- The frame with the packet window's bytes in place of its first 512. -/
def Thread.packet (x : Thread) : Pkt :=
  match x.work with
  | .frame p => { p with data := patch p.data 0 (x.win.take (min 512 p.data.length)) }
  | _ => {}

/-- The thread holds an entry (R302). -/
def Thread.holds (x : Thread) (i : Nat) : Bool := x.held == some i || x.also.contains i

/-- Another thread of the engine holds the entry, or one that started earlier waits for it (R302). -/
def State.heldElsewhere (s : State) (e : Fin 8) (t : Fin 16) (i : Nat) : Bool :=
  (List.finRange 16).any fun u =>
    let y := s.thread e u
    let earlier := decide (y.serial < (s.thread e t).serial)
    u ≠ t && y.busy && match y.wait with
      | .builtin _ => earlier && (s.builtinKey y.entry y.work).bind s.ctFind == some i
      | .lookup _ _ kind inst _ _ => y.holds i || (earlier && s.ctFind (y.packet.clientKey kind inst) == some i)
      | _ => y.holds i

/-- The entry of a key is in the cache, or the key has none. -/
def State.lookupHits (s : State) (key : Bytes) : Bool :=
  match s.ctFind key with
  | some i => s.serve.ct.cache.any fun l => l.index == i
  | none => false

/-- Begin a built-in program: one whose look-up misses the cache, or finds its entry held by another thread of the engine,
waits for the look-up's completion (R274, R302); the others run at once. A timer event's entry is loaded already (R291). -/
def State.beginBuiltin (s : State) (c : Ctx) (entry : Nat) : State :=
  let x := s.thread c.e c.t
  match s.builtinKey entry x.work with
  | some key =>
    let s := if x.work.isFrame then s.countE c.e 0x0C else s
    let hit := !x.work.isFrame || s.lookupHits key
    if hit && !((s.ctFind key).any fun i => s.heldElsewhere c.e c.t i) then s.runBuiltin c entry false
    else s.setThread c.e c.t (x.waits (.builtin s.now) s.now)
  | none => s.runBuiltin c entry false

/-- Start a thread on a work item (R291); entries 0-7 run their built-in program (R284). -/
def State.startThread (s : State) (e : Fin 8) (t : Fin 16) (w : Work) : State :=
  let entry := match w with | .frame p => p.entry | _ => 7
  let serial := s.serve.serial + 1
  let held := match w with | .timer i _ _ _ => some i | _ => none
  let x : Thread :=
    { busy := true, serial, work := w, entry, pc := if entry < 8 then 0 else s.entryAddress entry, win := s.startWindows w entry,
      held, startedAt := s.now }
  let s := (({ s with serve := { s.serve with serial } } : State).setThread e t x).countE e 0x07
  if entry < 8 then s.beginBuiltin { e, t, serial } entry else s

/-- THREAD_START (R264): a free thread takes the next frame or timer event; a stale frame is discarded (R265). -/
def execThreadStart (engine : Fin 8) (thread : Fin 16) (s : State) : Host.Outcome State Fault Refusal :=
  if !(s.engineRuns engine && !s.blockBusy (0x0200 + engine / 2) && s.serve.prog.activateAt.isNone && !(s.thread engine thread).busy) then .next s
  else
    match s.nextClass s.serve.engines[engine] with
    | (none, _) => .next s
    | (some c, g) =>
      match g.queues[c] with
      | [] => .next s
      | w :: rest =>
        let s := (s.setEngine engine { g with queues := g.queues.set c rest }).bump (Obj.frames_taken engine)
        let s := s.count 10 0x02
        match w with
        | .frame p => if s.isStale p then .next (s.bump (Obj.drop_stale engine)) else .next (s.startThread engine thread w)
        | _ => .next (s.startThread engine thread w)

/-! ## Ends by force (R264, R307) -/

/-- A program fault (R307): counted, the first per second per engine journalled with code 0x5103 (R309). -/
def State.progFault (s : State) (e : Fin 8) (t : Fin 16) (cause : Nat) : State :=
  let x := s.thread e t
  let s := (s.bump (Obj.engine_faults e)).countE e 0x0B
  let s := if s.serve.engines[e].faultSec = some s.second then s
    else (s.setEngine e { s.serve.engines[e] with faultSec := some s.second }).log (engineSource e) 0x5103
      (beNat 2 x.pc ++ beNat 1 cause ++ beNat 1 x.entry)
  s.endThread e t 3 false

/-- INSTRUCTION_LIMIT (R264): a thread that has issued instr_limit instructions is stopped; code 0x5001, the first per
second per engine. -/
def execInstructionLimit (engine : Fin 8) (thread : Fin 16) (s : State) : Host.Outcome State Fault Refusal :=
  let x := s.thread engine thread
  if !(x.busy && s.nn Obj.instr_limit ≤ x.issued) then .next s
  else
    let s := (s.bump (Obj.engine_faults engine)).countE engine 0x0B
    let s := if s.serve.engines[engine].limitSec = some s.second then s
      else (s.setEngine engine { s.serve.engines[engine] with limitSec := some s.second }).log (engineSource engine) 0x5001
        (beNat 2 x.pc ++ beNat 1 x.entry)
    .next (s.endThread engine thread 4 false)

/-! ## Lookups (R274, R302) -/

/-- A lookup answers its thread: the status, and the entry it loads and holds. -/
def State.lookupAnswer (s : State) (e : Fin 8) (t : Fin 16) (dest : Nat) (status : Nat) (entry : Option Nat) : State :=
  let x := s.thread e t
  let x := match entry with
    | some i => { x with win := patch x.win 0x200 (field ((s.ctEntry i).getD []) 0 64), held := some i,
                         also := x.also ++ (x.held.toList.filter fun j => j ≠ i) }
    | none => x
  let x := if x.wait = .none then x else x.ready s.now
  s.setThread e t (x.setReg (Fin.ofNat 32 dest) (BitVec.ofNat 64 status))

/-- Carry out a clook or a ccreate (R302); none while another thread of the engine holds the entry. -/
def State.runLookup (s : State) (e : Fin 8) (t : Fin 16) (create : Bool) (dest kind inst : Nat) (take : Bool) : Option State :=
  let key := (s.thread e t).packet.clientKey kind inst
  match s.ctFind key with
  | some i =>
    if s.heldElsewhere e t i then none
    else
      let (ok, s) := s.ctTouch i (take && !create)
      some (s.lookupAnswer e t dest (if create then 2 else if ok then 0 else 1) (some i))
  | none =>
    if !create then some (s.lookupAnswer e t dest 2 none)
    else
      let (i, s) := s.ctCreate key kind
      some (s.lookupAnswer e t dest (if i.isSome then 0 else 1) i)

/-- CLIENT_LOOKUP_COMPLETE (R274): a lookup completes, or returns late at lookup_deadline. -/
def execClientLookupComplete (engine : Fin 8) (thread : Fin 16) (s : State) : Host.Outcome State Fault Refusal :=
  let x := s.thread engine thread
  match x.busy, x.wait with
  | true, .lookup create dest kind inst take since =>
    if since + ticksUs (s.nn Obj.lookup_deadline) < s.now then
      .next (((s.bump Obj.ct_late).countE engine 0x0D).lookupAnswer engine thread dest 3 none)
    else
      match s.runLookup engine thread create dest kind inst take with
      | some u => .next u
      | none => .next s
  | true, .builtin since =>
    let c : Ctx := { e := engine, t := thread, serial := x.serial }
    let late := x.work.isFrame && decide (since + ticksUs (s.nn Obj.lookup_deadline) < s.now)
    let key := s.builtinKey x.entry x.work
    if !late && ((key.bind s.ctFind).any fun i => s.heldElsewhere engine thread i) then .next s
    else
      let u := s.setThread engine thread (x.ready s.now)
      .next ((if late then (u.bump Obj.ct_late).countE engine 0x0D else u).runBuiltin c x.entry late)
  | _, _ => .next s

/-! ## AES jobs (R270, R303) -/

/-- Jobs on the lanes: the 24 oldest; while the lanes go idle, those that ran at the request (R390). -/
def State.aesRunning (s : State) : Nat :=
  match s.sys.block with
  | some b => if b.code = 0x0300 then b.aes else 24
  | none => 24

/-- AES_JOB_COMPLETE (R270): one of the 24 oldest jobs ends on its lane; its output goes to the thread's window, and an
aesw waiting for it returns. The output of a job whose thread has ended is discarded. -/
def execAesJobComplete (engine : Fin 8) (thread : Fin 16) (tag : Nat) (s : State) : Host.Outcome State Fault Refusal :=
  match (s.serve.jobs.take s.aesRunning).find? fun j => j.engine = engine && j.thread = thread && j.tag = tag with
  | none => .next s
  | some j =>
    let sys := { s.sys with block := s.sys.block.map fun b => { b with aes := b.aes - 1 } }
    let s : State := { s with serve := { s.serve with jobs := s.serve.jobs.erase j }, sys := sys }
    let s := s.bump Obj.aes_blocks j.blocks
    let s := if j.status = 1 then s.bump Obj.aes_auth_fail else s
    let x := s.thread engine thread
    if !(x.busy && x.serial = j.serial) then .next s
    else
      let x := { x with win := patch x.win j.out j.result, jobs := x.jobs.erase tag }
      match x.wait with
      | .aes dest tg =>
        if tg = tag then .next (s.setThread engine thread ((x.ready s.now).setReg (Fin.ofNat 32 dest) (BitVec.ofNat 64 j.status)))
        else .next (s.setThread engine thread { x with doneJobs := x.doneJobs ++ [(tag, j.status)] })
      | _ => .next (s.setThread engine thread { x with doneJobs := x.doneJobs ++ [(tag, j.status)] })

/-! ## Engine pairs (R283) -/

/-- Work of a bucket is queued at or held by an engine. -/
def State.bucketBusy (s : State) (b : Nat) : Bool :=
  s.serve.engines.toList.any fun g =>
    g.queues.toList.any (fun q => q.any fun w => w.bucket == b) || g.threads.toList.any fun x => x.busy && x.work.bucket == b

/-- Move every bucket that may move to its target engine, once that engine's pair serves; then queue the work that waited
for a move. -/
def State.moveBuckets (s : State) : State :=
  let s := (List.range 256).foldl (fun (s : State) b =>
    let e := bucketTarget (max 1 s.serve.keepPairs) b
    if s.moves b && !s.bucketBusy b && (s.serve.pairs[(Fin.ofNat 4 (e / 2))]).state = 2 then s.putN (Obj.bucket_map b) e else s) s
  let held := s.serve.moving
  held.foldl (fun (s : State) w =>
    let c : Fin 3 := match w with | .frame p => Fin.ofNat 3 p.cls | _ => 0
    s.enqueue w c) { s with serve := { s.serve with moving := [] } }

/-- Half the slots an engine pair issues in 1 ms: 4 per cycle at 1.6 GHz. -/
abbrev engineSlotsPerMs : Nat := 6400000

/-- CONSOLIDATION_EVALUATE (R283): each 1 ms, the smallest number of pairs whose capacity exceeds the demand divided by
consolidate_target; with consolidate_enable false all four. -/
def execConsolidationEvaluate (s : State) : Host.Outcome State Fault Refusal :=
  if !(s.serveAwake && 10 ≤ s.sys.step && s.serve.demandNext ≤ s.now) then .next s
  else
    let demand := s.serve.engines.toList.foldl (fun a g => a + g.demand) 0
    let k := if s.flag Obj.consolidate_enable then
        (([1, 2, 3].find? fun k => demand * 100 < k * 2 * engineSlotsPerMs * s.nn Obj.consolidate_target).getD 4) else 4
    let s : State := { s with serve := { s.serve with keepPairs := k, demandNext := s.now + ticksMs 1,
                                                      engines := s.serve.engines.map fun g => { g with demand := 0 } } }
    let s := (List.finRange 4).foldl (fun (s : State) (p : Fin 4) => if p.val < k then s.wakePair p else s) s
    .next (if s.mode.cur = .steep then s else s.moveBuckets)

/-- PAIR_GATE (R283): a pair that holds no bucket and has had no busy thread for gate_delay is gated; code 0x5003. -/
def execPairGate (pair : Fin 4) (s : State) : Host.Outcome State Fault Refusal :=
  let p := s.serve.pairs[pair]
  let es := [2 * pair.val, 2 * pair.val + 1]
  let holds := (List.range 256).any fun b => es.contains (s.nn (Obj.bucket_map b))
  let busy := (List.finRange 8).any fun e => es.contains e.val &&
    ((s.serve.engines[e].threads.toList.any fun x => x.busy) || s.serve.engines[e].queues.toList.any fun q => !q.isEmpty)
  if s.serveAwake && !s.blockBusy (0x0200 + pair) && s.flag Obj.consolidate_enable && s.mode.cur != .steep && p.state = 2 && s.serve.keepPairs ≤ pair.val
      && !holds && !busy && p.idleAt + ticksMs (s.nn Obj.gate_delay) ≤ s.now then
    .next (({ s with serve := { s.serve with pairs := s.serve.pairs.set pair { p with state := 0 } } } : State).log
      (0x0600 + 2 * pair.val) 0x5003 [0])
  else .next s

/-- PAIR_WAKE_COMPLETE (R283): a woken pair serves; code 0x5003. -/
def execPairWakeComplete (pair : Fin 4) (s : State) : Host.Outcome State Fault Refusal :=
  let p := s.serve.pairs[pair]
  if s.serveAwake && !s.blockBusy (0x0200 + pair) && p.state = 1 then
    let s : State := { s with serve := { s.serve with pairs := s.serve.pairs.set pair { p with state := 2, idleAt := s.now } } }
    let s := (s.bump (Obj.wake_count (2 * pair.val))).bump (Obj.wake_count (2 * pair.val + 1))
    let s := s.log (0x0600 + 2 * pair.val) 0x5003 [1]
    .next (if s.mode.cur = .steep then s else s.moveBuckets)
  else .next s

/-- active_pairs (0x5000.09). -/
def State.activePairs (s : State) : Nat := (s.serve.pairs.toList.filter fun p => p.state = 2).length

/-- engine_state (R283). -/
def State.engineState (s : State) (e : Fin 8) : Nat := if s.serveAwake then s.serve.pairs[pairOfEngine e].state else 0

/-! ## The timer wheel (R277) -/

/-- The period of a log2 interval in slots of 1/1024 s. -/
def slotsOf (l : Int) : Nat := max 1 (if 0 ≤ l then 1024 * 2 ^ l.toNat else 1024 / 2 ^ l.natAbs)

/-- A slot lies on the grid k T + phi, phi a hash modulo T. -/
def onGrid (slot hash period : Nat) : Bool := slot % period = hash % period

/-- The hash of R262 for a client entry: its source address and VID. -/
def entryHash (d : Bytes) : Nat :=
  let f := fieldN d 1 1
  let addr := if bit f 4 then field d 18 6 else if bit f 7 then field d 8 16 else field d 20 4
  crc32c (addr ++ beNat 2 (fieldN d 4 2 % 4096))

/-- The raw stamp of a slot's instant, the present tick at the latest. -/
def State.slotStamp (s : State) (slot : Nat) : Nat :=
  let t : Int := slot * unitsPerS / 1024
  min s.stamp (s.seg.tickReaching t 0 * 256)

/-- The events of a slot: of live grants, then of the multicast ports. -/
def State.slotEvents (s : State) (slot : Nat) : List Work :=
  let due := s.slotStamp slot
  let grants := if s.serve.ct.badSlots.contains slot then [] else s.ctAll.flatMap fun p =>
    let d := p.2
    let h := entryHash d
    if fieldN d 0 1 ≠ 2 then []
    else
      (if s.grantLive d 0 && onGrid slot h (slotsOf (signed 8 (fieldN d 43 1))) then [Work.timer p.1 1 (h % 256) due] else [])
        ++ (if s.grantLive d 11 && onGrid slot h (slotsOf (signed 8 (fieldN d 44 1))) then [Work.timer p.1 2 (h % 256) due] else [])
  let ports := (List.finRange 4).flatMap fun i => (List.finRange 64).flatMap fun n =>
    if s.unicastOn i || s.profile i = 3 || !s.transmits i n then []
    else
      (if onGrid slot n (slotsOf (s.logSync i)) then [Work.port i n 1 due] else [])
        ++ (if onGrid slot n (slotsOf (s.logAnnounce i)) then [Work.port i n 2 due] else [])
  grants ++ ports

/-- TIMER_WHEEL_SLOT (R277): the events of the present slot; slots passed over, and slots due while serving is stopped,
are skipped. -/
def execTimerWheelSlot (s : State) : Host.Outcome State Fault Refusal :=
  let slot := (s.time * 1024 / unitsPerS).toNat
  if !(s.serveAwake && s.serve.ct.ready && s.sys.warmAt.isNone && s.tb.running && s.serve.ct.wheel ≠ slot + 1) then .next s
  else
    let s := (s.setCt { s.serve.ct with wheel := slot + 1 }).qualifyPorts
    if s.serve.stopped then .next s
    else .next ((s.slotEvents slot).foldl (fun (s : State) w => (s.count 10 0x0A).enqueue w 0) s)

/-! ## Programs (R284-R286, R308) -/

/-- The fields of an instruction (R292). -/
def opOf (w : Word64) : Nat := w.toNat / 2 ^ 56
def destOf (w : Word64) : Fin 32 := Fin.ofNat 32 (w.toNat / 2 ^ 51)
def srcAOf (w : Word64) : Fin 32 := Fin.ofNat 32 (w.toNat / 2 ^ 46)
def srcBOf (w : Word64) : Fin 32 := Fin.ofNat 32 (w.toNat / 2 ^ 41)
def flagOf (w : Word64) (b : Nat) : Bool := w.toNat / 2 ^ b % 2 = 1
def immOf (w : Word64) : Nat := w.toNat % 2 ^ 32

/-- Bits of an opcode's word that it uses: dest, srcA, srcB (2^51 to 2^41 fields), flags and immediate bits; none for a
reserved opcode (R292, R298). -/
def usedBits (op : Nat) (immediate : Bool) : Option Nat :=
  let d := 31 * 2 ^ 51
  let a := 31 * 2 ^ 46
  let b := 31 * 2 ^ 41
  let alu := d + a + 2 ^ 32 + (if immediate then 2 ^ 33 + (2 ^ 32 - 1) else b)
  let br := a + 2 ^ 32 + (2 ^ 14 - 1) + (if immediate then 65535 * 65536 else b)
  if op = 0x00 then some 0
  else if 1 ≤ op && op ≤ 0x0E then some alu
  else if op = 0x0F then some (d + a + (2 ^ 32 - 1))
  else if 0x10 ≤ op && op ≤ 0x15 then some br
  else if op = 0x16 || op = 0x17 then some (a + 63 * 65536 + (2 ^ 14 - 1))
  else if op = 0x18 || op = 0x19 then some (2 ^ 14 - 1)
  else if op = 0x1A then some 0
  else if op = 0x1B then some 7
  else if 0x20 ≤ op && op ≤ 0x23 then some (d + a + 1023)
  else if 0x24 ≤ op && op ≤ 0x27 then some (a + b + 1023)
  else if op = 0x28 then some (a + b + 1023 + (2 ^ 32 - 2 ^ 12))
  else if op = 0x29 then some (d + a + 1023 + 1023 * 65536)
  else if op = 0x2A then some 0xFF0F
  else if op = 0x30 then some (d + 65535 + 2 ^ 34)
  else if op = 0x31 then some (d + 65535)
  else if op = 0x32 then some 0
  else if op = 0x38 || op = 0x42 then some d
  else if op = 0x40 || op = 0x41 then some (d + a)
  else if op = 0x50 then some (d + a + b + 1023 + 15 * 65536 + 2 ^ 36)
  else if op = 0x51 then some (255 + 2 ^ 35)
  else if op = 0x52 then some 65535
  else if op = 0x58 then some (a + 255)
  else none

/-- An encoding that R308 rejects: a reserved opcode, field, flag or bit; a length of cpy or csum outside 1-512; a counter
below 128; a ring other than 6 or 8-127; a reserved insert kind; an entry kind other than 1 or 2. -/
def badEncoding (w : Word64) : Bool :=
  let op := opOf w
  let imm := immOf w
  match usedBits op (flagOf w 32) with
  | none => true
  | some m =>
    w.toNat % 2 ^ 56 &&& m != w.toNat % 2 ^ 56
      || (op == 0x28 && !(1 ≤ imm % 1024 && imm % 1024 ≤ 512))
      || (op == 0x29 && !(1 ≤ imm / 65536 % 1024 && imm / 65536 % 1024 ≤ 512))
      || ((op == 0x58 || (op == 0x51 && flagOf w 35)) && imm % 256 < 128)
      || (op == 0x52 && !(imm % 256 = 6 || (8 ≤ imm % 256 && imm % 256 ≤ 127)))
      || (op == 0x50 && 3 < imm / 65536 % 16)
      || ((op == 0x30 || op == 0x31) && !(imm % 256 = 1 || imm % 256 = 2))

/-- A branch, jump or call target outside region B (R286). -/
def badTarget (w : Word64) : Bool := 0x10 ≤ opOf w && opOf w ≤ 0x19 && immOf w % 16384 < 10240

/-- The parts of a program image (R285). -/
def imageCount (b : Bytes) : Nat := fieldN b 6 2
def imageCode (b : Bytes) : List Word64 := (List.range (imageCount b)).map fun i => BitVec.ofNat 64 (fieldN b (64 + 8 * i) 8)
def imageEntries (b : Bytes) : List Nat := (List.range 8).map fun i => fieldN b (24 + 4 * i) 4
def imageSize (b : Bytes) : Nat := 64 + 8 * imageCount b + 96

/-- The layout of an image is right (R285); its reserved bytes are ignored (R7, log entry 181). -/
def imageLayoutOk (b : Bytes) : Bool :=
  160 ≤ b.length && fieldN b 0 4 == 0x53505247 && fieldN b 4 1 == 1 && (fieldN b 5 1 = 1 || fieldN b 5 1 = 2)
    && 1 ≤ imageCount b && imageCount b ≤ 6144
    && imageSize b ≤ b.length

/-- The public key an image names (R360); none when unknown. -/
def State.programKey (s : State) (b : Bytes) : Option Bytes :=
  let id := fieldN b 8 8
  if fieldN b 5 1 = 1 then (if id = s.nn Obj.sirkor_program_key_id then some Config.sirkorProgramKey else none)
  else
    let k := s.octs Obj.owner_program_key
    if k ≠ [] && id = s.nn Obj.owner_program_key_id then some k else none

/-- The reject cause of an image (R286): layout, key, signature, entries, branch targets, encodings, in this order. -/
def State.imageCause (s : State) (b : Bytes) : Nat :=
  if !imageLayoutOk b then 3
  else
    match s.programKey b with
    | none => 2
    | some k =>
      let body := b.take (imageSize b - 96)
      let outside := fun (a : Nat) => a ≠ 0xFFFFFFFF && !(10240 ≤ a && a ≤ 16383)
      if !sigVerify 1 k body (field b (imageSize b - 96) 96) then 1
      else if (imageEntries b).any outside then 4
      else if (imageCode b).any badTarget then 5
      else if (imageCode b).any badEncoding then 6
      else 0

/-- Start the check of a staged image (R286). -/
def State.startVerify (s : State) (image : Bytes) : State :=
  let s : State := { s with serve := { s.serve with prog := { s.serve.prog with staging := image, checking := true, verified := none } } }
  (s.putN Obj.program_status 1).putN Obj.program_reject_cause 0

/-- PROGRAM_VERIFY (R286): a commit stages an image. -/
def execProgramVerify (image : Bytes) (s : State) : Host.Outcome State Fault Refusal :=
  if s.serveAwake then .next (s.startVerify image) else .next s

/-- PROGRAM_VERIFY_COMPLETE (R286): verified, or rejected with code 0x5101. -/
def execProgramVerifyComplete (s : State) : Host.Outcome State Fault Refusal :=
  let g := s.serve.prog
  if !(s.serveAwake && g.checking) then .next s
  else
    let cause := s.imageCause g.staging
    let ok := cause = 0
    let s : State := { s with serve := { s.serve with prog := { g with checking := false, verified := if ok then some g.staging else none } } }
    let s := (s.putN Obj.program_status (if ok then 2 else 3)).putN Obj.program_reject_cause cause
    if ok then .next (s.putN Obj.program_version_staged (fieldN g.staging 16 4)) else .next (s.log 0 0x5101 (beNat 1 cause))

/-- Load an image into region B of every engine. -/
def State.loadImage (s : State) (b : Bytes) : State :=
  let s : State := { s with serve := { s.serve with prog := { s.serve.prog with regionB := imageCode b, entries := imageEntries b, active := some (b.take (imageSize b)) } } }
  (s.putN Obj.program_version_active (fieldN b 16 4)).putN Obj.program_signer_active (fieldN b 5 1)

/-- A commit of program_activate takes effect: engines stop taking frames (R286). -/
def State.beginActivation (s : State) (persist : Bool) : State :=
  { s with serve := { s.serve with prog := { s.serve.prog with activateAt := some s.now, activating := s.serve.prog.verified, persistIt := persist } } }

/-- PROGRAM_ACTIVATE (R286): once every thread has ended, region B is loaded and the engines resume; code 0x5102. -/
def execProgramActivate (s : State) : Host.Outcome State Fault Refusal :=
  let busy := s.serve.engines.toList.any fun g => g.threads.toList.any fun x => x.busy
  match s.serve.prog.activateAt, s.serve.prog.activating with
  | some t, some b =>
    if busy || !s.serveAwake then .next s
    else
      let s := s.loadImage b
      let s : State := { s with serve := { s.serve with prog := { s.serve.prog with activateAt := none, activating := none, noAge := (s.tb.raw - (s.now - t), s.tb.raw) } } }
      let s := (s.putN Obj.program_status 4).putB Obj.program_activate false
      .next (s.log 0 0x5102 (beNat 4 (fieldN b 16 4) ++ beNat 1 (fieldN b 5 1)))
  | _, _ => .next s

/-- A commit of program_counter_clear := true clears counters 128-255; the device writes false (R309). -/
def State.clearCounters (s : State) : State :=
  ((List.range 128).foldl (fun (s : State) k => s.putN (Obj.program_counters (128 + k)) 0) s).putB Obj.program_counter_clear false

/-- PROGRAM_COUNTER_CLEAR (R309). -/
def execProgramCounterClear (s : State) : Host.Outcome State Fault Refusal :=
  if s.serveAwake then .next s.clearCounters else .next s

end Sys2Proof.Machine
end

