-- ==== Sys2Proof/Machine/Egress.lean ====
section
/-! DEFINITION. The egress schedulers (R244, R269, R253, R282) and departures (R246-R249). -/

namespace Sys2Proof.Machine

/-- The departure tick of a frame fixed now (R244). -/
def State.earliest (s : State) : Nat := s.tb.raw + 1024

/-- The wake from low-power idle begins: no departure within 5 µs (R253). -/
def State.wakeLine (s : State) (n : Fin 64) : State :=
  let s := s.endLpi n
  s.setPort n { s.ports[n] with lineFree := max s.ports[n].lineFree (s.tb.raw + 6250) }

/-- The end of the SFD lies where the PCS may put it for a departure tick (R244): less than one start-position period after
D, the coded octets of preamble and SFD, and what parity and markers may fall before it. -/
def State.sfdFits (s : State) (n : Fin 64) (d : Nat) (edge : Rat) (o : Nat) : Bool :=
  let speed := s.nn (Obj.speed_resolved n)
  let ui := s.uiOf n true
  let (least, most) := sfdBits speed (s.nn (Obj.fec_resolved n))
  let t := edge + o * ui - d
  o ≤ modeWord speed && decide (least * ui ≤ t) && decide (t < startPeriod speed + most * ui)

/-- The scheduler may take a frame now: while serving is stopped only calibration frames and ring 128 (R282); not before
its not_before (R269). -/
def State.mayFix (s : State) (d : Nat) (f : EFrame) : Bool := f.notBefore ≤ d && (!s.serve.stopped || f.cls ≤ 1)

/-- The first frame in the order of R269. -/
def State.nextFrame (s : State) (n : Fin 64) (d : Nat) : Option EFrame :=
  (List.range 5).findSome? fun c => s.ports[n].egress.find? fun f => f.cls == c && s.mayFix d f

/-- Octets a frame occupies on the line: preamble and SFD, the padded frame, FCS, inter-packet gap. -/
def lineOctets (f : EFrame) : Nat := 8 + max 60 f.data.length + 4 + 12

/-- A calibration frame's own stamp, without cal_correction (R243). -/
def State.calSent (s : State) (n : Fin 64) (seq stamp : Nat) : State :=
  match s.calPairOf n with
  | none => s
  | some (lo, hi) => s.pairStamp lo hi seq fun c => if n = lo then { c with t1 := some stamp } else { c with t3 := some stamp }

/-- Fix the departure of a frame at tick d; the edge of word m is predicted at `edge`, the SFD ends at bit o. -/
def State.fixFrame (s : State) (n : Fin 64) (f : EFrame) (d : Nat) (edge : Rat) (o : Nat) : State :=
  let rest := s.txRest n o
  let stamp := rne7 (edge + rest)
  let calStamp := rne7 (edge + s.txRest n o false)
  let u := s.ports[n]
  let time := s.convertAhead stamp
  let x : Fixed := { frame := f, depart := d, stamp, time, edge, rest, fitted := s.nn (Obj.tx_sentinel_state n) == 2,
                     ins := s.insertions f.kind f.offset stamp time f.data }
  let s := s.setPort n { u with fixed := u.fixed ++ [x], lastFix := s.now,
                                lineFree := d + lineTicks (s.nn (Obj.speed_resolved n)) (lineOctets f) }
  let s := match f.cal with | some q => s.calSent n q calStamp | none => s
  (s.emitDone f.owner n (some (d, stamp))).afterFix n f.after stamp

/-- The raw time, in ticks, at which the transmit fit puts the edge of a word: the `word`-th after the first edge at or after
tick d (R239, R244). While the sentinel is not LOCKED there is no fit: the words are counted from d with the nominal unit
interval (R240). -/
def State.txWord (s : State) (n : Fin 64) (d word : Nat) : Rat :=
  let period := modeWord (s.nn (Obj.speed_resolved n)) * s.uiOf n true
  let base : Rat := if s.nn (Obj.tx_sentinel_state n) = 2 then s.ports[n].txEdge else d
  base + ((((d : Rat) - base) / period).ceil + word : Int) * period

/-- DEPARTURE_FIX (R244): 1024 ticks before it departs, the next frame's departure tick and stamp. The PCS counts word m, the
`word`-th after the first word edge at or after D, from the start position, the markers and the parity before it; `o` is the
bit position of the end of the SFD in it. A line that is not yet free, or that first has to wake, is waited for. A frame
with an insertion request is discarded while the transmit sentinel is not LOCKED (R240). -/
def execDepartureFix (port : Fin 64) (word : Nat) (o : Nat) (s : State) : Host.Outcome State Fault Refusal :=
  if !(s.portsAwake && s.linkUp port && s.tb.running && !s.macDown && !s.blockBusy (0x0100 + port)) then .next s
  else
    let d := s.earliest
    match s.nextFrame port d with
    | none => .next s
    | some f =>
      let u := s.ports[port]
      let edge := s.txWord port d word
      if u.lpi.isSome then .next (s.wakeLine port)
      else if d < u.lineFree || !s.sfdFits port d edge o then .next s
      else
      let s := s.setPort port { u with egress := u.egress.erase f }
      if f.kind ≠ 0 && s.nn (Obj.tx_sentinel_state port) ≠ 2 then
        .next (((s.bump (Obj.ts_uncal_drop port)).countP port 0x07).emitDone f.owner port none)
      else .next (s.fixFrame port f d edge o)

/-- FRAME_DEPARTURE (R246): the frame whose departure is fixed leaves at D, timestamp inserted, checksums corrected; the
sentinel then measures the edge of word m, `err` ticks from its prediction, and compares (R248). -/
def execFrameDeparture (port : Fin 64) (err : Rat) (s : State) : Host.Outcome State Fault Refusal :=
  match s.ports[port].fixed with
  | [] => .next s
  | x :: rest =>
    if s.tb.raw < x.depart then .next s
    else
      let (data, skipped) := x.frame.departing x.ins
      let wire := withFcs data
      let u := s.ports[port]
      let s := s.setPort port { u with fixed := rest, wire, txOct := u.txOct + wire.length + 20 }
      let s := if skipped then s.bump (Obj.tx_csum_skip port) else s
      let s := (s.bump (Obj.tx_frames port)).bump (Obj.tx_bytes port) wire.length
      let s := (s.countP port 0x03).countP port 0x04 wire.length
      let s := s.count 10 0x02 ((wire.length + 255) / 256)
      let diff : Int := (rne7 (x.edge + err + x.rest) : Int) - x.stamp
      if !x.fitted || diff.natAbs ≤ 8 then .next s
      else
        let ps := rneDiv (diff * 25) 8
        let s := ((s.bump (Obj.tx_mispredict port)).countP port 0x08).putN (Obj.tx_mispredict_max port)
          (max (s.n (Obj.tx_mispredict_max port)) ps.natAbs)
        if diff.natAbs ≤ 32 then .next s
        else
          let s := if s.nn (Obj.tx_sentinel_state port) = 2 then s.setSentinel port true 1 else s
          if s.ports[port].mispredictAt = some s.second then .next s
          else .next ((s.setPort port { s.ports[port] with mispredictAt := some s.second }).log (portSource port) 0x4004 (be 4 ps))

end Sys2Proof.Machine
end

