-- ==== Sys2Proof/Machine/Copies.lean ====
section
/-! DEFINITION. The boot record and the orbit area of the boot flash (R375, R196, R214): two copies each, of which the one with
the higher sequence whose CRC passes is used. -/

namespace Sys2Proof.Machine

/-- A copy: its sequence, its contents, the CRC-32C over both. -/
def copyBytes (sequence : Nat) (contents : Bytes) : Bytes :=
  let b := beNat 4 sequence ++ contents
  b ++ beNat 4 (crc32c b)

/-- The sequence and the contents of a copy whose CRC passes. -/
def copyOf (b : Bytes) : Option (Nat × Bytes) :=
  let n := b.length - 4
  if decide (8 ≤ b.length) && fieldN (b.drop n) 0 4 == crc32c (b.take n) then some (fieldN b 0 4, (b.take n).drop 4) else none

/-- The copy in force of two: whether it is the second, its sequence, its contents. -/
def copyInForce (a b : Bytes) : Option (Bool × Nat × Bytes) :=
  match copyOf a, copyOf b with
  | some x, some y => if x.1 < y.1 then some (true, y) else some (false, x)
  | some x, none => some (false, x)
  | none, some y => some (true, y)
  | none, none => none

/-- Both copies after a write, which goes to the one that is not in force. -/
def writeCopy (a b contents : Bytes) : Bytes × Bytes :=
  match copyInForce a b with
  | none => (copyBytes 1 contents, b)
  | some (true, n, _) => (copyBytes ((n + 1) % 2 ^ 32) contents, b)
  | some (false, n, _) => (a, copyBytes ((n + 1) % 2 ^ 32) contents)

/-! ## The boot record -/

/-- The record in force: bank and trial flag; with neither copy bank A, no trial. -/
def Flash.boot (f : Flash) : BootRecord :=
  match copyInForce f.bootA f.bootB with
  | some (_, _, c) => { bank := fieldN c 0 1 % 2, trial := bit (fieldN c 1 1) 0 }
  | none => { bank := 0, trial := false }

/-- Write the boot record, alternating between the copies. -/
def Flash.setBoot (f : Flash) (bank : Nat) (trial : Bool) : Flash :=
  let (a, b) := writeCopy f.bootA f.bootB (beNat 1 bank ++ beNat 1 (if trial then 1 else 0))
  { f with bootA := a, bootB := b }

/-! ## The orbit area -/

/-- The contents of the orbit area: whether a position is held and its coordinates, then each record of the store after its
position in the store. DESIGN CHOICE (log entry 197). -/
def orbitContents (recs : List (Nat × Bytes)) (held : Option (Int × Int × Int)) : Bytes :=
  let p := held.getD (0, 0, 0)
  beNat 1 (if held.isSome then 1 else 0) ++ be 8 p.1 ++ be 8 p.2.1 ++ be 8 p.2.2
    ++ recs.flatMap fun r => beNat 2 r.1 ++ padTo 128 r.2

/-- The records that follow one another in the orbit area. -/
def orbitRecords : Nat → Bytes → List (Nat × Bytes)
  | 0, _ => []
  | n + 1, b => (fieldN b 0 2, (b.drop 2).take 128) :: orbitRecords n (b.drop 130)

/-- The orbit area in force. -/
def Flash.orbit (f : Flash) : Option OrbitArea :=
  (copyInForce f.orbitA f.orbitB).map fun (_, _, c) =>
    { recs := orbitRecords ((c.length - 25) / 130) (c.drop 25),
      held := if fieldN c 0 1 % 2 = 1 then some (signed 64 (fieldN c 1 8), signed 64 (fieldN c 9 8), signed 64 (fieldN c 17 8)) else none }

/-- Write a copy of the orbit area: the one not in force, so that a write that is cut short leaves the other. -/
def Flash.writeOrbit (f : Flash) (recs : List (Nat × Bytes)) (held : Option (Int × Int × Int)) : Flash :=
  let (a, b) := writeCopy f.orbitA f.orbitB (orbitContents recs held)
  { f with orbitA := a, orbitB := b }

end Sys2Proof.Machine
end

