-- ==== Sys2Proof/Machine/Memory.lean ====
section
/-! DEFINITION. Byte memories and the big-number engine's shared operations (chapter 14): descriptors, their checks,
chain ends, aborts. -/

namespace Sys2Proof.Machine

/-! ## Byte memories -/

/-- Read a byte: an address not listed reads 0. -/
def memGet : Memory → Nat → Byte
  | [], _ => 0
  | (a, b) :: r, x => if a = x then b else memGet r x

/-- Remove an address. -/
def memDel : Memory → Nat → Memory
  | [], _ => []
  | (a, b) :: r, x => if a = x then r else (a, b) :: memDel r x

/-- Insert or replace at an address. -/
def memIns : Memory → Nat → Byte → Memory
  | [], x, v => [(x, v)]
  | (a, b) :: r, x, v => if x < a then (x, v) :: (a, b) :: r else if a = x then (x, v) :: r else (a, b) :: memIns r x v

/-- Write a byte: a zero is not listed. -/
def memPut (m : Memory) (x : Nat) (v : Byte) : Memory := if v = 0 then memDel m x else memIns m x v

/-- Every listed address lies above a bound and rises; no listed byte is 0. -/
def memWfFrom : Option Nat → Memory → Bool
  | _, [] => true
  | lo, (a, b) :: r => (match lo with | some l => decide (l < a) | none => true) && b != 0 && memWfFrom (some a) r

/-- The canonical form. -/
def memWf (m : Memory) : Bool := memWfFrom none m

/-- Read a range. -/
def memRead (m : Memory) (x n : Nat) : Bytes := (List.range n).map fun i => memGet m (x + i)

/-- Write a range. -/
def memWrite (m : Memory) (x : Nat) : Bytes → Memory
  | [] => m
  | b :: r => memWrite (memPut m x b) (x + 1) r

/-! ## The tile check (R369) -/

/-- The check value of a tile: the CRC-32C of its byte address as a U64 and its 256 bytes. DESIGN CHOICE (log entry 179): the
byte address within its memory, without a space number. -/
def tileCheck (addr : Nat) (tile : Bytes) : Nat := crc32c (beNat 8 addr ++ field tile 0 256)

/-- The check value of a tile of a byte memory, from its bytes. -/
def memCheck (m : Memory) (k : Nat) : Nat := tileCheck (k * 256) (memRead m (k * 256) 256)

/-- The check value held for a tile. -/
def sumOf : List (Nat × Nat) → Nat → Nat
  | [], k => tileCheck (k * 256) []
  | (j, v) :: r, k => if j = k then v else sumOf r k

/-- Put a check value in its place; that of a tile of zeros is not listed. -/
def sumDel : List (Nat × Nat) → Nat → List (Nat × Nat)
  | [], _ => []
  | (j, v) :: r, k => if j = k then r else (j, v) :: sumDel r k

def sumIns : List (Nat × Nat) → Nat → Nat → List (Nat × Nat)
  | [], k, x => [(k, x)]
  | (j, v) :: r, k, x => if k < j then (k, x) :: (j, v) :: r else if j = k then (k, x) :: r else (j, v) :: sumIns r k x

def sumPut (l : List (Nat × Nat)) (k x : Nat) : List (Nat × Nat) := if x = tileCheck (k * 256) [] then sumDel l k else sumIns l k x

/-- The tiles that a range of bytes touches. -/
def tilesOf (x n : Nat) : List Nat := if n = 0 then [] else (List.range ((x + n - 1) / 256 + 1 - x / 256)).map fun i => x / 256 + i

/-- The tiles of which a write covers a part only: they are read and checked first. -/
def partTiles (x n : Nat) : List Nat := (tilesOf x n).filter fun k => k * 256 < x || x + n < k * 256 + 256

/-- The check values after a write of a range: whole tiles and merged ones alike get that of their new bytes. -/
def sumsAfter (m : Memory) (l : List (Nat × Nat)) (x n : Nat) : List (Nat × Nat) :=
  (tilesOf x n).foldl (fun l k => sumPut l k (memCheck m k)) l

/-- The memory of a space the engine addresses: 0 control-processor SRAM, 1 DRAM, 2 key RAM (R334); its check values. -/
def MemUnits.space (u : MemUnits) (sp : Nat) : Memory := if sp = 0 then u.sram else if sp = 1 then u.dram else u.key

def MemUnits.sums (u : MemUnits) (sp : Nat) : List (Nat × Nat) :=
  if sp = 0 then u.sramSums else if sp = 1 then u.dramSums else u.keySums

/-- Write bytes to a space, the check values of their tiles with them (R369). -/
def MemUnits.write (u : MemUnits) (sp x : Nat) (b : Bytes) : MemUnits :=
  let m := memWrite (u.space sp) x b
  let l := sumsAfter m (u.sums sp) x b.length
  if sp = 0 then { u with sram := m, sramSums := l } else if sp = 1 then { u with dram := m, dramSums := l }
  else { u with key := m, keySums := l }

/-- A tile of a space passes its check when it is read, a byte of the space having changed by the given bits. -/
def MemUnits.passes (u : MemUnits) (sp : Nat) (bad : Option (Nat × Byte)) (k : Nat) : Bool :=
  let t := memRead (u.space sp) (k * 256) 256
  let t := match bad with
    | some (a, x) => if a / 256 = k then patch t (a % 256) [memGet (u.space sp) a ^^^ x] else t
    | none => t
  tileCheck (k * 256) t == sumOf (u.sums sp) k

/-- The size of a space in bytes: the control-processor cache of 4 MiB, the fitted DRAM, 256 KiB of key RAM (R350, R364,
R368); none for a reserved space. -/
def State.spaceSize (s : State) (sp : Nat) : Option Nat :=
  if sp = 0 then some (4 * 2 ^ 20) else if sp = 1 then some (s.nn Obj.dram_capacity * 2 ^ 20)
  else if sp = 2 then some (256 * 2 ^ 10) else none

/-- The parts of an address (R334): space, byte address; bits [59:48] are reserved. -/
def spaceOf (a : Nat) : Nat := a / 2 ^ 60 % 16
def byteOf (a : Nat) : Nat := a % 2 ^ 48

/-- Read and write bytes at an address of R334. -/
def State.bnRead (s : State) (a n : Nat) : Bytes := memRead (s.mem.space (spaceOf a)) (byteOf a) n

def State.bnWrite (s : State) (a : Nat) (b : Bytes) : State :=
  { s with mem := s.mem.write (spaceOf a) (byteOf a) b }

/-- The first tile of a range of R334 that fails its check when it is read, a byte of memory having changed: its address. -/
def State.failedTile (s : State) (bad : Option (Nat × Byte)) (parts : Bool) (r : Nat × Nat) : Option Nat :=
  let sp := spaceOf r.1
  let here := bad.bind fun p => if spaceOf p.1 = sp then some (byteOf p.1, p.2) else none
  let l := if parts then partTiles (byteOf r.1) r.2 else tilesOf (byteOf r.1) r.2
  (l.find? fun k => !s.mem.passes sp here k).map fun k => sp * 2 ^ 60 + k * 256

/-! ## Commands (R332) -/

/-- The low `w` words of a number. -/
abbrev words (w x : Nat) : Nat := x % 2 ^ (64 * w)

/-- C + A·b, and C + A·B, in their destination's words (R332). -/
def rowMac (w a b c : Nat) : Nat := words (w + 1) (c + a * b)

def product (w v a b c : Nat) : Nat := words (w + v) (c + a * b)

/-- One Montgomery row (R332). -/
def montRow (w a b n n' c : Nat) : Nat :=
  let m := (c % 2 ^ 64 + a % 2 ^ 64 * b) * n' % 2 ^ 64
  words (w + 1) ((c + a * b + m * n) / 2 ^ 64)

/-! ## Descriptors (R334, R336) -/

/-- A descriptor. -/
structure BnDesc where
  op : Nat
  flags : Nat
  accMode : Nat
  rsv : Nat
  lenA : Nat
  lenB : Nat
  a : Nat
  b : Nat
  c : Nat
  n : Nat
  nPrime : Nat
  d : Nat
  link : Nat
deriving DecidableEq, Repr

/-- The descriptor that 64 bytes hold. -/
def descOf (x : Bytes) : BnDesc :=
  { op := fieldN x 0 1, flags := fieldN x 1 1, accMode := fieldN x 2 1, rsv := fieldN x 3 1, lenA := fieldN x 4 2,
    lenB := fieldN x 6 2, a := fieldN x 8 8, b := fieldN x 16 8, c := fieldN x 24 8, n := fieldN x 32 8,
    nPrime := fieldN x 40 8, d := fieldN x 48 8, link := fieldN x 56 8 }

def BnDesc.linked (d : BnDesc) : Bool := bit d.flags 7
def BnDesc.signals (d : BnDesc) : Bool := bit d.flags 6
def BnDesc.reuseA (d : BnDesc) : Bool := bit d.flags 5
def BnDesc.reuseN (d : BnDesc) : Bool := bit d.flags 4
def BnDesc.writes (d : BnDesc) : Bool := bit d.flags 3

/-- Words of the result, which are those of C. -/
def BnDesc.lenC (d : BnDesc) : Nat := if d.op = 2 then d.lenA + d.lenB else d.lenA + 1

/-- The source ranges read: address and bytes. -/
def BnDesc.sources (d : BnDesc) : List (Nat × Nat) :=
  (if d.reuseA then [] else [(d.a, 8 * d.lenA)]) ++ [(d.b, 8 * d.lenB)]
    ++ (if d.accMode = 0 then [(d.c, 8 * d.lenC)] else [])
    ++ (if d.op = 3 && !d.reuseN then [(d.n, 8 * d.lenA)] else [])

/-- Arithmetic cycles of a descriptor, by its operation and lengths alone (R333, R337). -/
def BnDesc.cycles (d : BnDesc) : Nat :=
  let rows := (d.lenA + 15) / 16
  6 + (if d.op = 2 then d.lenB * rows else if d.op = 3 then 2 * rows else rows)

/-- Cycles of its transfers with key RAM, which never vary (R338). -/
def BnDesc.keyCycles (d : BnDesc) : Nat :=
  ((d.sources ++ if d.writes then [(d.d, 8 * d.lenC)] else []).map fun r => if spaceOf r.1 = 2 then 4 + (r.2 + 15) / 16 else 0).sum

/-- A range lies in a space that exists. -/
def State.rangeOk (s : State) (r : Nat × Nat) : Bool :=
  match s.spaceSize (spaceOf r.1) with
  | some z => decide (byteOf r.1 + r.2 ≤ z)
  | none => false

/-- The status a descriptor is rejected with at its fetch; 0 accepted (R336). Reserved bits and bytes, and the fields that
are zero for an operation without N, are ignored (R7). -/
def State.descStatus (s : State) (c : BnChain) (d : BnDesc) : Nat :=
  let follows := c.prevA == some d.lenA
  let named := d.sources.map (fun r => r.1) ++ (if d.writes then [d.d] else [])
  let encoding := !(1 ≤ d.op && d.op ≤ 3) || 2 < d.accMode || named.any (fun a => a % 8 != 0)
  let length := !(1 ≤ d.lenA && d.lenA ≤ 128) || (if d.op = 2 then !(1 ≤ d.lenB && d.lenB ≤ 128) else d.lenB != 1)
    || 4096 ≤ c.index
  let reuse := (d.reuseA || d.reuseN || d.accMode == 2) && !follows
  let ranges := d.sources ++ (if d.writes then [(d.d, 8 * d.lenC)] else []) ++ (if d.linked then [(d.link, 64)] else [])
  let keyed := d.sources.any (fun r => spaceOf r.1 == 2) || (d.reuseA && s.bn.aKey) || (d.op == 3 && d.reuseN && s.bn.nKey)
    || (d.accMode == 2 && s.bn.accKey)
  if encoding || length || reuse then 3
  else if !ranges.all s.rangeOk || (d.linked && spaceOf d.link != 0) then 2
  else if keyed && d.writes && spaceOf d.d != 2 then 7
  else 0

/-! ## Chains -/

/-- bn_state follows the engine (0x5800.01). -/
def State.bnShow (s : State) : State :=
  s.putN Obj.bn_state (if s.bn.cur.isSome then 1 else if s.bn.test.isSome then 2 else if s.bn.failed then 3 else 0)

/-- The chain running ends with a status (R336). -/
def State.bnEnd (s : State) (st : Nat) : State :=
  match s.bn.cur with
  | none => s
  | some c =>
    let s : State := { s with bn := { s.bn with cur := none, status := s.bn.status.set c.queue (some st) } }
    let s := if st = 0 then (s.bump Obj.bn_chains).count 8 0x0A else if st = 2 || st = 3 || st = 4 || st = 7 then s.bump Obj.bn_rejects else s
    s.bnShow

/-- The descriptor in progress. -/
def State.bnDesc (s : State) (c : BnChain) : BnDesc := descOf (s.bnRead c.addr 64)

/-- Fetch and check the descriptor the chain has come to (R336). -/
def State.bnFetch (s : State) : State :=
  match s.bn.cur with
  | none => s
  | some c =>
    if s.bn.failed then s.bnEnd 6
    else if !s.rangeOk (c.addr, 64) || spaceOf c.addr ≠ 0 then s.bnEnd 2
    else
      match s.descStatus c (s.bnDesc c) with
      | 0 => s
      | st => s.bnEnd st

/-- Post a chain to a queue; the stores firmware made for it come first (R335). -/
def State.bnPost (s : State) (queue : Fin 4) (addr : Nat) (stores : List (Nat × Bytes)) : State :=
  let s := stores.foldl (fun (s : State) w =>
    if s.rangeOk (w.1, w.2.length) then s.bnWrite w.1 w.2 else s) s
  { s with bn := { s.bn with queues := s.bn.queues.set queue (s.bn.queues[queue] ++ [addr]) } }

/-- Take the next chain in round-robin order (R335). N and n′ before their first load are free values. -/
def State.bnTake (s : State) : State :=
  if s.bn.cur.isSome || s.bn.test.isSome then s
  else
    match ([0, 1, 2, 3] : List (Fin 4)).find? fun k => !(s.bn.queues[s.bn.next + k]).isEmpty with
    | none => s
    | some k =>
      let q := s.bn.next + k
      let (n, s) := s.freeNat
      let (n', s) := s.freeNat
      let s : State := { s with bn := { s.bn with
        cur := some { queue := q, addr := (s.bn.queues[q]).headD 0 }, queues := s.bn.queues.set q (s.bn.queues[q]).tail,
        next := q + 1, cycles := 0, keyCycles := 0, bufN := n, nPrime := n' % 2 ^ 64, nKey := false } }
      s.bnShow.bnFetch

/-- The operands of a descriptor: A, b or B, C, N, n′ (R334). -/
def State.bnOperands (s : State) (d : BnDesc) : Nat × Nat × Nat × Nat × Nat :=
  let num := fun (a w : Nat) => ofBe (s.bnRead a (8 * w))
  let a := if d.reuseA then words d.lenA s.bn.bufA else num d.a d.lenA
  let b := num d.b d.lenB
  let c := if d.accMode = 0 then num d.c d.lenC else if d.accMode = 1 then 0 else words d.lenC s.bn.acc
  let n := if d.op = 3 then (if d.reuseN then words d.lenA s.bn.bufN else num d.n d.lenA) else s.bn.bufN
  let n' := if d.op = 3 && !d.reuseN then d.nPrime else s.bn.nPrime
  (a, b, c, n, n')

/-- The result of a descriptor. -/
def BnDesc.result (d : BnDesc) (x : Nat × Nat × Nat × Nat × Nat) : Nat :=
  let (a, b, c, n, n') := x
  if d.op = 1 then rowMac d.lenA a b c else if d.op = 2 then product d.lenA d.lenB a b c else montRow d.lenA a b n n' c

/-- What a descriptor leaves in the accumulator: the exact sum, whose 257th word a longer C may read (R332, R334). -/
def BnDesc.sum (d : BnDesc) (x : Nat × Nat × Nat × Nat × Nat) : Nat :=
  if d.op = 3 then d.result x else words 257 (x.2.2.1 + x.1 * x.2.1)

/-- The sources' marks of key RAM (R336). -/
def State.bnMarks (s : State) (d : BnDesc) : Bool × Bool × Bool :=
  let aK := if d.reuseA then s.bn.aKey else spaceOf d.a == 2
  let nK := if d.op = 3 then (if d.reuseN then s.bn.nKey else spaceOf d.n == 2) else s.bn.nKey
  let accK := aK || spaceOf d.b == 2 || (d.op == 3 && nK) || (d.accMode == 0 && spaceOf d.c == 2) || (d.accMode == 2 && s.bn.accKey)
  (aK, nK, accK)

/-- Execute the descriptor in progress: the destination, the accumulator and buffers, then the next one or the end. -/
def State.bnExecute (s : State) (c : BnChain) (d : BnDesc) : State :=
  let x := s.bnOperands d
  let (aK, nK, accK) := s.bnMarks d
  let r := d.result x
  let s := if d.writes then s.bnWrite d.d (beNat (8 * d.lenC) r) else s
  let b := { s.bn with acc := d.sum x, accKey := accK, bufA := x.1, aKey := aK, bufN := x.2.2.2.1 }
  let b := { b with cycles := b.cycles + (if c.index = 0 then 0 else 4) + d.cycles, keyCycles := b.keyCycles + d.keyCycles }
  let b := if d.signals then { b with signals := b.signals.set c.queue (b.signals[c.queue] + 1) } else b
  let s : State := { s with bn := { b with nPrime := x.2.2.2.2, nKey := nK } }
  let s := s.bump Obj.bn_descriptors
  if d.linked then
    let s : State := { s with bn := { s.bn with cur := some { c with addr := d.link, index := c.index + 1, prevA := some d.lenA } } }
    s.bnFetch
  else s.bnEnd 0

/-- The destination of a descriptor stopped while it may be writing: of each word, a free value says whether it was
written (R342). -/
def State.bnTorn (s : State) (d : BnDesc) : State :=
  if !d.writes then s
  else
    let r := beNat (8 * d.lenC) (d.result (s.bnOperands d))
    let (m, s) := s.freeNat
    (List.range d.lenC).foldl (fun (s : State) k => if bit m k then s.bnWrite (d.d + 8 * k) (field r (8 * k) 8) else s) s

/-- Stop the chain running (R342): status 1 or 5, code 0x5801, the accumulator and the buffers cleared. -/
def State.bnStop (s : State) (st : Nat) : State :=
  match s.bn.cur with
  | none => s
  | some c =>
    let s := s.bnTorn (s.bnDesc c)
    let s := (s.bnEnd st).bump Obj.bn_aborts
    let s : State := { s with bn := { s.bn with acc := 0, accKey := false, bufA := 0, aKey := false, bufN := 0, nKey := false, nPrime := 0 } }
    s.log 0 0x5801 (beNat 1 st ++ beNat 1 c.queue.val ++ beNat 2 c.index)

/-- Abort a queue (R342): its chain in progress stops, its queued chains end with status 1 and touch no memory. -/
def State.bnAbort (s : State) (queue : Fin 4) : State :=
  let running := match s.bn.cur with | some c => c.queue == queue | none => false
  let waiting := !(s.bn.queues[queue]).isEmpty
  let s := if running then s.bnStop 1 else if waiting then
      (s.bump Obj.bn_aborts).log 0 0x5801 (beNat 1 1 ++ beNat 1 queue.val ++ beNat 2 0) else s
  if waiting then { s with bn := { s.bn with queues := s.bn.queues.set queue [], status := s.bn.status.set queue (some 1) } } else s

/-- A reset of the engine (R342): the chain in progress and every queued chain end with status 5; a queue whose chains all
waited is an abort of its own. -/
def State.bnReset (s : State) : State :=
  let running := s.bn.cur.map fun c => c.queue
  let s := s.bnStop 5
  let s := (List.finRange 4).foldl (fun (s : State) (q : Fin 4) =>
    if (s.bn.queues[q]).isEmpty || running == some q then s
    else (s.bump Obj.bn_aborts).log 0 0x5801 (beNat 1 5 ++ beNat 1 q.val ++ beNat 2 0)) s
  let st := Vector.ofFn fun (q : Fin 4) => if (s.bn.queues[q]).isEmpty then s.bn.status[q] else some 5
  let s : State := { s with bn := { s.bn with queues := Vector.replicate 4 [], status := st, test := none } }
  s.bnShow

/-- Start the self-test (R343). -/
def State.bnTest (s : State) (cause : Nat) : State :=
  if s.bn.test.isSome then s else ({ s with bn := { s.bn with test := some cause } } : State).bnShow

end Sys2Proof.Machine
end

