-- ==== Sys2Proof/Machine/Firmware.lean ====
section
/-! DEFINITION. Firmware images and their trial (R356-R359), activation (R79), the end of SPARGE (R76), debug access
(R361, R362). -/

namespace Sys2Proof.Machine

/-! ## Images (R356) -/

def fwSecurity (b : Bytes) : Nat := fieldN b 6 2
def fwImageVersion (b : Bytes) : Nat := fieldN b 8 4
def fwLength (b : Bytes) : Nat := fieldN b 16 4
/-- Flags bit 0: raise the floor at confirmation. -/
def fwRaises (b : Bytes) : Bool := bit (fieldN b 12 1) 0

/-- The layout of a firmware image is right; what it holds in reserved bits and bytes is ignored (R7). -/
def fwLayoutOk (b : Bytes) : Bool :=
  fieldN b 0 4 == 0x53465731 && fieldN b 4 1 == 1 && fieldN b 5 1 ≤ 3
    && 1 ≤ fwLength b && fwLength b ≤ 6291296 && 160 + fwLength b ≤ b.length

/-- The cause an image is rejected with, as code 0x1405 numbers it; 0 it passes (R356). -/
def State.fwCause (s : State) (b : Bytes) : Nat :=
  let key := fieldN b 5 1
  if !fwLayoutOk b then 4
  else if Config.firmwareRevoked key then 2
  else if fwSecurity b < s.nn Obj.security_floor then 3
  else if !sigVerify 1 (Config.firmwareKey key) (b.take (64 + fwLength b)) (field b (64 + fwLength b) 96) then 1
  else 0

/-! ## The boot record (R375) -/

/-- The image of a bank: 0 A, 1 B. -/
def Flash.image (f : Flash) (bank : Nat) : Bytes := if bank = 0 then f.imageA else f.imageB

def Flash.setImage (f : Flash) (bank : Nat) (b : Bytes) : Flash :=
  if bank = 0 then { f with imageA := b } else { f with imageB := b }

def State.setBoot (s : State) (bank : Nat) (trial : Bool) : State := { s with flash := s.flash.setBoot bank trial }

/-- The running image. -/
def State.runningImage (s : State) : Bytes := s.flash.image (s.nn Obj.fw_running_bank)

/-! ## Activation and trial (R79, R358, R359, R391) -/

/-- The control domain restarts on the image the boot record names. -/
def State.startActivation (s : State) : State :=
  let s := s.resetOol 3
  { s with sys := { s.sys with activation := some s.now }, prot := { s.prot with keConns := [] } }

/-- Journal a trial's start, confirmation or reversion (code 0x1407). -/
def State.logTrial (s : State) (what : Nat) (image : Bytes) : State := s.logSec 0x1407 (be 1 what ++ be 4 (fwImageVersion image))

/-- The trial is confirmed (R359): its flag clears; the floor rises where the image asks for it. -/
def State.confirmTrial (s : State) : State :=
  if !s.flag Obj.fw_trial then s
  else
    let img := s.runningImage
    let s := (s.setBoot (s.nn Obj.fw_running_bank) false).putB Obj.fw_trial false
    let s := s.logTrial 1 img
    if fwRaises img && s.nn Obj.security_floor < fwSecurity img then
      (s.putN Obj.security_floor (fwSecurity img)).logSec 0x140C (be 2 (fwSecurity img))
    else s

/-- The trial is reverted: the boot record returns to the other bank. -/
def State.revertTrial (s : State) : State :=
  let b := s.flash.boot
  if !b.trial then s
  else ((s.setBoot (1 - b.bank) false).putB Obj.fw_trial false).logTrial 2 (s.flash.image b.bank)

/-- SPARGE ends (R76, R359): by a commit, which confirms a trial, or by its timeout, which reverts one and restarts the
control domain. -/
def State.exitSparge (s : State) (byCommit : Bool) : State :=
  let s := s.putB Obj.sparge_request false
  let s : State := { s with mode := { s.mode with spargeDeadline := none, spargeExit := none } }
  let s := s.setMode (conditionMode (s.n Obj.timing_condition)) (if byCommit then 1 else 4)
  if !s.flag Obj.fw_trial then s
  else if byCommit then s.confirmTrial else s.revertTrial.startActivation

/-- FW_VERIFY (R358): the check that a commit of fw_verify began ends with the staged image of the inactive bank passed or
failed; code 0x1406. -/
def execFwVerify (s : State) : Host.Outcome State Fault Refusal :=
  if !s.firmwareUp then .next s
  else
    let img := s.flash.image (1 - s.nn Obj.fw_running_bank)
    let ok := s.fwCause img = 0
    let s := (s.putN Obj.fw_staged_status (if ok then 3 else 4)).putB Obj.fw_verify false
    .next (s.logSec 0x1406 (be 1 (if ok then 1 else 2) ++ be 4 (fwImageVersion img)))

/-- A commit of fw_activate would be accepted (R77, R358). -/
def State.canActivate (s : State) : Bool :=
  s.mode.cur == .sparge && s.nn Obj.fw_staged_status == 3 && s.sched.isEmpty && s.ool.persisting.isNone && s.sys.activation.isNone

/-- The trial of the staged image starts (R358). -/
def State.activateFirmware (s : State) : State :=
  let bank := 1 - s.nn Obj.fw_running_bank
  let s := ((s.setBoot bank true).putB Obj.fw_trial true).putB Obj.fw_activate false
  (s.logTrial 0 (s.flash.image bank)).startActivation

/-- FW_ACTIVATE (R358, R77). -/
def execFwActivate (s : State) : Host.Outcome State Fault Refusal :=
  .next (if s.firmwareUp && s.canActivate then s.activateFirmware else s)

/-- ACTIVATION_COMPLETE (R79): the control domain runs the new image; a deferred exit from SPARGE takes effect. -/
def execActivationComplete (s : State) : Host.Outcome State Fault Refusal :=
  if s.sys.activation.isNone then .next s
  else
    let bank := s.flash.boot.bank
    let s := s.releaseSide 6 true
    let s : State := { s with sys := { s.sys with activation := none, wdAt := s.now } }
    let s := ((s.putN Obj.fw_running_bank bank).putN Obj.fw_running_version (fwImageVersion (s.flash.image bank))).putN Obj.fw_staged_status 0
    .next (match s.mode.spargeExit with
      | some c => s.exitSparge c
      | none => s)

/-! ## Debug access (R361, R362) -/

/-- The 32 bytes of a challenge. -/
def State.challengeBytes (s : State) (random : Bytes) : Bytes :=
  field random 0 16 ++ field (s.octs Obj.id_serial) 0 8 ++ be 4 s.flash.unlocks ++ be 4 0

/-- A challenge is pending: for 300 s. -/
def State.challengePending (s : State) : Bool :=
  match s.sec.challenge with
  | some (_, t) => decide (s.now ≤ t + ticksS 300)
  | none => false

/-- A read of debug_challenge creates a challenge if none is pending. -/
def State.makeChallenge (s : State) : State :=
  if s.challengePending then s
  else
    let (r, s) := s.random 16
    { s with sec := { s.sec with challenge := some (s.challengeBytes r, s.now) } }

/-- DEBUG_CHALLENGE (R362). -/
def execDebugChallenge (s : State) : Host.Outcome State Fault Refusal :=
  .next (if s.firmwareUp then s.makeChallenge else s)

/-- The public key a debug response is checked with: key 0 for either scope, key 1 for scope 1. -/
def State.debugKey (s : State) (scope key : Nat) : Option Bytes :=
  if key = 0 && (scope = 1 || scope = 2) then some Config.sirkorDebugKey
  else if key = 1 && scope = 1 && s.octs Obj.owner_debug_key ≠ [] then some (s.octs Obj.owner_debug_key)
  else none

/-- A response is right: 98 bytes, a pending challenge of at most 300 s, the signature over challenge and scope. -/
def State.responseOk (s : State) (r : Bytes) : Bool :=
  match s.sec.challenge, s.debugKey (fieldN r 0 1) (fieldN r 1 1) with
  | some (c, t), some k =>
    r.length == 98 && s.now ≤ t + ticksS 300 && sigVerify 1 k (c ++ field r 0 1) (field r 2 96)
  | _, _ => false

/-- A debug response (R362): codes 0x1409, 0x140A; scope 2 first zeroises key RAM and disables the storage cipher, and the
device serves without secrets as with a failed engine (R343). -/
def State.debugRespond (s : State) (r : Bytes) : State :=
  let ok := s.responseOk r
  let s : State := { s with sec := { s.sec with challenge := none } }
  if !ok then s.logSec 0x140A (field r 0 1)
  else
    let scope := fieldN r 0 1
    let s := if scope = 2 then
        let s := s.zeroiseKeys
        ({ s with sec := { s.sec with storageOff := true }, bn := { s.bn with failed := true } } : State).bnShow
      else s
    let s : State := { s with flash := { s.flash with unlocks := s.flash.unlocks + 1 } }
    (s.putN Obj.debug_state (max scope (s.nn Obj.debug_state) : Nat)).logSec 0x1409 (field r 0 2)

/-- DEBUG_RESPONSE (R362). -/
def execDebugResponse (response : Bytes) (s : State) : Host.Outcome State Fault Refusal :=
  .next (if s.firmwareUp then s.debugRespond response else s)

/-- DEBUG_CHALLENGE_EXPIRY (R362): after 300 s. -/
def execDebugChallengeExpiry (s : State) : Host.Outcome State Fault Refusal :=
  match s.sec.challenge with
  | some (_, t) => .next (if t + ticksS 300 ≤ s.now then { s with sec := { s.sec with challenge := none } } else s)
  | none => .next s

/-- The four JTAG instructions (R361) select what the test access port does; EXTEST takes the pins while selected. -/
def State.selectJtag (s : State) (i : Jtag) : State := { s with sec := { s.sec with jtag := i } }

def execJtagBypass (s : State) : Host.Outcome State Fault Refusal := .next (s.selectJtag .bypass)

def execJtagIdcode (s : State) : Host.Outcome State Fault Refusal := .next (s.selectJtag .idcode)

def execJtagSamplePreload (s : State) : Host.Outcome State Fault Refusal := .next (s.selectJtag .samplePreload)

def execJtagExtest (s : State) : Host.Outcome State Fault Refusal := .next (s.selectJtag .extest)

end Sys2Proof.Machine
end

