-- ==== Sys2Proof/Machine/Tracking.lean ====
section
/-! DEFINITION. The sky receiver's samples and signals, pins to levels (R181), the table of signals (R185), the correlators
and loops of a tracker (R198), the checks of navigation pages (R201) and the UTC parameters (R202). -/

namespace Sys2Proof.Machine

/-! ## Samples (R179, R181) -/

/-- The raw stamp of grid sample n. -/
def sampleStamp (n : Nat) : Nat := (rneDiv ((n * 16000000 : Nat) : Int) 3069).toNat

/-- The first grid sample at or after a raw stamp. -/
def sampleFrom (stamp : Nat) : Nat := (stamp * 3069 + 15999999) / 16000000

/-- Samples of one ms. -/
abbrev samplesPerMs : Nat := 61380

/-- The value on the used pins of a 4-bit port: the most significant ones (R181). -/
def usedPins (bits pins : Nat) : Nat := pins / 2 ^ (4 - bits)

/-- The level of one port's pins (R181): two's complement, sign and magnitude with the top pin the sign, offset binary. -/
def sampleLevel (format bits pins : Nat) : Int :=
  let y := usedPins bits pins
  let h := 2 ^ (bits - 1)
  match format with
  | 1 => if h ≤ y then -(2 * ((y - h : Nat) : Int) + 1) else 2 * (y : Int) + 1
  | 2 => 2 * ((y : Int) - h) + 1
  | _ => 2 * signed bits y + 1

/-- The largest magnitude of a level of so many bits, in every coding. -/
def largestLevel (bits : Nat) : Nat := 2 ^ bits - 1

/-- The complex sample of a byte of pins, I in bits 7 to 4 and Q in bits 3 to 0 (R181, R223). -/
def complexSample (format bits : Nat) (swap : Bool) (pins : Nat) : Int × Int :=
  let i := sampleLevel format bits (pins / 16 % 16)
  let q := sampleLevel format bits (pins % 16)
  if swap then (q, i) else (i, q)

/-- The samples of one band in a run of bytes that alternate between bands 0 and 1 (R223). -/
def everyOther : Bytes → Bytes
  | a :: _ :: r => a :: everyOther r
  | [a] => [a]
  | [] => []

/-- The sample coding of a band in force. -/
def State.sampleOf (s : State) (b : Fin 2) (pins : Nat) : Int × Int :=
  complexSample (s.nn (Obj.sample_format b)) (s.nn (Obj.sample_bits b)) (s.flag (Obj.iq_swap b)) pins

/-- Some used pin of a band holds one level over a block of samples (R182). -/
def pinStuck (bits : Nat) (block : List (Fin 256 × Nat)) : Bool :=
  let seen := block.filter fun p => 0 < p.2
  (List.range 8).any fun k =>
    4 - bits ≤ k % 4 && (seen.all (fun p => bit p.1 k) || seen.all fun p => !(bit p.1 k))

/-- 0.01 dB of a power ratio, rounded: the nearest integer to 1000 log10(p / q), by bisection. -/
def centibel (p q : Nat) : Int :=
  let a := p ^ 2000
  let b := q ^ 2000
  let below := fun (k : Int) => if k < 0 then b ≤ a * 10 ^ (-k).toNat else b * 10 ^ k.toNat ≤ a
  let twice := (List.range 18).foldl (fun (lo : Int) i => if below (lo + 2 ^ (17 - i)) then lo + 2 ^ (17 - i) else lo) (-131072)
  (twice + 1) / 2

/-! ## Signals (R178, R185) -/

/-- The coding of a message (R185): word parity; otherwise a CRC-24Q over content that the codes named protect. -/
inductive Coding where
  | wordParity | ldpcBch | convolutional | convolutionalInterleaved | bchLdpc | ldpc
deriving DecidableEq, Repr

/-- A row of the table of signals (R185): chips per second, chips of the primary code, BOC(1,1) replica, a pilot beside the
data, chips of the pilot's secondary code and ms over which it repeats, the message, its symbols (LNAV: bits) per second and
its coding. -/
structure Signal where
  chipRate : Nat
  chips : Nat
  boc : Bool
  pilot : Bool
  secondary : Nat
  secondaryMs : Nat
  message : Nat
  symbolRate : Nat
  coding : Coding
deriving DecidableEq, Repr

/-- The table of signals (R185); messages are numbered as in an orbit record (R194). -/
def signalRow : Nat → Signal
  | 2 | 9 => { chipRate := 1023000, chips := 10230, boc := true, pilot := true, secondary := 1800, secondaryMs := 18000,
               message := 3, symbolRate := 100, coding := .ldpcBch }
  | 3 | 10 => { chipRate := 10230000, chips := 10230, boc := false, pilot := true, secondary := 20, secondaryMs := 20,
                message := 2, symbolRate := 100, coding := .convolutional }
  | 4 => { chipRate := 1023000, chips := 4092, boc := true, pilot := true, secondary := 25, secondaryMs := 100,
           message := 4, symbolRate := 250, coding := .convolutionalInterleaved }
  | 5 => { chipRate := 10230000, chips := 10230, boc := false, pilot := true, secondary := 100, secondaryMs := 100,
           message := 5, symbolRate := 50, coding := .convolutionalInterleaved }
  | 6 => { chipRate := 1023000, chips := 10230, boc := true, pilot := true, secondary := 1800, secondaryMs := 18000,
           message := 6, symbolRate := 100, coding := .bchLdpc }
  | 7 => { chipRate := 10230000, chips := 10230, boc := false, pilot := true, secondary := 100, secondaryMs := 100,
           message := 7, symbolRate := 200, coding := .ldpc }
  | _ => { chipRate := 1023000, chips := 1023, boc := false, pilot := false, secondary := 0, secondaryMs := 0,
           message := 1, symbolRate := 50, coding := .wordParity }

/-- Primary code period, ms and ns. -/
def codePeriodMs (signal : Nat) : Nat := (signalRow signal).chips * 1000 / (signalRow signal).chipRate
def codePeriodNs (signal : Nat) : Nat := codePeriodMs signal * 1000000

/-- The nominal carrier of a band, Hz (R178). -/
def carrierHz (b : Nat) : Nat := if b = 0 then 1575420000 else 1176450000

/-- Seconds from a satellite system's time to nominal TAI (R186). -/
def systemOffset (sys : Nat) : Int := if sys = 3 then 33 else 19

/-- The TAI second at which week 0 of a satellite system begins (R19): GPS and QZSS 1980-01-06, Galileo 1999-08-22, BeiDou
2006-01-01. -/
def systemEpoch (sys : Nat) : Int :=
  (match sys with | 2 => 10825 | 3 => 13149 | _ => 3657) * 86400 + systemOffset sys

/-! ## Correlators and loops (R198) -/

/-- The objects a tracker works with, as the table of taps and the loops name them. -/
structure LoopSet where
  dll : Nat
  pll : Nat
  fll : Nat
  spacing : Nat
  vel : Nat
  monitor : Int
  cohMax : Nat
deriving DecidableEq, Repr

/-- d is the spacing of the signal's kind (R198). -/
def State.loopSet (s : State) (signal : Nat) : LoopSet :=
  let r := signalRow signal
  { dll := s.nn Obj.dll_bw, pll := s.nn Obj.pll_bw, fll := s.nn Obj.fll_bw,
    spacing := if r.boc then s.nn Obj.el_spacing_boc else if r.chipRate = 1023000 then s.nn Obj.el_spacing_bpsk1
      else s.nn Obj.el_spacing_bpsk10,
    vel := s.nn Obj.vel_spacing, monitor := s.n Obj.monitor_offset, cohMax := s.nn Obj.coh_max }

/-- The code offset of a tap from prompt, 0.001 chip (R198); the noise tap has the prompt delay. -/
def LoopSet.tapOffset (l : LoopSet) : Nat → Rat
  | 0 => -l.vel
  | 1 => -(l.spacing : Rat) / 2
  | 3 => (l.spacing : Rat) / 2
  | 4 => l.vel
  | 7 => l.monitor
  | _ => 0

/-- A tap correlates with the pilot, the data or is gated (R198). -/
def tapOnPilot (signal tap : Nat) : Option Bool :=
  if (signalRow signal).pilot then some (tap != 6) else if tap = 6 then none else some false

/-- Coherent integration, ms: one primary code period until sync, then coh_max (R198). -/
def LoopSet.coherentMs (l : LoopSet) (signal : Nat) (synced : Bool) : Nat :=
  if synced then max (codePeriodMs signal) l.cohMax else codePeriodMs signal

/-- Power of a complex sum. -/
def power (z : Int × Int) : Nat := (z.1 * z.1 + z.2 * z.2).toNat

/-- The code discriminator: normalised early-minus-late power, over 2^16 (R198). -/
def codeError (d : Dump) : Int :=
  let e := power d[1]
  let l := power d[3]
  if e + l = 0 then 0 else rneDiv (((e : Int) - l) * 65536) (e + l)

/-- The carrier discriminator, 2^-32 cycle: pure on a pilot, a Costas discriminator, which the data's sign does not turn,
on data alone (R198). -/
def carrierError (pilot : Bool) (d : Dump) : Int :=
  let (i, q) := d[2]
  if pilot || 0 ≤ i then Config.angle i q else Config.angle (-i) (-q)

/-- The frequency discriminator of PULL_IN, 2^-16 mHz: the turn of prompt between two integrations `ms` apart. -/
def frequencyError (pilot : Bool) (last : Int × Int) (ms : Nat) (d : Dump) : Int :=
  let (i, q) := d[2]
  let dot := last.1 * i + last.2 * q
  let cross := last.1 * q - last.2 * i
  let turn := if pilot || 0 ≤ dot then Config.angle dot cross else Config.angle (-dot) (-cross)
  rneDiv (turn * 1000000) (65536 * max 1 ms)

/-- The BOC side-peak check (R198): 20 ms sums of very early, prompt and very late power; a tap that exceeds prompt in
three of them in a row moves the replica 0.5 chip towards it. -/
def Replica.sidePeak (r : Replica) (ms : Nat) (d : Dump) : Replica :=
  let e := r.sideEarly + power d[0]
  let p := r.sidePrompt + power d[2]
  let l := r.sideLate + power d[4]
  let m := r.sideMs + ms
  if m < 20 then { r with sideEarly := e, sidePrompt := p, sideLate := l, sideMs := m }
  else
    let ne := if p < e then r.earlySums + 1 else 0
    let nl := if p < l then r.lateSums + 1 else 0
    let r := { r with sideEarly := 0, sidePrompt := 0, sideLate := 0, sideMs := 0, earlySums := ne, lateSums := nl }
    if 3 ≤ ne ∧ (nl < 3 ∨ l ≤ e) then { r with code := r.code - 2 ^ 31, earlySums := 0, lateSums := 0 }
    else if 3 ≤ nl then { r with code := r.code + 2 ^ 31, earlySums := 0, lateSums := 0 }
    else r

/-- Move a replica to a later grid sample on its code rate and Doppler: the code rate is the nominal one scaled by the
carrier's Doppler (R198). -/
def Replica.advance (r : Replica) (signal b n : Nat) : Replica :=
  let k : Int := (n : Int) - r.sample
  let hz : Rat := (r.freq : Rat) / 65536000
  let t : Rat := (k : Rat) / 61380000
  let chips : Rat := (signalRow signal).chipRate * t * (1 + hz / carrierHz b)
  { r with sample := n, code := r.code + rneRat (chips * 2 ^ 32), phase := r.phase - rneRat (hz * t * 2 ^ 32) }

/-- What a tracker's C/N0 becomes with one integration: an estimate from prompt and noise power over 1 s (R198); in the
first second, over what has been summed. -/
def Replica.estimate (r : Replica) (cn0 ms : Nat) (d : Dump) : Replica × Nat :=
  let p := r.promptPow + power d[2]
  let n := r.noisePow + power d[5]
  let m := r.powMs + ms
  if m < 1000 then ({ r with promptPow := p, noisePow := n, powMs := m }, if r.second then cn0 else Config.cn0Estimate p n m)
  else ({ r with promptPow := 0, noisePow := 0, powMs := 0, second := true }, Config.cn0Estimate p n m)

/-- The phase lock indicator with one integration, and for how long it and C/N0 have met the criteria of R199: 0.8 and 20
dB-Hz to lock, 0.5 and 20 dB-Hz to hold. -/
def Replica.judge (r : Replica) (cn0 ms : Nat) (d : Dump) : Replica :=
  let v := Config.phaseLock d[2].1 d[2].2 r.indicator
  { r with indicator := v,
           goodMs := if 4 * 65536 ≤ 5 * v ∧ 2000 ≤ cn0 then r.goodMs + ms else 0,
           weakMs := if 2 * v < 65536 ∨ cn0 < 2000 then r.weakMs + ms else 0 }

/-- The sums so far are those of the states in which the loops run. -/
def TrkState.tracks : TrkState → Bool
  | .pullIn | .track | .sync | .ready => true
  | _ => false

/-- One coherent integration closes the loops (R198). -/
def Tracker.integrate (l : LoopSet) (b : Nat) (t : Tracker) (d : Dump) : Tracker :=
  if !t.st.tracks then t
  else
    let pilot := (signalRow t.signal).pilot
    let ms := l.coherentMs t.signal t.sync
    let r := t.rep.advance t.signal b (t.rep.sample + ms * samplesPerMs)
    let (dc, codeMem) := Config.codeLoop l.dll ms (codeError d) r.codeMem
    let (df, carMem) := Config.carrierLoop l.pll ms (carrierError pilot d) r.carMem
    let pull := match t.st, r.last with
      | .pullIn, some z => Config.freqLoop l.fll ms (frequencyError pilot z ms d)
      | _, _ => 0
    let r := { r with code := r.code + dc, codeMem, freq := r.freq + df + pull, carMem, last := some d[2] }
    let r := if (signalRow t.signal).boc then r.sidePeak ms d else r
    let (r, cn0) := r.estimate t.cn0 ms d
    { t with rep := r.judge cn0 ms d, cn0 }

/-- The deliveries of a tracker's correlators, in order. -/
def Tracker.run (l : LoopSet) (b : Nat) (t : Tracker) (dumps : List Dump) : Tracker :=
  dumps.foldl (fun t d => t.integrate l b d) t

/-- The signal time of a code phase since the replica's period 0, 2^-16 ns. -/
def codeTime (signal : Nat) (code : Int) : Int :=
  rneRat ((code : Rat) / 2 ^ 32 / (signalRow signal).chipRate * (unitsPerS : Int))

/-! ## Navigation pages (R201) -/

/-- The parity bits D25 to D30 of a word of LNAV from its 24 data bits and the last two bits of the word before it: which
of those bits each one adds (IS-GPS-200, R19). -/
def lnavRows : List (Bool × List Nat) :=
  [(false, [1, 2, 3, 5, 6, 10, 11, 12, 13, 14, 17, 18, 20, 23]),
   (true, [2, 3, 4, 6, 7, 11, 12, 13, 14, 15, 18, 19, 21, 24]),
   (false, [1, 3, 4, 5, 7, 8, 12, 13, 14, 15, 16, 19, 20, 22]),
   (true, [2, 4, 5, 6, 8, 9, 13, 14, 15, 16, 17, 20, 21, 23]),
   (true, [1, 3, 5, 6, 7, 9, 10, 14, 15, 16, 17, 18, 21, 22, 24]),
   (false, [3, 5, 6, 8, 9, 10, 11, 13, 15, 19, 22, 23, 24])]

/-- One word's parity holds: `d29` and `d30` end the word before it. -/
def lnavWord (d29 d30 : Bool) (w : List Bool) : Bool :=
  let data := fun i => (w.getD (i - 1) false) != d30
  (lnavRows.zip (w.drop 24)).all fun p =>
    (p.1.2.foldl (fun a i => a != data i) (if p.1.1 then d30 else d29)) == p.2

/-- Every word's parity holds, at most `fuel` words. -/
def lnavWords : Nat → Bool → Bool → List Bool → Bool
  | 0, _, _, _ => true
  | fuel + 1, d29, d30, b =>
    if b.length < 30 then b.isEmpty
    else lnavWord d29 d30 (b.take 30) && lnavWords fuel (b.getD 28 false) (b.getD 29 false) (b.drop 30)

/-- The remainder of a bit string by the polynomial 0x1864CFB of CRC-24Q (R19); 0 when its last 24 bits are its check. -/
def crc24q (b : List Bool) : Nat :=
  b.foldl (fun c x =>
    let v := 2 * c + (if x then 1 else 0)
    if 2 ^ 24 ≤ v then v ^^^ 0x1864CFB else v) 0

/-- The parity of LNAV, whose bits begin with the last two of the word before, or the CRC of another message (R185). -/
def pageOk (signal : Nat) (b : List Bool) : Bool :=
  if (signalRow signal).coding = .wordParity then lnavWords 64 (b.getD 0 false) (b.getD 1 false) (b.drop 2) else crc24q b == 0

/-! ## UTC parameters (R202) -/

/-- What R202 computes from a system's UTC parameters: TAI − UTC, and leap_time (TAI s) and leap_delta as R98 defines them,
from the week and the day at whose end ΔtLSF takes effect. Days count from 1, in BeiDou from 0. -/
def utcOf (sys : Nat) (dtLS : Int) (week day : Nat) (dtLSF delta : Int) : SkyUtc :=
  let offset := dtLS + systemOffset sys
  let first := (systemEpoch sys - systemOffset sys) / 86400
  let ends := (first + 7 * (week : Int) + day + (if sys = 3 then 1 else 0)) * 86400 + offset
  let d := dtLSF - dtLS
  { offset, sched := if d = 0 then none else some (if d < 0 then ends - 1 else ends, d), delta }

end Sys2Proof.Machine
end

