-- ==== Sys2Proof/Machine/Geometry.lean ====
section
/-! DEFINITION. The arithmetic of the timing solution: sines, roots and the chi-square test (R216), the geometry of a
satellite seen from a position (R208, R209), linear least squares (R212). -/

namespace Sys2Proof.Machine

/-! ## Functions of one variable -/

/-- Keep 60 fractional bits. -/
def fix60 (r : Rat) : Rat := (rneRat (r * 2 ^ 60) : Rat) / 2 ^ 60

/-- A square root to 60 fractional bits. -/
def sqrtRat (r : Rat) : Rat := (isqrt (r * 2 ^ 120).floor.toNat : Rat) / 2 ^ 60

/-- A hundredth of a degree, in radians. -/
def centidegree : Rat := 314159265358979323846264338327950288 / 10 ^ 35 / 18000

/-- The sine of a number of hundredths of a degree in [-90, 90] degrees: the first 14 terms of its series. -/
def sinCenti (e : Rat) : Rat :=
  let x := e * centidegree
  x * (List.range 14).foldr (fun k a => 1 - x * x / ((2 * k + 2) * (2 * k + 3) : Nat) * a) 1

/-- The angle in hundredths of a degree whose sine is nearest `v`. -/
def arcsinCenti (v : Rat) : Int :=
  (List.range 15).foldl (fun (lo : Int) i =>
    let e : Int := lo + 2 ^ (14 - i)
    if e ≤ 9000 ∧ sinCenti ((e : Rat) - 1 / 2) ≤ v then e else lo) (-9000)

/-- 1 / sin(el)² of R216 for an elevation in 0.01 degrees; at 0 the formula has no value. -/
def invSinSq (e : Int) : Rat := if e = 0 then Config.zeroElevation else fix60 (1 / sinCenti e ^ 2)

/-- 10^(x / 1000) to 32 fractional bits (R216): the greatest integer y with y^1000 ≤ 10^x 2^32000. -/
def pow10 (x : Int) : Rat :=
  let fits := fun y : Nat => y ^ 1000 * 10 ^ (-x).toNat ≤ 10 ^ x.toNat * 2 ^ 32000
  ((List.range 48).foldl (fun (lo : Nat) i => if fits (lo + 2 ^ (47 - i)) then lo + 2 ^ (47 - i) else lo) 0 : Nat) / 2 ^ 32

/-- Sums of the series t, t z / a, t z² / (a (a + 1)), … over 2^512 by `n` terms: `a` and `z` are halves over 2^32. -/
def gammaSum : Nat → Nat → Nat → Nat → Nat
  | 0, _, _, _ => 0
  | n + 1, t, a, z => t + gammaSum n (t * z / (a * 2 ^ 32)) (a + 2) z

/-- x^(d/2) / Γ(d/2 + 1) over 2^512, x being z halves over 2^32: powers of a half begin at √(4 x / π). -/
def gammaHead (d z : Nat) : Nat :=
  let start : Nat := if d % 2 = 0 then 2 ^ 512
    else isqrtAux (((z : Rat) / 2 ^ 33 * 4 * 10 ^ 35 / 314159265358979323846264338327950288) * 2 ^ 1024).floor.toNat 640 0
  ((List.range (d / 2)).map fun k => if d % 2 = 0 then 2 * (k + 1) else 2 * k + 3).foldl (fun t a => t * z / (a * 2 ^ 32)) start

/-- The chi-square test of R216: a statistic exceeds the quantile for `d` degrees of freedom at false-alarm probability
10^(-pfa), that is, a chi-square variable exceeds it with a lower probability. With x half the statistic and P(d/2, x) the
regularised gamma function, 10^pfa (e^x − e^x P) < e^x. -/
def chiExceeds (d pfa : Nat) (stat : Rat) : Bool :=
  let z := (stat * 2 ^ 32).floor.toNat
  if 2 ^ 43 ≤ z then true
  else
    let all := gammaSum 6000 (2 ^ 512) 2 z
    let low := gammaSum 6000 (gammaHead d z) (d + 2) z
    10 ^ pfa * (all - low) < all

/-! ## Geometry (R208, R209): positions are ECEF, mm -/

/-- 2^-16 ns that light takes for one mm (R10: c = 299,792,458 m/s). -/
def unitsPerMm : Rat := 65536000000 / 299792458

/-- The difference of two positions and its length. -/
def vectorTo (p q : Int × Int × Int) : Int × Int × Int := (q.1 - p.1, q.2.1 - p.2.1, q.2.2 - p.2.2)
def lengthOf (v : Int × Int × Int) : Rat := sqrtRat ((v.1 ^ 2 + v.2.1 ^ 2 + v.2.2 ^ 2 : Int) : Rat)

/-- A satellite's position turned with the Earth for a flight time in 2^-16 ns (R209): 7.2921151467e-5 rad/s. -/
def earthTurn (q : Int × Int × Int) (flight : Rat) : Int × Int × Int :=
  let a := fix60 (flight / (unitsPerS : Int) * 72921151467 / 10 ^ 15)
  let c := 1 - a * a / 2
  let x : Rat := q.1
  let y : Rat := q.2.1
  (rneRat (x * c + y * a), rneRat (y * c - x * a), q.2.2)

/-- Where a satellite that transmitted at a time stands in the frame of the reception at `p` (R209). -/
def satFrom (content : Bytes) (tau : Int) (p : Int × Int × Int) : Int × Int × Int :=
  let q := Config.satPosition content tau
  (List.range 2).foldl (fun x _ => earthTurn q (lengthOf (vectorTo p x) * unitsPerMm)) q

/-- The local frame at a position: the unit vector up, the sine of the latitude, the distance from the axis in mm and the
height in mm over the ellipsoid of semi-major axis 6378137 m and flattening 1/298.257223563. -/
structure LocalFrame where
  up : Rat × Rat × Rat
  sinLat : Rat
  axis : Rat
  height : Rat
deriving DecidableEq, Repr

def localFrame (p : Int × Int × Int) : LocalFrame :=
  let e2 : Rat := 669437999014 / 10 ^ 14
  let a : Rat := 6378137000
  let r := lengthOf (p.1, p.2.1, 0)
  let z : Rat := p.2.2
  if r = 0 then { up := (0, 0, if z < 0 then -1 else 1), sinLat := if z < 0 then -1 else 1, axis := 0, height := (if z < 0 then -z else z) - a * sqrtRat (1 - e2) }
  else
    let t := (List.range 8).foldl (fun t _ => fix60 ((z + e2 * a * t / sqrtRat (1 + (1 - e2) * t * t)) / r)) (fix60 (z / (r * (1 - e2))))
    let c := fix60 (1 / sqrtRat (1 + t * t))
    let s := fix60 (t * c)
    { up := (fix60 (c * p.1 / r), fix60 (c * p.2.1 / r), s), sinLat := s, axis := r, height := fix60 (r / c - a / sqrtRat (1 - e2 * s * s)) }

/-- The unit vector from a position to another. -/
def sight (p q : Int × Int × Int) : Rat × Rat × Rat :=
  let v := vectorTo p q
  let l := lengthOf v
  if l = 0 then (0, 0, 0) else (fix60 (v.1 / l), fix60 (v.2.1 / l), fix60 (v.2.2 / l))

def dot (u v : Rat × Rat × Rat) : Rat := u.1 * v.1 + u.2.1 * v.2.1 + u.2.2 * v.2.2

/-- Elevation and azimuth of a point seen from a position, 0.01 degrees. -/
def elevationOf (p q : Int × Int × Int) : Int := arcsinCenti (dot (localFrame p).up (sight p q))

def azimuthOf (p q : Int × Int × Int) : Int :=
  let f := localFrame p
  let v := sight p q
  let east := if f.axis = 0 then v.2.1 else (v.2.1 * p.1 - v.1 * p.2.1) / f.axis
  let north := if f.axis = 0 then v.1
    else fix60 (v.2.2 * sqrtRat (1 - f.sinLat * f.sinLat) - f.sinLat * (v.1 * p.1 + v.2.1 * p.2.1) / f.axis)
  let h := sqrtRat (east * east + north * north)
  let half := if h = 0 then 0 else 9000 - arcsinCenti (north / h)
  if east < 0 ∧ half ≠ 0 then 36000 - half else half

/-- A satellite's elevation and azimuth by its broadcast orbit at a time in 2^-16 ns. -/
def satElevation (content : Bytes) (t : Int) (p : Int × Int × Int) : Int := elevationOf p (Config.satPosition content t)
def satAzimuth (content : Bytes) (t : Int) (p : Int × Int × Int) : Int := azimuthOf p (Config.satPosition content t)

/-- tropo of R209, 2^-16 ns: the Saastamoinen zenith delays, dry and wet, of the standard atmosphere at the height in use,
each mapped with its Niell function. -/
def tropo (t : Int) (p q : Int × Int × Int) : Int :=
  let f := localFrame p
  let lat := arcsinCenti f.sinLat
  let h := rneRat f.height
  let el := elevationOf p q
  rneRat (((Config.zenithDry lat h : Rat) * Config.niellDry lat h t el + (Config.zenithWet lat h : Rat) * Config.niellWet lat el) / 2 ^ 32)

/-- rho/c + tropo − dt_sat of R209 for a transmit time and a position, 2^-16 ns. -/
def satRange (content : Bytes) (tau : Int) (p : Int × Int × Int) : Int :=
  let q := satFrom content tau p
  rneRat (lengthOf (vectorTo p q) * unitsPerMm) + tropo tau p q - Config.satClock content tau

/-- The rate of change of satRange at a time, 10^-15 s/s, over the second about it: the satellite's Doppler (R190). -/
def satRate (content : Bytes) (t : Int) (p : Int × Int × Int) : Int :=
  let h : Int := unitsPerS / 2
  rneRat (((satRange content (t + h) p - satRange content (t - h) p) * 10 ^ 15 : Int) / (unitsPerS : Int) : Rat)

/-! ## Least squares (R212) -/

/-- Subtract from a row its entry of column k times the pivot row. -/
def eliminate (piv : List Rat) (k : Nat) (r : List Rat) : List Rat :=
  let f := r.getD k 0
  List.zipWith (fun a b => a - f * b) r piv

/-- Gauss-Jordan elimination of the columns k, k + 1, … of the rows left; none where the rows are dependent. -/
def reduceRows : Nat → Nat → List (List Rat) → List (List Rat) → Option (List (List Rat))
  | 0, _, done, _ => some done.reverse
  | m + 1, k, done, rows =>
    match rows.find? fun r => r.getD k 0 != 0 with
    | none => none
    | some r =>
      let piv := r.map (· / r.getD k 0)
      reduceRows m (k + 1) (piv :: done.map (eliminate piv k)) ((rows.erase r).map (eliminate piv k))

/-- One weighted observation: its coefficients, value and weight. -/
structure FitRow where
  coef : List Rat
  value : Rat
  weight : Rat
deriving DecidableEq, Repr

/-- The weighted least-squares solution for n unknowns and the variance of the first; none where the observations do not
determine them. -/
def leastSquares (n : Nat) (l : List FitRow) : Option (List Rat × Rat) :=
  let normal := (List.range n).map fun i =>
    (List.range n).map (fun j => (l.map fun r => r.weight * r.coef.getD i 0 * r.coef.getD j 0).sum)
      ++ [(l.map fun r => r.weight * r.coef.getD i 0 * r.value).sum, if i = 0 then 1 else 0]
  (reduceRows n 0 [] normal).map fun rows => (rows.map fun r => r.getD n 0, (rows.headD []).getD (n + 1) 0)

end Sys2Proof.Machine
end

