-- ==== Sys2Proof/Machine/Sky.lean ====
section
/-! DEFINITION. The sky receiver's signal path (chapter 8): bands, front ends, antenna supply, notches, acquisition,
trackers, navigation messages, the orbit store, observation epochs. -/

namespace Sys2Proof.Machine

/-! ## Units -/

def State.setChannel (s : State) (c : Fin 256) (x : Channel) : State :=
  { s with sky := { s.sky with channels := s.sky.channels.set c x } }

def State.setBand (s : State) (b : Fin 2) (x : Band) : State :=
  { s with sky := { s.sky with bands := s.sky.bands.set b x } }

def skySource (c : Fin 256) : Nat := 0x0500 + c

/-- A slot bound to the sky receiver is enabled (R22). -/
def State.skyBound (s : State) : Bool := (List.finRange 16).any fun i => s.slotEnabled i && s.kind i == 6

def TrkState.code : TrkState → Nat
  | .idle => 0
  | .search => 1
  | .pullIn => 2
  | .track => 3
  | .sync => 4
  | .ready => 5
  | .reacq => 6

/-- How far a state has advanced (R199). -/
def TrkState.rank : TrkState → Nat
  | .idle => 0
  | .search => 1
  | .reacq => 2
  | .pullIn => 3
  | .track => 4
  | .sync => 5
  | .ready => 6

/-- The state of a channel: that of its more advanced tracker (R199). -/
def Channel.state (x : Channel) : TrkState :=
  if x.trk[0].st.rank < x.trk[1].st.rank then x.trk[1].st else x.trk[0].st

/-- Replace a tracker; a change of the channel's state is journalled (R199). -/
def State.setTracker (s : State) (c : Fin 256) (b : Fin 2) (t : Tracker) : State :=
  let x := s.sky.channels[c]
  let y := { x with trk := x.trk.set b t }
  let s := s.setChannel c y
  if x.state = y.state then s
  else s.log (skySource c) 0x3101 (be 2 x.sat ++ be 1 x.state.code ++ be 1 y.state.code)

/-- Move a tracker to a state. -/
def State.moveTracker (s : State) (c : Fin 256) (b : Fin 2) (st : TrkState) : State :=
  s.setTracker c b { s.sky.channels[c].trk[b] with st, since := s.now }

/-! ## Sample clocks (R180) -/

/-- Band b's sample clock is to run (R180). -/
def State.bandOn (s : State) (b : Fin 2) : Bool := s.awake 3 && s.flag (Obj.band_enable b)

/-- A sample clock follows its band: it starts on the first grid sample after the request and stops after the low phase of
the sample in progress. -/
def State.driveClock (s : State) (b : Fin 2) : State :=
  let x := s.sky.bands[b]
  match s.bandOn b, x.clock with
  | true, .runs _ => s
  | true, _ => s.setBand b { x with clock := .runs (sampleFrom s.stamp), usedFrom := s.now }
  | false, .runs n => s.setBand b { x with clock := .ends n (sampleFrom s.stamp) }
  | false, _ => s

/-- A band as its domain goes down with the sample clock. -/
def Band.stopped (b : Band) : Band := { b with clock := .low, settle := none, scriptDue := false }

/-- Both sample clocks. -/
def State.driveClocks (s : State) : State := (s.driveClock 0).driveClock 1

/-- The level of SCLKn at a raw stamp (R179, R180): high from each sample's instant for half a period. -/
def SampleClock.level (c : SampleClock) (stamp : Nat) : Bool :=
  let k := sampleFrom (stamp + 1) - 1
  let high := decide (stamp < sampleStamp k + 2607)
  match c with
  | .low => false
  | .runs n => decide (n ≤ k) && high
  | .ends n m => decide (n ≤ k) && decide (k < m) && high

/-- A band's samples are not used from the start of sending its script until the front end has settled (R183). -/
def State.settling (s : State) (b : Fin 2) : Bool :=
  match s.sky.bands[b].settle with
  | some (e, t) => decide (t ≤ s.now) && decide (s.now < e)
  | none => false

/-- A band delivers samples that are used. -/
def State.sampling (s : State) (b : Fin 2) : Bool := s.bandOn b && !s.settling b

/-! ## Aids and prediction (R189, R190, R193, R194) -/

/-- The time uncertainty of the time aid, ns; none in condition 0 (R189). -/
def State.timeAidUnc (s : State) : Option Int :=
  match s.n Obj.timing_condition with
  | 0 => none
  | 1 => some s.timeUncertainty
  | 2 => some (s.n Obj.ref_uncertainty + ceilDiv (s.loops[0].phaseErr.natAbs : Int) 65536)
  | _ => some s.hold.boundNs

/-- The position aid: ECEF mm and its uncertainty in m (R189); a fixed position counts as held. -/
def State.positionAid (s : State) : Option ((Int × Int × Int) × Nat) :=
  if s.n Obj.position_mode = 1 then
    some ((s.n (Obj.fixed_position 0), s.n (Obj.fixed_position 1), s.n (Obj.fixed_position 2)), 0)
  else if s.sky.held then
    some ((s.n (Obj.held_position 0), s.n (Obj.held_position 1), s.n (Obj.held_position 2)), 0)
  else if s.nn Obj.aid_position_unc = 0xFFFFFFFF then none
  else some ((s.n Obj.aid_position_x, s.n Obj.aid_position_y, s.n Obj.aid_position_z), s.nn Obj.aid_position_unc)

/-- The frequency uncertainty, ppt, an upper bound (R189). -/
def State.freqAidUnc (s : State) : Int :=
  if s.n Obj.timing_condition = 2 then 10000
  else if s.hold.usable then ceilDiv s.hold.uy 1000000
  else s.n Obj.acq_osc_uncertainty

/-- The frequency aid, 10^-18: the DPLL-T frequency estimate in condition 2, −y_p while the model is usable (R189). -/
def State.freqAid (s : State) : Int :=
  if s.n Obj.timing_condition = 2 then s.loops[0].freqEst
  else if s.hold.usable then -s.hold.predict s.now
  else 0

/-- Fields of an orbit record (R194). -/
def orbKind (r : Bytes) : Nat := fieldN r 0 1
def orbSat (r : Bytes) : Nat := fieldN r 1 1 * 256 + fieldN r 2 1
def orbMessage (r : Bytes) : Nat := fieldN r 3 1
def orbFlags (r : Bytes) : Nat := fieldN r 4 1
def orbIssue (r : Bytes) : Nat := fieldN r 6 2
def orbRef (r : Bytes) : Nat := fieldN r 8 8
def orbContent (r : Bytes) : Bytes := field r 16 108

/-- A record's reserved encodings and CRC (R194, R195); the reserved bits of its flags and its reserved byte are ignored
(R7). -/
def orbOk (r : Bytes) : Bool :=
  orbKind r == 0 ||
  (orbKind r ≤ 3 && 1 ≤ fieldN r 1 1 && fieldN r 1 1 ≤ 4 && 1 ≤ orbMessage r && orbMessage r ≤ 7
    && fieldN r 124 4 == crc32c (field r 0 124))

/-- Build a record. -/
def orbRecord (kind sat message flags issue ref : Nat) (content : Bytes) : Bytes :=
  let b := be 1 kind ++ be 2 sat ++ be 1 message ++ be 1 flags ++ be 1 0 ++ be 2 issue ++ be 8 ref ++ field content 0 108
  b ++ be 4 (crc32c b)

/-- Device time in TAI seconds. -/
def State.taiSeconds (s : State) : Int := s.time / unitsPerS

/-- The newest record of a kind for a satellite whose ref_time lies within a limit of device time (R194). -/
def State.orbitFor (s : State) (kind sat : Nat) (limit : Int) : Option Bytes :=
  let l := (s.sky.orbit.map (·.2)).filter fun r =>
    orbKind r == kind && orbSat r == sat && decide (((orbRef r : Int) - s.taiSeconds).natAbs ≤ limit)
  l.foldl (fun (a : Option Bytes) r =>
    match a with
    | none => some r
    | some q => if orbRef q < orbRef r then some r else some q) none

/-- The ephemeris in its fit interval that resolves a satellite's transmit time and gives its broadcast terms (R194, R209). -/
def State.ephemeris (s : State) (sat signal : Nat) : Option Bytes := s.orbitFor 1 sat (Config.fitInterval signal)

/-- The record that aids acquisition of a satellite (R190, R194): ephemeris within 4 h, else almanac within 7 days. -/
def State.aidRecord (s : State) (sat : Nat) : Option Bytes :=
  match s.orbitFor 1 sat 14400 with
  | some r => some r
  | none => s.orbitFor 2 sat 604800

/-- A satellite's predicted elevation, 0.01 degrees, when an orbit record, the position aid and the time aid exist. -/
def State.predictedElev (s : State) (sat : Nat) : Option Int :=
  match s.aidRecord sat, s.positionAid, s.timeAidUnc with
  | some r, some (p, _), some _ => some (satElevation (orbContent r) s.time p)
  | _, _, _ => none

/-- A satellite is predicted (R190). -/
def State.predicted (s : State) (sat : Nat) : Bool :=
  match s.predictedElev sat with
  | some e => decide (s.n Obj.acq_elevation_mask ≤ e)
  | none => false

/-- Every satellite ID of R185 and R186, ascending. -/
def satellites : List Nat :=
  (List.range 32).map (256 + 1 + ·) ++ (List.range 36).map (512 + 1 + ·) ++ (List.range 45).map (768 + 19 + ·)
    ++ (List.range 10).map (1024 + 193 + ·)

/-- The signal code of a satellite on a band (R185, R186), none where it broadcasts none there. -/
def State.signalOf (s : State) (sat : Nat) (b : Fin 2) : Option Nat :=
  let sys := sat / 256
  let l1c := s.n Obj.l1_signal == 1 && Config.broadcastsL1C sat
  if b = 1 && !Config.broadcastsBand1 sat then none
  else
    match sys, (b : Nat) with
    | 1, 0 => some (if l1c then 2 else 1)
    | 1, _ => some 3
    | 2, 0 => some 4
    | 2, _ => some 5
    | 3, 0 => some 6
    | 3, _ => some 7
    | 4, 0 => some (if l1c then 9 else 8)
    | 4, _ => some 10
    | _, _ => none

/-- The start class (R193). -/
def State.startClass (s : State) : Nat :=
  let eph := satellites.filter fun q => (s.orbitFor 1 q 14400).isSome && s.predicted q
  let any := satellites.filter fun q => s.predicted q
  match s.positionAid, s.timeAidUnc with
  | some (_, m), some t =>
    if 4 ≤ eph.length ∧ m ≤ 30000 ∧ t ≤ 2000000000 ∧ s.freqAidUnc ≤ 500000 then 2
    else if 4 ≤ any.length ∧ m ≤ 300000 ∧ t ≤ 60000000000 then 1
    else 0
  | _, _ => 0

/-! ## Allocation (R197) -/

/-- A satellite may keep a channel: its system enabled, not excluded (R197). -/
def State.listed (s : State) (sat : Nat) : Bool :=
  let out := (List.range (min 32 (s.nn Obj.sat_exclude))).any fun k => s.nn (Obj.sat_exclude_id k) == sat
  bit (s.nn Obj.sky_systems) (sat / 256 - 1) && !out

/-- A satellite may be given a channel: also its band-0 signal healthy, or use_unhealthy true (R197). -/
def State.allowed (s : State) (sat : Nat) : Bool :=
  s.listed sat && (s.flag Obj.use_unhealthy ||
    (match s.signalOf sat 0 with
    | some sig => !s.sky.unhealthy.contains (sat, sig)
    | none => true))

/-- Insert by falling elevation. -/
def insertElev (x : Nat × Int) : List (Nat × Int) → List (Nat × Int)
  | [] => [x]
  | y :: r => if y.2 < x.2 then x :: y :: r else y :: insertElev x r

/-- Release a channel: gated, without a satellite. -/
def State.releaseChannel (s : State) (c : Fin 256) : State :=
  let x := s.sky.channels[c]
  let s := if x.state = .idle then s
    else s.log (skySource c) 0x3101 (be 2 x.sat ++ be 1 x.state.code ++ be 1 0)
  let out := match x.excluded with
    | some t => (x.sat, t) :: s.sky.outcasts
    | none => s.sky.outcasts
  ({ s with sky := { s.sky with outcasts := out } } : State).setChannel c { lastBad := x.lastBad }

/-- Give a channel a satellite: its band-0 tracker goes to SEARCH (R199). -/
def State.allocate (s : State) (c : Fin 256) (sat : Nat) : State :=
  match s.signalOf sat 0 with
  | none => s
  | some sig =>
    let out := s.sky.outcasts.find? fun p => p.1 == sat
    let s := s.setChannel c { sat, predicted := s.predicted sat, lastBad := s.sky.channels[c].lastBad, excluded := out.map (·.2) }
    let s : State := { s with sky := { s.sky with outcasts := s.sky.outcasts.filter fun p => p.1 != sat } }
    s.setTracker c 0 { st := .search, signal := sig, since := s.now }

/-- Channel allocation (R197): releases, then predicted satellites by elevation, then the others by ID. -/
def State.allocateAll (s : State) : State :=
  let s : State := (List.finRange 256).foldl (fun (s : State) (c : Fin 256) =>
    let x := s.sky.channels[c]
    if x.sat ≠ 0 ∧ (x.state = .idle ∨ !s.listed x.sat) then s.releaseChannel c
    else
      -- a tracker whose signal changes restarts in SEARCH (R206)
      match s.signalOf x.sat 0 with
      | some sig =>
        if x.sat ≠ 0 ∧ x.trk[0].signal ≠ sig ∧ x.trk[0].st ≠ .idle then
          s.setTracker c 0 { st := .search, signal := sig, since := s.now }
        else s
      | none => s) s
  let have' := (List.finRange 256).map fun c => s.sky.channels[c].sat
  let free := (List.finRange 256).filter fun c => s.sky.channels[c].sat == 0
  let cand := satellites.filter fun q => s.allowed q && !have'.contains q
  let pred := (cand.filterMap fun q => (s.predictedElev q).map fun e => (q, e)).filter fun q => s.predicted q.1
  let order := (pred.foldl (fun l x => insertElev x l) []).map (·.1) ++ cand.filter (fun q => !s.predicted q)
  (free.zip order).foldl (fun (s : State) (p : Fin 256 × Nat) => s.allocate p.1 p.2) s

/-! ## Sleep and wake (R22, R24, R180, R184, R196, R206) -/

/-- The antenna state changes (R184). -/
def State.setAnt (s : State) (v : Nat) : State :=
  let old := s.nn Obj.ant_state
  if old = v then s else (s.putN Obj.ant_state v).log 0 0x3003 (be 1 old ++ be 1 v)

/-- ANTEN follows the domain and ant_supply_enable (R184). -/
def State.updateAnt (s : State) : State :=
  let on := s.awake 3 && s.flag Obj.ant_supply_enable
  if (on && s.sky.antShortAt.isSome) || (on = s.sky.antEn && s.sky.antShortAt.isNone) then s
  else
    let s : State := { s with sky := { s.sky with antEn := on, antShortAt := none } }
    s.setAnt (if on then 1 else 0)

/-- The sky domain begins to wake (R24). -/
def State.wakeSky (s : State) : State := if s.domState 3 = 0 then s.setDom 3 1 else s

/-- The sky domain has woken: the orbit store is restored at the first wake after a cold reset, the start is classed, the
sample clocks start, the front-end scripts fall due, channels are allocated. -/
def State.skyAwake (s : State) : State :=
  let s :=
    if s.sky.restored then s
    else
      let s : State := { s with sky := { s.sky with restored := true, persistedAt := s.now } }
      match s.flash.orbit with
      | none => s
      | some a =>
        let s : State := { s with sky := { s.sky with orbit := a.recs } }
        let s := match a.held with
          | some (x, y, z) =>
            let s : State := { s with sky := { s.sky with held := true } }
            let s := if s.n Obj.position_mode = 0 then s.putN Obj.position_state 2 else s
            (((s.putN (Obj.held_position 0) x).putN (Obj.held_position 1) y).putN (Obj.held_position 2) z)
          | none => s
        s.log 0 0x3006 (be 2 a.recs.length)
  let s : State := { s with sky := { s.sky with startAt := s.now, startStamp := s.stamp, firstFix := false, epoch := none, recs := [] } }
  let s := (s.putN Obj.acq_start_class s.startClass).putN Obj.ttff 0xFFFFFFFF
  let s : State := { s with sky := { s.sky with bands := s.sky.bands.map fun b => { b with scriptDue := true } } }
  s.driveClocks.updateAnt.allocateAll

/-- A change of band_state is journalled (R182, code 0x3001). -/
def State.setBandState (s : State) (b : Fin 2) (v : Nat) : State :=
  let old := s.nn (Obj.band_state b)
  let s := s.putN (Obj.band_state b) v
  if old = v then s else s.log 0 0x3001 (be 1 (b : Nat) ++ be 1 old ++ be 1 v)

/-- The sky domain goes to sleep (R22, R206). -/
def State.sleepSky (s : State) : State :=
  let s : State := (List.finRange 256).foldl (fun (s : State) (c : Fin 256) =>
    if s.sky.channels[c].sat = 0 then s else s.releaseChannel c) s
  let s := s.setDom 3 0
  let s := (s.setBandState 0 0).setBandState 1 0
  let s : State := { s with sky := { s.sky with bands := s.sky.bands.map fun b => { b with settle := none, scriptDue := false },
                                                sol := { s.sky.sol with state := 0 } } }
  let s := ((s.putN Obj.sol_mode 0).putN Obj.redundancy 0).putN Obj.sats_used 0
  let old := s.nn Obj.sky_state
  let s := if old = 0 then s else (s.putN Obj.sky_state 0).log 0 0x3009 (be 1 old ++ be 1 0 ++ be 1 1)
  s.driveClocks.updateAnt

/-- The domain sleeps, a waking one too, when nothing needs it, outside CELLAR (R22). -/
def State.skyPower (s : State) : State :=
  if s.mode.cur = .cellar then s
  else if s.skyBound then s.wakeSky
  else if (s.awake 3 || s.domState 3 == 1) && s.sky.grist.req.isNone then s.sleepSky
  else s

/-! ## Front ends (R183) -/

/-- The records of a script: flags, bytes to send, expected bytes (R183); at most `fuel` records. -/
def scriptRecords : Nat → Bytes → List (Bool × Bytes × Bytes)
  | 0, _ => []
  | fuel + 1, b =>
    match b with
    | l :: f :: r =>
      let n := l.toNat
      let rd := bit f.toNat 0
      let used := if rd then 2 * n else n
      if n = 0 || r.length < used then []
      else (rd, r.take n, if rd then (r.drop n).take n else []) :: scriptRecords fuel (r.drop used)
    | _ => []

/-- Elapsed ticks a record of n bytes takes on FESPI (R183): its bits at fespi_clock. -/
def State.recordTicks (s : State) (n : Nat) : Nat := 8 * n * 1250000000 / max 1 (s.nn Obj.fespi_clock)

/-- Elapsed ticks a script takes on FESPI: its records, 1 µs after each. -/
def State.scriptTicks (s : State) (l : List (Bool × Bytes × Bytes)) : Nat :=
  (l.map fun r => s.recordTicks r.2.1.length + 1250).sum

/-- The elapsed tick at which FESPI is free: the other band's script has been sent. -/
def State.fespiFree (s : State) (band : Fin 2) : Nat :=
  match s.sky.bands[1 - band].settle with
  | some (e, _) => max s.now (e - ticksMs 10)
  | none => s.now

/-- The records are under way at a tick `t` after the script's begin: the select is low (R183). -/
def State.recordLow (s : State) : Nat → List Bytes → Bool
  | _, [] => false
  | t, r :: l =>
    let k := s.recordTicks r.length
    if t < k then true else if t < k + 1250 then false else s.recordLow (t - (k + 1250)) l

/-- The level of FESPI_CSn (R180, R183): low from a record's first bit to its last, high otherwise. -/
def State.fespiSelect (s : State) (b : Fin 2) : Bool :=
  match s.sky.bands[b].settle with
  | some (_, t) => !(decide (t ≤ s.now) && s.recordLow (s.now - t) s.sky.bands[b].sent)
  | none => true

/-- The bit of a script on FESPI at a tick `t` after its begin (R183): its level, the most significant bit first, and
whether it is in its second half; none between records. -/
def State.recordBit (s : State) : Nat → List Bytes → Option (Bool × Bool)
  | _, [] => none
  | t, r :: l =>
    let k := s.recordTicks r.length
    if t < k then
      let half := t * (2 * s.nn Obj.fespi_clock) / 1250000000
      some (bit ((r.getD (half / 16) 0).toNat) (7 - half / 2 % 8), half % 2 == 1)
    else if t < k + 1250 then none
    else s.recordBit (t - (k + 1250)) l

/-- What FESPI carries now: the bit of the script being sent. -/
def State.fespiBit (s : State) : Option (Bool × Bool) :=
  [(0 : Fin 2), 1].findSome? fun b =>
    match s.sky.bands[b].settle with
    | some (_, t) => if t ≤ s.now then s.recordBit (s.now - t) s.sky.bands[b].sent else none
    | none => none

/-- The levels of FESPI_SCLK and FESPI_MOSI (R183): in fespi_mode the clock idles high when bit 1 is set; with bit 0 clear
data are sampled at the first edge of a bit, with bit 0 set at the second. -/
def State.fespiLines (s : State) : Bool × Bool :=
  let idle := bit (s.nn Obj.fespi_mode) 1
  match s.fespiBit with
  | none => (idle, false)
  | some (v, second) => (idle != (second != bit (s.nn Obj.fespi_mode) 0), v)

/-- FESPI_SCRIPT_SEND (R183): the band's script is sent once a wake or a commit of it has made it due; `reads` holds the
bytes read back by its compare records. -/
def execFespiScriptSend (band : Fin 2) (reads : List Bytes) (s : State) : Host.Outcome State Fault Refusal :=
  if !s.awake 3 || !s.sky.bands[band].scriptDue then .next s
  else
    let recs := scriptRecords 1024 (s.octs (Obj.fespi_script band))
    let numbered := recs.zip (List.range recs.length)
    let compares := numbered.filter fun p => p.1.1
    let bad := (compares.zip reads).filter fun p => p.1.1.2.2 != p.2
    let s := s.putN (Obj.fespi_status band) (if bad = [] then 1 else 2)
    let s : State := bad.foldl (fun (s : State) p => s.log 0 0x3004 (be 1 (band : Nat) ++ be 2 p.1.2)) s
    let t := s.fespiFree band
    let s := s.setBand band { s.sky.bands[band] with
      scriptDue := false, sent := recs.map (·.2.1), settle := some (t + s.scriptTicks recs + ticksMs 10, t),
      usedFrom := t + s.scriptTicks recs + ticksMs 10 }
    if s.n Obj.grist_state = 2 then
      let g : Grist := { s.sky.grist with flags := setBit s.sky.grist.flags 3 true,
                                          scripted := setBit s.sky.grist.scripted band true }
      .next { s with sky := { s.sky with grist := g } }
    else .next s

/-- FESPI_SETTLE_END (R183): 10 ms after a script's end the band's samples are used again. -/
def execFespiSettleEnd (band : Fin 2) (s : State) : Host.Outcome State Fault Refusal :=
  match s.sky.bands[band].settle with
  | some (e, _) => if e ≤ s.now then .next (s.setBand band { s.sky.bands[band] with settle := none }) else .next s
  | none => .next s

/-! ## Antenna (R184) -/

/-- ANT_SHORT (R184): ANTSHORT high for 1 ms. -/
def execAntShort (s : State) : Host.Outcome State Fault Refusal :=
  if !s.sky.antEn then .next s
  else
    let s : State := { s with sky := { s.sky with antEn := false, antShortAt := some s.now } }
    .next ((s.bump Obj.ant_short_count).setAnt 3)

/-- ANT_RETRY (R184): after ant_retry seconds ANTEN is driven high again. -/
def execAntRetry (s : State) : Host.Outcome State Fault Refusal :=
  match s.sky.antShortAt with
  | some t =>
    if t + ticksS (s.nn Obj.ant_retry) ≤ s.now ∧ s.awake 3 ∧ s.flag Obj.ant_supply_enable then
      let s : State := { s with sky := { s.sky with antEn := true, antShortAt := none } }
      .next (s.setAnt 1)
    else .next s
  | none => .next s

/-- ANT_OPEN (R184): ANTOK low for 1 s with ANTEN high. -/
def execAntOpen (s : State) : Host.Outcome State Fault Refusal :=
  if s.sky.antEn then .next (s.setAnt 2) else .next s

/-- ANT_CURRENT_IN_RANGE (R184): ANTOK high with ANTEN high ends the open state. -/
def execAntCurrentInRange (s : State) : Host.Outcome State Fault Refusal :=
  if s.sky.antEn && s.n Obj.ant_state = 2 then .next (s.setAnt 1) else .next s

/-! ## Notches (R187, R188) -/

/-- Two spectral lines of scans 10 ms apart belong to one interferer: at most the 1 MHz/s sweep of R187 apart. -/
def sameLine (a b : Int) : Bool := (a - b).natAbs ≤ 10000

/-- The −3 dB width of the notches by notch_width, Hz (R188). -/
def notchWidthHz : Nat → Nat
  | 0 => 30000
  | 1 => 100000
  | 2 => 300000
  | _ => 1000000

/-- The zeros (Hz in the samples) and the width of a band's notches as they stand. -/
def State.notchSet (s : State) (b : Fin 2) : List Int × Nat :=
  ((List.finRange 4).filterMap fun k => s.sky.bands[b].notches[k].freq, notchWidthHz (s.nn (Obj.notch_width b)))

/-- Drop the changes of coefficients behind the newest one that is older than a sample. -/
def keepSince (n : Nat) : List NotchChange → List NotchChange
  | [] => []
  | c :: r => if c.sample < n then [c] else c :: keepSince n r

/-- A change of a band's notches takes effect at one sample (R188): the next one. -/
def State.changeNotches (s : State) (b : Fin 2) : State :=
  let n := sampleFrom s.stamp
  let (zeros, width) := s.notchSet b
  let c : NotchChange := { sample := n, zeros, width }
  let l := s.sky.bands[b].changes
  let old := if (l.head?.map (·.sample)) = some n then l.drop 1 else l
  s.setBand b { s.sky.bands[b] with changes := c :: keepSince (n - 1000 * samplesPerMs) old }

/-- The coefficients in force at a sample. -/
def Band.notchesAt (y : Band) (n : Nat) : Option NotchChange := y.changes.find? fun c => c.sample ≤ n

/-- Set a notch, its objects and, where its frequency changes, the coefficients in force. -/
def State.setNotch (s : State) (b : Fin 2) (k : Fin 4) (x : Notch) : State :=
  let y := s.sky.bands[b]
  let changed := y.notches[k].freq ≠ x.freq
  let s := s.setBand b { y with notches := y.notches.set k x }
  let s := if changed then s.changeNotches b else s
  let s := if changed then s.count 11 0x06 else s
  (s.putN (Obj.notch_freq b k) (x.freq.getD 0x7FFFFFFF)).putN (Obj.notch_level b k) x.level

/-- Release a notch (R187, code 0x3002). -/
def State.releaseNotch (s : State) (b : Fin 2) (k : Fin 4) : State :=
  let x := s.sky.bands[b].notches[k]
  match x.freq with
  | none => s
  | some f =>
    (s.setNotch b k {}).log 0 0x3002 (be 1 (b : Nat) ++ be 1 (k : Nat) ++ be 1 1 ++ be 4 f ++ be 2 x.level)

/-- One placed notch at a scan: it tracks its interferer, or is released after 1 s 3 dB below the threshold. -/
def State.trackNotch (s : State) (b : Fin 2) (lines : List (Int × Nat)) (k : Fin 4) : State :=
  let x := s.sky.bands[b].notches[k]
  let thr := s.nn (Obj.notch_threshold b) * 100
  match x.freq with
  | none => s
  | some f =>
    match lines.find? fun l => sameLine l.1 f && thr < l.2 + 300 with
    | some (g, lev) => s.setNotch b k { freq := some g, level := lev, lowSince := none }
    | none =>
      let since := x.lowSince.getD s.now
      if since + ticksS 1 ≤ s.now then s.releaseNotch b k else s.setNotch b k { x with lowSince := some since }

/-- Place free notches on the strongest unnotched interferers first. -/
def State.placeNotches (s : State) (b : Fin 2) : Nat → State
  | 0 => s
  | fuel + 1 =>
    let y := s.sky.bands[b]
    let free := (List.finRange 4).find? fun k => y.notches[k].freq.isNone
    let cand := y.lines.filter fun l => 3 ≤ l.2.1 && !((List.finRange 4).any fun k =>
      match y.notches[k].freq with
      | some f => sameLine f l.1
      | none => false)
    let best := cand.foldl (fun (a : Option (Int × Nat × Nat)) l =>
      match a with
      | none => some l
      | some m => if m.2.2 < l.2.2 then some l else some m) none
    match free, best with
    | some k, some (f, _, lev) =>
      let s := s.setNotch b k { freq := some f, level := lev }
      (s.log 0 0x3002 (be 1 (b : Nat) ++ be 1 (k : Nat) ++ be 1 0 ++ be 4 f ++ be 2 lev)).placeNotches b fuel
    | _, _ => s

/-- NOTCH_SCAN (R187): the lines of one 16,384-point spectrum, frequency in Hz and power over the median in 0.01 dB. -/
def execNotchScan (band : Fin 2) (lines : List (Int × Nat)) (s : State) : Host.Outcome State Fault Refusal :=
  if !s.sampling band || s.now < s.sky.bands[band].scannedAt + ticksMs 10 then .next s
  else if !s.flag (Obj.notch_enable band) then
    .next ((List.finRange 4).foldl (fun (s : State) (k : Fin 4) => s.releaseNotch band k) s)
  else
    let thr := s.nn (Obj.notch_threshold band) * 100
    let old := s.sky.bands[band].lines
    let now' := (lines.filter fun l => thr < l.2).map fun l =>
      match old.find? fun m => sameLine m.1 l.1 with
      | some m => (l.1, m.2.1 + 1, l.2)
      | none => (l.1, 1, l.2)
    let s := s.setBand band { s.sky.bands[band] with lines := now', scannedAt := s.now }
    let s : State := (List.finRange 4).foldl (fun (s : State) (k : Fin 4) => s.trackNotch band lines k) s
    .next (s.placeNotches band 4)

/-! ## Acquisition (R190-R192) -/

/-- The dwell of a search stage in elapsed ticks (R191). -/
def stageDwell (stageB : Bool) : Nat := if stageB then ticksMs 1000 else ticksMs 20

/-- The coherent time of a search stage, ms: one primary code period of the band's shortest component, or 10 ms (R191). -/
def stageCoherentMs (signal : Nat) (stageB : Bool) : Nat := if stageB then 10 else codePeriodMs signal

/-- The C/N0 in 0.01 dB-Hz from which a stage detects a present signal with probability 0.9 at least (R191). -/
def stageThreshold (stageB : Bool) : Nat := if stageB then 2400 else 3300

/-- What a search covers (R190): the code phase about a centre in signal time, 2^-16 ns, or the whole primary code; the
Doppler about a centre, mHz. -/
structure SearchWindow where
  centre : Int := 0
  half : Option Int := none
  dop : Int := 0
  dopHalf : Int := 0
deriving DecidableEq, Repr

/-- One chip of a signal, 2^-16 ns. -/
def chipUnits (signal n : Nat) : Int := rneRat ((n : Rat) / (signalRow signal).chipRate * (unitsPerS : Int))

/-- What a frequency uncertainty of so many ppt is on a band's carrier, mHz. -/
def carrierUnc (b : Nat) (ppt : Int) : Int := ceilDiv (carrierHz b * ppt) 1000000000

/-- The predicted transmit time of a satellite at a raw stamp, nominal TAI in 2^-16 ns (R190, R200): the reception less the
range, itself that of the transmission. -/
def State.predictedTau (s : State) (content : Bytes) (p : Int × Int × Int) (stamp : Nat) : Int :=
  let t := s.convert stamp
  t - satRange content (t - satRange content t p) p

/-- w of R190, ns: the time uncertainty, the position uncertainty over c, 2 µs. -/
def codeUncertainty (t : Int) (m : Nat) : Int := t + ceilDiv ((m : Int) * 1000000000) 299792458 + 2000

/-- The search window of a satellite's signal (R190). -/
def State.searchWindow (s : State) (sat signal : Nat) (b : Fin 2) : SearchWindow :=
  let unc := s.freqAidUnc
  match s.predicted sat, s.aidRecord sat, s.positionAid, s.timeAidUnc with
  | true, some r, some (p, m), some t =>
    let k := orbContent r
    let w := codeUncertainty t m
    { centre := s.predictedTau k p s.stamp,
      half := if 2 * w < codePeriodNs signal then some (w * 65536) else none,
      dop := rneRat ((carrierHz b : Rat) * 1000 * ((s.freqAid : Rat) / 10 ^ 18 - (satRate k s.time p : Rat) / 10 ^ 15)),
      dopHalf := carrierUnc b unc + ceilDiv t 1000000 + 10000 }
  | _, _, _, _ => { dopHalf := ceilDiv (6000000 * carrierHz b) 1575420000 + carrierUnc b unc }

/-- The window about another tracker or about the replica itself, in chips of the signal searched, and a Doppler window. -/
def windowAbout (time : Int) (signal chips : Nat) (dop dopHalf : Int) : SearchWindow :=
  { centre := time, half := some (chipUnits signal chips), dop, dopHalf }

/-- A tracker's signal time within its primary codes and Doppler (mHz) at the present sample. -/
def State.trackerNow (s : State) (b : Fin 2) (t : Tracker) : Int × Int :=
  let r := t.rep.advance t.signal b (sampleFrom s.stamp)
  (codeTime t.signal r.code, rneDiv r.freq 65536)

/-- What a channel's search on a band covers: in REACQ the propagated code and Doppler (R199); about the other band once
that tracks (R192); else the window of R190. The last value is the period to which code phases compare. -/
def State.windowOf (s : State) (c : Fin 256) (b : Fin 2) : SearchWindow × Int :=
  let x := s.sky.channels[c]
  let t := x.trk[b]
  let o := x.trk[1 - b]
  let period : Int := codePeriodNs t.signal * 65536
  if t.st = .reacq then
    let (time, dop) := s.trackerNow b t
    (windowAbout time t.signal 2 dop 20000, period)
  else if o.st.tracks ∧ o.st ≠ .pullIn then
    let (time, dop) := s.trackerNow (1 - b) o
    let band1 := if b = 1 then t.signal else o.signal
    let scaled := if b = 1 then rneDiv (dop * 115) 154 else rneDiv (dop * 154) 115
    (windowAbout time band1 3 scaled 10000, min period (codePeriodNs o.signal * 65536))
  else (s.searchWindow x.sat t.signal b, period)

/-- A detection lies in a window. -/
def SearchWindow.holds (w : SearchWindow) (period : Int) (signal : Nat) (d : Detection) : Bool :=
  let off := (codeTime signal d.code - w.centre) % period
  decide ((d.dop - w.dop).natAbs ≤ w.dopHalf) &&
    (match w.half with
    | some h => decide (off ≤ h) || decide (period - off ≤ h)
    | none => true)

/-- Elapsed ticks the engine takes for a search (R191): code bins of 0.5 or 0.25 chip and Doppler bins of half the inverse
coherent time, each over the dwell, at 4.0e9 cell-ms per second. -/
def SearchWindow.cost (w : SearchWindow) (signal : Nat) (stageB : Bool) : Nat :=
  let r := signalRow signal
  let perChip : Rat := if r.boc then 4 else 2
  let chips : Rat := match w.half with
    | some h => min r.chips ((2 * h : Rat) / (unitsPerS : Int) * r.chipRate)
    | none => r.chips
  let codeBins := (chips * perChip).ceil.toNat
  let dopBins := (ceilDiv (2 * w.dopHalf * 2 * stageCoherentMs signal stageB) 1000000).toNat
  codeBins * max 1 dopBins * (stageDwell stageB / 1250000) * 5 / 16

/-- Start a band's search for a channel's satellite. -/
def State.searchBand (s : State) (c : Fin 256) (b : Fin 2) : State :=
  match s.signalOf s.sky.channels[c].sat b with
  | none => s
  | some sig => s.setTracker c b { st := .search, signal := sig, since := s.now }

/-- A detection starts the pull-in from the code phase and Doppler found. -/
def State.detect (s : State) (c : Fin 256) (b : Fin 2) (d : Detection) : State :=
  s.setTracker c b { s.sky.channels[c].trk[b] with
    st := .pullIn, since := s.now, cn0 := 0, rep := { sample := sampleFrom s.stamp, code := d.code, freq := d.dop * 65536 } }

/-- ACQUISITION_SEARCH (R191, R192, R199): a stage completes with a detection in its window or without; in REACQ a
detection within the propagated window. A stage dwells on samples that are used, then the one engine works on it once the
stages before it are done. -/
def execAcquisitionSearch (channel : Fin 256) (band : Fin 2) (found : Option Detection) (s : State) :
    Host.Outcome State Fault Refusal :=
  let x := s.sky.channels[channel]
  let t := x.trk[band]
  let (w, period) := s.windowOf channel band
  let hit := found.filter fun d => w.holds period t.signal d
  if !s.sampling band then .next s
  else
    match t.st, hit with
    | .reacq, some d => .next (s.detect channel band d)
    | .search, h =>
      let done := max s.sky.engine (max t.since s.sky.bands[band].usedFrom + stageDwell t.stageB) + w.cost t.signal t.stageB
      if s.now < done then .next s
      else
        let s : State := { s with sky := { s.sky with engine := done } }
        match h with
        | some d => .next (s.detect channel band d)
        | none =>
          if !t.stageB && x.predicted then .next (s.setTracker channel band { t with stageB := true, since := s.now })
          else
            let s := s.moveTracker channel band .idle
            if band = 0 ∧ x.predicted ∧ !x.band1First then
              let s := s.setChannel channel { s.sky.channels[channel] with band1First := true }
              .next (s.searchBand channel 1)
            else .next s
    | _, _ => .next s

/-! ## Tracking (R198-R200) -/

/-- Run a tracker on its correlators' deliveries up to a grid sample: it has coasted on its last code rate and Doppler to
where they begin; those beyond the sample, or of a band whose samples are not used, do not count (R183, R198). -/
def State.runTracker (s : State) (b : Fin 2) (dumps : List Dump) (t : Tracker) : Tracker :=
  if !s.sampling b || dumps.isEmpty then t
  else
    let l := s.loopSet t.signal
    let len := l.coherentMs t.signal t.sync * samplesPerMs
    let now' := sampleFrom s.stamp
    let fit := (now' - t.rep.sample) / len
    let use := dumps.take fit
    { t with rep := t.rep.advance t.signal b (now' - use.length * len) }.run l b use

/-- A tracker has coasted for more than 20 ms (R183, R199): its band has delivered no samples it could use. -/
def State.coasted (s : State) (b : Fin 2) (t : Tracker) : Bool :=
  !s.sampling b && decide (t.rep.sample + 20 * samplesPerMs < sampleFrom s.stamp)

/-- TRACKER_LOCK (R192, R199): the pull-in criterion has held for 100 ms. -/
def execTrackerLock (channel : Fin 256) (run : TrackerRun) (s : State) : Host.Outcome State Fault Refusal :=
  let band := run.band
  let old := s.sky.channels[channel].trk[band]
  if old.st ≠ .pullIn then .next s
  else
    let t := s.runTracker band run.dumps old
    if t.rep.goodMs < 100 then .next (s.setTracker channel band t)
    else
      let s := s.setTracker channel band { t with
        st := .track, since := s.now, carrier := true, lockSince := s.now, restarted := true, rep := { t.rep with weakMs := 0 } }
      let other : Fin 2 := if band = 0 then 1 else 0
      let x := s.sky.channels[channel]
      if x.trk[other].st = .idle ∧ (band = 0 ∨ x.band1First) then .next (s.searchBand channel other) else .next s

/-- PULL_IN_TIMEOUT (R199). -/
def execPullInTimeout (channel : Fin 256) (band : Fin 2) (s : State) : Host.Outcome State Fault Refusal :=
  let t := s.sky.channels[channel].trk[band]
  if t.st = .pullIn ∧ t.since + ticksS 2 ≤ s.now then .next (s.moveTracker channel band .reacq) else .next s

/-- TRACKER_LOSS (R199): weak for loss_time, or coasting beyond 20 ms; code 0x3102. -/
def execTrackerLoss (channel : Fin 256) (run : TrackerRun) (s : State) : Host.Outcome State Fault Refusal :=
  let band := run.band
  let old := s.sky.channels[channel].trk[band]
  if old.st = .track ∨ old.st = .sync ∨ old.st = .ready then
    let t := s.runTracker band run.dumps old
    if t.rep.weakMs < s.nn Obj.loss_time ∧ !s.coasted band t then .next (s.setTracker channel band t)
    else
      let s := s.setTracker channel band { t with
        st := .reacq, since := s.now, carrier := false, aided := false, sync := false, rep := { t.rep with origin := none } }
      .next (s.log (skySource channel) 0x3102 (be 1 (band : Nat) ++ be 2 t.cn0))
  else .next s

/-- REACQ_TIMEOUT (R199). -/
def execReacqTimeout (channel : Fin 256) (band : Fin 2) (s : State) : Host.Outcome State Fault Refusal :=
  let t := s.sky.channels[channel].trk[band]
  if t.st = .reacq ∧ t.since + ticksS (s.nn Obj.reacq_time) ≤ s.now then .next (s.moveTracker channel band .idle) else .next s

/-- SYMBOL_SYNC (R198, R199): TRACK goes to SYNC; a tracker already READY by aiding integrates longer from here. -/
def execSymbolSync (channel : Fin 256) (band : Fin 2) (s : State) : Host.Outcome State Fault Refusal :=
  let t := s.sky.channels[channel].trk[band]
  if t.st = .track then .next (s.setTracker channel band { t with st := .sync, since := s.now, sync := true })
  else if t.st = .ready then .next (s.setTracker channel band { t with sync := true })
  else .next s

/-- The error bound e of R200 is below half the primary code period and a usable ephemeris exists: its content and the
position. -/
def State.aidedBy (s : State) (sat signal : Nat) : Option (Bytes × (Int × Int × Int)) :=
  match s.ephemeris sat signal, s.positionAid, s.timeAidUnc with
  | some r, some (p, m), some t =>
    if ((m : Int) * 1000000000 + 1000 * t + 10000 * 299792458) * 2 < (codePeriodNs signal : Int) * 299792458
    then some (orbContent r, p) else none
  | _, _, _ => none

/-- The aided method (R200): the transmit time of code phase 0 is the whole number of code periods next to what the
predicted range gives. -/
def State.aidedOrigin (s : State) (t : Tracker) (k : Bytes) (p : Int × Int × Int) : Int :=
  let period : Nat := codePeriodNs t.signal * 65536
  rneDiv (s.predictedTau k p (sampleStamp t.rep.sample) - codeTime t.signal t.rep.code) period * period

/-- The message method (R186, R200): the time of week that the message gives for a code phase of the replica. -/
def messageOrigin (sat signal week towMs : Nat) (code : Int) : Int :=
  (systemEpoch (sat / 256) + 604800 * (week : Int)) * unitsPerS + (towMs : Int) * 65536000000 - codeTime signal code

/-- A tracker whose transmit time is resolved, by an aiding position or by its message, is READY. -/
def State.trackerReady (s : State) (c : Fin 256) (b : Fin 2) (origin : Int) (aided : Bool) : State :=
  let t := (s.sky.channels[c]).trk[b]
  s.setTracker c b { t with st := .ready, since := s.now, aided, rep := { t.rep with origin := some origin } }

/-- TRANSMIT_TIME_RESOLVED (R199, R200): by aiding in TRACK, from the message in SYNC unless aiding resolves it there. -/
def execTransmitTimeResolved (channel : Fin 256) (read : MessageTime) (s : State) : Host.Outcome State Fault Refusal :=
  let band := read.band
  let x := s.sky.channels[channel]
  let t := x.trk[band]
  match t.st, s.aidedBy x.sat t.signal with
  | .track, some (k, p) => .next (s.trackerReady channel band (s.aidedOrigin t k p) true)
  | .sync, some (k, p) => .next (s.trackerReady channel band (s.aidedOrigin t k p) true)
  | .sync, none => .next (s.trackerReady channel band (messageOrigin x.sat t.signal read.week read.towMs read.code) false)
  | _, _ => .next s

/-! ## Navigation messages (R194, R201, R202) -/

/-- Put a record at a position. -/
def orbPut : List (Nat × Bytes) → Nat → Bytes → List (Nat × Bytes)
  | [], p, r => if orbKind r = 0 then [] else [(p, r)]
  | (q, x) :: l, p, r =>
    if p < q then (if orbKind r = 0 then (q, x) :: l else (p, r) :: (q, x) :: l)
    else if q = p then (if orbKind r = 0 then l else (p, r) :: l)
    else (q, x) :: orbPut l p r

/-- The record at a position, 128 zero bytes where it is empty. -/
def orbAt (l : List (Nat × Bytes)) (p : Nat) : Bytes :=
  match l.find? fun q => q.1 == p with
  | some q => q.2
  | none => List.replicate 128 0

/-- The first free position, else the one with the oldest ref_time (R194). -/
def orbPlace (l : List (Nat × Bytes)) : Nat :=
  match (List.range 512).find? fun p => !(l.any fun q => q.1 == p) with
  | some p => p
  | none =>
    match l with
    | [] => 0
    | x :: r => (r.foldl (fun a q => if orbRef q.2 < orbRef a.2 then q else a) x).1

/-- A decoded set enters the store: the same issue and content confirms a written record (R194, R195). -/
def State.storeOrbit (s : State) (kind sat message issue : Nat) (content : Bytes) : State :=
  let l := s.sky.orbit
  let body := field content 0 108
  match l.find? fun q => orbKind q.2 == kind && orbSat q.2 == sat && orbMessage q.2 == message && orbIssue q.2 == issue
      && orbContent q.2 == body with
  | some (p, r) =>
    let r := orbRecord kind sat message (setBit (orbFlags r) 7 true) issue (orbRef r) body
    { s with sky := { s.sky with orbit := orbPut l p r } }
  | none =>
    let r := orbRecord kind sat message 128 issue s.taiSeconds.toNat body
    { s with sky := { s.sky with orbit := orbPut l (orbPlace l) r } }

/-- The UTC parameters the enabled systems have delivered. -/
def State.skyUtcs (s : State) : List (Nat × SkyUtc) :=
  (List.finRange 4).filterMap fun (k : Fin 4) => if bit (s.nn Obj.sky_systems) k then s.sky.utc[k].map fun u => ((k : Nat), u) else none

/-- The offset and schedule the sky slot carries, adopted while it is the active slot (R100, R202). -/
def State.adoptSky (s : State) : State :=
  let l := s.skyUtcs
  match l with
  | [] => s
  | (_, u) :: r =>
    let agree := r.all fun v => v.2.offset == u.offset && v.2.sched == u.sched
    let mask := (l.map fun v => 2 ^ v.1).sum
    let s := if !agree && !s.sky.utcDisagree then s.log 0 0x3005 (be 1 mask) else s
    let s : State := { s with sky := { s.sky with utcDisagree := !agree } }
    let ref := (l.find? fun v => v.1 + 1 == s.nn Obj.sky_ref_system).getD (0, u)
    match s.selT.active with
    | some i =>
      if s.kind i = 6 then
        let sched := if agree then some (u.sched.map fun q => (q.1 * unitsPerS, q.2)) else none
        s.adoptLeap ref.2.offset sched
      else s
    | none => s

/-- NAV_PAGE (R201, R202): a page of a channel's signal on a band: its bits, whose parity or CRC is checked, and what they
bring. -/
def execNavPage (channel : Fin 256) (band : Fin 2) (page : NavPageRead) (s : State) : Host.Outcome State Fault Refusal :=
  let x := s.sky.channels[channel]
  let sys : Fin 4 := ⟨(x.sat / 256 - 1) % 4, Nat.mod_lt _ (by decide)⟩
  let item := if pageOk x.trk[band].signal page.bits then page.item else .bad
  if x.sat = 0 then .next s
  else
    let s := s.count 11 (if item == .bad then 0x05 else 0x04)
    match item with
    | .bad =>
      let s := s.bump Obj.nav_page_errors
      let quiet := match x.lastBad with
        | some t => decide (s.now < t + ticksS 60)
        | none => false
      if quiet then .next s
      else
        .next ((s.setChannel channel { x with lastBad := some s.now }).log (skySource channel) 0x3103 (be 1 x.trk[band].signal))
    | .orbit kind sat message issue content => .next (s.storeOrbit kind (if kind = 2 then sat else x.sat) message issue content)
    | .health sat signal usable =>
      let l := s.sky.unhealthy.filter (· != (sat, signal))
      .next { s with sky := { s.sky with unhealthy := if usable then l else (sat, signal) :: l } }
    | .utc dtLS week day dtLSF delta =>
      .next ({ s with sky := { s.sky with utc := s.sky.utc.set sys (some (utcOf (x.sat / 256) dtLS week day dtLSF delta)) } } : State).adoptSky
    | .isb offset => .next { s with sky := { s.sky with isb := s.sky.isb.set sys (some offset) } }

/-- Write the orbit area of the boot flash: the store and the held position (R196, R214). A store not restored since the
cold reset is not written: the flash holds it. -/
def State.persistOrbit (s : State) : State :=
  let held := if s.sky.held then
      some (s.n (Obj.held_position 0), s.n (Obj.held_position 1), s.n (Obj.held_position 2))
    else none
  if !s.sky.restored then s
  else { s with flash := s.flash.writeOrbit s.sky.orbit held, sky := { s.sky with persistedAt := s.now } }

/-- ORBIT_STORE_PERSIST (R196): every 900 s. -/
def execOrbitStorePersist (s : State) : Host.Outcome State Fault Refusal :=
  if s.awake 3 && s.awake 8 && s.sky.persistedAt + ticksS 900 ≤ s.now then .next s.persistOrbit else .next s

/-! ## Observation epochs (R203-R205) -/

/-- The interval of the epoch grid, ms (R203). -/
def State.epochMs (s : State) : Int := if s.sky.firstFix then s.n Obj.obs_interval else 100

/-- The first grid sample whose raw stamp converts to a time at or after `t` (R203), searched from an estimate. -/
def State.sampleReaching (s : State) (t : Int) : Nat :=
  let st := (s.stampOf (t : Rat))
  let n0 := sampleFrom st - 2
  match (List.range 6).find? fun k => t ≤ s.convert (sampleStamp (n0 + k)) with
  | some k => n0 + k
  | none => n0 + 6

/-- The next epoch: its grid instant, receive sample, flags 1 (step since the previous epoch) and 2 (instants passed
over) (R203). -/
def State.nextEpoch (s : State) : Int × Nat × Nat :=
  let i := s.epochMs * 65536000000
  match s.sky.epoch with
  | none =>
    let e := ceilDiv (s.convert s.sky.startStamp) i * i
    (e, s.sampleReaching e, 0)
  | some q =>
    match s.tb.segs.find? fun g => g.step && q.raw < g.start && g.start ≤ s.stamp with
    | none =>
      let e := (q.grid / i + 1) * i
      (e, s.sampleReaching e, 0)
    | some g =>
      let first := ceilDiv g.time i * i
      let lo := sampleFrom (q.raw + s.nn Obj.obs_interval * 160000000)
      let e := max first (ceilDiv (s.convert (sampleStamp lo)) i * i)
      (e, s.sampleReaching e, if first < e then 6 else 2)

/-- The observation record of a tracker at the receive sample n (R204, R205); `half` says that its half cycle is
unresolved. -/
def State.skyRecord (s : State) (n : Nat) (channel : Fin 256) (b : Fin 2) (half : Bool) : SkyRec :=
  let x := s.sky.channels[channel]
  let t := x.trk[b]
  let band := s.sky.bands[b]
  let r := t.rep.advance t.signal b n
  let tau := r.origin.getD (Config.unresolvedOrigin channel b) + codeTime t.signal r.code
  let centre := s.n (Obj.fe_if_offset b)
  let set := band.notchesAt n
  let zeros := (set.map (·.zeros)).getD []
  let width := (set.map (·.width)).getD 0
  let dn := Config.notchDelay zeros width centre t.signal
  let lobe : Nat := if b = 0 then 1023000 else 10230000
  let main := zeros.any fun f => (f - centre).natAbs ≤ lobe
  let transient := match set with
    | some c => decide (n ≤ c.sample + 20 * samplesPerMs)
    | none => false
  let unconf := match s.ephemeris x.sat t.signal with
    | some q => !(bit (orbFlags q) 7)
    | none => false
  let f := fun (v : Bool) (k : Nat) => if v then 2 ^ k else 0
  let flags := f (decide (t.st = .ready)) 15 + f t.carrier 14 + f half 13 + f t.aided 12 + f main 11 + f transient 10
    + f t.restarted 9 + f unconf 8 + f (s.sky.unhealthy.contains (x.sat, t.signal)) 7
  { channel, band := b, sat := x.sat, signal := t.signal, st := t.st, flags, tau,
    p := s.convert (sampleStamp n) - tau - psToUnits dn, phi := r.phase + Config.notchPhase zeros width centre t.signal,
    dop := rneDiv r.freq 65536, cn0 := t.cn0,
    lockMs := if t.carrier then min 0xFFFFFFFF (rneDiv (s.now - t.lockSince : Nat) 1250000).toNat else 0, dNotch := dn }

/-- A tracker runs on what its correlators have delivered by the epoch. -/
def State.runObs (s : State) (o : SkyObs) : State :=
  s.setTracker o.channel o.band (s.runTracker o.band o.dumps s.sky.channels[o.channel].trk[o.band])

/-- What an epoch leaves in a tracker and its channel. -/
def State.noteObs (s : State) (channel : Fin 256) (b : Fin 2) : State :=
  let x := s.sky.channels[channel]
  let t := x.trk[b]
  let t := { t with dop := rneDiv t.rep.freq 65536, restarted := false,
                    cn0Hist := ((s.now, t.cn0) :: t.cn0Hist).filter fun q => s.now ≤ q.1 + ticksS 61 }
  s.setChannel channel { x with trk := x.trk.set b t }

/-- A position that is known now: fixed or held, else the one last fitted, else the aid (R189, R214). -/
def State.positionKnown (s : State) : Option (Int × Int × Int) :=
  if s.n Obj.position_mode = 1 ∨ s.sky.held then s.positionAid.map (·.1)
  else match s.sky.fitted with
    | some p => some p
    | none => s.positionAid.map (·.1)

/-- Elevation and azimuth of a channel's satellite seen from a position, by its ephemeris in use or the record that aids it. -/
def State.placeChannel (s : State) (p : Int × Int × Int) (c : Fin 256) : State :=
  let x := s.sky.channels[c]
  let r := match s.ephemeris x.sat x.trk[0].signal with
    | some r => some r
    | none => s.aidRecord x.sat
  match r with
  | some r => s.setChannel c { x with elev := satElevation (orbContent r) s.time p, azim := satAzimuth (orbContent r) s.time p }
  | none => s

/-- Every active channel's elevation and azimuth, where a position is known (R208). -/
def State.placeChannels (s : State) : State :=
  match s.positionKnown with
  | some p => (List.finRange 256).foldl (fun (s : State) (c : Fin 256) => if s.sky.channels[c].sat = 0 then s else s.placeChannel p c) s
  | none => s

/-- A record that shows its carrier restarted, or lost, ends its channel's smoothing (R211). -/
def State.endSmoothing (s : State) (r : SkyRec) : State :=
  if bit r.flags 9 || !(bit r.flags 14) then s.setChannel r.channel { s.sky.channels[r.channel] with smoothN := 0 } else s

/-- The trackers not in IDLE (R204). -/
def State.activeTrackers (s : State) : List (Fin 256 × Fin 2) :=
  (List.finRange 256).flatMap fun c =>
    if s.sky.channels[c].sat = 0 then []
    else [(0 : Fin 2), 1].filterMap fun b => if s.sky.channels[c].trk[b].st = .idle then none else some (c, b)

/-- Channels READY, and channels in TRACK, SYNC or READY (0x3030.03, 0x3030.04). -/
def State.channelsReady (s : State) : Nat := (s.sky.channels.toList.filter fun x => x.state = .ready).length
def State.channelsTracking (s : State) : Nat := (s.sky.channels.toList.filter fun x => 4 ≤ x.state.rank).length

/-- OBSERVATION_EPOCH (R203-R206, R197): the trackers run on their correlators' deliveries; every tracker not in IDLE has
its record, by channel, then band, at the next epoch's receive instant. -/
def execObservationEpoch (obs : List SkyObs) (s : State) : Host.Outcome State Fault Refusal :=
  if !s.awake 3 || !s.tb.running then .next s
  else
    let (grid, n, fl) := s.nextEpoch
    let raw := sampleStamp n
    if s.stamp < raw then .next s
    else
      let s := s.count 11 0x03
      let seq := (s.sky.seq + 1) % 2 ^ 32
      let s : State := obs.foldl (fun (s : State) o => s.runObs o) s
      let active := s.activeTrackers
      let recs := active.map fun p => s.skyRecord n p.1 p.2 (obs.any fun o => o.channel == p.1 && o.band == p.2 && o.half)
      let g := s.segFor raw
      let e : SkyEpoch := { seq, raw, time := g.convert raw, segSeq := g.seq, flags := fl + (if g.valid then 1 else 0), grid }
      let s : State := active.foldl (fun (s : State) p => s.noteObs p.1 p.2) s
      let s : State := (recs.foldl (fun (s : State) r => s.endSmoothing r) s).placeChannels
      let s : State := { s with sky := { s.sky with seq, epoch := some e, recs, solved := false } }
      let s := if 4 ≤ s.channelsReady then
          let s : State := { s with sky := { s.sky with firstFix := true } }
          if s.nn Obj.ttff = 0xFFFFFFFF then s.putN Obj.ttff (rneDiv (s.now - s.sky.startAt) 1250000) else s
        else s
      .next s.allocateAll

/-- The bytes of an observation record (R205). -/
def SkyRec.bytes (r : SkyRec) (seq : Nat) : Bytes :=
  be 4 seq ++ be 1 (r.channel : Nat) ++ be 1 (r.band : Nat) ++ be 2 r.sat ++ be 1 r.signal ++ be 1 r.st.code ++ be 2 r.flags
    ++ timeToBytes r.tau ++ be 8 r.p ++ be 8 r.phi ++ be 4 r.dop ++ be 2 r.cn0 ++ be 4 r.lockMs ++ be 4 r.dNotch
    ++ List.replicate 8 0

/-- Window 0x8312 (R205). -/
def State.observationWindow (s : State) : Bytes :=
  match s.sky.epoch with
  | none => []
  | some e =>
    be 4 e.seq ++ be 9 e.raw ++ timeToBytes e.time ++ be 4 e.segSeq ++ be 1 e.flags ++ be 2 s.sky.recs.length
      ++ List.replicate 30 0 ++ (s.sky.recs.map fun r => r.bytes e.seq).flatten

/-- The 32 bytes of a channel's status (0x3100, 0x3101). -/
def State.channelStatus (s : State) (c : Fin 256) : Bytes :=
  let x := s.sky.channels[c]
  let t0 := x.trk[0]
  let t1 := x.trk[1]
  let lock := fun t : Tracker => if t.carrier then min 0xFFFFFFFF (rneDiv (s.now - t.lockSince : Nat) 1250000).toNat else 0
  let flags := match s.sky.recs.find? fun r => r.channel == c with
    | some r => r.flags / 256
    | none => 0
  be 2 x.sat ++ be 1 x.state.code ++ be 1 t0.st.code ++ be 1 t1.st.code ++ be 1 t0.signal ++ be 1 t1.signal ++ be 1 flags
    ++ be 2 t0.cn0 ++ be 2 t1.cn0 ++ be 4 t0.dop ++ be 4 (lock t0) ++ be 4 (lock t1) ++ be 2 x.elev ++ be 2 x.azim
    ++ List.replicate 4 0

end Sys2Proof.Machine
end

