-- ==== Sys2Proof/Machine/SkyTiming.lean ====
section
/-! DEFINITION. The timing solution, integrity and position (R208-R220). -/

namespace Sys2Proof.Machine

/-! ## Pseudotimes (R209-R211) -/

/-- A satellite's input to the solution: its corrected pseudotime q and transmit time, its orbit, v (2^-16 ns) at the
position near which terms are evaluated, variance (ns²). -/
structure SolIn where
  channel : Fin 256
  sat : Nat
  q : Int
  tau : Int
  content : Bytes
  v : Int
  var : Rat
  dual : Bool
  smoothed : Bool
  unconfirmed : Bool
  elev : Int
deriving DecidableEq, Repr

/-- A band is usable (R219). -/
def State.bandUsable (s : State) (b : Nat) : Bool :=
  s.n (Obj.band_state b) == 1 && !(bit (s.nn Obj.sky_alarms) b)

/-- The position in use when it is no unknown: fixed or held (R214). -/
def State.positionInUse (s : State) : Option (Int × Int × Int) :=
  if s.n Obj.position_mode = 1 then
    some (s.n (Obj.fixed_position 0), s.n (Obj.fixed_position 1), s.n (Obj.fixed_position 2))
  else if s.n Obj.position_mode = 0 ∧ s.sky.held then
    some (s.n (Obj.held_position 0), s.n (Obj.held_position 1), s.n (Obj.held_position 2))
  else none

/-- The position broadcast terms are evaluated at: the one in use, else another known one, else the origin. -/
def State.positionNear (s : State) : Int × Int × Int := (s.positionInUse <|> s.positionKnown).getD (0, 0, 0)

/-- d_b of R209 for a band and signal, 2^-16 ns. -/
def State.bandDelay (s : State) (b : Fin 2) (signal : Nat) : Int :=
  let a := if b = 0 then s.n Obj.ant_delay_0 + s.n Obj.fe_delay_0 else s.n Obj.ant_delay_1 + s.n Obj.fe_delay_1
  psToUnits (s.n Obj.cable_delay + a + s.n (Obj.sig_bias (signal - 1)))

/-- A record the solution may use, but for its exclusion (R208); no elevation is known before a first position. -/
def State.recUsable (s : State) (r : SkyRec) : Bool :=
  let x := s.sky.channels[r.channel]
  bit r.flags 15 && (s.positionKnown.isNone || decide (s.n Obj.sol_elevation_mask ≤ x.elev)) && (s.flag Obj.use_unhealthy || !(bit r.flags 7))
    && s.bandUsable r.band

/-- q_b of R209. -/
def State.q (s : State) (r : SkyRec) (content : Bytes) : Int :=
  r.p - s.bandDelay r.band r.signal - Config.satGroupDelay content r.signal

/-- sig_b² of R216, ns². -/
def sigB (elev : Int) (cn0 : Nat) : Rat := (1 : Rat) / 4 + invSinSq elev / 4 + pow10 (4000 - cn0)

/-- The carrier of a band, Hz (R178). -/
def carrier (b : Nat) : Rat := carrierHz b

/-- The usable records of a satellite's channel on the two bands. -/
def State.pairOf (s : State) (c : Fin 256) : Option SkyRec × Option SkyRec :=
  let f := fun b : Nat => s.sky.recs.find? fun r => r.channel == c && (r.band : Nat) == b && s.recUsable r
  (f 0, f 1)

/-- The solution mode before the count of unknowns (R211), over the satellites that may be used. -/
def State.bandsMode (s : State) : Nat :=
  let both := (List.finRange 256).filter fun c => (s.sky.channels[c].excluded).isNone &&
    match s.pairOf c with
    | (some _, some _) => true
    | _ => false
  if s.nn Obj.sol_min_dual ≤ both.length then 1 else if s.bandUsable 0 then 2 else 3

/-- The input of a channel in a mode, with its smoothing (R209, R211); `restart` says that the mode changed. -/
def State.solIn (s : State) (mode : Nat) (restart : Bool) (c : Fin 256) : Option (SolIn × Channel) :=
  let x := s.sky.channels[c]
  let pos := s.positionNear
  let mk := fun (r : SkyRec) (q : Rat) (l : Rat) (sig2 : Rat) (unconf : Bool) (content : Bytes) =>
    let limit := s.nn Obj.sol_smoothing * 1000 / max 1 (s.nn Obj.obs_interval)
    let smoothing := limit != 0
    let n0 := if restart || !smoothing then 0 else x.smoothN
    let n := max 1 (min (n0 + 1) limit)
    let qs := if n0 = 0 then q else q / n + ((n : Rat) - 1) / n * (x.smoothQ + l - x.smoothL)
    let v := rneRat qs - satRange content r.tau pos
    let i : SolIn := { channel := c, sat := x.sat, q := rneRat qs, tau := r.tau, content, v, var := sig2 / (min n 10 : Nat), dual := mode == 1, smoothed := 1 < n,
                       unconfirmed := unconf, elev := x.elev }
    (i, { x with smoothN := if smoothing then n else 0, smoothQ := qs, smoothL := l })
  let phase := fun r : SkyRec => (r.phi : Rat) / 2 ^ 32 / carrier r.band * (unitsPerS : Int)
  match mode, s.pairOf c with
  | 1, (some a, some b) =>
    (s.ephemeris x.sat a.signal).map fun o =>
      let k := orbContent o
      let q : Rat := rneRat ((23716 * (s.q a k : Rat) - 13225 * (s.q b k : Rat)) / 10491)
      let l := (23716 * phase a - 13225 * phase b) / 10491
      let v := (23716 ^ 2 * sigB x.elev a.cn0 + 13225 ^ 2 * sigB x.elev b.cn0) / 10491 ^ 2
      mk a q l v (bit a.flags 8 || bit b.flags 8) k
  | 2, (some a, _) =>
    (s.ephemeris x.sat a.signal).map fun o =>
      let k := orbContent o
      mk a ((s.q a k - Config.satIono k 0 a.tau pos : Int) : Rat) (phase a) (sigB x.elev a.cn0) (bit a.flags 8) k
  | 3, (_, some b) =>
    (s.ephemeris x.sat b.signal).map fun o =>
      let k := orbContent o
      mk b ((s.q b k - Config.satIono k 1 b.tau pos : Int) : Rat) (phase b) (sigB x.elev b.cn0) (bit b.flags 8) k
  | _, _ => none

/-! ## The fit (R212, R216) -/

def SolIn.sys (i : SolIn) : Nat := i.sat / 256

/-- The reference system in use: the configured one, else the first that contributes (R212). -/
def State.refSystem (s : State) (l : List SolIn) : Nat :=
  let r := s.nn Obj.sky_ref_system
  if l.any fun i => i.sys == r then r else ([1, 2, 3, 4].find? fun k => l.any fun i => i.sys == k).getD r

/-- By how much a system's pseudotimes exceed the reference system's, from the broadcast offsets, each of which is that of
a system against GPS (R209, R212). -/
def State.isbOf (s : State) (k ref : Nat) : Option Int :=
  let get := fun k : Nat => if k = 1 then some 0 else if h : k - 1 < 4 then s.sky.isb[k - 1] else none
  if k = ref then some 0
  else
    match get k, get ref with
    | some a, some b => some (a - b)
    | _, _ => none

/-- The satellites used: lone systems leave when biases are estimated, systems without an offset when it is broadcast;
there q and v are corrected by the offset. -/
def State.usedSats (s : State) (l : List SolIn) : List SolIn :=
  let ref := s.refSystem l
  if s.n Obj.isb_mode = 0 then
    l.filter fun i => i.sys == ref || 2 ≤ (l.filter fun j => j.sys == i.sys).length
  else
    l.filterMap fun i => (s.isbOf i.sys ref).map fun b => { i with q := i.q - b, v := i.v - b }

/-- The systems whose bias is an unknown (R212). -/
def State.biasSystems (s : State) (l : List SolIn) : List Nat :=
  if s.n Obj.isb_mode = 0 then [1, 2, 3, 4].filter fun k => k != s.refSystem l && l.any fun i => i.sys == k else []

/-- A satellite's terms with the position at `p`. -/
def SolIn.at (i : SolIn) (p : Int × Int × Int) : SolIn := { i with v := i.q - satRange i.content i.tau p }

/-- A satellite's observation equation at a position (R209, R212): v = ε + bias, less what a shift of the position along the
line of sight takes from the range where the position is an unknown. -/
def SolIn.row (i : SolIn) (systems : List Nat) (nav : Bool) (p : Int × Int × Int) : FitRow :=
  let u := sight p (satFrom i.content i.tau p)
  { coef := 1 :: systems.map (fun k => if i.sys = k then 1 else 0)
      ++ (if nav then [-u.1 * unitsPerMm, -u.2.1 * unitsPerMm, -u.2.2 * unitsPerMm] else []),
    value := (i.at p).v, weight := 1 / i.var }

/-- A weighted least-squares fit (R212, R216): the position in use or fitted, ε, its variance (ns²), the biases. -/
structure SolFit where
  pos : Int × Int × Int
  eps : Rat
  var : Rat
  biases : List (Nat × Rat)
deriving DecidableEq, Repr

/-- The fit at a position, without moving it; none where the satellites do not determine the unknowns. -/
def fitAt (l : List SolIn) (systems : List Nat) (nav : Bool) (p : Int × Int × Int) : Option (List Rat × Rat) :=
  leastSquares (1 + systems.length + if nav then 3 else 0) (l.map fun i => i.row systems nav p)

/-- Move a position to the one fitted about it, `fuel` times. -/
def fitPosition (l : List SolIn) (systems : List Nat) : Nat → Int × Int × Int → Option (Int × Int × Int)
  | 0, p => some p
  | fuel + 1, p =>
    match fitAt l systems true p with
    | none => none
    | some (x, _) =>
      let d := fun k => rneRat (x.getD (1 + systems.length + k) 0)
      fitPosition l systems fuel (p.1 + d 0, p.2.1 + d 1, p.2.2 + d 2)

/-- The fit of the satellites used, with the position as an unknown or at `near` (R212): the fit is not linear in the
position, which ten steps reach from as far as the Earth's centre. -/
def State.fit (s : State) (nav : Bool) (near : Int × Int × Int) (l : List SolIn) : Option SolFit :=
  let systems := s.biasSystems l
  let pos := if nav then fitPosition l systems 10 near else some near
  pos.bind fun p => (fitAt l systems nav p).map fun f =>
    { pos := p, eps := f.1.headD 0, var := f.2, biases := systems.zip (f.1.drop 1) }

/-- The number of unknowns (R212). -/
def State.unknowns (s : State) (nav : Bool) (l : List SolIn) : Nat := 1 + (s.biasSystems l).length + if nav then 3 else 0

/-- The position is an unknown of the solution (R212, R214). -/
def State.navigating (s : State) : Bool := s.positionInUse.isNone

/-- The post-fit residual of a satellite, 2^-16 ns. -/
def residual (e : Rat) (biases : List (Nat × Rat)) (i : SolIn) : Rat :=
  let b := match biases.find? fun p => p.1 == i.sys with
    | some p => p.2
    | none => 0
  (i.v : Rat) - e - b

/-- Residual squared over variance. -/
def chiTerm (e : Rat) (biases : List (Nat × Rat)) (i : SolIn) : Rat :=
  let r := residual e biases i / 65536
  r * r / i.var

/-- The satellite with the largest standardised residual. -/
def worstSat (e : Rat) (b : List (Nat × Rat)) : List SolIn → Option SolIn
  | [] => none
  | i :: r =>
    match worstSat e b r with
    | none => some i
    | some j => if chiTerm e b i < chiTerm e b j then some j else some i

/-- The standardised residual of a satellite, in 0.001 (R216, R226). -/
def stdResidual (e : Rat) (b : List (Nat × Rat)) (i : SolIn) : Int :=
  let c := chiTerm e b i
  let r := roundSqrt (c.num.toNat * 1000000) c.den
  if residual e b i < 0 then -(r : Int) else r

/-- A satellite outside a solution, its terms where that solution puts them (R212, R217); none where the solution has no
bias for its system. -/
def State.against (s : State) (used : List SolIn) (f : SolFit) (i : SolIn) : Option SolIn :=
  let ref := s.refSystem used
  if s.n Obj.isb_mode = 0 then
    if i.sys == ref || f.biases.any (fun p => p.1 == i.sys) then some (i.at f.pos) else none
  else (s.isbOf i.sys ref).map fun b => ({ i with q := i.q - b } : SolIn).at f.pos

/-- Fault detection and exclusion (R216): the satellites kept and their fit, those excluded with their standardised
residuals, whether the epoch fails. -/
def State.fde (s : State) (nav : Bool) : Nat → List SolIn → List SolIn × Option SolFit × List (SolIn × Int) × Bool
  | fuel, l =>
    let u := s.usedSats l
    match s.fit nav s.positionNear u with
    | none => (u, none, [], false)
    | some f =>
      let u := u.map fun i => i.at f.pos
      let d := u.length - s.unknowns nav u
      let fault := 1 ≤ d && chiExceeds d (s.nn Obj.fde_pfa) (u.map (chiTerm f.eps f.biases)).sum
      if !fault then (u, some f, [], false)
      else if d < 2 then (u, some f, [], true)
      else
        match fuel, worstSat f.eps f.biases u with
        | k + 1, some i =>
          let (kept, g, out, bad) := s.fde nav k (l.filter fun j => j.channel != i.channel)
          (kept, g, (i, stdResidual f.eps f.biases i) :: out, bad)
        | _, _ => (u, some f, [], true)

/-- The inputs of the latest epoch in a mode, excluded satellites too, with their channels after smoothing. -/
def State.inputs (s : State) (mode : Nat) (restart : Bool) : List (SolIn × Channel) :=
  (List.finRange 256).filterMap fun c => s.solIn mode restart c

/-- Before any position is known the satellites' elevations are not: a first fit of all of them gives a position, from
which they follow (R208, R212). -/
def State.firstPosition (s : State) : State :=
  if s.positionKnown.isSome then s
  else
    let l := s.usedSats ((s.inputs s.bandsMode true).map (fun p => { p.1 with var := 1 }))
    match s.fit true s.positionNear l with
    | some f => ({ s with sky := { s.sky with fitted := some f.pos } } : State).placeChannels
    | none => s

/-! ## Indicators (R218, R219) -/

/-- Set or clear an indicator under alarm_hold, journalled (R219); `sec` marks the spoofing detectors. -/
def State.indicate (s : State) (k : Fin 8) (cond sec hold : Bool) : State :=
  let a := s.nn Obj.sky_alarms
  let note := fun (s : State) (v : Nat) =>
    let d := be 1 (k : Nat) ++ be 1 v
    if sec then s.logSec 0x300D d else s.log 0 0x300C d
  if cond then
    let s : State := { s with sky := { s.sky with clearSince := s.sky.clearSince.set k none } }
    if bit a k then s else note (s.putN Obj.sky_alarms (setBit a k true)) 1
  else if bit a k then
    let since := s.sky.clearSince[k].getD s.now
    if !hold || since + ticksS (s.nn Obj.alarm_hold) ≤ s.now then
      let s : State := { s with sky := { s.sky with clearSince := s.sky.clearSince.set k none } }
      note (s.putN Obj.sky_alarms (setBit a k false)) 0
    else { s with sky := { s.sky with clearSince := s.sky.clearSince.set k (some since) } }
  else s

/-- Insert into a rising list. -/
def insertInt (x : Int) : List Int → List Int
  | [] => [x]
  | y :: r => if x ≤ y then x :: y :: r else y :: insertInt x r

/-- The quiet level of a band once 600 s of evaluations have been learned (R218). -/
def Band.quietLevel (b : Band) : Option Int :=
  if b.quiet.length < 6000 then none
  else
    let l := (b.quiet.map (·.2)).foldl (fun l x => insertInt x l) []
    l[l.length / 2]?

/-- C/N0 of a band's READY trackers, 0.01 dB-Hz. -/
def State.readyCn0 (s : State) (b : Fin 2) : List Tracker :=
  (s.sky.channels.toList.map fun x => x.trk[b]).filter fun t => t.st = .ready

/-- The mean of a list of C/N0 values, 0 for none. -/
def meanOf (l : List Int) : Int := if l = [] then 0 else rneDiv l.sum l.length

/-- The jamming condition of a band (R218, bits 0 and 1). -/
def State.jammed (s : State) (b : Fin 2) : Bool :=
  let y := s.sky.bands[b]
  let now' := meanOf ((s.readyCn0 b).map fun t => (t.cn0 : Int))
  let drop := match y.meanCn0.find? fun q => q.1 + ticksS 60 ≤ s.now with
    | some q => decide (now' + 300 ≤ q.2)
    | none => false
  let power := match y.quietLevel with
    | some q => decide (q + s.n Obj.jam_margin * 100 < s.n (Obj.band_power b))
    | none => false
  (power && drop) || s.n (Obj.band_state b) == 2

/-- Power with a C/N0 rise on a band (R218, bit 3). -/
def State.powerRise (s : State) (b : Fin 2) : Bool :=
  let l := s.readyCn0 b
  let up := l.filter fun t => t.cn0Hist.any fun q => s.now ≤ q.1 + ticksS 10 && decide (q.2 + 300 ≤ t.cn0)
  match s.sky.bands[b].quietLevel with
  | some q => decide (q + 300 < s.n (Obj.band_power b)) && l != [] && decide (8 * l.length ≤ 10 * up.length)
  | none => false

/-- The slot of kind 6 (the first enabled one). -/
def State.skySlot (s : State) : Option (Fin 16) := (List.finRange 16).find? fun i => s.slotEnabled i && s.kind i == 6

/-- The cross-check fails now (R218, bit 5). -/
def State.xcheckNow (s : State) : Bool :=
  let x := s.nn Obj.xcheck_slot
  if h : x < 16 then
    let i : Fin 16 := ⟨x, h⟩
    match s.skySlot with
    | some k =>
      match s.slots[i].phaseMean 1, s.slots[k].phaseMean 1 with
      | some p, some q => decide (s.slots[i].state = .qualified) && decide (psToUnits (s.n Obj.xcheck_limit) < (q - p).natAbs)
      | _, _ => false
    | none => false
  else false

/-- Every detector at an evaluation (R218). -/
def State.detectors (s : State) : State :=
  let xnow := s.xcheckNow
  let since := if xnow then some (s.sky.xcheckSince.getD s.now) else none
  let s : State := { s with sky := { s.sky with xcheckSince := since } }
  let xc := match since with
    | some t => decide (t + ticksS (s.nn Obj.xcheck_time) ≤ s.now)
    | none => false
  let ant := s.flag Obj.ant_supply_enable && (s.n Obj.ant_state == 2 || s.n Obj.ant_state == 3)
  let s := s.indicate 0 (s.jammed 0) false true
  let s := s.indicate 1 (s.jammed 1) false true
  let s := s.indicate 2 (decide (10 ≤ s.sky.uniform)) true true
  let s := s.indicate 3 (s.powerRise 0 || s.powerRise 1) true true
  let s := s.indicate 4 s.sky.jump true true
  let s := s.indicate 5 xc true true
  let s := s.indicate 6 s.sky.posAlarm true false
  s.indicate 7 ant false true

/-! ## Integrity (R220) -/

/-- The state and matching row of R220. -/
def State.integrity (s : State) : Nat × Nat :=
  let a := s.nn Obj.sky_alarms
  let m := s.n Obj.sol_mode
  let d := s.n Obj.redundancy
  let spoof := bit a 2 || bit a 3 || bit a 4 || bit a 5 || bit a 6
  if m = 0 ∨ s.sky.failed ∨ spoof ∨ bit a 7 ∨ !s.awake 3 then (0, 1)
  else if s.positionInUse = none ∨ d = 0 ∨ s.sky.fallback ∨ s.sky.unconfirmed then (1, 2)
  else if m = 2 ∨ m = 3 ∨ d = 1 then (2, 3)
  else (3, 4)

/-- Re-evaluate the integrity state (R220), code 0x3009; slots of kind 6 are checked (R118). -/
def State.updateIntegrity (s : State) : State :=
  let (st, row) := s.integrity
  let old := s.nn Obj.sky_state
  let s : State := { s with sky := { s.sky with row } }
  let s := if old = st then s else (s.putN Obj.sky_state st).log 0 0x3009 (be 1 old ++ be 1 st ++ be 1 row)
  (List.finRange 16).foldl (fun (s : State) (i : Fin 16) => if s.slotEnabled i && s.kind i == 6 then s.evalSlot i else s) s

/-! ## Position (R214) -/

/-- Mean position and 3D standard uncertainty of the mean, mm, of the surveyed positions. -/
def surveyMean (l : List (Int × Int × Int)) : (Int × Int × Int) × Nat :=
  let n := max 1 l.length
  let m := (rneDiv (l.map (·.1)).sum n, rneDiv (l.map (·.2.1)).sum n, rneDiv (l.map (·.2.2)).sum n)
  let sq := (l.map fun p => (p.1 - m.1) ^ 2 + (p.2.1 - m.2.1) ^ 2 + (p.2.2 - m.2.2) ^ 2).sum
  (m, if l.length < 2 then 0xFFFFFFFF else roundSqrt sq.toNat (n * (n - 1)))

/-- Start survey-in: the held position is discarded (R214, R215). -/
def State.startSurvey (s : State) : State :=
  let s : State := { s with sky := { s.sky with held := false, surveySince := some s.now, survey := [], departs := 0, posAlarm := false } }
  (((s.putN (Obj.held_position 0) 0).putN (Obj.held_position 1) 0).putN (Obj.held_position 2) 0).putN Obj.position_state 1

/-- What position_state reads once a position alarm is cleared: the position in use stands (R215). -/
def State.standing (s : State) : State :=
  if s.n Obj.position_state = 5 then s.putN Obj.position_state (if s.n Obj.position_mode = 1 then 3 else 2) else s

/-- One epoch of survey-in (R214). -/
def State.surveyEpoch (s : State) (pos : Int × Int × Int) (good : Bool) : State :=
  if s.n Obj.position_mode ≠ 0 ∨ s.sky.held then s
  else
    let since := s.sky.surveySince.getD s.now
    let l := if good then pos :: s.sky.survey else s.sky.survey
    let s : State := { s with sky := { s.sky with surveySince := some since, survey := l } }
    let (m, u) := surveyMean l
    let el := s.now - since
    let s := ((s.putN Obj.survey_elapsed (rneDiv el 1250000000)).putN Obj.survey_uncertainty u).putN Obj.position_state 1
    let byMax := decide (ticksS (s.nn Obj.survey_max_time) ≤ el)
    let done := decide (ticksS (s.nn Obj.survey_min_time) ≤ el) && decide ((u : Int) ≤ s.n Obj.survey_accuracy)
    if l ≠ [] ∧ (byMax || done) = true then
      let s : State := { s with sky := { s.sky with held := true, survey := [] , surveySince := none } }
      let s := ((s.putN (Obj.held_position 0) m.1).putN (Obj.held_position 1) m.2.1).putN (Obj.held_position 2) m.2.2
      (s.putN Obj.position_state 2).log 0 0x3007 (be 4 u ++ be 1 (if done then 0 else 1))
    else s

/-! ## Readmission (R217) -/

/-- One epoch of an excluded satellite, whose predicted residual is `within` 3σ; without an observation it is not. -/
def State.readmit (s : State) (c : Fin 256) (within : Bool) : State :=
  let x := s.sky.channels[c]
  match x.excluded with
  | none => s
  | some t =>
    let good := if within then x.good + 1 else 0
    if t + ticksS (s.nn Obj.exclusion_hold) ≤ s.now ∧ 10 ≤ good then
      (s.setChannel c { x with excluded := none, good := 0 }).log (skySource c) 0x300B (be 2 x.sat)
    else s.setChannel c { x with good }

/-- Exclude a satellite with its standardised residual (R216, R217). -/
def State.exclude (s : State) (i : SolIn) (r : Int) : State :=
  let x := s.sky.channels[i.channel]
  (s.setChannel i.channel { x with excluded := some s.now, good := 0 }).log (skySource i.channel) 0x300A (be 2 x.sat ++ be 4 r)

/-- The clock jump detector at an epoch (R218, bit 4). -/
def State.clockJump (s : State) (eps : Int) (sigmaPs : Nat) : Bool :=
  match s.sky.epoch, s.sky.lastEps with
  | some e, some (old, raw) =>
    if bit e.flags 1 || !s.hold.usable then false
    else
      let dt : Rat := ((e.raw - raw : Nat) : Rat) / stampS
      let y : Rat := (s.hold.predict s.now : Rat) / 10 ^ 18
      let pred : Rat := old + (s.convert e.raw - s.convert raw : Int) - (1 - y) * dt * (unitsPerS : Int)
      let limit : Rat := (s.n Obj.clock_jump_limit + 3 * sigmaPs : Int) * unitsPerPs + (s.hold.uy : Rat) / 10 ^ 18 * dt * (unitsPerS : Int)
      let d : Rat := eps - pred
      decide (limit < d) || decide (limit < -d)
  | _, _ => false

/-- The C/N0 uniformity detector at an epoch (R218, bit 2). -/
def State.uniformEpoch (s : State) : Nat :=
  let l := (s.readyCn0 0).map fun t => (t.cn0 : Int)
  let n : Int := l.length
  let sq := (l.map fun x => x * x).sum
  let lim := s.n Obj.cn0_spread_limit
  if 6 ≤ n ∧ n * sq - l.sum * l.sum < n * n * lim * lim then s.sky.uniform + 1 else 0

/-- TIMING_SOLUTION (R208-R220): the solution of the latest epoch, delivered to the sky slot. -/
def execTimingSolution (s : State) : Host.Outcome State Fault Refusal :=
  match s.sky.epoch with
  | none => .next s
  | some ep =>
    if s.sky.solved || !s.awake 3 then .next s
    else
      let s := s.firstPosition
      let mode := s.bandsMode
      let restart := mode != s.nn Obj.sol_mode
      let all := s.inputs mode restart
      let s : State := all.foldl (fun (s : State) p => s.setChannel p.1.channel p.2) s
      let inputs := all.map (·.1)
      let open' := inputs.filter fun i => (s.sky.channels[i.channel].excluded).isNone
      let nav := s.navigating
      let (used, found, out, bad) := s.fde nav (s.nn Obj.fde_max_exclude) open'
      let unknown := s.unknowns nav used
      let enough := unknown ≤ used.length && found.isSome
      let fit := found.getD { pos := s.positionNear, eps := 0, var := 0, biases := [] }
      let s : State := if enough && nav then { s with sky := { s.sky with fitted := some fit.pos } } else s
      let eps0 : Int := rneRat fit.eps
      let ref := s.refSystem used
      let fallback := !used.isEmpty && ref != s.nn Obj.sky_ref_system
      let shift := if fallback then -(s.isbOf ref (s.nn Obj.sky_ref_system)).getD 0 else 0
      let utc := if s.n Obj.sky_time_scale = 1 then
          match (s.skyUtcs.find? fun u => u.1 + 1 == s.nn Obj.sky_ref_system) with
          | some u => u.2.delta + (u.2.offset - s.n Obj.utc_offset) * unitsPerS
          | none => 0
        else 0
      let eps := eps0 + shift + utc
      let d := used.length - unknown
      let sigma := roundSqrt (fit.var.num.toNat * 1000000) fit.var.den
      let m := if enough then mode else 0
      let s : State := { s with sky := { s.sky with
        solved := true, failed := enough && bad, fallback, unconfirmed := used.any (·.unconfirmed), uniform := s.uniformEpoch,
        jump := enough && s.clockJump eps sigma, lastEps := if enough then some (eps, ep.raw) else none } }
      let s : State := out.foldl (fun (s : State) p => s.exclude p.1 p.2) s
      let within := fun c : Fin 256 => match inputs.find? fun i => i.channel == c with
        | some i =>
          match s.against used fit i with
          | some j => enough && decide (chiTerm fit.eps fit.biases j ≤ 9)
          | none => false
        | none => false
      let held := (List.finRange 256).filter fun c => (s.sky.channels[c].excluded).isSome && !(out.any fun p => p.1.channel == c)
      let s : State := held.foldl (fun (s : State) c => s.readmit c (within c)) s
      let s := ((s.putN Obj.sol_mode m).putN Obj.redundancy (if enough then d else 0)).putN Obj.sats_used used.length
      let s := (s.putN Obj.sky_time_error (unitsToNs eps)).putN Obj.sky_time_sigma sigma
      let s := s.putN Obj.sats_excluded ((s.sky.channels.toList.filter fun x => x.excluded.isSome).length + s.sky.outcasts.length)
      let s := s.surveyEpoch fit.pos (enough && !bad && mode == 1)
      let s := if s.n Obj.position_mode = 2 then s.putN Obj.position_state 4
        else if s.n Obj.position_mode = 1 && !s.sky.posAlarm then s.putN Obj.position_state 3 else s
      let s := s.detectors.updateIntegrity
      let (open0, s) := s.freeNat
      let left := fun i : SolIn => match used.find? fun j => j.channel == i.channel with
        | some j => some j
        | none => s.against used fit i
      let recs := inputs.map fun i =>
        ({ sat := i.sat, channel := i.channel, used := used.any fun j => j.channel == i.channel,
           excluded := (s.sky.channels[i.channel].excluded).isSome, dual := i.dual, smoothed := i.smoothed,
           residual := match left i with
             | some j => rneRat (residual fit.eps fit.biases j / unitsPerPs)
             | none => (open0 % 2 ^ 32 : Nat),
           sigma := roundSqrt (i.var.num.toNat * 1000000) i.var.den, elev := i.elev } : SolRec)
      let bias := fun k : Nat => match fit.biases.find? fun p => p.1 == k with
        | some p => rneRat (p.2 / unitsPerPs)
        | none => 0
      let others := [1, 2, 3, 4].filter (· != ref)
      let s : State := { s with sky := { s.sky with sol :=
        { seq := ep.seq, mode := m, state := s.nn Obj.sky_state, used := used.length, eps, sigma, biases := others.map bias, recs } } }
      -- delivery to the slots of kind 6 (R213)
      if s.n Obj.sky_state = 0 then .next s
      else
        let s : State := (List.finRange 16).foldl (fun (s : State) (i : Fin 16) =>
          if s.slotEnabled i && s.kind i == 6 then
            let carried := s.convert ep.raw - eps
            (s.setSlot i (s.slots[i].addSample { stamp := ep.raw, carried, phase := some (s.phaseOf i ep.raw carried) })).evalSlot i
          else s) s
        .next s.adoptSky

/-- What a band monitor makes of the samples of 100 ms, each 1 ms block as pin bytes with their counts (R182): the state,
the mean power relative to a sample with both parts at full scale in 0.01 dB, the clipping fraction in 0.01 %. -/
def State.monitor (s : State) (band : Fin 2) (blocks : List PinBlock) : Nat × Int × Int :=
  let bits := s.nn (Obj.sample_bits band)
  let top := largestLevel bits
  let all := blocks.flatten.map fun p => (s.sampleOf band p.1, p.2)
  let total := (all.map (·.2)).sum
  let largest := ((all.filter fun p => top ≤ p.1.1.natAbs || top ≤ p.1.2.natAbs).map (·.2)).sum
  let above := ((all.filter fun p => 1 < p.1.1.natAbs || 1 < p.1.2.natAbs).map (·.2)).sum
  let sum := (all.map fun p => power p.1 * p.2).sum
  let st : Nat := if !s.flag (Obj.band_enable band) then 0
    else if blocks.any (pinStuck bits) then 3
    else if 2 * total < 100 * largest then 2
    else if 100 * above < total then 4
    else 1
  (st, if total = 0 then 0 else centibel sum (2 * top * top * total), rneDiv (largest * 10000) (max 1 total))

/-- What a band's monitor found: its state, power and clipping, and the samples the detectors compare with: quiet powers of
24 h, mean C/N0 of 61 s. -/
def State.noteBand (s : State) (band : Fin 2) (found : Nat × Int × Int) : State :=
  let s := s.setBandState band found.1
  let s := (s.putN (Obj.band_power band) found.2.1).putN (Obj.band_clip band) found.2.2
  let y := { s.sky.bands[band] with monitoredAt := s.now }
  let quiet := (if s.n Obj.sky_alarms = 0 then (s.now, found.2.1) :: y.quiet else y.quiet).filter fun q => s.now ≤ q.1 + ticksS 86400
  let mean := meanOf ((s.readyCn0 band).map fun t => (t.cn0 : Int))
  s.setBand band { y with quiet, meanCn0 := ((s.now, mean) :: y.meanCn0).filter fun q => s.now ≤ q.1 + ticksS 61 }

/-- BAND_MONITOR (R182, R218): every 100 ms, on the samples of that time (20 blocks from
each of 0, 20, 40, 60 and 80 ms on); not while the front end settles (R183). -/
def execBandMonitor (band : Fin 2) (ms0 ms20 ms40 ms60 ms80 : List PinBlock) (s : State) : Host.Outcome State Fault Refusal :=
  if !s.awake 3 || s.settling band || s.now < s.sky.bands[band].monitoredAt + ticksMs 100 then .next s
  else
    let s := s.noteBand band (s.monitor band (ms0 ++ ms20 ++ ms40 ++ ms60 ++ ms80))
    let t := s.detectors
    .next (if t.nn Obj.sky_alarms = s.nn Obj.sky_alarms then t else t.updateIntegrity)

/-- How far the navigation fix of the latest epoch's satellites lies from the position in use, mm (R215); none where they
do not determine a position. -/
def State.navDeparture (s : State) : Option Nat :=
  match s.positionInUse with
  | none => none
  | some p =>
    let l := s.usedSats (((s.inputs s.bandsMode true).map (·.1)).filter fun i => (s.sky.channels[i.channel].excluded).isNone)
    (s.fit true p l).map fun f => (rneRat (lengthOf (vectorTo p f.pos))).toNat

/-- With pos_auto_resurvey true, a position alarm of mode 0 discards the held position and starts survey-in (R215). -/
def State.autoResurvey (s : State) : State :=
  if s.sky.posAlarm && s.flag Obj.pos_auto_resurvey && s.n Obj.position_mode == 0 then s.startSurvey.detectors else s

/-- POSITION_CHECK_FIX (R215): every 60 s a navigation fix from the observations of the epoch of that number, the latest,
is compared with the position in use. -/
def execPositionCheckFix (epoch : Nat) (s : State) : Host.Outcome State Fault Refusal :=
  if s.positionInUse = none ∨ !s.awake 3 ∨ s.now < s.sky.fixedAt + ticksS 60 ∨ epoch ≠ s.sky.seq then .next s
  else
    match s.navDeparture with
    | none => .next s
    | some d =>
      let k := if s.nn Obj.move_limit * 1000 < d then s.sky.departs + 1 else 0
      let s : State := { s with sky := { s.sky with departs := k, fixedAt := s.now } }
      if k < 5 ∨ s.sky.posAlarm then .next s
      else
        let s : State := { s with sky := { s.sky with posAlarm := true } }
        let s := (s.putN Obj.position_state 5).log 0 0x3008 (be 4 (rneDiv d 1000))
        .next s.detectors.autoResurvey.updateIntegrity

/-- SURVEY_RESTART (R214): the held position is discarded and survey-in starts; the device writes false. -/
def execSurveyRestart (s : State) : Host.Outcome State Fault Refusal :=
  let s := s.startSurvey.putB Obj.survey_restart false
  let s := if s.n Obj.position_mode = 1 then s.putN Obj.position_state 3
    else if s.n Obj.position_mode = 2 then s.putN Obj.position_state 4 else s
  .next s.detectors.updateIntegrity

/-- Window 0x8316. -/
def State.solutionWindow (s : State) : Bytes :=
  let q := s.sky.sol
  be 4 q.seq ++ be 1 q.mode ++ be 1 q.state ++ be 2 q.used ++ be 8 q.eps ++ be 4 q.sigma
    ++ ((q.biases ++ [0, 0, 0]).take 3).flatMap (fun b => be 4 b)
    ++ q.recs.flatMap fun r =>
      be 2 r.sat ++ be 1 (r.channel : Nat)
        ++ be 1 ((if r.used then 128 else 0) + (if r.excluded then 64 else 0) + (if r.dual then 32 else 0) + (if r.smoothed then 16 else 0))
        ++ be 4 r.residual ++ be 4 r.sigma ++ be 2 r.elev ++ be 2 0

end Sys2Proof.Machine
end

