-- ==== Sys2Proof/Machine/Grist.lean ====
section
/-! DEFINITION. Grist snapshots (R221-R225), the comparison with a seed (R73), seeding by a coarse fix (R72); commits of a
slot's source (R119) with the sky domain's power (R22, R24). -/

namespace Sys2Proof.Machine

def State.setGrist (s : State) (g : Grist) : State := { s with sky := { s.sky with grist := g } }

/-- A request takes effect (R221): the unit waits, the sky domain wakes. -/
def State.gristBegin (s : State) (src : GristFrom) : State :=
  let s := s.setGrist { s.sky.grist with req := some (src, s.now), fix := none }
  (s.putN Obj.grist_state 1).wakeSky

/-- A request would fail with BUSY (R221). -/
def State.gristBusy (s : State) : Bool := s.sky.grist.req.isSome || s.flag Obj.grist_hold
  || s.blockBusy 0x0500

/-- The request ends (R221). -/
def State.gristEnd (s : State) : State :=
  let s := s.setGrist { s.sky.grist with req := none }
  ((s.putN Obj.grist_request 0).putN Obj.grist_state 4).skyPower

/-- GRIST_REQUEST (R221): an owner commit of grist_request, 1 to capture and solve, 2 to capture only. -/
def execGristRequest (request : Nat) (s : State) : Host.Outcome State Fault Refusal :=
  if s.gristBusy || !(request == 1 || request == 2) then .next s
  else .next ((s.putN Obj.grist_request request).gristBegin (.owner (request == 1)))

/-- The scripts of the enabled bands have been sent and have settled (R222). -/
def State.settled (s : State) : Bool :=
  [(0 : Fin 2), 1].all fun b => !s.flag (Obj.band_enable b) || (decide (s.sky.bands[b].usedFrom ≤ s.now) && !s.sky.bands[b].scriptDue)

/-- The interpretation bytes of a band in the header (R223). -/
def State.bandFormat (s : State) (b : Fin 2) : Bytes :=
  be 1 (s.n (Obj.sample_format b)) ++ be 1 (s.n (Obj.sample_bits b)) ++ be 1 (s.n (Obj.iq_swap b)) ++ be 1 0

/-- GRIST_CAPTURE_START (R222): the first grid sample at or after the request, the settling and grist_start_time; a held
buffer is not overwritten (R225). -/
def execGristCaptureStart (s : State) : Host.Outcome State Fault Refusal :=
  let st := s.n Obj.grist_start_time
  match s.sky.grist.req with
  | some _ =>
    let started := st = 0 || decide (st ≤ s.time)
    if s.n Obj.grist_state ≠ 1 ∨ !s.awake 3 ∨ !s.settled ∨ !started ∨ s.flag Obj.grist_hold then .next s
    else
      let n0 := sampleFrom s.stamp
      let raw := sampleStamp n0
      let g := s.segFor raw
      let on := fun b : Fin 2 => s.flag (Obj.band_enable b)
      let flags := (if g.valid then 1 else 0) + (if on 0 then 2 else 0) + (if on 1 then 4 else 0)
      let head := be 2 (s.n Obj.grist_length) ++ be 4 (s.n Obj.grist_length * 61380)
        ++ be 1 (s.n (Obj.band_state 0)) ++ be 1 (s.n (Obj.band_state 1)) ++ s.bandFormat 0 ++ s.bandFormat 1
        ++ be 4 (s.n (Obj.fe_if_offset 0)) ++ be 4 (s.n (Obj.fe_if_offset 1))
        ++ [(0 : Fin 2), 1].flatMap fun (b : Fin 2) => (List.finRange 4).flatMap fun (k : Fin 4) => be 4 (s.n (Obj.notch_freq b k))
      let x := { s.sky.grist with n0, firstTime := g.convert raw, segSeq := g.seq, flags, scripted := 0, length := s.nn Obj.grist_length,
                                  format := head, header := [], samples := [] }
      .next ((s.setGrist x).putN Obj.grist_state 2)
  | none => .next s

/-- The samples of a capture as the buffer holds them: a disabled band's bytes are 0 (R223). -/
def maskBands (on0 on1 : Bool) : Bytes → Bytes
  | a :: b :: r => (if on0 then a else 0) :: (if on1 then b else 0) :: maskBands on0 on1 r
  | [a] => [if on0 then a else 0]
  | [] => []

/-- GRIST_CAPTURE_COMPLETE (R222, R223): the samples of both bands as received; the header is written. -/
def execGristCaptureComplete (samples : Bytes) (s : State) : Host.Outcome State Fault Refusal :=
  let x := s.sky.grist
  match x.req with
  | none => .next s
  | some (src, _) =>
    let last := sampleStamp (x.n0 + x.length * 61380)
    if s.n Obj.grist_state ≠ 2 ∨ s.stamp < last then .next s
    else
      let first := sampleStamp x.n0
      let stepped := s.tb.segs.any fun g => g.step && first < g.start && g.start ≤ last
      let flags := setBit x.flags 4 stepped
      let seq := (s.n Obj.grist_sequence + 1) % 2 ^ 32
      let b := be 4 seq ++ be 8 x.n0 ++ be 9 first ++ timeToBytes x.firstTime ++ be 4 x.segSeq ++ be 1 flags ++ x.format
        ++ List.replicate 156 0
      let kept := maskBands (bit x.flags 1) (bit x.flags 2) (padTo (x.length * 122760) samples)
      let s := s.setGrist { x with flags, header := b ++ be 4 (crc32c b), samples := kept }
      let s := (s.putN Obj.grist_sequence seq).log 0 0x300E (be 4 seq ++ be 1 flags)
      match src with
      | .owner false => .next s.gristEnd
      | _ => .next (s.putN Obj.grist_state 3)

/-- The a priori time and half window of a solve, 2^-16 ns (R224). -/
def State.gristPrior (s : State) (first : Nat) : Option (Int × Int) :=
  let fromOrbit := (s.sky.orbit.map fun q => orbRef q.2).foldl (fun a r => max a r) 0
  match s.timeValid, s.timeAidUnc with
  | true, some u => some (s.convert first, u * 65536)
  | _, _ =>
    if s.keep.coarseValid then
      some (s.coarseNow - rneDiv (((s.stamp : Int) - first) * 1024) 5, s.coarseUnc * 65536)
    else if s.sky.orbit = [] then none
    else some ((fromOrbit : Int) * unitsPerS, 14400 * unitsPerS)

/-- The ephemeris records that may aid a solve at an a priori time, 4 h about their ref_time (R194, R224). -/
def State.ephemerides (s : State) (t : Int) : List Bytes :=
  (s.sky.orbit.map (·.2)).filter fun r => orbKind r == 1 && decide ((orbRef r * unitsPerS - t).natAbs ≤ (14400 * unitsPerS).natAbs)

/-- A seed is on its way: requested or issued and not yet in force. -/
def State.seedPending (s : State) : Bool :=
  (match s.tb.issued with
    | some g => g.valid && !s.seg.valid
    | none => false) ||
  (match s.tb.want with
    | some w => (match w.kind with
      | .seed _ _ _ _ => true
      | _ => false)
    | none => false)

/-- A Grist coarse fix meets device time (R72, R73): it seeds unseeded time, whose bound grows from then on (R147), or is
compared with a seed. DESIGN CHOICE (log entry 212): where s and T_h start. -/
def State.meetFix (s : State) (fix : Int) (unc : Int) (first : Nat) : State :=
  let early := s.mode.cur = .steep || s.mode.cur = .mash
  if s.n Obj.tb_state = 0 then
    if early && !s.mode.withdrawn && !s.seedPending then
      let s := (s.seed fix first 2 unc 0).startSeedBound unc
      let s := if s.n Obj.timing_condition = 0 then s.setCondition 1 else s
      s.drivePins
    else s
  else if s.n Obj.tb_state = 1 ∧ s.n Obj.seed_source = 1 then
    let diff := s.seg.convert first - fix
    let cur := s.timeUncertainty
    let ns := unitsToNs diff.natAbs
    if (diff.natAbs : Int) ≤ (cur + unc) * 65536 then
      if ns + unc < cur then
        { s with hold := { s.hold with bound := (ns + unc) * 10 ^ 9 * boundDen, start := s.now, grownAt := s.now } }
      else s
    else
      let s := s.logSec 0x2002 (durToBytes (unitsToNs diff))
      let s : State := { s with mode := { s.mode with withdrawn := true }, hold := { s.hold with fromSeed := false, bound := 0 } }
      let s := s.requestSegment .withdraw
      (if s.n Obj.timing_condition = 1 then s.setCondition 0 else s).drivePins
  else s

/-- GRIST_SOLVE_COMPLETE (R224, R72, R73, code 0x300F). -/
def execGristSolveComplete (s : State) : Host.Outcome State Fault Refusal :=
  let x := s.sky.grist
  match x.req with
  | none => .next s
  | some (src, _) =>
    if s.n Obj.grist_state ≠ 3 then .next s
    else
      let first := sampleStamp x.n0
      let usable := (bit x.flags 1 && !(bit x.scripted 0)) || (bit x.flags 2 && !(bit x.scripted 1))
      let (status, fix, s) : Nat × Option (Int × Int) × State :=
        if !usable then (5, none, s)
        else
          match s.gristPrior first with
          | none => (4, none, s)
          | some (t, w) =>
            let orbits := s.ephemerides t
            let need := if s.positionInUse.isSome then 3 else 6
            let band := fun (b : Fin 2) => if bit x.flags (b + 1) && !(bit x.scripted b) then
                (everyOther (x.samples.drop b)).map fun y => s.sampleOf b y.toNat else []
            let samples := [band 0, band 1]
            if Config.gristSatellites samples orbits s.positionInUse t w < need then (2, none, s)
            else
              match Config.gristCandidates samples orbits s.positionInUse t w with
              | [(f, sigma3)] => (1, some (f, sigma3 + s.n Obj.coarse_fix_margin), s)
              | [] =>
                let (k, s) := s.freeNat
                (2 + k % 2, none, s)
              | _ => (3, none, s)
      let s := s.putN Obj.grist_fix_status status
      let err := match fix with
        | some (f, _) => unitsToNs (s.seg.convert first - f)
        | none => 0
      let s := match fix with
        | some (_, u) => (s.putN Obj.grist_fix_time_error err).putN Obj.grist_fix_uncertainty u
        | none => s
      let s := s.log 0 0x300F (be 1 status ++ durToBytes err)
      let s := s.setGrist { s.sky.grist with fix := fix.map fun p => (p.1, p.2, first) }
      let s := match fix, src with
        | some _, .verify => s
        | some (f, u), _ => s.meetFix f u first
        | none, _ => s
      .next s.gristEnd

/-- GRIST_HOLD (R225): a commit of grist_hold keeps or releases the snapshot buffer. -/
def execGristHold (hold : Bool) (s : State) : Host.Outcome State Fault Refusal := .next (s.putB Obj.grist_hold hold)

/-- Bytes of window 0x8314 (R223); zero beyond the last sample. -/
def State.gristWindow (s : State) (offset len : Nat) : Bytes := field (s.sky.grist.header ++ s.sky.grist.samples) offset len

/-- SLOT_CONFIG_COMMIT (R119, R22, R24): a commit of slot_enable, source_kind or source_number; enabling a sky-bound slot
wakes the sky domain, and in STEEP starts a capture for the seed (R221). -/
def execSlotConfigCommit (slot : Fin 16) (enable : Bool) (kind number : Nat) (s : State) :
    Host.Outcome State Fault Refusal :=
  let before := s.skyBound
  let was := s.slotEnabled slot && s.kind slot == 6
  let s := ((s.putB (Obj.slot_enable slot) enable).putN (Obj.source_kind slot) kind).putN (Obj.source_number slot) number
  let s := (s.bindSlot slot enable).skyPower
  let s := if !before && s.skyBound && s.awake 3 then
      let s : State := { s with sky := { s.sky with startAt := s.now } }
      (s.putN Obj.acq_start_class s.startClass).putN Obj.ttff 0xFFFFFFFF
    else s
  if enable && kind == 6 && !was && s.mode.cur = .steep && !s.gristBusy then .next (s.gristBegin .steep)
  else .next s

end Sys2Proof.Machine
end

