-- ==== Sys2Proof/Machine/Reset.lean ====
section
/-! DEFINITION. Resets (R379-R389): assertion and release of each scope, the cause record, what each scope keeps. -/

namespace Sys2Proof.Machine

/-! ## Configuration banks (R376, R377) -/

/-- A persisted write broken off leaves its bank without a valid header (R51, R376). -/
def State.breakPersist (s : State) : State :=
  match s.ool.persisting with
  | none => s
  | some _ =>
    let f := s.flash
    let f := match f.activeBank with
      | some (1, _) => { f with cfg0 := {} }
      | some (_, _) => { f with cfg1 := {} }
      | none => f
    { s with flash := f, sys := { s.sys with persistLost := true }, ool := { s.ool with persisting := none } }

/-! ## The cause record (R384) -/

/-- Record a reset's scope and cause; its time is Snowdrop's coarse time, 0 when invalid. -/
def State.recordCause (s : State) (scope cause : Nat) : State :=
  (s.putN Obj.reset_cause (scope * 256 + cause : Nat)).putN Obj.reset_cause_time (if s.keep.coarseValid then s.coarseNow else 0)

/-! ## Cold and power-on reset (R379-R381) -/

/-- Objects a cold reset leaves: those the keep island and OTP hold, and a pin's level. -/
def keptKeys : List Nat :=
  [Obj.reset_cause, Obj.reset_cause_time, Obj.tamper_latch, Obj.thermal_trip_count, Obj.cellar_verify_count,
   Obj.cellar_verify_disagree, Obj.xing_hang_last, Obj.xing_hang_count, Obj.keep_supply, Obj.vkeep_voltage, Obj.security_floor,
   Obj.quiet_pin]

/-- Put domains 2 to 8 into a state. -/
def State.setDoms (s : State) (v : Nat) : State :=
  (List.range 7).foldl (fun (s : State) d => s.setDom (d + 2) v) s

/-- Everything but the keep island, the boot flash, OTP and the levels of the pins at its value at a cold reset. -/
def State.coldBase (s : State) : State :=
  let s := s.breakPersist
  let y := s.sys
  { pending := s.pending, now := s.now, freeIdx := s.freeIdx, draws := s.draws,
    obj := s.obj.filter fun p => keptKeys.contains p.1,
    keep := { s.keep with verifyWake := none, verifySample := none }, flash := s.flash,
    mode := { cur := s.mode.cur, pins := {} },
    side := { latched := s.side.latched },
    serve := { quietLow := s.serve.quietLow, quietHighAt := s.serve.quietHighAt, stopped := s.serve.quietLow },
    sec := { jtag := s.sec.jtag },
    sys := { rstnLow := y.rstnLow, wrstnLow := y.wrstnLow, keepClock := y.keepClock, oscSince := y.oscSince, mainSince := y.mainSince,
             notes := y.notes, persistLost := y.persistLost, keepPowered := y.keepPowered, releasedAt := y.releasedAt } }

/-- An entry for the journal of the next start: source, code, data. -/
def State.note (s : State) (source code : Nat) (data : Bytes) : State :=
  { s with sys := { s.sys with notes := s.sys.notes ++ [(source, code, data)] } }

/-- A source asserts during a reset of its own or a wider scope (R380): it is absorbed, but holds the reset as long as it
is asserted; of sources of one scope that assert in one cycle the lowest cause is recorded. -/
def State.absorb (s : State) (scope cause hold : Nat) : State :=
  let s : State := { s with sys := { s.sys with holdUntil := max s.sys.holdUntil (s.now + hold) } }
  if s.sys.scope == some scope && s.sys.assertedAt = s.now && scope * 256 + cause < s.nn Obj.reset_cause then s.recordCause scope cause
  else s

/-- Assert a cold reset (R379, R380): absorbed during a power-on or cold reset, without effect while main supply is off;
`hold` is how long its source holds it at least. -/
def State.assertCold (s : State) (cause hold : Nat) : State :=
  if !s.keep.mainGood then s
  else if s.sys.scope == some 1 || s.sys.scope == some 2 then s.absorb 2 cause hold
  else
    let s := (s.recordCause 2 cause).coldBase.setDoms 3
    { s with sys := { s.sys with scope := some 2, assertedAt := s.now, holdUntil := s.now + hold } }

/-! ## Warm reset (R258, R288, R381, R382, R416) -/

/-- The increments of the threads a warm reset discards are lost (R306). -/
def State.dropIncrements (s : State) : State :=
  let l := s.serve.engines.toList.flatMap fun g => g.threads.toList.flatMap fun x => if x.busy then x.incs else []
  l.foldl (fun (s : State) p => s.bump (Obj.program_counters p.1) (2 ^ 64 - p.2 % 2 ^ 64)) s

/-- The serve domain after a warm reset (R288): the table in DRAM, the wheel and the active image are kept; a dirty cache
entry of the last 100 ms may have been written back or not. -/
def State.resetServe (s : State) : State :=
  let s := s.dropIncrements
  let (m, s) := s.freeNat
  let lines := s.serve.ct.cache.filter fun l => match l.dirty with
    | some t => t + ticksMs 100 < s.now || bit m (l.index % 1024)
    | none => false
  let dram := lines.foldl (fun d l => ctIns d l.index (lineEntry l.data)) s.serve.ct.dram
  let c := s.serve.ct
  let ct : ClientTable := { dram, ready := c.ready, sweepNext := c.sweepNext, wheel := c.wheel, badSlots := c.badSlots }
  let image := s.serve.prog.active
  let prog : Programs := match image with
    | some b => { regionB := imageCode b, entries := imageEntries b, active := image }
    | none => {}
  let s : State := { s with serve := { ct, prog, quietLow := s.serve.quietLow, quietHighAt := s.serve.quietHighAt,
                                       serial := s.serve.serial, stopped := s.serve.quietLow } }
  s.ctCount

/-- Frames of a port at a warm reset's assertion (R258): those not yet started count in tx_aborted; the one in
transmission ends with an error code group. -/
def State.resetMac (s : State) (n : Fin 64) : State :=
  let started := s.ports[n].fixed.filter fun f => f.depart ≤ s.tb.raw
  let s := s.bump (Obj.tx_aborted n) (s.ports[n].fixed.length - started.length + s.ports[n].egress.length)
  s.setPort n { s.ports[n] with egress := [], fixed := [] }

/-- Counter blocks 0 to 8 and 10 restart (R416). -/
def State.resetBlocks (s : State) : State :=
  { s with ctrs := Vector.ofFn fun (b : Fin 16) => if b.val ≤ 8 || b.val = 10 then {} else s.ctrs[b] }

/-- A warm source during bring-up causes a cold reset (R380, code 0x1508). -/
def State.warmToCold (s : State) (cause hold : Nat) : State := (s.assertCold cause hold).note 0x0800 0x1508 (be 1 cause)

/-- Assert a warm reset (R70, R379-R381): the control, serve and crypto domains and the port MACs. -/
def State.assertWarm (s : State) (cause hold : Nat) : State :=
  if s.mode.cur == .cellar || !s.keep.mainGood then s
  else if s.sys.scope.isSome then s.absorb 3 cause hold
  else if !s.mode.bringupDone then s.warmToCold cause hold
  else
    let s := s.recordCause 3 cause
    let s := (if s.domState 5 = 0 then s else s.setDom 5 3).setDom 6 3 |>.setDom 7 3
    let s := if s.mode.cur = .sparge then
        let s : State := { s with mode := { s.mode with spargeDeadline := none, spargeExit := none } }
        (s.putB Obj.sparge_request false).setMode (conditionMode (s.n Obj.timing_condition)) 2
      else s
    let s := (s.resetOol 2).discardSched
    let gen := s.ool.persisting.map fun p => p.set.generation
    let s := s.breakPersist
    let s : State := { s with ool := { nextTxn := s.ool.nextTxn, nextSched := s.ool.nextSched } }
    let s := (List.finRange 64).foldl (fun (s : State) n => s.resetMac n) s
    let s := s.bnReset.zeroiseKeys.resetServe.resetBlocks
    let s : State := { s with mem := { s.mem with sram := [], sramSums := [] } }
    let s : State := { s with prot := { keyIndex := s.prot.keyIndex, master := s.prot.master, masterOld := s.prot.masterOld, masterFrom := s.prot.masterFrom },
                              mode := { s.mode with suspend5 := true } }
    { s with sys := { s.sys with scope := some 3, assertedAt := s.now, holdUntil := s.now + hold, abandoned := gen, persistLost := false, block := none,
                                 cmd := none, activation := none, warmAt := none, warmStage := 0, servedAt := none } }

/-- The ranges of the per-port objects a warm reset resets (R258): p.06 to p.09, the filter entries at p + 0x10 + e. -/
def warmPortKey (key : Nat) : Bool :=
  let i := key / 256
  if i = 0x4030 then 1 ≤ key % 256 && key % 256 ≤ 3
  else if i = 0x4031 then 1 ≤ key % 256 && key % 256 ≤ 5
  else if 0x4000 + 0x40 ≤ i && i < 0x5000 || (0x4000 ≤ i && i < 0x4030) then
    let o := i % 0x40
    (o = 0 && 6 ≤ key % 256 && key % 256 ≤ 9) || (0x10 ≤ o && o ≤ 0x1F)
  else false

/-- Objects of the reset domains that a warm reset keeps (R31, R43, R103, R306, R362, R381, R382, R416). -/
def warmKept (key : Nat) : Bool :=
  let i := key / 256
  [Obj.generation, Obj.owner_epoch, Obj.security_floor, Obj.enrolled, Obj.duk_state, Obj.tamper_latch, Obj.nts_ke_public_key,
   Obj.debug_state, Obj.block_lost, Obj.wd_warm_count, Obj.thermal_trip_count, Obj.snap_epoch, Obj.snap_raw, Obj.snap_time,
   Obj.quiet_pin, Obj.ct_entries, Obj.ct_grants, Obj.fw_running_version, Obj.fw_running_bank, Obj.fw_trial,
   Obj.ssc_depth_dram, Obj.active_bank, Obj.persist_generation, Obj.program_version_active, Obj.program_signer_active, Obj.region_a_version].contains key
    || i == 0x1300 || (0x5110 ≤ i && i ≤ 0x5111)

/-- A warm reset gives the object its value under R40 (R382). -/
def warmResets (key : Nat) : Bool :=
  match objRow key with
  | none => key / 256 = 0x8342 || key / 256 = 0x8344
  | some r =>
    if warmKept key then false
    else if r.dom = 0 then (let b := (key / 256 - 0x6000) / 0x20; b ≤ 8 || b = 10)
    else r.dom = 5 || r.dom = 6 || r.dom = 7 || warmPortKey key

/-- Objects of the units a warm reset resets take their values (R382): persistent ones from the set in force. -/
def State.warmObjects (s : State) : State :=
  let kept := s.obj.filter fun p => !warmResets p.1
  let back := s.setValues.filter fun p => warmResets p.1
  back.foldl (fun (s : State) p => s.put p.1 p.2) { s with obj := kept }

/-- Release a warm reset (R388 step 1). A pulse count may have overflowed during it (R405). -/
def State.releaseWarm (s : State) : State :=
  let (m, s) := s.freeNat
  let s := [2, 3, 4, 8].foldl (fun (s : State) d =>
    if bit m d then s.pulseLost d 6 else s) s
  let s := (if s.domState 5 = 0 then s else s.setDom 5 1).setDom 6 1 |>.setDom 7 1
  { s with sys := { s.sys with scope := none, warmAt := some s.now, warmStage := 1, resync := [5, 6, 7], parts := [], resynced := [],
                               wdAt := s.now, wdRelease := if s.nn Obj.reset_cause % 256 = 10 then some s.now else none } }

/-- Step 2 (5 ms): the queues are admitted to the journal (R103); codes 0x1501, 0x1509. -/
def State.warmStep2 (s : State) : State :=
  let s := (s.setDom 6 2).admitHeld
  let s := s.log 0x0800 0x1501 (be 2 (s.n Obj.reset_cause) ++ timeToBytes (s.n Obj.reset_cause_time))
  let s := s.sys.notes.foldl (fun (s : State) n => s.log n.1 n.2.1 n.2.2) s
  let s : State := { s with sys := { s.sys with notes := [] } }
  let s := s.revertTrial
  let bank := s.flash.boot.bank
  let s := (s.putN Obj.fw_running_bank bank).putN Obj.fw_running_version (fwImageVersion (s.flash.image bank))
  match s.sys.abandoned with
  | some g => s.log 0x0800 0x1509 (be 8 g)
  | none => s

/-- Step 4 (35 ms): objects of the reset units; the abandoned write counts in persist_fail (R394). -/
def State.warmStep4 (s : State) : State :=
  let s := s.warmObjects
  let s := (if s.domState 5 = 0 then s else s.setDom 5 2).bnShow
  let s := s.putN Obj.program_status (if s.serve.prog.active.isSome then 4 else 0)
  let s := match s.sys.abandoned with
    | some _ => s.bump Obj.persist_fail
    | none => s
  let s : State := { s with sys := { s.sys with abandoned := none } }
  s.serveQuiet

/-- The instants of a warm release that have come (R388): 5 ms, 20 ms, 35 ms, 40 ms, at which the MACs resume (R404, R405). -/
def State.warmTick (s : State) : State :=
  match s.sys.warmAt with
  | none => s
  | some t =>
    let go := fun (s : State) (ms stage : Nat) (f : State → State) =>
      if s.sys.warmStage + 1 = stage && t + ticksMs ms ≤ s.now then
        let s := f s
        ({ s with sys := { s.sys with warmStage := stage } } : State)
      else s
    let s := go s 5 2 State.warmStep2
    let s := go s 20 3 fun s =>
      let s := s.setDom 7 2
      if s.mode.cur = .kiln then s
      else
        let s := s.loadKeys
        { s with sec := { s.sec with cookieKeys := !s.sec.storageOff } }
    let s := go s 35 4 State.warmStep4
    go s 40 5 fun s => ((List.finRange 64).foldl (fun (s : State) n => s.deliverPulses n) s).releaseSide 4 false

end Sys2Proof.Machine
end

