-- ==== Sys2Proof/Machine/Blocks.lean ====
section
/-! DEFINITION. Block resets (R390, R391) and clock-domain crossings (R403, R404). -/

namespace Sys2Proof.Machine

/-! ## Blocks (R390) -/

/-- The codes of the block table that a commit may name; 0x0600 is not one of them (R391). -/
def blockKnown (code : Nat) : Bool :=
  (0x0100 ≤ code && code ≤ 0x013F) || (0x0200 ≤ code && code ≤ 0x0203) || code == 0x0300 || code == 0x0400 || code == 0x0500

/-- The domain of a block (R21): a port unit, an engine pair, the AES lanes, the big-number engine, the sky domain. -/
def blockDomain (code : Nat) : Nat :=
  if code < 0x0200 then 4 else if code < 0x0400 then 5 else if code < 0x0500 then 7 else 3

/-- The port of a block 0x0100 + n, the pair of a block 0x0200 + k. -/
def blockPort (code : Nat) : Fin 64 := Fin.ofNat 64 code
def blockPair (code : Nat) : Fin 4 := Fin.ofNat 4 code

/-- The engines of a pair. -/
def pairEngines (k : Fin 4) : List (Fin 8) := [Fin.ofNat 8 (2 * k.val), Fin.ofNat 8 (2 * k.val + 1)]

/-- A block is idle (R390). -/
def State.blockIdle (s : State) (b : BlockReq) : Bool :=
  match b.code / 256 with
  | 1 => (s.ports[blockPort b.code]).fixed.isEmpty
  | 2 => (pairEngines (blockPair b.code)).all fun e =>
      (s.serve.engines[e].threads.toList.all fun x => !x.busy) && s.serve.jobs.all fun j => j.engine ≠ e
  | 3 => b.aes = 0
  | 4 => s.bn.cur.isNone
  | _ => s.sky.grist.req.isNone

/-- A thread loses its work with its block: counted in engine_faults. -/
def State.loseThread (s : State) (e : Fin 8) (t : Fin 16) : State :=
  ((s.bump (Obj.engine_faults e)).countE e 0x0B).endThread e t 3 false

/-- A forced reset loses the work in flight: its amount (R390). -/
def State.loseBlock (s : State) (b : BlockReq) : Nat × State :=
  match b.code / 256 with
  | 1 =>
    let n := blockPort b.code
    let k := s.ports[n].fixed.length
    (k, (s.bump (Obj.tx_aborted n) k).setPort n { s.ports[n] with fixed := [] })
  | 2 =>
    let busy := (pairEngines (blockPair b.code)).flatMap fun e => ((List.finRange 16).filter fun t => (s.thread e t).busy).map fun t => (e, t)
    (busy.length, busy.foldl (fun (s : State) (p : Fin 8 × Fin 16) => s.loseThread p.1 p.2) s)
  | 3 =>
    let l := s.serve.jobs.take b.aes
    let s : State := { s with serve := { s.serve with jobs := s.serve.jobs.drop b.aes } }
    (l.length, l.foldl (fun (s : State) j =>
      let x := s.thread j.engine j.thread
      if x.busy && x.serial = j.serial then s.loseThread j.engine j.thread else s) s)
  | 4 => if s.bn.cur.isSome then (1, s.bnStop 1) else (0, s)
  | _ => if s.sky.grist.req.isSome then (1, (s.putN Obj.grist_fix_status 5).gristEnd) else (0, s)

/-- What the reset itself does to an idle block: the sky domain's channels restart in IDLE and acquisition is classed
anew; frames that waited for an engine pair are not stale. -/
def State.restartBlock (s : State) (b : BlockReq) : State :=
  match b.code / 256 with
  | 2 => (pairEngines (blockPair b.code)).foldl (fun (s : State) (e : Fin 8) =>
      let old := fun (w : Work) => match w with | .frame p => Work.frame { p with ageless := true } | w => w
      s.setEngine e { s.serve.engines[e] with queues := s.serve.engines[e].queues.map fun q => q.map old }) s
  | 5 =>
    let s : State := (List.finRange 256).foldl (fun (s : State) (c : Fin 256) =>
      if s.sky.channels[c].sat = 0 then s else s.releaseChannel c) s
    if s.awake 3 then s.skyAwake else s
  | _ => s

/-- The response to the commit that asked for the reset (R390), while its session is open: a single-frame WRITE's item
statuses and generation; a COMMIT's generation on success. -/
def State.answerBlock (s : State) (b : BlockReq) (status : Nat) : State :=
  match b.session with
  | none => s
  | some k =>
    if (match s.ool.sessions[k] with | some x => x.id != b.sid | none => true) then s
    else s.answer k b.path b.hdr b.opcode b.seq status
      (List.replicate b.items 0 ++ if status = stOk || 0 < b.items then be 8 (s.n Obj.generation) else [])

/-- A block reset that ends without effect: the request is withdrawn and answered. -/
def State.dropBlock (s : State) (b : BlockReq) (status : Nat) : State :=
  ((({ s with sys := { s.sys with block := none } } : State).putN Obj.block_reset_state 0)).answerBlock b status

/-- A conditional commit's generation is the one in force, at the instant it takes effect (R46). -/
def State.blockTimely (s : State) (b : BlockReq) : Bool :=
  match b.expected with
  | some g => s.n Obj.generation == (g : Int)
  | none => true

/-- The block is reset and resumes, and the commit takes effect (R390, code 0x1502); what the device writes back are the
values the two objects have. -/
def State.finishBlock (s : State) (b : BlockReq) (lost : Nat) : State :=
  let s := s.restartBlock b
  let s : State := ({ s with sys := { s.sys with block := none } } : State).releaseSide (blockDomain b.code) (b.code = 0x0500)
  let s := ((s.putN Obj.block_reset_state 0).putN Obj.block_reset_target 0).putB Obj.block_force false
  let s := (s.bump Obj.block_lost lost).bump Obj.generation
  let s := s.log 0x0800 0x1502 (beNat 2 b.code ++ beNat 1 (if b.force then 1 else 0) ++ beNat 4 lost)
  s.answerBlock b stOk

/-- The block reset's instant: it takes effect with its work lost, if any, or fails whole with GENERATION_MISMATCH (R46). -/
def State.effectBlock (s : State) (b : BlockReq) (lose : Bool) : State :=
  if !s.blockTimely b then s.dropBlock b stGeneration
  else if lose then (s.loseBlock b).2.finishBlock b (s.loseBlock b).1
  else s.finishBlock { b with force := false } 0

/-- The block is a gated engine pair (R283): it is reset without quiesce. -/
def State.gatedPair (s : State) (b : BlockReq) : Bool := b.code / 256 = 2 && s.serve.pairs[blockPair b.code].state = 0

/-- Start a block reset (R390 step 1); a gated engine pair is reset at once. -/
def State.startBlock (s : State) (b : BlockReq) : State :=
  let n := min 24 s.serve.jobs.length
  let b : BlockReq := { b with since := s.now, aes := n }
  let s := ({ s with sys := { s.sys with block := some b } } : State).putN Obj.block_reset_state 1
  if s.gatedPair b then s.effectBlock b false else s

/-- BLOCK_RESET (R390): a commit of block_reset_target asks the named block to go idle. -/
def execBlockReset (code : Nat) (force : Bool) (s : State) : Host.Outcome State Fault Refusal :=
  if !(s.firmwareUp && blockKnown code && s.awake (blockDomain code) && s.sys.block.isNone) then .next s
  else .next (s.startBlock { code, force, since := s.now })

/-- BLOCK_QUIESCED (R390): the block reports idle and is reset for 16 cycles. -/
def execBlockQuiesced (s : State) : Host.Outcome State Fault Refusal :=
  match s.sys.block with
  | none => .next s
  | some b => .next (if s.blockIdle b then s.effectBlock b false else s)

/-- QUIESCE_TIMEOUT (R390): forced, the block is reset and its work lost; otherwise nothing is reset, code 0x1503. -/
def execQuiesceTimeout (s : State) : Host.Outcome State Fault Refusal :=
  match s.sys.block with
  | none => .next s
  | some b =>
    if s.blockIdle b || s.now < b.since + ticksMs (s.nn Obj.quiesce_timeout) then .next s
    else if b.force then .next (s.effectBlock b true)
    else .next ((s.log 0x0800 0x1503 (beNat 2 b.code)).dropBlock b stQuiesce)

/-! ## Crossings (R403-R406) -/

/-- CROSSING_RESYNC (R404): a crossing of a domain that left reset resynchronises, discarding the entries in flight: no
more than it holds (R399), and none with both sides reset. -/
def execCrossingResync (crossing discarded : Nat) (s : State) : Host.Outcome State Fault Refusal :=
  let a := crossing / 256 % 256
  let b := crossing % 256
  if !((s.sys.resync.contains a || s.sys.resync.contains b) && crossCapacity a b != 0 && s.domState a ≠ 3 && s.domState b ≠ 3
      && !s.sys.resynced.contains (a * 256 + b) && !s.sys.resynced.contains (b * 256 + a) && discarded ≤ s.inFlight a b) then .next s
  else
    let d := discarded
    let s : State := { s with sys := { s.sys with resynced := (a * 256 + b) :: s.sys.resynced } }
    let s := (s.bump Obj.xing_discard_count d).bump Obj.xing_resync_count
    .next (if d = 0 then s else s.log 0x0800 0x150A (beNat 2 crossing ++ beNat 4 d))

/-- CROSSING_HANG (R403): a request of a request/response crossing unanswered for 1 ms; the initiating processor when
there is one. -/
def execCrossingHang (crossing : Nat) (processor : Option (Fin 4)) (s : State) : Host.Outcome State Fault Refusal :=
  let a := crossing / 256 % 256
  if !(s.awake a && requestCrossing a (crossing % 256)) then .next s
  else
    let s := (s.putN Obj.xing_hang_last (crossing % 65536 : Nat)).bump Obj.xing_hang_count
    .next (s.log 0x0800 0x150C (beNat 2 crossing ++ beNat 1 (match processor with | some p => p.val | none => 0xFF)))

end Sys2Proof.Machine
end

