-- ==== Sys2Proof/Machine/Power.lean ====
section
/-! DEFINITION. Supplies, reset pins, the watchdog, the thermal monitor, tamper (R352, R379-R396) and bring-up up to the
start of the firmware (R71, R357, R385-R388). -/

namespace Sys2Proof.Machine

/-- An event of the reset controller: journalled, or kept for the next start while the control domain sleeps (R383). -/
def State.report (s : State) (source code : Nat) (data : Bytes) : State :=
  if s.awake 6 || s.controlDown then s.log source code data else s.note source code data

/-! ## Supplies (R379, R396) -/

/-- Nothing is powered but what flash, OTP and the pins hold. -/
def State.unpowered (s : State) (vkeep main : Bool) : State :=
  let s := s.breakPersist
  let floor := s.n Obj.security_floor
  let t : State :=
    { pending := s.pending, now := s.now, freeIdx := s.freeIdx, draws := s.draws, flash := s.flash,
      keep := { vkeep, mainGood := main }, serve := { quietLow := s.serve.quietLow, quietHighAt := s.serve.quietHighAt },
      sys := { rstnLow := s.sys.rstnLow, wrstnLow := s.sys.wrstnLow, persistLost := s.sys.persistLost, mainSince := s.now,
               keepPowered := vkeep || main, oscSince := if main then some s.now else none } }
  t.putN Obj.security_floor floor

/-- FIRST_POWER (R379, R66): VKEEP or main supply reaches an unpowered keep island. -/
def execFirstPower (vkeep main : Bool) (s : State) : Host.Outcome State Fault Refusal :=
  if s.sys.keepPowered || !(vkeep || main) then .next s
  else
    let s := ((s.unpowered vkeep main).recordCause 1 0).putN Obj.keep_supply (if main then 0 else 1)
    if main then
      let s := s.setDoms 3
      .next { s with sys := { s.sys with scope := some 1, holdUntil := s.now } }
    else .next ({ s with mode := { s.mode with cur := .cellar } } : State).drivePins

/-- MAIN_SUPPLY_LOSS (R396, R437): CELLAR is entered without the steps of R82; without VKEEP the keep island falls too. -/
def execMainSupplyLoss (s : State) : Host.Outcome State Fault Refusal :=
  if !s.keep.mainGood || !s.sys.keepPowered then .next s
  else if !s.keep.vkeep then
    let s := s.unpowered false false
    .next ({ s with mode := { s.mode with cur := .cellar } } : State).drivePins
  else
    let s := (s.coldBase.setDoms 0).putN Obj.keep_supply 1
    .next ({ s with keep := { s.keep with mainGood := false }, mode := { cur := .cellar },
                    side := {}, sys := { s.sys with oscSince := none } } : State).drivePins

/-- MAIN_SUPPLY_RETURN (R379): a cold reset, cause 1. -/
def execMainSupplyReturn (s : State) : Host.Outcome State Fault Refusal :=
  if s.keep.mainGood || !s.sys.keepPowered then .next s
  else
    let s : State := { s with keep := { s.keep with mainGood := true }, sys := { s.sys with mainSince := s.now, oscSince := some s.now } }
    .next ((s.putN Obj.keep_supply 0).assertCold 1 0)

/-- VKEEP_REMOVAL (R396, R352): with main supply off the keep island loses its contents. -/
def execVkeepRemoval (s : State) : Host.Outcome State Fault Refusal :=
  if s.keep.mainGood then .next { s with keep := { s.keep with vkeep := false } }
  else
    let s := s.unpowered false false
    .next ({ s with mode := { s.mode with cur := .cellar } } : State).drivePins

/-- VKEEP_MONITOR (R396): the measured voltage in mV, 0 when VKEEP is absent; code 0x1506. -/
def execVkeepMonitor (mV : Nat) (s : State) : Host.Outcome State Fault Refusal :=
  if !(s.keep.mainGood && s.awake 6) then .next s
  else
    let s : State := { s with keep := { s.keep with vkeep := mV != 0 } }
    let s := s.putN Obj.vkeep_voltage (mV % 65536 : Nat)
    .next (if (mV : Int) < s.n Obj.vkeep_low_limit then s.log 0x0800 0x1506 (beNat 2 mV) else s)

/-! ## Reset pins, watchdog, commands, temperature (R379, R383, R392, R393) -/

/-- RSTN_ASSERT (R379). -/
def execRstnAssert (s : State) : Host.Outcome State Fault Refusal :=
  .next (({ s with sys := { s.sys with rstnLow := true } } : State).assertCold 2 0)

/-- RSTN_DEASSERT (R388). -/
def execRstnDeassert (s : State) : Host.Outcome State Fault Refusal := .next { s with sys := { s.sys with rstnLow := false } }

/-- WRSTN_ASSERT (R379, R380). -/
def execWrstnAssert (s : State) : Host.Outcome State Fault Refusal :=
  .next (({ s with sys := { s.sys with wrstnLow := true } } : State).assertWarm 9 0)

/-- WRSTN_DEASSERT (R388). -/
def execWrstnDeassert (s : State) : Host.Outcome State Fault Refusal := .next { s with sys := { s.sys with wrstnLow := false } }

/-- Warm-watchdog resets of the last 600 s, newest first. -/
def State.wdRecent (s : State) : List Nat := s.sys.wdWarm.filter fun t => s.now ≤ t + ticksS 600

/-- WATCHDOG_WARM (R392): wd_timeout has passed without service. -/
def execWatchdogWarm (s : State) : Host.Outcome State Fault Refusal :=
  if !(s.awake 6 && s.sys.scope.isNone && s.sys.wdAt + ticksMs (s.nn Obj.wd_timeout) ≤ s.now) then .next s
  else
    let l := s.now :: s.wdRecent
    let s := s.bump Obj.wd_warm_count
    .next (({ s with sys := { s.sys with wdWarm := l } } : State).assertWarm 10 (ticksMs 1))

/-- WATCHDOG_COLD (R392), not in CELLAR (R83): no service within 2 × wd_timeout of a warm-watchdog release, or a third such reset within 600 s
of the first. -/
def execWatchdogCold (s : State) : Host.Outcome State Fault Refusal :=
  let missed := match s.sys.wdRelease with
    | some t => t + 2 * ticksMs (s.nn Obj.wd_timeout) ≤ s.now
    | none => false
  .next (if s.mode.cur != .cellar && (missed || 3 ≤ s.wdRecent.length) then s.assertCold 5 (ticksMs 1) else s)

/-- A commanded reset of a scope is due (R392). -/
def State.resetDue (s : State) (scope : Nat) : Bool :=
  match s.sys.cmd with
  | some (c, t) => c == scope && t ≤ s.now
  | none => false

/-- RESET_REQUEST_WARM (R392): the reset of a confirmed commit of reset_request := 1 asserts. -/
def execResetRequestWarm (s : State) : Host.Outcome State Fault Refusal :=
  .next (if s.resetDue 3 then ({ s with sys := { s.sys with cmd := none } } : State).assertWarm 12 (ticksMs 1) else s)

/-- RESET_REQUEST_COLD (R392): the reset of a confirmed commit of reset_request := 2 asserts. -/
def execResetRequestCold (s : State) : Host.Outcome State Fault Refusal :=
  .next (if s.resetDue 2 then ({ s with sys := { s.sys with cmd := none } } : State).assertCold 6 (ticksMs 1) else s)

/-- THERMAL_TRIP (R393): not in an idled CELLAR (R83); counted in the keep island; the reset holds until Tj has fallen (COLD_RESET_RELEASE). -/
def execThermalTrip (s : State) : Host.Outcome State Fault Refusal :=
  if s.keep.mainGood && s.mode.cur != .cellar then .next ((s.bump Obj.thermal_trip_count).assertCold 3 0) else .next s

/-- THERMAL_WARNING (R393): the die temperature in 0.01 °C crosses thermal_warn_limit, or falls 2 °C below it. -/
def execThermalWarning (temp : Int) (s : State) : Host.Outcome State Fault Refusal :=
  if !s.awake 2 then .next s
  else
    let s := s.putN Obj.die_temperature temp
    let limit := s.n Obj.thermal_warn_limit
    if !s.sys.warned && limit < temp then
      .next (({ s with sys := { s.sys with warned := true } } : State).log 0x0800 0x1505 ([1] ++ be 2 temp))
    else if s.sys.warned && temp ≤ limit - 200 then
      .next (({ s with sys := { s.sys with warned := false } } : State).log 0x0800 0x1505 ([0] ++ be 2 temp))
    else .next s

/-- OSC_EDGE_LOSS (R383): the reset controller moves to the keep clock, code 0x1507. -/
def execOscEdgeLoss (s : State) : Host.Outcome State Fault Refusal :=
  if s.sys.keepClock || !s.keep.mainGood then .next s
  else .next (({ s with sys := { s.sys with keepClock := true, oscSince := none } } : State).report 0x0800 0x1507 [1])

/-- OSC_RESTORED (R383): the oscillator has run without a break for 10 ms. -/
def execOscRestored (s : State) : Host.Outcome State Fault Refusal :=
  if !s.sys.keepClock || !s.keep.mainGood then .next s
  else .next (({ s with sys := { s.sys with keepClock := false, oscSince := some (s.now - ticksMs 10) } } : State).report 0x0800 0x1507 [0])

/-! ## Tamper (R352) -/

/-- TAMPER_ASSERT (R352): the latch is set; with main supply present a cold reset follows and a staged image being
written is discarded. -/
def execTamperAssert (s : State) : Host.Outcome State Fault Refusal :=
  if !s.sys.keepPowered then .next s
  else
    let cellar := s.mode.cur = .cellar || !s.keep.mainGood
    let s := (s.putB Obj.tamper_latch true).note 0x0900 0x1401 [if cellar then 1 else 0]
    if !s.keep.mainGood then .next s
    else
      let s := if s.nn Obj.fw_staged_status = 1 then
          ({ s with flash := s.flash.setImage (1 - s.nn Obj.fw_running_bank) [] } : State)
        else s
      .next (s.assertCold 4 (ticksMs 1))

/-- Clear the latch (R352), code 0x1402. -/
def State.clearTamper (s : State) (session : Nat) : State := (s.putB Obj.tamper_latch false).logSec 0x1402 (beNat 1 session)

/-- TAMPER_LATCH_CLEAR (R352): a confirmed commit of tamper_latch := false by a session. -/
def execTamperLatchClear (session : Fin 32) (s : State) : Host.Outcome State Fault Refusal :=
  .next (if s.firmwareUp && s.flag Obj.tamper_latch then s.clearTamper session else s)

/-- The records a tamper policy selects (R352). -/
def tamperSelects (policy key : Nat) : Bool :=
  (bit policy 0 && key == Obj.nts_master_key) || (bit policy 1 && (List.range 4).any fun i => key == Obj.sec_key i)
    || (bit policy 2 && (List.range 32).any fun k => key == Obj.rb_key k)
    || (bit policy 3 && (List.range 32).any fun e => key == Obj.psk_key e)

/-- The records of both banks that the policy selects are erased, code 0x1403. -/
def State.tamperErase (s : State) : State :=
  if !s.flag Obj.tamper_latch then s
  else
    let policy := match s.flash.configValue Obj.tamper_policy with | .num x => x.toNat | .oct _ => 0
    let erase := CfgBank.edit fun l => l.filter fun r => !tamperSelects policy r.key
    let f := { s.flash with cfg0 := erase s.flash.cfg0, cfg1 := erase s.flash.cfg1 }
    let f := if bit policy 0 then { f with keKey := none, master := none } else f
    ({ s with flash := f } : State).logSec 0x1403 (beNat 1 policy)

/-! ## Bring-up (R71) -/

/-- Bring-up has reached step `k` and goes on: no reset, no hold, STEEP or KILN entered from it. -/
def State.atStep (s : State) (k : Nat) : Bool :=
  s.sys.step == k && s.sys.scope.isNone && !s.sys.trimHold && !s.sys.imageHold && (s.mode.cur == .steep || s.mode.cur == .kiln) && s.keep.mainGood

def State.setStep (s : State) (k : Nat) : State := { s with sys := { s.sys with step := k } }

/-- COLD_RESET_RELEASE (R388, R385, R348): instant 0. The straps as sampled, the outcome of the key-derivation unit, Tj in
0.01 °C. -/
def execColdResetRelease (bootsel : Fin 8) (oscsel : Fin 4) (oscdiff dukOk : Bool) (tj : Int) (s : State) :
    Host.Outcome State Fault Refusal :=
  let osc : Bool := match s.sys.oscSince with | some t => t + ticksMs 10 ≤ s.now | none => false
  if !((s.sys.scope == some 1 || s.sys.scope == some 2) && s.keep.mainGood && s.sys.mainSince + ticksMs 2 ≤ s.now && osc
      && tj ≤ 10500 && !s.sys.rstnLow && !s.sys.wrstnLow && s.sys.holdUntil ≤ s.now) then .next s
  else
    let s := ((s.putN Obj.strap_bootsel bootsel.val).putN Obj.strap_oscsel oscsel.val).putB Obj.strap_oscdiff oscdiff
    let s := (s.putN Obj.boot_source_used (if bootsel.val ≤ 3 then bootsel.val else 0)).putB Obj.strap_reserved (4 ≤ bootsel.val)
    let s := s.putN Obj.duk_state (if dukOk then 0 else 1)
    let s := if dukOk then s else s.note 0x0900 0x1404 []
    let s := s.setDoms 0
    .next { s with mode := { cur := .steep }, sec := { s.sec with storageOff := !dukOk },
                   sys := { s.sys with scope := none, step := 1, releasedAt := s.now, trimHold := false, imageHold := false,
                                       resync := [2, 3, 4, 5, 6, 7, 8], parts := [], resynced := [] } }

/-- The trim-failure and image holds (R387, R357): the status pins; no domain but the keep island is awake. -/
def State.holdPins (s : State) : State :=
  let p : StatusPins := { mode := some 1, refok := .low, holdn := .high, alarmn := .low }
  let s : State := { s with mode := { s.mode with pins := p }, tb := { s.tb with running := false } }
  s.setDoms 0

/-- TRIM_LOAD_COMPLETE (R387, R71 steps 2 and 3): copy A, copy B with code 0x1504, or the trim-failure hold. -/
def execTrimLoadComplete (aOk bOk : Bool) (s : State) : Host.Outcome State Fault Refusal :=
  if !s.atStep 1 then .next s
  else if !aOk && !bOk then .next ({ s with sys := { s.sys with trimHold := true } } : State).holdPins
  else
    let s := s.putN Obj.trim_copy (if aOk then 0 else 1)
    let s := if aOk then s else s.note 0x0800 0x1504 []
    .next ((s.setStep 3).setDom 2 1).drivePins

/-- Start the raw counter at 0 (R85). -/
def State.startRaw (s : State) : State := ({ s with tb := { running := true } } : State).setDom 2 2

/-- Objects whose values of the configuration set in force act at step 4, before the set is applied. -/
def earlyKeys : List Nat :=
  [Obj.efc_enable, Obj.efc_initial, Obj.efc_bits, Obj.efc_frame_bits, Obj.model_restore_limit, Obj.osc_retrace]

/-- Seed from Snowdrop where its uncertainty is within seed_limit (R72). -/
def State.seedSnowdrop (s : State) : State :=
  if s.keep.coarseValid && s.coarseUnc ≤ s.keep.seedLimit then
    let unc := s.coarseUnc
    let s := (s.seed s.coarseNow 0 1 unc 0).startSeedBound unc
    (s.setCondition 1).drivePins
  else s

/-- TICK_CLOCK_LOCK (R71 step 4, R85, R72, R144): the bank supplies as detected (R167). In a verification wake Snowdrop's
coarse time is sampled (R83). -/
def execTickClockLock (bankA bankB : Nat) (s : State) : Host.Outcome State Fault Refusal :=
  if s.keep.verifyWake.isSome && !s.tb.running then
    let s := s.startRaw
    .next { s with keep := { s.keep with verifySample := if s.keep.coarseValid then some (s.coarseNow, 0) else none } }
  else if !s.atStep 3 then .next s
  else
    let s := (s.startRaw.setStep 4).bump Obj.mode_change_count
    let s := s.log 0 0x1001 [0, 1, 0, 3]
    let s := (s.putN Obj.bank_a_voltage bankA).putN Obj.bank_b_voltage bankB
    let s := earlyKeys.foldl (fun (s : State) k => s.put k (s.flash.configValue k)) s
    let secs := if s.keep.coarseValid then some (s.coarseNow / unitsPerS) else none
    .next (s.seedSnowdrop.restoreModel secs)

/-- The bank the boot ROM starts (R357): the active one, else the other; each rejection is noted (code 0x1405). -/
def State.bootBank (s : State) : Option Nat × State :=
  let a := s.flash.boot.bank
  let ca := s.fwCause (s.flash.image a)
  if ca = 0 then (some a, s)
  else
    let s := s.note 0x0900 0x1405 (beNat 1 a ++ beNat 1 ca)
    let cb := s.fwCause (s.flash.image (1 - a))
    if cb = 0 then (some (1 - a), s) else (none, s.note 0x0900 0x1405 (beNat 1 (1 - a) ++ beNat 1 cb))

/-- The firmware starts (R71 step 5): memory, control and crypto domains awake; DRAM training begins, at the depth the cold
reset gives its clock (R31, R40); what waited is journalled; a set tamper latch erases records. -/
def State.startFirmware (s : State) (bank version : Nat) : State :=
  let s := ((s.setStep 5).setDom 6 2 |>.setDom 7 2).setDom 8 2
  let depth := match s.flash.configValue Obj.ssc_depth_dram with | .num x => x.toNat | .oct _ => 0
  let s : State := { s with sys := { s.sys with wdAt := s.now, sscDram := depth }, bn := {} }
  let s := ((s.putN Obj.fw_running_bank bank).putN Obj.fw_running_version version).putN Obj.dram_state 1
  let s := s.log 0x0800 0x1501 (be 2 (s.n Obj.reset_cause) ++ timeToBytes (s.n Obj.reset_cause_time))
  let s := s.sys.notes.foldl (fun (s : State) n => s.log n.1 n.2.1 n.2.2) s
  let s := match s.keep.disagree with
    | some (k, d) => s.logSec 0x1002 (beNat 4 k ++ durToBytes d)
    | none => s
  let s : State := { s with sys := { s.sys with notes := [] }, keep := { s.keep with disagree := none } }
  s.tamperErase

/-- A trial that did not end by a commit is reverted before the start (R359, R375). -/
def State.bootRevert (s : State) : State :=
  let b := s.flash.boot
  if !b.trial then s
  else (s.setBoot (1 - b.bank) false).note 0x0900 0x1407 ([2] ++ beNat 4 (fwImageVersion (s.flash.image b.bank)))

/-- FIRMWARE_BOOT_CHECK (R357, R385): the boot ROM checks and starts an image; `download` is the one a host or the network
delivered, which bring-up awaits without limit when the straps ask for it. -/
def execFirmwareBootCheck (download : Option Bytes) (s : State) : Host.Outcome State Fault Refusal :=
  if !s.atStep 4 then .next s
  else
    let s := s.bootRevert
    if s.nn Obj.boot_source_used = 0 then
      match s.bootBank with
      | (some b, s) => .next (s.startFirmware b (fwImageVersion (s.flash.image b)))
      | (none, s) => .next ({ s with sys := { s.sys with imageHold := true } } : State).holdPins
    else
      match download with
      | none => .next s
      | some img =>
        let c := s.fwCause img
        if c = 0 then .next (s.startFirmware s.flash.boot.bank (fwImageVersion img))
        else
          -- the bank of a downloaded image is not stated: a free value
          let (k, s) := s.freeNat
          .next (s.note 0x0900 0x1405 (beNat 1 k ++ beNat 1 c))

/-- DRAM_TRAINING_COMPLETE (R365, R71 step 9): channels that failed, capacity in MiB, time in ms; code 0x1603. -/
def execDramTrainingComplete (fail : Fin 16) (capacity ms : Nat) (s : State) : Host.Outcome State Fault Refusal :=
  if !s.atStep 6 then .next s
  else
    let s := ((s.putN Obj.dram_state (if fail = 0 then 2 else 3)).putN Obj.dram_train_fail fail.val).putN Obj.dram_train_time (ms % 65536 : Nat)
    let s := (s.putN Obj.dram_capacity (capacity % 2 ^ 32 : Nat)).setStep 9
    .next (if fail = 0 then s else s.log 0 0x1603 (beNat 1 fail.val))

/-- The master key the device uses: the record in force, else the one generated at the first bring-up (R328), whose record is
written then. -/
def State.loadMaster (s : State) : State :=
  let kept := s.storeKey.bind fun store => s.flash.master.bind fun x => openRecord store Obj.nts_master_key x
  match (s.secretOf Obj.nts_master_key).or kept with
  | some k => { s with prot := { s.prot with master := k } }
  | none =>
    let (k, s) := s.random 32
    let (r, s) := s.sealed Obj.nts_master_key k
    { s with prot := { s.prot with master := k }, flash := { s.flash with master := r } }

/-- CLIENT_TABLE_INIT_COMPLETE (R71 step 10): the client table, unless training failed; ports 8-63; the cookie keys; the
self-test of the big-number engine. -/
def execClientTableInitComplete (s : State) : Host.Outcome State Fault Refusal :=
  if !s.atStep 9 then .next s
  else
    let s := s.setStep 10
    let s := if s.nn Obj.dram_state = 2 then s.setCt { s.serve.ct with ready := true } else s
    let s := if s.sec.storageOff || s.mode.cur = .kiln then s else
      let s := s.loadMaster
      let k := s.keyIndexNow
      let s := s.putN Obj.nts_key_number (k % 32768 : Nat)
      ({ s with sec := { s.sec with cookieKeys := true }, prot := { s.prot with keyIndex := some k } } : State)
    let s := (List.finRange 64).foldl (fun (s : State) (n : Fin 64) => if 8 ≤ n.val then s.refreshPort n 1 else s) s
    .next (s.bnTest 0)

/-- Bring-up or its hold ends: MASH (R66), and at once the mode the timing condition names (R65). -/
def State.toMash (s : State) (cause : Nat) : State :=
  let s := s.setMode .mash cause
  let m := conditionMode (s.n Obj.timing_condition)
  if m = .mash then s else s.setMode m 0

/-- BRINGUP_COMPLETE (R71 step 11): MASH unless steep_hold or KILN; the qualification timers start. -/
def execBringupComplete (s : State) : Host.Outcome State Fault Refusal :=
  if !s.atStep 10 then .next s
  else
    let s := s.setStep 11
    let s : State := { s with mode := { s.mode with bringupDone := true } }
    let s := (List.finRange 16).foldl (fun (s : State) (i : Fin 16) =>
      let x := s.slots[i]
      if x.state = .qualifying then s.setSlot i { x with deadline := some (s.now + ticksS (s.nn (Obj.qualify_time i))) } else s) s
    .next (if s.flag Obj.steep_hold || s.mode.cur = .kiln then s else s.toMash 3)

/-- The sky domain's persistent objects take their values from the configuration set in force at its wake (R40). -/
def State.skyObjects (s : State) : State :=
  let mine := fun (p : Nat × Val) => match objRow p.1 with | some r => r.dom == 3 && r.persist | none => false
  (s.setValues.filter mine).foldl (fun (s : State) p => s.put p.1 p.2) { s with obj := s.obj.filter fun p => !mine p }

/-- DOMAIN_WAKE_COMPLETE (R24): the sky domain; in a verification wake also memory and control. -/
def execDomainWakeComplete (domain : Nat) (s : State) : Host.Outcome State Fault Refusal :=
  if s.domState domain = 1 && (domain == 3 || (s.keep.verifyWake.isSome && (domain == 6 || domain == 8))) then
    let s := s.setDom domain 2
    .next (if domain = 3 then s.skyObjects.skyAwake.skyPower else s)
  else .next s

/-! ## Warm release (R388, R121) -/

/-- WARM_RESET_RELEASE (R388): the end of the hold. -/
def execWarmResetRelease (s : State) : Host.Outcome State Fault Refusal :=
  .next (if s.sys.scope == some 3 && s.sys.holdUntil ≤ s.now && !s.sys.wrstnLow then s.releaseWarm else s)

/-- WARM_SERVING_RESUME (R388 step 6). -/
def execWarmServingResume (s : State) : Host.Outcome State Fault Refusal :=
  if s.sys.warmAt.isSome && 5 ≤ s.sys.warmStage then
    .next { s with sys := { s.sys with warmAt := none, warmStage := 0, servedAt := some s.now, wdRelease := none, wdAt := s.now } }
  else .next s

/-- SLOT_MISSING_CHECK_RESUME (R121): 500 ms after serving resumes. -/
def execSlotMissingCheckResume (s : State) : Host.Outcome State Fault Refusal :=
  match s.sys.servedAt with
  | some t =>
    if t + ticksMs 500 ≤ s.now then .next { s with mode := { s.mode with suspend5 := false }, sys := { s.sys with servedAt := none } }
    else .next s
  | none => .next s

end Sys2Proof.Machine
end

