-- ==== Sys2Proof/Machine/Tiles.lean ====
section
/-! DEFINITION. Tile checks: mismatches and what follows (R369-R373). -/

namespace Sys2Proof.Machine

/-- The byte offset of a tile's address within its space (R371): bits [63:60] name the space. -/
def tileOffset (addr : Nat) : Nat := addr % 2 ^ 60

/-- Client entries are freed in the table and the cache; threads that hold one lose their write (R372). -/
def State.freeEntries (s : State) (l : List Nat) : State :=
  let c := s.serve.ct
  let s := s.setCt { c with dram := l.foldl (fun d i => ctIns d i none) c.dram, cache := c.cache.filter fun m => !l.contains m.index }
  let engines := s.serve.engines.map fun g =>
    { g with threads := g.threads.map fun x =>
        match x.held with
        | some i => if x.busy && l.contains i then { x with heldLost := true } else x
        | none => x }
  ({ s with serve := { s.serve with engines := engines } } : State).ctCount

/-- A client tile goes into quarantine; one that failed within 24 h is to be retired (R372). -/
def State.quarantine (s : State) (region addr : Nat) : State :=
  let here := fun (t : BadTile) => t.region == region && t.addr / 256 == addr / 256
  let again := s.mem.tiles.any fun t => here t && s.now ≤ t.since + ticksS 86400
  let retired := s.mem.tiles.any fun t => here t && t.retired
  if retired then s
  else { s with mem := { s.mem with tiles := { region, addr, since := s.now, again } :: s.mem.tiles.filter fun t => !here t } }

/-- A frame of the packet buffer has a byte in the tile. -/
def inTile (off buffer len : Nat) : Bool := buffer < off + 256 && off < buffer + len

/-- A packet buffer tile fails (R371): frames and descriptors in it are discarded, emissions not sent. -/
def State.losePackets (s : State) (off : Nat) : State :=
  let bad := fun (p : Pkt) => inTile off p.buffer p.data.length
  let badW := fun (w : Work) => match w with | .frame p => bad p | _ => false
  let s := (List.finRange 8).foldl (fun (s : State) (e : Fin 8) => (List.finRange 3).foldl (fun (s : State) (c : Fin 3) =>
    let q := s.serve.engines[e].queues[c]
    let k := (q.filter badW).length
    (s.bump (dropKey e c) k).setEngine e { s.serve.engines[e] with queues := s.serve.engines[e].queues.set c (q.filter fun w => !badW w) }) s) s
  let s := (s.serve.moving.filter badW).foldl (fun (s : State) w => match w with
    | .frame p => s.bump (dropKey (s.engineOf p.bucket) p.cls)
    | _ => s) s
  let s : State := { s with serve := { s.serve with moving := s.serve.moving.filter fun w => !badW w } }
  let s := s.serve.rings.foldl (fun (s : State) r =>
    let lost := r.2.items.filter fun i => bad i.pkt
    (s.bump (Obj.ring_drop r.1) lost.length).setRing r.1 { r.2 with items := r.2.items.filter fun i => !bad i.pkt }) s
  let badR := fun (i : RxItem) => inTile off i.buffer (i.hdr.length + i.frame.length)
  let s := (s.bump (Obj.ring_drop 0) (s.ool.ring0.filter badR).length).bump (Obj.ring_drop 1) (s.ool.ring1.filter badR).length
  let s : State := { s with ool := { s.ool with ring0 := s.ool.ring0.filter fun i => !badR i, ring1 := s.ool.ring1.filter fun i => !badR i } }
  (List.finRange 64).foldl (fun (s : State) (n : Fin 64) =>
    let s := s.dropEgress n (fun f => inTile off f.buffer f.data.length) (Obj.tx_aborted n)
    let late := fun (f : Fixed) => inTile off f.frame.buffer f.frame.data.length && s.tb.raw < f.depart
    let k := (s.ports[n].fixed.filter late).length
    (s.bump (Obj.tx_aborted n) k).setPort n { s.ports[n] with fixed := s.ports[n].fixed.filter fun f => !late f }) s

/-- A journal tile fails: entries with any byte in it are dropped and counted; the journal lies at 0x4481_0000 in DRAM,
sequence q at 48 × (q mod 4096). -/
def State.loseEntries (s : State) (off : Nat) : State :=
  let o := if 0x44810000 ≤ off then off - 0x44810000 else off
  let bad := fun (e : JEntry) => inTile o (e.seq % 4096 * 48) 48
  let k := (s.journal.visible.filter bad).length
  ({ s with journal := { s.journal with visible := s.journal.visible.filter fun e => !bad e } } : State).bump Obj.journal_overflow k

/-- A fatal mismatch (R373): a warm reset with cause 0x0B, or, at the third within 60 s, a cold one with cause 0x08. -/
def State.fatalTile (s : State) (region addr : Nat) : State :=
  let l := s.now :: s.mem.fatal.filter fun t => s.now ≤ t + ticksS 60
  let s : State := { s with mem := { s.mem with fatal := l } }
  let data := fun (cold : Nat) => beNat 1 region ++ beNat 8 addr ++ beNat 1 cold
  if 3 ≤ l.length then (s.note 0 0x1604 (data 1)).assertCold 8 (ticksMs 1)
  else
    let s := s.assertWarm 11 (ticksMs 1)
    if s.sys.scope = some 3 then s.log 0 0x1604 (data 0) else s.note 0 0x1604 (data 1)

/-- Counters of the sketch are cleared; descriptors of a ring are discarded and counted. -/
def State.loseArray (s : State) (h : TileHolds) : State :=
  match h with
  | .descriptors r ps =>
    let x := s.ring r
    let keep := (x.items.zipIdx.filter fun p => !ps.contains p.2).map fun p => p.1
    (s.bump (Obj.ring_drop r) (x.items.length - keep.length)).setRing r { x with items := keep }
  | .counters l => s.setCt { s.serve.ct with sketch := s.serve.ct.sketch.filter fun p => !l.contains p.1 }
  | _ => s

/-- The action of a region's mismatch (R371). -/
def State.tileEffect (s : State) (region addr : Nat) (h : TileHolds) : State :=
  let off := tileOffset addr
  match region with
  | 1 => (s.quarantine 1 off).freeEntries ((List.range 4).map fun k => off / 256 * 4 + k)
  | 2 =>
    let l := match h with | .lines l => l.filter fun i => i % 32768 = off / 1024 | _ => []
    let cached := l.filter fun i => s.serve.ct.cache.any fun m => m.index == i
    (s.quarantine 2 off).freeEntries cached
  | 3 => s.losePackets (off / 256 * 256)
  | 4 =>
    if s.sky.grist.req.isSome then (s.putN Obj.grist_fix_status 5).gristEnd else s.putN Obj.grist_state 4
  | 5 => match h with
    | .slots l => s.setCt { s.serve.ct with badSlots := s.serve.ct.badSlots ++ l }
    | _ => s
  | 6 => s.loseEntries (off / 256 * 256)
  | 7 => { s with mem := { s.mem with reload := some (s.mem.reload.getD s.now) } }
  | 10 => s.loseArray h
  | _ => s.fatalTile region addr

/-- A tile fails its check (R371): counted, code 0x1601, the region's action. A use and a patrol read at the same moment make
one mismatch (R370). -/
def State.tileMismatch (s : State) (region addr : Nat) (h : TileHolds) : State :=
  if s.mem.lastFail = some (region, addr / 256, s.now) then s
  else
    let s : State := { s with mem := { s.mem with lastFail := some (region, addr / 256, s.now) } }
    let s := s.bump (Obj.tile_errors_region (region - 1))
    let s := s.log 0 0x1601 (beNat 1 region ++ beNat 8 addr ++ beNat 1 (Config.tileAction region))
    s.tileEffect region addr h

/-- The domain whose memory a region lies in. -/
def regionDomain : Nat → Nat
  | 1 | 5 | 7 => 8
  | 4 => 3
  | 6 | 8 => 6
  | 9 => 7
  | _ => 5

/-! ## The check of a read (R369, R370) -/

/-- The tile lies in DRAM. -/
def inDram (region addr : Nat) : Bool := [1, 5, 7].contains region || ((region = 6 || region = 8) && addr / 2 ^ 60 % 16 = 1)

/-- The bytes of the journal's memory from an offset: sequence q at 48 × (q mod 4096). -/
def State.journalBytes (s : State) (off : Nat) : Bytes :=
  let first := off / 48
  let entry := fun (k : Nat) => match s.journal.visible.reverse.find? fun e => e.seq % 4096 == k with
    | some e => field e.bytes 0 48
    | none => List.replicate 48 0
  field ((List.range 7).flatMap fun i => entry (first + i)) (off % 48) 256

/-- The bytes a tile was last written with: client entries, the journal, the copies in DRAM, the memories of the control
processors and the keys; free for the arrays whose layout the spec does not give. -/
def State.tileBytes (s : State) (region addr : Nat) : Bytes :=
  let off := tileOffset addr / 256 * 256
  match region with
  | 1 => (List.range 4).flatMap fun k =>
      field (((s.serve.ct.dram.find? fun p => p.1 == off / 64 + k).map fun p => p.2).getD []) 0 64
  | 6 => s.journalBytes (if 0x44810000 ≤ off then off - 0x44810000 else off)
  | 7 => if off < 0x44800000 then field s.runningImage (off - 0x44000000) 256
      else field (s.serve.prog.active.getD []) (off - 0x44800000) 256
  | 8 => memRead (if inDram 8 addr then s.mem.dram else s.mem.sram) off 256
  | 9 => memRead s.mem.key off 256
  | _ => field (Config.tileContents region off) 0 256

/-- The check value held for a tile: stored beside the byte memories, and for the others the one their bytes were written
with. -/
def State.tileSum (s : State) (region addr : Nat) : Nat :=
  let off := tileOffset addr / 256 * 256
  match region with
  | 8 => sumOf (if inDram 8 addr then s.mem.dramSums else s.mem.sramSums) (off / 256)
  | 9 => sumOf s.mem.keySums (off / 256)
  | _ => tileCheck off (s.tileBytes region addr)

/-- What a read finds of a tile: its bytes and its check value, as the memory gives them back. -/
def State.tileFound (s : State) (region addr : Nat) (fault : TileFault) : Bytes × Nat :=
  let b := s.tileBytes region addr
  let c := s.tileSum region addr
  match fault with
  | .none => (b, c)
  | .flips l x => (l.foldl (fun b p => patch b (p.1 % 256) [b.getD (p.1 % 256) 0 ^^^ p.2]) b, c ^^^ x.toNat)
  | .misplaced a => (b, tileCheck a b)

/-- A tile passes its check when it is read (R369). -/
def State.tilePasses (s : State) (region addr : Nat) (fault : TileFault) : Bool :=
  let f := s.tileFound region addr fault
  tileCheck (tileOffset addr / 256 * 256) f.1 == f.2

/-- The next patrol of the arrays, SRAM or DRAM, is due at an elapsed tick. -/
def State.setPatrol (s : State) (dram : Bool) (due : Nat) : State :=
  if dram then { s with mem := { s.mem with patrolDram := due } } else { s with mem := { s.mem with patrolSram := due } }

/-- The end of a patrol of the SRAM or of the DRAM arrays counts when one was due; the next follows a period later. -/
def State.patrolEnd (s : State) (dram : Bool) : State :=
  if s.now < (if dram then s.mem.patrolDram else s.mem.patrolSram) then s
  else
    let s := s.bump Obj.patrol_passes
    s.setPatrol dram (s.now + ticksS (s.nn (if dram then Obj.patrol_dram_period else Obj.patrol_sram_period)))

/-- PATROL_READ (R370): a patrol or a use reads a tile and verifies it; `fault` is what has become of it since it was
written, `last` tells that the read ends a complete patrol, `holds` what lay in it. -/
def execPatrolRead (region : Nat) (addr : BitVec 64) (fault : TileFault) (last : Bool) (holds : TileHolds) (s : State) :
    Host.Outcome State Fault Refusal :=
  if !(1 ≤ region && region ≤ 10 && s.awake (regionDomain region)) then .next s
  else
    let ok := s.tilePasses region addr.toNat fault
    let s := if last then s.patrolEnd (inDram region addr.toNat) else s
    let s := if [1, 5, 7].contains region then (s.count 9 0x03).count 9 0x05 else s
    let s := if [1, 5, 7].contains region && !ok then s.count 9 0x04 else s
    .next (if ok then s else s.tileMismatch region (addr.toNat / 256 * 256) holds)

/-- Tiles retired in a region. -/
def State.retiredIn (s : State) (region : Nat) : Nat := (s.mem.tiles.filter fun t => t.region == region && t.retired).length

/-- QUARANTINE_COMPLETE (R372): the tile is zeroed, read back and freed; one that failed again within 24 h is retired, code
0x1602, while its region has retired fewer than 256. -/
def execQuarantineComplete (region : Nat) (addr : BitVec 64) (s : State) : Host.Outcome State Fault Refusal :=
  let here := fun (t : BadTile) => t.region == region && t.addr / 256 == tileOffset addr.toNat / 256
  match s.mem.tiles.find? here with
  | none => .next s
  | some t =>
    if t.freed || t.retired then .next s
    else if t.again && s.retiredIn region < 256 then
      let s : State := { s with mem := { s.mem with tiles := s.mem.tiles.map fun u => if here u then { u with retired := true } else u } }
      let s := s.putN (Obj.tiles_retired_region (region - 1)) (s.retiredIn region)
      .next (s.log 0 0x1602 (beNat 1 region ++ beNat 8 addr.toNat))
    else
      .next { s with mem := { s.mem with tiles := s.mem.tiles.map fun u => if here u then { u with freed := true } else u } }

/-- TILE_COPY_RELOAD (R371): the copy in DRAM is reloaded from the boot flash; the running image is not affected. -/
def execTileCopyReload (s : State) : Host.Outcome State Fault Refusal := .next { s with mem := { s.mem with reload := none } }

end Sys2Proof.Machine
end

