-- ==== Sys2Proof/Machine/Counters.lean ====
section
/-! DEFINITION. Performance counters and sampling (chapter 19), and what passes with a tick of 0.8 ns. -/

namespace Sys2Proof.Machine

/-! ## Clocks of the blocks (R407) -/

/-- The domain of a counter block. -/
def blockDom (b : Fin 16) : Nat :=
  if b.val ≤ 7 || b.val = 10 then 5 else if b.val = 8 then 6 else if b.val = 9 then 8 else if b.val = 11 then 3 else 4

/-- A block's counting clock runs: its domain is awake and its engine pair is not gated (R416). -/
def State.blockRuns (s : State) (b : Fin 16) : Bool :=
  s.awake (blockDom b) && !(b.val ≤ 7 && s.serve.pairs[(Fin.ofNat 4 (b.val / 2))].state == 0)

/-- Half ticks of 0.4 ns in one period of the 32 kHz modulation (R30). -/
abbrev spreadPeriod : Nat := 78125

/-- Units of a cycle count: 1/(200,000,000 × 78,125) cycle. -/
abbrev cycleUnit : Nat := 200000000 * spreadPeriod

/-- The triangle of the modulation at the middle of a tick, 0 to 39,062 of 39,062.5, the deepest point; its phase is
free (R30). -/
def spreadAt (clock now : Nat) : Nat :=
  let p := (2 * now + 1 + Config.spreadPhase clock) % spreadPeriod
  min p (spreadPeriod - p)

/-- A clock's count in one tick: its nominal frequency, in units of 50 Hz per tick, less the down-spread of depth d in
0.01 % (R30). -/
def spreadCycles (nominal depth clock now : Nat) : Nat :=
  nominal * spreadPeriod - nominal / 10000 * depth * (2 * spreadAt clock now)

/-- Cycles of the counting clock in one tick of 0.8 ns, in units of a cycle count (R30, R407). -/
def State.cyclesPerTick (s : State) (b : Fin 16) : Nat :=
  if b.val ≤ 7 then spreadCycles 256000000 (s.nn Obj.ssc_depth_engine) 0 s.now
  else if b.val = 8 then spreadCycles 320000000 (s.nn Obj.ssc_depth_processor) 1 s.now
  else if b.val = 9 then spreadCycles 341280000 s.sys.sscDram 2 s.now
  else if b.val = 10 then spreadCycles 160000000 (s.nn Obj.ssc_depth_fabric) 3 s.now
  else cycleUnit

/-- Issue slots per cycle. -/
def blockSlots (b : Fin 16) : Nat := if b.val ≤ 7 then 4 else if b.val = 8 then 8 else 0

/-- The cycle counter of a block. -/
def CtrBlock.cycles (b : CtrBlock) : Nat := b.cyc / cycleUnit

/-! ## Level events (R409, R410) -/

/-- Bytes in the packet buffer. -/
def State.bufferBytes (s : State) : Nat :=
  (s.serve.engines.toList.foldl (fun a g => a + g.queues.toList.foldl (fun a q => a + queueBytes q) 0) 0)
    + queueBytes s.serve.moving + s.ringPool + rxBytes s.ool.ring0 + rxBytes s.ool.ring1
    + s.ports.toList.foldl (fun a u => a + u.egress.foldl (fun a f => a + f.data.length) 0) 0

/-- A level event's code in a block. -/
def isLevel (b : Fin 16) (code : Nat) : Bool :=
  if b.val ≤ 7 then 0x10 ≤ code && code ≤ 0x13
  else if b.val = 8 then code == 0x0C || code == 0x0D
  else if b.val = 9 then code == 0x08 || code == 0x09
  else if b.val = 10 then code == 0x0B
  else if b.val = 11 then code == 0x07 || code == 0x08
  else code == 0x0D || code == 0x0E

/-- A mask of one unit. -/
def mask1 (x : Bool) : Nat := if x then 1 else 0

/-- The units of a block for which a level event's condition holds, as a mask; the requests that wait for a DRAM channel are
free. -/
def State.levelMask (s : State) (b : Fin 16) (code free : Nat) : Nat :=
  if b.val ≤ 7 then
    let g := s.serve.engines[(Fin.ofNat 8 b)]
    if code = 0x10 then mask1 (g.threads.toList.all fun x => x.busy)
    else mask1 !(g.queues[(Fin.ofNat 3 (code - 0x11))]).isEmpty
  else if b.val = 8 then
    mask1 (if code = 0x0C then !(s.ool.spiQ.isEmpty && s.ool.ring0.isEmpty && s.ool.ring1.isEmpty) else s.bn.cur.isSome)
  else if b.val = 9 then free % 16
  else if b.val = 10 then mask1 (12582912 < s.bufferBytes)
  else if b.val = 11 then
    if code = 0x07 then mask1 (s.sky.channels.toList.any fun c => c.trk.toList.any fun t => t.st == .search)
    else mask1 ((List.finRange 2).any fun (n : Fin 2) => s.sky.bands[n].settle.isSome &&
      s.sky.channels.toList.any fun c => [TrkState.track, .sync, .ready].contains c.trk[n].st)
  else
    (List.range 16).foldl (fun a i =>
      let n := 16 * (b.val - 12) + i
      let on := if code = 0x0D then s.linkUp n else (s.ports[(Fin.ofNat 64 n)]).lpi.isSome
      if on then a + 2 ^ i else a) 0

/-- Set bits of a mask of 16 units. -/
def ones16 (m : Nat) : Nat := (List.range 16).foldl (fun a i => if bit m i then a + 1 else a) 0

/-- The part of a unit mask that a selection counts. -/
def selMask (sel m : Nat) : Nat := if bit sel 2 then m else if bit m (sel / 16 % 16) then 2 ^ (sel / 16 % 16) else 0

/-- One counter with a level selection at a tick (R409): rising edges, or the clock's cycles while the condition holds. -/
def CtrBlock.levelTick (b : CtrBlock) (k : Fin 8) (m cycles : Nat) : CtrBlock :=
  let sel := b.selection k
  let m := selMask sel m
  let old := b.level[k]
  let rising := (List.range 16).foldl (fun a i => if bit m i && !bit old i then a + 1 else a) 0
  let b : CtrBlock := { b with level := b.level.set k m }
  b.add k (if bit sel 3 then cycles * ones16 m else rising)

/-! ## Issue slots (R418) -/

/-- Add to the counters of a block that count an event. -/
def CtrBlock.event (b : CtrBlock) (code w : Nat) : CtrBlock :=
  (List.finRange 8).foldl (fun (b : CtrBlock) (k : Fin 8) => if b.selection k / 256 == code then b.add k w else b) b

/-- Why an engine's empty slots are empty: the event code of the oldest busy thread that waits, by ingress raw stamp, else
starved at the front. -/
def Engine.emptyCode (g : Engine) : Nat :=
  let waiting := g.threads.toList.filter fun x => x.busy && x.wait != .none
  match waiting with
  | [] => 0x03
  | x :: r =>
    let o := r.foldl (fun (a : Thread) y => if y.work.stamp < a.work.stamp then y else a) x
    match o.wait with
    | .aes .. => 0x04
    | .rand .. => 0x04
    | .lookup .. => 0x05
    | .builtin .. => 0x05
    | _ => 0x06

/-- An engine's slots of one tick: issued, and empty by reason; together slots per cycle times cycles. -/
def CtrBlock.engineSlots (b : CtrBlock) (g : Engine) (slots : Nat) : CtrBlock :=
  let issued := min b.slotsTick slots
  (({ b with slotsTick := b.slotsTick - issued } : CtrBlock).event 0x01 issued).event g.emptyCode (slots - issued)

/-- The control processors' slots of one tick: how firmware uses them is free; issued, front and back sum to all. -/
def CtrBlock.firmwareSlots (b : CtrBlock) (slots f0 f1 f2 f3 : Nat) : CtrBlock :=
  let i := f0 % (slots + 1)
  let c := f1 % (slots - i + 1)
  let m := f2 % (slots - i - c + 1)
  let e := f3 % (slots - i - c - m + 1)
  ((((b.event 0x01 i).event 0x04 c).event 0x05 m).event 0x06 e).event 0x03 (slots - i - c - m - e)

/-- Events that no command of this model shows: their number in a tick is free. -/
def freeEvents (b : Fin 16) : List Nat :=
  if b.val = 8 then [0x02] else if b.val = 9 then [0x01, 0x02, 0x03, 0x06, 0x07] else if b.val = 11 then [0x01, 0x02]
  else if 12 ≤ b.val then [0x0A, 0x0B] else []

/-- A block at one tick. -/
def State.blockTick (s : State) (n : Fin 16) : State :=
  if !s.blockRuns n then s
  else
    let b := s.ctrs[n]
    let cyc := b.cyc + s.cyclesPerTick n
    let cycles := cyc / cycleUnit - b.cycles
    let wrap := b.cycles / 2 ^ 64 != cyc / cycleUnit / 2 ^ 64
    let b : CtrBlock := { b with cyc }
    let b : CtrBlock := if wrap then { b with epochWraps := setBit b.epochWraps 0 true, newWraps := setBit b.newWraps 0 true } else b
    let f := s.freeIdx
    let b := if n.val ≤ 7 then b.engineSlots s.serve.engines[(Fin.ofNat 8 n)] (4 * cycles)
      else if n.val = 8 then
        b.firmwareSlots (8 * cycles) (Config.freeNat f) (Config.freeNat (f + 1)) (Config.freeNat (f + 2)) (Config.freeNat (f + 3))
      else b
    let b := (List.finRange 8).foldl (fun (b : CtrBlock) (k : Fin 8) =>
      let code := b.selection k / 256
      if isLevel n code then b.levelTick k (s.levelMask n code (Config.freeNat (f + 4))) cycles
      else if (freeEvents n).contains code then b.add k (Config.freeNat (f + 5 + k))
      else b) b
    { s.setCtr n b with freeIdx := f + 13 }

/-! ## Snapshots (R412-R419) -/

/-- A value of 16 bits that is a share in 0.01 %; a share the spec gives no value for is free. -/
def State.share (s : State) (x : Int) (d : Nat) : Nat × State :=
  let (f, s) := s.freeNat
  (if d = 0 || x < 0 then f % 65536 else (rneDiv (x * 10000) d).toNat, s)

/-- A utilisation in 0.01 % (R419, R11); 0 while the port is down. -/
def utilisation (bytes frames octets ticks : Nat) : Nat :=
  if octets * ticks = 0 then 0 else (rneDiv ((bytes + 20 * frames) * 10000 * 1250000000 : Nat) (octets * ticks)).toNat

/-- Rate in bit/s, rounded down (R419). -/
def bitRate (bytes ticks : Nat) : Nat := bytes * 10 ^ 10 / ticks

/-- The values a block's mode does not compute read 0. -/
def State.clearDerived (s : State) (n : Fin 16) : State :=
  [Obj.bw_port_rx_rate n, Obj.bw_port_tx_rate n, Obj.bw_port_rx_util n, Obj.bw_port_tx_util n, Obj.bw_group_rx_rate n,
    Obj.bw_group_tx_rate n, Obj.td_retired n, Obj.td_wasted n, Obj.td_front n, Obj.td_back_crypto n, Obj.td_back_memory n,
    Obj.td_back_egress n].foldl (fun (s : State) k => s.putN k 0) s

/-- Derived values of a block (R419); without a previous snapshot the differences have no stated value: free. -/
def State.derive (s : State) (n : Fin 16) (since : Option Nat) (tick : Nat) : State :=
  let b := s.ctrs[n]
  let (f, s) := s.freeNat
  let ticks := match since with
    | some t => tick - t
    | none => 1 + f
  let d := fun (k : Fin 8) => (b.ctr[k] + 2 ^ 64 - b.prevCtr[k]) % 2 ^ 64
  let s := s.clearDerived n
  if b.mode = 1 && ticks ≠ 0 then
    let port := 16 * (n.val - 12) + b.bwPort
    let octets := if s.linkUp port then modeOctets (s.nn (Obj.speed_resolved port)) else 0
    let s := s.putN (Obj.bw_port_rx_rate n) (bitRate (d 0) ticks : Nat)
    let s := s.putN (Obj.bw_port_tx_rate n) (bitRate (d 2) ticks : Nat)
    let s := s.putN (Obj.bw_group_rx_rate n) (bitRate (d 4) ticks : Nat)
    let s := s.putN (Obj.bw_group_tx_rate n) (bitRate (d 6) ticks : Nat)
    let s := s.putN (Obj.bw_port_rx_util n) (utilisation (d 0) (d 1) octets ticks % 65536 : Nat)
    s.putN (Obj.bw_port_tx_util n) (utilisation (d 2) (d 3) octets ticks % 65536 : Nat)
  else if b.mode = 2 then
    let all := if since.isSome then blockSlots n * (b.cycles - b.prevCyc) else 0
    let put := fun (s : State) (p : Nat × Int) =>
      let (v, s) := s.share p.2 all
      s.putN p.1 (v % 65536 : Nat)
    [(Obj.td_retired n, (d 0 : Int) - d 1), (Obj.td_wasted n, (d 1 : Int)), (Obj.td_front n, (d 2 : Int)),
      (Obj.td_back_crypto n, (d 3 : Int)), (Obj.td_back_memory n, (d 4 : Int)), (Obj.td_back_egress n, (d 5 : Int))].foldl put s
  else s

/-- The committed selections and modes come into force; the counters whose selection changed restart from 0 (R415). -/
def State.armBlock (s : State) (n : Fin 16) : State :=
  let old := s.ctrs[n]
  let b : CtrBlock := { old with mode := s.nn (Obj.block_mode n), bwPort := s.nn (Obj.bw_port n),
                                 sel := Vector.ofFn fun (k : Fin 8) => s.nn (Obj.ctr_select n k) }
  let changed := fun (k : Fin 8) => b.selection k != old.selection k
  let lv := fun (k : Fin 8) =>
    let code := b.selection k / 256
    if changed k then (if isLevel n code then selMask (b.selection k) (s.levelMask n code 0) else 0) else b.level[k]
  let b : CtrBlock := { b with ctr := Vector.ofFn fun (k : Fin 8) => if changed k then 0 else b.ctr[k], level := Vector.ofFn lv }
  (List.finRange 8).foldl (fun (s : State) (k : Fin 8) => s.putN (Obj.ctr_select_active n k) (b.selection k : Nat)) (s.setCtr n b)

/-- One block latches at a snapshot of tick S (R412, R414, R415, R419). -/
def State.latch (s : State) (n : Fin 16) (since : Option Nat) (tick : Nat) : State :=
  let b := s.ctrs[n]
  let s := s.putN (Obj.snap_cycles n) (b.cycles % 2 ^ 64 : Nat)
  let s := (List.finRange 8).foldl (fun (s : State) (k : Fin 8) => s.putN (Obj.snap_ctr n k) (b.ctr[k] : Nat)) s
  let s := s.putN (Obj.block_epoch n) (s.n Obj.snap_epoch)
  let s := s.putN (Obj.snap_overflow n) (b.epochWraps : Nat)
  let s := s.derive n since tick
  let s := s.armBlock n
  let b := s.ctrs[n]
  s.setCtr n { b with epochWraps := 0, prevCyc := b.cycles, prevCtr := b.ctr }

/-- A snapshot may be made: the raw counter runs, no warm reset is in progress (R416). -/
def State.snapsRun (s : State) : Bool :=
  s.tb.running && s.sys.scope.isNone && !(s.sys.warmAt.isSome && s.sys.warmStage < 5)

/-- A snapshot at the present raw tick; one less than 2 µs after another is the same snapshot (R412). -/
def State.snapshot (s : State) : State :=
  let tick := s.tb.raw
  let merged := match s.snaps.last with
    | some t => decide (tick < t + 2500)
    | none => false
  if merged then s
  else
    let since := s.snaps.last
    let s := s.bump Obj.snap_epoch
    let s := (s.putO Obj.snap_raw (beNat 9 (tick * 256))).putN Obj.snap_time (s.convert (tick * 256))
    let s := (List.finRange 16).foldl (fun (s : State) (n : Fin 16) => s.latch n since tick) s
    { s with snaps := { last := some tick } }

/-- SNAP_REQUEST (R412): the owner's commit of snap_request takes effect. -/
def execSnapRequest (s : State) : Host.Outcome State Fault Refusal :=
  if s.snapsRun then .next (s.snapshot.putB Obj.snap_request false) else .next s

/-- SNAP_PERIODIC (R412): at every raw tick that is a multiple of snap_period × 1,250,000. -/
def execSnapPeriodic (s : State) : Host.Outcome State Fault Refusal :=
  let p := s.nn Obj.snap_period * 1250000
  if s.snapsRun && p ≠ 0 && s.tb.raw % p = 0 then .next s.snapshot else .next s

/-- COUNTER_WRAP (R414): a counter that has wrapped sets its overflow bit; its first wrap since a cold reset is code
0x1701. Counter 0 is the cycle counter, k + 1 counter k. -/
def execCounterWrap (block : Fin 16) (counter : Fin 9) (s : State) : Host.Outcome State Fault Refusal :=
  let b := s.ctrs[block]
  if !bit b.newWraps counter then .next s
  else
    let first := !bit b.firstWraps counter
    let s := s.setCtr block { b with newWraps := setBit b.newWraps counter false, firstWraps := setBit b.firstWraps counter true }
    let s := s.putN (Obj.ctr_overflow block) (setBit (s.nn (Obj.ctr_overflow block)) counter true : Nat)
    .next (if first then s.log 0 0x1701 (be 1 (block.val : Nat) ++ be 1 (counter.val : Nat)) else s)

/-! ## Sampling (R420) -/

/-- Empty every sample buffer. -/
def State.clearSamples (s : State) : State :=
  { s with serve := { s.serve with engines := s.serve.engines.map fun g => { g with samples := [], sampleCount := 0 } } }

/-- SAMPLE_CLEAR (R420): a commit of sample_clear. -/
def execSampleClear (s : State) : Host.Outcome State Fault Refusal := .next (s.clearSamples.putB Obj.sample_clear false)

/-! ## The tick -/

/-- One tick of 0.8 ns passes: elapsed time, the raw counter, a scheduled owner step that comes near (R91), the counter blocks,
the stages of a warm release, and work that waits while its bucket moves (R283). -/
def State.tick (s : State) : State :=
  let s : State := { s with now := s.now + 1, tb := { s.tb with raw := if s.tb.running then s.tb.raw + 1 else s.tb.raw } }
  let s := s.reserveSteps
  let s := (List.finRange 16).foldl (fun (s : State) (n : Fin 16) => s.blockTick n) s
  let before := s.sys.warmStage
  let s := s.warmTick
  let s := if before < 4 && 4 ≤ s.sys.warmStage then [0, 1, 2, 3, 4, 5, 6, 7, 8, 10].foldl (fun (s : State) n => s.armBlock n) s else s
  if !s.serve.moving.isEmpty && s.mode.cur != .steep then s.moveBuckets else s

end Sys2Proof.Machine
end

