-- ==== Sys2Proof/Machine/Cellar.lean ====
section
/-! DEFINITION. The commands of the mode machine: SPARGE (R76), KILN (R80, R81), CELLAR and its verification wakes (R82,
R83). -/

namespace Sys2Proof.Machine

/-! ## SPARGE (R76) -/

/-- SPARGE may be entered or restarted. -/
def State.spargeOk (s : State) : Bool := s.mode.cur.follows || s.mode.cur == .sparge

/-- A commit of sparge_request := true: entry, or a restart of its timeout. DESIGN CHOICE (log entry 145): the deadline is
fixed at the entry or the restart; a commit of sparge_timeout during SPARGE does not move it. -/
def State.enterSparge (s : State) : State :=
  let again := s.mode.cur == .sparge
  let s : State := { s with mode := { s.mode with spargeDeadline := some (s.now + ticksS (s.nn Obj.sparge_timeout)) } }
  let s := s.putB Obj.sparge_request true
  if again then s else s.setMode .sparge 1

/-- SPARGE is to end; during a firmware activation the end waits (R76). -/
def State.leaveSparge (s : State) (byCommit : Bool) : State :=
  if s.mode.cur ≠ .sparge then s
  else if s.sys.activation.isSome then
    { s with mode := { s.mode with spargeDeadline := none, spargeExit := some (s.mode.spargeExit.getD byCommit) } }
  else s.exitSparge byCommit

/-- SPARGE_REQUEST (R76): a commit of sparge_request. -/
def execSpargeRequest (request : Bool) (s : State) : Host.Outcome State Fault Refusal :=
  if !(s.firmwareUp && s.spargeOk) then .next s
  else .next (if request then s.enterSparge else s.leaveSparge true)

/-- SPARGE_TIMEOUT (R76, R359). -/
def execSpargeTimeout (s : State) : Host.Outcome State Fault Refusal :=
  match s.mode.spargeDeadline with
  | some t => .next (if t ≤ s.now then s.leaveSparge false else s)
  | none => .next s

/-! ## KILN (R80, R81) -/

/-- Enter KILN: key RAM zeroised, sessions closed, serving stopped, the serve domain asleep. -/
def State.enterKiln (s : State) : State :=
  let s := (s.putB Obj.kiln_request true).zeroiseKeys.closeSessions 4
  let s : State := { s with ool := { s.ool with setups := [] }, prot := { s.prot with keConns := [] } }
  let s := s.resetServe
  let s : State := { s with serve := { s.serve with stopped := true } }
  let s := (List.finRange 64).foldl (fun (s : State) n => s.dropEgress n (fun f => f.owner.isSome) Obj.quiet_drop) s
  (s.setDom 5 0).setMode .kiln 1

/-- KILN may be entered: in STEEP, during bring-up too (R66, R80). -/
def State.kilnMode (s : State) : Bool := s.mode.cur == .steep

/-- KILN_REQUEST (R81): a confirmed commit of kiln_request. -/
def execKilnRequest (s : State) : Host.Outcome State Fault Refusal :=
  .next (if s.firmwareUp && s.kilnMode && 1 ≤ s.nn Obj.debug_state then s.enterKiln else s)

/-! ## CELLAR (R82, R83) -/

/-- Objects that an idled CELLAR keeps: those of the keep island, and what the owner set for the sky domain, which a
verification wake uses. -/
def cellarKeeps (key : Nat) : Bool :=
  keptKeys.contains key ||
    (match objRow key with
    | some r => r.dom == 3 && (r.acc == .rw || r.acc == .ow || r.acc == .wo)
    | none => false)

/-- Enter CELLAR by command with main supply present (R82): Snowdrop aligned, model and orbit store written, everything
but the keep island stopped. -/
def State.enterCellar (s : State) : State :=
  let s := s.alignSnowdrop.storeModel.persistOrbit
  let iv := s.nn Obj.cellar_verify_interval
  let k := { s.keep with wakeTime := s.n Obj.cellar_wake_time, verifyInterval := iv,
                         verifyDue := if iv = 0 then none else some (s.now + ticksS iv) }
  let obj := s.obj.filter fun p => cellarKeeps p.1
  let s : State := { s with keep := k }
  let t := ({ s.coldBase with obj } : State).putB Obj.grist_hold false
  let t : State := { t with mode := { cur := .cellar, cellarIdled := true }, sky := { t.sky with bands := s.sky.bands.map Band.stopped } }
  (t.setDoms 0).drivePins

/-- CELLAR may be entered by command. -/
def State.cellarOk (s : State) : Bool := s.mode.cur.follows

/-- CELLAR_REQUEST (R82): a confirmed commit of cellar_request. -/
def execCellarRequest (s : State) : Host.Outcome State Fault Refusal :=
  .next (if s.firmwareUp && s.cellarOk then s.enterCellar else s)

/-- The device is idled in CELLAR with main supply present. -/
def State.idled (s : State) : Bool := s.mode.cur == .cellar && s.mode.cellarIdled && s.keep.mainGood && s.sys.scope.isNone

/-- CELLAR_WAKE_TIME (R83): Snowdrop's coarse time reaches cellar_wake_time; a cold reset, cause 7. -/
def execCellarWakeTime (s : State) : Host.Outcome State Fault Refusal :=
  .next (if s.idled && s.keep.coarseValid && s.keep.wakeTime ≠ 0 && s.keep.wakeTime ≤ s.coarseNow then s.assertCold 7 (ticksMs 1) else s)

/-- CELLAR_VERIFY_WAKE (R83): the time, sky, memory and control domains wake; a Grist request waits for the tick clock. -/
def execCellarVerifyWake (s : State) : Host.Outcome State Fault Refusal :=
  let due : Bool := match s.keep.verifyDue with | some t => t ≤ s.now | none => false
  if !(s.idled && due && s.keep.verifyWake.isNone) then .next s
  else
    let s := ((s.setDom 2 1).setDom 6 1).setDom 8 1
    .next (({ s with keep := { s.keep with verifyWake := some s.now, verifySample := none }, tb := {} } : State).gristBegin .verify)

/-- The domains sleep again; the wake is counted and the next one falls due. -/
def State.endVerify (s : State) : State :=
  let k := { s.keep with verifyWake := none, verifySample := none, verifyDue := s.keep.verifyDue.map fun t => t + ticksS s.keep.verifyInterval }
  let obj := s.obj.filter fun p => cellarKeeps p.1
  let s : State := { s with keep := k, obj := obj, tb := {}, sky := { bands := s.sky.bands.map Band.stopped }, journal := {} }
  (s.setDoms 0).bump Obj.cellar_verify_count

/-- CELLAR_VERIFY_END (R83): the fix is compared with Snowdrop at first_raw; a wake without a fix changes nothing; within
5 s of the wake. -/
def execCellarVerifyEnd (s : State) : Host.Outcome State Fault Refusal :=
  match s.keep.verifyWake with
  | none => .next s
  | some since =>
    match s.sky.grist.fix, s.keep.verifySample with
    | some (f, u, first), some (c, r0) =>
      let snow := c + rneDiv (((first : Int) - r0) * 1024) 5
      let diff := snow - f
      if (diff.natAbs : Int) ≤ (s.coarseUnc + u) * 65536 then
        let fixNow := f + rneDiv (((s.stamp : Int) - first) * 1024) 5
        .next ({ s with keep := { s.keep with coarse := fixNow, alignedAt := s.now, uncAtAlign := u } } : State).endVerify
      else
        let s := s.bump Obj.cellar_verify_disagree
        .next ({ s with keep := { s.keep with disagree := some (s.nn Obj.cellar_verify_disagree, unitsToNs diff) } } : State).endVerify
    | _, _ =>
      if s.sky.grist.req.isNone || since + ticksS 5 ≤ s.now then .next s.endVerify else .next s

end Sys2Proof.Machine
end

