-- ==== Sys2Proof/Machine/BnUnit.lean ====
section
/-! DEFINITION. The commands of the big-number engine (R332-R343). -/

namespace Sys2Proof.Machine

/-- BN_CHAIN_START (R335): the chain firmware posts first, if any (queue, address of its first descriptor, the stores it
made for it); then the engine takes the next chain round-robin, fetches and checks its first descriptor. -/
def execBnChainStart (post : Option (Fin 4 × Nat × List (Nat × Bytes))) (s : State) : Host.Outcome State Fault Refusal :=
  if !s.awake 7 then .next s
  else
    let s := match post with
      | some (q, a, w) => if s.firmwareUp then s.bnPost q a w else s
      | none => s
    .next (if s.blockBusy 0x0400 then s else s.bnTake)

/-- The region of R371 a tile of the engine's memories lies in, and its address as R371 writes it: space 1 for DRAM. -/
def bnTile (a : Nat) : Nat × Nat :=
  let o := byteOf a
  if spaceOf a = 2 then (9, o) else if spaceOf a = 0 then (8, o)
  else (if o < 0x40000000 then 1 else if o < 0x44000000 then 5 else if o < 0x44810000 then 7 else if o < 0x44840000 then 6 else 8,
        2 ^ 60 + o)

/-- A tile the engine read fails its check: the region's action. -/
def State.bnMismatch (s : State) (a : Nat) : State := s.tileMismatch (bnTile a).1 (bnTile a).2 .plain

/-- The first tile that fails its check as a descriptor's sources, and the descriptor itself, are read. -/
def State.badSource (s : State) (bad : Option (Nat × Byte)) (c : BnChain) (d : BnDesc) : Option Nat :=
  (((c.addr, 64) :: d.sources).findSome? fun r => s.failedTile bad false r)

/-- The first tile that fails as it is read before a part of it is written. -/
def State.badTarget (s : State) (bad : Option (Nat × Byte)) (d : BnDesc) : Option Nat :=
  if d.writes then s.failedTile bad true (d.d, 8 * d.lenC) else none

/-- Run the descriptor in progress when it has this operation; `bad` is a byte of memory that has changed since it was
written: its address, the bits. Every tile read is verified (R370): a source that fails ends the chain with status 4 (R371);
a failing tile of the destination is not written. -/
def State.bnRun (s : State) (op : Nat) (bad : Option (Nat × Byte)) : State :=
  match s.bn.cur with
  | none => s
  | some c =>
    let d := s.bnDesc c
    if !s.awake 7 || d.op ≠ op then s
    else
      match s.badSource bad c d, s.badTarget bad d with
      | some a, _ => (s.bnEnd 4).bnMismatch a
      | none, some a => s.bnMismatch a
      | none, none => s.bnExecute c d

/-- ROW_MAC (R332): C + A·b. -/
def execRowMac (bad : Option (Nat × Byte)) (s : State) : Host.Outcome State Fault Refusal := .next (s.bnRun 1 bad)

/-- PRODUCT (R332): C + A·B. -/
def execProduct (bad : Option (Nat × Byte)) (s : State) : Host.Outcome State Fault Refusal := .next (s.bnRun 2 bad)

/-- MONT_ROW (R332, R333): one Montgomery row. -/
def execMontRow (bad : Option (Nat × Byte)) (s : State) : Host.Outcome State Fault Refusal := .next (s.bnRun 3 bad)

/-- BN_ABORT (R342): firmware aborts a queue. -/
def execBnAbort (queue : Fin 4) (s : State) : Host.Outcome State Fault Refusal := .next (if s.awake 7 then s.bnAbort queue else s)

/-- BN_SELFTEST (R343): the test that is due runs and passes or fails; code 0x5803. -/
def execBnSelftest (pass : Bool) (s : State) : Host.Outcome State Fault Refusal :=
  match s.bn.test with
  | none => .next s
  | some cause =>
    if !s.awake 7 || s.bn.cur.isSome then .next s
    else
      let s : State := { s with bn := { s.bn with test := none, failed := !pass } }
      let r := if pass then 1 else 2
      let s := (s.putB Obj.bn_selftest false).putN Obj.bn_selftest_result r
      .next ((s.putN Obj.bn_selftest_time s.time).bnShow.log 0 0x5803 (be 1 r ++ beNat 1 cause))

end Sys2Proof.Machine
end

