-- ==== Sys2Proof/Machine/Resolve.lean ====
section
/-! DEFINITION. What firmware does with the frames of rings 2 and 5 (R266): address resolution, neighbour discovery and ICMP
echo are answered on ring 130 or 129; the TCP segments of NTS-KE (R329). The layouts are those of RFC 826, 792, 4443, 4861 and
793, which the spec does not repeat (PRESUMED, log entry 206). -/

namespace Sys2Proof.Machine

/-- The number firmware's address of the management port has in `Config.deviceAddress`. -/
abbrev mgmtPort : Nat := 0xFF

/-- The reply to an ARP request for the device's address. -/
def arpReply (own mac b : Bytes) (o : Nat) : Option Bytes :=
  if fieldN b o 8 = 0x0001080006040001 && field b (o + 24) 4 == own then
    let sha := field b (o + 8) 6
    some (patch (patch b 0 (sha ++ mac)) (o + 6) ([0, 2] ++ mac ++ own ++ sha ++ field b (o + 14) 4))
  else none

/-- A frame's own Ethernet header and tags, sent back from a MAC address. -/
def turnedEthernet (mac b : Bytes) (l3 : Nat) : Bytes := field b 6 6 ++ mac ++ field b 12 (l3 - 12)

/-- A message's checksum over a pseudo header. -/
def sumWith (pseudo msg : Bytes) : Bytes := beNat 2 (not16 (fold16 (sum16 (pseudo ++ msg))))

/-- The reply to an ICMP echo request to the device's IPv4 address. -/
def echoReply4 (own mac b : Bytes) (h : Headers) : Option Bytes :=
  let o := h.l3 + fieldN b h.l3 1 % 16 * 4
  let total := fieldN b (h.l3 + 2) 2
  if fieldN b o 1 = 8 && field b (h.l3 + 16) 4 == own && o < h.l3 + total && h.l3 + total ≤ b.length then
    let m := patch (patch (field b o (h.l3 + total - o)) 0 [0]) 2 [0, 0]
    let ip := patch (patch (field b h.l3 (o - h.l3)) 8 [64]) 12 (own ++ field b (h.l3 + 12) 4)
    some (turnedEthernet mac b h.l3 ++ patch ip 10 (beNat 2 (ipv4Sum ip 0)) ++ patch m 2 (sumWith [] m))
  else none

/-- An ICMPv6 message from the device in answer to a frame. -/
def icmp6 (own mac b : Bytes) (h : Headers) (dst : Bytes) (hops : Byte) (m : Bytes) : Bytes :=
  let sum := sumWith (own ++ dst ++ beNat 4 m.length ++ [0, 0, 0, 58]) m
  turnedEthernet mac b h.l3 ++ [0x60, 0, 0, 0] ++ beNat 2 m.length ++ [58, hops] ++ own ++ dst ++ patch m 2 sum

/-- The reply to a neighbour solicitation for the device's IPv6 address, or to an echo request to it. -/
def icmpReply6 (own mac b : Bytes) (h : Headers) : Option Bytes :=
  let o := h.l3 + 40
  let src := field b (h.l3 + 8) 16
  let len := fieldN b (h.l3 + 4) 2
  match fieldN b o 1 with
  | 135 =>
    if field b (o + 8) 16 == own then
      -- the unspecified address asks for a reply to all nodes, not solicited
      let unspecified := src == List.replicate 16 0
      let dst : Bytes := if unspecified then [0xFF, 2] ++ List.replicate 13 0 ++ [1] else src
      some (icmp6 own mac b h dst 255 ([136, 0, 0, 0, if unspecified then 0x20 else 0x60, 0, 0, 0] ++ own ++ [2, 1] ++ mac))
    else none
  | 128 =>
    if field b (h.l3 + 24) 16 == own && o + len ≤ b.length then
      some (icmp6 own mac b h src 64 (patch (patch (field b o len) 0 [129]) 2 [0, 0]))
    else none
  | _ => none

/-- Firmware's answer to a frame of ring 2 or 5: none where it asks for none. -/
def State.resolve (s : State) (p : Pkt) : Option Bytes :=
  let mgmt := p.port = mgmtPort
  let h := rxHeaders (if mgmt then 0x8100 else s.nn (Obj.vlan_tpid p.port)) p.data
  let mac := s.octs (if mgmt then Obj.mgmt_mac else Obj.inband_mac)
  let own := fun (v6 : Bool) => field (Config.deviceAddress p.port v6) 0 (if v6 then 16 else 4)
  if h.etype = 0x0806 then arpReply (own false) mac p.data h.after
  else if h.v4 && h.proto == 1 then echoReply4 (own false) mac p.data h
  else if h.v6 && h.proto == 58 then icmpReply6 (own true) mac p.data h
  else none

/-- Post a frame of firmware's in answer to one received: on ring 129 for the management port, else on ring 130 (R266). -/
def State.postAnswer (s : State) (port : Nat) (l : List Bytes) : State :=
  if h : port < 64 then l.foldl (fun (s : State) b => s.post ⟨port, h⟩ { cls := 3, data := b }) s
  else s.postMgmt l

/-- RING_FRAME_HANDLE (R266): firmware takes the oldest frame of ring 2, 4, 5, 6 or 8 to 127, handles it and frees it.
NTS-KE takes the frames of ring 3 itself. -/
def execRingFrameHandle (ring : Nat) (s : State) : Host.Outcome State Fault Refusal :=
  if !(s.firmwareUp && ([2, 4, 5, 6].contains ring || (8 ≤ ring && ring ≤ 127))) then .next s
  else
    let x := s.ring ring
    match x.items with
    | [] => .next s
    | i :: rest =>
      let s := (s.setRing ring { x with items := rest }).count 8 0x08
      match (if ring = 2 || ring = 5 then s.resolve i.pkt else none) with
      | some b => .next (s.postAnswer i.pkt.port [b])
      | none => .next s

/-! ## TCP segments (R329) -/

/-- A TCP segment in a frame: its headers, the number of its payload octets, its sequence number and flags. -/
structure Segment4460 where
  h : Headers
  len : Nat
  seq : Nat
  ack : Nat
  flags : Nat
deriving DecidableEq, Repr

/-- The segment a frame of rings 2 and 3 carries. -/
def tcpSegment (tpid : Nat) (b : Bytes) : Segment4460 :=
  let h := rxHeaders tpid b
  let l4 := if h.v6 then h.l3 + 40 else h.l3 + fieldN b h.l3 1 % 16 * 4
  let stop := if h.v6 then h.l3 + 40 + fieldN b (h.l3 + 4) 2 else h.l3 + fieldN b (h.l3 + 2) 2
  { h := { h with l4 }, len := stop - l4 - fieldN b (l4 + 12) 1 / 16 * 4, seq := fieldN b (l4 + 4) 4, ack := fieldN b (l4 + 8) 4,
    flags := fieldN b (l4 + 13) 1 }

/-- The frame is a TCP segment to the NTS-KE port. -/
def isNtsKe (tpid : Nat) (b : Bytes) : Bool :=
  let h := rxHeaders tpid b
  (h.v4 || h.v6) && h.proto == 6 && fieldN b ((tcpSegment tpid b).h.l4 + 2) 2 == 4460

/-- A segment in answer to one in a frame: sequence, flags, payload. The window is that of a receiver that accepts all. -/
def Segment4460.answer (x : Segment4460) (mac b : Bytes) (seq flags : Nat) (payload : Bytes) : Bytes :=
  let h := x.h
  let got := x.len + (if bit x.flags 1 then 1 else 0) + (if bit x.flags 0 then 1 else 0)
  let tcp : Bytes := field b (h.l4 + 2) 2 ++ field b h.l4 2 ++ beNat 4 (seq % 2 ^ 32) ++ beNat 4 ((x.seq + got) % 2 ^ 32)
    ++ [0x50] ++ beNat 1 flags ++ [0xFF, 0xFF, 0, 0, 0, 0] ++ payload
  let turn := fun (o n : Nat) => field b (h.l3 + o + n) n ++ field b (h.l3 + o) n
  if h.v6 then
    let addr := turn 8 16
    turnedEthernet mac b h.l3 ++ [0x60, 0, 0, 0] ++ beNat 2 tcp.length ++ [6, 64] ++ addr
      ++ patch tcp 16 (sumWith (addr ++ beNat 4 tcp.length ++ [0, 0, 0, 6]) tcp)
  else
    let addr := turn 12 4
    let ip : Bytes := [0x45, 0] ++ beNat 2 (20 + tcp.length) ++ [0, 0, 0, 0, 64, 6, 0, 0] ++ addr
    turnedEthernet mac b h.l3 ++ patch ip 10 (beNat 2 (ipv4Sum ip 0)) ++ patch tcp 16 (sumWith (addr ++ [0, 6] ++ beNat 2 tcp.length) tcp)

/-- The RST that refuses a segment (RFC 793): acknowledging what it carries, in sequence where it acknowledges. -/
def Segment4460.reset (x : Segment4460) (mac b : Bytes) : Bytes :=
  if bit x.flags 4 then x.answer mac b x.ack 0x04 [] else x.answer mac b 0 0x14 []

/-- Octets to a peer in segments of at most 1,220 octets, which every path takes. -/
def Segment4460.send (x : Segment4460) (mac b : Bytes) : Nat → Nat → Bytes → List Bytes
  | 0, _, _ => []
  | n + 1, seq, data =>
    x.answer mac b seq 0x18 (data.take 1220) :: (if data.length ≤ 1220 then [] else x.send mac b n (seq + 1220) (data.drop 1220))

end Sys2Proof.Machine
end

