-- ==== Sys2Proof/Machine/Nts.lean ====
section
/-! DEFINITION. NTS keys and NTS-KE (R328, R329, R339, R341, R434). -/

namespace Sys2Proof.Machine

/-! ## Cookie keys (R328) -/

/-- A key boundary: the current key number is shown, a committed master key is in effect (R328). -/
def State.setKeyIndex (s : State) (k : Nat) : State :=
  ({ s with prot := { s.prot with keyIndex := some k, masterFrom := none } } : State).putN Obj.nts_key_number (k % 32768 : Nat)

/-- COOKIE_KEY_ROTATE (R328): at the first tick of a boundary second the key number changes, code 0x5501. -/
def execCookieKeyRotate (s : State) : Host.Outcome State Fault Refusal :=
  let k := s.keyIndexNow
  if !(s.awake 7 && s.sec.cookieKeys && s.prot.keyIndex ≠ some k) then .next s
  else .next ((s.setKeyIndex k).log 0 0x5501 (beNat 2 (k % 32768)))

/-- A commit of nts_master_key (R328): it takes effect at the next key boundary; code 0x5502. -/
def State.commitMaster (s : State) (key : Bytes) : State :=
  let p := s.prot
  let old := if p.masterFrom.isSome then p.masterOld else p.master
  let s : State := { s with prot := { p with master := key, masterOld := old, masterFrom := some (p.keyIndex.getD 0 + 1) } }
  (s.putO Obj.nts_master_key key).log 0 0x5502 []

/-- NTS_MASTER_KEY (R328): a commit of a master key of 32 bytes. -/
def execNtsMasterKey (key : Bytes) (s : State) : Host.Outcome State Fault Refusal :=
  .next (if s.firmwareUp && key.length == 32 then s.commitMaster key else s)

/-! ## Windows 0x8342 and 0x8344 (R434) -/

/-- The bytes a chain's value gives its window: the identity chain from test, no NTS-KE chain, where never committed. -/
def chainBytes (window : Nat) (v : Val) : Bytes :=
  match v with
  | .oct b => b
  | .num _ => if window = 0x8342 then Config.sirkorChain else []

/-- The bytes of a certificate chain's window. -/
def State.chain (s : State) (window : Nat) : Bytes := chainBytes window (s.get (window * 256))

/-- A window that holds zeros alone holds no chain. -/
def allZero (b : Bytes) : Bool := b.all fun x => x == 0

/-! ## NTS_KE_KEYGEN (R350, R434) -/

/-- Write a key RAM slot, in the list by rising number. -/
def slotIns : List (Nat × Bytes) → Nat → Bytes → List (Nat × Bytes)
  | [], k, x => [(k, x)]
  | (j, y) :: r, k, x => if k < j then (k, x) :: (j, y) :: r else if j = k then (k, x) :: r else (j, y) :: slotIns r k x

def State.setKeySlot (s : State) (k : Nat) (x : Bytes) : State :=
  { s with sec := { s.sec with keySlots := slotIns s.sec.keySlots k x } }

/-- The key of a slot, none where it is zero. -/
def State.keySlot (s : State) (k : Nat) : Option Bytes := (s.sec.keySlots.find? fun p => p.1 == k).map fun p => p.2

/-- Generate the key of slot 1; its record is written, the chain's window zeroed. -/
def State.keGenerate (s : State) : State :=
  let alg := s.nn Obj.nts_ke_key_alg
  let (k, s) := s.random (if alg = 1 then 48 else 32)
  let s := (s.setKeySlot 1 k).putO Obj.nts_ke_public_key (publicKey alg k)
  let (r, s) := s.sealed Obj.nts_ke_keygen k
  let s : State := match r with
    | some x => { s with flash := { s.flash with keKey := some (x, alg) } }
    | none => s
  let s := s.put (0x8344 * 256) (.num 0)
  s.putB Obj.nts_ke_keygen false

/-- NTS_KE_KEYGEN (R434): a commit of nts_ke_keygen. -/
def execNtsKeKeygen (s : State) : Host.Outcome State Fault Refusal :=
  .next (if s.firmwareUp && s.awake 7 then s.keGenerate else s)

/-! ## Points (R339) -/

/-- A received point passes its check (R339): uncompressed, coordinates below p, on the curve; an X25519 exchange must not
give zero. -/
def pointOk (group : Nat) (priv point : Bytes) : Bool :=
  if group = 0 then point.length == 32 && !allZero (x25519 priv point)
  else (ecDecode group point).isSome

/-! ## NTS-KE records (RFC 8915) -/

/-- The records of a request: critical bit, type, body; none where malformed or without an End of Message. -/
def keRecords : Nat → Bytes → Option (List (Bool × Nat × Bytes))
  | 0, _ => none
  | fuel + 1, b =>
    let len := fieldN b 2 2
    if b.length < 4 + len then none
    else
      let r := (bit (fieldN b 0 2) 15, fieldN b 0 2 % 32768, field b 4 len)
      if r.2.1 = 0 then (if len = 0 && b.length = 4 then some [r] else none)
      else (keRecords fuel (b.drop (4 + len))).map fun l => r :: l

/-- The 16-bit numbers of a body. -/
def words16 (b : Bytes) : List Nat := (List.range (b.length / 2)).map fun k => fieldN b (2 * k) 2

/-- One record. -/
def keRecord (type : Nat) (body : Bytes) : Bytes := beNat 2 type ++ beNat 2 body.length ++ body

/-- The error a request's records call for: 0 unrecognised critical record, 1 malformed (R329). -/
def keError (l : Option (List (Bool × Nat × Bytes))) : Option Nat :=
  match l with
  | none => some 1
  | some l =>
    if l.any fun r => r.1 && 7 < r.2.1 then some 0
    else
      let next := l.filter fun r => r.2.1 == 1
      let aead := l.filter fun r => r.2.1 == 4
      if next.length ≠ 1 || aead.length ≠ 1 || l.any (fun r => (r.2.1 == 1 || r.2.1 == 4) && r.2.2.length % 2 ≠ 0) then some 1
      else if (next.any fun r => (words16 r.2.2).contains 0) then none else some 1

/-- The AEAD algorithm chosen: the client's first of 15 and 17 (R329). -/
def State.keAead (s : State) (l : List (Bool × Nat × Bytes)) : Option Nat :=
  match l.find? fun r => r.2.1 == 4 with
  | none => none
  | some r => (words16 r.2.2).find? fun a => a == 15 || (a == 17 && s.flag Obj.nts_allow_512)

/-- New Cookie records, n of them. -/
def State.keCookies (s : State) (c2s s2c : Bytes) (alg17 : Bool) : Nat → Bytes × State
  | 0 => ([], s)
  | n + 1 =>
    let (k, s) := s.sealCookie c2s s2c alg17
    let (r, s) := s.keCookies c2s s2c alg17 n
    (keRecord 5 k ++ r, s)

/-! ## The signature and the exporter of an exchange (RFC 8446) -/

/-- A number in DER. -/
def derInt (b : Bytes) : Bytes :=
  let x := b.dropWhile fun c => c == 0
  let x := if x = [] || bit (fieldN x 0 1) 7 then 0 :: x else x
  [2] ++ beNat 1 x.length ++ x

/-- A signature as TLS carries it: r and s of ECDSA in DER. -/
def tlsSignature (alg : Nat) (sig : Bytes) : Bytes :=
  if alg = 2 then sig
  else
    let body := derInt (sig.take (sig.length / 2)) ++ derInt (sig.drop (sig.length / 2))
    [0x30] ++ beNat 1 body.length ++ body

/-- The bytes the server's CertificateVerify signs, from the messages before it. -/
def verifyContent (suite : Nat) (messages : Bytes) : Bytes :=
  List.replicate 64 0x20 ++ ascii "TLS 1.3, server CertificateVerify" ++ [0] ++ suiteHash suite messages

/-- A handshake message. -/
def tlsMessage (type : Nat) (body : Bytes) : Bytes := beNat 1 type ++ beNat 3 body.length ++ body

/-- The messages up to the server's Finished, from those before its CertificateVerify and the signature. -/
def finishedMessages (suite alg : Nat) (secret messages sig : Bytes) : Bytes :=
  let hello := 4 + fieldN messages 1 3
  let hellos := messages.take (hello + 4 + fieldN messages (hello + 1) 3)
  let traffic := deriveSecret suite (handshakeSecret suite secret) (ascii "s hs traffic") (suiteHash suite hellos)
  let m := messages ++ tlsMessage 0x0F (beNat 2 ([0x0403, 0x0503, 0x0807].getD alg 0) ++ beNat 2 sig.length ++ sig)
  m ++ tlsMessage 0x14 (suiteMac suite (expandLabel suite traffic (ascii "finished") [] (suiteLen suite)) (suiteHash suite m))

/-- The exporter master secret of an exchange. -/
def keMaster (suite alg : Nat) (secret messages sig : Bytes) : Bytes :=
  exporterMaster suite secret (suiteHash suite (finishedMessages suite alg secret messages sig))

/-- The records a request is answered with, with the exchange's suite and exporter master secret. -/
def State.keAnswer (s : State) (b : Bytes) (suite : Nat) (master : Bytes) : Bytes × State :=
  let l := keRecords (b.length + 1) b
  match keError l with
  | some e => (keRecord 0x8002 (beNat 2 e) ++ keRecord 0x8000 [], s)
  | none =>
    let l := l.getD []
    match s.keAead l with
    | none => (keRecord 0x8001 [0, 0] ++ keRecord 0x8004 [] ++ keRecord 0x8000 [], s)
    | some a =>
      let len := if a = 17 then 64 else 32
      let c2s := ntsExport suite master a 0 len
      let s2c := ntsExport suite master a 1 len
      let (ck, s) := s.keCookies c2s s2c (a == 17) 8
      let name := s.octs Obj.nts_server_name
      (keRecord 0x8001 [0, 0] ++ keRecord 0x8004 (beNat 2 a) ++ (if name = [] then [] else keRecord 0x8006 name) ++ ck
        ++ keRecord 0x8000 [], s)

/-! ## The exchange (R329) -/

/-- The exchange ends with a TLS alert: code 0x5503, the first per second. -/
def State.keAlert (s : State) (conn alert : Nat) : State :=
  let s : State := { s with prot := { s.prot with keOut := some { conn, alert := some alert },
                                                  keConns := s.prot.keConns.filter fun c => c.id ≠ conn } }
  if s.prot.keFailSec = some s.second then s
  else ({ s with prot := { s.prot with keFailSec := some s.second } } : State).log 0 0x5503 (beNat 1 alert)

/-- A signature fails its verification and is withheld (R341): code 0x5802; the third within 60 s starts the self-test. -/
def State.withhold (s : State) (alg use : Nat) : State :=
  let l := s.now :: s.sec.withheld.filter fun t => s.now ≤ t + ticksS 60
  let s : State := { s with sec := { s.sec with withheld := l } }
  let s := (s.bump Obj.bn_sig_withheld).logSec 0x5802 (beNat 1 alg ++ beNat 1 use)
  if l.length = 3 then s.bnTest 2 else s

/-- A received point fails its check (R339): code 0x5804, the first per second. -/
def State.pointInvalid (s : State) (group : Nat) : State :=
  let s := s.bump Obj.bn_point_invalid
  if s.sec.pointSec = some s.second then s
  else ({ s with sec := { s.sec with pointSec := some s.second } } : State).logSec 0x5804 (beNat 1 group)

/-- Run the exchange of a connection that is admitted. The alerts without a rule of their own are those of RFC 8446. -/
def State.keExchange (s : State) (h : KeHello) : State :=
  if s.bn.failed || s.sec.storageOff then s.keAlert h.conn 80
  else
    match s.keySlot 1, s.flash.keKey.map fun p => p.2 with
    | some key, some alg =>
      if !h.tls13 then s.keAlert h.conn 70
      else if !h.alpn then s.keAlert h.conn 120
      else if allZero (s.chain 0x8344) then s.keAlert h.conn 40
      else
        match h.suites.find? fun c => c == 0x1301 || c == 0x1302, h.shares.find? fun g => g.1 ≤ 2 with
        | some suite, some (group, point) =>
          if !h.sigs.contains alg then s.keAlert h.conn 40
          else
            let (priv, s) := s.random (if group = 2 then 48 else 32)
            if !pointOk group priv point then (s.pointInvalid group).keAlert h.conn 47
            else if h.sigBad then (s.withhold alg 0).keAlert h.conn 80
            else
              let secret := if group = 0 then x25519 priv point else ecdh group priv point
              let (draw, s) := s.random 48
              let signature := tlsSignature alg (signWith alg key (verifyContent suite h.transcript) draw)
              let (records, s) := s.keAnswer h.records suite (keMaster suite alg secret h.transcript signature)
              { s with prot := { s.prot with keOut := some { conn := h.conn, suite, group, signature, records } } }
        | _, _ => s.keAlert h.conn 40
    | _, _ => s.keAlert h.conn 80

/-- The TPID by which the frames of a port are parsed; the management port's is 0x8100. -/
def State.tpidOf (s : State) (p : Pkt) : Nat := if p.port = mgmtPort then 0x8100 else s.nn (Obj.vlan_tpid p.port)

/-- Two frames belong to one connection: the same port, source address and source TCP port. -/
def State.sameConn (s : State) (p q : Pkt) : Bool :=
  let hp := (tcpSegment (s.tpidOf p) p.data).h
  let hq := (tcpSegment (s.tpidOf q) q.data).h
  p.port == q.port && sourceAddress hp p.data == sourceAddress hq q.data && field p.data hp.l4 2 == field q.data hq.l4 2

/-- The latest frame of a connection of NTS-KE on its ring, 2 for the management port, else 3 (R266): that of the oldest NTS-KE
frame there. Firmware takes every frame of the connection. -/
def State.takeNtsKe (s : State) (mgmt : Bool) : Option (Pkt × State) :=
  let k := if mgmt then 2 else 3
  let x := s.ring k
  match x.items.find? fun i => isNtsKe (s.tpidOf i.pkt) i.pkt.data with
  | none => none
  | some i =>
    let mine := fun (j : RingItem) => isNtsKe (s.tpidOf j.pkt) j.pkt.data && s.sameConn i.pkt j.pkt
    let l := x.items.filter mine
    some ((l.getLastD i).pkt, (s.setRing k { x with items := x.items.filter fun j => !mine j }).count 8 0x08 l.length)

/-- The octets of the device's TLS flight: an alert record in the clear, else the free value of the model that stands for the
records TLS 1.3 protects (log entry 207). -/
def keOctets (r : KeReply) (draw : Nat) : Bytes :=
  match r.alert with
  | some a => [21, 3, 3, 0, 2, 2, BitVec.ofNat 8 a]
  | none => Config.tlsFlight draw r.suite r.group r.signature r.records

/-- Post the answer of an exchange to the frame it came by, in TCP segments on ring 130 or 129 (R266, R329). -/
def State.postKe (s : State) (p : Pkt) : State :=
  match s.prot.keOut with
  | none => s
  | some r =>
    let (draw, s) := s.freeNat
    let x := tcpSegment (s.tpidOf p) p.data
    let data := keOctets r draw
    let mac := s.octs (if p.port = mgmtPort then Obj.mgmt_mac else Obj.inband_mac)
    s.postAnswer p.port (x.send mac p.data (data.length / 1220 + 1) x.ack data)

/-- Refuse a connection with RST. -/
def State.postReset (s : State) (p : Pkt) : State :=
  let mac := s.octs (if p.port = mgmtPort then Obj.mgmt_mac else Obj.inband_mac)
  s.postAnswer p.port [(tcpSegment (s.tpidOf p) p.data).reset mac p.data]

/-- NTS_KE_HANDSHAKE (R329): firmware takes the frames of the connection from ring 3, or from ring 2 for the management port,
and posts its answer; a connection beyond nts_ke_max_sessions is refused with RST. -/
def execNtsKeHandshake (hello : KeHello) (s : State) : Host.Outcome State Fault Refusal :=
  let others := s.prot.keConns.filter fun c => c.id ≠ hello.conn
  if !(s.firmwareUp && s.awake 7 && s.serveAwake && !s.serve.stopped && s.sys.warmAt.isNone) then .next s
  else
    match s.takeNtsKe hello.mgmt with
    | none => .next s
    | some (p, s) =>
      if s.nn Obj.nts_ke_max_sessions ≤ others.length then .next (s.postReset p)
      else
        let conns := others ++ [{ id := hello.conn, lastAt := s.now }]
        .next ((({ s with prot := { s.prot with keConns := conns } } : State).keExchange hello).postKe p)

/-- NTS_KE_IDLE_TIMEOUT (R329): a connection idle for 10 s is closed. -/
def execNtsKeIdleTimeout (conn : Nat) (s : State) : Host.Outcome State Fault Refusal :=
  .next { s with prot := { s.prot with keConns := s.prot.keConns.filter fun c => c.id ≠ conn || s.now < c.lastAt + ticksS 10 } }

end Sys2Proof.Machine
end

