-- ==== Sys2Proof/Machine/Dictionary.lean ====
section
/-! DEFINITION. The object dictionary as sessions see it (R36-R42, R424-R434, R458): encodings, the values of objects that
have their home in a unit, the item checks, the bulk windows. -/

namespace Sys2Proof.Machine

/-! ## Values with their home in a unit -/

/-- The frequency of the OSCSEL strap, Hz (R29, R385). -/
def oscHz (k : Nat) : Nat := [10000000, 20000000, 25000000, 40000000].getD k 0

/-- 10^-18 to ppt, and to 0.001 ppt. -/
def toPpt (x : Int) : Int := rneDiv x 1000000
def toMilliPpt (x : Int) : Int := rneDiv x 1000

/-- Milliseconds left, half to even (R11), until an elapsed tick. -/
def State.msTo (s : State) (t : Nat) : Int := rneDiv ((t - s.now : Nat) : Int) 1250000

/-- A slot number, 0xFF for none. -/
def slotCode (x : Option (Fin 16)) : Nat := match x with | some i => i.val | none => 0xFF

/-- Objects of the timebase, the mode machine and the selection. -/
def State.viewTime (s : State) (key : Nat) : Option Int :=
  if key = Obj.mode then some s.mode.cur.code
  else if key = Obj.time_uncertainty then some s.growBound.timeUncertainty
  else if key = Obj.time_now then some s.time
  else if key = Obj.seg_sequence then some s.seg.seq
  else if key = Obj.seg_rate then some s.seg.rate
  else if key = Obj.rate_correction then some (toPpt s.tb.rateCorr)
  else if key = Obj.pending_phase then some (unitsToNs s.tb.pendingPhase)
  else if key = Obj.t_active_slot then some (slotCode s.selT.active)
  else if key = Obj.f_active_slot then some (slotCode s.selF.active)
  else if key = Obj.transition_state then
    some ((if s.selT.transition.isSome then 1 else 0) + (if s.selF.transition.isSome then 2 else 0))
  else if key = Obj.transition_remaining then
    some (match s.selT.transition with | some (_, t, _) => s.msTo t | none => 0)
  else if key = Obj.buildout then some (match s.selT.transition with | some (_, _, b) => unitsToNs b | none => 0)
  else if key = Obj.sched_pending then some s.schedPending.length
  else if key = Obj.sched_next_time then some (earliestSched s.schedPending)
  else if key = Obj.osc_nominal then some (oscHz (s.nn Obj.strap_oscsel))
  else if key = Obj.osc_differential then some (s.n Obj.strap_oscdiff)
  else none

/-- Objects of the estimator and the holdover. -/
def State.viewHold (s : State) (key : Nat) : Option Int :=
  let h := s.hold
  if key = Obj.model_state then some h.model.code
  else if key = Obj.model_freq then some (toPpt (h.predict s.now))
  else if key = Obj.model_aging then some (toMilliPpt h.a)
  else if key = Obj.model_tempco then some (toMilliPpt h.c)
  else if key = Obj.model_temp_ref then some (rneDiv h.tRef tempUnit)
  else if key = Obj.model_freq_unc then some (toMilliPpt s.uncY)
  else if key = Obj.model_aging_unc then some (toMilliPpt s.uncA)
  else if key = Obj.model_tempco_unc then some (toMilliPpt s.uncC)
  else if key = Obj.holdover_bound then some s.growBound.hold.boundNs
  else if key = Obj.holdover_elapsed then some (if h.episode then s.secondsSince h.start else 0)
  else if key = Obj.holdover_temp_dev then some (if h.episode then rneDiv (h.tFilt - h.tEntry) tempUnit else 0)
  else if key = Obj.holdover_remaining then
    some (if s.flag Obj.out_of_spec then 0 else if h.episode then s.n Obj.holdover_remaining else 0xFFFFFFFF)
  else none

/-- A slot's status (R107-R121). -/
def State.viewSlot (s : State) (i : Fin 16) (sub : Nat) : Option Int :=
  let x := s.slots[i]
  match sub with
  | 1 => some x.state.code
  | 2 => some (s.slotClass i).code
  | 3 =>
    let on := fun (b : Bool) (w : Int) => if b then w else 0
    some (on (s.selT.active == some i) 1 + on (s.selF.active == some i) 2 + on x.disputed.isSome 4
      + on ((s.selT.transition.isSome && s.selT.active == some i) || (s.selF.transition.isSome && s.selF.active == some i)) 8
      + on ((s.selT.armed && s.manual false == some i) || (s.selF.armed && s.manual true == some i)) 16)
  | 4 => some (s.receivedQuality i)
  | 5 => some (s.effQuality i)
  | 6 => some x.cause
  | 7 => some (match x.deadline with | some t => s.msTo t | none => 0)
  | 8 => some (toPpt ((s.slotFreq i 10).getD 0))
  | 9 => some (unitsToNs ((x.phaseMean 1).getD 0))
  | _ => none

/-- A loop's status (R131-R134). -/
def State.viewLoop (s : State) (d : Fin 4) (sub : Nat) : Option Int :=
  let l := s.loops[d]
  match sub with
  | 1 => some l.state.code
  | 2 => some l.bwInUse
  | 3 => some (unitsToNs l.phaseErr)
  | 4 => some (toPpt (s.loopWord d).1)
  | 6 => some (if l.clamped then 1 else 0)
  | _ => none

/-- Objects of the serve, crypto and security units. -/
def State.viewServe (s : State) (key : Nat) : Option Int :=
  if key = Obj.serve_state then some s.serveState
  else if key = Obj.active_pairs then some s.activePairs
  else if key = Obj.aes_lanes_active then some (min 24 s.serve.jobs.length : Nat)
  else if key = Obj.bn_occupancy then some (Config.bnOccupancy s.now % 10001 : Nat)
  else if key = Obj.enrolled then some (if s.flash.enrolled then 1 else 0)
  else if key = Obj.flash_size then some Config.flashSize
  else if key = Obj.channels_ready then some s.channelsReady
  else if key = Obj.channels_tracking then some s.channelsTracking
  else if key = Obj.orbit_records then some (s.sky.orbit.length : Nat)
  else none

/-- Descriptors a ring holds (R266). -/
def State.ringFill (s : State) (k : Nat) : Nat :=
  if k = 0 then s.ool.ring0.length
  else if k = 1 then s.ool.ring1.length
  else if k < 128 then (s.ring k).items.length
  else if k = 128 || k = 130 then
    s.ports.toList.foldl (fun a u => a + (u.egress.filter fun f => !f.esmc && f.cls == if k = 128 then 1 else 3).length) 0
  else if k = 129 then s.serve.ring129.length
  else 0

/-- Objects that repeat per unit. -/
def State.viewUnit (s : State) (key : Nat) : Option Val :=
  let i := key / 256
  let sub := key % 256
  if 0x2300 ≤ i && i < 0x2400 && i % 16 = 1 then (s.viewSlot (Fin.ofNat 16 ((i - 0x2300) / 16)) sub).map .num
  else if (i = 0x2110 || i = 0x2120) && sub = 8 then some (.num 0)
  else if 0x2110 ≤ i && i < 0x2150 && i % 16 = 1 then (s.viewLoop (Fin.ofNat 4 ((i - 0x2110) / 16)) sub).map .num
  else if (i = 0x3100 || i = 0x3101) && 1 ≤ sub then
    some (.oct (s.channelStatus (Fin.ofNat 256 ((i - 0x3100) * 128 + sub - 1))))
  else if 0x4000 ≤ i && i < 0x5000 && i % 64 = 1 && sub = 5 then
    let n := (i - 0x4000) / 64
    some (.num ((if bit s.side.absent n then 0 else 1) + (if bit s.side.loss n then 2 else 0) + (if bit s.side.fault n then 4 else 0)))
  else if 0x4000 ≤ i && i < 0x5000 && i % 64 = 6 && (sub = 0x0C || sub = 0x0D) then
    -- a member's counters are idle (R228)
    let n : Fin 64 := Fin.ofNat 64 ((i - 0x4000) / 64)
    some (.num (Config.fecCount n (sub - 0x0C) (s.ports[n].frozen.getD s.now) : Nat))
  else if 0x4000 ≤ i && i < 0x5000 && i % 64 = 5 && key = Obj.esmc_tx_code ((i - 0x4000) / 64) then
    some (.num (s.esmcCode (Fin.ofNat 64 ((i - 0x4000) / 64)) : Nat))
  -- entry 0 of the filter shows what it holds (R232)
  else if 0x4000 ≤ i && i < 0x5000 && i % 64 = 0x10 && sub = 1 then some (.num (if s.entry0 ((i - 0x4000) / 64) then 1 else 0))
  else if 0x4000 ≤ i && i < 0x5000 && i % 64 = 0x10 && sub = 2 then some (.oct (s.octs Obj.inband_mac))
  else if 0x4000 ≤ i && i < 0x5000 && i % 64 = 0x10 && sub = 3 then some (.num (s.n Obj.inband_vlan_mode))
  else if 0x4000 ≤ i && i < 0x5000 && i % 64 = 0x10 && sub = 4 then some (.num (s.n Obj.inband_vid))
  else if 0x5010 ≤ i && i < 0x5050 && i % 8 = 0 && sub = 1 then
    some (.num (s.engineState (Fin.ofNat 8 ((i - 0x5010) / 8)) : Nat))
  -- in STEEP every bucket maps to engine 0 (R74, R283)
  else if (i = 0x5080 || i = 0x5081) && 1 ≤ sub && s.mode.cur = .steep then some (.num 0)
  else if (i = 0x5090 || i = 0x5091) && 1 ≤ sub then some (.num (min 65535 (s.ringFill ((i - 0x5090) * 128 + sub - 1)) : Nat))
  else none

/-! ## The object directory (R427) -/

/-- Every row of the object tables. -/
def allRows : List ObjRow :=
  rows01 ++ rows02 ++ rows03 ++ rows04 ++ rows05 ++ rows06 ++ rows07 ++ rows08 ++ rows09 ++ rows10 ++ rows11 ++ rows12 ++ rows13
    ++ rows14 ++ rows15 ++ rows16 ++ rows17 ++ rows18 ++ rows19 ++ rows20

/-- The keys a row covers. -/
def ObjRow.keys (r : ObjRow) : List Nat :=
  (List.range r.units).flatMap fun u => (List.range r.units2).flatMap fun e => (List.range r.subs).map fun k =>
    objKey (r.base + r.stride * u + e) (r.sub + k)

/-- Insert into a rising list. -/
def insertNat (x : Nat) : List Nat → List Nat
  | [] => [x]
  | y :: r => if x < y then x :: y :: r else y :: insertNat x r

/-- Every key in use but the bulk windows', rising. -/
def allKeys : List Nat := (allRows.flatMap ObjRow.keys).foldr insertNat []

/-- The codes of the access classes in the directory. -/
def Access.code : Access → Nat
  | .const => 0
  | .ro => 1
  | .rw => 2
  | .ow => 3
  | .wo => 4
  | .rx => 5

/-- The domain of an object (R424): of a counter block's object, the block's. -/
def ObjRow.domain (r : ObjRow) (i : Nat) : Nat := if r.dom = 0 then blockDom (Fin.ofNat 16 ((i - 0x6000) / 0x20)) else r.dom

/-- The maximum length of an object. -/
def ObjRow.maxLen (r : ObjRow) : Nat :=
  match r.ty.len with
  | some w => w
  | none => match r.lens with
    | .maxLen n => n
    | .fixed n => n
    | .oneOf l => l.foldl max 0

/-- The pages of R429. -/
def isPage (i : Nat) : Bool := [0x3100, 0x3101, 0x5080, 0x5081, 0x5090, 0x5091, 0x5092, 0x5093, 0x5110, 0x5111].contains i

/-- One record of the directory. -/
def directoryRecord (i sub ty acc dom flags len ci cs : Nat) : Bytes :=
  beNat 2 i ++ beNat 1 sub ++ beNat 1 ty ++ beNat 1 acc ++ beNat 1 dom ++ beNat 1 flags ++ [0] ++ beNat 4 len ++ beNat 2 ci
    ++ beNat 1 cs ++ [0]

/-- The record of an object. -/
def objRecord (key : Nat) : Bytes :=
  match objRow key with
  | none => []
  | some r =>
    let i := key / 256
    let on := fun (b : Bool) (w : Nat) => if b then w else 0
    let (ci, cs) := match r.confirm with | some (a, b, _) => (a, b) | none => (0, 0)
    directoryRecord i (key % 256) r.ty.code r.acc.code (r.domain i)
      (on r.persist 128 + on r.timed 64 + on r.secret 32 + on r.confirm.isSome 16 + on (isPage i) 4) r.maxLen ci cs

/-- The chains' windows are persistent. -/
def bulkPersist (i : Nat) : Bool := i == 0x8342 || i == 0x8344

/-- The directory: the objects, then the bulk windows, whose indices are the highest. -/
def directory : Bytes :=
  (allKeys.map objRecord).flatten ++ (bulkRows.map fun w =>
    directoryRecord w.index 0 0x0E w.acc.code w.dom (8 + if bulkPersist w.index then 128 else 0) w.size 0 0).flatten

/-! ## Reading an object -/

/-- The value of an object: from the unit that is its home, else the stored one. -/
def State.objView (s : State) (key : Nat) : Val :=
  if key = Obj.raw_now then .oct (beNat 9 s.stamp)
  else if key = Obj.debug_challenge then .oct (match s.sec.challenge with | some (c, _) => c | none => [])
  else if key = Obj.id_directory_entries then .num (directory.length / 16 : Nat)
  else
    match s.viewTime key with
    | some v => .num v
    | none =>
      match s.viewHold key with
      | some v => .num v
      | none =>
        match s.viewServe key with
        | some v => .num v
        | none =>
          match s.viewProfile key with
          | some v => .num v
          | none => (s.viewUnit key).getD (s.get key)

/-- The object's domain answers: it is awake (R23, R24). -/
def State.answers (s : State) (dom : Nat) : Bool := dom == 1 || s.awake dom

/-- Checks 1 to 3 of R458 for a read: the status, and the row where it is OK. A read of a bulk window is denied (R430). -/
def State.readCheck (s : State) (extended : Bool) (i sub : Nat) : Nat × Option ObjRow :=
  match bulkRow i with
  | some w => if sub ≠ 0 then (stNoObject, none) else if !s.answers w.dom then (stAsleep, none) else (stDenied, none)
  | none =>
    match objRow (objKey i sub) with
    | none => (stNoObject, none)
    | some r =>
      if !s.answers (r.domain i) then (stAsleep, none)
      else if r.acc == .wo || (r.acc == .rx && !extended) then (stDenied, none)
      else (stOk, some r)

/-- One item of a response to READ: status, type, length, value. A read of debug_challenge makes a challenge (R362). -/
def State.readItem (s : State) (extended : Bool) (i sub : Nat) : Bytes × State :=
  match s.readCheck extended i sub with
  | (_, some r) =>
    let s := if objKey i sub = Obj.debug_challenge then s.makeChallenge else s
    let v := encodeVal r.ty (s.objView (objKey i sub))
    (beNat 1 stOk ++ beNat 1 r.ty.code ++ beNat 2 v.length ++ v, s)
  | (st, none) => (beNat 1 st ++ [0, 0, 0], s)

/-- The items of a list of addresses, one after the other. -/
def State.readItems (s : State) (extended : Bool) : List (Nat × Nat) → Bytes × State
  | [] => ([], s)
  | (i, sub) :: r =>
    let (a, s) := s.readItem extended i sub
    let (b, s) := s.readItems extended r
    (a ++ b, s)

/-! ## The item checks of a write (R458) -/

/-- Checks 5 to 7. -/
def ObjRow.valueCheck (r : ObjRow) (ty : Nat) (b : Bytes) : Nat :=
  if ty ≠ r.ty.code || !r.lengthOk b.length then stType
  else if !r.encodingOk b then stReserved
  else if !r.rangeOk b then stRange
  else stOk

/-- The checks of a written item, in order; the staged value where it passes. -/
def State.writeCheck (s : State) (owner : Bool) (i sub ty : Nat) (b : Bytes) : Nat × Option StagedItem :=
  match bulkRow i with
  | some w => (if sub ≠ 0 then stNoObject else if !s.answers w.dom then stAsleep else stDenied, none)
  | none =>
    match objRow (objKey i sub) with
    | none => (stNoObject, none)
    | some r =>
      if !s.answers (r.domain i) then (stAsleep, none)
      else if r.acc == .const || r.acc == .ro || r.acc == .rx then (stDenied, none)
      else if !owner then (stNotOwner, none)
      else
        let st := r.valueCheck ty b
        (st, if st = stOk then some { key := objKey i sub, val := decodeVal r.ty b } else none)

/-! ## Bulk windows (R431-R434) -/

/-- Records of a fixed size laid end to end, missing ones zero. -/
def records (size count : Nat) (at' : Nat → Option Bytes) : Bytes :=
  (List.range count).flatMap fun k => field ((at' k).getD []) 0 size

/-- The keys of a configuration set (R78): persistent objects that are not secret, the chains. -/
def setKeys : List Nat :=
  (allKeys.filter fun k => match objRow k with | some r => r.persist && !r.secret | none => false) ++ chainKeys

/-- The set in force in the layout of R376, without secret objects (R78): an object the set gives no value has its default,
of a PTP instance the profile's (R15); a chain of which the set holds no record has none here, so that a set without one can
be installed on another device. -/
def State.configWindow (s : State) : Bytes :=
  match s.flash.activeBank with
  | none => []
  | some (_, b) =>
    let values := (b.values none).foldl (fun (a : List (Nat × Val)) p => storeIns a p.1 p.2) []
    let t : State := { s with obj := values }
    let records := setKeys.filterMap fun k =>
      match objRow k with
      | some r => some (clearRecord k (encodeVal r.ty (((t.viewProfile k).map .num).getD (t.get k))))
      | none => (storeGet values k).map fun v => clearRecord k (padTo 4096 (chainBytes (k / 256) v))
    ({ b with records } : CfgSet).image

/-- The journal window: the entry of sequence q at offset 48 × (q mod 4096), the newest where two share it (R106). -/
def State.journalWindow (s : State) : Bytes :=
  let newestFirst := s.journal.visible.reverse
  records 48 4096 fun k => (newestFirst.find? fun e => e.seq % 4096 == k).map JEntry.bytes

/-- The ring tap (R268). -/
def State.tapWindow (s : State) : Bytes :=
  (s.ring (s.nn Obj.tap_ring)).tap.flatMap fun i => i.descriptor ++ field i.pkt.data 0 256

/-- An engine's sample window (R421). -/
def State.sampleWindow (s : State) (e : Fin 8) : Bytes :=
  records 32 1024 fun k => s.serve.engines[e].samples.find? fun r => fieldN r 0 4 % 1024 == k

/-- The bytes of the inactive firmware bank. -/
def State.stagedImage (s : State) : Bytes := s.flash.image (1 - s.nn Obj.fw_running_bank)

/-- A window's bytes, as a BULK_READ sees them (R432). -/
def State.window (s : State) (w : BulkRow) : Bytes :=
  padTo w.size (match w.index with
    | 0x8000 => directory
    | 0x8300 => (s.tb.segs.take 32).flatMap Segment.bytes
    | 0x8301 => s.journalWindow
    | 0x8310 => records 128 512 fun k => (s.sky.orbit.find? fun p => p.1 == k).map fun p => p.2
    | 0x8312 => s.observationWindow
    | 0x8314 => s.sky.grist.header ++ s.sky.grist.samples
    | 0x8316 => s.solutionWindow
    | 0x8320 => s.tapWindow
    | 0x8330 => s.serve.prog.staging
    | 0x8340 => s.stagedImage
    | 0x8342 => s.chain 0x8342
    | 0x8344 => s.chain 0x8344
    | 0x8348 => s.configWindow
    | i => s.sampleWindow (Fin.ofNat 8 (i - 0x8350)))

/-- Staged bytes over a window's committed bytes (R433). -/
def overlay (l : List StagedBulk) (index : Nat) (b : Bytes) : Bytes :=
  l.foldl (fun b x => if x.index = index then patch b x.offset x.data else b) b

/-- A transaction stages bytes of a window. -/
def stages (l : List StagedBulk) (index : Nat) : Bool := l.any fun x => x.index == index

/-- The windows a transaction stages, each once. -/
def stagedWindows (l : List StagedBulk) : List Nat :=
  (bulkRows.map fun w => w.index).filter fun i => stages l i

end Sys2Proof.Machine
end

