-- ==== Sys2Proof/Machine/Rules.lean ====
section
/-! DEFINITION. The rules a commit must pass beyond its items (R45, R434): each states what the values after the commit
may be; the first one that fails gives the status. -/

namespace Sys2Proof.Machine

/-- The values after a commit of items, without any effect of theirs. -/
def State.staging (s : State) (l : List StagedItem) : State := l.foldl (fun (s : State) x => s.put x.key x.val) s

/-- A list of items stages a key, or one of a range of indices. -/
def stagesKey (l : List StagedItem) (key : Nat) : Bool := l.any fun x => x.key == key

def stagesRange (l : List StagedItem) (lo hi : Nat) : Bool := l.any fun x => lo ≤ x.key / 256 && x.key / 256 ≤ hi

/-- The number staged for a key. -/
def stagedNum (l : List StagedItem) (key : Nat) : Option Int :=
  match l.find? fun x => x.key == key with
  | some { key := _, val := .num n } => some n
  | _ => none

/-- A BOOL request object staged true, or a number other than 0. -/
def requested (l : List StagedItem) (key : Nat) : Bool := match stagedNum l key with | some n => n != 0 | none => false

/-- The status of the first failing check. -/
def firstFail : List (Bool × Nat) → Nat
  | [] => stOk
  | (b, st) :: r => if b then st else firstFail r

/-! ## Modes, timebase, selection, loops -/

/-- R76, R80, R82. -/
def State.modeRules (s : State) (l : List StagedItem) : List (Bool × Nat) :=
  [(requested l Obj.sparge_request && !s.spargeOk, stConsistency),
   (requested l Obj.kiln_request && !s.kilnMode, stConsistency),
   (requested l Obj.kiln_request && s.nn Obj.debug_state == 0, stDenied),
   (requested l Obj.cellar_request && !s.cellarOk, stConsistency)]

/-- R96, R98. -/
def State.timeRules (s t : State) (l : List StagedItem) : List (Bool × Nat) :=
  let step := match stagedNum l Obj.step_amount with
    | some a => [(!s.rateOnly, stConsistency), (!s.stepOk a, stRange)]
    | none => []
  let leap := stagesKey l Obj.utc_offset || stagesKey l Obj.leap_time || stagesKey l Obj.leap_delta
  step ++ [(leap && t.n Obj.leap_delta != 0 && !leapOk (t.n Obj.utc_offset) (t.n Obj.leap_time) (t.n Obj.leap_delta) s.time,
    stConsistency)]

/-- Two slots are bound to the same REFIN, SyncE port, PTP instance, or to the sky receiver (R108). -/
def State.sameSource (t : State) (i j : Fin 16) : Bool :=
  let refin := fun (k : Nat) => k == 1 || k == 2 || k == 3
  let a := t.kind i
  let b := t.kind j
  (refin a && refin b && t.number i == t.number j)
    || (a == b && ((a == 4 || a == 5) && t.number i == t.number j || a == 6))

/-- R108. -/
def State.slotRules (t : State) (l : List StagedItem) : List (Bool × Nat) :=
  if !stagesRange l 0x2300 0x23FF && !stagesRange l 0x2600 0x26FF then []
  else
    let bad := (List.finRange 16).any fun i =>
      let k := t.kind i
      let n := t.number i
      ((k == 1 || k == 2 || k == 3) && 7 < n) || (k == 4 && 63 < n) || (k == 5 && 3 < n)
        || ((k == 2 || k == 3) && t.nn (Obj.refin_frequency n) != 1000)
        || (t.slotEnabled i && (List.finRange 16).any fun j => i.val < j.val && t.slotEnabled j && t.sameSource i j)
    [(bad, stConsistency)]

/-- R139, and the relation of model_min_learn to model_window (R458). -/
def State.loopRules (t : State) (l : List StagedItem) : List (Bool × Nat) :=
  [(stagesRange l 0x2101 0x2101 && t.flag Obj.efc_enable
      && (t.n Obj.efc_gain == 0 || decide (t.n Obj.efc_frame_bits < t.n Obj.efc_bits)), stConsistency),
   (stagesRange l 0x2105 0x2105 && decide (t.n Obj.model_window < t.n Obj.model_min_learn), stConsistency)]

/-! ## Outputs (R153-R171) -/

/-- The ceiling of a clock's frequency, mHz (R155, R167). -/
def State.clockCeiling (t : State) (n : Fin 20) : Nat :=
  if 16 ≤ n.val then 800000000000 else [250000000000, 125000000000, 50000000000, 10000000000].getD (t.nn (Obj.out_slew n)) 0

/-- The relations of an output's function, loop and parameters hold (R153-R157, R167, R168). -/
def State.outputOk (t : State) (n : Fin 20) : Bool :=
  let fn := t.nn (Obj.out_function n)
  let loop := t.nn (Obj.out_loop n)
  let w := t.nn (Obj.out_width n)
  let p := t.nn (Obj.out_period n)
  let loopOk := fn == 0 || fn == 2 || (if fn = 7 then loop == 0 else loop != 1)
  let pulseOk := fn != 1 || ((10 ^ 9 % max 1 p == 0 || p % 10 ^ 9 == 0) && 5000 ≤ w && w + 5000 ≤ p * 1000)
  let clockOk := fn != 2 || t.nn (Obj.out_frequency n) ≤ t.clockCeiling n
  let frameOk := fn != 4 || (5000 ≤ w && decide (((w + 5000 : Nat) : Rat) * unitsPerPs ≤ t.gridPeriod n 4))
  let levelOk := 16 ≤ n.val || t.nn (Obj.dout_level n) == 0
  let aligned := t.nn (Obj.align_mode n) != 0 && t.nn (Obj.align_source n) != 0
  let alignOk := !(aligned && ((fn == 2 && loop == 1) || fn == 7))
  loopOk && pulseOk && clockOk && frameOk && levelOk && alignOk

/-- A frame's duration on a TODOUT, in bits: 48 bytes, or the 38 characters of the sentence (R171, R172). -/
def todBits (format : Nat) : Nat := 10 * if format = 0 then 48 else 38

/-- The rules of a time-of-day output (R171). -/
def State.todOk (t : State) (k : Fin 4) : Bool :=
  let o := t.nn (Obj.todout_output k)
  let named := o == 255 || (t.nn (Obj.out_function o) == 1 && t.nn (Obj.out_period o) == 10 ^ 9)
  let baud := max 1 (t.nn (Obj.todout_baud k))
  named && t.nn (Obj.todout_delay k) * baud + todBits (t.nn (Obj.todout_format k)) * 1000 < 990 * baud

/-- The indices of an output's objects (R428). -/
def stagesOutput (l : List StagedItem) (n : Fin 20) : Bool := stagesRange l (0x2400 + 16 * n.val) (0x2403 + 16 * n.val)

/-- R153-R171, R175. -/
def State.outputRules (s t : State) (l : List StagedItem) : List (Bool × Nat) :=
  let outs := (List.finRange 20).flatMap fun (n : Fin 20) =>
    if !stagesOutput l n then []
    else
      let soon := match stagedNum l (Obj.start_time n) with
        | some x => x != 0 && decide (x < s.time + 65536000000)
        | none => false
      [(!t.outputOk n || soon, stConsistency),
       (requested l (Obj.align_trigger n) && (t.n (Obj.align_mode n) == 0 || t.n (Obj.align_source n) == 0), stConsistency)]
  let tods := if stagesRange l 0x2400 0x2577 then
      [((List.finRange 4).any fun k => (stagesRange l 0x2400 0x253F || stagesRange l (0x2550 + 8 * k.val) (0x2557 + 8 * k.val)) && !t.todOk k,
        stConsistency)]
    else []
  let caps := (List.finRange 16).flatMap fun (c : Fin 16) =>
    match stagedNum l (Obj.cap_ack_seq c) with
    | some x => [(!s.capAckOk c x, stRange)]
    | none => []
  outs ++ tods ++ caps

/-! ## Ports and protocols -/

/-- R227, R228, R241, R256, R266. -/
def State.portRules (t : State) (l : List StagedItem) : List (Bool × Nat) :=
  let ports := if stagesRange l 0x4000 0x4FFF || stagesRange l 0x2300 0x23FF then
      [((List.finRange 64).any fun n => !t.portOk n || !t.partnerOk n
          || (2 ≤ t.nn (Obj.promisc_ring n) && t.nn (Obj.promisc_ring n) ≤ 7), stConsistency)]
    else []
  ports ++ [(stagesRange l 0x4032 0x4032 && decide (t.nn Obj.sb_period * t.nn Obj.sb_clock < 196000000), stConsistency)]

/-- The ranges of a profile (R313): domain, transports, Sync, Announce and Delay_Req intervals, unicast required or
forbidden. -/
structure ProfileRange where
  domain : Int × Int
  transports : List Nat
  sync : Int × Int
  announce : Int × Int
  delay : Int × Int
  unicast : List Bool := [false, true]

/-- The rows of the table of R313. -/
def profileRange : Nat → ProfileRange
  | 0 | 1 => { domain := (0, 127), transports := [0, 1, 2], sync := (-7, 1), announce := (0, 4), delay := (0, 5) }
  | 2 => { domain := (24, 43), transports := [0], sync := (-4, -4), announce := (-3, -3), delay := (-4, -4), unicast := [false] }
  | 3 => { domain := (44, 63), transports := [1, 2], sync := (-7, 0), announce := (-3, 0), delay := (-7, 0), unicast := [true] }
  | 4 => { domain := (0, 127), transports := [1], sync := (-7, -1), announce := (-3, 1), delay := (-7, 5) }
  | 5 => { domain := (0, 127), transports := [1], sync := (-4, 1), announce := (0, 4), delay := (-3, 5) }
  | _ => { domain := (0, 127), transports := [0], sync := (-7, 0), announce := (-3, 1), delay := (-3, 1), unicast := [false] }

/-- An instance keeps within its profile's ranges (R313). -/
def State.instOk (t : State) (i : Fin 4) : Bool :=
  let r := profileRange (t.profile i)
  let within := fun (p : Int × Int) (x : Int) => decide (p.1 ≤ x) && decide (x ≤ p.2)
  within r.domain (t.domain i) && r.transports.contains (t.nn (Obj.transport i)) && within r.sync (t.logSync i)
    && within r.announce (t.logAnnounce i) && within r.delay (t.logDelay i) && r.unicast.contains (t.unicastOn i)

/-- Covered messages per second of an instance with security, in 1/32 (R319): Sync, Announce and Delay_Resp on its member
ports; with unicast, grant_limit grants at the fastest of the three. -/
def State.securedRate (t : State) (i : Fin 4) : Nat :=
  if !(t.flag (Obj.inst_enable i) && t.nn (Obj.sec_mode i) != 0) then 0
  else
    let r := fun (x : Int) => (2 : Nat) ^ (5 - x).toNat
    let a : Nat := r (t.logSync i)
    let b : Nat := r (t.logAnnounce i)
    let c : Nat := r (t.logDelay i)
    let grants : Nat := if t.unicastOn i then t.nn Obj.grant_limit * max a (max b c) else 0
    (t.members i).length * (a + b + c) + grants

/-- R310, R313, R319. -/
def State.ptpRules (t : State) (l : List StagedItem) : List (Bool × Nat) :=
  if !(stagesRange l 0x5400 0x54FF || stagesRange l 0x4000 0x4FFF || stagesRange l 0x5200 0x5200) then []
  else
    let on := fun (i : Fin 4) => t.flag (Obj.inst_enable i)
    let share := (List.finRange 4).any fun i => (List.finRange 4).any fun j =>
      i.val < j.val && on i && on j && t.domain i == t.domain j && t.nn (Obj.transport i) == t.nn (Obj.transport j)
        && t.nn (Obj.member_ports i) &&& t.nn (Obj.member_ports j) != 0
    let six := 1 < ((List.finRange 4).filter fun i => on i && t.profile i == 6).length
    let member := (List.finRange 4).any fun i => (List.range 64).any fun n => bit (t.nn (Obj.member_ports i)) n && t.isMember n
    let range := (List.finRange 4).any fun i => !t.instOk i
    -- DESIGN CHOICE (log entry 178): priority1 is not settable for profiles 2 and 3 (R315); a commit of another value fails
    let fixed := (List.finRange 4).any fun i => (t.profile i = 2 || t.profile i = 3) && match stagedNum l (Obj.priority1 i) with
      | some v => v != 128
      | none => false
    [(fixed, stConsistency), (share || six || member, stConsistency), (range, stConsistency),
     (400000 * 32 < ((List.finRange 4).map t.securedRate).sum, stConsistency)]

/-! ## Serve engines -/

/-- An image of entries defines an entry point 8 to 15. -/
def entryDefined (entries : List Nat) (e : Nat) : Bool := entries.getD (e - 8) 0xFFFFFFFF != 0xFFFFFFFF

/-- An integrator rule names what it may (R261, R266). -/
def State.ruleOk (t : State) (r : Nat) : Bool :=
  let e := t.nn (Obj.rule_target r)
  let c := t.nn (Obj.rule_class r)
  match t.nn (Obj.rule_action r) with
  | 1 =>
    if e = 0 || e = 1 then c == 1
    else if e = 2 then c == 2
    else if e ≤ 6 then c == 0
    else 8 ≤ e && e ≤ 15 && entryDefined t.serve.prog.entries e
  | 2 => 8 ≤ e && e ≤ 127
  | _ => true

/-- R261, R286. -/
def State.serveRules (s t : State) (l : List StagedItem) (w : List StagedBulk) : List (Bool × Nat) :=
  let named := (List.range 16).any fun r =>
    t.flag (Obj.rule_enable r) && t.nn (Obj.rule_action r) == 1 && 8 ≤ t.nn (Obj.rule_target r)
      && !entryDefined (imageEntries s.serve.prog.staging) (t.nn (Obj.rule_target r))
  [(stagesRange l 0x5060 0x506F && (List.range 16).any fun r => !t.ruleOk r, stConsistency),
   (requested l Obj.program_activate && (s.nn Obj.program_status != 2 || stages w 0x8330 || named), stConsistency)]

/-! ## Sky, crypto, security, resets, counters -/

/-- R221, R343, R358. -/
def State.requestRules (s : State) (l : List StagedItem) : List (Bool × Nat) :=
  [(stagesKey l Obj.grist_request && s.gristBusy, stBusy),
   (requested l Obj.bn_selftest && s.bn.test.isSome, stBusy),
   (requested l Obj.fw_activate && !s.canActivate, stConsistency)]

/-- An owner-eligible credential exists (R355). -/
def State.hasCredential (t : State) : Bool :=
  ((List.range 32).any fun e => bit (t.nn (Obj.psk_rights e)) 0)
    || (List.range 8).any fun a => bit (t.nn (Obj.anchor_rights a)) 0 && t.octs (Obj.anchor_cert a) ≠ []

/-- R355. -/
def State.credentialRules (s t : State) (l : List StagedItem) : List (Bool × Nat) :=
  [(s.flash.enrolled && stagesRange l 0x1410 0x1437 && !t.hasCredential, stConsistency)]

/-- A code of the block table (R390). -/
def State.blockRules (s : State) (l : List StagedItem) (w : List StagedBulk) (flags : Nat) : List (Bool × Nat) :=
  match stagedNum l Obj.block_reset_target with
  | none => []
  | some 0 => []
  | some c =>
    [(flags % 4 != 0 || !w.isEmpty || (l.any fun x => x.key != Obj.block_reset_target && x.key != Obj.block_force), stConsistency),
     (!blockKnown c.toNat, stRange),
     (!s.answers (blockDomain c.toNat), stAsleep),
     (s.sys.block.isSome, stBusy)]

/-- The events of a block have codes 1 to this (R410). -/
def lastEvent (b : Nat) : Nat :=
  if b ≤ 7 then 0x13 else if b = 8 then 0x0D else if b = 9 then 0x09 else if b = 10 then 0x0B else if b = 11 then 0x08 else 0x0E

/-- A selection that R408 and R409 allow in a block. -/
def selectionOk (b : Fin 16) (sel : Nat) : Bool :=
  let code := sel / 256
  let unit := sel / 16 % 16
  code ≤ lastEvent b && (!bit sel 3 || code == 0 || isLevel b code)
    && (if 12 ≤ b.val then true else if b.val = 9 then unit ≤ 3 else unit == 0 && !bit sel 2)

/-- R407-R409. -/
def State.counterRules (t : State) (l : List StagedItem) : List (Bool × Nat) :=
  if !stagesRange l 0x6000 0x61FF then []
  else
    let modeOk := fun (b : Fin 16) => match t.nn (Obj.block_mode b) with
      | 0 => true
      | 1 => 12 ≤ b.val
      | _ => b.val ≤ 8
    [((List.finRange 16).any fun b => stagesRange l (0x6000 + 32 * b.val) (0x601F + 32 * b.val)
        && !(modeOk b && (List.range 8).all fun k => selectionOk b (t.nn (Obj.ctr_select b k))), stConsistency)]

/-! ## Windows (R434) -/

/-- The records of the orbit store that a transaction writes: position and bytes. -/
def State.stagedOrbit (s : State) (w : List StagedBulk) : List (Nat × Bytes) :=
  let mine := w.filter fun x => x.index == 0x8310
  let touched := (List.range 512).filter fun p => mine.any fun x => x.offset < 128 * p + 128 && 128 * p < x.offset + x.data.length
  let b := overlay mine 0x8310 (records 128 512 fun k => (s.sky.orbit.find? fun p => p.1 == k).map fun p => p.2)
  touched.map fun p => (p, field b (128 * p) 128)

/-- A chain that R434 accepts for a key. -/
def chainOk (b key : Bytes) (mayBeEmpty : Bool) : Bool :=
  if allZero b then mayBeEmpty
  else match Config.chainKey b with
    | some k => k == key
    | none => false

/-- The bytes a chain's window holds after the commit. -/
def State.stagedChain (s : State) (w : List StagedBulk) (window : Nat) : Bytes :=
  overlay w window (padTo 4096 (s.chain window))

/-- A record of a staged set passes its checks (R78): an object's as a written item, a chain's by its length; none is
enciphered. -/
def CfgRecord.staged (r : CfgRecord) : Option StagedItem :=
  match objRow r.key with
  | none =>
    if chainKeys.contains r.key && r.ty == Ty.oct.code && !bit r.flags 0 && decide (r.value.length ≤ 4096) then
      some { key := r.key, val := .oct (padTo 4096 r.value) }
    else none
  | some o =>
    if (o.acc == .ow || o.acc == .rw) && o.persist && !o.secret && !bit r.flags 0 && o.valueCheck r.ty r.value == stOk then
      some { key := r.key, val := decodeVal o.ty r.value }
    else none

/-- The items of a staged configuration set: every persistent object that is not secret and the chains, with the record's
value or the default; none where a check of R78 fails. -/
def setItems (b : Bytes) : Option (List StagedItem) :=
  if !headerOk b || !bodyOk b then none
  else
    let (l, whole) := cfgRecords (fieldN b 16 4) (cfgBody b)
    if !whole || l.any fun r => r.staged.isNone then none
    else
      let given := (l.filterMap CfgRecord.staged).foldl (fun (a : List (Nat × Val)) x => storeIns a x.key x.val) []
      some (setKeys.map fun k => { key := k, val := (storeGet given k).getD (objDefault k) })

/-- The chains that a set's records bring pass their checks (R434). -/
def State.setChainsOk (s : State) (l : List StagedItem) : Bool :=
  l.all fun x => match x.val with
    | .oct b =>
      if x.key = 0x8342 * 256 then chainOk b (s.octs Obj.identity_public_key) false
      else if x.key = 0x8344 * 256 then chainOk b (s.octs Obj.nts_ke_public_key) true
      else true
    | .num _ => true

/-- The bytes of a staged configuration set. -/
def State.stagedSet (s : State) (w : List StagedBulk) : Bytes := overlay w 0x8348 (padTo 1048576 s.configWindow)

/-- R78, R195, R434. -/
def State.windowRules (s : State) (l : List StagedItem) (w : List StagedBulk) (flags : Nat) : List (Bool × Nat) :=
  let set := stages w 0x8348
  [(set && !(s.mode.cur == .sparge && flags % 4 == 2 && l.isEmpty && (w.all fun x => x.index == 0x8348)), stConsistency),
   (stages w 0x8310 && (s.stagedOrbit w).any fun p => !orbOk p.2, stConsistency),
   (stages w 0x8342 && !chainOk (s.stagedChain w 0x8342) (s.octs Obj.identity_public_key) false, stConsistency),
   (stages w 0x8344 && !chainOk (s.stagedChain w 0x8344) (s.octs Obj.nts_ke_public_key) true, stConsistency),
   (set && !(match setItems (s.stagedSet w) with | some l => s.setChainsOk l | none => false), stConsistency)]

/-! ## A commit's checks -/

/-- The items a commit makes effective: those staged, or those of a staged configuration set (R78). -/
def State.commitItems (s : State) (l : List StagedItem) (w : List StagedBulk) : List StagedItem :=
  if stages w 0x8348 then (setItems (s.stagedSet w)).getD [] else l

/-- The cross-object rules of a commit with its flags (R45): the status of the first that fails. -/
def State.rules (s : State) (staged : List StagedItem) (w : List StagedBulk) (flags : Nat) : Nat :=
  let l := s.commitItems staged w
  let t := s.staging l
  firstFail (s.blockRules staged w flags ++ s.windowRules staged w flags ++ s.modeRules l ++ s.timeRules t l ++ t.slotRules l
    ++ t.loopRules l ++ s.outputRules t l ++ t.portRules l ++ t.ptpRules l ++ s.serveRules t l w ++ s.requestRules l
    ++ s.credentialRules t l ++ t.counterRules l)

/-- Every staged object with a confirmation object has it staged with the required value (R41). -/
def confirmed (l : List StagedItem) : Bool :=
  l.all fun x => match objRow x.key with
    | some r => match r.confirm with
      | some (i, sub, v) => stagedNum l (objKey i sub) == some v
      | none => true
    | none => true

/-- A staged object or window lies in a sleeping domain (R23). -/
def State.sleeping (s : State) (l : List StagedItem) (w : List StagedBulk) : Bool :=
  (l.any fun x => match objRow x.key with
    | some r => !s.answers (r.domain (x.key / 256))
    | none => false)
  || bulkRows.any fun r => stages w r.index && !s.answers r.dom

end Sys2Proof.Machine
end

