-- ==== Sys2Proof/Machine/Commit.lean ====
section
/-! DEFINITION. What a commit does when it takes effect (R43, R45, R50): the committed values, the effects their objects
have, the persisted write, enrolment (R355). -/

namespace Sys2Proof.Machine

/-- The state an outcome leaves: the next one, else the one before. -/
def applied (o : Host.Outcome State Fault Refusal) (s : State) : State :=
  match o with
  | .next t => t
  | _ => s

/-- Request objects: a commit acts and the device writes the value back (R458). -/
def requestKeys : List Nat :=
  [Obj.sparge_request, Obj.kiln_request, Obj.cellar_request, Obj.survey_restart, Obj.grist_request, Obj.program_activate,
   Obj.program_counter_clear, Obj.bn_selftest, Obj.fw_verify, Obj.fw_activate, Obj.tamper_latch, Obj.nts_ke_keygen,
   Obj.reset_request, Obj.block_reset_target, Obj.snap_request, Obj.sample_clear, Obj.model_reset]
  ++ (List.range 20).map Obj.align_trigger

/-- Keys whose effect writes them itself. -/
def effectKeys : List Nat :=
  [Obj.nts_master_key, Obj.t_manual_slot, Obj.f_manual_slot] ++ (List.range 20).map Obj.start_time
    ++ (List.range 16).map Obj.cap_ack_seq ++ (List.range 16).map Obj.slot_enable ++ (List.range 16).map Obj.source_kind
    ++ (List.range 16).map Obj.source_number

/-- A committed value that is simply stored: not a request, not one its effect writes, not a write-only word that no one
keeps. -/
def storedPlainly (key : Nat) : Bool :=
  !requestKeys.contains key && !effectKeys.contains key
    && match objRow key with
      | some r => r.acc != .wo || r.secret
      | none => true

/-- A key's value differs between two states. -/
def State.changed (old s : State) (key : Nat) : Bool := old.get key != s.get key

/-! ## Timebase, selection, loops -/

/-- Slot configuration (R119), manual slots (R123), operator entries (R110). -/
def State.slotEffects (s : State) (l : List StagedItem) (due : Option Int := none) : State :=
  let s : State := (List.finRange 16).foldl (fun (s : State) (i : Fin 16) =>
    let en := match stagedNum l (Obj.slot_enable i) with | some v => v != 0 | none => s.slotEnabled i
    let kind := match stagedNum l (Obj.source_kind i) with | some v => v.toNat | none => s.kind i
    let number := match stagedNum l (Obj.source_number i) with | some v => v.toNat | none => s.number i
    let source := stagesKey l (Obj.source_kind i) || stagesKey l (Obj.source_number i)
    if en != s.slotEnabled i || (en && source) then applied (execSlotConfigCommit i en kind number s) s
    else if source then (s.putN (Obj.source_kind i) kind).putN (Obj.source_number i) number
    else s) s
  let s := match stagedNum l Obj.t_manual_slot with
    | some v => applied (execManualSlotArm false v.toNat s) s
    | none => s
  let s := match stagedNum l Obj.f_manual_slot with
    | some v => applied (execManualSlotArm true v.toNat s) s
    | none => s
  let s : State := (List.finRange 16).foldl (fun (s : State) (i : Fin 16) =>
    match stagedNum l (Obj.operator_time i) with
    | some t => s.operatorEntry i t due
    | none => s) s
  if stagesRange l 0x2200 0x2200 || stagesRange l 0x2300 0x23FF then applied (execSelectionEvaluate s) s else s

/-- The copies of seed_limit and keep_drift_bound that the keep island holds, refreshed at every commit of them (R72). -/
def State.keepCopies (s : State) (l : List StagedItem) : State :=
  { s with keep := { s.keep with
      seedLimit := if stagesKey l Obj.seed_limit then s.n Obj.seed_limit else s.keep.seedLimit,
      driftBound := if stagesKey l Obj.keep_drift_bound then s.n Obj.keep_drift_bound else s.keep.driftBound } }

/-- Steering (R137), the owner's step (R96), the model's reset (R142), bandwidths (R135). -/
def State.timeEffects (old s : State) (l : List StagedItem) (session : Nat) (due : Option Int := none) : State :=
  let s := match stagedNum l Obj.steering with
    | some v => applied (execSteering v s) s
    | none => s
  let s := match stagedNum l Obj.step_amount with
    | some a => s.ownerStep a session due
    | none => s
  let s := if requested l Obj.model_reset then applied (execModelReset s) s else s
  (List.finRange 4).foldl (fun (s : State) (d : Fin 4) =>
    if old.changed s (Obj.bw_acquire d) || old.changed s (Obj.bw_track d) then
      let active := if d = 0 then s.selT.active else if d = 1 then s.selF.active else none
      let rate := match active with
        | some i => s.slotRate i
        | none => if 2 ≤ d.val then some 1000000000000 else none
      s.setBandwidth d rate
    else s) s

/-! ## Outputs and captures -/

/-- Objects of an output whose change is a phase jump (R163). -/
def jumpKeys (n : Fin 20) : List Nat :=
  [Obj.out_period n, Obj.out_width n, Obj.out_frequency n, Obj.word_rate n, Obj.output_offset n]

/-- One output (R160, R163, R166, R169). -/
def State.outEffect (old s : State) (l : List StagedItem) (n : Fin 20) : State :=
  let s : State := (jumpKeys n).foldl (fun (s : State) k => if old.changed s k then s.timedWrite n k else s) s
  let s := if old.changed s (Obj.out_slew n) || old.changed s (Obj.dout_level n) then s.padRestart n else s
  let s := match stagedNum l (Obj.start_time n) with
    | some t =>
      if t = s.n (Obj.start_time n) then s
      else s.startSeries n t.toNat (old.nn (Obj.start_count n))
    | none => s
  let off := s.n (Obj.align_mode n) == 0 || s.n (Obj.align_source n) == 0
  let s := if off && s.outs[n].align.on then
      (s.setOut n { s.outs[n] with align := {} }).putB (Obj.align_trigger n) false
    else s
  let s := if requested l (Obj.align_trigger n) then applied (execAlignTrigger n s) s else s
  if s.awake 2 then s.evalOut n else s

/-- Outputs, and the entries of captures that an acknowledgement frees (R175). -/
def State.outEffects (old s : State) (l : List StagedItem) : State :=
  let s : State := (List.finRange 20).foldl (fun (s : State) (n : Fin 20) => if stagesOutput l n then old.outEffect s l n else s) s
  (List.finRange 16).foldl (fun (s : State) (c : Fin 16) =>
    match stagedNum l (Obj.cap_ack_seq c) with
    | some v => applied (execCapAckSeq c v.toNat s) s
    | none => s) s

/-! ## Sky -/

/-- Antenna (R184), position (R214, R215), snapshots (R221), scripts (R183), sample clocks (R180), the width of notches in
force (R188). -/
def State.skyEffects (old s : State) (l : List StagedItem) : State :=
  let s := if stagesKey l Obj.ant_supply_enable then s.updateAnt else s
  let s := if (List.range 3).any fun i => stagesKey l (Obj.fixed_position i) then
      (({ s with sky := { s.sky with posAlarm := false, departs := 0 } } : State).standing.detectors).updateIntegrity
    else s
  let s := if old.changed s Obj.pos_auto_resurvey && s.sky.posAlarm then s.autoResurvey.updateIntegrity else s
  let modeChanged := old.changed s Obj.position_mode
  let s := if requested l Obj.survey_restart || (modeChanged && s.n Obj.position_mode = 0) then applied (execSurveyRestart s) s
    else if modeChanged then s.putN Obj.position_state (if s.n Obj.position_mode = 1 then 3 else 4)
    else s
  let s := match stagedNum l Obj.grist_request with
    | some v => if v = 0 then s else applied (execGristRequest v.toNat s) s
    | none => s
  let s : State := [(0 : Fin 2), 1].foldl (fun (s : State) (b : Fin 2) =>
    let x := s.sky.bands[b]
    let due := x.scriptDue || (stagesKey l (Obj.fespi_script b) && s.awake 3)
    let width := old.changed s (Obj.notch_width b) && (List.finRange 4).any fun k => x.notches[k].freq.isSome
    let s := s.setBand b { x with scriptDue := due }
    if width then s.changeNotches b else s) s
  s.driveClocks

/-! ## Ports and protocols -/

/-- Link configuration (R229, R252), pairs (R243), the module sideband (R256), ports that an instance leaves or takes
(R310, R311). -/
def State.portEffects (old s : State) (l : List StagedItem) : State :=
  let s : State := (List.finRange 64).foldl (fun (s : State) (n : Fin 64) =>
    if stagesKey l (Obj.port_speed n) && old.changed s (Obj.port_speed n) || old.changed s (Obj.port_fec n) then s.newPortMode n
    else if old.changed s (Obj.port_enable n) || old.changed s (Obj.an_enable n) || old.changed s (Obj.los_action n) then s.refreshPort n 3
    else s) s
  let s : State := (List.finRange 64).foldl (fun (s : State) (n : Fin 64) =>
    if old.changed s (Obj.gov_lpi n) && !s.flag (Obj.gov_lpi n) && s.ports[n].lpi.isSome then s.wakeLine n else s) s
  let s : State := (List.finRange 64).foldl (fun (s : State) (n : Fin 64) =>
    if !([Obj.cal_partner n, Obj.cal_interval n, Obj.cal_window n, Obj.cal_apply n, Obj.cal_limit n].any fun k => stagesKey l k) then s
    else if (s.calPairOf n).isSome then
      (s.setPort n { s.ports[n] with calNext := s.now }).clearPair n
    else ((s.putN (Obj.cal_state n) 0).putN (Obj.cal_offset n) 0).putN (Obj.cal_delay n) 0) s
  let s := if old.changed s Obj.sb_enable then
      (if s.flag Obj.sb_enable then ({ s with side := { s.side with next := s.now } } : State) else s.sidebandOff)
    else s
  if !stagesRange l 0x5400 0x54FF then s
  else
    (List.finRange 4).foldl (fun (s : State) (i : Fin 4) =>
      -- another profile, transport or domain is another instance; a port that leaves takes its state with it
      let x := s.prot.insts[i]
      let anew := old.profile i != s.profile i || old.changed s (Obj.transport i) || old.domain i != s.domain i
      let s : State := (List.range 64).foldl (fun (s : State) n => if s.member i n && !anew then s else s.setPtpState i n 0) s
      let s := s.setInst i { x with ports := if anew then [] else x.ports.filter fun p => s.member i p.1,
                                    renewals := if anew then [] else x.renewals }
      let s := s.startListening i
      if s.flag (Obj.inst_enable i) || s.prot.insts[i].parent.isSome then s.runBmca i else s) s

/-! ## Serving, keys, security -/

/-- Programs (R286, R309), serve_quiet (R282). -/
def State.serveEffects (s : State) (l : List StagedItem) (w : List StagedBulk) (persist : Bool) : State :=
  let s := if stagesKey l Obj.serve_quiet && s.serveAwake then s.serveQuiet else s
  let s := if stages w 0x8330 then s.startVerify (overlay w 0x8330 (padTo 65536 s.serve.prog.staging)) else s
  let s := if requested l Obj.program_activate then (s.beginActivation persist).putB Obj.program_activate true else s
  if requested l Obj.program_counter_clear then s.clearCounters else s

/-- A key of an instance or of region B goes to its slot of key RAM (R350); in KILN none is loaded (R81). -/
def State.loadCommitted (s : State) (l : List StagedItem) (key slot : Nat) : State :=
  if stagesKey l key && s.mode.cur ≠ .kiln then s.setKeySlot slot (s.octs key) else s

/-- Keys (R328, R350), the self-test (R343), verification (R358), tamper (R352), debug access (R362). -/
def State.securityEffects (s : State) (l : List StagedItem) (session : Nat) : State :=
  let s := match l.find? fun x => x.key == Obj.nts_master_key with
    | some { key := _, val := .oct k } => s.commitMaster k
    | _ => s
  let s := (List.range 4).foldl (fun (s : State) i => s.loadCommitted l (Obj.sec_key i) (11 + i)) s
  let s := (List.range 32).foldl (fun (s : State) k => s.loadCommitted l (Obj.rb_key k) (16 + k)) s
  let s := if requested l Obj.nts_ke_keygen then s.keGenerate else s
  let s := if requested l Obj.bn_selftest then (s.putB Obj.bn_selftest true).bnTest 1 else s
  let s := if requested l Obj.fw_verify then (s.putN Obj.fw_staged_status 2).putB Obj.fw_verify true else s
  let s := if stagedNum l Obj.tamper_latch = some 0 && s.flag Obj.tamper_latch then s.clearTamper session else s
  match l.find? fun x => x.key == Obj.debug_response with
  | some { key := _, val := .oct r } => s.debugRespond r
  | _ => s

/-- The windows but the set's (R195, R434). -/
def State.windowEffects (s : State) (w : List StagedBulk) : State :=
  let s := if !stages w 0x8310 then s
    else
      (s.stagedOrbit w).foldl (fun (s : State) p =>
        let r := p.2
        let r := if orbKind r = 0 then r
          else orbRecord (orbKind r) (orbSat r) (orbMessage r) 64 (orbIssue r) (orbRef r) (orbContent r)
        ({ s with sky := { s.sky with orbit := orbPut s.sky.orbit p.1 r } } : State)) s
  let put := fun (s : State) (i : Nat) => if stages w i then s.put (i * 256) (.oct (s.stagedChain w i)) else s
  put (put s 0x8342) 0x8344

/-! ## Counters, modes, resets -/

/-- Snapshots and samples (R412, R420). -/
def State.counterEffects (s : State) (l : List StagedItem) : State :=
  let s := if requested l Obj.snap_request then applied (execSnapRequest s) s else s
  if requested l Obj.sample_clear then applied (execSampleClear s) s else s

/-- A commit of reset_request (R392): 10 ms after an immediate one, at once for a scheduled one. -/
def State.resetEffect (s : State) (l : List StagedItem) (atOnce : Bool) : State :=
  match stagedNum l Obj.reset_request with
  | some v =>
    if v = 0 then s
    else
      let s : State := { s with sys := { s.sys with cmd := some (if v = 1 then 3 else 2, if atOnce then s.now else s.now + ticksMs 10) } }
      s.putN Obj.reset_request v
  | none => s

/-- The mode (R66, R76, R80, R82), the status pins (R68), an activation of firmware (R358). -/
def State.modeEffects (s : State) (l : List StagedItem) : State :=
  let s := if stagesKey l Obj.serve_in_flat then s.drivePins else s
  let s := if stagedNum l Obj.steep_hold = some 0 && s.mode.cur == .steep && s.mode.bringupDone then s.toMash 1 else s
  let s := match stagedNum l Obj.sparge_request with
    | some v => if v = 0 then s.leaveSparge true else s.enterSparge
    | none => s
  let s := if requested l Obj.fw_activate then s.activateFirmware else s
  let s := if requested l Obj.kiln_request then s.enterKiln else s
  if requested l Obj.cellar_request then s.enterCellar else s

/-! ## The persisted write (R50, R286) -/

/-- The write of the committed values to the inactive bank begins: secrets only where the storage cipher has a key. The
image of an activating commit goes with the set, else the one the set in force holds. -/
def State.startPersist (s : State) : State :=
  let before := s.flash.activeBank.map fun p => p.2
  let program := if s.serve.prog.activateAt.isSome && s.serve.prog.persistIt then s.serve.prog.activating
    else before.bind fun b => b.program
  let sequence := match before with | some b => (b.sequence + 1) % 2 ^ 32 | none => 1
  let (records, s) := State.recordsOf (s.obj.filter fun p => persistKey p.1) s
  let set : CfgSet := { sequence, generation := s.nn Obj.generation, records, program }
  ({ s with ool := { s.ool with persisting := some { set, since := s.now } } } : State).putN Obj.persist_state 1

/-- Enrolment completes (R355): code 0x140D. -/
def State.enrol (s : State) : State :=
  if s.flash.enrolled || !s.hasCredential then s
  else ({ s with flash := { s.flash with enrolled := true } } : State).logSec 0x140D []

/-- PERSIST_WRITE_COMPLETE (R50, R51): the inactive bank becomes active, or the write or its read-back failed. DESIGN CHOICE
(log entry 144): where no bank holds a valid set, the spec names no inactive one; the set goes to bank 0. -/
def execPersistWriteComplete (ok : Bool) (s : State) : Host.Outcome State Fault Refusal :=
  match s.ool.persisting with
  | none => .next s
  | some p =>
    if s.sys.scope.isSome then .next s
    else
      let second : Bool := match s.flash.activeBank with | some (k, _) => k == 0 | none => false
      let bank : CfgBank := if ok then p.set.bank else {}
      let f := if second then { s.flash with cfg1 := bank } else { s.flash with cfg0 := bank }
      let s : State := { s with flash := f, ool := { s.ool with persisting := none } }
      let s := s.putN Obj.persist_state 0
      if ok then .next ((s.putN Obj.active_bank (if second then 1 else 0)).putN Obj.persist_generation p.set.generation)
      else .next (s.bump Obj.persist_fail)

/-! ## A commit takes effect -/

/-- A commit takes effect whole (R45): the values, the generation, the effects, and with the persist flag the persisted
write. `session` is the number of the session that committed; `due` the time of a scheduled commit, at whose first tick
the timed objects act (R48). -/
def State.takeEffect (s : State) (staged : List StagedItem) (w : List StagedBulk) (flags session : Nat)
    (due : Option Int := none) : State :=
  let l := s.commitItems staged w
  let persist := bit flags 1
  let old := s
  let s := (s.staging (l.filter fun x => storedPlainly x.key)).bump Obj.generation
  let s := (old.timeEffects (s.slotEffects l due) l session due).keepCopies l
  let s := old.outEffects s l
  let s := old.skyEffects s l
  let s := old.portEffects s l
  let s := ((s.serveEffects l w persist).securityEffects l session).windowEffects w
  let s := if persist then s.enrol.startPersist else s
  ((s.counterEffects l).resetEffect l (bit flags 0)).modeEffects l

/-! ## Scheduled commits (R48, R49) -/

/-- Put a scheduled commit among others by time; one of equal time goes after them. -/
def schedIns (c : Sched) : List Sched → List Sched
  | [] => [c]
  | d :: r => if c.time < d.time then c :: d :: r else d :: schedIns c r

/-- The order of execution: by time, then by acceptance. -/
def schedOrder (l : List Sched) : List Sched := l.foldl (fun a c => schedIns c a) []

/-- The status of a scheduled commit at its execution (R46, R48). -/
def State.schedStatus (s : State) (c : Sched) : Nat :=
  let st := s.rules c.items c.bulk c.flags
  if s.sleeping c.items c.bulk then stAsleep
  else if st ≠ stOk then st
  else if bit c.flags 2 && s.n Obj.generation != (c.expected : Int) then stGeneration
  else 0

/-- A scheduled commit executes: it takes effect, or fails whole with code 0x1104. -/
def State.runSched (s : State) (c : Sched) : State :=
  let s : State := { s with sched := s.sched.filter fun d => d.id ≠ c.id }
  let st := s.schedStatus c
  if st = stOk then s.takeEffect c.items c.bulk c.flags c.session (some c.time)
  else ((s.log 0 0x1104 (beNat 4 c.id ++ beNat 1 st ++ be 8 (c.time / unitsPerS))).bump Obj.sched_failed_count).dropLostStep

/-- The scheduled commits that are due execute, in their order; one that a commit before it moved out of reach waits. -/
def State.runDue (s : State) : State :=
  (schedOrder (s.sched.filter fun c => s.schedDue c)).foldl (fun (s : State) c => if s.schedDue c then s.runSched c else s) s

/-- An item's object, its value's length and encoding, its domain (R458, R23) are such that a commit could hold it. -/
def State.itemOk (s : State) (i sub : Nat) (value : Bytes) : Option StagedItem :=
  match objRow (objKey i sub) with
  | none => none
  | some r => (s.writeCheck true i sub r.ty.code value).2

/-- OBJECT_WRITE (R45): an immediate commit of one value takes effect, without a session; where a rule fails nothing
changes. -/
def execObjectWrite (index sub : Nat) (value : Bytes) (s : State) : Host.Outcome State Fault Refusal :=
  match s.itemOk index sub value with
  | none => .next s
  | some x =>
    let block := x.key == Obj.block_reset_target
    let s := if s.firmwareUp then s.runDue else s
    if !s.firmwareUp || block || !confirmed [x] || s.rules [x] [] 0 ≠ stOk then .next s
    else .next (s.takeEffect [x] [] 0 255)

end Sys2Proof.Machine
end

