-- ==== Sys2Proof/Machine/Agent.lean ====
section
/-! DEFINITION. The dictionary agent: frames in order, sequences (R52-R54, R57, R460), session setup (R55, R56, R459), the
closing of sessions, host SPI transactions (R447). -/

namespace Sys2Proof.Machine

/-! ## Fields of a frame (R52) -/

def frOpcode (b : Bytes) : Nat := fieldN b 3 1
def frId (b : Bytes) : Nat := fieldN b 4 4
def frSeq (b : Bytes) : Nat := fieldN b 8 8
def frLen (b : Bytes) : Nat := fieldN b 16 2
def frPayload (b : Bytes) : Bytes := field b 20 (frLen b)

/-- The tag is right: under the session's frame key, or zero with session identifier 0. -/
def frTagOk (key : Option Bytes) (b : Bytes) : Bool := field b (20 + frLen b) 32 == oolTag key (b.take (20 + frLen b))

/-! ## Payloads (R460) -/

/-- The items of a WRITE: index, subindex, type, value; none where the lengths do not account for every byte. -/
def writeItems : Nat → Bytes → Option (List (Nat × Nat × Nat × Bytes))
  | 0, b => if b = [] then some [] else none
  | fuel + 1, b =>
    if b = [] then some []
    else
      let n := fieldN b 4 2
      if b.length < 6 + n then none
      else (writeItems fuel (b.drop (6 + n))).map fun r => (fieldN b 0 2, fieldN b 2 1, fieldN b 3 1, field b 6 n) :: r

/-- The opcodes a session may send. -/
def knownOpcode (c : Nat) : Bool :=
  [0x02, 0x03, 0x04, 0x10, 0x11, 0x12, 0x13, 0x14, 0x20, 0x21, 0x22, 0x23, 0x30, 0x31, 0x32, 0x33, 0x34].contains c

/-- A session request's payload fits its opcode. -/
def payloadFits (c : Nat) (p : Bytes) : Bool :=
  match c with
  | 0x04 | 0x20 | 0x31 | 0x34 => p.isEmpty
  | 0x11 => p.length == 2
  | 0x22 | 0x23 | 0x32 => p.length == 4
  | 0x13 => p.length == 12
  | 0x30 | 0x33 => p.length == 16
  | 0x21 => p.length == 30
  | 0x10 => 4 ≤ p.length && p.length ≤ 256 && p.length % 4 == 0
  | 0x12 => match writeItems p.length (p.drop 4) with
    | some l => 4 ≤ p.length && !l.isEmpty
    | none => false
  | 0x14 => 15 ≤ p.length
  | _ => true

/-- A scheduled COMMIT whose time has a nanoseconds field out of range: the frame is discarded (R9). -/
def badTime (c : Nat) (p : Bytes) : Bool :=
  c == 0x21 && p.length == 30 && bit (fieldN p 4 1) 0 && decide (999999999 < fieldN p 24 4)

/-! ## Sequences (R57) -/

/-- What R57 does with a sequence: executes it, answers it from the cache, discards it. -/
inductive SeqFate where
  | fresh | again | stale
deriving DecidableEq, Repr

def seqFate (hi : Nat) (seen : List Nat) (cache : List Cached) (seq : Nat) : SeqFate :=
  if cache.any fun c => c.seq == seq then .again
  else if hi < seq || (seq < hi && hi ≤ seq + 64 && !seen.contains seq) then .fresh
  else .stale

/-- The highest sequence and those seen within 64 below it, once a sequence is accepted; the cache with room for it. -/
def seqHi (hi seq : Nat) : Nat := max hi seq
def seqSeen (hi : Nat) (seen : List Nat) (seq : Nat) : List Nat := (seq :: seen).filter fun x => seqHi hi seq ≤ x + 64
def seqCache (cache : List Cached) (seq : Nat) : List Cached := ({ seq, frames := [] } :: cache).take 8

/-- The cached frames of a sequence. -/
def cachedFrames (cache : List Cached) (seq : Nat) : List Bytes :=
  match cache.find? fun c => c.seq == seq with
  | some c => c.frames
  | none => []

/-- A session's request is accepted. -/
def State.accept (s : State) (k : Fin 32) (x : Session) (seq : Nat) : State :=
  (s.setSession k (some { x with hi := seqHi x.hi seq, seen := seqSeen x.hi x.seen seq, cache := seqCache x.cache seq,
                                 lastAt := s.now })).count 8 0x07

/-- Replace a setup; remove one. -/
def State.setSetup (s : State) (x : Setup) : State :=
  { s with ool := { s.ool with setups := s.ool.setups.map fun y => if y.id = x.id then x else y } }

def State.dropSetup (s : State) (id : Nat) : State :=
  { s with ool := { s.ool with setups := s.ool.setups.filter fun y => y.id ≠ id } }

/-- A setup's frame is accepted: the setup afterwards. -/
def Setup.accept (x : Setup) (seq : Nat) : Setup :=
  { x with hi := seqHi x.hi seq, seen := seqSeen x.hi x.seen seq, cache := seqCache x.cache seq }

/-- Answer a setup's frame: cached and sent. -/
def State.answerSetup (s : State) (x : Setup) (i : RxItem) (status : Nat) (payload : Bytes) : State :=
  let seq := frSeq i.frame
  let l := oolResponse (some x.key) (frOpcode i.frame) x.id seq status payload
  (s.setSetup { x with cache := cacheAdd x.cache seq l }).sendFrames i.path i.hdr l

/-- Answer a HELLO without starting a setup. -/
def State.refuseHello (s : State) (i : RxItem) (status : Nat) : State :=
  s.sendOol i.path i.hdr (oolFrame none 0x01 0 (frSeq i.frame) true status [])

/-! ## What becomes of a frame -/

/-- A frame the agent takes is settled without a command, or is a HELLO, a setup's CERT or FINISH, a session's request. -/
inductive Fate where
  | settled (s : State)
  | hello
  | setup (x : Setup)
  | request (k : Fin 32) (x : Session)
deriving DecidableEq, Repr

/-- The proof's length by the leaf's algorithm; none where the client's chain has no leaf. -/
def Setup.proofLength (x : Setup) : Option Nat :=
  if x.method = 1 then some 32
  else match Config.leafKey x.chain with
    | some (1, _) => some 96
    | some _ => some 64
    | none => none

/-- A CERT or FINISH fits (R460). -/
def Setup.fits (x : Setup) (c : Nat) (p : Bytes) : Bool :=
  if c = 0x02 then 5 ≤ p.length
  else match x.proofLength with
    | some n => p.length == n
    | none => true

/-- A setup that no pre-shared-key entry backs (R56): its FINISH fails with AUTH_FAILED whatever its tag. -/
def Setup.unknown (x : Setup) : Bool := x.method == 1 && !x.owner && !x.extended

/-- A frame of a setup in progress. A frame whose tag fails is discarded and counted (R57), the FINISH of a setup with an
unknown psk_id apart (R56). A CERT of a method 1 setup, which has no step 3, is answered ACCESS_DENIED. -/
def State.setupFate (s : State) (i : RxItem) (x : Setup) : Fate :=
  let c := frOpcode i.frame
  let seq := frSeq i.frame
  if c ≠ 0x02 && c ≠ 0x03 then .settled (s.bump Obj.ool_replay)
  else if !frTagOk (some x.key) i.frame then (if c = 0x03 && x.unknown then .setup x else .settled (s.bump Obj.ool_auth_fail))
  else
    match seqFate x.hi x.seen x.cache seq with
    | .again => .settled (s.sendFrames i.path i.hdr (cachedFrames x.cache seq))
    | .stale => .settled (s.bump Obj.ool_replay)
    | .fresh =>
      if !x.fits c (frPayload i.frame) then .settled ((s.bump Obj.ool_malformed).answerSetup (x.accept seq) i stReserved [])
      else if c = 0x02 && x.method = 1 then .settled (s.answerSetup (x.accept seq) i stDenied [])
      else .setup x

/-- A setup's frame types fit in an open session (R460): CERT, FINISH by the session's proof length, HELLO; every other
opcode by its own length. -/
def Session.fits (x : Session) (c : Nat) (p : Bytes) : Bool :=
  if c = 0x01 then p.length == 60
  else if c = 0x02 then 5 ≤ p.length
  else if c = 0x03 then p.length == x.proof
  else payloadFits c p

/-- A frame of an open session: its tag, its sequence, its payload's length, its opcode. DESIGN CHOICE (log entry 118): a
HELLO under a session's identifier is answered RESERVED_ENCODING as an opcode that no session sends, CERT and FINISH
ACCESS_DENIED. -/
def State.sessionFate (s : State) (i : RxItem) (k : Fin 32) (x : Session) : Fate :=
  let c := frOpcode i.frame
  let seq := frSeq i.frame
  let p := frPayload i.frame
  if !frTagOk (some x.key) i.frame then .settled (s.bump Obj.ool_auth_fail)
  else
    match seqFate x.hi x.seen x.cache seq with
    | .again => .settled (s.sendFrames i.path i.hdr (cachedFrames x.cache seq))
    | .stale => .settled (s.bump Obj.ool_replay)
    | .fresh =>
      if badTime c p then .settled (s.bump Obj.ool_malformed)
      else if !x.fits c p then
        .settled (((s.bump Obj.ool_malformed).accept k x seq).answer k i.path i.hdr c seq stReserved [])
      else if !knownOpcode c then .settled ((s.accept k x seq).answer k i.path i.hdr c seq stReserved [])
      else if c = 0x02 || c = 0x03 then .settled ((s.accept k x seq).answer k i.path i.hdr c seq stDenied [])
      else .request k x

/-- A frame the agent takes, already off its queue. Address resolution holds no OOL frame. -/
def State.fate (s : State) (i : RxItem) : Fate :=
  let b := i.frame
  if b = [] then .settled s
  else if oolMalformed b then .settled (s.bump Obj.ool_malformed)
  else if frId b = 0 then
    if frOpcode b ≠ 0x01 then .settled (s.bump Obj.ool_replay)
    else if !frTagOk none b then .settled (s.bump Obj.ool_auth_fail)
    else if frLen b ≠ 60 then .settled ((s.bump Obj.ool_malformed).refuseHello i stReserved)
    else .hello
  else
    match s.ool.setups.find? fun x => x.id == frId b with
    | some x => s.setupFate i x
    | none =>
      match s.sessionOf (frId b) with
      | some (k, x) => s.sessionFate i k x
      | none => .settled (s.bump Obj.ool_replay)

/-! ## The frame that is next (R62, R447) -/

/-- The agent serves: the control domain runs, OOL is open (R71 step 6, R388 step 5). -/
def State.agentUp (s : State) : Bool := s.firmwareUp && !s.macDown && 6 ≤ s.sys.step

/-- Take the next frame: host SPI while fewer than 16 device frames are pending, then ring 0, then ring 1. -/
def State.nextRx (s : State) : Option (RxItem × State) :=
  let o := s.ool
  match (if o.spiOut.length < 16 then o.spiQ else []), o.ring0, o.ring1 with
  | i :: _, _, _ => some (i, { s with ool := { o with spiQ := o.spiQ.drop 1 } })
  | [], i :: r, _ => some (i, { s with ool := { o with ring0 := r } })
  | [], [], i :: r => some (i, { s with ool := { o with ring1 := r } })
  | [], [], [] => none

/-- Settle the frames at the front that need no command, at most `fuel`. -/
def State.settleRx : Nat → State → State
  | 0, s => s
  | fuel + 1, s =>
    match s.nextRx with
    | none => s
    | some (i, t) =>
      match t.fate i with
      | .settled u => State.settleRx fuel u
      | _ => s

/-- Frames waiting for the agent. -/
def State.waiting (s : State) : Nat := s.ool.spiQ.length + s.ool.ring0.length + s.ool.ring1.length

/-- The agent begins a command: the frames before the next command are settled. -/
def State.agentBegin (s : State) : State :=
  let s : State := { s with ool := { s.ool with mgmtOut := [] } }
  s.settleRx s.waiting

/-- A request of a session that the agent carries out. -/
structure Req where
  k : Fin 32
  path : Path
  hdr : Bytes
  opcode : Nat
  seq : Nat
  payload : Bytes
deriving DecidableEq, Repr

/-- The request at the front and the state that has accepted it. -/
def State.nextReq (s : State) : Option (State × Req) :=
  match s.nextRx with
  | none => none
  | some (i, t) =>
    match t.fate i with
    | .request k x =>
      let seq := frSeq i.frame
      some (t.accept k x seq, { k, path := i.path, hdr := i.hdr, opcode := frOpcode i.frame, seq, payload := frPayload i.frame })
    | _ => none

/-- A session command: the agent carries out the next request where it has the command's opcode. -/
def State.serveReq (s : State) (opcode : Nat) (f : State → Req → State) : State :=
  if !s.agentUp then s
  else
    let s := s.agentBegin
    match s.nextReq with
    | some (t, r) => if r.opcode = opcode then f t r else s
    | none => s

/-- Answer a request. -/
def State.reply (s : State) (r : Req) (status : Nat) (payload : Bytes) (more : Bool := false) : State :=
  s.answer r.k r.path r.hdr r.opcode r.seq status payload more

/-! ## HELLO (R55, R56, R354, R355) -/

/-- A session identifier in use. -/
def State.idUsed (s : State) (id : Nat) : Bool := s.ool.setups.any (fun x => x.id == id) || (s.sessionOf id).isSome

/-- A session identifier from the random-number source: a draw that is 0 or in use is drawn again. -/
def State.newId : Nat → State → Nat × State
  | 0, s => ((((List.range 66).map (· + 1)).find? fun k => !s.idUsed k).getD 1, s)
  | fuel + 1, s =>
    let (r, s) := s.random 4
    let id := fieldN r 0 4
    if id = 0 || s.idUsed id then State.newId fuel s else (id, s)

/-- The enabled entry a psk_id names: one with rights and a key. -/
def State.pskEntry (s : State) (id : Nat) : Option Nat :=
  (List.range 32).find? fun e => s.n (Obj.psk_rights e) != 0 && s.nn (Obj.psk_id e) == id && s.octs (Obj.psk_key e) != []

/-- The secret of a psk_id and its rights: of an entry; before enrolment the zero key of psk_id 0, off the ports; else a
random one, without rights. -/
def State.pskSecret (s : State) (id : Nat) (path : Path) : (Bytes × Option Nat × Nat) × State :=
  let inband := match path with | .inband _ => true | _ => false
  if !s.flash.enrolled && id = 0 && !inband then ((List.replicate 32 0, none, 3), s)
  else
    match s.pskEntry id with
    | some e => ((s.octs (Obj.psk_key e), some e, s.nn (Obj.psk_rights e)), s)
    | none =>
      let (r, s) := s.random 32
      ((r, none, 0), s)

/-- The frame key (R56). -/
def frameKey (secret cnonce dnonce : Bytes) (id : Nat) : Bytes :=
  hmacSha256 secret (beNat 4 0x4F4F4C31 ++ cnonce ++ dnonce ++ beNat 4 id)

/-- A setup fails (R56): counted, code 0x1408. -/
def State.setupFailed (s : State) (method cause : Nat) : State :=
  (s.bump Obj.ool_auth_fail).logSec 0x1408 (beNat 1 method ++ beNat 1 cause)

/-- A setup starts. -/
def State.addSetup (s : State) (x : Setup) : State := { s with ool := { s.ool with setups := s.ool.setups ++ [x] } }

/-- HELLO by a pre-shared key. -/
def State.helloPsk (s : State) (i : RxItem) : State :=
  let p := frPayload i.frame
  let ((secret, psk, rights), s) := s.pskSecret (fieldN p 2 2) i.path
  let (id, s) := s.newId 64
  let (dnonce, s) := s.random 16
  let dnonce := field dnonce 0 16
  let f := oolFrame none 0x01 0 (frSeq i.frame) true stOk (beNat 4 id ++ dnonce ++ List.replicate 32 0)
  let x : Setup :=
    { id, key := frameKey secret (field p 4 16) dnonce id, method := 1, path := i.path, hdr := i.hdr, node := fieldN p 20 8, psk,
      owner := bit rights 0, extended := bit rights 1, hello := i.frame ++ f, startedAt := s.now }
  (s.addSetup x).sendOol i.path i.hdr f

/-- The length in bytes of a DER value. -/
def derLength (b : Bytes) : Nat :=
  let n := fieldN b 1 1
  if n < 128 then 2 + n else 2 + (n - 128) + fieldN b 2 (n - 128)

/-- The length of certificates laid end to end, zeros after the last. -/
def chainLength : Nat → Bytes → Nat
  | 0, _ => 0
  | fuel + 1, b => if fieldN b 0 1 = 0 then 0 else derLength b + chainLength fuel (b.drop (derLength b))

/-- A chain in CERT frames: offset and a chunk of at most 1396 bytes. -/
def certFrames (key : Bytes) (id seq : Nat) (chain : Bytes) : List Bytes :=
  let n := (chain.length + 1395) / 1396
  (List.range n).map fun k =>
    oolFrame (some key) 0x02 id seq (k + 1 == n) stOk (beNat 4 (1396 * k) ++ (chain.drop (1396 * k)).take 1396)

/-- HELLO by certificate: the device's key share, its signature over steps 1 and 2, then its identity chain. `sigBad`: the
signature fails its verification and is withheld (R341). -/
def State.helloCert (s : State) (i : RxItem) (sigBad : Bool) : State :=
  let p := frPayload i.frame
  let seq := frSeq i.frame
  match s.keySlot 0 with
  | none => (s.setupFailed 2 0).refuseHello i stAuthFailed
  | some identity =>
    if s.bn.failed || s.sec.storageOff || s.mode.cur == .kiln then (s.setupFailed 2 0).refuseHello i stAuthFailed
    else
      let (priv, s) := s.random 32
      let client := field p 28 32
      if !pointOk 0 priv client then ((s.pointInvalid 0).setupFailed 2 0).refuseHello i stAuthFailed
      else if sigBad then ((s.withhold 1 1).setupFailed 2 0).refuseHello i stAuthFailed
      else
        let (id, s) := s.newId 64
        let (dnonce, s) := s.random 16
        let dnonce := field dnonce 0 16
        let (draw, s) := s.random 48
        let pre := beNat 4 id ++ dnonce ++ field (x25519Public priv) 0 32
        let head := (oolFrame none 0x01 0 seq true stOk (pre ++ List.replicate 96 0)).take (20 + pre.length)
        let f := oolFrame none 0x01 0 seq true stOk (pre ++ field (signWith 1 identity (i.frame ++ head) draw) 0 96)
        let key := frameKey (x25519 priv client) (field p 4 16) dnonce id
        let chain := s.chain 0x8342
        let certs := certFrames key id seq (chain.take (chainLength chain.length chain))
        let x : Setup :=
          { id, key, method := 2, path := i.path, hdr := i.hdr, node := fieldN p 20 8, hello := i.frame ++ f, certs := certs.flatten,
            startedAt := s.now }
        (s.addSetup x).sendFrames i.path i.hdr (f :: certs)

/-- A HELLO: its method, the limits, then the setup. One of a reserved method is discarded and counted (R7): no chapter
states another handling. -/
def State.runHello (s : State) (i : RxItem) (sigBad : Bool) : State :=
  let method := fieldN (frPayload i.frame) 0 1
  let full := 32 ≤ (s.ool.sessions.toList.filter fun x => x.isSome).length || 32 ≤ s.ool.setups.length
  if method ≠ 1 && method ≠ 2 then s.bump Obj.ool_malformed
  else if full then s.refuseHello i stSessionLimit
  else if method = 1 then s.helloPsk i
  else s.helloCert i sigBad

/-- HELLO (R55): the agent takes the next frame where it is a HELLO. -/
def execHello (sigBad : Bool) (s : State) : Host.Outcome State Fault Refusal :=
  if !s.agentUp then .next s
  else
    let s := s.agentBegin
    match s.nextRx with
    | some (i, t) =>
      match t.fate i with
      | .hello => .next (t.runHello i sigBad)
      | _ => .next s
    | none => .next s

/-! ## CERT and FINISH (R55, R354, R459) -/

/-- A chunk of the client's chain: its bytes laid at their offset. -/
def State.runCert (s : State) (i : RxItem) (x : Setup) : State :=
  let p := frPayload i.frame
  let seq := frSeq i.frame
  let off := fieldN p 0 4
  let x := x.accept seq
  let chain := patch (x.chain ++ List.replicate (off - x.chain.length) 0) off (p.drop 4)
  let answer := oolResponse (some x.key) 0x02 x.id seq stOk (field p 0 4)
  s.answerSetup { x with chain, certs := x.certs ++ i.frame ++ answer.flatten } i stOk (field p 0 4)

/-- The rights a setup's proof gives: the cause of its failure, or the rights (R354). -/
def State.proofRights (s : State) (x : Setup) (proof : Bytes) : Except Nat Nat :=
  if x.method = 1 then
    if x.unknown then .error 3
    else if field (hmacSha256 x.key x.hello) 0 32 == proof then
      .ok ((if x.owner then 1 else 0) + if x.extended then 2 else 0)
    else .error 0
  else
    let time := if s.n Obj.timing_condition = 0 then none else some (s.time / unitsPerS)
    let anchor := (List.range 8).find? fun a =>
      s.n (Obj.anchor_rights a) != 0 && s.octs (Obj.anchor_cert a) != [] && Config.chainReaches x.chain (s.octs (Obj.anchor_cert a)) time
    match Config.leafKey x.chain, anchor with
    | some (alg, key), some a =>
      if sigVerify alg key (x.hello ++ x.certs) proof then .ok (s.nn (Obj.anchor_rights a)) else .error 0
    | _, _ => .error 1

/-- The code of a path in the journal (R63). -/
def pathCode : Path → Nat
  | .mgmt => 0
  | .inband _ => 1
  | .spi => 2

/-- A session opens (R55, R60, R63): the lowest free number; the FINISH is its first accepted request. -/
def State.openSession (s : State) (k : Fin 32) (i : RxItem) (x : Setup) (rights : Nat) : State :=
  let seq := frSeq i.frame
  let x := x.accept seq
  let y : Session :=
    { id := x.id, key := x.key, method := x.method, path := x.path, hdr := x.hdr, node := x.node, owner := bit rights 0,
      extended := bit rights 1, localAuth := x.path == .spi && s.flag Obj.local_authority_enable,
      port := s.nn Obj.ool_udp_port, psk := x.psk, proof := frLen i.frame, hi := x.hi, seen := x.seen, cache := x.cache, lastAt := s.now }
  let s := (((s.dropSetup x.id).setSession k (some y)).countSessions).count 8 0x07
  let s := s.log (0x0700 + k.val) 0x1102 (beNat 1 x.method ++ beNat 1 (rights % 4) ++ beNat 1 (pathCode x.path) ++ beNat 8 x.node)
  s.answer k i.path i.hdr 0x03 seq stOk []

/-- A FINISH: its proof, then the session limit. -/
def State.runFinish (s : State) (i : RxItem) (x : Setup) : State :=
  let refuse := fun (s : State) (status : Nat) =>
    (s.dropSetup x.id).sendFrames i.path i.hdr (oolResponse (some x.key) 0x03 x.id (frSeq i.frame) status [])
  match s.proofRights x (frPayload i.frame) with
  | .error c => refuse (s.setupFailed x.method c) stAuthFailed
  | .ok rights =>
    match (List.finRange 32).find? fun k => s.ool.sessions[k].isNone with
    | none => refuse s stSessionLimit
    | some k => s.openSession k i x rights

/-- A setup command: the next frame where it is a setup's with the command's opcode. -/
def State.serveSetup (s : State) (opcode : Nat) (f : State → RxItem → Setup → State) : State :=
  if !s.agentUp then s
  else
    let s := s.agentBegin
    match s.nextRx with
    | some (i, t) =>
      match t.fate i with
      | .setup x => if frOpcode i.frame = opcode then f t i x else s
      | _ => s
    | none => s

/-- CERT (R55). -/
def execCert (s : State) : Host.Outcome State Fault Refusal := .next (s.serveSetup 0x02 State.runCert)

/-- FINISH (R55). -/
def execFinish (s : State) : Host.Outcome State Fault Refusal := .next (s.serveSetup 0x03 State.runFinish)

/-- SETUP_TIMEOUT (R56): setups not finished within 5 s. -/
def execSetupTimeout (s : State) : Host.Outcome State Fault Refusal :=
  let late := fun (x : Setup) => decide (x.startedAt + ticksS 5 ≤ s.now)
  if !s.firmwareUp then .next s
  else
    let gone := s.ool.setups.filter late
    let s : State := { s with ool := { s.ool with setups := s.ool.setups.filter fun x => !late x } }
    .next (gone.foldl (fun (s : State) x => s.setupFailed x.method (if x.unknown then 3 else 2)) s)

/-! ## Closing (R57) -/

/-- CLOSE (R57): answered, then the session closes. -/
def execClose (s : State) : Host.Outcome State Fault Refusal :=
  .next (s.serveReq 0x04 fun s r => (s.reply r stOk []).closeSession r.k 0)

/-- SESSION_IDLE_TIMEOUT (R57): sessions without an accepted request for session_idle_timeout. -/
def execSessionIdleTimeout (s : State) : Host.Outcome State Fault Refusal :=
  let limit := ticksS (s.nn Obj.session_idle_timeout)
  let idle := fun (k : Fin 32) => match s.ool.sessions[k] with
    | some x => decide (x.lastAt + limit ≤ s.now)
    | none => false
  if !s.firmwareUp then .next s
  else .next (((List.finRange 32).filter idle).foldl (fun (s : State) k => s.closeSession k 1) s)

/-! ## Host SPI transactions (R447) -/

/-- HOST_SPI_WRITE (R447): the bytes of one low period of HSPI_CSn, from the envelope on. -/
def execHostSpiWrite (bytes : Bytes) (s : State) : Host.Outcome State Fault Refusal :=
  if !s.agentUp then .next s
  else if bytes.length < 4 || fieldN bytes 0 1 ≠ 0x5A || bit (fieldN bytes 1 1) 7 || fieldN bytes 2 2 + 4 ≠ bytes.length then
    .next (s.bump Obj.ool_malformed)
  else if 16 ≤ s.ool.spiQ.length then .next s
  else .next { s with ool := { s.ool with spiQ := s.ool.spiQ ++ [{ path := .spi, frame := bytes.drop 4 }] } }

/-- HSPI_INTn is low: a device frame is pending. -/
def State.hspiInt (s : State) : Bool := !s.ool.spiOut.isEmpty

/-- HOST_SPI_READ (R447): a read of `clocked` bytes; the oldest pending frame counts as read when it was sent whole. -/
def execHostSpiRead (clocked : Nat) (s : State) : Host.Outcome State Fault Refusal :=
  if !s.agentUp then .next s
  else
    match s.ool.spiOut with
    | [] => .next { s with ool := { s.ool with spiMiso := List.replicate (clocked - 4) 0 } }
    | f :: r =>
      .next { s with ool := { s.ool with spiMiso := field (spiEnvelope f ++ f) 0 (clocked - 4),
                                         spiOut := if 8 + f.length ≤ clocked then r else f :: r } }

end Sys2Proof.Machine
end

