-- ==== Sys2Proof/Machine/Election.lean ====
section
/-! DEFINITION. The owner's election: claims, the lease, handovers (R58-R60). -/

namespace Sys2Proof.Machine

/-- The lease restarts: 3 s (R58). -/
def State.renewLease (s : State) : State := { s with ool := { s.ool with leaseEnd := s.now + ticksS 3 } }

/-- A session's rights: owner-eligible; local authority. -/
def State.eligible (s : State) (k : Fin 32) : Bool := match s.ool.sessions[k] with | some x => x.owner | none => false
def State.localAuth (s : State) (k : Fin 32) : Bool := match s.ool.sessions[k] with | some x => x.localAuth | none => false

/-- The payload of an answer to a CLAIM: 0 won, 1 lost, 2 pending; the winner's node_id. -/
def claimResult (r node : Nat) : Bytes := beNat 1 r ++ beNat 8 node

/-- Every claimant of an ended window is answered with the winner. -/
def State.tellClaims (s : State) (l : List Claimant) (winner : Fin 32) (node : Nat) : State :=
  l.foldl (fun (s : State) c =>
    s.answer c.session c.path c.hdr 0x30 c.seq stOk (claimResult (if c.session = winner then 0 else 1) node)) s

/-- A claim is recorded in the election window; the answer is "pending". -/
def State.recordClaim (s : State) (r : Req) (prio node : Nat) : State :=
  let c : Claimant := { session := r.k, prio, node, seq := r.seq, path := r.path, hdr := r.hdr }
  ({ s with ool := { s.ool with claims := s.ool.claims ++ [c] } } : State).reply r stOk (claimResult 2 0) true

/-- The owner's own claim: its values are taken, the lease renewed. -/
def State.ownClaim (s : State) (r : Req) (prio node : Nat) : State :=
  (((s.putN Obj.owner_priority prio).putN Obj.owner_node_id node).renewLease).reply r stOk (claimResult 0 node)

/-- CLAIM: the rows of the election table, the owner's own first; local authority (R60) before any. DESIGN CHOICE (log entry 202): a claim by local authority in FREE or ELECTING too. -/
def State.runClaim (s : State) (r : Req) : State :=
  let prio := fieldN r.payload 0 1
  let node := fieldN r.payload 8 8
  if !s.eligible r.k then s.reply r stDenied []
  else
    match s.owner with
    | some o =>
      if o = r.k then s.ownClaim r prio node
      else if s.localAuth o then s.reply r stOwnerHeld []
      else if s.localAuth r.k then (s.takeOwnership r.k prio node 6).reply r stOk (claimResult 0 node)
      else if s.nn Obj.owner_priority < prio then (s.takeOwnership r.k prio node 1).reply r stOk (claimResult 0 node)
      else s.reply r stOwnerHeld []
    | none =>
      if s.localAuth r.k then
        let others := s.ool.claims
        ((s.takeOwnership r.k prio node 6).tellClaims others r.k node).reply r stOk (claimResult 0 node)
      else if s.nn Obj.owner_state = 1 then s.recordClaim r prio node
      else
        let s : State := { s with ool := { s.ool with windowEnd := s.now + ticksMs 200, claims := [] } }
        (s.putN Obj.owner_state 1).recordClaim r prio node

/-- An accepted commit has not taken effect yet: the block reset of a COMMIT or WRITE runs (R390), or a scheduled commit
whose time has come, which is no longer pending, executes (R49). -/
def State.commitOpen (s : State) : Bool :=
  (match s.sys.block with
  | some b => b.session.isSome
  | none => false) || s.sched.any fun c => s.schedDue c

/-- CLAIM (R58). No ownership begins before an accepted commit has taken effect (R59): the request waits at the front. -/
def execClaim (s : State) : Host.Outcome State Fault Refusal :=
  .next (if s.commitOpen then s else s.serveReq 0x30 State.runClaim)

/-- The better of two claims: the higher priority, then the higher node_id. DESIGN CHOICE (log entry 141): of two claims
equal in both the spec names no winner; the one recorded first stays. -/
def betterClaim (a b : Claimant) : Claimant :=
  if a.prio < b.prio || (a.prio = b.prio && a.node < b.node) then b else a

/-- The winner of a window. -/
def bestClaim : List Claimant → Option Claimant
  | [] => none
  | c :: l => some (l.foldl betterClaim c)

/-- The election window is open, its 200 ms are over, no accepted commit is still to take effect (R59). -/
def State.windowOver (s : State) : Bool := s.firmwareUp && s.nn Obj.owner_state == 1 && s.ool.windowEnd ≤ s.now && !s.commitOpen

/-- ELECTION_WINDOW_END (R58): the winner's lease starts, every claimant is told; with no claim left ownership is FREE. -/
def execElectionWindowEnd (s : State) : Host.Outcome State Fault Refusal :=
  if !s.windowOver then .next s
  else
    let s : State := { s with ool := { s.ool with mgmtOut := [] } }
    match bestClaim s.ool.claims with
    | none => .next (s.putN Obj.owner_state 0)
    | some c => .next ((s.takeOwnership c.session c.prio c.node 0).tellClaims s.ool.claims c.session c.node)

/-- HEARTBEAT (R58): the lease is renewed; 3000 ms remain. -/
def execHeartbeat (s : State) : Host.Outcome State Fault Refusal :=
  .next (s.serveReq 0x31 fun s r =>
    if s.owner ≠ some r.k then s.reply r stNotOwner [] else s.renewLease.reply r stOk (beNat 2 3000))

/-- LEASE_EXPIRY (R58): the owner's lease of 3 s is over. -/
def execLeaseExpiry (s : State) : Host.Outcome State Fault Refusal :=
  .next (if s.firmwareUp && s.owner.isSome && s.ool.leaseEnd ≤ s.now then s.freeOwnership 4 else s)

/-- RELEASE (R58): ownership becomes FREE. -/
def execRelease (s : State) : Host.Outcome State Fault Refusal :=
  .next (s.serveReq 0x34 fun s r =>
    if s.owner ≠ some r.k then s.reply r stNotOwner [] else (s.freeOwnership 3).reply r stOk [])

/-- HANDOVER: checked first for an open transaction, then for the session it names; the confirmation timer is 1 s. -/
def State.runHandover (s : State) (r : Req) : State :=
  if s.owner ≠ some r.k then s.reply r stNotOwner []
  else if s.nn Obj.owner_state = 3 then s.reply r stHandover []
  else if s.ool.txn.isSome then s.reply r stTxnOpen []
  else
    match s.sessionOf (fieldN r.payload 0 4) with
    | none => s.reply r stNoObject []
    | some (k, x) =>
      if !x.owner then s.reply r stDenied []
      else if k = r.k then s.reply r stConsistency []
      else
        let s : State := { s with ool := { s.ool with successor := some (k, s.now + ticksS 1, x.id) } }
        (s.putN Obj.owner_state 3).reply r stOk []

/-- HANDOVER (R58). -/
def execHandover (s : State) : Host.Outcome State Fault Refusal := .next (s.serveReq 0x32 State.runHandover)

/-- A session is the successor a pending handover names. -/
def State.isSuccessor (s : State) (k : Fin 32) : Bool :=
  match s.ool.successor, s.ool.sessions[k] with
  | some (j, _, id), some x => j == k && id == x.id && s.nn Obj.owner_state == 3
  | _, _ => false

/-- CONFIRM: the named successor becomes the owner; every other session is denied. -/
def State.runConfirm (s : State) (r : Req) : State :=
  if !s.eligible r.k || !s.isSuccessor r.k then s.reply r stDenied []
  else (s.takeOwnership r.k (fieldN r.payload 0 1) (fieldN r.payload 8 8) 2).reply r stOk []

/-- CONFIRM (R58), once every accepted commit has taken effect (R59). -/
def execConfirm (s : State) : Host.Outcome State Fault Refusal :=
  .next (if s.commitOpen then s else s.serveReq 0x33 State.runConfirm)

/-- HANDOVER_TIMER_EXPIRY (R58): the former owner stays the owner. -/
def execHandoverTimerExpiry (s : State) : Host.Outcome State Fault Refusal :=
  match s.ool.successor with
  | none => .next s
  | some (_, t, _) =>
    .next (if s.firmwareUp && s.nn Obj.owner_state = 3 && t ≤ s.now then
        ({ s with ool := { s.ool with successor := none } } : State).putN Obj.owner_state 2
      else s)

end Sys2Proof.Machine
end

