-- ==== Sys2Proof/Machine/Isa.lean ====
section
/-! DEFINITION. The serve program instruction set (R292-R305, R307): each instruction of a thread at the address its
thread has reached. -/

namespace Sys2Proof.Machine

/-- The instruction at an address: region B as loaded (R290). -/
def State.fetch (s : State) (pc : Nat) : Option Word64 := if pc < 10240 then none else s.serve.prog.regionB[pc - 10240]?

/-- A thread that may issue: busy, ready, in region B, below instr_limit, its engine running (R264). -/
def State.issues (s : State) (e : Fin 8) (t : Fin 16) : Bool :=
  let x := s.thread e t
  s.engineRuns e && x.busy && x.wait == .none && 8 ≤ x.entry && x.issued < s.nn Obj.instr_limit

/-- The instruction of opcode `op` issues on a thread: the instruction at its address must have that opcode. Execution at
an address holding no loaded instruction is fault 4 (R299). `f` is its effect on the thread after the issue is counted. -/
def State.instr (s : State) (e : Fin 8) (t : Fin 16) (op : Nat) (f : State → Thread → Word64 → State) :
    Host.Outcome State Fault Refusal :=
  if !(s.issues e t) then .next s
  else
    match s.fetch (s.thread e t).pc with
    | none => .next (s.progFault e t 4)
    | some w =>
      if opOf w ≠ op then .next s
      else
        let x := s.thread e t
        let x := { x with issued := x.issued + 1 }
        let s := s.setThread e t x
        let s := s.setEngine e { s.serve.engines[e] with demand := s.serve.engines[e].demand + 1 }
        .next (f (s.issueSlots e 1) x w)

/-- A register; g0 reads as 0 (R292). -/
def Thread.g (x : Thread) (r : Fin 32) : Word64 := if r = 0 then 0 else x.regs[r]

/-- Operand B of an ALU or compare instruction (R297): with flag I the immediate, sign-extended under S. -/
def Thread.operandB (x : Thread) (w : Word64) : Word64 :=
  if !flagOf w 32 then x.g (srcBOf w)
  else if flagOf w 33 then BitVec.ofInt 64 (signed 32 (immOf w)) else BitVec.ofNat 64 (immOf w)

/-- An ALU instruction: dest := h(A, B), the next address. -/
def State.alu (s : State) (e : Fin 8) (t : Fin 16) (op : Nat) (h : Word64 → Word64 → Word64) : Host.Outcome State Fault Refusal :=
  s.instr e t op fun s x w =>
    s.setThread e t { x.setReg (destOf w) (h (x.g (srcAOf w)) (x.operandB w)) with pc := x.pc + 1 }

/-- A branch (R299): to imm[13:0] when the condition holds. -/
def State.branch (s : State) (e : Fin 8) (t : Fin 16) (op : Nat) (h : Thread → Word64 → Bool) : Host.Outcome State Fault Refusal :=
  s.instr e t op fun s x w => s.setThread e t { x with pc := if h x w then immOf w % 16384 else x.pc + 1 }

/-- Operand B of a compare branch: imm[31:16] zero-extended under I (R298). -/
def Thread.branchB (x : Thread) (w : Word64) : Word64 :=
  if flagOf w 32 then BitVec.ofNat 64 (immOf w / 65536) else x.g (srcBOf w)

/-- A compare branch. -/
def State.compare (s : State) (e : Fin 8) (t : Fin 16) (op : Nat) (h : Word64 → Word64 → Bool) : Host.Outcome State Fault Refusal :=
  s.branch e t op fun x w => h (x.g (srcAOf w)) (x.branchB w)

/-! ## Windows (R293) -/

/-- The regions: first address, end, writable. -/
def regions : List (Nat × Nat × Bool) :=
  [(0, 0x200, true), (0x200, 0x240, true), (0x240, 0x280, false), (0x280, 0x2C0, false), (0x2C0, 0x2E0, false),
   (0x2E0, 0x300, false), (0x300, 0x400, true)]

/-- An access of `n` bytes at an address: the fault it raises (R293). -/
def accessFault (a n : Nat) (write : Bool) : Option Nat :=
  match regions.find? fun r => r.1 ≤ a && a + n ≤ r.2.1 with
  | none => some 1
  | some r => if write && !r.2.2 then some 2 else none

/-- The window address g[r] + offset, modulo 2^64. -/
def Thread.addr (x : Thread) (r : Fin 32) (offset : Nat) : Nat := (x.g r + BitVec.ofNat 64 offset).toNat

/-- A load of n bytes, zero-extended. -/
def State.load (s : State) (e : Fin 8) (t : Fin 16) (op n : Nat) : Host.Outcome State Fault Refusal :=
  s.instr e t op fun s x w =>
    let a := x.addr (srcAOf w) (immOf w % 1024)
    match accessFault a n false with
    | some c => s.progFault e t c
    | none => s.setThread e t { x.setReg (destOf w) (BitVec.ofNat 64 (fieldN x.win a n)) with pc := x.pc + 1 }

/-- A store of the low n bytes of g[srcB]. -/
def State.store (s : State) (e : Fin 8) (t : Fin 16) (op n : Nat) : Host.Outcome State Fault Refusal :=
  s.instr e t op fun s x w =>
    let a := x.addr (srcAOf w) (immOf w % 1024)
    match accessFault a n true with
    | some c => s.progFault e t c
    | none => s.setThread e t { x with win := patch x.win a (beNat n (x.g (srcBOf w)).toNat), pc := x.pc + 1 }

/-- The one's complement sum of the low 16 bits (addc). -/
def addcWord (a b : Word64) : Word64 := BitVec.ofNat 64 (addc16 (a.toNat % 65536) (b.toNat % 65536))

/-! ## The arithmetic instructions (R297, R298) -/

/-- NOP. -/
def execIsaNop (engine : Fin 8) (thread : Fin 16) (s : State) : Host.Outcome State Fault Refusal :=
  s.instr engine thread 0x00 fun s x _ => s.setThread engine thread { x with pc := x.pc + 1 }

/-- ADD. -/
def execIsaAdd (engine : Fin 8) (thread : Fin 16) (s : State) : Host.Outcome State Fault Refusal :=
  s.alu engine thread 0x01 fun a b => a + b

/-- SUB. -/
def execIsaSub (engine : Fin 8) (thread : Fin 16) (s : State) : Host.Outcome State Fault Refusal :=
  s.alu engine thread 0x02 fun a b => a - b

/-- AND. -/
def execIsaAnd (engine : Fin 8) (thread : Fin 16) (s : State) : Host.Outcome State Fault Refusal :=
  s.alu engine thread 0x03 fun a b => a &&& b

/-- OR. -/
def execIsaOr (engine : Fin 8) (thread : Fin 16) (s : State) : Host.Outcome State Fault Refusal :=
  s.alu engine thread 0x04 fun a b => a ||| b

/-- XOR. -/
def execIsaXor (engine : Fin 8) (thread : Fin 16) (s : State) : Host.Outcome State Fault Refusal :=
  s.alu engine thread 0x05 fun a b => a ^^^ b

/-- SHL: by bits [5:0] of B. -/
def execIsaShl (engine : Fin 8) (thread : Fin 16) (s : State) : Host.Outcome State Fault Refusal :=
  s.alu engine thread 0x06 fun a b => a <<< (b.toNat % 64)

/-- SHR. -/
def execIsaShr (engine : Fin 8) (thread : Fin 16) (s : State) : Host.Outcome State Fault Refusal :=
  s.alu engine thread 0x07 fun a b => a >>> (b.toNat % 64)

/-- SAR. -/
def execIsaSar (engine : Fin 8) (thread : Fin 16) (s : State) : Host.Outcome State Fault Refusal :=
  s.alu engine thread 0x08 fun a b => a.sshiftRight (b.toNat % 64)

/-- MUL: the low 64 bits. -/
def execIsaMul (engine : Fin 8) (thread : Fin 16) (s : State) : Host.Outcome State Fault Refusal :=
  s.alu engine thread 0x09 fun a b => a * b

/-- MULHU: the high 64 bits of the unsigned product. -/
def execIsaMulhu (engine : Fin 8) (thread : Fin 16) (s : State) : Host.Outcome State Fault Refusal :=
  s.alu engine thread 0x0A fun a b => BitVec.ofNat 64 (a.toNat * b.toNat / 2 ^ 64)

/-- ADDC: the 16-bit one's complement sum. -/
def execIsaAddc (engine : Fin 8) (thread : Fin 16) (s : State) : Host.Outcome State Fault Refusal :=
  s.alu engine thread 0x0B addcWord

/-- MINU. -/
def execIsaMinu (engine : Fin 8) (thread : Fin 16) (s : State) : Host.Outcome State Fault Refusal :=
  s.alu engine thread 0x0C fun a b => if a < b then a else b

/-- MAXU. -/
def execIsaMaxu (engine : Fin 8) (thread : Fin 16) (s : State) : Host.Outcome State Fault Refusal :=
  s.alu engine thread 0x0D fun a b => if a < b then b else a

/-- SLTU. -/
def execIsaSltu (engine : Fin 8) (thread : Fin 16) (s : State) : Host.Outcome State Fault Refusal :=
  s.alu engine thread 0x0E fun a b => if a < b then 1 else 0

/-- ORHI: A OR (imm << 32). -/
def execIsaOrhi (engine : Fin 8) (thread : Fin 16) (s : State) : Host.Outcome State Fault Refusal :=
  s.instr engine thread 0x0F fun s x w =>
    s.setThread engine thread { x.setReg (destOf w) (x.g (srcAOf w) ||| BitVec.ofNat 64 (immOf w * 2 ^ 32)) with pc := x.pc + 1 }

/-! ## Control transfer (R299, R300) -/

/-- BEQ. -/
def execIsaBeq (engine : Fin 8) (thread : Fin 16) (s : State) : Host.Outcome State Fault Refusal :=
  s.compare engine thread 0x10 fun a b => a == b

/-- BNE. -/
def execIsaBne (engine : Fin 8) (thread : Fin 16) (s : State) : Host.Outcome State Fault Refusal :=
  s.compare engine thread 0x11 fun a b => a != b

/-- BLTU. -/
def execIsaBltu (engine : Fin 8) (thread : Fin 16) (s : State) : Host.Outcome State Fault Refusal :=
  s.compare engine thread 0x12 fun a b => a.ult b

/-- BGEU. -/
def execIsaBgeu (engine : Fin 8) (thread : Fin 16) (s : State) : Host.Outcome State Fault Refusal :=
  s.compare engine thread 0x13 fun a b => b.ule a

/-- BLT, signed. -/
def execIsaBlt (engine : Fin 8) (thread : Fin 16) (s : State) : Host.Outcome State Fault Refusal :=
  s.compare engine thread 0x14 fun a b => a.slt b

/-- BGE, signed. -/
def execIsaBge (engine : Fin 8) (thread : Fin 16) (s : State) : Host.Outcome State Fault Refusal :=
  s.compare engine thread 0x15 fun a b => b.sle a

/-- BSET: bit imm[21:16] of A is 1. -/
def execIsaBset (engine : Fin 8) (thread : Fin 16) (s : State) : Host.Outcome State Fault Refusal :=
  s.branch engine thread 0x16 fun x w => (x.g (srcAOf w)).getLsbD (immOf w / 65536 % 64)

/-- BCLR. -/
def execIsaBclr (engine : Fin 8) (thread : Fin 16) (s : State) : Host.Outcome State Fault Refusal :=
  s.branch engine thread 0x17 fun x w => !(x.g (srcAOf w)).getLsbD (immOf w / 65536 % 64)

/-- JMP. -/
def execIsaJmp (engine : Fin 8) (thread : Fin 16) (s : State) : Host.Outcome State Fault Refusal :=
  s.branch engine thread 0x18 fun _ _ => true

/-- CALL: push the next address and jump; with 8 addresses on the stack fault 3. -/
def execIsaCall (engine : Fin 8) (thread : Fin 16) (s : State) : Host.Outcome State Fault Refusal :=
  s.instr engine thread 0x19 fun s x w =>
    if 8 ≤ x.stack.length then s.progFault engine thread 3
    else s.setThread engine thread { x with stack := (x.pc + 1) :: x.stack, pc := immOf w % 16384 }

/-- RET: pop and jump; with an empty stack fault 3. -/
def execIsaRet (engine : Fin 8) (thread : Fin 16) (s : State) : Host.Outcome State Fault Refusal :=
  s.instr engine thread 0x1A fun s x _ =>
    match x.stack with
    | [] => s.progFault engine thread 3
    | a :: rest => s.setThread engine thread { x with stack := rest, pc := a }

/-- XENT (R300): restart at built-in entry point imm[2:0]; after an emit fault 5. -/
def execIsaXent (engine : Fin 8) (thread : Fin 16) (s : State) : Host.Outcome State Fault Refusal :=
  s.instr engine thread 0x1B fun s x w =>
    if x.emits ≠ 0 then s.progFault engine thread 5
    else
      let entry := immOf w % 8
      let x := { x with regs := Vector.replicate 32 0, stack := [], held := none, also := [], entry, pc := 0, work := .frame x.packet,
                        win := patch x.win 0x300 (List.replicate 256 0) }
      (s.setThread engine thread x).beginBuiltin { e := engine, t := thread, serial := x.serial } entry

/-! ## Window instructions (R298, R301) -/

/-- LD8. -/
def execIsaLd8 (engine : Fin 8) (thread : Fin 16) (s : State) : Host.Outcome State Fault Refusal := s.load engine thread 0x20 1

/-- LD16. -/
def execIsaLd16 (engine : Fin 8) (thread : Fin 16) (s : State) : Host.Outcome State Fault Refusal := s.load engine thread 0x21 2

/-- LD32. -/
def execIsaLd32 (engine : Fin 8) (thread : Fin 16) (s : State) : Host.Outcome State Fault Refusal := s.load engine thread 0x22 4

/-- LD64. -/
def execIsaLd64 (engine : Fin 8) (thread : Fin 16) (s : State) : Host.Outcome State Fault Refusal := s.load engine thread 0x23 8

/-- ST8. -/
def execIsaSt8 (engine : Fin 8) (thread : Fin 16) (s : State) : Host.Outcome State Fault Refusal := s.store engine thread 0x24 1

/-- ST16. -/
def execIsaSt16 (engine : Fin 8) (thread : Fin 16) (s : State) : Host.Outcome State Fault Refusal := s.store engine thread 0x25 2

/-- ST32. -/
def execIsaSt32 (engine : Fin 8) (thread : Fin 16) (s : State) : Host.Outcome State Fault Refusal := s.store engine thread 0x26 4

/-- ST64. -/
def execIsaSt64 (engine : Fin 8) (thread : Fin 16) (s : State) : Host.Outcome State Fault Refusal := s.store engine thread 0x27 8

/-- CPY: imm[9:0] bytes from W[B + imm[21:12]] to W[A + imm[31:22]], as if through a temporary. -/
def execIsaCpy (engine : Fin 8) (thread : Fin 16) (s : State) : Host.Outcome State Fault Refusal :=
  s.instr engine thread 0x28 fun s x w =>
    let n := immOf w % 1024
    let src := x.addr (srcBOf w) (immOf w / 4096 % 1024)
    let dst := x.addr (srcAOf w) (immOf w / 4194304)
    match accessFault src n false, accessFault dst n true with
    | some c, _ => s.progFault engine thread c
    | none, some c => s.progFault engine thread c
    | none, none => s.setThread engine thread { x with win := patch x.win dst (field x.win src n), pc := x.pc + 1 }

/-- CSUM: the one's complement sum of imm[25:16] bytes from W[A + imm[9:0]]. -/
def execIsaCsum (engine : Fin 8) (thread : Fin 16) (s : State) : Host.Outcome State Fault Refusal :=
  s.instr engine thread 0x29 fun s x w =>
    let n := immOf w / 65536 % 1024
    let a := x.addr (srcAOf w) (immOf w % 1024)
    match accessFault a n false with
    | some c => s.progFault engine thread c
    | none =>
      s.setThread engine thread { x.setReg (destOf w) (BitVec.ofNat 64 (fold16 (sum16 (field x.win a n)))) with pc := x.pc + 1 }

/-- Exchange two n-byte fields of a byte string. -/
def swapFields (b : Bytes) (i j n : Nat) : Bytes := patch (patch b i (field b j n)) j (field b i n)

/-- The turned windows (R301); none when a bit names an absent header or one outside the packet window. -/
def turnedWindows (win : Bytes) (imm : Nat) : Option Bytes :=
  let l3 := fieldN win 0x268 2
  let l4 := fieldN win 0x26A 2
  let v6 := bit (fieldN win 0x25F 1) 5
  let need3 := bit imm 1 || bit imm 3
  let end3 := if bit imm 1 then (if v6 then l3 + 40 else l3 + 20) else l3 + 9
  if (need3 && 512 < end3) || (bit imm 2 && 512 < l4 + 4) then none
  else
    let win := if bit imm 0 then swapFields win 0 6 6 else win
    let win := if bit imm 1 then (if v6 then swapFields win (l3 + 8) (l3 + 24) 16 else swapFields win (l3 + 12) (l3 + 16) 4) else win
    let win := if bit imm 2 then swapFields win l4 (l4 + 2) 2 else win
    some (if bit imm 3 then patch win (if v6 then l3 + 7 else l3 + 8) (beNat 1 (imm / 256 % 256)) else win)

/-- TURN (R301); an absent header is fault 1. -/
def execIsaTurn (engine : Fin 8) (thread : Fin 16) (s : State) : Host.Outcome State Fault Refusal :=
  s.instr engine thread 0x2A fun s x w =>
    match turnedWindows x.win (immOf w) with
    | none => s.progFault engine thread 1
    | some win => s.setThread engine thread { x with win, pc := x.pc + 1 }

/-! ## Client instructions (R302) -/

/-- Issue a clook or ccreate: a lookup that hits the cache completes at once, else the thread waits for its completion
(R264, R274). -/
def State.issueLookup (s : State) (e : Fin 8) (t : Fin 16) (x : Thread) (create : Bool) (w : Word64) : State :=
  let dest := (destOf w).val
  let kind := immOf w % 256
  let inst := immOf w / 256 % 256
  let take := flagOf w 34
  let s := s.countE e 0x0C
  let x := { x with worked := true }
  let now := (s.setThread e t { x with pc := x.pc + 1 }).runLookup e t create dest kind inst take
  let x' := x.waits (.lookup create dest kind inst take s.now) s.now
  match s.lookupHits (x.packet.clientKey kind inst), now with
  | true, some u => u
  | _, _ => s.setThread e t { x' with pc := x.pc + 1 }

/-- CLOOK. -/
def execIsaClook (engine : Fin 8) (thread : Fin 16) (s : State) : Host.Outcome State Fault Refusal :=
  s.instr engine thread 0x30 fun s x w => s.issueLookup engine thread x false w

/-- CCREATE. -/
def execIsaCcreate (engine : Fin 8) (thread : Fin 16) (s : State) : Host.Outcome State Fault Refusal :=
  s.instr engine thread 0x31 fun s x w => s.issueLookup engine thread x true w

/-- CWRITE: the client window to the held entry; with none held fault 6. -/
def execIsaCwrite (engine : Fin 8) (thread : Fin 16) (s : State) : Host.Outcome State Fault Refusal :=
  s.instr engine thread 0x32 fun s x _ =>
    match x.held with
    | none => s.progFault engine thread 6
    | some i => if x.heldLost then s.setThread engine thread { x with pc := x.pc + 1 } else ((s.ctWrite i (field x.win 0x200 64)).ctCount).setThread engine thread { x with pc := x.pc + 1 }

/-- SKETCH (R280): count the frame's source key; dest := the estimate after counting. -/
def execIsaSketch (engine : Fin 8) (thread : Fin 16) (s : State) : Host.Outcome State Fault Refusal :=
  s.instr engine thread 0x38 fun s x w =>
    match x.work with
    | .frame p =>
      let k := p.sketchKey
      let (est, s) := s.sketchCount (beNat 1 k.1 ++ k.2)
      s.setThread engine thread { ({ x with worked := true } : Thread).setReg (destOf w) (BitVec.ofNat 64 est) with pc := x.pc + 1 }
    | _ => s.setThread engine thread { x with pc := x.pc + 1 }

/-! ## Crypto instructions (R303) -/

/-- An AES job descriptor (R303). -/
structure AesDesc where
  op : Nat
  source : Nat
  ref : Nat
  size : Nat
  /-- Address and length of each associated-data component. -/
  ads : List (Nat × Nat)
  nonce : Nat × Nat
  text : Nat × Nat
  out : Nat
deriving DecidableEq, Repr

/-- The bytes an operation writes: seal V ‖ C, open the plaintext, S2V 16 bytes, CTR the text's length. -/
def AesDesc.outLen (d : AesDesc) : Nat :=
  match d.op with
  | 1 => d.text.2 + 16
  | 2 => d.text.2 - 16
  | 3 => 16
  | _ => d.text.2

/-- Read a descriptor: fault 8 for a reserved value, a range outside the windows, or registers outside g1-g31; reserved
bytes and unused entries are ignored (R7). -/
def aesDesc (win : Bytes) (a : Nat) : Option AesDesc :=
  let n := fun i k => fieldN win (a + i) k
  let count := n 5 1
  let range := fun i => (n i 2, n (i + 2) 2)
  let inside := fun (r : Nat × Nat) => r.2 = 0 || (accessFault r.1 r.2 false).isNone
  let d : AesDesc := { op := n 0 1, source := n 1 1, ref := n 2 2, size := n 4 1, ads := (List.range (min count 4)).map fun i => range (8 + 4 * i),
                       nonce := range 24, text := range 28, out := n 32 2 }
  let regs := if d.size = 0 then 4 else 8
  if !(1 ≤ d.op && d.op ≤ 4) || 1 < d.source || 1 < d.size || 4 < count || 448 < d.text.2 then none
  else if !(d.ads.all inside && inside d.nonce && inside d.text) || (d.op = 4 && d.nonce.2 ≠ 16) then none
  else if d.source = 1 && (d.ref = 0 || 32 < d.ref + regs) then none
  else if 0 < d.outLen && accessFault d.out d.outLen false = some 1 then none
  else some d

/-- The key a descriptor names; none when the slot is not usable by region B (R350). -/
def State.aesKey (s : State) (x : Thread) (d : AesDesc) : Option Bytes :=
  let len := if d.size = 0 then 32 else 64
  if d.source = 1 then
    some ((List.range (len / 8)).flatMap fun i => beNat 8 (x.g (Fin.ofNat 32 (d.ref + i))).toNat)
  else if 16 ≤ d.ref && d.ref ≤ 47 then
    some (field (((s.sec.keySlots.find? fun p => p.1 == d.ref).map fun p => p.2).getD []) 0 len)
  else none

/-- The output of a job, its status, its blocks (R270, R271, RFC 5297). -/
def aesRun (d : AesDesc) (key win : Bytes) : Bytes × Nat × Nat :=
  let get := fun (r : Nat × Nat) => field win r.1 r.2
  let comps := d.ads.map get ++ (if d.nonce.2 = 0 then [] else [get d.nonce])
  let text := get d.text
  let n := d.outLen
  match d.op with
  | 1 => (field (sivSeal key comps text) 0 n, 0, sivBlocks true comps text.length)
  | 2 =>
    let k := sivBlocks true comps (text.length - 16)
    (match if text.length < 16 then none else sivOpen key comps text with
      | some p => (field p 0 n, 0, k)
      | none => (List.replicate n 0, 1, k))
  | 3 => (field (sivS2v key (comps ++ [text])) 0 16, 0, 1 + comps.foldl (fun a c => a + aesBlocks c.length) 0 + aesBlocks text.length)
  | _ =>
    let ks := aesCtr (key.drop (key.length / 2)) (get d.nonce) text.length
    ((List.range text.length).map fun i => text.getD i 0 ^^^ ks.getD i 0, 0, (text.length + 15) / 16)

/-- The lowest tag of 0-3 with no outstanding job. -/
def Thread.freeTag (x : Thread) : Option Nat :=
  (List.range 4).find? fun k => !(x.jobs.contains k) && !(x.doneJobs.any fun p => p.1 == k)

/-- AESQ: submit the job described at W[A]; dest := its tag. -/
def execIsaAesq (engine : Fin 8) (thread : Fin 16) (s : State) : Host.Outcome State Fault Refusal :=
  s.instr engine thread 0x40 fun s x w =>
    let a := x.addr (srcAOf w) 0
    match accessFault a 40 false, x.freeTag with
    | some c, _ => s.progFault engine thread c
    | none, none => s.progFault engine thread 7
    | none, some tag =>
      match aesDesc x.win a with
      | none => s.progFault engine thread 8
      | some d =>
        if 0 < d.outLen && accessFault d.out d.outLen true = some 2 then s.progFault engine thread 2
        else
          match s.aesKey x d with
          | none => s.progFault engine thread 9
          | some key =>
            let (result, status, blocks) := aesRun d key x.win
            let j : AesJob := { engine, thread, serial := x.serial, tag, blocks, out := d.out, result, status }
            let s : State := { s with serve := { s.serve with jobs := s.serve.jobs ++ [j] } }
            let s := (s.countE engine 0x0E).countE engine 0x0F blocks
            s.setThread engine thread { ({ x with worked := true, jobs := x.jobs ++ [tag] } : Thread).setReg (destOf w) (BitVec.ofNat 64 tag) with
              pc := x.pc + 1 }

/-- AESW: wait for the job whose tag is in A; dest := its status; an unknown tag is fault 7. -/
def execIsaAesw (engine : Fin 8) (thread : Fin 16) (s : State) : Host.Outcome State Fault Refusal :=
  s.instr engine thread 0x41 fun s x w =>
    let tag := (x.g (srcAOf w)).toNat
    match x.doneJobs.find? fun p => p.1 == tag with
    | some p =>
      s.setThread engine thread { ({ x with doneJobs := x.doneJobs.erase p } : Thread).setReg (destOf w) (BitVec.ofNat 64 p.2) with pc := x.pc + 1 }
    | none =>
      if x.jobs.contains tag then
        let y := x.waits (.aes (destOf w).val tag) s.now
        s.setThread engine thread { y with pc := x.pc + 1 }
      else s.progFault engine thread 7

/-- The 64 bits of rand, where the source has bits ready: a free value of the model (log entry 71). While it has none the
thread is not ready. -/
def State.drawRand (s : State) (e : Fin 8) (t : Fin 16) (x : Thread) (dest : Nat) : State :=
  let (ready, s) := s.freeNat
  if ready % 2 = 0 then
    let (b, s) := s.random 8
    s.setThread e t ((if x.wait = .none then { x with pc := x.pc + 1 } else x.ready s.now).setReg (Fin.ofNat 32 dest)
      (BitVec.ofNat 64 (fieldN b 0 8)))
  else if x.wait = .none then s.setThread e t { x.waits (.rand dest) s.now with pc := x.pc + 1 }
  else s

/-- RAND (R303): 64 bits from the random-number source; a thread that waits for them asks again. -/
def execIsaRand (engine : Fin 8) (thread : Fin 16) (s : State) : Host.Outcome State Fault Refusal :=
  let x := s.thread engine thread
  match x.busy && s.engineRuns engine, x.wait with
  | true, .rand dest => .next (s.drawRand engine thread x dest)
  | _, _ => s.instr engine thread 0x42 fun s x w => s.drawRand engine thread x (destOf w).val

/-! ## Emit, drop, punt, cinc (R304-R306) -/

/-- The insert field lies wholly within the frame (R304): for kind 2 also the correctionField at offset − 26. -/
def insertOk (kind offset length : Nat) : Bool :=
  match kind with
  | 0 => true
  | 1 => offset + 8 ≤ length
  | 2 => 26 ≤ offset && offset + 10 ≤ length
  | 3 => offset + 9 ≤ length
  | _ => false

/-- EMIT (R304). -/
def execIsaEmit (engine : Fin 8) (thread : Fin 16) (s : State) : Host.Outcome State Fault Refusal :=
  s.instr engine thread 0x50 fun s x w =>
    let cw := (x.g (srcAOf w)).toNat
    let length := cw % 65536
    let port := if cw / 65536 % 256 = 0xFE then x.packet.port else cw / 65536 % 256
    let kind := immOf w / 65536 % 16
    let offset := x.addr (srcBOf w) (immOf w % 1024)
    let nb := (x.g (destOf w)).toNat
    if 4 ≤ x.emits then s.progFault engine thread 5
    else if s.tb.raw + 12500000 < nb then s.progFault engine thread 10
    else if cw / 2 ^ 32 ≠ 0 || cw / 2 ^ 24 % 32 ≠ 0 || length < 14 || 512 < length || !insertOk kind offset length then
      s.progFault engine thread 11
    else if h : port < 64 then
      let f : EFrame := { cls := egressClass x.packet.cls, data := x.win.take length, flags := cw / 2 ^ 24 % 256, kind, offset,
                          notBefore := nb, owner := some (engine, thread, x.serial) }
      if flagOf w 36 then
        ((s.setThread engine thread { x with emits := x.emits + 1 }).endThread engine thread 0 true).emitFrame ⟨port, h⟩ f
      else
        let y := ({ x with emits := x.emits + 1 } : Thread).waits .emit s.now
        (s.setThread engine thread { y with pc := x.pc + 1 }).emitFrame ⟨port, h⟩ f
    else s.progFault engine thread 11

/-- DROP (R305): with flag C program counter imm[7:0] counts first. -/
def execIsaDrop (engine : Fin 8) (thread : Fin 16) (s : State) : Host.Outcome State Fault Refusal :=
  s.instr engine thread 0x51 fun s _ w =>
    let s := if flagOf w 35 then s.bump (Obj.program_counters (immOf w % 256)) else s
    (s.countE engine 0x09).endThread engine thread 1 false

/-- PUNT (R305): the frame as received to ring imm[7:0] with punt code imm[15:8]. -/
def execIsaPunt (engine : Fin 8) (thread : Fin 16) (s : State) : Host.Outcome State Fault Refusal :=
  s.instr engine thread 0x52 fun s x w =>
    let s := (s.countE engine 0x0A).endThread engine thread 2 false
    match x.work with
    | .frame p =>
      s.toRing (immOf w % 256) { pkt := p, reason := 2, code := immOf w / 256 % 256, engine := engine.val, client := x.held.getD 0xFFFFFFFF, seq := 0 }
    | _ => s

/-- CINC: program counter imm[7:0] += A, or 1 when srcA is 0 (R306). -/
def execIsaCinc (engine : Fin 8) (thread : Fin 16) (s : State) : Host.Outcome State Fault Refusal :=
  s.instr engine thread 0x58 fun s x w =>
    let d := if srcAOf w = 0 then 1 else (x.g (srcAOf w)).toNat
    let k := immOf w % 256
    (s.bump (Obj.program_counters k) d).setThread engine thread { x with pc := x.pc + 1, incs := (k, d) :: x.incs }

end Sys2Proof.Machine
end

