-- ==== Sys2Proof/Machine/Requests.lean ====
section
/-! DEFINITION. The requests on objects and windows (R42, R430-R433, R458), transactions and commits (R44-R50), the
configuration set at bring-up (R377). -/

namespace Sys2Proof.Machine

/-! ## Reads (R42, R432, R458) -/

/-- The session holds the extended-read right. -/
def State.extendedRead (s : State) (k : Fin 32) : Bool := match s.ool.sessions[k] with | some x => x.extended | none => false

/-- The generation in force, as it travels. -/
def State.genBytes (s : State) : Bytes := be 8 (s.n Obj.generation)

/-- The addresses of a READ. -/
def readItemsOf (p : Bytes) : List (Nat × Nat) := (List.range (p.length / 4)).map fun k => (fieldN p (4 * k) 2, fieldN p (4 * k + 2) 1)

/-- READ: the items and the generation of one state. -/
def State.runRead (s : State) (r : Req) : State :=
  let (items, t) := s.readItems (s.extendedRead r.k) (readItemsOf r.payload)
  t.reply r stOk (s.genBytes ++ items)

/-- READ (R42). -/
def execRead (s : State) : Host.Outcome State Fault Refusal := .next (s.serveReq 0x10 State.runRead)

/-- The first row in use at an index. -/
def indexRow (i : Nat) : Option ObjRow := (List.range 256).findSome? fun sub => objRow (objKey i sub)

/-- The status of a READ_RECORD (R458): its index is unused, asleep, a bulk window, of another type. -/
def State.recordStatus (s : State) (i : Nat) : Nat :=
  match bulkRow i with
  | some w => if !s.answers w.dom then stAsleep else stDenied
  | none =>
    match indexRow i with
    | none => stNoObject
    | some r =>
      if !s.answers (r.domain i) then stAsleep
      else match objRow (objKey i 0) with
        | some o => if o.ty == .record || o.ty == .array then stOk else stType
        | none => stType

/-- READ_RECORD: every subindex up to the one subindex 0 names, each as a READ item. -/
def State.runReadRecord (s : State) (r : Req) : State :=
  let i := fieldN r.payload 0 2
  let st := s.recordStatus i
  if st ≠ stOk then s.reply r st []
  else
    let last := match s.objView (objKey i 0) with | .num n => n.toNat | .oct _ => 0
    let (items, t) := s.readItems (s.extendedRead r.k) ((List.range (last + 1)).map fun sub => (i, sub))
    t.reply r stOk (s.genBytes ++ items)

/-- READ_RECORD (R37). -/
def execReadRecord (s : State) : Host.Outcome State Fault Refusal := .next (s.serveReq 0x11 State.runReadRecord)

/-- The status of a BULK_READ, in the order of R432. -/
def State.bulkReadStatus (s : State) (k : Fin 32) (w : BulkRow) (off count : Nat) : Nat :=
  firstFail [(count == 0 || decide (1024 < count), stRange), (decide (w.size < off + count), stBulkRange),
    (w.acc == .rx && !s.extendedRead k, stDenied), (!s.answers w.dom, stAsleep)]

/-- BULK_READ: bytes of a window at one instant. -/
def State.runBulkRead (s : State) (r : Req) : State :=
  let p := r.payload
  match bulkRow (fieldN p 0 2) with
  | none => s.reply r stNoObject []
  | some w =>
    let off := fieldN p 2 8
    let count := fieldN p 10 2
    let st := s.bulkReadStatus r.k w off count
    s.reply r st (if st = stOk then s.genBytes ++ field (s.window w) off count else [])

/-- BULK_READ (R432). -/
def execBulkRead (s : State) : Host.Outcome State Fault Refusal := .next (s.serveReq 0x13 State.runBulkRead)

/-! ## Transactions (R44) -/

/-- The session is the owner. -/
def State.owns (s : State) (r : Req) : Bool := s.owner == some r.k

/-- A handover is pending (R58). -/
def State.handingOver (s : State) : Bool := s.nn Obj.owner_state == 3

/-- Staged items, a later one in the place of an earlier one of the same object. -/
def stageItem (l : List StagedItem) (x : StagedItem) : List StagedItem :=
  if l.any fun y => y.key == x.key then l.map fun y => if y.key = x.key then x else y else l ++ [x]

def stageItems (l new : List StagedItem) : List StagedItem := new.foldl stageItem l

/-- The length of a staged value. -/
def StagedItem.length (x : StagedItem) : Nat :=
  match objRow x.key with
  | some r => (encodeVal r.ty x.val).length
  | none => 0

/-- A transaction exceeds 1024 items, a window being one, or 65,536 bytes of values. -/
def txnFull (items : List StagedItem) (bulk : List StagedBulk) : Bool :=
  decide (1024 < items.length + (stagedWindows bulk).length) || decide (65536 < items.foldl (fun a x => a + x.length) 0)

/-- Show a transaction. -/
def State.setTxn (s : State) (t : Txn) : State :=
  (({ s with ool := { s.ool with txn := some t } } : State).putN Obj.txn_state 1).putN Obj.txn_staged_count
    ((t.items.length + (stagedWindows t.bulk).length : Nat) : Int)

/-- The open transaction of an identifier. -/
def State.txnOf (s : State) (id : Nat) : Option Txn :=
  match s.ool.txn with
  | some t => if t.id = id && id ≠ 0 then some t else none
  | none => none

/-- BEGIN: a new transaction with the next identifier. -/
def State.runBegin (s : State) (r : Req) : State :=
  if !s.owns r then s.reply r stNotOwner []
  else if s.handingOver then s.reply r stHandover []
  else if s.ool.txn.isSome then s.reply r stTxnOpen []
  else
    let id := s.ool.nextTxn
    let s : State := { s with ool := { s.ool with nextTxn := id % (2 ^ 32 - 1) + 1 } }
    (s.setTxn { id }).reply r stOk (beNat 4 id)

/-- BEGIN (R44). -/
def execBegin (s : State) : Host.Outcome State Fault Refusal := .next (s.serveReq 0x20 State.runBegin)

/-- ABORT: the transaction ends without effect. -/
def State.runAbort (s : State) (r : Req) : State :=
  if !s.owns r then s.reply r stNotOwner []
  else if (s.txnOf (fieldN r.payload 0 4)).isNone then s.reply r stTxnNone []
  else s.abortTxn.reply r stOk []

/-- ABORT (R44). -/
def execAbort (s : State) : Host.Outcome State Fault Refusal := .next (s.serveReq 0x22 State.runAbort)

/-! ## Commits (R45, R46) -/

/-- The status of a commit before its kind matters (R45): reserved flags, a persisted write that runs, confirmations, sleep
(R23). DESIGN CHOICE (log entry 142): R45 does not place DOMAIN_ASLEEP in its order; it stands after CONFIRM_MISSING, before
the rules. -/
def State.commitGate (s : State) (l : List StagedItem) (w : List StagedBulk) (flags : Nat) : Nat :=
  firstFail [(decide (8 ≤ flags), stReserved), (bit flags 1 && s.ool.persisting.isSome, stPersistBusy), (!confirmed l, stConfirm),
    (s.sleeping l w, stAsleep)]

/-- The status of an immediate commit. -/
def State.commitNow (s : State) (l : List StagedItem) (w : List StagedBulk) (flags expected : Nat) : Nat :=
  let st := s.commitGate l w flags
  if st ≠ stOk then st
  else
    let st := s.rules l w flags
    if st ≠ stOk then st
    else if bit flags 2 && s.n Obj.generation != (expected : Int) then stGeneration
    else stOk

/-- The status of a scheduled commit at receipt (R47). -/
def State.commitLater (s : State) (l : List StagedItem) (w : List StagedBulk) (flags : Nat) (time : Int) : Nat :=
  let st := s.commitGate l w flags
  if st ≠ stOk then st
  else
    let st := firstFail [(!s.timeValid, stConsistency), (decide (time < s.time + unitsPerS / 50), stPast),
      (decide (s.time + 86400 * unitsPerS < time), stFar), (decide (16 ≤ s.schedPending.length), stSchedFull)]
    if st ≠ stOk then st else s.rules l w flags

/-- An immediate commit that passed: answered, then it takes effect; a block reset takes effect, its generation compared once
more, and is answered when it ends (R46, R390): until then nothing of it is visible (R44, R45).
`head`: what the response carries before the generation; `items`: those of a single-frame WRITE. -/
def State.commitApply (s : State) (r : Req) (l : List StagedItem) (w : List StagedBulk) (flags items expected : Nat) : State :=
  match stagedNum l Obj.block_reset_target with
  | some (.ofNat (c + 1)) =>
    let force := requested l Obj.block_force
    let sid := match s.ool.sessions[r.k] with | some x => x.id | none => 0
    s.startBlock
      { code := c + 1, force, since := s.now, session := some r.k, sid, seq := r.seq, opcode := r.opcode, items, path := r.path,
        hdr := r.hdr, expected := if bit flags 2 then some expected else none }
  | _ =>
    (s.reply r stOk (List.replicate items 0 ++ be 8 ((s.nn Obj.generation + 1 : Nat) : Int))).takeEffect l w flags r.k.val

/-- A scheduled commit is accepted (R47). -/
def State.schedule (s : State) (r : Req) (l : List StagedItem) (w : List StagedBulk) (flags expected : Nat) (time : Int) : State :=
  let id := s.ool.nextSched
  let c : Sched := { id, time, session := r.k.val, flags, expected, items := l, bulk := w }
  let s : State := { s with sched := s.sched ++ [c], ool := { s.ool with nextSched := id % (2 ^ 32 - 1) + 1 } }
  s.reply r stOk (beNat 4 id)

/-- COMMIT: every COMMIT of the open transaction ends it. One that a reserved encoding spoiled fails (R7; log entry 143). An
immediate commit takes effect after the scheduled ones that execute (R49). -/
def State.runCommit (s : State) (r : Req) : State :=
  let p := r.payload
  let flags := fieldN p 4 1
  if !s.owns r then s.reply r stNotOwner []
  else
    match s.txnOf (fieldN p 0 4) with
    | none => s.reply r stTxnNone []
    | some t =>
      let s := s.abortTxn
      if t.spoiled then s.reply r stReserved []
      else if bit flags 0 then
        let time := timeOfBytes (field p 16 14)
        let st := s.commitLater t.items t.bulk flags time
        if st ≠ stOk then s.reply r st [] else s.schedule r t.items t.bulk flags (fieldN p 8 8) time
      else
        let s := s.runDue
        let st := s.commitNow t.items t.bulk flags (fieldN p 8 8)
        if st ≠ stOk then s.reply r st [] else s.commitApply r t.items t.bulk flags 0 (fieldN p 8 8)

/-- COMMIT (R45). -/
def execCommit (s : State) : Host.Outcome State Fault Refusal := .next (s.serveReq 0x21 State.runCommit)

/-! ## WRITE (R44, R353, R458) -/

/-- The plain value of an item: a secret object's travels enciphered under the frame key, the request's sequence and the
item's position. -/
def State.plainValue (s : State) (r : Req) (pos i sub : Nat) (b : Bytes) : Bytes :=
  match objRow (objKey i sub), s.ool.sessions[r.k] with
  | some o, some x =>
    if !o.secret then b
    else
      let key := hmacSha256 x.key [0x50, 0x56, 0x36, 0x34, 0x32, 0x35, 0x2D, 0x77, 0x72, 0x61, 0x70]
      let stream := aesCtr key (beNat 8 r.seq ++ beNat 2 pos ++ List.replicate 6 0) b.length
      b.zipWith (fun a c => a ^^^ c) (field stream 0 b.length)
  | _, _ => b

/-- The items of a WRITE, checked in order from a position. -/
def State.checkItems (s : State) (r : Req) : Nat → List (Nat × Nat × Nat × Bytes) → List (Nat × Option StagedItem)
  | _, [] => []
  | pos, (i, sub, ty, b) :: l => s.writeCheck (s.owns r) i sub ty (s.plainValue r pos i sub b) :: s.checkItems r (pos + 1) l

/-- The status of a WRITE's frame before its items (R44, R58). -/
def State.writeGate (s : State) (r : Req) (txn : Nat) : Nat :=
  if !s.owns r then stOk
  else firstFail [(s.handingOver, stHandover), (txn == 0 && s.ool.txn.isSome, stTxnOpen),
    (txn != 0 && (s.txnOf txn).isNone, stTxnNone)]

/-- A reserved encoding in a WRITE of the open transaction: no part of the transaction takes effect (R7; log entry 143). -/
def State.spoil (s : State) (txn : Nat) : State :=
  match s.txnOf txn with
  | some t => { s with ool := { s.ool with txn := some { t with spoiled := true } } }
  | none => s

/-- WRITE: the items are staged in the open transaction, or committed at once; where one fails none is. -/
def State.runWrite (s : State) (r : Req) : State :=
  let p := r.payload
  let txn := fieldN p 0 4
  let raw := (writeItems p.length (p.drop 4)).getD []
  let gen := if txn = 0 then s.genBytes else []
  let all := fun (st : Nat) => List.replicate raw.length (BitVec.ofNat 8 st) ++ gen
  let st := s.writeGate r txn
  if st ≠ stOk then s.reply r st (all st)
  else
    let checks := s.checkItems r 0 raw
    let st := firstFail (checks.map fun c => (c.1 != stOk, c.1))
    if st ≠ stOk then
      let s := if checks.any fun c => c.1 == stReserved then s.spoil txn else s
      s.reply r st ((checks.map fun c => BitVec.ofNat 8 c.1) ++ gen)
    else
      let new := checks.filterMap fun c => c.2
      if txn = 0 then
        let l := stageItems [] new
        let s := s.runDue
        let st := if txnFull l [] then stTxnFull else s.commitNow l [] 0 0
        if st ≠ stOk then s.reply r st (all (if st = stTxnFull then st else stOk)) else s.commitApply r l [] 0 raw.length 0
      else
        match s.txnOf txn with
        | none => s
        | some t =>
          let l := stageItems t.items new
          if txnFull l t.bulk then s.reply r stTxnFull (all stTxnFull)
          else (s.setTxn { t with items := l }).reply r stOk (all stOk)

/-- WRITE (R44). -/
def execWrite (s : State) : Host.Outcome State Fault Refusal := .next (s.serveReq 0x12 State.runWrite)

/-! ## BULK_WRITE (R433, R358) -/

/-- Bytes of the firmware window go straight to the inactive bank; the image there is then staged and unchecked. -/
def State.writeImage (s : State) (off : Nat) (b : Bytes) : State :=
  let bank := 1 - s.nn Obj.fw_running_bank
  ({ s with flash := s.flash.setImage bank (patch (padTo 6291456 (s.flash.image bank)) off b) } : State).putN Obj.fw_staged_status 1

/-- The status of a BULK_WRITE to a window, in the order of R433. -/
def State.bulkWriteStatus (s : State) (r : Req) (w : BulkRow) (txn off len : Nat) : Nat :=
  let sparge := s.mode.cur == .sparge
  let fw := w.index == 0x8340
  firstFail [(!s.owns r, stNotOwner), (w.acc != .rw, stDenied), (fw && (txn != 0 || !sparge), stConsistency),
    (w.index == 0x8348 && !sparge, stConsistency), (!fw && (s.txnOf txn).isNone, stTxnNone), (decide (1024 < len), stRange),
    (decide (w.size < off + len), stBulkRange), (!s.answers w.dom, stAsleep)]

/-- BULK_WRITE: bytes staged in the open transaction, or written to flash. -/
def State.runBulkWrite (s : State) (r : Req) : State :=
  let p := r.payload
  let txn := fieldN p 0 4
  let off := fieldN p 6 8
  let data := p.drop 14
  match bulkRow (fieldN p 4 2) with
  | none => s.reply r (if s.owns r then stNoObject else stNotOwner) []
  | some w =>
    let st := s.bulkWriteStatus r w txn off data.length
    if st ≠ stOk then s.reply r st []
    else if w.index = 0x8340 then (s.writeImage off data).reply r stOk []
    else
      match s.txnOf txn with
      | none => s
      | some t =>
        let bulk := t.bulk ++ [{ index := w.index, offset := off, data }]
        if txnFull t.items bulk then s.reply r stTxnFull []
        else (s.setTxn { t with bulk }).reply r stOk []

/-- BULK_WRITE (R433). -/
def execBulkWrite (s : State) : Host.Outcome State Fault Refusal := .next (s.serveReq 0x14 State.runBulkWrite)

/-! ## Scheduled commits (R47-R49) -/

/-- SCHED_CANCEL: the owner removes a pending commit. -/
def State.runSchedCancel (s : State) (r : Req) : State :=
  let id := fieldN r.payload 0 4
  let mine := fun (c : Sched) => c.id == id && !s.schedDue c
  if !s.owns r then s.reply r stNotOwner []
  else if !s.sched.any mine then s.reply r stNoObject []
  else
    let s : State := { s with sched := s.sched.filter fun c => !mine c }
    s.dropLostStep.reply r stOk []

/-- SCHED_CANCEL (R49). -/
def execSchedCancel (s : State) : Host.Outcome State Fault Refusal := .next (s.serveReq 0x23 State.runSchedCancel)

/-- SCHEDULED_COMMIT_EXECUTE (R48, R49): the commits that are due. -/
def execScheduledCommitExecute (s : State) : Host.Outcome State Fault Refusal := .next (if s.firmwareUp then s.runDue else s)

/-! ## The configuration set at bring-up (R71 step 6, R350, R377) -/

/-- The records of the listed secret objects are found altered in both banks: nothing of them can be opened. -/
def State.spoilRecords (s : State) (bad : List Nat) : State :=
  let spoil := CfgBank.edit fun l => l.map fun r => if secretKey r.key && bad.contains r.key then { r with value := [] } else r
  let f : Flash := { s.flash with cfg0 := spoil s.flash.cfg0, cfg1 := spoil s.flash.cfg1 }
  { s with flash := f }

/-- Every secret record that fails its tag (R349): code 0x140B. Where the cipher has no key, none is tried (R348). -/
def State.logClosed (s : State) (c : CfgSet) : State :=
  if s.sec.storageOff then s
  else (c.records.filter fun r => r.read s.storeKey == .closed).foldl (fun (s : State) r => s.logSec 0x140B (recordData r.key)) s

/-- The set in force gives every persistent object its value or default, with the effects a commit of it has. -/
def State.setInForce (s : State) (recs : List (Nat × Val)) : State :=
  let l : List StagedItem := recs.map fun p => { key := p.1, val := p.2 }
  let old : State := { s with obj := s.obj.filter fun p => !persistKey p.1 }
  let s := old.staging (l.filter fun x => storedPlainly x.key)
  let s := old.timeEffects (s.slotEffects l) l 255
  let s := old.portEffects (old.skyEffects (old.outEffects s l) l) l
  s.drivePins

/-- The image stored with the set is checked again against the keys in force; one that fails is not loaded, code 0x5101
(R360). -/
def State.restoreImage (s : State) (img : Bytes) : State :=
  let cause := s.imageCause img
  if cause = 0 then (s.loadImage img).putN Obj.program_status 4 else s.log 0 0x5101 (beNat 1 cause)

/-- The bank in force gives its values: the records that are skipped are counted, the program image is restored. -/
def State.applySet (s : State) (k : Nat) (c : CfgSet) : State :=
  let store := s.storeKey
  let s := (s.logClosed c).setInForce (c.values store)
  let s := s.bump Obj.cfg_records_skipped (c.records.filter fun r => r.read store == .skipped).length
  let s := (s.putN Obj.active_bank k).putN Obj.persist_generation c.generation
  match c.program with
  | some img => s.restoreImage img
  | none => s

/-- CONFIG_SET_APPLY (R377, R71 step 6): the bank in force; `bad` names the secret objects whose records are found altered. -/
def execConfigSetApply (bad : List Nat) (s : State) : Host.Outcome State Fault Refusal :=
  if !s.atStep 5 then .next s
  else
    let s := ((s.setStep 6).setDom 4 2).setDom 5 2
    let s := s.spoilRecords bad
    let s := match s.flash.activeBank with
      | none =>
        ((s.setInForce []).putB Obj.cfg_default true).log 0 0x1605 (beNat 1 (s.flash.cfg0.failures + 4 * s.flash.cfg1.failures))
      | some (k, c) => s.applySet k c
    let s := if s.sys.persistLost then ({ s with sys := { s.sys with persistLost := false } } : State).bump Obj.persist_fail else s
    let s := s.loadKeys
    let s := (List.finRange 64).foldl (fun (s : State) (n : Fin 64) => if n.val < 8 then s.refreshPort n 1 else s) s
    .next ((List.finRange 16).foldl (fun (s : State) (n : Fin 16) => s.armBlock n) s)

end Sys2Proof.Machine
end

