-- ==== Sys2Proof/Machine/Dispatch.lean ====
section
/-! DEFINITION. The dispatch: one arm per command of the opcode table, each one direct call of its meaning. -/

namespace Sys2Proof.Machine

/-- The effect of a command on everything but the queue. -/
def exec (i : Instr) (s : State) : Host.Outcome State Fault Refusal :=
  match i with
  | .hello sigBad => Sys2Proof.Machine.execHello sigBad s
  | .cert => Sys2Proof.Machine.execCert s
  | .finish => Sys2Proof.Machine.execFinish s
  | .close => Sys2Proof.Machine.execClose s
  | .read => Sys2Proof.Machine.execRead s
  | .readRecord => Sys2Proof.Machine.execReadRecord s
  | .write => Sys2Proof.Machine.execWrite s
  | .bulkRead => Sys2Proof.Machine.execBulkRead s
  | .bulkWrite => Sys2Proof.Machine.execBulkWrite s
  | .begin => Sys2Proof.Machine.execBegin s
  | .commit => Sys2Proof.Machine.execCommit s
  | .objectWrite index sub value => Sys2Proof.Machine.execObjectWrite index sub value s
  | .abort => Sys2Proof.Machine.execAbort s
  | .schedCancel => Sys2Proof.Machine.execSchedCancel s
  | .scheduledCommitExecute => Sys2Proof.Machine.execScheduledCommitExecute s
  | .persistWriteComplete ok => Sys2Proof.Machine.execPersistWriteComplete ok s
  | .claim => Sys2Proof.Machine.execClaim s
  | .electionWindowEnd => Sys2Proof.Machine.execElectionWindowEnd s
  | .heartbeat => Sys2Proof.Machine.execHeartbeat s
  | .leaseExpiry => Sys2Proof.Machine.execLeaseExpiry s
  | .handover => Sys2Proof.Machine.execHandover s
  | .confirm => Sys2Proof.Machine.execConfirm s
  | .handoverTimerExpiry => Sys2Proof.Machine.execHandoverTimerExpiry s
  | .release => Sys2Proof.Machine.execRelease s
  | .setupTimeout => Sys2Proof.Machine.execSetupTimeout s
  | .sessionIdleTimeout => Sys2Proof.Machine.execSessionIdleTimeout s
  | .hostSpiWrite bytes => Sys2Proof.Machine.execHostSpiWrite bytes s
  | .hostSpiRead clocked => Sys2Proof.Machine.execHostSpiRead clocked s
  | .mgmtFrameReceive frame => Sys2Proof.Machine.execMgmtFrameReceive frame s
  | .mgmtPhyPoll r1 r4 r5 r9 r10 => Sys2Proof.Machine.execMgmtPhyPoll r1 r4 r5 r9 r10 s
  | .firstPower vkeep main => Sys2Proof.Machine.execFirstPower vkeep main s
  | .mainSupplyLoss => Sys2Proof.Machine.execMainSupplyLoss s
  | .mainSupplyReturn => Sys2Proof.Machine.execMainSupplyReturn s
  | .rstnAssert => Sys2Proof.Machine.execRstnAssert s
  | .rstnDeassert => Sys2Proof.Machine.execRstnDeassert s
  | .wrstnAssert => Sys2Proof.Machine.execWrstnAssert s
  | .wrstnDeassert => Sys2Proof.Machine.execWrstnDeassert s
  | .coldResetRelease bootsel oscsel oscdiff dukOk tj => Sys2Proof.Machine.execColdResetRelease bootsel oscsel oscdiff dukOk tj s
  | .trimLoadComplete aOk bOk => Sys2Proof.Machine.execTrimLoadComplete aOk bOk s
  | .tickClockLock bankA bankB => Sys2Proof.Machine.execTickClockLock bankA bankB s
  | .firmwareBootCheck download => Sys2Proof.Machine.execFirmwareBootCheck download s
  | .configSetApply bad => Sys2Proof.Machine.execConfigSetApply bad s
  | .dramTrainingComplete fail capacity ms => Sys2Proof.Machine.execDramTrainingComplete fail capacity ms s
  | .clientTableInitComplete => Sys2Proof.Machine.execClientTableInitComplete s
  | .bringupComplete => Sys2Proof.Machine.execBringupComplete s
  | .domainWakeComplete domain => Sys2Proof.Machine.execDomainWakeComplete domain s
  | .warmResetRelease => Sys2Proof.Machine.execWarmResetRelease s
  | .warmServingResume => Sys2Proof.Machine.execWarmServingResume s
  | .slotMissingCheckResume => Sys2Proof.Machine.execSlotMissingCheckResume s
  | .thermalTrip => Sys2Proof.Machine.execThermalTrip s
  | .thermalWarning temp => Sys2Proof.Machine.execThermalWarning temp s
  | .watchdogWarm => Sys2Proof.Machine.execWatchdogWarm s
  | .watchdogCold => Sys2Proof.Machine.execWatchdogCold s
  | .resetRequestWarm => Sys2Proof.Machine.execResetRequestWarm s
  | .resetRequestCold => Sys2Proof.Machine.execResetRequestCold s
  | .blockReset code force => Sys2Proof.Machine.execBlockReset code force s
  | .blockQuiesced => Sys2Proof.Machine.execBlockQuiesced s
  | .quiesceTimeout => Sys2Proof.Machine.execQuiesceTimeout s
  | .oscEdgeLoss => Sys2Proof.Machine.execOscEdgeLoss s
  | .oscRestored => Sys2Proof.Machine.execOscRestored s
  | .vkeepMonitor mV => Sys2Proof.Machine.execVkeepMonitor mV s
  | .tamperAssert => Sys2Proof.Machine.execTamperAssert s
  | .tamperLatchClear session => Sys2Proof.Machine.execTamperLatchClear session s
  | .timingConditionEvaluate => Sys2Proof.Machine.execTimingConditionEvaluate s
  | .mashTimeout => Sys2Proof.Machine.execMashTimeout s
  | .spargeRequest request => Sys2Proof.Machine.execSpargeRequest request s
  | .spargeTimeout => Sys2Proof.Machine.execSpargeTimeout s
  | .kilnRequest => Sys2Proof.Machine.execKilnRequest s
  | .cellarRequest => Sys2Proof.Machine.execCellarRequest s
  | .cellarWakeTime => Sys2Proof.Machine.execCellarWakeTime s
  | .cellarVerifyWake => Sys2Proof.Machine.execCellarVerifyWake s
  | .cellarVerifyEnd => Sys2Proof.Machine.execCellarVerifyEnd s
  | .snowdropAlign => Sys2Proof.Machine.execSnowdropAlign s
  | .segmentStart => Sys2Proof.Machine.execSegmentStart s
  | .slopeFollowupSegment => Sys2Proof.Machine.execSlopeFollowupSegment s
  | .step amount session => Sys2Proof.Machine.execStep amount session s
  | .leapComplete => Sys2Proof.Machine.execLeapComplete s
  | .journalEntryVisible => Sys2Proof.Machine.execJournalEntryVisible s
  | .refinEdge input stamp => Sys2Proof.Machine.execRefinEdge input stamp s
  | .missingEdge slot => Sys2Proof.Machine.execMissingEdge slot s
  | .todinFrame input start frame => Sys2Proof.Machine.execTodinFrame input start frame s
  | .nmeaSentence input start sentence => Sys2Proof.Machine.execNmeaSentence input start sentence s
  | .esmcPduReceive port ssm essm => Sys2Proof.Machine.execEsmcPduReceive port ssm essm s
  | .esmcAbsent slot => Sys2Proof.Machine.execEsmcAbsent slot s
  | .qualifyTimerExpiry slot => Sys2Proof.Machine.execQualifyTimerExpiry slot s
  | .wtrTimerExpiry slot => Sys2Proof.Machine.execWtrTimerExpiry slot s
  | .operatorValidityExpiry slot => Sys2Proof.Machine.execOperatorValidityExpiry slot s
  | .operatorTime slot time => Sys2Proof.Machine.execOperatorTime slot time s
  | .slotConfigCommit slot enable kind number => Sys2Proof.Machine.execSlotConfigCommit slot enable kind number s
  | .manualSlotArm forF manual => Sys2Proof.Machine.execManualSlotArm forF manual s
  | .selectionEvaluate => Sys2Proof.Machine.execSelectionEvaluate s
  | .transitionComplete forF => Sys2Proof.Machine.execTransitionComplete forF s
  | .disputeCompare => Sys2Proof.Machine.execDisputeCompare s
  | .dpllTMeasurement slot => Sys2Proof.Machine.execDpllTMeasurement slot s
  | .dpllFMeasurement sample => Sys2Proof.Machine.execDpllFMeasurement sample s
  | .mediaLoopUpdate loopB => Sys2Proof.Machine.execMediaLoopUpdate loopB s
  | .steering value => Sys2Proof.Machine.execSteering value s
  | .oscMonitor offset => Sys2Proof.Machine.execOscMonitor offset s
  | .efcUpdate => Sys2Proof.Machine.execEfcUpdate s
  | .efcCompensate => Sys2Proof.Machine.execEfcCompensate s
  | .modelLearnSample temp => Sys2Proof.Machine.execModelLearnSample temp s
  | .holdoverRateUpdate temp => Sys2Proof.Machine.execHoldoverRateUpdate temp s
  | .holdoverRemainingUpdate => Sys2Proof.Machine.execHoldoverRemainingUpdate s
  | .modelStore => Sys2Proof.Machine.execModelStore s
  | .modelReset => Sys2Proof.Machine.execModelReset s
  | .outputEdge output pad => Sys2Proof.Machine.execOutputEdge output pad s
  | .padCompensationUpdate output delay => Sys2Proof.Machine.execPadCompensationUpdate output delay s
  | .outputPhaseJump output => Sys2Proof.Machine.execOutputPhaseJump output s
  | .startTimeCommit output time => Sys2Proof.Machine.execStartTimeCommit output time s
  | .alignTrigger output => Sys2Proof.Machine.execAlignTrigger output s
  | .alignApplied output => Sys2Proof.Machine.execAlignApplied output s
  | .alignTimeout output => Sys2Proof.Machine.execAlignTimeout output s
  | .alignContinuousUpdate output => Sys2Proof.Machine.execAlignContinuousUpdate output s
  | .todoutFrame todout => Sys2Proof.Machine.execTodoutFrame todout s
  | .captureEdge capture stamp falling stable => Sys2Proof.Machine.execCaptureEdge capture stamp falling stable s
  | .captureConvert capture => Sys2Proof.Machine.execCaptureConvert capture s
  | .capAckSeq capture seq => Sys2Proof.Machine.execCapAckSeq capture seq s
  | .bandMonitor band ms0 ms20 ms40 ms60 ms80 => Sys2Proof.Machine.execBandMonitor band ms0 ms20 ms40 ms60 ms80 s
  | .fespiScriptSend band reads => Sys2Proof.Machine.execFespiScriptSend band reads s
  | .fespiSettleEnd band => Sys2Proof.Machine.execFespiSettleEnd band s
  | .antShort => Sys2Proof.Machine.execAntShort s
  | .antRetry => Sys2Proof.Machine.execAntRetry s
  | .antOpen => Sys2Proof.Machine.execAntOpen s
  | .notchScan band lines => Sys2Proof.Machine.execNotchScan band lines s
  | .acquisitionSearch channel band found => Sys2Proof.Machine.execAcquisitionSearch channel band found s
  | .trackerLock channel run => Sys2Proof.Machine.execTrackerLock channel run s
  | .pullInTimeout channel band => Sys2Proof.Machine.execPullInTimeout channel band s
  | .trackerLoss channel run => Sys2Proof.Machine.execTrackerLoss channel run s
  | .reacqTimeout channel band => Sys2Proof.Machine.execReacqTimeout channel band s
  | .symbolSync channel band => Sys2Proof.Machine.execSymbolSync channel band s
  | .transmitTimeResolved channel read => Sys2Proof.Machine.execTransmitTimeResolved channel read s
  | .navPage channel band page => Sys2Proof.Machine.execNavPage channel band page s
  | .orbitStorePersist => Sys2Proof.Machine.execOrbitStorePersist s
  | .observationEpoch obs => Sys2Proof.Machine.execObservationEpoch obs s
  | .timingSolution => Sys2Proof.Machine.execTimingSolution s
  | .positionCheckFix epoch => Sys2Proof.Machine.execPositionCheckFix epoch s
  | .surveyRestart => Sys2Proof.Machine.execSurveyRestart s
  | .gristRequest request => Sys2Proof.Machine.execGristRequest request s
  | .gristCaptureStart => Sys2Proof.Machine.execGristCaptureStart s
  | .gristCaptureComplete samples => Sys2Proof.Machine.execGristCaptureComplete samples s
  | .gristSolveComplete => Sys2Proof.Machine.execGristSolveComplete s
  | .gristHold hold => Sys2Proof.Machine.execGristHold hold s
  | .linkUp port speed fec eee => Sys2Proof.Machine.execLinkUp port speed fec eee s
  | .linkDown port cause => Sys2Proof.Machine.execLinkDown port cause s
  | .portSpeedChange port speed fec => Sys2Proof.Machine.execPortSpeedChange port speed fec s
  | .portFrameReceive port edge o skew frame => Sys2Proof.Machine.execPortFrameReceive port edge o skew frame s
  | .sentinelLock port tx first later => Sys2Proof.Machine.execSentinelLock port tx first later s
  | .sentinelUnlock port loss => Sys2Proof.Machine.execSentinelUnlock port loss s
  | .calFrameSend port => Sys2Proof.Machine.execCalFrameSend port s
  | .calFrameReceive port edge o frame => Sys2Proof.Machine.execCalFrameReceive port edge o frame s
  | .departureFix port word o => Sys2Proof.Machine.execDepartureFix port word o s
  | .frameDeparture port err => Sys2Proof.Machine.execFrameDeparture port err s
  | .governorEvaluate port => Sys2Proof.Machine.execGovernorEvaluate port s
  | .lpiEnter port => Sys2Proof.Machine.execLpiEnter port s
  | .esmcTx port => Sys2Proof.Machine.execEsmcTx port s
  | .esmcEventPdu port => Sys2Proof.Machine.execEsmcEventPdu port s
  | .sidebandScan first second third => Sys2Proof.Machine.execSidebandScan first second third s
  | .threadStart engine thread => Sys2Proof.Machine.execThreadStart engine thread s
  | .instructionLimit engine thread => Sys2Proof.Machine.execInstructionLimit engine thread s
  | .aesJobComplete engine thread tag => Sys2Proof.Machine.execAesJobComplete engine thread tag s
  | .clientLookupComplete engine thread => Sys2Proof.Machine.execClientLookupComplete engine thread s
  | .cacheWriteback index => Sys2Proof.Machine.execCacheWriteback index s
  | .clientTableSweep => Sys2Proof.Machine.execClientTableSweep s
  | .timerWheelSlot => Sys2Proof.Machine.execTimerWheelSlot s
  | .sketchDecay => Sys2Proof.Machine.execSketchDecay s
  | .quietnAssert => Sys2Proof.Machine.execQuietnAssert s
  | .quietnDeassert => Sys2Proof.Machine.execQuietnDeassert s
  | .serveQuiet value => Sys2Proof.Machine.execServeQuiet value s
  | .servingResume => Sys2Proof.Machine.execServingResume s
  | .consolidationEvaluate => Sys2Proof.Machine.execConsolidationEvaluate s
  | .pairGate pair => Sys2Proof.Machine.execPairGate pair s
  | .pairWakeComplete pair => Sys2Proof.Machine.execPairWakeComplete pair s
  | .programVerify image => Sys2Proof.Machine.execProgramVerify image s
  | .programVerifyComplete => Sys2Proof.Machine.execProgramVerifyComplete s
  | .programActivate => Sys2Proof.Machine.execProgramActivate s
  | .programCounterClear => Sys2Proof.Machine.execProgramCounterClear s
  | .ringFrameHandle ring => Sys2Proof.Machine.execRingFrameHandle ring s
  | .isaNop engine thread => Sys2Proof.Machine.execIsaNop engine thread s
  | .isaAdd engine thread => Sys2Proof.Machine.execIsaAdd engine thread s
  | .isaSub engine thread => Sys2Proof.Machine.execIsaSub engine thread s
  | .isaAnd engine thread => Sys2Proof.Machine.execIsaAnd engine thread s
  | .isaOr engine thread => Sys2Proof.Machine.execIsaOr engine thread s
  | .isaXor engine thread => Sys2Proof.Machine.execIsaXor engine thread s
  | .isaShl engine thread => Sys2Proof.Machine.execIsaShl engine thread s
  | .isaShr engine thread => Sys2Proof.Machine.execIsaShr engine thread s
  | .isaSar engine thread => Sys2Proof.Machine.execIsaSar engine thread s
  | .isaMul engine thread => Sys2Proof.Machine.execIsaMul engine thread s
  | .isaMulhu engine thread => Sys2Proof.Machine.execIsaMulhu engine thread s
  | .isaAddc engine thread => Sys2Proof.Machine.execIsaAddc engine thread s
  | .isaMinu engine thread => Sys2Proof.Machine.execIsaMinu engine thread s
  | .isaMaxu engine thread => Sys2Proof.Machine.execIsaMaxu engine thread s
  | .isaSltu engine thread => Sys2Proof.Machine.execIsaSltu engine thread s
  | .isaOrhi engine thread => Sys2Proof.Machine.execIsaOrhi engine thread s
  | .isaBeq engine thread => Sys2Proof.Machine.execIsaBeq engine thread s
  | .isaBne engine thread => Sys2Proof.Machine.execIsaBne engine thread s
  | .isaBltu engine thread => Sys2Proof.Machine.execIsaBltu engine thread s
  | .isaBgeu engine thread => Sys2Proof.Machine.execIsaBgeu engine thread s
  | .isaBlt engine thread => Sys2Proof.Machine.execIsaBlt engine thread s
  | .isaBge engine thread => Sys2Proof.Machine.execIsaBge engine thread s
  | .isaBset engine thread => Sys2Proof.Machine.execIsaBset engine thread s
  | .isaBclr engine thread => Sys2Proof.Machine.execIsaBclr engine thread s
  | .isaJmp engine thread => Sys2Proof.Machine.execIsaJmp engine thread s
  | .isaCall engine thread => Sys2Proof.Machine.execIsaCall engine thread s
  | .isaRet engine thread => Sys2Proof.Machine.execIsaRet engine thread s
  | .isaXent engine thread => Sys2Proof.Machine.execIsaXent engine thread s
  | .isaLd8 engine thread => Sys2Proof.Machine.execIsaLd8 engine thread s
  | .isaLd16 engine thread => Sys2Proof.Machine.execIsaLd16 engine thread s
  | .isaLd32 engine thread => Sys2Proof.Machine.execIsaLd32 engine thread s
  | .isaLd64 engine thread => Sys2Proof.Machine.execIsaLd64 engine thread s
  | .isaSt8 engine thread => Sys2Proof.Machine.execIsaSt8 engine thread s
  | .isaSt16 engine thread => Sys2Proof.Machine.execIsaSt16 engine thread s
  | .isaSt32 engine thread => Sys2Proof.Machine.execIsaSt32 engine thread s
  | .isaSt64 engine thread => Sys2Proof.Machine.execIsaSt64 engine thread s
  | .isaCpy engine thread => Sys2Proof.Machine.execIsaCpy engine thread s
  | .isaCsum engine thread => Sys2Proof.Machine.execIsaCsum engine thread s
  | .isaTurn engine thread => Sys2Proof.Machine.execIsaTurn engine thread s
  | .isaClook engine thread => Sys2Proof.Machine.execIsaClook engine thread s
  | .isaCcreate engine thread => Sys2Proof.Machine.execIsaCcreate engine thread s
  | .isaCwrite engine thread => Sys2Proof.Machine.execIsaCwrite engine thread s
  | .isaSketch engine thread => Sys2Proof.Machine.execIsaSketch engine thread s
  | .isaAesq engine thread => Sys2Proof.Machine.execIsaAesq engine thread s
  | .isaAesw engine thread => Sys2Proof.Machine.execIsaAesw engine thread s
  | .isaRand engine thread => Sys2Proof.Machine.execIsaRand engine thread s
  | .isaEmit engine thread => Sys2Proof.Machine.execIsaEmit engine thread s
  | .isaDrop engine thread => Sys2Proof.Machine.execIsaDrop engine thread s
  | .isaPunt engine thread => Sys2Proof.Machine.execIsaPunt engine thread s
  | .isaCinc engine thread => Sys2Proof.Machine.execIsaCinc engine thread s
  | .announceReceive => Sys2Proof.Machine.execAnnounceReceive s
  | .announceReceiptTimeout inst port => Sys2Proof.Machine.execAnnounceReceiptTimeout inst port s
  | .ptpManagement => Sys2Proof.Machine.execPtpManagement s
  | .smTlvSend inst port => Sys2Proof.Machine.execSmTlvSend inst port s
  | .unicastRenew inst master message => Sys2Proof.Machine.execUnicastRenew inst master message s
  | .cookieKeyRotate => Sys2Proof.Machine.execCookieKeyRotate s
  | .ntsMasterKey key => Sys2Proof.Machine.execNtsMasterKey key s
  | .ntsKeHandshake hello => Sys2Proof.Machine.execNtsKeHandshake hello s
  | .ntsKeIdleTimeout conn => Sys2Proof.Machine.execNtsKeIdleTimeout conn s
  | .bnChainStart post => Sys2Proof.Machine.execBnChainStart post s
  | .rowMac bad => Sys2Proof.Machine.execRowMac bad s
  | .product bad => Sys2Proof.Machine.execProduct bad s
  | .montRow bad => Sys2Proof.Machine.execMontRow bad s
  | .bnAbort queue => Sys2Proof.Machine.execBnAbort queue s
  | .bnSelftest pass => Sys2Proof.Machine.execBnSelftest pass s
  | .ntsKeKeygen => Sys2Proof.Machine.execNtsKeKeygen s
  | .fwVerify => Sys2Proof.Machine.execFwVerify s
  | .fwActivate => Sys2Proof.Machine.execFwActivate s
  | .debugChallenge => Sys2Proof.Machine.execDebugChallenge s
  | .debugResponse response => Sys2Proof.Machine.execDebugResponse response s
  | .debugChallengeExpiry => Sys2Proof.Machine.execDebugChallengeExpiry s
  | .jtagBypass => Sys2Proof.Machine.execJtagBypass s
  | .jtagIdcode => Sys2Proof.Machine.execJtagIdcode s
  | .jtagSamplePreload => Sys2Proof.Machine.execJtagSamplePreload s
  | .jtagExtest => Sys2Proof.Machine.execJtagExtest s
  | .patrolRead region addr fault last holds => Sys2Proof.Machine.execPatrolRead region addr fault last holds s
  | .quarantineComplete region addr => Sys2Proof.Machine.execQuarantineComplete region addr s
  | .tileCopyReload => Sys2Proof.Machine.execTileCopyReload s
  | .crossingResync crossing discarded => Sys2Proof.Machine.execCrossingResync crossing discarded s
  | .crossingHang crossing processor => Sys2Proof.Machine.execCrossingHang crossing processor s
  | .snapRequest => Sys2Proof.Machine.execSnapRequest s
  | .snapPeriodic => Sys2Proof.Machine.execSnapPeriodic s
  | .counterWrap block counter => Sys2Proof.Machine.execCounterWrap block counter s
  | .sampleClear => Sys2Proof.Machine.execSampleClear s
  | .activationComplete => Sys2Proof.Machine.execActivationComplete s
  | .syncReceiptTimeout slot => Sys2Proof.Machine.execSyncReceiptTimeout slot s
  | .antCurrentInRange => Sys2Proof.Machine.execAntCurrentInRange s
  | .vkeepRemoval => Sys2Proof.Machine.execVkeepRemoval s
  | .delayReqSend inst port => Sys2Proof.Machine.execDelayReqSend inst port s
  | .pdelayReqSend inst port => Sys2Proof.Machine.execPdelayReqSend inst port s

end Sys2Proof.Machine
end

