-- ==== Sys2Proof/Safety.lean ====
section
/-! DEFINITION. What counts as a well-kept state, and the words the statements use: the canonical forms of the stores, a
command that completes, what a command leaves unchanged. -/

namespace Sys2Proof.Safety

open Sys2Proof.Machine

/-- The canonical forms: the dictionary store lists rising keys, none at its default; the three memories list rising
addresses, none at 0. -/
def Wf (s : State) : Prop :=
  storeWf s.obj = true ∧ memWf s.mem.sram = true ∧ memWf s.mem.dram = true ∧ memWf s.mem.key = true

/-- A command completes at a state and the next state satisfies a property. -/
def Yields (c : Instr) (s : State) (P : State → Prop) : Prop := ∃ t, exec c s = .next t ∧ P t

/-- No object changes but those listed. -/
def ObjBut (s t : State) (keys : List Nat) : Prop := ∀ k, k ∉ keys → t.get k = s.get k

/-! ## Threads that issue an instruction -/

/-- The instruction `w`, of opcode `op`, is the one a thread issues next. -/
def IsaNext (s : State) (e : Fin 8) (t : Fin 16) (op : Nat) (w : Word64) : Prop :=
  s.issues e t = true ∧ s.fetch (s.thread e t).pc = some w ∧ opOf w = op

/-- The thread with the issue counted against instr_limit. -/
def issued (s : State) (e : Fin 8) (t : Fin 16) : Thread := { s.thread e t with issued := (s.thread e t).issued + 1 }

/-- The state with an issue counted: at its thread, in the demand and the slots of its engine. -/
def counted (s : State) (e : Fin 8) (t : Fin 16) : State :=
  let u := s.setThread e t (issued s e t)
  (u.setEngine e { u.serve.engines[e] with demand := u.serve.engines[e].demand + 1 }).issueSlots e 1

/-- A command issues its instruction: the thread becomes `y`, and apart from the counts of the issue nothing changes. -/
def Issues (c : Instr) (s : State) (e : Fin 8) (t : Fin 16) (y : Thread) : Prop :=
  exec c s = .next ((counted s e t).setThread e t y)

/-- A command issues its instruction and the instruction raises a program fault. -/
def Faults (c : Instr) (s : State) (e : Fin 8) (t : Fin 16) (cause : Nat) : Prop :=
  exec c s = .next ((counted s e t).progFault e t cause)

/-- The opcodes of R298 with the commands that issue them. -/
def isaOps : List (Nat × (Fin 8 → Fin 16 → Instr)) :=
  [(0x00, .isaNop), (0x01, .isaAdd), (0x02, .isaSub), (0x03, .isaAnd), (0x04, .isaOr), (0x05, .isaXor), (0x06, .isaShl),
   (0x07, .isaShr), (0x08, .isaSar), (0x09, .isaMul), (0x0A, .isaMulhu), (0x0B, .isaAddc), (0x0C, .isaMinu), (0x0D, .isaMaxu),
   (0x0E, .isaSltu), (0x0F, .isaOrhi), (0x10, .isaBeq), (0x11, .isaBne), (0x12, .isaBltu), (0x13, .isaBgeu), (0x14, .isaBlt),
   (0x15, .isaBge), (0x16, .isaBset), (0x17, .isaBclr), (0x18, .isaJmp), (0x19, .isaCall), (0x1A, .isaRet), (0x1B, .isaXent)]
    ++ [(0x20, .isaLd8), (0x21, .isaLd16), (0x22, .isaLd32), (0x23, .isaLd64), (0x24, .isaSt8), (0x25, .isaSt16),
        (0x26, .isaSt32), (0x27, .isaSt64), (0x28, .isaCpy), (0x29, .isaCsum), (0x2A, .isaTurn), (0x30, .isaClook),
        (0x31, .isaCcreate), (0x32, .isaCwrite), (0x38, .isaSketch), (0x40, .isaAesq), (0x41, .isaAesw), (0x42, .isaRand),
        (0x50, .isaEmit), (0x51, .isaDrop), (0x52, .isaPunt), (0x58, .isaCinc)]

/-! ## Requests the agent carries out -/

/-- The agent is up and the request that is next has opcode `op`: `t` is the state that has accepted it, as `r`. -/
def Serving (s : State) (op : Nat) (t : State) (r : Req) : Prop :=
  s.agentUp = true ∧ s.agentBegin.nextReq = some (t, r) ∧ r.opcode = op

/-- The session requests with the commands that carry them out. -/
def requestOps : List (Nat × Instr) :=
  [(0x04, .close), (0x10, .read), (0x11, .readRecord), (0x12, .write), (0x13, .bulkRead), (0x14, .bulkWrite), (0x20, .begin),
   (0x21, .commit), (0x22, .abort), (0x23, .schedCancel), (0x30, .claim), (0x31, .heartbeat), (0x32, .handover), (0x33, .confirm),
   (0x34, .release)]

/-- Ownership is with session `k` of priority `prio` and node `node`, by a change of owner from `s` to `u` (R58). -/
def OwnedBy (s u : State) (k : Fin 32) (prio node : Nat) : Prop :=
  u.owner = some k ∧ u.nn Obj.owner_state = 2 ∧ u.nn Obj.owner_priority = prio ∧ u.nn Obj.owner_node_id = node
    ∧ u.nn Obj.owner_epoch = (s.nn Obj.owner_epoch + 1) % 2 ^ 32 ∧ u.ool.txn = none ∧ u.nn Obj.txn_state = 0
    ∧ u.ool.successor = none ∧ u.ool.claims = [] ∧ u.ool.leaseEnd = s.now + ticksS 3

/-- Ownership is free, by a change of owner from `s` to `u` (R58). -/
def Unowned (s u : State) : Prop :=
  u.owner = none ∧ u.nn Obj.owner_state = 0 ∧ u.nn Obj.owner_session = 255 ∧ u.nn Obj.owner_priority = 0
    ∧ u.nn Obj.owner_epoch = (s.nn Obj.owner_epoch + 1) % 2 ^ 32 ∧ u.ool.txn = none ∧ u.nn Obj.txn_state = 0 ∧ u.ool.successor = none

/-! ## Configuration sets -/

/-- The state from which a configuration set is read at bring-up step 6; the records of `bad` are found altered. -/
def setBase (s : State) (bad : List Nat) : State := (((s.setStep 6).setDom 4 2).setDom 5 2).spoilRecords bad

/-- What follows the set's values: a broken-off write is counted, the keys, ports 0-7 and counter blocks come up. -/
def setDone (s : State) : State :=
  let s := if s.sys.persistLost then ({ s with sys := { s.sys with persistLost := false } } : State).bump Obj.persist_fail else s
  (List.finRange 16).foldl (fun (s : State) (n : Fin 16) => s.armBlock n)
    ((List.finRange 64).foldl (fun (s : State) (n : Fin 64) => if n.val < 8 then s.refreshPort n 1 else s) s.loadKeys)

end Sys2Proof.Safety
end

