-- ==== Sys2Proof/Certificates/Slice0/Obligations.lean ====
section
/-! DEFINITION. The statements for the provers. A statement of a command's effect has its guard on state and operands on
the left and, on the right, that the command answers a next state and what that state holds. -/

open Sys2Proof Sys2Proof.Machine Sys2Proof.Safety

/-- A step runs the command at the front of the queue with the queue's rest. On an empty queue one tick of 0.8 ns passes (the
model's choice, log entry 2): elapsed time advances by one, the raw counter with it while it runs, and no command appears. -/
def Obligations.StepRunsFront : Prop :=
  (∀ (c : Instr) (rest : List Instr) (s : State), s.pending = c :: rest → step s = exec c { s with pending := rest })
  ∧ (∀ s : State, s.pending = [] → ∃ t, step s = .next t ∧ t.now = s.now + 1 ∧ t.pending = []
      ∧ t.tb.raw = (if s.tb.running then s.tb.raw + 1 else s.tb.raw))


/-- LEAP_COMPLETE (R99): a deletion completes at leap_time, an insertion one second later; the offset takes the leap, the
schedule is cleared, the completion is journalled, and nothing else changes.
Commands that complete here, on conditions on the state and operands alone: `leapComplete`. -/
def Obligations.LeapCompletes : Prop :=
  ∀ s : State, Wf s → s.n Obj.leap_delta ≠ 0 →
    s.n Obj.leap_time + (if s.n Obj.leap_delta = 1 then unitsPerS else 0) ≤ s.time →
    Yields .leapComplete s fun t =>
      t.n Obj.utc_offset = s.n Obj.utc_offset + s.n Obj.leap_delta ∧ t.n Obj.leap_time = 0 ∧ t.n Obj.leap_delta = 0
      ∧ t.journal = (s.log 0 0x2008 (be 1 (s.n Obj.leap_delta) ++ be 2 (s.n Obj.utc_offset + s.n Obj.leap_delta))).journal
      ∧ ObjBut s t [Obj.utc_offset, Obj.leap_time, Obj.leap_delta] ∧ t = { s with obj := t.obj, journal := t.journal }

/-- Segments and steps (R90, R91, R96, R72, R102).
Commands that complete here, on conditions on the state and operands alone: `slopeFollowupSegment`, `segmentStart`, `step`,
`snowdropAlign`. -/
def Obligations.TimebaseCommands : Prop :=
  -- SLOPE_FOLLOWUP_SEGMENT: the follow-up starts 12,500,000 ticks after the previous segment, continuous with it
  (∀ (s : State) (r : Int), s.tb.followUp = some r → s.tb.issued = none → s.tb.running = true → s.stepReserved = false →
    s.tb.newest.start / 256 + 12500000 ≤ s.tb.raw + 2060 → s.tb.raw + 2000 ≤ s.tb.newest.start / 256 + 12500000 →
    Yields .slopeFollowupSegment s fun t => ∃ g, t.tb.issued = some g ∧ g.start = (s.tb.newest.start / 256 + 12500000) * 256
      ∧ g.seq = s.tb.newest.seq + 1 ∧ g.time = s.tb.newest.convert g.start ∧ g.valid = s.tb.newest.valid ∧ g.step = false
      ∧ (s.rateOnly = false → g.rate = r) ∧ t.tb.segs = s.tb.segs
      ∧ t = { s with tb := t.tb, journal := t.journal, obj := t.obj, freeIdx := t.freeIdx })
  -- one held back past that tick starts 2000 to 2060 ticks after it is fixed (model choice, log entry 150)
  ∧ (∀ (s : State) (r : Int), s.tb.followUp = some r → s.tb.issued = none → s.tb.running = true → s.stepReserved = false →
    s.tb.newest.start / 256 + 12500000 < s.tb.raw + 2000 →
    Yields .slopeFollowupSegment s fun t => ∃ g, t.tb.issued = some g ∧ (s.tb.raw + 2000) * 256 ≤ g.start
      ∧ g.start ≤ (s.tb.raw + 2060) * 256 ∧ g.seq = s.tb.newest.seq + 1 ∧ g.time = s.tb.newest.convert g.start ∧ g.step = false
      ∧ t.tb.segs = s.tb.segs)
  -- a fixed segment is issued 40 to 60 ticks before its start (R89)
  ∧ (∀ (s : State) (w : SegRequest) (tick : Nat), 60 ≤ tick → (s.issueAt w tick).tb.issueTick + 40 ≤ tick
      ∧ tick ≤ (s.issueAt w tick).tb.issueTick + 60)
  -- SEGMENT_START: an issued segment without a step comes into force at its start stamp; intervals in progress last by its
  -- rate, holds follow, a request may issue
  ∧ (∀ (s : State) (g : Segment), s.tb.issued = some g → s.tb.reserved = none → s.tb.running = true → g.start ≤ s.tb.raw * 256 → g.step = false →
    exec .segmentStart s
      = .next (((List.finRange 20).foldl (fun (u : State) (n : Fin 20) => u.spanActive n g.start)
          { s with tb := { s.tb with segs := (g :: s.tb.segs).take 32, issued := none } }).evalOuts.tryIssue))
  -- and before it nothing happens but the issue of a waiting request
  ∧ (∀ (s : State) (g : Segment), s.tb.issued = some g → s.tb.raw * 256 < g.start → exec .segmentStart s = .next s)
  -- STEP: in RATE_ONLY the step waits with the present rate while another segment is issued
  ∧ (∀ (s : State) (amount : Int) (session : Nat), s.rateOnly = true → s.stepOk amount = true → s.hold.episode = false →
    s.tb.issued.isSome = true → s.tb.want = none →
    Yields (.step amount session) s fun t =>
      t.tb.want = some { rate := s.requestedRate, kind := .ownerStep (amount * 65536) session } ∧ t.tb.issued = s.tb.issued
      ∧ t.tb.segs = s.tb.segs ∧ t = { s with tb := t.tb, journal := t.journal, obj := t.obj })
  -- with none issued and the spacing past, its segment is fixed at once: the next in sequence, offset by the amount
  ∧ (∀ (s : State) (amount : Int) (session : Nat), s.rateOnly = true → s.stepOk amount = true → s.hold.episode = false →
    s.tb.issued = none → s.tb.want = none → s.tb.running = true → s.stepReserved = false →
    s.tb.newest.start / 256 + 2500 ≤ s.tb.raw + 2060 →
    Yields (.step amount session) s fun t => ∃ g, t.tb.issued = some g ∧ g.step = true ∧ g.seq = s.tb.newest.seq + 1
      ∧ g.time = s.tb.newest.convert g.start + amount * 65536 ∧ s.tb.raw * 256 < g.start ∧ t.tb.want = none
      ∧ t.tb.segs = s.tb.segs ∧ t.slots = s.slots ∧ t.ports = s.ports)
  -- SNOWDROP_ALIGN: Snowdrop takes device time and its uncertainty plus one keep-clock period
  ∧ (∀ s : State, s.keep.mainGood = true → s.awake 2 = true → s.mode.cur ≠ .cellar → s.timeValid = true →
    exec .snowdropAlign s = .next { s with keep := { s.keep with coarseValid := true, coarse := s.time, alignedAt := s.now,
                                                                 uncAtAlign := s.currentUncertainty + 30518 } })

/-- JOURNAL_ENTRY_VISIBLE (R102): the first entry in order becomes visible with the next sequence once its stamp is older
than journal_reorder_delay; a full journal loses its oldest entry and counts it.
Commands that complete here, on conditions on the state and operands alone: `journalEntryVisible`. -/
def Obligations.JournalEntryBecomesVisible : Prop :=
  ∀ (s : State) (e : JEntry), Wf s → firstEntry s.journal.queue = some e → s.awake 6 = true →
    e.stamp + s.nn Obj.journal_reorder_delay * 1250 * 256 ≤ s.tb.raw * 256 →
    Yields .journalEntryVisible s fun t =>
      let seq := (s.nn Obj.journal_newest_seq + 1) % 2 ^ 32
      let full := 4096 ≤ s.journal.visible.length
      t.journal.visible = (if full then s.journal.visible.drop 1 else s.journal.visible) ++ [{ e with seq }]
      ∧ t.journal.queue = s.journal.queue.erase e ∧ t.journal.lost = s.journal.lost
      ∧ t.nn Obj.journal_newest_seq = seq ∧ t.nn Obj.journal_count = t.journal.visible.length
      ∧ (full → t.nn Obj.journal_overflow = (s.nn Obj.journal_overflow + 1) % 2 ^ 32)
      ∧ ObjBut s t [Obj.journal_newest_seq, Obj.journal_count, Obj.journal_overflow]
      ∧ (¬ full → t.get Obj.journal_overflow = s.get Obj.journal_overflow)
      ∧ t = { s with obj := t.obj, journal := t.journal, ctrs := t.ctrs }

/-- The mode machine's commands (R66, R67).
Commands that complete here, on conditions on the state and operands alone: `mashTimeout`, `timingConditionEvaluate`. -/
def Obligations.ModeCommands : Prop :=
  -- MASH_TIMEOUT: the expiry in condition 0 or 1 is kept for the next evaluation
  (∀ (s : State) (t0 : Nat), s.mode.mashSince = some t0 → s.nn Obj.mash_timeout ≠ 0 → t0 + ticksS (s.nn Obj.mash_timeout) ≤ s.now →
    (s.n Obj.timing_condition = 0 ∨ s.n Obj.timing_condition = 1) →
    exec .mashTimeout s = .next { s with mode := { s.mode with mashExpired := true, mashSince := none } })
  -- TIMING_CONDITION_EVALUATE: the bound grows, then loss, budget, lock and timeout are taken in order, pins and holds follow
  ∧ (∀ s : State, s.awake 2 = true → (s.growBound.takeLoss.n Obj.timing_condition ≠ 3 ∨ s.growBound.takeLoss.overBudget = false) →
    exec .timingConditionEvaluate s = .next s.growBound.takeLoss.takeLock.takeMash.drivePins.evalOuts)
  -- in condition 3 a bound beyond the budget makes condition 4 with out_of_spec
  ∧ (∀ s : State, s.awake 2 = true → s.growBound.takeLoss.n Obj.timing_condition = 3 → s.growBound.takeLoss.overBudget = true →
    exec .timingConditionEvaluate s = .next s.growBound.takeLoss.crossBudget.takeLock.takeMash.drivePins.evalOuts)
  -- asleep, the evaluation does nothing
  ∧ (∀ s : State, s.awake 2 = false → exec .timingConditionEvaluate s = .next s)

/-- Edges, frames and messages of the reference inputs (R112-R118).
Commands that complete here, on conditions on the state and operands alone: `refinEdge`, `todinFrame`, `nmeaSentence`,
`esmcPduReceive`, `esmcAbsent`, `missingEdge`. -/
def Obligations.ReferenceInputs : Prop :=
  -- REFIN_EDGE: of an input that is on, every N-th edge is monitored: its stamp is kept with the device time it converts to,
  -- each slot on the input takes the edge, then the alignments and the captures of the input
  (∀ (s : State) (i : Fin 8) (stamp : Nat), s.awake 2 = true → s.n (Obj.refin_mode i) ≠ 0 →
    refinDivider (s.nn (Obj.refin_frequency i)) ≤ s.refins[i].edges + 1 →
    exec (.refinEdge i stamp) s = .next (
      let st := stamp128 stamp
      let s1 := (s.setRefin i { edges := 0, stamp := st, time := s.convert st }).putO (Obj.refin_last_stamp i) (be 9 st)
      let s2 := ((s1.slotsOn [1, 2, 3] i).foldl (fun (u : State) (k : Fin 16) => u.slotEdge k st) s1).alignFeed (1 + i) st
      (List.finRange 16).foldl (fun (u : State) (c : Fin 16) =>
        if u.nn (Obj.cap_input c) = 1 + i then u.capPush c st (s2.n (Obj.refin_edge i) == 1) else u) s2))
  -- the edges between are counted and no more; an input that is off takes none
  ∧ (∀ (s : State) (i : Fin 8) (stamp : Nat), s.awake 2 = true → s.n (Obj.refin_mode i) ≠ 0 →
    s.refins[i].edges + 1 < refinDivider (s.nn (Obj.refin_frequency i)) →
    exec (.refinEdge i stamp) s = .next (s.setRefin i { s.refins[i] with edges := s.refins[i].edges + 1 }))
  ∧ (∀ (s : State) (i : Fin 8) (stamp : Nat), s.n (Obj.refin_mode i) = 0 → exec (.refinEdge i stamp) s = .next s)
  -- TODIN_FRAME: one slot of kind 2 on the input takes the frame; a bad CRC in the window is discarded with reason 1
  ∧ (∀ (s : State) (n : Fin 8) (start : Nat) (b : Bytes) (i : Fin 16), s.slotsOn [2] n = [i] →
    inLabelWindow s.slots[i].lastEdge start = true → rafCrcOk b = false →
    exec (.todinFrame n start b) s = .next (s.discardTod n i 1))
  -- outside the window of 1 ms to 500 ms after the edge the reason is 0
  ∧ (∀ (s : State) (n : Fin 8) (start : Nat) (b : Bytes) (i : Fin 16), s.slotsOn [2] n = [i] →
    inLabelWindow s.slots[i].lastEdge start = false →
    exec (.todinFrame n start b) s = .next (s.discardTod n i 0))
  -- an accepted frame counts and labels the edge with the frame's time and quality; the active slot's is adopted
  ∧ (∀ (s : State) (n : Fin 8) (start e : Nat) (b : Bytes) (i : Fin 16), s.slotsOn [2] n = [i] → s.slots[i].lastEdge = some e →
    inLabelWindow (some e) start = true → rafCrcOk b = true → rafOk b = true →
    exec (.todinFrame n start b) s = .next (
      let u := ((s.bump (Obj.todin_accepted n)).setSlot i { s.slots[i] with qualityReceived := fieldN b 20 1,
                                                                            timeSource := fieldN b 21 1 }).acceptLabel
          i e (timeOfBytes (field b 6 14))
      if u.selT.active = some i then u.adoptRaf b else u))
  -- NMEA_SENTENCE with label mode 1: the label waits for the next edge
  ∧ (∀ (s : State) (n : Fin 8) (start : Nat) (b body : Bytes) (t : Int) (i : Fin 16), s.slotsOn [3] n = [i] →
    nmeaBody b = some body → nmeaTime body = some (t, false) → s.nn (Obj.nmea_label n) = 1 →
    exec (.nmeaSentence n start b) s = .next (s.setSlot i { s.slots[i] with
      nextLabels := s.slots[i].nextLabels ++ [((t + s.n Obj.utc_offset) * unitsPerS, start)] }))
  -- with label mode 0 it counts and labels the edge before it, in the window of R114
  ∧ (∀ (s : State) (n : Fin 8) (start e : Nat) (b body : Bytes) (t : Int) (i : Fin 16), s.slotsOn [3] n = [i] →
    nmeaBody b = some body → nmeaTime body = some (t, false) → s.nn (Obj.nmea_label n) ≠ 1 → s.slots[i].lastEdge = some e →
    (inLabelWindow (some e) start = true → exec (.nmeaSentence n start b) s
      = .next ((s.bump (Obj.todin_accepted n)).acceptLabel i e ((t + s.n Obj.utc_offset) * unitsPerS)))
    ∧ (inLabelWindow (some e) start = false → exec (.nmeaSentence n start b) s = .next (s.discardTod n i 0)))
  -- a bad checksum is journalled with reason 1, a sentence that says its time is not valid is discarded with reason 3
  ∧ (∀ (s : State) (n : Fin 8) (start : Nat) (b : Bytes) (i : Fin 16), s.slotsOn [3] n = [i] →
    (nmeaBody b = none → exec (.nmeaSentence n start b) s = .next (s.noteDiscard i 1))
    ∧ (∀ body t, nmeaBody b = some body → nmeaTime body = some (t, true) →
        exec (.nmeaSentence n start b) s = .next (s.discardTod n i 3)))
  -- ESMC_PDU_RECEIVE: the received quality and the instant are kept, then the checks apply
  ∧ (∀ (s : State) (p : Fin 64) (ssm : Nat) (essm : Option Nat) (i : Fin 16), s.slotsOn [4] p = [i] →
    (s.nn (Obj.esmc_mode i) ≠ 2 → exec (.esmcPduReceive p ssm essm) s = .next ((s.setSlot i { s.slots[i] with
      qualityReceived := esmcQuality (s.nn (Obj.esmc_mode i) == 1) ssm (essm.getD 0xFF), lastEsmc := some s.now,
      esmcAbsent := false }).evalSlot i))
    ∧ (s.nn (Obj.esmc_mode i) = 2 → exec (.esmcPduReceive p ssm essm) s
        = .next (s.setSlot i { s.slots[i] with lastEsmc := some s.now, esmcAbsent := false })))
  -- ESMC_ABSENT: no PDU for 5 s gives quality 255
  ∧ (∀ (s : State) (i : Fin 16), s.kind i = 4 → s.nn (Obj.esmc_mode i) ≠ 2 → s.slots[i].state ≠ .disabled →
    s.slots[i].lastEsmc.getD s.slots[i].boundAt + 6250000000 ≤ s.now →
    exec (.esmcAbsent i) s = .next ((s.setSlot i { s.slots[i] with qualityReceived := 255, esmcAbsent := true }).evalSlot i))
  -- MISSING_EDGE: declared once (1 + tol) periods have passed; the missing check fails from missing_limit on
  ∧ (∀ (s : State) (i : Fin 16), s.slots[i].state ≠ .disabled → (s.kind i = 1 ∨ s.kind i = 2 ∨ s.kind i = 3) →
    (s.slots[i].missed * 10000 + 10000 + s.nn (Obj.interval_tolerance i)) * refinPeriodNum (s.nn (Obj.refin_frequency (s.number i)))
      ≤ (s.stamp - s.slots[i].lastEdge.getD s.slots[i].boundStamp) * s.nn (Obj.refin_frequency (s.number i)) * 10000 →
    exec (.missingEdge i) s = .next (((s.bump (Obj.missing_count i)).setSlot i { s.slots[i] with
      missed := s.slots[i].missed + 1,
      failing := if s.nn (Obj.missing_limit i) ≤ s.slots[i].missed + 1 then setBit s.slots[i].failing causeMissing true
        else s.slots[i].failing }).evalSlot i))

/-- The timers and events of the slots' states (R110, R118, R119, R121).
Commands that complete here, on conditions on the state and operands alone: `qualifyTimerExpiry`, `wtrTimerExpiry`,
`operatorValidityExpiry`, `syncReceiptTimeout`, `operatorTime`. -/
def Obligations.SlotStates : Prop :=
  -- QUALIFY_TIMER_EXPIRY: a slot that never was QUALIFIED, or has no wait to restore, becomes QUALIFIED
  (∀ (s : State) (i : Fin 16) (d : Nat), (s.evalSlot i).slots[i].state = .qualifying → (s.evalSlot i).slots[i].deadline = some d →
    d ≤ (s.evalSlot i).now → (s.evalSlot i).mode.bringupDone = true →
    ((s.evalSlot i).slots[i].everQualified = false ∨ (s.evalSlot i).n (Obj.wtr_time i) = 0) →
    Yields (.qualifyTimerExpiry i) s fun t => t.slots[i].state = .qualified ∧ t.slots[i].qualifiedAt = (s.evalSlot i).now
      ∧ t = { s.evalSlot i with slots := t.slots, journal := t.journal, obj := t.obj })
  -- a slot that was QUALIFIED before waits for wtr_time seconds
  ∧ (∀ (s : State) (i : Fin 16) (d : Nat), (s.evalSlot i).slots[i].state = .qualifying → (s.evalSlot i).slots[i].deadline = some d →
    d ≤ (s.evalSlot i).now → (s.evalSlot i).mode.bringupDone = true → (s.evalSlot i).slots[i].everQualified = true →
    (s.evalSlot i).n (Obj.wtr_time i) ≠ 0 →
    Yields (.qualifyTimerExpiry i) s fun t => t.slots[i].state = .waitToRestore
      ∧ t.slots[i].deadline = some ((s.evalSlot i).now + ticksS ((s.evalSlot i).nn (Obj.wtr_time i)))
      ∧ t = { s.evalSlot i with slots := t.slots, journal := t.journal, obj := t.obj })
  -- WTR_TIMER_EXPIRY
  ∧ (∀ (s : State) (i : Fin 16) (d : Nat), (s.evalSlot i).slots[i].state = .waitToRestore →
    (s.evalSlot i).slots[i].deadline = some d → d ≤ (s.evalSlot i).now →
    Yields (.wtrTimerExpiry i) s fun t => t.slots[i].state = .qualified ∧ t.slots[i].everQualified = true
      ∧ t = { s.evalSlot i with slots := t.slots, journal := t.journal, obj := t.obj })
  -- OPERATOR_VALIDITY_EXPIRY: the checks are applied
  ∧ (∀ (s : State) (i : Fin 16), exec (.operatorValidityExpiry i) s = .next (s.evalSlot i))
  -- SYNC_RECEIPT_TIMEOUT: the source of a kind 5 slot is down
  ∧ (∀ (s : State) (i : Fin 16), s.kind i = 5 → s.mode.suspend5 = false →
    exec (.syncReceiptTimeout i) s = .next ((s.setSlot i { s.slots[i] with down := true }).evalSlot i))
  -- OPERATOR_TIME for a slot that is not active: the entry is the slot's one measurement
  ∧ (∀ (s : State) (i : Fin 16) (time : Int), s.kind i = 7 → s.slotEnabled i = true →
    ((s.setSlot i { s.slots[i] with operatorAt := some s.now, operatorError := s.time - time,
                                    samples := [{ stamp := s.stamp, carried := time, phase := some (s.time - time) }] }).evalSlot i).selT.active
      ≠ some i →
    exec (.operatorTime i time) s
      = .next ((s.setSlot i { s.slots[i] with operatorAt := some s.now, operatorError := s.time - time,
                                              samples := [{ stamp := s.stamp, carried := time, phase := some (s.time - time) }] }).evalSlot i))
  -- for the active slot the error joins pending_phase, DPLL-T is LOCKED and a rate that removes it is requested
  ∧ (∀ (s : State) (i : Fin 16) (time : Int), s.kind i = 7 → s.slotEnabled i = true →
    (let u := (s.setSlot i { s.slots[i] with operatorAt := some s.now, operatorError := s.time - time,
                                             samples := [{ stamp := s.stamp, carried := time, phase := some (s.time - time) }] }).evalSlot i
     u.selT.active = some i →
     exec (.operatorTime i time) s = .next (
      let v := u.addPending (s.time - time)
      let v := if v.loops[0].state = .acquiring then v.lockT none else v
      (v.updateLoop 0 v.tb.pendingPhase v.stamp false).requestSegment (.rate false))))
  -- QUALIFY_TIMER_EXPIRY does nothing more than the checks before bring-up is complete
  ∧ (∀ (s : State) (i : Fin 16), (s.evalSlot i).mode.bringupDone = false → exec (.qualifyTimerExpiry i) s = .next (s.evalSlot i))

/-- Captures (R173-R175).
Commands that complete here, on conditions on the state and operands alone: `captureEdge`, `captureConvert`, `capAckSeq`. -/
def Obligations.Captures : Prop :=
  -- CAPTURE_EDGE: a pulse shorter than the filter counts as a glitch and changes nothing else
  (∀ (s : State) (c : Fin 16) (stamp stable : Nat) (falling : Bool), s.awake 2 = true → s.n (Obj.cap_input c) = 0 → s.caps[c].level = falling →
    stable < s.nn (Obj.cap_filter c) → exec (.captureEdge c stamp falling stable) s = .next (s.bump (Obj.cap_glitch c)))
  -- a selected edge of an enabled capture enters the stamp queue, cap_delay subtracted
  ∧ (∀ (s : State) (c : Fin 16) (stamp stable : Nat) (falling : Bool), s.awake 2 = true → s.caps[c].level = falling →
    s.nn (Obj.cap_filter c) ≤ stable → s.n (Obj.cap_edge c) = 2 → s.n (Obj.cap_filter c) ≠ 0 → s.n (Obj.cap_input c) = 0 →
    s.flag (Obj.cap_enable c) = true → s.caps[c].queue.length < 16 → (∀ o : Fin 20, s.nn (Obj.align_source o) ≠ 16 + c) →
    Yields (.captureEdge c stamp falling stable) s fun t =>
      t.caps[c].queue = s.caps[c].queue ++ [(stampLess stamp (s.n (Obj.cap_delay c)), falling)]
      ∧ t.caps[c].level = !falling ∧ t = { s with caps := t.caps })
  -- with a REFIN source the pin feeds the alignments alone
  ∧ (∀ (s : State) (c : Fin 16) (stamp stable : Nat) (falling : Bool), s.awake 2 = true → s.caps[c].level = falling →
    s.nn (Obj.cap_filter c) ≤ stable → s.n (Obj.cap_edge c) = 2 → s.n (Obj.cap_filter c) ≠ 0 → s.n (Obj.cap_input c) ≠ 0 →
    exec (.captureEdge c stamp falling stable) s
      = .next ((s.setCap c { s.caps[c] with level := !falling, lastEdge := some stamp }).alignFeed (16 + c)
          (stampLess stamp (s.n (Obj.cap_delay c)))))
  -- CAPTURE_CONVERT: with room in the FIFO the oldest stamp becomes the next entry and is consumed from the queue
  ∧ (∀ (s : State) (c : Fin 16) (stamp : Nat) (falling : Bool) (r : List (Nat × Bool)), Wf s →
    s.caps[c].queue = (stamp, falling) :: r → s.caps[c].busyUntil ≤ s.now → s.nn (Obj.cap_count c) < 64 →
    s.flag (Obj.cap_journal c) = false →
    Yields (.captureConvert c) s fun t =>
      let seq := (s.nn (Obj.cap_newest_seq c) + 1) % 2 ^ 32
      t.caps[c].queue = r ∧ t.caps[c].busyUntil = s.now + 50 ∧ t.nn (Obj.cap_newest_seq c) = seq
      ∧ t.nn (Obj.cap_count c) = s.nn (Obj.cap_count c) + 1 ∧ t.octs (Obj.cap_entry c (seq % 64)) = s.capBytes seq stamp falling
      ∧ t = { s with caps := t.caps, obj := t.obj })
  -- CAP_ACK_SEQ: entries up to the sequence are consumed; a value outside the range fails and changes nothing
  ∧ (∀ (s : State) (c : Fin 16) (seq : Nat), Wf s → s.capAckOk c seq = true →
    Yields (.capAckSeq c seq) s fun t =>
      t.n (Obj.cap_ack_seq c) = seq ∧ t.n (Obj.cap_count c) = min (s.n (Obj.cap_count c)) (s.n (Obj.cap_newest_seq c) - seq)
      ∧ ObjBut s t [Obj.cap_ack_seq c, Obj.cap_count c, Obj.cap_entries c] ∧ t = { s with obj := t.obj })
  ∧ (∀ (s : State) (c : Fin 16) (seq : Nat), s.capAckOk c seq = false → exec (.capAckSeq c seq) s = .next s)

/-- Selection (R120, R123, R127).
Commands that complete here, on conditions on the state and operands alone: `selectionEvaluate`, `manualSlotArm`,
`transitionComplete`, `disputeCompare`. -/
def Obligations.SelectionCommands : Prop :=
  -- SELECTION_EVALUATE: the slots' checks first, then DPLL-T, then DPLL-F, then assistance
  (∀ s : State, exec .selectionEvaluate s
    = .next ((((List.finRange 16).foldl (fun (u : State) (i : Fin 16) => u.evalSlot i) s).evalSelection false).evalSelection true).updateAssist)
  -- MANUAL_SLOT_ARM: the object is written and the slot armed when it names one
  ∧ (∀ (s : State) (manual : Nat), Wf s → Yields (.manualSlotArm false manual) s fun t =>
      t.selT.armed = decide (manual < 16) ∧ t.selT.active = s.selT.active ∧ t.selT.transition = s.selT.transition ∧ t.nn Obj.t_manual_slot = manual
      ∧ t = { s with obj := t.obj, selT := t.selT } ∧ ObjBut s t [Obj.t_manual_slot])
  ∧ (∀ (s : State) (manual : Nat), Wf s → Yields (.manualSlotArm true manual) s fun t =>
      t.selF.armed = decide (manual < 16) ∧ t.selF.active = s.selF.active ∧ t.selF.transition = s.selF.transition ∧ t.nn Obj.f_manual_slot = manual
      ∧ t = { s with obj := t.obj, selF := t.selF } ∧ ObjBut s t [Obj.f_manual_slot])
  -- TRANSITION_COMPLETE: at its end the build-out joins pending_phase, the lock measurement starts afresh, the switch is
  -- journalled, and the selections evaluate again
  ∧ (∀ (s : State) (left : Option (Fin 16)) (tEnd : Nat) (b : Int) (i : Fin 16), s.selT.transition = some (left, tEnd, b) →
    s.selT.active = some i → tEnd ≤ s.now → (s.evalSlot i).fitActive i = true →
    exec (.transitionComplete false) s = .next (
      let u := ({ s with selT := { s.selT with transition := none } } : State).addPending b
      let u := u.setLoop 0 { u.loops[0] with goodSince := none, freshFrom := u.stamp }
      (u.log (slotSource i) 0x2202 (be 1 0 ++ durToBytes (unitsToNs b))).evaluate))
  ∧ (∀ (s : State) (b : Int), (s.addPending b).tb.pendingPhase = (s.reducePending s.stamp).tb.pendingPhase + b
      ∧ (s.addPending b).selT = s.selT ∧ (s.addPending b).loops = s.loops ∧ (s.addPending b).tb.segs = s.tb.segs)
  -- DPLL-F's transition leaves device time alone
  ∧ (∀ (s : State) (left : Option (Fin 16)) (tEnd : Nat) (b : Int) (i : Fin 16), s.selF.transition = some (left, tEnd, b) →
    s.selF.active = some i → tEnd ≤ s.now → (s.evalSlot i).fitActive i = true →
    exec (.transitionComplete true) s = .next (
      let u : State := { s with selF := { s.selF with transition := none } }
      let u := u.setLoop 1 { u.loops[1] with goodSince := none, freshFrom := u.stamp }
      (u.log (slotSource i) 0x2202 (be 1 1 ++ durToBytes (unitsToNs b))).evaluate))
  -- a transition whose target has failed hands over nothing: the evaluation abandons it (R128)
  ∧ (∀ (s : State) (forF : Bool) (left : Option (Fin 16)) (tEnd : Nat) (b : Int) (i : Fin 16),
    (s.sel forF).transition = some (left, tEnd, b) → (s.sel forF).active = some i → tEnd ≤ s.now → (s.evalSlot i).fitActive i = false →
    exec (.transitionComplete forF) s = .next s.evaluate)
  -- DISPUTE_COMPARE: each pair of considered slots of DPLL-T, then of DPLL-F, then the outvoted slots
  ∧ (∀ s : State, exec .disputeCompare s = .next (
      let pass := fun (forF : Bool) (u : State) => slotPairs.foldl (fun (u : State) (p : Fin 16 × Fin 16) =>
        if u.considered forF p.1 && u.considered forF p.2 then u.comparePair forF p.1 p.2 else u) u
      (List.finRange 16).foldl (fun (u : State) (i : Fin 16) => u.checkOutvoted i) (pass true (pass false s))))

/-- The loops' measurements (R130, R132, R136, R141, R145, R146, R151).
Commands that complete here, on conditions on the state and operands alone: `dpllTMeasurement`, `dpllFMeasurement`,
`mediaLoopUpdate`, `holdoverRateUpdate`, `holdoverRemainingUpdate`, `steering`. -/
def Obligations.LoopMeasurements : Prop :=
  -- DPLL_T_MEASUREMENT of the active slot: its newest phase offset, less a build-out in progress, drives the loop; lock is
  -- judged on the offset itself; a rate is requested, and what a clamp leaves uncorrected is pending_phase
  (∀ (s : State) (i : Fin 16) (m : Sample) (r : List Sample) (p : Int), s.selT.active = some i →
    s.slotClass i ≠ .o → s.slots[i].samples = m :: r → m.phase = some p →
    exec (.dpllTMeasurement i) s = .next (
      let u := (((s.reducePending m.stamp).setBandwidth 0 ((s.reducePending m.stamp).slotRate i)))
      let e := u.loopErrorT p
      let u := u.updateLoop 0 e m.stamp true
      let u := u.setLoop 0 { u.loops[0] with phaseErr := (u.slots[i].phaseMean 1).getD p }
      let w := u.lockCheck 0 (u.lockGoodT i m.stamp) m.stamp
      let v := (if w.2 && decide (w.1.loops[0].state = .acquiring) then w.1.lockT (w.1.slotRate i) else w.1).requestSegment (.rate false)
      if v.tb.rateClamped || v.tb.slopeClamped then { v with tb := { v.tb with pendingPhase := e } } else v))
  -- of an active operator slot: the estimator's frequency, the pending phase removed by rate
  ∧ (∀ (s : State) (i : Fin 16), s.selT.active = some i → s.slotClass i = .o →
    exec (.dpllTMeasurement i) s = .next (
      let u := s.reducePending s.stamp
      let u := u.setLoop 0 { u.loops[0] with freqEst := if u.hold.usable then u.estimatorTerm else u.meanEstimate 0 }
      (u.updateLoop 0 u.tb.pendingPhase u.stamp false).requestSegment (.rate false)))
  -- of a slot that is not active nothing changes
  ∧ (∀ (s : State) (i : Fin 16), s.selT.active ≠ some i → exec (.dpllTMeasurement i) s = .next s)
  -- DPLL_F_MEASUREMENT of the active slot: the frequency word moves towards the slot's frequency within the phase limit; other
  -- loops keep theirs
  ∧ (∀ (s : State) (i : Fin 16) (y : Int), s.selF.active = some i → s.slots[i].freqLast = some y →
    Yields (.dpllFMeasurement ⟨i, none⟩) s fun t => t.loops[1].lastStamp ≠ none
      ∧ t.loops[1].freqWord = t.loops[1].freqEst + t.loops[1].phaseCorr
      ∧ t.loops[0] = s.loops[0] ∧ t.loops[2] = s.loops[2] ∧ t.loops[3] = s.loops[3]
      ∧ t.tb = s.tb ∧ t.slots = s.slots)
  -- a SyncE slot's frequency is kept and its checks applied, active or not
  ∧ (∀ (s : State) (i : Fin 16) (y : Int), s.kind i = 4 → s.slotEnabled i = true →
    (s.slotFreqMeasure i y).selF.active ≠ some i → exec (.dpllFMeasurement ⟨i, some y⟩) s = .next (s.slotFreqMeasure i y))
  -- MEDIA_LOOP_UPDATE: DPLL-A and DPLL-B follow device time; DPLL-T, DPLL-F and the timebase are left alone
  ∧ (∀ (s : State) (b : Bool), Yields (.mediaLoopUpdate b) s fun t =>
      t.loops[0] = s.loops[0] ∧ t.loops[1] = s.loops[1]
      ∧ (b = true → t.loops[2] = s.loops[2]) ∧ (b = false → t.loops[3] = s.loops[3])
      ∧ t.loops[(if b then 3 else 2 : Fin 4)].lastStamp = some s.stamp ∧ t.tb = s.tb)
  -- HOLDOVER_RATE_UPDATE in holdover without assistance: the usable estimator's term, without phase correction, is requested
  ∧ (∀ (s : State) (temp : Int), ((s.updateTemp temp).loops[0].state = .holdover ∨ (s.updateTemp temp).loops[0].state = .freeRun) →
    (s.updateTemp temp).updateAssist.hold.assist = none → (s.updateTemp temp).updateAssist.hold.usable = true →
    exec (.holdoverRateUpdate temp) s = .next (
      let u := (s.updateTemp temp).updateAssist
      (u.setLoop 0 { u.loops[0] with freqEst := u.estimatorTerm, phaseCorr := 0 }).requestSegment (.rate false)))
  -- HOLDOVER_REMAINING_UPDATE
  ∧ (∀ s : State, exec .holdoverRemainingUpdate s = .next (s.putN Obj.holdover_remaining s.remaining))
  -- STEERING: the owner's term is written and a segment with the new rate requested
  ∧ (∀ (s : State) (v : Int), exec (.steering v) s
      = .next (((s.putN Obj.steering v).putN Obj.steering_applied v).requestSegment (.rate true)))

/-- The oscillator, its model and the EFC output (R138-R143).
Commands that complete here, on conditions on the state and operands alone: `oscMonitor`, `modelReset`, `modelStore`,
`modelLearnSample`, `efcUpdate`, `efcCompensate`. -/
def Obligations.OscillatorModel : Prop :=
  -- OSC_MONITOR: beyond the limit the alarm is raised and journalled once; within it the alarm is cleared
  (∀ (s : State) (x : Int), Wf s → s.n Obj.osc_monitor_limit * 1000000 < x.natAbs →
    Yields (.oscMonitor x) s fun t => t.n Obj.osc_monitor_offset = x ∧ t.flag Obj.osc_alarm = true
      ∧ ObjBut s t [Obj.osc_monitor_offset, Obj.osc_alarm] ∧ t = { s with obj := t.obj, journal := t.journal }
      ∧ (s.flag Obj.osc_alarm = true → t.journal = s.journal))
  ∧ (∀ (s : State) (x : Int), Wf s → x.natAbs ≤ s.n Obj.osc_monitor_limit * 1000000 →
    Yields (.oscMonitor x) s fun t => t.n Obj.osc_monitor_offset = x ∧ t.flag Obj.osc_alarm = false
      ∧ ObjBut s t [Obj.osc_monitor_offset, Obj.osc_alarm] ∧ t = { s with obj := t.obj })
  -- MODEL_RESET: the model is NONE, nothing is learned, the device writes model_reset back to false
  ∧ (∀ s : State, Wf s → Yields .modelReset s fun t => t.hold.model = .none ∧ t.hold.samples = [] ∧ t.hold.learned = 0
      ∧ t.hold.y0 = 0 ∧ t.hold.a = 0 ∧ t.hold.c = 0
      ∧ t.n Obj.model_learn_time = 0 ∧ t.flag Obj.model_reset = false ∧ t.loops = s.loops ∧ t.tb = s.tb ∧ t.keep = s.keep)
  -- MODEL_STORE
  ∧ (∀ s : State, s.keep.mainGood = true → exec .modelStore s = .next s.storeModel)
  -- MODEL_LEARN_SAMPLE: locked and settled, with no dispute, the sample of the present instant is learned and older ones leave the window
  ∧ (∀ (s : State) (temp : Int), (s.updateTemp temp).loops[0].state = .locked → (s.updateTemp temp).selT.transition = none →
    (s.updateTemp temp).hold.model ≠ .frozen → (s.updateTemp temp).disputes = [] →
    Yields (.modelLearnSample temp) s fun t => t.hold.samples
        = (({ t := s.now, y := s.hold.efcApplied - s.loops[0].freqEst, temp := (s.updateTemp temp).hold.tFilt } : LearnSample)
            :: s.hold.samples).filter (fun x => (s.now : Int) - x.t ≤ (ticksS (s.nn Obj.model_window) : Nat))
      ∧ t.hold.learned = t.hold.samples.length ∧ t.hold.model ≠ .none ∧ t.loops = s.loops ∧ t.tb = s.tb)
  -- EFC_UPDATE: one LSB towards a zero predicted offset, its compensation due after efc_settle
  ∧ (∀ s : State, Wf s → s.efcMay = true → s.n Obj.efc_gain < 0 → 0 < s.predictedOffset → s.nn Obj.efc_code + 1 < 2 ^ s.nn Obj.efc_bits →
    Yields .efcUpdate s fun t => t.nn Obj.efc_code = s.nn Obj.efc_code + 1 ∧ t.hold.efcLast = some s.now ∧ t.hold.efcUp = some true
      ∧ t.hold.efcPending = s.hold.efcPending ++ [(s.now + ticksUs (s.nn Obj.efc_settle), -s.n Obj.efc_gain * 1000)]
      ∧ t.loops = s.loops ∧ t.tb = s.tb)
  -- EFC_COMPENSATE: all compensations due act at one tick on every loop, then a rate is requested
  ∧ (∀ s : State, s.hold.efcPending.filter (fun p => p.1 ≤ s.now) ≠ [] → exec .efcCompensate s = .next (
      (({ s with hold := { s.hold with efcPending := s.hold.efcPending.filter fun p => s.now < p.1 } } : State).compensate
        ((s.hold.efcPending.filter fun p => p.1 ≤ s.now).map (·.2)).sum).requestSegment (.rate false)))

/-- Output edges, jumps, start pulses and pads (R153-R166).
Commands that complete here, on conditions on the state and operands alone: `outputEdge`, `outputPhaseJump`,
`startTimeCommit`, `padCompensationUpdate`. -/
def Obligations.OutputCommands : Prop :=
  -- OUTPUT_EDGE of a running grid output whose committed function and loop it runs, once its stamp is reached
  (∀ (s : State) (n : Fin 20) (pad : Option Int) (t : Rat), s.awake 2 = true → s.outs[n].fn = s.nn (Obj.out_function n) →
    s.outs[n].loop = s.nn (Obj.out_loop n) → s.outs[n].nextRaw = none → s.outs[n].next = some t →
    s.edgeStamp n t ≤ s.stamp → s.holdCause n = none → s.n (Obj.out_state n) ≠ 1 →
    exec (.outputEdge n pad) s = .next (s.produceEdge n t pad))
  -- the first edge after a hold starts the output with its calibrated pad delay, journalled
  ∧ (∀ (s : State) (n : Fin 20) (pad : Option Int) (t : Rat), s.awake 2 = true → s.outs[n].fn = s.nn (Obj.out_function n) →
    s.outs[n].loop = s.nn (Obj.out_loop n) → s.outs[n].nextRaw = none → s.outs[n].next = some t →
    s.edgeStamp n t ≤ s.stamp → s.holdCause n = none → s.n (Obj.out_state n) = 1 →
    exec (.outputEdge n pad) s
      = .next (((((s.setOut n (s.outs[n].padStart s n)).putN (Obj.out_state n) 2).logStarted n).produceEdge n t pad)))
  -- a clock on DPLL-F takes its next rising edge one period later with half of it active
  ∧ (∀ (s : State) (n : Fin 20) (pad : Option Int) (r : Rat), s.awake 2 = true → s.outs[n].fn = s.nn (Obj.out_function n) →
    s.outs[n].loop = s.nn (Obj.out_loop n) → s.outs[n].nextRaw = some r → r ≤ s.stamp → s.outs[n].fn ≠ 0 →
    exec (.outputEdge n pad) s = .next (((s.setOut n
      { s.outs[n] with nextRaw := some (r + s.periodF n), activeUntil := (r + s.periodF n / 2).floor.toNat,
                       lastEdge := (r.floor.toNat, s.convert r.floor.toNat) }).padSample n pad).evalOut n))
  -- before its stamp nothing happens
  ∧ (∀ (s : State) (n : Fin 20) (pad : Option Int) (t : Rat), s.outs[n].fn = s.nn (Obj.out_function n) →
    s.outs[n].loop = s.nn (Obj.out_loop n) → s.outs[n].nextRaw = none → s.outs[n].next = some t →
    s.stamp < s.edgeStamp n t → exec (.outputEdge n pad) s = .next s)
  -- a committed function or loop is adopted once no interval is in progress (R163)
  ∧ (∀ (s : State) (n : Fin 20) (pad : Option Int), s.awake 2 = true →
    (s.outs[n].fn ≠ s.nn (Obj.out_function n) ∨ s.outs[n].loop ≠ s.nn (Obj.out_loop n)) → s.outs[n].activeUntil ≤ s.stamp →
    exec (.outputEdge n pad) s = .next (s.evalOut n))
  -- OUTPUT_PHASE_JUMP at the grid instant
  ∧ (∀ (s : State) (n : Fin 20) (t : Rat), s.outs[n].next = some t → s.outs[n].jump = true → s.edgeStamp n t ≤ s.stamp →
    exec (.outputPhaseJump n) s = .next (s.takeJump n t))
  -- START_TIME_COMMIT of a first series: index 0 at start_time plus output_offset; a time less than 1 ms ahead changes nothing
  ∧ (∀ (s : State) (n : Fin 20) (time : Nat), (time = 0 ∨ s.time + 65536000000 ≤ time) → s.n (Obj.start_time n) = 0 →
    exec (.startTimeCommit n time) s = .next (
      let u := s.putN (Obj.start_time n) time
      let base : Rat := (time : Int) + u.n (Obj.output_offset n) * unitsPerPs
      (u.setOut n { s.outs[n] with base, index := 0, jump := false, after := none,
                                   next := if s.outs[n].fn = 7 ∧ time ≠ 0 then some base else none }).evalOut n))
  ∧ (∀ (s : State) (n : Fin 20) (time : Nat), time ≠ 0 → (time : Int) < s.time + 65536000000 →
    exec (.startTimeCommit n time) s = .next s)
  -- another series of a start pulse cancels the former one's indices not yet emitted and counts them
  ∧ (∀ (s : State) (n : Fin 20) (time : Nat), (time = 0 ∨ s.time + 65536000000 ≤ time) → s.n (Obj.start_time n) ≠ 0 →
    s.outs[n].fn = 7 → s.nn (Obj.start_count n) ≠ 0 →
    exec (.startTimeCommit n time) s = .next (
      let u := (s.putN (Obj.start_time n) time).bump (Obj.skipped_count n) (s.nn (Obj.start_count n) - s.outs[n].index)
      let base : Rat := (time : Int) + u.n (Obj.output_offset n) * unitsPerPs
      (u.setOut n { s.outs[n] with base, index := 0, jump := false, after := none,
                                   next := if time ≠ 0 then some base else none }).evalOut n))
  -- PAD_COMPENSATION_UPDATE after 64 edges: the delay is shown and the compensation moves by at most 10 ps towards it
  ∧ (∀ (s : State) (n : Fin 20) (d : Int), Wf s → s.n (Obj.out_state n) = 2 → 64 ≤ s.outs[n].padFirst.length →
    (∀ a, s.outs[n].padAt = some a → a + 1250000000 ≤ s.now) →
    Yields (.padCompensationUpdate n (some d)) s fun t => t.n (Obj.pad_delay n) = d
      ∧ t.outs[n].padComp = s.outs[n].padComp + clampInt (-10) 10 (d - s.outs[n].padComp)
      ∧ (t.outs[n].padComp - s.outs[n].padComp).natAbs ≤ 10
      ∧ ObjBut s t [Obj.pad_delay n] ∧ t = { s with obj := t.obj, outs := t.outs })
  -- it is measured once per second: within a second of it nothing changes
  ∧ (∀ (s : State) (n : Fin 20) (d : Option Int) (a : Nat), s.outs[n].padAt = some a → s.now < a + 1250000000 →
    exec (.padCompensationUpdate n d) s = .next s)
  -- under a pad fault the compensation holds its value
  ∧ (∀ (s : State) (n : Fin 20) (d : Int), Wf s → s.n (Obj.out_state n) = 4 → 64 ≤ s.outs[n].padFirst.length →
    (∀ a, s.outs[n].padAt = some a → a + 1250000000 ≤ s.now) →
    Yields (.padCompensationUpdate n (some d)) s fun t => t.n (Obj.pad_delay n) = d ∧ t.outs[n].padComp = s.outs[n].padComp
      ∧ ObjBut s t [Obj.pad_delay n] ∧ t = { s with obj := t.obj, outs := t.outs })

/-- Alignment of outputs and time-of-day frames (R168-R172).
Commands that complete here, on conditions on the state and operands alone: `alignTrigger`, `alignApplied`,
`alignContinuousUpdate`, `alignTimeout`, `todoutFrame`, `segmentStart`. -/
def Obligations.AlignmentCommands : Prop :=
  -- ALIGN_TRIGGER starts measuring afresh
  (∀ (s : State) (n : Fin 20), Wf s → s.n (Obj.align_mode n) ≠ 0 → s.n (Obj.align_source n) ≠ 0 →
    Yields (.alignTrigger n) s fun t => t.n (Obj.align_status n) = 1 ∧ t.flag (Obj.align_trigger n) = true
      ∧ t.outs[n] = { s.outs[n] with align := { on := true, since := s.now } } ∧ t = { s with obj := t.obj, outs := t.outs })
  -- without a mode or a source it changes nothing
  ∧ (∀ (s : State) (n : Fin 20), (s.n (Obj.align_mode n) = 0 ∨ s.n (Obj.align_source n) = 0) → exec (.alignTrigger n) s = .next s)
  -- ALIGN_APPLIED of a one-shot alignment, or of a continuous one's first block: the correction joins align_correction modulo
  -- the period; the one-shot ends measuring, the continuous goes on
  ∧ (∀ (s : State) (n : Fin 20), Wf s → s.blockFull n = true →
    (s.n (Obj.align_mode n) = 1 ∨ (s.n (Obj.align_mode n) = 2 ∧ s.outs[n].align.first = true)) → 0 < s.gridPeriod n s.outs[n].fn →
    Yields (.alignApplied n) s fun t =>
      t.n (Obj.align_correction n) = psMod ((s.n (Obj.align_correction n)
        + psMod (s.blockMean n) (s.gridPeriod n s.outs[n].fn) : Int) : Rat) (s.gridPeriod n s.outs[n].fn)
      ∧ t.n (Obj.align_status n) = 2 ∧ t.flag (Obj.align_trigger n) = false
      ∧ t.outs[n].align = { on := s.n (Obj.align_mode n) == 2, first := false, since := s.now })
  -- ALIGN_CONTINUOUS_UPDATE: measuring goes on with an empty block
  ∧ (∀ (s : State) (n : Fin 20), Wf s → s.blockFull n = true → s.n (Obj.align_mode n) = 2 → s.outs[n].align.first = false →
    0 < s.gridPeriod n s.outs[n].fn →
    Yields (.alignContinuousUpdate n) s fun t => t.n (Obj.align_status n) = 2
      ∧ t.outs[n].align = { on := true, first := false, since := s.now } ∧ t.outs[n].jump = s.outs[n].jump
      ∧ t.outs[n].next = s.outs[n].next)
  -- ALIGN_TIMEOUT of a first block: the alignment ends with status 3
  ∧ (∀ (s : State) (n : Fin 20), Wf s → s.outs[n].align.on = true → s.blockFull n = false →
    s.outs[n].align.since + s.alignLimit n ≤ s.now → (s.n (Obj.align_mode n) ≠ 2 ∨ s.outs[n].align.first = true) →
    Yields (.alignTimeout n) s fun t => t.n (Obj.align_status n) = 3 ∧ t.flag (Obj.align_trigger n) = false
      ∧ t.outs[n] = { s.outs[n] with align := {} })
  -- of a later block of a continuous one: status 3, and measuring goes on with an empty block (R170)
  ∧ (∀ (s : State) (n : Fin 20), Wf s → s.outs[n].align.on = true → s.blockFull n = false →
    s.outs[n].align.since + s.alignLimit n ≤ s.now → s.n (Obj.align_mode n) = 2 → s.outs[n].align.first = false →
    Yields (.alignTimeout n) s fun t => t.n (Obj.align_status n) = 3 ∧ t.outs[n].align.on = true ∧ t.outs[n].align.diffs = []
      ∧ ObjBut s t [Obj.align_status n] ∧ t = { s with obj := t.obj, outs := t.outs })
  -- TODOUT_FRAME of a running output: the frame of the labelled edge is sent and the sequence rises
  ∧ (∀ (s : State) (k : Fin 4) (stamp : Nat) (lbl : Int), s.tods[k].edge = some (stamp, lbl) →
    stamp + s.nn (Obj.todout_delay k) * 320000000 ≤ s.stamp → s.n Obj.timing_condition ≠ 0 →
    s.n (Obj.out_state (s.nn (Obj.todout_output k))) = 2 →
    Yields (.todoutFrame k) s fun t => t.tods[k].edge = none ∧ t.tods[k].seq = (s.tods[k].seq + 1) % 65536
      ∧ t.tods[k].sent = (if s.n (Obj.todout_format k) = 0 then s.rafFrame s.tods[k].seq lbl else s.zda lbl)
      ∧ t = { s with tods := t.tods, obj := t.obj } ∧ ObjBut s t [Obj.todout_sent k])
  -- in condition 0 the frame is left out
  ∧ (∀ (s : State) (k : Fin 4) (stamp : Nat) (lbl : Int), s.tods[k].edge = some (stamp, lbl) →
    stamp + s.nn (Obj.todout_delay k) * 320000000 ≤ s.stamp → s.n Obj.timing_condition = 0 →
    exec (.todoutFrame k) s = .next (s.setTod k { s.tods[k] with edge := none }))
  -- SEGMENT_START with a step: loops A and B, then each output, act on the step amount
  ∧ (∀ (s : State) (g : Segment), s.tb.issued = some g → s.tb.reserved = none → s.tb.running = true → g.start ≤ s.tb.raw * 256 →
    g.step = true →
    exec .segmentStart s = .next (
      let amount := g.time - (s.tb.segs.headD {}).convert g.start
      let u := (List.finRange 20).foldl (fun (u : State) (n : Fin 20) =>
        if u.seesStep n then u.carryWave n g.start amount else u) s
      let u := (List.finRange 20).foldl (fun (u : State) (n : Fin 20) => u.spanActive n g.start) (u.startIssued.mediaStep amount)
      ((List.finRange 20).foldl (fun (u : State) (n : Fin 20) => u.outStep n g amount) u).evalOuts.tryIssue))

/-- Supplies (R379, R396, R437).
Commands that complete here, on conditions on the state and operands alone: `firstPower`, `mainSupplyLoss`,
`mainSupplyReturn`, `vkeepRemoval`, `vkeepMonitor`. -/
def Obligations.SupplyCommands : Prop :=
  -- FIRST_POWER with main supply: every domain is held in reset, scope 1, cause 0x0100
  (∀ (s : State) (vkeep : Bool), s.sys.keepPowered = false →
    Yields (.firstPower vkeep true) s fun t => t.sys.scope = some 1 ∧ t.sys.holdUntil = s.now ∧ t.keep.mainGood = true
      ∧ t.keep.vkeep = vkeep ∧ t.flash = s.breakPersist.flash ∧ t.ool = {} ∧ t.serve.prog = {} ∧ t.slots = Vector.replicate 16 {})
  -- FIRST_POWER of VKEEP alone: CELLAR
  ∧ (∀ s : State, s.sys.keepPowered = false →
    Yields (.firstPower true false) s fun t => t.mode.cur = .cellar ∧ t.keep.mainGood = false ∧ t.keep.vkeep = true
      ∧ t.sys.keepPowered = true ∧ t.keep.coarseValid = false)
  -- MAIN_SUPPLY_LOSS with VKEEP: CELLAR, Snowdrop goes on
  ∧ (∀ s : State, s.keep.mainGood = true → s.sys.keepPowered = true → s.keep.vkeep = true →
    Yields .mainSupplyLoss s fun t => t.mode.cur = .cellar ∧ t.keep.mainGood = false ∧ t.keep.coarse = s.keep.coarse
      ∧ t.keep.coarseValid = s.keep.coarseValid ∧ t.keep.uncAtAlign = s.keep.uncAtAlign ∧ t.sys.oscSince = none)
  -- without VKEEP nothing of the keep island is left
  ∧ (∀ s : State, s.keep.mainGood = true → s.sys.keepPowered = true → s.keep.vkeep = false →
    Yields .mainSupplyLoss s fun t => t.mode.cur = .cellar ∧ t.sys.keepPowered = false ∧ t.keep.coarseValid = false
      ∧ t.keep.modelA = none ∧ t.keep.modelB = none)
  -- MAIN_SUPPLY_RETURN: a cold reset with cause 1
  ∧ (∀ s : State, s.keep.mainGood = false → s.sys.keepPowered = true →
    exec .mainSupplyReturn s = .next (((
      { s with keep := { s.keep with mainGood := true }, sys := { s.sys with mainSince := s.now, oscSince := some s.now } } : State).putN Obj.keep_supply 0).assertCold 1 0))
  -- VKEEP_REMOVAL with main supply changes only the supply; without it the keep island is lost
  ∧ (∀ s : State, s.keep.mainGood = true → exec .vkeepRemoval s = .next { s with keep := { s.keep with vkeep := false } })
  ∧ (∀ s : State, s.keep.mainGood = false → Yields .vkeepRemoval s fun t => t.keep.coarseValid = false ∧ t.sys.keepPowered = false
      ∧ t.mode.cur = .cellar)
  -- VKEEP_MONITOR below the limit journals 0x1506
  ∧ (∀ (s : State) (mV : Nat), s.keep.mainGood = true → s.awake 6 = true → mV < 65536 →
    s.n Obj.vkeep_low_limit ≤ mV →
    exec (.vkeepMonitor mV) s
      = .next (({ s with keep := { s.keep with vkeep := mV != 0 } } : State).putN Obj.vkeep_voltage (mV : Int)))
  ∧ (∀ (s : State) (mV : Nat), s.keep.mainGood = true → s.awake 6 = true → mV < 65536 →
    (mV : Int) < s.n Obj.vkeep_low_limit →
    exec (.vkeepMonitor mV) s
      = .next ((({ s with keep := { s.keep with vkeep := mV != 0 } } : State).putN Obj.vkeep_voltage (mV : Int)).log
          0x0800 0x1506 (beNat 2 mV)))

/-- Resets (R379-R381, R388, R392, R393, R352).
Commands that complete here, on conditions on the state and operands alone: `rstnAssert`, `rstnDeassert`, `wrstnAssert`,
`wrstnDeassert`, `watchdogWarm`, `watchdogCold`, `resetRequestWarm`, `resetRequestCold`, `thermalTrip`, `thermalWarning`,
`oscEdgeLoss`, `oscRestored`, `tamperAssert`, `tamperLatchClear`. -/
def Obligations.ResetCommands : Prop :=
  -- RSTN_ASSERT: a cold reset with cause 2; the pin's level is kept; its scope is asserted unless a cold reset runs
  (∀ s : State, exec .rstnAssert s = .next (({ s with sys := { s.sys with rstnLow := true } } : State).assertCold 2 0))
  ∧ (∀ s : State, s.keep.mainGood = true → s.sys.scope ≠ some 1 → s.sys.scope ≠ some 2 →
    Yields .rstnAssert s fun t => t.sys.scope = some 2 ∧ t.sys.holdUntil = s.now ∧ t.sys.rstnLow = true)
  -- RSTN_DEASSERT
  ∧ (∀ s : State, exec .rstnDeassert s = .next { s with sys := { s.sys with rstnLow := false } })
  -- WRSTN_ASSERT: a warm reset
  ∧ (∀ s : State, exec .wrstnAssert s = .next (({ s with sys := { s.sys with wrstnLow := true } } : State).assertWarm 9 0))
  -- WRSTN_DEASSERT
  ∧ (∀ s : State, exec .wrstnDeassert s = .next { s with sys := { s.sys with wrstnLow := false } })
  -- WATCHDOG_WARM after wd_timeout without service
  ∧ (∀ s : State, s.awake 6 = true → s.sys.scope = none → s.sys.wdAt + ticksMs (s.nn Obj.wd_timeout) ≤ s.now →
    exec .watchdogWarm s = .next (({ s.bump Obj.wd_warm_count with sys := { s.sys with wdWarm := s.now :: s.wdRecent } } : State).assertWarm 10 (ticksMs 1)))
  -- WATCHDOG_COLD after two timeouts from a release, or a third warm watchdog reset within 600 s
  ∧ (∀ (s : State) (r : Nat), s.sys.wdRelease = some r → s.mode.cur ≠ .cellar → r + 2 * ticksMs (s.nn Obj.wd_timeout) ≤ s.now →
    exec .watchdogCold s = .next (s.assertCold 5 (ticksMs 1)))
  ∧ (∀ s : State, 3 ≤ s.wdRecent.length → s.mode.cur ≠ .cellar → exec .watchdogCold s = .next (s.assertCold 5 (ticksMs 1)))
  -- RESET_REQUEST_WARM and RESET_REQUEST_COLD once due
  ∧ (∀ (s : State) (d : Nat), s.sys.cmd = some (3, d) → d ≤ s.now →
    exec .resetRequestWarm s = .next (({ s with sys := { s.sys with cmd := none } } : State).assertWarm 12 (ticksMs 1)))
  ∧ (∀ (s : State) (d : Nat), s.sys.cmd = some (2, d) → d ≤ s.now →
    exec .resetRequestCold s = .next (({ s with sys := { s.sys with cmd := none } } : State).assertCold 6 (ticksMs 1)))
  -- THERMAL_TRIP counts and resets, but in an idled CELLAR changes nothing (R83)
  ∧ (∀ s : State, s.mode.cur = .cellar → exec .thermalTrip s = .next s)
  ∧ (∀ s : State, s.keep.mainGood = true → s.mode.cur ≠ .cellar → exec .thermalTrip s = .next ((s.bump Obj.thermal_trip_count).assertCold 3 0))
  -- THERMAL_WARNING above the limit is journalled once, and once more 2 °C below it
  ∧ (∀ (s : State) (temp : Int), s.awake 2 = true → s.sys.warned = false → s.n Obj.thermal_warn_limit < temp →
    exec (.thermalWarning temp) s = .next (({ s.putN Obj.die_temperature temp with sys := { s.sys with warned := true } } : State).log
      0x0800 0x1505 ([1] ++ be 2 temp)))
  ∧ (∀ (s : State) (temp : Int), s.awake 2 = true → s.sys.warned = true → temp ≤ s.n Obj.thermal_warn_limit - 200 →
    exec (.thermalWarning temp) s = .next (({ s.putN Obj.die_temperature temp with sys := { s.sys with warned := false } } : State).log
      0x0800 0x1505 ([0] ++ be 2 temp)))
  -- between the two the temperature is shown and nothing is journalled
  ∧ (∀ (s : State) (temp : Int), s.awake 2 = true →
    (if s.sys.warned = true then s.n Obj.thermal_warn_limit - 200 < temp else temp ≤ s.n Obj.thermal_warn_limit) →
    exec (.thermalWarning temp) s = .next (s.putN Obj.die_temperature temp))
  -- OSC_EDGE_LOSS and OSC_RESTORED move the reset controller between its clocks
  ∧ (∀ s : State, s.sys.keepClock = false → s.keep.mainGood = true → exec .oscEdgeLoss s
      = .next (({ s with sys := { s.sys with keepClock := true, oscSince := none } } : State).report 0x0800 0x1507 [1]))
  ∧ (∀ s : State, s.sys.keepClock = true → s.keep.mainGood = true → exec .oscRestored s
      = .next (({ s with sys := { s.sys with keepClock := false, oscSince := some (s.now - ticksMs 10) } } : State).report 0x0800 0x1507 [0]))
  -- TAMPER_ASSERT with main supply: latched, noted, cold reset, in an idled CELLAR too; an image being staged is discarded;
  -- on VKEEP only latched and noted
  ∧ (∀ s : State, s.sys.keepPowered = true → s.keep.mainGood = true → s.nn Obj.fw_staged_status ≠ 1 →
    exec .tamperAssert s
      = .next (((s.putB Obj.tamper_latch true).note 0x0900 0x1401 [if s.mode.cur = .cellar then 1 else 0]).assertCold 4 (ticksMs 1)))
  ∧ (∀ s : State, s.sys.keepPowered = true → s.keep.mainGood = true → s.nn Obj.fw_staged_status = 1 →
    exec .tamperAssert s = .next (
      let u := (s.putB Obj.tamper_latch true).note 0x0900 0x1401 [if s.mode.cur = .cellar then 1 else 0]
      ({ u with flash := u.flash.setImage (1 - u.nn Obj.fw_running_bank) [] } : State).assertCold 4 (ticksMs 1)))
  ∧ (∀ s : State, s.sys.keepPowered = true → s.keep.mainGood = false →
    exec .tamperAssert s = .next ((s.putB Obj.tamper_latch true).note 0x0900 0x1401 [1]))
  -- TAMPER_LATCH_CLEAR by an owner's session
  ∧ (∀ (s : State) (k : Fin 32), s.firmwareUp = true → s.flag Obj.tamper_latch = true →
    exec (.tamperLatchClear k) s = .next ((s.putB Obj.tamper_latch false).logSec 0x1402 (beNat 1 k)))

/-- Bring-up (R71, R385-R388).
Commands that complete here, on conditions on the state and operands alone: `coldResetRelease`, `trimLoadComplete`,
`tickClockLock`, `firmwareBootCheck`, `dramTrainingComplete`, `clientTableInitComplete`, `bringupComplete`,
`domainWakeComplete`. -/
def Obligations.BringUp : Prop :=
  -- COLD_RESET_RELEASE: STEEP, step 1, the straps as sampled, every domain but the keep island asleep
  (∀ (s : State) (b : Fin 8) (o : Fin 4) (diff dukOk : Bool) (tj : Int) (since : Nat), Wf s →
    (s.sys.scope = some 1 ∨ s.sys.scope = some 2) → s.keep.mainGood = true → s.sys.mainSince + ticksMs 2 ≤ s.now →
    s.sys.oscSince = some since → since + ticksMs 10 ≤ s.now → tj ≤ 10500 → s.sys.rstnLow = false → s.sys.wrstnLow = false →
    s.sys.holdUntil ≤ s.now →
    Yields (.coldResetRelease b o diff dukOk tj) s fun t => t.mode = { cur := .steep } ∧ t.sys.scope = none ∧ t.sys.step = 1
      ∧ t.sys.releasedAt = s.now ∧ t.nn Obj.strap_bootsel = b ∧ t.nn Obj.strap_oscsel = o ∧ t.flag Obj.strap_oscdiff = diff
      ∧ t.sec.storageOff = !dukOk ∧ t.keep = s.keep ∧ t.flash = s.flash)
  -- held, nothing is released
  ∧ (∀ (s : State) (b : Fin 8) (o : Fin 4) (diff dukOk : Bool) (tj : Int), s.now < s.sys.holdUntil →
    exec (.coldResetRelease b o diff dukOk tj) s = .next s)
  -- TRIM_LOAD_COMPLETE: copy A, else copy B with code 0x1504, else the hold
  ∧ (∀ (s : State) (bOk : Bool), s.atStep 1 = true →
    exec (.trimLoadComplete true bOk) s = .next (((s.putN Obj.trim_copy 0).setStep 3).setDom 2 1).drivePins)
  ∧ (∀ s : State, s.atStep 1 = true →
    exec (.trimLoadComplete false true) s = .next ((((s.putN Obj.trim_copy 1).note 0x0800 0x1504 []).setStep 3).setDom 2 1).drivePins)
  ∧ (∀ s : State, s.atStep 1 = true → exec (.trimLoadComplete false false) s
      = .next ({ s with sys := { s.sys with trimHold := true } } : State).holdPins)
  -- TICK_CLOCK_LOCK: the raw counter starts at 0, STEEP is journalled
  ∧ (∀ (s : State) (a b : Nat), s.keep.verifyWake = none → s.atStep 3 = true →
    exec (.tickClockLock a b) s = .next (
      let u := (((s.startRaw.setStep 4).bump Obj.mode_change_count).log 0 0x1001 [0, 1, 0, 3])
      let u := (u.putN Obj.bank_a_voltage a).putN Obj.bank_b_voltage b
      let u := earlyKeys.foldl (fun (u : State) k => u.put k (u.flash.configValue k)) u
      u.seedSnowdrop.restoreModel (if u.keep.coarseValid then some (u.coarseNow / unitsPerS) else none)))
  -- FIRMWARE_BOOT_CHECK from flash starts the boot bank's image
  ∧ (∀ (s u : State) (d : Option Bytes) (k : Nat), s.atStep 4 = true → s.bootRevert.nn Obj.boot_source_used = 0 →
    s.bootRevert.bootBank = (some k, u) →
    exec (.firmwareBootCheck d) s = .next (u.startFirmware k (fwImageVersion (u.flash.image k))))
  -- where neither bank's image passes: the image hold
  ∧ (∀ (s u : State) (d : Option Bytes), s.atStep 4 = true → s.bootRevert.nn Obj.boot_source_used = 0 →
    s.bootRevert.bootBank = (none, u) →
    exec (.firmwareBootCheck d) s = .next ({ u with sys := { u.sys with imageHold := true } } : State).holdPins)
  -- a downloaded image that passes is started; without one bring-up waits
  ∧ (∀ (s : State) (img : Bytes), s.atStep 4 = true → s.bootRevert.nn Obj.boot_source_used ≠ 0 → s.bootRevert.fwCause img = 0 →
    exec (.firmwareBootCheck (some img)) s = .next (s.bootRevert.startFirmware s.bootRevert.flash.boot.bank (fwImageVersion img)))
  ∧ (∀ s : State, s.atStep 4 = true → s.bootRevert.nn Obj.boot_source_used ≠ 0 →
    exec (.firmwareBootCheck none) s = .next s.bootRevert)
  -- DRAM_TRAINING_COMPLETE
  ∧ (∀ (s : State) (fail : Fin 16) (cap ms : Nat), Wf s → s.atStep 6 = true → cap < 2 ^ 32 →
    Yields (.dramTrainingComplete fail cap ms) s fun t => t.sys.step = 9 ∧ t.n Obj.dram_state = (if fail = 0 then 2 else 3)
      ∧ t.n Obj.dram_train_fail = fail.val ∧ t.n Obj.dram_capacity = cap ∧ (fail = 0 → t.journal = s.journal))
  -- CLIENT_TABLE_INIT_COMPLETE: step 10; the table is ready only where training succeeded; with secure storage the cookie keys
  -- are loaded
  ∧ (∀ s : State, s.atStep 9 = true →
    let u := if s.nn Obj.dram_state = 2 then (s.setStep 10).setCt { s.serve.ct with ready := true } else s.setStep 10
    let up := fun v : State => ((List.finRange 64).foldl (fun (v : State) (n : Fin 64) => if 8 ≤ n.val then v.refreshPort n 1 else v) v).bnTest 0
    ((s.sec.storageOff = true ∨ s.mode.cur = .kiln) → exec .clientTableInitComplete s = .next (up u))
    ∧ (s.sec.storageOff = false → s.mode.cur ≠ .kiln →
      exec .clientTableInitComplete s = .next (up (
        let k := u.loadMaster.keyIndexNow
        let v := u.loadMaster.putN Obj.nts_key_number (k % 32768 : Nat)
        { v with sec := { v.sec with cookieKeys := true }, prot := { v.prot with keyIndex := some k } }))))
  -- BRINGUP_COMPLETE: the qualify timers start; under steep_hold or in KILN the mode stays, otherwise MASH follows
  ∧ (∀ s : State, s.atStep 10 = true →
    let u := (List.finRange 16).foldl (fun (u : State) (i : Fin 16) => if u.slots[i].state = .qualifying then
        u.setSlot i { u.slots[i] with deadline := some (u.now + ticksS (u.nn (Obj.qualify_time i))) } else u)
      ({ s with sys := { s.sys with step := 11 }, mode := { s.mode with bringupDone := true } } : State)
    ((s.flag Obj.steep_hold = true ∨ s.mode.cur = .kiln) → exec .bringupComplete s = .next u)
    ∧ (s.flag Obj.steep_hold = false → s.mode.cur ≠ .kiln → exec .bringupComplete s = .next (u.toMash 3)))
  -- DOMAIN_WAKE_COMPLETE of the sky domain
  ∧ (∀ s : State, s.domState 3 = 1 → exec (.domainWakeComplete 3) s = .next (s.setDom 3 2).skyObjects.skyAwake.skyPower)

/-- The release of a warm reset (R388, R121).
Commands that complete here, on conditions on the state and operands alone: `warmResetRelease`, `warmServingResume`,
`slotMissingCheckResume`. -/
def Obligations.WarmRelease : Prop :=
  (∀ s : State, s.sys.scope = some 3 → s.sys.holdUntil ≤ s.now → s.sys.wrstnLow = false →
    exec .warmResetRelease s = .next s.releaseWarm)
  ∧ (∀ s : State, s.sys.scope = some 3 → s.now < s.sys.holdUntil → exec .warmResetRelease s = .next s)
  -- WARM_SERVING_RESUME after step 5
  ∧ (∀ (s : State) (w : Nat), s.sys.warmAt = some w → 5 ≤ s.sys.warmStage → exec .warmServingResume s
      = .next { s with sys := { s.sys with warmAt := none, warmStage := 0, servedAt := some s.now, wdRelease := none, wdAt := s.now } })
  -- SLOT_MISSING_CHECK_RESUME 500 ms later
  ∧ (∀ (s : State) (w : Nat), s.sys.servedAt = some w → w + 625000000 ≤ s.now → exec .slotMissingCheckResume s
      = .next { s with mode := { s.mode with suspend5 := false }, sys := { s.sys with servedAt := none } })
  ∧ (∀ (s : State) (w : Nat), s.sys.servedAt = some w → s.now < w + 625000000 → exec .slotMissingCheckResume s = .next s)

/-- Block resets and crossings (R390, R403, R404).
Commands that complete here, on conditions on the state and operands alone: `blockReset`, `blockQuiesced`, `quiesceTimeout`,
`crossingResync`, `crossingHang`. -/
def Obligations.BlockAndCrossingCommands : Prop :=
  -- BLOCK_RESET: the named block of an awake domain is asked to go idle while no other block reset runs
  (∀ (s : State) (code : Nat) (force : Bool), Wf s → s.firmwareUp = true → blockKnown code = true → s.awake (blockDomain code) = true →
    s.sys.block = none → (code / 256 ≠ 2 ∨ s.serve.pairs[blockPair code].state ≠ 0) →
    Yields (.blockReset code force) s fun t =>
      (∃ b, t.sys.block = some b ∧ b.code = code ∧ b.force = force ∧ b.since = s.now ∧ b.session = none ∧ b.expected = none)
      ∧ t.nn Obj.block_reset_state = 1 ∧ ObjBut s t [Obj.block_reset_state] ∧ t = { s with obj := t.obj, sys := t.sys })
  -- a gated engine pair is reset at once, without a wait for idle (R283)
  ∧ (∀ (s : State) (code : Nat) (force : Bool), Wf s → s.firmwareUp = true → blockKnown code = true → s.awake (blockDomain code) = true →
    s.sys.block = none → code / 256 = 2 → s.serve.pairs[blockPair code].state = 0 →
    Yields (.blockReset code force) s fun t => t.sys.block = none ∧ t.nn Obj.block_reset_state = 0)
  -- BLOCK_QUIESCED: an idle block is reset with nothing lost, unless a conditional commit's generation has changed (R46)
  ∧ (∀ (s : State) (b : BlockReq), s.sys.block = some b → s.blockIdle b = true → (∀ g, b.expected = some g → s.n Obj.generation = (g : Int)) →
    exec .blockQuiesced s = .next (s.finishBlock { b with force := false } 0))
  ∧ (∀ (s : State) (b : BlockReq) (g : Nat), s.sys.block = some b → s.blockIdle b = true → b.expected = some g →
    s.n Obj.generation ≠ (g : Int) → exec .blockQuiesced s = .next (s.dropBlock b stGeneration))
  ∧ (∀ (s : State) (b : BlockReq), s.sys.block = some b → s.blockIdle b = false → exec .blockQuiesced s = .next s)
  -- the reset block resumes: no reset is open, the two objects read their written-back values; a dropped one leaves the
  -- generation as it was
  ∧ (∀ (s : State) (b : BlockReq) (lost : Nat), Wf s → (s.finishBlock b lost).sys.block = none
      ∧ (s.finishBlock b lost).nn Obj.block_reset_state = 0 ∧ (s.finishBlock b lost).nn Obj.block_reset_target = 0)
  ∧ (∀ (s : State) (b : BlockReq) (status : Nat), Wf s → (s.dropBlock b status).sys.block = none
      ∧ (s.dropBlock b status).nn Obj.block_reset_state = 0 ∧ (s.dropBlock b status).n Obj.generation = s.n Obj.generation)
  -- QUIESCE_TIMEOUT of an unforced reset: nothing is reset, code 0x1503, QUIESCE_TIMEOUT is answered
  ∧ (∀ (s : State) (b : BlockReq), s.sys.block = some b → s.blockIdle b = false → b.force = false →
    b.since + ticksMs (s.nn Obj.quiesce_timeout) ≤ s.now →
    exec .quiesceTimeout s = .next ((s.log 0x0800 0x1503 (beNat 2 b.code)).dropBlock b stQuiesce))
  -- a forced one loses the block's work
  ∧ (∀ (s : State) (b : BlockReq), s.sys.block = some b → s.blockIdle b = false → b.force = true →
    b.since + ticksMs (s.nn Obj.quiesce_timeout) ≤ s.now → (∀ g, b.expected = some g → s.n Obj.generation = (g : Int)) →
    exec .quiesceTimeout s = .next ((s.loseBlock b).2.finishBlock b (s.loseBlock b).1))
  -- CROSSING_RESYNC of one of the ten crossings with one side reset discards what was in flight, no more than it holds
  ∧ (∀ (s : State) (a b d : Nat), 1 ≤ a → a ≤ 8 → 1 ≤ b → b ≤ 8 → crossCapacity a b ≠ 0 →
    (s.sys.resync.contains a = true ∨ s.sys.resync.contains b = true) →
    s.domState a ≠ 3 → s.domState b ≠ 3 → s.sys.resynced.contains (a * 256 + b) = false →
    s.sys.resynced.contains (b * 256 + a) = false → d ≠ 0 → d ≤ s.inFlight a b →
    exec (.crossingResync (a * 256 + b) d) s = .next ((((({ s with sys := { s.sys with
      resynced := (a * 256 + b) :: s.sys.resynced } } : State).bump Obj.xing_discard_count d).bump Obj.xing_resync_count).log
        0x0800 0x150A (beNat 2 (a * 256 + b) ++ beNat 4 d))))
  -- with nothing in flight it counts and journals nothing discarded
  ∧ (∀ (s : State) (a b : Nat), 1 ≤ a → a ≤ 8 → 1 ≤ b → b ≤ 8 → crossCapacity a b ≠ 0 →
    (s.sys.resync.contains a = true ∨ s.sys.resync.contains b = true) →
    s.domState a ≠ 3 → s.domState b ≠ 3 → s.sys.resynced.contains (a * 256 + b) = false →
    s.sys.resynced.contains (b * 256 + a) = false →
    exec (.crossingResync (a * 256 + b) 0) s = .next ((({ s with sys := { s.sys with
      resynced := (a * 256 + b) :: s.sys.resynced } } : State).bump Obj.xing_discard_count 0).bump Obj.xing_resync_count))
  -- with both sides wholly reset nothing is in flight; never more than the crossing holds
  ∧ (∀ (s : State) (a b : Nat), s.inFlight a b ≤ crossCapacity a b)
  -- CROSSING_HANG of a request/response crossing: the crossing and the processor are recorded
  ∧ (∀ (s : State) (a b : Nat) (p : Option (Fin 4)), s.awake a = true → a < 256 → b < 256 → requestCrossing a b = true →
    exec (.crossingHang (a * 256 + b) p) s = .next (((s.putN Obj.xing_hang_last ((a * 256 + b : Nat) : Int)).bump Obj.xing_hang_count).log
      0x0800 0x150C (beNat 2 (a * 256 + b) ++ beNat 1 (match p with | some x => x.val | none => 0xFF))))

/-- The commanded modes (R76, R81-R83).
Commands that complete here, on conditions on the state and operands alone: `spargeRequest`, `spargeTimeout`, `kilnRequest`,
`cellarRequest`, `cellarWakeTime`, `cellarVerifyWake`, `cellarVerifyEnd`. -/
def Obligations.CommandedModes : Prop :=
  -- SPARGE_REQUEST
  (∀ s : State, s.firmwareUp = true → s.spargeOk = true → exec (.spargeRequest true) s = .next s.enterSparge)
  ∧ (∀ s : State, s.firmwareUp = true → s.spargeOk = true → exec (.spargeRequest false) s = .next (s.leaveSparge true))
  ∧ (∀ (s : State) (r : Bool), s.firmwareUp = false → exec (.spargeRequest r) s = .next s)
  -- SPARGE_TIMEOUT
  ∧ (∀ (s : State) (d : Nat), s.mode.spargeDeadline = some d → d ≤ s.now → exec .spargeTimeout s = .next (s.leaveSparge false))
  ∧ (∀ (s : State) (d : Nat), s.mode.spargeDeadline = some d → s.now < d → exec .spargeTimeout s = .next s)
  -- KILN_REQUEST needs an unlocked debug state
  ∧ (∀ s : State, s.firmwareUp = true → s.kilnMode = true → s.nn Obj.debug_state ≠ 0 → exec .kilnRequest s = .next s.enterKiln)
  ∧ (∀ s : State, s.nn Obj.debug_state = 0 → exec .kilnRequest s = .next s)
  -- CELLAR_REQUEST
  ∧ (∀ s : State, s.firmwareUp = true → s.cellarOk = true → exec .cellarRequest s = .next s.enterCellar)
  -- CELLAR_WAKE_TIME: a cold reset with cause 7 once Snowdrop's coarse time has reached it
  ∧ (∀ s : State, s.idled = true → s.keep.coarseValid = true → s.keep.wakeTime ≠ 0 → s.keep.wakeTime ≤ s.coarseNow →
    exec .cellarWakeTime s = .next (s.assertCold 7 (ticksMs 1)))
  -- CELLAR_VERIFY_WAKE: the time, control and memory domains wake for a Grist request
  ∧ (∀ (s : State) (d : Nat), s.idled = true → s.keep.verifyDue = some d → d ≤ s.now → s.keep.verifyWake = none →
    exec .cellarVerifyWake s = .next (
      let u := ((s.setDom 2 1).setDom 6 1).setDom 8 1
      (({ u with keep := { u.keep with verifyWake := some s.now, verifySample := none }, tb := {} } : State).gristBegin .verify)))
  -- CELLAR_VERIFY_END: a fix that agrees becomes Snowdrop's time with the fix's uncertainty
  ∧ (∀ (s : State) (since r0 first : Nat) (f u c : Int), s.keep.verifyWake = some since → s.sky.grist.fix = some (f, u, first) →
    s.keep.verifySample = some (c, r0) →
    ((c + rneDiv (((first : Int) - r0) * 1024) 5 - f).natAbs : Int) ≤ (s.coarseUnc + u) * 65536 →
    exec .cellarVerifyEnd s = .next ({ s with keep := { s.keep with
      coarse := f + rneDiv (((s.stamp : Int) - first) * 1024) 5, alignedAt := s.now, uncAtAlign := u } } : State).endVerify)
  -- one that disagrees is counted and kept for the journal, Snowdrop unchanged
  ∧ (∀ (s : State) (since r0 first : Nat) (f u c : Int), s.keep.verifyWake = some since → s.sky.grist.fix = some (f, u, first) →
    s.keep.verifySample = some (c, r0) →
    (s.coarseUnc + u) * 65536 < ((c + rneDiv (((first : Int) - r0) * 1024) 5 - f).natAbs : Int) →
    exec .cellarVerifyEnd s = .next (
      let v := s.bump Obj.cellar_verify_disagree
      ({ v with keep := { v.keep with disagree := some (v.nn Obj.cellar_verify_disagree,
          unitsToNs (c + rneDiv (((first : Int) - r0) * 1024) 5 - f)) } } : State).endVerify))
  -- after 5 s without a fix the wake ends with Snowdrop unchanged
  ∧ (∀ (s : State) (since : Nat), s.keep.verifyWake = some since → s.sky.grist.fix = none → since + 6250000000 ≤ s.now →
    exec .cellarVerifyEnd s = .next s.endVerify)

/-- Firmware, debug and boundary scan (R358, R362, R79, R363).
Commands that complete here, on conditions on the state and operands alone: `fwVerify`, `fwActivate`, `activationComplete`,
`debugChallenge`, `debugResponse`, `debugChallengeExpiry`, `jtagBypass`, `jtagIdcode`, `jtagSamplePreload`, `jtagExtest`. -/
def Obligations.FirmwareAndDebug : Prop :=
  -- FW_VERIFY: status 3 where the staged image passes, 4 where it fails, code 0x1406
  (∀ s : State, s.firmwareUp = true → s.fwCause (s.flash.image (1 - s.nn Obj.fw_running_bank)) = 0 →
    exec .fwVerify s = .next (((s.putN Obj.fw_staged_status 3).putB Obj.fw_verify false).logSec 0x1406
      (be 1 1 ++ be 4 (fwImageVersion (s.flash.image (1 - s.nn Obj.fw_running_bank))))))
  ∧ (∀ s : State, s.firmwareUp = true → s.fwCause (s.flash.image (1 - s.nn Obj.fw_running_bank)) ≠ 0 →
    exec .fwVerify s = .next (((s.putN Obj.fw_staged_status 4).putB Obj.fw_verify false).logSec 0x1406
      (be 1 2 ++ be 4 (fwImageVersion (s.flash.image (1 - s.nn Obj.fw_running_bank))))))
  -- FW_ACTIVATE
  ∧ (∀ s : State, s.firmwareUp = true → s.canActivate = true → exec .fwActivate s = .next s.activateFirmware)
  ∧ (∀ s : State, s.canActivate = false → exec .fwActivate s = .next s)
  -- ACTIVATION_COMPLETE: the other bank's image runs
  ∧ (∀ (s : State) (since : Nat), Wf s → s.sys.activation = some since → s.mode.spargeExit = none →
    Yields .activationComplete s fun t => t.sys.activation = none ∧ t.sys.wdAt = s.now
      ∧ t.nn Obj.fw_running_bank = s.flash.boot.bank ∧ t.nn Obj.fw_staged_status = 0 ∧ t.flash = s.flash ∧ t.serve = s.serve
      ∧ t.ports = s.ports ∧ t.tb = s.tb ∧ t.mode = s.mode)
  -- DEBUG_CHALLENGE, DEBUG_RESPONSE, DEBUG_CHALLENGE_EXPIRY
  ∧ (∀ s : State, s.firmwareUp = true → exec .debugChallenge s = .next s.makeChallenge)
  ∧ (∀ (s : State) (r : Bytes), s.firmwareUp = true → exec (.debugResponse r) s = .next (s.debugRespond r))
  ∧ (∀ (s : State) (c : Bytes) (since : Nat), s.sec.challenge = some (c, since) → since + 375000000000 ≤ s.now →
    exec .debugChallengeExpiry s = .next { s with sec := { s.sec with challenge := none } })
  ∧ (∀ (s : State) (c : Bytes) (since : Nat), s.sec.challenge = some (c, since) → s.now < since + 375000000000 →
    exec .debugChallengeExpiry s = .next s)
  -- JTAG instructions
  ∧ (∀ s : State, exec .jtagBypass s = .next (s.selectJtag .bypass)) ∧ (∀ s : State, exec .jtagIdcode s = .next (s.selectJtag .idcode))
  ∧ (∀ s : State, exec .jtagSamplePreload s = .next (s.selectJtag .samplePreload))
  ∧ (∀ s : State, exec .jtagExtest s = .next (s.selectJtag .extest))

/-- Tiles (R370-R372).
Commands that complete here, on conditions on the state and operands alone: `patrolRead`, `quarantineComplete`,
`tileCopyReload`. -/
def Obligations.TileCommands : Prop :=
  -- PATROL_READ of a tile outside the DRAM regions that passes changes nothing; the last of a patrol ends the patrol
  (∀ (s : State) (region : Nat) (addr : BitVec 64) (f : TileFault) (h : TileHolds), 1 ≤ region → region ≤ 10 → region ≠ 1 →
    region ≠ 5 → region ≠ 7 → s.awake (regionDomain region) = true → s.tilePasses region addr.toNat f = true →
    exec (.patrolRead region addr f false h) s = .next s
    ∧ exec (.patrolRead region addr f true h) s = .next (s.patrolEnd (inDram region addr.toNat)))
  -- a patrol counts when it was due, the next follows a period later
  ∧ (∀ (s : State) (dram : Bool), (if dram then s.mem.patrolDram else s.mem.patrolSram) ≤ s.now →
    (s.patrolEnd dram).nn Obj.patrol_passes = ((s.bump Obj.patrol_passes).nn Obj.patrol_passes)
    ∧ (if dram then (s.patrolEnd dram).mem.patrolDram else (s.patrolEnd dram).mem.patrolSram)
        = s.now + ticksS ((s.bump Obj.patrol_passes).nn (if dram then Obj.patrol_dram_period else Obj.patrol_sram_period)))
  -- a tile that fails its check
  ∧ (∀ (s : State) (region : Nat) (addr : BitVec 64) (f : TileFault) (h : TileHolds), 1 ≤ region → region ≤ 10 → region ≠ 1 →
    region ≠ 5 → region ≠ 7 → s.awake (regionDomain region) = true → s.tilePasses region addr.toNat f = false →
    exec (.patrolRead region addr f false h) s = .next (s.tileMismatch region (addr.toNat / 256 * 256) h))
  -- in a DRAM region the burst and its verification count, and a failure with them
  ∧ (∀ (s : State) (addr : BitVec 64) (f : TileFault) (h : TileHolds), s.awake (regionDomain 5) = true →
    (s.tilePasses 5 addr.toNat f = true → exec (.patrolRead 5 addr f false h) s = .next ((s.count 9 0x03).count 9 0x05))
    ∧ (s.tilePasses 5 addr.toNat f = false → exec (.patrolRead 5 addr f false h) s
        = .next ((((s.count 9 0x03).count 9 0x05).count 9 0x04).tileMismatch 5 (addr.toNat / 256 * 256) h)))
  -- the check (R369): the CRC-32C of the tile's address and its 256 bytes, held after a write for every tile written, whole or
  -- in part, and unchanged for every other
  ∧ (∀ (u : MemUnits) (sp x : Nat) (b : Bytes), (u.sums sp).Pairwise (fun p q => p.1 < q.1) →
    ∀ k ∈ tilesOf x b.length, sumOf ((u.write sp x b).sums sp) k
      = crc32c (beNat 8 (k * 256) ++ memRead ((u.write sp x b).space sp) (k * 256) 256)
      ∧ (u.write sp x b).passes sp none k = true)
  ∧ (∀ (u : MemUnits) (sp x : Nat) (b : Bytes) (k : Nat), k ∉ tilesOf x b.length →
    sumOf ((u.write sp x b).sums sp) k = sumOf (u.sums sp) k)
  -- QUARANTINE_COMPLETE frees a tile that failed for the first time within 24 h
  ∧ (∀ (s : State) (region : Nat) (addr : BitVec 64) (x : BadTile),
    s.mem.tiles.find? (fun y => y.region == region && y.addr / 256 == tileOffset addr.toNat / 256) = some x →
    x.freed = false → x.retired = false → x.again = false →
    Yields (.quarantineComplete region addr) s fun t => t = { s with mem := { s.mem with tiles := t.mem.tiles } }
      ∧ ∀ y ∈ t.mem.tiles, y.region = region → y.addr / 256 = tileOffset addr.toNat / 256 → y.freed = true)
  -- and retires one that failed again, code 0x1602
  ∧ (∀ (s : State) (region : Nat) (addr : BitVec 64) (x : BadTile),
    s.mem.tiles.find? (fun y => y.region == region && y.addr / 256 == tileOffset addr.toNat / 256) = some x →
    x.freed = false → x.retired = false → x.again = true → s.retiredIn region < 256 →
    Yields (.quarantineComplete region addr) s fun t =>
      t = { s with mem := { s.mem with tiles := t.mem.tiles }, obj := t.obj, journal := t.journal }
      ∧ ∀ y ∈ t.mem.tiles, y.region = region → y.addr / 256 = tileOffset addr.toNat / 256 → y.retired = true)
  -- TILE_COPY_RELOAD
  ∧ (∀ s : State, exec .tileCopyReload s = .next { s with mem := { s.mem with reload := none } })

/-- Front end, antenna and notches (R182-R184, R187).
Commands that complete here, on conditions on the state and operands alone: `fespiScriptSend`, `fespiSettleEnd`, `antShort`,
`antRetry`, `antOpen`, `antCurrentInRange`, `notchScan`, `bandMonitor`. -/
def Obligations.SkyFrontEnd : Prop :=
  -- FESPI_SCRIPT_SEND of a script that is due: its bytes go out one record after the other, once the other band's script has
  -- been sent; status 1 without a mismatch, settling until 10 ms from its end
  (∀ (s : State) (b : Fin 2) (l : List (Bytes × Bytes)), Wf s → s.awake 3 = true → s.sky.bands[b].scriptDue = true →
    scriptRecords 1024 (s.octs (Obj.fespi_script b)) = l.map (fun r => (false, r.1, r.2)) →
    (s.putN (Obj.fespi_status b) 1).n Obj.grist_state ≠ 2 →
    Yields (.fespiScriptSend b []) s fun t => t.n (Obj.fespi_status b) = 1
      ∧ (let u := s.putN (Obj.fespi_status b) 1
         let e := u.fespiFree b + u.scriptTicks (scriptRecords 1024 (s.octs (Obj.fespi_script b))) + ticksMs 10
         t.sky.bands[b] = { s.sky.bands[b] with scriptDue := false, sent := l.map (·.1), settle := some (e, u.fespiFree b),
                                                usedFrom := e })
      ∧ ObjBut s t [Obj.fespi_status b] ∧ t = { s with obj := t.obj, sky := t.sky })
  -- a script that is not due is not sent
  ∧ (∀ (s : State) (b : Fin 2) (reads : List Bytes), s.sky.bands[b].scriptDue = false → exec (.fespiScriptSend b reads) s = .next s)
  -- FESPI_SETTLE_END
  ∧ (∀ (s : State) (b : Fin 2) (e k : Nat), s.sky.bands[b].settle = some (e, k) → e ≤ s.now →
    exec (.fespiSettleEnd b) s = .next (s.setBand b { s.sky.bands[b] with settle := none }))
  ∧ (∀ (s : State) (b : Fin 2) (e k : Nat), s.sky.bands[b].settle = some (e, k) → s.now < e → exec (.fespiSettleEnd b) s = .next s)
  -- ANT_SHORT drives ANTEN low
  ∧ (∀ s : State, s.sky.antEn = true →
    exec .antShort s
      = .next ((({ s with sky := { s.sky with antEn := false, antShortAt := some s.now } } : State).bump Obj.ant_short_count).setAnt 3))
  -- ANT_RETRY after ant_retry seconds
  ∧ (∀ (s : State) (k : Nat), s.sky.antShortAt = some k → k + ticksS (s.nn Obj.ant_retry) ≤ s.now → s.awake 3 = true →
    s.flag Obj.ant_supply_enable = true →
    exec .antRetry s = .next (({ s with sky := { s.sky with antEn := true, antShortAt := none } } : State).setAnt 1))
  -- ANT_OPEN and ANT_CURRENT_IN_RANGE with ANTEN high
  ∧ (∀ s : State, s.sky.antEn = true → exec .antOpen s = .next (s.setAnt 2))
  ∧ (∀ s : State, s.sky.antEn = true → s.n Obj.ant_state = 2 → exec .antCurrentInRange s = .next (s.setAnt 1))
  ∧ (∀ s : State, s.sky.antEn = false → exec .antOpen s = .next s ∧ exec .antCurrentInRange s = .next s ∧ exec .antShort s = .next s)
  -- NOTCH_SCAN every 10 ms: with notches off every notch is released
  ∧ (∀ (s : State) (b : Fin 2) (l : List (Int × Nat)), s.sampling b = true → s.sky.bands[b].scannedAt + 12500000 ≤ s.now →
    s.flag (Obj.notch_enable b) = false →
    exec (.notchScan b l) s = .next ((List.finRange 4).foldl (fun (u : State) (k : Fin 4) => u.releaseNotch b k) s))
  -- on, the lines above the threshold are kept with their counts, then placed notches track and free ones are placed
  ∧ (∀ (s : State) (b : Fin 2) (l : List (Int × Nat)), s.sampling b = true → s.sky.bands[b].scannedAt + 12500000 ≤ s.now →
    s.flag (Obj.notch_enable b) = true →
    exec (.notchScan b l) s = .next (
      let seen := (l.filter fun x => s.nn (Obj.notch_threshold b) * 100 < x.2).map fun x =>
        match s.sky.bands[b].lines.find? fun m => sameLine m.1 x.1 with
        | some m => (x.1, m.2.1 + 1, x.2)
        | none => (x.1, 1, x.2)
      ((List.finRange 4).foldl (fun (u : State) (k : Fin 4) => u.trackNotch b l k)
        (s.setBand b { s.sky.bands[b] with lines := seen, scannedAt := s.now })).placeNotches b 4))
  -- BAND_MONITOR every 100 ms: state, power and clipping of the samples; a change of state is journalled; then the detectors
  ∧ (∀ (s : State) (b : Fin 2) (m0 m1 m2 m3 m4 : List PinBlock), s.awake 3 = true → s.settling b = false →
    s.sky.bands[b].monitoredAt + 125000000 ≤ s.now →
    exec (.bandMonitor b m0 m1 m2 m3 m4) s = .next (
      let m := s.monitor b (m0 ++ m1 ++ m2 ++ m3 ++ m4)
      let u := ((s.setBandState b m.1).putN (Obj.band_power b) m.2.1).putN (Obj.band_clip b) m.2.2
      let y := u.sky.bands[b]
      let quiet := (if u.n Obj.sky_alarms = 0 then (u.now, m.2.1) :: y.quiet else y.quiet).filter fun q => u.now ≤ q.1 + ticksS 86400
      let mean := meanOf ((u.readyCn0 b).map fun t => (t.cn0 : Int))
      let v := u.setBand b { y with monitoredAt := u.now, quiet,
                                    meanCn0 := ((u.now, mean) :: y.meanCn0).filter fun q => u.now ≤ q.1 + ticksS 61 }
      if v.detectors.nn Obj.sky_alarms = v.nn Obj.sky_alarms then v.detectors else v.detectors.updateIntegrity))
  -- the state (R182): disabled, stuck, above 2 % of the samples at the largest level, fewer than 1 % above the smallest
  ∧ (∀ (s : State) (b : Fin 2) (blocks : List PinBlock),
    (s.flag (Obj.band_enable b) = false → (s.monitor b blocks).1 = 0)
    ∧ (s.flag (Obj.band_enable b) = true → blocks.any (pinStuck (s.nn (Obj.sample_bits b))) = true → (s.monitor b blocks).1 = 3))
  -- while the front end settles it is not monitored
  ∧ (∀ (s : State) (b : Fin 2) (m0 m1 m2 m3 m4 : List PinBlock), s.settling b = true →
    exec (.bandMonitor b m0 m1 m2 m3 m4) s = .next s)

/-- Trackers of the sky channels (R191, R192, R199, R200).
Commands that complete here, on conditions on the state and operands alone: `acquisitionSearch`, `trackerLock`,
`pullInTimeout`, `trackerLoss`, `reacqTimeout`, `symbolSync`, `transmitTimeResolved`. -/
def Obligations.SkyTrackers : Prop :=
  -- ACQUISITION_SEARCH: a detection within the window at a stage's end, the dwell on used samples and the search's cost of the
  -- one engine over, pulls in; in REACQ at once
  (∀ (s : State) (c : Fin 256) (b : Fin 2) (d : Detection) (done : Nat), s.sampling b = true → s.sky.channels[c].trk[b].st = .search →
    (s.windowOf c b).1.holds (s.windowOf c b).2 s.sky.channels[c].trk[b].signal d = true →
    done = max s.sky.engine (max s.sky.channels[c].trk[b].since s.sky.bands[b].usedFrom + stageDwell s.sky.channels[c].trk[b].stageB)
      + (s.windowOf c b).1.cost s.sky.channels[c].trk[b].signal s.sky.channels[c].trk[b].stageB → done ≤ s.now →
    exec (.acquisitionSearch c b (some d)) s = .next (({ s with sky := { s.sky with engine := done } } : State).detect c b d))
  ∧ (∀ (s : State) (c : Fin 256) (b : Fin 2), s.sampling b = true → s.sky.channels[c].trk[b].st = .reacq →
    (∀ d : Detection, (s.windowOf c b).1.holds (s.windowOf c b).2 s.sky.channels[c].trk[b].signal d = true →
      exec (.acquisitionSearch c b (some d)) s = .next (s.detect c b d))
    ∧ exec (.acquisitionSearch c b none) s = .next s)
  -- stage A without a detection is followed by stage B for a predicted satellite, else the search ends
  ∧ (∀ (s : State) (c : Fin 256) (b : Fin 2) (done : Nat), s.sampling b = true → s.sky.channels[c].trk[b].st = .search →
    s.sky.channels[c].trk[b].stageB = false →
    done = max s.sky.engine (max s.sky.channels[c].trk[b].since s.sky.bands[b].usedFrom + stageDwell false)
      + (s.windowOf c b).1.cost s.sky.channels[c].trk[b].signal false → done ≤ s.now →
    (s.sky.channels[c].predicted = true → exec (.acquisitionSearch c b none) s
      = .next (({ s with sky := { s.sky with engine := done } } : State).setTracker c b
          { s.sky.channels[c].trk[b] with stageB := true, since := s.now }))
    ∧ (s.sky.channels[c].predicted = false → exec (.acquisitionSearch c b none) s
      = .next (({ s with sky := { s.sky with engine := done } } : State).moveTracker c b .idle)))
  -- before its end a stage goes on
  ∧ (∀ (s : State) (c : Fin 256) (b : Fin 2) (f : Option Detection), s.sky.channels[c].trk[b].st = .search →
    s.now < max s.sky.engine (max s.sky.channels[c].trk[b].since s.sky.bands[b].usedFrom + stageDwell s.sky.channels[c].trk[b].stageB)
      + (s.windowOf c b).1.cost s.sky.channels[c].trk[b].signal s.sky.channels[c].trk[b].stageB →
    exec (.acquisitionSearch c b f) s = .next s)
  -- a band that delivers no samples is not searched
  ∧ (∀ (s : State) (c : Fin 256) (b : Fin 2) (f : Option Detection), s.sampling b = false →
    exec (.acquisitionSearch c b f) s = .next s)
  -- TRACKER_LOCK once the pull-in criterion has held for 100 ms
  ∧ (∀ (s : State) (c : Fin 256) (b : Fin 2) (l : List Dump), s.sky.channels[c].trk[b].st = .pullIn →
    100 ≤ (s.runTracker b l s.sky.channels[c].trk[b]).rep.goodMs → s.sky.channels[c].trk[1 - b].st ≠ .idle →
    exec (.trackerLock c ⟨b, l⟩) s = .next (
      let t := s.runTracker b l s.sky.channels[c].trk[b]
      s.setTracker c b { t with st := .track, since := s.now, carrier := true, lockSince := s.now, restarted := true,
                                rep := { t.rep with weakMs := 0 } }))
  -- the other band's tracker, still idle, is then searched for band 1 of the satellite (R191)
  ∧ (∀ (s : State) (c : Fin 256) (l : List Dump), s.sky.channels[c].trk[(0 : Fin 2)].st = .pullIn →
    100 ≤ (s.runTracker 0 l s.sky.channels[c].trk[(0 : Fin 2)]).rep.goodMs → s.sky.channels[c].trk[(1 : Fin 2)].st = .idle →
    exec (.trackerLock c ⟨0, l⟩) s = .next (
      let t := s.runTracker 0 l s.sky.channels[c].trk[(0 : Fin 2)]
      (s.setTracker c 0 { t with st := .track, since := s.now, carrier := true, lockSince := s.now, restarted := true,
                                 rep := { t.rep with weakMs := 0 } }).searchBand c 1))
  -- before that its loops run on
  ∧ (∀ (s : State) (c : Fin 256) (b : Fin 2) (l : List Dump), s.sky.channels[c].trk[b].st = .pullIn →
    (s.runTracker b l s.sky.channels[c].trk[b]).rep.goodMs < 100 →
    exec (.trackerLock c ⟨b, l⟩) s = .next (s.setTracker c b (s.runTracker b l s.sky.channels[c].trk[b])))
  -- PULL_IN_TIMEOUT after 2 s
  ∧ (∀ (s : State) (c : Fin 256) (b : Fin 2), s.sky.channels[c].trk[b].st = .pullIn →
    s.sky.channels[c].trk[b].since + 2500000000 ≤ s.now → exec (.pullInTimeout c b) s = .next (s.moveTracker c b .reacq))
  -- TRACKER_LOSS from TRACK, SYNC and READY once weak for loss_time, or coasting beyond 20 ms: code 0x3102
  ∧ (∀ (s : State) (c : Fin 256) (b : Fin 2) (l : List Dump), (s.sky.channels[c].trk[b].st = .track ∨ s.sky.channels[c].trk[b].st = .sync
      ∨ s.sky.channels[c].trk[b].st = .ready) →
    (s.nn Obj.loss_time ≤ (s.runTracker b l s.sky.channels[c].trk[b]).rep.weakMs
      ∨ s.coasted b (s.runTracker b l s.sky.channels[c].trk[b]) = true) →
    exec (.trackerLoss c ⟨b, l⟩) s = .next (
      let t := s.runTracker b l s.sky.channels[c].trk[b]
      (s.setTracker c b { t with st := .reacq, since := s.now, carrier := false, aided := false, sync := false,
                                 rep := { t.rep with origin := none } }).log (skySource c) 0x3102 (be 1 (b : Nat) ++ be 2 t.cn0)))
  -- short of that its loops run on
  ∧ (∀ (s : State) (c : Fin 256) (b : Fin 2) (l : List Dump), (s.sky.channels[c].trk[b].st = .track ∨ s.sky.channels[c].trk[b].st = .sync
      ∨ s.sky.channels[c].trk[b].st = .ready) → (s.runTracker b l s.sky.channels[c].trk[b]).rep.weakMs < s.nn Obj.loss_time →
    s.coasted b (s.runTracker b l s.sky.channels[c].trk[b]) = false →
    exec (.trackerLoss c ⟨b, l⟩) s = .next (s.setTracker c b (s.runTracker b l s.sky.channels[c].trk[b])))
  -- REACQ_TIMEOUT after reacq_time
  ∧ (∀ (s : State) (c : Fin 256) (b : Fin 2), s.sky.channels[c].trk[b].st = .reacq →
    s.sky.channels[c].trk[b].since + ticksS (s.nn Obj.reacq_time) ≤ s.now → exec (.reacqTimeout c b) s = .next (s.moveTracker c b .idle))
  -- SYMBOL_SYNC
  ∧ (∀ (s : State) (c : Fin 256) (b : Fin 2), s.sky.channels[c].trk[b].st = .track →
    exec (.symbolSync c b) s = .next (s.setTracker c b { s.sky.channels[c].trk[b] with st := .sync, since := s.now, sync := true }))
  -- TRANSMIT_TIME_RESOLVED from the message in SYNC, and by aiding in TRACK or SYNC where the bound of R200 holds
  ∧ (∀ (s : State) (c : Fin 256) (b : Fin 2) (week towMs : Nat) (code : Int), s.sky.channels[c].trk[b].st = .sync →
    s.aidedBy s.sky.channels[c].sat s.sky.channels[c].trk[b].signal = none →
    exec (.transmitTimeResolved c ⟨b, week, towMs, code⟩) s = .next (s.trackerReady c b
      ((systemEpoch (s.sky.channels[c].sat / 256) + 604800 * (week : Int)) * unitsPerS + (towMs : Int) * 65536000000
        - codeTime s.sky.channels[c].trk[b].signal code) false))
  ∧ (∀ (s : State) (c : Fin 256) (b : Fin 2) (week towMs : Nat) (code : Int) (k : Bytes) (p : Int × Int × Int),
    (s.sky.channels[c].trk[b].st = .track ∨ s.sky.channels[c].trk[b].st = .sync) →
    s.aidedBy s.sky.channels[c].sat s.sky.channels[c].trk[b].signal = some (k, p) →
    exec (.transmitTimeResolved c ⟨b, week, towMs, code⟩) s
      = .next (s.trackerReady c b (s.aidedOrigin s.sky.channels[c].trk[b] k p) true))
  ∧ (∀ (s : State) (c : Fin 256) (b : Fin 2) (o : Int) (aided : Bool), (s.trackerReady c b o aided).sky.channels[c].trk[b]
      = { s.sky.channels[c].trk[b] with st := .ready, since := s.now, aided,
                                        rep := { s.sky.channels[c].trk[b].rep with origin := some o } })
  -- an idle tracker answers none of these events
  ∧ (∀ (s : State) (c : Fin 256) (b : Fin 2) (f : Option Detection) (l : List Dump) (week towMs : Nat) (code : Int),
    s.sky.channels[c].trk[b].st = .idle →
    exec (.acquisitionSearch c b f) s = .next s ∧ exec (.trackerLock c ⟨b, l⟩) s = .next s ∧ exec (.trackerLoss c ⟨b, l⟩) s = .next s
      ∧ exec (.symbolSync c b) s = .next s ∧ exec (.transmitTimeResolved c ⟨b, week, towMs, code⟩) s = .next s)

/-- Navigation data, observations, the solution and the position (R194-R197, R201-R206, R208-R220).
Commands that complete here, on conditions on the state and operands alone: `navPage`, `orbitStorePersist`,
`observationEpoch`, `timingSolution`, `positionCheckFix`, `surveyRestart`. -/
def Obligations.SkySolution : Prop :=
  -- NAV_PAGE whose parity or CRC holds: a decoded data set is stored, an almanac under the satellite it describes; health, UTC
  -- and offsets are kept
  (∀ (s : State) (c : Fin 256) (b : Fin 2) (bits : List Bool) (kind sat message issue : Nat) (content : Bytes),
    s.sky.channels[c].sat ≠ 0 → pageOk s.sky.channels[c].trk[b].signal bits = true →
    exec (.navPage c b ⟨bits, .orbit kind sat message issue content⟩) s
      = .next ((s.count 11 0x04).storeOrbit kind (if kind = 2 then sat else s.sky.channels[c].sat) message issue content))
  ∧ (∀ (s : State) (c : Fin 256) (b : Fin 2) (bits : List Bool) (sat sig : Nat), s.sky.channels[c].sat ≠ 0 →
    pageOk s.sky.channels[c].trk[b].signal bits = true →
    (Yields (.navPage c b ⟨bits, .health sat sig false⟩) s fun t => (sat, sig) ∈ t.sky.unhealthy
      ∧ t = { s with sky := { s.sky with unhealthy := t.sky.unhealthy }, ctrs := t.ctrs })
    ∧ (Yields (.navPage c b ⟨bits, .health sat sig true⟩) s fun t => (sat, sig) ∉ t.sky.unhealthy))
  ∧ (∀ (s : State) (c : Fin 256) (b : Fin 2) (bits : List Bool) (dtLS dtLSF delta : Int) (week day : Nat), s.sky.channels[c].sat ≠ 0 →
    pageOk s.sky.channels[c].trk[b].signal bits = true →
    exec (.navPage c b ⟨bits, .utc dtLS week day dtLSF delta⟩) s = .next (
      let u := s.count 11 0x04
      let sys : Fin 4 := ⟨(s.sky.channels[c].sat / 256 - 1) % 4, Nat.mod_lt _ (by decide)⟩
      ({ u with sky := { u.sky with utc := u.sky.utc.set sys (some (utcOf (s.sky.channels[c].sat / 256) dtLS week day dtLSF delta)) } } : State).adoptSky))
  ∧ (∀ (s : State) (c : Fin 256) (b : Fin 2) (bits : List Bool) (offset : Int), s.sky.channels[c].sat ≠ 0 →
    pageOk s.sky.channels[c].trk[b].signal bits = true →
    exec (.navPage c b ⟨bits, .isb offset⟩) s = .next (
      let u := s.count 11 0x04
      let sys : Fin 4 := ⟨(s.sky.channels[c].sat / 256 - 1) % 4, Nat.mod_lt _ (by decide)⟩
      { u with sky := { u.sky with isb := u.sky.isb.set sys (some offset) } }))
  -- a page whose check fails brings nothing: it is counted, and journalled once in 60 s
  ∧ (∀ (s : State) (c : Fin 256) (b : Fin 2) (bits : List Bool) (item : NavItem), s.sky.channels[c].sat ≠ 0 →
    pageOk s.sky.channels[c].trk[b].signal bits = false → s.sky.channels[c].lastBad = none →
    exec (.navPage c b ⟨bits, item⟩) s = .next ((((s.count 11 0x05).bump Obj.nav_page_errors).setChannel c
      { s.sky.channels[c] with lastBad := some s.now }).log (skySource c) 0x3103 (be 1 s.sky.channels[c].trk[b].signal)))
  -- ORBIT_STORE_PERSIST every 900 s
  ∧ (∀ s : State, s.awake 3 = true → s.awake 8 = true → s.sky.persistedAt + 1125000000000 ≤ s.now →
    exec .orbitStorePersist s = .next s.persistOrbit)
  -- OBSERVATION_EPOCH: the epoch takes the next sequence and the receive stamp of its grid sample
  ∧ (∀ (s : State) (obs : List SkyObs), s.awake 3 = true → s.tb.running = true → sampleStamp s.nextEpoch.2.1 ≤ s.stamp →
    Yields (.observationEpoch obs) s fun t => t.sky.seq = (s.sky.seq + 1) % 2 ^ 32 ∧ t.sky.solved = false
      ∧ ∃ e, t.sky.epoch = some e ∧ e.seq = (s.sky.seq + 1) % 2 ^ 32 ∧ e.raw = sampleStamp s.nextEpoch.2.1
        ∧ e.time = s.convert e.raw)
  ∧ (∀ (s : State) (obs : List SkyObs), s.awake 3 = false → exec (.observationEpoch obs) s = .next s)
  -- TIMING_SOLUTION: the latest epoch is solved once, its solution carries the epoch's sequence
  ∧ (∀ (s : State) (e : SkyEpoch), s.sky.epoch = some e → s.sky.solved = false → s.awake 3 = true →
    Yields .timingSolution s fun t => t.sky.sol.seq = e.seq)
  ∧ (∀ (s : State) (e : SkyEpoch), s.sky.epoch = some e → s.sky.solved = true → exec .timingSolution s = .next s)
  -- POSITION_CHECK_FIX every 60 s: the fix of the latest epoch, in mm from the position in use; within move_limit it ends the
  -- run of departures, beyond it lengthens the run
  ∧ (∀ (s : State) (d : Nat), s.positionInUse ≠ none → s.awake 3 = true → s.sky.fixedAt + 75000000000 ≤ s.now → s.navDeparture = some d →
    d ≤ s.nn Obj.move_limit * 1000 →
    exec (.positionCheckFix s.sky.seq) s = .next { s with sky := { s.sky with departs := 0, fixedAt := s.now } })
  ∧ (∀ (s : State) (d : Nat), s.positionInUse ≠ none → s.awake 3 = true → s.sky.fixedAt + 75000000000 ≤ s.now → s.navDeparture = some d →
    s.nn Obj.move_limit * 1000 < d → s.sky.departs < 4 → exec (.positionCheckFix s.sky.seq) s
      = .next { s with sky := { s.sky with departs := s.sky.departs + 1, fixedAt := s.now } })
  -- the fifth departure in a row raises the position alarm, code 0x3008
  ∧ (∀ (s : State) (d : Nat), s.positionInUse ≠ none → s.awake 3 = true → s.sky.fixedAt + 75000000000 ≤ s.now → s.navDeparture = some d →
    s.nn Obj.move_limit * 1000 < d → s.sky.departs = 4 → s.sky.posAlarm = false → exec (.positionCheckFix s.sky.seq) s
      = .next (((({ s with sky := { s.sky with departs := 5, fixedAt := s.now, posAlarm := true } } : State).putN Obj.position_state 5).log
          0 0x3008 (be 4 (rneDiv d 1000))).detectors.autoResurvey.updateIntegrity))
  -- without a fix, or of another epoch than the latest, nothing changes
  ∧ (∀ (s : State) (e : Nat), (s.navDeparture = none ∨ e ≠ s.sky.seq) → exec (.positionCheckFix e) s = .next s)
  -- SURVEY_RESTART: the survey starts anew, the device writes false; a fixed position or the navigation mode keeps its state
  ∧ (∀ s : State, exec .surveyRestart s = .next (
      let u := s.startSurvey.putB Obj.survey_restart false
      let u := if u.n Obj.position_mode = 1 then u.putN Obj.position_state 3
        else if u.n Obj.position_mode = 2 then u.putN Obj.position_state 4 else u
      u.detectors.updateIntegrity))

/-- Snapshots and the sky-bound slots (R221-R225, R119, R22).
Commands that complete here, on conditions on the state and operands alone: `gristRequest`, `gristCaptureStart`,
`gristCaptureComplete`, `gristSolveComplete`, `gristHold`, `slotConfigCommit`. -/
def Obligations.SnapshotCommands : Prop :=
  -- GRIST_REQUEST while none runs
  (∀ s : State, s.gristBusy = false → exec (.gristRequest 1) s = .next ((s.putN Obj.grist_request 1).gristBegin (.owner true)))
  ∧ (∀ s : State, s.gristBusy = false → exec (.gristRequest 2) s = .next ((s.putN Obj.grist_request 2).gristBegin (.owner false)))
  ∧ (∀ (s : State) (r : Nat), s.gristBusy = true → exec (.gristRequest r) s = .next s)
  -- GRIST_CAPTURE_START: the capture begins at the next grid sample
  ∧ (∀ (s : State) (src : GristFrom) (k : Nat), s.sky.grist.req = some (src, k) → s.n Obj.grist_start_time = 0 → s.n Obj.grist_state = 1 →
    s.awake 3 = true → s.settled = true → s.flag Obj.grist_hold = false → Wf s →
    Yields .gristCaptureStart s fun t => t.n Obj.grist_state = 2 ∧ t.sky.grist.n0 = sampleFrom s.stamp
      ∧ t.sky.grist.firstTime = s.convert (sampleStamp (sampleFrom s.stamp)) ∧ t.sky.grist.samples = []
      ∧ t.sky.grist.length = s.nn Obj.grist_length ∧ t = { s with obj := t.obj, sky := { s.sky with grist := t.sky.grist } }
      ∧ ObjBut s t [Obj.grist_state])
  -- GRIST_CAPTURE_COMPLETE of a capture that is to be solved
  ∧ (∀ (s : State) (samples : Bytes) (k : Nat), Wf s → s.sky.grist.req = some (.owner true, k) → s.n Obj.grist_state = 2 →
    sampleStamp (s.sky.grist.n0 + s.sky.grist.length * 61380) ≤ s.stamp →
    Yields (.gristCaptureComplete samples) s fun t => t.n Obj.grist_state = 3
      ∧ t.n Obj.grist_sequence = (s.n Obj.grist_sequence + 1) % 2 ^ 32
      ∧ t.sky.grist.samples = maskBands (bit s.sky.grist.flags 1) (bit s.sky.grist.flags 2)
          (padTo (s.sky.grist.length * 122760) samples) ∧ t.sky.grist.req = s.sky.grist.req)
  -- of one that is not: the request ends
  ∧ (∀ (s : State) (samples : Bytes) (k : Nat), Wf s → s.sky.grist.req = some (.owner false, k) → s.n Obj.grist_state = 2 →
    sampleStamp (s.sky.grist.n0 + s.sky.grist.length * 61380) ≤ s.stamp →
    Yields (.gristCaptureComplete samples) s fun t => t.n Obj.grist_state = 4 ∧ t.sky.grist.req = none)
  -- GRIST_SOLVE_COMPLETE without usable bands has status 5 and gives no fix
  ∧ (∀ (s : State) (src : GristFrom) (k : Nat), s.sky.grist.req = some (src, k) → s.n Obj.grist_state = 3 →
    bit s.sky.grist.flags 1 = false → bit s.sky.grist.flags 2 = false →
    exec .gristSolveComplete s = .next (
      let u := (s.putN Obj.grist_fix_status 5).log 0 0x300F (be 1 5 ++ durToBytes 0)
      (u.setGrist { u.sky.grist with fix := none }).gristEnd))
  -- with one candidate time from enough satellites it has status 1: the fix meets the timebase (R72, R73)
  ∧ (∀ (s : State) (solve : Bool) (k : Nat) (t w f sigma3 : Int), s.sky.grist.req = some (.owner solve, k) → s.n Obj.grist_state = 3 →
    ((bit s.sky.grist.flags 1 = true ∧ bit s.sky.grist.scripted 0 = false) ∨ (bit s.sky.grist.flags 2 = true ∧ bit s.sky.grist.scripted 1 = false)) →
    s.gristPrior (sampleStamp s.sky.grist.n0) = some (t, w) →
    (let orbits := s.ephemerides t
     let band := fun (b : Fin 2) => if bit s.sky.grist.flags (b + 1) && !(bit s.sky.grist.scripted b) then
       (everyOther (s.sky.grist.samples.drop b)).map fun y => s.sampleOf b y.toNat else []
     (if s.positionInUse.isSome then 3 else 6) ≤ Config.gristSatellites [band 0, band 1] orbits s.positionInUse t w
       ∧ Config.gristCandidates [band 0, band 1] orbits s.positionInUse t w = [(f, sigma3)]) →
    exec .gristSolveComplete s = .next (
      let first := sampleStamp s.sky.grist.n0
      let u := s.putN Obj.grist_fix_status 1
      let err := unitsToNs (u.seg.convert first - f)
      let unc := sigma3 + s.n Obj.coarse_fix_margin
      let v := ((u.putN Obj.grist_fix_time_error err).putN Obj.grist_fix_uncertainty unc).log 0 0x300F (be 1 1 ++ durToBytes err)
      ((v.setGrist { v.sky.grist with fix := some (f, unc, first) }).meetFix f unc first).gristEnd))
  -- GRIST_HOLD
  ∧ (∀ (s : State) (h : Bool), exec (.gristHold h) s = .next (s.putB Obj.grist_hold h))
  -- SLOT_CONFIG_COMMIT of a source other than the sky receiver
  ∧ (∀ (s : State) (i : Fin 16) (enable : Bool) (kind number : Nat), kind ≠ 6 →
    (((((s.putB (Obj.slot_enable i) enable).putN (Obj.source_kind i) kind).putN (Obj.source_number i) number).bindSlot i enable).skyPower).skyBound
      = s.skyBound →
    exec (.slotConfigCommit i enable kind number) s
      = .next ((((s.putB (Obj.slot_enable i) enable).putN (Obj.source_kind i) kind).putN (Obj.source_number i) number).bindSlot i enable).skyPower)
  -- of a sky slot enabled in STEEP, with the sky receiver already bound: a capture for the seed begins
  ∧ (∀ (s : State) (i : Fin 16) (number : Nat), s.skyBound = true → (s.slotEnabled i && s.kind i == 6) = false →
    (let u := ((((s.putB (Obj.slot_enable i) true).putN (Obj.source_kind i) 6).putN (Obj.source_number i) number).bindSlot i true).skyPower
     u.mode.cur = .steep ∧ u.gristBusy = false) →
    exec (.slotConfigCommit i true 6 number) s = .next
      (((((s.putB (Obj.slot_enable i) true).putN (Obj.source_kind i) 6).putN (Obj.source_number i) number).bindSlot i true).skyPower.gristBegin
        .steep))

/-- Links, sentinels, the governor and ESMC (R229, R239, R251, R253, R254).
Commands that complete here, on conditions on the state and operands alone: `linkUp`, `linkDown`, `portSpeedChange`,
`sentinelLock`, `sentinelUnlock`, `governorEvaluate`, `lpiEnter`, `esmcTx`, `esmcEventPdu`. -/
def Obligations.PortCommands : Prop :=
  -- LINK_UP in the configured mode, or in one both sides advertise: the mode is resolved and both sentinels restart
  (∀ (s : State) (p : Fin 64) (speed fec : Nat) (eee : Bool), s.portsAwake = true → (s.restState p = 1 ∨ s.restState p = 2) →
    s.linkUp p = false → bit s.side.absent p = false → (bit s.side.loss p = false ∨ s.flag (Obj.los_action p) = false) →
    (s.negotiates p = true → modeOk speed fec = true ∧ (s.advertised p).contains speed = true
      ∧ (speed ≠ 4 ∨ s.nn (Obj.port_fec p) ≤ fec)) →
    (s.negotiates p = false → speed = s.nn (Obj.port_speed p) ∧ fec = s.nn (Obj.port_fec p)) →
    Yields (.linkUp p speed fec eee) s fun t =>
      t.ports[p].lastMode = some (speed, fec) ∧ t.ports[p].newLink = false
      ∧ t.ports[p].eee = (eee && s.negotiates p && bit (s.nn (Obj.an_abilities p)) 4) ∧ t.ports[p].lastFix = s.now ∧ t.serve = s.serve)
  -- a mode that is not the configured one leaves the link down
  ∧ (∀ (s : State) (p : Fin 64) (speed fec : Nat) (eee : Bool), s.negotiates p = false → speed ≠ s.nn (Obj.port_speed p) →
    exec (.linkUp p speed fec eee) s = .next s)
  -- LINK_DOWN: signal lost, module loss where los_action makes it one, module absent
  ∧ (∀ (s : State) (p : Fin 64) (cause : Nat), s.portsAwake = true → s.linkUp p = true →
    (cause = 0 ∨ (cause = 1 ∧ bit s.side.loss p = true ∧ s.flag (Obj.los_action p) = true) ∨ (cause = 2 ∧ bit s.side.absent p = true)) →
    exec (.linkDown p cause) s = .next (s.portDown p (s.restState p) cause))
  ∧ (∀ (s : State) (p : Fin 64), bit s.side.absent p = false → exec (.linkDown p 2) s = .next s)
  -- PORT_SPEED_CHANGE where the rules of modes, groups and calibration partners allow it
  ∧ (∀ (s : State) (p : Fin 64) (speed fec : Nat), s.portsAwake = true →
    ((s.putN (Obj.port_speed p) speed).putN (Obj.port_fec p) fec).portOk p = true →
    (∀ n : Fin 64, (n = p ∨ s.nn (Obj.cal_partner n) = p.val) →
      ((s.putN (Obj.port_speed p) speed).putN (Obj.port_fec p) fec).partnerOk n = true) →
    exec (.portSpeedChange p speed fec) s = .next (((s.putN (Obj.port_speed p) speed).putN (Obj.port_fec p) fec).newPortMode p))
  -- SENTINEL_LOCK of the receive side on 4096 stamps since the acquisition began that lie on a line, or, LOCKED, on a new fit
  -- that agrees with the one in force, once in 64 words (R247): its unit interval is used from now on; with both sentinels
  -- locked the PTP hold of a speed change ends
  ∧ (∀ (s : State) (p : Fin 64) (first : FirstEdge) (l : List Nat), s.portsAwake = true → s.linkUp p = true →
    l.length = 4095 → s.ports[p].rxSince ≤ first.stamp → l.getLast?.getD 0 ≤ s.stamp → (stampLine (first.stamp :: l)).good = true →
    (let ui := (stampLine (first.stamp :: l)).unit (modeWord (s.nn (Obj.speed_resolved p)))
     let edge : Rat := ((first.stamp : Rat) + ((stampLine (first.stamp :: l)).first : Rat) / (4096 * (stampLine (first.stamp :: l)).den : Nat)) / 256
     (s.nn (sentinelKey p false) = 1 ∨ (s.nn (sentinelKey p false) = 2
       ∧ fitsAgree (modeWord (s.nn (Obj.speed_resolved p))) s.ports[p].rxEdge s.ports[p].rxUi edge ui s.stamp = true
       ∧ s.ports[p].rxFitAt + 64 * modeWord (s.nn (Obj.speed_resolved p)) * ui ≤ (s.stamp : Rat) / 256)) →
     exec (.sentinelLock p false first l) s = .next (
      let u := ((s.setPort p { s.ports[p] with rxUi := ui, rxEdge := edge, rxWord := first.word, rxMarker := first.marker,
                                               rxFitAt := (s.stamp : Rat) / 256 }).putN (Obj.fit_residual p)
        (min (stampLine (first.stamp :: l)).residual 65535 : Nat)).setSentinel p false 2
      if u.sentinelsLocked p then (u.setPort p { u.ports[p] with ptpHold := false }).putN (Obj.speed_change_state p) 0 else u)))
  -- of the transmit side: it gives the offset of SREF too
  ∧ (∀ (s : State) (p : Fin 64) (first : FirstEdge) (l : List Nat), s.portsAwake = true → s.linkUp p = true →
    l.length = 4095 → s.ports[p].txSince ≤ first.stamp → l.getLast?.getD 0 ≤ s.stamp → (stampLine (first.stamp :: l)).good = true →
    (let ui := (stampLine (first.stamp :: l)).unit (modeWord (s.nn (Obj.speed_resolved p)))
     let edge : Rat := ((first.stamp : Rat) + ((stampLine (first.stamp :: l)).first : Rat) / (4096 * (stampLine (first.stamp :: l)).den : Nat)) / 256
     let off := modeUi (s.nn (Obj.speed_resolved p)) / ui - 1
     (s.nn (sentinelKey p true) = 1 ∨ (s.nn (sentinelKey p true) = 2
       ∧ fitsAgree (modeWord (s.nn (Obj.speed_resolved p))) s.ports[p].txEdge s.ports[p].txUi edge ui s.stamp = true
       ∧ s.ports[p].txFitAt + 64 * modeWord (s.nn (Obj.speed_resolved p)) * ui ≤ (s.stamp : Rat) / 256)) →
     exec (.sentinelLock p true first l) s = .next (
      let u := ((s.setPort p { s.ports[p] with txUi := ui, txEdge := edge, txWord := first.word, txMarker := first.marker,
                                               txFitAt := (s.stamp : Rat) / 256 }).putN (Obj.sref_offset p)
        (rneDiv (off.num * 10 ^ 12) off.den)).setSentinel p true 2
      if u.sentinelsLocked p then (u.setPort p { u.ports[p] with ptpHold := false }).putN (Obj.speed_change_state p) 0 else u)))
  -- on fewer stamps, or stamps that lie on no line, nothing changes
  ∧ (∀ (s : State) (p : Fin 64) (tx : Bool) (first : FirstEdge) (l : List Nat),
    (l.length ≠ 4095 ∨ (stampLine (first.stamp :: l)).good = false) → exec (.sentinelLock p tx first l) s = .next s)
  -- SENTINEL_UNLOCK on an event that ends the lock restarts the fit; a lost marker and a word slip always do
  ∧ (∀ (s : State) (p : Fin 64) (x : SentinelLoss), s.portsAwake = true → s.nn (sentinelKey p x.tx) = 2 →
    s.sentinelFails p x.tx x.event = true → exec (.sentinelUnlock p x) s = .next (s.setSentinel p x.tx 1))
  ∧ (∀ (s : State) (p : Fin 64) (tx : Bool), s.sentinelFails p tx .markerLost = true ∧ s.sentinelFails p tx .wordSlip = true)
  ∧ (∀ (s : State) (p : Fin 64) (x : SentinelLoss), (s.nn (sentinelKey p x.tx) ≠ 2 ∨ s.sentinelFails p x.tx x.event = false) →
    exec (.sentinelUnlock p x) s = .next s)
  -- GOVERNOR_EVALUATE of an ungoverned port keeps the line times of the second
  ∧ (∀ (s : State) (p : Fin 64), s.portsAwake = true → s.ports[p].govNext ≤ s.now →
    (s.setPort p { s.ports[p] with rxOct := 0, txOct := 0, govHist := ((s.ports[p].rxOct, s.ports[p].txOct) :: s.ports[p].govHist).take 3600,
                                   govNext := s.now + ticksS 1 }).governs p = false →
    exec (.governorEvaluate p) s = .next (s.setPort p { s.ports[p] with
      rxOct := 0, txOct := 0, govHist := ((s.ports[p].rxOct, s.ports[p].txOct) :: s.ports[p].govHist).take 3600,
      govNext := s.now + ticksS 1 }))
  -- a governed port that may change moves up to the next higher mode when the last second's line time asks for it (R251)
  ∧ (∀ (s : State) (p : Fin 64) (m : Nat), s.portsAwake = true → s.ports[p].govNext ≤ s.now → s.ports[p].govAt = none →
    (let u := s.setPort p { s.ports[p] with rxOct := 0, txOct := 0, govHist := ((s.ports[p].rxOct, s.ports[p].txOct) :: s.ports[p].govHist).take 3600,
                                            govNext := s.now + ticksS 1 }
     let cur := u.nn (Obj.speed_resolved p)
     u.governs p = true ∧ ((u.govModes p).filter fun m => cur < m).head? = some m
       ∧ u.nn (Obj.gov_up p) * modeOctets cur < max s.ports[p].rxOct s.ports[p].txOct * 100) →
    exec (.governorEvaluate p) s = .next ((s.setPort p { s.ports[p] with
      rxOct := 0, txOct := 0, govHist := ((s.ports[p].rxOct, s.ports[p].txOct) :: s.ports[p].govHist).take 3600,
      govNext := s.now + ticksS 1 }).governTo p m))
  -- LPI_ENTER
  ∧ (∀ (s : State) (p : Fin 64), s.portsAwake = true → s.linkUp p = true → (s.nn (Obj.speed_resolved p) = 3 ∨ s.nn (Obj.speed_resolved p) = 4) →
    s.nn (Obj.fec_resolved p) < 2 →
    s.ports[p].eee = true → s.flag (Obj.gov_lpi p) = true → s.ports[p].lpi = none → s.ports[p].fixed = [] →
    s.ports[p].lastFix + ticksUs (s.nn (Obj.gov_lpi_idle p)) ≤ s.now →
    exec (.lpiEnter p) s = .next (s.setPort p { s.ports[p] with lpi := some s.now }))
  -- ESMC_TX once per second, ESMC_EVENT_PDU at a change of code
  ∧ (∀ (s : State) (p : Fin 64), s.esmcOn p = true → s.ports[p].esmcNext ≤ s.now →
    Yields (.esmcTx p) s fun t => t.ports[p].esmcNext = s.now + 1250000000 ∧ t = { s.sendEsmc p false with ports := t.ports })
  ∧ (∀ (s : State) (p : Fin 64) (c : Nat) (k : Bool), s.ports[p].esmcSent = some (c, k) → s.esmcOn p = true → c ≠ s.esmcCode p →
    exec (.esmcEventPdu p) s = .next (s.sendEsmc p true))
  ∧ (∀ (s : State) (p : Fin 64) (c : Nat) (k : Bool), s.ports[p].esmcSent = some (c, k) → c = s.esmcCode p →
    exec (.esmcEventPdu p) s = .next s)

/-- Frames of the ports, calibration and departures (R230, R240-R248).
Commands that complete here, on conditions on the state and operands alone: `portFrameReceive`, `calFrameSend`,
`calFrameReceive`, `departureFix`, `frameDeparture`. -/
def Obligations.PortFrames : Prop :=
  -- PORT_FRAME_RECEIVE: a frame whose FCS fails is discarded and counted
  (∀ (s : State) (p : Fin 64) (edge : Rat) (o : Nat) (skew : Rat) (frame : Bytes), s.portsAwake = true → s.linkUp p = true →
    o ≤ modeWord (s.nn (Obj.speed_resolved p)) → s.macDown = false → s.blockBusy (0x0100 + p) = false → fcsOk frame = false →
    exec (.portFrameReceive p edge o skew frame) s
      = .next (((s.setPort p { s.ports[p] with rxOct := s.ports[p].rxOct + frame.length + 20 }).bump (Obj.rx_fcs_errors p)).countP p 0x05))
  -- a good frame of an allowed size counts and goes to the filter with its stamp
  ∧ (∀ (s u : State) (p : Fin 64) (edge : Rat) (o : Nat) (skew : Rat) (frame : Bytes), s.portsAwake = true → s.linkUp p = true →
    o ≤ modeWord (s.nn (Obj.speed_resolved p)) → s.macDown = false → s.blockBusy (0x0100 + p) = false → fcsOk frame = true → 64 ≤ frame.length →
    s.nn (Obj.speed_resolved p) ≠ 5 →
    u = ((((s.setPort p { s.ports[p] with rxOct := s.ports[p].rxOct + frame.length + 20 }).bump (Obj.rx_frames p)).bump
      (Obj.rx_bytes p) frame.length).countP p 0x01).countP p 0x02 frame.length →
    frame.length ≤ u.nn (Obj.max_frame p) →
    exec (.portFrameReceive p edge o skew frame) s = .next (u.acceptFrame p (s.rxStamp p edge o 0) (u.rxStamp p edge o 0 false)
      (s.nn (Obj.rx_sentinel_state p) != 2) (frame.take (frame.length - 4))))
  -- while the MACs restart the frame is lost: its octets and its pulse are held for the counters (R258, R405)
  ∧ (∀ (s : State) (p : Fin 64) (edge : Rat) (o : Nat) (skew : Rat) (frame : Bytes), s.portsAwake = true → s.linkUp p = true →
    o ≤ modeWord (s.nn (Obj.speed_resolved p)) → s.macDown = true →
    exec (.portFrameReceive p edge o skew frame) s
      = .next (((s.setPort p { s.ports[p] with rxOct := s.ports[p].rxOct + frame.length + 20 }).holdPulse p).countP p 0x06))
  -- CAL_FRAME_SEND of a new exchange by the lower-numbered port
  ∧ (∀ (s : State) (a b : Fin 64), s.calPairOf a = some (a, b) → s.portsAwake = true → s.pairUp a b = true → s.ports[a].calNext ≤ s.now →
    s.macDown = false → s.ports[a].cal.isOpen = false →
    Yields (.calFrameSend a) s fun t => t.ports[a].cal.seq = (s.ports[a].cal.seq + 1) % 2 ^ 32 ∧ t.ports[a].cal.isOpen = true
      ∧ t.ports[a].cal.sentLo = true ∧ t.ports[a].cal.done = s.ports[a].cal.done
      ∧ t.ports[a].egress.length = s.ports[a].egress.length + 1)
  -- CAL_FRAME_RECEIVE: a good calibration frame of a paired port counts as any frame does and gives the exchange its stamp
  ∧ (∀ (s u : State) (p : Fin 64) (edge : Rat) (o : Nat) (frame : Bytes), s.portsAwake = true → s.linkUp p = true →
    o ≤ modeWord (s.nn (Obj.speed_resolved p)) → s.macDown = false → s.blockBusy (0x0100 + p) = false → fcsOk frame = true →
    64 ≤ frame.length → isCalFrame frame = true → isCalFrame (frame.take (frame.length - 4)) = true → (s.calPairOf p).isSome = true →
    u = ((((s.setPort p { s.ports[p] with rxOct := s.ports[p].rxOct + frame.length + 20 }).bump (Obj.rx_frames p)).bump
      (Obj.rx_bytes p) frame.length).countP p 0x01).countP p 0x02 frame.length →
    frame.length ≤ u.nn (Obj.max_frame p) → (u.calPairOf p).isSome = true →
    (rxHeaders (u.nn (Obj.vlan_tpid p)) (frame.take (frame.length - 4))).etype ≠ 0x8809 →
    exec (.calFrameReceive p edge o frame) s = .next (u.calReceive p (u.rxStamp p edge o 0 false) (frame.take (frame.length - 4))))
  -- a frame that is none, or of a port without a partner, is no calibration event
  ∧ (∀ (s : State) (p : Fin 64) (edge : Rat) (o : Nat) (frame : Bytes), (isCalFrame frame = false ∨ s.calPairOf p = none) →
    exec (.calFrameReceive p edge o frame) s = .next s)
  -- DEPARTURE_FIX: once the line is free and the start of the frame lies where the PCS may put it, the next frame's departure is
  -- fixed
  ∧ (∀ (s : State) (p : Fin 64) (word : Nat) (o : Nat) (f : EFrame), s.portsAwake = true → s.linkUp p = true → s.tb.running = true →
    s.macDown = false → s.blockBusy (0x0100 + p) = false → s.nextFrame p s.earliest = some f → s.ports[p].lpi = none →
    s.ports[p].lineFree ≤ s.earliest → s.sfdFits p s.earliest (s.txWord p s.earliest word) o = true →
    (f.kind = 0 ∨ s.nn (Obj.tx_sentinel_state p) = 2) →
    exec (.departureFix p word o) s = .next ((s.setPort p { s.ports[p] with egress := s.ports[p].egress.erase f }).fixFrame p f
      s.earliest (s.txWord p s.earliest word) o))
  -- with an insertion request it needs a locked transmit sentinel, else it is discarded and counted
  ∧ (∀ (s : State) (p : Fin 64) (word : Nat) (o : Nat) (f : EFrame), s.portsAwake = true → s.linkUp p = true → s.tb.running = true →
    s.macDown = false → s.blockBusy (0x0100 + p) = false → s.nextFrame p s.earliest = some f → s.ports[p].lpi = none →
    s.ports[p].lineFree ≤ s.earliest → s.sfdFits p s.earliest (s.txWord p s.earliest word) o = true → f.kind ≠ 0 →
    s.nn (Obj.tx_sentinel_state p) ≠ 2 →
    exec (.departureFix p word o) s = .next ((((s.setPort p { s.ports[p] with egress := s.ports[p].egress.erase f }).bump
      (Obj.ts_uncal_drop p)).countP p 0x07).emitDone f.owner p none))
  -- a frame that waits ends low-power idle
  ∧ (∀ (s : State) (p : Fin 64) (word : Nat) (o : Nat) (f : EFrame) (at' : Nat), s.portsAwake = true → s.linkUp p = true →
    s.tb.running = true → s.macDown = false → s.blockBusy (0x0100 + p) = false → s.nextFrame p s.earliest = some f →
    s.ports[p].lpi = some at' → exec (.departureFix p word o) s = .next (s.wakeLine p))
  -- FRAME_DEPARTURE: the frame leaves at its tick with its insertions; nothing before it
  ∧ (∀ (s : State) (p : Fin 64) (err : Rat) (x : Fixed) (rest : List Fixed), s.ports[p].fixed = x :: rest → s.tb.raw < x.depart →
    exec (.frameDeparture p err) s = .next s)
  ∧ (∀ (s : State) (p : Fin 64) (err : Rat) (x : Fixed) (rest : List Fixed), s.ports[p].fixed = x :: rest → x.depart ≤ s.tb.raw →
    Yields (.frameDeparture p err) s fun t => t.ports[p].fixed = rest ∧ t.ports[p].wire = withFcs (x.frame.departing x.ins).1
      ∧ t.ports[p].txOct = s.ports[p].txOct + t.ports[p].wire.length + 20 ∧ t.ports[p].egress = s.ports[p].egress
      ∧ t.tb = s.tb ∧ t.serve = s.serve)

/-- The sideband chains and the management port (R255, R256).
Commands that complete here, on conditions on the state and operands alone: `sidebandScan`, `mgmtPhyPoll`,
`mgmtFrameReceive`. -/
def Obligations.SidebandAndManagement : Prop :=
  -- SIDEBAND_SCAN: the inputs, bit 3n of the 192 for module n absent, 3n + 1 loss, 3n + 2 fault, are debounced over two scans
  -- and the bits shifted before are latched
  (∀ (s : State) (first second third : Nat), s.portsAwake = true → s.flag Obj.sb_enable = true → s.side.next ≤ s.now →
    s.side.anyScan = true →
    exec (.sidebandScan first second third) s = .next (
      let b := s.side
      let a := s.sbRead 0 (chainMask first second third 0)
      let l := s.sbRead 1 (chainMask first second third 1)
      let f := s.sbRead 2 (chainMask first second third 2)
      let g : Sideband := { next := s.now + ticksUs (s.nn Obj.sb_period), scanAt := s.now, rawAbsent := a, rawLoss := l, rawFault := f,
                            absent := debounce a b.rawAbsent b.absent, loss := debounce l b.rawLoss b.loss,
                            fault := debounce f b.rawFault b.fault, latched := b.shifted, shifted := s.disableMask, anyScan := true }
      (List.finRange 64).foldl (fun (u : State) n => u.moduleEffect b n) (({ s with side := g } : State).bump Obj.sb_scan_count)))
  -- the first scan after the chains start keeps no earlier reading: an input changes with the next scan at the earliest
  ∧ (∀ (s : State) (first second third : Nat), s.portsAwake = true → s.flag Obj.sb_enable = true → s.side.next ≤ s.now →
    s.side.anyScan = false →
    Yields (.sidebandScan first second third) s fun t => t.side.anyScan = true ∧ t.side.next = s.now + ticksUs (s.nn Obj.sb_period)
      ∧ t.side.rawAbsent = s.sbRead 0 (chainMask first second third 0) ∧ t.side.latched = s.side.shifted)
  ∧ (∀ (s : State) (first second third : Nat), s.now < s.side.next → exec (.sidebandScan first second third) s = .next s)
  -- MGMT_PHY_POLL every 100 ms: the five registers are read over MDIO; a change of the resolved link is kept and journalled
  ∧ (∀ (s : State) (r1 r4 r5 r9 r10 : Nat), s.portsAwake = true → s.flag Obj.mgmt_enable = true → s.ool.phyNext ≤ s.now →
    let u : State := { s with ool := { s.ool with phyNext := s.now + 125000000, mdio := phyPoll (s.nn Obj.mgmt_phy_addr) } }
    (phyLink r1 r4 r5 r9 r10 ≠ s.nn Obj.mgmt_link → exec (.mgmtPhyPoll r1 r4 r5 r9 r10) s
        = .next ((u.putN Obj.mgmt_link (phyLink r1 r4 r5 r9 r10)).log 0 0x4009 (be 1 (phyLink r1 r4 r5 r9 r10 : Nat))))
    ∧ (phyLink r1 r4 r5 r9 r10 = s.nn Obj.mgmt_link → exec (.mgmtPhyPoll r1 r4 r5 r9 r10) s = .next u))
  ∧ (∀ (s : State) (r1 r4 r5 r9 r10 : Nat), s.now < s.ool.phyNext → exec (.mgmtPhyPoll r1 r4 r5 r9 r10) s = .next s)
  -- MGMT_FRAME_RECEIVE: a frame for another address, too short or with a bad FCS is counted and dropped
  ∧ (∀ (s : State) (frame : Bytes), s.portsAwake = true → s.flag Obj.mgmt_enable = true → s.nn Obj.mgmt_link ≠ 0 → s.macDown = false →
    (fcsOk frame = false ∨ frame.length < 64
      ∨ ([s.octs Obj.mgmt_mac, List.replicate 6 0xFF, [0x33, 0x33, 0xFF] ++ (s.octs Obj.mgmt_mac).drop 3].contains
          (field (frame.take (frame.length - 4)) 0 6) = false)) →
    exec (.mgmtFrameReceive frame) s = .next (s.bump Obj.mgmt_rx_dropped))
  -- an OOL frame for the device's address, broadcast or its solicited-node address is admitted to its ring
  ∧ (∀ (s : State) (frame : Bytes), s.portsAwake = true → s.flag Obj.mgmt_enable = true → s.nn Obj.mgmt_link ≠ 0 → s.macDown = false →
    fcsOk frame = true → 64 ≤ frame.length →
    [s.octs Obj.mgmt_mac, List.replicate 6 0xFF, [0x33, 0x33, 0xFF] ++ (s.octs Obj.mgmt_mac).drop 3].contains
      (field (frame.take (frame.length - 4)) 0 6) = true →
    (s.bump Obj.mgmt_rx_frames).isOol (rxHeaders 0x8100 (frame.take (frame.length - 4))) (frame.take (frame.length - 4)) = true →
    exec (.mgmtFrameReceive frame) s = .next (
      let b := frame.take (frame.length - 4)
      let h := rxHeaders 0x8100 b
      (s.bump Obj.mgmt_rx_frames).placeOol { path := .mgmt, hdr := b.take h.payload, frame := b.drop h.payload |>.take h.udpLen, tagged := h.tagged }))
  -- any other frame goes to ring 2
  ∧ (∀ (s : State) (frame : Bytes), s.portsAwake = true → s.flag Obj.mgmt_enable = true → s.nn Obj.mgmt_link ≠ 0 → s.macDown = false →
    fcsOk frame = true → 64 ≤ frame.length →
    [s.octs Obj.mgmt_mac, List.replicate 6 0xFF, [0x33, 0x33, 0xFF] ++ (s.octs Obj.mgmt_mac).drop 3].contains
      (field (frame.take (frame.length - 4)) 0 6) = true →
    (s.bump Obj.mgmt_rx_frames).isOol (rxHeaders 0x8100 (frame.take (frame.length - 4))) (frame.take (frame.length - 4)) = false →
    exec (.mgmtFrameReceive frame) s = .next (
      let b := frame.take (frame.length - 4)
      let h := rxHeaders 0x8100 b
      let k := (s.bump Obj.mgmt_rx_frames).buffer b.length
      k.2.toRing 2 { pkt := { buffer := k.1, data := b, port := 0xFF, tagged := h.tagged, vid := h.vid }, reason := 0, seq := 0 }))

/-- Counters, snapshots and samples (R412-R420); serving, the cache and the client table's upkeep (R266, R274, R276, R280, R282).
Commands that complete here, on conditions on the state and operands alone: `snapRequest`, `snapPeriodic`, `counterWrap`,
`sampleClear`, `quietnAssert`, `quietnDeassert`, `serveQuiet`, `servingResume`, `ringFrameHandle`, `cacheWriteback`,
`clientTableSweep`, `sketchDecay`. -/
def Obligations.CounterAndTableCommands : Prop :=
  -- SNAP_REQUEST: every block is latched and the device writes snap_request back to false
  (∀ s : State, s.snapsRun = true → exec .snapRequest s = .next (s.snapshot.putB Obj.snap_request false))
  -- SNAP_PERIODIC at each multiple of snap_period ms of raw ticks, and at no other tick
  ∧ (∀ s : State, s.snapsRun = true → s.nn Obj.snap_period ≠ 0 → s.tb.raw % (s.nn Obj.snap_period * 1250000) = 0 →
    exec .snapPeriodic s = .next s.snapshot)
  ∧ (∀ s : State, s.tb.raw % (s.nn Obj.snap_period * 1250000) ≠ 0 → exec .snapPeriodic s = .next s)
  -- COUNTER_WRAP: the overflow bit; the first wrap since a cold reset is journalled
  ∧ (∀ (s : State) (b : Fin 16) (k : Fin 9), bit s.ctrs[b].newWraps k = true → bit s.ctrs[b].firstWraps k = true →
    Yields (.counterWrap b k) s fun t => t.ctrs[b].newWraps = setBit s.ctrs[b].newWraps k false ∧ t.journal = s.journal
      ∧ ObjBut s t [Obj.ctr_overflow b] ∧ t = { s with obj := t.obj, ctrs := t.ctrs })
  ∧ (∀ (s : State) (b : Fin 16) (k : Fin 9), bit s.ctrs[b].newWraps k = true → bit s.ctrs[b].firstWraps k = false →
    Yields (.counterWrap b k) s fun t => t.ctrs[b].newWraps = setBit s.ctrs[b].newWraps k false
      ∧ t.ctrs[b].firstWraps = setBit s.ctrs[b].firstWraps k true
      ∧ ObjBut s t [Obj.ctr_overflow b] ∧ t = { s with obj := t.obj, ctrs := t.ctrs, journal := t.journal })
  ∧ (∀ (s : State) (b : Fin 16) (k : Fin 9), bit s.ctrs[b].newWraps k = false → exec (.counterWrap b k) s = .next s)
  -- SAMPLE_CLEAR
  ∧ (∀ s : State, exec .sampleClear s = .next (s.clearSamples.putB Obj.sample_clear false))
  -- QUIETN_ASSERT and QUIETN_DEASSERT
  ∧ (∀ s : State, exec .quietnAssert s
    = .next ((({ s with serve := { s.serve with quietLow := true, quietHighAt := none } } : State).putB Obj.quiet_pin true).stopServing 0))
  ∧ (∀ s : State, s.serve.quietLow = true → exec .quietnDeassert s
    = .next (({ s with serve := { s.serve with quietLow := false, quietHighAt := some s.now } } : State).putB Obj.quiet_pin false))
  ∧ (∀ s : State, s.serve.quietLow = false → exec .quietnDeassert s = .next s)
  -- SERVE_QUIET
  ∧ (∀ (s : State) (v : Bool), s.serveAwake = true → exec (.serveQuiet v) s = .next (s.putB Obj.serve_quiet v).serveQuiet)
  -- SERVING_RESUME with QUIETn high, for 1 ms where it went low, and serve_quiet false; code 0x5005, ring 129's frames go out
  ∧ (∀ s : State, s.serve.stopped = true → s.serve.quietLow = false → (∀ h, s.serve.quietHighAt = some h → h + 1250000 ≤ s.now) →
    s.flag Obj.serve_quiet = false →
    exec .servingResume s = .next (({ s with serve := { s.serve with stopped := false } } : State).log 0 0x5005 []).release129)
  ∧ (∀ (s : State) (h : Nat), s.serve.quietHighAt = some h → s.now < h + 1250000 → exec .servingResume s = .next s)
  -- RING_FRAME_HANDLE: the oldest frame of the ring is taken; an address resolution or echo request is answered on ring 130
  ∧ (∀ (s : State) (r : Nat) (x : RingItem) (rest : List RingItem), s.firmwareUp = true → (r = 2 ∨ r = 4 ∨ r = 5 ∨ r = 6 ∨ (8 ≤ r ∧ r ≤ 127)) →
    (s.ring r).items = x :: rest →
    let u := (s.setRing r { s.ring r with items := rest }).count 8 0x08
    (((r ≠ 2 ∧ r ≠ 5) ∨ u.resolve x.pkt = none) → exec (.ringFrameHandle r) s = .next u)
    ∧ (∀ b, (r = 2 ∨ r = 5) → u.resolve x.pkt = some b → exec (.ringFrameHandle r) s = .next (u.postAnswer x.pkt.port [b])))
  ∧ (∀ (s : State) (r : Nat), (s.ring r).items = [] → exec (.ringFrameHandle r) s = .next s)
  -- CACHE_WRITEBACK of a dirty entry
  ∧ (∀ (s : State) (i : Nat) (l : CacheLine), s.serve.ct.cache.find? (fun l => l.index == i && l.dirty.isSome) = some l →
    exec (.cacheWriteback i) s = .next (s.writeBack l))
  -- CLIENT_TABLE_SWEEP every 60 s reclaims old entries that no thread holds
  ∧ (∀ s : State, s.serveAwake = true → s.serve.ct.ready = true → s.serve.ct.sweepNext ≤ s.now →
    exec .clientTableSweep s = .next (
      let u := s.setCt { s.serve.ct with sweepNext := s.now + ticksS 60, badSlots := [] }
      u.reclaim ((u.ctAll.filter fun p => !u.ctHeld p.1 &&
        (if fieldN p.2 0 1 = 1 then u.nn Obj.reclaim_age < u.ctAge p.2
         else u.grantPast (fieldN p.2 52 4) && u.grantPast (fieldN p.2 56 4) && u.grantPast (fieldN p.2 60 4) && 60 < u.ctAge p.2)).map
          fun p => p.1)))
  -- SKETCH_DECAY halves every counter
  ∧ (∀ s : State, s.serveAwake = true → s.serve.ct.sketchNext ≤ s.now →
    exec .sketchDecay s = .next (s.setCt { s.serve.ct with
      sketch := (s.serve.ct.sketch.map fun p => (p.1, p.2 / 2)).filter fun p => p.2 ≠ 0,
      sketchNext := s.now + ticksMs (s.nn Obj.sketch_period) }))
  ∧ (∀ s : State, s.now < s.serve.ct.sketchNext → exec .sketchDecay s = .next s)

/-- Threads of the serve engines (R263-R265, R270, R274).
Commands that complete here, on conditions on the state and operands alone: `threadStart`, `instructionLimit`,
`clientLookupComplete`, `aesJobComplete`. -/
def Obligations.ThreadCommands : Prop :=
  -- THREAD_START: a free thread takes the next frame of its engine's queues
  (∀ (s : State) (e : Fin 8) (t : Fin 16) (c : Fin 3) (g : Engine) (p : Pkt) (rest : List Work), s.engineRuns e = true →
    s.blockBusy (0x0200 + e / 2) = false → s.serve.prog.activateAt = none → (s.thread e t).busy = false →
    s.nextClass s.serve.engines[e] = (some c, g) → g.queues[c] = .frame p :: rest →
    (((s.setEngine e { g with queues := g.queues.set c rest }).bump (Obj.frames_taken e)).count 10 0x02).isStale p = false →
    exec (.threadStart e t) s
      = .next ((((s.setEngine e { g with queues := g.queues.set c rest }).bump (Obj.frames_taken e)).count 10 0x02).startThread e t (.frame p)))
  -- a timer event is never stale
  ∧ (∀ (s : State) (e : Fin 8) (t : Fin 16) (c : Fin 3) (g : Engine) (w : Work) (rest : List Work), s.engineRuns e = true →
    s.blockBusy (0x0200 + e / 2) = false → s.serve.prog.activateAt = none → (s.thread e t).busy = false →
    s.nextClass s.serve.engines[e] = (some c, g) → g.queues[c] = w :: rest → w.isFrame = false →
    exec (.threadStart e t) s
      = .next ((((s.setEngine e { g with queues := g.queues.set c rest }).bump (Obj.frames_taken e)).count 10 0x02).startThread e t w))
  -- a stale frame is discarded and the thread stays free
  ∧ (∀ (s : State) (e : Fin 8) (t : Fin 16) (c : Fin 3) (g : Engine) (p : Pkt) (rest : List Work), s.engineRuns e = true →
    s.blockBusy (0x0200 + e / 2) = false → s.serve.prog.activateAt = none → (s.thread e t).busy = false →
    s.nextClass s.serve.engines[e] = (some c, g) → g.queues[c] = .frame p :: rest →
    (((s.setEngine e { g with queues := g.queues.set c rest }).bump (Obj.frames_taken e)).count 10 0x02).isStale p = true →
    exec (.threadStart e t) s
      = .next ((((s.setEngine e { g with queues := g.queues.set c rest }).bump (Obj.frames_taken e)).count 10 0x02).bump (Obj.drop_stale e)))
  -- a busy thread, or one of an engine that does not run, takes nothing
  ∧ (∀ (s : State) (e : Fin 8) (t : Fin 16), (s.thread e t).busy = true → exec (.threadStart e t) s = .next s)
  -- INSTRUCTION_LIMIT: the thread that reached it ends; the first per second is journalled
  ∧ (∀ (s : State) (e : Fin 8) (t : Fin 16), (s.thread e t).busy = true → s.nn Obj.instr_limit ≤ (s.thread e t).issued →
    ((s.bump (Obj.engine_faults e)).countE e 0x0B).serve.engines[e].limitSec
      = some ((s.bump (Obj.engine_faults e)).countE e 0x0B).second →
    exec (.instructionLimit e t) s = .next (((s.bump (Obj.engine_faults e)).countE e 0x0B).endThread e t 4 false))
  ∧ (∀ (s : State) (e : Fin 8) (t : Fin 16), (s.thread e t).busy = true → s.nn Obj.instr_limit ≤ (s.thread e t).issued →
    ((s.bump (Obj.engine_faults e)).countE e 0x0B).serve.engines[e].limitSec
      ≠ some ((s.bump (Obj.engine_faults e)).countE e 0x0B).second →
    exec (.instructionLimit e t) s = .next (
      let u := (s.bump (Obj.engine_faults e)).countE e 0x0B
      ((u.setEngine e { u.serve.engines[e] with limitSec := some u.second }).log (engineSource e) 0x5001
        (beNat 2 (s.thread e t).pc ++ beNat 1 (s.thread e t).entry)).endThread e t 4 false))
  ∧ (∀ (s : State) (e : Fin 8) (t : Fin 16), (s.thread e t).issued < s.nn Obj.instr_limit → exec (.instructionLimit e t) s = .next s)
  -- CLIENT_LOOKUP_COMPLETE: a lookup past its deadline is answered late with status 3, else with what the table gives
  ∧ (∀ (s : State) (e : Fin 8) (t : Fin 16) (create : Bool) (dest kind inst : Nat) (take : Bool) (since : Nat), (s.thread e t).busy = true →
    (s.thread e t).wait = .lookup create dest kind inst take since → since + ticksUs (s.nn Obj.lookup_deadline) < s.now →
    exec (.clientLookupComplete e t) s = .next (((s.bump Obj.ct_late).countE e 0x0D).lookupAnswer e t dest 3 none))
  ∧ (∀ (s u : State) (e : Fin 8) (t : Fin 16) (create : Bool) (dest kind inst : Nat) (take : Bool) (since : Nat), (s.thread e t).busy = true →
    (s.thread e t).wait = .lookup create dest kind inst take since → s.now ≤ since + ticksUs (s.nn Obj.lookup_deadline) →
    s.runLookup e t create dest kind inst take = some u →
    exec (.clientLookupComplete e t) s = .next u)
  -- while another thread holds the entry the lookup waits
  ∧ (∀ (s : State) (e : Fin 8) (t : Fin 16) (create : Bool) (dest kind inst : Nat) (take : Bool) (since : Nat),
    (s.thread e t).wait = .lookup create dest kind inst take since → s.now ≤ since + ticksUs (s.nn Obj.lookup_deadline) →
    s.runLookup e t create dest kind inst take = none → exec (.clientLookupComplete e t) s = .next s)
  -- of a built-in program: it runs on, without the client's state where the lookup of a frame came late (R281)
  ∧ (∀ (s : State) (e : Fin 8) (t : Fin 16) (since : Nat), (s.thread e t).busy = true → (s.thread e t).wait = .builtin since →
    (s.now ≤ since + ticksUs (s.nn Obj.lookup_deadline) →
      (∀ i, (s.builtinKey (s.thread e t).entry (s.thread e t).work).bind s.ctFind = some i → s.heldElsewhere e t i = false) →
      exec (.clientLookupComplete e t) s = .next ((s.setThread e t ((s.thread e t).ready s.now)).runBuiltin
        { e := e, t := t, serial := (s.thread e t).serial } (s.thread e t).entry false))
    ∧ (since + ticksUs (s.nn Obj.lookup_deadline) < s.now → (s.thread e t).work.isFrame = true →
      exec (.clientLookupComplete e t) s = .next ((((s.setThread e t ((s.thread e t).ready s.now)).bump Obj.ct_late).countE e 0x0D).runBuiltin
        { e := e, t := t, serial := (s.thread e t).serial } (s.thread e t).entry true)))
  -- AES_JOB_COMPLETE of a thread that waits for the job: the output is in its window and the wait ends
  ∧ (∀ (s : State) (e : Fin 8) (t : Fin 16) (tag dest : Nat) (j : AesJob),
    (s.serve.jobs.take s.aesRunning).find? (fun j => j.engine = e && j.thread = t && j.tag = tag) = some j → j.status = 0 →
    (s.thread e t).busy = true → (s.thread e t).serial = j.serial → (s.thread e t).wait = .aes dest tag →
    Yields (.aesJobComplete e t tag) s fun u => u.serve.jobs = s.serve.jobs.erase j
      ∧ (u.thread e t).win = patch (s.thread e t).win j.out j.result
      ∧ u.tb = s.tb ∧ u.ports = s.ports ∧ u.flash = s.flash)

/-- Consolidation, gating and the timer wheel (R277, R283); serve programs (R286, R309).
Commands that complete here, on conditions on the state and operands alone: `consolidationEvaluate`, `pairGate`,
`pairWakeComplete`, `timerWheelSlot`, `programVerify`, `programVerifyComplete`, `programActivate`, `programCounterClear`. -/
def Obligations.PairAndProgramCommands : Prop :=
  -- CONSOLIDATION_EVALUATE keeps the least number of pairs whose slots at consolidate_target carry the measured demand, all four
  -- without consolidation, and wakes those below it
  (∀ s : State, s.serveAwake = true → 10 ≤ s.sys.step → s.serve.demandNext ≤ s.now →
    exec .consolidationEvaluate s = .next (
      let demand := s.serve.engines.toList.foldl (fun a g => a + g.demand) 0
      let k := if s.flag Obj.consolidate_enable then
          (([1, 2, 3].find? fun k => demand * 100 < k * 2 * engineSlotsPerMs * s.nn Obj.consolidate_target).getD 4) else 4
      let u : State := { s with serve := { s.serve with keepPairs := k, demandNext := s.now + ticksMs 1,
                                                        engines := s.serve.engines.map fun g => { g with demand := 0 } } }
      let v := (List.finRange 4).foldl (fun (w : State) (p : Fin 4) => if p.val < k then w.wakePair p else w) u
      if v.mode.cur = .steep then v else v.moveBuckets))
  ∧ (∀ s : State, s.now < s.serve.demandNext → exec .consolidationEvaluate s = .next s)
  -- PAIR_GATE of an idle pair above the kept ones, code 0x5003
  ∧ (∀ (s : State) (p : Fin 4), s.serveAwake = true → s.blockBusy (0x0200 + p) = false → s.flag Obj.consolidate_enable = true →
    s.mode.cur ≠ .steep → s.serve.pairs[p].state = 2 → s.serve.keepPairs ≤ p →
    (∀ b < 256, s.nn (Obj.bucket_map b) / 2 ≠ p.val) →
    (∀ e : Fin 8, e.val / 2 = p.val → (∀ x ∈ s.serve.engines[e].threads.toList, x.busy = false)
      ∧ ∀ q ∈ s.serve.engines[e].queues.toList, q = []) →
    s.serve.pairs[p].idleAt + ticksMs (s.nn Obj.gate_delay) ≤ s.now →
    exec (.pairGate p) s = .next (({ s with serve := { s.serve with pairs := s.serve.pairs.set p { s.serve.pairs[p] with state := 0 } } } : State).log
      (0x0600 + 2 * p.val) 0x5003 [0]))
  ∧ (∀ (s : State) (p : Fin 4), s.mode.cur = .steep → exec (.pairGate p) s = .next s)
  -- PAIR_WAKE_COMPLETE: the pair serves, both engines count the wake, and outside STEEP buckets move to it
  ∧ (∀ (s : State) (p : Fin 4), s.serveAwake = true → s.blockBusy (0x0200 + p) = false → s.serve.pairs[p].state = 1 →
    exec (.pairWakeComplete p) s = .next (
      let u := (((({ s with serve := { s.serve with
        pairs := s.serve.pairs.set p { s.serve.pairs[p] with state := 2, idleAt := s.now } } } : State).bump (Obj.wake_count (2 * p.val))).bump
          (Obj.wake_count (2 * p.val + 1))).log (0x0600 + 2 * p.val) 0x5003 [1])
      if u.mode.cur = .steep then u else u.moveBuckets))
  ∧ (∀ (s : State) (p : Fin 4), s.serve.pairs[p].state ≠ 1 → exec (.pairWakeComplete p) s = .next s)
  -- TIMER_WHEEL_SLOT: the events of the present slot enter the queues once; while serving is stopped they are skipped
  ∧ (∀ s : State, s.serveAwake = true → s.serve.ct.ready = true → s.sys.warmAt = none → s.tb.running = true →
    s.serve.ct.wheel ≠ (s.time * 1024 / unitsPerS).toNat + 1 → s.serve.stopped = false →
    exec .timerWheelSlot s = .next (
      let u := (s.setCt { s.serve.ct with wheel := (s.time * 1024 / unitsPerS).toNat + 1 }).qualifyPorts
      (u.slotEvents (s.time * 1024 / unitsPerS).toNat).foldl (fun (v : State) w => (v.count 10 0x0A).enqueue w 0) u))
  ∧ (∀ s : State, s.serveAwake = true → s.serve.ct.ready = true → s.sys.warmAt = none → s.tb.running = true →
    s.serve.ct.wheel ≠ (s.time * 1024 / unitsPerS).toNat + 1 → s.serve.stopped = true →
    exec .timerWheelSlot s = .next (s.setCt { s.serve.ct with wheel := (s.time * 1024 / unitsPerS).toNat + 1 }).qualifyPorts)
  -- PROGRAM_VERIFY: the image is taken and its verification begins
  ∧ (∀ (s : State) (b : Bytes), s.serveAwake = true → exec (.programVerify b) s = .next (s.startVerify b))
  -- PROGRAM_VERIFY_COMPLETE: a good image is verified with its version
  ∧ (∀ s : State, Wf s → s.serveAwake = true → s.serve.prog.checking = true → s.imageCause s.serve.prog.staging = 0 →
    Yields .programVerifyComplete s fun t => t.n Obj.program_status = 2 ∧ t.n Obj.program_reject_cause = 0
      ∧ t.n Obj.program_version_staged = fieldN s.serve.prog.staging 16 4 ∧ t.serve.prog.verified = some s.serve.prog.staging
      ∧ t.serve.prog.checking = false ∧ t.journal = s.journal)
  -- a rejected one has its cause and code 0x5101, and nothing is verified
  ∧ (∀ s : State, Wf s → s.serveAwake = true → s.serve.prog.checking = true → s.imageCause s.serve.prog.staging ≠ 0 →
    Yields .programVerifyComplete s fun t => t.n Obj.program_status = 3
      ∧ t.n Obj.program_reject_cause = s.imageCause s.serve.prog.staging ∧ t.serve.prog.verified = none
      ∧ t.serve.prog.regionB = s.serve.prog.regionB)
  -- PROGRAM_ACTIVATE once every thread has ended: the image whose activation was committed
  ∧ (∀ (s : State) (at' : Nat) (b : Bytes), Wf s → s.serve.prog.activateAt = some at' → s.serve.prog.activating = some b → s.serveAwake = true →
    (∀ g ∈ s.serve.engines.toList, ∀ x ∈ g.threads.toList, x.busy = false) →
    Yields .programActivate s fun t => t.serve.prog.activateAt = none ∧ t.serve.prog.activating = none
      ∧ t.n Obj.program_status = 4 ∧ t.flag Obj.program_activate = false)
  -- while a thread runs nothing changes
  ∧ (∀ (s : State) (e : Fin 8) (k : Fin 16), (s.thread e k).busy = true → exec .programActivate s = .next s)
  -- PROGRAM_COUNTER_CLEAR
  ∧ (∀ s : State, s.serveAwake = true → exec .programCounterClear s = .next s.clearCounters)
/-- The ALU and compare instructions (R297, R298): operand B is g[srcB], or the immediate under flag I (of an ALU instruction
all 32 bits, sign-extended under S; of a compare imm[31:16]); shifts use its bits [5:0]; results wrap modulo 2^64; g0 reads
as 0 and discards writes.
Commands that complete here, on conditions on the state and operands alone: `isaNop`, `isaAdd`, `isaSub`, `isaAnd`, `isaOr`,
`isaXor`, `isaShl`, `isaShr`, `isaSar`, `isaMul`, `isaMulhu`, `isaAddc`, `isaMinu`, `isaMaxu`, `isaSltu`, `isaOrhi`,
`isaBeq`, `isaBne`, `isaBltu`, `isaBgeu`, `isaBlt`, `isaBge`. -/
def Obligations.IsaArithmeticAndCompare : Prop :=
  ∀ (s : State) (e : Fin 8) (t : Fin 16) (w : Word64),
    let x := issued s e t
    let aw : Word64 := if srcAOf w = 0 then 0 else x.regs[srcAOf w]
    let a := aw.toNat
    let imm : Int := if flagOf w 33 && immOf w ≥ 2 ^ 31 then (immOf w : Int) - 2 ^ 32 else immOf w
    let bw : Word64 := if flagOf w 32 then BitVec.ofInt 64 imm else if srcBOf w = 0 then 0 else x.regs[srcBOf w]
    let b := bw.toNat
    let cb : Word64 := if flagOf w 32 then BitVec.ofNat 64 (immOf w / 65536) else if srcBOf w = 0 then 0 else x.regs[srcBOf w]
    let go : Bool → Thread := fun h => { x with pc := if h then immOf w % 16384 else x.pc + 1 }
    let sum := a % 65536 + b % 65536
    let gives : Nat → Thread := fun v =>
      { x with pc := x.pc + 1, regs := if destOf w = 0 then x.regs else x.regs.set (destOf w) (BitVec.ofNat 64 v) }
    (IsaNext s e t 0x00 w → Issues (.isaNop e t) s e t { x with pc := x.pc + 1 })
    ∧ (IsaNext s e t 0x01 w → Issues (.isaAdd e t) s e t (gives (a + b)))
    ∧ (IsaNext s e t 0x02 w → Issues (.isaSub e t) s e t (gives (a + 2 ^ 64 - b)))
    ∧ (IsaNext s e t 0x03 w → Issues (.isaAnd e t) s e t (gives (a &&& b)))
    ∧ (IsaNext s e t 0x04 w → Issues (.isaOr e t) s e t (gives (a ||| b)))
    ∧ (IsaNext s e t 0x05 w → Issues (.isaXor e t) s e t (gives (a ^^^ b)))
    ∧ (IsaNext s e t 0x06 w → Issues (.isaShl e t) s e t (gives (a * 2 ^ (b % 64))))
    ∧ (IsaNext s e t 0x07 w → Issues (.isaShr e t) s e t (gives (a / 2 ^ (b % 64))))
    ∧ (IsaNext s e t 0x08 w → Issues (.isaSar e t) s e t
        (gives (if a < 2 ^ 63 then a / 2 ^ (b % 64) else 2 ^ 64 - 1 - (2 ^ 64 - 1 - a) / 2 ^ (b % 64))))
    ∧ (IsaNext s e t 0x09 w → Issues (.isaMul e t) s e t (gives (a * b)))
    ∧ (IsaNext s e t 0x0A w → Issues (.isaMulhu e t) s e t (gives (a * b / 2 ^ 64)))
    ∧ (IsaNext s e t 0x0B w → Issues (.isaAddc e t) s e t (gives (sum % 65536 + sum / 65536)))
    ∧ (IsaNext s e t 0x0C w → Issues (.isaMinu e t) s e t (gives (min a b)))
    ∧ (IsaNext s e t 0x0D w → Issues (.isaMaxu e t) s e t (gives (max a b)))
    ∧ (IsaNext s e t 0x0E w → Issues (.isaSltu e t) s e t (gives (if a < b then 1 else 0)))
    ∧ (IsaNext s e t 0x0F w → Issues (.isaOrhi e t) s e t (gives (a ||| immOf w * 2 ^ 32)))
    ∧ (IsaNext s e t 0x10 w → Issues (.isaBeq e t) s e t (go (aw = cb)))
    ∧ (IsaNext s e t 0x11 w → Issues (.isaBne e t) s e t (go (aw ≠ cb)))
    ∧ (IsaNext s e t 0x12 w → Issues (.isaBltu e t) s e t (go (aw.toNat < cb.toNat)))
    ∧ (IsaNext s e t 0x13 w → Issues (.isaBgeu e t) s e t (go (cb.toNat ≤ aw.toNat)))
    ∧ (IsaNext s e t 0x14 w → Issues (.isaBlt e t) s e t (go (aw.toInt < cb.toInt)))
    ∧ (IsaNext s e t 0x15 w → Issues (.isaBge e t) s e t (go (cb.toInt ≤ aw.toInt)))

/-- Control transfer (R298-R300): branch, jump and call targets are absolute; a call with 8 addresses on the stack and a ret
with an empty stack are fault 3; an address holding no loaded instruction is fault 4, that past the last instruction among
them; an xent after an emit is fault 5. A thread that may not issue changes nothing, nor does a command of another opcode
than that at the thread's address (R264).
Commands that complete here, on conditions on the state and operands alone: `isaBset`, `isaBclr`, `isaJmp`, `isaCall`,
`isaRet`, `isaXent`. -/
def Obligations.IsaControl : Prop :=
  (∀ (s : State) (e : Fin 8) (t : Fin 16) (w : Word64),
      let x := issued s e t
      let a : Word64 := if srcAOf w = 0 then 0 else x.regs[srcAOf w]
      let target := immOf w % 16384
      let gives : Bool → Thread := fun h => { x with pc := if h then target else x.pc + 1 }
      (IsaNext s e t 0x16 w → Issues (.isaBset e t) s e t (gives (a.toNat.testBit (immOf w / 65536 % 64))))
      ∧ (IsaNext s e t 0x17 w → Issues (.isaBclr e t) s e t (gives (!a.toNat.testBit (immOf w / 65536 % 64))))
      ∧ (IsaNext s e t 0x18 w → Issues (.isaJmp e t) s e t { x with pc := target })
      ∧ (IsaNext s e t 0x19 w → x.stack.length < 8 → Issues (.isaCall e t) s e t { x with pc := target, stack := (x.pc + 1) :: x.stack })
      ∧ (IsaNext s e t 0x19 w → 8 ≤ x.stack.length → Faults (.isaCall e t) s e t 3)
      ∧ (∀ r rest, IsaNext s e t 0x1A w → x.stack = r :: rest → Issues (.isaRet e t) s e t { x with pc := r, stack := rest })
      ∧ (IsaNext s e t 0x1A w → x.stack = [] → Faults (.isaRet e t) s e t 3)
      -- xent: registers, scratch window and stack cleared, the held entries released, the built-in program of imm[2:0] entered
      ∧ (IsaNext s e t 0x1B w → x.emits = 0 → exec (.isaXent e t) s = .next (((counted s e t).setThread e t
          { x with regs := Vector.replicate 32 0, stack := [], held := none, also := [], entry := immOf w % 8, pc := 0, work := .frame x.packet,
                   win := patch x.win 0x300 (List.replicate 256 0) }).beginBuiltin { e := e, t := t, serial := x.serial } (immOf w % 8)))
      ∧ (IsaNext s e t 0x1B w → x.emits ≠ 0 → Faults (.isaXent e t) s e t 5)
      -- a branch goes to its target or on
      ∧ (∀ p ∈ isaOps, 0x10 ≤ p.1 → p.1 ≤ 0x18 → IsaNext s e t p.1 w → ∀ v, exec (p.2 e t) s = .next v →
        (v.thread e t).pc = target ∨ (v.thread e t).pc = x.pc + 1)
      -- fault 4
      ∧ (∀ p ∈ isaOps, s.issues e t = true → s.fetch (s.thread e t).pc = none → exec (p.2 e t) s = .next (s.progFault e t 4))
      ∧ (∀ p ∈ isaOps, s.issues e t = true → 10240 + s.serve.prog.regionB.length ≤ (s.thread e t).pc →
        exec (p.2 e t) s = .next (s.progFault e t 4)))
  -- which instruction issues
  ∧ (∀ (s : State) (e : Fin 8) (t : Fin 16), ∀ p ∈ isaOps,
      (s.issues e t = false → exec (p.2 e t) s = .next s)
      ∧ (∀ w op, IsaNext s e t op w → op ≠ p.1 → exec (p.2 e t) s = .next s))

/-- Window instructions (R293, R298, R301): an access within one region loads, stores or copies big-endian bytes; others
are fault 1, a write to a read-only region fault 2.
Commands that complete here, on conditions on the state and operands alone: `isaCpy`, `isaCsum`, `isaTurn`, `isaLd8`,
`isaSt8`, `isaLd16`, `isaLd32`, `isaLd64`, `isaSt16`, `isaSt32`, `isaSt64`. -/
def Obligations.IsaWindows : Prop :=
  ∀ (s : State) (e : Fin 8) (t : Fin 16) (w : Word64),
    let x := issued s e t
    let a : Word64 := if srcAOf w = 0 then 0 else x.regs[srcAOf w]
    let b : Word64 := if srcBOf w = 0 then 0 else x.regs[srcBOf w]
    let at' := (a.toNat + immOf w % 1024) % 2 ^ 64
    let put : Nat → Thread := fun v =>
      { x with pc := x.pc + 1, regs := if destOf w = 0 then x.regs else x.regs.set (destOf w) (BitVec.ofNat 64 v) }
    (∀ p ∈ [(0x20, 1, Instr.isaLd8), (0x21, 2, .isaLd16), (0x22, 4, .isaLd32), (0x23, 8, .isaLd64)], IsaNext s e t p.1 w →
      (accessFault at' p.2.1 false = none → Issues (p.2.2 e t) s e t (put (fieldN x.win at' p.2.1)))
      ∧ ∀ c, accessFault at' p.2.1 false = some c → Faults (p.2.2 e t) s e t c)
    ∧ (∀ p ∈ [(0x24, 1, Instr.isaSt8), (0x25, 2, .isaSt16), (0x26, 4, .isaSt32), (0x27, 8, .isaSt64)], IsaNext s e t p.1 w →
      (accessFault at' p.2.1 true = none →
        Issues (p.2.2 e t) s e t { x with pc := x.pc + 1, win := patch x.win at' (beNat p.2.1 b.toNat) })
      ∧ ∀ c, accessFault at' p.2.1 true = some c → Faults (p.2.2 e t) s e t c)
    -- CPY from W[B + imm[21:12]] to W[A + imm[31:22]], as if through a temporary
    ∧ (∀ src dst, src = (b.toNat + immOf w / 4096 % 1024) % 2 ^ 64 → dst = (a.toNat + immOf w / 4194304) % 2 ^ 64 →
      IsaNext s e t 0x28 w →
      (accessFault src (immOf w % 1024) false = none → accessFault dst (immOf w % 1024) true = none →
        Issues (.isaCpy e t) s e t { x with pc := x.pc + 1, win := patch x.win dst (field x.win src (immOf w % 1024)) })
      ∧ (∀ c, accessFault src (immOf w % 1024) false = some c → Faults (.isaCpy e t) s e t c)
      ∧ ∀ c, accessFault src (immOf w % 1024) false = none → accessFault dst (immOf w % 1024) true = some c →
          Faults (.isaCpy e t) s e t c)
    ∧ (IsaNext s e t 0x29 w → accessFault at' (immOf w / 65536 % 1024) false = none →
      Issues (.isaCsum e t) s e t (put (fold16 (sum16 (field x.win at' (immOf w / 65536 % 1024))))))
    ∧ (∀ c, IsaNext s e t 0x29 w → accessFault at' (immOf w / 65536 % 1024) false = some c → Faults (.isaCsum e t) s e t c)
    ∧ (∀ win, IsaNext s e t 0x2A w → turnedWindows x.win (immOf w) = some win → Issues (.isaTurn e t) s e t { x with pc := x.pc + 1, win := win })
    ∧ (IsaNext s e t 0x2A w → turnedWindows x.win (immOf w) = none → Faults (.isaTurn e t) s e t 1)
    -- TURN of the MAC addresses alone exchanges bytes 0-5 and 6-11; a turn of an absent header is fault 1
    ∧ (IsaNext s e t 0x2A w → immOf w = 1 → Issues (.isaTurn e t) s e t { x with pc := x.pc + 1, win := swapFields x.win 0 6 6 })
    ∧ (IsaNext s e t 0x2A w → immOf w = 2 → fieldN x.win 0x268 2 = 0xFFFF → Faults (.isaTurn e t) s e t 1)
    -- the regions of R293
    ∧ (∀ a n write, 0x400 < a + n → accessFault a n write = some 1)
    ∧ (∀ a n write, 0 < n → a < 0x200 → 0x200 < a + n → accessFault a n write = some 1)
    ∧ (∀ a n, 0 < n → 0x240 ≤ a → a + n ≤ 0x280 → accessFault a n true = some 2 ∧ accessFault a n false = none)
    ∧ (∀ a n write, a + n ≤ 0x200 → accessFault a n write = none)
    ∧ (∀ a n write, 0 < n → 0x300 ≤ a → a + n ≤ 0x400 → accessFault a n write = none)

/-- Client and crypto instructions (R302, R303).
Commands that complete here, on conditions on the state and operands alone: `isaCwrite`, `isaSketch`, `isaAesq`, `isaAesw`,
`isaRand`, `isaClook`, `isaCcreate`. -/
def Obligations.IsaClientAndCrypto : Prop :=
  ∀ (s : State) (e : Fin 8) (t : Fin 16) (w : Word64),
    let x := issued s e t
    let a : Word64 := if srcAOf w = 0 then 0 else x.regs[srcAOf w]
    let put : Thread → Nat → Thread := fun y v =>
      { y with pc := x.pc + 1, regs := if destOf w = 0 then y.regs else y.regs.set (destOf w) (BitVec.ofNat 64 v) }
    let v := (counted s e t).countE e 0x0C
    let kind := immOf w % 256
    let inst := immOf w / 256 % 256
    let y : Thread := { x with worked := true, pc := x.pc + 1 }
    -- CLOOK, CCREATE: what the cache holds is answered at once, else the thread waits for CLIENT_LOOKUP_COMPLETE
    (∀ p ∈ [(0x30, false, Instr.isaClook), (0x31, true, .isaCcreate)], IsaNext s e t p.1 w →
      (∀ u, v.lookupHits (x.packet.clientKey kind inst) = true →
        (v.setThread e t y).runLookup e t p.2.1 (destOf w).val kind inst (flagOf w 34) = some u → exec (p.2.2 e t) s = .next u)
      ∧ (v.lookupHits (x.packet.clientKey kind inst) = false ∨ (v.setThread e t y).runLookup e t p.2.1 (destOf w).val kind inst (flagOf w 34) = none →
        Yields (p.2.2 e t) s fun u => (u.thread e t).wait = .lookup p.2.1 (destOf w).val kind inst (flagOf w 34) s.now
          ∧ (u.thread e t).pc = x.pc + 1 ∧ (u.thread e t).regs = x.regs ∧ u.obj = s.obj))
    -- CWRITE of a held entry; with none held fault 6
    ∧ (∀ i, IsaNext s e t 0x32 w → x.held = some i → x.heldLost = false → exec (.isaCwrite e t) s
        = .next ((((counted s e t).ctWrite i (field x.win 0x200 64)).ctCount).setThread e t { x with pc := x.pc + 1 }))
    ∧ (∀ i, IsaNext s e t 0x32 w → x.held = some i → x.heldLost = true → Issues (.isaCwrite e t) s e t { x with pc := x.pc + 1 })
    ∧ (IsaNext s e t 0x32 w → x.held = none → Faults (.isaCwrite e t) s e t 6)
    -- SKETCH: the estimate after counting
    ∧ (∀ p, IsaNext s e t 0x38 w → x.work = .frame p → exec (.isaSketch e t) s = .next (
        let r := (counted s e t).sketchCount (beNat 1 p.sketchKey.1 ++ p.sketchKey.2)
        r.2.setThread e t (put { x with worked := true } r.1)))
    ∧ (IsaNext s e t 0x38 w → x.work.isFrame = false → Issues (.isaSketch e t) s e t { x with pc := x.pc + 1 })
    -- AESQ: a job of the lowest free tag
    ∧ (∀ tag d key result status blocks, IsaNext s e t 0x40 w → accessFault a.toNat 40 false = none → x.freeTag = some tag →
        aesDesc x.win a.toNat = some d → (0 < d.outLen → accessFault d.out d.outLen true ≠ some 2) →
        (counted s e t).aesKey x d = some key → aesRun d key x.win = (result, status, blocks) →
        Yields (.isaAesq e t) s fun u =>
          u.serve.jobs = s.serve.jobs ++ [{ engine := e, thread := t, serial := x.serial, tag := tag, blocks := blocks, out := d.out,
                                            result := result, status := status }]
          ∧ u.thread e t = put { x with worked := true, jobs := x.jobs ++ [tag] } tag ∧ u.obj = s.obj)
    ∧ (∀ c, IsaNext s e t 0x40 w → accessFault a.toNat 40 false = some c → Faults (.isaAesq e t) s e t c)
    ∧ (IsaNext s e t 0x40 w → accessFault a.toNat 40 false = none → x.freeTag = none → Faults (.isaAesq e t) s e t 7)
    ∧ (IsaNext s e t 0x40 w → accessFault a.toNat 40 false = none → x.freeTag ≠ none → aesDesc x.win a.toNat = none →
        Faults (.isaAesq e t) s e t 8)
    ∧ (∀ tag d, IsaNext s e t 0x40 w → accessFault a.toNat 40 false = none → x.freeTag = some tag → aesDesc x.win a.toNat = some d →
        (0 < d.outLen → accessFault d.out d.outLen true = some 2 → Faults (.isaAesq e t) s e t 2)
        ∧ ((0 < d.outLen → accessFault d.out d.outLen true ≠ some 2) → (counted s e t).aesKey x d = none → Faults (.isaAesq e t) s e t 9))
    -- AESW: a completed job's status at once; an outstanding one is waited for; an unknown tag is fault 7
    ∧ (∀ p, IsaNext s e t 0x41 w → x.doneJobs.find? (fun p => p.1 == a.toNat) = some p →
        Issues (.isaAesw e t) s e t (put { x with doneJobs := x.doneJobs.erase p } p.2))
    ∧ (IsaNext s e t 0x41 w → x.doneJobs.find? (fun p => p.1 == a.toNat) = none → a.toNat ∈ x.jobs →
        Issues (.isaAesw e t) s e t { (x.waits (.aes (destOf w).val a.toNat) s.now) with pc := x.pc + 1 })
    ∧ (IsaNext s e t 0x41 w → x.doneJobs.find? (fun p => p.1 == a.toNat) = none → a.toNat ∉ x.jobs → Faults (.isaAesw e t) s e t 7)
    -- RAND: 64 bits drawn from the source; while it has none ready (a free value) the thread is not ready, and asks again
    ∧ (∀ ready u, IsaNext s e t 0x42 w → (counted s e t).freeNat = (ready, u) →
        (ready % 2 = 0 → exec (.isaRand e t) s = .next (
          let r := u.random 8
          r.2.setThread e t (put x (fieldN r.1 0 8))))
        ∧ (ready % 2 = 1 → exec (.isaRand e t) s = .next (u.setThread e t { (x.waits (.rand (destOf w).val) s.now) with pc := x.pc + 1 })))
    ∧ (∀ d ready u, (s.thread e t).busy = true → s.engineRuns e = true → (s.thread e t).wait = .rand d → s.freeNat = (ready, u) →
        (ready % 2 = 0 → exec (.isaRand e t) s = .next (
          let r := u.random 8
          r.2.setThread e t (((s.thread e t).ready s.now).setReg (Fin.ofNat 32 d) (BitVec.ofNat 64 (fieldN r.1 0 8)))))
        ∧ (ready % 2 = 1 → exec (.isaRand e t) s = .next u))

/-- Emit, drop, punt and cinc (R304-R306), and a program fault (R307): its thread stops at the faulting instruction and the held
entries are released; other threads run on.
Commands that complete here, on conditions on the state and operands alone: `isaEmit`, `isaDrop`, `isaPunt`, `isaCinc`. -/
def Obligations.IsaEndings : Prop :=
  (∀ (s : State) (e : Fin 8) (t : Fin 16) (w : Word64),
      let x := issued s e t
      let a : Word64 := if srcAOf w = 0 then 0 else x.regs[srcAOf w]
      let b : Word64 := if srcBOf w = 0 then 0 else x.regs[srcBOf w]
      let nb := (if destOf w = 0 then 0 else x.regs[destOf w]).toNat
      let cw := a.toNat
      let offset := (b.toNat + immOf w % 1024) % 2 ^ 64
      let kind := immOf w / 65536 % 16
      let u := counted s e t
      -- EMIT on a port: the frame is a copy of the packet window's first bytes; with flag E the thread ends, else it waits
      (∀ port : Fin 64, IsaNext s e t 0x50 w → x.emits < 4 → nb ≤ s.tb.raw + 12500000 → cw / 2 ^ 32 = 0 → cw / 2 ^ 24 % 32 = 0 →
        14 ≤ cw % 65536 → cw % 65536 ≤ 512 → insertOk kind offset (cw % 65536) = true → (if cw / 65536 % 256 = 0xFE then x.packet.port else cw / 65536 % 256) = port.val →
        ∀ f : EFrame, f = { cls := egressClass x.packet.cls, data := x.win.take (cw % 65536), flags := cw / 2 ^ 24 % 256, kind := kind,
                            offset := offset, notBefore := nb, owner := some (e, t, x.serial) } →
        (flagOf w 36 = true →
          exec (.isaEmit e t) s = .next (((u.setThread e t { x with emits := x.emits + 1 }).endThread e t 0 true).emitFrame port f))
        ∧ (flagOf w 36 = false →
          exec (.isaEmit e t) s = .next ((u.setThread e t
            { (({ x with emits := x.emits + 1 } : Thread).waits .emit s.now) with pc := x.pc + 1 }).emitFrame port f)))
      ∧ (IsaNext s e t 0x50 w → 4 ≤ x.emits → Faults (.isaEmit e t) s e t 5)
      ∧ (IsaNext s e t 0x50 w → x.emits < 4 → s.tb.raw + 12500000 < nb → Faults (.isaEmit e t) s e t 10)
      ∧ (IsaNext s e t 0x50 w → x.emits < 4 → nb ≤ s.tb.raw + 12500000 → (cw % 65536 < 14 ∨ 512 < cw % 65536 ∨ cw / 2 ^ 32 ≠ 0 ∨ cw / 2 ^ 24 % 32 ≠ 0
        ∨ insertOk kind offset (cw % 65536) = false) →
        Faults (.isaEmit e t) s e t 11)
      ∧ (IsaNext s e t 0x50 w → x.emits < 4 → nb ≤ s.tb.raw + 12500000 → 64 ≤ cw / 65536 % 256 → cw / 65536 % 256 ≠ 0xFE →
        Faults (.isaEmit e t) s e t 11)
      -- DROP: with flag C the program counter of imm[7:0] first
      ∧ (IsaNext s e t 0x51 w → flagOf w 35 = false → exec (.isaDrop e t) s = .next ((u.countE e 0x09).endThread e t 1 false))
      ∧ (IsaNext s e t 0x51 w → flagOf w 35 = true →
        exec (.isaDrop e t) s = .next (((u.bump (Obj.program_counters (immOf w % 256))).countE e 0x09).endThread e t 1 false))
      -- PUNT: the frame as received to the ring of imm[7:0] with the punt code of imm[15:8]
      ∧ (∀ p, IsaNext s e t 0x52 w → x.work = .frame p → exec (.isaPunt e t) s
        = .next (((u.countE e 0x0A).endThread e t 2 false).toRing (immOf w % 256)
            { pkt := p, reason := 2, code := immOf w / 256 % 256, engine := e.val, client := x.held.getD 0xFFFFFFFF, seq := 0 }))
      ∧ (IsaNext s e t 0x52 w → x.work.isFrame = false → exec (.isaPunt e t) s = .next ((u.countE e 0x0A).endThread e t 2 false))
      -- CINC adds A, or 1 where srcA is g0; the thread notes the increment, which a warm reset that discards it takes back
      ∧ (IsaNext s e t 0x58 w → ∀ d, d = (if srcAOf w = 0 then 1 else a.toNat) → exec (.isaCinc e t) s
        = .next ((u.bump (Obj.program_counters (immOf w % 256)) d).setThread e t { x with pc := x.pc + 1, incs := (immOf w % 256, d) :: x.incs })))
  -- a program fault
  ∧ (∀ (s : State) (e : Fin 8) (t : Fin 16) (cause : Nat),
      let u := s.progFault e t cause
      (u.thread e t).busy = false ∧ (u.thread e t).held = none ∧ (u.thread e t).also = [] ∧ (u.thread e t).pc = (s.thread e t).pc
      ∧ (∀ (e' : Fin 8) (t' : Fin 16), (e', t') ≠ (e, t) → u.thread e' t' = s.thread e' t')
      ∧ u.serve.ct.dram = s.serve.ct.dram ∧ u.serve.engines[e].faultSec = some s.second
      ∧ u.pending = s.pending ∧ u.now = s.now)
/-- Announce messages and what firmware sends for PTP (R311, R313, R316-R318): one frame into a port's egress, its sequence
advanced.
Commands that complete here, on conditions on the state and operands alone: `announceReceive`, `announceReceiptTimeout`,
`delayReqSend`, `pdelayReqSend`, `ptpManagement`, `smTlvSend`, `unicastRenew`. -/
def Obligations.PtpCommands : Prop :=
  -- ANNOUNCE_RECEIVE: the foreign data set is kept, the receipt timeout runs from the ingress stamp, the best transmitter is chosen again
  (∀ (s t u : State) (p : Pkt) (i : Fin 4), s.firmwareUp = true → s.takeRing4 11 = some (p, t) →
    t.instOf p.port p.transport (p.data.drop p.payload) = some i → t.secured? i (p.data.drop p.payload) = (true, u) →
    exec .announceReceive s = .next (
      let d := annOf (p.data.drop p.payload)
      let x := u.ptpPort i p.port
      let old := x.foreign.find? fun f => f.data.sender == d.sender
      (u.setPtpPort i p.port { x with
        foreign := { data := d, times := (u.arrival p :: (old.map fun f => f.times).getD []).take 8, address := p.unicastFrom }
          :: x.foreign.filter (fun f => f.data.sender != d.sender),
        timeoutAt := some (u.arrival p + u.nn (Obj.announce_timeout i) * logTicks (u.logAnnounce i)) }).runBmca i))
  ∧ (∀ (s t : State) (p : Pkt), s.firmwareUp = true → s.takeRing4 11 = some (p, t) →
    t.instOf p.port p.transport (p.data.drop p.payload) = none →
    exec .announceReceive s = .next (t.bump (Obj.program_counters 12)))
  ∧ (∀ s : State, s.takeRing4 11 = none → exec .announceReceive s = .next s)
  -- ANNOUNCE_RECEIPT_TIMEOUT when due; before, and while an Announce waits on ring 4, nothing
  ∧ (∀ (s : State) (i : Fin 4) (n : Fin 64) (at' : Nat), s.firmwareUp = true → (s.ptpPort i n).timeoutAt = some at' → at' ≤ s.now →
    s.announceWaits i n = false → exec (.announceReceiptTimeout i n) s
      = .next ((s.setPtpPort i n { s.ptpPort i n with timeoutAt := none, foreign := [] }).runBmca i))
  ∧ (∀ (s : State) (i : Fin 4) (n : Fin 64) (at' : Nat), (s.ptpPort i n).timeoutAt = some at' → (s.now < at' ∨ s.announceWaits i n = true) →
    exec (.announceReceiptTimeout i n) s = .next s)
  -- DELAY_REQ_SEND of a receiver or uncalibrated port of an end-to-end instance, by ring 130
  ∧ (∀ (s : State) (i : Fin 4) (n : Fin 64), s.serveAwake = true → s.serve.stopped = false → s.receives i n = true →
    (s.nn (Obj.port_state i n) = 9 ∨ s.nn (Obj.port_state i n) = 8) → s.isP2p i = false → (s.ptpPort i n).reqNext ≤ s.now →
    Yields (.delayReqSend i n) s fun t => t.obj = s.obj ∧ t.tb = s.tb ∧ (∀ m : Fin 64, m ≠ n → t.ports[m] = s.ports[m])
      ∧ (t.ptpPort i n).reqSeq = ((s.ptpPort i n).reqSeq + 1) % 65536 ∧ (t.ptpPort i n).reqNext = s.now + logTicks (s.logDelay i)
      ∧ ∃ f : EFrame, t.ports[n].egress = s.ports[n].egress ++ [f] ∧ f.cls = 3 ∧ f.seq = s.serve.seq130 ∧ f.after = .request i false
        ∧ f.data = wrap (s.toParent i n).1
            (s.ptpMessage i n 1 (s.toParent i n).2 0 (s.ptpPort i n).reqSeq 0x7F (List.replicate 10 0)))
  ∧ (∀ (s : State) (i : Fin 4) (n : Fin 64), s.now < (s.ptpPort i n).reqNext → exec (.delayReqSend i n) s = .next s)
  -- PDELAY_REQ_SEND, of a transmitter port where R312 lets it operate: an unanswered request before it loses the count of
  -- good exchanges
  ∧ (∀ (s : State) (i : Fin 4) (n : Fin 64), s.serveAwake = true → s.serve.stopped = false → s.member i n = true → s.isP2p i = true →
    s.mode.cur ≠ .steep → s.linkUp n = true → (s.transmitMode = true ∨ s.nn (Obj.port_state i n) ≠ 6) → (s.ptpPort i n).pdelayNext ≤ s.now →
    Yields (.pdelayReqSend i n) s fun t => t.obj = s.obj ∧ t.tb = s.tb ∧ (∀ m : Fin 64, m ≠ n → t.ports[m] = s.ports[m])
      ∧ (t.ptpPort i n).pdelaySeq = ((s.ptpPort i n).pdelaySeq + 1) % 65536
      ∧ (t.ptpPort i n).pdelayGood = (if (s.ptpPort i n).pd1.isSome then 0 else (s.ptpPort i n).pdelayGood)
      ∧ ∃ f : EFrame, t.ports[n].egress = s.ports[n].egress ++ [f] ∧ f.cls = 3 ∧ f.seq = s.serve.seq130 ∧ f.after = .request i true
        ∧ f.data = wrap (s.multicastHeader i n true true)
            (s.ptpMessage i n 2 0 0 (s.ptpPort i n).pdelaySeq 0x7F (List.replicate 20 0)))
  ∧ (∀ (s : State) (i : Fin 4) (n : Fin 64), (s.mode.cur = .steep ∨ s.transmitMode = false ∧ s.nn (Obj.port_state i n) = 6) →
    exec (.pdelayReqSend i n) s = .next s)
  -- PTP_MANAGEMENT: a SET or COMMAND is answered with NOT_SUPPORTED, a GET with the data set; a multicast message is answered
  -- to the group from the device's own addresses, another to its sender
  ∧ (∀ (s t u : State) (p : Pkt) (i : Fin 4) (h : p.port < 64) (act : Nat), s.firmwareUp = true → s.takeRing4 13 = some (p, t) →
    t.instOf p.port p.transport (p.data.drop p.payload) = some i → t.secured? i (p.data.drop p.payload) = (true, u) →
    u.mode.cur ≠ .steep → (u.transmitMode = true ∨ u.nn (Obj.port_state i p.port) ≠ 6) →
    fieldN (p.data.drop p.payload) 46 1 % 16 = act → act = 0 ∨ act = 1 ∨ act = 3 →
    ∀ (tlv hdr : Bytes) (flags : Nat),
    (match u.managementData i p.port (fieldN (p.data.drop p.payload) 52 2) with
      | some d => tlv = if act = 0 then [0, 1] ++ beNat 2 (2 + d.length) ++ beNat 2 (fieldN (p.data.drop p.payload) 52 2) ++ d
          else [0, 2, 0, 8, 0, 6] ++ beNat 2 (fieldN (p.data.drop p.payload) 52 2) ++ [0, 0, 0, 0]
      | none => tlv = [0, 2, 0, 8, 0, 6] ++ beNat 2 (fieldN (p.data.drop p.payload) 52 2) ++ [0, 0, 0, 0]) →
    (if fieldN p.data 0 1 % 2 = 1 then hdr = u.multicastHeader i p.port false false ∧ flags = 0 else hdr = replyHeader p 320 ∧ flags = 4) →
    Yields .ptpManagement s fun v => ∃ f : EFrame, v.ports[(⟨p.port, h⟩ : Fin 64)].egress = u.ports[(⟨p.port, h⟩ : Fin 64)].egress ++ [f]
      ∧ f.cls = 3 ∧ f.data = wrap hdr (u.secured i (u.ptpMessage i p.port 13 flags 0 (fieldN (p.data.drop p.payload) 30 2) 0x7F
          (field (p.data.drop p.payload) 20 10 ++ field (p.data.drop p.payload) 44 2 ++ [if act = 3 then 4 else 2, 0] ++ tlv))))
  -- in STEEP, and on a transmitter port where R312 lets it not operate, the message is taken and nothing is sent
  ∧ (∀ (s t u : State) (p : Pkt) (i : Fin 4), s.firmwareUp = true → s.takeRing4 13 = some (p, t) →
    t.instOf p.port p.transport (p.data.drop p.payload) = some i → t.secured? i (p.data.drop p.payload) = (true, u) →
    (u.mode.cur = .steep ∨ u.transmitMode = false ∧ u.nn (Obj.port_state i p.port) = 6) → exec .ptpManagement s = .next u)
  ∧ (∀ (s t : State) (p : Pkt), s.firmwareUp = true → s.takeRing4 13 = some (p, t) →
    t.instOf p.port p.transport (p.data.drop p.payload) = none → exec .ptpManagement s = .next (t.bump (Obj.program_counters 12)))
  ∧ (∀ s : State, s.takeRing4 13 = none → exec .ptpManagement s = .next s)
  -- SM_TLV_SEND each second of a profile 4 transmitter
  ∧ (∀ (s : State) (i : Fin 4) (n : Fin 64), s.firmwareUp = true → s.serve.stopped = false → s.profile i = 4 → s.transmits i n = true →
    (s.ptpPort i n).smNext ≤ s.now →
    Yields (.smTlvSend i n) s fun t => t.obj = s.obj ∧ (t.ptpPort i n).smNext = s.now + ticksS 1
      ∧ (t.ptpPort i n).managementSeq = ((s.ptpPort i n).managementSeq + 1) % 65536
      ∧ ∃ f : EFrame, t.ports[n].egress = s.ports[n].egress ++ [f] ∧ f.cls = 3
        ∧ f.data = wrap (s.multicastHeader i n false false) (s.secured i (s.ptpMessage i n 13 0 0 (s.ptpPort i n).managementSeq 0x7F
            (List.replicate 10 0xFF ++ [0, 0, 3, 0, 0, 3, 0, 48, 0x68, 0x97, 0xE8, 0, 0, 1] ++ List.replicate 8 0 ++ beNat 1 s.lockingStatus
              ++ [0] ++ be 4 (s.n (Obj.sm_local_offset i)) ++ be 4 (s.n Obj.leap_delta)
              ++ be 6 (if s.n Obj.leap_delta = 0 then 0 else s.n Obj.leap_time / unitsPerS) ++ List.replicate 18 0))))
  ∧ (∀ (s : State) (i : Fin 4) (n : Fin 64), s.profile i ≠ 4 → exec (.smTlvSend i n) s = .next s)
  -- UNICAST_RENEW of Announce to an address not asked yet
  ∧ (∀ (s : State) (i m : Fin 4) (n : Fin 64), s.serveAwake = true → s.serve.stopped = false → s.unicastOn i = true →
    s.receives i n = true → s.nn (Obj.receiver_port i) = n.val → (s.octs (Obj.unicast_masters i m)).length = 16 →
    s.octs (Obj.unicast_masters i m) ≠ List.replicate 16 0 → s.prot.insts[i].renewals = [] →
    Yields (.unicastRenew i m 11) s fun t => t.obj = s.obj
      ∧ t.prot.insts[i].renewals = [{ master := m, message := 11, due := s.now + ticksS 8 }]
      ∧ t.prot.insts[i].signalSeq = (s.prot.insts[i].signalSeq + 1) % 65536
      ∧ ∃ f : EFrame, t.ports[n].egress = s.ports[n].egress ++ [f] ∧ f.cls = 3 ∧ f.seq = s.serve.seq130)
  ∧ (∀ (s : State) (i m : Fin 4) (k : Nat), s.unicastOn i = false → exec (.unicastRenew i m k) s = .next s)

/-- The best time transmitter's order (R311): a smaller rank list wins; the order is asymmetric, so that two ports never
prefer each other's data set. -/
def Obligations.RankOrderIsStrict : Prop :=
  (∀ a b : List Nat, lexLess a b = true → lexLess b a = false)
  ∧ (∀ a b c : List Nat, a.length = b.length → b.length = c.length → lexLess a b = true → lexLess b c = true → lexLess a c = true)

/-- NTS keys and NTS-KE (R328, R329, R434).
Commands that complete here, on conditions on the state and operands alone: `cookieKeyRotate`, `ntsMasterKey`,
`ntsKeHandshake`, `ntsKeIdleTimeout`, `ntsKeKeygen`. -/
def Obligations.NtsCommands : Prop :=
  -- COOKIE_KEY_ROTATE shows the boundary's key number, code 0x5501
  (∀ s : State, Wf s → s.awake 7 = true → s.sec.cookieKeys = true → s.prot.keyIndex ≠ some s.keyIndexNow →
    Yields .cookieKeyRotate s fun t => t.prot.keyIndex = some s.keyIndexNow ∧ t.nn Obj.nts_key_number = s.keyIndexNow % 32768
      ∧ t.prot.master = s.prot.master ∧ t.prot.masterFrom = none ∧ t.tb = s.tb)
  ∧ (∀ s : State, s.prot.keyIndex = some s.keyIndexNow → exec .cookieKeyRotate s = .next s)
  -- NTS_MASTER_KEY: the key is held from the next boundary on
  ∧ (∀ (s : State) (key : Bytes) (k : Nat), s.firmwareUp = true → key.length = 32 → s.prot.keyIndex = some k →
    Yields (.ntsMasterKey key) s fun t => t.prot.master = key ∧ t.prot.masterFrom = some (k + 1)
      ∧ t.prot.masterOld = (if s.prot.masterFrom.isSome then s.prot.masterOld else s.prot.master) ∧ t.prot.keyIndex = some k)
  ∧ (∀ (s : State) (key : Bytes), s.firmwareUp = false → exec (.ntsMasterKey key) s = .next s)
  -- NTS_KE_HANDSHAKE takes the frames of a connection from ring 3, of the management port's from ring 2; with none there, nothing;
  -- beyond the sessions allowed it posts an RST
  ∧ (∀ (s : State) (h : KeHello), s.takeNtsKe h.mgmt = none → exec (.ntsKeHandshake h) s = .next s)
  ∧ (∀ (s u : State) (h : KeHello) (p : Pkt), s.takeNtsKe h.mgmt = some (p, u) →
    u.ring (if h.mgmt then 3 else 2) = s.ring (if h.mgmt then 3 else 2)
    ∧ (∃ i ∈ (s.ring (if h.mgmt then 2 else 3)).items, i.pkt = p) ∧ u.prot = s.prot
    ∧ (u.ring (if h.mgmt then 2 else 3)).items.length < (s.ring (if h.mgmt then 2 else 3)).items.length)
  ∧ (∀ (s u : State) (h : KeHello) (p : Pkt), s.firmwareUp = true → s.awake 7 = true → s.serveAwake = true →
    s.serve.stopped = false → s.sys.warmAt = none → s.takeNtsKe h.mgmt = some (p, u) →
    s.nn Obj.nts_ke_max_sessions ≤ (s.prot.keConns.filter fun c => c.id ≠ h.conn).length →
    exec (.ntsKeHandshake h) s = .next (u.postReset p))
  -- a client without TLS 1.3 gets alert 70, one without the ALPN name alert 120, a failed engine alert 80; the answer is posted
  ∧ (∀ (s u : State) (h : KeHello) (p : Pkt) (key : Bytes) (alg : Nat), s.firmwareUp = true → s.awake 7 = true → s.serveAwake = true →
    s.serve.stopped = false → s.sys.warmAt = none → s.takeNtsKe h.mgmt = some (p, u) →
    (s.prot.keConns.filter fun c => c.id ≠ h.conn).length < s.nn Obj.nts_ke_max_sessions →
    s.bn.failed = false → s.sec.storageOff = false → s.keySlot 1 = some key → s.flash.keKey.map (fun p => p.2) = some alg →
    (h.tls13 = false → Yields (.ntsKeHandshake h) s fun t => t.prot.keOut = some { conn := h.conn, alert := some 70 }
      ∧ ∀ g : p.port < 64, t.ports[(⟨p.port, g⟩ : Fin 64)].egress.length = s.ports[(⟨p.port, g⟩ : Fin 64)].egress.length + 1)
    ∧ (h.tls13 = true → h.alpn = false → Yields (.ntsKeHandshake h) s fun t => t.prot.keOut = some { conn := h.conn, alert := some 120 }))
  ∧ (∀ (s u : State) (h : KeHello) (p : Pkt), s.firmwareUp = true → s.awake 7 = true → s.serveAwake = true →
    s.serve.stopped = false → s.sys.warmAt = none → s.takeNtsKe h.mgmt = some (p, u) →
    (s.prot.keConns.filter fun c => c.id ≠ h.conn).length < s.nn Obj.nts_ke_max_sessions → s.bn.failed = true →
    Yields (.ntsKeHandshake h) s fun t => t.prot.keOut = some { conn := h.conn, alert := some 80 }
      ∧ (∀ c ∈ t.prot.keConns, c.id ≠ h.conn))
  -- an exchange in TLS 1.3 with a suite, a share and a signature algorithm that both know ends in an answer of eight cookies
  ∧ (∀ (s u : State) (h : KeHello) (p : Pkt) (key point : Bytes) (alg suite group : Nat), s.firmwareUp = true → s.awake 7 = true → s.serveAwake = true →
    s.serve.stopped = false → s.sys.warmAt = none → s.takeNtsKe h.mgmt = some (p, u) →
    (s.prot.keConns.filter fun c => c.id ≠ h.conn).length < s.nn Obj.nts_ke_max_sessions →
    s.bn.failed = false → s.sec.storageOff = false → s.keySlot 1 = some key → s.flash.keKey.map (fun p => p.2) = some alg →
    h.tls13 = true → h.alpn = true → allZero (s.chain 0x8344) = false →
    h.suites.find? (fun c => c == 0x1301 || c == 0x1302) = some suite → h.shares.find? (fun g => g.1 ≤ 2) = some (group, point) →
    h.sigs.contains alg = true → h.sigBad = false →
    ∀ priv v, ({ u with prot := { u.prot with keConns := (u.prot.keConns.filter fun c => c.id ≠ h.conn) ++ [{ id := h.conn, lastAt := s.now }] } } : State).random
      (if group = 2 then 48 else 32) = (priv, v) → pointOk group priv point = true →
    Yields (.ntsKeHandshake h) s fun t => ∃ o, t.prot.keOut = some o ∧ o.conn = h.conn ∧ o.suite = suite ∧ o.group = group
      ∧ (∀ draw x, v.random 48 = (draw, x) →
          o.signature = tlsSignature alg (signWith alg key (verifyContent suite h.transcript) draw)
          ∧ o.records = (x.keAnswer h.records suite (keMaster suite alg
              (if group = 0 then x25519 priv point else ecdh group priv point) h.transcript o.signature)).1))
  -- NTS_KE_IDLE_TIMEOUT closes a connection idle for 10 s, no other
  ∧ (∀ (s : State) (conn : Nat), exec (.ntsKeIdleTimeout conn) s
      = .next { s with prot := { s.prot with keConns := s.prot.keConns.filter fun c => decide (c.id ≠ conn) || decide (s.now < c.lastAt + ticksS 10) } })
  -- NTS_KE_KEYGEN: the key of slot 1 and its public key, the chain's window zeroed
  ∧ (∀ (s u : State) (k : Bytes), Wf s → s.firmwareUp = true → s.awake 7 = true → s.sec.storageOff = false →
    s.random (if s.nn Obj.nts_ke_key_alg = 1 then 48 else 32) = (k, u) →
    Yields .ntsKeKeygen s fun t => t.keySlot 1 = some k ∧ t.octs Obj.nts_ke_public_key = publicKey (s.nn Obj.nts_ke_key_alg) k
      ∧ t.flash.keKey = some (sealRecord storageKey (u.random 12).1 Obj.nts_ke_keygen k, s.nn Obj.nts_ke_key_alg) ∧ t.flag Obj.nts_ke_keygen = false ∧ t.chain 0x8344 = [])
  ∧ (∀ s : State, s.firmwareUp = false → exec .ntsKeKeygen s = .next s)
/-- The big-number commands (R332): the accumulator takes the command's exact sum with its carry out, the destination the sum's words
at C's length, the operand buffers the operands, and no other byte of the three memories changes; the chain ends with status 0 at a descriptor without a link; with one it comes to the linked
descriptor, or is rejected there. Every tile read passes its check (R370). Its arithmetic cycles follow from the operation
and the lengths alone (R337). -/
def Obligations.BigNumberResults : Prop :=
  ∀ (s : State) (bad : Option (Nat × Byte)) (c : BnChain) (d : BnDesc) (a b cc n n' : Nat), Wf s →
    s.awake 7 = true → s.bn.cur = some c → d = s.bnDesc c →
    spaceOf d.d ≤ 2 → s.bnOperands d = (a, b, cc, n, n') →
    s.badSource bad c d = none → s.badTarget bad d = none →
    let rows := (d.lenA + 15) / 16
    let done : Instr → Nat → Nat → Nat → Prop := fun i v r k => Yields i s fun t => t.bn.acc = v
      ∧ t.bn.bufA = a ∧ t.bn.bufN = n ∧ t.bn.nPrime = n'
      ∧ t.bn.cycles = s.bn.cycles + (if c.index = 0 then 0 else 4) + 6 + k
      ∧ t.bn.signals[c.queue] = s.bn.signals[c.queue] + (if bit d.flags 6 then 1 else 0)
      ∧ (d.writes = true → t.bnRead d.d (8 * d.lenC) = beNat (8 * d.lenC) r)
      ∧ (∀ sp x, sp ≤ 2 → ¬ (d.writes = true ∧ sp = spaceOf d.d ∧ byteOf d.d ≤ x ∧ x < byteOf d.d + 8 * d.lenC) →
          memGet (t.mem.space sp) x = memGet (s.mem.space sp) x)
      ∧ (d.linked = false → t.bn.cur = none ∧ t.bn.status[c.queue] = some 0)
      ∧ (d.linked = true →
          (t.bn.cur = some { c with addr := d.link, index := c.index + 1, prevA := some d.lenA } ∧ t.bn.status = s.bn.status)
          ∨ (t.bn.cur = none ∧ ∃ st, t.bn.status[c.queue] = some st ∧ st ≠ 0))
      ∧ t.bn.queues = s.bn.queues ∧ t.tb = s.tb ∧ t.serve = s.serve
    (d.op = 1 → done (.rowMac bad) ((cc + a * b) % 2 ^ (64 * 257)) ((cc + a * b) % 2 ^ (64 * (d.lenA + 1))) rows)
    ∧ (d.op = 2 → done (.product bad) ((cc + a * b) % 2 ^ (64 * 257)) ((cc + a * b) % 2 ^ (64 * (d.lenA + d.lenB))) (d.lenB * rows))
    ∧ (d.op = 3 → ∀ r, r =
        (((cc + a * b + (cc % 2 ^ 64 + a % 2 ^ 64 * b) * n' % 2 ^ 64 * n) / 2 ^ 64) % 2 ^ (64 * (d.lenA + 1))) → done (.montRow bad) r r (2 * rows))

/-- A Montgomery row in range (R332): with n' = -1/N modulo 2^64 the low word of the sum is zero and the division exact; with
C and A below 2N the result fits its destination with no wrap. It is below 3N; R332 says below 2N, which does not follow. -/
def Obligations.MontgomeryRowFits : Prop :=
  ∀ w a b n n' c : Nat, 0 < w → n < 2 ^ (64 * w) → (n * n' + 1) % 2 ^ 64 = 0 → c < 2 * n → a < 2 * n → b < 2 ^ 64 →
    let m := (c % 2 ^ 64 + a % 2 ^ 64 * b) * n' % 2 ^ 64
    (c + a * b + m * n) % 2 ^ 64 = 0 ∧ montRow w a b n n' c * 2 ^ 64 = c + a * b + m * n ∧ montRow w a b n n' c < 3 * n

/-- The engine's other commands (R335, R336, R342, R343).
Commands that complete here, on conditions on the state and operands alone: `bnChainStart`, `rowMac`, `product`, `montRow`,
`bnAbort`, `bnSelftest`. -/
def Obligations.BigNumberCommands : Prop :=
  -- BN_CHAIN_START
  (∀ s : State, s.awake 7 = true → s.blockBusy 0x0400 = false → exec (.bnChainStart none) s = .next s.bnTake)
  ∧ (∀ (s : State) (q : Fin 4) (a : Nat) (w : List (Nat × Bytes)), s.awake 7 = true → s.firmwareUp = true → s.blockBusy 0x0400 = true →
    Yields (.bnChainStart (some (q, a, w))) s fun t => t.bn.queues[q] = s.bn.queues[q] ++ [a] ∧ t.obj = s.obj ∧ t.tb = s.tb)
  ∧ (∀ (s : State) (p : Option (Fin 4 × Nat × List (Nat × Bytes))), s.awake 7 = false → exec (.bnChainStart p) s = .next s)
  -- a descriptor whose source's tile fails its check ends the chain with status 4; its destination is unchanged
  ∧ (∀ (s : State) (c : BnChain) (bad : Option (Nat × Byte)) (a : Nat), s.awake 7 = true → s.bn.cur = some c →
    s.badSource bad c (s.bnDesc c) = some a →
    ∀ p ∈ [(1, Instr.rowMac bad), (2, .product bad), (3, .montRow bad)], (s.bnDesc c).op = p.1 →
      exec p.2 s = .next ((s.bnEnd 4).bnMismatch a))
  -- a destination's tile that fails as it is read for a partial write is not written
  ∧ (∀ (s : State) (c : BnChain) (bad : Option (Nat × Byte)) (a : Nat), s.awake 7 = true → s.bn.cur = some c →
    s.badSource bad c (s.bnDesc c) = none → s.badTarget bad (s.bnDesc c) = some a →
    ∀ p ∈ [(1, Instr.rowMac bad), (2, .product bad), (3, .montRow bad)], (s.bnDesc c).op = p.1 →
      exec p.2 s = .next (s.bnMismatch a))
  ∧ (∀ (s : State) (bad : Option (Nat × Byte)), s.bn.cur = none →
    exec (.rowMac bad) s = .next s ∧ exec (.product bad) s = .next s ∧ exec (.montRow bad) s = .next s)
  -- BN_ABORT: the chain in progress stops with status 1, accumulator and buffers cleared; queued chains end with status 1
  ∧ (∀ (s : State) (c : BnChain), s.awake 7 = true → s.bn.cur = some c →
    Yields (.bnAbort c.queue) s fun t => t.bn.cur = none ∧ t.bn.status[c.queue] = some 1 ∧ t.bn.acc = 0 ∧ t.bn.bufA = 0 ∧ t.bn.bufN = 0
      ∧ t.bn.queues[c.queue] = [] ∧ ∀ q : Fin 4, q ≠ c.queue → t.bn.queues[q] = s.bn.queues[q] ∧ t.bn.status[q] = s.bn.status[q])
  ∧ (∀ (s : State) (q : Fin 4), s.awake 7 = true → s.bn.cur = none → s.bn.queues[q] ≠ [] →
    Yields (.bnAbort q) s fun t => t.bn.queues[q] = [] ∧ t.bn.status[q] = some 1 ∧ t.mem = s.mem ∧ t.bn.acc = s.bn.acc)
  ∧ (∀ (s : State) (q : Fin 4), s.bn.cur = none → s.bn.queues[q] = [] → exec (.bnAbort q) s = .next s)
  -- BN_SELFTEST: the result, and the failed state, which only a passing test leaves
  ∧ (∀ (s : State) (pass : Bool) (cause : Nat), Wf s → s.awake 7 = true → s.bn.test = some cause → s.bn.cur = none →
    Yields (.bnSelftest pass) s fun t => t.bn.test = none ∧ t.bn.failed = (!pass) ∧ t.flag Obj.bn_selftest = false
      ∧ t.nn Obj.bn_selftest_result = (if pass then 1 else 2) ∧ t.nn Obj.bn_state = (if pass then 0 else 3) ∧ t.mem = s.mem)
  ∧ (∀ (s : State) (pass : Bool), s.bn.test = none → exec (.bnSelftest pass) s = .next s)
/-- Requests in general (R54, R57, R62): a command carries out only the request of its opcode that is next, and none while the
agent is down; the request accepted is new, and becomes one that is answered from the cache. -/
def Obligations.RequestsInOrder : Prop :=
  (∀ p ∈ requestOps, (∀ s : State, s.agentUp = false → exec p.2 s = .next s)
    ∧ (∀ (s t : State) (r : Req), s.agentUp = true → (p.1 = 0x30 ∨ p.1 = 0x33 → s.commitOpen = false) →
        s.agentBegin.nextReq = some (t, r) → r.opcode ≠ p.1 → exec p.2 s = .next s.agentBegin)
    ∧ (∀ s : State, s.agentUp = true → (p.1 = 0x30 ∨ p.1 = 0x33 → s.commitOpen = false) → s.agentBegin.nextReq = none →
        exec p.2 s = .next s.agentBegin))
  -- sequences
  ∧ (∀ (hi : Nat) (seen : List Nat) (cache : List Cached) (seq : Nat), seqFate hi seen cache seq = .fresh →
    seqFate (seqHi hi seq) (seqSeen hi seen seq) (seqCache cache seq) seq = .again)
  ∧ (∀ (hi : Nat) (seen : List Nat) (cache : List Cached) (seq : Nat), hi < seq → (∀ c ∈ cache, c.seq ≤ hi) →
    seqFate hi seen cache seq = .fresh)
  ∧ (∀ (hi : Nat) (seen : List Nat) (cache : List Cached) (seq : Nat), seq + 64 < hi → (∀ c ∈ cache, c.seq ≠ seq) →
    seqFate hi seen cache seq = .stale)
  ∧ (∀ (cache : List Cached) (seq : Nat), (seqCache cache seq).length ≤ 8)

/-- Reads (R42, R430, R432, R458): the items and the generation of one state; a bulk window is reached by BULK_READ alone.
Commands that complete here, on conditions on the state and operands alone: `read`, `readRecord`, `bulkRead`. -/
def Obligations.ReadCommands : Prop :=
  (∀ (s t u : State) (r : Req) (items : Bytes), Serving s 0x10 t r →
    t.readItems (t.extendedRead r.k) (readItemsOf r.payload) = (items, u) →
    exec .read s = .next (u.reply r stOk (t.genBytes ++ items)))
  ∧ (∀ (s t : State) (r : Req) (w : BulkRow), Serving s 0x11 t r → bulkRow (fieldN r.payload 0 2) = some w → t.answers w.dom = true →
    exec .readRecord s = .next (t.reply r stDenied []))
  ∧ (∀ (s t u : State) (r : Req) (items : Bytes) (k : Nat), Serving s 0x11 t r → t.recordStatus (fieldN r.payload 0 2) = stOk →
    t.objView (objKey (fieldN r.payload 0 2) 0) = .num k →
    t.readItems (t.extendedRead r.k) ((List.range (k + 1)).map fun sub => (fieldN r.payload 0 2, sub)) = (items, u) →
    exec .readRecord s = .next (u.reply r stOk (t.genBytes ++ items)))
  ∧ (∀ (s t : State) (r : Req), Serving s 0x13 t r → bulkRow (fieldN r.payload 0 2) = none →
    exec .bulkRead s = .next (t.reply r stNoObject []))
  -- BULK_READ: its checks in their order, then the bytes
  ∧ (∀ (s t : State) (r : Req) (w : BulkRow) (off count : Nat), Serving s 0x13 t r → bulkRow (fieldN r.payload 0 2) = some w →
    off = fieldN r.payload 2 8 → count = fieldN r.payload 10 2 →
    ((count = 0 ∨ 1024 < count) → exec .bulkRead s = .next (t.reply r stRange []))
    ∧ (0 < count → count ≤ 1024 → w.size < off + count → exec .bulkRead s = .next (t.reply r stBulkRange []))
    ∧ (0 < count → count ≤ 1024 → off + count ≤ w.size → w.acc = .rx → t.extendedRead r.k = false →
        exec .bulkRead s = .next (t.reply r stDenied []))
    ∧ (0 < count → count ≤ 1024 → off + count ≤ w.size → (w.acc ≠ .rx ∨ t.extendedRead r.k = true) → t.answers w.dom = true →
        exec .bulkRead s = .next (t.reply r stOk (t.genBytes ++ field (t.window w) off count))))

/-- Transactions (R44): BEGIN, WRITE, BULK_WRITE, ABORT.
Commands that complete here, on conditions on the state and operands alone: `begin`, `write`, `bulkWrite`, `abort`. -/
def Obligations.TransactionCommands : Prop :=
  (∀ (s t : State) (r : Req), Serving s 0x20 t r →
    (t.owns r = false → exec .begin s = .next (t.reply r stNotOwner []))
    ∧ (t.owns r = true → t.handingOver = false → t.ool.txn.isSome = true → exec .begin s = .next (t.reply r stTxnOpen []))
    ∧ (Wf s → t.owns r = true → t.handingOver = false → t.ool.txn = none →
      Yields .begin s fun u => u.ool.txn = some { id := t.ool.nextTxn } ∧ u.nn Obj.txn_state = 1 ∧ u.nn Obj.txn_staged_count = 0
        ∧ u.ool.nextTxn = t.ool.nextTxn % (2 ^ 32 - 1) + 1 ∧ u.n Obj.generation = t.n Obj.generation))
  -- a WRITE of transaction 0 while a transaction is open stages and commits nothing
  ∧ (∀ (s t : State) (r : Req), Serving s 0x12 t r → t.owns r = true → t.handingOver = false → fieldN r.payload 0 4 = 0 →
    t.ool.txn.isSome = true →
    Yields .write s fun u => u.obj = t.obj ∧ u.ool.txn = t.ool.txn)
  -- a WRITE that names no open transaction returns TXN_NONE for each item
  ∧ (∀ (s t : State) (r : Req) (raw : List (Nat × Nat × Nat × Bytes)), Serving s 0x12 t r → t.owns r = true → t.handingOver = false →
    fieldN r.payload 0 4 ≠ 0 → t.txnOf (fieldN r.payload 0 4) = none → writeItems r.payload.length (r.payload.drop 4) = some raw →
    exec .write s = .next (t.reply r stTxnNone (List.replicate raw.length 0x08)))
  -- a WRITE whose items pass is staged; reads do not see it
  ∧ (∀ (s t : State) (r : Req) (x : Txn) (raw : List (Nat × Nat × Nat × Bytes)), Serving s 0x12 t r → t.owns r = true →
    t.handingOver = false → fieldN r.payload 0 4 ≠ 0 → t.txnOf (fieldN r.payload 0 4) = some x →
    writeItems r.payload.length (r.payload.drop 4) = some raw → (∀ c ∈ t.checkItems r 0 raw, c.1 = stOk) →
    txnFull (stageItems x.items ((t.checkItems r 0 raw).filterMap fun c => c.2)) x.bulk = false →
    Yields .write s fun u =>
      u.ool.txn = some { x with items := stageItems x.items ((t.checkItems r 0 raw).filterMap fun c => c.2) }
      ∧ ∀ k, k ≠ Obj.txn_state → k ≠ Obj.txn_staged_count → u.get k = t.get k)
  -- a WRITE with a failing item stages none; a reserved encoding spoils its transaction (R7)
  ∧ (∀ (s t : State) (r : Req) (x : Txn) (raw : List (Nat × Nat × Nat × Bytes)), Serving s 0x12 t r → t.owns r = true →
    t.handingOver = false → fieldN r.payload 0 4 ≠ 0 → t.txnOf (fieldN r.payload 0 4) = some x →
    writeItems r.payload.length (r.payload.drop 4) = some raw → (∃ c ∈ t.checkItems r 0 raw, c.1 ≠ stOk) →
    Yields .write s fun u => u.obj = t.obj
      ∧ ((∀ c ∈ t.checkItems r 0 raw, c.1 ≠ stReserved) → u.ool.txn = t.ool.txn)
      ∧ ((∃ c ∈ t.checkItems r 0 raw, c.1 = stReserved) → u.ool.txn = some { x with spoiled := true }))
  -- a WRITE of transaction 0 with none open is an immediate commit of its items
  ∧ (∀ (s t : State) (r : Req) (raw : List (Nat × Nat × Nat × Bytes)) (l : List StagedItem), Serving s 0x12 t r → t.owns r = true →
    t.handingOver = false → fieldN r.payload 0 4 = 0 → t.ool.txn = none →
    writeItems r.payload.length (r.payload.drop 4) = some raw → (∀ c ∈ t.checkItems r 0 raw, c.1 = stOk) →
    l = stageItems [] ((t.checkItems r 0 raw).filterMap fun c => c.2) → txnFull l [] = false → t.runDue.commitNow l [] 0 0 = stOk →
    exec .write s = .next (t.runDue.commitApply r l [] 0 raw.length 0))
  -- BULK_WRITE into the open transaction; of a session that is not the owner
  ∧ (∀ (s t : State) (r : Req) (w : BulkRow) (x : Txn), Serving s 0x14 t r → bulkRow (fieldN r.payload 4 2) = some w →
    t.bulkWriteStatus r w (fieldN r.payload 0 4) (fieldN r.payload 6 8) (r.payload.drop 14).length = stOk → w.index ≠ 0x8340 →
    t.txnOf (fieldN r.payload 0 4) = some x →
    txnFull x.items (x.bulk ++ [{ index := w.index, offset := fieldN r.payload 6 8, data := r.payload.drop 14 }]) = false →
    Yields .bulkWrite s fun u =>
      u.ool.txn = some { x with bulk := x.bulk ++ [{ index := w.index, offset := fieldN r.payload 6 8, data := r.payload.drop 14 }] })
  ∧ (∀ (s t : State) (r : Req), Serving s 0x14 t r → t.owns r = false →
    exec .bulkWrite s = .next (t.reply r stNotOwner []))
  -- ABORT
  ∧ (∀ (s t : State) (r : Req), Serving s 0x22 t r →
    (t.owns r = false → exec .abort s = .next (t.reply r stNotOwner []))
    ∧ (t.owns r = true → t.txnOf (fieldN r.payload 0 4) = none → exec .abort s = .next (t.reply r stTxnNone []))
    ∧ (Wf s → t.owns r = true → t.txnOf (fieldN r.payload 0 4) ≠ none →
      Yields .abort s fun u => u.ool.txn = none ∧ u.nn Obj.txn_state = 0 ∧ u.nn Obj.txn_staged_count = 0
        ∧ u.n Obj.generation = t.n Obj.generation))

/-- Commits (R44-R49): every COMMIT of the open transaction ends it; the conditional flag; schedules.
Commands that complete here, on conditions on the state and operands alone: `commit`, `schedCancel`,
`scheduledCommitExecute`. -/
def Obligations.CommitCommands : Prop :=
  (∀ (s t : State) (r : Req), Serving s 0x21 t r →
    (t.owns r = false → exec .commit s = .next (t.reply r stNotOwner []))
    ∧ (t.owns r = true → t.txnOf (fieldN r.payload 0 4) = none → exec .commit s = .next (t.reply r stTxnNone [])))
  -- one that a reserved encoding spoiled fails (R7)
  ∧ (∀ (s t : State) (r : Req) (x : Txn), Serving s 0x21 t r → t.owns r = true → t.txnOf (fieldN r.payload 0 4) = some x →
    x.spoiled = true → exec .commit s = .next (t.abortTxn.reply r stReserved []))
  -- an immediate commit, after the scheduled ones that execute (R49), is answered and takes effect, or fails
  ∧ (∀ (s t : State) (r : Req) (x : Txn), Serving s 0x21 t r → t.owns r = true → t.txnOf (fieldN r.payload 0 4) = some x →
    x.spoiled = false → bit (fieldN r.payload 4 1) 0 = false →
    let u := t.abortTxn.runDue
    let st := u.commitNow x.items x.bulk (fieldN r.payload 4 1) (fieldN r.payload 8 8)
    (st = stOk → exec .commit s = .next (u.commitApply r x.items x.bulk (fieldN r.payload 4 1) 0 (fieldN r.payload 8 8)))
    ∧ (st ≠ stOk → exec .commit s = .next (u.reply r st [])))
  -- a scheduled commit that passes waits with its identifier
  ∧ (∀ (s t : State) (r : Req) (x : Txn) (time : Int), Serving s 0x21 t r → t.owns r = true → t.txnOf (fieldN r.payload 0 4) = some x →
    x.spoiled = false → bit (fieldN r.payload 4 1) 0 = true → time = timeOfBytes (field r.payload 16 14) →
    t.abortTxn.commitLater x.items x.bulk (fieldN r.payload 4 1) time = stOk →
    Yields .commit s fun u => u.ool.txn = none
      ∧ u.sched = t.sched ++ [{ id := t.ool.nextSched, time := time, session := r.k.val, flags := fieldN r.payload 4 1,
                                expected := fieldN r.payload 8 8, items := x.items, bulk := x.bulk }]
      ∧ u.ool.nextSched = t.ool.nextSched % (2 ^ 32 - 1) + 1)
  -- SCHED_CANCEL of a pending commit, of an unknown or executing one, by another session
  ∧ (∀ (s t : State) (r : Req), Serving s 0x23 t r →
    (t.owns r = false → exec .schedCancel s = .next (t.reply r stNotOwner []))
    ∧ (t.owns r = true → (∀ c ∈ t.sched, c.id ≠ fieldN r.payload 0 4 ∨ t.schedDue c = true) →
      exec .schedCancel s = .next (t.reply r stNoObject []))
    ∧ (∀ c ∈ t.sched, t.owns r = true → c.id = fieldN r.payload 0 4 → t.schedDue c = false →
      Yields .schedCancel s fun u => u.sched = t.sched.filter fun d => !(d.id == fieldN r.payload 0 4 && !t.schedDue d)))
  -- SCHEDULED_COMMIT_EXECUTE of one due commit: it takes effect, or fails whole with code 0x1104
  ∧ (∀ (s : State) (c : Sched), s.firmwareUp = true → s.sched = [c] → s.schedDue c = true →
    let u : State := { s with sched := [] }
    (u.schedStatus c = stOk → exec .scheduledCommitExecute s = .next (u.takeEffect c.items c.bulk c.flags c.session (some c.time)))
    ∧ (u.schedStatus c ≠ stOk → Wf s →
      Yields .scheduledCommitExecute s fun v => v.sched = [] ∧ v.n Obj.generation = s.n Obj.generation
        ∧ v.nn Obj.sched_failed_count = (s.nn Obj.sched_failed_count + 1) % 2 ^ 32 ∧ v.outs = s.outs ∧ v.slots = s.slots))
  ∧ (∀ s : State, (∀ c ∈ s.sched, s.schedDue c = false) → exec .scheduledCommitExecute s = .next s)
  -- the order of several: by time
  ∧ (∀ l : List Sched, (schedOrder l).Perm l ∧ (schedOrder l).Pairwise fun a b => a.time ≤ b.time)

/-- Values that take effect, and their persistence (R45, R50, R51, R349, R376, R377).
Commands that complete here, on conditions on the state and operands alone: `objectWrite`, `persistWriteComplete`,
`configSetApply`. -/
def Obligations.ConfigurationCommands : Prop :=
  -- OBJECT_WRITE: an immediate commit of one value, after the scheduled ones that execute; where a check or a rule fails it
  -- changes nothing
  (∀ (s : State) (i sub : Nat) (v : Bytes) (x : StagedItem), s.itemOk i sub v = some x → s.firmwareUp = true →
    x.key ≠ Obj.block_reset_target → confirmed [x] = true →
    (s.runDue.rules [x] [] 0 = stOk → exec (.objectWrite i sub v) s = .next (s.runDue.takeEffect [x] [] 0 255))
    ∧ (s.runDue.rules [x] [] 0 ≠ stOk → exec (.objectWrite i sub v) s = .next s.runDue))
  ∧ (∀ (s : State) (i sub : Nat) (v : Bytes), s.itemOk i sub v = none → exec (.objectWrite i sub v) s = .next s)
  -- PERSIST_WRITE_COMPLETE: the written bank becomes the one in force, or the write is counted as failed
  ∧ (∀ (s : State) (p : Persisting), Wf s → s.ool.persisting = some p → s.sys.scope = none →
    (Yields (.persistWriteComplete true) s fun t => t.ool.persisting = none ∧ t.nn Obj.persist_state = 0
      ∧ t.n Obj.persist_generation = p.set.generation
      ∧ ((∃ b, s.flash.activeBank = some (0, b)) → t.flash.cfg1 = p.set.bank ∧ t.flash.cfg0 = s.flash.cfg0 ∧ t.nn Obj.active_bank = 1)
      ∧ ((¬∃ b, s.flash.activeBank = some (0, b)) → t.flash.cfg0 = p.set.bank ∧ t.flash.cfg1 = s.flash.cfg1 ∧ t.nn Obj.active_bank = 0))
    ∧ (Yields (.persistWriteComplete false) s fun t => t.ool.persisting = none ∧ t.nn Obj.persist_state = 0
      ∧ t.nn Obj.persist_fail = (s.nn Obj.persist_fail + 1) % 2 ^ 32 ∧ t.n Obj.persist_generation = s.n Obj.persist_generation
      ∧ t.flash.activeBank = s.flash.activeBank))
  ∧ (∀ (s : State) (p : Persisting), Wf s → s.ool.persisting = some p → s.sys.scope = none → p.set.fits = true →
    (∀ k b, s.flash.activeBank = some (k, b) → b.sequence < p.set.sequence) →
    Yields (.persistWriteComplete true) s fun t => t.flash.activeBank = some (t.nn Obj.active_bank, p.set))
  ∧ (∀ (s : State) (ok : Bool), s.ool.persisting = none → exec (.persistWriteComplete ok) s = .next s)
  -- a failed or unfinished write never touches the bank in force
  ∧ (∀ (s t : State) (ok : Bool) (k : Nat) (b : CfgSet), s.flash.activeBank = some (k, b) → exec (.persistWriteComplete ok) s = .next t →
    (k = 0 → t.flash.cfg0 = s.flash.cfg0) ∧ (k ≠ 0 → t.flash.cfg1 = s.flash.cfg1))
  -- the records of a write: a secret is enciphered under its key and nonce, and there is none without a key (R349)
  ∧ (∀ (l : List (Nat × Val)) (s : State) (x : CfgRecord), x ∈ (State.recordsOf l s).1 → secretKey x.key = true →
    s.sec.storageOff = false ∧ bit x.flags 0 = true ∧ ∃ nonce b, x.value = sealRecord storageKey nonce x.key b)
  -- CONFIG_SET_APPLY at bring-up step 5: step 6, domains 4 and 5 awake, the set in force or the defaults, then keys, ports
  -- and counters
  ∧ (∀ (s : State) (bad : List Nat), s.atStep 5 = true → (setBase s bad).flash.activeBank = none →
    exec (.configSetApply bad) s = .next (setDone ((((setBase s bad).setInForce []).putB Obj.cfg_default true).log 0 0x1605
      (beNat 1 ((setBase s bad).flash.cfg0.failures + 4 * (setBase s bad).flash.cfg1.failures)))))
  ∧ (∀ (s : State) (bad : List Nat) (k : Nat) (c : CfgSet), s.atStep 5 = true → (setBase s bad).flash.activeBank = some (k, c) →
    exec (.configSetApply bad) s = .next (setDone (
      let u := setBase s bad
      let v := (((u.logClosed c).setInForce (c.values u.storeKey)).bump Obj.cfg_records_skipped
        (c.records.filter fun r => r.read u.storeKey == .skipped).length).putN Obj.active_bank k
      let v := v.putN Obj.persist_generation c.generation
      match c.program with
      | some img => v.restoreImage img
      | none => v)))
  ∧ (∀ s : State, (setBase s []).flash = s.flash)
  ∧ (∀ (s : State) (bad : List Nat), s.atStep 5 = false → exec (.configSetApply bad) s = .next s)
/-- Sessions: setup (R55, R56, R459) and closing (R57, R58): the session's number is free; an owner's closing frees ownership.
Commands that complete here, on conditions on the state and operands alone: `hello`, `cert`, `finish`, `setupTimeout`,
`close`, `sessionIdleTimeout`. -/
def Obligations.SessionCommands : Prop :=
  -- HELLO: a reserved method, which is discarded and counted (R7), no session left, a pre-shared key, a certificate
  (∀ (s t : State) (i : RxItem) (bad : Bool), s.agentUp = true → s.agentBegin.nextRx = some (i, t) → t.fate i = .hello →
    let method := fieldN (frPayload i.frame) 0 1
    let full := 32 ≤ (t.ool.sessions.toList.filter fun x => x.isSome).length ∨ 32 ≤ t.ool.setups.length
    (method ≠ 1 → method ≠ 2 → exec (.hello bad) s = .next (t.bump Obj.ool_malformed))
    ∧ ((method = 1 ∨ method = 2) → full → exec (.hello bad) s = .next (t.refuseHello i stSessionLimit))
    ∧ (method = 1 → ¬full → Yields (.hello bad) s fun u => u.ool.setups.length = t.ool.setups.length + 1
        ∧ u.ool.sessions = t.ool.sessions ∧ u.obj = t.obj)
    ∧ (method = 2 → ¬full → t.bn.failed = true →
        Yields (.hello bad) s fun u => u.ool.setups = t.ool.setups ∧ u.ool.sessions = t.ool.sessions)
    ∧ (method = 2 → ¬full → bad = false → t.bn.failed = false → t.sec.storageOff = false → t.mode.cur ≠ .kiln → t.keySlot 0 ≠ none →
        pointOk 0 (t.random 32).1 (field (frPayload i.frame) 28 32) = true →
        Yields (.hello bad) s fun u => u.ool.setups.length = t.ool.setups.length + 1 ∧ u.ool.sessions = t.ool.sessions))
  ∧ (∀ (s : State) (bad : Bool), s.agentUp = false → exec (.hello bad) s = .next s ∧ exec .cert s = .next s ∧ exec .finish s = .next s)
  -- CERT: the chunk is laid at its offset and answered
  ∧ (∀ (s t : State) (i : RxItem) (x : Setup), s.agentUp = true → s.agentBegin.nextRx = some (i, t) → t.fate i = .setup x →
    frOpcode i.frame = 0x02 → 5 ≤ (frPayload i.frame).length →
    Yields .cert s fun u => u = t.runCert i x ∧ u.ool.sessions = t.ool.sessions ∧ ∃ y ∈ u.ool.setups, y.id = x.id ∧ y.key = x.key
      ∧ field y.chain (fieldN (frPayload i.frame) 0 4) ((frPayload i.frame).length - 4) = (frPayload i.frame).drop 4)
  -- FINISH: a proof that fails, an unknown psk_id's among them, ends the setup; so does a full table; a right one opens the
  -- lowest free session with the rights proved
  ∧ (∀ (s t : State) (i : RxItem) (x : Setup), s.agentUp = true → s.agentBegin.nextRx = some (i, t) → t.fate i = .setup x →
    frOpcode i.frame = 0x03 →
    ((∃ c, t.proofRights x (frPayload i.frame) = .error c) ∨ (List.finRange 32).find? (fun k => t.ool.sessions[k].isNone) = none) →
    Yields .finish s fun u => (∀ y ∈ u.ool.setups, y.id ≠ x.id) ∧ u.ool.sessions = t.ool.sessions)
  -- a setup's frame whose tag fails is discarded and counted, but for the FINISH of an unknown psk_id
  ∧ (∀ (t : State) (i : RxItem) (x : Setup), (frOpcode i.frame = 0x02 ∨ (frOpcode i.frame = 0x03 ∧ x.unknown = false)) →
    frTagOk (some x.key) i.frame = false → t.setupFate i x = .settled (t.bump Obj.ool_auth_fail))
  ∧ (∀ (s t : State) (i : RxItem) (x : Setup) (rights : Nat) (k : Fin 32), s.agentUp = true → s.agentBegin.nextRx = some (i, t) →
    t.fate i = .setup x → frOpcode i.frame = 0x03 → t.proofRights x (frPayload i.frame) = .ok rights →
    (List.finRange 32).find? (fun k => t.ool.sessions[k].isNone) = some k →
    Yields .finish s fun u => (∀ y ∈ u.ool.setups, y.id ≠ x.id)
      ∧ (∃ z, u.ool.sessions[k] = some z ∧ z.id = x.id ∧ z.key = x.key ∧ z.owner = bit rights 0 ∧ z.extended = bit rights 1
          ∧ z.path = x.path ∧ z.lastAt = t.now)
      ∧ ∀ j : Fin 32, j ≠ k → u.ool.sessions[j] = t.ool.sessions[j])
  -- SETUP_TIMEOUT: setups not finished within 5 s end, the others stay
  ∧ (∀ s : State, s.firmwareUp = true → Yields .setupTimeout s fun t =>
    t.ool.setups = (s.ool.setups.filter fun x => decide (s.now < x.startedAt + ticksS 5)) ∧ t.ool.sessions = s.ool.sessions)
  ∧ (∀ s : State, s.firmwareUp = false → exec .setupTimeout s = .next s)
  -- CLOSE
  ∧ (∀ (s t : State) (r : Req), Serving s 0x04 t r → exec .close s = .next ((t.reply r stOk []).closeSession r.k 0))
  ∧ (∀ (s : State) (k : Fin 32) (x : Session) (cause : Nat), Wf s → s.ool.sessions[k] = some x →
    (s.closeSession k cause).ool.sessions[k] = none
    ∧ (∀ j : Fin 32, j ≠ k → (s.closeSession k cause).ool.sessions[j] = s.ool.sessions[j])
    ∧ (s.owner = some k → Unowned s (s.closeSession k cause))
    ∧ (s.owner ≠ some k → (s.closeSession k cause).owner = s.owner ∧ (s.closeSession k cause).ool.txn = s.ool.txn))
  -- SESSION_IDLE_TIMEOUT closes the sessions without an accepted request for session_idle_timeout, and no other
  ∧ (∀ s : State, s.firmwareUp = true → Yields .sessionIdleTimeout s fun t => ∀ (k : Fin 32),
    (∀ x, s.ool.sessions[k] = some x → s.now < x.lastAt + ticksS (s.nn Obj.session_idle_timeout) → t.ool.sessions[k] = some x)
    ∧ (∀ x, s.ool.sessions[k] = some x → x.lastAt + ticksS (s.nn Obj.session_idle_timeout) ≤ s.now → t.ool.sessions[k] = none))
  ∧ (∀ s : State, s.firmwareUp = false → exec .sessionIdleTimeout s = .next s)

/-- The election (R58-R60): claims, the window's end, the lease.
Commands that complete here, on conditions on the state and operands alone: `claim`, `electionWindowEnd`, `heartbeat`,
`leaseExpiry`. -/
def Obligations.ElectionCommands : Prop :=
  -- CLAIM waits while an accepted commit, one scheduled whose time has come among them, has not taken effect (R59)
  (∀ s : State, s.commitOpen = true → exec .claim s = .next s)
  ∧ (∀ (s t : State) (r : Req), s.commitOpen = false → Serving s 0x30 t r →
    -- of a session without the owner-eligible right
    (t.eligible r.k = false → exec .claim s = .next (t.reply r stDenied []))
    -- FREE: a window of 200 ms opens; in an open window the claim joins it
    ∧ (Wf s → t.eligible r.k = true → t.nn Obj.owner_state < 2 → t.localAuth r.k = false →
      let c : Claimant :=
        { session := r.k, prio := fieldN r.payload 0 1, node := fieldN r.payload 8 8, seq := r.seq, path := r.path, hdr := r.hdr }
      Yields .claim s fun u => u.nn Obj.owner_state = 1
        ∧ (t.nn Obj.owner_state = 0 → u.ool.windowEnd = t.now + ticksMs 200 ∧ u.ool.claims = [c])
        ∧ (t.nn Obj.owner_state = 1 → u.ool.windowEnd = t.ool.windowEnd ∧ u.ool.claims = t.ool.claims ++ [c]))
    -- FREE, and (the model's choice, log entry 202) ELECTING: a session with local authority becomes owner at once (R60)
    ∧ (Wf s → t.eligible r.k = true → t.owner = none → t.localAuth r.k = true →
      Yields .claim s fun u => OwnedBy t u r.k (fieldN r.payload 0 1) (fieldN r.payload 8 8))
    -- HELD, the owner's own: its values are taken, the lease renewed, no change of owner
    ∧ (Wf s → t.eligible r.k = true → t.owner = some r.k →
      Yields .claim s fun u => u.owner = some r.k ∧ u.nn Obj.owner_priority = fieldN r.payload 0 1
        ∧ u.nn Obj.owner_node_id = fieldN r.payload 8 8 ∧ u.ool.leaseEnd = t.now + ticksS 3
        ∧ u.nn Obj.owner_epoch = t.nn Obj.owner_epoch ∧ u.ool.txn = t.ool.txn)
    ∧ (∀ o : Fin 32, t.eligible r.k = true → t.owner = some o → o ≠ r.k →
      -- HELD, strictly higher priority or local authority: the claimant becomes owner at once
      (Wf s → t.localAuth o = false → (t.localAuth r.k = true ∨ t.nn Obj.owner_priority < fieldN r.payload 0 1) →
        Yields .claim s fun u => OwnedBy t u r.k (fieldN r.payload 0 1) (fieldN r.payload 8 8))
      -- equal or lower priority: OWNER_HELD
      ∧ (t.localAuth r.k = false → fieldN r.payload 0 1 ≤ t.nn Obj.owner_priority → exec .claim s = .next (t.reply r stOwnerHeld []))
      -- an owner with local authority: OWNER_HELD to every other session
      ∧ (t.localAuth o = true → exec .claim s = .next (t.reply r stOwnerHeld []))))
  -- ELECTION_WINDOW_END: the best claim wins; no claim was better
  ∧ (∀ (s : State) (c : Claimant), Wf s → s.windowOver = true → bestClaim s.ool.claims = some c →
    Yields .electionWindowEnd s fun t => OwnedBy s t c.session c.prio c.node)
  ∧ (∀ (l : List Claimant) (c : Claimant), bestClaim l = some c → c ∈ l ∧ ∀ d ∈ l, d.prio < c.prio ∨ (d.prio = c.prio ∧ d.node ≤ c.node))
  ∧ (∀ s : State, Wf s → s.windowOver = true → s.ool.claims = [] → Yields .electionWindowEnd s fun t => t.nn Obj.owner_state = 0)
  ∧ (∀ s : State, s.windowOver = false → exec .electionWindowEnd s = .next s)
  -- HEARTBEAT of the owner renews the lease; of another session it is refused
  ∧ (∀ (s t : State) (r : Req), Serving s 0x31 t r →
    (t.owner = some r.k → Yields .heartbeat s fun u => u.ool.leaseEnd = t.now + ticksS 3 ∧ u.owner = some r.k ∧ u.obj = t.obj)
    ∧ (t.owner ≠ some r.k → exec .heartbeat s = .next (t.reply r stNotOwner [])))
  -- LEASE_EXPIRY at the lease's end, not before
  ∧ (∀ s : State, Wf s → s.firmwareUp = true → s.owner ≠ none → s.ool.leaseEnd ≤ s.now → Yields .leaseExpiry s fun t => Unowned s t)
  ∧ (∀ s : State, s.now < s.ool.leaseEnd → exec .leaseExpiry s = .next s)

/-- Handovers and release (R58, R59).
Commands that complete here, on conditions on the state and operands alone: `handover`, `confirm`, `handoverTimerExpiry`,
`release`. -/
def Obligations.HandoverCommands : Prop :=
  (∀ (s t : State) (r : Req), Serving s 0x32 t r →
    (t.owner ≠ some r.k → exec .handover s = .next (t.reply r stNotOwner []))
    ∧ (t.owner = some r.k → t.nn Obj.owner_state = 3 → exec .handover s = .next (t.reply r stHandover []))
    ∧ (t.owner = some r.k → t.nn Obj.owner_state = 2 → t.ool.txn.isSome = true → exec .handover s = .next (t.reply r stTxnOpen []))
    ∧ (t.owner = some r.k → t.nn Obj.owner_state = 2 → t.ool.txn = none → t.sessionOf (fieldN r.payload 0 4) = none →
      exec .handover s = .next (t.reply r stNoObject []))
    ∧ (∀ k x, t.owner = some r.k → t.nn Obj.owner_state = 2 → t.ool.txn = none → t.sessionOf (fieldN r.payload 0 4) = some (k, x) →
      (x.owner = false → exec .handover s = .next (t.reply r stDenied []))
      ∧ (x.owner = true → k = r.k → exec .handover s = .next (t.reply r stConsistency []))
      ∧ (x.owner = true → k ≠ r.k → Wf s → Yields .handover s fun u => u.nn Obj.owner_state = 3
          ∧ u.ool.successor = some (k, t.now + ticksS 1, x.id) ∧ u.owner = some r.k)))
  -- CONFIRM of the named successor; of any other session
  ∧ (∀ (s t : State) (r : Req), s.commitOpen = false → Serving s 0x33 t r →
    (Wf s → t.eligible r.k = true → t.isSuccessor r.k = true →
      Yields .confirm s fun u => OwnedBy t u r.k (fieldN r.payload 0 1) (fieldN r.payload 8 8))
    ∧ (t.isSuccessor r.k = false → exec .confirm s = .next (t.reply r stDenied [])))
  ∧ (∀ s : State, s.commitOpen = true → exec .confirm s = .next s)
  -- HANDOVER_TIMER_EXPIRY: the former owner stays the owner
  ∧ (∀ (s : State) (k : Fin 32) (at' id : Nat), Wf s → s.firmwareUp = true → s.ool.successor = some (k, at', id) →
    s.nn Obj.owner_state = 3 → at' ≤ s.now →
    Yields .handoverTimerExpiry s fun t => t.nn Obj.owner_state = 2 ∧ t.ool.successor = none ∧ t.owner = s.owner ∧ t.ool.txn = s.ool.txn)
  ∧ (∀ (s : State) (k : Fin 32) (at' id : Nat), s.ool.successor = some (k, at', id) → s.now < at' →
    exec .handoverTimerExpiry s = .next s)
  -- RELEASE
  ∧ (∀ (s t : State) (r : Req), Serving s 0x34 t r →
    (Wf s → t.owner = some r.k → Yields .release s fun u => Unowned t u)
    ∧ (t.owner ≠ some r.k → exec .release s = .next (t.reply r stNotOwner [])))

/-- Host SPI transactions (R447): writes into a queue of 16, malformed ones counted; the oldest device frame is read, and
counts as read when it was sent whole.
Commands that complete here, on conditions on the state and operands alone: `hostSpiWrite`, `hostSpiRead`. -/
def Obligations.HostSpiCommands : Prop :=
  (∀ (s : State) (b : Bytes), s.agentUp = true → 4 ≤ b.length → b[0]! = 0x5A → b[1]!.getLsbD 7 = false → fieldN b 2 2 + 4 = b.length →
    s.ool.spiQ.length < 16 →
    exec (.hostSpiWrite b) s = .next { s with ool := { s.ool with spiQ := s.ool.spiQ ++ [{ path := .spi, frame := b.drop 4 }] } })
  ∧ (∀ (s : State) (b : Bytes), s.agentUp = true → 4 ≤ b.length → b[0]! = 0x5A → b[1]!.getLsbD 7 = false → fieldN b 2 2 + 4 = b.length →
    s.ool.spiQ.length = 16 → exec (.hostSpiWrite b) s = .next s)
  ∧ (∀ (s : State) (b : Bytes), s.agentUp = true → (b.length < 4 ∨ b[0]! ≠ 0x5A ∨ b[1]!.getLsbD 7 = true ∨ fieldN b 2 2 + 4 ≠ b.length) →
    exec (.hostSpiWrite b) s = .next (s.bump Obj.ool_malformed))
  ∧ (∀ (s : State) (clocked : Nat) (f : Bytes) (rest : List Bytes), s.agentUp = true → s.ool.spiOut = f :: rest →
    (8 + f.length ≤ clocked → Yields (.hostSpiRead clocked) s fun t => t.ool.spiOut = rest
      ∧ t.ool.spiMiso = [0x5A, 0x80] ++ beNat 2 f.length ++ f ++ List.replicate (clocked - 8 - f.length) 0 ∧ t.obj = s.obj ∧ t.hspiInt = !rest.isEmpty)
    ∧ (clocked < 8 + f.length → Yields (.hostSpiRead clocked) s fun t => t.ool.spiOut = f :: rest ∧ t.hspiInt = true))
  ∧ (∀ (s : State) (clocked : Nat), s.agentUp = true → s.ool.spiOut = [] →
    exec (.hostSpiRead clocked) s = .next { s with ool := { s.ool with spiMiso := List.replicate (clocked - 4) 0 } })
  ∧ (∀ (s : State) (b : Bytes) (n : Nat), s.agentUp = false → exec (.hostSpiWrite b) s = .next s ∧ exec (.hostSpiRead n) s = .next s)
/-- The conditional flag (R46): a conditional commit, immediate or scheduled, never takes effect where the generation differs
from the expected one; where nothing else fails its status is GENERATION_MISMATCH.
Commands that complete here, on conditions on the state and operands alone: `commit`, `scheduledCommitExecute`. -/
def Obligations.ConditionalCommit : Prop :=
  -- immediate, after the scheduled commits that execute: bit 2 of the flags byte is the conditional flag, bit 0 asks for a
  -- scheduled commit
  (∀ (s t : State) (r : Req) (x : Txn), Serving s 0x21 t r → t.owns r = true → t.txnOf (fieldN r.payload 0 4) = some x →
    x.spoiled = false → bit (fieldN r.payload 4 1) 0 = false → bit (fieldN r.payload 4 1) 2 = true →
    let v := t.abortTxn.runDue
    (v.n Obj.generation ≠ (fieldN r.payload 8 8 : Int) →
      (Yields .commit s fun u => u.n Obj.generation = v.n Obj.generation ∧ u.outs = v.outs ∧ u.slots = v.slots ∧ u.flash = v.flash)
      ∧ (v.commitGate x.items x.bulk (fieldN r.payload 4 1) = stOk → v.rules x.items x.bulk (fieldN r.payload 4 1) = stOk →
        exec .commit s = .next (v.reply r stGeneration [])))
    ∧ (v.n Obj.generation = (fieldN r.payload 8 8 : Int) →
      v.commitGate x.items x.bulk (fieldN r.payload 4 1) = stOk → v.rules x.items x.bulk (fieldN r.payload 4 1) = stOk →
      exec .commit s = .next (v.commitApply r x.items x.bulk (fieldN r.payload 4 1) 0 (fieldN r.payload 8 8))))
  -- scheduled: at the instant of taking effect
  ∧ (∀ (s : State) (c : Sched), s.firmwareUp = true → s.sched = [c] → s.schedDue c = true → bit c.flags 2 = true →
    s.n Obj.generation ≠ (c.expected : Int) →
    let v : State := { s with sched := [] }
    (Yields .scheduledCommitExecute s fun u => u.n Obj.generation = s.n Obj.generation ∧ u.outs = s.outs ∧ u.slots = s.slots ∧ u.flash = s.flash)
    ∧ (v.sleeping c.items c.bulk = false → v.rules c.items c.bulk c.flags = stOk → v.schedStatus c = stGeneration))

/-- The checks of a READ or WRITE item in their order (R36, R23, R39, R430, R458). -/
def Obligations.ItemChecks : Prop :=
  -- an unused index or subindex; a sleeping domain; a bulk window
  (∀ (s : State) (own ext : Bool) (i sub ty : Nat) (b : Bytes), bulkRow i = none → objRow (objKey i sub) = none →
    (s.readItem ext i sub).1 = [0x01, 0, 0, 0] ∧ s.writeCheck own i sub ty b = (stNoObject, none))
  ∧ (∀ (s : State) (own ext : Bool) (i sub ty : Nat) (b : Bytes) (r : ObjRow), bulkRow i = none → objRow (objKey i sub) = some r →
    s.answers (r.domain i) = false →
    (s.readItem ext i sub).1 = [0x07, 0, 0, 0] ∧ s.writeCheck own i sub ty b = (stAsleep, none))
  ∧ (∀ (s : State) (own ext : Bool) (i ty : Nat) (b : Bytes) (w : BulkRow), bulkRow i = some w → s.answers w.dom = true →
    (s.readItem ext i 0).1 = [0x02, 0, 0, 0] ∧ s.recordStatus i = stDenied ∧ s.writeCheck own i 0 ty b = (stDenied, none))
  -- a read-only object is not written, whoever asks; a writable one by the owner alone
  ∧ (∀ (s : State) (own : Bool) (i sub ty : Nat) (b : Bytes) (r : ObjRow), bulkRow i = none → objRow (objKey i sub) = some r →
    s.answers (r.domain i) = true → (r.acc = .const ∨ r.acc = .ro ∨ r.acc = .rx) → s.writeCheck own i sub ty b = (stDenied, none))
  ∧ (∀ (s : State) (i sub ty : Nat) (b : Bytes) (r : ObjRow), bulkRow i = none → objRow (objKey i sub) = some r →
    s.answers (r.domain i) = true → (r.acc = .rw ∨ r.acc = .ow ∨ r.acc = .wo) →
    s.writeCheck false i sub ty b = (stNotOwner, none))
  -- index 0x0000 is unused
  ∧ ∀ sub < 256, objRow (objKey 0 sub) = none ∧ bulkRow 0 = none

/-- Rounding half to even (R11): the nearest integer to a quotient, the even one of two that are equally near. -/
def Obligations.RoundsHalfToEven : Prop :=
  ∀ (a : Int) (d : Nat), 0 < d →
    2 * (rneDiv a d * d - a).natAbs ≤ d ∧ (2 * (rneDiv a d * d - a).natAbs = d → rneDiv a d % 2 = 0)

/-- An instruction of one thread changes no other thread of any engine. -/
def Obligations.ThreadsAreIsolated : Prop :=
  ∀ (s u : State) (e e' : Fin 8) (t t' : Fin 16), ∀ p ∈ isaOps, p.1 ≠ 0x1B → exec (p.2 e t) s = .next u → (e', t') ≠ (e, t) →
    u.thread e' t' = s.thread e' t'

/-- The machine at the release of a power-on reset (R66, R71): mode STEEP, timing condition 0, the raw counter not running,
every domain but the keep island asleep, no session, no thread and no command; every object at its default (R15). -/
def Obligations.ResetValues : Prop :=
  State.reset.mode.cur = .steep ∧ State.reset.n Obj.timing_condition = 0 ∧ State.reset.tb.running = false
  ∧ (∀ d, 2 ≤ d → d ≤ 8 → State.reset.domState d = 0) ∧ State.reset.pending = [] ∧ State.reset.sched = []
  ∧ (∀ k : Fin 32, State.reset.ool.sessions[k] = none) ∧ (∀ (e : Fin 8) (t : Fin 16), (State.reset.thread e t).busy = false)
  ∧ (∀ k, State.reset.get k = objDefault k) ∧ State.reset.nn Obj.ool_udp_port = 43190 ∧ State.reset.nn Obj.owner_session = 255

/-- The canonical forms hold at reset. -/
def Obligations.ResetIsWellKept : Prop := Wf State.reset

/-- Every step keeps the canonical forms: the dictionary store lists rising keys, none at its default; the three memories list
rising addresses, none at 0. -/
def Obligations.StepKeepsWellKept : Prop := ∀ s t : State, Wf s → step s = .next t → Wf t

/-- No command touches the queue or elapsed time, and none gives back a free value or a random draw. -/
def Obligations.CommandFrame : Prop :=
  ∀ (c : Instr) (s t : State), exec c s = .next t →
    t.pending = s.pending ∧ t.now = s.now ∧ s.freeIdx ≤ t.freeIdx ∧ s.draws ≤ t.draws

/-- No command stops the machine: every command answers a next state, whatever the state. -/
def Obligations.NoCommandStops : Prop := ∀ (c : Instr) (s : State), ∃ t, exec c s = .next t
end

