-- ==== Sys2Proof/Laws/Banks.lean ====
section
/-! SUPPORT. Byte fields, configuration banks and the boot record: what is written to the boot flash is what is read from it. -/

namespace Sys2Proof.Machine

/-! ## Byte fields -/

@[simp] theorem beNat_length (w x : Nat) : (beNat w x).length = w := by
  induction w with
  | zero => rfl
  | succ w ih => simp [beNat, ih]

theorem ofBe_append_one (b : Bytes) (x : Byte) : ofBe (b ++ [x]) = ofBe b * 256 + x.toNat := by
  simp [ofBe, List.foldl_append]

theorem foldl_be (b : Bytes) (a : Nat) : b.foldl (fun a x => a * 256 + x.toNat) a = a * 256 ^ b.length + ofBe b := by
  induction b generalizing a with
  | nil => simp [ofBe]
  | cons x r ih =>
    simp only [List.foldl_cons, List.length_cons, ofBe]
    rw [ih, ih (0 * 256 + x.toNat)]
    ring

theorem ofBe_cons (x : Byte) (b : Bytes) : ofBe (x :: b) = x.toNat * 256 ^ b.length + ofBe b := by
  simp [ofBe, foldl_be b x.toNat]

theorem ofBe_beNat (w x : Nat) : ofBe (beNat w x) = x % 256 ^ w := by
  induction w with
  | zero => simp [beNat, ofBe, Nat.mod_one]
  | succ w ih =>
    have h : 2 ^ (8 * w) = 256 ^ w := by rw [Nat.pow_mul]
    have e : x % 256 ^ (w + 1) = x % 256 ^ w + 256 ^ w * (x / 256 ^ w % 256) := by rw [Nat.pow_succ, Nat.mod_mul]
    rw [beNat, ofBe_cons, ih, beNat_length, BitVec.toNat_ofNat, h, e, Nat.mul_comm, Nat.add_comm]

/-- A field read past a prefix of known length. -/
theorem field_append (a b : Bytes) (i n : Nat) : field (a ++ b) (a.length + i) n = field b i n := by
  simp [field, List.getD_eq_getElem?_getD, List.getElem?_append_right, Nat.add_assoc]

/-- A field that is a prefix. -/
theorem field_prefix (a b : Bytes) : field (a ++ b) 0 a.length = a := by
  apply List.ext_getElem
  · simp [field]
  · intro k h1 h2
    simp [field, List.getD_eq_getElem?_getD, List.getElem?_append_left h2, h2]

theorem field_append_zero (a b : Bytes) (n : Nat) : field (a ++ b) a.length n = field b 0 n := field_append a b 0 n

/-- A numeric field past a prefix. -/
theorem fieldN_append (a b : Bytes) {i k n : Nat} (h : i = a.length + k) : fieldN (a ++ b) i n = fieldN b k n := by
  subst h; simp [fieldN, field_append]

/-- A numeric field that holds a number of its width. -/
theorem fieldN_beNat (w x : Nat) (b : Bytes) (h : x < 256 ^ w) : fieldN (beNat w x ++ b) 0 w = x := by
  have := field_prefix (beNat w x) b
  rw [beNat_length] at this
  rw [fieldN, this, ofBe_beNat, Nat.mod_eq_of_lt h]

/-! ## CRC-32C -/

theorem crcBit_lt (k c : Nat) (h : c < 2 ^ 32) : crcBit k c < 2 ^ 32 := by
  induction k generalizing c with
  | zero => exact h
  | succ k ih =>
    apply ih
    split
    · exact Nat.xor_lt_two_pow (by omega) (by decide)
    · omega

theorem crc32c_lt (b : Bytes) : crc32c b < 256 ^ 4 := by
  have h : ∀ (b : Bytes) (c : Nat), c < 2 ^ 32 → b.foldl (fun c x => crcBit 8 (c ^^^ x.toNat)) c < 2 ^ 32 := by
    intro b
    induction b with
    | nil => exact fun c h => h
    | cons x r ih =>
      intro c h
      exact ih _ (crcBit_lt _ _ (Nat.xor_lt_two_pow h (lt_trans x.isLt (by decide))))
  exact Nat.xor_lt_two_pow (h b _ (by decide)) (by decide)

/-! ## Records -/

theorem CfgRecord.bytes_length (r : CfgRecord) : r.bytes.length = 8 + r.value.length := by
  simp [CfgRecord.bytes]; omega

/-- A record is read back from the front of its bytes. -/
theorem cfgRecords_cons (fuel : Nat) (r : CfgRecord) (rest : Bytes) (hk : r.key < 2 ^ 24) (ht : r.ty < 256) (hf : r.flags < 256)
    (hv : r.value.length < 65536) :
    cfgRecords (fuel + 1) (r.bytes ++ rest) = (r :: (cfgRecords fuel rest).1, (cfgRecords fuel rest).2) := by
  have e : r.bytes ++ rest = beNat 2 (r.key / 256) ++ (beNat 1 (r.key % 256) ++ (beNat 1 r.ty ++ (beNat 1 r.flags ++ ([0]
      ++ (beNat 2 r.value.length ++ (r.value ++ rest)))))) := by simp [CfgRecord.bytes]
  have h0 : fieldN (r.bytes ++ rest) 0 2 = r.key / 256 := by rw [e]; exact fieldN_beNat _ _ _ (by omega)
  have h2 : fieldN (r.bytes ++ rest) 2 1 = r.key % 256 := by
    rw [e, fieldN_append (k := 0) _ _ (by simp)]; exact fieldN_beNat _ _ _ (by omega)
  have h3 : fieldN (r.bytes ++ rest) 3 1 = r.ty := by
    rw [e, fieldN_append (k := 1) _ _ (by simp), fieldN_append (k := 0) _ _ (by simp)]; exact fieldN_beNat _ _ _ (by omega)
  have h4 : fieldN (r.bytes ++ rest) 4 1 = r.flags := by
    rw [e, fieldN_append (k := 2) _ _ (by simp), fieldN_append (k := 1) _ _ (by simp), fieldN_append (k := 0) _ _ (by simp)]
    exact fieldN_beNat _ _ _ (by omega)
  have h6 : fieldN (r.bytes ++ rest) 6 2 = r.value.length := by
    rw [e, fieldN_append (k := 4) _ _ (by simp), fieldN_append (k := 3) _ _ (by simp), fieldN_append (k := 2) _ _ (by simp),
      fieldN_append (k := 1) _ _ (by simp), fieldN_append (k := 0) _ _ (by simp)]
    exact fieldN_beNat _ _ _ (by omega)
  have hd : (r.bytes ++ rest).drop (8 + r.value.length) = rest := by rw [← r.bytes_length, List.drop_left]
  have hw : (r.bytes ++ rest).drop 8 = r.value ++ rest := by
    have : r.bytes ++ rest = (beNat 2 (r.key / 256) ++ beNat 1 (r.key % 256) ++ beNat 1 r.ty ++ beNat 1 r.flags ++ [0]
        ++ beNat 2 r.value.length) ++ (r.value ++ rest) := by simp [CfgRecord.bytes]
    rw [this, List.drop_left' (by simp)]
  have hn : (r.bytes ++ rest).isEmpty = false := by
    have := r.bytes_length
    rw [List.isEmpty_eq_false_iff, ← List.length_pos_iff]; simp; omega
  have hk' : objKey (r.key / 256) (r.key % 256) = r.key := by unfold objKey; omega
  simp only [cfgRecords, hn, h0, h2, h3, h4, h6, hd, hw, hk', List.take_left]
  simp

theorem cfgRecords_of_bytes (l : List CfgRecord) (n : Nat) (hn : (l.flatMap CfgRecord.bytes).length ≤ n)
    (h : ∀ r ∈ l, r.key < 2 ^ 24 ∧ r.ty < 256 ∧ r.flags < 256 ∧ r.value.length < 65536) :
    cfgRecords n (l.flatMap CfgRecord.bytes) = (l, true) := by
  induction l generalizing n with
  | nil => cases n <;> simp [cfgRecords]
  | cons r l ih =>
    have hr := h r (by simp)
    have hb := r.bytes_length
    rw [List.flatMap_cons, List.length_append] at hn
    obtain ⟨m, rfl⟩ : ∃ m, n = m + 1 := ⟨n - 1, by omega⟩
    rw [List.flatMap_cons, cfgRecords_cons m r _ hr.1 hr.2.1 hr.2.2.1 hr.2.2.2, ih m (by omega) fun x hx => h x (by simp [hx])]

/-! ## Banks -/

/-- The header of a set: 28 bytes. -/
theorem CfgSet.image_eq (c : CfgSet) : ∃ head, head.length = 28 ∧ c.image = head ++ (beNat 4 (crc32c head)
    ++ (List.replicate 4064 0 ++ (c.records.flatMap CfgRecord.bytes ++ beNat 4 (crc32c (c.records.flatMap CfgRecord.bytes)))))
    ∧ head = beNat 4 0x43464753 ++ (beNat 4 c.sequence ++ (beNat 8 c.generation
      ++ (beNat 4 (c.records.flatMap CfgRecord.bytes).length ++ List.replicate 8 0))) := by
  refine ⟨_, ?_, ?_, rfl⟩
  · simp
  · simp [CfgSet.image, -List.reduceReplicate]

/-- The set written to a bank passes its checks and is the set read from it. -/
theorem CfgSet.set_bank (c : CfgSet) (h : c.fits = true) : c.bank.set = some c := by
  simp only [CfgSet.fits, Bool.and_eq_true, decide_eq_true_eq, List.all_eq_true] at h
  obtain ⟨⟨⟨hs, hg⟩, hl⟩, hr⟩ := h
  obtain ⟨head, hlen, him, hh⟩ := c.image_eq
  generalize hb : c.records.flatMap CfgRecord.bytes = body at *
  have f0 : fieldN c.image 0 4 = 0x43464753 := by
    rw [him, hh, List.append_assoc]; exact fieldN_beNat _ _ _ (by decide)
  have f4 : fieldN c.image 4 4 = c.sequence := by
    rw [him, hh, List.append_assoc, fieldN_append (k := 0) _ _ (by simp), List.append_assoc]
    exact fieldN_beNat _ _ _ (by omega)
  have f8 : fieldN c.image 8 8 = c.generation := by
    rw [him, hh, List.append_assoc, fieldN_append (k := 4) _ _ (by simp), List.append_assoc, fieldN_append (k := 0) _ _ (by simp),
      List.append_assoc]
    exact fieldN_beNat _ _ _ (by omega)
  have f16 : fieldN c.image 16 4 = body.length := by
    rw [him, hh, List.append_assoc, fieldN_append (k := 12) _ _ (by simp), List.append_assoc, fieldN_append (k := 8) _ _ (by simp),
      List.append_assoc, fieldN_append (k := 0) _ _ (by simp), List.append_assoc]
    exact fieldN_beNat _ _ _ (by omega)
  have f28 : fieldN c.image 28 4 = crc32c head := by
    rw [him, fieldN_append (k := 0) _ _ (by simp [hlen])]
    exact fieldN_beNat _ _ _ (crc32c_lt head)
  have fh : field c.image 0 28 = head := by
    rw [him, ← hlen]; exact field_prefix _ _
  have d : c.image.drop 4096 = body ++ beNat 4 (crc32c body) := by
    have : c.image = (head ++ beNat 4 (crc32c head) ++ List.replicate 4064 0) ++ (body ++ beNat 4 (crc32c body)) := by
      simp [him, -List.reduceReplicate]
    rw [this, List.drop_left' (by simp [hlen, -List.reduceReplicate])]
  have hbody : cfgBody c.image = body := by rw [cfgBody, d, f16, List.take_left]
  have hd2 : fieldN (c.image.drop (4096 + body.length)) 0 4 = crc32c body := by
    rw [← List.drop_drop, d, List.drop_left]
    have := fieldN_beNat 4 (crc32c body) [] (crc32c_lt body)
    simpa using this
  have hlen2 : 4100 + body.length ≤ c.image.length := by simp [him, hlen, -List.reduceReplicate]; omega
  have hrec : cfgRecords body.length body = (c.records, true) := by
    rw [← hb]
    exact cfgRecords_of_bytes _ _ (le_refl _) fun r hx => by
      have := hr r hx
      exact ⟨this.1.1.1, this.1.1.2, this.1.2, this.2⟩
  have h1 : headerOk c.image = true := by simp [headerOk, f0, f16, f28, fh, hl]
  have h2 : bodyOk c.image = true := by simp only [bodyOk, f16, hbody, hd2]; simp [hlen2]
  simp [CfgBank.set, CfgSet.bank, h1, h2, f4, f8, f16, hbody, hrec]

/-- An erased bank holds no set. -/
@[simp] theorem CfgBank.set_erased : ({} : CfgBank).set = none := by decide

/-! ## Copies of the boot record and the orbit area (R375) -/

/-- A copy that was written passes its CRC and carries what was written. -/
theorem copyOf_copyBytes (n : Nat) (c : Bytes) (h : n < 2 ^ 32) : copyOf (copyBytes n c) = some (n, c) := by
  have hl : (copyBytes n c).length - 4 = (beNat 4 n ++ c).length := by simp [copyBytes]; omega
  have h8 : 8 ≤ (copyBytes n c).length := by simp [copyBytes]; omega
  have hd : (copyBytes n c).drop (beNat 4 n ++ c).length = beNat 4 (crc32c (beNat 4 n ++ c)) := List.drop_left
  have ht : (copyBytes n c).take (beNat 4 n ++ c).length = beNat 4 n ++ c := List.take_left
  have hc : fieldN (beNat 4 (crc32c (beNat 4 n ++ c))) 0 4 = crc32c (beNat 4 n ++ c) := by
    simpa using fieldN_beNat 4 _ [] (crc32c_lt (beNat 4 n ++ c))
  have hn : fieldN (copyBytes n c) 0 4 = n := by
    rw [copyBytes, List.append_assoc]; exact fieldN_beNat 4 n _ (by omega)
  have hx : (beNat 4 n ++ c).drop 4 = c := List.drop_left' (by simp)
  simp only [copyOf, hl, hd, ht, hc, hn, hx]
  simp [h8]

/-- The copy in force after a write carries what was written, as long as the sequence has not reached its end. -/
theorem copyInForce_writeCopy (a b c : Bytes) (h : ∀ k n x, copyInForce a b = some (k, n, x) → n + 1 < 2 ^ 32) :
    ∃ k n, copyInForce (writeCopy a b c).1 (writeCopy a b c).2 = some (k, n, c) := by
  unfold writeCopy
  cases hf : copyInForce a b with
  | none =>
    refine ⟨false, 1, ?_⟩
    have hb : copyOf b = none := by
      unfold copyInForce at hf; split at hf <;> first | assumption | cases hf | (split at hf <;> cases hf)
    simp [copyInForce, copyOf_copyBytes, hb]
  | some p =>
    obtain ⟨k, n, x⟩ := p
    have hn := h k n x hf
    have e : (n + 1) % 2 ^ 32 = n + 1 := Nat.mod_eq_of_lt hn
    cases k with
    | true =>
      refine ⟨false, n + 1, ?_⟩
      have hb : copyOf b = some (n, x) := by
        unfold copyInForce at hf
        split at hf
        · split at hf <;> simp_all
        · simp at hf
        · simp_all
        · cases hf
      simp only [e, copyInForce, copyOf_copyBytes _ _ hn, hb]
      simp
    | false =>
      refine ⟨true, n + 1, ?_⟩
      have ha : copyOf a = some (n, x) := by
        unfold copyInForce at hf
        split at hf
        · split at hf <;> simp_all
        · simp_all
        · simp at hf
        · cases hf
      simp only [e, copyInForce, copyOf_copyBytes _ _ hn, ha]
      simp

/-- The boot record reads what was written to it. -/
theorem Flash.boot_setBoot (f : Flash) (bank : Nat) (trial : Bool) (hb : bank < 2)
    (h : ∀ k n x, copyInForce f.bootA f.bootB = some (k, n, x) → n + 1 < 2 ^ 32) :
    (f.setBoot bank trial).boot = { bank, trial } := by
  obtain ⟨k, n, e⟩ := copyInForce_writeCopy f.bootA f.bootB (beNat 1 bank ++ beNat 1 (if trial then 1 else 0)) h
  have h0 : fieldN (beNat 1 bank ++ beNat 1 (if trial then 1 else 0)) 0 1 = bank := fieldN_beNat 1 bank _ (by omega)
  have h1 : fieldN (beNat 1 bank ++ beNat 1 (if trial then 1 else 0)) 1 1 = if trial then 1 else 0 := by
    rw [fieldN_append (k := 0) _ _ (by simp)]
    simpa using fieldN_beNat 1 (if trial then 1 else 0) [] (by split <;> decide)
  show (match copyInForce (writeCopy _ _ _).1 (writeCopy _ _ _).2 with | some (_, _, c) => _ | none => _ : BootRecord) = _
  rw [e]
  simp only [h0, h1]
  cases trial <;> simp [Nat.mod_eq_of_lt hb, bit]

end Sys2Proof.Machine
end

