-- ==== Sys2Proof/Laws/Store.lean ====
section
/-! SUPPORT. The dictionary store and the memories: reading what was written, the canonical forms. -/

namespace Sys2Proof.Machine

/-! ## The store -/

theorem storeGet_del_ne (l : List (Nat × Val)) {a b : Nat} (h : a ≠ b) : storeGet (storeDel l b) a = storeGet l a := by
  induction l with
  | nil => rfl
  | cons p r ih =>
    obtain ⟨k, v⟩ := p
    by_cases hk : k = b
    · simp [storeDel, storeGet, hk, Ne.symm h]
    · simp [storeDel, storeGet, hk, ih]

theorem storeGet_ins_same (l : List (Nat × Val)) (a : Nat) (x : Val) : storeGet (storeIns l a x) a = some x := by
  induction l with
  | nil => simp [storeIns, storeGet]
  | cons p r ih =>
    obtain ⟨k, v⟩ := p
    by_cases h1 : a < k
    · simp [storeIns, storeGet, h1]
    · by_cases h2 : k = a
      · simp [storeIns, storeGet, h2]
      · simp [storeIns, storeGet, h1, h2, ih]

theorem storeGet_ins_ne (l : List (Nat × Val)) {a b : Nat} (x : Val) (h : a ≠ b) :
    storeGet (storeIns l b x) a = storeGet l a := by
  induction l with
  | nil => simp [storeIns, storeGet, Ne.symm h]
  | cons p r ih =>
    obtain ⟨k, v⟩ := p
    by_cases h1 : b < k
    · simp [storeIns, storeGet, h1, Ne.symm h]
    · by_cases h2 : k = b
      · simp [storeIns, storeGet, h2, Ne.symm h]
      · by_cases h3 : k = a
        · subst h3; simp [storeIns, storeGet, h1, h2]
        · simp [storeIns, storeGet, h1, h2, h3, ih]

/-- Writing one key leaves the entry of every other. -/
theorem storeGet_put_ne (l : List (Nat × Val)) {a b : Nat} (x : Val) (h : a ≠ b) : storeGet (storePut l b x) a = storeGet l a := by
  unfold storePut
  split
  · exact storeGet_del_ne l h
  · exact storeGet_ins_ne l x h

/-- Every listed key is above a bound. -/
def storeAbove (lo : Nat) (l : List (Nat × Val)) : Prop := ∀ p ∈ l, lo < p.1

theorem storeWf_cons {k : Nat} {v : Val} {r : List (Nat × Val)} :
    storeWf ((k, v) :: r) = true ↔ (v ≠ objDefault k ∧ storeAbove k r ∧ storeWf r = true) := by
  induction r generalizing k v with
  | nil => simp [storeWf, storeAbove]
  | cons p q ih =>
    obtain ⟨a, b⟩ := p
    have := @ih a b
    simp only [storeWf, storeAbove, Bool.and_eq_true, bne_iff_ne, decide_eq_true_eq, List.mem_cons, forall_eq_or_imp] at *
    constructor
    · rintro ⟨⟨h1, h2⟩, h3⟩
      refine ⟨h2, ⟨h1, ?_⟩, h3⟩
      intro p hp
      exact lt_trans h1 ((this.mp h3).2.1 p hp)
    · rintro ⟨h1, ⟨h2, _⟩, h4⟩
      exact ⟨⟨h2, h1⟩, h4⟩

theorem storeGet_above (l : List (Nat × Val)) {a : Nat} (h : storeAbove a l) : storeGet l a = none := by
  induction l with
  | nil => rfl
  | cons p r ih =>
    obtain ⟨k, v⟩ := p
    have hk : a < k := h (k, v) (by simp)
    simp [storeGet, Nat.ne_of_gt hk, ih fun q hq => h q (by simp [hq])]

/-- In a canonical store a deleted key is absent. -/
theorem storeGet_del_same {l : List (Nat × Val)} (h : storeWf l = true) (a : Nat) : storeGet (storeDel l a) a = none := by
  induction l with
  | nil => rfl
  | cons p r ih =>
    obtain ⟨k, v⟩ := p
    obtain ⟨_, h2, h3⟩ := storeWf_cons.mp h
    by_cases hk : k = a
    · subst hk; simp [storeDel, storeGet_above r h2]
    · simp [storeDel, storeGet, hk, ih h3]

/-- In a canonical store a written value is read back. -/
theorem storeGet_put_same {l : List (Nat × Val)} (h : storeWf l = true) (a : Nat) (x : Val) :
    (storeGet (storePut l a x) a).getD (objDefault a) = x := by
  unfold storePut
  split
  · next hx => simp [storeGet_del_same h, hx]
  · simp [storeGet_ins_same]

theorem storeAbove_del {l : List (Nat × Val)} {lo : Nat} (a : Nat) (h : storeAbove lo l) : storeAbove lo (storeDel l a) := by
  induction l with
  | nil => exact h
  | cons p r ih =>
    obtain ⟨k, v⟩ := p
    have hr : storeAbove lo r := fun q hq => h q (by simp [hq])
    by_cases hk : k = a
    · simpa [storeDel, hk] using hr
    · intro q hq
      simp only [storeDel, hk, if_false, List.mem_cons] at hq
      rcases hq with rfl | hq
      · exact h _ (by simp)
      · exact ih hr q hq

theorem storeAbove_ins {l : List (Nat × Val)} {lo a : Nat} (x : Val) (h : storeAbove lo l) (ha : lo < a) :
    storeAbove lo (storeIns l a x) := by
  induction l with
  | nil => intro q hq; simp only [storeIns, List.mem_singleton] at hq; subst hq; exact ha
  | cons p r ih =>
    obtain ⟨k, v⟩ := p
    have hk : lo < k := h (k, v) (by simp)
    have hr : storeAbove lo r := fun q hq => h q (by simp [hq])
    unfold storeIns
    split
    · intro q hq; simp only [List.mem_cons] at hq
      rcases hq with rfl | rfl | hq
      · exact ha
      · exact hk
      · exact hr q hq
    · split
      · intro q hq; simp only [List.mem_cons] at hq
        rcases hq with rfl | hq
        · exact ha
        · exact hr q hq
      · intro q hq; simp only [List.mem_cons] at hq
        rcases hq with rfl | hq
        · exact hk
        · exact ih hr q hq

theorem storeWf_del {l : List (Nat × Val)} (a : Nat) (h : storeWf l = true) : storeWf (storeDel l a) = true := by
  induction l with
  | nil => exact h
  | cons p r ih =>
    obtain ⟨k, v⟩ := p
    obtain ⟨h1, h2, h3⟩ := storeWf_cons.mp h
    unfold storeDel
    split
    · exact h3
    · exact storeWf_cons.mpr ⟨h1, storeAbove_del a h2, ih h3⟩

theorem storeWf_ins {l : List (Nat × Val)} {a : Nat} {x : Val} (hx : x ≠ objDefault a) (h : storeWf l = true) :
    storeWf (storeIns l a x) = true := by
  induction l with
  | nil => simp [storeIns, storeWf, hx]
  | cons p r ih =>
    obtain ⟨k, v⟩ := p
    obtain ⟨h1, h2, h3⟩ := storeWf_cons.mp h
    unfold storeIns
    split
    · next hlt =>
      refine storeWf_cons.mpr ⟨hx, ?_, h⟩
      intro q hq; simp only [List.mem_cons] at hq
      rcases hq with rfl | hq
      · exact hlt
      · exact lt_trans hlt (h2 q hq)
    · split
      · next hk => subst hk; exact storeWf_cons.mpr ⟨hx, h2, h3⟩
      · next hn hk => exact storeWf_cons.mpr ⟨h1, storeAbove_ins x h2 (by omega), ih h3⟩

/-- A write keeps the canonical form of the store. -/
theorem storeWf_put {l : List (Nat × Val)} (a : Nat) (x : Val) (h : storeWf l = true) : storeWf (storePut l a x) = true := by
  unfold storePut
  split
  · exact storeWf_del a h
  · next hx => exact storeWf_ins hx h

/-- Dropping entries keeps the canonical form. -/
theorem storeWf_filter {l : List (Nat × Val)} (p : Nat × Val → Bool) (h : storeWf l = true) : storeWf (l.filter p) = true := by
  induction l with
  | nil => exact h
  | cons q r ih =>
    obtain ⟨k, v⟩ := q
    obtain ⟨h1, h2, h3⟩ := storeWf_cons.mp h
    simp only [List.filter_cons]
    split
    · refine storeWf_cons.mpr ⟨h1, ?_, ih h3⟩
      intro q hq
      exact h2 q (List.mem_filter.mp hq).1
    · exact ih h3

/-! ## The memories -/

/-- Every listed address is at or above a bound. -/
def memAbove (lo : Option Nat) (m : Memory) : Prop := ∀ l, lo = some l → ∀ p ∈ m, l < p.1

theorem memWfFrom_cons {lo : Option Nat} {a : Nat} {b : Byte} {r : Memory} :
    memWfFrom lo ((a, b) :: r) = true ↔ ((∀ l, lo = some l → l < a) ∧ b ≠ 0 ∧ memWfFrom (some a) r = true) := by
  cases lo <;> simp [memWfFrom, and_assoc]

theorem memWfFrom_mono {lo hi : Option Nat} {m : Memory} (h : memWfFrom hi m = true)
    (hl : ∀ l, lo = some l → ∃ u, hi = some u ∧ l ≤ u) : memWfFrom lo m = true := by
  cases m with
  | nil => simp [memWfFrom]
  | cons p r =>
    obtain ⟨a, b⟩ := p
    obtain ⟨h1, h2, h3⟩ := memWfFrom_cons.mp h
    refine memWfFrom_cons.mpr ⟨fun l hh => ?_, h2, h3⟩
    obtain ⟨u, hu, hle⟩ := hl l hh
    exact lt_of_le_of_lt hle (h1 u hu)

theorem memWfFrom_del {lo : Option Nat} {m : Memory} (x : Nat) (h : memWfFrom lo m = true) : memWfFrom lo (memDel m x) = true := by
  induction m generalizing lo with
  | nil => simp [memDel, memWfFrom]
  | cons p r ih =>
    obtain ⟨a, b⟩ := p
    obtain ⟨h1, h2, h3⟩ := memWfFrom_cons.mp h
    unfold memDel
    split
    · exact memWfFrom_mono h3 fun l hl => ⟨a, rfl, le_of_lt (h1 l hl)⟩
    · exact memWfFrom_cons.mpr ⟨h1, h2, ih h3⟩

theorem memWfFrom_ins {lo : Option Nat} {m : Memory} {x : Nat} {v : Byte} (hv : v ≠ 0) (hx : ∀ l, lo = some l → l < x)
    (h : memWfFrom lo m = true) : memWfFrom lo (memIns m x v) = true := by
  induction m generalizing lo with
  | nil => exact memWfFrom_cons.mpr ⟨hx, hv, by simp [memWfFrom]⟩
  | cons p r ih =>
    obtain ⟨a, b⟩ := p
    obtain ⟨h1, h2, h3⟩ := memWfFrom_cons.mp h
    unfold memIns
    split
    · next hlt => exact memWfFrom_cons.mpr ⟨hx, hv, memWfFrom_cons.mpr ⟨fun l hl => by cases hl; exact hlt, h2, h3⟩⟩
    · split
      · next heq => subst heq; exact memWfFrom_cons.mpr ⟨hx, hv, h3⟩
      · next hn he => exact memWfFrom_cons.mpr ⟨h1, h2, ih (fun l hl => by cases hl; omega) h3⟩

/-- A byte's write keeps the canonical form. -/
theorem memWf_put {m : Memory} (x : Nat) (v : Byte) (h : memWf m = true) : memWf (memPut m x v) = true := by
  unfold memPut memWf
  split
  · exact memWfFrom_del x h
  · next hv => exact memWfFrom_ins hv (fun l hl => by cases hl) h

/-- A range's write keeps the canonical form. -/
theorem memWf_write {m : Memory} (x : Nat) (b : Bytes) (h : memWf m = true) : memWf (memWrite m x b) = true := by
  induction b generalizing m x with
  | nil => exact h
  | cons v r ih => exact ih (x + 1) (memWf_put x v h)

theorem memGet_del_ne (m : Memory) {x y : Nat} (h : x ≠ y) : memGet (memDel m y) x = memGet m x := by
  induction m with
  | nil => rfl
  | cons p r ih =>
    obtain ⟨a, b⟩ := p
    by_cases ha : a = y
    · simp [memDel, memGet, ha, Ne.symm h]
    · simp [memDel, memGet, ha, ih]

theorem memGet_ins_ne (m : Memory) {x y : Nat} (v : Byte) (h : x ≠ y) : memGet (memIns m y v) x = memGet m x := by
  induction m with
  | nil => simp [memIns, memGet, Ne.symm h]
  | cons p r ih =>
    obtain ⟨a, b⟩ := p
    by_cases h1 : y < a
    · simp [memIns, memGet, h1, Ne.symm h]
    · by_cases h2 : a = y
      · simp [memIns, memGet, h2, Ne.symm h]
      · by_cases h3 : a = x
        · subst h3; simp [memIns, memGet, h1, h2]
        · simp [memIns, memGet, h1, h2, h3, ih]

/-- A byte's write leaves every other byte. -/
theorem memGet_put_ne (m : Memory) {x y : Nat} (v : Byte) (h : x ≠ y) : memGet (memPut m y v) x = memGet m x := by
  unfold memPut
  split
  · exact memGet_del_ne m h
  · exact memGet_ins_ne m v h

/-- A range's write leaves every byte outside it. -/
theorem memGet_write_out (b : Bytes) {m : Memory} {x y : Nat} (h : x < y ∨ y + b.length ≤ x) :
    memGet (memWrite m y b) x = memGet m x := by
  induction b generalizing m y with
  | nil => rfl
  | cons v r ih =>
    simp only [List.length_cons] at h
    simp only [memWrite]
    rw [ih (by omega), memGet_put_ne m v (by omega)]

theorem memGet_above {m : Memory} {a : Nat} (h : memWfFrom (some a) m = true) : memGet m a = 0 := by
  have : ∀ lo m, a ≤ lo → memWfFrom (some lo) m = true → memGet m a = 0 := by
    intro lo m hle
    induction m generalizing lo with
    | nil => intro _; rfl
    | cons p r ih =>
      obtain ⟨k, v⟩ := p
      intro hw
      obtain ⟨h1, _, h3⟩ := memWfFrom_cons.mp hw
      have hk := h1 lo rfl
      have hne : k ≠ a := by omega
      simp [memGet, hne, ih k (by omega) h3]
  exact this a m (Nat.le_refl a) h

theorem memGet_del_same {lo : Option Nat} {m : Memory} (x : Nat) (h : memWfFrom lo m = true) : memGet (memDel m x) x = 0 := by
  induction m generalizing lo with
  | nil => rfl
  | cons p r ih =>
    obtain ⟨a, b⟩ := p
    obtain ⟨_, _, h3⟩ := memWfFrom_cons.mp h
    by_cases ha : a = x
    · subst ha; simp [memDel, memGet_above h3]
    · simp [memDel, memGet, ha, ih h3]

theorem memGet_ins_same (m : Memory) (x : Nat) (v : Byte) : memGet (memIns m x v) x = v := by
  induction m with
  | nil => simp [memIns, memGet]
  | cons p r ih =>
    obtain ⟨a, b⟩ := p
    by_cases h1 : x < a
    · simp [memIns, memGet, h1]
    · by_cases h2 : a = x
      · simp [memIns, memGet, h2]
      · simp [memIns, memGet, h1, h2, ih]

/-- In a canonical memory a written byte is read back. -/
theorem memGet_put_same {m : Memory} (x : Nat) (v : Byte) (h : memWf m = true) : memGet (memPut m x v) x = v := by
  unfold memPut
  split
  · next hv => rw [memGet_del_same x h, hv]
  · exact memGet_ins_same m x v

/-! ## Objects -/

/-- A write leaves every other object. -/
theorem State.get_put_ne (s : State) {a b : Nat} (x : Val) (h : a ≠ b) : (s.put b x).get a = s.get a := by
  simp [State.get, State.put, storeGet_put_ne s.obj x h]

/-- A written object reads as written, in a canonical store. -/
theorem State.get_put_same {s : State} (h : storeWf s.obj = true) (a : Nat) (x : Val) : (s.put a x).get a = x := by
  simp [State.get, State.put, storeGet_put_same h]

theorem State.get_putN_ne (s : State) {a b : Nat} (x : Int) (h : a ≠ b) : (s.putN b x).get a = s.get a := s.get_put_ne _ h

theorem State.get_putB_ne (s : State) {a b : Nat} (x : Bool) (h : a ≠ b) : (s.putB b x).get a = s.get a := s.get_put_ne _ h

theorem State.get_putO_ne (s : State) {a b : Nat} (x : Bytes) (h : a ≠ b) : (s.putO b x).get a = s.get a := s.get_put_ne _ h

theorem State.n_putN_same {s : State} (h : storeWf s.obj = true) (a : Nat) (x : Int) : (s.putN a x).n a = x := by
  simp [State.n, State.putN, State.get_put_same h]

theorem State.n_putN_ne (s : State) {a b : Nat} (x : Int) (h : a ≠ b) : (s.putN b x).n a = s.n a := by
  simp [State.n, State.get_putN_ne s x h]

theorem State.flag_putB_same {s : State} (h : storeWf s.obj = true) (a : Nat) (x : Bool) : (s.putB a x).flag a = x := by
  cases x <;> simp [State.flag, State.n, State.putB, State.get_put_same h]

theorem State.octs_putO_same {s : State} (h : storeWf s.obj = true) (a : Nat) (x : Bytes) : (s.putO a x).octs a = x := by
  simp [State.octs, State.putO, State.get_put_same h]

end Sys2Proof.Machine
end

