-- ==== Sys2Proof/Laws/State.lean ====
section
/-! SUPPORT. What each update of the state leaves alone: one lemma per field and update, so that no proof unfolds a record
update. -/

namespace Sys2Proof.Machine

@[simp] theorem State.put_pending (s : State) (key : Nat) (x : Val) : (s.put key x).pending = s.pending := rfl
@[simp] theorem State.put_now (s : State) (key : Nat) (x : Val) : (s.put key x).now = s.now := rfl
@[simp] theorem State.put_freeIdx (s : State) (key : Nat) (x : Val) : (s.put key x).freeIdx = s.freeIdx := rfl
@[simp] theorem State.put_draws (s : State) (key : Nat) (x : Val) : (s.put key x).draws = s.draws := rfl
@[simp] theorem State.put_obj (s : State) (key : Nat) (x : Val) : (s.put key x).obj = storePut s.obj key x := rfl
@[simp] theorem State.put_tb (s : State) (key : Nat) (x : Val) : (s.put key x).tb = s.tb := rfl
@[simp] theorem State.put_journal (s : State) (key : Nat) (x : Val) : (s.put key x).journal = s.journal := rfl
@[simp] theorem State.put_mode (s : State) (key : Nat) (x : Val) : (s.put key x).mode = s.mode := rfl
@[simp] theorem State.put_keep (s : State) (key : Nat) (x : Val) : (s.put key x).keep = s.keep := rfl
@[simp] theorem State.put_slots (s : State) (key : Nat) (x : Val) : (s.put key x).slots = s.slots := rfl
@[simp] theorem State.put_refins (s : State) (key : Nat) (x : Val) : (s.put key x).refins = s.refins := rfl
@[simp] theorem State.put_selT (s : State) (key : Nat) (x : Val) : (s.put key x).selT = s.selT := rfl
@[simp] theorem State.put_selF (s : State) (key : Nat) (x : Val) : (s.put key x).selF = s.selF := rfl
@[simp] theorem State.put_disputes (s : State) (key : Nat) (x : Val) : (s.put key x).disputes = s.disputes := rfl
@[simp] theorem State.put_loops (s : State) (key : Nat) (x : Val) : (s.put key x).loops = s.loops := rfl
@[simp] theorem State.put_hold (s : State) (key : Nat) (x : Val) : (s.put key x).hold = s.hold := rfl
@[simp] theorem State.put_outs (s : State) (key : Nat) (x : Val) : (s.put key x).outs = s.outs := rfl
@[simp] theorem State.put_tods (s : State) (key : Nat) (x : Val) : (s.put key x).tods = s.tods := rfl
@[simp] theorem State.put_caps (s : State) (key : Nat) (x : Val) : (s.put key x).caps = s.caps := rfl
@[simp] theorem State.put_sky (s : State) (key : Nat) (x : Val) : (s.put key x).sky = s.sky := rfl
@[simp] theorem State.put_flash (s : State) (key : Nat) (x : Val) : (s.put key x).flash = s.flash := rfl
@[simp] theorem State.put_ports (s : State) (key : Nat) (x : Val) : (s.put key x).ports = s.ports := rfl
@[simp] theorem State.put_side (s : State) (key : Nat) (x : Val) : (s.put key x).side = s.side := rfl
@[simp] theorem State.put_serve (s : State) (key : Nat) (x : Val) : (s.put key x).serve = s.serve := rfl
@[simp] theorem State.put_ctrs (s : State) (key : Nat) (x : Val) : (s.put key x).ctrs = s.ctrs := rfl
@[simp] theorem State.put_snaps (s : State) (key : Nat) (x : Val) : (s.put key x).snaps = s.snaps := rfl
@[simp] theorem State.put_ool (s : State) (key : Nat) (x : Val) : (s.put key x).ool = s.ool := rfl
@[simp] theorem State.put_prot (s : State) (key : Nat) (x : Val) : (s.put key x).prot = s.prot := rfl
@[simp] theorem State.put_sec (s : State) (key : Nat) (x : Val) : (s.put key x).sec = s.sec := rfl
@[simp] theorem State.put_mem (s : State) (key : Nat) (x : Val) : (s.put key x).mem = s.mem := rfl
@[simp] theorem State.put_bn (s : State) (key : Nat) (x : Val) : (s.put key x).bn = s.bn := rfl
@[simp] theorem State.put_sys (s : State) (key : Nat) (x : Val) : (s.put key x).sys = s.sys := rfl
@[simp] theorem State.put_sched (s : State) (key : Nat) (x : Val) : (s.put key x).sched = s.sched := rfl

@[simp] theorem State.putN_pending (s : State) (key : Nat) (x : Int) : (s.putN key x).pending = s.pending := rfl
@[simp] theorem State.putN_now (s : State) (key : Nat) (x : Int) : (s.putN key x).now = s.now := rfl
@[simp] theorem State.putN_freeIdx (s : State) (key : Nat) (x : Int) : (s.putN key x).freeIdx = s.freeIdx := rfl
@[simp] theorem State.putN_draws (s : State) (key : Nat) (x : Int) : (s.putN key x).draws = s.draws := rfl
@[simp] theorem State.putN_obj (s : State) (key : Nat) (x : Int) : (s.putN key x).obj = storePut s.obj key (.num x) := rfl
@[simp] theorem State.putN_tb (s : State) (key : Nat) (x : Int) : (s.putN key x).tb = s.tb := rfl
@[simp] theorem State.putN_journal (s : State) (key : Nat) (x : Int) : (s.putN key x).journal = s.journal := rfl
@[simp] theorem State.putN_mode (s : State) (key : Nat) (x : Int) : (s.putN key x).mode = s.mode := rfl
@[simp] theorem State.putN_keep (s : State) (key : Nat) (x : Int) : (s.putN key x).keep = s.keep := rfl
@[simp] theorem State.putN_slots (s : State) (key : Nat) (x : Int) : (s.putN key x).slots = s.slots := rfl
@[simp] theorem State.putN_refins (s : State) (key : Nat) (x : Int) : (s.putN key x).refins = s.refins := rfl
@[simp] theorem State.putN_selT (s : State) (key : Nat) (x : Int) : (s.putN key x).selT = s.selT := rfl
@[simp] theorem State.putN_selF (s : State) (key : Nat) (x : Int) : (s.putN key x).selF = s.selF := rfl
@[simp] theorem State.putN_disputes (s : State) (key : Nat) (x : Int) : (s.putN key x).disputes = s.disputes := rfl
@[simp] theorem State.putN_loops (s : State) (key : Nat) (x : Int) : (s.putN key x).loops = s.loops := rfl
@[simp] theorem State.putN_hold (s : State) (key : Nat) (x : Int) : (s.putN key x).hold = s.hold := rfl
@[simp] theorem State.putN_outs (s : State) (key : Nat) (x : Int) : (s.putN key x).outs = s.outs := rfl
@[simp] theorem State.putN_tods (s : State) (key : Nat) (x : Int) : (s.putN key x).tods = s.tods := rfl
@[simp] theorem State.putN_caps (s : State) (key : Nat) (x : Int) : (s.putN key x).caps = s.caps := rfl
@[simp] theorem State.putN_sky (s : State) (key : Nat) (x : Int) : (s.putN key x).sky = s.sky := rfl
@[simp] theorem State.putN_flash (s : State) (key : Nat) (x : Int) : (s.putN key x).flash = s.flash := rfl
@[simp] theorem State.putN_ports (s : State) (key : Nat) (x : Int) : (s.putN key x).ports = s.ports := rfl
@[simp] theorem State.putN_side (s : State) (key : Nat) (x : Int) : (s.putN key x).side = s.side := rfl
@[simp] theorem State.putN_serve (s : State) (key : Nat) (x : Int) : (s.putN key x).serve = s.serve := rfl
@[simp] theorem State.putN_ctrs (s : State) (key : Nat) (x : Int) : (s.putN key x).ctrs = s.ctrs := rfl
@[simp] theorem State.putN_snaps (s : State) (key : Nat) (x : Int) : (s.putN key x).snaps = s.snaps := rfl
@[simp] theorem State.putN_ool (s : State) (key : Nat) (x : Int) : (s.putN key x).ool = s.ool := rfl
@[simp] theorem State.putN_prot (s : State) (key : Nat) (x : Int) : (s.putN key x).prot = s.prot := rfl
@[simp] theorem State.putN_sec (s : State) (key : Nat) (x : Int) : (s.putN key x).sec = s.sec := rfl
@[simp] theorem State.putN_mem (s : State) (key : Nat) (x : Int) : (s.putN key x).mem = s.mem := rfl
@[simp] theorem State.putN_bn (s : State) (key : Nat) (x : Int) : (s.putN key x).bn = s.bn := rfl
@[simp] theorem State.putN_sys (s : State) (key : Nat) (x : Int) : (s.putN key x).sys = s.sys := rfl
@[simp] theorem State.putN_sched (s : State) (key : Nat) (x : Int) : (s.putN key x).sched = s.sched := rfl

@[simp] theorem State.putB_pending (s : State) (key : Nat) (x : Bool) : (s.putB key x).pending = s.pending := rfl
@[simp] theorem State.putB_now (s : State) (key : Nat) (x : Bool) : (s.putB key x).now = s.now := rfl
@[simp] theorem State.putB_freeIdx (s : State) (key : Nat) (x : Bool) : (s.putB key x).freeIdx = s.freeIdx := rfl
@[simp] theorem State.putB_draws (s : State) (key : Nat) (x : Bool) : (s.putB key x).draws = s.draws := rfl
@[simp] theorem State.putB_obj (s : State) (key : Nat) (x : Bool) : (s.putB key x).obj = storePut s.obj key (.num (if x then 1 else 0)) := rfl
@[simp] theorem State.putB_tb (s : State) (key : Nat) (x : Bool) : (s.putB key x).tb = s.tb := rfl
@[simp] theorem State.putB_journal (s : State) (key : Nat) (x : Bool) : (s.putB key x).journal = s.journal := rfl
@[simp] theorem State.putB_mode (s : State) (key : Nat) (x : Bool) : (s.putB key x).mode = s.mode := rfl
@[simp] theorem State.putB_keep (s : State) (key : Nat) (x : Bool) : (s.putB key x).keep = s.keep := rfl
@[simp] theorem State.putB_slots (s : State) (key : Nat) (x : Bool) : (s.putB key x).slots = s.slots := rfl
@[simp] theorem State.putB_refins (s : State) (key : Nat) (x : Bool) : (s.putB key x).refins = s.refins := rfl
@[simp] theorem State.putB_selT (s : State) (key : Nat) (x : Bool) : (s.putB key x).selT = s.selT := rfl
@[simp] theorem State.putB_selF (s : State) (key : Nat) (x : Bool) : (s.putB key x).selF = s.selF := rfl
@[simp] theorem State.putB_disputes (s : State) (key : Nat) (x : Bool) : (s.putB key x).disputes = s.disputes := rfl
@[simp] theorem State.putB_loops (s : State) (key : Nat) (x : Bool) : (s.putB key x).loops = s.loops := rfl
@[simp] theorem State.putB_hold (s : State) (key : Nat) (x : Bool) : (s.putB key x).hold = s.hold := rfl
@[simp] theorem State.putB_outs (s : State) (key : Nat) (x : Bool) : (s.putB key x).outs = s.outs := rfl
@[simp] theorem State.putB_tods (s : State) (key : Nat) (x : Bool) : (s.putB key x).tods = s.tods := rfl
@[simp] theorem State.putB_caps (s : State) (key : Nat) (x : Bool) : (s.putB key x).caps = s.caps := rfl
@[simp] theorem State.putB_sky (s : State) (key : Nat) (x : Bool) : (s.putB key x).sky = s.sky := rfl
@[simp] theorem State.putB_flash (s : State) (key : Nat) (x : Bool) : (s.putB key x).flash = s.flash := rfl
@[simp] theorem State.putB_ports (s : State) (key : Nat) (x : Bool) : (s.putB key x).ports = s.ports := rfl
@[simp] theorem State.putB_side (s : State) (key : Nat) (x : Bool) : (s.putB key x).side = s.side := rfl
@[simp] theorem State.putB_serve (s : State) (key : Nat) (x : Bool) : (s.putB key x).serve = s.serve := rfl
@[simp] theorem State.putB_ctrs (s : State) (key : Nat) (x : Bool) : (s.putB key x).ctrs = s.ctrs := rfl
@[simp] theorem State.putB_snaps (s : State) (key : Nat) (x : Bool) : (s.putB key x).snaps = s.snaps := rfl
@[simp] theorem State.putB_ool (s : State) (key : Nat) (x : Bool) : (s.putB key x).ool = s.ool := rfl
@[simp] theorem State.putB_prot (s : State) (key : Nat) (x : Bool) : (s.putB key x).prot = s.prot := rfl
@[simp] theorem State.putB_sec (s : State) (key : Nat) (x : Bool) : (s.putB key x).sec = s.sec := rfl
@[simp] theorem State.putB_mem (s : State) (key : Nat) (x : Bool) : (s.putB key x).mem = s.mem := rfl
@[simp] theorem State.putB_bn (s : State) (key : Nat) (x : Bool) : (s.putB key x).bn = s.bn := rfl
@[simp] theorem State.putB_sys (s : State) (key : Nat) (x : Bool) : (s.putB key x).sys = s.sys := rfl
@[simp] theorem State.putB_sched (s : State) (key : Nat) (x : Bool) : (s.putB key x).sched = s.sched := rfl

@[simp] theorem State.putO_pending (s : State) (key : Nat) (b : Bytes) : (s.putO key b).pending = s.pending := rfl
@[simp] theorem State.putO_now (s : State) (key : Nat) (b : Bytes) : (s.putO key b).now = s.now := rfl
@[simp] theorem State.putO_freeIdx (s : State) (key : Nat) (b : Bytes) : (s.putO key b).freeIdx = s.freeIdx := rfl
@[simp] theorem State.putO_draws (s : State) (key : Nat) (b : Bytes) : (s.putO key b).draws = s.draws := rfl
@[simp] theorem State.putO_obj (s : State) (key : Nat) (b : Bytes) : (s.putO key b).obj = storePut s.obj key (.oct b) := rfl
@[simp] theorem State.putO_tb (s : State) (key : Nat) (b : Bytes) : (s.putO key b).tb = s.tb := rfl
@[simp] theorem State.putO_journal (s : State) (key : Nat) (b : Bytes) : (s.putO key b).journal = s.journal := rfl
@[simp] theorem State.putO_mode (s : State) (key : Nat) (b : Bytes) : (s.putO key b).mode = s.mode := rfl
@[simp] theorem State.putO_keep (s : State) (key : Nat) (b : Bytes) : (s.putO key b).keep = s.keep := rfl
@[simp] theorem State.putO_slots (s : State) (key : Nat) (b : Bytes) : (s.putO key b).slots = s.slots := rfl
@[simp] theorem State.putO_refins (s : State) (key : Nat) (b : Bytes) : (s.putO key b).refins = s.refins := rfl
@[simp] theorem State.putO_selT (s : State) (key : Nat) (b : Bytes) : (s.putO key b).selT = s.selT := rfl
@[simp] theorem State.putO_selF (s : State) (key : Nat) (b : Bytes) : (s.putO key b).selF = s.selF := rfl
@[simp] theorem State.putO_disputes (s : State) (key : Nat) (b : Bytes) : (s.putO key b).disputes = s.disputes := rfl
@[simp] theorem State.putO_loops (s : State) (key : Nat) (b : Bytes) : (s.putO key b).loops = s.loops := rfl
@[simp] theorem State.putO_hold (s : State) (key : Nat) (b : Bytes) : (s.putO key b).hold = s.hold := rfl
@[simp] theorem State.putO_outs (s : State) (key : Nat) (b : Bytes) : (s.putO key b).outs = s.outs := rfl
@[simp] theorem State.putO_tods (s : State) (key : Nat) (b : Bytes) : (s.putO key b).tods = s.tods := rfl
@[simp] theorem State.putO_caps (s : State) (key : Nat) (b : Bytes) : (s.putO key b).caps = s.caps := rfl
@[simp] theorem State.putO_sky (s : State) (key : Nat) (b : Bytes) : (s.putO key b).sky = s.sky := rfl
@[simp] theorem State.putO_flash (s : State) (key : Nat) (b : Bytes) : (s.putO key b).flash = s.flash := rfl
@[simp] theorem State.putO_ports (s : State) (key : Nat) (b : Bytes) : (s.putO key b).ports = s.ports := rfl
@[simp] theorem State.putO_side (s : State) (key : Nat) (b : Bytes) : (s.putO key b).side = s.side := rfl
@[simp] theorem State.putO_serve (s : State) (key : Nat) (b : Bytes) : (s.putO key b).serve = s.serve := rfl
@[simp] theorem State.putO_ctrs (s : State) (key : Nat) (b : Bytes) : (s.putO key b).ctrs = s.ctrs := rfl
@[simp] theorem State.putO_snaps (s : State) (key : Nat) (b : Bytes) : (s.putO key b).snaps = s.snaps := rfl
@[simp] theorem State.putO_ool (s : State) (key : Nat) (b : Bytes) : (s.putO key b).ool = s.ool := rfl
@[simp] theorem State.putO_prot (s : State) (key : Nat) (b : Bytes) : (s.putO key b).prot = s.prot := rfl
@[simp] theorem State.putO_sec (s : State) (key : Nat) (b : Bytes) : (s.putO key b).sec = s.sec := rfl
@[simp] theorem State.putO_mem (s : State) (key : Nat) (b : Bytes) : (s.putO key b).mem = s.mem := rfl
@[simp] theorem State.putO_bn (s : State) (key : Nat) (b : Bytes) : (s.putO key b).bn = s.bn := rfl
@[simp] theorem State.putO_sys (s : State) (key : Nat) (b : Bytes) : (s.putO key b).sys = s.sys := rfl
@[simp] theorem State.putO_sched (s : State) (key : Nat) (b : Bytes) : (s.putO key b).sched = s.sched := rfl

@[simp] theorem State.bump_pending (s : State) (key d : Nat) : (s.bump key d).pending = s.pending := rfl
@[simp] theorem State.bump_now (s : State) (key d : Nat) : (s.bump key d).now = s.now := rfl
@[simp] theorem State.bump_freeIdx (s : State) (key d : Nat) : (s.bump key d).freeIdx = s.freeIdx := rfl
@[simp] theorem State.bump_draws (s : State) (key d : Nat) : (s.bump key d).draws = s.draws := rfl
@[simp] theorem State.bump_tb (s : State) (key d : Nat) : (s.bump key d).tb = s.tb := rfl
@[simp] theorem State.bump_journal (s : State) (key d : Nat) : (s.bump key d).journal = s.journal := rfl
@[simp] theorem State.bump_mode (s : State) (key d : Nat) : (s.bump key d).mode = s.mode := rfl
@[simp] theorem State.bump_keep (s : State) (key d : Nat) : (s.bump key d).keep = s.keep := rfl
@[simp] theorem State.bump_slots (s : State) (key d : Nat) : (s.bump key d).slots = s.slots := rfl
@[simp] theorem State.bump_refins (s : State) (key d : Nat) : (s.bump key d).refins = s.refins := rfl
@[simp] theorem State.bump_selT (s : State) (key d : Nat) : (s.bump key d).selT = s.selT := rfl
@[simp] theorem State.bump_selF (s : State) (key d : Nat) : (s.bump key d).selF = s.selF := rfl
@[simp] theorem State.bump_disputes (s : State) (key d : Nat) : (s.bump key d).disputes = s.disputes := rfl
@[simp] theorem State.bump_loops (s : State) (key d : Nat) : (s.bump key d).loops = s.loops := rfl
@[simp] theorem State.bump_hold (s : State) (key d : Nat) : (s.bump key d).hold = s.hold := rfl
@[simp] theorem State.bump_outs (s : State) (key d : Nat) : (s.bump key d).outs = s.outs := rfl
@[simp] theorem State.bump_tods (s : State) (key d : Nat) : (s.bump key d).tods = s.tods := rfl
@[simp] theorem State.bump_caps (s : State) (key d : Nat) : (s.bump key d).caps = s.caps := rfl
@[simp] theorem State.bump_sky (s : State) (key d : Nat) : (s.bump key d).sky = s.sky := rfl
@[simp] theorem State.bump_flash (s : State) (key d : Nat) : (s.bump key d).flash = s.flash := rfl
@[simp] theorem State.bump_ports (s : State) (key d : Nat) : (s.bump key d).ports = s.ports := rfl
@[simp] theorem State.bump_side (s : State) (key d : Nat) : (s.bump key d).side = s.side := rfl
@[simp] theorem State.bump_serve (s : State) (key d : Nat) : (s.bump key d).serve = s.serve := rfl
@[simp] theorem State.bump_ctrs (s : State) (key d : Nat) : (s.bump key d).ctrs = s.ctrs := rfl
@[simp] theorem State.bump_snaps (s : State) (key d : Nat) : (s.bump key d).snaps = s.snaps := rfl
@[simp] theorem State.bump_ool (s : State) (key d : Nat) : (s.bump key d).ool = s.ool := rfl
@[simp] theorem State.bump_prot (s : State) (key d : Nat) : (s.bump key d).prot = s.prot := rfl
@[simp] theorem State.bump_sec (s : State) (key d : Nat) : (s.bump key d).sec = s.sec := rfl
@[simp] theorem State.bump_mem (s : State) (key d : Nat) : (s.bump key d).mem = s.mem := rfl
@[simp] theorem State.bump_bn (s : State) (key d : Nat) : (s.bump key d).bn = s.bn := rfl
@[simp] theorem State.bump_sys (s : State) (key d : Nat) : (s.bump key d).sys = s.sys := rfl
@[simp] theorem State.bump_sched (s : State) (key d : Nat) : (s.bump key d).sched = s.sched := rfl

@[simp] theorem State.setDom_pending (s : State) (d v : Nat) : (s.setDom d v).pending = s.pending := rfl
@[simp] theorem State.setDom_now (s : State) (d v : Nat) : (s.setDom d v).now = s.now := rfl
@[simp] theorem State.setDom_freeIdx (s : State) (d v : Nat) : (s.setDom d v).freeIdx = s.freeIdx := rfl
@[simp] theorem State.setDom_draws (s : State) (d v : Nat) : (s.setDom d v).draws = s.draws := rfl
@[simp] theorem State.setDom_tb (s : State) (d v : Nat) : (s.setDom d v).tb = s.tb := rfl
@[simp] theorem State.setDom_journal (s : State) (d v : Nat) : (s.setDom d v).journal = s.journal := rfl
@[simp] theorem State.setDom_mode (s : State) (d v : Nat) : (s.setDom d v).mode = s.mode := rfl
@[simp] theorem State.setDom_keep (s : State) (d v : Nat) : (s.setDom d v).keep = s.keep := rfl
@[simp] theorem State.setDom_slots (s : State) (d v : Nat) : (s.setDom d v).slots = s.slots := rfl
@[simp] theorem State.setDom_refins (s : State) (d v : Nat) : (s.setDom d v).refins = s.refins := rfl
@[simp] theorem State.setDom_selT (s : State) (d v : Nat) : (s.setDom d v).selT = s.selT := rfl
@[simp] theorem State.setDom_selF (s : State) (d v : Nat) : (s.setDom d v).selF = s.selF := rfl
@[simp] theorem State.setDom_disputes (s : State) (d v : Nat) : (s.setDom d v).disputes = s.disputes := rfl
@[simp] theorem State.setDom_loops (s : State) (d v : Nat) : (s.setDom d v).loops = s.loops := rfl
@[simp] theorem State.setDom_hold (s : State) (d v : Nat) : (s.setDom d v).hold = s.hold := rfl
@[simp] theorem State.setDom_outs (s : State) (d v : Nat) : (s.setDom d v).outs = s.outs := rfl
@[simp] theorem State.setDom_tods (s : State) (d v : Nat) : (s.setDom d v).tods = s.tods := rfl
@[simp] theorem State.setDom_caps (s : State) (d v : Nat) : (s.setDom d v).caps = s.caps := rfl
@[simp] theorem State.setDom_sky (s : State) (d v : Nat) : (s.setDom d v).sky = s.sky := rfl
@[simp] theorem State.setDom_flash (s : State) (d v : Nat) : (s.setDom d v).flash = s.flash := rfl
@[simp] theorem State.setDom_ports (s : State) (d v : Nat) : (s.setDom d v).ports = s.ports := rfl
@[simp] theorem State.setDom_side (s : State) (d v : Nat) : (s.setDom d v).side = s.side := rfl
@[simp] theorem State.setDom_serve (s : State) (d v : Nat) : (s.setDom d v).serve = s.serve := rfl
@[simp] theorem State.setDom_ctrs (s : State) (d v : Nat) : (s.setDom d v).ctrs = s.ctrs := rfl
@[simp] theorem State.setDom_snaps (s : State) (d v : Nat) : (s.setDom d v).snaps = s.snaps := rfl
@[simp] theorem State.setDom_ool (s : State) (d v : Nat) : (s.setDom d v).ool = s.ool := rfl
@[simp] theorem State.setDom_prot (s : State) (d v : Nat) : (s.setDom d v).prot = s.prot := rfl
@[simp] theorem State.setDom_sec (s : State) (d v : Nat) : (s.setDom d v).sec = s.sec := rfl
@[simp] theorem State.setDom_mem (s : State) (d v : Nat) : (s.setDom d v).mem = s.mem := rfl
@[simp] theorem State.setDom_bn (s : State) (d v : Nat) : (s.setDom d v).bn = s.bn := rfl
@[simp] theorem State.setDom_sys (s : State) (d v : Nat) : (s.setDom d v).sys = s.sys := rfl
@[simp] theorem State.setDom_sched (s : State) (d v : Nat) : (s.setDom d v).sched = s.sched := rfl

@[simp] theorem State.setSlot_pending (s : State) (i : Fin 16) (x : Slot) : (s.setSlot i x).pending = s.pending := rfl
@[simp] theorem State.setSlot_now (s : State) (i : Fin 16) (x : Slot) : (s.setSlot i x).now = s.now := rfl
@[simp] theorem State.setSlot_freeIdx (s : State) (i : Fin 16) (x : Slot) : (s.setSlot i x).freeIdx = s.freeIdx := rfl
@[simp] theorem State.setSlot_draws (s : State) (i : Fin 16) (x : Slot) : (s.setSlot i x).draws = s.draws := rfl
@[simp] theorem State.setSlot_obj (s : State) (i : Fin 16) (x : Slot) : (s.setSlot i x).obj = s.obj := rfl
@[simp] theorem State.setSlot_tb (s : State) (i : Fin 16) (x : Slot) : (s.setSlot i x).tb = s.tb := rfl
@[simp] theorem State.setSlot_journal (s : State) (i : Fin 16) (x : Slot) : (s.setSlot i x).journal = s.journal := rfl
@[simp] theorem State.setSlot_mode (s : State) (i : Fin 16) (x : Slot) : (s.setSlot i x).mode = s.mode := rfl
@[simp] theorem State.setSlot_keep (s : State) (i : Fin 16) (x : Slot) : (s.setSlot i x).keep = s.keep := rfl
@[simp] theorem State.setSlot_slots (s : State) (i : Fin 16) (x : Slot) : (s.setSlot i x).slots = s.slots.set i x := rfl
@[simp] theorem State.setSlot_refins (s : State) (i : Fin 16) (x : Slot) : (s.setSlot i x).refins = s.refins := rfl
@[simp] theorem State.setSlot_selT (s : State) (i : Fin 16) (x : Slot) : (s.setSlot i x).selT = s.selT := rfl
@[simp] theorem State.setSlot_selF (s : State) (i : Fin 16) (x : Slot) : (s.setSlot i x).selF = s.selF := rfl
@[simp] theorem State.setSlot_disputes (s : State) (i : Fin 16) (x : Slot) : (s.setSlot i x).disputes = s.disputes := rfl
@[simp] theorem State.setSlot_loops (s : State) (i : Fin 16) (x : Slot) : (s.setSlot i x).loops = s.loops := rfl
@[simp] theorem State.setSlot_hold (s : State) (i : Fin 16) (x : Slot) : (s.setSlot i x).hold = s.hold := rfl
@[simp] theorem State.setSlot_outs (s : State) (i : Fin 16) (x : Slot) : (s.setSlot i x).outs = s.outs := rfl
@[simp] theorem State.setSlot_tods (s : State) (i : Fin 16) (x : Slot) : (s.setSlot i x).tods = s.tods := rfl
@[simp] theorem State.setSlot_caps (s : State) (i : Fin 16) (x : Slot) : (s.setSlot i x).caps = s.caps := rfl
@[simp] theorem State.setSlot_sky (s : State) (i : Fin 16) (x : Slot) : (s.setSlot i x).sky = s.sky := rfl
@[simp] theorem State.setSlot_flash (s : State) (i : Fin 16) (x : Slot) : (s.setSlot i x).flash = s.flash := rfl
@[simp] theorem State.setSlot_ports (s : State) (i : Fin 16) (x : Slot) : (s.setSlot i x).ports = s.ports := rfl
@[simp] theorem State.setSlot_side (s : State) (i : Fin 16) (x : Slot) : (s.setSlot i x).side = s.side := rfl
@[simp] theorem State.setSlot_serve (s : State) (i : Fin 16) (x : Slot) : (s.setSlot i x).serve = s.serve := rfl
@[simp] theorem State.setSlot_ctrs (s : State) (i : Fin 16) (x : Slot) : (s.setSlot i x).ctrs = s.ctrs := rfl
@[simp] theorem State.setSlot_snaps (s : State) (i : Fin 16) (x : Slot) : (s.setSlot i x).snaps = s.snaps := rfl
@[simp] theorem State.setSlot_ool (s : State) (i : Fin 16) (x : Slot) : (s.setSlot i x).ool = s.ool := rfl
@[simp] theorem State.setSlot_prot (s : State) (i : Fin 16) (x : Slot) : (s.setSlot i x).prot = s.prot := rfl
@[simp] theorem State.setSlot_sec (s : State) (i : Fin 16) (x : Slot) : (s.setSlot i x).sec = s.sec := rfl
@[simp] theorem State.setSlot_mem (s : State) (i : Fin 16) (x : Slot) : (s.setSlot i x).mem = s.mem := rfl
@[simp] theorem State.setSlot_bn (s : State) (i : Fin 16) (x : Slot) : (s.setSlot i x).bn = s.bn := rfl
@[simp] theorem State.setSlot_sys (s : State) (i : Fin 16) (x : Slot) : (s.setSlot i x).sys = s.sys := rfl
@[simp] theorem State.setSlot_sched (s : State) (i : Fin 16) (x : Slot) : (s.setSlot i x).sched = s.sched := rfl

@[simp] theorem State.setLoop_pending (s : State) (i : Fin 4) (x : Loop) : (s.setLoop i x).pending = s.pending := rfl
@[simp] theorem State.setLoop_now (s : State) (i : Fin 4) (x : Loop) : (s.setLoop i x).now = s.now := rfl
@[simp] theorem State.setLoop_freeIdx (s : State) (i : Fin 4) (x : Loop) : (s.setLoop i x).freeIdx = s.freeIdx := rfl
@[simp] theorem State.setLoop_draws (s : State) (i : Fin 4) (x : Loop) : (s.setLoop i x).draws = s.draws := rfl
@[simp] theorem State.setLoop_obj (s : State) (i : Fin 4) (x : Loop) : (s.setLoop i x).obj = s.obj := rfl
@[simp] theorem State.setLoop_tb (s : State) (i : Fin 4) (x : Loop) : (s.setLoop i x).tb = s.tb := rfl
@[simp] theorem State.setLoop_journal (s : State) (i : Fin 4) (x : Loop) : (s.setLoop i x).journal = s.journal := rfl
@[simp] theorem State.setLoop_mode (s : State) (i : Fin 4) (x : Loop) : (s.setLoop i x).mode = s.mode := rfl
@[simp] theorem State.setLoop_keep (s : State) (i : Fin 4) (x : Loop) : (s.setLoop i x).keep = s.keep := rfl
@[simp] theorem State.setLoop_slots (s : State) (i : Fin 4) (x : Loop) : (s.setLoop i x).slots = s.slots := rfl
@[simp] theorem State.setLoop_refins (s : State) (i : Fin 4) (x : Loop) : (s.setLoop i x).refins = s.refins := rfl
@[simp] theorem State.setLoop_selT (s : State) (i : Fin 4) (x : Loop) : (s.setLoop i x).selT = s.selT := rfl
@[simp] theorem State.setLoop_selF (s : State) (i : Fin 4) (x : Loop) : (s.setLoop i x).selF = s.selF := rfl
@[simp] theorem State.setLoop_disputes (s : State) (i : Fin 4) (x : Loop) : (s.setLoop i x).disputes = s.disputes := rfl
@[simp] theorem State.setLoop_loops (s : State) (i : Fin 4) (x : Loop) : (s.setLoop i x).loops = s.loops.set i x := rfl
@[simp] theorem State.setLoop_hold (s : State) (i : Fin 4) (x : Loop) : (s.setLoop i x).hold = s.hold := rfl
@[simp] theorem State.setLoop_outs (s : State) (i : Fin 4) (x : Loop) : (s.setLoop i x).outs = s.outs := rfl
@[simp] theorem State.setLoop_tods (s : State) (i : Fin 4) (x : Loop) : (s.setLoop i x).tods = s.tods := rfl
@[simp] theorem State.setLoop_caps (s : State) (i : Fin 4) (x : Loop) : (s.setLoop i x).caps = s.caps := rfl
@[simp] theorem State.setLoop_sky (s : State) (i : Fin 4) (x : Loop) : (s.setLoop i x).sky = s.sky := rfl
@[simp] theorem State.setLoop_flash (s : State) (i : Fin 4) (x : Loop) : (s.setLoop i x).flash = s.flash := rfl
@[simp] theorem State.setLoop_ports (s : State) (i : Fin 4) (x : Loop) : (s.setLoop i x).ports = s.ports := rfl
@[simp] theorem State.setLoop_side (s : State) (i : Fin 4) (x : Loop) : (s.setLoop i x).side = s.side := rfl
@[simp] theorem State.setLoop_serve (s : State) (i : Fin 4) (x : Loop) : (s.setLoop i x).serve = s.serve := rfl
@[simp] theorem State.setLoop_ctrs (s : State) (i : Fin 4) (x : Loop) : (s.setLoop i x).ctrs = s.ctrs := rfl
@[simp] theorem State.setLoop_snaps (s : State) (i : Fin 4) (x : Loop) : (s.setLoop i x).snaps = s.snaps := rfl
@[simp] theorem State.setLoop_ool (s : State) (i : Fin 4) (x : Loop) : (s.setLoop i x).ool = s.ool := rfl
@[simp] theorem State.setLoop_prot (s : State) (i : Fin 4) (x : Loop) : (s.setLoop i x).prot = s.prot := rfl
@[simp] theorem State.setLoop_sec (s : State) (i : Fin 4) (x : Loop) : (s.setLoop i x).sec = s.sec := rfl
@[simp] theorem State.setLoop_mem (s : State) (i : Fin 4) (x : Loop) : (s.setLoop i x).mem = s.mem := rfl
@[simp] theorem State.setLoop_bn (s : State) (i : Fin 4) (x : Loop) : (s.setLoop i x).bn = s.bn := rfl
@[simp] theorem State.setLoop_sys (s : State) (i : Fin 4) (x : Loop) : (s.setLoop i x).sys = s.sys := rfl
@[simp] theorem State.setLoop_sched (s : State) (i : Fin 4) (x : Loop) : (s.setLoop i x).sched = s.sched := rfl

@[simp] theorem State.setOut_pending (s : State) (i : Fin 20) (x : OutGen) : (s.setOut i x).pending = s.pending := rfl
@[simp] theorem State.setOut_now (s : State) (i : Fin 20) (x : OutGen) : (s.setOut i x).now = s.now := rfl
@[simp] theorem State.setOut_freeIdx (s : State) (i : Fin 20) (x : OutGen) : (s.setOut i x).freeIdx = s.freeIdx := rfl
@[simp] theorem State.setOut_draws (s : State) (i : Fin 20) (x : OutGen) : (s.setOut i x).draws = s.draws := rfl
@[simp] theorem State.setOut_obj (s : State) (i : Fin 20) (x : OutGen) : (s.setOut i x).obj = s.obj := rfl
@[simp] theorem State.setOut_tb (s : State) (i : Fin 20) (x : OutGen) : (s.setOut i x).tb = s.tb := rfl
@[simp] theorem State.setOut_journal (s : State) (i : Fin 20) (x : OutGen) : (s.setOut i x).journal = s.journal := rfl
@[simp] theorem State.setOut_mode (s : State) (i : Fin 20) (x : OutGen) : (s.setOut i x).mode = s.mode := rfl
@[simp] theorem State.setOut_keep (s : State) (i : Fin 20) (x : OutGen) : (s.setOut i x).keep = s.keep := rfl
@[simp] theorem State.setOut_slots (s : State) (i : Fin 20) (x : OutGen) : (s.setOut i x).slots = s.slots := rfl
@[simp] theorem State.setOut_refins (s : State) (i : Fin 20) (x : OutGen) : (s.setOut i x).refins = s.refins := rfl
@[simp] theorem State.setOut_selT (s : State) (i : Fin 20) (x : OutGen) : (s.setOut i x).selT = s.selT := rfl
@[simp] theorem State.setOut_selF (s : State) (i : Fin 20) (x : OutGen) : (s.setOut i x).selF = s.selF := rfl
@[simp] theorem State.setOut_disputes (s : State) (i : Fin 20) (x : OutGen) : (s.setOut i x).disputes = s.disputes := rfl
@[simp] theorem State.setOut_loops (s : State) (i : Fin 20) (x : OutGen) : (s.setOut i x).loops = s.loops := rfl
@[simp] theorem State.setOut_hold (s : State) (i : Fin 20) (x : OutGen) : (s.setOut i x).hold = s.hold := rfl
@[simp] theorem State.setOut_outs (s : State) (i : Fin 20) (x : OutGen) : (s.setOut i x).outs = s.outs.set i x := rfl
@[simp] theorem State.setOut_tods (s : State) (i : Fin 20) (x : OutGen) : (s.setOut i x).tods = s.tods := rfl
@[simp] theorem State.setOut_caps (s : State) (i : Fin 20) (x : OutGen) : (s.setOut i x).caps = s.caps := rfl
@[simp] theorem State.setOut_sky (s : State) (i : Fin 20) (x : OutGen) : (s.setOut i x).sky = s.sky := rfl
@[simp] theorem State.setOut_flash (s : State) (i : Fin 20) (x : OutGen) : (s.setOut i x).flash = s.flash := rfl
@[simp] theorem State.setOut_ports (s : State) (i : Fin 20) (x : OutGen) : (s.setOut i x).ports = s.ports := rfl
@[simp] theorem State.setOut_side (s : State) (i : Fin 20) (x : OutGen) : (s.setOut i x).side = s.side := rfl
@[simp] theorem State.setOut_serve (s : State) (i : Fin 20) (x : OutGen) : (s.setOut i x).serve = s.serve := rfl
@[simp] theorem State.setOut_ctrs (s : State) (i : Fin 20) (x : OutGen) : (s.setOut i x).ctrs = s.ctrs := rfl
@[simp] theorem State.setOut_snaps (s : State) (i : Fin 20) (x : OutGen) : (s.setOut i x).snaps = s.snaps := rfl
@[simp] theorem State.setOut_ool (s : State) (i : Fin 20) (x : OutGen) : (s.setOut i x).ool = s.ool := rfl
@[simp] theorem State.setOut_prot (s : State) (i : Fin 20) (x : OutGen) : (s.setOut i x).prot = s.prot := rfl
@[simp] theorem State.setOut_sec (s : State) (i : Fin 20) (x : OutGen) : (s.setOut i x).sec = s.sec := rfl
@[simp] theorem State.setOut_mem (s : State) (i : Fin 20) (x : OutGen) : (s.setOut i x).mem = s.mem := rfl
@[simp] theorem State.setOut_bn (s : State) (i : Fin 20) (x : OutGen) : (s.setOut i x).bn = s.bn := rfl
@[simp] theorem State.setOut_sys (s : State) (i : Fin 20) (x : OutGen) : (s.setOut i x).sys = s.sys := rfl
@[simp] theorem State.setOut_sched (s : State) (i : Fin 20) (x : OutGen) : (s.setOut i x).sched = s.sched := rfl

@[simp] theorem State.setTod_pending (s : State) (i : Fin 4) (x : TodOut) : (s.setTod i x).pending = s.pending := rfl
@[simp] theorem State.setTod_now (s : State) (i : Fin 4) (x : TodOut) : (s.setTod i x).now = s.now := rfl
@[simp] theorem State.setTod_freeIdx (s : State) (i : Fin 4) (x : TodOut) : (s.setTod i x).freeIdx = s.freeIdx := rfl
@[simp] theorem State.setTod_draws (s : State) (i : Fin 4) (x : TodOut) : (s.setTod i x).draws = s.draws := rfl
@[simp] theorem State.setTod_obj (s : State) (i : Fin 4) (x : TodOut) : (s.setTod i x).obj = s.obj := rfl
@[simp] theorem State.setTod_tb (s : State) (i : Fin 4) (x : TodOut) : (s.setTod i x).tb = s.tb := rfl
@[simp] theorem State.setTod_journal (s : State) (i : Fin 4) (x : TodOut) : (s.setTod i x).journal = s.journal := rfl
@[simp] theorem State.setTod_mode (s : State) (i : Fin 4) (x : TodOut) : (s.setTod i x).mode = s.mode := rfl
@[simp] theorem State.setTod_keep (s : State) (i : Fin 4) (x : TodOut) : (s.setTod i x).keep = s.keep := rfl
@[simp] theorem State.setTod_slots (s : State) (i : Fin 4) (x : TodOut) : (s.setTod i x).slots = s.slots := rfl
@[simp] theorem State.setTod_refins (s : State) (i : Fin 4) (x : TodOut) : (s.setTod i x).refins = s.refins := rfl
@[simp] theorem State.setTod_selT (s : State) (i : Fin 4) (x : TodOut) : (s.setTod i x).selT = s.selT := rfl
@[simp] theorem State.setTod_selF (s : State) (i : Fin 4) (x : TodOut) : (s.setTod i x).selF = s.selF := rfl
@[simp] theorem State.setTod_disputes (s : State) (i : Fin 4) (x : TodOut) : (s.setTod i x).disputes = s.disputes := rfl
@[simp] theorem State.setTod_loops (s : State) (i : Fin 4) (x : TodOut) : (s.setTod i x).loops = s.loops := rfl
@[simp] theorem State.setTod_hold (s : State) (i : Fin 4) (x : TodOut) : (s.setTod i x).hold = s.hold := rfl
@[simp] theorem State.setTod_outs (s : State) (i : Fin 4) (x : TodOut) : (s.setTod i x).outs = s.outs := rfl
@[simp] theorem State.setTod_tods (s : State) (i : Fin 4) (x : TodOut) : (s.setTod i x).tods = s.tods.set i x := rfl
@[simp] theorem State.setTod_caps (s : State) (i : Fin 4) (x : TodOut) : (s.setTod i x).caps = s.caps := rfl
@[simp] theorem State.setTod_sky (s : State) (i : Fin 4) (x : TodOut) : (s.setTod i x).sky = s.sky := rfl
@[simp] theorem State.setTod_flash (s : State) (i : Fin 4) (x : TodOut) : (s.setTod i x).flash = s.flash := rfl
@[simp] theorem State.setTod_ports (s : State) (i : Fin 4) (x : TodOut) : (s.setTod i x).ports = s.ports := rfl
@[simp] theorem State.setTod_side (s : State) (i : Fin 4) (x : TodOut) : (s.setTod i x).side = s.side := rfl
@[simp] theorem State.setTod_serve (s : State) (i : Fin 4) (x : TodOut) : (s.setTod i x).serve = s.serve := rfl
@[simp] theorem State.setTod_ctrs (s : State) (i : Fin 4) (x : TodOut) : (s.setTod i x).ctrs = s.ctrs := rfl
@[simp] theorem State.setTod_snaps (s : State) (i : Fin 4) (x : TodOut) : (s.setTod i x).snaps = s.snaps := rfl
@[simp] theorem State.setTod_ool (s : State) (i : Fin 4) (x : TodOut) : (s.setTod i x).ool = s.ool := rfl
@[simp] theorem State.setTod_prot (s : State) (i : Fin 4) (x : TodOut) : (s.setTod i x).prot = s.prot := rfl
@[simp] theorem State.setTod_sec (s : State) (i : Fin 4) (x : TodOut) : (s.setTod i x).sec = s.sec := rfl
@[simp] theorem State.setTod_mem (s : State) (i : Fin 4) (x : TodOut) : (s.setTod i x).mem = s.mem := rfl
@[simp] theorem State.setTod_bn (s : State) (i : Fin 4) (x : TodOut) : (s.setTod i x).bn = s.bn := rfl
@[simp] theorem State.setTod_sys (s : State) (i : Fin 4) (x : TodOut) : (s.setTod i x).sys = s.sys := rfl
@[simp] theorem State.setTod_sched (s : State) (i : Fin 4) (x : TodOut) : (s.setTod i x).sched = s.sched := rfl

@[simp] theorem State.setCap_pending (s : State) (i : Fin 16) (x : Capture) : (s.setCap i x).pending = s.pending := rfl
@[simp] theorem State.setCap_now (s : State) (i : Fin 16) (x : Capture) : (s.setCap i x).now = s.now := rfl
@[simp] theorem State.setCap_freeIdx (s : State) (i : Fin 16) (x : Capture) : (s.setCap i x).freeIdx = s.freeIdx := rfl
@[simp] theorem State.setCap_draws (s : State) (i : Fin 16) (x : Capture) : (s.setCap i x).draws = s.draws := rfl
@[simp] theorem State.setCap_obj (s : State) (i : Fin 16) (x : Capture) : (s.setCap i x).obj = s.obj := rfl
@[simp] theorem State.setCap_tb (s : State) (i : Fin 16) (x : Capture) : (s.setCap i x).tb = s.tb := rfl
@[simp] theorem State.setCap_journal (s : State) (i : Fin 16) (x : Capture) : (s.setCap i x).journal = s.journal := rfl
@[simp] theorem State.setCap_mode (s : State) (i : Fin 16) (x : Capture) : (s.setCap i x).mode = s.mode := rfl
@[simp] theorem State.setCap_keep (s : State) (i : Fin 16) (x : Capture) : (s.setCap i x).keep = s.keep := rfl
@[simp] theorem State.setCap_slots (s : State) (i : Fin 16) (x : Capture) : (s.setCap i x).slots = s.slots := rfl
@[simp] theorem State.setCap_refins (s : State) (i : Fin 16) (x : Capture) : (s.setCap i x).refins = s.refins := rfl
@[simp] theorem State.setCap_selT (s : State) (i : Fin 16) (x : Capture) : (s.setCap i x).selT = s.selT := rfl
@[simp] theorem State.setCap_selF (s : State) (i : Fin 16) (x : Capture) : (s.setCap i x).selF = s.selF := rfl
@[simp] theorem State.setCap_disputes (s : State) (i : Fin 16) (x : Capture) : (s.setCap i x).disputes = s.disputes := rfl
@[simp] theorem State.setCap_loops (s : State) (i : Fin 16) (x : Capture) : (s.setCap i x).loops = s.loops := rfl
@[simp] theorem State.setCap_hold (s : State) (i : Fin 16) (x : Capture) : (s.setCap i x).hold = s.hold := rfl
@[simp] theorem State.setCap_outs (s : State) (i : Fin 16) (x : Capture) : (s.setCap i x).outs = s.outs := rfl
@[simp] theorem State.setCap_tods (s : State) (i : Fin 16) (x : Capture) : (s.setCap i x).tods = s.tods := rfl
@[simp] theorem State.setCap_caps (s : State) (i : Fin 16) (x : Capture) : (s.setCap i x).caps = s.caps.set i x := rfl
@[simp] theorem State.setCap_sky (s : State) (i : Fin 16) (x : Capture) : (s.setCap i x).sky = s.sky := rfl
@[simp] theorem State.setCap_flash (s : State) (i : Fin 16) (x : Capture) : (s.setCap i x).flash = s.flash := rfl
@[simp] theorem State.setCap_ports (s : State) (i : Fin 16) (x : Capture) : (s.setCap i x).ports = s.ports := rfl
@[simp] theorem State.setCap_side (s : State) (i : Fin 16) (x : Capture) : (s.setCap i x).side = s.side := rfl
@[simp] theorem State.setCap_serve (s : State) (i : Fin 16) (x : Capture) : (s.setCap i x).serve = s.serve := rfl
@[simp] theorem State.setCap_ctrs (s : State) (i : Fin 16) (x : Capture) : (s.setCap i x).ctrs = s.ctrs := rfl
@[simp] theorem State.setCap_snaps (s : State) (i : Fin 16) (x : Capture) : (s.setCap i x).snaps = s.snaps := rfl
@[simp] theorem State.setCap_ool (s : State) (i : Fin 16) (x : Capture) : (s.setCap i x).ool = s.ool := rfl
@[simp] theorem State.setCap_prot (s : State) (i : Fin 16) (x : Capture) : (s.setCap i x).prot = s.prot := rfl
@[simp] theorem State.setCap_sec (s : State) (i : Fin 16) (x : Capture) : (s.setCap i x).sec = s.sec := rfl
@[simp] theorem State.setCap_mem (s : State) (i : Fin 16) (x : Capture) : (s.setCap i x).mem = s.mem := rfl
@[simp] theorem State.setCap_bn (s : State) (i : Fin 16) (x : Capture) : (s.setCap i x).bn = s.bn := rfl
@[simp] theorem State.setCap_sys (s : State) (i : Fin 16) (x : Capture) : (s.setCap i x).sys = s.sys := rfl
@[simp] theorem State.setCap_sched (s : State) (i : Fin 16) (x : Capture) : (s.setCap i x).sched = s.sched := rfl

@[simp] theorem State.setPort_pending (s : State) (i : Fin 64) (x : PortUnit) : (s.setPort i x).pending = s.pending := rfl
@[simp] theorem State.setPort_now (s : State) (i : Fin 64) (x : PortUnit) : (s.setPort i x).now = s.now := rfl
@[simp] theorem State.setPort_freeIdx (s : State) (i : Fin 64) (x : PortUnit) : (s.setPort i x).freeIdx = s.freeIdx := rfl
@[simp] theorem State.setPort_draws (s : State) (i : Fin 64) (x : PortUnit) : (s.setPort i x).draws = s.draws := rfl
@[simp] theorem State.setPort_obj (s : State) (i : Fin 64) (x : PortUnit) : (s.setPort i x).obj = s.obj := rfl
@[simp] theorem State.setPort_tb (s : State) (i : Fin 64) (x : PortUnit) : (s.setPort i x).tb = s.tb := rfl
@[simp] theorem State.setPort_journal (s : State) (i : Fin 64) (x : PortUnit) : (s.setPort i x).journal = s.journal := rfl
@[simp] theorem State.setPort_mode (s : State) (i : Fin 64) (x : PortUnit) : (s.setPort i x).mode = s.mode := rfl
@[simp] theorem State.setPort_keep (s : State) (i : Fin 64) (x : PortUnit) : (s.setPort i x).keep = s.keep := rfl
@[simp] theorem State.setPort_slots (s : State) (i : Fin 64) (x : PortUnit) : (s.setPort i x).slots = s.slots := rfl
@[simp] theorem State.setPort_refins (s : State) (i : Fin 64) (x : PortUnit) : (s.setPort i x).refins = s.refins := rfl
@[simp] theorem State.setPort_selT (s : State) (i : Fin 64) (x : PortUnit) : (s.setPort i x).selT = s.selT := rfl
@[simp] theorem State.setPort_selF (s : State) (i : Fin 64) (x : PortUnit) : (s.setPort i x).selF = s.selF := rfl
@[simp] theorem State.setPort_disputes (s : State) (i : Fin 64) (x : PortUnit) : (s.setPort i x).disputes = s.disputes := rfl
@[simp] theorem State.setPort_loops (s : State) (i : Fin 64) (x : PortUnit) : (s.setPort i x).loops = s.loops := rfl
@[simp] theorem State.setPort_hold (s : State) (i : Fin 64) (x : PortUnit) : (s.setPort i x).hold = s.hold := rfl
@[simp] theorem State.setPort_outs (s : State) (i : Fin 64) (x : PortUnit) : (s.setPort i x).outs = s.outs := rfl
@[simp] theorem State.setPort_tods (s : State) (i : Fin 64) (x : PortUnit) : (s.setPort i x).tods = s.tods := rfl
@[simp] theorem State.setPort_caps (s : State) (i : Fin 64) (x : PortUnit) : (s.setPort i x).caps = s.caps := rfl
@[simp] theorem State.setPort_sky (s : State) (i : Fin 64) (x : PortUnit) : (s.setPort i x).sky = s.sky := rfl
@[simp] theorem State.setPort_flash (s : State) (i : Fin 64) (x : PortUnit) : (s.setPort i x).flash = s.flash := rfl
@[simp] theorem State.setPort_ports (s : State) (i : Fin 64) (x : PortUnit) : (s.setPort i x).ports = s.ports.set i x := rfl
@[simp] theorem State.setPort_side (s : State) (i : Fin 64) (x : PortUnit) : (s.setPort i x).side = s.side := rfl
@[simp] theorem State.setPort_serve (s : State) (i : Fin 64) (x : PortUnit) : (s.setPort i x).serve = s.serve := rfl
@[simp] theorem State.setPort_ctrs (s : State) (i : Fin 64) (x : PortUnit) : (s.setPort i x).ctrs = s.ctrs := rfl
@[simp] theorem State.setPort_snaps (s : State) (i : Fin 64) (x : PortUnit) : (s.setPort i x).snaps = s.snaps := rfl
@[simp] theorem State.setPort_ool (s : State) (i : Fin 64) (x : PortUnit) : (s.setPort i x).ool = s.ool := rfl
@[simp] theorem State.setPort_prot (s : State) (i : Fin 64) (x : PortUnit) : (s.setPort i x).prot = s.prot := rfl
@[simp] theorem State.setPort_sec (s : State) (i : Fin 64) (x : PortUnit) : (s.setPort i x).sec = s.sec := rfl
@[simp] theorem State.setPort_mem (s : State) (i : Fin 64) (x : PortUnit) : (s.setPort i x).mem = s.mem := rfl
@[simp] theorem State.setPort_bn (s : State) (i : Fin 64) (x : PortUnit) : (s.setPort i x).bn = s.bn := rfl
@[simp] theorem State.setPort_sys (s : State) (i : Fin 64) (x : PortUnit) : (s.setPort i x).sys = s.sys := rfl
@[simp] theorem State.setPort_sched (s : State) (i : Fin 64) (x : PortUnit) : (s.setPort i x).sched = s.sched := rfl

@[simp] theorem State.setEngine_pending (s : State) (i : Fin 8) (x : Engine) : (s.setEngine i x).pending = s.pending := rfl
@[simp] theorem State.setEngine_now (s : State) (i : Fin 8) (x : Engine) : (s.setEngine i x).now = s.now := rfl
@[simp] theorem State.setEngine_freeIdx (s : State) (i : Fin 8) (x : Engine) : (s.setEngine i x).freeIdx = s.freeIdx := rfl
@[simp] theorem State.setEngine_draws (s : State) (i : Fin 8) (x : Engine) : (s.setEngine i x).draws = s.draws := rfl
@[simp] theorem State.setEngine_obj (s : State) (i : Fin 8) (x : Engine) : (s.setEngine i x).obj = s.obj := rfl
@[simp] theorem State.setEngine_tb (s : State) (i : Fin 8) (x : Engine) : (s.setEngine i x).tb = s.tb := rfl
@[simp] theorem State.setEngine_journal (s : State) (i : Fin 8) (x : Engine) : (s.setEngine i x).journal = s.journal := rfl
@[simp] theorem State.setEngine_mode (s : State) (i : Fin 8) (x : Engine) : (s.setEngine i x).mode = s.mode := rfl
@[simp] theorem State.setEngine_keep (s : State) (i : Fin 8) (x : Engine) : (s.setEngine i x).keep = s.keep := rfl
@[simp] theorem State.setEngine_slots (s : State) (i : Fin 8) (x : Engine) : (s.setEngine i x).slots = s.slots := rfl
@[simp] theorem State.setEngine_refins (s : State) (i : Fin 8) (x : Engine) : (s.setEngine i x).refins = s.refins := rfl
@[simp] theorem State.setEngine_selT (s : State) (i : Fin 8) (x : Engine) : (s.setEngine i x).selT = s.selT := rfl
@[simp] theorem State.setEngine_selF (s : State) (i : Fin 8) (x : Engine) : (s.setEngine i x).selF = s.selF := rfl
@[simp] theorem State.setEngine_disputes (s : State) (i : Fin 8) (x : Engine) : (s.setEngine i x).disputes = s.disputes := rfl
@[simp] theorem State.setEngine_loops (s : State) (i : Fin 8) (x : Engine) : (s.setEngine i x).loops = s.loops := rfl
@[simp] theorem State.setEngine_hold (s : State) (i : Fin 8) (x : Engine) : (s.setEngine i x).hold = s.hold := rfl
@[simp] theorem State.setEngine_outs (s : State) (i : Fin 8) (x : Engine) : (s.setEngine i x).outs = s.outs := rfl
@[simp] theorem State.setEngine_tods (s : State) (i : Fin 8) (x : Engine) : (s.setEngine i x).tods = s.tods := rfl
@[simp] theorem State.setEngine_caps (s : State) (i : Fin 8) (x : Engine) : (s.setEngine i x).caps = s.caps := rfl
@[simp] theorem State.setEngine_sky (s : State) (i : Fin 8) (x : Engine) : (s.setEngine i x).sky = s.sky := rfl
@[simp] theorem State.setEngine_flash (s : State) (i : Fin 8) (x : Engine) : (s.setEngine i x).flash = s.flash := rfl
@[simp] theorem State.setEngine_ports (s : State) (i : Fin 8) (x : Engine) : (s.setEngine i x).ports = s.ports := rfl
@[simp] theorem State.setEngine_side (s : State) (i : Fin 8) (x : Engine) : (s.setEngine i x).side = s.side := rfl
@[simp] theorem State.setEngine_ctrs (s : State) (i : Fin 8) (x : Engine) : (s.setEngine i x).ctrs = s.ctrs := rfl
@[simp] theorem State.setEngine_snaps (s : State) (i : Fin 8) (x : Engine) : (s.setEngine i x).snaps = s.snaps := rfl
@[simp] theorem State.setEngine_ool (s : State) (i : Fin 8) (x : Engine) : (s.setEngine i x).ool = s.ool := rfl
@[simp] theorem State.setEngine_prot (s : State) (i : Fin 8) (x : Engine) : (s.setEngine i x).prot = s.prot := rfl
@[simp] theorem State.setEngine_sec (s : State) (i : Fin 8) (x : Engine) : (s.setEngine i x).sec = s.sec := rfl
@[simp] theorem State.setEngine_mem (s : State) (i : Fin 8) (x : Engine) : (s.setEngine i x).mem = s.mem := rfl
@[simp] theorem State.setEngine_bn (s : State) (i : Fin 8) (x : Engine) : (s.setEngine i x).bn = s.bn := rfl
@[simp] theorem State.setEngine_sys (s : State) (i : Fin 8) (x : Engine) : (s.setEngine i x).sys = s.sys := rfl
@[simp] theorem State.setEngine_sched (s : State) (i : Fin 8) (x : Engine) : (s.setEngine i x).sched = s.sched := rfl

@[simp] theorem State.setThread_pending (s : State) (e : Fin 8) (t : Fin 16) (x : Thread) : (s.setThread e t x).pending = s.pending := rfl
@[simp] theorem State.setThread_now (s : State) (e : Fin 8) (t : Fin 16) (x : Thread) : (s.setThread e t x).now = s.now := rfl
@[simp] theorem State.setThread_freeIdx (s : State) (e : Fin 8) (t : Fin 16) (x : Thread) : (s.setThread e t x).freeIdx = s.freeIdx := rfl
@[simp] theorem State.setThread_draws (s : State) (e : Fin 8) (t : Fin 16) (x : Thread) : (s.setThread e t x).draws = s.draws := rfl
@[simp] theorem State.setThread_obj (s : State) (e : Fin 8) (t : Fin 16) (x : Thread) : (s.setThread e t x).obj = s.obj := rfl
@[simp] theorem State.setThread_tb (s : State) (e : Fin 8) (t : Fin 16) (x : Thread) : (s.setThread e t x).tb = s.tb := rfl
@[simp] theorem State.setThread_journal (s : State) (e : Fin 8) (t : Fin 16) (x : Thread) : (s.setThread e t x).journal = s.journal := rfl
@[simp] theorem State.setThread_mode (s : State) (e : Fin 8) (t : Fin 16) (x : Thread) : (s.setThread e t x).mode = s.mode := rfl
@[simp] theorem State.setThread_keep (s : State) (e : Fin 8) (t : Fin 16) (x : Thread) : (s.setThread e t x).keep = s.keep := rfl
@[simp] theorem State.setThread_slots (s : State) (e : Fin 8) (t : Fin 16) (x : Thread) : (s.setThread e t x).slots = s.slots := rfl
@[simp] theorem State.setThread_refins (s : State) (e : Fin 8) (t : Fin 16) (x : Thread) : (s.setThread e t x).refins = s.refins := rfl
@[simp] theorem State.setThread_selT (s : State) (e : Fin 8) (t : Fin 16) (x : Thread) : (s.setThread e t x).selT = s.selT := rfl
@[simp] theorem State.setThread_selF (s : State) (e : Fin 8) (t : Fin 16) (x : Thread) : (s.setThread e t x).selF = s.selF := rfl
@[simp] theorem State.setThread_disputes (s : State) (e : Fin 8) (t : Fin 16) (x : Thread) : (s.setThread e t x).disputes = s.disputes := rfl
@[simp] theorem State.setThread_loops (s : State) (e : Fin 8) (t : Fin 16) (x : Thread) : (s.setThread e t x).loops = s.loops := rfl
@[simp] theorem State.setThread_hold (s : State) (e : Fin 8) (t : Fin 16) (x : Thread) : (s.setThread e t x).hold = s.hold := rfl
@[simp] theorem State.setThread_outs (s : State) (e : Fin 8) (t : Fin 16) (x : Thread) : (s.setThread e t x).outs = s.outs := rfl
@[simp] theorem State.setThread_tods (s : State) (e : Fin 8) (t : Fin 16) (x : Thread) : (s.setThread e t x).tods = s.tods := rfl
@[simp] theorem State.setThread_caps (s : State) (e : Fin 8) (t : Fin 16) (x : Thread) : (s.setThread e t x).caps = s.caps := rfl
@[simp] theorem State.setThread_sky (s : State) (e : Fin 8) (t : Fin 16) (x : Thread) : (s.setThread e t x).sky = s.sky := rfl
@[simp] theorem State.setThread_flash (s : State) (e : Fin 8) (t : Fin 16) (x : Thread) : (s.setThread e t x).flash = s.flash := rfl
@[simp] theorem State.setThread_ports (s : State) (e : Fin 8) (t : Fin 16) (x : Thread) : (s.setThread e t x).ports = s.ports := rfl
@[simp] theorem State.setThread_side (s : State) (e : Fin 8) (t : Fin 16) (x : Thread) : (s.setThread e t x).side = s.side := rfl
@[simp] theorem State.setThread_ctrs (s : State) (e : Fin 8) (t : Fin 16) (x : Thread) : (s.setThread e t x).ctrs = s.ctrs := rfl
@[simp] theorem State.setThread_snaps (s : State) (e : Fin 8) (t : Fin 16) (x : Thread) : (s.setThread e t x).snaps = s.snaps := rfl
@[simp] theorem State.setThread_ool (s : State) (e : Fin 8) (t : Fin 16) (x : Thread) : (s.setThread e t x).ool = s.ool := rfl
@[simp] theorem State.setThread_prot (s : State) (e : Fin 8) (t : Fin 16) (x : Thread) : (s.setThread e t x).prot = s.prot := rfl
@[simp] theorem State.setThread_sec (s : State) (e : Fin 8) (t : Fin 16) (x : Thread) : (s.setThread e t x).sec = s.sec := rfl
@[simp] theorem State.setThread_mem (s : State) (e : Fin 8) (t : Fin 16) (x : Thread) : (s.setThread e t x).mem = s.mem := rfl
@[simp] theorem State.setThread_bn (s : State) (e : Fin 8) (t : Fin 16) (x : Thread) : (s.setThread e t x).bn = s.bn := rfl
@[simp] theorem State.setThread_sys (s : State) (e : Fin 8) (t : Fin 16) (x : Thread) : (s.setThread e t x).sys = s.sys := rfl
@[simp] theorem State.setThread_sched (s : State) (e : Fin 8) (t : Fin 16) (x : Thread) : (s.setThread e t x).sched = s.sched := rfl

@[simp] theorem State.setCt_pending (s : State) (x : ClientTable) : (s.setCt x).pending = s.pending := rfl
@[simp] theorem State.setCt_now (s : State) (x : ClientTable) : (s.setCt x).now = s.now := rfl
@[simp] theorem State.setCt_freeIdx (s : State) (x : ClientTable) : (s.setCt x).freeIdx = s.freeIdx := rfl
@[simp] theorem State.setCt_draws (s : State) (x : ClientTable) : (s.setCt x).draws = s.draws := rfl
@[simp] theorem State.setCt_obj (s : State) (x : ClientTable) : (s.setCt x).obj = s.obj := rfl
@[simp] theorem State.setCt_tb (s : State) (x : ClientTable) : (s.setCt x).tb = s.tb := rfl
@[simp] theorem State.setCt_journal (s : State) (x : ClientTable) : (s.setCt x).journal = s.journal := rfl
@[simp] theorem State.setCt_mode (s : State) (x : ClientTable) : (s.setCt x).mode = s.mode := rfl
@[simp] theorem State.setCt_keep (s : State) (x : ClientTable) : (s.setCt x).keep = s.keep := rfl
@[simp] theorem State.setCt_slots (s : State) (x : ClientTable) : (s.setCt x).slots = s.slots := rfl
@[simp] theorem State.setCt_refins (s : State) (x : ClientTable) : (s.setCt x).refins = s.refins := rfl
@[simp] theorem State.setCt_selT (s : State) (x : ClientTable) : (s.setCt x).selT = s.selT := rfl
@[simp] theorem State.setCt_selF (s : State) (x : ClientTable) : (s.setCt x).selF = s.selF := rfl
@[simp] theorem State.setCt_disputes (s : State) (x : ClientTable) : (s.setCt x).disputes = s.disputes := rfl
@[simp] theorem State.setCt_loops (s : State) (x : ClientTable) : (s.setCt x).loops = s.loops := rfl
@[simp] theorem State.setCt_hold (s : State) (x : ClientTable) : (s.setCt x).hold = s.hold := rfl
@[simp] theorem State.setCt_outs (s : State) (x : ClientTable) : (s.setCt x).outs = s.outs := rfl
@[simp] theorem State.setCt_tods (s : State) (x : ClientTable) : (s.setCt x).tods = s.tods := rfl
@[simp] theorem State.setCt_caps (s : State) (x : ClientTable) : (s.setCt x).caps = s.caps := rfl
@[simp] theorem State.setCt_sky (s : State) (x : ClientTable) : (s.setCt x).sky = s.sky := rfl
@[simp] theorem State.setCt_flash (s : State) (x : ClientTable) : (s.setCt x).flash = s.flash := rfl
@[simp] theorem State.setCt_ports (s : State) (x : ClientTable) : (s.setCt x).ports = s.ports := rfl
@[simp] theorem State.setCt_side (s : State) (x : ClientTable) : (s.setCt x).side = s.side := rfl
@[simp] theorem State.setCt_ctrs (s : State) (x : ClientTable) : (s.setCt x).ctrs = s.ctrs := rfl
@[simp] theorem State.setCt_snaps (s : State) (x : ClientTable) : (s.setCt x).snaps = s.snaps := rfl
@[simp] theorem State.setCt_ool (s : State) (x : ClientTable) : (s.setCt x).ool = s.ool := rfl
@[simp] theorem State.setCt_prot (s : State) (x : ClientTable) : (s.setCt x).prot = s.prot := rfl
@[simp] theorem State.setCt_sec (s : State) (x : ClientTable) : (s.setCt x).sec = s.sec := rfl
@[simp] theorem State.setCt_mem (s : State) (x : ClientTable) : (s.setCt x).mem = s.mem := rfl
@[simp] theorem State.setCt_bn (s : State) (x : ClientTable) : (s.setCt x).bn = s.bn := rfl
@[simp] theorem State.setCt_sys (s : State) (x : ClientTable) : (s.setCt x).sys = s.sys := rfl
@[simp] theorem State.setCt_sched (s : State) (x : ClientTable) : (s.setCt x).sched = s.sched := rfl

@[simp] theorem State.setCtr_pending (s : State) (i : Fin 16) (x : CtrBlock) : (s.setCtr i x).pending = s.pending := rfl
@[simp] theorem State.setCtr_now (s : State) (i : Fin 16) (x : CtrBlock) : (s.setCtr i x).now = s.now := rfl
@[simp] theorem State.setCtr_freeIdx (s : State) (i : Fin 16) (x : CtrBlock) : (s.setCtr i x).freeIdx = s.freeIdx := rfl
@[simp] theorem State.setCtr_draws (s : State) (i : Fin 16) (x : CtrBlock) : (s.setCtr i x).draws = s.draws := rfl
@[simp] theorem State.setCtr_obj (s : State) (i : Fin 16) (x : CtrBlock) : (s.setCtr i x).obj = s.obj := rfl
@[simp] theorem State.setCtr_tb (s : State) (i : Fin 16) (x : CtrBlock) : (s.setCtr i x).tb = s.tb := rfl
@[simp] theorem State.setCtr_journal (s : State) (i : Fin 16) (x : CtrBlock) : (s.setCtr i x).journal = s.journal := rfl
@[simp] theorem State.setCtr_mode (s : State) (i : Fin 16) (x : CtrBlock) : (s.setCtr i x).mode = s.mode := rfl
@[simp] theorem State.setCtr_keep (s : State) (i : Fin 16) (x : CtrBlock) : (s.setCtr i x).keep = s.keep := rfl
@[simp] theorem State.setCtr_slots (s : State) (i : Fin 16) (x : CtrBlock) : (s.setCtr i x).slots = s.slots := rfl
@[simp] theorem State.setCtr_refins (s : State) (i : Fin 16) (x : CtrBlock) : (s.setCtr i x).refins = s.refins := rfl
@[simp] theorem State.setCtr_selT (s : State) (i : Fin 16) (x : CtrBlock) : (s.setCtr i x).selT = s.selT := rfl
@[simp] theorem State.setCtr_selF (s : State) (i : Fin 16) (x : CtrBlock) : (s.setCtr i x).selF = s.selF := rfl
@[simp] theorem State.setCtr_disputes (s : State) (i : Fin 16) (x : CtrBlock) : (s.setCtr i x).disputes = s.disputes := rfl
@[simp] theorem State.setCtr_loops (s : State) (i : Fin 16) (x : CtrBlock) : (s.setCtr i x).loops = s.loops := rfl
@[simp] theorem State.setCtr_hold (s : State) (i : Fin 16) (x : CtrBlock) : (s.setCtr i x).hold = s.hold := rfl
@[simp] theorem State.setCtr_outs (s : State) (i : Fin 16) (x : CtrBlock) : (s.setCtr i x).outs = s.outs := rfl
@[simp] theorem State.setCtr_tods (s : State) (i : Fin 16) (x : CtrBlock) : (s.setCtr i x).tods = s.tods := rfl
@[simp] theorem State.setCtr_caps (s : State) (i : Fin 16) (x : CtrBlock) : (s.setCtr i x).caps = s.caps := rfl
@[simp] theorem State.setCtr_sky (s : State) (i : Fin 16) (x : CtrBlock) : (s.setCtr i x).sky = s.sky := rfl
@[simp] theorem State.setCtr_flash (s : State) (i : Fin 16) (x : CtrBlock) : (s.setCtr i x).flash = s.flash := rfl
@[simp] theorem State.setCtr_ports (s : State) (i : Fin 16) (x : CtrBlock) : (s.setCtr i x).ports = s.ports := rfl
@[simp] theorem State.setCtr_side (s : State) (i : Fin 16) (x : CtrBlock) : (s.setCtr i x).side = s.side := rfl
@[simp] theorem State.setCtr_serve (s : State) (i : Fin 16) (x : CtrBlock) : (s.setCtr i x).serve = s.serve := rfl
@[simp] theorem State.setCtr_ctrs (s : State) (i : Fin 16) (x : CtrBlock) : (s.setCtr i x).ctrs = s.ctrs.set i x := rfl
@[simp] theorem State.setCtr_snaps (s : State) (i : Fin 16) (x : CtrBlock) : (s.setCtr i x).snaps = s.snaps := rfl
@[simp] theorem State.setCtr_ool (s : State) (i : Fin 16) (x : CtrBlock) : (s.setCtr i x).ool = s.ool := rfl
@[simp] theorem State.setCtr_prot (s : State) (i : Fin 16) (x : CtrBlock) : (s.setCtr i x).prot = s.prot := rfl
@[simp] theorem State.setCtr_sec (s : State) (i : Fin 16) (x : CtrBlock) : (s.setCtr i x).sec = s.sec := rfl
@[simp] theorem State.setCtr_mem (s : State) (i : Fin 16) (x : CtrBlock) : (s.setCtr i x).mem = s.mem := rfl
@[simp] theorem State.setCtr_bn (s : State) (i : Fin 16) (x : CtrBlock) : (s.setCtr i x).bn = s.bn := rfl
@[simp] theorem State.setCtr_sys (s : State) (i : Fin 16) (x : CtrBlock) : (s.setCtr i x).sys = s.sys := rfl
@[simp] theorem State.setCtr_sched (s : State) (i : Fin 16) (x : CtrBlock) : (s.setCtr i x).sched = s.sched := rfl

@[simp] theorem State.count_pending (s : State) (blk : Fin 16) (code w unit : Nat) : (s.count blk code w unit).pending = s.pending := rfl
@[simp] theorem State.count_now (s : State) (blk : Fin 16) (code w unit : Nat) : (s.count blk code w unit).now = s.now := rfl
@[simp] theorem State.count_freeIdx (s : State) (blk : Fin 16) (code w unit : Nat) : (s.count blk code w unit).freeIdx = s.freeIdx := rfl
@[simp] theorem State.count_draws (s : State) (blk : Fin 16) (code w unit : Nat) : (s.count blk code w unit).draws = s.draws := rfl
@[simp] theorem State.count_obj (s : State) (blk : Fin 16) (code w unit : Nat) : (s.count blk code w unit).obj = s.obj := rfl
@[simp] theorem State.count_tb (s : State) (blk : Fin 16) (code w unit : Nat) : (s.count blk code w unit).tb = s.tb := rfl
@[simp] theorem State.count_journal (s : State) (blk : Fin 16) (code w unit : Nat) : (s.count blk code w unit).journal = s.journal := rfl
@[simp] theorem State.count_mode (s : State) (blk : Fin 16) (code w unit : Nat) : (s.count blk code w unit).mode = s.mode := rfl
@[simp] theorem State.count_keep (s : State) (blk : Fin 16) (code w unit : Nat) : (s.count blk code w unit).keep = s.keep := rfl
@[simp] theorem State.count_slots (s : State) (blk : Fin 16) (code w unit : Nat) : (s.count blk code w unit).slots = s.slots := rfl
@[simp] theorem State.count_refins (s : State) (blk : Fin 16) (code w unit : Nat) : (s.count blk code w unit).refins = s.refins := rfl
@[simp] theorem State.count_selT (s : State) (blk : Fin 16) (code w unit : Nat) : (s.count blk code w unit).selT = s.selT := rfl
@[simp] theorem State.count_selF (s : State) (blk : Fin 16) (code w unit : Nat) : (s.count blk code w unit).selF = s.selF := rfl
@[simp] theorem State.count_disputes (s : State) (blk : Fin 16) (code w unit : Nat) : (s.count blk code w unit).disputes = s.disputes := rfl
@[simp] theorem State.count_loops (s : State) (blk : Fin 16) (code w unit : Nat) : (s.count blk code w unit).loops = s.loops := rfl
@[simp] theorem State.count_hold (s : State) (blk : Fin 16) (code w unit : Nat) : (s.count blk code w unit).hold = s.hold := rfl
@[simp] theorem State.count_outs (s : State) (blk : Fin 16) (code w unit : Nat) : (s.count blk code w unit).outs = s.outs := rfl
@[simp] theorem State.count_tods (s : State) (blk : Fin 16) (code w unit : Nat) : (s.count blk code w unit).tods = s.tods := rfl
@[simp] theorem State.count_caps (s : State) (blk : Fin 16) (code w unit : Nat) : (s.count blk code w unit).caps = s.caps := rfl
@[simp] theorem State.count_sky (s : State) (blk : Fin 16) (code w unit : Nat) : (s.count blk code w unit).sky = s.sky := rfl
@[simp] theorem State.count_flash (s : State) (blk : Fin 16) (code w unit : Nat) : (s.count blk code w unit).flash = s.flash := rfl
@[simp] theorem State.count_ports (s : State) (blk : Fin 16) (code w unit : Nat) : (s.count blk code w unit).ports = s.ports := rfl
@[simp] theorem State.count_side (s : State) (blk : Fin 16) (code w unit : Nat) : (s.count blk code w unit).side = s.side := rfl
@[simp] theorem State.count_serve (s : State) (blk : Fin 16) (code w unit : Nat) : (s.count blk code w unit).serve = s.serve := rfl
@[simp] theorem State.count_snaps (s : State) (blk : Fin 16) (code w unit : Nat) : (s.count blk code w unit).snaps = s.snaps := rfl
@[simp] theorem State.count_ool (s : State) (blk : Fin 16) (code w unit : Nat) : (s.count blk code w unit).ool = s.ool := rfl
@[simp] theorem State.count_prot (s : State) (blk : Fin 16) (code w unit : Nat) : (s.count blk code w unit).prot = s.prot := rfl
@[simp] theorem State.count_sec (s : State) (blk : Fin 16) (code w unit : Nat) : (s.count blk code w unit).sec = s.sec := rfl
@[simp] theorem State.count_mem (s : State) (blk : Fin 16) (code w unit : Nat) : (s.count blk code w unit).mem = s.mem := rfl
@[simp] theorem State.count_bn (s : State) (blk : Fin 16) (code w unit : Nat) : (s.count blk code w unit).bn = s.bn := rfl
@[simp] theorem State.count_sys (s : State) (blk : Fin 16) (code w unit : Nat) : (s.count blk code w unit).sys = s.sys := rfl
@[simp] theorem State.count_sched (s : State) (blk : Fin 16) (code w unit : Nat) : (s.count blk code w unit).sched = s.sched := rfl

@[simp] theorem State.setRing_pending (s : State) (k : Nat) (x : Ring) : (s.setRing k x).pending = s.pending := rfl
@[simp] theorem State.setRing_now (s : State) (k : Nat) (x : Ring) : (s.setRing k x).now = s.now := rfl
@[simp] theorem State.setRing_freeIdx (s : State) (k : Nat) (x : Ring) : (s.setRing k x).freeIdx = s.freeIdx := rfl
@[simp] theorem State.setRing_draws (s : State) (k : Nat) (x : Ring) : (s.setRing k x).draws = s.draws := rfl
@[simp] theorem State.setRing_obj (s : State) (k : Nat) (x : Ring) : (s.setRing k x).obj = s.obj := rfl
@[simp] theorem State.setRing_tb (s : State) (k : Nat) (x : Ring) : (s.setRing k x).tb = s.tb := rfl
@[simp] theorem State.setRing_journal (s : State) (k : Nat) (x : Ring) : (s.setRing k x).journal = s.journal := rfl
@[simp] theorem State.setRing_mode (s : State) (k : Nat) (x : Ring) : (s.setRing k x).mode = s.mode := rfl
@[simp] theorem State.setRing_keep (s : State) (k : Nat) (x : Ring) : (s.setRing k x).keep = s.keep := rfl
@[simp] theorem State.setRing_slots (s : State) (k : Nat) (x : Ring) : (s.setRing k x).slots = s.slots := rfl
@[simp] theorem State.setRing_refins (s : State) (k : Nat) (x : Ring) : (s.setRing k x).refins = s.refins := rfl
@[simp] theorem State.setRing_selT (s : State) (k : Nat) (x : Ring) : (s.setRing k x).selT = s.selT := rfl
@[simp] theorem State.setRing_selF (s : State) (k : Nat) (x : Ring) : (s.setRing k x).selF = s.selF := rfl
@[simp] theorem State.setRing_disputes (s : State) (k : Nat) (x : Ring) : (s.setRing k x).disputes = s.disputes := rfl
@[simp] theorem State.setRing_loops (s : State) (k : Nat) (x : Ring) : (s.setRing k x).loops = s.loops := rfl
@[simp] theorem State.setRing_hold (s : State) (k : Nat) (x : Ring) : (s.setRing k x).hold = s.hold := rfl
@[simp] theorem State.setRing_outs (s : State) (k : Nat) (x : Ring) : (s.setRing k x).outs = s.outs := rfl
@[simp] theorem State.setRing_tods (s : State) (k : Nat) (x : Ring) : (s.setRing k x).tods = s.tods := rfl
@[simp] theorem State.setRing_caps (s : State) (k : Nat) (x : Ring) : (s.setRing k x).caps = s.caps := rfl
@[simp] theorem State.setRing_sky (s : State) (k : Nat) (x : Ring) : (s.setRing k x).sky = s.sky := rfl
@[simp] theorem State.setRing_flash (s : State) (k : Nat) (x : Ring) : (s.setRing k x).flash = s.flash := rfl
@[simp] theorem State.setRing_ports (s : State) (k : Nat) (x : Ring) : (s.setRing k x).ports = s.ports := rfl
@[simp] theorem State.setRing_side (s : State) (k : Nat) (x : Ring) : (s.setRing k x).side = s.side := rfl
@[simp] theorem State.setRing_ctrs (s : State) (k : Nat) (x : Ring) : (s.setRing k x).ctrs = s.ctrs := rfl
@[simp] theorem State.setRing_snaps (s : State) (k : Nat) (x : Ring) : (s.setRing k x).snaps = s.snaps := rfl
@[simp] theorem State.setRing_ool (s : State) (k : Nat) (x : Ring) : (s.setRing k x).ool = s.ool := rfl
@[simp] theorem State.setRing_prot (s : State) (k : Nat) (x : Ring) : (s.setRing k x).prot = s.prot := rfl
@[simp] theorem State.setRing_sec (s : State) (k : Nat) (x : Ring) : (s.setRing k x).sec = s.sec := rfl
@[simp] theorem State.setRing_mem (s : State) (k : Nat) (x : Ring) : (s.setRing k x).mem = s.mem := rfl
@[simp] theorem State.setRing_bn (s : State) (k : Nat) (x : Ring) : (s.setRing k x).bn = s.bn := rfl
@[simp] theorem State.setRing_sys (s : State) (k : Nat) (x : Ring) : (s.setRing k x).sys = s.sys := rfl
@[simp] theorem State.setRing_sched (s : State) (k : Nat) (x : Ring) : (s.setRing k x).sched = s.sched := rfl

@[simp] theorem State.setSession_pending (s : State) (k : Fin 32) (x : Option Session) : (s.setSession k x).pending = s.pending := rfl
@[simp] theorem State.setSession_now (s : State) (k : Fin 32) (x : Option Session) : (s.setSession k x).now = s.now := rfl
@[simp] theorem State.setSession_freeIdx (s : State) (k : Fin 32) (x : Option Session) : (s.setSession k x).freeIdx = s.freeIdx := rfl
@[simp] theorem State.setSession_draws (s : State) (k : Fin 32) (x : Option Session) : (s.setSession k x).draws = s.draws := rfl
@[simp] theorem State.setSession_obj (s : State) (k : Fin 32) (x : Option Session) : (s.setSession k x).obj = s.obj := rfl
@[simp] theorem State.setSession_tb (s : State) (k : Fin 32) (x : Option Session) : (s.setSession k x).tb = s.tb := rfl
@[simp] theorem State.setSession_journal (s : State) (k : Fin 32) (x : Option Session) : (s.setSession k x).journal = s.journal := rfl
@[simp] theorem State.setSession_mode (s : State) (k : Fin 32) (x : Option Session) : (s.setSession k x).mode = s.mode := rfl
@[simp] theorem State.setSession_keep (s : State) (k : Fin 32) (x : Option Session) : (s.setSession k x).keep = s.keep := rfl
@[simp] theorem State.setSession_slots (s : State) (k : Fin 32) (x : Option Session) : (s.setSession k x).slots = s.slots := rfl
@[simp] theorem State.setSession_refins (s : State) (k : Fin 32) (x : Option Session) : (s.setSession k x).refins = s.refins := rfl
@[simp] theorem State.setSession_selT (s : State) (k : Fin 32) (x : Option Session) : (s.setSession k x).selT = s.selT := rfl
@[simp] theorem State.setSession_selF (s : State) (k : Fin 32) (x : Option Session) : (s.setSession k x).selF = s.selF := rfl
@[simp] theorem State.setSession_disputes (s : State) (k : Fin 32) (x : Option Session) : (s.setSession k x).disputes = s.disputes := rfl
@[simp] theorem State.setSession_loops (s : State) (k : Fin 32) (x : Option Session) : (s.setSession k x).loops = s.loops := rfl
@[simp] theorem State.setSession_hold (s : State) (k : Fin 32) (x : Option Session) : (s.setSession k x).hold = s.hold := rfl
@[simp] theorem State.setSession_outs (s : State) (k : Fin 32) (x : Option Session) : (s.setSession k x).outs = s.outs := rfl
@[simp] theorem State.setSession_tods (s : State) (k : Fin 32) (x : Option Session) : (s.setSession k x).tods = s.tods := rfl
@[simp] theorem State.setSession_caps (s : State) (k : Fin 32) (x : Option Session) : (s.setSession k x).caps = s.caps := rfl
@[simp] theorem State.setSession_sky (s : State) (k : Fin 32) (x : Option Session) : (s.setSession k x).sky = s.sky := rfl
@[simp] theorem State.setSession_flash (s : State) (k : Fin 32) (x : Option Session) : (s.setSession k x).flash = s.flash := rfl
@[simp] theorem State.setSession_ports (s : State) (k : Fin 32) (x : Option Session) : (s.setSession k x).ports = s.ports := rfl
@[simp] theorem State.setSession_side (s : State) (k : Fin 32) (x : Option Session) : (s.setSession k x).side = s.side := rfl
@[simp] theorem State.setSession_serve (s : State) (k : Fin 32) (x : Option Session) : (s.setSession k x).serve = s.serve := rfl
@[simp] theorem State.setSession_ctrs (s : State) (k : Fin 32) (x : Option Session) : (s.setSession k x).ctrs = s.ctrs := rfl
@[simp] theorem State.setSession_snaps (s : State) (k : Fin 32) (x : Option Session) : (s.setSession k x).snaps = s.snaps := rfl
@[simp] theorem State.setSession_prot (s : State) (k : Fin 32) (x : Option Session) : (s.setSession k x).prot = s.prot := rfl
@[simp] theorem State.setSession_sec (s : State) (k : Fin 32) (x : Option Session) : (s.setSession k x).sec = s.sec := rfl
@[simp] theorem State.setSession_mem (s : State) (k : Fin 32) (x : Option Session) : (s.setSession k x).mem = s.mem := rfl
@[simp] theorem State.setSession_bn (s : State) (k : Fin 32) (x : Option Session) : (s.setSession k x).bn = s.bn := rfl
@[simp] theorem State.setSession_sys (s : State) (k : Fin 32) (x : Option Session) : (s.setSession k x).sys = s.sys := rfl
@[simp] theorem State.setSession_sched (s : State) (k : Fin 32) (x : Option Session) : (s.setSession k x).sched = s.sched := rfl

@[simp] theorem State.setInst_pending (s : State) (i : Fin 4) (x : PtpInst) : (s.setInst i x).pending = s.pending := rfl
@[simp] theorem State.setInst_now (s : State) (i : Fin 4) (x : PtpInst) : (s.setInst i x).now = s.now := rfl
@[simp] theorem State.setInst_freeIdx (s : State) (i : Fin 4) (x : PtpInst) : (s.setInst i x).freeIdx = s.freeIdx := rfl
@[simp] theorem State.setInst_draws (s : State) (i : Fin 4) (x : PtpInst) : (s.setInst i x).draws = s.draws := rfl
@[simp] theorem State.setInst_obj (s : State) (i : Fin 4) (x : PtpInst) : (s.setInst i x).obj = s.obj := rfl
@[simp] theorem State.setInst_tb (s : State) (i : Fin 4) (x : PtpInst) : (s.setInst i x).tb = s.tb := rfl
@[simp] theorem State.setInst_journal (s : State) (i : Fin 4) (x : PtpInst) : (s.setInst i x).journal = s.journal := rfl
@[simp] theorem State.setInst_mode (s : State) (i : Fin 4) (x : PtpInst) : (s.setInst i x).mode = s.mode := rfl
@[simp] theorem State.setInst_keep (s : State) (i : Fin 4) (x : PtpInst) : (s.setInst i x).keep = s.keep := rfl
@[simp] theorem State.setInst_slots (s : State) (i : Fin 4) (x : PtpInst) : (s.setInst i x).slots = s.slots := rfl
@[simp] theorem State.setInst_refins (s : State) (i : Fin 4) (x : PtpInst) : (s.setInst i x).refins = s.refins := rfl
@[simp] theorem State.setInst_selT (s : State) (i : Fin 4) (x : PtpInst) : (s.setInst i x).selT = s.selT := rfl
@[simp] theorem State.setInst_selF (s : State) (i : Fin 4) (x : PtpInst) : (s.setInst i x).selF = s.selF := rfl
@[simp] theorem State.setInst_disputes (s : State) (i : Fin 4) (x : PtpInst) : (s.setInst i x).disputes = s.disputes := rfl
@[simp] theorem State.setInst_loops (s : State) (i : Fin 4) (x : PtpInst) : (s.setInst i x).loops = s.loops := rfl
@[simp] theorem State.setInst_hold (s : State) (i : Fin 4) (x : PtpInst) : (s.setInst i x).hold = s.hold := rfl
@[simp] theorem State.setInst_outs (s : State) (i : Fin 4) (x : PtpInst) : (s.setInst i x).outs = s.outs := rfl
@[simp] theorem State.setInst_tods (s : State) (i : Fin 4) (x : PtpInst) : (s.setInst i x).tods = s.tods := rfl
@[simp] theorem State.setInst_caps (s : State) (i : Fin 4) (x : PtpInst) : (s.setInst i x).caps = s.caps := rfl
@[simp] theorem State.setInst_sky (s : State) (i : Fin 4) (x : PtpInst) : (s.setInst i x).sky = s.sky := rfl
@[simp] theorem State.setInst_flash (s : State) (i : Fin 4) (x : PtpInst) : (s.setInst i x).flash = s.flash := rfl
@[simp] theorem State.setInst_ports (s : State) (i : Fin 4) (x : PtpInst) : (s.setInst i x).ports = s.ports := rfl
@[simp] theorem State.setInst_side (s : State) (i : Fin 4) (x : PtpInst) : (s.setInst i x).side = s.side := rfl
@[simp] theorem State.setInst_serve (s : State) (i : Fin 4) (x : PtpInst) : (s.setInst i x).serve = s.serve := rfl
@[simp] theorem State.setInst_ctrs (s : State) (i : Fin 4) (x : PtpInst) : (s.setInst i x).ctrs = s.ctrs := rfl
@[simp] theorem State.setInst_snaps (s : State) (i : Fin 4) (x : PtpInst) : (s.setInst i x).snaps = s.snaps := rfl
@[simp] theorem State.setInst_ool (s : State) (i : Fin 4) (x : PtpInst) : (s.setInst i x).ool = s.ool := rfl
@[simp] theorem State.setInst_sec (s : State) (i : Fin 4) (x : PtpInst) : (s.setInst i x).sec = s.sec := rfl
@[simp] theorem State.setInst_mem (s : State) (i : Fin 4) (x : PtpInst) : (s.setInst i x).mem = s.mem := rfl
@[simp] theorem State.setInst_bn (s : State) (i : Fin 4) (x : PtpInst) : (s.setInst i x).bn = s.bn := rfl
@[simp] theorem State.setInst_sys (s : State) (i : Fin 4) (x : PtpInst) : (s.setInst i x).sys = s.sys := rfl
@[simp] theorem State.setInst_sched (s : State) (i : Fin 4) (x : PtpInst) : (s.setInst i x).sched = s.sched := rfl

@[simp] theorem State.setBand_pending (s : State) (b : Fin 2) (x : Band) : (s.setBand b x).pending = s.pending := rfl
@[simp] theorem State.setBand_now (s : State) (b : Fin 2) (x : Band) : (s.setBand b x).now = s.now := rfl
@[simp] theorem State.setBand_freeIdx (s : State) (b : Fin 2) (x : Band) : (s.setBand b x).freeIdx = s.freeIdx := rfl
@[simp] theorem State.setBand_draws (s : State) (b : Fin 2) (x : Band) : (s.setBand b x).draws = s.draws := rfl
@[simp] theorem State.setBand_obj (s : State) (b : Fin 2) (x : Band) : (s.setBand b x).obj = s.obj := rfl
@[simp] theorem State.setBand_tb (s : State) (b : Fin 2) (x : Band) : (s.setBand b x).tb = s.tb := rfl
@[simp] theorem State.setBand_journal (s : State) (b : Fin 2) (x : Band) : (s.setBand b x).journal = s.journal := rfl
@[simp] theorem State.setBand_mode (s : State) (b : Fin 2) (x : Band) : (s.setBand b x).mode = s.mode := rfl
@[simp] theorem State.setBand_keep (s : State) (b : Fin 2) (x : Band) : (s.setBand b x).keep = s.keep := rfl
@[simp] theorem State.setBand_slots (s : State) (b : Fin 2) (x : Band) : (s.setBand b x).slots = s.slots := rfl
@[simp] theorem State.setBand_refins (s : State) (b : Fin 2) (x : Band) : (s.setBand b x).refins = s.refins := rfl
@[simp] theorem State.setBand_selT (s : State) (b : Fin 2) (x : Band) : (s.setBand b x).selT = s.selT := rfl
@[simp] theorem State.setBand_selF (s : State) (b : Fin 2) (x : Band) : (s.setBand b x).selF = s.selF := rfl
@[simp] theorem State.setBand_disputes (s : State) (b : Fin 2) (x : Band) : (s.setBand b x).disputes = s.disputes := rfl
@[simp] theorem State.setBand_loops (s : State) (b : Fin 2) (x : Band) : (s.setBand b x).loops = s.loops := rfl
@[simp] theorem State.setBand_hold (s : State) (b : Fin 2) (x : Band) : (s.setBand b x).hold = s.hold := rfl
@[simp] theorem State.setBand_outs (s : State) (b : Fin 2) (x : Band) : (s.setBand b x).outs = s.outs := rfl
@[simp] theorem State.setBand_tods (s : State) (b : Fin 2) (x : Band) : (s.setBand b x).tods = s.tods := rfl
@[simp] theorem State.setBand_caps (s : State) (b : Fin 2) (x : Band) : (s.setBand b x).caps = s.caps := rfl
@[simp] theorem State.setBand_flash (s : State) (b : Fin 2) (x : Band) : (s.setBand b x).flash = s.flash := rfl
@[simp] theorem State.setBand_ports (s : State) (b : Fin 2) (x : Band) : (s.setBand b x).ports = s.ports := rfl
@[simp] theorem State.setBand_side (s : State) (b : Fin 2) (x : Band) : (s.setBand b x).side = s.side := rfl
@[simp] theorem State.setBand_serve (s : State) (b : Fin 2) (x : Band) : (s.setBand b x).serve = s.serve := rfl
@[simp] theorem State.setBand_ctrs (s : State) (b : Fin 2) (x : Band) : (s.setBand b x).ctrs = s.ctrs := rfl
@[simp] theorem State.setBand_snaps (s : State) (b : Fin 2) (x : Band) : (s.setBand b x).snaps = s.snaps := rfl
@[simp] theorem State.setBand_ool (s : State) (b : Fin 2) (x : Band) : (s.setBand b x).ool = s.ool := rfl
@[simp] theorem State.setBand_prot (s : State) (b : Fin 2) (x : Band) : (s.setBand b x).prot = s.prot := rfl
@[simp] theorem State.setBand_sec (s : State) (b : Fin 2) (x : Band) : (s.setBand b x).sec = s.sec := rfl
@[simp] theorem State.setBand_mem (s : State) (b : Fin 2) (x : Band) : (s.setBand b x).mem = s.mem := rfl
@[simp] theorem State.setBand_bn (s : State) (b : Fin 2) (x : Band) : (s.setBand b x).bn = s.bn := rfl
@[simp] theorem State.setBand_sys (s : State) (b : Fin 2) (x : Band) : (s.setBand b x).sys = s.sys := rfl
@[simp] theorem State.setBand_sched (s : State) (b : Fin 2) (x : Band) : (s.setBand b x).sched = s.sched := rfl

@[simp] theorem State.setChannel_pending (s : State) (c : Fin 256) (x : Channel) : (s.setChannel c x).pending = s.pending := rfl
@[simp] theorem State.setChannel_now (s : State) (c : Fin 256) (x : Channel) : (s.setChannel c x).now = s.now := rfl
@[simp] theorem State.setChannel_freeIdx (s : State) (c : Fin 256) (x : Channel) : (s.setChannel c x).freeIdx = s.freeIdx := rfl
@[simp] theorem State.setChannel_draws (s : State) (c : Fin 256) (x : Channel) : (s.setChannel c x).draws = s.draws := rfl
@[simp] theorem State.setChannel_obj (s : State) (c : Fin 256) (x : Channel) : (s.setChannel c x).obj = s.obj := rfl
@[simp] theorem State.setChannel_tb (s : State) (c : Fin 256) (x : Channel) : (s.setChannel c x).tb = s.tb := rfl
@[simp] theorem State.setChannel_journal (s : State) (c : Fin 256) (x : Channel) : (s.setChannel c x).journal = s.journal := rfl
@[simp] theorem State.setChannel_mode (s : State) (c : Fin 256) (x : Channel) : (s.setChannel c x).mode = s.mode := rfl
@[simp] theorem State.setChannel_keep (s : State) (c : Fin 256) (x : Channel) : (s.setChannel c x).keep = s.keep := rfl
@[simp] theorem State.setChannel_slots (s : State) (c : Fin 256) (x : Channel) : (s.setChannel c x).slots = s.slots := rfl
@[simp] theorem State.setChannel_refins (s : State) (c : Fin 256) (x : Channel) : (s.setChannel c x).refins = s.refins := rfl
@[simp] theorem State.setChannel_selT (s : State) (c : Fin 256) (x : Channel) : (s.setChannel c x).selT = s.selT := rfl
@[simp] theorem State.setChannel_selF (s : State) (c : Fin 256) (x : Channel) : (s.setChannel c x).selF = s.selF := rfl
@[simp] theorem State.setChannel_disputes (s : State) (c : Fin 256) (x : Channel) : (s.setChannel c x).disputes = s.disputes := rfl
@[simp] theorem State.setChannel_loops (s : State) (c : Fin 256) (x : Channel) : (s.setChannel c x).loops = s.loops := rfl
@[simp] theorem State.setChannel_hold (s : State) (c : Fin 256) (x : Channel) : (s.setChannel c x).hold = s.hold := rfl
@[simp] theorem State.setChannel_outs (s : State) (c : Fin 256) (x : Channel) : (s.setChannel c x).outs = s.outs := rfl
@[simp] theorem State.setChannel_tods (s : State) (c : Fin 256) (x : Channel) : (s.setChannel c x).tods = s.tods := rfl
@[simp] theorem State.setChannel_caps (s : State) (c : Fin 256) (x : Channel) : (s.setChannel c x).caps = s.caps := rfl
@[simp] theorem State.setChannel_flash (s : State) (c : Fin 256) (x : Channel) : (s.setChannel c x).flash = s.flash := rfl
@[simp] theorem State.setChannel_ports (s : State) (c : Fin 256) (x : Channel) : (s.setChannel c x).ports = s.ports := rfl
@[simp] theorem State.setChannel_side (s : State) (c : Fin 256) (x : Channel) : (s.setChannel c x).side = s.side := rfl
@[simp] theorem State.setChannel_serve (s : State) (c : Fin 256) (x : Channel) : (s.setChannel c x).serve = s.serve := rfl
@[simp] theorem State.setChannel_ctrs (s : State) (c : Fin 256) (x : Channel) : (s.setChannel c x).ctrs = s.ctrs := rfl
@[simp] theorem State.setChannel_snaps (s : State) (c : Fin 256) (x : Channel) : (s.setChannel c x).snaps = s.snaps := rfl
@[simp] theorem State.setChannel_ool (s : State) (c : Fin 256) (x : Channel) : (s.setChannel c x).ool = s.ool := rfl
@[simp] theorem State.setChannel_prot (s : State) (c : Fin 256) (x : Channel) : (s.setChannel c x).prot = s.prot := rfl
@[simp] theorem State.setChannel_sec (s : State) (c : Fin 256) (x : Channel) : (s.setChannel c x).sec = s.sec := rfl
@[simp] theorem State.setChannel_mem (s : State) (c : Fin 256) (x : Channel) : (s.setChannel c x).mem = s.mem := rfl
@[simp] theorem State.setChannel_bn (s : State) (c : Fin 256) (x : Channel) : (s.setChannel c x).bn = s.bn := rfl
@[simp] theorem State.setChannel_sys (s : State) (c : Fin 256) (x : Channel) : (s.setChannel c x).sys = s.sys := rfl
@[simp] theorem State.setChannel_sched (s : State) (c : Fin 256) (x : Channel) : (s.setChannel c x).sched = s.sched := rfl

@[simp] theorem State.setGrist_pending (s : State) (g : Grist) : (s.setGrist g).pending = s.pending := rfl
@[simp] theorem State.setGrist_now (s : State) (g : Grist) : (s.setGrist g).now = s.now := rfl
@[simp] theorem State.setGrist_freeIdx (s : State) (g : Grist) : (s.setGrist g).freeIdx = s.freeIdx := rfl
@[simp] theorem State.setGrist_draws (s : State) (g : Grist) : (s.setGrist g).draws = s.draws := rfl
@[simp] theorem State.setGrist_obj (s : State) (g : Grist) : (s.setGrist g).obj = s.obj := rfl
@[simp] theorem State.setGrist_tb (s : State) (g : Grist) : (s.setGrist g).tb = s.tb := rfl
@[simp] theorem State.setGrist_journal (s : State) (g : Grist) : (s.setGrist g).journal = s.journal := rfl
@[simp] theorem State.setGrist_mode (s : State) (g : Grist) : (s.setGrist g).mode = s.mode := rfl
@[simp] theorem State.setGrist_keep (s : State) (g : Grist) : (s.setGrist g).keep = s.keep := rfl
@[simp] theorem State.setGrist_slots (s : State) (g : Grist) : (s.setGrist g).slots = s.slots := rfl
@[simp] theorem State.setGrist_refins (s : State) (g : Grist) : (s.setGrist g).refins = s.refins := rfl
@[simp] theorem State.setGrist_selT (s : State) (g : Grist) : (s.setGrist g).selT = s.selT := rfl
@[simp] theorem State.setGrist_selF (s : State) (g : Grist) : (s.setGrist g).selF = s.selF := rfl
@[simp] theorem State.setGrist_disputes (s : State) (g : Grist) : (s.setGrist g).disputes = s.disputes := rfl
@[simp] theorem State.setGrist_loops (s : State) (g : Grist) : (s.setGrist g).loops = s.loops := rfl
@[simp] theorem State.setGrist_hold (s : State) (g : Grist) : (s.setGrist g).hold = s.hold := rfl
@[simp] theorem State.setGrist_outs (s : State) (g : Grist) : (s.setGrist g).outs = s.outs := rfl
@[simp] theorem State.setGrist_tods (s : State) (g : Grist) : (s.setGrist g).tods = s.tods := rfl
@[simp] theorem State.setGrist_caps (s : State) (g : Grist) : (s.setGrist g).caps = s.caps := rfl
@[simp] theorem State.setGrist_flash (s : State) (g : Grist) : (s.setGrist g).flash = s.flash := rfl
@[simp] theorem State.setGrist_ports (s : State) (g : Grist) : (s.setGrist g).ports = s.ports := rfl
@[simp] theorem State.setGrist_side (s : State) (g : Grist) : (s.setGrist g).side = s.side := rfl
@[simp] theorem State.setGrist_serve (s : State) (g : Grist) : (s.setGrist g).serve = s.serve := rfl
@[simp] theorem State.setGrist_ctrs (s : State) (g : Grist) : (s.setGrist g).ctrs = s.ctrs := rfl
@[simp] theorem State.setGrist_snaps (s : State) (g : Grist) : (s.setGrist g).snaps = s.snaps := rfl
@[simp] theorem State.setGrist_ool (s : State) (g : Grist) : (s.setGrist g).ool = s.ool := rfl
@[simp] theorem State.setGrist_prot (s : State) (g : Grist) : (s.setGrist g).prot = s.prot := rfl
@[simp] theorem State.setGrist_sec (s : State) (g : Grist) : (s.setGrist g).sec = s.sec := rfl
@[simp] theorem State.setGrist_mem (s : State) (g : Grist) : (s.setGrist g).mem = s.mem := rfl
@[simp] theorem State.setGrist_bn (s : State) (g : Grist) : (s.setGrist g).bn = s.bn := rfl
@[simp] theorem State.setGrist_sys (s : State) (g : Grist) : (s.setGrist g).sys = s.sys := rfl
@[simp] theorem State.setGrist_sched (s : State) (g : Grist) : (s.setGrist g).sched = s.sched := rfl

@[simp] theorem State.freeInt_pending (s : State) : (s.freeInt).2.pending = s.pending := rfl
@[simp] theorem State.freeInt_now (s : State) : (s.freeInt).2.now = s.now := rfl
@[simp] theorem State.freeInt_freeIdx (s : State) : (s.freeInt).2.freeIdx = s.freeIdx + 1 := rfl
@[simp] theorem State.freeInt_draws (s : State) : (s.freeInt).2.draws = s.draws := rfl
@[simp] theorem State.freeInt_obj (s : State) : (s.freeInt).2.obj = s.obj := rfl
@[simp] theorem State.freeInt_tb (s : State) : (s.freeInt).2.tb = s.tb := rfl
@[simp] theorem State.freeInt_journal (s : State) : (s.freeInt).2.journal = s.journal := rfl
@[simp] theorem State.freeInt_mode (s : State) : (s.freeInt).2.mode = s.mode := rfl
@[simp] theorem State.freeInt_keep (s : State) : (s.freeInt).2.keep = s.keep := rfl
@[simp] theorem State.freeInt_slots (s : State) : (s.freeInt).2.slots = s.slots := rfl
@[simp] theorem State.freeInt_refins (s : State) : (s.freeInt).2.refins = s.refins := rfl
@[simp] theorem State.freeInt_selT (s : State) : (s.freeInt).2.selT = s.selT := rfl
@[simp] theorem State.freeInt_selF (s : State) : (s.freeInt).2.selF = s.selF := rfl
@[simp] theorem State.freeInt_disputes (s : State) : (s.freeInt).2.disputes = s.disputes := rfl
@[simp] theorem State.freeInt_loops (s : State) : (s.freeInt).2.loops = s.loops := rfl
@[simp] theorem State.freeInt_hold (s : State) : (s.freeInt).2.hold = s.hold := rfl
@[simp] theorem State.freeInt_outs (s : State) : (s.freeInt).2.outs = s.outs := rfl
@[simp] theorem State.freeInt_tods (s : State) : (s.freeInt).2.tods = s.tods := rfl
@[simp] theorem State.freeInt_caps (s : State) : (s.freeInt).2.caps = s.caps := rfl
@[simp] theorem State.freeInt_sky (s : State) : (s.freeInt).2.sky = s.sky := rfl
@[simp] theorem State.freeInt_flash (s : State) : (s.freeInt).2.flash = s.flash := rfl
@[simp] theorem State.freeInt_ports (s : State) : (s.freeInt).2.ports = s.ports := rfl
@[simp] theorem State.freeInt_side (s : State) : (s.freeInt).2.side = s.side := rfl
@[simp] theorem State.freeInt_serve (s : State) : (s.freeInt).2.serve = s.serve := rfl
@[simp] theorem State.freeInt_ctrs (s : State) : (s.freeInt).2.ctrs = s.ctrs := rfl
@[simp] theorem State.freeInt_snaps (s : State) : (s.freeInt).2.snaps = s.snaps := rfl
@[simp] theorem State.freeInt_ool (s : State) : (s.freeInt).2.ool = s.ool := rfl
@[simp] theorem State.freeInt_prot (s : State) : (s.freeInt).2.prot = s.prot := rfl
@[simp] theorem State.freeInt_sec (s : State) : (s.freeInt).2.sec = s.sec := rfl
@[simp] theorem State.freeInt_mem (s : State) : (s.freeInt).2.mem = s.mem := rfl
@[simp] theorem State.freeInt_bn (s : State) : (s.freeInt).2.bn = s.bn := rfl
@[simp] theorem State.freeInt_sys (s : State) : (s.freeInt).2.sys = s.sys := rfl
@[simp] theorem State.freeInt_sched (s : State) : (s.freeInt).2.sched = s.sched := rfl

@[simp] theorem State.freeNat_pending (s : State) : (s.freeNat).2.pending = s.pending := rfl
@[simp] theorem State.freeNat_now (s : State) : (s.freeNat).2.now = s.now := rfl
@[simp] theorem State.freeNat_freeIdx (s : State) : (s.freeNat).2.freeIdx = s.freeIdx + 1 := rfl
@[simp] theorem State.freeNat_draws (s : State) : (s.freeNat).2.draws = s.draws := rfl
@[simp] theorem State.freeNat_obj (s : State) : (s.freeNat).2.obj = s.obj := rfl
@[simp] theorem State.freeNat_tb (s : State) : (s.freeNat).2.tb = s.tb := rfl
@[simp] theorem State.freeNat_journal (s : State) : (s.freeNat).2.journal = s.journal := rfl
@[simp] theorem State.freeNat_mode (s : State) : (s.freeNat).2.mode = s.mode := rfl
@[simp] theorem State.freeNat_keep (s : State) : (s.freeNat).2.keep = s.keep := rfl
@[simp] theorem State.freeNat_slots (s : State) : (s.freeNat).2.slots = s.slots := rfl
@[simp] theorem State.freeNat_refins (s : State) : (s.freeNat).2.refins = s.refins := rfl
@[simp] theorem State.freeNat_selT (s : State) : (s.freeNat).2.selT = s.selT := rfl
@[simp] theorem State.freeNat_selF (s : State) : (s.freeNat).2.selF = s.selF := rfl
@[simp] theorem State.freeNat_disputes (s : State) : (s.freeNat).2.disputes = s.disputes := rfl
@[simp] theorem State.freeNat_loops (s : State) : (s.freeNat).2.loops = s.loops := rfl
@[simp] theorem State.freeNat_hold (s : State) : (s.freeNat).2.hold = s.hold := rfl
@[simp] theorem State.freeNat_outs (s : State) : (s.freeNat).2.outs = s.outs := rfl
@[simp] theorem State.freeNat_tods (s : State) : (s.freeNat).2.tods = s.tods := rfl
@[simp] theorem State.freeNat_caps (s : State) : (s.freeNat).2.caps = s.caps := rfl
@[simp] theorem State.freeNat_sky (s : State) : (s.freeNat).2.sky = s.sky := rfl
@[simp] theorem State.freeNat_flash (s : State) : (s.freeNat).2.flash = s.flash := rfl
@[simp] theorem State.freeNat_ports (s : State) : (s.freeNat).2.ports = s.ports := rfl
@[simp] theorem State.freeNat_side (s : State) : (s.freeNat).2.side = s.side := rfl
@[simp] theorem State.freeNat_serve (s : State) : (s.freeNat).2.serve = s.serve := rfl
@[simp] theorem State.freeNat_ctrs (s : State) : (s.freeNat).2.ctrs = s.ctrs := rfl
@[simp] theorem State.freeNat_snaps (s : State) : (s.freeNat).2.snaps = s.snaps := rfl
@[simp] theorem State.freeNat_ool (s : State) : (s.freeNat).2.ool = s.ool := rfl
@[simp] theorem State.freeNat_prot (s : State) : (s.freeNat).2.prot = s.prot := rfl
@[simp] theorem State.freeNat_sec (s : State) : (s.freeNat).2.sec = s.sec := rfl
@[simp] theorem State.freeNat_mem (s : State) : (s.freeNat).2.mem = s.mem := rfl
@[simp] theorem State.freeNat_bn (s : State) : (s.freeNat).2.bn = s.bn := rfl
@[simp] theorem State.freeNat_sys (s : State) : (s.freeNat).2.sys = s.sys := rfl
@[simp] theorem State.freeNat_sched (s : State) : (s.freeNat).2.sched = s.sched := rfl

@[simp] theorem State.freeBytes_pending (s : State) (len : Nat) : (s.freeBytes len).2.pending = s.pending := rfl
@[simp] theorem State.freeBytes_now (s : State) (len : Nat) : (s.freeBytes len).2.now = s.now := rfl
@[simp] theorem State.freeBytes_freeIdx (s : State) (len : Nat) : (s.freeBytes len).2.freeIdx = s.freeIdx + 1 := rfl
@[simp] theorem State.freeBytes_draws (s : State) (len : Nat) : (s.freeBytes len).2.draws = s.draws := rfl
@[simp] theorem State.freeBytes_obj (s : State) (len : Nat) : (s.freeBytes len).2.obj = s.obj := rfl
@[simp] theorem State.freeBytes_tb (s : State) (len : Nat) : (s.freeBytes len).2.tb = s.tb := rfl
@[simp] theorem State.freeBytes_journal (s : State) (len : Nat) : (s.freeBytes len).2.journal = s.journal := rfl
@[simp] theorem State.freeBytes_mode (s : State) (len : Nat) : (s.freeBytes len).2.mode = s.mode := rfl
@[simp] theorem State.freeBytes_keep (s : State) (len : Nat) : (s.freeBytes len).2.keep = s.keep := rfl
@[simp] theorem State.freeBytes_slots (s : State) (len : Nat) : (s.freeBytes len).2.slots = s.slots := rfl
@[simp] theorem State.freeBytes_refins (s : State) (len : Nat) : (s.freeBytes len).2.refins = s.refins := rfl
@[simp] theorem State.freeBytes_selT (s : State) (len : Nat) : (s.freeBytes len).2.selT = s.selT := rfl
@[simp] theorem State.freeBytes_selF (s : State) (len : Nat) : (s.freeBytes len).2.selF = s.selF := rfl
@[simp] theorem State.freeBytes_disputes (s : State) (len : Nat) : (s.freeBytes len).2.disputes = s.disputes := rfl
@[simp] theorem State.freeBytes_loops (s : State) (len : Nat) : (s.freeBytes len).2.loops = s.loops := rfl
@[simp] theorem State.freeBytes_hold (s : State) (len : Nat) : (s.freeBytes len).2.hold = s.hold := rfl
@[simp] theorem State.freeBytes_outs (s : State) (len : Nat) : (s.freeBytes len).2.outs = s.outs := rfl
@[simp] theorem State.freeBytes_tods (s : State) (len : Nat) : (s.freeBytes len).2.tods = s.tods := rfl
@[simp] theorem State.freeBytes_caps (s : State) (len : Nat) : (s.freeBytes len).2.caps = s.caps := rfl
@[simp] theorem State.freeBytes_sky (s : State) (len : Nat) : (s.freeBytes len).2.sky = s.sky := rfl
@[simp] theorem State.freeBytes_flash (s : State) (len : Nat) : (s.freeBytes len).2.flash = s.flash := rfl
@[simp] theorem State.freeBytes_ports (s : State) (len : Nat) : (s.freeBytes len).2.ports = s.ports := rfl
@[simp] theorem State.freeBytes_side (s : State) (len : Nat) : (s.freeBytes len).2.side = s.side := rfl
@[simp] theorem State.freeBytes_serve (s : State) (len : Nat) : (s.freeBytes len).2.serve = s.serve := rfl
@[simp] theorem State.freeBytes_ctrs (s : State) (len : Nat) : (s.freeBytes len).2.ctrs = s.ctrs := rfl
@[simp] theorem State.freeBytes_snaps (s : State) (len : Nat) : (s.freeBytes len).2.snaps = s.snaps := rfl
@[simp] theorem State.freeBytes_ool (s : State) (len : Nat) : (s.freeBytes len).2.ool = s.ool := rfl
@[simp] theorem State.freeBytes_prot (s : State) (len : Nat) : (s.freeBytes len).2.prot = s.prot := rfl
@[simp] theorem State.freeBytes_sec (s : State) (len : Nat) : (s.freeBytes len).2.sec = s.sec := rfl
@[simp] theorem State.freeBytes_mem (s : State) (len : Nat) : (s.freeBytes len).2.mem = s.mem := rfl
@[simp] theorem State.freeBytes_bn (s : State) (len : Nat) : (s.freeBytes len).2.bn = s.bn := rfl
@[simp] theorem State.freeBytes_sys (s : State) (len : Nat) : (s.freeBytes len).2.sys = s.sys := rfl
@[simp] theorem State.freeBytes_sched (s : State) (len : Nat) : (s.freeBytes len).2.sched = s.sched := rfl

@[simp] theorem State.random_pending (s : State) (len : Nat) : (s.random len).2.pending = s.pending := rfl
@[simp] theorem State.random_now (s : State) (len : Nat) : (s.random len).2.now = s.now := rfl
@[simp] theorem State.random_freeIdx (s : State) (len : Nat) : (s.random len).2.freeIdx = s.freeIdx := rfl
@[simp] theorem State.random_draws (s : State) (len : Nat) : (s.random len).2.draws = s.draws + 1 := rfl
@[simp] theorem State.random_obj (s : State) (len : Nat) : (s.random len).2.obj = s.obj := rfl
@[simp] theorem State.random_tb (s : State) (len : Nat) : (s.random len).2.tb = s.tb := rfl
@[simp] theorem State.random_journal (s : State) (len : Nat) : (s.random len).2.journal = s.journal := rfl
@[simp] theorem State.random_mode (s : State) (len : Nat) : (s.random len).2.mode = s.mode := rfl
@[simp] theorem State.random_keep (s : State) (len : Nat) : (s.random len).2.keep = s.keep := rfl
@[simp] theorem State.random_slots (s : State) (len : Nat) : (s.random len).2.slots = s.slots := rfl
@[simp] theorem State.random_refins (s : State) (len : Nat) : (s.random len).2.refins = s.refins := rfl
@[simp] theorem State.random_selT (s : State) (len : Nat) : (s.random len).2.selT = s.selT := rfl
@[simp] theorem State.random_selF (s : State) (len : Nat) : (s.random len).2.selF = s.selF := rfl
@[simp] theorem State.random_disputes (s : State) (len : Nat) : (s.random len).2.disputes = s.disputes := rfl
@[simp] theorem State.random_loops (s : State) (len : Nat) : (s.random len).2.loops = s.loops := rfl
@[simp] theorem State.random_hold (s : State) (len : Nat) : (s.random len).2.hold = s.hold := rfl
@[simp] theorem State.random_outs (s : State) (len : Nat) : (s.random len).2.outs = s.outs := rfl
@[simp] theorem State.random_tods (s : State) (len : Nat) : (s.random len).2.tods = s.tods := rfl
@[simp] theorem State.random_caps (s : State) (len : Nat) : (s.random len).2.caps = s.caps := rfl
@[simp] theorem State.random_sky (s : State) (len : Nat) : (s.random len).2.sky = s.sky := rfl
@[simp] theorem State.random_flash (s : State) (len : Nat) : (s.random len).2.flash = s.flash := rfl
@[simp] theorem State.random_ports (s : State) (len : Nat) : (s.random len).2.ports = s.ports := rfl
@[simp] theorem State.random_side (s : State) (len : Nat) : (s.random len).2.side = s.side := rfl
@[simp] theorem State.random_serve (s : State) (len : Nat) : (s.random len).2.serve = s.serve := rfl
@[simp] theorem State.random_ctrs (s : State) (len : Nat) : (s.random len).2.ctrs = s.ctrs := rfl
@[simp] theorem State.random_snaps (s : State) (len : Nat) : (s.random len).2.snaps = s.snaps := rfl
@[simp] theorem State.random_ool (s : State) (len : Nat) : (s.random len).2.ool = s.ool := rfl
@[simp] theorem State.random_prot (s : State) (len : Nat) : (s.random len).2.prot = s.prot := rfl
@[simp] theorem State.random_sec (s : State) (len : Nat) : (s.random len).2.sec = s.sec := rfl
@[simp] theorem State.random_mem (s : State) (len : Nat) : (s.random len).2.mem = s.mem := rfl
@[simp] theorem State.random_bn (s : State) (len : Nat) : (s.random len).2.bn = s.bn := rfl
@[simp] theorem State.random_sys (s : State) (len : Nat) : (s.random len).2.sys = s.sys := rfl
@[simp] theorem State.random_sched (s : State) (len : Nat) : (s.random len).2.sched = s.sched := rfl

@[simp] theorem State.log_pending (s : State) (source code : Nat) (data : Bytes) : (s.log source code data).pending = s.pending := by
  unfold State.log State.logAt
  dsimp only
  split <;> split <;> rfl

@[simp] theorem State.log_now (s : State) (source code : Nat) (data : Bytes) : (s.log source code data).now = s.now := by
  unfold State.log State.logAt
  dsimp only
  split <;> split <;> rfl

@[simp] theorem State.log_freeIdx (s : State) (source code : Nat) (data : Bytes) : (s.log source code data).freeIdx = s.freeIdx := by
  unfold State.log State.logAt
  dsimp only
  split <;> split <;> rfl

@[simp] theorem State.log_draws (s : State) (source code : Nat) (data : Bytes) : (s.log source code data).draws = s.draws := by
  unfold State.log State.logAt
  dsimp only
  split <;> split <;> rfl

@[simp] theorem State.log_tb (s : State) (source code : Nat) (data : Bytes) : (s.log source code data).tb = s.tb := by
  unfold State.log State.logAt
  dsimp only
  split <;> split <;> rfl

@[simp] theorem State.log_mode (s : State) (source code : Nat) (data : Bytes) : (s.log source code data).mode = s.mode := by
  unfold State.log State.logAt
  dsimp only
  split <;> split <;> rfl

@[simp] theorem State.log_keep (s : State) (source code : Nat) (data : Bytes) : (s.log source code data).keep = s.keep := by
  unfold State.log State.logAt
  dsimp only
  split <;> split <;> rfl

@[simp] theorem State.log_slots (s : State) (source code : Nat) (data : Bytes) : (s.log source code data).slots = s.slots := by
  unfold State.log State.logAt
  dsimp only
  split <;> split <;> rfl

@[simp] theorem State.log_refins (s : State) (source code : Nat) (data : Bytes) : (s.log source code data).refins = s.refins := by
  unfold State.log State.logAt
  dsimp only
  split <;> split <;> rfl

@[simp] theorem State.log_selT (s : State) (source code : Nat) (data : Bytes) : (s.log source code data).selT = s.selT := by
  unfold State.log State.logAt
  dsimp only
  split <;> split <;> rfl

@[simp] theorem State.log_selF (s : State) (source code : Nat) (data : Bytes) : (s.log source code data).selF = s.selF := by
  unfold State.log State.logAt
  dsimp only
  split <;> split <;> rfl

@[simp] theorem State.log_disputes (s : State) (source code : Nat) (data : Bytes) : (s.log source code data).disputes = s.disputes := by
  unfold State.log State.logAt
  dsimp only
  split <;> split <;> rfl

@[simp] theorem State.log_loops (s : State) (source code : Nat) (data : Bytes) : (s.log source code data).loops = s.loops := by
  unfold State.log State.logAt
  dsimp only
  split <;> split <;> rfl

@[simp] theorem State.log_hold (s : State) (source code : Nat) (data : Bytes) : (s.log source code data).hold = s.hold := by
  unfold State.log State.logAt
  dsimp only
  split <;> split <;> rfl

@[simp] theorem State.log_outs (s : State) (source code : Nat) (data : Bytes) : (s.log source code data).outs = s.outs := by
  unfold State.log State.logAt
  dsimp only
  split <;> split <;> rfl

@[simp] theorem State.log_tods (s : State) (source code : Nat) (data : Bytes) : (s.log source code data).tods = s.tods := by
  unfold State.log State.logAt
  dsimp only
  split <;> split <;> rfl

@[simp] theorem State.log_caps (s : State) (source code : Nat) (data : Bytes) : (s.log source code data).caps = s.caps := by
  unfold State.log State.logAt
  dsimp only
  split <;> split <;> rfl

@[simp] theorem State.log_sky (s : State) (source code : Nat) (data : Bytes) : (s.log source code data).sky = s.sky := by
  unfold State.log State.logAt
  dsimp only
  split <;> split <;> rfl

@[simp] theorem State.log_flash (s : State) (source code : Nat) (data : Bytes) : (s.log source code data).flash = s.flash := by
  unfold State.log State.logAt
  dsimp only
  split <;> split <;> rfl

@[simp] theorem State.log_ports (s : State) (source code : Nat) (data : Bytes) : (s.log source code data).ports = s.ports := by
  unfold State.log State.logAt
  dsimp only
  split <;> split <;> rfl

@[simp] theorem State.log_side (s : State) (source code : Nat) (data : Bytes) : (s.log source code data).side = s.side := by
  unfold State.log State.logAt
  dsimp only
  split <;> split <;> rfl

@[simp] theorem State.log_serve (s : State) (source code : Nat) (data : Bytes) : (s.log source code data).serve = s.serve := by
  unfold State.log State.logAt
  dsimp only
  split <;> split <;> rfl

@[simp] theorem State.log_ctrs (s : State) (source code : Nat) (data : Bytes) : (s.log source code data).ctrs = s.ctrs := by
  unfold State.log State.logAt
  dsimp only
  split <;> split <;> rfl

@[simp] theorem State.log_snaps (s : State) (source code : Nat) (data : Bytes) : (s.log source code data).snaps = s.snaps := by
  unfold State.log State.logAt
  dsimp only
  split <;> split <;> rfl

@[simp] theorem State.log_ool (s : State) (source code : Nat) (data : Bytes) : (s.log source code data).ool = s.ool := by
  unfold State.log State.logAt
  dsimp only
  split <;> split <;> rfl

@[simp] theorem State.log_prot (s : State) (source code : Nat) (data : Bytes) : (s.log source code data).prot = s.prot := by
  unfold State.log State.logAt
  dsimp only
  split <;> split <;> rfl

@[simp] theorem State.log_sec (s : State) (source code : Nat) (data : Bytes) : (s.log source code data).sec = s.sec := by
  unfold State.log State.logAt
  dsimp only
  split <;> split <;> rfl

@[simp] theorem State.log_mem (s : State) (source code : Nat) (data : Bytes) : (s.log source code data).mem = s.mem := by
  unfold State.log State.logAt
  dsimp only
  split <;> split <;> rfl

@[simp] theorem State.log_bn (s : State) (source code : Nat) (data : Bytes) : (s.log source code data).bn = s.bn := by
  unfold State.log State.logAt
  dsimp only
  split <;> split <;> rfl

@[simp] theorem State.log_sys (s : State) (source code : Nat) (data : Bytes) : (s.log source code data).sys = s.sys := by
  unfold State.log State.logAt
  dsimp only
  split <;> split <;> rfl

@[simp] theorem State.log_sched (s : State) (source code : Nat) (data : Bytes) : (s.log source code data).sched = s.sched := by
  unfold State.log State.logAt
  dsimp only
  split <;> split <;> rfl

/-- Journalling writes no object but the count of security events. -/
theorem State.log_obj (s : State) (source code : Nat) (data : Bytes) (h : source ≠ 0x0900) : (s.log source code data).obj = s.obj := by
  unfold State.log State.logAt
  dsimp only
  rw [if_neg h]
  split <;> rfl

theorem State.log_get (s : State) (source code : Nat) (data : Bytes) (k : Nat) (h : k ≠ Obj.security_event_count) :
    (s.log source code data).get k = s.get k := by
  unfold State.log State.logAt
  dsimp only
  split
  · split <;> exact State.get_putN_ne s _ h
  · split <;> rfl

end Sys2Proof.Machine
end

