-- ==== Sys2Proof/Laws/Get.lean ====
section
/-! SUPPORT. Reading objects after writes and journal entries: what was written is read back from a canonical store, other
objects read as before, and a journal entry of another source than 0x0900 changes no object. -/

namespace Sys2Proof.Machine

theorem State.get_of_obj {s t : State} (h : s.obj = t.obj) (k : Nat) : s.get k = t.get k := by
  simp only [State.get, h]

theorem State.get_bump_ne (s : State) {a b : Nat} (h : a ≠ b) (d : Nat) : (s.bump b d).get a = s.get a := s.get_put_ne _ h

theorem State.nn_putN_same {s : State} (h : storeWf s.obj = true) (k : Nat) (x : Int) : (s.putN k x).nn k = x.toNat := by
  simp only [State.nn, State.n_putN_same h]

theorem State.nn_bump_same {s : State} (h : storeWf s.obj = true) (k d : Nat) :
    (s.bump k d).nn k = (s.nn k + d) % counterModulus k := by
  simp only [State.bump, State.nn_putN_same h, Int.toNat_natCast]

theorem State.storeWf_putN {s : State} (h : storeWf s.obj = true) (k : Nat) (x : Int) : storeWf (s.putN k x).obj = true :=
  storeWf_put k _ h

theorem State.storeWf_putB {s : State} (h : storeWf s.obj = true) (k : Nat) (x : Bool) : storeWf (s.putB k x).obj = true :=
  storeWf_put k _ h

theorem State.storeWf_bump {s : State} (h : storeWf s.obj = true) (k d : Nat) : storeWf (s.bump k d).obj = true :=
  storeWf_put k _ h

/-- What a delivered journal entry depends on. -/
theorem State.logAt_journal_congr {s t : State} (hj : s.journal = t.journal) (htb : s.tb = t.tb) (hc : s.controlDown = t.controlDown)
    (stamp source code : Nat) (data : Bytes) : (s.logAt stamp source code data).journal = (t.logAt stamp source code data).journal := by
  have h9 : ∀ u : State, (if source = 0x0900 then u.bump Obj.security_event_count else u).controlDown = u.controlDown := by
    intro u
    split
    · simp only [State.controlDown, State.domState, State.nn, State.n, State.get_bump_ne u (a := Obj.domain_state (6 - 1))
        (b := Obj.security_event_count) (by decide), State.bump_sys]
    · rfl
  have hconv : ∀ k, s.convert k = t.convert k := fun k => by simp only [State.convert, State.segFor, htb]
  have hseg : ∀ k, s.segFor k = t.segFor k := fun k => by simp only [State.segFor, htb]
  have h9j : ∀ u : State, (if source = 0x0900 then u.bump Obj.security_event_count else u).journal = u.journal := by
    intro u; split <;> rfl
  unfold State.logAt
  simp only [h9, h9j, hconv, hseg, hc, hj, htb]
  split <;> rfl

theorem State.log_journal_congr {s t : State} (hj : s.journal = t.journal) (htb : s.tb = t.tb) (hc : s.controlDown = t.controlDown)
    (source code : Nat) (data : Bytes) : (s.log source code data).journal = (t.log source code data).journal := by
  have : s.stamp = t.stamp := by simp only [State.stamp, htb]
  simp only [State.log, this]
  exact State.logAt_journal_congr hj htb hc _ _ _ _

theorem State.controlDown_putN (s : State) {k : Nat} (h : Obj.domain_state 5 ≠ k) (x : Int) :
    (s.putN k x).controlDown = s.controlDown := by
  simp only [State.controlDown, State.domState, State.nn, State.n, s.get_putN_ne _ (a := Obj.domain_state (6 - 1)) h,
    State.putN_sys]

/-- A journal entry changes the journal alone, and security_event_count where its source is 0x0900. -/
theorem State.logAt_frame (s : State) (stamp source code : Nat) (data : Bytes) :
    s.logAt stamp source code data = { s with obj := (s.logAt stamp source code data).obj,
                                              journal := (s.logAt stamp source code data).journal } := by
  unfold State.logAt
  dsimp only
  split <;> split <;> rfl

end Sys2Proof.Machine
end

