-- ==== Sys2Proof/Laws/Kept.lean ====
section
/-! SUPPORT. What every operation and every command keeps: the queue of commands, elapsed time, the order in which free
values and random draws are taken, the canonical forms. -/

namespace Sys2Proof.Machine

open Sys2Proof.Safety

/-- The fields that `Kept` speaks of. -/
def KeptF (s0 : State) (obj : List (Nat × Val)) (sram dram key : Memory) (pending : List Instr) (now idx draws : Nat) : Prop :=
  pending = s0.pending ∧ now = s0.now ∧ s0.freeIdx ≤ idx ∧ s0.draws ≤ draws
    ∧ (Wf s0 → storeWf obj = true ∧ memWf sram = true ∧ memWf dram = true ∧ memWf key = true)

/-- A state reached from `s0` without a tick: the same queue and time, no free value or draw given back, canonical forms
kept. -/
def Kept (s0 t : State) : Prop := KeptF s0 t.obj t.mem.sram t.mem.dram t.mem.key t.pending t.now t.freeIdx t.draws

theorem Kept.refl (s : State) : Kept s s := ⟨rfl, rfl, Nat.le_refl _, Nat.le_refl _, fun h => h⟩

theorem Kept.unmk {s0 t : State} (h : KeptF s0 t.obj t.mem.sram t.mem.dram t.mem.key t.pending t.now t.freeIdx t.draws) :
    Kept s0 t := h

theorem Kept.ofF {s0 t : State} (h : Kept s0 t) :
    KeptF s0 t.obj t.mem.sram t.mem.dram t.mem.key t.pending t.now t.freeIdx t.draws := h

theorem Kept.ofFilter {s0 t : State} {p : Nat × Val → Bool} (h : Kept s0 t) :
    KeptF s0 (t.obj.filter p) t.mem.sram t.mem.dram t.mem.key t.pending t.now t.freeIdx t.draws :=
  ⟨h.1, h.2.1, h.2.2.1, h.2.2.2.1, fun w => ⟨storeWf_filter p (h.2.2.2.2 w).1, (h.2.2.2.2 w).2⟩⟩

theorem Kept.foldl {α : Type} {s0 s : State} {f : State → α → State} {l : List α} (h : Kept s0 s)
    (hf : ∀ s a, Kept s0 s → Kept s0 (f s a)) : Kept s0 (l.foldl f s) := by
  induction l generalizing s with
  | nil => exact h
  | cons a r ih => exact ih (hf s a h)

theorem Kept.pair2 {α : Type} {s0 : State} {p : α × State} {a : α} {t : State} (e : p = (a, t)) (h : Kept s0 p.2) : Kept s0 t := by
  subst e; exact h

theorem Kept.pair1 {α : Type} {s0 : State} {p : State × α} {a : α} {t : State} (e : p = (t, a)) (h : Kept s0 p.1) : Kept s0 t := by
  subst e; exact h

theorem Kept.pair3 {α β : Type} {s0 : State} {p : α × β × State} {a : α} {b : β} {t : State} (e : p = (a, b, t))
    (h : Kept s0 p.2.2) : Kept s0 t := by
  subst e; exact h

theorem Kept.ofNoMem {s0 t : State} {p : Nat × Val → Bool} (h : Kept s0 t) :
    KeptF s0 (t.obj.filter p) [] [] [] t.pending t.now t.freeIdx t.draws :=
  ⟨h.1, h.2.1, h.2.2.1, h.2.2.2.1, fun w => ⟨storeWf_filter p (h.2.2.2.2 w).1, rfl, rfl, rfl⟩⟩

theorem Kept.ofNothing {s0 t : State} (h : Kept s0 t) : KeptF s0 [] [] [] [] t.pending t.now t.freeIdx t.draws :=
  ⟨h.1, h.2.1, h.2.2.1, h.2.2.2.1, fun _ => ⟨rfl, rfl, rfl, rfl⟩⟩

theorem Kept.ofMoreFree {s0 t : State} {k : Nat} (h : Kept s0 t) :
    KeptF s0 t.obj t.mem.sram t.mem.dram t.mem.key t.pending t.now (t.freeIdx + k) t.draws :=
  ⟨h.1, h.2.1, Nat.le_add_right_of_le h.2.2.1, h.2.2.2⟩

/-- Every next state of an outcome. -/
structure KeptO (s0 : State) (o : Host.Outcome State Fault Refusal) : Prop where
  ofNext : ∀ t, o = .next t → Kept s0 t

theorem KeptO.next {s0 t : State} (h : Kept s0 t) : KeptO s0 (.next t) :=
  ⟨fun _ hu => by injection hu with hu; exact hu ▸ h⟩

theorem Kept.ofNoKey {s0 t : State} (h : Kept s0 t) :
    KeptF s0 t.obj t.mem.sram t.mem.dram [] t.pending t.now t.freeIdx t.draws :=
  ⟨h.1, h.2.1, h.2.2.1, h.2.2.2.1, fun w => ⟨(h.2.2.2.2 w).1, (h.2.2.2.2 w).2.1, (h.2.2.2.2 w).2.2.1, rfl⟩⟩

theorem Kept.ofNoSram {s0 t : State} (h : Kept s0 t) :
    KeptF s0 t.obj [] t.mem.dram t.mem.key t.pending t.now t.freeIdx t.draws :=
  ⟨h.1, h.2.1, h.2.2.1, h.2.2.2.1, fun w => ⟨(h.2.2.2.2 w).1, rfl, (h.2.2.2.2 w).2.2⟩⟩

/-- Every state of an answer that may be absent. -/
structure KeptS (s0 : State) (o : Option State) : Prop where
  ofSome : ∀ t, o = some t → Kept s0 t

theorem KeptS.some {s0 t : State} (h : Kept s0 t) : KeptS s0 (some t) := ⟨fun _ e => Option.some.inj e ▸ h⟩

theorem KeptS.none {s0 : State} : KeptS s0 none := ⟨fun _ e => absurd e.symm (Option.some_ne_none _)⟩

structure KeptS1 {α : Type} (s0 : State) (o : Option (State × α)) : Prop where
  ofSome : ∀ t a, o = some (t, a) → Kept s0 t

theorem KeptS1.some {α : Type} {s0 : State} {p : State × α} (h : Kept s0 p.1) : KeptS1 s0 (some p) :=
  ⟨fun _ _ e => by rw [Option.some.inj e] at h; exact h⟩

theorem KeptS1.none {α : Type} {s0 : State} : KeptS1 (α := α) s0 none := ⟨fun _ _ e => absurd e.symm (Option.some_ne_none _)⟩

structure KeptS2 {α : Type} (s0 : State) (o : Option (α × State)) : Prop where
  ofSome : ∀ a t, o = some (a, t) → Kept s0 t

theorem KeptS2.some {α : Type} {s0 : State} {p : α × State} (h : Kept s0 p.2) : KeptS2 s0 (some p) :=
  ⟨fun _ _ e => by rw [Option.some.inj e] at h; exact h⟩

theorem KeptS2.none {α : Type} {s0 : State} : KeptS2 (α := α) s0 none := ⟨fun _ _ e => absurd e.symm (Option.some_ne_none _)⟩

end Sys2Proof.Machine
end

