-- ==== Sys2Proof/Laws/Kept/Ops.lean ====
section
/-! SUPPORT. What the operations of Machine/Ops.lean keep. -/

namespace Sys2Proof.Machine

theorem State.put_kept (s : State) (key : Nat) (x : Val) {s0 : State} (h : Kept s0 s) : Kept s0 (State.put s key x) :=
  ⟨h.1, h.2.1, h.2.2.1, h.2.2.2.1, fun w => ⟨storeWf_put key x (h.2.2.2.2 w).1, (h.2.2.2.2 w).2⟩⟩

theorem State.putN_kept (s : State) (key : Nat) (x : Int) {s0 : State} (hK : Kept s0 s) :
    Kept s0 (State.putN s key x) := by
  unfold State.putN
  repeat' first
    | with_reducible assumption
    | with_reducible apply State.put_kept

theorem State.putB_kept (s : State) (key : Nat) (x : Bool) {s0 : State} (hK : Kept s0 s) :
    Kept s0 (State.putB s key x) := by
  unfold State.putB
  repeat' first
    | with_reducible assumption
    | with_reducible apply State.put_kept

theorem State.putO_kept (s : State) (key : Nat) (b : Bytes) {s0 : State} (hK : Kept s0 s) :
    Kept s0 (State.putO s key b) := by
  unfold State.putO
  repeat' first
    | with_reducible assumption
    | with_reducible apply State.put_kept

theorem State.bump_kept (s : State) (key : Nat) (d : Nat) {s0 : State} (hK : Kept s0 s) :
    Kept s0 (State.bump s key d) := by
  unfold State.bump
  repeat' first
    | with_reducible assumption
    | with_reducible apply State.putN_kept

theorem State.freeInt_kept (s : State) {s0 : State} (h : Kept s0 s) : Kept s0 (State.freeInt s).2 :=
  ⟨h.1, h.2.1, Nat.le_succ_of_le h.2.2.1, h.2.2.2⟩

theorem State.freeNat_kept (s : State) {s0 : State} (h : Kept s0 s) : Kept s0 (State.freeNat s).2 :=
  ⟨h.1, h.2.1, Nat.le_succ_of_le h.2.2.1, h.2.2.2⟩

theorem State.freeBytes_kept (s : State) (len : Nat) {s0 : State} (h : Kept s0 s) : Kept s0 (State.freeBytes s len).2 :=
  ⟨h.1, h.2.1, Nat.le_succ_of_le h.2.2.1, h.2.2.2⟩

theorem State.random_kept (s : State) (len : Nat) {s0 : State} (h : Kept s0 s) : Kept s0 (State.random s len).2 :=
  ⟨h.1, h.2.1, h.2.2.1, Nat.le_succ_of_le h.2.2.2.1, h.2.2.2.2⟩

theorem State.setSlot_kept (s : State) (i : Fin 16) (x : Slot) {s0 : State} (hK : Kept s0 s) :
    Kept s0 (State.setSlot s i x) := by
  unfold State.setSlot
  repeat' first
    | with_reducible assumption
    | ((try lift_lets -underBinder); intro x; first
        | (have hx : Kept s0 x := ?_; rotate_left; subst x; rotate_left; clear_value x)
        | (have : MemUnits := x; subst x)
        | clear_value x
        | skip)
    | (with_reducible apply Kept.unmk; dsimp only; with_reducible apply Kept.ofF)

theorem State.setLoop_kept (s : State) (i : Fin 4) (x : Loop) {s0 : State} (hK : Kept s0 s) :
    Kept s0 (State.setLoop s i x) := by
  unfold State.setLoop
  repeat' first
    | with_reducible assumption
    | ((try lift_lets -underBinder); intro x; first
        | (have hx : Kept s0 x := ?_; rotate_left; subst x; rotate_left; clear_value x)
        | (have : MemUnits := x; subst x)
        | clear_value x
        | skip)
    | (with_reducible apply Kept.unmk; dsimp only; with_reducible apply Kept.ofF)

theorem State.setRefin_kept (s : State) (i : Fin 8) (x : RefIn) {s0 : State} (hK : Kept s0 s) :
    Kept s0 (State.setRefin s i x) := by
  unfold State.setRefin
  repeat' first
    | with_reducible assumption
    | ((try lift_lets -underBinder); intro x; first
        | (have hx : Kept s0 x := ?_; rotate_left; subst x; rotate_left; clear_value x)
        | (have : MemUnits := x; subst x)
        | clear_value x
        | skip)
    | (with_reducible apply Kept.unmk; dsimp only; with_reducible apply Kept.ofF)

theorem State.setOut_kept (s : State) (i : Fin 20) (x : OutGen) {s0 : State} (hK : Kept s0 s) :
    Kept s0 (State.setOut s i x) := by
  unfold State.setOut
  repeat' first
    | with_reducible assumption
    | ((try lift_lets -underBinder); intro x; first
        | (have hx : Kept s0 x := ?_; rotate_left; subst x; rotate_left; clear_value x)
        | (have : MemUnits := x; subst x)
        | clear_value x
        | skip)
    | (with_reducible apply Kept.unmk; dsimp only; with_reducible apply Kept.ofF)

theorem State.setTod_kept (s : State) (i : Fin 4) (x : TodOut) {s0 : State} (hK : Kept s0 s) :
    Kept s0 (State.setTod s i x) := by
  unfold State.setTod
  repeat' first
    | with_reducible assumption
    | ((try lift_lets -underBinder); intro x; first
        | (have hx : Kept s0 x := ?_; rotate_left; subst x; rotate_left; clear_value x)
        | (have : MemUnits := x; subst x)
        | clear_value x
        | skip)
    | (with_reducible apply Kept.unmk; dsimp only; with_reducible apply Kept.ofF)

theorem State.setCap_kept (s : State) (i : Fin 16) (x : Capture) {s0 : State} (hK : Kept s0 s) :
    Kept s0 (State.setCap s i x) := by
  unfold State.setCap
  repeat' first
    | with_reducible assumption
    | ((try lift_lets -underBinder); intro x; first
        | (have hx : Kept s0 x := ?_; rotate_left; subst x; rotate_left; clear_value x)
        | (have : MemUnits := x; subst x)
        | clear_value x
        | skip)
    | (with_reducible apply Kept.unmk; dsimp only; with_reducible apply Kept.ofF)

theorem State.setPort_kept (s : State) (i : Fin 64) (x : PortUnit) {s0 : State} (hK : Kept s0 s) :
    Kept s0 (State.setPort s i x) := by
  unfold State.setPort
  repeat' first
    | with_reducible assumption
    | ((try lift_lets -underBinder); intro x; first
        | (have hx : Kept s0 x := ?_; rotate_left; subst x; rotate_left; clear_value x)
        | (have : MemUnits := x; subst x)
        | clear_value x
        | skip)
    | (with_reducible apply Kept.unmk; dsimp only; with_reducible apply Kept.ofF)

theorem State.setEngine_kept (s : State) (i : Fin 8) (x : Engine) {s0 : State} (hK : Kept s0 s) :
    Kept s0 (State.setEngine s i x) := by
  unfold State.setEngine
  repeat' first
    | with_reducible assumption
    | ((try lift_lets -underBinder); intro x; first
        | (have hx : Kept s0 x := ?_; rotate_left; subst x; rotate_left; clear_value x)
        | (have : MemUnits := x; subst x)
        | clear_value x
        | skip)
    | (with_reducible apply Kept.unmk; dsimp only; with_reducible apply Kept.ofF)

theorem State.setThread_kept (s : State) (e : Fin 8) (t : Fin 16) (x : Thread) {s0 : State} (hK : Kept s0 s) :
    Kept s0 (State.setThread s e t x) := by
  unfold State.setThread
  repeat' first
    | with_reducible assumption
    | ((try lift_lets -underBinder); intro x; first
        | (have hx : Kept s0 x := ?_; rotate_left; subst x; rotate_left; clear_value x)
        | (have : MemUnits := x; subst x)
        | clear_value x
        | skip)
    | with_reducible apply State.setEngine_kept

theorem State.setCt_kept (s : State) (x : ClientTable) {s0 : State} (hK : Kept s0 s) :
    Kept s0 (State.setCt s x) := by
  unfold State.setCt
  repeat' first
    | with_reducible assumption
    | ((try lift_lets -underBinder); intro x; first
        | (have hx : Kept s0 x := ?_; rotate_left; subst x; rotate_left; clear_value x)
        | (have : MemUnits := x; subst x)
        | clear_value x
        | skip)
    | (with_reducible apply Kept.unmk; dsimp only; with_reducible apply Kept.ofF)

theorem State.setCtr_kept (s : State) (i : Fin 16) (x : CtrBlock) {s0 : State} (hK : Kept s0 s) :
    Kept s0 (State.setCtr s i x) := by
  unfold State.setCtr
  repeat' first
    | with_reducible assumption
    | ((try lift_lets -underBinder); intro x; first
        | (have hx : Kept s0 x := ?_; rotate_left; subst x; rotate_left; clear_value x)
        | (have : MemUnits := x; subst x)
        | clear_value x
        | skip)
    | (with_reducible apply Kept.unmk; dsimp only; with_reducible apply Kept.ofF)

theorem State.count_kept (s : State) (blk : Fin 16) (code : Nat) (w : Nat) (unit : Nat) {s0 : State} (hK : Kept s0 s) :
    Kept s0 (State.count s blk code w unit) := by
  unfold State.count
  repeat' first
    | with_reducible assumption
    | ((try lift_lets -underBinder); intro x; first
        | (have hx : Kept s0 x := ?_; rotate_left; subst x; rotate_left; clear_value x)
        | (have : MemUnits := x; subst x)
        | clear_value x
        | skip)
    | with_reducible apply State.setCtr_kept

theorem State.countE_kept (s : State) (e : Fin 8) (code : Nat) (w : Nat) {s0 : State} (hK : Kept s0 s) :
    Kept s0 (State.countE s e code w) := by
  unfold State.countE
  repeat' first
    | with_reducible assumption
    | with_reducible apply State.count_kept

theorem State.issueSlots_kept (s : State) (e : Fin 8) (n : Nat) {s0 : State} (hK : Kept s0 s) :
    Kept s0 (State.issueSlots s e n) := by
  unfold State.issueSlots
  repeat' first
    | with_reducible assumption
    | ((try lift_lets -underBinder); intro x; first
        | (have hx : Kept s0 x := ?_; rotate_left; subst x; rotate_left; clear_value x)
        | (have : MemUnits := x; subst x)
        | clear_value x
        | skip)
    | with_reducible apply State.setCtr_kept

theorem State.countP_kept (s : State) (n : Fin 64) (code : Nat) (w : Nat) {s0 : State} (hK : Kept s0 s) :
    Kept s0 (State.countP s n code w) := by
  unfold State.countP
  repeat' first
    | with_reducible assumption
    | with_reducible apply State.count_kept

theorem State.setDom_kept (s : State) (d : Nat) (v : Nat) {s0 : State} (hK : Kept s0 s) :
    Kept s0 (State.setDom s d v) := by
  unfold State.setDom
  repeat' first
    | with_reducible assumption
    | with_reducible apply State.putN_kept

theorem State.logAt_kept (s : State) (stamp : Nat) (source : Nat) (code : Nat) (data : Bytes) {s0 : State} (hK : Kept s0 s) :
    Kept s0 (State.logAt s stamp source code data) := by
  unfold State.logAt
  repeat' first
    | with_reducible assumption
    | ((try lift_lets -underBinder); intro x; first
        | (have hx : Kept s0 x := ?_; rotate_left; subst x; rotate_left; clear_value x)
        | (have : MemUnits := x; subst x)
        | clear_value x
        | skip)
    | with_reducible apply State.bump_kept
    | (with_reducible apply Kept.unmk; dsimp only; with_reducible apply Kept.ofF)
    | (intro _; intros; try beta_reduce)
    | split

theorem State.log_kept (s : State) (source : Nat) (code : Nat) (data : Bytes) {s0 : State} (hK : Kept s0 s) :
    Kept s0 (State.log s source code data) := by
  unfold State.log
  repeat' first
    | with_reducible assumption
    | with_reducible apply State.logAt_kept

theorem State.logSec_kept (s : State) (code : Nat) (data : Bytes) {s0 : State} (hK : Kept s0 s) :
    Kept s0 (State.logSec s code data) := by
  unfold State.logSec
  repeat' first
    | with_reducible assumption
    | with_reducible apply State.log_kept

end Sys2Proof.Machine
end

