-- ==== Sys2Proof/Laws/Kept/Banks.lean ====
section
/-! SUPPORT. What the operations of Machine/Banks.lean keep. -/

namespace Sys2Proof.Machine

theorem State.sealed_kept (s : State) (key : Nat) (b : Bytes) {s0 : State} (hK : Kept s0 s) :
    Kept s0 (State.sealed s key b).2 := by
  unfold State.sealed
  repeat' first
    | with_reducible assumption
    | ((try lift_lets -underBinder); intro x; first
        | (have hx : Kept s0 x := ?_; rotate_left; subst x; rotate_left; clear_value x)
        | (have : MemUnits := x; subst x)
        | clear_value x
        | skip)
    | with_reducible apply State.random_kept
    | with_reducible refine Kept.pair2 ‹_ = _› (State.random_kept _ _ ?_)
    | (with_reducible apply Kept.unmk; dsimp only; with_reducible apply Kept.ofF)
    | split

theorem State.recordOf_kept (s : State) (key : Nat) (v : Val) {s0 : State} (hK : Kept s0 s) :
    Kept s0 (State.recordOf s key v).2 := by
  unfold State.recordOf
  repeat' first
    | with_reducible assumption
    | ((try lift_lets -underBinder); intro x; first
        | (have hx : Kept s0 x := ?_; rotate_left; subst x; rotate_left; clear_value x)
        | (have : MemUnits := x; subst x)
        | clear_value x
        | skip)
    | with_reducible apply State.sealed_kept
    | with_reducible refine Kept.pair2 ‹_ = _› (State.sealed_kept _ _ _ ?_)
    | (with_reducible apply Kept.unmk; dsimp only; with_reducible apply Kept.ofF)
    | (intro _; intros; try beta_reduce)
    | split

theorem State.recordsOf_kept (l : List (Nat × Val)) (s : State) {s0 : State} (hK : Kept s0 s) :
    Kept s0 (State.recordsOf l s).2 := by
  induction l generalizing s with
  | nil => exact hK
  | cons a l ih =>
    rw [State.recordsOf]
    repeat' first
      | with_reducible assumption
      | ((try lift_lets -underBinder); intro x; first
          | (have hx : Kept s0 x := ?_; rotate_left; subst x; rotate_left; clear_value x)
          | (have hx : Kept s0 x.2 := ?_; rotate_left; subst x; rotate_left; clear_value x)
          | (have hx : Kept s0 x.1 := ?_; rotate_left; subst x; rotate_left; clear_value x)
          | (have : MemUnits := x; subst x)
          | clear_value x
          | skip)
      | with_reducible apply ih
      | with_reducible apply State.recordOf_kept

end Sys2Proof.Machine
end

