-- ==== Sys2Proof/Laws/Kept/Crossings.lean ====
section
/-! SUPPORT. What the operations of Machine/Crossings.lean keep. -/

namespace Sys2Proof.Machine

theorem State.pulseLost_kept (s : State) (source : Nat) (destination : Nat) {s0 : State} (hK : Kept s0 s) :
    Kept s0 (State.pulseLost s source destination) := by
  unfold State.pulseLost
  repeat' first
    | with_reducible assumption
    | ((try lift_lets -underBinder); intro x; first
        | (have hx : Kept s0 x := ?_; rotate_left; subst x; rotate_left; clear_value x)
        | (have : MemUnits := x; subst x)
        | clear_value x
        | skip)
    | with_reducible apply State.putN_kept
    | with_reducible apply State.log_kept
    | split

theorem State.holdPulse_kept (s : State) (n : Fin 64) {s0 : State} (hK : Kept s0 s) :
    Kept s0 (State.holdPulse s n) := by
  unfold State.holdPulse
  repeat' first
    | with_reducible assumption
    | ((try lift_lets -underBinder); intro x; first
        | (have hx : Kept s0 x := ?_; rotate_left; subst x; rotate_left; clear_value x)
        | (have : MemUnits := x; subst x)
        | clear_value x
        | skip)
    | with_reducible apply State.setPort_kept
    | with_reducible apply State.pulseLost_kept
    | (with_reducible apply Kept.unmk; dsimp only; with_reducible apply Kept.ofF)
    | split

theorem State.deliverPulses_kept (s : State) (n : Fin 64) {s0 : State} (hK : Kept s0 s) :
    Kept s0 (State.deliverPulses s n) := by
  unfold State.deliverPulses
  repeat' first
    | with_reducible assumption
    | ((try lift_lets -underBinder); intro x; first
        | (have hx : Kept s0 x := ?_; rotate_left; subst x; rotate_left; clear_value x)
        | (have : MemUnits := x; subst x)
        | clear_value x
        | skip)
    | with_reducible apply State.bump_kept
    | with_reducible apply State.setPort_kept
    | (with_reducible apply Kept.unmk; dsimp only; with_reducible apply Kept.ofF)
    | split

theorem State.releaseSide_kept (s : State) (d : Nat) (whole : Bool) {s0 : State} (hK : Kept s0 s) :
    Kept s0 (State.releaseSide s d whole) := by
  unfold State.releaseSide
  repeat' first
    | with_reducible assumption
    | ((try lift_lets -underBinder); intro x; first
        | (have hx : Kept s0 x := ?_; rotate_left; subst x; rotate_left; clear_value x)
        | (have : MemUnits := x; subst x)
        | clear_value x
        | skip)
    | (with_reducible apply Kept.unmk; dsimp only; with_reducible apply Kept.ofF)

end Sys2Proof.Machine
end

