-- ==== Sys2Proof/Laws/Kept/PtpPorts.lean ====
section
/-! SUPPORT. What the operations of Machine/PtpPorts.lean keep. -/

namespace Sys2Proof.Machine

theorem State.setInst_kept (s : State) (i : Fin 4) (x : PtpInst) {s0 : State} (hK : Kept s0 s) :
    Kept s0 (State.setInst s i x) := by
  unfold State.setInst
  repeat' first
    | with_reducible assumption
    | ((try lift_lets -underBinder); intro x; first
        | (have hx : Kept s0 x := ?_; rotate_left; subst x; rotate_left; clear_value x)
        | (have : MemUnits := x; subst x)
        | clear_value x
        | skip)
    | (with_reducible apply Kept.unmk; dsimp only; with_reducible apply Kept.ofF)

theorem State.setPtpPort_kept (s : State) (i : Fin 4) (n : Nat) (x : PtpPort) {s0 : State} (hK : Kept s0 s) :
    Kept s0 (State.setPtpPort s i n x) := by
  unfold State.setPtpPort
  repeat' first
    | with_reducible assumption
    | ((try lift_lets -underBinder); intro x; first
        | (have hx : Kept s0 x := ?_; rotate_left; subst x; rotate_left; clear_value x)
        | (have : MemUnits := x; subst x)
        | clear_value x
        | skip)
    | with_reducible apply State.setInst_kept

theorem State.setPtpState_kept (s : State) (i : Fin 4) (n : Nat) (v : Nat) {s0 : State} (hK : Kept s0 s) :
    Kept s0 (State.setPtpState s i n v) := by
  unfold State.setPtpState
  repeat' first
    | with_reducible assumption
    | ((try lift_lets -underBinder); intro x; first
        | (have hx : Kept s0 x := ?_; rotate_left; subst x; rotate_left; clear_value x)
        | (have : MemUnits := x; subst x)
        | clear_value x
        | skip)
    | with_reducible apply State.putN_kept
    | with_reducible apply State.log_kept
    | split

theorem State.listenOn_kept (s : State) (i : Fin 4) (n : Nat) {s0 : State} (hK : Kept s0 s) :
    Kept s0 (State.listenOn s i n) := by
  unfold State.listenOn
  repeat' first
    | with_reducible assumption
    | ((try lift_lets -underBinder); intro x; first
        | (have hx : Kept s0 x := ?_; rotate_left; subst x; rotate_left; clear_value x)
        | (have : MemUnits := x; subst x)
        | clear_value x
        | skip)
    | with_reducible apply State.setPtpPort_kept
    | with_reducible apply State.setPtpState_kept
    | (with_reducible apply Kept.unmk; dsimp only; with_reducible apply Kept.ofF)
    | split

theorem State.startListening_kept (s : State) (i : Fin 4) {s0 : State} (hK : Kept s0 s) :
    Kept s0 (State.startListening s i) := by
  unfold State.startListening
  repeat' first
    | with_reducible assumption
    | with_reducible apply State.listenOn_kept
    | with_reducible refine Kept.foldl ?_ fun _ _ _ => ?_
    | (intro _; intros; try beta_reduce)
    | split

theorem State.ptpLink_kept (s : State) (n : Nat) {s0 : State} (hK : Kept s0 s) :
    Kept s0 (State.ptpLink s n) := by
  unfold State.ptpLink
  repeat' first
    | with_reducible assumption
    | with_reducible apply State.listenOn_kept
    | with_reducible refine Kept.foldl ?_ fun _ _ _ => ?_
    | (intro _; intros; try beta_reduce)
    | split

end Sys2Proof.Machine
end

