-- ==== Sys2Proof/Laws/Kept/Timebase.lean ====
section
/-! SUPPORT. What the operations of Machine/Timebase.lean keep. -/

namespace Sys2Proof.Machine

theorem State.logClamp_kept (s : State) (code : Nat) (asked : Int) (applied : Int) {s0 : State} (hK : Kept s0 s) :
    Kept s0 (State.logClamp s code asked applied) := by
  unfold State.logClamp
  repeat' first
    | with_reducible assumption
    | with_reducible apply State.log_kept

theorem State.segKindEffect_kept (s : State) (k : SegKind) (start : Nat) {s0 : State} (hK : Kept s0 s) :
    Kept s0 (State.segKindEffect s k start) := by
  unfold State.segKindEffect
  repeat' first
    | with_reducible assumption
    | ((try lift_lets -underBinder); intro x; first
        | (have hx : Kept s0 x := ?_; rotate_left; subst x; rotate_left; clear_value x)
        | (have : MemUnits := x; subst x)
        | clear_value x
        | skip)
    | with_reducible apply State.seed_kept
    | with_reducible apply State.putN_kept
    | with_reducible apply State.bump_kept
    | with_reducible apply State.logAt_kept
    | with_reducible apply State.ownerStep_kept
    | (with_reducible apply Kept.unmk; dsimp only; with_reducible apply Kept.ofF)
    | split

theorem State.fixAt_kept (s : State) (w : SegRequest) (tick : Nat) {s0 : State} (hK : Kept s0 s) :
    Kept s0 (State.fixAt s w tick) := by
  unfold State.fixAt
  repeat' first
    | with_reducible assumption
    | ((try lift_lets -underBinder); intro x; first
        | (have hx : Kept s0 x := ?_; rotate_left; subst x; rotate_left; clear_value x)
        | (have : MemUnits := x; subst x)
        | clear_value x
        | skip)
    | with_reducible apply State.tick_kept
    | with_reducible apply State.logClamp_kept
    | with_reducible apply State.freeNat_kept
    | with_reducible refine Kept.pair2 ‹_ = _› (State.freeNat_kept _ ?_)
    | with_reducible apply State.seed_kept
    | (with_reducible apply Kept.unmk; dsimp only; with_reducible apply Kept.ofF)
    | split

theorem State.issueAt_kept (s : State) (w : SegRequest) (tick : Nat) {s0 : State} (hK : Kept s0 s) :
    Kept s0 (State.issueAt s w tick) := by
  unfold State.issueAt
  repeat' first
    | with_reducible assumption
    | with_reducible apply State.fixAt_kept
    | with_reducible apply State.tick_kept
    | with_reducible apply State.segKindEffect_kept

theorem State.tryIssue_kept (s : State) {s0 : State} (hK : Kept s0 s) :
    Kept s0 (State.tryIssue s) := by
  unfold State.tryIssue
  repeat' first
    | with_reducible assumption
    | ((try lift_lets -underBinder); intro x; first
        | (have hx : Kept s0 x := ?_; rotate_left; subst x; rotate_left; clear_value x)
        | (have : MemUnits := x; subst x)
        | clear_value x
        | skip)
    | with_reducible apply State.freeNat_kept
    | with_reducible refine Kept.pair2 ‹_ = _› (State.freeNat_kept _ ?_)
    | with_reducible apply State.issueAt_kept
    | (with_reducible apply Kept.unmk; dsimp only; with_reducible apply Kept.ofF)
    | split

theorem State.wantSegment_kept (s : State) (k : SegKind) {s0 : State} (hK : Kept s0 s) :
    Kept s0 (State.wantSegment s k) := by
  unfold State.wantSegment
  repeat' first
    | with_reducible assumption
    | ((try lift_lets -underBinder); intro x; first
        | (have hx : Kept s0 x := ?_; rotate_left; subst x; rotate_left; clear_value x)
        | (have hx : Kept s0 x.2 := ?_; rotate_left; subst x; rotate_left; clear_value x)
        | (have : MemUnits := x; subst x)
        | clear_value x
        | skip)
    | with_reducible apply applied_kept
    | with_reducible apply State.logClamp_kept
    | (with_reducible apply Kept.unmk; dsimp only; with_reducible apply Kept.ofF)
    | split

theorem State.requestSegment_kept (s : State) (k : SegKind) {s0 : State} (hK : Kept s0 s) :
    Kept s0 (State.requestSegment s k) := by
  unfold State.requestSegment
  repeat' first
    | with_reducible assumption
    | with_reducible apply State.wantSegment_kept
    | with_reducible apply State.tryIssue_kept

theorem State.reserveStep_kept (s : State) (id : Nat) (k : SegKind) (tick : Nat) {s0 : State} (hK : Kept s0 s) :
    Kept s0 (State.reserveStep s id k tick) := by
  unfold State.reserveStep
  repeat' first
    | with_reducible assumption
    | ((try lift_lets -underBinder); intro x; first
        | (have hx : Kept s0 x := ?_; rotate_left; subst x; rotate_left; clear_value x)
        | (have : MemUnits := x; subst x)
        | clear_value x
        | skip)
    | with_reducible apply State.wantSegment_kept
    | with_reducible apply State.fixAt_kept
    | with_reducible apply State.tick_kept
    | (with_reducible apply Kept.unmk; dsimp only; with_reducible apply Kept.ofF)
    | split

theorem State.takeReserved_kept (s : State) (r : StepReserve) {s0 : State} (hK : Kept s0 s) :
    Kept s0 (State.takeReserved s r) := by
  unfold State.takeReserved
  repeat' first
    | with_reducible assumption
    | ((try lift_lets -underBinder); intro x; first
        | (have hx : Kept s0 x := ?_; rotate_left; subst x; rotate_left; clear_value x)
        | (have : MemUnits := x; subst x)
        | clear_value x
        | skip)
    | with_reducible apply State.segKindEffect_kept
    | (with_reducible apply Kept.unmk; dsimp only; with_reducible apply Kept.ofF)
    | split

theorem State.dropLostStep_kept (s : State) {s0 : State} (hK : Kept s0 s) :
    Kept s0 (State.dropLostStep s) := by
  unfold State.dropLostStep
  repeat' first
    | with_reducible assumption
    | ((try lift_lets -underBinder); intro x; first
        | (have hx : Kept s0 x := ?_; rotate_left; subst x; rotate_left; clear_value x)
        | (have : MemUnits := x; subst x)
        | clear_value x
        | skip)
    | (with_reducible apply Kept.unmk; dsimp only; with_reducible apply Kept.ofF)
    | (intro _; intros; try beta_reduce)
    | split

theorem State.seed_kept (s : State) (time : Int) (stamp : Nat) (source : Nat) (unc : Int) (slot : Nat) {s0 : State} (hK : Kept s0 s) :
    Kept s0 (State.seed s time stamp source unc slot) := by
  unfold State.seed
  repeat' first
    | with_reducible assumption
    | with_reducible apply State.requestSegment_kept

theorem State.startIssued_kept (s : State) {s0 : State} (hK : Kept s0 s) :
    Kept s0 (State.startIssued s) := by
  unfold State.startIssued
  repeat' first
    | with_reducible assumption
    | ((try lift_lets -underBinder); intro x; first
        | (have hx : Kept s0 x := ?_; rotate_left; subst x; rotate_left; clear_value x)
        | (have : MemUnits := x; subst x)
        | clear_value x
        | skip)
    | (with_reducible apply Kept.unmk; dsimp only; with_reducible apply Kept.ofF)
    | (intro _; intros; try beta_reduce)
    | split

theorem State.adoptLeap_kept (s : State) (offset : Int) (sched : Option (Option (Int × Int))) {s0 : State} (hK : Kept s0 s) :
    Kept s0 (State.adoptLeap s offset sched) := by
  unfold State.adoptLeap
  repeat' first
    | with_reducible assumption
    | ((try lift_lets -underBinder); intro x; first
        | (have hx : Kept s0 x := ?_; rotate_left; subst x; rotate_left; clear_value x)
        | (have hx : Kept s0 x.2 := ?_; rotate_left; subst x; rotate_left; clear_value x)
        | (have hx : Kept s0 x.1 := ?_; rotate_left; subst x; rotate_left; clear_value x)
        | (have : MemUnits := x; subst x)
        | clear_value x
        | skip)
    | with_reducible apply State.putN_kept
    | with_reducible apply State.log_kept
    | (with_reducible apply Kept.unmk; dsimp only; with_reducible apply Kept.ofF)
    | split

theorem execSlopeFollowupSegment_kept (s : State) {s0 : State} (hK : Kept s0 s) :
    KeptO s0 (execSlopeFollowupSegment s) := by
  unfold execSlopeFollowupSegment
  repeat' first
    | with_reducible assumption
    | ((try lift_lets -underBinder); intro x; first
        | (have hx : Kept s0 x := ?_; rotate_left; subst x; rotate_left; clear_value x)
        | (have : MemUnits := x; subst x)
        | clear_value x
        | skip)
    | with_reducible apply KeptO.next
    | with_reducible apply State.tick_kept
    | with_reducible apply State.issueAt_kept
    | with_reducible apply State.freeNat_kept
    | with_reducible refine Kept.pair2 ‹_ = _› (State.freeNat_kept _ ?_)
    | (with_reducible apply Kept.unmk; dsimp only; with_reducible apply Kept.ofF)
    | split

theorem execLeapComplete_kept (s : State) {s0 : State} (hK : Kept s0 s) :
    KeptO s0 (execLeapComplete s) := by
  unfold execLeapComplete
  repeat' first
    | with_reducible assumption
    | ((try lift_lets -underBinder); intro x; first
        | (have hx : Kept s0 x := ?_; rotate_left; subst x; rotate_left; clear_value x)
        | (have : MemUnits := x; subst x)
        | clear_value x
        | skip)
    | with_reducible apply KeptO.next
    | with_reducible apply State.putN_kept
    | with_reducible apply State.log_kept
    | split

theorem execJournalEntryVisible_kept (s : State) {s0 : State} (hK : Kept s0 s) :
    KeptO s0 (execJournalEntryVisible s) := by
  unfold execJournalEntryVisible
  repeat' first
    | with_reducible assumption
    | ((try lift_lets -underBinder); intro x; first
        | (have hx : Kept s0 x := ?_; rotate_left; subst x; rotate_left; clear_value x)
        | (have : MemUnits := x; subst x)
        | clear_value x
        | skip)
    | with_reducible apply KeptO.next
    | with_reducible apply State.putN_kept
    | with_reducible apply State.count_kept
    | with_reducible apply State.bump_kept
    | (with_reducible apply Kept.unmk; dsimp only; with_reducible apply Kept.ofF)
    | split

theorem State.admitHeld_kept (s : State) {s0 : State} (hK : Kept s0 s) :
    Kept s0 (State.admitHeld s) := by
  unfold State.admitHeld
  repeat' first
    | with_reducible assumption
    | ((try lift_lets -underBinder); intro x; first
        | (have hx : Kept s0 x := ?_; rotate_left; subst x; rotate_left; clear_value x)
        | (have : MemUnits := x; subst x)
        | clear_value x
        | skip)
    | with_reducible apply State.bump_kept
    | with_reducible apply State.log_kept
    | with_reducible refine Kept.foldl ?_ fun _ _ _ => ?_
    | (with_reducible apply Kept.unmk; dsimp only; with_reducible apply Kept.ofF)

end Sys2Proof.Machine
end

