-- ==== Sys2Proof/Laws/Kept/Samples.lean ====
section
/-! SUPPORT. What the operations of Machine/Samples.lean keep. -/

namespace Sys2Proof.Machine

theorem State.storeSample_kept (s : State) (e : Fin 8) (rec : Bytes) {s0 : State} (hK : Kept s0 s) :
    Kept s0 (State.storeSample s e rec) := by
  unfold State.storeSample
  repeat' first
    | with_reducible assumption
    | ((try lift_lets -underBinder); intro x; first
        | (have hx : Kept s0 x := ?_; rotate_left; subst x; rotate_left; clear_value x)
        | (have : MemUnits := x; subst x)
        | clear_value x
        | skip)
    | with_reducible apply State.setEngine_kept
    | with_reducible apply State.bump_kept
    | with_reducible apply State.log_kept
    | (with_reducible apply Kept.unmk; dsimp only; with_reducible apply Kept.ofF)
    | split

theorem State.sampleEnded_kept (s : State) (e : Fin 8) (x : EndedThread) (depart : Option Nat) {s0 : State} (hK : Kept s0 s) :
    Kept s0 (State.sampleEnded s e x depart) := by
  unfold State.sampleEnded
  repeat' first
    | with_reducible assumption
    | ((try lift_lets -underBinder); intro x; first
        | (have hx : Kept s0 x := ?_; rotate_left; subst x; rotate_left; clear_value x)
        | (have : MemUnits := x; subst x)
        | clear_value x
        | skip)
    | with_reducible apply State.countE_kept
    | with_reducible apply State.storeSample_kept
    | with_reducible apply State.buffer_kept
    | with_reducible refine Kept.pair2 ‹_ = _› (State.buffer_kept _ _ ?_)
    | (with_reducible apply Kept.unmk; dsimp only; with_reducible apply Kept.ofF)
    | split

theorem State.emitDone_kept (s : State) (owner : Option (Fin 8 × Fin 16 × Nat)) (port : Nat) (r : Option (Nat × Nat)) {s0 : State} (hK : Kept s0 s) :
    Kept s0 (State.emitDone s owner port r) := by
  unfold State.emitDone
  repeat' first
    | with_reducible assumption
    | ((try lift_lets -underBinder); intro x; first
        | (have hx : Kept s0 x := ?_; rotate_left; subst x; rotate_left; clear_value x)
        | (have hx : Kept s0 x.1 := ?_; rotate_left; subst x; rotate_left; clear_value x)
        | (have : MemUnits := x; subst x)
        | clear_value x
        | skip)
    | with_reducible apply State.countE_kept
    | with_reducible apply State.setThread_kept
    | with_reducible apply State.setEngine_kept
    | with_reducible apply State.sampleEnded_kept
    | (with_reducible apply Kept.unmk; dsimp only; with_reducible apply Kept.ofF)
    | (intro _; intros; try beta_reduce)
    | split

theorem State.dropEgress_kept (s : State) (n : Fin 64) (p : EFrame → Bool) (counter : Nat) {s0 : State} (hK : Kept s0 s) :
    Kept s0 (State.dropEgress s n p counter) := by
  unfold State.dropEgress
  repeat' first
    | with_reducible assumption
    | ((try lift_lets -underBinder); intro x; first
        | (have hx : Kept s0 x := ?_; rotate_left; subst x; rotate_left; clear_value x)
        | (have : MemUnits := x; subst x)
        | clear_value x
        | skip)
    | with_reducible apply State.setPort_kept
    | with_reducible apply State.bump_kept
    | with_reducible apply State.emitDone_kept
    | with_reducible refine Kept.foldl ?_ fun _ _ _ => ?_

end Sys2Proof.Machine
end

