-- ==== Sys2Proof/Laws/Kept/Loops.lean ====
section
/-! SUPPORT. What the operations of Machine/Loops.lean keep. -/

namespace Sys2Proof.Machine

theorem State.setBandwidth_kept (s : State) (d : Fin 4) (rate : Option Nat) {s0 : State} (hK : Kept s0 s) :
    Kept s0 (State.setBandwidth s d rate) := by
  unfold State.setBandwidth
  repeat' first
    | with_reducible assumption
    | ((try lift_lets -underBinder); intro x; first
        | (have hx : Kept s0 x := ?_; rotate_left; subst x; rotate_left; clear_value x)
        | (have : MemUnits := x; subst x)
        | clear_value x
        | skip)
    | with_reducible apply State.setLoop_kept
    | with_reducible apply State.log_kept
    | (with_reducible apply Kept.unmk; dsimp only; with_reducible apply Kept.ofF)
    | split

theorem State.setDpll_kept (s : State) (d : Fin 4) (x : DpllState) {s0 : State} (hK : Kept s0 s) :
    Kept s0 (State.setDpll s d x) := by
  unfold State.setDpll
  repeat' first
    | with_reducible assumption
    | ((try lift_lets -underBinder); intro x; first
        | (have hx : Kept s0 x := ?_; rotate_left; subst x; rotate_left; clear_value x)
        | (have : MemUnits := x; subst x)
        | clear_value x
        | skip)
    | with_reducible apply State.setLoop_kept
    | with_reducible apply State.bump_kept
    | with_reducible apply State.log_kept
    | (with_reducible apply Kept.unmk; dsimp only; with_reducible apply Kept.ofF)
    | split

theorem State.orFree_kept (s : State) (x : Option Int) {s0 : State} (hK : Kept s0 s) :
    Kept s0 (State.orFree s x).2 := by
  unfold State.orFree
  repeat' first
    | with_reducible assumption
    | ((try lift_lets -underBinder); intro x; first
        | (have hx : Kept s0 x := ?_; rotate_left; subst x; rotate_left; clear_value x)
        | (have : MemUnits := x; subst x)
        | clear_value x
        | skip)
    | with_reducible apply State.freeInt_kept
    | with_reducible refine Kept.pair2 ‹_ = _› (State.freeInt_kept _ ?_)
    | (with_reducible apply Kept.unmk; dsimp only; with_reducible apply Kept.ofF)
    | split

theorem State.growBound_kept (s : State) {s0 : State} (hK : Kept s0 s) :
    Kept s0 (State.growBound s) := by
  unfold State.growBound
  repeat' first
    | with_reducible assumption
    | ((try lift_lets -underBinder); intro x; first
        | (have hx : Kept s0 x := ?_; rotate_left; subst x; rotate_left; clear_value x)
        | (have : MemUnits := x; subst x)
        | clear_value x
        | skip)
    | (with_reducible apply Kept.unmk; dsimp only; with_reducible apply Kept.ofF)
    | split

theorem State.setModel_kept (s : State) (m : ModelSt) {s0 : State} (hK : Kept s0 s) :
    Kept s0 (State.setModel s m) := by
  unfold State.setModel
  repeat' first
    | with_reducible assumption
    | ((try lift_lets -underBinder); intro x; first
        | (have hx : Kept s0 x := ?_; rotate_left; subst x; rotate_left; clear_value x)
        | (have : MemUnits := x; subst x)
        | clear_value x
        | skip)
    | with_reducible apply State.growBound_kept
    | with_reducible apply State.log_kept
    | (with_reducible apply Kept.unmk; dsimp only; with_reducible apply Kept.ofF)
    | split

theorem State.updateTemp_kept (s : State) (temp : Int) {s0 : State} (hK : Kept s0 s) :
    Kept s0 (State.updateTemp s temp) := by
  unfold State.updateTemp
  repeat' first
    | with_reducible assumption
    | ((try lift_lets -underBinder); intro x; first
        | (have hx : Kept s0 x := ?_; rotate_left; subst x; rotate_left; clear_value x)
        | (have : MemUnits := x; subst x)
        | clear_value x
        | skip)
    | with_reducible apply State.growBound_kept
    | with_reducible apply State.putN_kept
    | (with_reducible apply Kept.unmk; dsimp only; with_reducible apply Kept.ofF)

theorem State.endEpisode_kept (s : State) {s0 : State} (hK : Kept s0 s) :
    Kept s0 (State.endEpisode s) := by
  unfold State.endEpisode
  repeat' first
    | with_reducible assumption
    | ((try lift_lets -underBinder); intro x; first
        | (have hx : Kept s0 x := ?_; rotate_left; subst x; rotate_left; clear_value x)
        | (have : MemUnits := x; subst x)
        | clear_value x
        | skip)
    | with_reducible apply State.log_kept
    | with_reducible apply State.putB_kept
    | with_reducible apply State.putN_kept
    | (with_reducible apply Kept.unmk; dsimp only; with_reducible apply Kept.ofF)
    | split

theorem State.startSeedBound_kept (s : State) (unc : Int) {s0 : State} (hK : Kept s0 s) :
    Kept s0 (State.startSeedBound s unc) := by
  unfold State.startSeedBound
  repeat' first
    | with_reducible assumption
    | ((try lift_lets -underBinder); intro x; first
        | (have hx : Kept s0 x := ?_; rotate_left; subst x; rotate_left; clear_value x)
        | (have : MemUnits := x; subst x)
        | clear_value x
        | skip)
    | (with_reducible apply Kept.unmk; dsimp only; with_reducible apply Kept.ofF)

theorem State.lockT_kept (s : State) (rate : Option Nat) {s0 : State} (hK : Kept s0 s) :
    Kept s0 (State.lockT s rate) := by
  unfold State.lockT
  repeat' first
    | with_reducible assumption
    | ((try lift_lets -underBinder); intro x; first
        | (have hx : Kept s0 x := ?_; rotate_left; subst x; rotate_left; clear_value x)
        | (have : MemUnits := x; subst x)
        | clear_value x
        | skip)
    | with_reducible apply State.setDpll_kept
    | with_reducible apply State.growBound_kept
    | with_reducible apply State.endEpisode_kept
    | with_reducible apply State.setBandwidth_kept
    | (with_reducible apply Kept.unmk; dsimp only; with_reducible apply Kept.ofF)

theorem State.updateLoop_kept (s : State) (d : Fin 4) (err : Int) (stamp : Nat) (integrate : Bool) {s0 : State} (hK : Kept s0 s) :
    Kept s0 (State.updateLoop s d err stamp integrate) := by
  unfold State.updateLoop
  repeat' first
    | with_reducible assumption
    | ((try lift_lets -underBinder); intro x; first
        | (have hx : Kept s0 x := ?_; rotate_left; subst x; rotate_left; clear_value x)
        | (have hx : Kept s0 x.2 := ?_; rotate_left; subst x; rotate_left; clear_value x)
        | (have hx : Kept s0 x.1 := ?_; rotate_left; subst x; rotate_left; clear_value x)
        | (have : MemUnits := x; subst x)
        | clear_value x
        | skip)
    | with_reducible apply State.setLoop_kept

theorem State.reducePending_kept (s : State) (stamp : Nat) {s0 : State} (hK : Kept s0 s) :
    Kept s0 (State.reducePending s stamp) := by
  unfold State.reducePending
  repeat' first
    | with_reducible assumption
    | ((try lift_lets -underBinder); intro x; first
        | (have hx : Kept s0 x := ?_; rotate_left; subst x; rotate_left; clear_value x)
        | (have : MemUnits := x; subst x)
        | clear_value x
        | skip)
    | (with_reducible apply Kept.unmk; dsimp only; with_reducible apply Kept.ofF)

theorem State.addPending_kept (s : State) (e : Int) {s0 : State} (hK : Kept s0 s) :
    Kept s0 (State.addPending s e) := by
  unfold State.addPending
  repeat' first
    | with_reducible assumption
    | ((try lift_lets -underBinder); intro x; first
        | (have hx : Kept s0 x := ?_; rotate_left; subst x; rotate_left; clear_value x)
        | (have : MemUnits := x; subst x)
        | clear_value x
        | skip)
    | with_reducible apply State.reducePending_kept
    | (with_reducible apply Kept.unmk; dsimp only; with_reducible apply Kept.ofF)

theorem execOscMonitor_kept (offset : Int) (s : State) {s0 : State} (hK : Kept s0 s) :
    KeptO s0 (execOscMonitor offset s) := by
  unfold execOscMonitor
  repeat' first
    | with_reducible assumption
    | ((try lift_lets -underBinder); intro x; first
        | (have hx : Kept s0 x := ?_; rotate_left; subst x; rotate_left; clear_value x)
        | (have : MemUnits := x; subst x)
        | clear_value x
        | skip)
    | with_reducible apply KeptO.next
    | with_reducible apply State.putN_kept
    | with_reducible apply State.putB_kept
    | with_reducible apply State.log_kept
    | split

theorem execModelLearnSample_kept (temp : Int) (s : State) {s0 : State} (hK : Kept s0 s) :
    KeptO s0 (execModelLearnSample temp s) := by
  unfold execModelLearnSample
  repeat' first
    | with_reducible assumption
    | ((try lift_lets -underBinder); intro x; first
        | (have hx : Kept s0 x := ?_; rotate_left; subst x; rotate_left; clear_value x)
        | (have : MemUnits := x; subst x)
        | clear_value x
        | skip)
    | with_reducible apply KeptO.next
    | with_reducible apply State.updateTemp_kept
    | with_reducible apply State.setModel_kept
    | with_reducible apply State.orFree_kept
    | with_reducible refine Kept.pair2 ‹_ = _› (State.orFree_kept _ _ ?_)
    | with_reducible apply State.putN_kept
    | (with_reducible apply Kept.unmk; dsimp only; with_reducible apply Kept.ofF)
    | (intro _; intros; try beta_reduce)
    | split

theorem execModelReset_kept (s : State) {s0 : State} (hK : Kept s0 s) :
    KeptO s0 (execModelReset s) := by
  unfold execModelReset
  repeat' first
    | with_reducible assumption
    | ((try lift_lets -underBinder); intro x; first
        | (have hx : Kept s0 x := ?_; rotate_left; subst x; rotate_left; clear_value x)
        | (have : MemUnits := x; subst x)
        | clear_value x
        | skip)
    | with_reducible apply KeptO.next
    | with_reducible apply State.setModel_kept
    | with_reducible apply State.putN_kept
    | with_reducible apply State.putB_kept
    | (with_reducible apply Kept.unmk; dsimp only; with_reducible apply Kept.ofF)

theorem State.writeDac_kept (s : State) (code : Nat) {s0 : State} (hK : Kept s0 s) :
    Kept s0 (State.writeDac s code) := by
  unfold State.writeDac
  repeat' first
    | with_reducible assumption
    | ((try lift_lets -underBinder); intro x; first
        | (have hx : Kept s0 x := ?_; rotate_left; subst x; rotate_left; clear_value x)
        | (have : MemUnits := x; subst x)
        | clear_value x
        | skip)
    | with_reducible apply State.putN_kept
    | (with_reducible apply Kept.unmk; dsimp only; with_reducible apply Kept.ofF)

theorem execEfcUpdate_kept (s : State) {s0 : State} (hK : Kept s0 s) :
    KeptO s0 (execEfcUpdate s) := by
  unfold execEfcUpdate
  repeat' first
    | with_reducible assumption
    | ((try lift_lets -underBinder); intro x; first
        | (have hx : Kept s0 x := ?_; rotate_left; subst x; rotate_left; clear_value x)
        | (have : MemUnits := x; subst x)
        | clear_value x
        | skip)
    | with_reducible apply KeptO.next
    | with_reducible apply State.writeDac_kept
    | with_reducible apply State.bump_kept
    | with_reducible apply State.log_kept
    | (with_reducible apply Kept.unmk; dsimp only; with_reducible apply Kept.ofF)
    | split

theorem State.compensate_kept (s : State) (x : Int) {s0 : State} (hK : Kept s0 s) :
    Kept s0 (State.compensate s x) := by
  unfold State.compensate
  repeat' first
    | with_reducible assumption
    | ((try lift_lets -underBinder); intro x; first
        | (have hx : Kept s0 x := ?_; rotate_left; subst x; rotate_left; clear_value x)
        | (have hf1 : ∀ s, Kept s0 s → Kept s0 (x s) := ?_; rotate_left; subst x; intros; beta_reduce; rotate_left; clear_value x)
        | (have hf2 : ∀ s a, Kept s0 s → Kept s0 (x s a) := ?_; rotate_left; subst x; intros; beta_reduce; rotate_left; clear_value x)
        | (have hf3 : ∀ s a b, Kept s0 s → Kept s0 (x s a b) := ?_; rotate_left; subst x; intros; beta_reduce; rotate_left; clear_value x)
        | (have hf4 : ∀ a s, Kept s0 s → Kept s0 (x a s) := ?_; rotate_left; subst x; intros; beta_reduce; rotate_left; clear_value x)
        | (have : MemUnits := x; subst x)
        | clear_value x
        | skip)
    | with_reducible apply hf1
    | with_reducible apply hf2
    | with_reducible apply hf3
    | with_reducible apply hf4
    | (with_reducible apply Kept.unmk; dsimp only; with_reducible apply Kept.ofF)

theorem execEfcCompensate_kept (s : State) {s0 : State} (hK : Kept s0 s) :
    KeptO s0 (execEfcCompensate s) := by
  unfold execEfcCompensate
  repeat' first
    | with_reducible assumption
    | ((try lift_lets -underBinder); intro x; first
        | (have hx : Kept s0 x := ?_; rotate_left; subst x; rotate_left; clear_value x)
        | (have hx : Kept s0 x.2 := ?_; rotate_left; subst x; rotate_left; clear_value x)
        | (have hx : Kept s0 x.1 := ?_; rotate_left; subst x; rotate_left; clear_value x)
        | (have : MemUnits := x; subst x)
        | clear_value x
        | skip)
    | with_reducible apply KeptO.next
    | with_reducible apply State.compensate_kept
    | with_reducible apply State.requestSegment_kept
    | (with_reducible apply Kept.unmk; dsimp only; with_reducible apply Kept.ofF)
    | (intro _; intros; try beta_reduce)
    | split

theorem execSteering_kept (value : Int) (s : State) {s0 : State} (hK : Kept s0 s) :
    KeptO s0 (execSteering value s) := by
  unfold execSteering
  repeat' first
    | with_reducible assumption
    | ((try lift_lets -underBinder); intro x; first
        | (have hx : Kept s0 x := ?_; rotate_left; subst x; rotate_left; clear_value x)
        | skip)
    | with_reducible apply KeptO.next
    | with_reducible apply State.putN_kept
    | with_reducible apply State.requestSegment_kept

theorem execHoldoverRemainingUpdate_kept (s : State) {s0 : State} (hK : Kept s0 s) :
    KeptO s0 (execHoldoverRemainingUpdate s) := by
  unfold execHoldoverRemainingUpdate
  repeat' first
    | with_reducible assumption
    | with_reducible apply KeptO.next
    | with_reducible apply State.putN_kept

theorem State.storeModel_kept (s : State) {s0 : State} (hK : Kept s0 s) :
    Kept s0 (State.storeModel s) := by
  unfold State.storeModel
  repeat' first
    | with_reducible assumption
    | ((try lift_lets -underBinder); intro x; first
        | (have hx : Kept s0 x := ?_; rotate_left; subst x; rotate_left; clear_value x)
        | (have hx : Kept s0 x.2 := ?_; rotate_left; subst x; rotate_left; clear_value x)
        | (have : MemUnits := x; subst x)
        | clear_value x
        | skip)
    | (with_reducible apply Kept.unmk; dsimp only; with_reducible apply Kept.ofF)
    | split

theorem execModelStore_kept (s : State) {s0 : State} (hK : Kept s0 s) :
    KeptO s0 (execModelStore s) := by
  unfold execModelStore
  repeat' first
    | with_reducible assumption
    | with_reducible apply KeptO.next
    | with_reducible apply State.storeModel_kept
    | split

theorem State.restoreModel_kept (s : State) (snowdropSeconds : Option Int) {s0 : State} (hK : Kept s0 s) :
    Kept s0 (State.restoreModel s snowdropSeconds) := by
  unfold State.restoreModel
  repeat' first
    | with_reducible assumption
    | ((try lift_lets -underBinder); intro x; first
        | (have hx : Kept s0 x := ?_; rotate_left; subst x; rotate_left; clear_value x)
        | (have hf1 : ∀ s, Kept s0 s → Kept s0 (x s) := ?_; rotate_left; subst x; intros; beta_reduce; rotate_left; clear_value x)
        | skip)
    | with_reducible apply State.writeDac_kept
    | with_reducible apply State.setModel_kept
    | with_reducible apply hf1
    | with_reducible apply hf2
    | with_reducible apply hf3
    | with_reducible apply hf4
    | (with_reducible apply Kept.unmk; dsimp only; with_reducible apply Kept.ofF)
    | (intro _; intros; try beta_reduce)
    | split

end Sys2Proof.Machine
end

