-- ==== Sys2Proof/Laws/Kept/Slots.lean ====
section
/-! SUPPORT. What the operations of Machine/Slots.lean keep. -/

namespace Sys2Proof.Machine

theorem State.markDisputes_kept (s : State) (i : Fin 16) {s0 : State} (hK : Kept s0 s) :
    Kept s0 (State.markDisputes s i) := by
  unfold State.markDisputes
  repeat' first
    | with_reducible assumption
    | ((try lift_lets -underBinder); intro x; first
        | (have hx : Kept s0 x := ?_; rotate_left; subst x; rotate_left; clear_value x)
        | (have : MemUnits := x; subst x)
        | clear_value x
        | skip)
    | with_reducible apply State.setSlot_kept

theorem State.endDisputes_kept (s : State) (gone : Dispute → Bool) {s0 : State} (hK : Kept s0 s) :
    Kept s0 (State.endDisputes s gone) := by
  unfold State.endDisputes
  repeat' first
    | with_reducible assumption
    | ((try lift_lets -underBinder); intro x; first
        | (have hx : Kept s0 x := ?_; rotate_left; subst x; rotate_left; clear_value x)
        | (have : MemUnits := x; subst x)
        | clear_value x
        | skip)
    | with_reducible apply State.markDisputes_kept
    | with_reducible apply State.log_kept
    | with_reducible apply State.setModel_kept
    | with_reducible refine Kept.foldl ?_ fun _ _ _ => ?_
    | (with_reducible apply Kept.unmk; dsimp only; with_reducible apply Kept.ofF)
    | (intro _; intros; try beta_reduce)
    | split

theorem State.leaveQualified_kept (s : State) (i : Fin 16) {s0 : State} (hK : Kept s0 s) :
    Kept s0 (State.leaveQualified s i) := by
  unfold State.leaveQualified
  repeat' first
    | with_reducible assumption
    | ((try lift_lets -underBinder); intro x; first
        | (have hx : Kept s0 x := ?_; rotate_left; subst x; rotate_left; clear_value x)
        | skip)
    | with_reducible apply State.endDisputes_kept
    | (with_reducible apply Kept.unmk; dsimp only; with_reducible apply Kept.ofF)

theorem State.dropFirst_kept (s : State) (i : Fin 16) {s0 : State} (hK : Kept s0 s) :
    Kept s0 (State.dropFirst s i) := by
  unfold State.dropFirst
  repeat' first
    | with_reducible assumption
    | ((try lift_lets -underBinder); intro x; first
        | (have hx : Kept s0 x := ?_; rotate_left; subst x; rotate_left; clear_value x)
        | (have : MemUnits := x; subst x)
        | clear_value x
        | skip)
    | with_reducible apply State.seed_kept
    | (with_reducible apply Kept.unmk; dsimp only; with_reducible apply Kept.ofF)
    | split

theorem State.failSlot_kept (s : State) (i : Fin 16) (bits : Nat) {s0 : State} (hK : Kept s0 s) :
    Kept s0 (State.failSlot s i bits) := by
  unfold State.failSlot
  repeat' first
    | with_reducible assumption
    | ((try lift_lets -underBinder); intro x; first
        | (have hx : Kept s0 x := ?_; rotate_left; subst x; rotate_left; clear_value x)
        | (have : MemUnits := x; subst x)
        | clear_value x
        | skip)
    | with_reducible apply State.setSlot_kept
    | with_reducible apply State.bump_kept
    | with_reducible apply State.log_kept
    | with_reducible apply State.dropFirst_kept
    | with_reducible apply State.leaveQualified_kept
    | (with_reducible apply Kept.unmk; dsimp only; with_reducible apply Kept.ofF)
    | split

theorem State.logSlot_kept (s : State) (i : Fin 16) {s0 : State} (hK : Kept s0 s) :
    Kept s0 (State.logSlot s i) := by
  unfold State.logSlot
  repeat' first
    | with_reducible assumption
    | ((try lift_lets -underBinder); intro x; first
        | (have hx : Kept s0 x := ?_; rotate_left; subst x; rotate_left; clear_value x)
        | (have : MemUnits := x; subst x)
        | clear_value x
        | skip)
    | with_reducible apply State.freeNat_kept
    | with_reducible refine Kept.pair2 ‹_ = _› (State.freeNat_kept _ ?_)
    | with_reducible apply State.freeBytes_kept
    | with_reducible refine Kept.pair2 ‹_ = _› (State.freeBytes_kept _ _ ?_)
    | with_reducible apply State.log_kept

theorem State.evalSlot_kept (s : State) (i : Fin 16) {s0 : State} (hK : Kept s0 s) :
    Kept s0 (State.evalSlot s i) := by
  unfold State.evalSlot
  repeat' first
    | with_reducible assumption
    | ((try lift_lets -underBinder); intro x; first
        | (have hx : Kept s0 x := ?_; rotate_left; subst x; rotate_left; clear_value x)
        | (have : MemUnits := x; subst x)
        | clear_value x
        | skip)
    | with_reducible apply State.setSlot_kept
    | with_reducible apply State.failSlot_kept
    | with_reducible apply State.logSlot_kept
    | (with_reducible apply Kept.unmk; dsimp only; with_reducible apply Kept.ofF)
    | split

theorem State.qualifySlot_kept (s : State) (i : Fin 16) {s0 : State} (hK : Kept s0 s) :
    Kept s0 (State.qualifySlot s i) := by
  unfold State.qualifySlot
  repeat' first
    | with_reducible assumption
    | ((try lift_lets -underBinder); intro x; first
        | (have hx : Kept s0 x := ?_; rotate_left; subst x; rotate_left; clear_value x)
        | (have : MemUnits := x; subst x)
        | clear_value x
        | skip)
    | with_reducible apply State.setSlot_kept
    | with_reducible apply State.log_kept

theorem State.bindSlot_kept (s : State) (i : Fin 16) (enabled : Bool) {s0 : State} (hK : Kept s0 s) :
    Kept s0 (State.bindSlot s i enabled) := by
  unfold State.bindSlot
  repeat' first
    | with_reducible assumption
    | ((try lift_lets -underBinder); intro x; first
        | (have hx : Kept s0 x := ?_; rotate_left; subst x; rotate_left; clear_value x)
        | (have : MemUnits := x; subst x)
        | clear_value x
        | skip)
    | with_reducible apply State.leaveQualified_kept
    | with_reducible apply State.dropFirst_kept
    | with_reducible apply State.logSlot_kept
    | with_reducible apply State.setSlot_kept
    | with_reducible apply State.evalSlot_kept
    | (with_reducible apply Kept.unmk; dsimp only; with_reducible apply Kept.ofF)
    | split

theorem State.acceptLabel_kept (s : State) (i : Fin 16) (stamp : Nat) (time : Int) {s0 : State} (hK : Kept s0 s) :
    Kept s0 (State.acceptLabel s i stamp time) := by
  unfold State.acceptLabel
  repeat' first
    | with_reducible assumption
    | ((try lift_lets -underBinder); intro x; first
        | (have hx : Kept s0 x := ?_; rotate_left; subst x; rotate_left; clear_value x)
        | (have : MemUnits := x; subst x)
        | clear_value x
        | skip)
    | with_reducible apply State.setSlot_kept
    | with_reducible apply State.evalSlot_kept

theorem State.noteDiscard_kept (s : State) (i : Fin 16) (reason : Nat) {s0 : State} (hK : Kept s0 s) :
    Kept s0 (State.noteDiscard s i reason) := by
  unfold State.noteDiscard
  repeat' first
    | with_reducible assumption
    | ((try lift_lets -underBinder); intro x; first
        | (have hx : Kept s0 x := ?_; rotate_left; subst x; rotate_left; clear_value x)
        | (have : MemUnits := x; subst x)
        | clear_value x
        | skip)
    | with_reducible apply State.setSlot_kept
    | with_reducible apply State.log_kept
    | (with_reducible apply Kept.unmk; dsimp only; with_reducible apply Kept.ofF)
    | split

theorem State.discardTod_kept (s : State) (input : Nat) (i : Fin 16) (reason : Nat) {s0 : State} (hK : Kept s0 s) :
    Kept s0 (State.discardTod s input i reason) := by
  unfold State.discardTod
  repeat' first
    | with_reducible assumption
    | with_reducible apply State.bump_kept
    | with_reducible apply State.noteDiscard_kept

theorem State.lateLabel_kept (s : State) (i : Fin 16) (stamp : Nat) (label : Int × Nat) {s0 : State} (hK : Kept s0 s) :
    Kept s0 (State.lateLabel s i stamp label) := by
  unfold State.lateLabel
  repeat' first
    | with_reducible assumption
    | with_reducible apply State.bump_kept
    | with_reducible apply State.acceptLabel_kept
    | with_reducible apply State.discardTod_kept
    | split

theorem State.slotEdge_kept (s : State) (i : Fin 16) (stamp : Nat) {s0 : State} (hK : Kept s0 s) :
    Kept s0 (State.slotEdge s i stamp) := by
  unfold State.slotEdge
  repeat' first
    | with_reducible assumption
    | ((try lift_lets -underBinder); intro x; first
        | (have hx : Kept s0 x := ?_; rotate_left; subst x; rotate_left; clear_value x)
        | (have : MemUnits := x; subst x)
        | clear_value x
        | skip)
    | with_reducible apply State.bump_kept
    | with_reducible apply State.setSlot_kept
    | with_reducible apply State.evalSlot_kept
    | with_reducible apply State.lateLabel_kept
    | with_reducible refine Kept.foldl ?_ fun _ _ _ => ?_
    | (with_reducible apply Kept.unmk; dsimp only; with_reducible apply Kept.ofF)
    | (intro _; intros; try beta_reduce)
    | split

theorem State.adoptRaf_kept (s : State) (b : Bytes) {s0 : State} (hK : Kept s0 s) :
    Kept s0 (State.adoptRaf s b) := by
  unfold State.adoptRaf
  repeat' first
    | with_reducible assumption
    | ((try lift_lets -underBinder); intro x; first
        | (have hx : Kept s0 x := ?_; rotate_left; subst x; rotate_left; clear_value x)
        | (have : MemUnits := x; subst x)
        | clear_value x
        | skip)
    | with_reducible apply State.adoptLeap_kept
    | split

theorem State.rafSlot_kept (s : State) (input : Nat) (start : Nat) (b : Bytes) (i : Fin 16) {s0 : State} (hK : Kept s0 s) :
    Kept s0 (State.rafSlot s input start b i) := by
  unfold State.rafSlot
  repeat' first
    | with_reducible assumption
    | ((try lift_lets -underBinder); intro x; first
        | (have hx : Kept s0 x := ?_; rotate_left; subst x; rotate_left; clear_value x)
        | (have : MemUnits := x; subst x)
        | clear_value x
        | skip)
    | with_reducible apply State.discardTod_kept
    | with_reducible apply State.bump_kept
    | with_reducible apply State.setSlot_kept
    | with_reducible apply State.acceptLabel_kept
    | with_reducible apply State.adoptRaf_kept
    | (with_reducible apply Kept.unmk; dsimp only; with_reducible apply Kept.ofF)
    | split

theorem State.nmeaSlot_kept (s : State) (input : Nat) (start : Nat) (b : Bytes) (i : Fin 16) {s0 : State} (hK : Kept s0 s) :
    Kept s0 (State.nmeaSlot s input start b i) := by
  unfold State.nmeaSlot
  repeat' first
    | with_reducible assumption
    | ((try lift_lets -underBinder); intro x; first
        | (have hx : Kept s0 x := ?_; rotate_left; subst x; rotate_left; clear_value x)
        | (have : MemUnits := x; subst x)
        | clear_value x
        | skip)
    | with_reducible apply State.noteDiscard_kept
    | with_reducible apply State.discardTod_kept
    | with_reducible apply State.setSlot_kept
    | with_reducible apply State.bump_kept
    | with_reducible apply State.acceptLabel_kept
    | (with_reducible apply Kept.unmk; dsimp only; with_reducible apply Kept.ofF)
    | split

theorem execMissingEdge_kept (slot : Fin 16) (s : State) {s0 : State} (hK : Kept s0 s) :
    KeptO s0 (execMissingEdge slot s) := by
  unfold execMissingEdge
  repeat' first
    | with_reducible assumption
    | ((try lift_lets -underBinder); intro x; first
        | (have hx : Kept s0 x := ?_; rotate_left; subst x; rotate_left; clear_value x)
        | (have : MemUnits := x; subst x)
        | clear_value x
        | skip)
    | with_reducible apply KeptO.next
    | with_reducible apply State.bump_kept
    | with_reducible apply State.setSlot_kept
    | with_reducible apply State.evalSlot_kept
    | (with_reducible apply Kept.unmk; dsimp only; with_reducible apply Kept.ofF)
    | split

theorem State.slotMeasure_kept (s : State) (i : Fin 16) (stamp : Nat) (carried : Int) {s0 : State} (hK : Kept s0 s) :
    Kept s0 (State.slotMeasure s i stamp carried) := by
  unfold State.slotMeasure
  repeat' first
    | with_reducible assumption
    | ((try lift_lets -underBinder); intro x; first
        | (have hx : Kept s0 x := ?_; rotate_left; subst x; rotate_left; clear_value x)
        | (have : MemUnits := x; subst x)
        | clear_value x
        | skip)
    | with_reducible apply State.setSlot_kept
    | with_reducible apply State.evalSlot_kept

theorem State.slotFreqMeasure_kept (s : State) (i : Fin 16) (y : Int) {s0 : State} (hK : Kept s0 s) :
    Kept s0 (State.slotFreqMeasure s i y) := by
  unfold State.slotFreqMeasure
  repeat' first
    | with_reducible assumption
    | ((try lift_lets -underBinder); intro x; first
        | (have hx : Kept s0 x := ?_; rotate_left; subst x; rotate_left; clear_value x)
        | (have hx : Kept s0 x.1 := ?_; rotate_left; subst x; rotate_left; clear_value x)
        | (have : MemUnits := x; subst x)
        | clear_value x
        | skip)
    | with_reducible apply State.setSlot_kept
    | with_reducible apply State.evalSlot_kept

theorem execTodinFrame_kept (input : Fin 8) (start : Nat) (frame : Bytes) (s : State) {s0 : State} (hK : Kept s0 s) :
    KeptO s0 (execTodinFrame input start frame s) := by
  unfold execTodinFrame
  repeat' first
    | with_reducible assumption
    | with_reducible apply KeptO.next
    | with_reducible apply State.rafSlot_kept
    | with_reducible refine Kept.foldl ?_ fun _ _ _ => ?_

theorem execNmeaSentence_kept (input : Fin 8) (start : Nat) (sentence : Bytes) (s : State) {s0 : State} (hK : Kept s0 s) :
    KeptO s0 (execNmeaSentence input start sentence s) := by
  unfold execNmeaSentence
  repeat' first
    | with_reducible assumption
    | with_reducible apply KeptO.next
    | with_reducible apply State.nmeaSlot_kept
    | with_reducible refine Kept.foldl ?_ fun _ _ _ => ?_

theorem execEsmcPduReceive_kept (port : Fin 64) (ssm : Nat) (essm : Option Nat) (s : State) {s0 : State} (hK : Kept s0 s) :
    KeptO s0 (execEsmcPduReceive port ssm essm s) := by
  unfold execEsmcPduReceive
  repeat' first
    | with_reducible assumption
    | ((try lift_lets -underBinder); intro x; first
        | (have hx : Kept s0 x := ?_; rotate_left; subst x; rotate_left; clear_value x)
        | (have : MemUnits := x; subst x)
        | clear_value x
        | skip)
    | with_reducible apply KeptO.next
    | with_reducible apply State.setSlot_kept
    | with_reducible apply State.evalSlot_kept
    | with_reducible refine Kept.foldl ?_ fun _ _ _ => ?_
    | (with_reducible apply Kept.unmk; dsimp only; with_reducible apply Kept.ofF)
    | (intro _; intros; try beta_reduce)
    | split

theorem execEsmcAbsent_kept (slot : Fin 16) (s : State) {s0 : State} (hK : Kept s0 s) :
    KeptO s0 (execEsmcAbsent slot s) := by
  unfold execEsmcAbsent
  repeat' first
    | with_reducible assumption
    | ((try lift_lets -underBinder); intro x; first
        | (have hx : Kept s0 x := ?_; rotate_left; subst x; rotate_left; clear_value x)
        | (have : MemUnits := x; subst x)
        | clear_value x
        | skip)
    | with_reducible apply KeptO.next
    | with_reducible apply State.setSlot_kept
    | with_reducible apply State.evalSlot_kept
    | (with_reducible apply Kept.unmk; dsimp only; with_reducible apply Kept.ofF)
    | split

theorem execQualifyTimerExpiry_kept (slot : Fin 16) (s : State) {s0 : State} (hK : Kept s0 s) :
    KeptO s0 (execQualifyTimerExpiry slot s) := by
  unfold execQualifyTimerExpiry
  repeat' first
    | with_reducible assumption
    | ((try lift_lets -underBinder); intro x; first
        | (have hx : Kept s0 x := ?_; rotate_left; subst x; rotate_left; clear_value x)
        | (have : MemUnits := x; subst x)
        | clear_value x
        | skip)
    | with_reducible apply KeptO.next
    | with_reducible apply State.evalSlot_kept
    | with_reducible apply State.setSlot_kept
    | with_reducible apply State.qualifySlot_kept
    | with_reducible apply State.log_kept
    | (with_reducible apply Kept.unmk; dsimp only; with_reducible apply Kept.ofF)
    | split

theorem execWtrTimerExpiry_kept (slot : Fin 16) (s : State) {s0 : State} (hK : Kept s0 s) :
    KeptO s0 (execWtrTimerExpiry slot s) := by
  unfold execWtrTimerExpiry
  repeat' first
    | with_reducible assumption
    | ((try lift_lets -underBinder); intro x; first
        | (have hx : Kept s0 x := ?_; rotate_left; subst x; rotate_left; clear_value x)
        | (have : MemUnits := x; subst x)
        | clear_value x
        | skip)
    | with_reducible apply KeptO.next
    | with_reducible apply State.evalSlot_kept
    | with_reducible apply State.qualifySlot_kept
    | (with_reducible apply Kept.unmk; dsimp only; with_reducible apply Kept.ofF)
    | split

theorem execOperatorValidityExpiry_kept (slot : Fin 16) (s : State) {s0 : State} (hK : Kept s0 s) :
    KeptO s0 (execOperatorValidityExpiry slot s) := by
  unfold execOperatorValidityExpiry
  repeat' first
    | with_reducible assumption
    | with_reducible apply KeptO.next
    | with_reducible apply State.evalSlot_kept

theorem execSyncReceiptTimeout_kept (slot : Fin 16) (s : State) {s0 : State} (hK : Kept s0 s) :
    KeptO s0 (execSyncReceiptTimeout slot s) := by
  unfold execSyncReceiptTimeout
  repeat' first
    | with_reducible assumption
    | ((try lift_lets -underBinder); intro x; first
        | (have hx : Kept s0 x := ?_; rotate_left; subst x; rotate_left; clear_value x)
        | (have : MemUnits := x; subst x)
        | clear_value x
        | skip)
    | with_reducible apply KeptO.next
    | with_reducible apply State.setSlot_kept
    | with_reducible apply State.evalSlot_kept
    | (with_reducible apply Kept.unmk; dsimp only; with_reducible apply Kept.ofF)
    | split

theorem State.operatorEntry_kept (s : State) (slot : Fin 16) (time : Int) (due : Option Int) {s0 : State} (hK : Kept s0 s) :
    Kept s0 (State.operatorEntry s slot time due) := by
  unfold State.operatorEntry
  repeat' first
    | with_reducible assumption
    | ((try lift_lets -underBinder); intro x; first
        | (have hx : Kept s0 x := ?_; rotate_left; subst x; rotate_left; clear_value x)
        | (have : MemUnits := x; subst x)
        | clear_value x
        | skip)
    | with_reducible apply State.setSlot_kept
    | with_reducible apply State.evalSlot_kept
    | with_reducible apply State.addPending_kept
    | with_reducible apply State.lockT_kept
    | with_reducible apply State.updateLoop_kept
    | with_reducible apply State.requestSegment_kept
    | (with_reducible apply Kept.unmk; dsimp only; with_reducible apply Kept.ofF)
    | split

theorem execOperatorTime_kept (slot : Fin 16) (time : Int) (s : State) {s0 : State} (hK : Kept s0 s) :
    KeptO s0 (execOperatorTime slot time s) := by
  unfold execOperatorTime
  repeat' first
    | with_reducible assumption
    | with_reducible apply KeptO.next
    | with_reducible apply State.operatorEntry_kept

end Sys2Proof.Machine
end

