-- ==== Sys2Proof/Laws/Kept/Ports.lean ====
section
/-! SUPPORT. What the operations of Machine/Ports.lean keep. -/

namespace Sys2Proof.Machine

theorem State.setLink_kept (s : State) (n : Fin 64) (v : Nat) (code : Nat) (data : Bytes) {s0 : State} (hK : Kept s0 s) :
    Kept s0 (State.setLink s n v code data) := by
  unfold State.setLink
  repeat' first
    | with_reducible assumption
    | with_reducible apply State.putN_kept
    | with_reducible apply State.bump_kept
    | with_reducible apply State.log_kept
    | split

theorem State.setSentinel_kept (s : State) (n : Fin 64) (tx : Bool) (v : Nat) {s0 : State} (hK : Kept s0 s) :
    Kept s0 (State.setSentinel s n tx v) := by
  unfold State.setSentinel
  repeat' first
    | with_reducible assumption
    | ((try lift_lets -underBinder); intro x; first
        | (have hx : Kept s0 x := ?_; rotate_left; subst x; rotate_left; clear_value x)
        | (have : MemUnits := x; subst x)
        | clear_value x
        | skip)
    | with_reducible apply State.putN_kept
    | with_reducible apply State.log_kept
    | with_reducible apply State.setPort_kept
    | with_reducible apply State.bump_kept
    | with_reducible apply State.countP_kept
    | (with_reducible apply Kept.unmk; dsimp only; with_reducible apply Kept.ofF)
    | split

theorem State.clearPair_kept (s : State) (n : Fin 64) {s0 : State} (hK : Kept s0 s) :
    Kept s0 (State.clearPair s n) := by
  unfold State.clearPair
  repeat' first
    | with_reducible assumption
    | ((try lift_lets -underBinder); intro x; first
        | (have hx : Kept s0 x := ?_; rotate_left; subst x; rotate_left; clear_value x)
        | (have : MemUnits := x; subst x)
        | clear_value x
        | skip)
    | with_reducible apply State.setPort_kept
    | with_reducible apply State.putN_kept
    | with_reducible refine Kept.foldl ?_ fun _ _ _ => ?_
    | (with_reducible apply Kept.unmk; dsimp only; with_reducible apply Kept.ofF)
    | (intro _; intros; try beta_reduce)
    | split

theorem State.endLpi_kept (s : State) (n : Fin 64) {s0 : State} (hK : Kept s0 s) :
    Kept s0 (State.endLpi s n) := by
  unfold State.endLpi
  repeat' first
    | with_reducible assumption
    | ((try lift_lets -underBinder); intro x; first
        | (have hx : Kept s0 x := ?_; rotate_left; subst x; rotate_left; clear_value x)
        | (have : MemUnits := x; subst x)
        | clear_value x
        | skip)
    | with_reducible apply State.setPort_kept
    | with_reducible apply State.bump_kept
    | (with_reducible apply Kept.unmk; dsimp only; with_reducible apply Kept.ofF)
    | split

theorem State.portDown_kept (s : State) (n : Fin 64) (v : Nat) (cause : Nat) {s0 : State} (hK : Kept s0 s) :
    Kept s0 (State.portDown s n v cause) := by
  unfold State.portDown
  repeat' first
    | with_reducible assumption
    | ((try lift_lets -underBinder); intro x; first
        | (have hx : Kept s0 x := ?_; rotate_left; subst x; rotate_left; clear_value x)
        | (have : MemUnits := x; subst x)
        | clear_value x
        | skip)
    | with_reducible apply State.setLink_kept
    | with_reducible apply State.setSentinel_kept
    | with_reducible apply State.dropEgress_kept
    | with_reducible apply State.bump_kept
    | with_reducible apply State.endLpi_kept
    | with_reducible apply State.setPort_kept
    | with_reducible apply State.putN_kept
    | with_reducible apply State.clearPair_kept
    | with_reducible apply State.ptpLink_kept
    | with_reducible apply State.evalSlot_kept
    | with_reducible refine Kept.foldl ?_ fun _ _ _ => ?_

theorem State.refreshPort_kept (s : State) (n : Fin 64) (cause : Nat) {s0 : State} (hK : Kept s0 s) :
    Kept s0 (State.refreshPort s n cause) := by
  unfold State.refreshPort
  repeat' first
    | with_reducible assumption
    | ((try lift_lets -underBinder); intro x; first
        | (have hx : Kept s0 x := ?_; rotate_left; subst x; rotate_left; clear_value x)
        | (have : MemUnits := x; subst x)
        | clear_value x
        | skip)
    | with_reducible apply State.portDown_kept
    | split

theorem State.newPortMode_kept (s : State) (n : Fin 64) {s0 : State} (hK : Kept s0 s) :
    Kept s0 (State.newPortMode s n) := by
  unfold State.newPortMode
  repeat' first
    | with_reducible assumption
    | ((try lift_lets -underBinder); intro x; first
        | (have hx : Kept s0 x := ?_; rotate_left; subst x; rotate_left; clear_value x)
        | (have : MemUnits := x; subst x)
        | clear_value x
        | skip)
    | with_reducible apply State.setPort_kept
    | with_reducible apply State.putN_kept
    | with_reducible apply State.portDown_kept
    | with_reducible apply State.refreshPort_kept
    | with_reducible refine Kept.foldl ?_ fun _ _ _ => ?_
    | (with_reducible apply Kept.unmk; dsimp only; with_reducible apply Kept.ofF)
    | (intro _; intros; try beta_reduce)
    | split

theorem State.forgetDelays_kept (s : State) (n : Fin 64) {s0 : State} (hK : Kept s0 s) :
    Kept s0 (State.forgetDelays s n) := by
  unfold State.forgetDelays
  repeat' first
    | with_reducible assumption
    | ((try lift_lets -underBinder); intro x; first
        | (have hx : Kept s0 x := ?_; rotate_left; subst x; rotate_left; clear_value x)
        | (have hx : Kept s0 x.2 := ?_; rotate_left; subst x; rotate_left; clear_value x)
        | (have hx : Kept s0 x.1 := ?_; rotate_left; subst x; rotate_left; clear_value x)
        | (have : MemUnits := x; subst x)
        | clear_value x
        | skip)
    | with_reducible apply State.putN_kept
    | with_reducible refine Kept.foldl ?_ fun _ _ _ => ?_
    | (with_reducible apply Kept.unmk; dsimp only; with_reducible apply Kept.ofF)
    | (intro _; intros; try beta_reduce)
    | split

theorem execLinkUp_kept (port : Fin 64) (speed : Nat) (fec : Nat) (eee : Bool) (s : State) {s0 : State} (hK : Kept s0 s) :
    KeptO s0 (execLinkUp port speed fec eee s) := by
  unfold execLinkUp
  repeat' first
    | with_reducible assumption
    | ((try lift_lets -underBinder); intro x; first
        | (have hx : Kept s0 x := ?_; rotate_left; subst x; rotate_left; clear_value x)
        | (have : MemUnits := x; subst x)
        | clear_value x
        | skip)
    | with_reducible apply KeptO.next
    | with_reducible apply State.setPort_kept
    | with_reducible apply State.putN_kept
    | with_reducible apply State.setLink_kept
    | with_reducible apply State.setSentinel_kept
    | with_reducible apply State.clearPair_kept
    | with_reducible apply State.forgetDelays_kept
    | with_reducible apply State.ptpLink_kept
    | with_reducible apply State.evalSlot_kept
    | with_reducible refine Kept.foldl ?_ fun _ _ _ => ?_
    | (with_reducible apply Kept.unmk; dsimp only; with_reducible apply Kept.ofF)
    | (intro _; intros; try beta_reduce)
    | split

theorem execLinkDown_kept (port : Fin 64) (cause : Nat) (s : State) {s0 : State} (hK : Kept s0 s) :
    KeptO s0 (execLinkDown port cause s) := by
  unfold execLinkDown
  repeat' first
    | with_reducible assumption
    | ((try lift_lets -underBinder); intro x; first
        | (have hx : Kept s0 x := ?_; rotate_left; subst x; rotate_left; clear_value x)
        | (have : MemUnits := x; subst x)
        | clear_value x
        | skip)
    | with_reducible apply KeptO.next
    | with_reducible apply State.portDown_kept
    | (with_reducible apply Kept.unmk; dsimp only; with_reducible apply Kept.ofF)
    | split

theorem execPortSpeedChange_kept (port : Fin 64) (speed : Nat) (fec : Nat) (s : State) {s0 : State} (hK : Kept s0 s) :
    KeptO s0 (execPortSpeedChange port speed fec s) := by
  unfold execPortSpeedChange
  repeat' first
    | with_reducible assumption
    | ((try lift_lets -underBinder); intro x; first
        | (have hx : Kept s0 x := ?_; rotate_left; subst x; rotate_left; clear_value x)
        | (have : MemUnits := x; subst x)
        | clear_value x
        | skip)
    | with_reducible apply KeptO.next
    | with_reducible apply State.putN_kept
    | with_reducible apply State.newPortMode_kept
    | (intro _; intros; try beta_reduce)
    | split

theorem execSentinelLock_kept (port : Fin 64) (tx : Bool) (first : FirstEdge) (later : List Nat) (s : State) {s0 : State} (hK : Kept s0 s) :
    KeptO s0 (execSentinelLock port tx first later s) := by
  unfold execSentinelLock
  repeat' first
    | with_reducible assumption
    | ((try lift_lets -underBinder); intro x; first
        | (have hx : Kept s0 x := ?_; rotate_left; subst x; rotate_left; clear_value x)
        | (have : MemUnits := x; subst x)
        | clear_value x
        | skip)
    | with_reducible apply KeptO.next
    | with_reducible apply State.setPort_kept
    | with_reducible apply State.putN_kept
    | with_reducible apply State.setSentinel_kept
    | (with_reducible apply Kept.unmk; dsimp only; with_reducible apply Kept.ofF)
    | split

theorem execSentinelUnlock_kept (port : Fin 64) (loss : SentinelLoss) (s : State) {s0 : State} (hK : Kept s0 s) :
    KeptO s0 (execSentinelUnlock port loss s) := by
  unfold execSentinelUnlock
  repeat' first
    | with_reducible assumption
    | with_reducible apply KeptO.next
    | with_reducible apply State.setSentinel_kept
    | split

theorem State.governTo_kept (s : State) (n : Fin 64) (target : Nat) {s0 : State} (hK : Kept s0 s) :
    Kept s0 (State.governTo s n target) := by
  unfold State.governTo
  repeat' first
    | with_reducible assumption
    | ((try lift_lets -underBinder); intro x; first
        | (have hx : Kept s0 x := ?_; rotate_left; subst x; rotate_left; clear_value x)
        | (have : MemUnits := x; subst x)
        | clear_value x
        | skip)
    | with_reducible apply State.setPort_kept
    | with_reducible apply State.bump_kept
    | with_reducible apply State.log_kept
    | with_reducible apply State.putN_kept
    | with_reducible apply State.portDown_kept

theorem execGovernorEvaluate_kept (port : Fin 64) (s : State) {s0 : State} (hK : Kept s0 s) :
    KeptO s0 (execGovernorEvaluate port s) := by
  unfold execGovernorEvaluate
  repeat' first
    | with_reducible assumption
    | ((try lift_lets -underBinder); intro x; first
        | (have hx : Kept s0 x := ?_; rotate_left; subst x; rotate_left; clear_value x)
        | (have hx : Kept s0 x.2 := ?_; rotate_left; subst x; rotate_left; clear_value x)
        | (have hx : Kept s0 x.1 := ?_; rotate_left; subst x; rotate_left; clear_value x)
        | (have : MemUnits := x; subst x)
        | clear_value x
        | skip)
    | with_reducible apply KeptO.next
    | with_reducible apply State.setPort_kept
    | with_reducible apply State.governTo_kept
    | with_reducible refine Kept.foldl ?_ fun _ _ _ => ?_
    | (with_reducible apply Kept.unmk; dsimp only; with_reducible apply Kept.ofF)
    | (intro _; intros; try beta_reduce)
    | split

theorem execLpiEnter_kept (port : Fin 64) (s : State) {s0 : State} (hK : Kept s0 s) :
    KeptO s0 (execLpiEnter port s) := by
  unfold execLpiEnter
  repeat' first
    | with_reducible assumption
    | ((try lift_lets -underBinder); intro x; first
        | (have hx : Kept s0 x := ?_; rotate_left; subst x; rotate_left; clear_value x)
        | (have : MemUnits := x; subst x)
        | clear_value x
        | skip)
    | with_reducible apply KeptO.next
    | with_reducible apply State.setPort_kept
    | (with_reducible apply Kept.unmk; dsimp only; with_reducible apply Kept.ofF)
    | split

theorem State.sendEsmc_kept (s : State) (n : Fin 64) (event : Bool) {s0 : State} (hK : Kept s0 s) :
    Kept s0 (State.sendEsmc s n event) := by
  unfold State.sendEsmc
  repeat' first
    | with_reducible assumption
    | ((try lift_lets -underBinder); intro x; first
        | (have hx : Kept s0 x := ?_; rotate_left; subst x; rotate_left; clear_value x)
        | (have : MemUnits := x; subst x)
        | clear_value x
        | skip)
    | with_reducible apply State.freeBytes_kept
    | with_reducible refine Kept.pair2 ‹_ = _› (State.freeBytes_kept _ _ ?_)
    | with_reducible apply State.setPort_kept
    | with_reducible apply State.putN_kept

theorem execEsmcTx_kept (port : Fin 64) (s : State) {s0 : State} (hK : Kept s0 s) :
    KeptO s0 (execEsmcTx port s) := by
  unfold execEsmcTx
  repeat' first
    | with_reducible assumption
    | ((try lift_lets -underBinder); intro x; first
        | (have hx : Kept s0 x := ?_; rotate_left; subst x; rotate_left; clear_value x)
        | (have : MemUnits := x; subst x)
        | clear_value x
        | skip)
    | with_reducible apply KeptO.next
    | with_reducible apply State.sendEsmc_kept
    | with_reducible apply State.setPort_kept
    | (with_reducible apply Kept.unmk; dsimp only; with_reducible apply Kept.ofF)
    | split

theorem execEsmcEventPdu_kept (port : Fin 64) (s : State) {s0 : State} (hK : Kept s0 s) :
    KeptO s0 (execEsmcEventPdu port s) := by
  unfold execEsmcEventPdu
  repeat' first
    | with_reducible assumption
    | ((try lift_lets -underBinder); intro x; first
        | (have hx : Kept s0 x := ?_; rotate_left; subst x; rotate_left; clear_value x)
        | (have : MemUnits := x; subst x)
        | clear_value x
        | skip)
    | with_reducible apply KeptO.next
    | with_reducible apply State.sendEsmc_kept
    | (with_reducible apply Kept.unmk; dsimp only; with_reducible apply Kept.ofF)
    | split

theorem State.moduleEffect_kept (s : State) (old : Sideband) (n : Fin 64) {s0 : State} (hK : Kept s0 s) :
    Kept s0 (State.moduleEffect s old n) := by
  unfold State.moduleEffect
  repeat' first
    | with_reducible assumption
    | ((try lift_lets -underBinder); intro x; first
        | (have hx : Kept s0 x := ?_; rotate_left; subst x; rotate_left; clear_value x)
        | (have : MemUnits := x; subst x)
        | clear_value x
        | skip)
    | with_reducible apply State.log_kept
    | with_reducible apply State.portDown_kept
    | with_reducible apply State.setLink_kept
    | split

theorem execSidebandScan_kept (first : Nat) (second : Nat) (third : Nat) (s : State) {s0 : State} (hK : Kept s0 s) :
    KeptO s0 (execSidebandScan first second third s) := by
  unfold execSidebandScan
  repeat' first
    | with_reducible assumption
    | ((try lift_lets -underBinder); intro x; first
        | (have hx : Kept s0 x := ?_; rotate_left; subst x; rotate_left; clear_value x)
        | (have : MemUnits := x; subst x)
        | clear_value x
        | skip)
    | with_reducible apply KeptO.next
    | with_reducible apply State.bump_kept
    | with_reducible apply State.moduleEffect_kept
    | with_reducible refine Kept.foldl ?_ fun _ _ _ => ?_
    | (with_reducible apply Kept.unmk; dsimp only; with_reducible apply Kept.ofF)
    | (intro _; intros; try beta_reduce)
    | split

theorem State.sidebandOff_kept (s : State) {s0 : State} (hK : Kept s0 s) :
    Kept s0 (State.sidebandOff s) := by
  unfold State.sidebandOff
  repeat' first
    | with_reducible assumption
    | ((try lift_lets -underBinder); intro x; first
        | (have hx : Kept s0 x := ?_; rotate_left; subst x; rotate_left; clear_value x)
        | (have : MemUnits := x; subst x)
        | clear_value x
        | skip)
    | with_reducible apply State.moduleEffect_kept
    | with_reducible refine Kept.foldl ?_ fun _ _ _ => ?_
    | (with_reducible apply Kept.unmk; dsimp only; with_reducible apply Kept.ofF)

theorem execMgmtPhyPoll_kept (r1 : Nat) (r4 : Nat) (r5 : Nat) (r9 : Nat) (r10 : Nat) (s : State) {s0 : State} (hK : Kept s0 s) :
    KeptO s0 (execMgmtPhyPoll r1 r4 r5 r9 r10 s) := by
  unfold execMgmtPhyPoll
  repeat' first
    | with_reducible assumption
    | ((try lift_lets -underBinder); intro x; first
        | (have hx : Kept s0 x := ?_; rotate_left; subst x; rotate_left; clear_value x)
        | (have : MemUnits := x; subst x)
        | clear_value x
        | skip)
    | with_reducible apply KeptO.next
    | with_reducible apply State.putN_kept
    | with_reducible apply State.log_kept
    | (with_reducible apply Kept.unmk; dsimp only; with_reducible apply Kept.ofF)
    | split

end Sys2Proof.Machine
end

