-- ==== Sys2Proof/Laws/Kept/Serve.lean ====
section
/-! SUPPORT. What the operations of Machine/Serve.lean keep. -/

namespace Sys2Proof.Machine

theorem State.setRing_kept (s : State) (k : Nat) (x : Ring) {s0 : State} (hK : Kept s0 s) :
    Kept s0 (State.setRing s k x) := by
  unfold State.setRing
  repeat' first
    | with_reducible assumption
    | ((try lift_lets -underBinder); intro x; first
        | (have hx : Kept s0 x := ?_; rotate_left; subst x; rotate_left; clear_value x)
        | (have : MemUnits := x; subst x)
        | clear_value x
        | skip)
    | (with_reducible apply Kept.unmk; dsimp only; with_reducible apply Kept.ofF)

theorem State.toRing_kept (s : State) (k : Nat) (i : RingItem) {s0 : State} (hK : Kept s0 s) :
    Kept s0 (State.toRing s k i) := by
  unfold State.toRing
  repeat' first
    | with_reducible assumption
    | ((try lift_lets -underBinder); intro x; first
        | (have hx : Kept s0 x := ?_; rotate_left; subst x; rotate_left; clear_value x)
        | (have : MemUnits := x; subst x)
        | clear_value x
        | skip)
    | with_reducible apply State.bump_kept
    | with_reducible apply State.count_kept
    | with_reducible apply State.setRing_kept
    | (with_reducible apply Kept.unmk; dsimp only; with_reducible apply Kept.ofF)
    | split

theorem State.buffer_kept (s : State) (len : Nat) {s0 : State} (hK : Kept s0 s) :
    Kept s0 (State.buffer s len).2 := by
  unfold State.buffer
  repeat' first
    | with_reducible assumption
    | ((try lift_lets -underBinder); intro x; first
        | (have hx : Kept s0 x := ?_; rotate_left; subst x; rotate_left; clear_value x)
        | (have : MemUnits := x; subst x)
        | clear_value x
        | skip)
    | with_reducible apply State.count_kept
    | (with_reducible apply Kept.unmk; dsimp only; with_reducible apply Kept.ofF)

theorem State.classDiscard_kept (s : State) (e : Fin 8) (c : Fin 3) {s0 : State} (hK : Kept s0 s) :
    Kept s0 (State.classDiscard s e c) := by
  unfold State.classDiscard
  repeat' first
    | with_reducible assumption
    | ((try lift_lets -underBinder); intro x; first
        | (have hx : Kept s0 x := ?_; rotate_left; subst x; rotate_left; clear_value x)
        | (have hx : Kept s0 x.2 := ?_; rotate_left; subst x; rotate_left; clear_value x)
        | (have hx : Kept s0 x.1 := ?_; rotate_left; subst x; rotate_left; clear_value x)
        | (have : MemUnits := x; subst x)
        | clear_value x
        | skip)
    | with_reducible apply State.bump_kept
    | with_reducible apply State.setEngine_kept
    | with_reducible apply State.log_kept
    | (with_reducible apply Kept.unmk; dsimp only; with_reducible apply Kept.ofF)
    | split

theorem State.wakePair_kept (s : State) (p : Fin 4) {s0 : State} (hK : Kept s0 s) :
    Kept s0 (State.wakePair s p) := by
  unfold State.wakePair
  repeat' first
    | with_reducible assumption
    | ((try lift_lets -underBinder); intro x; first
        | (have hx : Kept s0 x := ?_; rotate_left; subst x; rotate_left; clear_value x)
        | (have : MemUnits := x; subst x)
        | clear_value x
        | skip)
    | (with_reducible apply Kept.unmk; dsimp only; with_reducible apply Kept.ofF)
    | split

theorem State.enqueue_kept (s : State) (w : Work) (c : Fin 3) {s0 : State} (hK : Kept s0 s) :
    Kept s0 (State.enqueue s w c) := by
  unfold State.enqueue
  repeat' first
    | with_reducible assumption
    | ((try lift_lets -underBinder); intro x; first
        | (have hx : Kept s0 x := ?_; rotate_left; subst x; rotate_left; clear_value x)
        | (have hx : Kept s0 x.2 := ?_; rotate_left; subst x; rotate_left; clear_value x)
        | (have : MemUnits := x; subst x)
        | clear_value x
        | skip)
    | with_reducible apply State.classDiscard_kept
    | with_reducible apply State.setEngine_kept
    | with_reducible apply State.wakePair_kept
    | (with_reducible apply Kept.unmk; dsimp only; with_reducible apply Kept.ofF)
    | split

theorem State.steepFrame_kept (s : State) (p : Pkt) (c : Fin 3) {s0 : State} (hK : Kept s0 s) :
    Kept s0 (State.steepFrame s p c) := by
  unfold State.steepFrame
  repeat' first
    | with_reducible assumption
    | ((try lift_lets -underBinder); intro x; first
        | (have hx : Kept s0 x := ?_; rotate_left; subst x; rotate_left; clear_value x)
        | (have : MemUnits := x; subst x)
        | clear_value x
        | skip)
    | with_reducible apply State.setEngine_kept
    | with_reducible apply State.enqueue_kept
    | with_reducible apply State.bump_kept
    | (with_reducible apply Kept.unmk; dsimp only; with_reducible apply Kept.ofF)
    | split

theorem State.classify_kept (s : State) (p : Pkt) (h : Headers) {s0 : State} (hK : Kept s0 s) :
    Kept s0 (State.classify s p h) := by
  unfold State.classify
  repeat' first
    | with_reducible assumption
    | ((try lift_lets -underBinder); intro x; first
        | (have hx : Kept s0 x := ?_; rotate_left; subst x; rotate_left; clear_value x)
        | (have : MemUnits := x; subst x)
        | clear_value x
        | skip)
    | with_reducible apply State.bump_kept
    | with_reducible apply State.steepFrame_kept
    | with_reducible apply State.enqueue_kept
    | with_reducible apply State.toRing_kept
    | (with_reducible apply Kept.unmk; dsimp only; with_reducible apply Kept.ofF)
    | split

theorem State.setSession_kept (s : State) (k : Fin 32) (x : Option Session) {s0 : State} (hK : Kept s0 s) :
    Kept s0 (State.setSession s k x) := by
  unfold State.setSession
  repeat' first
    | with_reducible assumption
    | ((try lift_lets -underBinder); intro x; first
        | (have hx : Kept s0 x := ?_; rotate_left; subst x; rotate_left; clear_value x)
        | (have : MemUnits := x; subst x)
        | clear_value x
        | skip)
    | (with_reducible apply Kept.unmk; dsimp only; with_reducible apply Kept.ofF)

theorem State.toRing1_kept (s : State) (i : RxItem) {s0 : State} (hK : Kept s0 s) :
    Kept s0 (State.toRing1 s i) := by
  unfold State.toRing1
  repeat' first
    | with_reducible assumption
    | ((try lift_lets -underBinder); intro x; first
        | (have hx : Kept s0 x := ?_; rotate_left; subst x; rotate_left; clear_value x)
        | (have : MemUnits := x; subst x)
        | clear_value x
        | skip)
    | with_reducible apply State.bump_kept
    | with_reducible apply State.buffer_kept
    | with_reducible refine Kept.pair2 ‹_ = _› (State.buffer_kept _ _ ?_)
    | (with_reducible apply Kept.unmk; dsimp only; with_reducible apply Kept.ofF)
    | split

theorem State.toRing0_kept (s : State) (k : Fin 32) (x : Session) (i : RxItem) {s0 : State} (hK : Kept s0 s) :
    Kept s0 (State.toRing0 s k x i) := by
  unfold State.toRing0
  repeat' first
    | with_reducible assumption
    | ((try lift_lets -underBinder); intro x; first
        | (have hx : Kept s0 x := ?_; rotate_left; subst x; rotate_left; clear_value x)
        | (have : MemUnits := x; subst x)
        | clear_value x
        | skip)
    | with_reducible apply State.bump_kept
    | with_reducible apply State.setSession_kept
    | with_reducible apply State.buffer_kept
    | with_reducible refine Kept.pair2 ‹_ = _› (State.buffer_kept _ _ ?_)
    | (with_reducible apply Kept.unmk; dsimp only; with_reducible apply Kept.ofF)
    | split

theorem State.placeOol_kept (s : State) (i : RxItem) {s0 : State} (hK : Kept s0 s) :
    Kept s0 (State.placeOol s i) := by
  unfold State.placeOol
  repeat' first
    | with_reducible assumption
    | ((try lift_lets -underBinder); intro x; first
        | (have hx : Kept s0 x := ?_; rotate_left; subst x; rotate_left; clear_value x)
        | (have : MemUnits := x; subst x)
        | clear_value x
        | skip)
    | with_reducible apply State.bump_kept
    | with_reducible apply State.toRing1_kept
    | with_reducible apply State.toRing0_kept
    | (with_reducible apply Kept.unmk; dsimp only; with_reducible apply Kept.ofF)
    | (intro _; intros; try beta_reduce)
    | split

theorem State.pairResult_kept (s : State) (a : Fin 64) (b : Fin 64) {s0 : State} (hK : Kept s0 s) :
    Kept s0 (State.pairResult s a b) := by
  unfold State.pairResult
  repeat' first
    | with_reducible assumption
    | ((try lift_lets -underBinder); intro x; first
        | (have hx : Kept s0 x := ?_; rotate_left; subst x; rotate_left; clear_value x)
        | (have hx : Kept s0 x.2 := ?_; rotate_left; subst x; rotate_left; clear_value x)
        | (have hx : Kept s0 x.1 := ?_; rotate_left; subst x; rotate_left; clear_value x)
        | (have : MemUnits := x; subst x)
        | clear_value x
        | skip)
    | with_reducible apply State.putN_kept
    | with_reducible apply State.log_kept
    | with_reducible refine Kept.foldl ?_ fun _ _ _ => ?_
    | (intro _; intros; try beta_reduce)
    | split

theorem State.pairStamp_kept (s : State) (a : Fin 64) (b : Fin 64) (seq : Nat) (f : CalPair → CalPair) {s0 : State} (hK : Kept s0 s) :
    Kept s0 (State.pairStamp s a b seq f) := by
  unfold State.pairStamp
  repeat' first
    | with_reducible assumption
    | ((try lift_lets -underBinder); intro x; first
        | (have hx : Kept s0 x := ?_; rotate_left; subst x; rotate_left; clear_value x)
        | (have : MemUnits := x; subst x)
        | clear_value x
        | skip)
    | with_reducible apply State.setPort_kept
    | with_reducible apply State.pairResult_kept
    | (with_reducible apply Kept.unmk; dsimp only; with_reducible apply Kept.ofF)
    | split

theorem execCalFrameSend_kept (port : Fin 64) (s : State) {s0 : State} (hK : Kept s0 s) :
    KeptO s0 (execCalFrameSend port s) := by
  unfold execCalFrameSend
  repeat' first
    | with_reducible assumption
    | ((try lift_lets -underBinder); intro x; first
        | (have hx : Kept s0 x := ?_; rotate_left; subst x; rotate_left; clear_value x)
        | (have : MemUnits := x; subst x)
        | clear_value x
        | skip)
    | with_reducible apply KeptO.next
    | with_reducible apply State.bump_kept
    | with_reducible apply State.setPort_kept
    | with_reducible apply State.putN_kept
    | with_reducible apply State.countP_kept
    | (with_reducible apply Kept.unmk; dsimp only; with_reducible apply Kept.ofF)
    | split

theorem State.calReceive_kept (s : State) (n : Fin 64) (stamp : Nat) (b : Bytes) {s0 : State} (hK : Kept s0 s) :
    Kept s0 (State.calReceive s n stamp b) := by
  unfold State.calReceive
  repeat' first
    | with_reducible assumption
    | ((try lift_lets -underBinder); intro x; first
        | (have hx : Kept s0 x := ?_; rotate_left; subst x; rotate_left; clear_value x)
        | (have : MemUnits := x; subst x)
        | clear_value x
        | skip)
    | with_reducible apply State.bump_kept
    | with_reducible apply State.pairStamp_kept
    | (with_reducible apply Kept.unmk; dsimp only; with_reducible apply Kept.ofF)
    | (intro _; intros; try beta_reduce)
    | split

theorem State.acceptFrame_kept (s : State) (n : Fin 64) (stamp : Nat) (calStamp : Nat) (uncal : Bool) (b : Bytes) {s0 : State} (hK : Kept s0 s) :
    Kept s0 (State.acceptFrame s n stamp calStamp uncal b) := by
  unfold State.acceptFrame
  repeat' first
    | with_reducible assumption
    | ((try lift_lets -underBinder); intro x; first
        | (have hx : Kept s0 x := ?_; rotate_left; subst x; rotate_left; clear_value x)
        | (have : MemUnits := x; subst x)
        | clear_value x
        | skip)
    | with_reducible apply KeptO.next
    | with_reducible apply execEsmcPduReceive_kept
    | with_reducible refine (execEsmcPduReceive_kept _ _ _ _ ?_).ofNext _ ‹_›
    | with_reducible apply State.calReceive_kept
    | with_reducible apply State.bump_kept
    | with_reducible apply State.countP_kept
    | with_reducible apply State.buffer_kept
    | with_reducible refine Kept.pair2 ‹_ = _› (State.buffer_kept _ _ ?_)
    | with_reducible apply State.toRing_kept
    | with_reducible apply State.placeOol_kept
    | with_reducible apply State.toRing1_kept
    | with_reducible apply State.classify_kept
    | (with_reducible apply Kept.unmk; dsimp only; with_reducible apply Kept.ofF)
    | split

theorem State.receivePort_kept (s : State) (n : Fin 64) (edge : Rat) (o : Nat) (skew : Rat) (frame : Bytes) {s0 : State} (hK : Kept s0 s) :
    Kept s0 (State.receivePort s n edge o skew frame) := by
  unfold State.receivePort
  repeat' first
    | with_reducible assumption
    | ((try lift_lets -underBinder); intro x; first
        | (have hx : Kept s0 x := ?_; rotate_left; subst x; rotate_left; clear_value x)
        | (have : MemUnits := x; subst x)
        | clear_value x
        | skip)
    | with_reducible apply State.setPort_kept
    | with_reducible apply State.holdPulse_kept
    | with_reducible apply State.countP_kept
    | with_reducible apply State.bump_kept
    | with_reducible apply State.acceptFrame_kept
    | (with_reducible apply Kept.unmk; dsimp only; with_reducible apply Kept.ofF)
    | split

theorem execPortFrameReceive_kept (port : Fin 64) (edge : Rat) (o : Nat) (skew : Rat) (frame : Bytes) (s : State) {s0 : State} (hK : Kept s0 s) :
    KeptO s0 (execPortFrameReceive port edge o skew frame s) := by
  unfold execPortFrameReceive
  repeat' first
    | with_reducible assumption
    | with_reducible apply KeptO.next
    | with_reducible apply State.receivePort_kept

theorem execCalFrameReceive_kept (port : Fin 64) (edge : Rat) (o : Nat) (frame : Bytes) (s : State) {s0 : State} (hK : Kept s0 s) :
    KeptO s0 (execCalFrameReceive port edge o frame s) := by
  unfold execCalFrameReceive
  repeat' first
    | with_reducible assumption
    | with_reducible apply KeptO.next
    | with_reducible apply State.receivePort_kept
    | split

theorem execMgmtFrameReceive_kept (frame : Bytes) (s : State) {s0 : State} (hK : Kept s0 s) :
    KeptO s0 (execMgmtFrameReceive frame s) := by
  unfold execMgmtFrameReceive
  repeat' first
    | with_reducible assumption
    | ((try lift_lets -underBinder); intro x; first
        | (have hx : Kept s0 x := ?_; rotate_left; subst x; rotate_left; clear_value x)
        | (have : MemUnits := x; subst x)
        | clear_value x
        | skip)
    | with_reducible apply KeptO.next
    | with_reducible apply State.bump_kept
    | with_reducible apply State.placeOol_kept
    | with_reducible apply State.buffer_kept
    | with_reducible refine Kept.pair2 ‹_ = _› (State.buffer_kept _ _ ?_)
    | with_reducible apply State.toRing_kept
    | (with_reducible apply Kept.unmk; dsimp only; with_reducible apply Kept.ofF)
    | split

theorem State.stopServing_kept (s : State) (cause : Nat) {s0 : State} (hK : Kept s0 s) :
    Kept s0 (State.stopServing s cause) := by
  unfold State.stopServing
  repeat' first
    | with_reducible assumption
    | ((try lift_lets -underBinder); intro x; first
        | (have hx : Kept s0 x := ?_; rotate_left; subst x; rotate_left; clear_value x)
        | (have : MemUnits := x; subst x)
        | clear_value x
        | skip)
    | with_reducible apply State.log_kept
    | with_reducible apply State.dropEgress_kept
    | with_reducible refine Kept.foldl ?_ fun _ _ _ => ?_
    | (with_reducible apply Kept.unmk; dsimp only; with_reducible apply Kept.ofF)
    | (intro _; intros; try beta_reduce)
    | split

theorem execQuietnAssert_kept (s : State) {s0 : State} (hK : Kept s0 s) :
    KeptO s0 (execQuietnAssert s) := by
  unfold execQuietnAssert
  repeat' first
    | with_reducible assumption
    | ((try lift_lets -underBinder); intro x; first
        | (have hx : Kept s0 x := ?_; rotate_left; subst x; rotate_left; clear_value x)
        | (have : MemUnits := x; subst x)
        | clear_value x
        | skip)
    | with_reducible apply KeptO.next
    | with_reducible apply State.putB_kept
    | with_reducible apply State.stopServing_kept
    | (with_reducible apply Kept.unmk; dsimp only; with_reducible apply Kept.ofF)

theorem execQuietnDeassert_kept (s : State) {s0 : State} (hK : Kept s0 s) :
    KeptO s0 (execQuietnDeassert s) := by
  unfold execQuietnDeassert
  repeat' first
    | with_reducible assumption
    | ((try lift_lets -underBinder); intro x; first
        | (have hx : Kept s0 x := ?_; rotate_left; subst x; rotate_left; clear_value x)
        | (have : MemUnits := x; subst x)
        | clear_value x
        | skip)
    | with_reducible apply KeptO.next
    | with_reducible apply State.putB_kept
    | (with_reducible apply Kept.unmk; dsimp only; with_reducible apply Kept.ofF)
    | split

theorem State.serveQuiet_kept (s : State) {s0 : State} (hK : Kept s0 s) :
    Kept s0 (State.serveQuiet s) := by
  unfold State.serveQuiet
  repeat' first
    | with_reducible assumption
    | with_reducible apply State.stopServing_kept
    | split

theorem execServeQuiet_kept (value : Bool) (s : State) {s0 : State} (hK : Kept s0 s) :
    KeptO s0 (execServeQuiet value s) := by
  unfold execServeQuiet
  repeat' first
    | with_reducible assumption
    | with_reducible apply KeptO.next
    | with_reducible apply State.putB_kept
    | with_reducible apply State.serveQuiet_kept
    | split

theorem State.release129_kept (s : State) {s0 : State} (hK : Kept s0 s) :
    Kept s0 (State.release129 s) := by
  unfold State.release129
  repeat' first
    | with_reducible assumption
    | ((try lift_lets -underBinder); intro x; first
        | (have hx : Kept s0 x := ?_; rotate_left; subst x; rotate_left; clear_value x)
        | (have : MemUnits := x; subst x)
        | clear_value x
        | skip)
    | (with_reducible apply Kept.unmk; dsimp only; with_reducible apply Kept.ofF)
    | (intro _; intros; try beta_reduce)
    | split

theorem execServingResume_kept (s : State) {s0 : State} (hK : Kept s0 s) :
    KeptO s0 (execServingResume s) := by
  unfold execServingResume
  repeat' first
    | with_reducible assumption
    | ((try lift_lets -underBinder); intro x; first
        | (have hx : Kept s0 x := ?_; rotate_left; subst x; rotate_left; clear_value x)
        | (have : MemUnits := x; subst x)
        | clear_value x
        | skip)
    | with_reducible apply KeptO.next
    | with_reducible apply State.log_kept
    | with_reducible apply State.release129_kept
    | (with_reducible apply Kept.unmk; dsimp only; with_reducible apply Kept.ofF)
    | split

end Sys2Proof.Machine
end

