-- ==== Sys2Proof/Laws/Kept/Ownership.lean ====
section
/-! SUPPORT. What the operations of Machine/Ownership.lean keep. -/

namespace Sys2Proof.Machine

theorem State.abortTxn_kept (s : State) {s0 : State} (hK : Kept s0 s) :
    Kept s0 (State.abortTxn s) := by
  unfold State.abortTxn
  repeat' first
    | with_reducible assumption
    | ((try lift_lets -underBinder); intro x; first
        | (have hx : Kept s0 x := ?_; rotate_left; subst x; rotate_left; clear_value x)
        | (have : MemUnits := x; subst x)
        | clear_value x
        | skip)
    | with_reducible apply State.putN_kept
    | (with_reducible apply Kept.unmk; dsimp only; with_reducible apply Kept.ofF)

theorem State.logOwner_kept (s : State) (cause : Nat) {s0 : State} (hK : Kept s0 s) :
    Kept s0 (State.logOwner s cause) := by
  unfold State.logOwner
  repeat' first
    | with_reducible assumption
    | ((try lift_lets -underBinder); intro x; first
        | (have hx : Kept s0 x := ?_; rotate_left; subst x; rotate_left; clear_value x)
        | (have : MemUnits := x; subst x)
        | clear_value x
        | skip)
    | with_reducible apply State.log_kept

theorem State.takeOwnership_kept (s : State) (k : Fin 32) (prio : Nat) (node : Nat) (cause : Nat) {s0 : State} (hK : Kept s0 s) :
    Kept s0 (State.takeOwnership s k prio node cause) := by
  unfold State.takeOwnership
  repeat' first
    | with_reducible assumption
    | ((try lift_lets -underBinder); intro x; first
        | (have hx : Kept s0 x := ?_; rotate_left; subst x; rotate_left; clear_value x)
        | (have : MemUnits := x; subst x)
        | clear_value x
        | skip)
    | with_reducible apply State.abortTxn_kept
    | with_reducible apply State.putN_kept
    | with_reducible apply State.bump_kept
    | with_reducible apply State.logOwner_kept
    | (with_reducible apply Kept.unmk; dsimp only; with_reducible apply Kept.ofF)

theorem State.freeOwnership_kept (s : State) (cause : Nat) {s0 : State} (hK : Kept s0 s) :
    Kept s0 (State.freeOwnership s cause) := by
  unfold State.freeOwnership
  repeat' first
    | with_reducible assumption
    | ((try lift_lets -underBinder); intro x; first
        | (have hx : Kept s0 x := ?_; rotate_left; subst x; rotate_left; clear_value x)
        | (have : MemUnits := x; subst x)
        | clear_value x
        | skip)
    | with_reducible apply State.abortTxn_kept
    | with_reducible apply State.putN_kept
    | with_reducible apply State.bump_kept
    | with_reducible apply State.logOwner_kept
    | (with_reducible apply Kept.unmk; dsimp only; with_reducible apply Kept.ofF)

theorem State.countSessions_kept (s : State) {s0 : State} (hK : Kept s0 s) :
    Kept s0 (State.countSessions s) := by
  unfold State.countSessions
  repeat' first
    | with_reducible assumption
    | with_reducible apply State.putN_kept

theorem State.closeSession_kept (s : State) (k : Fin 32) (cause : Nat) {s0 : State} (hK : Kept s0 s) :
    Kept s0 (State.closeSession s k cause) := by
  unfold State.closeSession
  repeat' first
    | with_reducible assumption
    | ((try lift_lets -underBinder); intro x; first
        | (have hx : Kept s0 x := ?_; rotate_left; subst x; rotate_left; clear_value x)
        | (have : MemUnits := x; subst x)
        | clear_value x
        | skip)
    | with_reducible apply State.setSession_kept
    | with_reducible apply State.countSessions_kept
    | with_reducible apply State.log_kept
    | with_reducible apply State.freeOwnership_kept
    | (with_reducible apply Kept.unmk; dsimp only; with_reducible apply Kept.ofF)
    | (intro _; intros; try beta_reduce)
    | split

theorem State.closeSessions_kept (s : State) (cause : Nat) {s0 : State} (hK : Kept s0 s) :
    Kept s0 (State.closeSessions s cause) := by
  unfold State.closeSessions
  repeat' first
    | with_reducible assumption
    | with_reducible apply State.closeSession_kept
    | with_reducible refine Kept.foldl ?_ fun _ _ _ => ?_

theorem State.resetOol_kept (s : State) (cause : Nat) {s0 : State} (hK : Kept s0 s) :
    Kept s0 (State.resetOol s cause) := by
  unfold State.resetOol
  repeat' first
    | with_reducible assumption
    | ((try lift_lets -underBinder); intro x; first
        | (have hx : Kept s0 x := ?_; rotate_left; subst x; rotate_left; clear_value x)
        | (have : MemUnits := x; subst x)
        | clear_value x
        | skip)
    | with_reducible apply State.closeSessions_kept
    | with_reducible apply State.putN_kept
    | with_reducible apply State.abortTxn_kept
    | (with_reducible apply Kept.unmk; dsimp only; with_reducible apply Kept.ofF)
    | split

theorem State.discardSched_kept (s : State) {s0 : State} (hK : Kept s0 s) :
    Kept s0 (State.discardSched s) := by
  unfold State.discardSched
  repeat' first
    | with_reducible assumption
    | ((try lift_lets -underBinder); intro x; first
        | (have hx : Kept s0 x := ?_; rotate_left; subst x; rotate_left; clear_value x)
        | (have : MemUnits := x; subst x)
        | clear_value x
        | skip)
    | with_reducible apply State.log_kept
    | with_reducible apply State.dropLostStep_kept
    | with_reducible refine Kept.foldl ?_ fun _ _ _ => ?_
    | (with_reducible apply Kept.unmk; dsimp only; with_reducible apply Kept.ofF)

theorem State.zeroiseKeys_kept (s : State) {s0 : State} (hK : Kept s0 s) :
    Kept s0 (State.zeroiseKeys s) := by
  unfold State.zeroiseKeys
  repeat' first
    | with_reducible assumption
    | ((try lift_lets -underBinder); intro x; first
        | (have hx : Kept s0 x := ?_; rotate_left; subst x; rotate_left; clear_value x)
        | (have : MemUnits := x; subst x)
        | clear_value x
        | skip)
    | (with_reducible apply Kept.unmk; dsimp only; with_reducible apply Kept.ofF)
    | (with_reducible apply Kept.unmk; dsimp only; with_reducible apply Kept.ofNoKey)

theorem State.loadKeys_kept (s : State) {s0 : State} (hK : Kept s0 s) :
    Kept s0 (State.loadKeys s) := by
  unfold State.loadKeys
  repeat' first
    | with_reducible assumption
    | ((try lift_lets -underBinder); intro x; first
        | (have hx : Kept s0 x := ?_; rotate_left; subst x; rotate_left; clear_value x)
        | (have hx : Kept s0 x.1 := ?_; rotate_left; subst x; rotate_left; clear_value x)
        | (have hf1 : ∀ s, Kept s0 s → Kept s0 (x s) := ?_; rotate_left; subst x; intros; beta_reduce; rotate_left; clear_value x)
        | (have hf2 : ∀ s a, Kept s0 s → Kept s0 (x s a) := ?_; rotate_left; subst x; intros; beta_reduce; rotate_left; clear_value x)
        | (have hf3 : ∀ s a b, Kept s0 s → Kept s0 (x s a b) := ?_; rotate_left; subst x; intros; beta_reduce; rotate_left; clear_value x)
        | (have hf4 : ∀ a s, Kept s0 s → Kept s0 (x a s) := ?_; rotate_left; subst x; intros; beta_reduce; rotate_left; clear_value x)
        | (have : MemUnits := x; subst x)
        | clear_value x
        | skip)
    | with_reducible apply State.store_kept
    | with_reducible apply hf1
    | with_reducible apply hf2
    | with_reducible apply hf3
    | with_reducible apply hf4
    | (with_reducible apply Kept.unmk; dsimp only; with_reducible apply Kept.ofF)
    | (intro _; intros; try beta_reduce)
    | split

end Sys2Proof.Machine
end

