-- ==== Sys2Proof/Laws/Kept/Client.lean ====
section
/-! SUPPORT. What the operations of Machine/Client.lean keep. -/

namespace Sys2Proof.Machine

theorem State.writeBack_kept (s : State) (l : CacheLine) {s0 : State} (hK : Kept s0 s) :
    Kept s0 (State.writeBack s l) := by
  unfold State.writeBack
  repeat' first
    | with_reducible assumption
    | ((try lift_lets -underBinder); intro x; first
        | (have hx : Kept s0 x := ?_; rotate_left; subst x; rotate_left; clear_value x)
        | (have : MemUnits := x; subst x)
        | clear_value x
        | skip)
    | with_reducible apply State.count_kept
    | with_reducible apply State.setCt_kept

theorem State.cacheLine_kept (s : State) (l : CacheLine) {s0 : State} (hK : Kept s0 s) :
    Kept s0 (State.cacheLine s l) := by
  unfold State.cacheLine
  repeat' first
    | with_reducible assumption
    | ((try lift_lets -underBinder); intro x; first
        | (have hx : Kept s0 x := ?_; rotate_left; subst x; rotate_left; clear_value x)
        | (have : MemUnits := x; subst x)
        | clear_value x
        | skip)
    | with_reducible apply State.setCt_kept
    | with_reducible apply State.writeBack_kept
    | (with_reducible apply Kept.unmk; dsimp only; with_reducible apply Kept.ofF)
    | (intro _; intros; try beta_reduce)
    | split

theorem State.ctWrite_kept (s : State) (i : Nat) (d : Bytes) {s0 : State} (hK : Kept s0 s) :
    Kept s0 (State.ctWrite s i d) := by
  unfold State.ctWrite
  repeat' first
    | with_reducible assumption
    | with_reducible apply State.cacheLine_kept

theorem State.ctRead_kept (s : State) (i : Nat) {s0 : State} (hK : Kept s0 s) :
    Kept s0 (State.ctRead s i) := by
  unfold State.ctRead
  repeat' first
    | with_reducible assumption
    | ((try lift_lets -underBinder); intro x; first
        | (have hx : Kept s0 x := ?_; rotate_left; subst x; rotate_left; clear_value x)
        | (have : MemUnits := x; subst x)
        | clear_value x
        | skip)
    | with_reducible apply State.cacheLine_kept
    | with_reducible apply State.count_kept
    | (with_reducible apply Kept.unmk; dsimp only; with_reducible apply Kept.ofF)
    | (intro _; intros; try beta_reduce)
    | split

theorem State.ctCount_kept (s : State) {s0 : State} (hK : Kept s0 s) :
    Kept s0 (State.ctCount s) := by
  unfold State.ctCount
  repeat' first
    | with_reducible assumption
    | ((try lift_lets -underBinder); intro x; first
        | (have hx : Kept s0 x := ?_; rotate_left; subst x; rotate_left; clear_value x)
        | (have hx : Kept s0 x.2 := ?_; rotate_left; subst x; rotate_left; clear_value x)
        | (have : MemUnits := x; subst x)
        | clear_value x
        | skip)
    | with_reducible apply State.putN_kept

theorem State.makeRoom_kept (s : State) (n : Nat) (b : Nat) {s0 : State} (hK : Kept s0 s) :
    KeptS2 s0 (State.makeRoom s n b) := by
  induction n generalizing s b with
  | zero => rw [State.makeRoom]; cases s.freeIn b; exact KeptS2.none; exact KeptS2.some hK
  | succ n ih =>
    rw [State.makeRoom]
    repeat' first
      | with_reducible assumption
      | ((try lift_lets -underBinder); intro x; first
          | (have hx : Kept s0 x := ?_; rotate_left; subst x; rotate_left; clear_value x)
          | (have hx : KeptS2 s0 x := ?_; rotate_left; subst x; rotate_left; clear_value x)
          | (have : MemUnits := x; subst x)
          | clear_value x
          | skip)
      | with_reducible apply KeptS2.some
      | with_reducible exact KeptS2.none
      | with_reducible exact (ih _ _ ‹_›).ofSome _ _ ‹_›
      | with_reducible apply ih
      | with_reducible apply State.ctWrite_kept
      | with_reducible exact (‹KeptS2 s0 _›).ofSome _ _ ‹_›
      | with_reducible exact (‹KeptS2 s0 (some _)›).ofSome _ _ rfl
      | (with_reducible apply Kept.unmk; dsimp only; with_reducible apply Kept.ofF)
      | (intro _; intros; try beta_reduce)
      | split

theorem State.ctTouch_kept (s : State) (i : Nat) (take : Bool) {s0 : State} (hK : Kept s0 s) :
    Kept s0 (State.ctTouch s i take).2 := by
  unfold State.ctTouch
  repeat' first
    | with_reducible assumption
    | ((try lift_lets -underBinder); intro x; first
        | (have hx : Kept s0 x := ?_; rotate_left; subst x; rotate_left; clear_value x)
        | (have : MemUnits := x; subst x)
        | clear_value x
        | skip)
    | with_reducible apply State.ctRead_kept
    | with_reducible apply State.ctWrite_kept
    | (with_reducible apply Kept.unmk; dsimp only; with_reducible apply Kept.ofF)
    | split

theorem State.kodSent_kept (s : State) (i : Nat) {s0 : State} (hK : Kept s0 s) :
    Kept s0 (State.kodSent s i) := by
  unfold State.kodSent
  repeat' first
    | with_reducible assumption
    | ((try lift_lets -underBinder); intro x; first
        | (have hx : Kept s0 x := ?_; rotate_left; subst x; rotate_left; clear_value x)
        | skip)
    | with_reducible apply State.bump_kept
    | with_reducible apply State.ctWrite_kept
    | (with_reducible apply Kept.unmk; dsimp only; with_reducible apply Kept.ofF)
    | split

theorem State.reclaim_kept (s : State) (l : List Nat) {s0 : State} (hK : Kept s0 s) :
    Kept s0 (State.reclaim s l) := by
  unfold State.reclaim
  repeat' first
    | with_reducible assumption
    | ((try lift_lets -underBinder); intro x; first
        | (have hx : Kept s0 x := ?_; rotate_left; subst x; rotate_left; clear_value x)
        | skip)
    | with_reducible apply State.ctWrite_kept
    | with_reducible apply State.bump_kept
    | with_reducible apply State.ctCount_kept
    | with_reducible refine Kept.foldl ?_ fun _ _ _ => ?_

theorem State.reclaimFull_kept (s : State) {s0 : State} (hK : Kept s0 s) :
    Kept s0 (State.reclaimFull s) := by
  unfold State.reclaimFull
  repeat' first
    | with_reducible assumption
    | ((try lift_lets -underBinder); intro x; first
        | (have hx : Kept s0 x := ?_; rotate_left; subst x; rotate_left; clear_value x)
        | (have hx : Kept s0 x.2 := ?_; rotate_left; subst x; rotate_left; clear_value x)
        | (have hx : Kept s0 x.1 := ?_; rotate_left; subst x; rotate_left; clear_value x)
        | (have : MemUnits := x; subst x)
        | clear_value x
        | skip)
    | with_reducible apply State.reclaim_kept

theorem State.stateless_kept (s : State) {s0 : State} (hK : Kept s0 s) :
    Kept s0 (State.stateless s) := by
  unfold State.stateless
  repeat' first
    | with_reducible assumption
    | with_reducible apply State.bump_kept

theorem State.room_kept (s : State) (l : List Nat) (k n : Nat) {s0 : State} (hK : Kept s0 s) :
    KeptS2 s0 ((l.findSome? fun b => (s.freeIn b).map fun i => (i, s)).orElse fun _ => s.makeRoom k n) := by
  constructor
  intro a t e
  cases h : l.findSome? fun b => (s.freeIn b).map fun i => (i, s) with
  | none => rw [h] at e; exact (State.makeRoom_kept s k n hK).ofSome _ _ e
  | some p =>
    rw [h] at e
    obtain ⟨b, _, hb⟩ := List.exists_of_findSome?_eq_some h
    cases hf : s.freeIn b with
    | none => rw [hf] at hb; exact absurd hb.symm (Option.some_ne_none _)
    | some i =>
      rw [hf] at hb
      have h1 : (i, s) = p := Option.some.inj hb
      have h2 : p = (a, t) := Option.some.inj e
      rw [h2] at h1
      have h3 : s = t := congrArg Prod.snd h1
      exact h3 ▸ hK

theorem State.ctCreate_kept (s : State) (key : Bytes) (kind : Nat) {s0 : State} (hK : Kept s0 s) :
    Kept s0 (State.ctCreate s key kind).2 := by
  unfold State.ctCreate
  repeat' first
    | with_reducible assumption
    | ((try lift_lets -underBinder); intro x; first
        | (have hx : Kept s0 x := ?_; rotate_left; subst x; rotate_left; clear_value x)
        | (have hx : Kept s0 x.2 := ?_; rotate_left; subst x; rotate_left; clear_value x)
        | (have hx : KeptS2 s0 x := ?_; rotate_left; subst x; rotate_left; clear_value x)
        | (have : MemUnits := x; subst x)
        | clear_value x
        | skip)
    | with_reducible apply State.room_kept
    | with_reducible apply State.stateless_kept
    | with_reducible apply State.reclaimFull_kept
    | with_reducible apply State.putB_kept
    | with_reducible apply State.log_kept
    | with_reducible apply State.makeRoom_kept
    | with_reducible refine (State.makeRoom_kept _ _ _ ?_).ofSome _ _ ‹_›
    | with_reducible apply State.bump_kept
    | with_reducible apply State.ctWrite_kept
    | with_reducible apply State.count_kept
    | with_reducible apply State.setCt_kept
    | with_reducible apply State.ctCount_kept
    | with_reducible exact (‹KeptS2 s0 _›).ofSome _ _ ‹_›
    | with_reducible exact (‹KeptS2 s0 (some _)›).ofSome _ _ rfl
    | (with_reducible apply Kept.unmk; dsimp only; with_reducible apply Kept.ofF)
    | (intro _; intros; try beta_reduce)
    | split

theorem execCacheWriteback_kept (index : Nat) (s : State) {s0 : State} (hK : Kept s0 s) :
    KeptO s0 (execCacheWriteback index s) := by
  unfold execCacheWriteback
  repeat' first
    | with_reducible assumption
    | ((try lift_lets -underBinder); intro x; first
        | (have hx : Kept s0 x := ?_; rotate_left; subst x; rotate_left; clear_value x)
        | (have : MemUnits := x; subst x)
        | clear_value x
        | skip)
    | with_reducible apply KeptO.next
    | with_reducible apply State.writeBack_kept
    | (with_reducible apply Kept.unmk; dsimp only; with_reducible apply Kept.ofF)
    | (intro _; intros; try beta_reduce)
    | split

theorem execClientTableSweep_kept (s : State) {s0 : State} (hK : Kept s0 s) :
    KeptO s0 (execClientTableSweep s) := by
  unfold execClientTableSweep
  repeat' first
    | with_reducible assumption
    | ((try lift_lets -underBinder); intro x; first
        | (have hx : Kept s0 x := ?_; rotate_left; subst x; rotate_left; clear_value x)
        | (have hx : Kept s0 x.2 := ?_; rotate_left; subst x; rotate_left; clear_value x)
        | (have hx : Kept s0 x.1 := ?_; rotate_left; subst x; rotate_left; clear_value x)
        | (have : MemUnits := x; subst x)
        | clear_value x
        | skip)
    | with_reducible apply KeptO.next
    | with_reducible apply State.setCt_kept
    | with_reducible apply State.reclaim_kept
    | (with_reducible apply Kept.unmk; dsimp only; with_reducible apply Kept.ofF)
    | (intro _; intros; try beta_reduce)
    | split

theorem State.sketchCount_kept (s : State) (key : Bytes) {s0 : State} (hK : Kept s0 s) :
    Kept s0 (State.sketchCount s key).2 := by
  unfold State.sketchCount
  repeat' first
    | with_reducible assumption
    | ((try lift_lets -underBinder); intro x; first
        | (have hx : Kept s0 x := ?_; rotate_left; subst x; rotate_left; clear_value x)
        | (have : MemUnits := x; subst x)
        | clear_value x
        | skip)
    | with_reducible apply State.count_kept
    | with_reducible refine Kept.foldl ?_ fun _ _ _ => ?_
    | (with_reducible apply Kept.unmk; dsimp only; with_reducible apply Kept.ofF)

theorem State.sketchDrop_kept (s : State) (key : Nat × Bytes) {s0 : State} (hK : Kept s0 s) :
    Kept s0 (State.sketchDrop s key) := by
  unfold State.sketchDrop
  repeat' first
    | with_reducible assumption
    | ((try lift_lets -underBinder); intro x; first
        | (have hx : Kept s0 x := ?_; rotate_left; subst x; rotate_left; clear_value x)
        | (have hx : Kept s0 x.2 := ?_; rotate_left; subst x; rotate_left; clear_value x)
        | (have hx : Kept s0 x.1 := ?_; rotate_left; subst x; rotate_left; clear_value x)
        | (have : MemUnits := x; subst x)
        | clear_value x
        | skip)
    | with_reducible apply State.bump_kept
    | with_reducible apply State.setCt_kept
    | with_reducible apply State.log_kept
    | (with_reducible apply Kept.unmk; dsimp only; with_reducible apply Kept.ofF)
    | split

theorem execSketchDecay_kept (s : State) {s0 : State} (hK : Kept s0 s) :
    KeptO s0 (execSketchDecay s) := by
  unfold execSketchDecay
  repeat' first
    | with_reducible assumption
    | ((try lift_lets -underBinder); intro x; first
        | (have hx : Kept s0 x := ?_; rotate_left; subst x; rotate_left; clear_value x)
        | (have hx : Kept s0 x.2 := ?_; rotate_left; subst x; rotate_left; clear_value x)
        | (have hx : Kept s0 x.1 := ?_; rotate_left; subst x; rotate_left; clear_value x)
        | (have : MemUnits := x; subst x)
        | clear_value x
        | skip)
    | with_reducible apply KeptO.next
    | with_reducible apply State.setCt_kept
    | (with_reducible apply Kept.unmk; dsimp only; with_reducible apply Kept.ofF)
    | (intro _; intros; try beta_reduce)
    | split

end Sys2Proof.Machine
end

