-- ==== Sys2Proof/Laws/Kept/Selection.lean ====
section
/-! SUPPORT. What the operations of Machine/Selection.lean keep. -/

namespace Sys2Proof.Machine

theorem State.setSel_kept (s : State) (forF : Bool) (x : Selection) {s0 : State} (hK : Kept s0 s) :
    Kept s0 (State.setSel s forF x) := by
  unfold State.setSel
  repeat' first
    | with_reducible assumption
    | ((try lift_lets -underBinder); intro x; first
        | (have hx : Kept s0 x := ?_; rotate_left; subst x; rotate_left; clear_value x)
        | (have : MemUnits := x; subst x)
        | clear_value x
        | skip)
    | (with_reducible apply Kept.unmk; dsimp only; with_reducible apply Kept.ofF)
    | (intro _; intros; try beta_reduce)
    | split

theorem State.holdT_kept (s : State) (left : Option (Fin 16)) {s0 : State} (hK : Kept s0 s) :
    Kept s0 (State.holdT s left) := by
  unfold State.holdT
  repeat' first
    | with_reducible assumption
    | ((try lift_lets -underBinder); intro x; first
        | (have hx : Kept s0 x := ?_; rotate_left; subst x; rotate_left; clear_value x)
        | (have hf1 : ∀ s, Kept s0 s → Kept s0 (x s) := ?_; rotate_left; subst x; intros; beta_reduce; rotate_left; clear_value x)
        | (have hf2 : ∀ s a, Kept s0 s → Kept s0 (x s a) := ?_; rotate_left; subst x; intros; beta_reduce; rotate_left; clear_value x)
        | (have hf3 : ∀ s a b, Kept s0 s → Kept s0 (x s a b) := ?_; rotate_left; subst x; intros; beta_reduce; rotate_left; clear_value x)
        | (have hf4 : ∀ a s, Kept s0 s → Kept s0 (x a s) := ?_; rotate_left; subst x; intros; beta_reduce; rotate_left; clear_value x)
        | (have : MemUnits := x; subst x)
        | clear_value x
        | skip)
    | with_reducible apply State.setLoop_kept
    | with_reducible apply State.setDpll_kept
    | with_reducible apply State.reducePending_kept
    | with_reducible apply State.growBound_kept
    | with_reducible apply State.bump_kept
    | with_reducible apply State.log_kept
    | with_reducible apply State.requestSegment_kept
    | with_reducible apply hf1
    | with_reducible apply hf2
    | with_reducible apply hf3
    | with_reducible apply hf4
    | (with_reducible apply Kept.unmk; dsimp only; with_reducible apply Kept.ofF)
    | (intro _; intros; try beta_reduce)
    | split

theorem State.holdF_kept (s : State) {s0 : State} (hK : Kept s0 s) :
    Kept s0 (State.holdF s) := by
  unfold State.holdF
  repeat' first
    | with_reducible assumption
    | ((try lift_lets -underBinder); intro x; first
        | (have hx : Kept s0 x := ?_; rotate_left; subst x; rotate_left; clear_value x)
        | (have : MemUnits := x; subst x)
        | clear_value x
        | skip)
    | with_reducible apply State.setDpll_kept
    | with_reducible apply State.setLoop_kept
    | with_reducible apply State.log_kept
    | (with_reducible apply Kept.unmk; dsimp only; with_reducible apply Kept.ofF)
    | split

theorem State.updateAssist_kept (s : State) {s0 : State} (hK : Kept s0 s) :
    Kept s0 (State.updateAssist s) := by
  unfold State.updateAssist
  repeat' first
    | with_reducible assumption
    | ((try lift_lets -underBinder); intro x; first
        | (have hx : Kept s0 x := ?_; rotate_left; subst x; rotate_left; clear_value x)
        | skip)
    | with_reducible apply State.growBound_kept
    | with_reducible apply State.putB_kept
    | with_reducible apply State.log_kept
    | (with_reducible apply Kept.unmk; dsimp only; with_reducible apply Kept.ofF)
    | split

theorem State.loopTakes_kept (s : State) (forF : Bool) (i : Fin 16) {s0 : State} (hK : Kept s0 s) :
    Kept s0 (State.loopTakes s forF i) := by
  unfold State.loopTakes
  repeat' first
    | with_reducible assumption
    | ((try lift_lets -underBinder); intro x; first
        | (have hx : Kept s0 x := ?_; rotate_left; subst x; rotate_left; clear_value x)
        | (have hx : Kept s0 x.2 := ?_; rotate_left; subst x; rotate_left; clear_value x)
        | (have hx : Kept s0 x.1 := ?_; rotate_left; subst x; rotate_left; clear_value x)
        | (have : MemUnits := x; subst x)
        | clear_value x
        | skip)
    | with_reducible apply State.growBound_kept
    | with_reducible apply State.setLoop_kept
    | with_reducible apply State.setDpll_kept
    | with_reducible apply State.setBandwidth_kept
    | with_reducible apply State.lockT_kept
    | (with_reducible apply Kept.unmk; dsimp only; with_reducible apply Kept.ofF)
    | split

theorem State.firstReference_kept (s : State) (i : Fin 16) {s0 : State} (hK : Kept s0 s) :
    Kept s0 (State.firstReference s i) := by
  unfold State.firstReference
  repeat' first
    | with_reducible assumption
    | ((try lift_lets -underBinder); intro x; first
        | (have hx : Kept s0 x := ?_; rotate_left; subst x; rotate_left; clear_value x)
        | (have : MemUnits := x; subst x)
        | clear_value x
        | skip)
    | with_reducible apply State.startSeedBound_kept
    | with_reducible apply State.requestSegment_kept
    | with_reducible apply State.seed_kept
    | with_reducible apply State.putN_kept
    | with_reducible apply State.addPending_kept
    | with_reducible apply State.log_kept
    | (with_reducible apply Kept.unmk; dsimp only; with_reducible apply Kept.ofF)
    | split

theorem State.switchTo_kept (s : State) (forF : Bool) (i : Fin 16) {s0 : State} (hK : Kept s0 s) :
    Kept s0 (State.switchTo s forF i) := by
  unfold State.switchTo
  repeat' first
    | with_reducible assumption
    | ((try lift_lets -underBinder); intro x; first
        | (have hx : Kept s0 x := ?_; rotate_left; subst x; rotate_left; clear_value x)
        | (have hx : Kept s0 x.2 := ?_; rotate_left; subst x; rotate_left; clear_value x)
        | (have : MemUnits := x; subst x)
        | clear_value x
        | skip)
    | with_reducible apply State.setSel_kept
    | with_reducible apply State.firstReference_kept
    | with_reducible apply State.loopTakes_kept
    | with_reducible apply State.updateLoop_kept
    | with_reducible apply State.requestSegment_kept
    | with_reducible apply State.bump_kept
    | with_reducible apply State.log_kept
    | (with_reducible apply Kept.unmk; dsimp only; with_reducible apply Kept.ofF)
    | split

theorem State.noCandidate_kept (s : State) (forF : Bool) {s0 : State} (hK : Kept s0 s) :
    Kept s0 (State.noCandidate s forF) := by
  unfold State.noCandidate
  repeat' first
    | with_reducible assumption
    | ((try lift_lets -underBinder); intro x; first
        | (have hx : Kept s0 x := ?_; rotate_left; subst x; rotate_left; clear_value x)
        | (have : MemUnits := x; subst x)
        | clear_value x
        | skip)
    | with_reducible apply State.setSel_kept
    | with_reducible apply State.log_kept
    | with_reducible apply State.holdF_kept
    | with_reducible apply State.holdT_kept
    | (with_reducible apply Kept.unmk; dsimp only; with_reducible apply Kept.ofF)
    | split

theorem State.trackAhead_kept (s : State) (forF : Bool) {s0 : State} (hK : Kept s0 s) :
    Kept s0 (State.trackAhead s forF) := by
  unfold State.trackAhead
  repeat' first
    | with_reducible assumption
    | ((try lift_lets -underBinder); intro x; first
        | (have hx : Kept s0 x := ?_; rotate_left; subst x; rotate_left; clear_value x)
        | (have hx : Kept s0 x.2 := ?_; rotate_left; subst x; rotate_left; clear_value x)
        | (have hx : Kept s0 x.1 := ?_; rotate_left; subst x; rotate_left; clear_value x)
        | (have : MemUnits := x; subst x)
        | clear_value x
        | skip)
    | with_reducible apply State.setSel_kept

theorem State.decide68_kept (s : State) (forF : Bool) (a : Fin 16) (qual : List (Fin 16)) {s0 : State} (hK : Kept s0 s) :
    Kept s0 (State.decide68 s forF a qual) := by
  unfold State.decide68
  repeat' first
    | with_reducible assumption
    | ((try lift_lets -underBinder); intro x; first
        | (have hx : Kept s0 x := ?_; rotate_left; subst x; rotate_left; clear_value x)
        | (have hx : Kept s0 x.2 := ?_; rotate_left; subst x; rotate_left; clear_value x)
        | (have hx : Kept s0 x.1 := ?_; rotate_left; subst x; rotate_left; clear_value x)
        | (have : MemUnits := x; subst x)
        | clear_value x
        | skip)
    | with_reducible apply State.switchTo_kept
    | (with_reducible apply Kept.unmk; dsimp only; with_reducible apply Kept.ofF)
    | (intro _; intros; try beta_reduce)
    | split

theorem State.decide38_kept (s : State) (forF : Bool) {s0 : State} (hK : Kept s0 s) :
    Kept s0 (State.decide38 s forF) := by
  unfold State.decide38
  repeat' first
    | with_reducible assumption
    | ((try lift_lets -underBinder); intro x; first
        | (have hx : Kept s0 x := ?_; rotate_left; subst x; rotate_left; clear_value x)
        | (have : MemUnits := x; subst x)
        | clear_value x
        | skip)
    | with_reducible apply State.setSel_kept
    | with_reducible apply State.switchTo_kept
    | with_reducible apply State.noCandidate_kept
    | with_reducible apply State.decide68_kept
    | (with_reducible apply Kept.unmk; dsimp only; with_reducible apply Kept.ofF)
    | split

theorem State.evalSelection_kept (s : State) (forF : Bool) {s0 : State} (hK : Kept s0 s) :
    Kept s0 (State.evalSelection s forF) := by
  unfold State.evalSelection
  repeat' first
    | with_reducible assumption
    | ((try lift_lets -underBinder); intro x; first
        | (have hx : Kept s0 x := ?_; rotate_left; subst x; rotate_left; clear_value x)
        | (have : MemUnits := x; subst x)
        | clear_value x
        | skip)
    | with_reducible apply State.trackAhead_kept
    | with_reducible apply State.setSel_kept
    | with_reducible apply State.log_kept
    | with_reducible apply State.decide38_kept
    | (with_reducible apply Kept.unmk; dsimp only; with_reducible apply Kept.ofF)
    | split

theorem State.evaluate_kept (s : State) {s0 : State} (hK : Kept s0 s) :
    Kept s0 (State.evaluate s) := by
  unfold State.evaluate
  repeat' first
    | with_reducible assumption
    | ((try lift_lets -underBinder); intro x; first
        | (have hx : Kept s0 x := ?_; rotate_left; subst x; rotate_left; clear_value x)
        | skip)
    | with_reducible apply State.evalSlot_kept
    | with_reducible apply State.evalSelection_kept
    | with_reducible apply State.updateAssist_kept
    | with_reducible refine Kept.foldl ?_ fun _ _ _ => ?_

theorem execSelectionEvaluate_kept (s : State) {s0 : State} (hK : Kept s0 s) :
    KeptO s0 (execSelectionEvaluate s) := by
  unfold execSelectionEvaluate
  repeat' first
    | with_reducible assumption
    | with_reducible apply KeptO.next
    | with_reducible apply State.evaluate_kept

theorem execManualSlotArm_kept (forF : Bool) (manual : Nat) (s : State) {s0 : State} (hK : Kept s0 s) :
    KeptO s0 (execManualSlotArm forF manual s) := by
  unfold execManualSlotArm
  repeat' first
    | with_reducible assumption
    | ((try lift_lets -underBinder); intro x; first
        | (have hx : Kept s0 x := ?_; rotate_left; subst x; rotate_left; clear_value x)
        | (have : MemUnits := x; subst x)
        | clear_value x
        | skip)
    | with_reducible apply KeptO.next
    | with_reducible apply State.putN_kept
    | with_reducible apply State.setSel_kept

theorem execTransitionComplete_kept (forF : Bool) (s : State) {s0 : State} (hK : Kept s0 s) :
    KeptO s0 (execTransitionComplete forF s) := by
  unfold execTransitionComplete
  repeat' first
    | with_reducible assumption
    | ((try lift_lets -underBinder); intro x; first
        | (have hx : Kept s0 x := ?_; rotate_left; subst x; rotate_left; clear_value x)
        | (have : MemUnits := x; subst x)
        | clear_value x
        | skip)
    | with_reducible apply KeptO.next
    | with_reducible apply State.evalSlot_kept
    | with_reducible apply State.evaluate_kept
    | with_reducible apply State.setSel_kept
    | with_reducible apply State.addPending_kept
    | with_reducible apply State.setLoop_kept
    | with_reducible apply State.log_kept
    | (with_reducible apply Kept.unmk; dsimp only; with_reducible apply Kept.ofF)
    | split

theorem State.beginDispute_kept (s : State) (a : Fin 16) (b : Fin 16) (forF : Bool) (diff : Int) {s0 : State} (hK : Kept s0 s) :
    Kept s0 (State.beginDispute s a b forF diff) := by
  unfold State.beginDispute
  repeat' first
    | with_reducible assumption
    | ((try lift_lets -underBinder); intro x; first
        | (have hx : Kept s0 x := ?_; rotate_left; subst x; rotate_left; clear_value x)
        | (have : MemUnits := x; subst x)
        | clear_value x
        | skip)
    | with_reducible apply State.markDisputes_kept
    | with_reducible apply State.log_kept
    | with_reducible apply State.setModel_kept
    | (with_reducible apply Kept.unmk; dsimp only; with_reducible apply Kept.ofF)
    | split

theorem State.outvote_kept (s : State) (winner : Fin 16) (loser : Fin 16) (vw : Nat) (vl : Nat) {s0 : State} (hK : Kept s0 s) :
    Kept s0 (State.outvote s winner loser vw vl) := by
  unfold State.outvote
  repeat' first
    | with_reducible assumption
    | ((try lift_lets -underBinder); intro x; first
        | (have hx : Kept s0 x := ?_; rotate_left; subst x; rotate_left; clear_value x)
        | (have : MemUnits := x; subst x)
        | clear_value x
        | skip)
    | with_reducible apply State.setSlot_kept
    | with_reducible apply State.log_kept
    | with_reducible apply State.evalSlot_kept

theorem State.undecided_kept (s : State) (a : Fin 16) (b : Fin 16) {s0 : State} (hK : Kept s0 s) :
    Kept s0 (State.undecided s a b) := by
  unfold State.undecided
  repeat' first
    | with_reducible assumption
    | ((try lift_lets -underBinder); intro x; first
        | (have hx : Kept s0 x := ?_; rotate_left; subst x; rotate_left; clear_value x)
        | skip)
    | with_reducible apply State.markDisputes_kept
    | with_reducible apply State.log_kept
    | (with_reducible apply Kept.unmk; dsimp only; with_reducible apply Kept.ofF)
    | (intro _; intros; try beta_reduce)
    | split

theorem State.clearDispute_kept (s : State) (d : Dispute) {s0 : State} (hK : Kept s0 s) :
    Kept s0 (State.clearDispute s d) := by
  unfold State.clearDispute
  repeat' first
    | with_reducible assumption
    | with_reducible apply State.endDisputes_kept

theorem State.settle_kept (s : State) (a : Fin 16) (b : Fin 16) {s0 : State} (hK : Kept s0 s) :
    Kept s0 (State.settle s a b) := by
  unfold State.settle
  repeat' first
    | with_reducible assumption
    | ((try lift_lets -underBinder); intro x; first
        | (have hx : Kept s0 x := ?_; rotate_left; subst x; rotate_left; clear_value x)
        | (have hx : Kept s0 x.2 := ?_; rotate_left; subst x; rotate_left; clear_value x)
        | (have hx : Kept s0 x.1 := ?_; rotate_left; subst x; rotate_left; clear_value x)
        | (have : MemUnits := x; subst x)
        | clear_value x
        | skip)
    | with_reducible apply State.outvote_kept
    | with_reducible apply State.undecided_kept
    | split

theorem State.comparePair_kept (s : State) (forF : Bool) (a : Fin 16) (b : Fin 16) {s0 : State} (hK : Kept s0 s) :
    Kept s0 (State.comparePair s forF a b) := by
  unfold State.comparePair
  repeat' first
    | with_reducible assumption
    | ((try lift_lets -underBinder); intro x; first
        | (have hx : Kept s0 x := ?_; rotate_left; subst x; rotate_left; clear_value x)
        | (have : MemUnits := x; subst x)
        | clear_value x
        | skip)
    | with_reducible apply State.clearDispute_kept
    | with_reducible apply State.settle_kept
    | with_reducible apply State.beginDispute_kept
    | (with_reducible apply Kept.unmk; dsimp only; with_reducible apply Kept.ofF)
    | (intro _; intros; try beta_reduce)
    | split

theorem State.checkOutvoted_kept (s : State) (i : Fin 16) {s0 : State} (hK : Kept s0 s) :
    Kept s0 (State.checkOutvoted s i) := by
  unfold State.checkOutvoted
  repeat' first
    | with_reducible assumption
    | ((try lift_lets -underBinder); intro x; first
        | (have hx : Kept s0 x := ?_; rotate_left; subst x; rotate_left; clear_value x)
        | (have : MemUnits := x; subst x)
        | clear_value x
        | skip)
    | with_reducible apply State.setSlot_kept
    | with_reducible apply State.evalSlot_kept
    | (with_reducible apply Kept.unmk; dsimp only; with_reducible apply Kept.ofF)
    | split

theorem execDisputeCompare_kept (s : State) {s0 : State} (hK : Kept s0 s) :
    KeptO s0 (execDisputeCompare s) := by
  unfold execDisputeCompare
  repeat' first
    | with_reducible assumption
    | ((try lift_lets -underBinder); intro x; first
        | (have hx : Kept s0 x := ?_; rotate_left; subst x; rotate_left; clear_value x)
        | (have hx : Kept s0 x.2 := ?_; rotate_left; subst x; rotate_left; clear_value x)
        | (have hx : Kept s0 x.1 := ?_; rotate_left; subst x; rotate_left; clear_value x)
        | (have hf1 : ∀ s, Kept s0 s → Kept s0 (x s) := ?_; rotate_left; subst x; intros; beta_reduce; rotate_left; clear_value x)
        | (have hf2 : ∀ s a, Kept s0 s → Kept s0 (x s a) := ?_; rotate_left; subst x; intros; beta_reduce; rotate_left; clear_value x)
        | (have hf3 : ∀ s a b, Kept s0 s → Kept s0 (x s a b) := ?_; rotate_left; subst x; intros; beta_reduce; rotate_left; clear_value x)
        | (have hf4 : ∀ a s, Kept s0 s → Kept s0 (x a s) := ?_; rotate_left; subst x; intros; beta_reduce; rotate_left; clear_value x)
        | skip)
    | with_reducible apply KeptO.next
    | with_reducible apply State.comparePair_kept
    | with_reducible apply State.checkOutvoted_kept
    | with_reducible refine Kept.foldl ?_ fun _ _ _ => ?_
    | with_reducible apply hf1
    | with_reducible apply hf2
    | with_reducible apply hf3
    | with_reducible apply hf4
    | (intro _; intros; try beta_reduce)
    | split

theorem State.lockCheck_kept (s : State) (d : Fin 4) (good : Bool) (stamp : Nat) {s0 : State} (hK : Kept s0 s) :
    Kept s0 (State.lockCheck s d good stamp).1 := by
  unfold State.lockCheck
  repeat' first
    | with_reducible assumption
    | ((try lift_lets -underBinder); intro x; first
        | (have hx : Kept s0 x := ?_; rotate_left; subst x; rotate_left; clear_value x)
        | (have : MemUnits := x; subst x)
        | clear_value x
        | skip)
    | with_reducible apply State.setLoop_kept
    | (with_reducible apply Kept.unmk; dsimp only; with_reducible apply Kept.ofF)
    | split

theorem State.driveT_kept (s : State) (i : Fin 16) (stamp : Nat) (p : Int) {s0 : State} (hK : Kept s0 s) :
    Kept s0 (State.driveT s i stamp p) := by
  unfold State.driveT
  repeat' first
    | with_reducible assumption
    | ((try lift_lets -underBinder); intro x; first
        | (have hx : Kept s0 x := ?_; rotate_left; subst x; rotate_left; clear_value x)
        | (have : MemUnits := x; subst x)
        | clear_value x
        | skip)
    | with_reducible apply State.reducePending_kept
    | with_reducible apply State.setBandwidth_kept
    | with_reducible apply State.updateLoop_kept
    | with_reducible apply State.setLoop_kept
    | with_reducible apply State.lockCheck_kept
    | with_reducible refine Kept.pair1 ‹_ = _› (State.lockCheck_kept _ _ _ _ ?_)
    | with_reducible apply State.lockT_kept
    | with_reducible apply State.requestSegment_kept
    | (with_reducible apply Kept.unmk; dsimp only; with_reducible apply Kept.ofF)
    | split

theorem execDpllTMeasurement_kept (slot : Fin 16) (s : State) {s0 : State} (hK : Kept s0 s) :
    KeptO s0 (execDpllTMeasurement slot s) := by
  unfold execDpllTMeasurement
  repeat' first
    | with_reducible assumption
    | ((try lift_lets -underBinder); intro x; first
        | (have hx : Kept s0 x := ?_; rotate_left; subst x; rotate_left; clear_value x)
        | (have : MemUnits := x; subst x)
        | clear_value x
        | skip)
    | with_reducible apply KeptO.next
    | with_reducible apply State.reducePending_kept
    | with_reducible apply State.setLoop_kept
    | with_reducible apply State.updateLoop_kept
    | with_reducible apply State.requestSegment_kept
    | with_reducible apply State.driveT_kept
    | (with_reducible apply Kept.unmk; dsimp only; with_reducible apply Kept.ofF)
    | split

theorem State.driveSynth_kept (s : State) (d : Fin 4) (y : Int) (stamp : Nat) {s0 : State} (hK : Kept s0 s) :
    Kept s0 (State.driveSynth s d y stamp) := by
  unfold State.driveSynth
  repeat' first
    | with_reducible assumption
    | ((try lift_lets -underBinder); intro x; first
        | (have hx : Kept s0 x := ?_; rotate_left; subst x; rotate_left; clear_value x)
        | (have : MemUnits := x; subst x)
        | clear_value x
        | skip)
    | with_reducible apply State.setLoop_kept
    | with_reducible apply State.updateLoop_kept

theorem State.driveF_kept (s : State) (i : Fin 16) (stamp : Nat) (y : Int) {s0 : State} (hK : Kept s0 s) :
    Kept s0 (State.driveF s i stamp y) := by
  unfold State.driveF
  repeat' first
    | with_reducible assumption
    | ((try lift_lets -underBinder); intro x; first
        | (have hx : Kept s0 x := ?_; rotate_left; subst x; rotate_left; clear_value x)
        | (have : MemUnits := x; subst x)
        | clear_value x
        | skip)
    | with_reducible apply State.setBandwidth_kept
    | with_reducible apply State.driveSynth_kept
    | with_reducible apply State.lockCheck_kept
    | with_reducible refine Kept.pair1 ‹_ = _› (State.lockCheck_kept _ _ _ _ ?_)
    | with_reducible apply State.setDpll_kept
    | split

theorem execDpllFMeasurement_kept (sample : FreqSample) (s : State) {s0 : State} (hK : Kept s0 s) :
    KeptO s0 (execDpllFMeasurement sample s) := by
  unfold execDpllFMeasurement
  repeat' first
    | with_reducible assumption
    | ((try lift_lets -underBinder); intro x; first
        | (have hx : Kept s0 x := ?_; rotate_left; subst x; rotate_left; clear_value x)
        | (have : MemUnits := x; subst x)
        | clear_value x
        | skip)
    | with_reducible apply KeptO.next
    | with_reducible apply State.slotFreqMeasure_kept
    | with_reducible apply State.driveF_kept
    | (with_reducible apply Kept.unmk; dsimp only; with_reducible apply Kept.ofF)
    | split

theorem execMediaLoopUpdate_kept (loopB : Bool) (s : State) {s0 : State} (hK : Kept s0 s) :
    KeptO s0 (execMediaLoopUpdate loopB s) := by
  unfold execMediaLoopUpdate
  repeat' first
    | with_reducible assumption
    | ((try lift_lets -underBinder); intro x; first
        | (have hx : Kept s0 x := ?_; rotate_left; subst x; rotate_left; clear_value x)
        | (have : MemUnits := x; subst x)
        | clear_value x
        | skip)
    | with_reducible apply KeptO.next
    | with_reducible apply State.setBandwidth_kept
    | with_reducible apply State.driveSynth_kept
    | with_reducible apply State.lockCheck_kept
    | with_reducible refine Kept.pair1 ‹_ = _› (State.lockCheck_kept _ _ _ _ ?_)
    | with_reducible apply State.setDpll_kept
    | with_reducible apply State.setLoop_kept

theorem State.mediaStep_kept (s : State) (amount : Int) {s0 : State} (hK : Kept s0 s) :
    Kept s0 (State.mediaStep s amount) := by
  unfold State.mediaStep
  repeat' first
    | with_reducible assumption
    | ((try lift_lets -underBinder); intro x; first
        | (have hx : Kept s0 x := ?_; rotate_left; subst x; rotate_left; clear_value x)
        | (have : MemUnits := x; subst x)
        | clear_value x
        | skip)
    | with_reducible apply State.setLoop_kept
    | with_reducible refine Kept.foldl ?_ fun _ _ _ => ?_
    | (with_reducible apply Kept.unmk; dsimp only; with_reducible apply Kept.ofF)
    | (intro _; intros; try beta_reduce)
    | split

theorem execHoldoverRateUpdate_kept (temp : Int) (s : State) {s0 : State} (hK : Kept s0 s) :
    KeptO s0 (execHoldoverRateUpdate temp s) := by
  unfold execHoldoverRateUpdate
  repeat' first
    | with_reducible assumption
    | ((try lift_lets -underBinder); intro x; first
        | (have hx : Kept s0 x := ?_; rotate_left; subst x; rotate_left; clear_value x)
        | (have : MemUnits := x; subst x)
        | clear_value x
        | skip)
    | with_reducible apply KeptO.next
    | with_reducible apply State.updateTemp_kept
    | with_reducible apply State.updateAssist_kept
    | with_reducible apply State.setLoop_kept
    | with_reducible apply State.requestSegment_kept
    | (with_reducible apply Kept.unmk; dsimp only; with_reducible apply Kept.ofF)
    | split

end Sys2Proof.Machine
end

