-- ==== Sys2Proof/Laws/Kept/Outputs.lean ====
section
/-! SUPPORT. What the operations of Machine/Outputs.lean keep. -/

namespace Sys2Proof.Machine

theorem State.logStarted_kept (s : State) (n : Fin 20) {s0 : State} (hK : Kept s0 s) :
    Kept s0 (State.logStarted s n) := by
  unfold State.logStarted
  repeat' first
    | with_reducible assumption
    | ((try lift_lets -underBinder); intro x; first
        | (have hx : Kept s0 x := ?_; rotate_left; subst x; rotate_left; clear_value x)
        | (have : MemUnits := x; subst x)
        | clear_value x
        | skip)
    | with_reducible apply State.setOut_kept
    | with_reducible apply State.log_kept

theorem State.skipIndices_kept (s : State) (n : Fin 20) (k : Nat) {s0 : State} (hK : Kept s0 s) :
    Kept s0 (State.skipIndices s n k).1 := by
  unfold State.skipIndices
  repeat' first
    | with_reducible assumption
    | ((try lift_lets -underBinder); intro x; first
        | (have hx : Kept s0 x := ?_; rotate_left; subst x; rotate_left; clear_value x)
        | (have : MemUnits := x; subst x)
        | clear_value x
        | skip)
    | with_reducible apply State.bump_kept

theorem State.startOut_kept (s : State) (n : Fin 20) {s0 : State} (hK : Kept s0 s) :
    Kept s0 (State.startOut s n) := by
  unfold State.startOut
  repeat' first
    | with_reducible assumption
    | ((try lift_lets -underBinder); intro x; first
        | (have hx : Kept s0 x := ?_; rotate_left; subst x; rotate_left; clear_value x)
        | (have : MemUnits := x; subst x)
        | clear_value x
        | skip)
    | with_reducible apply State.putN_kept
    | with_reducible apply State.skipIndices_kept
    | with_reducible refine Kept.pair1 ‹_ = _› (State.skipIndices_kept _ _ _ ?_)
    | with_reducible apply State.setOut_kept
    | with_reducible apply State.logStarted_kept
    | (with_reducible apply Kept.unmk; dsimp only; with_reducible apply Kept.ofF)
    | split

theorem State.startF_kept (s : State) (n : Fin 20) {s0 : State} (hK : Kept s0 s) :
    Kept s0 (State.startF s n) := by
  unfold State.startF
  repeat' first
    | with_reducible assumption
    | ((try lift_lets -underBinder); intro x; first
        | (have hx : Kept s0 x := ?_; rotate_left; subst x; rotate_left; clear_value x)
        | (have : MemUnits := x; subst x)
        | clear_value x
        | skip)
    | with_reducible apply State.freeNat_kept
    | with_reducible refine Kept.pair2 ‹_ = _› (State.freeNat_kept _ ?_)
    | with_reducible apply State.setOut_kept
    | with_reducible apply State.putN_kept
    | with_reducible apply State.logStarted_kept

theorem State.adoptFunction_kept (s : State) (n : Fin 20) {s0 : State} (hK : Kept s0 s) :
    Kept s0 (State.adoptFunction s n) := by
  unfold State.adoptFunction
  repeat' first
    | with_reducible assumption
    | ((try lift_lets -underBinder); intro x; first
        | (have hx : Kept s0 x := ?_; rotate_left; subst x; rotate_left; clear_value x)
        | (have : MemUnits := x; subst x)
        | clear_value x
        | skip)
    | with_reducible apply State.setOut_kept
    | with_reducible apply State.putN_kept
    | (with_reducible apply Kept.unmk; dsimp only; with_reducible apply Kept.ofF)
    | (intro _; intros; try beta_reduce)
    | split

theorem State.evalOut_kept (s : State) (n : Fin 20) {s0 : State} (hK : Kept s0 s) :
    Kept s0 (State.evalOut s n) := by
  unfold State.evalOut
  repeat' first
    | with_reducible assumption
    | ((try lift_lets -underBinder); intro x; first
        | (have hx : Kept s0 x := ?_; rotate_left; subst x; rotate_left; clear_value x)
        | (have : MemUnits := x; subst x)
        | clear_value x
        | skip)
    | with_reducible apply KeptO.next
    | with_reducible apply State.adoptFunction_kept
    | with_reducible apply State.startF_kept
    | with_reducible apply State.setOut_kept
    | with_reducible apply State.putN_kept
    | with_reducible apply State.log_kept
    | with_reducible apply State.startOut_kept
    | (with_reducible apply Kept.unmk; dsimp only; with_reducible apply Kept.ofF)
    | split

theorem State.evalOuts_kept (s : State) {s0 : State} (hK : Kept s0 s) :
    Kept s0 (State.evalOuts s) := by
  unfold State.evalOuts
  repeat' first
    | with_reducible assumption
    | with_reducible apply State.evalOut_kept
    | with_reducible refine Kept.foldl ?_ fun _ _ _ => ?_
    | (intro _; intros; try beta_reduce)
    | split

theorem State.takeJump_kept (s : State) (n : Fin 20) (t : Rat) {s0 : State} (hK : Kept s0 s) :
    Kept s0 (State.takeJump s n t) := by
  unfold State.takeJump
  repeat' first
    | with_reducible assumption
    | ((try lift_lets -underBinder); intro x; first
        | (have hx : Kept s0 x := ?_; rotate_left; subst x; rotate_left; clear_value x)
        | (have : MemUnits := x; subst x)
        | clear_value x
        | skip)
    | with_reducible apply State.setOut_kept
    | with_reducible apply State.bump_kept
    | with_reducible apply State.log_kept
    | (with_reducible apply Kept.unmk; dsimp only; with_reducible apply Kept.ofF)
    | split

theorem State.padSample_kept (s : State) (n : Fin 20) (pad : Option Int) {s0 : State} (hK : Kept s0 s) :
    Kept s0 (State.padSample s n pad) := by
  unfold State.padSample
  repeat' first
    | with_reducible assumption
    | ((try lift_lets -underBinder); intro x; first
        | (have hx : Kept s0 x := ?_; rotate_left; subst x; rotate_left; clear_value x)
        | (have : MemUnits := x; subst x)
        | clear_value x
        | skip)
    | with_reducible apply State.setOut_kept
    | with_reducible apply State.putN_kept
    | with_reducible apply State.log_kept
    | (with_reducible apply Kept.unmk; dsimp only; with_reducible apply Kept.ofF)
    | split

theorem State.armTod_kept (s : State) (n : Fin 20) (stamp : Nat) (t : Rat) {s0 : State} (hK : Kept s0 s) :
    Kept s0 (State.armTod s n stamp t) := by
  unfold State.armTod
  repeat' first
    | with_reducible assumption
    | ((try lift_lets -underBinder); intro x; first
        | (have hx : Kept s0 x := ?_; rotate_left; subst x; rotate_left; clear_value x)
        | (have : MemUnits := x; subst x)
        | clear_value x
        | skip)
    | with_reducible apply State.setTod_kept
    | with_reducible refine Kept.foldl ?_ fun _ _ _ => ?_
    | (with_reducible apply Kept.unmk; dsimp only; with_reducible apply Kept.ofF)
    | (intro _; intros; try beta_reduce)
    | split

theorem State.produceEdge_kept (s : State) (n : Fin 20) (t : Rat) (pad : Option Int) {s0 : State} (hK : Kept s0 s) :
    Kept s0 (State.produceEdge s n t pad) := by
  unfold State.produceEdge
  repeat' first
    | with_reducible assumption
    | ((try lift_lets -underBinder); intro x; first
        | (have hx : Kept s0 x := ?_; rotate_left; subst x; rotate_left; clear_value x)
        | (have : MemUnits := x; subst x)
        | clear_value x
        | skip)
    | with_reducible apply State.putO_kept
    | with_reducible apply State.takeJump_kept
    | with_reducible apply State.setOut_kept
    | with_reducible apply State.armTod_kept
    | with_reducible apply State.padSample_kept
    | (with_reducible apply Kept.unmk; dsimp only; with_reducible apply Kept.ofF)
    | split

theorem execOutputEdge_kept (output : Fin 20) (pad : Option Int) (s : State) {s0 : State} (hK : Kept s0 s) :
    KeptO s0 (execOutputEdge output pad s) := by
  unfold execOutputEdge
  repeat' first
    | with_reducible assumption
    | ((try lift_lets -underBinder); intro x; first
        | (have hx : Kept s0 x := ?_; rotate_left; subst x; rotate_left; clear_value x)
        | (have : MemUnits := x; subst x)
        | clear_value x
        | skip)
    | with_reducible apply KeptO.next
    | with_reducible apply State.evalOut_kept
    | with_reducible apply State.setOut_kept
    | with_reducible apply State.padSample_kept
    | with_reducible apply State.putN_kept
    | with_reducible apply State.logStarted_kept
    | with_reducible apply State.produceEdge_kept
    | (with_reducible apply Kept.unmk; dsimp only; with_reducible apply Kept.ofF)
    | (intro _; intros; try beta_reduce)
    | split

theorem execOutputPhaseJump_kept (output : Fin 20) (s : State) {s0 : State} (hK : Kept s0 s) :
    KeptO s0 (execOutputPhaseJump output s) := by
  unfold execOutputPhaseJump
  repeat' first
    | with_reducible assumption
    | ((try lift_lets -underBinder); intro x; first
        | (have hx : Kept s0 x := ?_; rotate_left; subst x; rotate_left; clear_value x)
        | (have : MemUnits := x; subst x)
        | clear_value x
        | skip)
    | with_reducible apply KeptO.next
    | with_reducible apply State.takeJump_kept
    | (with_reducible apply Kept.unmk; dsimp only; with_reducible apply Kept.ofF)
    | split

theorem State.skipAtStep_kept (s : State) (n : Fin 20) (start : Nat) (k : Nat) {s0 : State} (hK : Kept s0 s) :
    Kept s0 (State.skipAtStep s n start k) := by
  unfold State.skipAtStep
  repeat' first
    | with_reducible assumption
    | ((try lift_lets -underBinder); intro x; first
        | (have hx : Kept s0 x := ?_; rotate_left; subst x; rotate_left; clear_value x)
        | (have : MemUnits := x; subst x)
        | clear_value x
        | skip)
    | with_reducible apply State.setOut_kept
    | with_reducible apply State.bump_kept
    | with_reducible apply State.log_kept
    | (with_reducible apply Kept.unmk; dsimp only; with_reducible apply Kept.ofF)
    | split

theorem State.unskipAtStep_kept (s : State) (n : Fin 20) (start : Nat) {s0 : State} (hK : Kept s0 s) :
    Kept s0 (State.unskipAtStep s n start) := by
  unfold State.unskipAtStep
  repeat' first
    | with_reducible assumption
    | ((try lift_lets -underBinder); intro x; first
        | (have hx : Kept s0 x := ?_; rotate_left; subst x; rotate_left; clear_value x)
        | (have hf1 : ∀ s, Kept s0 s → Kept s0 (x s) := ?_; rotate_left; subst x; intros; beta_reduce; rotate_left; clear_value x)
        | (have hf2 : ∀ s a, Kept s0 s → Kept s0 (x s a) := ?_; rotate_left; subst x; intros; beta_reduce; rotate_left; clear_value x)
        | (have hf3 : ∀ s a b, Kept s0 s → Kept s0 (x s a b) := ?_; rotate_left; subst x; intros; beta_reduce; rotate_left; clear_value x)
        | (have hf4 : ∀ a s, Kept s0 s → Kept s0 (x a s) := ?_; rotate_left; subst x; intros; beta_reduce; rotate_left; clear_value x)
        | (have : MemUnits := x; subst x)
        | clear_value x
        | skip)
    | with_reducible apply State.putN_kept
    | with_reducible apply hf1
    | with_reducible apply hf2
    | with_reducible apply hf3
    | with_reducible apply hf4
    | (with_reducible apply Kept.unmk; dsimp only; with_reducible apply Kept.ofF)
    | (intro _; intros; try beta_reduce)
    | split

theorem State.rephase_kept (s : State) (n : Fin 20) (seg : Segment) {s0 : State} (hK : Kept s0 s) :
    Kept s0 (State.rephase s n seg) := by
  unfold State.rephase
  repeat' first
    | with_reducible assumption
    | ((try lift_lets -underBinder); intro x; first
        | (have hx : Kept s0 x := ?_; rotate_left; subst x; rotate_left; clear_value x)
        | (have : MemUnits := x; subst x)
        | clear_value x
        | skip)
    | with_reducible apply State.setOut_kept
    | with_reducible apply State.skipAtStep_kept
    | (with_reducible apply Kept.unmk; dsimp only; with_reducible apply Kept.ofF)
    | split

theorem State.seriesStep_kept (s : State) (n : Fin 20) (seg : Segment) (t : Rat) {s0 : State} (hK : Kept s0 s) :
    Kept s0 (State.seriesStep s n seg t) := by
  unfold State.seriesStep
  repeat' first
    | with_reducible assumption
    | ((try lift_lets -underBinder); intro x; first
        | (have hx : Kept s0 x := ?_; rotate_left; subst x; rotate_left; clear_value x)
        | (have : MemUnits := x; subst x)
        | clear_value x
        | skip)
    | with_reducible apply State.setOut_kept
    | with_reducible apply State.skipAtStep_kept

theorem State.moveSeries_kept (s : State) (n : Fin 20) {s0 : State} (hK : Kept s0 s) :
    Kept s0 (State.moveSeries s n) := by
  unfold State.moveSeries
  repeat' first
    | with_reducible assumption
    | ((try lift_lets -underBinder); intro x; first
        | (have hx : Kept s0 x := ?_; rotate_left; subst x; rotate_left; clear_value x)
        | (have : MemUnits := x; subst x)
        | clear_value x
        | skip)
    | with_reducible apply KeptO.next
    | with_reducible apply State.setOut_kept
    | (with_reducible apply Kept.unmk; dsimp only; with_reducible apply Kept.ofF)
    | (intro _; intros; try beta_reduce)
    | split

theorem State.regrid_kept (s : State) (n : Fin 20) {s0 : State} (hK : Kept s0 s) :
    Kept s0 (State.regrid s n) := by
  unfold State.regrid
  repeat' first
    | with_reducible assumption
    | ((try lift_lets -underBinder); intro x; first
        | (have hx : Kept s0 x := ?_; rotate_left; subst x; rotate_left; clear_value x)
        | (have : MemUnits := x; subst x)
        | clear_value x
        | skip)
    | with_reducible apply State.setOut_kept
    | with_reducible apply State.unskipAtStep_kept
    | with_reducible apply State.moveSeries_kept
    | with_reducible apply State.seriesStep_kept
    | with_reducible apply State.rephase_kept
    | (with_reducible apply Kept.unmk; dsimp only; with_reducible apply Kept.ofF)
    | split

theorem State.timedWrite_kept (s : State) (n : Fin 20) (key : Nat) {s0 : State} (hK : Kept s0 s) :
    Kept s0 (State.timedWrite s n key) := by
  unfold State.timedWrite
  repeat' first
    | with_reducible assumption
    | ((try lift_lets -underBinder); intro x; first
        | (have hx : Kept s0 x := ?_; rotate_left; subst x; rotate_left; clear_value x)
        | (have : MemUnits := x; subst x)
        | clear_value x
        | skip)
    | with_reducible apply KeptO.next
    | with_reducible apply State.regrid_kept
    | with_reducible apply State.setOut_kept
    | with_reducible apply State.moveSeries_kept
    | (with_reducible apply Kept.unmk; dsimp only; with_reducible apply Kept.ofF)
    | (intro _; intros; try beta_reduce)
    | split

theorem State.padRestart_kept (s : State) (n : Fin 20) {s0 : State} (hK : Kept s0 s) :
    Kept s0 (State.padRestart s n) := by
  unfold State.padRestart
  repeat' first
    | with_reducible assumption
    | ((try lift_lets -underBinder); intro x; first
        | (have hx : Kept s0 x := ?_; rotate_left; subst x; rotate_left; clear_value x)
        | (have : MemUnits := x; subst x)
        | clear_value x
        | skip)
    | with_reducible apply State.setOut_kept

theorem State.startSeries_kept (s : State) (output : Fin 20) (time : Nat) (c : Nat) {s0 : State} (hK : Kept s0 s) :
    Kept s0 (State.startSeries s output time c) := by
  unfold State.startSeries
  repeat' first
    | with_reducible assumption
    | ((try lift_lets -underBinder); intro x; first
        | (have hx : Kept s0 x := ?_; rotate_left; subst x; rotate_left; clear_value x)
        | (have : MemUnits := x; subst x)
        | clear_value x
        | skip)
    | with_reducible apply State.putN_kept
    | with_reducible apply State.freeNat_kept
    | with_reducible refine Kept.pair2 ‹_ = _› (State.freeNat_kept _ ?_)
    | with_reducible apply State.bump_kept
    | with_reducible apply State.setOut_kept
    | with_reducible apply State.evalOut_kept
    | (with_reducible apply Kept.unmk; dsimp only; with_reducible apply Kept.ofF)
    | split

theorem execStartTimeCommit_kept (output : Fin 20) (time : Nat) (s : State) {s0 : State} (hK : Kept s0 s) :
    KeptO s0 (execStartTimeCommit output time s) := by
  unfold execStartTimeCommit
  repeat' first
    | with_reducible assumption
    | with_reducible apply KeptO.next
    | with_reducible apply State.startSeries_kept

theorem execPadCompensationUpdate_kept (output : Fin 20) (delay : Option Int) (s : State) {s0 : State} (hK : Kept s0 s) :
    KeptO s0 (execPadCompensationUpdate output delay s) := by
  unfold execPadCompensationUpdate
  repeat' first
    | with_reducible assumption
    | ((try lift_lets -underBinder); intro x; first
        | (have hx : Kept s0 x := ?_; rotate_left; subst x; rotate_left; clear_value x)
        | (have : MemUnits := x; subst x)
        | clear_value x
        | skip)
    | with_reducible apply KeptO.next
    | with_reducible apply State.putN_kept
    | with_reducible apply State.setOut_kept
    | (with_reducible apply Kept.unmk; dsimp only; with_reducible apply Kept.ofF)
    | split

theorem State.carryWave_kept (s : State) (n : Fin 20) (start : Nat) (amount : Int) {s0 : State} (hK : Kept s0 s) :
    Kept s0 (State.carryWave s n start amount) := by
  unfold State.carryWave
  repeat' first
    | with_reducible assumption
    | ((try lift_lets -underBinder); intro x; first
        | (have hx : Kept s0 x := ?_; rotate_left; subst x; rotate_left; clear_value x)
        | (have hx : Kept s0 x.2 := ?_; rotate_left; subst x; rotate_left; clear_value x)
        | (have hx : Kept s0 x.1 := ?_; rotate_left; subst x; rotate_left; clear_value x)
        | (have hf1 : ∀ s, Kept s0 s → Kept s0 (x s) := ?_; rotate_left; subst x; intros; beta_reduce; rotate_left; clear_value x)
        | (have hf2 : ∀ s a, Kept s0 s → Kept s0 (x s a) := ?_; rotate_left; subst x; intros; beta_reduce; rotate_left; clear_value x)
        | (have hf3 : ∀ s a b, Kept s0 s → Kept s0 (x s a b) := ?_; rotate_left; subst x; intros; beta_reduce; rotate_left; clear_value x)
        | (have hf4 : ∀ a s, Kept s0 s → Kept s0 (x a s) := ?_; rotate_left; subst x; intros; beta_reduce; rotate_left; clear_value x)
        | (have : MemUnits := x; subst x)
        | clear_value x
        | skip)
    | with_reducible apply State.setOut_kept

theorem State.spanActive_kept (s : State) (n : Fin 20) (start : Nat) {s0 : State} (hK : Kept s0 s) :
    Kept s0 (State.spanActive s n start) := by
  unfold State.spanActive
  repeat' first
    | with_reducible assumption
    | ((try lift_lets -underBinder); intro x; first
        | (have hx : Kept s0 x := ?_; rotate_left; subst x; rotate_left; clear_value x)
        | (have : MemUnits := x; subst x)
        | clear_value x
        | skip)
    | with_reducible apply State.setOut_kept
    | (with_reducible apply Kept.unmk; dsimp only; with_reducible apply Kept.ofF)
    | split

theorem State.outStep_kept (s : State) (n : Fin 20) (seg : Segment) (amount : Int) {s0 : State} (hK : Kept s0 s) :
    Kept s0 (State.outStep s n seg amount) := by
  unfold State.outStep
  repeat' first
    | with_reducible assumption
    | ((try lift_lets -underBinder); intro x; first
        | (have hx : Kept s0 x := ?_; rotate_left; subst x; rotate_left; clear_value x)
        | (have : MemUnits := x; subst x)
        | clear_value x
        | skip)
    | with_reducible apply KeptO.next
    | with_reducible apply State.seriesStep_kept
    | with_reducible apply State.setOut_kept
    | with_reducible apply State.rephase_kept
    | (with_reducible apply Kept.unmk; dsimp only; with_reducible apply Kept.ofF)
    | split

theorem execSegmentStart_kept (s : State) {s0 : State} (hK : Kept s0 s) :
    KeptO s0 (execSegmentStart s) := by
  unfold execSegmentStart
  repeat' first
    | with_reducible assumption
    | ((try lift_lets -underBinder); intro x; first
        | (have hx : Kept s0 x := ?_; rotate_left; subst x; rotate_left; clear_value x)
        | (have : MemUnits := x; subst x)
        | clear_value x
        | skip)
    | with_reducible apply KeptO.next
    | with_reducible apply State.tryIssue_kept
    | with_reducible apply State.carryWave_kept
    | with_reducible apply State.startIssued_kept
    | with_reducible apply State.mediaStep_kept
    | with_reducible apply State.spanActive_kept
    | with_reducible apply State.outStep_kept
    | with_reducible apply State.evalOuts_kept
    | with_reducible refine Kept.foldl ?_ fun _ _ _ => ?_
    | (with_reducible apply Kept.unmk; dsimp only; with_reducible apply Kept.ofF)
    | (intro _; intros; try beta_reduce)
    | split

theorem State.alignBegin_kept (s : State) (n : Fin 20) {s0 : State} (hK : Kept s0 s) :
    Kept s0 (State.alignBegin s n) := by
  unfold State.alignBegin
  repeat' first
    | with_reducible assumption
    | ((try lift_lets -underBinder); intro x; first
        | (have hx : Kept s0 x := ?_; rotate_left; subst x; rotate_left; clear_value x)
        | (have : MemUnits := x; subst x)
        | clear_value x
        | skip)
    | with_reducible apply State.setOut_kept
    | with_reducible apply State.putN_kept

theorem execAlignTrigger_kept (output : Fin 20) (s : State) {s0 : State} (hK : Kept s0 s) :
    KeptO s0 (execAlignTrigger output s) := by
  unfold execAlignTrigger
  repeat' first
    | with_reducible assumption
    | with_reducible apply KeptO.next
    | with_reducible apply State.putB_kept
    | with_reducible apply State.alignBegin_kept
    | split

theorem State.alignEdge_kept (s : State) (n : Fin 20) (stamp : Nat) {s0 : State} (hK : Kept s0 s) :
    Kept s0 (State.alignEdge s n stamp) := by
  unfold State.alignEdge
  repeat' first
    | with_reducible assumption
    | ((try lift_lets -underBinder); intro x; first
        | (have hx : Kept s0 x := ?_; rotate_left; subst x; rotate_left; clear_value x)
        | (have : MemUnits := x; subst x)
        | clear_value x
        | skip)
    | with_reducible apply State.setOut_kept
    | with_reducible apply State.putN_kept
    | (with_reducible apply Kept.unmk; dsimp only; with_reducible apply Kept.ofF)
    | split

theorem State.alignFeed_kept (s : State) (source : Nat) (stamp : Nat) {s0 : State} (hK : Kept s0 s) :
    Kept s0 (State.alignFeed s source stamp) := by
  unfold State.alignFeed
  repeat' first
    | with_reducible assumption
    | with_reducible apply State.alignEdge_kept
    | with_reducible refine Kept.foldl ?_ fun _ _ _ => ?_
    | (intro _; intros; try beta_reduce)
    | split

theorem execAlignApplied_kept (output : Fin 20) (s : State) {s0 : State} (hK : Kept s0 s) :
    KeptO s0 (execAlignApplied output s) := by
  unfold execAlignApplied
  repeat' first
    | with_reducible assumption
    | ((try lift_lets -underBinder); intro x; first
        | (have hx : Kept s0 x := ?_; rotate_left; subst x; rotate_left; clear_value x)
        | (have : MemUnits := x; subst x)
        | clear_value x
        | skip)
    | with_reducible apply KeptO.next
    | with_reducible apply State.putN_kept
    | with_reducible apply State.setOut_kept
    | with_reducible apply State.regrid_kept
    | with_reducible apply State.putB_kept
    | with_reducible apply State.log_kept
    | (with_reducible apply Kept.unmk; dsimp only; with_reducible apply Kept.ofF)
    | split

theorem execAlignContinuousUpdate_kept (output : Fin 20) (s : State) {s0 : State} (hK : Kept s0 s) :
    KeptO s0 (execAlignContinuousUpdate output s) := by
  unfold execAlignContinuousUpdate
  repeat' first
    | with_reducible assumption
    | ((try lift_lets -underBinder); intro x; first
        | (have hx : Kept s0 x := ?_; rotate_left; subst x; rotate_left; clear_value x)
        | (have hx : Kept s0 x.2 := ?_; rotate_left; subst x; rotate_left; clear_value x)
        | (have : MemUnits := x; subst x)
        | clear_value x
        | skip)
    | with_reducible apply KeptO.next
    | with_reducible apply State.putN_kept
    | with_reducible apply State.setOut_kept
    | with_reducible apply State.log_kept
    | (with_reducible apply Kept.unmk; dsimp only; with_reducible apply Kept.ofF)
    | split

theorem execAlignTimeout_kept (output : Fin 20) (s : State) {s0 : State} (hK : Kept s0 s) :
    KeptO s0 (execAlignTimeout output s) := by
  unfold execAlignTimeout
  repeat' first
    | with_reducible assumption
    | ((try lift_lets -underBinder); intro x; first
        | (have hx : Kept s0 x := ?_; rotate_left; subst x; rotate_left; clear_value x)
        | (have : MemUnits := x; subst x)
        | clear_value x
        | skip)
    | with_reducible apply KeptO.next
    | with_reducible apply State.setOut_kept
    | with_reducible apply State.putN_kept
    | with_reducible apply State.putB_kept
    | with_reducible apply State.log_kept
    | (with_reducible apply Kept.unmk; dsimp only; with_reducible apply Kept.ofF)
    | split

theorem execTodoutFrame_kept (todout : Fin 4) (s : State) {s0 : State} (hK : Kept s0 s) :
    KeptO s0 (execTodoutFrame todout s) := by
  unfold execTodoutFrame
  repeat' first
    | with_reducible assumption
    | ((try lift_lets -underBinder); intro x; first
        | (have hx : Kept s0 x := ?_; rotate_left; subst x; rotate_left; clear_value x)
        | (have : MemUnits := x; subst x)
        | clear_value x
        | skip)
    | with_reducible apply KeptO.next
    | with_reducible apply State.setTod_kept
    | with_reducible apply State.bump_kept
    | (with_reducible apply Kept.unmk; dsimp only; with_reducible apply Kept.ofF)
    | split

end Sys2Proof.Machine
end

