-- ==== Sys2Proof/Laws/Kept/Captures.lean ====
section
/-! SUPPORT. What the operations of Machine/Captures.lean keep. -/

namespace Sys2Proof.Machine

theorem State.capLose_kept (s : State) (c : Fin 16) {s0 : State} (hK : Kept s0 s) :
    Kept s0 (State.capLose s c) := by
  unfold State.capLose
  repeat' first
    | with_reducible assumption
    | ((try lift_lets -underBinder); intro x; first
        | (have hx : Kept s0 x := ?_; rotate_left; subst x; rotate_left; clear_value x)
        | skip)
    | with_reducible apply State.bump_kept
    | with_reducible apply State.putB_kept
    | with_reducible apply State.log_kept
    | split

theorem State.capPush_kept (s : State) (c : Fin 16) (stamp : Nat) (falling : Bool) {s0 : State} (hK : Kept s0 s) :
    Kept s0 (State.capPush s c stamp falling) := by
  unfold State.capPush
  repeat' first
    | with_reducible assumption
    | ((try lift_lets -underBinder); intro x; first
        | (have hx : Kept s0 x := ?_; rotate_left; subst x; rotate_left; clear_value x)
        | (have : MemUnits := x; subst x)
        | clear_value x
        | skip)
    | with_reducible apply State.capLose_kept
    | with_reducible apply State.setCap_kept
    | (with_reducible apply Kept.unmk; dsimp only; with_reducible apply Kept.ofF)
    | split

theorem execCaptureEdge_kept (capture : Fin 16) (stamp : Nat) (falling : Bool) (stable : Nat) (s : State) {s0 : State} (hK : Kept s0 s) :
    KeptO s0 (execCaptureEdge capture stamp falling stable s) := by
  unfold execCaptureEdge
  repeat' first
    | with_reducible assumption
    | ((try lift_lets -underBinder); intro x; first
        | (have hx : Kept s0 x := ?_; rotate_left; subst x; rotate_left; clear_value x)
        | (have : MemUnits := x; subst x)
        | clear_value x
        | skip)
    | with_reducible apply KeptO.next
    | with_reducible apply State.bump_kept
    | with_reducible apply State.setCap_kept
    | with_reducible apply State.capLose_kept
    | with_reducible apply State.capPush_kept
    | with_reducible apply State.alignFeed_kept
    | (with_reducible apply Kept.unmk; dsimp only; with_reducible apply Kept.ofF)
    | split

theorem execCaptureConvert_kept (capture : Fin 16) (s : State) {s0 : State} (hK : Kept s0 s) :
    KeptO s0 (execCaptureConvert capture s) := by
  unfold execCaptureConvert
  repeat' first
    | with_reducible assumption
    | ((try lift_lets -underBinder); intro x; first
        | (have hx : Kept s0 x := ?_; rotate_left; subst x; rotate_left; clear_value x)
        | (have : MemUnits := x; subst x)
        | clear_value x
        | skip)
    | with_reducible apply KeptO.next
    | with_reducible apply State.setCap_kept
    | with_reducible apply State.count_kept
    | with_reducible apply State.capLose_kept
    | with_reducible apply State.putN_kept
    | with_reducible apply State.putO_kept
    | with_reducible apply State.log_kept
    | (with_reducible apply Kept.unmk; dsimp only; with_reducible apply Kept.ofF)
    | split

theorem execCapAckSeq_kept (capture : Fin 16) (seq : Nat) (s : State) {s0 : State} (hK : Kept s0 s) :
    KeptO s0 (execCapAckSeq capture seq s) := by
  unfold execCapAckSeq
  repeat' first
    | with_reducible assumption
    | ((try lift_lets -underBinder); intro x; first
        | (have hx : Kept s0 x := ?_; rotate_left; subst x; rotate_left; clear_value x)
        | (have : MemUnits := x; subst x)
        | clear_value x
        | skip)
    | with_reducible apply KeptO.next
    | with_reducible apply State.putN_kept
    | split

theorem execRefinEdge_kept (input : Fin 8) (stamp : Nat) (s : State) {s0 : State} (hK : Kept s0 s) :
    KeptO s0 (execRefinEdge input stamp s) := by
  unfold execRefinEdge
  repeat' first
    | with_reducible assumption
    | ((try lift_lets -underBinder); intro x; first
        | (have hx : Kept s0 x := ?_; rotate_left; subst x; rotate_left; clear_value x)
        | (have : MemUnits := x; subst x)
        | clear_value x
        | skip)
    | with_reducible apply KeptO.next
    | with_reducible apply State.setRefin_kept
    | with_reducible apply State.putO_kept
    | with_reducible apply State.slotEdge_kept
    | with_reducible apply State.alignFeed_kept
    | with_reducible apply State.capPush_kept
    | with_reducible refine Kept.foldl ?_ fun _ _ _ => ?_
    | (with_reducible apply Kept.unmk; dsimp only; with_reducible apply Kept.ofF)
    | (intro _; intros; try beta_reduce)
    | split

end Sys2Proof.Machine
end

