-- ==== Sys2Proof/Laws/Kept/Modes.lean ====
section
/-! SUPPORT. What the operations of Machine/Modes.lean keep. -/

namespace Sys2Proof.Machine

theorem State.drivePins_kept (s : State) {s0 : State} (hK : Kept s0 s) :
    Kept s0 (State.drivePins s) := by
  unfold State.drivePins
  repeat' first
    | with_reducible assumption
    | ((try lift_lets -underBinder); intro x; first
        | (have hx : Kept s0 x := ?_; rotate_left; subst x; rotate_left; clear_value x)
        | (have : MemUnits := x; subst x)
        | clear_value x
        | skip)
    | (with_reducible apply Kept.unmk; dsimp only; with_reducible apply Kept.ofF)

theorem State.setMode_kept (s : State) (m : Mode) (cause : Nat) {s0 : State} (hK : Kept s0 s) :
    Kept s0 (State.setMode s m cause) := by
  unfold State.setMode
  repeat' first
    | with_reducible assumption
    | ((try lift_lets -underBinder); intro x; first
        | (have hx : Kept s0 x := ?_; rotate_left; subst x; rotate_left; clear_value x)
        | (have : MemUnits := x; subst x)
        | clear_value x
        | skip)
    | with_reducible apply State.bump_kept
    | with_reducible apply State.putN_kept
    | with_reducible apply State.log_kept
    | with_reducible apply State.drivePins_kept
    | (with_reducible apply Kept.unmk; dsimp only; with_reducible apply Kept.ofF)

theorem State.setCondition_kept (s : State) (c : Int) {s0 : State} (hK : Kept s0 s) :
    Kept s0 (State.setCondition s c) := by
  unfold State.setCondition
  repeat' first
    | with_reducible assumption
    | ((try lift_lets -underBinder); intro x; first
        | (have hx : Kept s0 x := ?_; rotate_left; subst x; rotate_left; clear_value x)
        | skip)
    | with_reducible apply State.putN_kept
    | with_reducible apply State.setMode_kept
    | split

theorem State.crossBudget_kept (s : State) {s0 : State} (hK : Kept s0 s) :
    Kept s0 (State.crossBudget s) := by
  unfold State.crossBudget
  repeat' first
    | with_reducible assumption
    | ((try lift_lets -underBinder); intro x; first
        | (have hx : Kept s0 x := ?_; rotate_left; subst x; rotate_left; clear_value x)
        | skip)
    | with_reducible apply State.putB_kept
    | with_reducible apply State.log_kept
    | with_reducible apply State.setCondition_kept

theorem State.takeLoss_kept (s : State) {s0 : State} (hK : Kept s0 s) :
    Kept s0 (State.takeLoss s) := by
  unfold State.takeLoss
  repeat' first
    | with_reducible assumption
    | ((try lift_lets -underBinder); intro x; first
        | (have hx : Kept s0 x := ?_; rotate_left; subst x; rotate_left; clear_value x)
        | (have : MemUnits := x; subst x)
        | clear_value x
        | skip)
    | with_reducible apply State.putB_kept
    | with_reducible apply State.log_kept
    | with_reducible apply State.setCondition_kept
    | (with_reducible apply Kept.unmk; dsimp only; with_reducible apply Kept.ofF)
    | split

theorem State.takeLock_kept (s : State) {s0 : State} (hK : Kept s0 s) :
    Kept s0 (State.takeLock s) := by
  unfold State.takeLock
  repeat' first
    | with_reducible assumption
    | ((try lift_lets -underBinder); intro x; first
        | (have hx : Kept s0 x := ?_; rotate_left; subst x; rotate_left; clear_value x)
        | (have : MemUnits := x; subst x)
        | clear_value x
        | skip)
    | with_reducible apply State.putB_kept
    | with_reducible apply State.setCondition_kept
    | (with_reducible apply Kept.unmk; dsimp only; with_reducible apply Kept.ofF)
    | split

theorem State.takeMash_kept (s : State) {s0 : State} (hK : Kept s0 s) :
    Kept s0 (State.takeMash s) := by
  unfold State.takeMash
  repeat' first
    | with_reducible assumption
    | ((try lift_lets -underBinder); intro x; first
        | (have hx : Kept s0 x := ?_; rotate_left; subst x; rotate_left; clear_value x)
        | (have : MemUnits := x; subst x)
        | clear_value x
        | skip)
    | with_reducible apply State.setCondition_kept
    | (with_reducible apply Kept.unmk; dsimp only; with_reducible apply Kept.ofF)
    | split

theorem execTimingConditionEvaluate_kept (s : State) {s0 : State} (hK : Kept s0 s) :
    KeptO s0 (execTimingConditionEvaluate s) := by
  unfold execTimingConditionEvaluate
  repeat' first
    | with_reducible assumption
    | ((try lift_lets -underBinder); intro x; first
        | (have hx : Kept s0 x := ?_; rotate_left; subst x; rotate_left; clear_value x)
        | skip)
    | with_reducible apply KeptO.next
    | with_reducible apply State.growBound_kept
    | with_reducible apply State.takeLoss_kept
    | with_reducible apply State.crossBudget_kept
    | with_reducible apply State.takeLock_kept
    | with_reducible apply State.evalOuts_kept
    | with_reducible apply State.drivePins_kept
    | with_reducible apply State.takeMash_kept
    | split

theorem execMashTimeout_kept (s : State) {s0 : State} (hK : Kept s0 s) :
    KeptO s0 (execMashTimeout s) := by
  unfold execMashTimeout
  repeat' first
    | with_reducible assumption
    | ((try lift_lets -underBinder); intro x; first
        | (have hx : Kept s0 x := ?_; rotate_left; subst x; rotate_left; clear_value x)
        | (have : MemUnits := x; subst x)
        | clear_value x
        | skip)
    | with_reducible apply KeptO.next
    | (with_reducible apply Kept.unmk; dsimp only; with_reducible apply Kept.ofF)
    | split

theorem State.reserveSteps_kept (s : State) {s0 : State} (hK : Kept s0 s) :
    Kept s0 (State.reserveSteps s) := by
  unfold State.reserveSteps
  repeat' first
    | with_reducible assumption
    | ((try lift_lets -underBinder); intro x; first
        | (have hx : Kept s0 x := ?_; rotate_left; subst x; rotate_left; clear_value x)
        | (have : MemUnits := x; subst x)
        | clear_value x
        | skip)
    | with_reducible apply State.tick_kept
    | with_reducible apply State.reserveStep_kept
    | with_reducible apply State.ownerStep_kept
    | (with_reducible apply Kept.unmk; dsimp only; with_reducible apply Kept.ofF)
    | split

theorem State.ownerStep_kept (s : State) (amount : Int) (session : Nat) (due : Option Int) {s0 : State} (hK : Kept s0 s) :
    Kept s0 (State.ownerStep s amount session due) := by
  unfold State.ownerStep
  repeat' first
    | with_reducible assumption
    | ((try lift_lets -underBinder); intro x; first
        | (have hx : Kept s0 x := ?_; rotate_left; subst x; rotate_left; clear_value x)
        | (have : MemUnits := x; subst x)
        | clear_value x
        | skip)
    | with_reducible apply State.takeReserved_kept
    | with_reducible apply State.requestSegment_kept
    | (with_reducible apply Kept.unmk; dsimp only; with_reducible apply Kept.ofF)
    | split

theorem execStep_kept (amount : Int) (session : Nat) (s : State) {s0 : State} (hK : Kept s0 s) :
    KeptO s0 (execStep amount session s) := by
  unfold execStep
  repeat' first
    | with_reducible assumption
    | with_reducible apply KeptO.next
    | with_reducible apply State.ownerStep_kept
    | split

theorem State.alignSnowdrop_kept (s : State) {s0 : State} (hK : Kept s0 s) :
    Kept s0 (State.alignSnowdrop s) := by
  unfold State.alignSnowdrop
  repeat' first
    | with_reducible assumption
    | ((try lift_lets -underBinder); intro x; first
        | (have hx : Kept s0 x := ?_; rotate_left; subst x; rotate_left; clear_value x)
        | (have : MemUnits := x; subst x)
        | clear_value x
        | skip)
    | (with_reducible apply Kept.unmk; dsimp only; with_reducible apply Kept.ofF)
    | split

theorem execSnowdropAlign_kept (s : State) {s0 : State} (hK : Kept s0 s) :
    KeptO s0 (execSnowdropAlign s) := by
  unfold execSnowdropAlign
  repeat' first
    | with_reducible assumption
    | with_reducible apply KeptO.next
    | with_reducible apply State.alignSnowdrop_kept
    | split

end Sys2Proof.Machine
end

