-- ==== Sys2Proof/Laws/Kept/Ptp.lean ====
section
/-! SUPPORT. What the operations of Machine/Ptp.lean keep. -/

namespace Sys2Proof.Machine

theorem State.secured?_kept (s : State) (i : Fin 4) (msg : Bytes) {s0 : State} (hK : Kept s0 s) :
    Kept s0 (State.secured? s i msg).2 := by
  unfold State.secured?
  repeat' first
    | with_reducible assumption
    | ((try lift_lets -underBinder); intro x; first
        | (have hx : Kept s0 x := ?_; rotate_left; subst x; rotate_left; clear_value x)
        | (have : MemUnits := x; subst x)
        | clear_value x
        | skip)
    | with_reducible apply State.bump_kept
    | with_reducible apply State.setInst_kept
    | with_reducible apply State.logSec_kept
    | (with_reducible apply Kept.unmk; dsimp only; with_reducible apply Kept.ofF)
    | split

theorem State.setParent_kept (s : State) (i : Fin 4) (p : Option (Nat × AnnData)) {s0 : State} (hK : Kept s0 s) :
    Kept s0 (State.setParent s i p) := by
  unfold State.setParent
  repeat' first
    | with_reducible assumption
    | ((try lift_lets -underBinder); intro x; first
        | (have hx : Kept s0 x := ?_; rotate_left; subst x; rotate_left; clear_value x)
        | (have hx : Kept s0 x.2 := ?_; rotate_left; subst x; rotate_left; clear_value x)
        | (have hx : Kept s0 x.1 := ?_; rotate_left; subst x; rotate_left; clear_value x)
        | (have : MemUnits := x; subst x)
        | clear_value x
        | skip)
    | with_reducible apply State.setInst_kept
    | with_reducible apply State.putN_kept
    | with_reducible apply State.putO_kept
    | with_reducible apply State.log_kept
    | with_reducible apply State.setSlot_kept
    | with_reducible apply State.evalSlot_kept
    | with_reducible refine Kept.foldl ?_ fun _ _ _ => ?_
    | (with_reducible apply Kept.unmk; dsimp only; with_reducible apply Kept.ofF)
    | (intro _; intros; try beta_reduce)
    | split

theorem State.applyDecision_kept (s : State) (i : Fin 4) (n : Nat) (v : Nat) (parent : Option AnnData) {s0 : State} (hK : Kept s0 s) :
    Kept s0 (State.applyDecision s i n v parent) := by
  unfold State.applyDecision
  repeat' first
    | with_reducible assumption
    | ((try lift_lets -underBinder); intro x; first
        | (have hx : Kept s0 x := ?_; rotate_left; subst x; rotate_left; clear_value x)
        | (have : MemUnits := x; subst x)
        | clear_value x
        | skip)
    | with_reducible apply State.setPtpState_kept
    | with_reducible apply State.setPtpPort_kept
    | (with_reducible apply Kept.unmk; dsimp only; with_reducible apply Kept.ofF)
    | (intro _; intros; try beta_reduce)
    | split

theorem State.qualifyPorts_kept (s : State) {s0 : State} (hK : Kept s0 s) :
    Kept s0 (State.qualifyPorts s) := by
  unfold State.qualifyPorts
  repeat' first
    | with_reducible assumption
    | ((try lift_lets -underBinder); intro x; first
        | (have hx : Kept s0 x := ?_; rotate_left; subst x; rotate_left; clear_value x)
        | (have hx : Kept s0 x.2 := ?_; rotate_left; subst x; rotate_left; clear_value x)
        | (have hx : Kept s0 x.1 := ?_; rotate_left; subst x; rotate_left; clear_value x)
        | (have : MemUnits := x; subst x)
        | clear_value x
        | skip)
    | with_reducible apply State.setPtpPort_kept
    | with_reducible apply State.setPtpState_kept
    | with_reducible refine Kept.foldl ?_ fun _ _ _ => ?_
    | (with_reducible apply Kept.unmk; dsimp only; with_reducible apply Kept.ofF)
    | (intro _; intros; try beta_reduce)
    | split

theorem State.runBmca_kept (s : State) (i : Fin 4) {s0 : State} (hK : Kept s0 s) :
    Kept s0 (State.runBmca s i) := by
  unfold State.runBmca
  repeat' first
    | with_reducible assumption
    | ((try lift_lets -underBinder); intro x; first
        | (have hx : Kept s0 x := ?_; rotate_left; subst x; rotate_left; clear_value x)
        | (have hx : Kept s0 x.2 := ?_; rotate_left; subst x; rotate_left; clear_value x)
        | (have hx : Kept s0 x.1 := ?_; rotate_left; subst x; rotate_left; clear_value x)
        | (have : MemUnits := x; subst x)
        | clear_value x
        | skip)
    | with_reducible apply State.applyDecision_kept
    | with_reducible apply State.setParent_kept
    | with_reducible apply State.adoptLeap_kept
    | with_reducible refine Kept.foldl ?_ fun _ _ _ => ?_
    | (with_reducible apply Kept.unmk; dsimp only; with_reducible apply Kept.ofF)
    | (intro _; intros; try beta_reduce)
    | split

theorem State.takeRing4_kept (s : State) (type : Nat) {s0 : State} (hK : Kept s0 s) :
    KeptS2 s0 (State.takeRing4 s type) := by
  unfold State.takeRing4
  repeat' first
    | with_reducible assumption
    | ((try lift_lets -underBinder); intro x; first
        | (have hx : Kept s0 x := ?_; rotate_left; subst x; rotate_left; clear_value x)
        | (have : MemUnits := x; subst x)
        | clear_value x
        | skip)
    | with_reducible apply KeptS2.some
    | with_reducible exact KeptS2.none
    | with_reducible apply State.setRing_kept
    | with_reducible apply State.count_kept
    | (with_reducible apply Kept.unmk; dsimp only; with_reducible apply Kept.ofF)
    | (intro _; intros; try beta_reduce)
    | split

theorem execAnnounceReceive_kept (s : State) {s0 : State} (hK : Kept s0 s) :
    KeptO s0 (execAnnounceReceive s) := by
  unfold execAnnounceReceive
  repeat' first
    | with_reducible assumption
    | ((try lift_lets -underBinder); intro x; first
        | (have hx : Kept s0 x := ?_; rotate_left; subst x; rotate_left; clear_value x)
        | (have hx : KeptS2 s0 x := ?_; rotate_left; subst x; rotate_left; clear_value x)
        | (have : MemUnits := x; subst x)
        | clear_value x
        | skip)
    | with_reducible apply KeptO.next
    | with_reducible apply State.takeRing4_kept
    | with_reducible refine (State.takeRing4_kept _ _ ?_).ofSome _ _ ‹_›
    | with_reducible apply State.bump_kept
    | with_reducible apply State.secured?_kept
    | with_reducible refine Kept.pair2 ‹_ = _› (State.secured?_kept _ _ _ ?_)
    | with_reducible apply State.setPtpPort_kept
    | with_reducible apply State.runBmca_kept
    | with_reducible exact (‹KeptS2 s0 _›).ofSome _ _ ‹_›
    | with_reducible exact (‹KeptS2 s0 (some _)›).ofSome _ _ rfl
    | (with_reducible apply Kept.unmk; dsimp only; with_reducible apply Kept.ofF)
    | (intro _; intros; try beta_reduce)
    | split

theorem execAnnounceReceiptTimeout_kept (inst : Fin 4) (port : Fin 64) (s : State) {s0 : State} (hK : Kept s0 s) :
    KeptO s0 (execAnnounceReceiptTimeout inst port s) := by
  unfold execAnnounceReceiptTimeout
  repeat' first
    | with_reducible assumption
    | ((try lift_lets -underBinder); intro x; first
        | (have hx : Kept s0 x := ?_; rotate_left; subst x; rotate_left; clear_value x)
        | (have : MemUnits := x; subst x)
        | clear_value x
        | skip)
    | with_reducible apply KeptO.next
    | with_reducible apply State.setPtpPort_kept
    | with_reducible apply State.runBmca_kept
    | (with_reducible apply Kept.unmk; dsimp only; with_reducible apply Kept.ofF)
    | split

theorem State.describe_kept (s : State) (ring : Nat) (f : EFrame) {s0 : State} (hK : Kept s0 s) :
    Kept s0 (State.describe s ring f).2 := by
  unfold State.describe
  repeat' first
    | with_reducible assumption
    | ((try lift_lets -underBinder); intro x; first
        | (have hx : Kept s0 x := ?_; rotate_left; subst x; rotate_left; clear_value x)
        | (have : MemUnits := x; subst x)
        | clear_value x
        | skip)
    | with_reducible apply State.buffer_kept
    | with_reducible refine Kept.pair2 ‹_ = _› (State.buffer_kept _ _ ?_)
    | (with_reducible apply Kept.unmk; dsimp only; with_reducible apply Kept.ofF)
    | split

theorem State.toEgress_kept (s : State) (n : Fin 64) (f : EFrame) {s0 : State} (hK : Kept s0 s) :
    Kept s0 (State.toEgress s n f) := by
  unfold State.toEgress
  repeat' first
    | with_reducible assumption
    | ((try lift_lets -underBinder); intro x; first
        | (have hx : Kept s0 x := ?_; rotate_left; subst x; rotate_left; clear_value x)
        | (have : MemUnits := x; subst x)
        | clear_value x
        | skip)
    | with_reducible apply State.describe_kept
    | with_reducible refine Kept.pair2 ‹_ = _› (State.describe_kept _ _ _ ?_)
    | with_reducible apply State.setPort_kept

theorem State.post_kept (s : State) (n : Fin 64) (f : EFrame) {s0 : State} (hK : Kept s0 s) :
    Kept s0 (State.post s n f) := by
  unfold State.post
  repeat' first
    | with_reducible assumption
    | with_reducible apply State.toEgress_kept
    | with_reducible apply State.count_kept

theorem State.postMgmt_kept (s : State) (l : List Bytes) {s0 : State} (hK : Kept s0 s) :
    Kept s0 (State.postMgmt s l) := by
  unfold State.postMgmt
  repeat' first
    | with_reducible assumption
    | ((try lift_lets -underBinder); intro x; first
        | (have hx : Kept s0 x := ?_; rotate_left; subst x; rotate_left; clear_value x)
        | (have : MemUnits := x; subst x)
        | clear_value x
        | skip)
    | with_reducible apply State.describe_kept
    | with_reducible refine Kept.pair2 ‹_ = _› (State.describe_kept _ _ _ ?_)
    | with_reducible apply State.count_kept
    | with_reducible apply State.release129_kept
    | with_reducible refine Kept.foldl ?_ fun _ _ _ => ?_
    | (with_reducible apply Kept.unmk; dsimp only; with_reducible apply Kept.ofF)
    | (intro _; intros; try beta_reduce)
    | split

theorem execDelayReqSend_kept (inst : Fin 4) (port : Fin 64) (s : State) {s0 : State} (hK : Kept s0 s) :
    KeptO s0 (execDelayReqSend inst port s) := by
  unfold execDelayReqSend
  repeat' first
    | with_reducible assumption
    | ((try lift_lets -underBinder); intro x; first
        | (have hx : Kept s0 x := ?_; rotate_left; subst x; rotate_left; clear_value x)
        | (have : MemUnits := x; subst x)
        | clear_value x
        | skip)
    | with_reducible apply KeptO.next
    | with_reducible apply State.setPtpPort_kept
    | with_reducible apply State.post_kept
    | (with_reducible apply Kept.unmk; dsimp only; with_reducible apply Kept.ofF)
    | split

theorem execPdelayReqSend_kept (inst : Fin 4) (port : Fin 64) (s : State) {s0 : State} (hK : Kept s0 s) :
    KeptO s0 (execPdelayReqSend inst port s) := by
  unfold execPdelayReqSend
  repeat' first
    | with_reducible assumption
    | ((try lift_lets -underBinder); intro x; first
        | (have hx : Kept s0 x := ?_; rotate_left; subst x; rotate_left; clear_value x)
        | (have : MemUnits := x; subst x)
        | clear_value x
        | skip)
    | with_reducible apply KeptO.next
    | with_reducible apply State.setPtpPort_kept
    | with_reducible apply State.post_kept
    | (with_reducible apply Kept.unmk; dsimp only; with_reducible apply Kept.ofF)
    | split

theorem execPtpManagement_kept (s : State) {s0 : State} (hK : Kept s0 s) :
    KeptO s0 (execPtpManagement s) := by
  unfold execPtpManagement
  repeat' first
    | with_reducible assumption
    | ((try lift_lets -underBinder); intro x; first
        | (have hx : Kept s0 x := ?_; rotate_left; subst x; rotate_left; clear_value x)
        | (have hx : Kept s0 x.2 := ?_; rotate_left; subst x; rotate_left; clear_value x)
        | (have hx : KeptS2 s0 x := ?_; rotate_left; subst x; rotate_left; clear_value x)
        | (have : MemUnits := x; subst x)
        | clear_value x
        | skip)
    | with_reducible apply KeptO.next
    | with_reducible apply State.takeRing4_kept
    | with_reducible refine (State.takeRing4_kept _ _ ?_).ofSome _ _ ‹_›
    | with_reducible apply State.bump_kept
    | with_reducible apply State.secured?_kept
    | with_reducible refine Kept.pair2 ‹_ = _› (State.secured?_kept _ _ _ ?_)
    | with_reducible apply State.reply_kept
    | with_reducible apply State.post_kept
    | with_reducible exact (‹KeptS2 s0 _›).ofSome _ _ ‹_›
    | with_reducible exact (‹KeptS2 s0 (some _)›).ofSome _ _ rfl
    | (with_reducible apply Kept.unmk; dsimp only; with_reducible apply Kept.ofF)
    | split

theorem execSmTlvSend_kept (inst : Fin 4) (port : Fin 64) (s : State) {s0 : State} (hK : Kept s0 s) :
    KeptO s0 (execSmTlvSend inst port s) := by
  unfold execSmTlvSend
  repeat' first
    | with_reducible assumption
    | ((try lift_lets -underBinder); intro x; first
        | (have hx : Kept s0 x := ?_; rotate_left; subst x; rotate_left; clear_value x)
        | (have : MemUnits := x; subst x)
        | clear_value x
        | skip)
    | with_reducible apply KeptO.next
    | with_reducible apply State.setPtpPort_kept
    | with_reducible apply State.post_kept
    | (with_reducible apply Kept.unmk; dsimp only; with_reducible apply Kept.ofF)
    | split

theorem execUnicastRenew_kept (inst : Fin 4) (master : Fin 4) (message : Nat) (s : State) {s0 : State} (hK : Kept s0 s) :
    KeptO s0 (execUnicastRenew inst master message s) := by
  unfold execUnicastRenew
  repeat' first
    | with_reducible assumption
    | ((try lift_lets -underBinder); intro x; first
        | (have hx : Kept s0 x := ?_; rotate_left; subst x; rotate_left; clear_value x)
        | (have hx : Kept s0 x.2 := ?_; rotate_left; subst x; rotate_left; clear_value x)
        | (have : MemUnits := x; subst x)
        | clear_value x
        | skip)
    | with_reducible apply KeptO.next
    | with_reducible apply State.log_kept
    | with_reducible apply State.setInst_kept
    | with_reducible apply State.post_kept
    | (with_reducible apply Kept.unmk; dsimp only; with_reducible apply Kept.ofF)
    | (intro _; intros; try beta_reduce)
    | split

end Sys2Proof.Machine
end

