-- ==== Sys2Proof/Laws/Kept/Link.lean ====
section
/-! SUPPORT. What the operations of Machine/Link.lean keep. -/

namespace Sys2Proof.Machine

theorem State.sendOol_kept (s : State) (path : Path) (hdr : Bytes) (frame : Bytes) {s0 : State} (hK : Kept s0 s) :
    Kept s0 (State.sendOol s path hdr frame) := by
  unfold State.sendOol
  repeat' first
    | with_reducible assumption
    | ((try lift_lets -underBinder); intro x; first
        | (have hx : Kept s0 x := ?_; rotate_left; subst x; rotate_left; clear_value x)
        | (have : MemUnits := x; subst x)
        | clear_value x
        | skip)
    | with_reducible apply State.count_kept
    | with_reducible apply State.post_kept
    | (with_reducible apply Kept.unmk; dsimp only; with_reducible apply Kept.ofF)
    | split

theorem State.sendFrames_kept (s : State) (path : Path) (hdr : Bytes) (l : List Bytes) {s0 : State} (hK : Kept s0 s) :
    Kept s0 (State.sendFrames s path hdr l) := by
  unfold State.sendFrames
  repeat' first
    | with_reducible assumption
    | with_reducible apply State.sendOol_kept
    | with_reducible refine Kept.foldl ?_ fun _ _ _ => ?_

theorem State.answer_kept (s : State) (k : Fin 32) (path : Path) (hdr : Bytes) (opcode : Nat) (seq : Nat) (status : Nat) (payload : Bytes) (more : Bool) {s0 : State} (hK : Kept s0 s) :
    Kept s0 (State.answer s k path hdr opcode seq status payload more) := by
  unfold State.answer
  repeat' first
    | with_reducible assumption
    | ((try lift_lets -underBinder); intro x; first
        | (have hx : Kept s0 x := ?_; rotate_left; subst x; rotate_left; clear_value x)
        | (have : MemUnits := x; subst x)
        | clear_value x
        | skip)
    | with_reducible apply State.setSession_kept
    | with_reducible apply State.sendFrames_kept
    | (with_reducible apply Kept.unmk; dsimp only; with_reducible apply Kept.ofF)
    | split

end Sys2Proof.Machine
end

