-- ==== Sys2Proof/Laws/Kept/Emit.lean ====
section
/-! SUPPORT. What the operations of Machine/Emit.lean keep. -/

namespace Sys2Proof.Machine

theorem State.endThread_kept (s : State) (e : Fin 8) (t : Fin 16) (kind : Nat) (waits : Bool) {s0 : State} (hK : Kept s0 s) :
    Kept s0 (State.endThread s e t kind waits) := by
  unfold State.endThread
  repeat' first
    | with_reducible assumption
    | ((try lift_lets -underBinder); intro x; first
        | (have hx : Kept s0 x := ?_; rotate_left; subst x; rotate_left; clear_value x)
        | (have hx : Kept s0 x.2 := ?_; rotate_left; subst x; rotate_left; clear_value x)
        | (have hx : Kept s0 x.1 := ?_; rotate_left; subst x; rotate_left; clear_value x)
        | (have : MemUnits := x; subst x)
        | clear_value x
        | skip)
    | with_reducible apply State.buffer_kept
    | with_reducible refine Kept.pair2 ‹_ = _› (State.buffer_kept _ _ ?_)
    | with_reducible apply State.setEngine_kept
    | with_reducible apply State.sampleEnded_kept
    | (with_reducible apply Kept.unmk; dsimp only; with_reducible apply Kept.ofF)
    | (intro _; intros; try beta_reduce)
    | split

theorem State.emitFrame_kept (s : State) (n : Fin 64) (f : EFrame) {s0 : State} (hK : Kept s0 s) :
    Kept s0 (State.emitFrame s n f) := by
  unfold State.emitFrame
  repeat' first
    | with_reducible assumption
    | with_reducible apply State.bump_kept
    | with_reducible apply State.emitDone_kept
    | with_reducible apply State.countP_kept
    | with_reducible apply State.toEgress_kept
    | split

theorem State.countJob_kept (s : State) (e : Fin 8) (blocks : Nat) {s0 : State} (hK : Kept s0 s) :
    Kept s0 (State.countJob s e blocks) := by
  unfold State.countJob
  repeat' first
    | with_reducible assumption
    | with_reducible apply State.bump_kept
    | with_reducible apply State.countE_kept

end Sys2Proof.Machine
end

