-- ==== Sys2Proof/Laws/Kept/Builtin.lean ====
section
/-! SUPPORT. What the operations of Machine/Builtin.lean keep. -/

namespace Sys2Proof.Machine

theorem State.bDrop_kept (s : State) (c : Ctx) (key : Option Nat) {s0 : State} (hK : Kept s0 s) :
    Kept s0 (State.bDrop s c key) := by
  unfold State.bDrop
  repeat' first
    | with_reducible assumption
    | ((try lift_lets -underBinder); intro x; first
        | (have hx : Kept s0 x := ?_; rotate_left; subst x; rotate_left; clear_value x)
        | skip)
    | with_reducible apply State.bump_kept
    | with_reducible apply State.countE_kept
    | with_reducible apply State.endThread_kept
    | (with_reducible apply Kept.unmk; dsimp only; with_reducible apply Kept.ofF)
    | split

theorem State.bEmit_kept (s : State) (c : Ctx) (n : Nat) (f : EFrame) {s0 : State} (hK : Kept s0 s) :
    Kept s0 (State.bEmit s c n f) := by
  unfold State.bEmit
  repeat' first
    | with_reducible assumption
    | ((try lift_lets -underBinder); intro x; first
        | (have hx : Kept s0 x := ?_; rotate_left; subst x; rotate_left; clear_value x)
        | (have : MemUnits := x; subst x)
        | clear_value x
        | skip)
    | with_reducible apply State.setThread_kept
    | with_reducible apply State.endThread_kept
    | with_reducible apply State.emitFrame_kept
    | with_reducible apply State.bDrop_kept
    | (with_reducible apply Kept.unmk; dsimp only; with_reducible apply Kept.ofF)
    | split

theorem State.ntpReply_kept (s : State) (c : Ctx) (p : Pkt) (msg : Bytes) (insert : Bool) (after : After) {s0 : State} (hK : Kept s0 s) :
    Kept s0 (State.ntpReply s c p msg insert after) := by
  unfold State.ntpReply
  repeat' first
    | with_reducible assumption
    | with_reducible apply State.bEmit_kept

theorem State.countRequest_kept (s : State) (i : Nat) {s0 : State} (hK : Kept s0 s) :
    Kept s0 (State.countRequest s i) := by
  unfold State.countRequest
  repeat' first
    | with_reducible assumption
    | ((try lift_lets -underBinder); intro x; first
        | (have hx : Kept s0 x := ?_; rotate_left; subst x; rotate_left; clear_value x)
        | (have : MemUnits := x; subst x)
        | clear_value x
        | skip)
    | with_reducible apply State.ctWrite_kept
    | (with_reducible apply Kept.unmk; dsimp only; with_reducible apply Kept.ofF)
    | split

theorem State.lookupChecks_kept (s : State) (p : Pkt) (kind : Nat) (inst : Nat) (late : Bool) {s0 : State} (hK : Kept s0 s) :
    Kept s0 (State.lookupChecks s p kind inst late).2 := by
  unfold State.lookupChecks
  repeat' first
    | with_reducible assumption
    | ((try lift_lets -underBinder); intro x; first
        | (have hx : Kept s0 x := ?_; rotate_left; subst x; rotate_left; clear_value x)
        | (have hx : Kept s0 x.2 := ?_; rotate_left; subst x; rotate_left; clear_value x)
        | (have hx : Kept s0 x.1 := ?_; rotate_left; subst x; rotate_left; clear_value x)
        | (have : MemUnits := x; subst x)
        | clear_value x
        | skip)
    | with_reducible apply State.ctTouch_kept
    | with_reducible refine Kept.pair2 ‹_ = _› (State.ctTouch_kept _ _ _ ?_)
    | with_reducible apply State.countRequest_kept
    | with_reducible apply State.bump_kept
    | with_reducible apply State.sketchCount_kept
    | with_reducible refine Kept.pair2 ‹_ = _› (State.sketchCount_kept _ _ ?_)
    | with_reducible apply State.sketchDrop_kept
    | (with_reducible apply Kept.unmk; dsimp only; with_reducible apply Kept.ofF)
    | split

theorem State.tableChecks_kept (s : State) (p : Pkt) (late : Bool) {s0 : State} (hK : Kept s0 s) :
    Kept s0 (State.tableChecks s p late).2 := by
  unfold State.tableChecks
  repeat' first
    | with_reducible assumption
    | ((try lift_lets -underBinder); intro x; first
        | (have hx : Kept s0 x := ?_; rotate_left; subst x; rotate_left; clear_value x)
        | (have : MemUnits := x; subst x)
        | clear_value x
        | skip)
    | with_reducible apply State.lookupChecks_kept
    | with_reducible refine Kept.pair2 ‹_ = _› (State.lookupChecks_kept _ _ _ _ _ ?_)
    | with_reducible apply State.stateless_kept
    | with_reducible apply State.ctCreate_kept
    | with_reducible refine Kept.pair2 ‹_ = _› (State.ctCreate_kept _ _ _ ?_)
    | with_reducible apply State.countRequest_kept
    | (with_reducible apply Kept.unmk; dsimp only; with_reducible apply Kept.ofF)
    | split

theorem State.ntpProgram_kept (s : State) (c : Ctx) (p : Pkt) (table : Bool) (late : Bool) {s0 : State} (hK : Kept s0 s) :
    Kept s0 (State.ntpProgram s c p table late) := by
  unfold State.ntpProgram
  repeat' first
    | with_reducible assumption
    | ((try lift_lets -underBinder); intro x; first
        | (have hx : Kept s0 x := ?_; rotate_left; subst x; rotate_left; clear_value x)
        | (have : MemUnits := x; subst x)
        | clear_value x
        | skip)
    | with_reducible apply State.bDrop_kept
    | with_reducible apply State.tableChecks_kept
    | with_reducible refine Kept.pair2 ‹_ = _› (State.tableChecks_kept _ _ _ ?_)
    | with_reducible apply State.kodSent_kept
    | with_reducible apply State.bump_kept
    | with_reducible apply State.ntpReply_kept
    | (with_reducible apply Kept.unmk; dsimp only; with_reducible apply Kept.ofF)
    | (intro _; intros; try beta_reduce)
    | split

theorem State.tryCookie_kept (s : State) (c : Ctx) (b : Bytes) {s0 : State} (hK : Kept s0 s) :
    Kept s0 (State.tryCookie s c b).2 := by
  unfold State.tryCookie
  repeat' first
    | with_reducible assumption
    | ((try lift_lets -underBinder); intro x; first
        | (have hx : Kept s0 x := ?_; rotate_left; subst x; rotate_left; clear_value x)
        | (have : MemUnits := x; subst x)
        | clear_value x
        | skip)
    | with_reducible apply State.countJob_kept
    | with_reducible apply State.bump_kept
    | (with_reducible apply Kept.unmk; dsimp only; with_reducible apply Kept.ofF)
    | split

theorem State.sealCookie_kept (s : State) (c2s : Bytes) (s2c : Bytes) (alg17 : Bool) {s0 : State} (hK : Kept s0 s) :
    Kept s0 (State.sealCookie s c2s s2c alg17).2 := by
  unfold State.sealCookie
  repeat' first
    | with_reducible assumption
    | ((try lift_lets -underBinder); intro x; first
        | (have hx : Kept s0 x := ?_; rotate_left; subst x; rotate_left; clear_value x)
        | (have : MemUnits := x; subst x)
        | clear_value x
        | skip)
    | with_reducible apply State.random_kept

theorem State.newCookies_kept (s : State) (c2s : Bytes) (s2c : Bytes) (alg17 : Bool) (n : Nat) {s0 : State} (hK : Kept s0 s) :
    Kept s0 (State.newCookies s c2s s2c alg17 n).2 := by
  induction n generalizing s with
  | zero => exact hK
  | succ n ih =>
    rw [State.newCookies]
    repeat' first
      | with_reducible assumption
      | ((try lift_lets -underBinder); intro x; first
          | (have hx : Kept s0 x := ?_; rotate_left; subst x; rotate_left; clear_value x)
          | (have : MemUnits := x; subst x)
          | clear_value x
          | skip)
      | with_reducible apply ih
      | with_reducible apply State.sealCookie_kept

theorem State.ntsAnswer_kept (s : State) (c : Ctx) (p : Pkt) (q : Bytes) (r : NtsRequest) (alg17 : Bool) (keys : Bytes × Bytes) (chk : Checked) {s0 : State} (hK : Kept s0 s) :
    Kept s0 (State.ntsAnswer s c p q r alg17 keys chk) := by
  unfold State.ntsAnswer
  repeat' first
    | with_reducible assumption
    | ((try lift_lets -underBinder); intro x; first
        | (have hx : Kept s0 x := ?_; rotate_left; subst x; rotate_left; clear_value x)
        | (have hx : Kept s0 x.2 := ?_; rotate_left; subst x; rotate_left; clear_value x)
        | (have hx : Kept s0 x.1 := ?_; rotate_left; subst x; rotate_left; clear_value x)
        | (have : MemUnits := x; subst x)
        | clear_value x
        | skip)
    | with_reducible apply State.countJob_kept
    | with_reducible apply State.bDrop_kept
    | with_reducible apply State.kodSent_kept
    | with_reducible apply State.newCookies_kept
    | with_reducible refine Kept.pair2 ‹_ = _› (State.newCookies_kept _ _ _ _ _ ?_)
    | with_reducible apply State.random_kept
    | with_reducible refine Kept.pair2 ‹_ = _› (State.random_kept _ _ ?_)
    | with_reducible apply State.sealed_kept
    | with_reducible refine Kept.pair2 ‹_ = _› (State.sealed_kept _ _ _ ?_)
    | with_reducible apply State.bump_kept
    | with_reducible apply State.ntpReply_kept
    | (with_reducible apply Kept.unmk; dsimp only; with_reducible apply Kept.ofF)
    | split

theorem State.ntsProgram_kept (s : State) (c : Ctx) (p : Pkt) (late : Bool) {s0 : State} (hK : Kept s0 s) :
    Kept s0 (State.ntsProgram s c p late) := by
  unfold State.ntsProgram
  repeat' first
    | with_reducible assumption
    | ((try lift_lets -underBinder); intro x; first
        | (have hx : Kept s0 x := ?_; rotate_left; subst x; rotate_left; clear_value x)
        | (have hx : Kept s0 x.2 := ?_; rotate_left; subst x; rotate_left; clear_value x)
        | (have hx : Kept s0 x.1 := ?_; rotate_left; subst x; rotate_left; clear_value x)
        | (have : MemUnits := x; subst x)
        | clear_value x
        | skip)
    | with_reducible apply State.bDrop_kept
    | with_reducible apply State.tableChecks_kept
    | with_reducible refine Kept.pair2 ‹_ = _› (State.tableChecks_kept _ _ _ ?_)
    | with_reducible apply State.bump_kept
    | with_reducible apply State.tryCookie_kept
    | with_reducible refine Kept.pair2 ‹_ = _› (State.tryCookie_kept _ _ _ ?_)
    | with_reducible apply State.ntpReply_kept
    | with_reducible apply State.ntsAnswer_kept
    | (with_reducible apply Kept.unmk; dsimp only; with_reducible apply Kept.ofF)
    | split

theorem State.pdelayDone_kept (s : State) (i : Fin 4) (n : Nat) (t3 : Int) {s0 : State} (hK : Kept s0 s) :
    Kept s0 (State.pdelayDone s i n t3) := by
  unfold State.pdelayDone
  repeat' first
    | with_reducible assumption
    | ((try lift_lets -underBinder); intro x; first
        | (have hx : Kept s0 x := ?_; rotate_left; subst x; rotate_left; clear_value x)
        | (have : MemUnits := x; subst x)
        | clear_value x
        | skip)
    | with_reducible apply State.setPtpPort_kept
    | with_reducible apply State.putN_kept
    | (with_reducible apply Kept.unmk; dsimp only; with_reducible apply Kept.ofF)
    | split

theorem State.syncMeasure_kept (s : State) (i : Fin 4) (n : Nat) (stamp : Nat) (origin : Int) {s0 : State} (hK : Kept s0 s) :
    Kept s0 (State.syncMeasure s i n stamp origin) := by
  unfold State.syncMeasure
  repeat' first
    | with_reducible assumption
    | ((try lift_lets -underBinder); intro x; first
        | (have hx : Kept s0 x := ?_; rotate_left; subst x; rotate_left; clear_value x)
        | (have : MemUnits := x; subst x)
        | clear_value x
        | skip)
    | with_reducible apply State.setPtpState_kept
    | with_reducible apply State.slotMeasure_kept
    | with_reducible refine Kept.foldl ?_ fun _ _ _ => ?_
    | (intro _; intros; try beta_reduce)
    | split

theorem State.syncKnown_kept (s : State) (i : Fin 4) (n : Nat) (stamp : Nat) (t2 : Int) (origin : Int) {s0 : State} (hK : Kept s0 s) :
    Kept s0 (State.syncKnown s i n stamp t2 origin) := by
  unfold State.syncKnown
  repeat' first
    | with_reducible assumption
    | ((try lift_lets -underBinder); intro x; first
        | (have hx : Kept s0 x := ?_; rotate_left; subst x; rotate_left; clear_value x)
        | (have : MemUnits := x; subst x)
        | clear_value x
        | skip)
    | with_reducible apply State.setPtpPort_kept
    | with_reducible apply State.syncMeasure_kept

theorem State.signal_kept (s : State) (i : Fin 4) (p : Pkt) (msg : Bytes) (late : Bool) (n : Nat) (o : Nat) {s0 : State} (hK : Kept s0 s) :
    Kept s0 (State.signal s i p msg late n o).2 := by
  induction n generalizing s o with
  | zero => exact hK
  | succ n ih =>
    rw [State.signal]
    repeat' first
      | with_reducible assumption
      | ((try lift_lets -underBinder); intro x; first
          | (have hx : Kept s0 x := ?_; rotate_left; subst x; rotate_left; clear_value x)
          | (have hx : Kept s0 x.2 := ?_; rotate_left; subst x; rotate_left; clear_value x)
          | (have hf1 : ∀ s, Kept s0 s → Kept s0 (x s) := ?_; rotate_left; subst x; intros; beta_reduce; rotate_left; clear_value x)
          | (have hf2 : ∀ s a, Kept s0 s → Kept s0 (x s a) := ?_; rotate_left; subst x; intros; beta_reduce; rotate_left; clear_value x)
          | (have hf3 : ∀ s a b, Kept s0 s → Kept s0 (x s a b) := ?_; rotate_left; subst x; intros; beta_reduce; rotate_left; clear_value x)
          | (have hf4 : ∀ a s, Kept s0 s → Kept s0 (x a s) := ?_; rotate_left; subst x; intros; beta_reduce; rotate_left; clear_value x)
          | (have : MemUnits := x; subst x)
          | clear_value x
          | skip)
      | with_reducible apply ih
      | with_reducible apply State.log_kept
      | with_reducible apply State.stateless_kept
      | with_reducible apply State.ctCreate_kept
      | with_reducible refine Kept.pair2 ‹_ = _› (State.ctCreate_kept _ _ _ ?_)
      | with_reducible apply State.ctWrite_kept
      | with_reducible apply State.bump_kept
      | with_reducible apply State.setInst_kept
      | with_reducible apply hf1
      | with_reducible apply hf2
      | with_reducible apply hf3
      | with_reducible apply hf4
      | (with_reducible apply Kept.unmk; dsimp only; with_reducible apply Kept.ofF)
      | (intro _; intros; try beta_reduce)
      | split

theorem State.ptpProgram_kept (s : State) (c : Ctx) (p : Pkt) (late : Bool) {s0 : State} (hK : Kept s0 s) :
    Kept s0 (State.ptpProgram s c p late) := by
  unfold State.ptpProgram
  repeat' first
    | with_reducible assumption
    | ((try lift_lets -underBinder); intro x; first
        | (have hx : Kept s0 x := ?_; rotate_left; subst x; rotate_left; clear_value x)
        | (have hx : Kept s0 x.2 := ?_; rotate_left; subst x; rotate_left; clear_value x)
        | (have : MemUnits := x; subst x)
        | clear_value x
        | skip)
    | with_reducible apply State.bDrop_kept
    | with_reducible apply State.secured?_kept
    | with_reducible refine Kept.pair2 ‹_ = _› (State.secured?_kept _ _ _ ?_)
    | with_reducible apply State.setPtpPort_kept
    | with_reducible apply State.syncKnown_kept
    | with_reducible apply State.bump_kept
    | with_reducible apply State.bEmit_kept
    | with_reducible apply State.lookupChecks_kept
    | with_reducible refine Kept.pair2 ‹_ = _› (State.lookupChecks_kept _ _ _ _ _ ?_)
    | with_reducible apply State.putN_kept
    | with_reducible apply State.pdelayDone_kept
    | with_reducible apply State.signal_kept
    | with_reducible refine Kept.pair2 ‹_ = _› (State.signal_kept _ _ _ _ _ _ _ ?_)
    | with_reducible apply State.setInst_kept
    | with_reducible apply State.countE_kept
    | with_reducible apply State.endThread_kept
    | with_reducible apply State.toRing_kept
    | (with_reducible apply Kept.unmk; dsimp only; with_reducible apply Kept.ofF)
    | (intro _; intros; try beta_reduce)
    | split

theorem State.timerProgram_kept (s : State) (c : Ctx) (w : Work) {s0 : State} (hK : Kept s0 s) :
    Kept s0 (State.timerProgram s c w) := by
  unfold State.timerProgram
  repeat' first
    | with_reducible assumption
    | ((try lift_lets -underBinder); intro x; first
        | (have hx : Kept s0 x := ?_; rotate_left; subst x; rotate_left; clear_value x)
        | (have hf1 : ∀ s, Kept s0 s → Kept s0 (x s) := ?_; rotate_left; subst x; intros; beta_reduce; rotate_left; clear_value x)
        | (have hf2 : ∀ s a, Kept s0 s → Kept s0 (x s a) := ?_; rotate_left; subst x; intros; beta_reduce; rotate_left; clear_value x)
        | (have hf3 : ∀ s a b, Kept s0 s → Kept s0 (x s a b) := ?_; rotate_left; subst x; intros; beta_reduce; rotate_left; clear_value x)
        | (have hf4 : ∀ a s, Kept s0 s → Kept s0 (x a s) := ?_; rotate_left; subst x; intros; beta_reduce; rotate_left; clear_value x)
        | (have : MemUnits := x; subst x)
        | clear_value x
        | skip)
    | with_reducible apply State.bDrop_kept
    | with_reducible apply State.ctWrite_kept
    | with_reducible apply State.bump_kept
    | with_reducible apply State.bEmit_kept
    | with_reducible apply State.setPtpPort_kept
    | with_reducible apply hf1
    | with_reducible apply hf2
    | with_reducible apply hf3
    | with_reducible apply hf4
    | (with_reducible apply Kept.unmk; dsimp only; with_reducible apply Kept.ofF)
    | (intro _; intros; try beta_reduce)
    | split

theorem State.runBuiltin_kept (s : State) (c : Ctx) (entry : Nat) (late : Bool) {s0 : State} (hK : Kept s0 s) :
    Kept s0 (State.runBuiltin s c entry late) := by
  unfold State.runBuiltin
  repeat' first
    | with_reducible assumption
    | ((try lift_lets -underBinder); intro x; first
        | (have hx : Kept s0 x := ?_; rotate_left; subst x; rotate_left; clear_value x)
        | (have : MemUnits := x; subst x)
        | clear_value x
        | skip)
    | with_reducible apply State.setThread_kept
    | with_reducible apply State.setEngine_kept
    | with_reducible apply State.issueSlots_kept
    | with_reducible apply State.bump_kept
    | with_reducible apply State.countP_kept
    | with_reducible apply State.bDrop_kept
    | with_reducible apply State.ntpProgram_kept
    | with_reducible apply State.ntsProgram_kept
    | with_reducible apply State.ptpProgram_kept
    | with_reducible apply State.timerProgram_kept
    | (with_reducible apply Kept.unmk; dsimp only; with_reducible apply Kept.ofF)
    | split

theorem State.afterFix_kept (s : State) (n : Fin 64) (a : After) (stamp : Nat) {s0 : State} (hK : Kept s0 s) :
    Kept s0 (State.afterFix s n a stamp) := by
  unfold State.afterFix
  repeat' first
    | with_reducible assumption
    | ((try lift_lets -underBinder); intro x; first
        | (have hx : Kept s0 x := ?_; rotate_left; subst x; rotate_left; clear_value x)
        | (have hx : Kept s0 x.2 := ?_; rotate_left; subst x; rotate_left; clear_value x)
        | (have hx : Kept s0 x.1 := ?_; rotate_left; subst x; rotate_left; clear_value x)
        | (have : MemUnits := x; subst x)
        | clear_value x
        | skip)
    | with_reducible apply State.ctWrite_kept
    | with_reducible apply State.bump_kept
    | with_reducible apply State.toEgress_kept
    | with_reducible apply State.setPtpPort_kept
    | (with_reducible apply Kept.unmk; dsimp only; with_reducible apply Kept.ofF)
    | split

end Sys2Proof.Machine
end

