-- ==== Sys2Proof/Laws/Kept/Threads.lean ====
section
/-! SUPPORT. What the operations of Machine/Threads.lean keep. -/

namespace Sys2Proof.Machine

theorem State.beginBuiltin_kept (s : State) (c : Ctx) (entry : Nat) {s0 : State} (hK : Kept s0 s) :
    Kept s0 (State.beginBuiltin s c entry) := by
  unfold State.beginBuiltin
  repeat' first
    | with_reducible assumption
    | ((try lift_lets -underBinder); intro x; first
        | (have hx : Kept s0 x := ?_; rotate_left; subst x; rotate_left; clear_value x)
        | (have : MemUnits := x; subst x)
        | clear_value x
        | skip)
    | with_reducible apply State.countE_kept
    | with_reducible apply State.runBuiltin_kept
    | with_reducible apply State.setThread_kept
    | (with_reducible apply Kept.unmk; dsimp only; with_reducible apply Kept.ofF)
    | (intro _; intros; try beta_reduce)
    | split

theorem State.startThread_kept (s : State) (e : Fin 8) (t : Fin 16) (w : Work) {s0 : State} (hK : Kept s0 s) :
    Kept s0 (State.startThread s e t w) := by
  unfold State.startThread
  repeat' first
    | with_reducible assumption
    | ((try lift_lets -underBinder); intro x; first
        | (have hx : Kept s0 x := ?_; rotate_left; subst x; rotate_left; clear_value x)
        | (have : MemUnits := x; subst x)
        | clear_value x
        | skip)
    | with_reducible apply State.setThread_kept
    | with_reducible apply State.countE_kept
    | with_reducible apply State.beginBuiltin_kept
    | (with_reducible apply Kept.unmk; dsimp only; with_reducible apply Kept.ofF)
    | split

theorem execThreadStart_kept (engine : Fin 8) (thread : Fin 16) (s : State) {s0 : State} (hK : Kept s0 s) :
    KeptO s0 (execThreadStart engine thread s) := by
  unfold execThreadStart
  repeat' first
    | with_reducible assumption
    | ((try lift_lets -underBinder); intro x; first
        | (have hx : Kept s0 x := ?_; rotate_left; subst x; rotate_left; clear_value x)
        | skip)
    | with_reducible apply KeptO.next
    | with_reducible apply State.setEngine_kept
    | with_reducible apply State.bump_kept
    | with_reducible apply State.count_kept
    | with_reducible apply State.startThread_kept
    | (with_reducible apply Kept.unmk; dsimp only; with_reducible apply Kept.ofF)
    | split

theorem State.progFault_kept (s : State) (e : Fin 8) (t : Fin 16) (cause : Nat) {s0 : State} (hK : Kept s0 s) :
    Kept s0 (State.progFault s e t cause) := by
  unfold State.progFault
  repeat' first
    | with_reducible assumption
    | ((try lift_lets -underBinder); intro x; first
        | (have hx : Kept s0 x := ?_; rotate_left; subst x; rotate_left; clear_value x)
        | (have : MemUnits := x; subst x)
        | clear_value x
        | skip)
    | with_reducible apply State.bump_kept
    | with_reducible apply State.countE_kept
    | with_reducible apply State.setEngine_kept
    | with_reducible apply State.log_kept
    | with_reducible apply State.endThread_kept
    | (with_reducible apply Kept.unmk; dsimp only; with_reducible apply Kept.ofF)
    | split

theorem execInstructionLimit_kept (engine : Fin 8) (thread : Fin 16) (s : State) {s0 : State} (hK : Kept s0 s) :
    KeptO s0 (execInstructionLimit engine thread s) := by
  unfold execInstructionLimit
  repeat' first
    | with_reducible assumption
    | ((try lift_lets -underBinder); intro x; first
        | (have hx : Kept s0 x := ?_; rotate_left; subst x; rotate_left; clear_value x)
        | (have : MemUnits := x; subst x)
        | clear_value x
        | skip)
    | with_reducible apply KeptO.next
    | with_reducible apply State.bump_kept
    | with_reducible apply State.countE_kept
    | with_reducible apply State.setEngine_kept
    | with_reducible apply State.log_kept
    | with_reducible apply State.endThread_kept
    | (with_reducible apply Kept.unmk; dsimp only; with_reducible apply Kept.ofF)
    | split

theorem State.lookupAnswer_kept (s : State) (e : Fin 8) (t : Fin 16) (dest : Nat) (status : Nat) (entry : Option Nat) {s0 : State} (hK : Kept s0 s) :
    Kept s0 (State.lookupAnswer s e t dest status entry) := by
  unfold State.lookupAnswer
  repeat' first
    | with_reducible assumption
    | ((try lift_lets -underBinder); intro x; first
        | (have hx : Kept s0 x := ?_; rotate_left; subst x; rotate_left; clear_value x)
        | (have : MemUnits := x; subst x)
        | clear_value x
        | skip)
    | with_reducible apply State.setThread_kept

theorem State.runLookup_kept (s : State) (e : Fin 8) (t : Fin 16) (create : Bool) (dest : Nat) (kind : Nat) (inst : Nat) (take : Bool) {s0 : State} (hK : Kept s0 s) :
    KeptS s0 (State.runLookup s e t create dest kind inst take) := by
  unfold State.runLookup
  repeat' first
    | with_reducible assumption
    | ((try lift_lets -underBinder); intro x; first
        | (have hx : Kept s0 x := ?_; rotate_left; subst x; rotate_left; clear_value x)
        | (have : MemUnits := x; subst x)
        | clear_value x
        | skip)
    | with_reducible apply KeptS.some
    | with_reducible exact KeptS.none
    | with_reducible apply State.ctTouch_kept
    | with_reducible refine Kept.pair2 ‹_ = _› (State.ctTouch_kept _ _ _ ?_)
    | with_reducible apply State.lookupAnswer_kept
    | with_reducible apply State.ctCreate_kept
    | with_reducible refine Kept.pair2 ‹_ = _› (State.ctCreate_kept _ _ _ ?_)
    | (with_reducible apply Kept.unmk; dsimp only; with_reducible apply Kept.ofF)
    | split

theorem execClientLookupComplete_kept (engine : Fin 8) (thread : Fin 16) (s : State) {s0 : State} (hK : Kept s0 s) :
    KeptO s0 (execClientLookupComplete engine thread s) := by
  unfold execClientLookupComplete
  repeat' first
    | with_reducible assumption
    | ((try lift_lets -underBinder); intro x; first
        | (have hx : Kept s0 x := ?_; rotate_left; subst x; rotate_left; clear_value x)
        | (have hx : KeptS s0 x := ?_; rotate_left; subst x; rotate_left; clear_value x)
        | (have : MemUnits := x; subst x)
        | clear_value x
        | skip)
    | with_reducible apply KeptO.next
    | with_reducible apply State.bump_kept
    | with_reducible apply State.countE_kept
    | with_reducible apply State.lookupAnswer_kept
    | with_reducible apply State.runLookup_kept
    | with_reducible refine (State.runLookup_kept _ _ _ _ _ _ _ _ ?_).ofSome _ ‹_›
    | with_reducible apply State.setThread_kept
    | with_reducible apply State.runBuiltin_kept
    | with_reducible exact (‹KeptS s0 _›).ofSome _ ‹_›
    | with_reducible exact (‹KeptS s0 (some _)›).ofSome _ rfl
    | (with_reducible apply Kept.unmk; dsimp only; with_reducible apply Kept.ofF)
    | (intro _; intros; try beta_reduce)
    | split

theorem execAesJobComplete_kept (engine : Fin 8) (thread : Fin 16) (tag : Nat) (s : State) {s0 : State} (hK : Kept s0 s) :
    KeptO s0 (execAesJobComplete engine thread tag s) := by
  unfold execAesJobComplete
  repeat' first
    | with_reducible assumption
    | ((try lift_lets -underBinder); intro x; first
        | (have hx : Kept s0 x := ?_; rotate_left; subst x; rotate_left; clear_value x)
        | (have : MemUnits := x; subst x)
        | clear_value x
        | skip)
    | with_reducible apply KeptO.next
    | with_reducible apply State.bump_kept
    | with_reducible apply State.setThread_kept
    | (with_reducible apply Kept.unmk; dsimp only; with_reducible apply Kept.ofF)
    | (intro _; intros; try beta_reduce)
    | split

theorem State.moveBuckets_kept (s : State) {s0 : State} (hK : Kept s0 s) :
    Kept s0 (State.moveBuckets s) := by
  unfold State.moveBuckets
  repeat' first
    | with_reducible assumption
    | ((try lift_lets -underBinder); intro x; first
        | (have hx : Kept s0 x := ?_; rotate_left; subst x; rotate_left; clear_value x)
        | (have : MemUnits := x; subst x)
        | clear_value x
        | skip)
    | with_reducible apply State.putN_kept
    | with_reducible apply State.enqueue_kept
    | with_reducible refine Kept.foldl ?_ fun _ _ _ => ?_
    | (with_reducible apply Kept.unmk; dsimp only; with_reducible apply Kept.ofF)
    | (intro _; intros; try beta_reduce)
    | split

theorem execConsolidationEvaluate_kept (s : State) {s0 : State} (hK : Kept s0 s) :
    KeptO s0 (execConsolidationEvaluate s) := by
  unfold execConsolidationEvaluate
  repeat' first
    | with_reducible assumption
    | ((try lift_lets -underBinder); intro x; first
        | (have hx : Kept s0 x := ?_; rotate_left; subst x; rotate_left; clear_value x)
        | (have : MemUnits := x; subst x)
        | clear_value x
        | skip)
    | with_reducible apply KeptO.next
    | with_reducible apply State.wakePair_kept
    | with_reducible apply State.moveBuckets_kept
    | with_reducible refine Kept.foldl ?_ fun _ _ _ => ?_
    | (with_reducible apply Kept.unmk; dsimp only; with_reducible apply Kept.ofF)
    | (intro _; intros; try beta_reduce)
    | split

theorem execPairGate_kept (pair : Fin 4) (s : State) {s0 : State} (hK : Kept s0 s) :
    KeptO s0 (execPairGate pair s) := by
  unfold execPairGate
  repeat' first
    | with_reducible assumption
    | ((try lift_lets -underBinder); intro x; first
        | (have hx : Kept s0 x := ?_; rotate_left; subst x; rotate_left; clear_value x)
        | (have : MemUnits := x; subst x)
        | clear_value x
        | skip)
    | with_reducible apply KeptO.next
    | with_reducible apply State.log_kept
    | (with_reducible apply Kept.unmk; dsimp only; with_reducible apply Kept.ofF)
    | (intro _; intros; try beta_reduce)
    | split

theorem execPairWakeComplete_kept (pair : Fin 4) (s : State) {s0 : State} (hK : Kept s0 s) :
    KeptO s0 (execPairWakeComplete pair s) := by
  unfold execPairWakeComplete
  repeat' first
    | with_reducible assumption
    | ((try lift_lets -underBinder); intro x; first
        | (have hx : Kept s0 x := ?_; rotate_left; subst x; rotate_left; clear_value x)
        | (have : MemUnits := x; subst x)
        | clear_value x
        | skip)
    | with_reducible apply KeptO.next
    | with_reducible apply State.bump_kept
    | with_reducible apply State.log_kept
    | with_reducible apply State.moveBuckets_kept
    | (with_reducible apply Kept.unmk; dsimp only; with_reducible apply Kept.ofF)
    | split

theorem execTimerWheelSlot_kept (s : State) {s0 : State} (hK : Kept s0 s) :
    KeptO s0 (execTimerWheelSlot s) := by
  unfold execTimerWheelSlot
  repeat' first
    | with_reducible assumption
    | ((try lift_lets -underBinder); intro x; first
        | (have hx : Kept s0 x := ?_; rotate_left; subst x; rotate_left; clear_value x)
        | (have : MemUnits := x; subst x)
        | clear_value x
        | skip)
    | with_reducible apply KeptO.next
    | with_reducible apply State.setCt_kept
    | with_reducible apply State.qualifyPorts_kept
    | with_reducible apply State.count_kept
    | with_reducible apply State.enqueue_kept
    | with_reducible refine Kept.foldl ?_ fun _ _ _ => ?_
    | (with_reducible apply Kept.unmk; dsimp only; with_reducible apply Kept.ofF)
    | (intro _; intros; try beta_reduce)
    | split

theorem State.startVerify_kept (s : State) (image : Bytes) {s0 : State} (hK : Kept s0 s) :
    Kept s0 (State.startVerify s image) := by
  unfold State.startVerify
  repeat' first
    | with_reducible assumption
    | ((try lift_lets -underBinder); intro x; first
        | (have hx : Kept s0 x := ?_; rotate_left; subst x; rotate_left; clear_value x)
        | (have : MemUnits := x; subst x)
        | clear_value x
        | skip)
    | with_reducible apply State.staging_kept
    | with_reducible apply State.putN_kept
    | (with_reducible apply Kept.unmk; dsimp only; with_reducible apply Kept.ofF)

theorem execProgramVerify_kept (image : Bytes) (s : State) {s0 : State} (hK : Kept s0 s) :
    KeptO s0 (execProgramVerify image s) := by
  unfold execProgramVerify
  repeat' first
    | with_reducible assumption
    | with_reducible apply KeptO.next
    | with_reducible apply State.startVerify_kept
    | split

theorem execProgramVerifyComplete_kept (s : State) {s0 : State} (hK : Kept s0 s) :
    KeptO s0 (execProgramVerifyComplete s) := by
  unfold execProgramVerifyComplete
  repeat' first
    | with_reducible assumption
    | ((try lift_lets -underBinder); intro x; first
        | (have hx : Kept s0 x := ?_; rotate_left; subst x; rotate_left; clear_value x)
        | (have : MemUnits := x; subst x)
        | clear_value x
        | skip)
    | with_reducible apply KeptO.next
    | with_reducible apply State.staging_kept
    | with_reducible apply State.putN_kept
    | with_reducible apply State.log_kept
    | (with_reducible apply Kept.unmk; dsimp only; with_reducible apply Kept.ofF)
    | split

theorem State.loadImage_kept (s : State) (b : Bytes) {s0 : State} (hK : Kept s0 s) :
    Kept s0 (State.loadImage s b) := by
  unfold State.loadImage
  repeat' first
    | with_reducible assumption
    | ((try lift_lets -underBinder); intro x; first
        | (have hx : Kept s0 x := ?_; rotate_left; subst x; rotate_left; clear_value x)
        | (have : MemUnits := x; subst x)
        | clear_value x
        | skip)
    | with_reducible apply State.putN_kept
    | (with_reducible apply Kept.unmk; dsimp only; with_reducible apply Kept.ofF)

theorem State.beginActivation_kept (s : State) (persist : Bool) {s0 : State} (hK : Kept s0 s) :
    Kept s0 (State.beginActivation s persist) := by
  unfold State.beginActivation
  repeat' first
    | with_reducible assumption
    | ((try lift_lets -underBinder); intro x; first
        | (have hx : Kept s0 x := ?_; rotate_left; subst x; rotate_left; clear_value x)
        | (have : MemUnits := x; subst x)
        | clear_value x
        | skip)
    | (with_reducible apply Kept.unmk; dsimp only; with_reducible apply Kept.ofF)

theorem execProgramActivate_kept (s : State) {s0 : State} (hK : Kept s0 s) :
    KeptO s0 (execProgramActivate s) := by
  unfold execProgramActivate
  repeat' first
    | with_reducible assumption
    | ((try lift_lets -underBinder); intro x; first
        | (have hx : Kept s0 x := ?_; rotate_left; subst x; rotate_left; clear_value x)
        | (have : MemUnits := x; subst x)
        | clear_value x
        | skip)
    | with_reducible apply KeptO.next
    | with_reducible apply State.loadImage_kept
    | with_reducible apply State.putN_kept
    | with_reducible apply State.putB_kept
    | with_reducible apply State.log_kept
    | (with_reducible apply Kept.unmk; dsimp only; with_reducible apply Kept.ofF)
    | (intro _; intros; try beta_reduce)
    | split

theorem State.clearCounters_kept (s : State) {s0 : State} (hK : Kept s0 s) :
    Kept s0 (State.clearCounters s) := by
  unfold State.clearCounters
  repeat' first
    | with_reducible assumption
    | with_reducible apply State.putN_kept
    | with_reducible apply State.putB_kept
    | with_reducible refine Kept.foldl ?_ fun _ _ _ => ?_

theorem execProgramCounterClear_kept (s : State) {s0 : State} (hK : Kept s0 s) :
    KeptO s0 (execProgramCounterClear s) := by
  unfold execProgramCounterClear
  repeat' first
    | with_reducible assumption
    | with_reducible apply KeptO.next
    | with_reducible apply State.clearCounters_kept
    | split

end Sys2Proof.Machine
end

