-- ==== Sys2Proof/Laws/Kept/Egress.lean ====
section
/-! SUPPORT. What the operations of Machine/Egress.lean keep. -/

namespace Sys2Proof.Machine

theorem State.wakeLine_kept (s : State) (n : Fin 64) {s0 : State} (hK : Kept s0 s) :
    Kept s0 (State.wakeLine s n) := by
  unfold State.wakeLine
  repeat' first
    | with_reducible assumption
    | ((try lift_lets -underBinder); intro x; first
        | (have hx : Kept s0 x := ?_; rotate_left; subst x; rotate_left; clear_value x)
        | (have : MemUnits := x; subst x)
        | clear_value x
        | skip)
    | with_reducible apply State.endLpi_kept
    | with_reducible apply State.setPort_kept

theorem State.calSent_kept (s : State) (n : Fin 64) (seq : Nat) (stamp : Nat) {s0 : State} (hK : Kept s0 s) :
    Kept s0 (State.calSent s n seq stamp) := by
  unfold State.calSent
  repeat' first
    | with_reducible assumption
    | ((try lift_lets -underBinder); intro x; first
        | (have hx : Kept s0 x := ?_; rotate_left; subst x; rotate_left; clear_value x)
        | (have : MemUnits := x; subst x)
        | clear_value x
        | skip)
    | with_reducible apply State.pairStamp_kept
    | (with_reducible apply Kept.unmk; dsimp only; with_reducible apply Kept.ofF)
    | (intro _; intros; try beta_reduce)
    | split

theorem State.fixFrame_kept (s : State) (n : Fin 64) (f : EFrame) (d : Nat) (edge : Rat) (o : Nat) {s0 : State} (hK : Kept s0 s) :
    Kept s0 (State.fixFrame s n f d edge o) := by
  unfold State.fixFrame
  repeat' first
    | with_reducible assumption
    | ((try lift_lets -underBinder); intro x; first
        | (have hx : Kept s0 x := ?_; rotate_left; subst x; rotate_left; clear_value x)
        | (have hx : Kept s0 x.2 := ?_; rotate_left; subst x; rotate_left; clear_value x)
        | (have : MemUnits := x; subst x)
        | clear_value x
        | skip)
    | with_reducible apply State.setPort_kept
    | with_reducible apply State.calSent_kept
    | with_reducible apply State.emitDone_kept
    | with_reducible apply State.afterFix_kept
    | (with_reducible apply Kept.unmk; dsimp only; with_reducible apply Kept.ofF)
    | split

theorem execDepartureFix_kept (port : Fin 64) (word : Nat) (o : Nat) (s : State) {s0 : State} (hK : Kept s0 s) :
    KeptO s0 (execDepartureFix port word o s) := by
  unfold execDepartureFix
  repeat' first
    | with_reducible assumption
    | ((try lift_lets -underBinder); intro x; first
        | (have hx : Kept s0 x := ?_; rotate_left; subst x; rotate_left; clear_value x)
        | (have : MemUnits := x; subst x)
        | clear_value x
        | skip)
    | with_reducible apply KeptO.next
    | with_reducible apply State.wakeLine_kept
    | with_reducible apply State.setPort_kept
    | with_reducible apply State.bump_kept
    | with_reducible apply State.countP_kept
    | with_reducible apply State.emitDone_kept
    | with_reducible apply State.fixFrame_kept
    | (with_reducible apply Kept.unmk; dsimp only; with_reducible apply Kept.ofF)
    | split

theorem execFrameDeparture_kept (port : Fin 64) (err : Rat) (s : State) {s0 : State} (hK : Kept s0 s) :
    KeptO s0 (execFrameDeparture port err s) := by
  unfold execFrameDeparture
  repeat' first
    | with_reducible assumption
    | ((try lift_lets -underBinder); intro x; first
        | (have hx : Kept s0 x := ?_; rotate_left; subst x; rotate_left; clear_value x)
        | (have : MemUnits := x; subst x)
        | clear_value x
        | skip)
    | with_reducible apply KeptO.next
    | with_reducible apply State.setPort_kept
    | with_reducible apply State.bump_kept
    | with_reducible apply State.countP_kept
    | with_reducible apply State.count_kept
    | with_reducible apply State.putN_kept
    | with_reducible apply State.setSentinel_kept
    | with_reducible apply State.log_kept
    | (with_reducible apply Kept.unmk; dsimp only; with_reducible apply Kept.ofF)
    | split

end Sys2Proof.Machine
end

