-- ==== Sys2Proof/Laws/Kept/Memory.lean ====
section
/-! SUPPORT. What the operations of Machine/Memory.lean keep. -/

namespace Sys2Proof.Machine

/-- A write of bytes keeps the canonical form of every space. -/
theorem MemUnits.wf_write (u : MemUnits) (sp a : Nat) (b : Bytes)
    (w : memWf u.sram = true ∧ memWf u.dram = true ∧ memWf u.key = true) :
    memWf (u.write sp a b).sram = true ∧ memWf (u.write sp a b).dram = true ∧ memWf (u.write sp a b).key = true := by
  unfold MemUnits.write MemUnits.space
  dsimp only
  split
  · exact ⟨memWf_write a b w.1, w.2⟩
  · split
    · exact ⟨w.1, memWf_write a b w.2.1, w.2.2⟩
    · exact ⟨w.1, w.2.1, memWf_write a b w.2.2⟩

theorem State.bnWrite_kept (s : State) (a : Nat) (b : Bytes) {s0 : State} (h : Kept s0 s) : Kept s0 (State.bnWrite s a b) :=
  ⟨h.1, h.2.1, h.2.2.1, h.2.2.2.1, fun w => ⟨(h.2.2.2.2 w).1, MemUnits.wf_write _ _ _ _ (h.2.2.2.2 w).2⟩⟩

theorem State.bnShow_kept (s : State) {s0 : State} (hK : Kept s0 s) :
    Kept s0 (State.bnShow s) := by
  unfold State.bnShow
  repeat' first
    | with_reducible assumption
    | with_reducible apply State.putN_kept

theorem State.bnEnd_kept (s : State) (st : Nat) {s0 : State} (hK : Kept s0 s) :
    Kept s0 (State.bnEnd s st) := by
  unfold State.bnEnd
  repeat' first
    | with_reducible assumption
    | ((try lift_lets -underBinder); intro x; first
        | (have hx : Kept s0 x := ?_; rotate_left; subst x; rotate_left; clear_value x)
        | (have : MemUnits := x; subst x)
        | clear_value x
        | skip)
    | with_reducible apply State.bump_kept
    | with_reducible apply State.count_kept
    | with_reducible apply State.bnShow_kept
    | (with_reducible apply Kept.unmk; dsimp only; with_reducible apply Kept.ofF)
    | split

theorem State.bnFetch_kept (s : State) {s0 : State} (hK : Kept s0 s) :
    Kept s0 (State.bnFetch s) := by
  unfold State.bnFetch
  repeat' first
    | with_reducible assumption
    | ((try lift_lets -underBinder); intro x; first
        | (have hx : Kept s0 x := ?_; rotate_left; subst x; rotate_left; clear_value x)
        | (have : MemUnits := x; subst x)
        | clear_value x
        | skip)
    | with_reducible apply State.bnEnd_kept
    | (with_reducible apply Kept.unmk; dsimp only; with_reducible apply Kept.ofF)
    | split

theorem State.bnPost_kept (s : State) (queue : Fin 4) (addr : Nat) (stores : List (Nat × Bytes)) {s0 : State} (hK : Kept s0 s) :
    Kept s0 (State.bnPost s queue addr stores) := by
  unfold State.bnPost
  repeat' first
    | with_reducible assumption
    | ((try lift_lets -underBinder); intro x; first
        | (have hx : Kept s0 x := ?_; rotate_left; subst x; rotate_left; clear_value x)
        | (have hx : Kept s0 x.2 := ?_; rotate_left; subst x; rotate_left; clear_value x)
        | (have hx : Kept s0 x.1 := ?_; rotate_left; subst x; rotate_left; clear_value x)
        | (have : MemUnits := x; subst x)
        | clear_value x
        | skip)
    | with_reducible apply State.bnWrite_kept
    | with_reducible refine Kept.foldl ?_ fun _ _ _ => ?_
    | (with_reducible apply Kept.unmk; dsimp only; with_reducible apply Kept.ofF)
    | (intro _; intros; try beta_reduce)
    | split

theorem State.bnTake_kept (s : State) {s0 : State} (hK : Kept s0 s) :
    Kept s0 (State.bnTake s) := by
  unfold State.bnTake
  repeat' first
    | with_reducible assumption
    | ((try lift_lets -underBinder); intro x; first
        | (have hx : Kept s0 x := ?_; rotate_left; subst x; rotate_left; clear_value x)
        | (have : MemUnits := x; subst x)
        | clear_value x
        | skip)
    | with_reducible apply KeptO.next
    | with_reducible apply State.freeNat_kept
    | with_reducible refine Kept.pair2 ‹_ = _› (State.freeNat_kept _ ?_)
    | with_reducible apply State.bnFetch_kept
    | with_reducible apply State.bnShow_kept
    | (with_reducible apply Kept.unmk; dsimp only; with_reducible apply Kept.ofF)
    | (intro _; intros; try beta_reduce)
    | split

theorem State.bnExecute_kept (s : State) (c : BnChain) (d : BnDesc) {s0 : State} (hK : Kept s0 s) :
    Kept s0 (State.bnExecute s c d) := by
  unfold State.bnExecute
  repeat' first
    | with_reducible assumption
    | ((try lift_lets -underBinder); intro x; first
        | (have hx : Kept s0 x := ?_; rotate_left; subst x; rotate_left; clear_value x)
        | (have hx : Kept s0 x.2 := ?_; rotate_left; subst x; rotate_left; clear_value x)
        | (have hx : Kept s0 x.1 := ?_; rotate_left; subst x; rotate_left; clear_value x)
        | (have : MemUnits := x; subst x)
        | clear_value x
        | skip)
    | with_reducible apply State.bnWrite_kept
    | with_reducible apply State.bump_kept
    | with_reducible apply State.bnFetch_kept
    | with_reducible apply State.bnEnd_kept
    | (with_reducible apply Kept.unmk; dsimp only; with_reducible apply Kept.ofF)
    | split

theorem State.bnTorn_kept (s : State) (d : BnDesc) {s0 : State} (hK : Kept s0 s) :
    Kept s0 (State.bnTorn s d) := by
  unfold State.bnTorn
  repeat' first
    | with_reducible assumption
    | ((try lift_lets -underBinder); intro x; first
        | (have hx : Kept s0 x := ?_; rotate_left; subst x; rotate_left; clear_value x)
        | (have hx : Kept s0 x.2 := ?_; rotate_left; subst x; rotate_left; clear_value x)
        | (have : MemUnits := x; subst x)
        | clear_value x
        | skip)
    | with_reducible apply State.freeNat_kept
    | with_reducible refine Kept.pair2 ‹_ = _› (State.freeNat_kept _ ?_)
    | with_reducible apply State.bnWrite_kept
    | with_reducible refine Kept.foldl ?_ fun _ _ _ => ?_
    | (intro _; intros; try beta_reduce)
    | split

theorem State.bnStop_kept (s : State) (st : Nat) {s0 : State} (hK : Kept s0 s) :
    Kept s0 (State.bnStop s st) := by
  unfold State.bnStop
  repeat' first
    | with_reducible assumption
    | ((try lift_lets -underBinder); intro x; first
        | (have hx : Kept s0 x := ?_; rotate_left; subst x; rotate_left; clear_value x)
        | (have : MemUnits := x; subst x)
        | clear_value x
        | skip)
    | with_reducible apply State.bnTorn_kept
    | with_reducible apply State.bnEnd_kept
    | with_reducible apply State.bump_kept
    | with_reducible apply State.log_kept
    | (with_reducible apply Kept.unmk; dsimp only; with_reducible apply Kept.ofF)
    | split

theorem State.bnAbort_kept (s : State) (queue : Fin 4) {s0 : State} (hK : Kept s0 s) :
    Kept s0 (State.bnAbort s queue) := by
  unfold State.bnAbort
  repeat' first
    | with_reducible assumption
    | ((try lift_lets -underBinder); intro x; first
        | (have hx : Kept s0 x := ?_; rotate_left; subst x; rotate_left; clear_value x)
        | (have hx : Kept s0 x.2 := ?_; rotate_left; subst x; rotate_left; clear_value x)
        | (have : MemUnits := x; subst x)
        | clear_value x
        | skip)
    | with_reducible apply State.bnStop_kept
    | with_reducible apply State.bump_kept
    | with_reducible apply State.log_kept
    | (with_reducible apply Kept.unmk; dsimp only; with_reducible apply Kept.ofF)
    | split

theorem State.bnReset_kept (s : State) {s0 : State} (hK : Kept s0 s) :
    Kept s0 (State.bnReset s) := by
  unfold State.bnReset
  repeat' first
    | with_reducible assumption
    | ((try lift_lets -underBinder); intro x; first
        | (have hx : Kept s0 x := ?_; rotate_left; subst x; rotate_left; clear_value x)
        | (have hx : Kept s0 x.2 := ?_; rotate_left; subst x; rotate_left; clear_value x)
        | (have : MemUnits := x; subst x)
        | clear_value x
        | skip)
    | with_reducible apply State.bnStop_kept
    | with_reducible apply State.bump_kept
    | with_reducible apply State.log_kept
    | with_reducible apply State.bnShow_kept
    | with_reducible refine Kept.foldl ?_ fun _ _ _ => ?_
    | (with_reducible apply Kept.unmk; dsimp only; with_reducible apply Kept.ofF)
    | (intro _; intros; try beta_reduce)
    | split

theorem State.bnTest_kept (s : State) (cause : Nat) {s0 : State} (hK : Kept s0 s) :
    Kept s0 (State.bnTest s cause) := by
  unfold State.bnTest
  repeat' first
    | with_reducible assumption
    | ((try lift_lets -underBinder); intro x; first
        | (have hx : Kept s0 x := ?_; rotate_left; subst x; rotate_left; clear_value x)
        | (have : MemUnits := x; subst x)
        | clear_value x
        | skip)
    | with_reducible apply State.bnShow_kept
    | (with_reducible apply Kept.unmk; dsimp only; with_reducible apply Kept.ofF)
    | split

end Sys2Proof.Machine
end

