-- ==== Sys2Proof/Laws/Kept/Firmware.lean ====
section
/-! SUPPORT. What the operations of Machine/Firmware.lean keep. -/

namespace Sys2Proof.Machine

theorem State.setBoot_kept (s : State) (bank : Nat) (trial : Bool) {s0 : State} (hK : Kept s0 s) :
    Kept s0 (State.setBoot s bank trial) := by
  unfold State.setBoot
  repeat' first
    | with_reducible assumption
    | ((try lift_lets -underBinder); intro x; first
        | (have hx : Kept s0 x := ?_; rotate_left; subst x; rotate_left; clear_value x)
        | (have : MemUnits := x; subst x)
        | clear_value x
        | skip)
    | (with_reducible apply Kept.unmk; dsimp only; with_reducible apply Kept.ofF)

theorem State.startActivation_kept (s : State) {s0 : State} (hK : Kept s0 s) :
    Kept s0 (State.startActivation s) := by
  unfold State.startActivation
  repeat' first
    | with_reducible assumption
    | ((try lift_lets -underBinder); intro x; first
        | (have hx : Kept s0 x := ?_; rotate_left; subst x; rotate_left; clear_value x)
        | (have : MemUnits := x; subst x)
        | clear_value x
        | skip)
    | with_reducible apply State.resetOol_kept
    | (with_reducible apply Kept.unmk; dsimp only; with_reducible apply Kept.ofF)

theorem State.logTrial_kept (s : State) (what : Nat) (image : Bytes) {s0 : State} (hK : Kept s0 s) :
    Kept s0 (State.logTrial s what image) := by
  unfold State.logTrial
  repeat' first
    | with_reducible assumption
    | with_reducible apply State.logSec_kept

theorem State.confirmTrial_kept (s : State) {s0 : State} (hK : Kept s0 s) :
    Kept s0 (State.confirmTrial s) := by
  unfold State.confirmTrial
  repeat' first
    | with_reducible assumption
    | ((try lift_lets -underBinder); intro x; first
        | (have hx : Kept s0 x := ?_; rotate_left; subst x; rotate_left; clear_value x)
        | (have : MemUnits := x; subst x)
        | clear_value x
        | skip)
    | with_reducible apply State.setBoot_kept
    | with_reducible apply State.putB_kept
    | with_reducible apply State.logTrial_kept
    | with_reducible apply State.putN_kept
    | with_reducible apply State.logSec_kept
    | split

theorem State.revertTrial_kept (s : State) {s0 : State} (hK : Kept s0 s) :
    Kept s0 (State.revertTrial s) := by
  unfold State.revertTrial
  repeat' first
    | with_reducible assumption
    | ((try lift_lets -underBinder); intro x; first
        | (have hx : Kept s0 x := ?_; rotate_left; subst x; rotate_left; clear_value x)
        | (have : MemUnits := x; subst x)
        | clear_value x
        | skip)
    | with_reducible apply State.setBoot_kept
    | with_reducible apply State.putB_kept
    | with_reducible apply State.logTrial_kept
    | split

theorem State.exitSparge_kept (s : State) (byCommit : Bool) {s0 : State} (hK : Kept s0 s) :
    Kept s0 (State.exitSparge s byCommit) := by
  unfold State.exitSparge
  repeat' first
    | with_reducible assumption
    | ((try lift_lets -underBinder); intro x; first
        | (have hx : Kept s0 x := ?_; rotate_left; subst x; rotate_left; clear_value x)
        | (have : MemUnits := x; subst x)
        | clear_value x
        | skip)
    | with_reducible apply State.putB_kept
    | with_reducible apply State.setMode_kept
    | with_reducible apply State.confirmTrial_kept
    | with_reducible apply State.startActivation_kept
    | with_reducible apply State.revertTrial_kept
    | (with_reducible apply Kept.unmk; dsimp only; with_reducible apply Kept.ofF)
    | split

theorem execFwVerify_kept (s : State) {s0 : State} (hK : Kept s0 s) :
    KeptO s0 (execFwVerify s) := by
  unfold execFwVerify
  repeat' first
    | with_reducible assumption
    | ((try lift_lets -underBinder); intro x; first
        | (have hx : Kept s0 x := ?_; rotate_left; subst x; rotate_left; clear_value x)
        | (have : MemUnits := x; subst x)
        | clear_value x
        | skip)
    | with_reducible apply KeptO.next
    | with_reducible apply State.putN_kept
    | with_reducible apply State.putB_kept
    | with_reducible apply State.logSec_kept
    | split

theorem State.activateFirmware_kept (s : State) {s0 : State} (hK : Kept s0 s) :
    Kept s0 (State.activateFirmware s) := by
  unfold State.activateFirmware
  repeat' first
    | with_reducible assumption
    | ((try lift_lets -underBinder); intro x; first
        | (have hx : Kept s0 x := ?_; rotate_left; subst x; rotate_left; clear_value x)
        | (have : MemUnits := x; subst x)
        | clear_value x
        | skip)
    | with_reducible apply State.setBoot_kept
    | with_reducible apply State.putB_kept
    | with_reducible apply State.logTrial_kept
    | with_reducible apply State.startActivation_kept

theorem execFwActivate_kept (s : State) {s0 : State} (hK : Kept s0 s) :
    KeptO s0 (execFwActivate s) := by
  unfold execFwActivate
  repeat' first
    | with_reducible assumption
    | with_reducible apply KeptO.next
    | with_reducible apply State.activateFirmware_kept
    | split

theorem execActivationComplete_kept (s : State) {s0 : State} (hK : Kept s0 s) :
    KeptO s0 (execActivationComplete s) := by
  unfold execActivationComplete
  repeat' first
    | with_reducible assumption
    | ((try lift_lets -underBinder); intro x; first
        | (have hx : Kept s0 x := ?_; rotate_left; subst x; rotate_left; clear_value x)
        | (have : MemUnits := x; subst x)
        | clear_value x
        | skip)
    | with_reducible apply KeptO.next
    | with_reducible apply State.releaseSide_kept
    | with_reducible apply State.putN_kept
    | with_reducible apply State.exitSparge_kept
    | (with_reducible apply Kept.unmk; dsimp only; with_reducible apply Kept.ofF)
    | split

theorem State.makeChallenge_kept (s : State) {s0 : State} (hK : Kept s0 s) :
    Kept s0 (State.makeChallenge s) := by
  unfold State.makeChallenge
  repeat' first
    | with_reducible assumption
    | ((try lift_lets -underBinder); intro x; first
        | (have hx : Kept s0 x := ?_; rotate_left; subst x; rotate_left; clear_value x)
        | (have : MemUnits := x; subst x)
        | clear_value x
        | skip)
    | with_reducible apply State.random_kept
    | with_reducible refine Kept.pair2 ‹_ = _› (State.random_kept _ _ ?_)
    | (with_reducible apply Kept.unmk; dsimp only; with_reducible apply Kept.ofF)
    | split

theorem execDebugChallenge_kept (s : State) {s0 : State} (hK : Kept s0 s) :
    KeptO s0 (execDebugChallenge s) := by
  unfold execDebugChallenge
  repeat' first
    | with_reducible assumption
    | with_reducible apply KeptO.next
    | with_reducible apply State.makeChallenge_kept
    | split

theorem State.debugRespond_kept (s : State) (r : Bytes) {s0 : State} (hK : Kept s0 s) :
    Kept s0 (State.debugRespond s r) := by
  unfold State.debugRespond
  repeat' first
    | with_reducible assumption
    | ((try lift_lets -underBinder); intro x; first
        | (have hx : Kept s0 x := ?_; rotate_left; subst x; rotate_left; clear_value x)
        | (have : MemUnits := x; subst x)
        | clear_value x
        | skip)
    | with_reducible apply State.logSec_kept
    | with_reducible apply State.zeroiseKeys_kept
    | with_reducible apply State.bnShow_kept
    | with_reducible apply State.putN_kept
    | (with_reducible apply Kept.unmk; dsimp only; with_reducible apply Kept.ofF)
    | split

theorem execDebugResponse_kept (response : Bytes) (s : State) {s0 : State} (hK : Kept s0 s) :
    KeptO s0 (execDebugResponse response s) := by
  unfold execDebugResponse
  repeat' first
    | with_reducible assumption
    | with_reducible apply KeptO.next
    | with_reducible apply State.debugRespond_kept
    | split

theorem execDebugChallengeExpiry_kept (s : State) {s0 : State} (hK : Kept s0 s) :
    KeptO s0 (execDebugChallengeExpiry s) := by
  unfold execDebugChallengeExpiry
  repeat' first
    | with_reducible assumption
    | ((try lift_lets -underBinder); intro x; first
        | (have hx : Kept s0 x := ?_; rotate_left; subst x; rotate_left; clear_value x)
        | (have : MemUnits := x; subst x)
        | clear_value x
        | skip)
    | with_reducible apply KeptO.next
    | (with_reducible apply Kept.unmk; dsimp only; with_reducible apply Kept.ofF)
    | split

theorem State.selectJtag_kept (s : State) (i : Jtag) {s0 : State} (hK : Kept s0 s) :
    Kept s0 (State.selectJtag s i) := by
  unfold State.selectJtag
  repeat' first
    | with_reducible assumption
    | ((try lift_lets -underBinder); intro x; first
        | (have hx : Kept s0 x := ?_; rotate_left; subst x; rotate_left; clear_value x)
        | (have : MemUnits := x; subst x)
        | clear_value x
        | skip)
    | (with_reducible apply Kept.unmk; dsimp only; with_reducible apply Kept.ofF)

theorem execJtagBypass_kept (s : State) {s0 : State} (hK : Kept s0 s) :
    KeptO s0 (execJtagBypass s) := by
  unfold execJtagBypass
  repeat' first
    | with_reducible assumption
    | with_reducible apply KeptO.next
    | with_reducible apply State.selectJtag_kept

theorem execJtagIdcode_kept (s : State) {s0 : State} (hK : Kept s0 s) :
    KeptO s0 (execJtagIdcode s) := by
  unfold execJtagIdcode
  repeat' first
    | with_reducible assumption
    | with_reducible apply KeptO.next
    | with_reducible apply State.selectJtag_kept

theorem execJtagSamplePreload_kept (s : State) {s0 : State} (hK : Kept s0 s) :
    KeptO s0 (execJtagSamplePreload s) := by
  unfold execJtagSamplePreload
  repeat' first
    | with_reducible assumption
    | with_reducible apply KeptO.next
    | with_reducible apply State.selectJtag_kept

theorem execJtagExtest_kept (s : State) {s0 : State} (hK : Kept s0 s) :
    KeptO s0 (execJtagExtest s) := by
  unfold execJtagExtest
  repeat' first
    | with_reducible assumption
    | with_reducible apply KeptO.next
    | with_reducible apply State.selectJtag_kept

end Sys2Proof.Machine
end

