-- ==== Sys2Proof/Laws/Kept/Sky.lean ====
section
/-! SUPPORT. What the operations of Machine/Sky.lean keep. -/

namespace Sys2Proof.Machine

theorem State.setChannel_kept (s : State) (c : Fin 256) (x : Channel) {s0 : State} (hK : Kept s0 s) :
    Kept s0 (State.setChannel s c x) := by
  unfold State.setChannel
  repeat' first
    | with_reducible assumption
    | ((try lift_lets -underBinder); intro x; first
        | (have hx : Kept s0 x := ?_; rotate_left; subst x; rotate_left; clear_value x)
        | (have : MemUnits := x; subst x)
        | clear_value x
        | skip)
    | (with_reducible apply Kept.unmk; dsimp only; with_reducible apply Kept.ofF)

theorem State.setBand_kept (s : State) (b : Fin 2) (x : Band) {s0 : State} (hK : Kept s0 s) :
    Kept s0 (State.setBand s b x) := by
  unfold State.setBand
  repeat' first
    | with_reducible assumption
    | ((try lift_lets -underBinder); intro x; first
        | (have hx : Kept s0 x := ?_; rotate_left; subst x; rotate_left; clear_value x)
        | (have : MemUnits := x; subst x)
        | clear_value x
        | skip)
    | (with_reducible apply Kept.unmk; dsimp only; with_reducible apply Kept.ofF)

theorem State.setTracker_kept (s : State) (c : Fin 256) (b : Fin 2) (t : Tracker) {s0 : State} (hK : Kept s0 s) :
    Kept s0 (State.setTracker s c b t) := by
  unfold State.setTracker
  repeat' first
    | with_reducible assumption
    | ((try lift_lets -underBinder); intro x; first
        | (have hx : Kept s0 x := ?_; rotate_left; subst x; rotate_left; clear_value x)
        | (have : MemUnits := x; subst x)
        | clear_value x
        | skip)
    | with_reducible apply State.setChannel_kept
    | with_reducible apply State.log_kept
    | (with_reducible apply Kept.unmk; dsimp only; with_reducible apply Kept.ofF)
    | split

theorem State.moveTracker_kept (s : State) (c : Fin 256) (b : Fin 2) (st : TrkState) {s0 : State} (hK : Kept s0 s) :
    Kept s0 (State.moveTracker s c b st) := by
  unfold State.moveTracker
  repeat' first
    | with_reducible assumption
    | ((try lift_lets -underBinder); intro x; first
        | (have hx : Kept s0 x := ?_; rotate_left; subst x; rotate_left; clear_value x)
        | (have : MemUnits := x; subst x)
        | clear_value x
        | skip)
    | with_reducible apply State.setTracker_kept

theorem State.driveClock_kept (s : State) (b : Fin 2) {s0 : State} (hK : Kept s0 s) :
    Kept s0 (State.driveClock s b) := by
  unfold State.driveClock
  repeat' first
    | with_reducible assumption
    | ((try lift_lets -underBinder); intro x; first
        | (have hx : Kept s0 x := ?_; rotate_left; subst x; rotate_left; clear_value x)
        | (have : MemUnits := x; subst x)
        | clear_value x
        | skip)
    | with_reducible apply State.setBand_kept
    | (with_reducible apply Kept.unmk; dsimp only; with_reducible apply Kept.ofF)
    | split

theorem State.driveClocks_kept (s : State) {s0 : State} (hK : Kept s0 s) :
    Kept s0 (State.driveClocks s) := by
  unfold State.driveClocks
  repeat' first
    | with_reducible assumption
    | with_reducible apply State.driveClock_kept

theorem State.releaseChannel_kept (s : State) (c : Fin 256) {s0 : State} (hK : Kept s0 s) :
    Kept s0 (State.releaseChannel s c) := by
  unfold State.releaseChannel
  repeat' first
    | with_reducible assumption
    | ((try lift_lets -underBinder); intro x; first
        | (have hx : Kept s0 x := ?_; rotate_left; subst x; rotate_left; clear_value x)
        | (have : MemUnits := x; subst x)
        | clear_value x
        | skip)
    | with_reducible apply State.log_kept
    | with_reducible apply State.setChannel_kept
    | (with_reducible apply Kept.unmk; dsimp only; with_reducible apply Kept.ofF)
    | split

theorem State.allocate_kept (s : State) (c : Fin 256) (sat : Nat) {s0 : State} (hK : Kept s0 s) :
    Kept s0 (State.allocate s c sat) := by
  unfold State.allocate
  repeat' first
    | with_reducible assumption
    | ((try lift_lets -underBinder); intro x; first
        | (have hx : Kept s0 x := ?_; rotate_left; subst x; rotate_left; clear_value x)
        | (have hx : Kept s0 x.2 := ?_; rotate_left; subst x; rotate_left; clear_value x)
        | (have hx : Kept s0 x.1 := ?_; rotate_left; subst x; rotate_left; clear_value x)
        | (have : MemUnits := x; subst x)
        | clear_value x
        | skip)
    | with_reducible apply State.setChannel_kept
    | with_reducible apply State.setTracker_kept
    | with_reducible apply State.signal_kept
    | with_reducible refine Kept.pair2 ‹_ = _› (State.signal_kept _ _ _ _ _ _ _ ?_)
    | (with_reducible apply Kept.unmk; dsimp only; with_reducible apply Kept.ofF)
    | (intro _; intros; try beta_reduce)
    | split

theorem State.allocateAll_kept (s : State) {s0 : State} (hK : Kept s0 s) :
    Kept s0 (State.allocateAll s) := by
  unfold State.allocateAll
  repeat' first
    | with_reducible assumption
    | ((try lift_lets -underBinder); intro x; first
        | (have hx : Kept s0 x := ?_; rotate_left; subst x; rotate_left; clear_value x)
        | (have hx : Kept s0 x.2 := ?_; rotate_left; subst x; rotate_left; clear_value x)
        | (have hx : Kept s0 x.1 := ?_; rotate_left; subst x; rotate_left; clear_value x)
        | (have : MemUnits := x; subst x)
        | clear_value x
        | skip)
    | with_reducible apply State.releaseChannel_kept
    | with_reducible apply State.signal_kept
    | with_reducible refine Kept.pair2 ‹_ = _› (State.signal_kept _ _ _ _ _ _ _ ?_)
    | with_reducible apply State.setTracker_kept
    | with_reducible apply State.allocate_kept
    | with_reducible refine Kept.foldl ?_ fun _ _ _ => ?_
    | (with_reducible apply Kept.unmk; dsimp only; with_reducible apply Kept.ofF)
    | (intro _; intros; try beta_reduce)
    | split

theorem State.setAnt_kept (s : State) (v : Nat) {s0 : State} (hK : Kept s0 s) :
    Kept s0 (State.setAnt s v) := by
  unfold State.setAnt
  repeat' first
    | with_reducible assumption
    | ((try lift_lets -underBinder); intro x; first
        | (have hx : Kept s0 x := ?_; rotate_left; subst x; rotate_left; clear_value x)
        | (have : MemUnits := x; subst x)
        | clear_value x
        | skip)
    | with_reducible apply State.putN_kept
    | with_reducible apply State.log_kept
    | split

theorem State.updateAnt_kept (s : State) {s0 : State} (hK : Kept s0 s) :
    Kept s0 (State.updateAnt s) := by
  unfold State.updateAnt
  repeat' first
    | with_reducible assumption
    | ((try lift_lets -underBinder); intro x; first
        | (have hx : Kept s0 x := ?_; rotate_left; subst x; rotate_left; clear_value x)
        | (have : MemUnits := x; subst x)
        | clear_value x
        | skip)
    | with_reducible apply State.setAnt_kept
    | (with_reducible apply Kept.unmk; dsimp only; with_reducible apply Kept.ofF)
    | split

theorem State.wakeSky_kept (s : State) {s0 : State} (hK : Kept s0 s) :
    Kept s0 (State.wakeSky s) := by
  unfold State.wakeSky
  repeat' first
    | with_reducible assumption
    | with_reducible apply State.setDom_kept
    | split

theorem State.skyAwake_kept (s : State) {s0 : State} (hK : Kept s0 s) :
    Kept s0 (State.skyAwake s) := by
  unfold State.skyAwake
  repeat' first
    | with_reducible assumption
    | ((try lift_lets -underBinder); intro x; first
        | (have hx : Kept s0 x := ?_; rotate_left; subst x; rotate_left; clear_value x)
        | (have : MemUnits := x; subst x)
        | clear_value x
        | skip)
    | with_reducible apply State.putN_kept
    | with_reducible apply State.log_kept
    | with_reducible apply State.driveClocks_kept
    | with_reducible apply State.allocateAll_kept
    | with_reducible apply State.updateAnt_kept
    | (with_reducible apply Kept.unmk; dsimp only; with_reducible apply Kept.ofF)
    | (intro _; intros; try beta_reduce)
    | split

theorem State.setBandState_kept (s : State) (b : Fin 2) (v : Nat) {s0 : State} (hK : Kept s0 s) :
    Kept s0 (State.setBandState s b v) := by
  unfold State.setBandState
  repeat' first
    | with_reducible assumption
    | ((try lift_lets -underBinder); intro x; first
        | (have hx : Kept s0 x := ?_; rotate_left; subst x; rotate_left; clear_value x)
        | (have : MemUnits := x; subst x)
        | clear_value x
        | skip)
    | with_reducible apply State.putN_kept
    | with_reducible apply State.log_kept
    | split

theorem State.sleepSky_kept (s : State) {s0 : State} (hK : Kept s0 s) :
    Kept s0 (State.sleepSky s) := by
  unfold State.sleepSky
  repeat' first
    | with_reducible assumption
    | ((try lift_lets -underBinder); intro x; first
        | (have hx : Kept s0 x := ?_; rotate_left; subst x; rotate_left; clear_value x)
        | (have : MemUnits := x; subst x)
        | clear_value x
        | skip)
    | with_reducible apply State.releaseChannel_kept
    | with_reducible apply State.setDom_kept
    | with_reducible apply State.setBandState_kept
    | with_reducible apply State.settle_kept
    | with_reducible apply State.putN_kept
    | with_reducible apply State.log_kept
    | with_reducible apply State.updateAnt_kept
    | with_reducible apply State.driveClocks_kept
    | with_reducible refine Kept.foldl ?_ fun _ _ _ => ?_
    | (with_reducible apply Kept.unmk; dsimp only; with_reducible apply Kept.ofF)
    | (intro _; intros; try beta_reduce)
    | split

theorem State.skyPower_kept (s : State) {s0 : State} (hK : Kept s0 s) :
    Kept s0 (State.skyPower s) := by
  unfold State.skyPower
  repeat' first
    | with_reducible assumption
    | with_reducible apply State.wakeSky_kept
    | with_reducible apply State.sleepSky_kept
    | split

theorem execFespiScriptSend_kept (band : Fin 2) (reads : List Bytes) (s : State) {s0 : State} (hK : Kept s0 s) :
    KeptO s0 (execFespiScriptSend band reads s) := by
  unfold execFespiScriptSend
  repeat' first
    | with_reducible assumption
    | ((try lift_lets -underBinder); intro x; first
        | (have hx : Kept s0 x := ?_; rotate_left; subst x; rotate_left; clear_value x)
        | (have hx : Kept s0 x.2 := ?_; rotate_left; subst x; rotate_left; clear_value x)
        | (have hx : Kept s0 x.1 := ?_; rotate_left; subst x; rotate_left; clear_value x)
        | (have : MemUnits := x; subst x)
        | clear_value x
        | skip)
    | with_reducible apply KeptO.next
    | with_reducible apply State.putN_kept
    | with_reducible apply State.log_kept
    | with_reducible apply State.setBand_kept
    | with_reducible apply State.settle_kept
    | with_reducible refine Kept.foldl ?_ fun _ _ _ => ?_
    | (with_reducible apply Kept.unmk; dsimp only; with_reducible apply Kept.ofF)
    | (intro _; intros; try beta_reduce)
    | split

theorem execFespiSettleEnd_kept (band : Fin 2) (s : State) {s0 : State} (hK : Kept s0 s) :
    KeptO s0 (execFespiSettleEnd band s) := by
  unfold execFespiSettleEnd
  repeat' first
    | with_reducible assumption
    | ((try lift_lets -underBinder); intro x; first
        | (have hx : Kept s0 x := ?_; rotate_left; subst x; rotate_left; clear_value x)
        | (have : MemUnits := x; subst x)
        | clear_value x
        | skip)
    | with_reducible apply KeptO.next
    | with_reducible apply State.settle_kept
    | with_reducible apply State.setBand_kept
    | (with_reducible apply Kept.unmk; dsimp only; with_reducible apply Kept.ofF)
    | split

theorem execAntShort_kept (s : State) {s0 : State} (hK : Kept s0 s) :
    KeptO s0 (execAntShort s) := by
  unfold execAntShort
  repeat' first
    | with_reducible assumption
    | ((try lift_lets -underBinder); intro x; first
        | (have hx : Kept s0 x := ?_; rotate_left; subst x; rotate_left; clear_value x)
        | (have : MemUnits := x; subst x)
        | clear_value x
        | skip)
    | with_reducible apply KeptO.next
    | with_reducible apply State.bump_kept
    | with_reducible apply State.setAnt_kept
    | (with_reducible apply Kept.unmk; dsimp only; with_reducible apply Kept.ofF)
    | split

theorem execAntRetry_kept (s : State) {s0 : State} (hK : Kept s0 s) :
    KeptO s0 (execAntRetry s) := by
  unfold execAntRetry
  repeat' first
    | with_reducible assumption
    | ((try lift_lets -underBinder); intro x; first
        | (have hx : Kept s0 x := ?_; rotate_left; subst x; rotate_left; clear_value x)
        | (have : MemUnits := x; subst x)
        | clear_value x
        | skip)
    | with_reducible apply KeptO.next
    | with_reducible apply State.setAnt_kept
    | (with_reducible apply Kept.unmk; dsimp only; with_reducible apply Kept.ofF)
    | split

theorem execAntOpen_kept (s : State) {s0 : State} (hK : Kept s0 s) :
    KeptO s0 (execAntOpen s) := by
  unfold execAntOpen
  repeat' first
    | with_reducible assumption
    | with_reducible apply KeptO.next
    | with_reducible apply State.setAnt_kept
    | split

theorem execAntCurrentInRange_kept (s : State) {s0 : State} (hK : Kept s0 s) :
    KeptO s0 (execAntCurrentInRange s) := by
  unfold execAntCurrentInRange
  repeat' first
    | with_reducible assumption
    | with_reducible apply KeptO.next
    | with_reducible apply State.setAnt_kept
    | split

theorem State.changeNotches_kept (s : State) (b : Fin 2) {s0 : State} (hK : Kept s0 s) :
    Kept s0 (State.changeNotches s b) := by
  unfold State.changeNotches
  repeat' first
    | with_reducible assumption
    | ((try lift_lets -underBinder); intro x; first
        | (have hx : Kept s0 x := ?_; rotate_left; subst x; rotate_left; clear_value x)
        | (have : MemUnits := x; subst x)
        | clear_value x
        | skip)
    | with_reducible apply State.setBand_kept

theorem State.setNotch_kept (s : State) (b : Fin 2) (k : Fin 4) (x : Notch) {s0 : State} (hK : Kept s0 s) :
    Kept s0 (State.setNotch s b k x) := by
  unfold State.setNotch
  repeat' first
    | with_reducible assumption
    | ((try lift_lets -underBinder); intro x; first
        | (have hx : Kept s0 x := ?_; rotate_left; subst x; rotate_left; clear_value x)
        | (have : MemUnits := x; subst x)
        | clear_value x
        | skip)
    | with_reducible apply State.setBand_kept
    | with_reducible apply State.changeNotches_kept
    | with_reducible apply State.count_kept
    | with_reducible apply State.putN_kept
    | (with_reducible apply Kept.unmk; dsimp only; with_reducible apply Kept.ofF)
    | split

theorem State.releaseNotch_kept (s : State) (b : Fin 2) (k : Fin 4) {s0 : State} (hK : Kept s0 s) :
    Kept s0 (State.releaseNotch s b k) := by
  unfold State.releaseNotch
  repeat' first
    | with_reducible assumption
    | ((try lift_lets -underBinder); intro x; first
        | (have hx : Kept s0 x := ?_; rotate_left; subst x; rotate_left; clear_value x)
        | (have : MemUnits := x; subst x)
        | clear_value x
        | skip)
    | with_reducible apply State.setNotch_kept
    | with_reducible apply State.log_kept
    | (with_reducible apply Kept.unmk; dsimp only; with_reducible apply Kept.ofF)
    | split

theorem State.trackNotch_kept (s : State) (b : Fin 2) (lines : List (Int × Nat)) (k : Fin 4) {s0 : State} (hK : Kept s0 s) :
    Kept s0 (State.trackNotch s b lines k) := by
  unfold State.trackNotch
  repeat' first
    | with_reducible assumption
    | ((try lift_lets -underBinder); intro x; first
        | (have hx : Kept s0 x := ?_; rotate_left; subst x; rotate_left; clear_value x)
        | (have hx : Kept s0 x.2 := ?_; rotate_left; subst x; rotate_left; clear_value x)
        | (have hx : Kept s0 x.1 := ?_; rotate_left; subst x; rotate_left; clear_value x)
        | (have : MemUnits := x; subst x)
        | clear_value x
        | skip)
    | with_reducible apply State.setNotch_kept
    | with_reducible apply State.releaseNotch_kept
    | (with_reducible apply Kept.unmk; dsimp only; with_reducible apply Kept.ofF)
    | (intro _; intros; try beta_reduce)
    | split

theorem State.placeNotches_kept (s : State) (b : Fin 2) (n : Nat) {s0 : State} (hK : Kept s0 s) :
    Kept s0 (State.placeNotches s b n) := by
  induction n generalizing s with
  | zero => exact hK
  | succ n ih =>
    rw [State.placeNotches]
    repeat' first
      | with_reducible assumption
      | ((try lift_lets -underBinder); intro x; first
          | (have hx : Kept s0 x := ?_; rotate_left; subst x; rotate_left; clear_value x)
          | (have hx : Kept s0 x.2 := ?_; rotate_left; subst x; rotate_left; clear_value x)
          | (have hx : Kept s0 x.1 := ?_; rotate_left; subst x; rotate_left; clear_value x)
          | (have : MemUnits := x; subst x)
          | clear_value x
          | skip)
      | with_reducible apply ih
      | with_reducible apply State.setNotch_kept
      | with_reducible apply State.log_kept
      | with_reducible refine Kept.foldl ?_ fun _ _ _ => ?_
      | (with_reducible apply Kept.unmk; dsimp only; with_reducible apply Kept.ofF)
      | (intro _; intros; try beta_reduce)
      | split

theorem execNotchScan_kept (band : Fin 2) (lines : List (Int × Nat)) (s : State) {s0 : State} (hK : Kept s0 s) :
    KeptO s0 (execNotchScan band lines s) := by
  unfold execNotchScan
  repeat' first
    | with_reducible assumption
    | ((try lift_lets -underBinder); intro x; first
        | (have hx : Kept s0 x := ?_; rotate_left; subst x; rotate_left; clear_value x)
        | (have hx : Kept s0 x.2 := ?_; rotate_left; subst x; rotate_left; clear_value x)
        | (have hx : Kept s0 x.1 := ?_; rotate_left; subst x; rotate_left; clear_value x)
        | (have : MemUnits := x; subst x)
        | clear_value x
        | skip)
    | with_reducible apply KeptO.next
    | with_reducible apply State.releaseNotch_kept
    | with_reducible apply State.setBand_kept
    | with_reducible apply State.trackNotch_kept
    | with_reducible apply State.placeNotches_kept
    | with_reducible refine Kept.foldl ?_ fun _ _ _ => ?_
    | (with_reducible apply Kept.unmk; dsimp only; with_reducible apply Kept.ofF)
    | (intro _; intros; try beta_reduce)
    | split

theorem State.searchBand_kept (s : State) (c : Fin 256) (b : Fin 2) {s0 : State} (hK : Kept s0 s) :
    Kept s0 (State.searchBand s c b) := by
  unfold State.searchBand
  repeat' first
    | with_reducible assumption
    | ((try lift_lets -underBinder); intro x; first
        | (have hx : Kept s0 x := ?_; rotate_left; subst x; rotate_left; clear_value x)
        | (have : MemUnits := x; subst x)
        | clear_value x
        | skip)
    | with_reducible apply State.setTracker_kept
    | with_reducible apply State.signal_kept
    | with_reducible refine Kept.pair2 ‹_ = _› (State.signal_kept _ _ _ _ _ _ _ ?_)
    | (with_reducible apply Kept.unmk; dsimp only; with_reducible apply Kept.ofF)
    | split

theorem State.detect_kept (s : State) (c : Fin 256) (b : Fin 2) (d : Detection) {s0 : State} (hK : Kept s0 s) :
    Kept s0 (State.detect s c b d) := by
  unfold State.detect
  repeat' first
    | with_reducible assumption
    | ((try lift_lets -underBinder); intro x; first
        | (have hx : Kept s0 x := ?_; rotate_left; subst x; rotate_left; clear_value x)
        | (have : MemUnits := x; subst x)
        | clear_value x
        | skip)
    | with_reducible apply State.setTracker_kept

theorem execAcquisitionSearch_kept (channel : Fin 256) (band : Fin 2) (found : Option Detection) (s : State) {s0 : State} (hK : Kept s0 s) :
    KeptO s0 (execAcquisitionSearch channel band found s) := by
  unfold execAcquisitionSearch
  repeat' first
    | with_reducible assumption
    | ((try lift_lets -underBinder); intro x; first
        | (have hx : Kept s0 x := ?_; rotate_left; subst x; rotate_left; clear_value x)
        | (have : MemUnits := x; subst x)
        | clear_value x
        | skip)
    | with_reducible apply KeptO.next
    | with_reducible apply State.signal_kept
    | with_reducible refine Kept.pair2 ‹_ = _› (State.signal_kept _ _ _ _ _ _ _ ?_)
    | with_reducible apply State.detect_kept
    | with_reducible apply State.setTracker_kept
    | with_reducible apply State.moveTracker_kept
    | with_reducible apply State.setChannel_kept
    | with_reducible apply State.searchBand_kept
    | (with_reducible apply Kept.unmk; dsimp only; with_reducible apply Kept.ofF)
    | (intro _; intros; try beta_reduce)
    | split

theorem execTrackerLock_kept (channel : Fin 256) (run : TrackerRun) (s : State) {s0 : State} (hK : Kept s0 s) :
    KeptO s0 (execTrackerLock channel run s) := by
  unfold execTrackerLock
  repeat' first
    | with_reducible assumption
    | ((try lift_lets -underBinder); intro x; first
        | (have hx : Kept s0 x := ?_; rotate_left; subst x; rotate_left; clear_value x)
        | (have : MemUnits := x; subst x)
        | clear_value x
        | skip)
    | with_reducible apply KeptO.next
    | with_reducible apply State.setTracker_kept
    | with_reducible apply State.searchBand_kept
    | (with_reducible apply Kept.unmk; dsimp only; with_reducible apply Kept.ofF)
    | split

theorem execPullInTimeout_kept (channel : Fin 256) (band : Fin 2) (s : State) {s0 : State} (hK : Kept s0 s) :
    KeptO s0 (execPullInTimeout channel band s) := by
  unfold execPullInTimeout
  repeat' first
    | with_reducible assumption
    | ((try lift_lets -underBinder); intro x; first
        | (have hx : Kept s0 x := ?_; rotate_left; subst x; rotate_left; clear_value x)
        | (have : MemUnits := x; subst x)
        | clear_value x
        | skip)
    | with_reducible apply KeptO.next
    | with_reducible apply State.moveTracker_kept
    | split

theorem execTrackerLoss_kept (channel : Fin 256) (run : TrackerRun) (s : State) {s0 : State} (hK : Kept s0 s) :
    KeptO s0 (execTrackerLoss channel run s) := by
  unfold execTrackerLoss
  repeat' first
    | with_reducible assumption
    | ((try lift_lets -underBinder); intro x; first
        | (have hx : Kept s0 x := ?_; rotate_left; subst x; rotate_left; clear_value x)
        | (have : MemUnits := x; subst x)
        | clear_value x
        | skip)
    | with_reducible apply KeptO.next
    | with_reducible apply State.setTracker_kept
    | with_reducible apply State.log_kept
    | (with_reducible apply Kept.unmk; dsimp only; with_reducible apply Kept.ofF)
    | split

theorem execReacqTimeout_kept (channel : Fin 256) (band : Fin 2) (s : State) {s0 : State} (hK : Kept s0 s) :
    KeptO s0 (execReacqTimeout channel band s) := by
  unfold execReacqTimeout
  repeat' first
    | with_reducible assumption
    | ((try lift_lets -underBinder); intro x; first
        | (have hx : Kept s0 x := ?_; rotate_left; subst x; rotate_left; clear_value x)
        | (have : MemUnits := x; subst x)
        | clear_value x
        | skip)
    | with_reducible apply KeptO.next
    | with_reducible apply State.moveTracker_kept
    | split

theorem execSymbolSync_kept (channel : Fin 256) (band : Fin 2) (s : State) {s0 : State} (hK : Kept s0 s) :
    KeptO s0 (execSymbolSync channel band s) := by
  unfold execSymbolSync
  repeat' first
    | with_reducible assumption
    | ((try lift_lets -underBinder); intro x; first
        | (have hx : Kept s0 x := ?_; rotate_left; subst x; rotate_left; clear_value x)
        | (have : MemUnits := x; subst x)
        | clear_value x
        | skip)
    | with_reducible apply KeptO.next
    | with_reducible apply State.setTracker_kept
    | (with_reducible apply Kept.unmk; dsimp only; with_reducible apply Kept.ofF)
    | split

theorem State.trackerReady_kept (s : State) (c : Fin 256) (b : Fin 2) (origin : Int) (aided : Bool) {s0 : State} (hK : Kept s0 s) :
    Kept s0 (State.trackerReady s c b origin aided) := by
  unfold State.trackerReady
  repeat' first
    | with_reducible assumption
    | ((try lift_lets -underBinder); intro x; first
        | (have hx : Kept s0 x := ?_; rotate_left; subst x; rotate_left; clear_value x)
        | (have : MemUnits := x; subst x)
        | clear_value x
        | skip)
    | with_reducible apply State.setTracker_kept

theorem execTransmitTimeResolved_kept (channel : Fin 256) (read : MessageTime) (s : State) {s0 : State} (hK : Kept s0 s) :
    KeptO s0 (execTransmitTimeResolved channel read s) := by
  unfold execTransmitTimeResolved
  repeat' first
    | with_reducible assumption
    | ((try lift_lets -underBinder); intro x; first
        | (have hx : Kept s0 x := ?_; rotate_left; subst x; rotate_left; clear_value x)
        | (have : MemUnits := x; subst x)
        | clear_value x
        | skip)
    | with_reducible apply KeptO.next
    | with_reducible apply State.signal_kept
    | with_reducible refine Kept.pair2 ‹_ = _› (State.signal_kept _ _ _ _ _ _ _ ?_)
    | with_reducible apply State.trackerReady_kept
    | (with_reducible apply Kept.unmk; dsimp only; with_reducible apply Kept.ofF)
    | split

theorem State.storeOrbit_kept (s : State) (kind : Nat) (sat : Nat) (message : Nat) (issue : Nat) (content : Bytes) {s0 : State} (hK : Kept s0 s) :
    Kept s0 (State.storeOrbit s kind sat message issue content) := by
  unfold State.storeOrbit
  repeat' first
    | with_reducible assumption
    | ((try lift_lets -underBinder); intro x; first
        | (have hx : Kept s0 x := ?_; rotate_left; subst x; rotate_left; clear_value x)
        | (have hx : Kept s0 x.2 := ?_; rotate_left; subst x; rotate_left; clear_value x)
        | (have : MemUnits := x; subst x)
        | clear_value x
        | skip)
    | (with_reducible apply Kept.unmk; dsimp only; with_reducible apply Kept.ofF)
    | (intro _; intros; try beta_reduce)
    | split

theorem State.adoptSky_kept (s : State) {s0 : State} (hK : Kept s0 s) :
    Kept s0 (State.adoptSky s) := by
  unfold State.adoptSky
  repeat' first
    | with_reducible assumption
    | ((try lift_lets -underBinder); intro x; first
        | (have hx : Kept s0 x := ?_; rotate_left; subst x; rotate_left; clear_value x)
        | (have hx : Kept s0 x.2 := ?_; rotate_left; subst x; rotate_left; clear_value x)
        | (have hx : Kept s0 x.1 := ?_; rotate_left; subst x; rotate_left; clear_value x)
        | (have : MemUnits := x; subst x)
        | clear_value x
        | skip)
    | with_reducible apply State.log_kept
    | with_reducible apply State.adoptLeap_kept
    | (with_reducible apply Kept.unmk; dsimp only; with_reducible apply Kept.ofF)
    | (intro _; intros; try beta_reduce)
    | split

theorem execNavPage_kept (channel : Fin 256) (band : Fin 2) (page : NavPageRead) (s : State) {s0 : State} (hK : Kept s0 s) :
    KeptO s0 (execNavPage channel band page s) := by
  unfold execNavPage
  repeat' first
    | with_reducible assumption
    | ((try lift_lets -underBinder); intro x; first
        | (have hx : Kept s0 x := ?_; rotate_left; subst x; rotate_left; clear_value x)
        | (have : MemUnits := x; subst x)
        | clear_value x
        | skip)
    | with_reducible apply KeptO.next
    | with_reducible apply State.signal_kept
    | with_reducible refine Kept.pair2 ‹_ = _› (State.signal_kept _ _ _ _ _ _ _ ?_)
    | with_reducible apply State.count_kept
    | with_reducible apply State.bump_kept
    | with_reducible apply State.setChannel_kept
    | with_reducible apply State.log_kept
    | with_reducible apply State.storeOrbit_kept
    | with_reducible apply State.adoptSky_kept
    | (with_reducible apply Kept.unmk; dsimp only; with_reducible apply Kept.ofF)
    | split

theorem State.persistOrbit_kept (s : State) {s0 : State} (hK : Kept s0 s) :
    Kept s0 (State.persistOrbit s) := by
  unfold State.persistOrbit
  repeat' first
    | with_reducible assumption
    | ((try lift_lets -underBinder); intro x; first
        | (have hx : Kept s0 x := ?_; rotate_left; subst x; rotate_left; clear_value x)
        | (have : MemUnits := x; subst x)
        | clear_value x
        | skip)
    | (with_reducible apply Kept.unmk; dsimp only; with_reducible apply Kept.ofF)
    | split

theorem execOrbitStorePersist_kept (s : State) {s0 : State} (hK : Kept s0 s) :
    KeptO s0 (execOrbitStorePersist s) := by
  unfold execOrbitStorePersist
  repeat' first
    | with_reducible assumption
    | with_reducible apply KeptO.next
    | with_reducible apply State.persistOrbit_kept
    | split

theorem State.runObs_kept (s : State) (o : SkyObs) {s0 : State} (hK : Kept s0 s) :
    Kept s0 (State.runObs s o) := by
  unfold State.runObs
  repeat' first
    | with_reducible assumption
    | with_reducible apply State.setTracker_kept

theorem State.noteObs_kept (s : State) (channel : Fin 256) (b : Fin 2) {s0 : State} (hK : Kept s0 s) :
    Kept s0 (State.noteObs s channel b) := by
  unfold State.noteObs
  repeat' first
    | with_reducible assumption
    | ((try lift_lets -underBinder); intro x; first
        | (have hx : Kept s0 x := ?_; rotate_left; subst x; rotate_left; clear_value x)
        | (have hx : Kept s0 x.1 := ?_; rotate_left; subst x; rotate_left; clear_value x)
        | (have : MemUnits := x; subst x)
        | clear_value x
        | skip)
    | with_reducible apply State.setChannel_kept

theorem State.placeChannel_kept (s : State) (p : Int × Int × Int) (c : Fin 256) {s0 : State} (hK : Kept s0 s) :
    Kept s0 (State.placeChannel s p c) := by
  unfold State.placeChannel
  repeat' first
    | with_reducible assumption
    | ((try lift_lets -underBinder); intro x; first
        | (have hx : Kept s0 x := ?_; rotate_left; subst x; rotate_left; clear_value x)
        | (have hx : Kept s0 x.2 := ?_; rotate_left; subst x; rotate_left; clear_value x)
        | (have : MemUnits := x; subst x)
        | clear_value x
        | skip)
    | with_reducible apply State.signal_kept
    | with_reducible refine Kept.pair2 ‹_ = _› (State.signal_kept _ _ _ _ _ _ _ ?_)
    | with_reducible apply State.setChannel_kept
    | (with_reducible apply Kept.unmk; dsimp only; with_reducible apply Kept.ofF)
    | split

theorem State.placeChannels_kept (s : State) {s0 : State} (hK : Kept s0 s) :
    Kept s0 (State.placeChannels s) := by
  unfold State.placeChannels
  repeat' first
    | with_reducible assumption
    | ((try lift_lets -underBinder); intro x; first
        | (have hx : Kept s0 x := ?_; rotate_left; subst x; rotate_left; clear_value x)
        | (have : MemUnits := x; subst x)
        | clear_value x
        | skip)
    | with_reducible apply State.placeChannel_kept
    | with_reducible refine Kept.foldl ?_ fun _ _ _ => ?_
    | (with_reducible apply Kept.unmk; dsimp only; with_reducible apply Kept.ofF)
    | (intro _; intros; try beta_reduce)
    | split

theorem State.endSmoothing_kept (s : State) (r : SkyRec) {s0 : State} (hK : Kept s0 s) :
    Kept s0 (State.endSmoothing s r) := by
  unfold State.endSmoothing
  repeat' first
    | with_reducible assumption
    | ((try lift_lets -underBinder); intro x; first
        | (have hx : Kept s0 x := ?_; rotate_left; subst x; rotate_left; clear_value x)
        | (have : MemUnits := x; subst x)
        | clear_value x
        | skip)
    | with_reducible apply State.setChannel_kept
    | (with_reducible apply Kept.unmk; dsimp only; with_reducible apply Kept.ofF)
    | split

theorem execObservationEpoch_kept (obs : List SkyObs) (s : State) {s0 : State} (hK : Kept s0 s) :
    KeptO s0 (execObservationEpoch obs s) := by
  unfold execObservationEpoch
  repeat' first
    | with_reducible assumption
    | ((try lift_lets -underBinder); intro x; first
        | (have hx : Kept s0 x := ?_; rotate_left; subst x; rotate_left; clear_value x)
        | (have hx : Kept s0 x.2 := ?_; rotate_left; subst x; rotate_left; clear_value x)
        | (have hx : Kept s0 x.1 := ?_; rotate_left; subst x; rotate_left; clear_value x)
        | (have : MemUnits := x; subst x)
        | clear_value x
        | skip)
    | with_reducible apply KeptO.next
    | with_reducible apply State.count_kept
    | with_reducible apply State.runObs_kept
    | with_reducible apply State.noteObs_kept
    | with_reducible apply State.endSmoothing_kept
    | with_reducible apply State.placeChannels_kept
    | with_reducible apply State.putN_kept
    | with_reducible apply State.allocateAll_kept
    | with_reducible refine Kept.foldl ?_ fun _ _ _ => ?_
    | (with_reducible apply Kept.unmk; dsimp only; with_reducible apply Kept.ofF)
    | (intro _; intros; try beta_reduce)
    | split

end Sys2Proof.Machine
end

