-- ==== Sys2Proof/Laws/Kept/SkyTiming.lean ====
section
/-! SUPPORT. What the operations of Machine/SkyTiming.lean keep. -/

namespace Sys2Proof.Machine

theorem State.firstPosition_kept (s : State) {s0 : State} (hK : Kept s0 s) :
    Kept s0 (State.firstPosition s) := by
  unfold State.firstPosition
  repeat' first
    | with_reducible assumption
    | ((try lift_lets -underBinder); intro x; first
        | (have hx : Kept s0 x := ?_; rotate_left; subst x; rotate_left; clear_value x)
        | (have hx : Kept s0 x.1 := ?_; rotate_left; subst x; rotate_left; clear_value x)
        | (have : MemUnits := x; subst x)
        | clear_value x
        | skip)
    | with_reducible apply State.placeChannels_kept
    | (with_reducible apply Kept.unmk; dsimp only; with_reducible apply Kept.ofF)
    | (intro _; intros; try beta_reduce)
    | split

theorem State.indicate_kept (s : State) (k : Fin 8) (cond : Bool) (sec : Bool) (hold : Bool) {s0 : State} (hK : Kept s0 s) :
    Kept s0 (State.indicate s k cond sec hold) := by
  unfold State.indicate
  repeat' first
    | with_reducible assumption
    | ((try lift_lets -underBinder); intro x; first
        | (have hx : Kept s0 x := ?_; rotate_left; subst x; rotate_left; clear_value x)
        | (have hf1 : ∀ s, Kept s0 s → Kept s0 (x s) := ?_; rotate_left; subst x; intros; beta_reduce; rotate_left; clear_value x)
        | (have hf2 : ∀ s a, Kept s0 s → Kept s0 (x s a) := ?_; rotate_left; subst x; intros; beta_reduce; rotate_left; clear_value x)
        | (have hf3 : ∀ s a b, Kept s0 s → Kept s0 (x s a b) := ?_; rotate_left; subst x; intros; beta_reduce; rotate_left; clear_value x)
        | (have hf4 : ∀ a s, Kept s0 s → Kept s0 (x a s) := ?_; rotate_left; subst x; intros; beta_reduce; rotate_left; clear_value x)
        | (have : MemUnits := x; subst x)
        | clear_value x
        | skip)
    | with_reducible apply State.note_kept
    | with_reducible apply State.logSec_kept
    | with_reducible apply State.log_kept
    | with_reducible apply State.putN_kept
    | with_reducible apply hf1
    | with_reducible apply hf2
    | with_reducible apply hf3
    | with_reducible apply hf4
    | (with_reducible apply Kept.unmk; dsimp only; with_reducible apply Kept.ofF)
    | (intro _; intros; try beta_reduce)
    | split

theorem State.detectors_kept (s : State) {s0 : State} (hK : Kept s0 s) :
    Kept s0 (State.detectors s) := by
  unfold State.detectors
  repeat' first
    | with_reducible assumption
    | ((try lift_lets -underBinder); intro x; first
        | (have hx : Kept s0 x := ?_; rotate_left; subst x; rotate_left; clear_value x)
        | (have : MemUnits := x; subst x)
        | clear_value x
        | skip)
    | with_reducible apply State.indicate_kept
    | (with_reducible apply Kept.unmk; dsimp only; with_reducible apply Kept.ofF)

theorem State.updateIntegrity_kept (s : State) {s0 : State} (hK : Kept s0 s) :
    Kept s0 (State.updateIntegrity s) := by
  unfold State.updateIntegrity
  repeat' first
    | with_reducible assumption
    | ((try lift_lets -underBinder); intro x; first
        | (have hx : Kept s0 x := ?_; rotate_left; subst x; rotate_left; clear_value x)
        | (have : MemUnits := x; subst x)
        | clear_value x
        | skip)
    | with_reducible apply State.putN_kept
    | with_reducible apply State.log_kept
    | with_reducible apply State.evalSlot_kept
    | with_reducible refine Kept.foldl ?_ fun _ _ _ => ?_
    | (with_reducible apply Kept.unmk; dsimp only; with_reducible apply Kept.ofF)
    | (intro _; intros; try beta_reduce)
    | split

theorem State.startSurvey_kept (s : State) {s0 : State} (hK : Kept s0 s) :
    Kept s0 (State.startSurvey s) := by
  unfold State.startSurvey
  repeat' first
    | with_reducible assumption
    | ((try lift_lets -underBinder); intro x; first
        | (have hx : Kept s0 x := ?_; rotate_left; subst x; rotate_left; clear_value x)
        | (have : MemUnits := x; subst x)
        | clear_value x
        | skip)
    | with_reducible apply State.putN_kept
    | (with_reducible apply Kept.unmk; dsimp only; with_reducible apply Kept.ofF)

theorem State.standing_kept (s : State) {s0 : State} (hK : Kept s0 s) :
    Kept s0 (State.standing s) := by
  unfold State.standing
  repeat' first
    | with_reducible assumption
    | with_reducible apply State.putN_kept
    | split

theorem State.surveyEpoch_kept (s : State) (pos : Int × Int × Int) (good : Bool) {s0 : State} (hK : Kept s0 s) :
    Kept s0 (State.surveyEpoch s pos good) := by
  unfold State.surveyEpoch
  repeat' first
    | with_reducible assumption
    | ((try lift_lets -underBinder); intro x; first
        | (have hx : Kept s0 x := ?_; rotate_left; subst x; rotate_left; clear_value x)
        | (have hx : Kept s0 x.2 := ?_; rotate_left; subst x; rotate_left; clear_value x)
        | (have hx : Kept s0 x.1 := ?_; rotate_left; subst x; rotate_left; clear_value x)
        | (have : MemUnits := x; subst x)
        | clear_value x
        | skip)
    | with_reducible apply State.putN_kept
    | with_reducible apply State.log_kept
    | (with_reducible apply Kept.unmk; dsimp only; with_reducible apply Kept.ofF)
    | split

theorem State.readmit_kept (s : State) (c : Fin 256) (within : Bool) {s0 : State} (hK : Kept s0 s) :
    Kept s0 (State.readmit s c within) := by
  unfold State.readmit
  repeat' first
    | with_reducible assumption
    | ((try lift_lets -underBinder); intro x; first
        | (have hx : Kept s0 x := ?_; rotate_left; subst x; rotate_left; clear_value x)
        | (have : MemUnits := x; subst x)
        | clear_value x
        | skip)
    | with_reducible apply State.setChannel_kept
    | with_reducible apply State.log_kept
    | (with_reducible apply Kept.unmk; dsimp only; with_reducible apply Kept.ofF)
    | split

theorem State.exclude_kept (s : State) (i : SolIn) (r : Int) {s0 : State} (hK : Kept s0 s) :
    Kept s0 (State.exclude s i r) := by
  unfold State.exclude
  repeat' first
    | with_reducible assumption
    | ((try lift_lets -underBinder); intro x; first
        | (have hx : Kept s0 x := ?_; rotate_left; subst x; rotate_left; clear_value x)
        | (have : MemUnits := x; subst x)
        | clear_value x
        | skip)
    | with_reducible apply State.setChannel_kept
    | with_reducible apply State.log_kept

theorem execTimingSolution_kept (s : State) {s0 : State} (hK : Kept s0 s) :
    KeptO s0 (execTimingSolution s) := by
  unfold execTimingSolution
  repeat' first
    | with_reducible assumption
    | ((try lift_lets -underBinder); intro x; first
        | (have hx : Kept s0 x := ?_; rotate_left; subst x; rotate_left; clear_value x)
        | (have hx : Kept s0 x.2 := ?_; rotate_left; subst x; rotate_left; clear_value x)
        | (have hx : Kept s0 x.1 := ?_; rotate_left; subst x; rotate_left; clear_value x)
        | (have hf1 : ∀ s, Kept s0 s → Kept s0 (x s) := ?_; rotate_left; subst x; intros; beta_reduce; rotate_left; clear_value x)
        | (have hf2 : ∀ s a, Kept s0 s → Kept s0 (x s a) := ?_; rotate_left; subst x; intros; beta_reduce; rotate_left; clear_value x)
        | (have hf3 : ∀ s a b, Kept s0 s → Kept s0 (x s a b) := ?_; rotate_left; subst x; intros; beta_reduce; rotate_left; clear_value x)
        | (have hf4 : ∀ a s, Kept s0 s → Kept s0 (x a s) := ?_; rotate_left; subst x; intros; beta_reduce; rotate_left; clear_value x)
        | (have : MemUnits := x; subst x)
        | clear_value x
        | skip)
    | with_reducible apply KeptO.next
    | with_reducible apply State.firstPosition_kept
    | with_reducible apply State.setChannel_kept
    | with_reducible apply State.exclude_kept
    | with_reducible apply State.readmit_kept
    | with_reducible apply State.putN_kept
    | with_reducible apply State.surveyEpoch_kept
    | with_reducible apply State.updateIntegrity_kept
    | with_reducible apply State.detectors_kept
    | with_reducible apply State.freeNat_kept
    | with_reducible refine Kept.pair2 ‹_ = _› (State.freeNat_kept _ ?_)
    | with_reducible apply State.setSlot_kept
    | with_reducible apply State.evalSlot_kept
    | with_reducible apply State.adoptSky_kept
    | with_reducible refine Kept.foldl ?_ fun _ _ _ => ?_
    | with_reducible apply hf1
    | with_reducible apply hf2
    | with_reducible apply hf3
    | with_reducible apply hf4
    | (with_reducible apply Kept.unmk; dsimp only; with_reducible apply Kept.ofF)
    | (intro _; intros; try beta_reduce)
    | split

theorem State.noteBand_kept (s : State) (band : Fin 2) (found : Nat × Int × Int) {s0 : State} (hK : Kept s0 s) :
    Kept s0 (State.noteBand s band found) := by
  unfold State.noteBand
  repeat' first
    | with_reducible assumption
    | ((try lift_lets -underBinder); intro x; first
        | (have hx : Kept s0 x := ?_; rotate_left; subst x; rotate_left; clear_value x)
        | (have hx : Kept s0 x.2 := ?_; rotate_left; subst x; rotate_left; clear_value x)
        | (have hx : Kept s0 x.1 := ?_; rotate_left; subst x; rotate_left; clear_value x)
        | (have : MemUnits := x; subst x)
        | clear_value x
        | skip)
    | with_reducible apply State.setBandState_kept
    | with_reducible apply State.putN_kept
    | with_reducible apply State.setBand_kept

theorem execBandMonitor_kept (band : Fin 2) (ms0 : List PinBlock) (ms20 : List PinBlock) (ms40 : List PinBlock) (ms60 : List PinBlock) (ms80 : List PinBlock) (s : State) {s0 : State} (hK : Kept s0 s) :
    KeptO s0 (execBandMonitor band ms0 ms20 ms40 ms60 ms80 s) := by
  unfold execBandMonitor
  repeat' first
    | with_reducible assumption
    | ((try lift_lets -underBinder); intro x; first
        | (have hx : Kept s0 x := ?_; rotate_left; subst x; rotate_left; clear_value x)
        | skip)
    | with_reducible apply KeptO.next
    | with_reducible apply State.noteBand_kept
    | with_reducible apply State.detectors_kept
    | with_reducible apply State.updateIntegrity_kept
    | split

theorem State.autoResurvey_kept (s : State) {s0 : State} (hK : Kept s0 s) :
    Kept s0 (State.autoResurvey s) := by
  unfold State.autoResurvey
  repeat' first
    | with_reducible assumption
    | with_reducible apply State.startSurvey_kept
    | with_reducible apply State.detectors_kept
    | split

theorem execPositionCheckFix_kept (epoch : Nat) (s : State) {s0 : State} (hK : Kept s0 s) :
    KeptO s0 (execPositionCheckFix epoch s) := by
  unfold execPositionCheckFix
  repeat' first
    | with_reducible assumption
    | ((try lift_lets -underBinder); intro x; first
        | (have hx : Kept s0 x := ?_; rotate_left; subst x; rotate_left; clear_value x)
        | (have : MemUnits := x; subst x)
        | clear_value x
        | skip)
    | with_reducible apply KeptO.next
    | with_reducible apply State.putN_kept
    | with_reducible apply State.log_kept
    | with_reducible apply State.detectors_kept
    | with_reducible apply State.autoResurvey_kept
    | with_reducible apply State.updateIntegrity_kept
    | (with_reducible apply Kept.unmk; dsimp only; with_reducible apply Kept.ofF)
    | split

theorem execSurveyRestart_kept (s : State) {s0 : State} (hK : Kept s0 s) :
    KeptO s0 (execSurveyRestart s) := by
  unfold execSurveyRestart
  repeat' first
    | with_reducible assumption
    | ((try lift_lets -underBinder); intro x; first
        | (have hx : Kept s0 x := ?_; rotate_left; subst x; rotate_left; clear_value x)
        | skip)
    | with_reducible apply KeptO.next
    | with_reducible apply State.putB_kept
    | with_reducible apply State.startSurvey_kept
    | with_reducible apply State.putN_kept
    | with_reducible apply State.updateIntegrity_kept
    | with_reducible apply State.detectors_kept
    | split

end Sys2Proof.Machine
end

