-- ==== Sys2Proof/Laws/Kept/Grist.lean ====
section
/-! SUPPORT. What the operations of Machine/Grist.lean keep. -/

namespace Sys2Proof.Machine

theorem State.setGrist_kept (s : State) (g : Grist) {s0 : State} (hK : Kept s0 s) :
    Kept s0 (State.setGrist s g) := by
  unfold State.setGrist
  repeat' first
    | with_reducible assumption
    | ((try lift_lets -underBinder); intro x; first
        | (have hx : Kept s0 x := ?_; rotate_left; subst x; rotate_left; clear_value x)
        | (have : MemUnits := x; subst x)
        | clear_value x
        | skip)
    | (with_reducible apply Kept.unmk; dsimp only; with_reducible apply Kept.ofF)

theorem State.gristBegin_kept (s : State) (src : GristFrom) {s0 : State} (hK : Kept s0 s) :
    Kept s0 (State.gristBegin s src) := by
  unfold State.gristBegin
  repeat' first
    | with_reducible assumption
    | ((try lift_lets -underBinder); intro x; first
        | (have hx : Kept s0 x := ?_; rotate_left; subst x; rotate_left; clear_value x)
        | (have : MemUnits := x; subst x)
        | clear_value x
        | skip)
    | with_reducible apply State.setGrist_kept
    | with_reducible apply State.putN_kept
    | with_reducible apply State.wakeSky_kept

theorem State.gristEnd_kept (s : State) {s0 : State} (hK : Kept s0 s) :
    Kept s0 (State.gristEnd s) := by
  unfold State.gristEnd
  repeat' first
    | with_reducible assumption
    | ((try lift_lets -underBinder); intro x; first
        | (have hx : Kept s0 x := ?_; rotate_left; subst x; rotate_left; clear_value x)
        | (have : MemUnits := x; subst x)
        | clear_value x
        | skip)
    | with_reducible apply State.setGrist_kept
    | with_reducible apply State.putN_kept
    | with_reducible apply State.skyPower_kept

theorem execGristRequest_kept (request : Nat) (s : State) {s0 : State} (hK : Kept s0 s) :
    KeptO s0 (execGristRequest request s) := by
  unfold execGristRequest
  repeat' first
    | with_reducible assumption
    | with_reducible apply KeptO.next
    | with_reducible apply State.putN_kept
    | with_reducible apply State.gristBegin_kept
    | split

theorem execGristCaptureStart_kept (s : State) {s0 : State} (hK : Kept s0 s) :
    KeptO s0 (execGristCaptureStart s) := by
  unfold execGristCaptureStart
  repeat' first
    | with_reducible assumption
    | ((try lift_lets -underBinder); intro x; first
        | (have hx : Kept s0 x := ?_; rotate_left; subst x; rotate_left; clear_value x)
        | (have hx : Kept s0 x.2 := ?_; rotate_left; subst x; rotate_left; clear_value x)
        | (have hf1 : ∀ s, Kept s0 s → Kept s0 (x s) := ?_; rotate_left; subst x; intros; beta_reduce; rotate_left; clear_value x)
        | (have hf2 : ∀ s a, Kept s0 s → Kept s0 (x s a) := ?_; rotate_left; subst x; intros; beta_reduce; rotate_left; clear_value x)
        | (have hf3 : ∀ s a b, Kept s0 s → Kept s0 (x s a b) := ?_; rotate_left; subst x; intros; beta_reduce; rotate_left; clear_value x)
        | (have hf4 : ∀ a s, Kept s0 s → Kept s0 (x a s) := ?_; rotate_left; subst x; intros; beta_reduce; rotate_left; clear_value x)
        | (have : MemUnits := x; subst x)
        | clear_value x
        | skip)
    | with_reducible apply KeptO.next
    | with_reducible apply State.setGrist_kept
    | with_reducible apply State.putN_kept
    | with_reducible apply hf1
    | with_reducible apply hf2
    | with_reducible apply hf3
    | with_reducible apply hf4
    | (with_reducible apply Kept.unmk; dsimp only; with_reducible apply Kept.ofF)
    | (intro _; intros; try beta_reduce)
    | split

theorem execGristCaptureComplete_kept (samples : Bytes) (s : State) {s0 : State} (hK : Kept s0 s) :
    KeptO s0 (execGristCaptureComplete samples s) := by
  unfold execGristCaptureComplete
  repeat' first
    | with_reducible assumption
    | ((try lift_lets -underBinder); intro x; first
        | (have hx : Kept s0 x := ?_; rotate_left; subst x; rotate_left; clear_value x)
        | (have : MemUnits := x; subst x)
        | clear_value x
        | skip)
    | with_reducible apply KeptO.next
    | with_reducible apply State.setGrist_kept
    | with_reducible apply State.putN_kept
    | with_reducible apply State.log_kept
    | with_reducible apply State.gristEnd_kept
    | (with_reducible apply Kept.unmk; dsimp only; with_reducible apply Kept.ofF)
    | (intro _; intros; try beta_reduce)
    | split

theorem State.meetFix_kept (s : State) (fix : Int) (unc : Int) (first : Nat) {s0 : State} (hK : Kept s0 s) :
    Kept s0 (State.meetFix s fix unc first) := by
  unfold State.meetFix
  repeat' first
    | with_reducible assumption
    | ((try lift_lets -underBinder); intro x; first
        | (have hx : Kept s0 x := ?_; rotate_left; subst x; rotate_left; clear_value x)
        | (have : MemUnits := x; subst x)
        | clear_value x
        | skip)
    | with_reducible apply State.seed_kept
    | with_reducible apply State.startSeedBound_kept
    | with_reducible apply State.setCondition_kept
    | with_reducible apply State.drivePins_kept
    | with_reducible apply State.logSec_kept
    | with_reducible apply State.requestSegment_kept
    | (with_reducible apply Kept.unmk; dsimp only; with_reducible apply Kept.ofF)
    | split

theorem execGristSolveComplete_kept (s : State) {s0 : State} (hK : Kept s0 s) :
    KeptO s0 (execGristSolveComplete s) := by
  unfold execGristSolveComplete
  repeat' first
    | with_reducible assumption
    | ((try lift_lets -underBinder); intro x; first
        | (have hx : Kept s0 x := ?_; rotate_left; subst x; rotate_left; clear_value x)
        | (have hx : Kept s0 x.2 := ?_; rotate_left; subst x; rotate_left; clear_value x)
        | (have hx : Kept s0 x.1 := ?_; rotate_left; subst x; rotate_left; clear_value x)
        | (have hf1 : ∀ s, Kept s0 s → Kept s0 (x s) := ?_; rotate_left; subst x; intros; beta_reduce; rotate_left; clear_value x)
        | (have hf2 : ∀ s a, Kept s0 s → Kept s0 (x s a) := ?_; rotate_left; subst x; intros; beta_reduce; rotate_left; clear_value x)
        | (have hf3 : ∀ s a b, Kept s0 s → Kept s0 (x s a b) := ?_; rotate_left; subst x; intros; beta_reduce; rotate_left; clear_value x)
        | (have hf4 : ∀ a s, Kept s0 s → Kept s0 (x a s) := ?_; rotate_left; subst x; intros; beta_reduce; rotate_left; clear_value x)
        | (have : MemUnits := x; subst x)
        | clear_value x
        | skip)
    | with_reducible apply KeptO.next
    | with_reducible apply State.freeNat_kept
    | with_reducible refine Kept.pair2 ‹_ = _› (State.freeNat_kept _ ?_)
    | with_reducible apply State.putN_kept
    | with_reducible apply State.log_kept
    | with_reducible apply State.setGrist_kept
    | with_reducible apply State.meetFix_kept
    | with_reducible apply State.gristEnd_kept
    | with_reducible apply hf1
    | with_reducible apply hf2
    | with_reducible apply hf3
    | with_reducible apply hf4
    | (with_reducible apply Kept.unmk; dsimp only; with_reducible apply Kept.ofF)
    | (intro _; intros; try beta_reduce)
    | split

theorem execGristHold_kept (hold : Bool) (s : State) {s0 : State} (hK : Kept s0 s) :
    KeptO s0 (execGristHold hold s) := by
  unfold execGristHold
  repeat' first
    | with_reducible assumption
    | with_reducible apply KeptO.next
    | with_reducible apply State.putB_kept

theorem execSlotConfigCommit_kept (slot : Fin 16) (enable : Bool) (kind : Nat) (number : Nat) (s : State) {s0 : State} (hK : Kept s0 s) :
    KeptO s0 (execSlotConfigCommit slot enable kind number s) := by
  unfold execSlotConfigCommit
  repeat' first
    | with_reducible assumption
    | ((try lift_lets -underBinder); intro x; first
        | (have hx : Kept s0 x := ?_; rotate_left; subst x; rotate_left; clear_value x)
        | (have : MemUnits := x; subst x)
        | clear_value x
        | skip)
    | with_reducible apply KeptO.next
    | with_reducible apply State.putB_kept
    | with_reducible apply State.putN_kept
    | with_reducible apply State.bindSlot_kept
    | with_reducible apply State.skyPower_kept
    | with_reducible apply State.gristBegin_kept
    | (with_reducible apply Kept.unmk; dsimp only; with_reducible apply Kept.ofF)
    | split

end Sys2Proof.Machine
end

