-- ==== Sys2Proof/Laws/Kept/Reset.lean ====
section
/-! SUPPORT. What the operations of Machine/Reset.lean keep. -/

namespace Sys2Proof.Machine

theorem State.breakPersist_kept (s : State) {s0 : State} (hK : Kept s0 s) :
    Kept s0 (State.breakPersist s) := by
  unfold State.breakPersist
  repeat' first
    | with_reducible assumption
    | ((try lift_lets -underBinder); intro x; first
        | (have hx : Kept s0 x := ?_; rotate_left; subst x; rotate_left; clear_value x)
        | (have : MemUnits := x; subst x)
        | clear_value x
        | skip)
    | (with_reducible apply Kept.unmk; dsimp only; with_reducible apply Kept.ofF)
    | split

theorem State.recordCause_kept (s : State) (scope : Nat) (cause : Nat) {s0 : State} (hK : Kept s0 s) :
    Kept s0 (State.recordCause s scope cause) := by
  unfold State.recordCause
  repeat' first
    | with_reducible assumption
    | with_reducible apply State.putN_kept

theorem State.setDoms_kept (s : State) (v : Nat) {s0 : State} (hK : Kept s0 s) :
    Kept s0 (State.setDoms s v) := by
  unfold State.setDoms
  repeat' first
    | with_reducible assumption
    | with_reducible apply State.setDom_kept
    | with_reducible refine Kept.foldl ?_ fun _ _ _ => ?_

theorem State.coldBase_kept (s : State) {s0 : State} (hK : Kept s0 s) : Kept s0 (State.coldBase s) :=
  Kept.ofNoMem (p := fun p => keptKeys.contains p.1) (State.breakPersist_kept s hK)

theorem State.note_kept (s : State) (source : Nat) (code : Nat) (data : Bytes) {s0 : State} (hK : Kept s0 s) :
    Kept s0 (State.note s source code data) := by
  unfold State.note
  repeat' first
    | with_reducible assumption
    | ((try lift_lets -underBinder); intro x; first
        | (have hx : Kept s0 x := ?_; rotate_left; subst x; rotate_left; clear_value x)
        | (have : MemUnits := x; subst x)
        | clear_value x
        | skip)
    | (with_reducible apply Kept.unmk; dsimp only; with_reducible apply Kept.ofF)

theorem State.absorb_kept (s : State) (scope : Nat) (cause : Nat) (hold : Nat) {s0 : State} (hK : Kept s0 s) :
    Kept s0 (State.absorb s scope cause hold) := by
  unfold State.absorb
  repeat' first
    | with_reducible assumption
    | ((try lift_lets -underBinder); intro x; first
        | (have hx : Kept s0 x := ?_; rotate_left; subst x; rotate_left; clear_value x)
        | (have : MemUnits := x; subst x)
        | clear_value x
        | skip)
    | with_reducible apply State.recordCause_kept
    | (with_reducible apply Kept.unmk; dsimp only; with_reducible apply Kept.ofF)
    | split

theorem State.assertCold_kept (s : State) (cause : Nat) (hold : Nat) {s0 : State} (hK : Kept s0 s) :
    Kept s0 (State.assertCold s cause hold) := by
  unfold State.assertCold
  repeat' first
    | with_reducible assumption
    | ((try lift_lets -underBinder); intro x; first
        | (have hx : Kept s0 x := ?_; rotate_left; subst x; rotate_left; clear_value x)
        | (have : MemUnits := x; subst x)
        | clear_value x
        | skip)
    | with_reducible apply State.absorb_kept
    | with_reducible apply State.recordCause_kept
    | with_reducible apply State.setDoms_kept
    | with_reducible apply State.coldBase_kept
    | (with_reducible apply Kept.unmk; dsimp only; with_reducible apply Kept.ofF)
    | split

theorem State.dropIncrements_kept (s : State) {s0 : State} (hK : Kept s0 s) :
    Kept s0 (State.dropIncrements s) := by
  unfold State.dropIncrements
  repeat' first
    | with_reducible assumption
    | ((try lift_lets -underBinder); intro x; first
        | (have hx : Kept s0 x := ?_; rotate_left; subst x; rotate_left; clear_value x)
        | (have hx : Kept s0 x.2 := ?_; rotate_left; subst x; rotate_left; clear_value x)
        | (have hx : Kept s0 x.1 := ?_; rotate_left; subst x; rotate_left; clear_value x)
        | (have : MemUnits := x; subst x)
        | clear_value x
        | skip)
    | with_reducible apply State.bump_kept
    | with_reducible refine Kept.foldl ?_ fun _ _ _ => ?_

theorem State.resetServe_kept (s : State) {s0 : State} (hK : Kept s0 s) :
    Kept s0 (State.resetServe s) := by
  unfold State.resetServe
  repeat' first
    | with_reducible assumption
    | ((try lift_lets -underBinder); intro x; first
        | (have hx : Kept s0 x := ?_; rotate_left; subst x; rotate_left; clear_value x)
        | skip)
    | with_reducible apply State.dropIncrements_kept
    | with_reducible apply State.freeNat_kept
    | with_reducible refine Kept.pair2 ‹_ = _› (State.freeNat_kept _ ?_)
    | with_reducible apply State.ctCount_kept
    | with_reducible refine Kept.foldl ?_ fun _ _ _ => ?_
    | (with_reducible apply Kept.unmk; dsimp only; with_reducible apply Kept.ofF)

theorem State.resetMac_kept (s : State) (n : Fin 64) {s0 : State} (hK : Kept s0 s) :
    Kept s0 (State.resetMac s n) := by
  unfold State.resetMac
  repeat' first
    | with_reducible assumption
    | ((try lift_lets -underBinder); intro x; first
        | (have hx : Kept s0 x := ?_; rotate_left; subst x; rotate_left; clear_value x)
        | (have : MemUnits := x; subst x)
        | clear_value x
        | skip)
    | with_reducible apply State.bump_kept
    | with_reducible apply State.setPort_kept

theorem State.resetBlocks_kept (s : State) {s0 : State} (hK : Kept s0 s) :
    Kept s0 (State.resetBlocks s) := by
  unfold State.resetBlocks
  repeat' first
    | with_reducible assumption
    | ((try lift_lets -underBinder); intro x; first
        | (have hx : Kept s0 x := ?_; rotate_left; subst x; rotate_left; clear_value x)
        | (have : MemUnits := x; subst x)
        | clear_value x
        | skip)
    | (with_reducible apply Kept.unmk; dsimp only; with_reducible apply Kept.ofF)

theorem State.warmToCold_kept (s : State) (cause : Nat) (hold : Nat) {s0 : State} (hK : Kept s0 s) :
    Kept s0 (State.warmToCold s cause hold) := by
  unfold State.warmToCold
  repeat' first
    | with_reducible assumption
    | with_reducible apply State.assertCold_kept
    | with_reducible apply State.note_kept

theorem State.assertWarm_kept (s : State) (cause : Nat) (hold : Nat) {s0 : State} (hK : Kept s0 s) :
    Kept s0 (State.assertWarm s cause hold) := by
  unfold State.assertWarm
  repeat' first
    | with_reducible assumption
    | ((try lift_lets -underBinder); intro x; first
        | (have hx : Kept s0 x := ?_; rotate_left; subst x; rotate_left; clear_value x)
        | (have : MemUnits := x; subst x)
        | clear_value x
        | skip)
    | with_reducible apply State.absorb_kept
    | with_reducible apply State.warmToCold_kept
    | with_reducible apply State.recordCause_kept
    | with_reducible apply State.setDom_kept
    | with_reducible apply State.putB_kept
    | with_reducible apply State.setMode_kept
    | with_reducible apply State.resetOol_kept
    | with_reducible apply State.discardSched_kept
    | with_reducible apply State.breakPersist_kept
    | with_reducible apply State.resetMac_kept
    | with_reducible apply State.resetServe_kept
    | with_reducible apply State.bnReset_kept
    | with_reducible apply State.zeroiseKeys_kept
    | with_reducible apply State.resetBlocks_kept
    | with_reducible refine Kept.foldl ?_ fun _ _ _ => ?_
    | (with_reducible apply Kept.unmk; dsimp only; with_reducible apply Kept.ofF)
    | (with_reducible apply Kept.unmk; dsimp only; with_reducible apply Kept.ofNoSram)
    | (intro _; intros; try beta_reduce)
    | split

theorem State.warmObjects_kept (s : State) {s0 : State} (hK : Kept s0 s) :
    Kept s0 (State.warmObjects s) := by
  unfold State.warmObjects
  repeat' first
    | with_reducible assumption
    | ((try lift_lets -underBinder); intro x; first
        | (have hx : Kept s0 x := ?_; rotate_left; subst x; rotate_left; clear_value x)
        | (have hx : Kept s0 x.2 := ?_; rotate_left; subst x; rotate_left; clear_value x)
        | (have hx : Kept s0 x.1 := ?_; rotate_left; subst x; rotate_left; clear_value x)
        | (have : MemUnits := x; subst x)
        | (have : List (Nat × Val) := x; subst x)
        | skip)
    | with_reducible apply State.put_kept
    | with_reducible refine Kept.foldl ?_ fun _ _ _ => ?_
    | (with_reducible apply Kept.unmk; dsimp only; with_reducible apply Kept.ofF)
    | (with_reducible apply Kept.unmk; dsimp only; with_reducible apply Kept.ofFilter)

theorem State.releaseWarm_kept (s : State) {s0 : State} (hK : Kept s0 s) :
    Kept s0 (State.releaseWarm s) := by
  unfold State.releaseWarm
  repeat' first
    | with_reducible assumption
    | ((try lift_lets -underBinder); intro x; first
        | (have hx : Kept s0 x := ?_; rotate_left; subst x; rotate_left; clear_value x)
        | (have : MemUnits := x; subst x)
        | clear_value x
        | skip)
    | with_reducible apply State.freeNat_kept
    | with_reducible refine Kept.pair2 ‹_ = _› (State.freeNat_kept _ ?_)
    | with_reducible apply State.pulseLost_kept
    | with_reducible apply State.setDom_kept
    | with_reducible refine Kept.foldl ?_ fun _ _ _ => ?_
    | (with_reducible apply Kept.unmk; dsimp only; with_reducible apply Kept.ofF)
    | (intro _; intros; try beta_reduce)
    | split

theorem State.warmStep2_kept (s : State) {s0 : State} (hK : Kept s0 s) :
    Kept s0 (State.warmStep2 s) := by
  unfold State.warmStep2
  repeat' first
    | with_reducible assumption
    | ((try lift_lets -underBinder); intro x; first
        | (have hx : Kept s0 x := ?_; rotate_left; subst x; rotate_left; clear_value x)
        | (have hx : Kept s0 x.2 := ?_; rotate_left; subst x; rotate_left; clear_value x)
        | (have hx : Kept s0 x.1 := ?_; rotate_left; subst x; rotate_left; clear_value x)
        | (have : MemUnits := x; subst x)
        | clear_value x
        | skip)
    | with_reducible apply State.setDom_kept
    | with_reducible apply State.admitHeld_kept
    | with_reducible apply State.log_kept
    | with_reducible apply State.revertTrial_kept
    | with_reducible apply State.putN_kept
    | with_reducible refine Kept.foldl ?_ fun _ _ _ => ?_
    | (with_reducible apply Kept.unmk; dsimp only; with_reducible apply Kept.ofF)
    | (intro _; intros; try beta_reduce)
    | split

theorem State.warmStep4_kept (s : State) {s0 : State} (hK : Kept s0 s) :
    Kept s0 (State.warmStep4 s) := by
  unfold State.warmStep4
  repeat' first
    | with_reducible assumption
    | ((try lift_lets -underBinder); intro x; first
        | (have hx : Kept s0 x := ?_; rotate_left; subst x; rotate_left; clear_value x)
        | (have : MemUnits := x; subst x)
        | clear_value x
        | skip)
    | with_reducible apply State.warmObjects_kept
    | with_reducible apply State.setDom_kept
    | with_reducible apply State.bnShow_kept
    | with_reducible apply State.putN_kept
    | with_reducible apply State.bump_kept
    | with_reducible apply State.serveQuiet_kept
    | (with_reducible apply Kept.unmk; dsimp only; with_reducible apply Kept.ofF)
    | split

theorem State.warmGo_kept (s : State) (t ms stage : Nat) (f : State → State) {s0 : State} (hK : Kept s0 s)
    (hf : ∀ s, Kept s0 s → Kept s0 (f s)) :
    Kept s0 (if s.sys.warmStage + 1 = stage && t + ticksMs ms ≤ s.now then
      ({ f s with sys := { (f s).sys with warmStage := stage } } : State) else s) := by
  split
  · exact Kept.unmk (Kept.ofF (hf s hK))
  · exact hK

theorem State.warmTick_kept (s : State) {s0 : State} (hK : Kept s0 s) : Kept s0 (State.warmTick s) := by
  unfold State.warmTick
  split
  · exact hK
  · lift_lets -underBinder
    intro go
    have hgo : ∀ s ms stage f, Kept s0 s → (∀ s, Kept s0 s → Kept s0 (f s)) → Kept s0 (go s ms stage f) :=
      fun s ms stage f hs hf => State.warmGo_kept s _ ms stage f hs hf
    clear_value go
    repeat' first
      | with_reducible assumption
      | (intro x; first
          | (have hx : Kept s0 x := ?_; rotate_left; subst x; rotate_left; clear_value x)
          | skip)
      | with_reducible apply hgo
      | with_reducible apply State.warmStep2_kept
      | with_reducible apply State.warmStep4_kept
      | with_reducible apply State.loadKeys_kept
      | with_reducible apply State.releaseSide_kept
      | with_reducible apply State.deliverPulses_kept
      | with_reducible refine Kept.foldl ?_ fun _ _ _ => ?_
      | with_reducible apply State.setDom_kept
      | lift_lets -underBinder
      | (with_reducible apply Kept.unmk; dsimp only; with_reducible apply Kept.ofF)
      | split

end Sys2Proof.Machine
end

