-- ==== Sys2Proof/Laws/Kept/Blocks.lean ====
section
/-! SUPPORT. What the operations of Machine/Blocks.lean keep. -/

namespace Sys2Proof.Machine

theorem State.loseThread_kept (s : State) (e : Fin 8) (t : Fin 16) {s0 : State} (hK : Kept s0 s) :
    Kept s0 (State.loseThread s e t) := by
  unfold State.loseThread
  repeat' first
    | with_reducible assumption
    | with_reducible apply State.bump_kept
    | with_reducible apply State.countE_kept
    | with_reducible apply State.endThread_kept

theorem State.loseBlock_kept (s : State) (b : BlockReq) {s0 : State} (hK : Kept s0 s) :
    Kept s0 (State.loseBlock s b).2 := by
  unfold State.loseBlock
  repeat' first
    | with_reducible assumption
    | ((try lift_lets -underBinder); intro x; first
        | (have hx : Kept s0 x := ?_; rotate_left; subst x; rotate_left; clear_value x)
        | (have hx : Kept s0 x.2 := ?_; rotate_left; subst x; rotate_left; clear_value x)
        | (have hx : Kept s0 x.1 := ?_; rotate_left; subst x; rotate_left; clear_value x)
        | (have : MemUnits := x; subst x)
        | clear_value x
        | skip)
    | with_reducible apply State.bump_kept
    | with_reducible apply State.setPort_kept
    | with_reducible apply State.loseThread_kept
    | with_reducible apply State.bnStop_kept
    | with_reducible apply State.putN_kept
    | with_reducible apply State.gristEnd_kept
    | with_reducible refine Kept.foldl ?_ fun _ _ _ => ?_
    | (with_reducible apply Kept.unmk; dsimp only; with_reducible apply Kept.ofF)
    | (intro _; intros; try beta_reduce)
    | split

theorem State.restartBlock_kept (s : State) (b : BlockReq) {s0 : State} (hK : Kept s0 s) :
    Kept s0 (State.restartBlock s b) := by
  unfold State.restartBlock
  repeat' first
    | with_reducible assumption
    | ((try lift_lets -underBinder); intro x; first
        | (have hx : Kept s0 x := ?_; rotate_left; subst x; rotate_left; clear_value x)
        | (have hf1 : ∀ s, Kept s0 s → Kept s0 (x s) := ?_; rotate_left; subst x; intros; beta_reduce; rotate_left; clear_value x)
        | (have hf2 : ∀ s a, Kept s0 s → Kept s0 (x s a) := ?_; rotate_left; subst x; intros; beta_reduce; rotate_left; clear_value x)
        | (have hf3 : ∀ s a b, Kept s0 s → Kept s0 (x s a b) := ?_; rotate_left; subst x; intros; beta_reduce; rotate_left; clear_value x)
        | (have hf4 : ∀ a s, Kept s0 s → Kept s0 (x a s) := ?_; rotate_left; subst x; intros; beta_reduce; rotate_left; clear_value x)
        | (have : MemUnits := x; subst x)
        | clear_value x
        | skip)
    | with_reducible apply State.setEngine_kept
    | with_reducible apply State.releaseChannel_kept
    | with_reducible apply State.skyAwake_kept
    | with_reducible refine Kept.foldl ?_ fun _ _ _ => ?_
    | with_reducible apply hf1
    | with_reducible apply hf2
    | with_reducible apply hf3
    | with_reducible apply hf4
    | (with_reducible apply Kept.unmk; dsimp only; with_reducible apply Kept.ofF)
    | (intro _; intros; try beta_reduce)
    | split

theorem State.answerBlock_kept (s : State) (b : BlockReq) (status : Nat) {s0 : State} (hK : Kept s0 s) :
    Kept s0 (State.answerBlock s b status) := by
  unfold State.answerBlock
  repeat' first
    | with_reducible assumption
    | ((try lift_lets -underBinder); intro x; first
        | (have hx : Kept s0 x := ?_; rotate_left; subst x; rotate_left; clear_value x)
        | (have : MemUnits := x; subst x)
        | clear_value x
        | skip)
    | with_reducible apply State.answer_kept
    | (with_reducible apply Kept.unmk; dsimp only; with_reducible apply Kept.ofF)
    | split

theorem State.dropBlock_kept (s : State) (b : BlockReq) (status : Nat) {s0 : State} (hK : Kept s0 s) :
    Kept s0 (State.dropBlock s b status) := by
  unfold State.dropBlock
  repeat' first
    | with_reducible assumption
    | ((try lift_lets -underBinder); intro x; first
        | (have hx : Kept s0 x := ?_; rotate_left; subst x; rotate_left; clear_value x)
        | (have : MemUnits := x; subst x)
        | clear_value x
        | skip)
    | with_reducible apply State.putN_kept
    | with_reducible apply State.answerBlock_kept
    | (with_reducible apply Kept.unmk; dsimp only; with_reducible apply Kept.ofF)

theorem State.finishBlock_kept (s : State) (b : BlockReq) (lost : Nat) {s0 : State} (hK : Kept s0 s) :
    Kept s0 (State.finishBlock s b lost) := by
  unfold State.finishBlock
  repeat' first
    | with_reducible assumption
    | ((try lift_lets -underBinder); intro x; first
        | (have hx : Kept s0 x := ?_; rotate_left; subst x; rotate_left; clear_value x)
        | (have : MemUnits := x; subst x)
        | clear_value x
        | skip)
    | with_reducible apply State.restartBlock_kept
    | with_reducible apply State.releaseSide_kept
    | with_reducible apply State.putN_kept
    | with_reducible apply State.putB_kept
    | with_reducible apply State.bump_kept
    | with_reducible apply State.log_kept
    | with_reducible apply State.answerBlock_kept
    | (with_reducible apply Kept.unmk; dsimp only; with_reducible apply Kept.ofF)

theorem State.effectBlock_kept (s : State) (b : BlockReq) (lose : Bool) {s0 : State} (hK : Kept s0 s) :
    Kept s0 (State.effectBlock s b lose) := by
  unfold State.effectBlock
  repeat' first
    | with_reducible assumption
    | ((try lift_lets -underBinder); intro x; first
        | (have hx : Kept s0 x := ?_; rotate_left; subst x; rotate_left; clear_value x)
        | (have hx : Kept s0 x.2 := ?_; rotate_left; subst x; rotate_left; clear_value x)
        | (have hx : Kept s0 x.1 := ?_; rotate_left; subst x; rotate_left; clear_value x)
        | (have : MemUnits := x; subst x)
        | clear_value x
        | skip)
    | with_reducible apply State.dropBlock_kept
    | with_reducible apply State.loseBlock_kept
    | with_reducible refine Kept.pair2 ‹_ = _› (State.loseBlock_kept _ _ ?_)
    | with_reducible apply State.finishBlock_kept
    | (with_reducible apply Kept.unmk; dsimp only; with_reducible apply Kept.ofF)
    | split

theorem State.startBlock_kept (s : State) (b : BlockReq) {s0 : State} (hK : Kept s0 s) :
    Kept s0 (State.startBlock s b) := by
  unfold State.startBlock
  repeat' first
    | with_reducible assumption
    | ((try lift_lets -underBinder); intro x; first
        | (have hx : Kept s0 x := ?_; rotate_left; subst x; rotate_left; clear_value x)
        | (have : MemUnits := x; subst x)
        | clear_value x
        | skip)
    | with_reducible apply State.putN_kept
    | with_reducible apply State.effectBlock_kept
    | (with_reducible apply Kept.unmk; dsimp only; with_reducible apply Kept.ofF)
    | split

theorem execBlockReset_kept (code : Nat) (force : Bool) (s : State) {s0 : State} (hK : Kept s0 s) :
    KeptO s0 (execBlockReset code force s) := by
  unfold execBlockReset
  repeat' first
    | with_reducible assumption
    | with_reducible apply KeptO.next
    | with_reducible apply State.startBlock_kept
    | (with_reducible apply Kept.unmk; dsimp only; with_reducible apply Kept.ofF)
    | split

theorem execBlockQuiesced_kept (s : State) {s0 : State} (hK : Kept s0 s) :
    KeptO s0 (execBlockQuiesced s) := by
  unfold execBlockQuiesced
  repeat' first
    | with_reducible assumption
    | ((try lift_lets -underBinder); intro x; first
        | (have hx : Kept s0 x := ?_; rotate_left; subst x; rotate_left; clear_value x)
        | (have : MemUnits := x; subst x)
        | clear_value x
        | skip)
    | with_reducible apply KeptO.next
    | with_reducible apply State.effectBlock_kept
    | (with_reducible apply Kept.unmk; dsimp only; with_reducible apply Kept.ofF)
    | split

theorem execQuiesceTimeout_kept (s : State) {s0 : State} (hK : Kept s0 s) :
    KeptO s0 (execQuiesceTimeout s) := by
  unfold execQuiesceTimeout
  repeat' first
    | with_reducible assumption
    | ((try lift_lets -underBinder); intro x; first
        | (have hx : Kept s0 x := ?_; rotate_left; subst x; rotate_left; clear_value x)
        | (have : MemUnits := x; subst x)
        | clear_value x
        | skip)
    | with_reducible apply KeptO.next
    | with_reducible apply State.effectBlock_kept
    | with_reducible apply State.log_kept
    | with_reducible apply State.dropBlock_kept
    | (with_reducible apply Kept.unmk; dsimp only; with_reducible apply Kept.ofF)
    | split

theorem execCrossingResync_kept (crossing : Nat) (discarded : Nat) (s : State) {s0 : State} (hK : Kept s0 s) :
    KeptO s0 (execCrossingResync crossing discarded s) := by
  unfold execCrossingResync
  repeat' first
    | with_reducible assumption
    | ((try lift_lets -underBinder); intro x; first
        | (have hx : Kept s0 x := ?_; rotate_left; subst x; rotate_left; clear_value x)
        | (have : MemUnits := x; subst x)
        | clear_value x
        | skip)
    | with_reducible apply KeptO.next
    | with_reducible apply State.bump_kept
    | with_reducible apply State.log_kept
    | (with_reducible apply Kept.unmk; dsimp only; with_reducible apply Kept.ofF)
    | split

theorem execCrossingHang_kept (crossing : Nat) (processor : Option (Fin 4)) (s : State) {s0 : State} (hK : Kept s0 s) :
    KeptO s0 (execCrossingHang crossing processor s) := by
  unfold execCrossingHang
  repeat' first
    | with_reducible assumption
    | ((try lift_lets -underBinder); intro x; first
        | (have hx : Kept s0 x := ?_; rotate_left; subst x; rotate_left; clear_value x)
        | (have : MemUnits := x; subst x)
        | clear_value x
        | skip)
    | with_reducible apply KeptO.next
    | with_reducible apply State.putN_kept
    | with_reducible apply State.bump_kept
    | with_reducible apply State.log_kept
    | (with_reducible apply Kept.unmk; dsimp only; with_reducible apply Kept.ofF)
    | split

end Sys2Proof.Machine
end

