-- ==== Sys2Proof/Laws/Kept/Power.lean ====
section
/-! SUPPORT. What the operations of Machine/Power.lean keep. -/

namespace Sys2Proof.Machine

theorem State.report_kept (s : State) (source : Nat) (code : Nat) (data : Bytes) {s0 : State} (hK : Kept s0 s) :
    Kept s0 (State.report s source code data) := by
  unfold State.report
  repeat' first
    | with_reducible assumption
    | with_reducible apply State.log_kept
    | with_reducible apply State.note_kept
    | split

theorem State.unpowered_kept (s : State) (vkeep main : Bool) {s0 : State} (hK : Kept s0 s) :
    Kept s0 (State.unpowered s vkeep main) := by
  have hb := State.breakPersist_kept s hK
  exact State.putN_kept _ _ _ ⟨hb.1, hb.2.1, hb.2.2.1, hb.2.2.2.1, fun _ => ⟨rfl, rfl, rfl, rfl⟩⟩

theorem execFirstPower_kept (vkeep : Bool) (main : Bool) (s : State) {s0 : State} (hK : Kept s0 s) :
    KeptO s0 (execFirstPower vkeep main s) := by
  unfold execFirstPower
  repeat' first
    | with_reducible assumption
    | ((try lift_lets -underBinder); intro x; first
        | (have hx : Kept s0 x := ?_; rotate_left; subst x; rotate_left; clear_value x)
        | (have : MemUnits := x; subst x)
        | clear_value x
        | skip)
    | with_reducible apply KeptO.next
    | with_reducible apply State.unpowered_kept
    | with_reducible apply State.recordCause_kept
    | with_reducible apply State.putN_kept
    | with_reducible apply State.setDoms_kept
    | with_reducible apply State.drivePins_kept
    | (with_reducible apply Kept.unmk; dsimp only; with_reducible apply Kept.ofF)
    | split

theorem execMainSupplyLoss_kept (s : State) {s0 : State} (hK : Kept s0 s) :
    KeptO s0 (execMainSupplyLoss s) := by
  unfold execMainSupplyLoss
  repeat' first
    | with_reducible assumption
    | ((try lift_lets -underBinder); intro x; first
        | (have hx : Kept s0 x := ?_; rotate_left; subst x; rotate_left; clear_value x)
        | (have : MemUnits := x; subst x)
        | clear_value x
        | skip)
    | with_reducible apply KeptO.next
    | with_reducible apply State.unpowered_kept
    | with_reducible apply State.drivePins_kept
    | with_reducible apply State.setDoms_kept
    | with_reducible apply State.coldBase_kept
    | with_reducible apply State.putN_kept
    | (with_reducible apply Kept.unmk; dsimp only; with_reducible apply Kept.ofF)
    | split

theorem execMainSupplyReturn_kept (s : State) {s0 : State} (hK : Kept s0 s) :
    KeptO s0 (execMainSupplyReturn s) := by
  unfold execMainSupplyReturn
  repeat' first
    | with_reducible assumption
    | ((try lift_lets -underBinder); intro x; first
        | (have hx : Kept s0 x := ?_; rotate_left; subst x; rotate_left; clear_value x)
        | (have : MemUnits := x; subst x)
        | clear_value x
        | skip)
    | with_reducible apply KeptO.next
    | with_reducible apply State.putN_kept
    | with_reducible apply State.assertCold_kept
    | (with_reducible apply Kept.unmk; dsimp only; with_reducible apply Kept.ofF)
    | split

theorem execVkeepRemoval_kept (s : State) {s0 : State} (hK : Kept s0 s) :
    KeptO s0 (execVkeepRemoval s) := by
  unfold execVkeepRemoval
  repeat' first
    | with_reducible assumption
    | ((try lift_lets -underBinder); intro x; first
        | (have hx : Kept s0 x := ?_; rotate_left; subst x; rotate_left; clear_value x)
        | (have : MemUnits := x; subst x)
        | clear_value x
        | skip)
    | with_reducible apply KeptO.next
    | with_reducible apply State.unpowered_kept
    | with_reducible apply State.drivePins_kept
    | (with_reducible apply Kept.unmk; dsimp only; with_reducible apply Kept.ofF)
    | split

theorem execVkeepMonitor_kept (mV : Nat) (s : State) {s0 : State} (hK : Kept s0 s) :
    KeptO s0 (execVkeepMonitor mV s) := by
  unfold execVkeepMonitor
  repeat' first
    | with_reducible assumption
    | ((try lift_lets -underBinder); intro x; first
        | (have hx : Kept s0 x := ?_; rotate_left; subst x; rotate_left; clear_value x)
        | (have : MemUnits := x; subst x)
        | clear_value x
        | skip)
    | with_reducible apply KeptO.next
    | with_reducible apply State.putN_kept
    | with_reducible apply State.log_kept
    | (with_reducible apply Kept.unmk; dsimp only; with_reducible apply Kept.ofF)
    | split

theorem execRstnAssert_kept (s : State) {s0 : State} (hK : Kept s0 s) :
    KeptO s0 (execRstnAssert s) := by
  unfold execRstnAssert
  repeat' first
    | with_reducible assumption
    | ((try lift_lets -underBinder); intro x; first
        | (have hx : Kept s0 x := ?_; rotate_left; subst x; rotate_left; clear_value x)
        | (have : MemUnits := x; subst x)
        | clear_value x
        | skip)
    | with_reducible apply KeptO.next
    | with_reducible apply State.assertCold_kept
    | (with_reducible apply Kept.unmk; dsimp only; with_reducible apply Kept.ofF)

theorem execRstnDeassert_kept (s : State) {s0 : State} (hK : Kept s0 s) :
    KeptO s0 (execRstnDeassert s) := by
  unfold execRstnDeassert
  repeat' first
    | with_reducible assumption
    | ((try lift_lets -underBinder); intro x; first
        | (have hx : Kept s0 x := ?_; rotate_left; subst x; rotate_left; clear_value x)
        | (have : MemUnits := x; subst x)
        | clear_value x
        | skip)
    | with_reducible apply KeptO.next
    | (with_reducible apply Kept.unmk; dsimp only; with_reducible apply Kept.ofF)

theorem execWrstnAssert_kept (s : State) {s0 : State} (hK : Kept s0 s) :
    KeptO s0 (execWrstnAssert s) := by
  unfold execWrstnAssert
  repeat' first
    | with_reducible assumption
    | ((try lift_lets -underBinder); intro x; first
        | (have hx : Kept s0 x := ?_; rotate_left; subst x; rotate_left; clear_value x)
        | (have : MemUnits := x; subst x)
        | clear_value x
        | skip)
    | with_reducible apply KeptO.next
    | with_reducible apply State.assertWarm_kept
    | (with_reducible apply Kept.unmk; dsimp only; with_reducible apply Kept.ofF)

theorem execWrstnDeassert_kept (s : State) {s0 : State} (hK : Kept s0 s) :
    KeptO s0 (execWrstnDeassert s) := by
  unfold execWrstnDeassert
  repeat' first
    | with_reducible assumption
    | ((try lift_lets -underBinder); intro x; first
        | (have hx : Kept s0 x := ?_; rotate_left; subst x; rotate_left; clear_value x)
        | (have : MemUnits := x; subst x)
        | clear_value x
        | skip)
    | with_reducible apply KeptO.next
    | (with_reducible apply Kept.unmk; dsimp only; with_reducible apply Kept.ofF)

theorem execWatchdogWarm_kept (s : State) {s0 : State} (hK : Kept s0 s) :
    KeptO s0 (execWatchdogWarm s) := by
  unfold execWatchdogWarm
  repeat' first
    | with_reducible assumption
    | ((try lift_lets -underBinder); intro x; first
        | (have hx : Kept s0 x := ?_; rotate_left; subst x; rotate_left; clear_value x)
        | (have : MemUnits := x; subst x)
        | clear_value x
        | skip)
    | with_reducible apply KeptO.next
    | with_reducible apply State.bump_kept
    | with_reducible apply State.assertWarm_kept
    | (with_reducible apply Kept.unmk; dsimp only; with_reducible apply Kept.ofF)
    | split

theorem execWatchdogCold_kept (s : State) {s0 : State} (hK : Kept s0 s) :
    KeptO s0 (execWatchdogCold s) := by
  unfold execWatchdogCold
  repeat' first
    | with_reducible assumption
    | ((try lift_lets -underBinder); intro x; first
        | (have hx : Kept s0 x := ?_; rotate_left; subst x; rotate_left; clear_value x)
        | (have : MemUnits := x; subst x)
        | clear_value x
        | skip)
    | with_reducible apply KeptO.next
    | with_reducible apply State.assertCold_kept
    | (with_reducible apply Kept.unmk; dsimp only; with_reducible apply Kept.ofF)
    | split

theorem execResetRequestWarm_kept (s : State) {s0 : State} (hK : Kept s0 s) :
    KeptO s0 (execResetRequestWarm s) := by
  unfold execResetRequestWarm
  repeat' first
    | with_reducible assumption
    | ((try lift_lets -underBinder); intro x; first
        | (have hx : Kept s0 x := ?_; rotate_left; subst x; rotate_left; clear_value x)
        | (have : MemUnits := x; subst x)
        | clear_value x
        | skip)
    | with_reducible apply KeptO.next
    | with_reducible apply State.assertWarm_kept
    | (with_reducible apply Kept.unmk; dsimp only; with_reducible apply Kept.ofF)
    | split

theorem execResetRequestCold_kept (s : State) {s0 : State} (hK : Kept s0 s) :
    KeptO s0 (execResetRequestCold s) := by
  unfold execResetRequestCold
  repeat' first
    | with_reducible assumption
    | ((try lift_lets -underBinder); intro x; first
        | (have hx : Kept s0 x := ?_; rotate_left; subst x; rotate_left; clear_value x)
        | (have : MemUnits := x; subst x)
        | clear_value x
        | skip)
    | with_reducible apply KeptO.next
    | with_reducible apply State.assertCold_kept
    | (with_reducible apply Kept.unmk; dsimp only; with_reducible apply Kept.ofF)
    | split

theorem execThermalTrip_kept (s : State) {s0 : State} (hK : Kept s0 s) :
    KeptO s0 (execThermalTrip s) := by
  unfold execThermalTrip
  repeat' first
    | with_reducible assumption
    | with_reducible apply KeptO.next
    | with_reducible apply State.bump_kept
    | with_reducible apply State.assertCold_kept
    | split

theorem execThermalWarning_kept (temp : Int) (s : State) {s0 : State} (hK : Kept s0 s) :
    KeptO s0 (execThermalWarning temp s) := by
  unfold execThermalWarning
  repeat' first
    | with_reducible assumption
    | ((try lift_lets -underBinder); intro x; first
        | (have hx : Kept s0 x := ?_; rotate_left; subst x; rotate_left; clear_value x)
        | (have : MemUnits := x; subst x)
        | clear_value x
        | skip)
    | with_reducible apply KeptO.next
    | with_reducible apply State.putN_kept
    | with_reducible apply State.log_kept
    | (with_reducible apply Kept.unmk; dsimp only; with_reducible apply Kept.ofF)
    | split

theorem execOscEdgeLoss_kept (s : State) {s0 : State} (hK : Kept s0 s) :
    KeptO s0 (execOscEdgeLoss s) := by
  unfold execOscEdgeLoss
  repeat' first
    | with_reducible assumption
    | ((try lift_lets -underBinder); intro x; first
        | (have hx : Kept s0 x := ?_; rotate_left; subst x; rotate_left; clear_value x)
        | (have : MemUnits := x; subst x)
        | clear_value x
        | skip)
    | with_reducible apply KeptO.next
    | with_reducible apply State.report_kept
    | (with_reducible apply Kept.unmk; dsimp only; with_reducible apply Kept.ofF)
    | split

theorem execOscRestored_kept (s : State) {s0 : State} (hK : Kept s0 s) :
    KeptO s0 (execOscRestored s) := by
  unfold execOscRestored
  repeat' first
    | with_reducible assumption
    | ((try lift_lets -underBinder); intro x; first
        | (have hx : Kept s0 x := ?_; rotate_left; subst x; rotate_left; clear_value x)
        | (have : MemUnits := x; subst x)
        | clear_value x
        | skip)
    | with_reducible apply KeptO.next
    | with_reducible apply State.report_kept
    | (with_reducible apply Kept.unmk; dsimp only; with_reducible apply Kept.ofF)
    | split

theorem execTamperAssert_kept (s : State) {s0 : State} (hK : Kept s0 s) :
    KeptO s0 (execTamperAssert s) := by
  unfold execTamperAssert
  repeat' first
    | with_reducible assumption
    | ((try lift_lets -underBinder); intro x; first
        | (have hx : Kept s0 x := ?_; rotate_left; subst x; rotate_left; clear_value x)
        | (have : MemUnits := x; subst x)
        | clear_value x
        | skip)
    | with_reducible apply KeptO.next
    | with_reducible apply State.putB_kept
    | with_reducible apply State.note_kept
    | with_reducible apply State.assertCold_kept
    | (with_reducible apply Kept.unmk; dsimp only; with_reducible apply Kept.ofF)
    | split

theorem State.clearTamper_kept (s : State) (session : Nat) {s0 : State} (hK : Kept s0 s) :
    Kept s0 (State.clearTamper s session) := by
  unfold State.clearTamper
  repeat' first
    | with_reducible assumption
    | with_reducible apply State.putB_kept
    | with_reducible apply State.logSec_kept

theorem execTamperLatchClear_kept (session : Fin 32) (s : State) {s0 : State} (hK : Kept s0 s) :
    KeptO s0 (execTamperLatchClear session s) := by
  unfold execTamperLatchClear
  repeat' first
    | with_reducible assumption
    | with_reducible apply KeptO.next
    | with_reducible apply State.clearTamper_kept
    | split

theorem State.tamperErase_kept (s : State) {s0 : State} (hK : Kept s0 s) :
    Kept s0 (State.tamperErase s) := by
  unfold State.tamperErase
  repeat' first
    | with_reducible assumption
    | ((try lift_lets -underBinder); intro x; first
        | (have hx : Kept s0 x := ?_; rotate_left; subst x; rotate_left; clear_value x)
        | (have : MemUnits := x; subst x)
        | clear_value x
        | skip)
    | with_reducible apply State.logSec_kept
    | (with_reducible apply Kept.unmk; dsimp only; with_reducible apply Kept.ofF)
    | (intro _; intros; try beta_reduce)
    | split

theorem State.setStep_kept (s : State) (k : Nat) {s0 : State} (hK : Kept s0 s) :
    Kept s0 (State.setStep s k) := by
  unfold State.setStep
  repeat' first
    | with_reducible assumption
    | ((try lift_lets -underBinder); intro x; first
        | (have hx : Kept s0 x := ?_; rotate_left; subst x; rotate_left; clear_value x)
        | (have : MemUnits := x; subst x)
        | clear_value x
        | skip)
    | (with_reducible apply Kept.unmk; dsimp only; with_reducible apply Kept.ofF)

theorem execColdResetRelease_kept (bootsel : Fin 8) (oscsel : Fin 4) (oscdiff : Bool) (dukOk : Bool) (tj : Int) (s : State) {s0 : State} (hK : Kept s0 s) :
    KeptO s0 (execColdResetRelease bootsel oscsel oscdiff dukOk tj s) := by
  unfold execColdResetRelease
  repeat' first
    | with_reducible assumption
    | ((try lift_lets -underBinder); intro x; first
        | (have hx : Kept s0 x := ?_; rotate_left; subst x; rotate_left; clear_value x)
        | (have : MemUnits := x; subst x)
        | clear_value x
        | skip)
    | with_reducible apply KeptO.next
    | with_reducible apply State.putN_kept
    | with_reducible apply State.putB_kept
    | with_reducible apply State.note_kept
    | with_reducible apply State.setDoms_kept
    | (with_reducible apply Kept.unmk; dsimp only; with_reducible apply Kept.ofF)
    | split

theorem State.holdPins_kept (s : State) {s0 : State} (hK : Kept s0 s) :
    Kept s0 (State.holdPins s) := by
  unfold State.holdPins
  repeat' first
    | with_reducible assumption
    | ((try lift_lets -underBinder); intro x; first
        | (have hx : Kept s0 x := ?_; rotate_left; subst x; rotate_left; clear_value x)
        | (have : MemUnits := x; subst x)
        | clear_value x
        | skip)
    | with_reducible apply State.setDoms_kept
    | (with_reducible apply Kept.unmk; dsimp only; with_reducible apply Kept.ofF)

theorem execTrimLoadComplete_kept (aOk : Bool) (bOk : Bool) (s : State) {s0 : State} (hK : Kept s0 s) :
    KeptO s0 (execTrimLoadComplete aOk bOk s) := by
  unfold execTrimLoadComplete
  repeat' first
    | with_reducible assumption
    | ((try lift_lets -underBinder); intro x; first
        | (have hx : Kept s0 x := ?_; rotate_left; subst x; rotate_left; clear_value x)
        | (have : MemUnits := x; subst x)
        | clear_value x
        | skip)
    | with_reducible apply KeptO.next
    | with_reducible apply State.holdPins_kept
    | with_reducible apply State.putN_kept
    | with_reducible apply State.note_kept
    | with_reducible apply State.setStep_kept
    | with_reducible apply State.setDom_kept
    | with_reducible apply State.drivePins_kept
    | (with_reducible apply Kept.unmk; dsimp only; with_reducible apply Kept.ofF)
    | split

theorem State.startRaw_kept (s : State) {s0 : State} (hK : Kept s0 s) :
    Kept s0 (State.startRaw s) := by
  unfold State.startRaw
  repeat' first
    | with_reducible assumption
    | ((try lift_lets -underBinder); intro x; first
        | (have hx : Kept s0 x := ?_; rotate_left; subst x; rotate_left; clear_value x)
        | (have : MemUnits := x; subst x)
        | clear_value x
        | skip)
    | with_reducible apply State.setDom_kept
    | (with_reducible apply Kept.unmk; dsimp only; with_reducible apply Kept.ofF)

theorem State.seedSnowdrop_kept (s : State) {s0 : State} (hK : Kept s0 s) :
    Kept s0 (State.seedSnowdrop s) := by
  unfold State.seedSnowdrop
  repeat' first
    | with_reducible assumption
    | ((try lift_lets -underBinder); intro x; first
        | (have hx : Kept s0 x := ?_; rotate_left; subst x; rotate_left; clear_value x)
        | (have : MemUnits := x; subst x)
        | clear_value x
        | skip)
    | with_reducible apply State.seed_kept
    | with_reducible apply State.startSeedBound_kept
    | with_reducible apply State.setCondition_kept
    | with_reducible apply State.drivePins_kept
    | split

theorem execTickClockLock_kept (bankA : Nat) (bankB : Nat) (s : State) {s0 : State} (hK : Kept s0 s) :
    KeptO s0 (execTickClockLock bankA bankB s) := by
  unfold execTickClockLock
  repeat' first
    | with_reducible assumption
    | ((try lift_lets -underBinder); intro x; first
        | (have hx : Kept s0 x := ?_; rotate_left; subst x; rotate_left; clear_value x)
        | (have : MemUnits := x; subst x)
        | clear_value x
        | skip)
    | with_reducible apply KeptO.next
    | with_reducible apply State.startRaw_kept
    | with_reducible apply State.setStep_kept
    | with_reducible apply State.bump_kept
    | with_reducible apply State.log_kept
    | with_reducible apply State.putN_kept
    | with_reducible apply State.put_kept
    | with_reducible apply State.restoreModel_kept
    | with_reducible apply State.seedSnowdrop_kept
    | with_reducible refine Kept.foldl ?_ fun _ _ _ => ?_
    | (with_reducible apply Kept.unmk; dsimp only; with_reducible apply Kept.ofF)
    | (intro _; intros; try beta_reduce)
    | split

theorem State.bootBank_kept (s : State) {s0 : State} (hK : Kept s0 s) :
    Kept s0 (State.bootBank s).2 := by
  unfold State.bootBank
  repeat' first
    | with_reducible assumption
    | ((try lift_lets -underBinder); intro x; first
        | (have hx : Kept s0 x := ?_; rotate_left; subst x; rotate_left; clear_value x)
        | (have : MemUnits := x; subst x)
        | clear_value x
        | skip)
    | with_reducible apply State.note_kept
    | split

theorem State.startFirmware_kept (s : State) (bank : Nat) (version : Nat) {s0 : State} (hK : Kept s0 s) :
    Kept s0 (State.startFirmware s bank version) := by
  unfold State.startFirmware
  repeat' first
    | with_reducible assumption
    | ((try lift_lets -underBinder); intro x; first
        | (have hx : Kept s0 x := ?_; rotate_left; subst x; rotate_left; clear_value x)
        | (have hx : Kept s0 x.2 := ?_; rotate_left; subst x; rotate_left; clear_value x)
        | (have hx : Kept s0 x.1 := ?_; rotate_left; subst x; rotate_left; clear_value x)
        | (have : MemUnits := x; subst x)
        | clear_value x
        | skip)
    | with_reducible apply State.setStep_kept
    | with_reducible apply State.setDom_kept
    | with_reducible apply State.putN_kept
    | with_reducible apply State.log_kept
    | with_reducible apply State.logSec_kept
    | with_reducible apply State.tamperErase_kept
    | with_reducible refine Kept.foldl ?_ fun _ _ _ => ?_
    | (with_reducible apply Kept.unmk; dsimp only; with_reducible apply Kept.ofF)
    | (intro _; intros; try beta_reduce)
    | split

theorem State.bootRevert_kept (s : State) {s0 : State} (hK : Kept s0 s) :
    Kept s0 (State.bootRevert s) := by
  unfold State.bootRevert
  repeat' first
    | with_reducible assumption
    | ((try lift_lets -underBinder); intro x; first
        | (have hx : Kept s0 x := ?_; rotate_left; subst x; rotate_left; clear_value x)
        | (have : MemUnits := x; subst x)
        | clear_value x
        | skip)
    | with_reducible apply State.setBoot_kept
    | with_reducible apply State.note_kept
    | split

theorem execFirmwareBootCheck_kept (download : Option Bytes) (s : State) {s0 : State} (hK : Kept s0 s) :
    KeptO s0 (execFirmwareBootCheck download s) := by
  unfold execFirmwareBootCheck
  repeat' first
    | with_reducible assumption
    | ((try lift_lets -underBinder); intro x; first
        | (have hx : Kept s0 x := ?_; rotate_left; subst x; rotate_left; clear_value x)
        | (have : MemUnits := x; subst x)
        | clear_value x
        | skip)
    | with_reducible apply KeptO.next
    | with_reducible apply State.bootRevert_kept
    | with_reducible apply State.bootBank_kept
    | with_reducible refine Kept.pair2 ‹_ = _› (State.bootBank_kept _ ?_)
    | with_reducible apply State.startFirmware_kept
    | with_reducible apply State.holdPins_kept
    | with_reducible apply State.freeNat_kept
    | with_reducible refine Kept.pair2 ‹_ = _› (State.freeNat_kept _ ?_)
    | with_reducible apply State.note_kept
    | (with_reducible apply Kept.unmk; dsimp only; with_reducible apply Kept.ofF)
    | split

theorem execDramTrainingComplete_kept (fail : Fin 16) (capacity : Nat) (ms : Nat) (s : State) {s0 : State} (hK : Kept s0 s) :
    KeptO s0 (execDramTrainingComplete fail capacity ms s) := by
  unfold execDramTrainingComplete
  repeat' first
    | with_reducible assumption
    | ((try lift_lets -underBinder); intro x; first
        | (have hx : Kept s0 x := ?_; rotate_left; subst x; rotate_left; clear_value x)
        | skip)
    | with_reducible apply KeptO.next
    | with_reducible apply State.putN_kept
    | with_reducible apply State.setStep_kept
    | with_reducible apply State.log_kept
    | split

theorem State.loadMaster_kept (s : State) {s0 : State} (hK : Kept s0 s) :
    Kept s0 (State.loadMaster s) := by
  unfold State.loadMaster
  repeat' first
    | with_reducible assumption
    | ((try lift_lets -underBinder); intro x; first
        | (have hx : Kept s0 x := ?_; rotate_left; subst x; rotate_left; clear_value x)
        | (have : MemUnits := x; subst x)
        | clear_value x
        | skip)
    | with_reducible apply State.store_kept
    | with_reducible apply State.random_kept
    | with_reducible refine Kept.pair2 ‹_ = _› (State.random_kept _ _ ?_)
    | with_reducible apply State.sealed_kept
    | with_reducible refine Kept.pair2 ‹_ = _› (State.sealed_kept _ _ _ ?_)
    | (with_reducible apply Kept.unmk; dsimp only; with_reducible apply Kept.ofF)
    | (intro _; intros; try beta_reduce)
    | split

theorem execClientTableInitComplete_kept (s : State) {s0 : State} (hK : Kept s0 s) :
    KeptO s0 (execClientTableInitComplete s) := by
  unfold execClientTableInitComplete
  repeat' first
    | with_reducible assumption
    | ((try lift_lets -underBinder); intro x; first
        | (have hx : Kept s0 x := ?_; rotate_left; subst x; rotate_left; clear_value x)
        | (have : MemUnits := x; subst x)
        | clear_value x
        | skip)
    | with_reducible apply KeptO.next
    | with_reducible apply State.setStep_kept
    | with_reducible apply State.setCt_kept
    | with_reducible apply State.loadMaster_kept
    | with_reducible apply State.putN_kept
    | with_reducible apply State.refreshPort_kept
    | with_reducible apply State.bnTest_kept
    | with_reducible refine Kept.foldl ?_ fun _ _ _ => ?_
    | (with_reducible apply Kept.unmk; dsimp only; with_reducible apply Kept.ofF)
    | (intro _; intros; try beta_reduce)
    | split

theorem State.toMash_kept (s : State) (cause : Nat) {s0 : State} (hK : Kept s0 s) :
    Kept s0 (State.toMash s cause) := by
  unfold State.toMash
  repeat' first
    | with_reducible assumption
    | ((try lift_lets -underBinder); intro x; first
        | (have hx : Kept s0 x := ?_; rotate_left; subst x; rotate_left; clear_value x)
        | (have : MemUnits := x; subst x)
        | clear_value x
        | skip)
    | with_reducible apply State.setMode_kept
    | split

theorem execBringupComplete_kept (s : State) {s0 : State} (hK : Kept s0 s) :
    KeptO s0 (execBringupComplete s) := by
  unfold execBringupComplete
  repeat' first
    | with_reducible assumption
    | ((try lift_lets -underBinder); intro x; first
        | (have hx : Kept s0 x := ?_; rotate_left; subst x; rotate_left; clear_value x)
        | (have : MemUnits := x; subst x)
        | clear_value x
        | skip)
    | with_reducible apply KeptO.next
    | with_reducible apply State.setStep_kept
    | with_reducible apply State.setSlot_kept
    | with_reducible apply State.toMash_kept
    | with_reducible refine Kept.foldl ?_ fun _ _ _ => ?_
    | (with_reducible apply Kept.unmk; dsimp only; with_reducible apply Kept.ofF)
    | (intro _; intros; try beta_reduce)
    | split

theorem State.skyObjects_kept (s : State) {s0 : State} (hK : Kept s0 s) :
    Kept s0 (State.skyObjects s) := by
  unfold State.skyObjects
  repeat' first
    | with_reducible assumption
    | ((try lift_lets -underBinder); intro x; first
        | (have hx : Kept s0 x := ?_; rotate_left; subst x; rotate_left; clear_value x)
        | (have hx : Kept s0 x.2 := ?_; rotate_left; subst x; rotate_left; clear_value x)
        | (have hx : Kept s0 x.1 := ?_; rotate_left; subst x; rotate_left; clear_value x)
        | (have hf1 : ∀ s, Kept s0 s → Kept s0 (x s) := ?_; rotate_left; subst x; intros; beta_reduce; rotate_left; clear_value x)
        | (have hf2 : ∀ s a, Kept s0 s → Kept s0 (x s a) := ?_; rotate_left; subst x; intros; beta_reduce; rotate_left; clear_value x)
        | (have hf3 : ∀ s a b, Kept s0 s → Kept s0 (x s a b) := ?_; rotate_left; subst x; intros; beta_reduce; rotate_left; clear_value x)
        | (have hf4 : ∀ a s, Kept s0 s → Kept s0 (x a s) := ?_; rotate_left; subst x; intros; beta_reduce; rotate_left; clear_value x)
        | (have : MemUnits := x; subst x)
        | (have : List (Nat × Val) := x; subst x)
        | clear_value x
        | skip)
    | with_reducible apply State.put_kept
    | with_reducible refine Kept.foldl ?_ fun _ _ _ => ?_
    | with_reducible apply hf1
    | with_reducible apply hf2
    | with_reducible apply hf3
    | with_reducible apply hf4
    | (with_reducible apply Kept.unmk; dsimp only; with_reducible apply Kept.ofF)
    | (with_reducible apply Kept.unmk; dsimp only; with_reducible apply Kept.ofFilter)

theorem execDomainWakeComplete_kept (domain : Nat) (s : State) {s0 : State} (hK : Kept s0 s) :
    KeptO s0 (execDomainWakeComplete domain s) := by
  unfold execDomainWakeComplete
  repeat' first
    | with_reducible assumption
    | ((try lift_lets -underBinder); intro x; first
        | (have hx : Kept s0 x := ?_; rotate_left; subst x; rotate_left; clear_value x)
        | skip)
    | with_reducible apply KeptO.next
    | with_reducible apply State.setDom_kept
    | with_reducible apply State.skyAwake_kept
    | with_reducible apply State.skyPower_kept
    | with_reducible apply State.skyObjects_kept
    | split

theorem execWarmResetRelease_kept (s : State) {s0 : State} (hK : Kept s0 s) :
    KeptO s0 (execWarmResetRelease s) := by
  unfold execWarmResetRelease
  repeat' first
    | with_reducible assumption
    | with_reducible apply KeptO.next
    | with_reducible apply State.releaseWarm_kept
    | split

theorem execWarmServingResume_kept (s : State) {s0 : State} (hK : Kept s0 s) :
    KeptO s0 (execWarmServingResume s) := by
  unfold execWarmServingResume
  repeat' first
    | with_reducible assumption
    | ((try lift_lets -underBinder); intro x; first
        | (have hx : Kept s0 x := ?_; rotate_left; subst x; rotate_left; clear_value x)
        | (have : MemUnits := x; subst x)
        | clear_value x
        | skip)
    | with_reducible apply KeptO.next
    | (with_reducible apply Kept.unmk; dsimp only; with_reducible apply Kept.ofF)
    | split

theorem execSlotMissingCheckResume_kept (s : State) {s0 : State} (hK : Kept s0 s) :
    KeptO s0 (execSlotMissingCheckResume s) := by
  unfold execSlotMissingCheckResume
  repeat' first
    | with_reducible assumption
    | ((try lift_lets -underBinder); intro x; first
        | (have hx : Kept s0 x := ?_; rotate_left; subst x; rotate_left; clear_value x)
        | (have : MemUnits := x; subst x)
        | clear_value x
        | skip)
    | with_reducible apply KeptO.next
    | (with_reducible apply Kept.unmk; dsimp only; with_reducible apply Kept.ofF)
    | split

end Sys2Proof.Machine
end

