-- ==== Sys2Proof/Laws/Kept/Cellar.lean ====
section
/-! SUPPORT. What the operations of Machine/Cellar.lean keep. -/

namespace Sys2Proof.Machine

theorem State.enterSparge_kept (s : State) {s0 : State} (hK : Kept s0 s) :
    Kept s0 (State.enterSparge s) := by
  unfold State.enterSparge
  repeat' first
    | with_reducible assumption
    | ((try lift_lets -underBinder); intro x; first
        | (have hx : Kept s0 x := ?_; rotate_left; subst x; rotate_left; clear_value x)
        | (have : MemUnits := x; subst x)
        | clear_value x
        | skip)
    | with_reducible apply State.putB_kept
    | with_reducible apply State.setMode_kept
    | (with_reducible apply Kept.unmk; dsimp only; with_reducible apply Kept.ofF)
    | split

theorem State.leaveSparge_kept (s : State) (byCommit : Bool) {s0 : State} (hK : Kept s0 s) :
    Kept s0 (State.leaveSparge s byCommit) := by
  unfold State.leaveSparge
  repeat' first
    | with_reducible assumption
    | ((try lift_lets -underBinder); intro x; first
        | (have hx : Kept s0 x := ?_; rotate_left; subst x; rotate_left; clear_value x)
        | (have : MemUnits := x; subst x)
        | clear_value x
        | skip)
    | with_reducible apply State.exitSparge_kept
    | (with_reducible apply Kept.unmk; dsimp only; with_reducible apply Kept.ofF)
    | split

theorem execSpargeRequest_kept (request : Bool) (s : State) {s0 : State} (hK : Kept s0 s) :
    KeptO s0 (execSpargeRequest request s) := by
  unfold execSpargeRequest
  repeat' first
    | with_reducible assumption
    | with_reducible apply KeptO.next
    | with_reducible apply State.enterSparge_kept
    | with_reducible apply State.leaveSparge_kept
    | split

theorem execSpargeTimeout_kept (s : State) {s0 : State} (hK : Kept s0 s) :
    KeptO s0 (execSpargeTimeout s) := by
  unfold execSpargeTimeout
  repeat' first
    | with_reducible assumption
    | ((try lift_lets -underBinder); intro x; first
        | (have hx : Kept s0 x := ?_; rotate_left; subst x; rotate_left; clear_value x)
        | (have : MemUnits := x; subst x)
        | clear_value x
        | skip)
    | with_reducible apply KeptO.next
    | with_reducible apply State.leaveSparge_kept
    | (with_reducible apply Kept.unmk; dsimp only; with_reducible apply Kept.ofF)
    | split

theorem State.enterKiln_kept (s : State) {s0 : State} (hK : Kept s0 s) :
    Kept s0 (State.enterKiln s) := by
  unfold State.enterKiln
  repeat' first
    | with_reducible assumption
    | ((try lift_lets -underBinder); intro x; first
        | (have hx : Kept s0 x := ?_; rotate_left; subst x; rotate_left; clear_value x)
        | (have : MemUnits := x; subst x)
        | clear_value x
        | skip)
    | with_reducible apply State.putB_kept
    | with_reducible apply State.closeSessions_kept
    | with_reducible apply State.zeroiseKeys_kept
    | with_reducible apply State.resetServe_kept
    | with_reducible apply State.dropEgress_kept
    | with_reducible apply State.setDom_kept
    | with_reducible apply State.setMode_kept
    | with_reducible refine Kept.foldl ?_ fun _ _ _ => ?_
    | (with_reducible apply Kept.unmk; dsimp only; with_reducible apply Kept.ofF)

theorem execKilnRequest_kept (s : State) {s0 : State} (hK : Kept s0 s) :
    KeptO s0 (execKilnRequest s) := by
  unfold execKilnRequest
  repeat' first
    | with_reducible assumption
    | with_reducible apply KeptO.next
    | with_reducible apply State.enterKiln_kept
    | split

theorem State.enterCellar_kept (s : State) {s0 : State} (hK : Kept s0 s) : Kept s0 (State.enterCellar s) := by
  have h1 : Kept s0 s.alignSnowdrop.storeModel.persistOrbit :=
    State.persistOrbit_kept _ (State.storeModel_kept _ (State.alignSnowdrop_kept _ hK))
  unfold State.enterCellar
  apply State.drivePins_kept
  apply State.setDoms_kept
  generalize s.alignSnowdrop.storeModel.persistOrbit = u at h1
  have h2 := Kept.unmk (State.breakPersist_kept { u with keep := { u.keep with
    wakeTime := u.n Obj.cellar_wake_time, verifyInterval := u.nn Obj.cellar_verify_interval,
    verifyDue := if u.nn Obj.cellar_verify_interval = 0 then none
      else some (u.now + ticksS (u.nn Obj.cellar_verify_interval)) } } (Kept.ofF h1))
  generalize hv : ({ u with keep := { u.keep with
    wakeTime := u.n Obj.cellar_wake_time, verifyInterval := u.nn Obj.cellar_verify_interval,
    verifyDue := if u.nn Obj.cellar_verify_interval = 0 then none
      else some (u.now + ticksS (u.nn Obj.cellar_verify_interval)) } } : State) = v at h2 ⊢
  have h3 : Kept s0 ({ v.coldBase with obj := u.obj.filter fun p => cellarKeeps p.1 } : State) :=
    ⟨h2.1, h2.2.1, h2.2.2.1, h2.2.2.2.1, fun w => ⟨storeWf_filter _ (h1.2.2.2.2 w).1, rfl, rfl, rfl⟩⟩
  exact Kept.unmk (Kept.ofF (State.putB_kept _ Obj.grist_hold false h3))

theorem execCellarRequest_kept (s : State) {s0 : State} (hK : Kept s0 s) :
    KeptO s0 (execCellarRequest s) := by
  unfold execCellarRequest
  repeat' first
    | with_reducible assumption
    | with_reducible apply KeptO.next
    | with_reducible apply State.enterCellar_kept
    | split

theorem execCellarWakeTime_kept (s : State) {s0 : State} (hK : Kept s0 s) :
    KeptO s0 (execCellarWakeTime s) := by
  unfold execCellarWakeTime
  repeat' first
    | with_reducible assumption
    | with_reducible apply KeptO.next
    | with_reducible apply State.assertCold_kept
    | split

theorem execCellarVerifyWake_kept (s : State) {s0 : State} (hK : Kept s0 s) :
    KeptO s0 (execCellarVerifyWake s) := by
  unfold execCellarVerifyWake
  repeat' first
    | with_reducible assumption
    | ((try lift_lets -underBinder); intro x; first
        | (have hx : Kept s0 x := ?_; rotate_left; subst x; rotate_left; clear_value x)
        | (have : MemUnits := x; subst x)
        | clear_value x
        | skip)
    | with_reducible apply KeptO.next
    | with_reducible apply State.setDom_kept
    | with_reducible apply State.gristBegin_kept
    | (with_reducible apply Kept.unmk; dsimp only; with_reducible apply Kept.ofF)
    | split

theorem State.endVerify_kept (s : State) {s0 : State} (hK : Kept s0 s) :
    Kept s0 (State.endVerify s) := by
  unfold State.endVerify
  repeat' first
    | with_reducible assumption
    | ((try lift_lets -underBinder); intro x; first
        | (have hx : Kept s0 x := ?_; rotate_left; subst x; rotate_left; clear_value x)
        | (have hx : Kept s0 x.1 := ?_; rotate_left; subst x; rotate_left; clear_value x)
        | (have : MemUnits := x; subst x)
        | (have : List (Nat × Val) := x; subst x)
        | clear_value x
        | skip)
    | with_reducible apply State.setDoms_kept
    | with_reducible apply State.bump_kept
    | (with_reducible apply Kept.unmk; dsimp only; with_reducible apply Kept.ofF)
    | (with_reducible apply Kept.unmk; dsimp only; with_reducible apply Kept.ofFilter)

theorem execCellarVerifyEnd_kept (s : State) {s0 : State} (hK : Kept s0 s) :
    KeptO s0 (execCellarVerifyEnd s) := by
  unfold execCellarVerifyEnd
  repeat' first
    | with_reducible assumption
    | ((try lift_lets -underBinder); intro x; first
        | (have hx : Kept s0 x := ?_; rotate_left; subst x; rotate_left; clear_value x)
        | (have : MemUnits := x; subst x)
        | clear_value x
        | skip)
    | with_reducible apply KeptO.next
    | with_reducible apply State.endVerify_kept
    | with_reducible apply State.bump_kept
    | (with_reducible apply Kept.unmk; dsimp only; with_reducible apply Kept.ofF)
    | split

end Sys2Proof.Machine
end

