-- ==== Sys2Proof/Laws/Kept/Counters.lean ====
section
/-! SUPPORT. What the operations of Machine/Counters.lean keep. -/

namespace Sys2Proof.Machine

theorem State.blockTick_kept (s : State) (n : Fin 16) {s0 : State} (hK : Kept s0 s) : Kept s0 (State.blockTick s n) := by
  unfold State.blockTick
  split
  · exact hK
  · exact Kept.ofMoreFree (k := 13) hK

theorem State.share_kept (s : State) (x : Int) (d : Nat) {s0 : State} (hK : Kept s0 s) :
    Kept s0 (State.share s x d).2 := by
  unfold State.share
  repeat' first
    | with_reducible assumption
    | ((try lift_lets -underBinder); intro x; first
        | (have hx : Kept s0 x := ?_; rotate_left; subst x; rotate_left; clear_value x)
        | (have : MemUnits := x; subst x)
        | clear_value x
        | skip)
    | with_reducible apply State.freeNat_kept

theorem State.clearDerived_kept (s : State) (n : Fin 16) {s0 : State} (hK : Kept s0 s) :
    Kept s0 (State.clearDerived s n) := by
  unfold State.clearDerived
  repeat' first
    | with_reducible assumption
    | with_reducible apply State.putN_kept
    | with_reducible refine Kept.foldl ?_ fun _ _ _ => ?_

theorem State.derive_kept (s : State) (n : Fin 16) (since : Option Nat) (tick : Nat) {s0 : State} (hK : Kept s0 s) :
    Kept s0 (State.derive s n since tick) := by
  unfold State.derive
  repeat' first
    | with_reducible assumption
    | ((try lift_lets -underBinder); intro x; first
        | (have hx : Kept s0 x := ?_; rotate_left; subst x; rotate_left; clear_value x)
        | (have hx : Kept s0 x.2 := ?_; rotate_left; subst x; rotate_left; clear_value x)
        | (have hx : Kept s0 x.1 := ?_; rotate_left; subst x; rotate_left; clear_value x)
        | (have hf1 : ∀ s, Kept s0 s → Kept s0 (x s) := ?_; rotate_left; subst x; intros; beta_reduce; rotate_left; clear_value x)
        | (have hf2 : ∀ s a, Kept s0 s → Kept s0 (x s a) := ?_; rotate_left; subst x; intros; beta_reduce; rotate_left; clear_value x)
        | (have hf3 : ∀ s a b, Kept s0 s → Kept s0 (x s a b) := ?_; rotate_left; subst x; intros; beta_reduce; rotate_left; clear_value x)
        | (have hf4 : ∀ a s, Kept s0 s → Kept s0 (x a s) := ?_; rotate_left; subst x; intros; beta_reduce; rotate_left; clear_value x)
        | (have : MemUnits := x; subst x)
        | clear_value x
        | skip)
    | with_reducible apply State.freeNat_kept
    | with_reducible refine Kept.pair2 ‹_ = _› (State.freeNat_kept _ ?_)
    | with_reducible apply State.tick_kept
    | with_reducible apply State.clearDerived_kept
    | with_reducible apply State.putN_kept
    | with_reducible apply State.put_kept
    | with_reducible apply State.share_kept
    | with_reducible refine Kept.pair2 ‹_ = _› (State.share_kept _ _ _ ?_)
    | with_reducible refine Kept.foldl ?_ fun _ _ _ => ?_
    | with_reducible apply hf1
    | with_reducible apply hf2
    | with_reducible apply hf3
    | with_reducible apply hf4
    | (with_reducible apply Kept.unmk; dsimp only; with_reducible apply Kept.ofF)
    | (intro _; intros; try beta_reduce)
    | split

theorem State.armBlock_kept (s : State) (n : Fin 16) {s0 : State} (hK : Kept s0 s) :
    Kept s0 (State.armBlock s n) := by
  unfold State.armBlock
  repeat' first
    | with_reducible assumption
    | ((try lift_lets -underBinder); intro x; first
        | (have hx : Kept s0 x := ?_; rotate_left; subst x; rotate_left; clear_value x)
        | (have hf1 : ∀ s, Kept s0 s → Kept s0 (x s) := ?_; rotate_left; subst x; intros; beta_reduce; rotate_left; clear_value x)
        | (have hf2 : ∀ s a, Kept s0 s → Kept s0 (x s a) := ?_; rotate_left; subst x; intros; beta_reduce; rotate_left; clear_value x)
        | (have hf3 : ∀ s a b, Kept s0 s → Kept s0 (x s a b) := ?_; rotate_left; subst x; intros; beta_reduce; rotate_left; clear_value x)
        | (have hf4 : ∀ a s, Kept s0 s → Kept s0 (x a s) := ?_; rotate_left; subst x; intros; beta_reduce; rotate_left; clear_value x)
        | (have : MemUnits := x; subst x)
        | clear_value x
        | skip)
    | with_reducible apply State.putN_kept
    | with_reducible apply State.setCtr_kept
    | with_reducible refine Kept.foldl ?_ fun _ _ _ => ?_

theorem State.latch_kept (s : State) (n : Fin 16) (since : Option Nat) (tick : Nat) {s0 : State} (hK : Kept s0 s) :
    Kept s0 (State.latch s n since tick) := by
  unfold State.latch
  repeat' first
    | with_reducible assumption
    | ((try lift_lets -underBinder); intro x; first
        | (have hx : Kept s0 x := ?_; rotate_left; subst x; rotate_left; clear_value x)
        | (have : MemUnits := x; subst x)
        | clear_value x
        | skip)
    | with_reducible apply State.putN_kept
    | with_reducible apply State.derive_kept
    | with_reducible apply State.tick_kept
    | with_reducible apply State.armBlock_kept
    | with_reducible apply State.setCtr_kept
    | with_reducible refine Kept.foldl ?_ fun _ _ _ => ?_

theorem State.snapshot_kept (s : State) {s0 : State} (hK : Kept s0 s) :
    Kept s0 (State.snapshot s) := by
  unfold State.snapshot
  repeat' first
    | with_reducible assumption
    | ((try lift_lets -underBinder); intro x; first
        | (have hx : Kept s0 x := ?_; rotate_left; subst x; rotate_left; clear_value x)
        | (have : MemUnits := x; subst x)
        | clear_value x
        | skip)
    | with_reducible apply State.tick_kept
    | with_reducible apply State.bump_kept
    | with_reducible apply State.putO_kept
    | with_reducible apply State.putN_kept
    | with_reducible apply State.latch_kept
    | with_reducible refine Kept.foldl ?_ fun _ _ _ => ?_
    | (with_reducible apply Kept.unmk; dsimp only; with_reducible apply Kept.ofF)
    | (intro _; intros; try beta_reduce)
    | split

theorem execSnapRequest_kept (s : State) {s0 : State} (hK : Kept s0 s) :
    KeptO s0 (execSnapRequest s) := by
  unfold execSnapRequest
  repeat' first
    | with_reducible assumption
    | with_reducible apply KeptO.next
    | with_reducible apply State.putB_kept
    | with_reducible apply State.snapshot_kept
    | split

theorem execSnapPeriodic_kept (s : State) {s0 : State} (hK : Kept s0 s) :
    KeptO s0 (execSnapPeriodic s) := by
  unfold execSnapPeriodic
  repeat' first
    | with_reducible assumption
    | ((try lift_lets -underBinder); intro x; first
        | (have hx : Kept s0 x := ?_; rotate_left; subst x; rotate_left; clear_value x)
        | (have : MemUnits := x; subst x)
        | clear_value x
        | skip)
    | with_reducible apply KeptO.next
    | with_reducible apply State.snapshot_kept
    | split

theorem execCounterWrap_kept (block : Fin 16) (counter : Fin 9) (s : State) {s0 : State} (hK : Kept s0 s) :
    KeptO s0 (execCounterWrap block counter s) := by
  unfold execCounterWrap
  repeat' first
    | with_reducible assumption
    | ((try lift_lets -underBinder); intro x; first
        | (have hx : Kept s0 x := ?_; rotate_left; subst x; rotate_left; clear_value x)
        | (have : MemUnits := x; subst x)
        | clear_value x
        | skip)
    | with_reducible apply KeptO.next
    | with_reducible apply State.setCtr_kept
    | with_reducible apply State.putN_kept
    | with_reducible apply State.log_kept
    | (with_reducible apply Kept.unmk; dsimp only; with_reducible apply Kept.ofF)
    | split

theorem State.clearSamples_kept (s : State) {s0 : State} (hK : Kept s0 s) :
    Kept s0 (State.clearSamples s) := by
  unfold State.clearSamples
  repeat' first
    | with_reducible assumption
    | ((try lift_lets -underBinder); intro x; first
        | (have hx : Kept s0 x := ?_; rotate_left; subst x; rotate_left; clear_value x)
        | (have : MemUnits := x; subst x)
        | clear_value x
        | skip)
    | (with_reducible apply Kept.unmk; dsimp only; with_reducible apply Kept.ofF)

theorem execSampleClear_kept (s : State) {s0 : State} (hK : Kept s0 s) :
    KeptO s0 (execSampleClear s) := by
  unfold execSampleClear
  repeat' first
    | with_reducible assumption
    | with_reducible apply KeptO.next
    | with_reducible apply State.putB_kept
    | with_reducible apply State.clearSamples_kept

theorem State.tick_kept (s : State) {s0 : State} (hK : Kept s0 { s with now := s.now + 1 }) : Kept s0 (State.tick s) := by
  unfold State.tick
  repeat' first
    | with_reducible assumption
    | ((try lift_lets -underBinder); intro x; first
        | (have hx : Kept s0 x := ?_; rotate_left; subst x; rotate_left; clear_value x)
        | clear_value x
        | skip)
    | with_reducible apply State.reserveSteps_kept
    | with_reducible apply State.blockTick_kept
    | with_reducible apply State.warmTick_kept
    | with_reducible apply State.armBlock_kept
    | with_reducible apply State.moveBuckets_kept
    | with_reducible refine Kept.foldl ?_ fun _ _ _ => ?_
    | (intro _; intros; try beta_reduce)
    | split
    | exact ⟨hK.1, hK.2.1, hK.2.2.1, hK.2.2.2.1, hK.2.2.2.2⟩

end Sys2Proof.Machine
end

