-- ==== Sys2Proof/Laws/Kept/BnUnit.lean ====
section
/-! SUPPORT. What the operations of Machine/BnUnit.lean keep. -/

namespace Sys2Proof.Machine

theorem execBnChainStart_kept (post : Option (Fin 4 × Nat × List (Nat × Bytes))) (s : State) {s0 : State} (hK : Kept s0 s) :
    KeptO s0 (execBnChainStart post s) := by
  unfold execBnChainStart
  repeat' first
    | with_reducible assumption
    | ((try lift_lets -underBinder); intro x; first
        | (have hx : Kept s0 x := ?_; rotate_left; subst x; rotate_left; clear_value x)
        | skip)
    | with_reducible apply KeptO.next
    | with_reducible apply State.post_kept
    | with_reducible apply State.bnPost_kept
    | with_reducible apply State.bnTake_kept
    | (with_reducible apply Kept.unmk; dsimp only; with_reducible apply Kept.ofF)
    | split

theorem State.bnMismatch_kept (s : State) (a : Nat) {s0 : State} (hK : Kept s0 s) :
    Kept s0 (State.bnMismatch s a) := by
  unfold State.bnMismatch
  repeat' first
    | with_reducible assumption
    | with_reducible apply State.tileMismatch_kept

theorem State.bnRun_kept (s : State) (op : Nat) (bad : Option (Nat × Byte)) {s0 : State} (hK : Kept s0 s) :
    Kept s0 (State.bnRun s op bad) := by
  unfold State.bnRun
  repeat' first
    | with_reducible assumption
    | ((try lift_lets -underBinder); intro x; first
        | (have hx : Kept s0 x := ?_; rotate_left; subst x; rotate_left; clear_value x)
        | (have : MemUnits := x; subst x)
        | clear_value x
        | skip)
    | with_reducible apply State.bnEnd_kept
    | with_reducible apply State.bnMismatch_kept
    | with_reducible apply State.bnExecute_kept
    | (with_reducible apply Kept.unmk; dsimp only; with_reducible apply Kept.ofF)
    | split

theorem execRowMac_kept (bad : Option (Nat × Byte)) (s : State) {s0 : State} (hK : Kept s0 s) :
    KeptO s0 (execRowMac bad s) := by
  unfold execRowMac
  repeat' first
    | with_reducible assumption
    | with_reducible apply KeptO.next
    | with_reducible apply State.bnRun_kept

theorem execProduct_kept (bad : Option (Nat × Byte)) (s : State) {s0 : State} (hK : Kept s0 s) :
    KeptO s0 (execProduct bad s) := by
  unfold execProduct
  repeat' first
    | with_reducible assumption
    | with_reducible apply KeptO.next
    | with_reducible apply State.bnRun_kept

theorem execMontRow_kept (bad : Option (Nat × Byte)) (s : State) {s0 : State} (hK : Kept s0 s) :
    KeptO s0 (execMontRow bad s) := by
  unfold execMontRow
  repeat' first
    | with_reducible assumption
    | with_reducible apply KeptO.next
    | with_reducible apply State.bnRun_kept

theorem execBnAbort_kept (queue : Fin 4) (s : State) {s0 : State} (hK : Kept s0 s) :
    KeptO s0 (execBnAbort queue s) := by
  unfold execBnAbort
  repeat' first
    | with_reducible assumption
    | with_reducible apply KeptO.next
    | with_reducible apply State.bnAbort_kept
    | split

theorem execBnSelftest_kept (pass : Bool) (s : State) {s0 : State} (hK : Kept s0 s) :
    KeptO s0 (execBnSelftest pass s) := by
  unfold execBnSelftest
  repeat' first
    | with_reducible assumption
    | ((try lift_lets -underBinder); intro x; first
        | (have hx : Kept s0 x := ?_; rotate_left; subst x; rotate_left; clear_value x)
        | (have hx : Kept s0 x.2 := ?_; rotate_left; subst x; rotate_left; clear_value x)
        | (have : MemUnits := x; subst x)
        | clear_value x
        | skip)
    | with_reducible apply KeptO.next
    | with_reducible apply State.putB_kept
    | with_reducible apply State.putN_kept
    | with_reducible apply State.log_kept
    | with_reducible apply State.bnShow_kept
    | (with_reducible apply Kept.unmk; dsimp only; with_reducible apply Kept.ofF)
    | split

end Sys2Proof.Machine
end

