-- ==== Sys2Proof/Laws/Kept/Resolve.lean ====
section
/-! SUPPORT. What the operations of Machine/Resolve.lean keep. -/

namespace Sys2Proof.Machine

theorem State.postAnswer_kept (s : State) (port : Nat) (l : List Bytes) {s0 : State} (hK : Kept s0 s) :
    Kept s0 (State.postAnswer s port l) := by
  unfold State.postAnswer
  repeat' first
    | with_reducible assumption
    | with_reducible apply State.post_kept
    | with_reducible apply State.postMgmt_kept
    | with_reducible refine Kept.foldl ?_ fun _ _ _ => ?_
    | (with_reducible apply Kept.unmk; dsimp only; with_reducible apply Kept.ofF)
    | (intro _; intros; try beta_reduce)
    | split

theorem execRingFrameHandle_kept (ring : Nat) (s : State) {s0 : State} (hK : Kept s0 s) :
    KeptO s0 (execRingFrameHandle ring s) := by
  unfold execRingFrameHandle
  repeat' first
    | with_reducible assumption
    | ((try lift_lets -underBinder); intro x; first
        | (have hx : Kept s0 x := ?_; rotate_left; subst x; rotate_left; clear_value x)
        | (have : MemUnits := x; subst x)
        | clear_value x
        | skip)
    | with_reducible apply KeptO.next
    | with_reducible apply State.setRing_kept
    | with_reducible apply State.count_kept
    | with_reducible apply State.postAnswer_kept
    | (with_reducible apply Kept.unmk; dsimp only; with_reducible apply Kept.ofF)
    | split

end Sys2Proof.Machine
end

