-- ==== Sys2Proof/Laws/Kept/Nts.lean ====
section
/-! SUPPORT. What the operations of Machine/Nts.lean keep. -/

namespace Sys2Proof.Machine

theorem State.setKeyIndex_kept (s : State) (k : Nat) {s0 : State} (hK : Kept s0 s) :
    Kept s0 (State.setKeyIndex s k) := by
  unfold State.setKeyIndex
  repeat' first
    | with_reducible assumption
    | ((try lift_lets -underBinder); intro x; first
        | (have hx : Kept s0 x := ?_; rotate_left; subst x; rotate_left; clear_value x)
        | (have : MemUnits := x; subst x)
        | clear_value x
        | skip)
    | with_reducible apply State.putN_kept
    | (with_reducible apply Kept.unmk; dsimp only; with_reducible apply Kept.ofF)

theorem execCookieKeyRotate_kept (s : State) {s0 : State} (hK : Kept s0 s) :
    KeptO s0 (execCookieKeyRotate s) := by
  unfold execCookieKeyRotate
  repeat' first
    | with_reducible assumption
    | ((try lift_lets -underBinder); intro x; first
        | (have hx : Kept s0 x := ?_; rotate_left; subst x; rotate_left; clear_value x)
        | (have : MemUnits := x; subst x)
        | clear_value x
        | skip)
    | with_reducible apply KeptO.next
    | with_reducible apply State.setKeyIndex_kept
    | with_reducible apply State.log_kept
    | split

theorem State.commitMaster_kept (s : State) (key : Bytes) {s0 : State} (hK : Kept s0 s) :
    Kept s0 (State.commitMaster s key) := by
  unfold State.commitMaster
  repeat' first
    | with_reducible assumption
    | ((try lift_lets -underBinder); intro x; first
        | (have hx : Kept s0 x := ?_; rotate_left; subst x; rotate_left; clear_value x)
        | (have : MemUnits := x; subst x)
        | clear_value x
        | skip)
    | with_reducible apply State.putO_kept
    | with_reducible apply State.log_kept
    | (with_reducible apply Kept.unmk; dsimp only; with_reducible apply Kept.ofF)

theorem execNtsMasterKey_kept (key : Bytes) (s : State) {s0 : State} (hK : Kept s0 s) :
    KeptO s0 (execNtsMasterKey key s) := by
  unfold execNtsMasterKey
  repeat' first
    | with_reducible assumption
    | with_reducible apply KeptO.next
    | with_reducible apply State.commitMaster_kept
    | split

theorem State.setKeySlot_kept (s : State) (k : Nat) (x : Bytes) {s0 : State} (hK : Kept s0 s) :
    Kept s0 (State.setKeySlot s k x) := by
  unfold State.setKeySlot
  repeat' first
    | with_reducible assumption
    | ((try lift_lets -underBinder); intro x; first
        | (have hx : Kept s0 x := ?_; rotate_left; subst x; rotate_left; clear_value x)
        | (have : MemUnits := x; subst x)
        | clear_value x
        | skip)
    | (with_reducible apply Kept.unmk; dsimp only; with_reducible apply Kept.ofF)

theorem State.keGenerate_kept (s : State) {s0 : State} (hK : Kept s0 s) :
    Kept s0 (State.keGenerate s) := by
  unfold State.keGenerate
  repeat' first
    | with_reducible assumption
    | ((try lift_lets -underBinder); intro x; first
        | (have hx : Kept s0 x := ?_; rotate_left; subst x; rotate_left; clear_value x)
        | (have : MemUnits := x; subst x)
        | clear_value x
        | skip)
    | with_reducible apply State.random_kept
    | with_reducible refine Kept.pair2 ‹_ = _› (State.random_kept _ _ ?_)
    | with_reducible apply State.setKeySlot_kept
    | with_reducible apply State.putO_kept
    | with_reducible apply State.sealed_kept
    | with_reducible refine Kept.pair2 ‹_ = _› (State.sealed_kept _ _ _ ?_)
    | with_reducible apply State.put_kept
    | with_reducible apply State.putB_kept
    | (with_reducible apply Kept.unmk; dsimp only; with_reducible apply Kept.ofF)
    | split

theorem execNtsKeKeygen_kept (s : State) {s0 : State} (hK : Kept s0 s) :
    KeptO s0 (execNtsKeKeygen s) := by
  unfold execNtsKeKeygen
  repeat' first
    | with_reducible assumption
    | with_reducible apply KeptO.next
    | with_reducible apply State.keGenerate_kept
    | split

theorem State.keCookies_kept (s : State) (c2s : Bytes) (s2c : Bytes) (alg17 : Bool) (n : Nat) {s0 : State} (hK : Kept s0 s) :
    Kept s0 (State.keCookies s c2s s2c alg17 n).2 := by
  induction n generalizing s with
  | zero => exact hK
  | succ n ih =>
    rw [State.keCookies]
    repeat' first
      | with_reducible assumption
      | ((try lift_lets -underBinder); intro x; first
          | (have hx : Kept s0 x := ?_; rotate_left; subst x; rotate_left; clear_value x)
          | (have : MemUnits := x; subst x)
          | clear_value x
          | skip)
      | with_reducible apply ih
      | with_reducible apply State.sealCookie_kept

theorem State.keAnswer_kept (s : State) (b : Bytes) (suite : Nat) (master : Bytes) {s0 : State} (hK : Kept s0 s) :
    Kept s0 (State.keAnswer s b suite master).2 := by
  unfold State.keAnswer
  repeat' first
    | with_reducible assumption
    | ((try lift_lets -underBinder); intro x; first
        | (have hx : Kept s0 x := ?_; rotate_left; subst x; rotate_left; clear_value x)
        | (have : MemUnits := x; subst x)
        | clear_value x
        | skip)
    | with_reducible apply State.keCookies_kept
    | with_reducible refine Kept.pair2 ‹_ = _› (State.keCookies_kept _ _ _ _ _ ?_)
    | (with_reducible apply Kept.unmk; dsimp only; with_reducible apply Kept.ofF)
    | split

theorem State.keAlert_kept (s : State) (conn : Nat) (alert : Nat) {s0 : State} (hK : Kept s0 s) :
    Kept s0 (State.keAlert s conn alert) := by
  unfold State.keAlert
  repeat' first
    | with_reducible assumption
    | ((try lift_lets -underBinder); intro x; first
        | (have hx : Kept s0 x := ?_; rotate_left; subst x; rotate_left; clear_value x)
        | (have : MemUnits := x; subst x)
        | clear_value x
        | skip)
    | with_reducible apply State.log_kept
    | (with_reducible apply Kept.unmk; dsimp only; with_reducible apply Kept.ofF)
    | (intro _; intros; try beta_reduce)
    | split

theorem State.withhold_kept (s : State) (alg : Nat) (use : Nat) {s0 : State} (hK : Kept s0 s) :
    Kept s0 (State.withhold s alg use) := by
  unfold State.withhold
  repeat' first
    | with_reducible assumption
    | ((try lift_lets -underBinder); intro x; first
        | (have hx : Kept s0 x := ?_; rotate_left; subst x; rotate_left; clear_value x)
        | (have : MemUnits := x; subst x)
        | clear_value x
        | skip)
    | with_reducible apply State.bump_kept
    | with_reducible apply State.logSec_kept
    | with_reducible apply State.bnTest_kept
    | (with_reducible apply Kept.unmk; dsimp only; with_reducible apply Kept.ofF)
    | (intro _; intros; try beta_reduce)
    | split

theorem State.pointInvalid_kept (s : State) (group : Nat) {s0 : State} (hK : Kept s0 s) :
    Kept s0 (State.pointInvalid s group) := by
  unfold State.pointInvalid
  repeat' first
    | with_reducible assumption
    | ((try lift_lets -underBinder); intro x; first
        | (have hx : Kept s0 x := ?_; rotate_left; subst x; rotate_left; clear_value x)
        | (have : MemUnits := x; subst x)
        | clear_value x
        | skip)
    | with_reducible apply State.bump_kept
    | with_reducible apply State.logSec_kept
    | (with_reducible apply Kept.unmk; dsimp only; with_reducible apply Kept.ofF)
    | split

theorem State.keExchange_kept (s : State) (h : KeHello) {s0 : State} (hK : Kept s0 s) :
    Kept s0 (State.keExchange s h) := by
  unfold State.keExchange
  repeat' first
    | with_reducible assumption
    | ((try lift_lets -underBinder); intro x; first
        | (have hx : Kept s0 x := ?_; rotate_left; subst x; rotate_left; clear_value x)
        | (have hx : Kept s0 x.2 := ?_; rotate_left; subst x; rotate_left; clear_value x)
        | (have hx : Kept s0 x.1 := ?_; rotate_left; subst x; rotate_left; clear_value x)
        | (have : MemUnits := x; subst x)
        | clear_value x
        | skip)
    | with_reducible apply State.keAlert_kept
    | with_reducible apply State.random_kept
    | with_reducible refine Kept.pair2 ‹_ = _› (State.random_kept _ _ ?_)
    | with_reducible apply State.pointInvalid_kept
    | with_reducible apply State.withhold_kept
    | with_reducible apply State.keAnswer_kept
    | with_reducible refine Kept.pair2 ‹_ = _› (State.keAnswer_kept _ _ _ _ ?_)
    | (with_reducible apply Kept.unmk; dsimp only; with_reducible apply Kept.ofF)
    | (intro _; intros; try beta_reduce)
    | split

theorem State.takeNtsKe_kept (s : State) (mgmt : Bool) {s0 : State} (hK : Kept s0 s) :
    KeptS2 s0 (State.takeNtsKe s mgmt) := by
  unfold State.takeNtsKe
  repeat' first
    | with_reducible assumption
    | ((try lift_lets -underBinder); intro x; first
        | (have hx : Kept s0 x := ?_; rotate_left; subst x; rotate_left; clear_value x)
        | (have hf1 : ∀ s, Kept s0 s → Kept s0 (x s) := ?_; rotate_left; subst x; intros; beta_reduce; rotate_left; clear_value x)
        | (have hf2 : ∀ s a, Kept s0 s → Kept s0 (x s a) := ?_; rotate_left; subst x; intros; beta_reduce; rotate_left; clear_value x)
        | (have hf3 : ∀ s a b, Kept s0 s → Kept s0 (x s a b) := ?_; rotate_left; subst x; intros; beta_reduce; rotate_left; clear_value x)
        | (have hf4 : ∀ a s, Kept s0 s → Kept s0 (x a s) := ?_; rotate_left; subst x; intros; beta_reduce; rotate_left; clear_value x)
        | (have : MemUnits := x; subst x)
        | clear_value x
        | skip)
    | with_reducible apply KeptS2.some
    | with_reducible exact KeptS2.none
    | with_reducible apply State.setRing_kept
    | with_reducible apply State.count_kept
    | with_reducible apply hf1
    | with_reducible apply hf2
    | with_reducible apply hf3
    | with_reducible apply hf4
    | (with_reducible apply Kept.unmk; dsimp only; with_reducible apply Kept.ofF)
    | (intro _; intros; try beta_reduce)
    | split

theorem State.postKe_kept (s : State) (p : Pkt) {s0 : State} (hK : Kept s0 s) :
    Kept s0 (State.postKe s p) := by
  unfold State.postKe
  repeat' first
    | with_reducible assumption
    | ((try lift_lets -underBinder); intro x; first
        | (have hx : Kept s0 x := ?_; rotate_left; subst x; rotate_left; clear_value x)
        | (have : MemUnits := x; subst x)
        | clear_value x
        | skip)
    | with_reducible apply State.freeNat_kept
    | with_reducible refine Kept.pair2 ‹_ = _› (State.freeNat_kept _ ?_)
    | with_reducible apply State.postAnswer_kept
    | (with_reducible apply Kept.unmk; dsimp only; with_reducible apply Kept.ofF)
    | split

theorem State.postReset_kept (s : State) (p : Pkt) {s0 : State} (hK : Kept s0 s) :
    Kept s0 (State.postReset s p) := by
  unfold State.postReset
  repeat' first
    | with_reducible assumption
    | ((try lift_lets -underBinder); intro x; first
        | (have hx : Kept s0 x := ?_; rotate_left; subst x; rotate_left; clear_value x)
        | (have : MemUnits := x; subst x)
        | clear_value x
        | skip)
    | with_reducible apply State.postAnswer_kept

theorem execNtsKeHandshake_kept (hello : KeHello) (s : State) {s0 : State} (hK : Kept s0 s) :
    KeptO s0 (execNtsKeHandshake hello s) := by
  unfold execNtsKeHandshake
  repeat' first
    | with_reducible assumption
    | ((try lift_lets -underBinder); intro x; first
        | (have hx : Kept s0 x := ?_; rotate_left; subst x; rotate_left; clear_value x)
        | (have hx : KeptS2 s0 x := ?_; rotate_left; subst x; rotate_left; clear_value x)
        | (have : MemUnits := x; subst x)
        | clear_value x
        | skip)
    | with_reducible apply KeptO.next
    | with_reducible apply State.takeNtsKe_kept
    | with_reducible refine (State.takeNtsKe_kept _ _ ?_).ofSome _ _ ‹_›
    | with_reducible apply State.postReset_kept
    | with_reducible apply State.keExchange_kept
    | with_reducible apply State.postKe_kept
    | with_reducible exact (‹KeptS2 s0 _›).ofSome _ _ ‹_›
    | with_reducible exact (‹KeptS2 s0 (some _)›).ofSome _ _ rfl
    | (with_reducible apply Kept.unmk; dsimp only; with_reducible apply Kept.ofF)
    | (intro _; intros; try beta_reduce)
    | split

theorem execNtsKeIdleTimeout_kept (conn : Nat) (s : State) {s0 : State} (hK : Kept s0 s) :
    KeptO s0 (execNtsKeIdleTimeout conn s) := by
  unfold execNtsKeIdleTimeout
  repeat' first
    | with_reducible assumption
    | ((try lift_lets -underBinder); intro x; first
        | (have hx : Kept s0 x := ?_; rotate_left; subst x; rotate_left; clear_value x)
        | (have : MemUnits := x; subst x)
        | clear_value x
        | skip)
    | with_reducible apply KeptO.next
    | (with_reducible apply Kept.unmk; dsimp only; with_reducible apply Kept.ofF)

end Sys2Proof.Machine
end

