-- ==== Sys2Proof/Laws/Kept/Dictionary.lean ====
section
/-! SUPPORT. What the operations of Machine/Dictionary.lean keep. -/

namespace Sys2Proof.Machine

theorem State.readItem_kept (s : State) (extended : Bool) (i : Nat) (sub : Nat) {s0 : State} (hK : Kept s0 s) :
    Kept s0 (State.readItem s extended i sub).2 := by
  unfold State.readItem
  repeat' first
    | with_reducible assumption
    | ((try lift_lets -underBinder); intro x; first
        | (have hx : Kept s0 x := ?_; rotate_left; subst x; rotate_left; clear_value x)
        | (have : MemUnits := x; subst x)
        | clear_value x
        | skip)
    | with_reducible apply State.makeChallenge_kept
    | (with_reducible apply Kept.unmk; dsimp only; with_reducible apply Kept.ofF)
    | split

theorem State.readItems_kept (s : State) (extended : Bool) (l : List (Nat × Nat)) {s0 : State} (hK : Kept s0 s) :
    Kept s0 (State.readItems s extended l).2 := by
  induction l generalizing s with
  | nil => exact hK
  | cons a l ih =>
    rw [State.readItems]
    repeat' first
      | with_reducible assumption
      | ((try lift_lets -underBinder); intro x; first
          | (have hx : Kept s0 x := ?_; rotate_left; subst x; rotate_left; clear_value x)
          | (have : MemUnits := x; subst x)
          | clear_value x
          | skip)
      | with_reducible apply ih
      | with_reducible apply State.readItem_kept

end Sys2Proof.Machine
end

