-- ==== Sys2Proof/Laws/Kept/Rules.lean ====
section
/-! SUPPORT. What the operations of Machine/Rules.lean keep. -/

namespace Sys2Proof.Machine

theorem State.staging_kept (s : State) (l : List StagedItem) {s0 : State} (hK : Kept s0 s) :
    Kept s0 (State.staging s l) := by
  unfold State.staging
  repeat' first
    | with_reducible assumption
    | with_reducible apply State.put_kept
    | with_reducible refine Kept.foldl ?_ fun _ _ _ => ?_

end Sys2Proof.Machine
end

