-- ==== Sys2Proof/Laws/Kept/Commit.lean ====
section
/-! SUPPORT. What the operations of Machine/Commit.lean keep. -/

namespace Sys2Proof.Machine

theorem applied_kept (o : Host.Outcome State Fault Refusal) (s : State) {s0 : State} (hK : Kept s0 s) (ho : KeptO s0 o) :
    Kept s0 (applied o s) := by
  unfold applied
  split
  · exact ho.ofNext _ rfl
  · exact hK

theorem State.slotEffects_kept (s : State) (l : List StagedItem) (due : Option Int) {s0 : State} (hK : Kept s0 s) :
    Kept s0 (State.slotEffects s l due) := by
  unfold State.slotEffects
  repeat' first
    | with_reducible assumption
    | ((try lift_lets -underBinder); intro x; first
        | (have hx : Kept s0 x := ?_; rotate_left; subst x; rotate_left; clear_value x)
        | (have : MemUnits := x; subst x)
        | clear_value x
        | skip)
    | with_reducible apply applied_kept
    | with_reducible apply execSlotConfigCommit_kept
    | with_reducible apply State.putN_kept
    | with_reducible apply execManualSlotArm_kept
    | with_reducible apply State.operatorEntry_kept
    | with_reducible apply execSelectionEvaluate_kept
    | with_reducible refine Kept.foldl ?_ fun _ _ _ => ?_
    | (with_reducible apply Kept.unmk; dsimp only; with_reducible apply Kept.ofF)
    | (intro _; intros; try beta_reduce)
    | split

theorem State.keepCopies_kept (s : State) (l : List StagedItem) {s0 : State} (hK : Kept s0 s) :
    Kept s0 (State.keepCopies s l) := by
  unfold State.keepCopies
  repeat' first
    | with_reducible assumption
    | ((try lift_lets -underBinder); intro x; first
        | (have hx : Kept s0 x := ?_; rotate_left; subst x; rotate_left; clear_value x)
        | (have : MemUnits := x; subst x)
        | clear_value x
        | skip)
    | (with_reducible apply Kept.unmk; dsimp only; with_reducible apply Kept.ofF)

theorem State.timeEffects_kept (old : State) (s : State) (l : List StagedItem) (session : Nat) (due : Option Int) {s0 : State} (hK : Kept s0 s) :
    Kept s0 (State.timeEffects old s l session due) := by
  unfold State.timeEffects
  repeat' first
    | with_reducible assumption
    | ((try lift_lets -underBinder); intro x; first
        | (have hx : Kept s0 x := ?_; rotate_left; subst x; rotate_left; clear_value x)
        | (have hx : Kept s0 x.2 := ?_; rotate_left; subst x; rotate_left; clear_value x)
        | (have : MemUnits := x; subst x)
        | clear_value x
        | skip)
    | with_reducible apply applied_kept
    | with_reducible apply execSteering_kept
    | with_reducible apply State.ownerStep_kept
    | with_reducible apply execModelReset_kept
    | with_reducible apply State.setBandwidth_kept
    | with_reducible refine Kept.foldl ?_ fun _ _ _ => ?_
    | (with_reducible apply Kept.unmk; dsimp only; with_reducible apply Kept.ofF)
    | (intro _; intros; try beta_reduce)
    | split

theorem State.outEffect_kept (old : State) (s : State) (l : List StagedItem) (n : Fin 20) {s0 : State} (hK : Kept s0 s) :
    Kept s0 (State.outEffect old s l n) := by
  unfold State.outEffect
  repeat' first
    | with_reducible assumption
    | ((try lift_lets -underBinder); intro x; first
        | (have hx : Kept s0 x := ?_; rotate_left; subst x; rotate_left; clear_value x)
        | (have : MemUnits := x; subst x)
        | clear_value x
        | skip)
    | with_reducible apply State.timedWrite_kept
    | with_reducible apply State.padRestart_kept
    | with_reducible apply State.startSeries_kept
    | with_reducible apply State.setOut_kept
    | with_reducible apply State.putB_kept
    | with_reducible apply applied_kept
    | with_reducible apply execAlignTrigger_kept
    | with_reducible apply State.evalOut_kept
    | with_reducible refine Kept.foldl ?_ fun _ _ _ => ?_
    | (with_reducible apply Kept.unmk; dsimp only; with_reducible apply Kept.ofF)
    | (intro _; intros; try beta_reduce)
    | split

theorem State.outEffects_kept (old : State) (s : State) (l : List StagedItem) {s0 : State} (hK : Kept s0 s) :
    Kept s0 (State.outEffects old s l) := by
  unfold State.outEffects
  repeat' first
    | with_reducible assumption
    | ((try lift_lets -underBinder); intro x; first
        | (have hx : Kept s0 x := ?_; rotate_left; subst x; rotate_left; clear_value x)
        | skip)
    | with_reducible apply State.outEffect_kept
    | with_reducible apply applied_kept
    | with_reducible apply execCapAckSeq_kept
    | with_reducible refine Kept.foldl ?_ fun _ _ _ => ?_
    | (with_reducible apply Kept.unmk; dsimp only; with_reducible apply Kept.ofF)
    | (intro _; intros; try beta_reduce)
    | split

theorem State.skyEffects_kept (old : State) (s : State) (l : List StagedItem) {s0 : State} (hK : Kept s0 s) :
    Kept s0 (State.skyEffects old s l) := by
  unfold State.skyEffects
  repeat' first
    | with_reducible assumption
    | ((try lift_lets -underBinder); intro x; first
        | (have hx : Kept s0 x := ?_; rotate_left; subst x; rotate_left; clear_value x)
        | (have : MemUnits := x; subst x)
        | clear_value x
        | skip)
    | with_reducible apply State.updateAnt_kept
    | with_reducible apply State.standing_kept
    | with_reducible apply State.detectors_kept
    | with_reducible apply State.updateIntegrity_kept
    | with_reducible apply State.autoResurvey_kept
    | with_reducible apply applied_kept
    | with_reducible apply execSurveyRestart_kept
    | with_reducible apply State.putN_kept
    | with_reducible apply execGristRequest_kept
    | with_reducible apply State.setBand_kept
    | with_reducible apply State.changeNotches_kept
    | with_reducible apply State.driveClocks_kept
    | with_reducible refine Kept.foldl ?_ fun _ _ _ => ?_
    | (with_reducible apply Kept.unmk; dsimp only; with_reducible apply Kept.ofF)
    | (intro _; intros; try beta_reduce)
    | split

theorem State.portEffects_kept (old : State) (s : State) (l : List StagedItem) {s0 : State} (hK : Kept s0 s) :
    Kept s0 (State.portEffects old s l) := by
  unfold State.portEffects
  repeat' first
    | with_reducible assumption
    | ((try lift_lets -underBinder); intro x; first
        | (have hx : Kept s0 x := ?_; rotate_left; subst x; rotate_left; clear_value x)
        | (have hx : Kept s0 x.1 := ?_; rotate_left; subst x; rotate_left; clear_value x)
        | (have : MemUnits := x; subst x)
        | clear_value x
        | skip)
    | with_reducible apply State.newPortMode_kept
    | with_reducible apply State.refreshPort_kept
    | with_reducible apply State.wakeLine_kept
    | with_reducible apply State.setPort_kept
    | with_reducible apply State.clearPair_kept
    | with_reducible apply State.putN_kept
    | with_reducible apply State.sidebandOff_kept
    | with_reducible apply State.setPtpState_kept
    | with_reducible apply State.setInst_kept
    | with_reducible apply State.startListening_kept
    | with_reducible apply State.runBmca_kept
    | with_reducible refine Kept.foldl ?_ fun _ _ _ => ?_
    | (with_reducible apply Kept.unmk; dsimp only; with_reducible apply Kept.ofF)
    | (intro _; intros; try beta_reduce)
    | split

theorem State.serveEffects_kept (s : State) (l : List StagedItem) (w : List StagedBulk) (persist : Bool) {s0 : State} (hK : Kept s0 s) :
    Kept s0 (State.serveEffects s l w persist) := by
  unfold State.serveEffects
  repeat' first
    | with_reducible assumption
    | ((try lift_lets -underBinder); intro x; first
        | (have hx : Kept s0 x := ?_; rotate_left; subst x; rotate_left; clear_value x)
        | skip)
    | with_reducible apply State.serveQuiet_kept
    | with_reducible apply State.startVerify_kept
    | with_reducible apply State.staging_kept
    | with_reducible apply State.beginActivation_kept
    | with_reducible apply State.putB_kept
    | with_reducible apply State.clearCounters_kept
    | split

theorem State.loadCommitted_kept (s : State) (l : List StagedItem) (key : Nat) (slot : Nat) {s0 : State} (hK : Kept s0 s) :
    Kept s0 (State.loadCommitted s l key slot) := by
  unfold State.loadCommitted
  repeat' first
    | with_reducible assumption
    | with_reducible apply State.setKeySlot_kept
    | split

theorem State.securityEffects_kept (s : State) (l : List StagedItem) (session : Nat) {s0 : State} (hK : Kept s0 s) :
    Kept s0 (State.securityEffects s l session) := by
  unfold State.securityEffects
  repeat' first
    | with_reducible assumption
    | ((try lift_lets -underBinder); intro x; first
        | (have hx : Kept s0 x := ?_; rotate_left; subst x; rotate_left; clear_value x)
        | skip)
    | with_reducible apply State.commitMaster_kept
    | with_reducible apply State.loadCommitted_kept
    | with_reducible apply State.keGenerate_kept
    | with_reducible apply State.putB_kept
    | with_reducible apply State.bnTest_kept
    | with_reducible apply State.putN_kept
    | with_reducible apply State.clearTamper_kept
    | with_reducible apply State.debugRespond_kept
    | with_reducible refine Kept.foldl ?_ fun _ _ _ => ?_
    | (with_reducible apply Kept.unmk; dsimp only; with_reducible apply Kept.ofF)
    | (intro _; intros; try beta_reduce)
    | split

theorem State.windowEffects_kept (s : State) (w : List StagedBulk) {s0 : State} (hK : Kept s0 s) :
    Kept s0 (State.windowEffects s w) := by
  unfold State.windowEffects
  repeat' first
    | with_reducible assumption
    | ((try lift_lets -underBinder); intro x; first
        | (have hx : Kept s0 x := ?_; rotate_left; subst x; rotate_left; clear_value x)
        | (have hx : Kept s0 x.2 := ?_; rotate_left; subst x; rotate_left; clear_value x)
        | (have hx : Kept s0 x.1 := ?_; rotate_left; subst x; rotate_left; clear_value x)
        | (have hf1 : ∀ s, Kept s0 s → Kept s0 (x s) := ?_; rotate_left; subst x; intros; beta_reduce; rotate_left; clear_value x)
        | (have hf2 : ∀ s a, Kept s0 s → Kept s0 (x s a) := ?_; rotate_left; subst x; intros; beta_reduce; rotate_left; clear_value x)
        | skip)
    | with_reducible apply State.put_kept
    | with_reducible refine Kept.foldl ?_ fun _ _ _ => ?_
    | with_reducible apply hf1
    | with_reducible apply hf2
    | with_reducible apply hf3
    | with_reducible apply hf4
    | (with_reducible apply Kept.unmk; dsimp only; with_reducible apply Kept.ofF)
    | (intro _; intros; try beta_reduce)
    | split

theorem State.counterEffects_kept (s : State) (l : List StagedItem) {s0 : State} (hK : Kept s0 s) :
    Kept s0 (State.counterEffects s l) := by
  unfold State.counterEffects
  repeat' first
    | with_reducible assumption
    | ((try lift_lets -underBinder); intro x; first
        | (have hx : Kept s0 x := ?_; rotate_left; subst x; rotate_left; clear_value x)
        | skip)
    | with_reducible apply applied_kept
    | with_reducible apply execSnapRequest_kept
    | with_reducible apply execSampleClear_kept
    | split

theorem State.resetEffect_kept (s : State) (l : List StagedItem) (atOnce : Bool) {s0 : State} (hK : Kept s0 s) :
    Kept s0 (State.resetEffect s l atOnce) := by
  unfold State.resetEffect
  repeat' first
    | with_reducible assumption
    | ((try lift_lets -underBinder); intro x; first
        | (have hx : Kept s0 x := ?_; rotate_left; subst x; rotate_left; clear_value x)
        | (have : MemUnits := x; subst x)
        | clear_value x
        | skip)
    | with_reducible apply State.putN_kept
    | (with_reducible apply Kept.unmk; dsimp only; with_reducible apply Kept.ofF)
    | split

theorem State.modeEffects_kept (s : State) (l : List StagedItem) {s0 : State} (hK : Kept s0 s) :
    Kept s0 (State.modeEffects s l) := by
  unfold State.modeEffects
  repeat' first
    | with_reducible assumption
    | ((try lift_lets -underBinder); intro x; first
        | (have hx : Kept s0 x := ?_; rotate_left; subst x; rotate_left; clear_value x)
        | skip)
    | with_reducible apply State.drivePins_kept
    | with_reducible apply State.toMash_kept
    | with_reducible apply State.leaveSparge_kept
    | with_reducible apply State.enterSparge_kept
    | with_reducible apply State.activateFirmware_kept
    | with_reducible apply State.enterKiln_kept
    | with_reducible apply State.enterCellar_kept
    | (with_reducible apply Kept.unmk; dsimp only; with_reducible apply Kept.ofF)
    | split

theorem State.startPersist_kept (s : State) {s0 : State} (hK : Kept s0 s) :
    Kept s0 (State.startPersist s) := by
  unfold State.startPersist
  repeat' first
    | with_reducible assumption
    | ((try lift_lets -underBinder); intro x; first
        | (have hx : Kept s0 x := ?_; rotate_left; subst x; rotate_left; clear_value x)
        | (have hx : Kept s0 x.2 := ?_; rotate_left; subst x; rotate_left; clear_value x)
        | (have hx : Kept s0 x.1 := ?_; rotate_left; subst x; rotate_left; clear_value x)
        | (have : MemUnits := x; subst x)
        | (have : List (Nat × Val) := x; subst x)
        | clear_value x
        | skip)
    | with_reducible apply State.recordsOf_kept
    | with_reducible refine Kept.pair2 ‹_ = _› (State.recordsOf_kept _ _ ?_)
    | with_reducible apply State.putN_kept
    | (with_reducible apply Kept.unmk; dsimp only; with_reducible apply Kept.ofF)

theorem State.enrol_kept (s : State) {s0 : State} (hK : Kept s0 s) :
    Kept s0 (State.enrol s) := by
  unfold State.enrol
  repeat' first
    | with_reducible assumption
    | ((try lift_lets -underBinder); intro x; first
        | (have hx : Kept s0 x := ?_; rotate_left; subst x; rotate_left; clear_value x)
        | (have : MemUnits := x; subst x)
        | clear_value x
        | skip)
    | with_reducible apply State.logSec_kept
    | (with_reducible apply Kept.unmk; dsimp only; with_reducible apply Kept.ofF)
    | split

theorem execPersistWriteComplete_kept (ok : Bool) (s : State) {s0 : State} (hK : Kept s0 s) :
    KeptO s0 (execPersistWriteComplete ok s) := by
  unfold execPersistWriteComplete
  repeat' first
    | with_reducible assumption
    | ((try lift_lets -underBinder); intro x; first
        | (have hx : Kept s0 x := ?_; rotate_left; subst x; rotate_left; clear_value x)
        | (have : MemUnits := x; subst x)
        | clear_value x
        | skip)
    | with_reducible apply KeptO.next
    | with_reducible apply State.putN_kept
    | with_reducible apply State.bump_kept
    | (with_reducible apply Kept.unmk; dsimp only; with_reducible apply Kept.ofF)
    | split

theorem State.takeEffect_kept (s : State) (staged : List StagedItem) (w : List StagedBulk) (flags : Nat) (session : Nat) (due : Option Int) {s0 : State} (hK : Kept s0 s) :
    Kept s0 (State.takeEffect s staged w flags session due) := by
  unfold State.takeEffect
  repeat' first
    | with_reducible assumption
    | ((try lift_lets -underBinder); intro x; first
        | (have hx : Kept s0 x := ?_; rotate_left; subst x; rotate_left; clear_value x)
        | (have : MemUnits := x; subst x)
        | clear_value x
        | skip)
    | with_reducible apply State.staging_kept
    | with_reducible apply State.bump_kept
    | with_reducible apply State.timeEffects_kept
    | with_reducible apply State.slotEffects_kept
    | with_reducible apply State.keepCopies_kept
    | with_reducible apply State.outEffects_kept
    | with_reducible apply State.skyEffects_kept
    | with_reducible apply State.portEffects_kept
    | with_reducible apply State.serveEffects_kept
    | with_reducible apply State.securityEffects_kept
    | with_reducible apply State.windowEffects_kept
    | with_reducible apply State.enrol_kept
    | with_reducible apply State.startPersist_kept
    | with_reducible apply State.counterEffects_kept
    | with_reducible apply State.resetEffect_kept
    | with_reducible apply State.modeEffects_kept
    | (intro _; intros; try beta_reduce)
    | split

theorem State.runSched_kept (s : State) (c : Sched) {s0 : State} (hK : Kept s0 s) :
    Kept s0 (State.runSched s c) := by
  unfold State.runSched
  repeat' first
    | with_reducible assumption
    | ((try lift_lets -underBinder); intro x; first
        | (have hx : Kept s0 x := ?_; rotate_left; subst x; rotate_left; clear_value x)
        | (have : MemUnits := x; subst x)
        | clear_value x
        | skip)
    | with_reducible apply State.takeEffect_kept
    | with_reducible apply State.log_kept
    | with_reducible apply State.bump_kept
    | with_reducible apply State.dropLostStep_kept
    | (with_reducible apply Kept.unmk; dsimp only; with_reducible apply Kept.ofF)
    | (intro _; intros; try beta_reduce)
    | split

theorem State.runDue_kept (s : State) {s0 : State} (hK : Kept s0 s) :
    Kept s0 (State.runDue s) := by
  unfold State.runDue
  repeat' first
    | with_reducible assumption
    | with_reducible apply State.runSched_kept
    | with_reducible refine Kept.foldl ?_ fun _ _ _ => ?_
    | (intro _; intros; try beta_reduce)
    | split

theorem execObjectWrite_kept (index : Nat) (sub : Nat) (value : Bytes) (s : State) {s0 : State} (hK : Kept s0 s) :
    KeptO s0 (execObjectWrite index sub value s) := by
  unfold execObjectWrite
  repeat' first
    | with_reducible assumption
    | ((try lift_lets -underBinder); intro x; first
        | (have hx : Kept s0 x := ?_; rotate_left; subst x; rotate_left; clear_value x)
        | (have : MemUnits := x; subst x)
        | clear_value x
        | skip)
    | with_reducible apply KeptO.next
    | with_reducible apply State.runDue_kept
    | with_reducible apply State.takeEffect_kept
    | (with_reducible apply Kept.unmk; dsimp only; with_reducible apply Kept.ofF)
    | split

end Sys2Proof.Machine
end

