-- ==== Sys2Proof/Laws/Kept/Agent.lean ====
section
/-! SUPPORT. What the operations of Machine/Agent.lean keep. -/

namespace Sys2Proof.Machine

/-- Every state a frame is settled in. -/
structure KeptT (s0 : State) (o : Fate) : Prop where
  ofSettled : ∀ t, o = .settled t → Kept s0 t

theorem KeptT.hello {s0 : State} : KeptT s0 .hello := ⟨fun _ e => Fate.noConfusion e⟩

theorem KeptT.setup {s0 : State} {x : Setup} : KeptT s0 (.setup x) := ⟨fun _ e => Fate.noConfusion e⟩

theorem KeptT.request {s0 : State} {k : Fin 32} {x : Session} : KeptT s0 (.request k x) := ⟨fun _ e => Fate.noConfusion e⟩

theorem KeptT.settled {s0 t : State} (h : Kept s0 t) : KeptT s0 (.settled t) := ⟨fun _ e => by injection e with e; exact e ▸ h⟩

theorem State.accept_kept (s : State) (k : Fin 32) (x : Session) (seq : Nat) {s0 : State} (hK : Kept s0 s) :
    Kept s0 (State.accept s k x seq) := by
  unfold State.accept
  repeat' first
    | with_reducible assumption
    | ((try lift_lets -underBinder); intro x; first
        | (have hx : Kept s0 x := ?_; rotate_left; subst x; rotate_left; clear_value x)
        | (have : MemUnits := x; subst x)
        | clear_value x
        | skip)
    | with_reducible apply State.setSession_kept
    | with_reducible apply State.count_kept

theorem State.setSetup_kept (s : State) (x : Setup) {s0 : State} (hK : Kept s0 s) :
    Kept s0 (State.setSetup s x) := by
  unfold State.setSetup
  repeat' first
    | with_reducible assumption
    | ((try lift_lets -underBinder); intro x; first
        | (have hx : Kept s0 x := ?_; rotate_left; subst x; rotate_left; clear_value x)
        | (have : MemUnits := x; subst x)
        | clear_value x
        | skip)
    | (with_reducible apply Kept.unmk; dsimp only; with_reducible apply Kept.ofF)

theorem State.dropSetup_kept (s : State) (id : Nat) {s0 : State} (hK : Kept s0 s) :
    Kept s0 (State.dropSetup s id) := by
  unfold State.dropSetup
  repeat' first
    | with_reducible assumption
    | ((try lift_lets -underBinder); intro x; first
        | (have hx : Kept s0 x := ?_; rotate_left; subst x; rotate_left; clear_value x)
        | (have : MemUnits := x; subst x)
        | clear_value x
        | skip)
    | (with_reducible apply Kept.unmk; dsimp only; with_reducible apply Kept.ofF)

theorem State.answerSetup_kept (s : State) (x : Setup) (i : RxItem) (status : Nat) (payload : Bytes) {s0 : State} (hK : Kept s0 s) :
    Kept s0 (State.answerSetup s x i status payload) := by
  unfold State.answerSetup
  repeat' first
    | with_reducible assumption
    | ((try lift_lets -underBinder); intro x; first
        | (have hx : Kept s0 x := ?_; rotate_left; subst x; rotate_left; clear_value x)
        | (have : MemUnits := x; subst x)
        | clear_value x
        | skip)
    | with_reducible apply State.setSetup_kept
    | with_reducible apply State.sendFrames_kept

theorem State.refuseHello_kept (s : State) (i : RxItem) (status : Nat) {s0 : State} (hK : Kept s0 s) :
    Kept s0 (State.refuseHello s i status) := by
  unfold State.refuseHello
  repeat' first
    | with_reducible assumption
    | with_reducible apply State.sendOol_kept

theorem State.setupFate_kept (s : State) (i : RxItem) (x : Setup) {s0 : State} (hK : Kept s0 s) :
    KeptT s0 (State.setupFate s i x) := by
  unfold State.setupFate
  repeat' first
    | with_reducible assumption
    | ((try lift_lets -underBinder); intro x; first
        | (have hx : Kept s0 x := ?_; rotate_left; subst x; rotate_left; clear_value x)
        | (have : MemUnits := x; subst x)
        | clear_value x
        | skip)
    | with_reducible apply KeptT.settled
    | with_reducible exact KeptT.hello
    | with_reducible apply KeptT.setup
    | with_reducible apply KeptT.request
    | with_reducible apply State.bump_kept
    | with_reducible apply State.sendFrames_kept
    | with_reducible apply State.answerSetup_kept
    | with_reducible apply State.accept_kept
    | (with_reducible apply Kept.unmk; dsimp only; with_reducible apply Kept.ofF)
    | split

theorem State.sessionFate_kept (s : State) (i : RxItem) (k : Fin 32) (x : Session) {s0 : State} (hK : Kept s0 s) :
    KeptT s0 (State.sessionFate s i k x) := by
  unfold State.sessionFate
  repeat' first
    | with_reducible assumption
    | ((try lift_lets -underBinder); intro x; first
        | (have hx : Kept s0 x := ?_; rotate_left; subst x; rotate_left; clear_value x)
        | (have : MemUnits := x; subst x)
        | clear_value x
        | skip)
    | with_reducible apply KeptT.settled
    | with_reducible exact KeptT.hello
    | with_reducible apply KeptT.setup
    | with_reducible apply KeptT.request
    | with_reducible apply State.bump_kept
    | with_reducible apply State.sendFrames_kept
    | with_reducible apply State.accept_kept
    | with_reducible apply State.answer_kept
    | (with_reducible apply Kept.unmk; dsimp only; with_reducible apply Kept.ofF)
    | split

theorem State.fate_kept (s : State) (i : RxItem) {s0 : State} (hK : Kept s0 s) :
    KeptT s0 (State.fate s i) := by
  unfold State.fate
  repeat' first
    | with_reducible assumption
    | ((try lift_lets -underBinder); intro x; first
        | (have hx : Kept s0 x := ?_; rotate_left; subst x; rotate_left; clear_value x)
        | (have : MemUnits := x; subst x)
        | clear_value x
        | skip)
    | with_reducible apply KeptT.settled
    | with_reducible exact KeptT.hello
    | with_reducible apply KeptT.setup
    | with_reducible apply KeptT.request
    | with_reducible apply State.bump_kept
    | with_reducible apply State.refuseHello_kept
    | with_reducible apply State.setupFate_kept
    | with_reducible refine (State.setupFate_kept _ _ _ ?_).ofSettled _ ‹_›
    | with_reducible apply State.sessionFate_kept
    | with_reducible refine (State.sessionFate_kept _ _ _ _ ?_).ofSettled _ ‹_›
    | (with_reducible apply Kept.unmk; dsimp only; with_reducible apply Kept.ofF)
    | (intro _; intros; try beta_reduce)
    | split

theorem State.nextRx_kept (s : State) {s0 : State} (hK : Kept s0 s) :
    KeptS2 s0 (State.nextRx s) := by
  unfold State.nextRx
  repeat' first
    | with_reducible assumption
    | ((try lift_lets -underBinder); intro x; first
        | (have hx : Kept s0 x := ?_; rotate_left; subst x; rotate_left; clear_value x)
        | (have : MemUnits := x; subst x)
        | clear_value x
        | skip)
    | with_reducible apply KeptS2.some
    | with_reducible exact KeptS2.none
    | (with_reducible apply Kept.unmk; dsimp only; with_reducible apply Kept.ofF)
    | split

theorem State.settleRx_kept (n : Nat) (s : State) {s0 : State} (hK : Kept s0 s) :
    Kept s0 (State.settleRx n s) := by
  induction n generalizing s with
  | zero => exact hK
  | succ n ih =>
    rw [State.settleRx]
    repeat' first
      | with_reducible assumption
      | ((try lift_lets -underBinder); intro x; first
          | (have hx : Kept s0 x := ?_; rotate_left; subst x; rotate_left; clear_value x)
          | (have hx : KeptS2 s0 x := ?_; rotate_left; subst x; rotate_left; clear_value x)
          | (have : MemUnits := x; subst x)
          | clear_value x
          | skip)
      | with_reducible apply ih
      | with_reducible apply State.nextRx_kept
      | with_reducible refine (State.nextRx_kept _ ?_).ofSome _ _ ‹_›
      | with_reducible apply State.fate_kept
      | with_reducible refine (State.fate_kept _ _ ?_).ofSettled _ ‹_›
      | with_reducible exact (‹KeptS2 s0 _›).ofSome _ _ ‹_›
      | with_reducible exact (‹KeptS2 s0 (some _)›).ofSome _ _ rfl
      | (with_reducible apply Kept.unmk; dsimp only; with_reducible apply Kept.ofF)
      | split

theorem State.agentBegin_kept (s : State) {s0 : State} (hK : Kept s0 s) :
    Kept s0 (State.agentBegin s) := by
  unfold State.agentBegin
  repeat' first
    | with_reducible assumption
    | ((try lift_lets -underBinder); intro x; first
        | (have hx : Kept s0 x := ?_; rotate_left; subst x; rotate_left; clear_value x)
        | (have : MemUnits := x; subst x)
        | clear_value x
        | skip)
    | with_reducible apply State.settleRx_kept
    | (with_reducible apply Kept.unmk; dsimp only; with_reducible apply Kept.ofF)

theorem State.nextReq_kept (s : State) {s0 : State} (hK : Kept s0 s) :
    KeptS1 s0 (State.nextReq s) := by
  unfold State.nextReq
  repeat' first
    | with_reducible assumption
    | ((try lift_lets -underBinder); intro x; first
        | (have hx : Kept s0 x := ?_; rotate_left; subst x; rotate_left; clear_value x)
        | (have hx : KeptS2 s0 x := ?_; rotate_left; subst x; rotate_left; clear_value x)
        | (have : MemUnits := x; subst x)
        | clear_value x
        | skip)
    | with_reducible apply KeptS1.some
    | with_reducible exact KeptS1.none
    | with_reducible apply State.nextRx_kept
    | with_reducible refine (State.nextRx_kept _ ?_).ofSome _ _ ‹_›
    | with_reducible apply State.fate_kept
    | with_reducible refine (State.fate_kept _ _ ?_).ofSettled _ ‹_›
    | with_reducible apply State.accept_kept
    | with_reducible exact (‹KeptS2 s0 _›).ofSome _ _ ‹_›
    | with_reducible exact (‹KeptS2 s0 (some _)›).ofSome _ _ rfl
    | (with_reducible apply Kept.unmk; dsimp only; with_reducible apply Kept.ofF)
    | split

theorem State.serveReq_kept (s : State) (opcode : Nat) (f : State → Req → State) {s0 : State} (hK : Kept s0 s) (hf : ∀ s r, Kept s0 s → Kept s0 (f s r)) :
    Kept s0 (State.serveReq s opcode f) := by
  unfold State.serveReq
  repeat' first
    | with_reducible assumption
    | ((try lift_lets -underBinder); intro x; first
        | (have hx : Kept s0 x := ?_; rotate_left; subst x; rotate_left; clear_value x)
        | skip)
    | with_reducible apply hf
    | with_reducible apply State.agentBegin_kept
    | with_reducible apply State.nextReq_kept
    | with_reducible refine (State.nextReq_kept _ ?_).ofSome _ _ ‹_›
    | with_reducible exact (‹KeptS1 s0 _›).ofSome _ _ ‹_›
    | with_reducible exact (‹KeptS1 s0 (some _)›).ofSome _ _ rfl
    | (with_reducible apply Kept.unmk; dsimp only; with_reducible apply Kept.ofF)
    | split

theorem State.reply_kept (s : State) (r : Req) (status : Nat) (payload : Bytes) (more : Bool) {s0 : State} (hK : Kept s0 s) :
    Kept s0 (State.reply s r status payload more) := by
  unfold State.reply
  repeat' first
    | with_reducible assumption
    | with_reducible apply State.answer_kept

theorem State.newId_kept (n : Nat) (s : State) {s0 : State} (hK : Kept s0 s) :
    Kept s0 (State.newId n s).2 := by
  induction n generalizing s with
  | zero => exact hK
  | succ n ih =>
    rw [State.newId]
    repeat' first
      | with_reducible assumption
      | ((try lift_lets -underBinder); intro x; first
          | (have hx : Kept s0 x := ?_; rotate_left; subst x; rotate_left; clear_value x)
          | (have : MemUnits := x; subst x)
          | clear_value x
          | skip)
      | with_reducible apply ih
      | with_reducible apply State.random_kept
      | with_reducible refine Kept.pair2 ‹_ = _› (State.random_kept _ _ ?_)
      | (intro _; intros; try beta_reduce)
      | split

theorem State.pskSecret_kept (s : State) (id : Nat) (path : Path) {s0 : State} (hK : Kept s0 s) :
    Kept s0 (State.pskSecret s id path).2 := by
  unfold State.pskSecret
  repeat' first
    | with_reducible assumption
    | ((try lift_lets -underBinder); intro x; first
        | (have hx : Kept s0 x := ?_; rotate_left; subst x; rotate_left; clear_value x)
        | (have : MemUnits := x; subst x)
        | clear_value x
        | skip)
    | with_reducible apply State.random_kept
    | with_reducible refine Kept.pair2 ‹_ = _› (State.random_kept _ _ ?_)
    | (with_reducible apply Kept.unmk; dsimp only; with_reducible apply Kept.ofF)
    | split

theorem State.setupFailed_kept (s : State) (method : Nat) (cause : Nat) {s0 : State} (hK : Kept s0 s) :
    Kept s0 (State.setupFailed s method cause) := by
  unfold State.setupFailed
  repeat' first
    | with_reducible assumption
    | with_reducible apply State.bump_kept
    | with_reducible apply State.logSec_kept

theorem State.addSetup_kept (s : State) (x : Setup) {s0 : State} (hK : Kept s0 s) :
    Kept s0 (State.addSetup s x) := by
  unfold State.addSetup
  repeat' first
    | with_reducible assumption
    | ((try lift_lets -underBinder); intro x; first
        | (have hx : Kept s0 x := ?_; rotate_left; subst x; rotate_left; clear_value x)
        | (have : MemUnits := x; subst x)
        | clear_value x
        | skip)
    | (with_reducible apply Kept.unmk; dsimp only; with_reducible apply Kept.ofF)

theorem State.helloPsk_kept (s : State) (i : RxItem) {s0 : State} (hK : Kept s0 s) :
    Kept s0 (State.helloPsk s i) := by
  unfold State.helloPsk
  repeat' first
    | with_reducible assumption
    | ((try lift_lets -underBinder); intro x; first
        | (have hx : Kept s0 x := ?_; rotate_left; subst x; rotate_left; clear_value x)
        | (have : MemUnits := x; subst x)
        | clear_value x
        | skip)
    | with_reducible apply State.pskSecret_kept
    | with_reducible refine Kept.pair2 ‹_ = _› (State.pskSecret_kept _ _ _ ?_)
    | with_reducible apply State.newId_kept
    | with_reducible refine Kept.pair2 ‹_ = _› (State.newId_kept _ _ ?_)
    | with_reducible apply State.random_kept
    | with_reducible refine Kept.pair2 ‹_ = _› (State.random_kept _ _ ?_)
    | with_reducible apply State.addSetup_kept
    | with_reducible apply State.sendOol_kept

theorem State.helloCert_kept (s : State) (i : RxItem) (sigBad : Bool) {s0 : State} (hK : Kept s0 s) :
    Kept s0 (State.helloCert s i sigBad) := by
  unfold State.helloCert
  repeat' first
    | with_reducible assumption
    | ((try lift_lets -underBinder); intro x; first
        | (have hx : Kept s0 x := ?_; rotate_left; subst x; rotate_left; clear_value x)
        | (have : MemUnits := x; subst x)
        | clear_value x
        | skip)
    | with_reducible apply State.setupFailed_kept
    | with_reducible apply State.refuseHello_kept
    | with_reducible apply State.random_kept
    | with_reducible refine Kept.pair2 ‹_ = _› (State.random_kept _ _ ?_)
    | with_reducible apply State.pointInvalid_kept
    | with_reducible apply State.withhold_kept
    | with_reducible apply State.newId_kept
    | with_reducible refine Kept.pair2 ‹_ = _› (State.newId_kept _ _ ?_)
    | with_reducible apply State.addSetup_kept
    | with_reducible apply State.sendFrames_kept
    | (with_reducible apply Kept.unmk; dsimp only; with_reducible apply Kept.ofF)
    | split

theorem State.runHello_kept (s : State) (i : RxItem) (sigBad : Bool) {s0 : State} (hK : Kept s0 s) :
    Kept s0 (State.runHello s i sigBad) := by
  unfold State.runHello
  repeat' first
    | with_reducible assumption
    | ((try lift_lets -underBinder); intro x; first
        | (have hx : Kept s0 x := ?_; rotate_left; subst x; rotate_left; clear_value x)
        | (have : MemUnits := x; subst x)
        | clear_value x
        | skip)
    | with_reducible apply State.bump_kept
    | with_reducible apply State.refuseHello_kept
    | with_reducible apply State.helloPsk_kept
    | with_reducible apply State.helloCert_kept
    | (intro _; intros; try beta_reduce)
    | split

theorem execHello_kept (sigBad : Bool) (s : State) {s0 : State} (hK : Kept s0 s) :
    KeptO s0 (execHello sigBad s) := by
  unfold execHello
  repeat' first
    | with_reducible assumption
    | ((try lift_lets -underBinder); intro x; first
        | (have hx : Kept s0 x := ?_; rotate_left; subst x; rotate_left; clear_value x)
        | skip)
    | with_reducible apply KeptO.next
    | with_reducible apply State.agentBegin_kept
    | with_reducible apply State.nextRx_kept
    | with_reducible refine (State.nextRx_kept _ ?_).ofSome _ _ ‹_›
    | with_reducible apply State.fate_kept
    | with_reducible refine (State.fate_kept _ _ ?_).ofSettled _ ‹_›
    | with_reducible apply State.runHello_kept
    | with_reducible exact (‹KeptS2 s0 _›).ofSome _ _ ‹_›
    | with_reducible exact (‹KeptS2 s0 (some _)›).ofSome _ _ rfl
    | (with_reducible apply Kept.unmk; dsimp only; with_reducible apply Kept.ofF)
    | split

theorem State.runCert_kept (s : State) (i : RxItem) (x : Setup) {s0 : State} (hK : Kept s0 s) :
    Kept s0 (State.runCert s i x) := by
  unfold State.runCert
  repeat' first
    | with_reducible assumption
    | ((try lift_lets -underBinder); intro x; first
        | (have hx : Kept s0 x := ?_; rotate_left; subst x; rotate_left; clear_value x)
        | (have : MemUnits := x; subst x)
        | clear_value x
        | skip)
    | with_reducible apply State.accept_kept
    | with_reducible apply State.answer_kept
    | with_reducible apply State.answerSetup_kept

theorem State.openSession_kept (s : State) (k : Fin 32) (i : RxItem) (x : Setup) (rights : Nat) {s0 : State} (hK : Kept s0 s) :
    Kept s0 (State.openSession s k i x rights) := by
  unfold State.openSession
  repeat' first
    | with_reducible assumption
    | ((try lift_lets -underBinder); intro x; first
        | (have hx : Kept s0 x := ?_; rotate_left; subst x; rotate_left; clear_value x)
        | (have : MemUnits := x; subst x)
        | clear_value x
        | skip)
    | with_reducible apply State.accept_kept
    | with_reducible apply State.dropSetup_kept
    | with_reducible apply State.setSession_kept
    | with_reducible apply State.countSessions_kept
    | with_reducible apply State.count_kept
    | with_reducible apply State.log_kept
    | with_reducible apply State.answer_kept

theorem State.runFinish_kept (s : State) (i : RxItem) (x : Setup) {s0 : State} (hK : Kept s0 s) :
    Kept s0 (State.runFinish s i x) := by
  unfold State.runFinish
  repeat' first
    | with_reducible assumption
    | ((try lift_lets -underBinder); intro x; first
        | (have hx : Kept s0 x := ?_; rotate_left; subst x; rotate_left; clear_value x)
        | (have hx : Kept s0 x.2 := ?_; rotate_left; subst x; rotate_left; clear_value x)
        | (have hf1 : ∀ s, Kept s0 s → Kept s0 (x s) := ?_; rotate_left; subst x; intros; beta_reduce; rotate_left; clear_value x)
        | (have hf2 : ∀ s a, Kept s0 s → Kept s0 (x s a) := ?_; rotate_left; subst x; intros; beta_reduce; rotate_left; clear_value x)
        | skip)
    | with_reducible apply State.dropSetup_kept
    | with_reducible apply State.sendFrames_kept
    | with_reducible apply State.setupFailed_kept
    | with_reducible apply State.openSession_kept
    | with_reducible apply hf1
    | with_reducible apply hf2
    | with_reducible apply hf3
    | with_reducible apply hf4
    | (with_reducible apply Kept.unmk; dsimp only; with_reducible apply Kept.ofF)
    | (intro _; intros; try beta_reduce)
    | split

theorem State.serveSetup_kept (s : State) (opcode : Nat) (f : State → RxItem → Setup → State) {s0 : State} (hK : Kept s0 s) (hf : ∀ s i x, Kept s0 s → Kept s0 (f s i x)) :
    Kept s0 (State.serveSetup s opcode f) := by
  unfold State.serveSetup
  repeat' first
    | with_reducible assumption
    | ((try lift_lets -underBinder); intro x; first
        | (have hx : Kept s0 x := ?_; rotate_left; subst x; rotate_left; clear_value x)
        | skip)
    | with_reducible apply hf
    | with_reducible apply State.agentBegin_kept
    | with_reducible apply State.nextRx_kept
    | with_reducible refine (State.nextRx_kept _ ?_).ofSome _ _ ‹_›
    | with_reducible apply State.fate_kept
    | with_reducible refine (State.fate_kept _ _ ?_).ofSettled _ ‹_›
    | with_reducible exact (‹KeptS2 s0 _›).ofSome _ _ ‹_›
    | with_reducible exact (‹KeptS2 s0 (some _)›).ofSome _ _ rfl
    | (with_reducible apply Kept.unmk; dsimp only; with_reducible apply Kept.ofF)
    | split

theorem execCert_kept (s : State) {s0 : State} (hK : Kept s0 s) :
    KeptO s0 (execCert s) := by
  unfold execCert
  repeat' first
    | with_reducible assumption
    | with_reducible apply KeptO.next
    | with_reducible apply State.serveSetup_kept
    | with_reducible apply State.runCert_kept
    | (intro _; intros; try beta_reduce)

theorem execFinish_kept (s : State) {s0 : State} (hK : Kept s0 s) :
    KeptO s0 (execFinish s) := by
  unfold execFinish
  repeat' first
    | with_reducible assumption
    | with_reducible apply KeptO.next
    | with_reducible apply State.serveSetup_kept
    | with_reducible apply State.runFinish_kept
    | (intro _; intros; try beta_reduce)

theorem execSetupTimeout_kept (s : State) {s0 : State} (hK : Kept s0 s) :
    KeptO s0 (execSetupTimeout s) := by
  unfold execSetupTimeout
  repeat' first
    | with_reducible assumption
    | ((try lift_lets -underBinder); intro x; first
        | (have hx : Kept s0 x := ?_; rotate_left; subst x; rotate_left; clear_value x)
        | (have hf1 : ∀ s, Kept s0 s → Kept s0 (x s) := ?_; rotate_left; subst x; intros; beta_reduce; rotate_left; clear_value x)
        | (have hf2 : ∀ s a, Kept s0 s → Kept s0 (x s a) := ?_; rotate_left; subst x; intros; beta_reduce; rotate_left; clear_value x)
        | (have hf3 : ∀ s a b, Kept s0 s → Kept s0 (x s a b) := ?_; rotate_left; subst x; intros; beta_reduce; rotate_left; clear_value x)
        | (have hf4 : ∀ a s, Kept s0 s → Kept s0 (x a s) := ?_; rotate_left; subst x; intros; beta_reduce; rotate_left; clear_value x)
        | (have : MemUnits := x; subst x)
        | clear_value x
        | skip)
    | with_reducible apply KeptO.next
    | with_reducible apply State.setupFailed_kept
    | with_reducible refine Kept.foldl ?_ fun _ _ _ => ?_
    | with_reducible apply hf1
    | with_reducible apply hf2
    | with_reducible apply hf3
    | with_reducible apply hf4
    | (with_reducible apply Kept.unmk; dsimp only; with_reducible apply Kept.ofF)
    | (intro _; intros; try beta_reduce)
    | split

theorem execClose_kept (s : State) {s0 : State} (hK : Kept s0 s) :
    KeptO s0 (execClose s) := by
  unfold execClose
  repeat' first
    | with_reducible assumption
    | with_reducible apply KeptO.next
    | with_reducible apply State.serveReq_kept
    | with_reducible apply State.reply_kept
    | with_reducible apply State.closeSession_kept
    | (intro _; intros; try beta_reduce)

theorem execSessionIdleTimeout_kept (s : State) {s0 : State} (hK : Kept s0 s) :
    KeptO s0 (execSessionIdleTimeout s) := by
  unfold execSessionIdleTimeout
  repeat' first
    | with_reducible assumption
    | ((try lift_lets -underBinder); intro x; first
        | (have hx : Kept s0 x := ?_; rotate_left; subst x; rotate_left; clear_value x)
        | (have hf1 : ∀ s, Kept s0 s → Kept s0 (x s) := ?_; rotate_left; subst x; intros; beta_reduce; rotate_left; clear_value x)
        | (have hf2 : ∀ s a, Kept s0 s → Kept s0 (x s a) := ?_; rotate_left; subst x; intros; beta_reduce; rotate_left; clear_value x)
        | (have hf3 : ∀ s a b, Kept s0 s → Kept s0 (x s a b) := ?_; rotate_left; subst x; intros; beta_reduce; rotate_left; clear_value x)
        | (have hf4 : ∀ a s, Kept s0 s → Kept s0 (x a s) := ?_; rotate_left; subst x; intros; beta_reduce; rotate_left; clear_value x)
        | (have : MemUnits := x; subst x)
        | clear_value x
        | skip)
    | with_reducible apply KeptO.next
    | with_reducible apply State.closeSession_kept
    | with_reducible refine Kept.foldl ?_ fun _ _ _ => ?_
    | with_reducible apply hf1
    | with_reducible apply hf2
    | with_reducible apply hf3
    | with_reducible apply hf4
    | (with_reducible apply Kept.unmk; dsimp only; with_reducible apply Kept.ofF)
    | (intro _; intros; try beta_reduce)
    | split

theorem execHostSpiWrite_kept (bytes : Bytes) (s : State) {s0 : State} (hK : Kept s0 s) :
    KeptO s0 (execHostSpiWrite bytes s) := by
  unfold execHostSpiWrite
  repeat' first
    | with_reducible assumption
    | ((try lift_lets -underBinder); intro x; first
        | (have hx : Kept s0 x := ?_; rotate_left; subst x; rotate_left; clear_value x)
        | (have : MemUnits := x; subst x)
        | clear_value x
        | skip)
    | with_reducible apply KeptO.next
    | with_reducible apply State.bump_kept
    | (with_reducible apply Kept.unmk; dsimp only; with_reducible apply Kept.ofF)
    | split

theorem execHostSpiRead_kept (clocked : Nat) (s : State) {s0 : State} (hK : Kept s0 s) :
    KeptO s0 (execHostSpiRead clocked s) := by
  unfold execHostSpiRead
  repeat' first
    | with_reducible assumption
    | ((try lift_lets -underBinder); intro x; first
        | (have hx : Kept s0 x := ?_; rotate_left; subst x; rotate_left; clear_value x)
        | (have : MemUnits := x; subst x)
        | clear_value x
        | skip)
    | with_reducible apply KeptO.next
    | (with_reducible apply Kept.unmk; dsimp only; with_reducible apply Kept.ofF)
    | split

end Sys2Proof.Machine
end

