-- ==== Sys2Proof/Laws/Kept/Election.lean ====
section
/-! SUPPORT. What the operations of Machine/Election.lean keep. -/

namespace Sys2Proof.Machine

theorem State.renewLease_kept (s : State) {s0 : State} (hK : Kept s0 s) :
    Kept s0 (State.renewLease s) := by
  unfold State.renewLease
  repeat' first
    | with_reducible assumption
    | ((try lift_lets -underBinder); intro x; first
        | (have hx : Kept s0 x := ?_; rotate_left; subst x; rotate_left; clear_value x)
        | (have : MemUnits := x; subst x)
        | clear_value x
        | skip)
    | (with_reducible apply Kept.unmk; dsimp only; with_reducible apply Kept.ofF)

theorem State.tellClaims_kept (s : State) (l : List Claimant) (winner : Fin 32) (node : Nat) {s0 : State} (hK : Kept s0 s) :
    Kept s0 (State.tellClaims s l winner node) := by
  unfold State.tellClaims
  repeat' first
    | with_reducible assumption
    | with_reducible apply State.answer_kept
    | with_reducible refine Kept.foldl ?_ fun _ _ _ => ?_

theorem State.recordClaim_kept (s : State) (r : Req) (prio : Nat) (node : Nat) {s0 : State} (hK : Kept s0 s) :
    Kept s0 (State.recordClaim s r prio node) := by
  unfold State.recordClaim
  repeat' first
    | with_reducible assumption
    | ((try lift_lets -underBinder); intro x; first
        | (have hx : Kept s0 x := ?_; rotate_left; subst x; rotate_left; clear_value x)
        | (have : MemUnits := x; subst x)
        | clear_value x
        | skip)
    | with_reducible apply State.reply_kept
    | (with_reducible apply Kept.unmk; dsimp only; with_reducible apply Kept.ofF)

theorem State.ownClaim_kept (s : State) (r : Req) (prio : Nat) (node : Nat) {s0 : State} (hK : Kept s0 s) :
    Kept s0 (State.ownClaim s r prio node) := by
  unfold State.ownClaim
  repeat' first
    | with_reducible assumption
    | with_reducible apply State.putN_kept
    | with_reducible apply State.renewLease_kept
    | with_reducible apply State.reply_kept

theorem State.runClaim_kept (s : State) (r : Req) {s0 : State} (hK : Kept s0 s) :
    Kept s0 (State.runClaim s r) := by
  unfold State.runClaim
  repeat' first
    | with_reducible assumption
    | ((try lift_lets -underBinder); intro x; first
        | (have hx : Kept s0 x := ?_; rotate_left; subst x; rotate_left; clear_value x)
        | (have : MemUnits := x; subst x)
        | clear_value x
        | skip)
    | with_reducible apply State.reply_kept
    | with_reducible apply State.ownClaim_kept
    | with_reducible apply State.takeOwnership_kept
    | with_reducible apply State.tellClaims_kept
    | with_reducible apply State.recordClaim_kept
    | with_reducible apply State.putN_kept
    | (with_reducible apply Kept.unmk; dsimp only; with_reducible apply Kept.ofF)
    | split

theorem execClaim_kept (s : State) {s0 : State} (hK : Kept s0 s) :
    KeptO s0 (execClaim s) := by
  unfold execClaim
  repeat' first
    | with_reducible assumption
    | with_reducible apply KeptO.next
    | with_reducible apply State.serveReq_kept
    | with_reducible apply State.runClaim_kept
    | (intro _; intros; try beta_reduce)
    | split

theorem execElectionWindowEnd_kept (s : State) {s0 : State} (hK : Kept s0 s) :
    KeptO s0 (execElectionWindowEnd s) := by
  unfold execElectionWindowEnd
  repeat' first
    | with_reducible assumption
    | ((try lift_lets -underBinder); intro x; first
        | (have hx : Kept s0 x := ?_; rotate_left; subst x; rotate_left; clear_value x)
        | (have : MemUnits := x; subst x)
        | clear_value x
        | skip)
    | with_reducible apply KeptO.next
    | with_reducible apply State.putN_kept
    | with_reducible apply State.takeOwnership_kept
    | with_reducible apply State.tellClaims_kept
    | (with_reducible apply Kept.unmk; dsimp only; with_reducible apply Kept.ofF)
    | split

theorem execHeartbeat_kept (s : State) {s0 : State} (hK : Kept s0 s) :
    KeptO s0 (execHeartbeat s) := by
  unfold execHeartbeat
  repeat' first
    | with_reducible assumption
    | with_reducible apply KeptO.next
    | with_reducible apply State.serveReq_kept
    | with_reducible apply State.reply_kept
    | with_reducible apply State.renewLease_kept
    | (intro _; intros; try beta_reduce)
    | split

theorem execLeaseExpiry_kept (s : State) {s0 : State} (hK : Kept s0 s) :
    KeptO s0 (execLeaseExpiry s) := by
  unfold execLeaseExpiry
  repeat' first
    | with_reducible assumption
    | with_reducible apply KeptO.next
    | with_reducible apply State.freeOwnership_kept
    | split

theorem execRelease_kept (s : State) {s0 : State} (hK : Kept s0 s) :
    KeptO s0 (execRelease s) := by
  unfold execRelease
  repeat' first
    | with_reducible assumption
    | with_reducible apply KeptO.next
    | with_reducible apply State.serveReq_kept
    | with_reducible apply State.reply_kept
    | with_reducible apply State.freeOwnership_kept
    | (intro _; intros; try beta_reduce)
    | split

theorem State.runHandover_kept (s : State) (r : Req) {s0 : State} (hK : Kept s0 s) :
    Kept s0 (State.runHandover s r) := by
  unfold State.runHandover
  repeat' first
    | with_reducible assumption
    | ((try lift_lets -underBinder); intro x; first
        | (have hx : Kept s0 x := ?_; rotate_left; subst x; rotate_left; clear_value x)
        | (have : MemUnits := x; subst x)
        | clear_value x
        | skip)
    | with_reducible apply State.reply_kept
    | with_reducible apply State.putN_kept
    | (with_reducible apply Kept.unmk; dsimp only; with_reducible apply Kept.ofF)
    | split

theorem execHandover_kept (s : State) {s0 : State} (hK : Kept s0 s) :
    KeptO s0 (execHandover s) := by
  unfold execHandover
  repeat' first
    | with_reducible assumption
    | with_reducible apply KeptO.next
    | with_reducible apply State.serveReq_kept
    | with_reducible apply State.runHandover_kept
    | (intro _; intros; try beta_reduce)

theorem State.runConfirm_kept (s : State) (r : Req) {s0 : State} (hK : Kept s0 s) :
    Kept s0 (State.runConfirm s r) := by
  unfold State.runConfirm
  repeat' first
    | with_reducible assumption
    | with_reducible apply State.reply_kept
    | with_reducible apply State.takeOwnership_kept
    | split

theorem execConfirm_kept (s : State) {s0 : State} (hK : Kept s0 s) :
    KeptO s0 (execConfirm s) := by
  unfold execConfirm
  repeat' first
    | with_reducible assumption
    | with_reducible apply KeptO.next
    | with_reducible apply State.serveReq_kept
    | with_reducible apply State.runConfirm_kept
    | (intro _; intros; try beta_reduce)
    | split

theorem execHandoverTimerExpiry_kept (s : State) {s0 : State} (hK : Kept s0 s) :
    KeptO s0 (execHandoverTimerExpiry s) := by
  unfold execHandoverTimerExpiry
  repeat' first
    | with_reducible assumption
    | ((try lift_lets -underBinder); intro x; first
        | (have hx : Kept s0 x := ?_; rotate_left; subst x; rotate_left; clear_value x)
        | (have : MemUnits := x; subst x)
        | clear_value x
        | skip)
    | with_reducible apply KeptO.next
    | with_reducible apply State.putN_kept
    | (with_reducible apply Kept.unmk; dsimp only; with_reducible apply Kept.ofF)
    | split

end Sys2Proof.Machine
end

