-- ==== Sys2Proof/Laws/Kept/Isa.lean ====
section
/-! SUPPORT. What the operations of Machine/Isa.lean keep. -/

namespace Sys2Proof.Machine

theorem State.instr_kept (s : State) (e : Fin 8) (t : Fin 16) (op : Nat) (f : State → Thread → Word64 → State) {s0 : State} (hK : Kept s0 s) (hf : ∀ s x w, Kept s0 s → Kept s0 (f s x w)) :
    KeptO s0 (State.instr s e t op f) := by
  unfold State.instr
  repeat' first
    | with_reducible assumption
    | ((try lift_lets -underBinder); intro x; first
        | (have hx : Kept s0 x := ?_; rotate_left; subst x; rotate_left; clear_value x)
        | (have : MemUnits := x; subst x)
        | clear_value x
        | skip)
    | with_reducible apply KeptO.next
    | with_reducible apply hf
    | with_reducible apply State.progFault_kept
    | with_reducible apply State.setThread_kept
    | with_reducible apply State.setEngine_kept
    | with_reducible apply State.issueSlots_kept
    | (with_reducible apply Kept.unmk; dsimp only; with_reducible apply Kept.ofF)
    | split

theorem State.alu_kept (s : State) (e : Fin 8) (t : Fin 16) (op : Nat) (h : Word64 → Word64 → Word64) {s0 : State} (hK : Kept s0 s) :
    KeptO s0 (State.alu s e t op h) := by
  unfold State.alu
  repeat' first
    | with_reducible assumption
    | ((try lift_lets -underBinder); intro x; first
        | (have hx : Kept s0 x := ?_; rotate_left; subst x; rotate_left; clear_value x)
        | (have : MemUnits := x; subst x)
        | clear_value x
        | skip)
    | with_reducible apply State.instr_kept
    | with_reducible apply State.setThread_kept

theorem State.branch_kept (s : State) (e : Fin 8) (t : Fin 16) (op : Nat) (h : Thread → Word64 → Bool) {s0 : State} (hK : Kept s0 s) :
    KeptO s0 (State.branch s e t op h) := by
  unfold State.branch
  repeat' first
    | with_reducible assumption
    | ((try lift_lets -underBinder); intro x; first
        | (have hx : Kept s0 x := ?_; rotate_left; subst x; rotate_left; clear_value x)
        | (have : MemUnits := x; subst x)
        | clear_value x
        | skip)
    | with_reducible apply State.instr_kept
    | with_reducible apply State.setThread_kept

theorem State.compare_kept (s : State) (e : Fin 8) (t : Fin 16) (op : Nat) (h : Word64 → Word64 → Bool) {s0 : State} (hK : Kept s0 s) :
    KeptO s0 (State.compare s e t op h) := by
  unfold State.compare
  repeat' first
    | with_reducible assumption
    | with_reducible apply State.branch_kept

theorem State.load_kept (s : State) (e : Fin 8) (t : Fin 16) (op : Nat) (n : Nat) {s0 : State} (hK : Kept s0 s) :
    KeptO s0 (State.load s e t op n) := by
  unfold State.load
  repeat' first
    | with_reducible assumption
    | ((try lift_lets -underBinder); intro x; first
        | (have hx : Kept s0 x := ?_; rotate_left; subst x; rotate_left; clear_value x)
        | (have : MemUnits := x; subst x)
        | clear_value x
        | skip)
    | with_reducible apply State.instr_kept
    | with_reducible apply State.progFault_kept
    | with_reducible apply State.setThread_kept
    | (with_reducible apply Kept.unmk; dsimp only; with_reducible apply Kept.ofF)
    | (intro _; intros; try beta_reduce)
    | split

theorem State.store_kept (s : State) (e : Fin 8) (t : Fin 16) (op : Nat) (n : Nat) {s0 : State} (hK : Kept s0 s) :
    KeptO s0 (State.store s e t op n) := by
  unfold State.store
  repeat' first
    | with_reducible assumption
    | ((try lift_lets -underBinder); intro x; first
        | (have hx : Kept s0 x := ?_; rotate_left; subst x; rotate_left; clear_value x)
        | (have : MemUnits := x; subst x)
        | clear_value x
        | skip)
    | with_reducible apply State.instr_kept
    | with_reducible apply State.progFault_kept
    | with_reducible apply State.setThread_kept
    | (with_reducible apply Kept.unmk; dsimp only; with_reducible apply Kept.ofF)
    | (intro _; intros; try beta_reduce)
    | split

theorem execIsaNop_kept (engine : Fin 8) (thread : Fin 16) (s : State) {s0 : State} (hK : Kept s0 s) :
    KeptO s0 (execIsaNop engine thread s) := by
  unfold execIsaNop
  repeat' first
    | with_reducible assumption
    | ((try lift_lets -underBinder); intro x; first
        | (have hx : Kept s0 x := ?_; rotate_left; subst x; rotate_left; clear_value x)
        | (have : MemUnits := x; subst x)
        | clear_value x
        | skip)
    | with_reducible apply State.instr_kept
    | with_reducible apply State.setThread_kept

theorem execIsaAdd_kept (engine : Fin 8) (thread : Fin 16) (s : State) {s0 : State} (hK : Kept s0 s) :
    KeptO s0 (execIsaAdd engine thread s) := by
  unfold execIsaAdd
  repeat' first
    | with_reducible assumption
    | with_reducible apply State.alu_kept

theorem execIsaSub_kept (engine : Fin 8) (thread : Fin 16) (s : State) {s0 : State} (hK : Kept s0 s) :
    KeptO s0 (execIsaSub engine thread s) := by
  unfold execIsaSub
  repeat' first
    | with_reducible assumption
    | with_reducible apply State.alu_kept

theorem execIsaAnd_kept (engine : Fin 8) (thread : Fin 16) (s : State) {s0 : State} (hK : Kept s0 s) :
    KeptO s0 (execIsaAnd engine thread s) := by
  unfold execIsaAnd
  repeat' first
    | with_reducible assumption
    | with_reducible apply State.alu_kept

theorem execIsaOr_kept (engine : Fin 8) (thread : Fin 16) (s : State) {s0 : State} (hK : Kept s0 s) :
    KeptO s0 (execIsaOr engine thread s) := by
  unfold execIsaOr
  repeat' first
    | with_reducible assumption
    | with_reducible apply State.alu_kept

theorem execIsaXor_kept (engine : Fin 8) (thread : Fin 16) (s : State) {s0 : State} (hK : Kept s0 s) :
    KeptO s0 (execIsaXor engine thread s) := by
  unfold execIsaXor
  repeat' first
    | with_reducible assumption
    | with_reducible apply State.alu_kept

theorem execIsaShl_kept (engine : Fin 8) (thread : Fin 16) (s : State) {s0 : State} (hK : Kept s0 s) :
    KeptO s0 (execIsaShl engine thread s) := by
  unfold execIsaShl
  repeat' first
    | with_reducible assumption
    | with_reducible apply State.alu_kept

theorem execIsaShr_kept (engine : Fin 8) (thread : Fin 16) (s : State) {s0 : State} (hK : Kept s0 s) :
    KeptO s0 (execIsaShr engine thread s) := by
  unfold execIsaShr
  repeat' first
    | with_reducible assumption
    | with_reducible apply State.alu_kept

theorem execIsaSar_kept (engine : Fin 8) (thread : Fin 16) (s : State) {s0 : State} (hK : Kept s0 s) :
    KeptO s0 (execIsaSar engine thread s) := by
  unfold execIsaSar
  repeat' first
    | with_reducible assumption
    | with_reducible apply State.alu_kept

theorem execIsaMul_kept (engine : Fin 8) (thread : Fin 16) (s : State) {s0 : State} (hK : Kept s0 s) :
    KeptO s0 (execIsaMul engine thread s) := by
  unfold execIsaMul
  repeat' first
    | with_reducible assumption
    | with_reducible apply State.alu_kept

theorem execIsaMulhu_kept (engine : Fin 8) (thread : Fin 16) (s : State) {s0 : State} (hK : Kept s0 s) :
    KeptO s0 (execIsaMulhu engine thread s) := by
  unfold execIsaMulhu
  repeat' first
    | with_reducible assumption
    | with_reducible apply State.alu_kept

theorem execIsaAddc_kept (engine : Fin 8) (thread : Fin 16) (s : State) {s0 : State} (hK : Kept s0 s) :
    KeptO s0 (execIsaAddc engine thread s) := by
  unfold execIsaAddc
  repeat' first
    | with_reducible assumption
    | with_reducible apply State.alu_kept

theorem execIsaMinu_kept (engine : Fin 8) (thread : Fin 16) (s : State) {s0 : State} (hK : Kept s0 s) :
    KeptO s0 (execIsaMinu engine thread s) := by
  unfold execIsaMinu
  repeat' first
    | with_reducible assumption
    | with_reducible apply State.alu_kept

theorem execIsaMaxu_kept (engine : Fin 8) (thread : Fin 16) (s : State) {s0 : State} (hK : Kept s0 s) :
    KeptO s0 (execIsaMaxu engine thread s) := by
  unfold execIsaMaxu
  repeat' first
    | with_reducible assumption
    | with_reducible apply State.alu_kept

theorem execIsaSltu_kept (engine : Fin 8) (thread : Fin 16) (s : State) {s0 : State} (hK : Kept s0 s) :
    KeptO s0 (execIsaSltu engine thread s) := by
  unfold execIsaSltu
  repeat' first
    | with_reducible assumption
    | with_reducible apply State.alu_kept

theorem execIsaOrhi_kept (engine : Fin 8) (thread : Fin 16) (s : State) {s0 : State} (hK : Kept s0 s) :
    KeptO s0 (execIsaOrhi engine thread s) := by
  unfold execIsaOrhi
  repeat' first
    | with_reducible assumption
    | ((try lift_lets -underBinder); intro x; first
        | (have hx : Kept s0 x := ?_; rotate_left; subst x; rotate_left; clear_value x)
        | (have : MemUnits := x; subst x)
        | clear_value x
        | skip)
    | with_reducible apply State.instr_kept
    | with_reducible apply State.setThread_kept

theorem execIsaBeq_kept (engine : Fin 8) (thread : Fin 16) (s : State) {s0 : State} (hK : Kept s0 s) :
    KeptO s0 (execIsaBeq engine thread s) := by
  unfold execIsaBeq
  repeat' first
    | with_reducible assumption
    | with_reducible apply State.compare_kept

theorem execIsaBne_kept (engine : Fin 8) (thread : Fin 16) (s : State) {s0 : State} (hK : Kept s0 s) :
    KeptO s0 (execIsaBne engine thread s) := by
  unfold execIsaBne
  repeat' first
    | with_reducible assumption
    | with_reducible apply State.compare_kept

theorem execIsaBltu_kept (engine : Fin 8) (thread : Fin 16) (s : State) {s0 : State} (hK : Kept s0 s) :
    KeptO s0 (execIsaBltu engine thread s) := by
  unfold execIsaBltu
  repeat' first
    | with_reducible assumption
    | with_reducible apply State.compare_kept

theorem execIsaBgeu_kept (engine : Fin 8) (thread : Fin 16) (s : State) {s0 : State} (hK : Kept s0 s) :
    KeptO s0 (execIsaBgeu engine thread s) := by
  unfold execIsaBgeu
  repeat' first
    | with_reducible assumption
    | with_reducible apply State.compare_kept

theorem execIsaBlt_kept (engine : Fin 8) (thread : Fin 16) (s : State) {s0 : State} (hK : Kept s0 s) :
    KeptO s0 (execIsaBlt engine thread s) := by
  unfold execIsaBlt
  repeat' first
    | with_reducible assumption
    | with_reducible apply State.compare_kept

theorem execIsaBge_kept (engine : Fin 8) (thread : Fin 16) (s : State) {s0 : State} (hK : Kept s0 s) :
    KeptO s0 (execIsaBge engine thread s) := by
  unfold execIsaBge
  repeat' first
    | with_reducible assumption
    | with_reducible apply State.compare_kept

theorem execIsaBset_kept (engine : Fin 8) (thread : Fin 16) (s : State) {s0 : State} (hK : Kept s0 s) :
    KeptO s0 (execIsaBset engine thread s) := by
  unfold execIsaBset
  repeat' first
    | with_reducible assumption
    | with_reducible apply State.branch_kept

theorem execIsaBclr_kept (engine : Fin 8) (thread : Fin 16) (s : State) {s0 : State} (hK : Kept s0 s) :
    KeptO s0 (execIsaBclr engine thread s) := by
  unfold execIsaBclr
  repeat' first
    | with_reducible assumption
    | with_reducible apply State.branch_kept

theorem execIsaJmp_kept (engine : Fin 8) (thread : Fin 16) (s : State) {s0 : State} (hK : Kept s0 s) :
    KeptO s0 (execIsaJmp engine thread s) := by
  unfold execIsaJmp
  repeat' first
    | with_reducible assumption
    | with_reducible apply State.branch_kept

theorem execIsaCall_kept (engine : Fin 8) (thread : Fin 16) (s : State) {s0 : State} (hK : Kept s0 s) :
    KeptO s0 (execIsaCall engine thread s) := by
  unfold execIsaCall
  repeat' first
    | with_reducible assumption
    | ((try lift_lets -underBinder); intro x; first
        | (have hx : Kept s0 x := ?_; rotate_left; subst x; rotate_left; clear_value x)
        | (have : MemUnits := x; subst x)
        | clear_value x
        | skip)
    | with_reducible apply State.instr_kept
    | with_reducible apply State.progFault_kept
    | with_reducible apply State.setThread_kept
    | (with_reducible apply Kept.unmk; dsimp only; with_reducible apply Kept.ofF)
    | (intro _; intros; try beta_reduce)
    | split

theorem execIsaRet_kept (engine : Fin 8) (thread : Fin 16) (s : State) {s0 : State} (hK : Kept s0 s) :
    KeptO s0 (execIsaRet engine thread s) := by
  unfold execIsaRet
  repeat' first
    | with_reducible assumption
    | ((try lift_lets -underBinder); intro x; first
        | (have hx : Kept s0 x := ?_; rotate_left; subst x; rotate_left; clear_value x)
        | (have : MemUnits := x; subst x)
        | clear_value x
        | skip)
    | with_reducible apply State.instr_kept
    | with_reducible apply State.progFault_kept
    | with_reducible apply State.setThread_kept
    | (with_reducible apply Kept.unmk; dsimp only; with_reducible apply Kept.ofF)
    | (intro _; intros; try beta_reduce)
    | split

theorem execIsaXent_kept (engine : Fin 8) (thread : Fin 16) (s : State) {s0 : State} (hK : Kept s0 s) :
    KeptO s0 (execIsaXent engine thread s) := by
  unfold execIsaXent
  repeat' first
    | with_reducible assumption
    | ((try lift_lets -underBinder); intro x; first
        | (have hx : Kept s0 x := ?_; rotate_left; subst x; rotate_left; clear_value x)
        | (have : MemUnits := x; subst x)
        | clear_value x
        | skip)
    | with_reducible apply State.instr_kept
    | with_reducible apply State.progFault_kept
    | with_reducible apply State.setThread_kept
    | with_reducible apply State.beginBuiltin_kept
    | (with_reducible apply Kept.unmk; dsimp only; with_reducible apply Kept.ofF)
    | (intro _; intros; try beta_reduce)
    | split

theorem execIsaLd8_kept (engine : Fin 8) (thread : Fin 16) (s : State) {s0 : State} (hK : Kept s0 s) :
    KeptO s0 (execIsaLd8 engine thread s) := by
  unfold execIsaLd8
  repeat' first
    | with_reducible assumption
    | with_reducible apply State.load_kept

theorem execIsaLd16_kept (engine : Fin 8) (thread : Fin 16) (s : State) {s0 : State} (hK : Kept s0 s) :
    KeptO s0 (execIsaLd16 engine thread s) := by
  unfold execIsaLd16
  repeat' first
    | with_reducible assumption
    | with_reducible apply State.load_kept

theorem execIsaLd32_kept (engine : Fin 8) (thread : Fin 16) (s : State) {s0 : State} (hK : Kept s0 s) :
    KeptO s0 (execIsaLd32 engine thread s) := by
  unfold execIsaLd32
  repeat' first
    | with_reducible assumption
    | with_reducible apply State.load_kept

theorem execIsaLd64_kept (engine : Fin 8) (thread : Fin 16) (s : State) {s0 : State} (hK : Kept s0 s) :
    KeptO s0 (execIsaLd64 engine thread s) := by
  unfold execIsaLd64
  repeat' first
    | with_reducible assumption
    | with_reducible apply State.load_kept

theorem execIsaSt8_kept (engine : Fin 8) (thread : Fin 16) (s : State) {s0 : State} (hK : Kept s0 s) :
    KeptO s0 (execIsaSt8 engine thread s) := by
  unfold execIsaSt8
  repeat' first
    | with_reducible assumption
    | with_reducible apply State.store_kept

theorem execIsaSt16_kept (engine : Fin 8) (thread : Fin 16) (s : State) {s0 : State} (hK : Kept s0 s) :
    KeptO s0 (execIsaSt16 engine thread s) := by
  unfold execIsaSt16
  repeat' first
    | with_reducible assumption
    | with_reducible apply State.store_kept

theorem execIsaSt32_kept (engine : Fin 8) (thread : Fin 16) (s : State) {s0 : State} (hK : Kept s0 s) :
    KeptO s0 (execIsaSt32 engine thread s) := by
  unfold execIsaSt32
  repeat' first
    | with_reducible assumption
    | with_reducible apply State.store_kept

theorem execIsaSt64_kept (engine : Fin 8) (thread : Fin 16) (s : State) {s0 : State} (hK : Kept s0 s) :
    KeptO s0 (execIsaSt64 engine thread s) := by
  unfold execIsaSt64
  repeat' first
    | with_reducible assumption
    | with_reducible apply State.store_kept

theorem execIsaCpy_kept (engine : Fin 8) (thread : Fin 16) (s : State) {s0 : State} (hK : Kept s0 s) :
    KeptO s0 (execIsaCpy engine thread s) := by
  unfold execIsaCpy
  repeat' first
    | with_reducible assumption
    | ((try lift_lets -underBinder); intro x; first
        | (have hx : Kept s0 x := ?_; rotate_left; subst x; rotate_left; clear_value x)
        | (have : MemUnits := x; subst x)
        | clear_value x
        | skip)
    | with_reducible apply State.instr_kept
    | with_reducible apply State.progFault_kept
    | with_reducible apply State.setThread_kept
    | (with_reducible apply Kept.unmk; dsimp only; with_reducible apply Kept.ofF)
    | (intro _; intros; try beta_reduce)
    | split

theorem execIsaCsum_kept (engine : Fin 8) (thread : Fin 16) (s : State) {s0 : State} (hK : Kept s0 s) :
    KeptO s0 (execIsaCsum engine thread s) := by
  unfold execIsaCsum
  repeat' first
    | with_reducible assumption
    | ((try lift_lets -underBinder); intro x; first
        | (have hx : Kept s0 x := ?_; rotate_left; subst x; rotate_left; clear_value x)
        | (have : MemUnits := x; subst x)
        | clear_value x
        | skip)
    | with_reducible apply State.instr_kept
    | with_reducible apply State.progFault_kept
    | with_reducible apply State.setThread_kept
    | (with_reducible apply Kept.unmk; dsimp only; with_reducible apply Kept.ofF)
    | (intro _; intros; try beta_reduce)
    | split

theorem execIsaTurn_kept (engine : Fin 8) (thread : Fin 16) (s : State) {s0 : State} (hK : Kept s0 s) :
    KeptO s0 (execIsaTurn engine thread s) := by
  unfold execIsaTurn
  repeat' first
    | with_reducible assumption
    | ((try lift_lets -underBinder); intro x; first
        | (have hx : Kept s0 x := ?_; rotate_left; subst x; rotate_left; clear_value x)
        | (have : MemUnits := x; subst x)
        | clear_value x
        | skip)
    | with_reducible apply State.instr_kept
    | with_reducible apply State.progFault_kept
    | with_reducible apply State.setThread_kept
    | (with_reducible apply Kept.unmk; dsimp only; with_reducible apply Kept.ofF)
    | (intro _; intros; try beta_reduce)
    | split

theorem State.issueLookup_kept (s : State) (e : Fin 8) (t : Fin 16) (x : Thread) (create : Bool) (w : Word64) {s0 : State} (hK : Kept s0 s) :
    Kept s0 (State.issueLookup s e t x create w) := by
  unfold State.issueLookup
  repeat' first
    | with_reducible assumption
    | ((try lift_lets -underBinder); intro x; first
        | (have hx : Kept s0 x := ?_; rotate_left; subst x; rotate_left; clear_value x)
        | (have hx : KeptS s0 x := ?_; rotate_left; subst x; rotate_left; clear_value x)
        | (have : MemUnits := x; subst x)
        | clear_value x
        | skip)
    | with_reducible apply State.countE_kept
    | with_reducible apply State.setThread_kept
    | with_reducible apply State.runLookup_kept
    | with_reducible refine (State.runLookup_kept _ _ _ _ _ _ _ _ ?_).ofSome _ ‹_›
    | with_reducible exact (‹KeptS s0 _›).ofSome _ ‹_›
    | with_reducible exact (‹KeptS s0 (some _)›).ofSome _ rfl
    | (with_reducible apply Kept.unmk; dsimp only; with_reducible apply Kept.ofF)
    | split

theorem execIsaClook_kept (engine : Fin 8) (thread : Fin 16) (s : State) {s0 : State} (hK : Kept s0 s) :
    KeptO s0 (execIsaClook engine thread s) := by
  unfold execIsaClook
  repeat' first
    | with_reducible assumption
    | with_reducible apply State.instr_kept
    | with_reducible apply State.issueLookup_kept
    | (intro _; intros; try beta_reduce)

theorem execIsaCcreate_kept (engine : Fin 8) (thread : Fin 16) (s : State) {s0 : State} (hK : Kept s0 s) :
    KeptO s0 (execIsaCcreate engine thread s) := by
  unfold execIsaCcreate
  repeat' first
    | with_reducible assumption
    | with_reducible apply State.instr_kept
    | with_reducible apply State.issueLookup_kept
    | (intro _; intros; try beta_reduce)

theorem execIsaCwrite_kept (engine : Fin 8) (thread : Fin 16) (s : State) {s0 : State} (hK : Kept s0 s) :
    KeptO s0 (execIsaCwrite engine thread s) := by
  unfold execIsaCwrite
  repeat' first
    | with_reducible assumption
    | ((try lift_lets -underBinder); intro x; first
        | (have hx : Kept s0 x := ?_; rotate_left; subst x; rotate_left; clear_value x)
        | (have : MemUnits := x; subst x)
        | clear_value x
        | skip)
    | with_reducible apply State.instr_kept
    | with_reducible apply State.progFault_kept
    | with_reducible apply State.setThread_kept
    | with_reducible apply State.ctWrite_kept
    | with_reducible apply State.ctCount_kept
    | (with_reducible apply Kept.unmk; dsimp only; with_reducible apply Kept.ofF)
    | (intro _; intros; try beta_reduce)
    | split

theorem execIsaSketch_kept (engine : Fin 8) (thread : Fin 16) (s : State) {s0 : State} (hK : Kept s0 s) :
    KeptO s0 (execIsaSketch engine thread s) := by
  unfold execIsaSketch
  repeat' first
    | with_reducible assumption
    | ((try lift_lets -underBinder); intro x; first
        | (have hx : Kept s0 x := ?_; rotate_left; subst x; rotate_left; clear_value x)
        | (have hx : Kept s0 x.2 := ?_; rotate_left; subst x; rotate_left; clear_value x)
        | (have hx : Kept s0 x.1 := ?_; rotate_left; subst x; rotate_left; clear_value x)
        | (have : MemUnits := x; subst x)
        | clear_value x
        | skip)
    | with_reducible apply State.instr_kept
    | with_reducible apply State.sketchCount_kept
    | with_reducible refine Kept.pair2 ‹_ = _› (State.sketchCount_kept _ _ ?_)
    | with_reducible apply State.setThread_kept
    | (with_reducible apply Kept.unmk; dsimp only; with_reducible apply Kept.ofF)
    | (intro _; intros; try beta_reduce)
    | split

theorem execIsaAesq_kept (engine : Fin 8) (thread : Fin 16) (s : State) {s0 : State} (hK : Kept s0 s) :
    KeptO s0 (execIsaAesq engine thread s) := by
  unfold execIsaAesq
  repeat' first
    | with_reducible assumption
    | ((try lift_lets -underBinder); intro x; first
        | (have hx : Kept s0 x := ?_; rotate_left; subst x; rotate_left; clear_value x)
        | (have : MemUnits := x; subst x)
        | clear_value x
        | skip)
    | with_reducible apply State.instr_kept
    | with_reducible apply State.progFault_kept
    | with_reducible apply State.countE_kept
    | with_reducible apply State.setThread_kept
    | (with_reducible apply Kept.unmk; dsimp only; with_reducible apply Kept.ofF)
    | (intro _; intros; try beta_reduce)
    | split

theorem execIsaAesw_kept (engine : Fin 8) (thread : Fin 16) (s : State) {s0 : State} (hK : Kept s0 s) :
    KeptO s0 (execIsaAesw engine thread s) := by
  unfold execIsaAesw
  repeat' first
    | with_reducible assumption
    | ((try lift_lets -underBinder); intro x; first
        | (have hx : Kept s0 x := ?_; rotate_left; subst x; rotate_left; clear_value x)
        | (have hx : Kept s0 x.2 := ?_; rotate_left; subst x; rotate_left; clear_value x)
        | (have hx : Kept s0 x.1 := ?_; rotate_left; subst x; rotate_left; clear_value x)
        | (have : MemUnits := x; subst x)
        | clear_value x
        | skip)
    | with_reducible apply State.instr_kept
    | with_reducible apply State.setThread_kept
    | with_reducible apply State.progFault_kept
    | (with_reducible apply Kept.unmk; dsimp only; with_reducible apply Kept.ofF)
    | (intro _; intros; try beta_reduce)
    | split

theorem State.drawRand_kept (s : State) (e : Fin 8) (t : Fin 16) (x : Thread) (dest : Nat) {s0 : State} (hK : Kept s0 s) :
    Kept s0 (State.drawRand s e t x dest) := by
  unfold State.drawRand
  repeat' first
    | with_reducible assumption
    | ((try lift_lets -underBinder); intro x; first
        | (have hx : Kept s0 x := ?_; rotate_left; subst x; rotate_left; clear_value x)
        | (have : MemUnits := x; subst x)
        | clear_value x
        | skip)
    | with_reducible apply State.freeNat_kept
    | with_reducible refine Kept.pair2 ‹_ = _› (State.freeNat_kept _ ?_)
    | with_reducible apply State.random_kept
    | with_reducible refine Kept.pair2 ‹_ = _› (State.random_kept _ _ ?_)
    | with_reducible apply State.setThread_kept
    | (with_reducible apply Kept.unmk; dsimp only; with_reducible apply Kept.ofF)
    | split

theorem execIsaRand_kept (engine : Fin 8) (thread : Fin 16) (s : State) {s0 : State} (hK : Kept s0 s) :
    KeptO s0 (execIsaRand engine thread s) := by
  unfold execIsaRand
  repeat' first
    | with_reducible assumption
    | ((try lift_lets -underBinder); intro x; first
        | (have hx : Kept s0 x := ?_; rotate_left; subst x; rotate_left; clear_value x)
        | (have : MemUnits := x; subst x)
        | clear_value x
        | skip)
    | with_reducible apply KeptO.next
    | with_reducible apply State.drawRand_kept
    | with_reducible apply State.instr_kept
    | (with_reducible apply Kept.unmk; dsimp only; with_reducible apply Kept.ofF)
    | (intro _; intros; try beta_reduce)
    | split

theorem execIsaEmit_kept (engine : Fin 8) (thread : Fin 16) (s : State) {s0 : State} (hK : Kept s0 s) :
    KeptO s0 (execIsaEmit engine thread s) := by
  unfold execIsaEmit
  repeat' first
    | with_reducible assumption
    | ((try lift_lets -underBinder); intro x; first
        | (have hx : Kept s0 x := ?_; rotate_left; subst x; rotate_left; clear_value x)
        | (have : MemUnits := x; subst x)
        | clear_value x
        | skip)
    | with_reducible apply State.instr_kept
    | with_reducible apply State.progFault_kept
    | with_reducible apply State.setThread_kept
    | with_reducible apply State.endThread_kept
    | with_reducible apply State.emitFrame_kept
    | (with_reducible apply Kept.unmk; dsimp only; with_reducible apply Kept.ofF)
    | (intro _; intros; try beta_reduce)
    | split

theorem execIsaDrop_kept (engine : Fin 8) (thread : Fin 16) (s : State) {s0 : State} (hK : Kept s0 s) :
    KeptO s0 (execIsaDrop engine thread s) := by
  unfold execIsaDrop
  repeat' first
    | with_reducible assumption
    | ((try lift_lets -underBinder); intro x; first
        | (have hx : Kept s0 x := ?_; rotate_left; subst x; rotate_left; clear_value x)
        | (have : MemUnits := x; subst x)
        | clear_value x
        | skip)
    | with_reducible apply State.instr_kept
    | with_reducible apply State.bump_kept
    | with_reducible apply State.countE_kept
    | with_reducible apply State.endThread_kept
    | (intro _; intros; try beta_reduce)
    | split

theorem execIsaPunt_kept (engine : Fin 8) (thread : Fin 16) (s : State) {s0 : State} (hK : Kept s0 s) :
    KeptO s0 (execIsaPunt engine thread s) := by
  unfold execIsaPunt
  repeat' first
    | with_reducible assumption
    | ((try lift_lets -underBinder); intro x; first
        | (have hx : Kept s0 x := ?_; rotate_left; subst x; rotate_left; clear_value x)
        | (have : MemUnits := x; subst x)
        | clear_value x
        | skip)
    | with_reducible apply State.instr_kept
    | with_reducible apply State.countE_kept
    | with_reducible apply State.endThread_kept
    | with_reducible apply State.toRing_kept
    | (with_reducible apply Kept.unmk; dsimp only; with_reducible apply Kept.ofF)
    | (intro _; intros; try beta_reduce)
    | split

theorem execIsaCinc_kept (engine : Fin 8) (thread : Fin 16) (s : State) {s0 : State} (hK : Kept s0 s) :
    KeptO s0 (execIsaCinc engine thread s) := by
  unfold execIsaCinc
  repeat' first
    | with_reducible assumption
    | ((try lift_lets -underBinder); intro x; first
        | (have hx : Kept s0 x := ?_; rotate_left; subst x; rotate_left; clear_value x)
        | (have : MemUnits := x; subst x)
        | clear_value x
        | skip)
    | with_reducible apply State.instr_kept
    | with_reducible apply State.bump_kept
    | with_reducible apply State.setThread_kept

end Sys2Proof.Machine
end

