-- ==== Sys2Proof/Laws/Kept/Requests.lean ====
section
/-! SUPPORT. What the operations of Machine/Requests.lean keep. -/

namespace Sys2Proof.Machine

theorem State.runRead_kept (s : State) (r : Req) {s0 : State} (hK : Kept s0 s) :
    Kept s0 (State.runRead s r) := by
  unfold State.runRead
  repeat' first
    | with_reducible assumption
    | ((try lift_lets -underBinder); intro x; first
        | (have hx : Kept s0 x := ?_; rotate_left; subst x; rotate_left; clear_value x)
        | (have : MemUnits := x; subst x)
        | clear_value x
        | skip)
    | with_reducible apply State.readItems_kept
    | with_reducible refine Kept.pair2 ‹_ = _› (State.readItems_kept _ _ _ ?_)
    | with_reducible apply State.reply_kept

theorem execRead_kept (s : State) {s0 : State} (hK : Kept s0 s) :
    KeptO s0 (execRead s) := by
  unfold execRead
  repeat' first
    | with_reducible assumption
    | with_reducible apply KeptO.next
    | with_reducible apply State.serveReq_kept
    | with_reducible apply State.runRead_kept
    | (intro _; intros; try beta_reduce)

theorem State.runReadRecord_kept (s : State) (r : Req) {s0 : State} (hK : Kept s0 s) :
    Kept s0 (State.runReadRecord s r) := by
  unfold State.runReadRecord
  repeat' first
    | with_reducible assumption
    | ((try lift_lets -underBinder); intro x; first
        | (have hx : Kept s0 x := ?_; rotate_left; subst x; rotate_left; clear_value x)
        | (have : MemUnits := x; subst x)
        | clear_value x
        | skip)
    | with_reducible apply State.reply_kept
    | with_reducible apply State.readItems_kept
    | with_reducible refine Kept.pair2 ‹_ = _› (State.readItems_kept _ _ _ ?_)
    | (with_reducible apply Kept.unmk; dsimp only; with_reducible apply Kept.ofF)
    | (intro _; intros; try beta_reduce)
    | split

theorem execReadRecord_kept (s : State) {s0 : State} (hK : Kept s0 s) :
    KeptO s0 (execReadRecord s) := by
  unfold execReadRecord
  repeat' first
    | with_reducible assumption
    | with_reducible apply KeptO.next
    | with_reducible apply State.serveReq_kept
    | with_reducible apply State.runReadRecord_kept
    | (intro _; intros; try beta_reduce)

theorem State.runBulkRead_kept (s : State) (r : Req) {s0 : State} (hK : Kept s0 s) :
    Kept s0 (State.runBulkRead s r) := by
  unfold State.runBulkRead
  repeat' first
    | with_reducible assumption
    | ((try lift_lets -underBinder); intro x; first
        | (have hx : Kept s0 x := ?_; rotate_left; subst x; rotate_left; clear_value x)
        | (have : MemUnits := x; subst x)
        | clear_value x
        | skip)
    | with_reducible apply State.reply_kept
    | with_reducible apply State.count_kept
    | (with_reducible apply Kept.unmk; dsimp only; with_reducible apply Kept.ofF)
    | split

theorem execBulkRead_kept (s : State) {s0 : State} (hK : Kept s0 s) :
    KeptO s0 (execBulkRead s) := by
  unfold execBulkRead
  repeat' first
    | with_reducible assumption
    | with_reducible apply KeptO.next
    | with_reducible apply State.serveReq_kept
    | with_reducible apply State.runBulkRead_kept
    | (intro _; intros; try beta_reduce)

theorem State.setTxn_kept (s : State) (t : Txn) {s0 : State} (hK : Kept s0 s) :
    Kept s0 (State.setTxn s t) := by
  unfold State.setTxn
  repeat' first
    | with_reducible assumption
    | ((try lift_lets -underBinder); intro x; first
        | (have hx : Kept s0 x := ?_; rotate_left; subst x; rotate_left; clear_value x)
        | (have : MemUnits := x; subst x)
        | clear_value x
        | skip)
    | with_reducible apply State.putN_kept
    | (with_reducible apply Kept.unmk; dsimp only; with_reducible apply Kept.ofF)

theorem State.runBegin_kept (s : State) (r : Req) {s0 : State} (hK : Kept s0 s) :
    Kept s0 (State.runBegin s r) := by
  unfold State.runBegin
  repeat' first
    | with_reducible assumption
    | ((try lift_lets -underBinder); intro x; first
        | (have hx : Kept s0 x := ?_; rotate_left; subst x; rotate_left; clear_value x)
        | (have : MemUnits := x; subst x)
        | clear_value x
        | skip)
    | with_reducible apply State.reply_kept
    | with_reducible apply State.setTxn_kept
    | (with_reducible apply Kept.unmk; dsimp only; with_reducible apply Kept.ofF)
    | split

theorem execBegin_kept (s : State) {s0 : State} (hK : Kept s0 s) :
    KeptO s0 (execBegin s) := by
  unfold execBegin
  repeat' first
    | with_reducible assumption
    | with_reducible apply KeptO.next
    | with_reducible apply State.serveReq_kept
    | with_reducible apply State.runBegin_kept
    | (intro _; intros; try beta_reduce)

theorem State.runAbort_kept (s : State) (r : Req) {s0 : State} (hK : Kept s0 s) :
    Kept s0 (State.runAbort s r) := by
  unfold State.runAbort
  repeat' first
    | with_reducible assumption
    | with_reducible apply State.reply_kept
    | with_reducible apply State.abortTxn_kept
    | split

theorem execAbort_kept (s : State) {s0 : State} (hK : Kept s0 s) :
    KeptO s0 (execAbort s) := by
  unfold execAbort
  repeat' first
    | with_reducible assumption
    | with_reducible apply KeptO.next
    | with_reducible apply State.serveReq_kept
    | with_reducible apply State.runAbort_kept
    | (intro _; intros; try beta_reduce)

theorem State.commitApply_kept (s : State) (r : Req) (l : List StagedItem) (w : List StagedBulk) (flags : Nat) (items : Nat) (expected : Nat) {s0 : State} (hK : Kept s0 s) :
    Kept s0 (State.commitApply s r l w flags items expected) := by
  unfold State.commitApply
  repeat' first
    | with_reducible assumption
    | ((try lift_lets -underBinder); intro x; first
        | (have hx : Kept s0 x := ?_; rotate_left; subst x; rotate_left; clear_value x)
        | (have : MemUnits := x; subst x)
        | clear_value x
        | skip)
    | with_reducible apply State.startBlock_kept
    | with_reducible apply State.reply_kept
    | with_reducible apply State.takeEffect_kept
    | (with_reducible apply Kept.unmk; dsimp only; with_reducible apply Kept.ofF)
    | split

theorem State.schedule_kept (s : State) (r : Req) (l : List StagedItem) (w : List StagedBulk) (flags : Nat) (expected : Nat) (time : Int) {s0 : State} (hK : Kept s0 s) :
    Kept s0 (State.schedule s r l w flags expected time) := by
  unfold State.schedule
  repeat' first
    | with_reducible assumption
    | ((try lift_lets -underBinder); intro x; first
        | (have hx : Kept s0 x := ?_; rotate_left; subst x; rotate_left; clear_value x)
        | (have : MemUnits := x; subst x)
        | clear_value x
        | skip)
    | with_reducible apply State.reply_kept
    | (with_reducible apply Kept.unmk; dsimp only; with_reducible apply Kept.ofF)

theorem State.runCommit_kept (s : State) (r : Req) {s0 : State} (hK : Kept s0 s) :
    Kept s0 (State.runCommit s r) := by
  unfold State.runCommit
  repeat' first
    | with_reducible assumption
    | ((try lift_lets -underBinder); intro x; first
        | (have hx : Kept s0 x := ?_; rotate_left; subst x; rotate_left; clear_value x)
        | (have : MemUnits := x; subst x)
        | clear_value x
        | skip)
    | with_reducible apply State.reply_kept
    | with_reducible apply State.abortTxn_kept
    | with_reducible apply State.schedule_kept
    | with_reducible apply State.runDue_kept
    | with_reducible apply State.commitApply_kept
    | (with_reducible apply Kept.unmk; dsimp only; with_reducible apply Kept.ofF)
    | split

theorem execCommit_kept (s : State) {s0 : State} (hK : Kept s0 s) :
    KeptO s0 (execCommit s) := by
  unfold execCommit
  repeat' first
    | with_reducible assumption
    | with_reducible apply KeptO.next
    | with_reducible apply State.serveReq_kept
    | with_reducible apply State.runCommit_kept
    | (intro _; intros; try beta_reduce)

theorem State.spoil_kept (s : State) (txn : Nat) {s0 : State} (hK : Kept s0 s) :
    Kept s0 (State.spoil s txn) := by
  unfold State.spoil
  repeat' first
    | with_reducible assumption
    | ((try lift_lets -underBinder); intro x; first
        | (have hx : Kept s0 x := ?_; rotate_left; subst x; rotate_left; clear_value x)
        | (have : MemUnits := x; subst x)
        | clear_value x
        | skip)
    | (with_reducible apply Kept.unmk; dsimp only; with_reducible apply Kept.ofF)
    | split

theorem State.runWrite_kept (s : State) (r : Req) {s0 : State} (hK : Kept s0 s) :
    Kept s0 (State.runWrite s r) := by
  unfold State.runWrite
  repeat' first
    | with_reducible assumption
    | ((try lift_lets -underBinder); intro x; first
        | (have hx : Kept s0 x := ?_; rotate_left; subst x; rotate_left; clear_value x)
        | (have hx : Kept s0 x.2 := ?_; rotate_left; subst x; rotate_left; clear_value x)
        | (have hx : Kept s0 x.1 := ?_; rotate_left; subst x; rotate_left; clear_value x)
        | (have hf1 : ∀ s, Kept s0 s → Kept s0 (x s) := ?_; rotate_left; subst x; intros; beta_reduce; rotate_left; clear_value x)
        | (have hf2 : ∀ s a, Kept s0 s → Kept s0 (x s a) := ?_; rotate_left; subst x; intros; beta_reduce; rotate_left; clear_value x)
        | (have hf3 : ∀ s a b, Kept s0 s → Kept s0 (x s a b) := ?_; rotate_left; subst x; intros; beta_reduce; rotate_left; clear_value x)
        | (have hf4 : ∀ a s, Kept s0 s → Kept s0 (x a s) := ?_; rotate_left; subst x; intros; beta_reduce; rotate_left; clear_value x)
        | (have : MemUnits := x; subst x)
        | clear_value x
        | skip)
    | with_reducible apply State.reply_kept
    | with_reducible apply State.spoil_kept
    | with_reducible apply State.runDue_kept
    | with_reducible apply State.commitApply_kept
    | with_reducible apply State.setTxn_kept
    | with_reducible apply hf1
    | with_reducible apply hf2
    | with_reducible apply hf3
    | with_reducible apply hf4
    | (with_reducible apply Kept.unmk; dsimp only; with_reducible apply Kept.ofF)
    | (intro _; intros; try beta_reduce)
    | split

theorem execWrite_kept (s : State) {s0 : State} (hK : Kept s0 s) :
    KeptO s0 (execWrite s) := by
  unfold execWrite
  repeat' first
    | with_reducible assumption
    | with_reducible apply KeptO.next
    | with_reducible apply State.serveReq_kept
    | with_reducible apply State.runWrite_kept
    | (intro _; intros; try beta_reduce)

theorem State.writeImage_kept (s : State) (off : Nat) (b : Bytes) {s0 : State} (hK : Kept s0 s) :
    Kept s0 (State.writeImage s off b) := by
  unfold State.writeImage
  repeat' first
    | with_reducible assumption
    | ((try lift_lets -underBinder); intro x; first
        | (have hx : Kept s0 x := ?_; rotate_left; subst x; rotate_left; clear_value x)
        | (have : MemUnits := x; subst x)
        | clear_value x
        | skip)
    | with_reducible apply State.putN_kept
    | (with_reducible apply Kept.unmk; dsimp only; with_reducible apply Kept.ofF)

theorem State.runBulkWrite_kept (s : State) (r : Req) {s0 : State} (hK : Kept s0 s) :
    Kept s0 (State.runBulkWrite s r) := by
  unfold State.runBulkWrite
  repeat' first
    | with_reducible assumption
    | ((try lift_lets -underBinder); intro x; first
        | (have hx : Kept s0 x := ?_; rotate_left; subst x; rotate_left; clear_value x)
        | (have : MemUnits := x; subst x)
        | clear_value x
        | skip)
    | with_reducible apply State.reply_kept
    | with_reducible apply State.writeImage_kept
    | with_reducible apply State.setTxn_kept
    | (with_reducible apply Kept.unmk; dsimp only; with_reducible apply Kept.ofF)
    | split

theorem execBulkWrite_kept (s : State) {s0 : State} (hK : Kept s0 s) :
    KeptO s0 (execBulkWrite s) := by
  unfold execBulkWrite
  repeat' first
    | with_reducible assumption
    | with_reducible apply KeptO.next
    | with_reducible apply State.serveReq_kept
    | with_reducible apply State.runBulkWrite_kept
    | (intro _; intros; try beta_reduce)

theorem State.runSchedCancel_kept (s : State) (r : Req) {s0 : State} (hK : Kept s0 s) :
    Kept s0 (State.runSchedCancel s r) := by
  unfold State.runSchedCancel
  repeat' first
    | with_reducible assumption
    | ((try lift_lets -underBinder); intro x; first
        | (have hx : Kept s0 x := ?_; rotate_left; subst x; rotate_left; clear_value x)
        | (have hf1 : ∀ s, Kept s0 s → Kept s0 (x s) := ?_; rotate_left; subst x; intros; beta_reduce; rotate_left; clear_value x)
        | (have hf2 : ∀ s a, Kept s0 s → Kept s0 (x s a) := ?_; rotate_left; subst x; intros; beta_reduce; rotate_left; clear_value x)
        | (have hf3 : ∀ s a b, Kept s0 s → Kept s0 (x s a b) := ?_; rotate_left; subst x; intros; beta_reduce; rotate_left; clear_value x)
        | (have hf4 : ∀ a s, Kept s0 s → Kept s0 (x a s) := ?_; rotate_left; subst x; intros; beta_reduce; rotate_left; clear_value x)
        | (have : MemUnits := x; subst x)
        | clear_value x
        | skip)
    | with_reducible apply State.reply_kept
    | with_reducible apply State.dropLostStep_kept
    | with_reducible apply hf1
    | with_reducible apply hf2
    | with_reducible apply hf3
    | with_reducible apply hf4
    | (with_reducible apply Kept.unmk; dsimp only; with_reducible apply Kept.ofF)
    | (intro _; intros; try beta_reduce)
    | split

theorem execSchedCancel_kept (s : State) {s0 : State} (hK : Kept s0 s) :
    KeptO s0 (execSchedCancel s) := by
  unfold execSchedCancel
  repeat' first
    | with_reducible assumption
    | with_reducible apply KeptO.next
    | with_reducible apply State.serveReq_kept
    | with_reducible apply State.runSchedCancel_kept
    | (intro _; intros; try beta_reduce)

theorem execScheduledCommitExecute_kept (s : State) {s0 : State} (hK : Kept s0 s) :
    KeptO s0 (execScheduledCommitExecute s) := by
  unfold execScheduledCommitExecute
  repeat' first
    | with_reducible assumption
    | with_reducible apply KeptO.next
    | with_reducible apply State.runDue_kept
    | split

theorem State.spoilRecords_kept (s : State) (bad : List Nat) {s0 : State} (hK : Kept s0 s) :
    Kept s0 (State.spoilRecords s bad) := by
  unfold State.spoilRecords
  repeat' first
    | with_reducible assumption
    | ((try lift_lets -underBinder); intro x; first
        | (have hx : Kept s0 x := ?_; rotate_left; subst x; rotate_left; clear_value x)
        | (have : MemUnits := x; subst x)
        | clear_value x
        | skip)
    | with_reducible apply State.spoil_kept
    | (with_reducible apply Kept.unmk; dsimp only; with_reducible apply Kept.ofF)

theorem State.logClosed_kept (s : State) (c : CfgSet) {s0 : State} (hK : Kept s0 s) :
    Kept s0 (State.logClosed s c) := by
  unfold State.logClosed
  repeat' first
    | with_reducible assumption
    | with_reducible apply State.logSec_kept
    | with_reducible refine Kept.foldl ?_ fun _ _ _ => ?_
    | (intro _; intros; try beta_reduce)
    | split

theorem State.setInForce_kept (s : State) (recs : List (Nat × Val)) {s0 : State} (hK : Kept s0 s) :
    Kept s0 (State.setInForce s recs) := by
  unfold State.setInForce
  repeat' first
    | with_reducible assumption
    | ((try lift_lets -underBinder); intro x; first
        | (have hx : Kept s0 x := ?_; rotate_left; subst x; rotate_left; clear_value x)
        | (have hx : Kept s0 x.2 := ?_; rotate_left; subst x; rotate_left; clear_value x)
        | (have hx : Kept s0 x.1 := ?_; rotate_left; subst x; rotate_left; clear_value x)
        | (have : MemUnits := x; subst x)
        | (have : List (Nat × Val) := x; subst x)
        | clear_value x
        | skip)
    | with_reducible apply State.staging_kept
    | with_reducible apply State.timeEffects_kept
    | with_reducible apply State.slotEffects_kept
    | with_reducible apply State.portEffects_kept
    | with_reducible apply State.skyEffects_kept
    | with_reducible apply State.outEffects_kept
    | with_reducible apply State.drivePins_kept
    | (with_reducible apply Kept.unmk; dsimp only; with_reducible apply Kept.ofF)
    | (with_reducible apply Kept.unmk; dsimp only; with_reducible apply Kept.ofFilter)

theorem State.restoreImage_kept (s : State) (img : Bytes) {s0 : State} (hK : Kept s0 s) :
    Kept s0 (State.restoreImage s img) := by
  unfold State.restoreImage
  repeat' first
    | with_reducible assumption
    | ((try lift_lets -underBinder); intro x; first
        | (have hx : Kept s0 x := ?_; rotate_left; subst x; rotate_left; clear_value x)
        | (have : MemUnits := x; subst x)
        | clear_value x
        | skip)
    | with_reducible apply State.loadImage_kept
    | with_reducible apply State.putN_kept
    | with_reducible apply State.log_kept
    | split

theorem State.applySet_kept (s : State) (k : Nat) (c : CfgSet) {s0 : State} (hK : Kept s0 s) :
    Kept s0 (State.applySet s k c) := by
  unfold State.applySet
  repeat' first
    | with_reducible assumption
    | ((try lift_lets -underBinder); intro x; first
        | (have hx : Kept s0 x := ?_; rotate_left; subst x; rotate_left; clear_value x)
        | (have : MemUnits := x; subst x)
        | clear_value x
        | skip)
    | with_reducible apply State.store_kept
    | with_reducible apply State.logClosed_kept
    | with_reducible apply State.setInForce_kept
    | with_reducible apply State.bump_kept
    | with_reducible apply State.putN_kept
    | with_reducible apply State.restoreImage_kept
    | (with_reducible apply Kept.unmk; dsimp only; with_reducible apply Kept.ofF)
    | (intro _; intros; try beta_reduce)
    | split

theorem execConfigSetApply_kept (bad : List Nat) (s : State) {s0 : State} (hK : Kept s0 s) :
    KeptO s0 (execConfigSetApply bad s) := by
  unfold execConfigSetApply
  repeat' first
    | with_reducible assumption
    | ((try lift_lets -underBinder); intro x; first
        | (have hx : Kept s0 x := ?_; rotate_left; subst x; rotate_left; clear_value x)
        | (have : MemUnits := x; subst x)
        | clear_value x
        | skip)
    | with_reducible apply KeptO.next
    | with_reducible apply State.setStep_kept
    | with_reducible apply State.setDom_kept
    | with_reducible apply State.spoilRecords_kept
    | with_reducible apply State.setInForce_kept
    | with_reducible apply State.putB_kept
    | with_reducible apply State.log_kept
    | with_reducible apply State.applySet_kept
    | with_reducible apply State.bump_kept
    | with_reducible apply State.loadKeys_kept
    | with_reducible apply State.refreshPort_kept
    | with_reducible apply State.armBlock_kept
    | with_reducible refine Kept.foldl ?_ fun _ _ _ => ?_
    | (with_reducible apply Kept.unmk; dsimp only; with_reducible apply Kept.ofF)
    | (intro _; intros; try beta_reduce)
    | split

end Sys2Proof.Machine
end

