-- ==== Sys2Proof/Machine/Pins.lean ====
section
/-! DEFINITION. What each group of pins shows in a state (R17, R68, R389): the table of pin states by scope. -/

namespace Sys2Proof.Machine

/-- The vocabulary of R17 for a pin: `pullDown` is high-Z with the pull-down of 50 kΩ, `off` a differential driver that is
off, `unit` a pin that its unit drives by its own chapter. -/
inductive PinState where
  | low
  | high
  | highZ
  | pullDown
  | off
  | idle
  | unit
  | unpowered
deriving DecidableEq, Repr

/-- The pins of R389's table, but for the outputs that `State.outPin` and `State.todPin` show. -/
inductive PinGroup where
  | out (n : Fin 20)
  | todout (k : Fin 4)
  | tx (n : Fin 64)
  | sclk (b : Fin 2)
  | fespiCs (b : Fin 2)
  | fespiData
  | anten
  | efcCs
  | efcData
  | sideband
  | mgmtTransmit
  | mgmtMdio
  | hspiMiso
  | ospiCs
  | jtagTdo
  | dram
deriving DecidableEq, Repr

/-- A cold or power-on reset is asserted. -/
def State.coldHeld (s : State) : Bool := s.sys.scope == some 1 || s.sys.scope == some 2

/-- The pins are configured: the step of bring-up that configures them is done, no reset or hold undoes it, and the device
is not in CELLAR (R389). -/
def State.pinsFrom (s : State) (step : Nat) : Bool :=
  step ≤ s.sys.step && !s.coldHeld && !s.sys.trimHold && !s.sys.imageHold && s.mode.cur != .cellar

/-- The management and host SPI pins are released: step 6 of bring-up, step 5 of a warm release (R389). -/
def State.hostPins (s : State) : Bool := s.pinsFrom 6 && !s.macDown

/-- How a group of pins stands (R389). -/
def State.pinState (s : State) (p : PinGroup) : PinState :=
  if !s.keep.mainGood then .unpowered
  else
    match p with
    | .out n =>
      match s.outPin n with
      | .undriven => if n.val < 16 then .pullDown else .off
      | .driven h => if h then .high else .low
    | .todout k =>
      match s.todPin k with
      | .undriven => .pullDown
      | .driven h => if h then .high else .low
    | .tx n =>
      -- a group's lead port governs its members (R228)
      let k := if s.isMember n then leadOf n else n.val
      if s.pinsFrom (if n.val < 8 then 6 else 10) && s.flag (Obj.port_enable k) && s.nn (Obj.port_speed k) != 0 then .unit else .idle
    | .sclk b => if s.awake 3 && s.sky.bands[b].clock != .low then .unit else .low
    | .fespiCs _ => if s.awake 3 then .unit else .high
    | .fespiData => if s.awake 3 then .unit else .low
    | .anten => if s.awake 3 && s.sky.antEn then .high else .low
    | .efcCs => if s.pinsFrom 4 && s.flag Obj.efc_enable && s.sys.scope != some 3 then .unit else .high
    | .efcData => if s.pinsFrom 4 && s.flag Obj.efc_enable then .unit else .low
    | .sideband => if s.pinsFrom 6 && s.flag Obj.sb_enable then .unit else .low
    | .mgmtTransmit => if s.hostPins then .unit else .low
    | .mgmtMdio => if s.hostPins then .unit else .highZ
    | .hspiMiso => if s.hostPins then .unit else .highZ
    | .ospiCs => if s.pinsFrom 4 then .unit else .high
    | .jtagTdo => .highZ
    | .dram => if s.pinsFrom 5 then .unit else .low

end Sys2Proof.Machine
end

