-- ==== Sys2Proof/WellFormed.lean ====
section
/-! DEFINITION. Which commands are well formed: operands within the widths and ranges the spec gives them. A meaning does
not depend on it: it says what a sender of commands must observe. -/

namespace Sys2Proof

/-- An unsigned value of `w` bits. -/
def fitsU (w n : Nat) : Bool := decide (n < 2 ^ w)

/-- A signed value of `w` bits. -/
def fitsS (w : Nat) (x : Int) : Bool := decide (-(2 ^ (w - 1) : Int) ≤ x) && decide (x < (2 ^ (w - 1) : Int))

/-- A raw stamp: 64 bits of ticks, 8 of fractions (R85). -/
def stampOk (n : Nat) : Bool := fitsU 72 n

/-- A die or oscillator temperature in 0.01 °C: a signed value of 16 bits. -/
def tempOk (x : Int) : Bool := fitsS 16 x

/-- A domain of R22. -/
def domainOk (d : Nat) : Bool := decide (1 ≤ d) && decide (d ≤ 8)

/-- A crossing: two domains, the requesting one in the high byte (R403); a crossing may join two clocks of one domain. -/
def crossingOk (c : Nat) : Bool := domainOk (c / 256) && domainOk (c % 256)

/-- A memory region of R371. -/
def regionOk (r : Nat) : Bool := decide (1 ≤ r) && decide (r ≤ 10)

/-- A bit position within a word of R236: a block of at most 80 bits. -/
def bitPosOk (o : Nat) : Bool := decide (o ≤ 80)

/-- A frame as the MAC hands it on: any number of octets up to 16,384; the meaning checks its length. -/
def frameOk (b : Bytes) : Bool := decide (b.length ≤ 16384)

def TileHolds.wf : TileHolds → Bool
  | .plain => true
  | .lines l => l.all (fitsU 24)
  | .slots l => l.all (fitsU 32)
  | .descriptors r _ => decide (r < 128)
  | .counters l => l.all (fitsU 32)

def TileFault.wf : TileFault → Bool
  | .none => true
  | .flips l _ => l.all fun p => decide (p.1 < 256)
  | .misplaced a => decide (a % 256 = 0) && fitsU 64 a

def NavItem.wf : NavItem → Bool
  | .bad => true
  | .orbit kind sat message issue content =>
    fitsU 8 kind && fitsU 16 sat && fitsU 8 message && fitsU 16 issue && decide (content.length ≤ 1024)
  | .health sat signal _ => fitsU 16 sat && decide (1 ≤ signal) && decide (signal ≤ 10)
  | .utc dtLS week day dtLSF delta => fitsS 8 dtLS && fitsU 16 week && decide (day ≤ 7) && fitsS 8 dtLSF && fitsS 64 delta
  | .isb offset => fitsS 64 offset

def KeHello.wf (h : KeHello) : Bool :=
  h.suites.all (fitsU 16) && h.shares.all (fun p => decide (p.1 ≤ 2)) && h.sigs.all fun a => decide (a ≤ 2)

/-- A command's operands lie within the ranges the spec gives them. -/
def Instr.wf : Instr → Bool
  | .objectWrite index sub _ => fitsU 16 index && fitsU 8 sub
  | .mgmtPhyPoll r1 r4 r5 r9 r10 => fitsU 16 r1 && fitsU 16 r4 && fitsU 16 r5 && fitsU 16 r9 && fitsU 16 r10
  | .mgmtFrameReceive frame => frameOk frame
  | .coldResetRelease _ _ _ _ tj => tempOk tj
  | .tickClockLock bankA bankB => fitsU 16 bankA && fitsU 16 bankB
  | .dramTrainingComplete _ capacity ms => fitsU 32 capacity && fitsU 16 ms
  | .domainWakeComplete domain => domainOk domain
  | .thermalWarning temp => tempOk temp
  | .blockReset code _ => fitsU 16 code
  | .vkeepMonitor mV => fitsU 16 mV
  | .step amount session => fitsS 64 amount && decide (session ≤ 32)
  | .refinEdge _ stamp => stampOk stamp
  | .todinFrame _ start frame => stampOk start && decide (frame.length ≤ 64)
  | .nmeaSentence _ start sentence => stampOk start && decide (sentence.length ≤ 82)
  | .esmcPduReceive _ ssm essm => decide (ssm < 16) && (match essm with | some e => fitsU 8 e | none => true)
  | .operatorTime _ time => fitsS 96 time
  | .slotConfigCommit _ _ kind number => decide (kind ≤ 7) && fitsU 8 number
  | .manualSlotArm _ manual => fitsU 8 manual
  | .dpllFMeasurement x => match x.freq with | some f => fitsS 96 f | none => true
  | .steering value => fitsS 64 value
  | .oscMonitor offset => fitsS 64 offset
  | .modelLearnSample temp => tempOk temp
  | .holdoverRateUpdate temp => tempOk temp
  | .startTimeCommit _ time => fitsU 96 time
  | .captureEdge _ stamp _ stable => stampOk stamp && fitsU 32 stable
  | .capAckSeq _ seq => fitsU 32 seq
  | .bandMonitor _ ms0 ms20 ms40 ms60 ms80 => [ms0, ms20, ms40, ms60, ms80].all fun blocks =>
      decide (blocks.length = 20) && blocks.all fun l => decide ((l.map (·.2)).sum = 61380)
  | .fespiScriptSend _ reads => decide (reads.length ≤ 1024)
  | .notchScan _ lines => decide (lines.length ≤ 16384)
  | .acquisitionSearch _ _ found => match found with | some d => fitsU 64 d.code && fitsS 32 d.dop | none => true
  | .transmitTimeResolved _ x => fitsU 16 x.week && decide (x.towMs < 604800000)
  | .navPage _ _ page => decide (page.bits.length ≤ 4096) && page.item.wf
  | .positionCheckFix epoch => fitsU 32 epoch
  | .gristRequest request => fitsU 8 request
  | .gristCaptureComplete samples => decide (samples.length ≤ 7856640)
  | .linkUp _ speed fec _ => fitsU 8 speed && fitsU 8 fec
  | .linkDown _ cause => decide (cause ≤ 2)
  | .portSpeedChange _ speed fec => fitsU 8 speed && fitsU 8 fec
  | .portFrameReceive _ _ o _ frame => bitPosOk o && frameOk frame
  | .calFrameReceive _ _ o frame => bitPosOk o && frameOk frame
  | .departureFix _ _ o => bitPosOk o
  | .sentinelLock _ _ first later => later.length == 4095 && fitsU 72 first.stamp && later.all (fitsU 72)
  | .sidebandScan first second third => fitsU 64 first && fitsU 64 second && fitsU 64 third
  | .aesJobComplete _ _ tag => fitsU 8 tag
  | .cacheWriteback index => fitsU 24 index
  | .ringFrameHandle ring => [2, 4, 5, 6].contains ring || (decide (8 ≤ ring) && decide (ring ≤ 127))
  | .unicastRenew _ _ message => [0, 9, 11].contains message
  | .ntsMasterKey key => decide (key.length = 32)
  | .ntsKeHandshake h => h.wf
  | .bnChainStart post => match post with | some (_, a, _) => fitsU 64 a | none => true
  | .patrolRead region _ fault _ holds => regionOk region && fault.wf && holds.wf
  | .quarantineComplete region _ => regionOk region
  | .crossingResync crossing _ => crossingOk crossing
  | .crossingHang crossing _ => crossingOk crossing
  | .hello _ | .cert | .finish | .close | .read | .readRecord | .write | .bulkRead | .bulkWrite | .begin | .commit
  | .abort | .schedCancel | .scheduledCommitExecute | .persistWriteComplete _ | .claim | .electionWindowEnd | .heartbeat
  | .leaseExpiry | .handover | .confirm | .handoverTimerExpiry | .release | .setupTimeout | .sessionIdleTimeout
  | .hostSpiWrite _ | .hostSpiRead _ => true
  | .firstPower _ _ | .mainSupplyLoss | .mainSupplyReturn | .rstnAssert | .rstnDeassert | .wrstnAssert | .wrstnDeassert
  | .trimLoadComplete _ _ | .firmwareBootCheck _ | .configSetApply _ | .clientTableInitComplete | .bringupComplete
  | .warmResetRelease | .warmServingResume | .slotMissingCheckResume | .thermalTrip | .watchdogWarm | .watchdogCold
  | .resetRequestWarm | .resetRequestCold | .blockQuiesced | .quiesceTimeout | .oscEdgeLoss | .oscRestored | .tamperAssert
  | .tamperLatchClear _ | .vkeepRemoval | .activationComplete => true
  | .timingConditionEvaluate | .mashTimeout | .spargeRequest _ | .spargeTimeout | .kilnRequest | .cellarRequest
  | .cellarWakeTime | .cellarVerifyWake | .cellarVerifyEnd | .snowdropAlign | .segmentStart | .slopeFollowupSegment
  | .leapComplete | .journalEntryVisible | .missingEdge _ | .esmcAbsent _ | .qualifyTimerExpiry _ | .wtrTimerExpiry _
  | .operatorValidityExpiry _ | .selectionEvaluate | .transitionComplete _ | .disputeCompare | .dpllTMeasurement _ | .mediaLoopUpdate _
  | .efcUpdate | .efcCompensate | .holdoverRemainingUpdate | .modelStore | .modelReset | .syncReceiptTimeout _ => true
  | .outputEdge _ _ | .padCompensationUpdate _ _ | .outputPhaseJump _ | .alignTrigger _ | .alignApplied _
  | .alignTimeout _ | .alignContinuousUpdate _ | .todoutFrame _ | .captureConvert _ => true
  | .fespiSettleEnd _ | .antShort | .antRetry | .antOpen | .antCurrentInRange | .trackerLock _ _
  | .pullInTimeout _ _ | .trackerLoss _ _ | .reacqTimeout _ _ | .symbolSync _ _
  | .orbitStorePersist | .observationEpoch _ | .timingSolution | .surveyRestart | .gristCaptureStart | .gristSolveComplete
  | .gristHold _ => true
  | .sentinelUnlock _ _ | .calFrameSend _ | .frameDeparture _ _ | .governorEvaluate _ | .lpiEnter _ | .esmcTx _
  | .esmcEventPdu _ => true
  | .threadStart _ _ | .instructionLimit _ _ | .clientLookupComplete _ _ | .clientTableSweep | .timerWheelSlot
  | .sketchDecay | .quietnAssert | .quietnDeassert | .serveQuiet _ | .servingResume | .consolidationEvaluate | .pairGate _
  | .pairWakeComplete _ | .programVerify _ | .programVerifyComplete | .programActivate | .programCounterClear => true
  | .isaNop _ _ | .isaAdd _ _ | .isaSub _ _ | .isaAnd _ _ | .isaOr _ _ | .isaXor _ _ | .isaShl _ _ | .isaShr _ _
  | .isaSar _ _ | .isaMul _ _ | .isaMulhu _ _ | .isaAddc _ _ | .isaMinu _ _ | .isaMaxu _ _ | .isaSltu _ _ | .isaOrhi _ _
  | .isaBeq _ _ | .isaBne _ _ | .isaBltu _ _ | .isaBgeu _ _ | .isaBlt _ _ | .isaBge _ _ | .isaBset _ _ | .isaBclr _ _
  | .isaJmp _ _ | .isaCall _ _ | .isaRet _ _ | .isaXent _ _ | .isaLd8 _ _ | .isaLd16 _ _ | .isaLd32 _ _ | .isaLd64 _ _
  | .isaSt8 _ _ | .isaSt16 _ _ | .isaSt32 _ _ | .isaSt64 _ _ | .isaCpy _ _ | .isaCsum _ _ | .isaTurn _ _ | .isaClook _ _
  | .isaCcreate _ _ | .isaCwrite _ _ | .isaSketch _ _ | .isaAesq _ _ | .isaAesw _ _ | .isaRand _ _ | .isaEmit _ _
  | .isaDrop _ _ | .isaPunt _ _ | .isaCinc _ _ => true
  | .announceReceive | .announceReceiptTimeout _ _ | .ptpManagement | .smTlvSend _ _ | .delayReqSend _ _
  | .pdelayReqSend _ _ | .cookieKeyRotate | .ntsKeIdleTimeout _ => true
  | .rowMac _ | .product _ | .montRow _ | .bnAbort _ | .bnSelftest _ | .ntsKeKeygen | .fwVerify | .fwActivate
  | .debugChallenge | .debugResponse _ | .debugChallengeExpiry | .jtagBypass | .jtagIdcode | .jtagSamplePreload
  | .jtagExtest => true
  | .tileCopyReload | .snapRequest | .snapPeriodic | .counterWrap _ _ | .sampleClear => true

end Sys2Proof
end

