-- ==== Sys2Proof/Tests/Slice0.lean ====
section
/-! SUPPORT. Tests: the checks of WellFormed, worked examples of the specification, and one witness theorem for each
statement with hypotheses: a concrete state and operands that meet them, clause by clause in the order of the statement. -/

namespace Sys2Proof.Tests

open Sys2Proof Sys2Proof.Machine Sys2Proof.Safety

set_option Elab.async false
set_option linter.unusedVariables false

/-! ## WellFormed: each check refuses an operand outside its range -/

/-! One command per check, its operand just outside. -/

theorem test_wf_refuses_1 :
    ([.objectWrite 65536 0 [], .objectWrite 0 256 [], .mgmtPhyPoll 0 0 65536 0 0, .tickClockLock 0 65536, .dramTrainingComplete 0 (2 ^ 32) 0,
   .dramTrainingComplete 0 0 65536, .domainWakeComplete 0, .domainWakeComplete 9, .thermalWarning 32768, .thermalWarning (-32769),
   .coldResetRelease 0 0 false true 32768, .blockReset 65536 false, .vkeepMonitor 65536, .step (2 ^ 63) 0, .step 0 33, .refinEdge 0 (2 ^ 72)] : List Instr).all (fun i => !i.wf) = true := by decide +kernel
theorem test_wf_refuses_2 :
    ([.todinFrame 0 0 (List.replicate 65 0), .nmeaSentence 0 0 (List.replicate 83 0), .esmcPduReceive 0 16 none, .esmcPduReceive 0 0 (some 256),
   .operatorTime 0 (2 ^ 95), .slotConfigCommit 0 true 8 0, .slotConfigCommit 0 true 0 256, .manualSlotArm true 256,
   .dpllFMeasurement ⟨0, some (2 ^ 95)⟩, .steering (2 ^ 63), .oscMonitor (-(2 ^ 63) - 1),
   .modelLearnSample 32768, .holdoverRateUpdate 32768, .startTimeCommit 0 (2 ^ 96), .captureEdge 0 (2 ^ 72) true 0,
   .captureEdge 0 0 true (2 ^ 32), .capAckSeq 0 (2 ^ 32), .bandMonitor 0 [] [] [] [] [], .bandMonitor 0 [[(0, 5)]] [] [] [] []] : List Instr).all (fun i => !i.wf) = true := by decide +kernel
theorem test_wf_refuses_3 :
    ([.fespiScriptSend 0 (List.replicate 1025 []), .acquisitionSearch 0 0 (some { code := 2 ^ 64, dop := 0 }),
   .acquisitionSearch 0 0 (some { code := 0, dop := 2 ^ 31 }), .transmitTimeResolved 0 ⟨0, 65536, 0, 0⟩, .transmitTimeResolved 0 ⟨0, 0, 604800000, 0⟩,
   .navPage 0 0 ⟨[], .orbit 256 0 0 0 []⟩, .navPage 0 0 ⟨[], .health 0 11 true⟩, .navPage 0 0 ⟨[], .utc 128 0 0 0 0⟩, .navPage 0 0 ⟨[], .utc 0 0 8 0 0⟩,
   .navPage 0 0 ⟨[], .isb (2 ^ 63)⟩,
   .positionCheckFix (2 ^ 32), .gristRequest 256, .linkUp 0 256 0 false, .linkUp 0 0 256 false, .linkDown 0 3, .portSpeedChange 0 256 0,
   .portFrameReceive 0 0 10560 0 [], .calFrameReceive 0 0 10560 [], .departureFix 0 0 10560, .sentinelLock 0 false { stamp := 0, word := 0, marker := 0 } [],
   .sentinelLock 0 false { stamp := 2 ^ 72, word := 0, marker := 0 } (List.replicate 4095 0),
   .sidebandScan (2 ^ 64) 0 0, .aesJobComplete 0 0 256, .cacheWriteback (2 ^ 24), .ringFrameHandle 3, .ringFrameHandle 128] : List Instr).all (fun i => !i.wf) = true := by decide +kernel
theorem test_wf_refuses_4 :
    ([.unicastRenew 0 0 1, .ntsMasterKey [], .ntsKeHandshake { conn := 0, suites := [65536], shares := [], sigs := [], records := [] },
   .ntsKeHandshake { conn := 0, suites := [], shares := [(3, [])], sigs := [], records := [] },
   .ntsKeHandshake { conn := 0, suites := [], shares := [], sigs := [3], records := [] }, .bnChainStart (some (0, 2 ^ 64, [])),
   .patrolRead 0 0 .none false .plain, .patrolRead 11 0 .none false .plain, .patrolRead 1 0 .none false (.lines [2 ^ 24]),
   .patrolRead 1 0 .none false (.descriptors 128 []), .patrolRead 1 0 (.flips [(256, 1)] 0) false .plain, .patrolRead 1 0 (.misplaced 5) false .plain, .quarantineComplete 11 0, .crossingResync 0x0109 0, .crossingHang 0x0901 none] : List Instr).all (fun i => !i.wf) = true := by decide +kernel
theorem test_wf_refuses_long_frames : Instr.wf (.mgmtFrameReceive (List.replicate 16385 0)) = false
    ∧ Instr.wf (.notchScan 0 (List.replicate 16385 (0, 0))) = false := by decide +kernel
theorem test_wf_accepts : ([.domainWakeComplete 8, .refinEdge 9 (2 ^ 72 - 1), .thermalWarning (-32768), .crossingResync 0x0108 0, .linkDown 63 2]
    : List Instr).all Instr.wf = true := by decide

/-! ## Worked examples of the specification -/

/-- R14: reference slot 5 is at 0x2350; chapter 20: cal_correction of port 45 at 0x4B43.09, channel 200 at 0x3101.49, ring
130 at 0x5093.03. -/
theorem test_index_examples : Obj.slot_enable 5 / 256 = 0x2350 ∧ Obj.cal_correction 45 = 0x4B43 * 256 + 0x09
    ∧ Obj.channel_status 200 = 0x3101 * 256 + 0x49 ∧ Obj.ring_drop 130 = 0x5093 * 256 + 0x03 := by decide
/-- Chapter 8: sample 61,380,000,007 has raw stamp 0x123_09CE_548E with fraction 0x8E. -/
theorem test_sample_stamp : sampleStamp 61380000007 = 0x12309CE548E8E := by decide +kernel
/-- Chapter 4: segment n of the worked example. -/
def segN : Segment := { start := 2 ^ 46, time := (1933783200 * 10 ^ 9 + 400000000) * 65536, rate := -(2 ^ 40) }
/-- Chapter 4: raw stamp 0x404A_817C_8040 converts to 1,933,783,201 s, 399,999,046 ns, fraction 34,451. -/
theorem test_convert_example : segN.convert 0x404A817C8040 = (1933783201 * 10 ^ 9 + 399999046) * 65536 + 34451 := by decide +kernel
/-- Chapter 4: segment n + 1 starts at fraction 21,344. -/
theorem test_convert_segment_change : segN.convert 0x404A817C8000 = (1933783201 * 10 ^ 9 + 399999046) * 65536 + 21344 := by decide +kernel
/-- Chapter 12: the encodings of `ld16 g1, g0, 0x26c`, `bne g4, #3, 0x2827` and `emit g0, g10, g1+40, kind 1, end`. -/
theorem test_isa_encodings :
    (let w : Word64 := 0x210800000000026C; opOf w = 0x21 ∧ destOf w = 1 ∧ srcAOf w = 0 ∧ immOf w = 0x26C)
    ∧ (let w : Word64 := 0x1101000100032827; opOf w = 0x11 ∧ srcAOf w = 4 ∧ flagOf w 32 = true ∧ immOf w = 3 * 65536 + 0x2827)
    ∧ (let w : Word64 := 0x5002821000010028; opOf w = 0x50 ∧ srcAOf w = 10 ∧ srcBOf w = 1 ∧ flagOf w 36 = true ∧ immOf w = 65536 + 40) := by
  decide +kernel
/-- Chapter 12: no row of a program image with these words has a reserved encoding. -/
theorem test_isa_encodings_pass : ([0x210800000000026C, 0x1101000100032827, 0x5002821000010028] : List Word64).any badEncoding = false := by
  decide +kernel
/-- RFC 3720, B.4: the CRC-32C of 32 zero octets. IEEE 802.3: the check value of CRC-32, least significant octet first. -/
theorem test_crcs : crc32c (List.replicate 32 0) = 0x8A9136AA
    ∧ fcs [0x31, 0x32, 0x33, 0x34, 0x35, 0x36, 0x37, 0x38, 0x39] = [0x26, 0x39, 0xF4, 0xCB] := by decide +kernel
/-- Chapter 3: 22,800 s after an alignment with 30.5 us, at 20,000 ppb, coarse time is known to 0.4560305 s. -/
theorem test_coarse_uncertainty :
    State.coarseUnc { State.reset with now := 22800 * 1250000000, keep := { uncAtAlign := 30500, driftBound := 20000 } } = 456030500 := by
  decide +kernel
/-- Chapter 6: the holdover of the worked example lasts 77,601 s. -/
theorem test_holdover_remaining :
    (State.remaining { State.reset.putN Obj.holdover_budget 1100 with
      hold := { model := .valid, uy := 5 * 10 ^ 6, ua := 20 * 10 ^ 6, uc := 10 ^ 6, episode := true, bound := 15 * 10 ^ 9 * boundDen } }) = 77601 := by
  decide +kernel
/-- Chapter 7: the word clock of the worked example is aligned by 16,666,433 ps. -/
theorem test_align_correction : psMod (-4166900) ((unitsPerS : Rat) / 48000) = 16666433 := by decide +kernel
/-- R332 says that a row with C and A below 2N stays below 2N; its formula gives 7 here, with N = 3 (NOTES.md). -/
theorem test_montRow_exceeds_2N : (3 * 0x5555555555555555 + 1) % 2 ^ 64 = 0 ∧ montRow 1 5 (2 ^ 64 - 1) 3 0x5555555555555555 4 = 7 := by
  decide +kernel
/-- FIPS 180-4: SHA-256 of "abc". FIPS 197, C.3: a block under a 256-bit key. -/
theorem test_digest_and_cipher :
    sha256 [0x61, 0x62, 0x63] = beNat 32 0xBA7816BF8F01CFEA414140DE5DAE2223B00361A396177A9CB410FF61F20015AD
    ∧ aesBlock (beNat 32 0x000102030405060708090A0B0C0D0E0F101112131415161718191A1B1C1D1E1F) (beNat 16 0x00112233445566778899AABBCCDDEEFF)
      = beNat 16 0x8EA2B7CA516745BFEAFC49904B496089 := by decide +kernel
/-- SP 800-38D's test case with a zero key of 256 bits: the seal of a zero block opens; a changed octet does not. -/
theorem test_gcm :
    (let key := List.replicate 32 0
     let nonce := List.replicate 12 0
     let sealed := beNat 32 0xCEA7403D4D606B6E074EC5D3BAF39D18D0D1C8A799996BF0265B98B5D48AB919
     gcmSeal key nonce [] (List.replicate 16 0) = sealed ∧ gcmOpen key nonce [] sealed = some (List.replicate 16 0)
     ∧ gcmOpen key nonce [] (patch sealed 3 [0]) = none) := by
  decide +kernel
/-- RFC 5297, A.1: AES-SIV seals the text; a changed octet does not open. -/
theorem test_siv :
    (let key := beNat 32 0xFFFEFDFCFBFAF9F8F7F6F5F4F3F2F1F0F0F1F2F3F4F5F6F7F8F9FAFBFCFDFEFF
     let data := [beNat 24 0x101112131415161718191A1B1C1D1E1F2021222324252627]
     let sealed := beNat 30 0x85632D07C6E8F37F950ACD320A2ECC9340C02B9690C4DC04DAEF7F6AFE5C
     sivSeal key data (beNat 14 0x112233445566778899AABBCCDDEE) = sealed ∧ sivOpen key data (patch sealed 3 [0]) = none) := by
  decide +kernel
/-- RFC 7748, 5.2: the first vector of X25519. -/
theorem test_x25519 :
    x25519 (beNat 32 0xA546E36BF0527C9D3B16154B82465EDD62144C0AC1FC5A18506A2244BA449AC4)
      (beNat 32 0xE6DB6867583030DB3594C1A424B15F7C726624EC26B3353B10A903A6D0AB1C4C)
      = beNat 32 0xC3DA55379DE9C6908E94EA4DF28D084F32ECCF03491C71F754B4075577A28552 := by decide +kernel
/-- RFC 8032, 7.1, test 1: the public key of Ed25519. -/
theorem test_ed25519 :
    edPublic (beNat 32 0x9D61B19DEFFD5A60BA844AF492EC2CC44449C5697B326919703BAC031CAE7F60)
      = beNat 32 0xD75A980182B10AB7D54BFED3C964073A0EE172F3DAA62325AF021A68F707511A := by decide +kernel
/-- No row of the opcode table gives bits. -/
theorem test_no_words : decodeTableWord 8 0 = none ∧ decodeTableWord 64 0x5002821000010028 = none := by decide

/-! ## States -/

/-- Every domain awake, bring-up ended, the raw counter running at tick 4,000,000,000. -/
def up : State :=
  { (List.range 8).foldl (fun (s : State) d => s.putN (Obj.domain_state d) 2) State.reset with
    now := 10000000000000
    tb := { running := true, raw := 4000000000 }
    keep := { mainGood := true }
    mode := { cur := .mash, bringupDone := true }
    sys := { step := 11 } }

/-- Write several numbers. -/
def State.nums (s : State) (l : List (Nat × Int)) : State := l.foldl (fun (s : State) p => s.putN p.1 p.2) s


/-- The key of the client of a thread with an empty frame, kind 1. -/
def key1 : Bytes := ({} : Thread).packet.clientKey 1 0
/-- Its entry is in the cache, at the first index of its first candidate bucket. -/
def hitCt : ClientTable := { ready := true, cache := [{ index := Config.ctHash 0 key1 % 2 ^ 21 * 8, data := key1 ++ List.replicate 50 0 }] }
theorem finds {s : State} (hc : s.serve.ct = hitCt) (ht : s.mem.tiles = []) :
    s.ctFind key1 = some (Config.ctHash 0 key1 % 2 ^ 21 * 8) ∧ s.lookupHits key1 = true := by
  have hk : (entryKey (key1 ++ List.replicate 50 0) == key1) = true := by decide +kernel
  have he : s.ctEntry (Config.ctHash 0 key1 % 2 ^ 21 * 8) = some (key1 ++ List.replicate 50 0) := by
    simp [State.ctEntry, hc, hitCt, show ¬(key1.head?.getD 0#8 = 0#8) by decide +kernel]
  have hb : (candidates key1).flatMap bucketIndices
      = (Config.ctHash 0 key1 % 2 ^ 21 * 8) :: ((candidates key1).flatMap bucketIndices).tail := rfl
  have h1 : s.ctFind key1 = some (Config.ctHash 0 key1 % 2 ^ 21 * 8) := by
    rw [State.ctFind, hb, List.find?_cons_of_pos]
    · simp [hc, hitCt]
    · simp only [he, hk, State.tileOut, ht, List.any_nil, Bool.not_false, Bool.and_self]
  exact ⟨h1, by rw [State.lookupHits, h1, hc]; simp [hitCt]⟩
/-- A segment in force with valid 1. -/
def seg1 : Segment := { valid := true, time := 100000000000000000000 }
/-- `up` with seeded device time. -/
def seeded : State := { up with tb := { up.tb with segs := [seg1] } }
/-- An enabled slot 0 of a kind and number. -/
def slotOf (s : State) (kind number : Nat) (x : Slot) : State :=
  (State.nums s [(Obj.slot_enable 0, 1), (Obj.source_kind 0, kind), (Obj.source_number 0, number)]).setSlot 0 x
/-- A Reference Announcement Frame without its CRC, and with it. -/
def rafHead : Bytes := [0x53, 0x52, 1, 48] ++ List.replicate 21 0 ++ [255] ++ List.replicate 18 0
def raf : Bytes := rafHead ++ beNat 4 (crc32c rafHead)
/-- $GPZDA,120000,01,01,2031,, with its checksum. -/
def zda : Bytes := [0x24, 0x47, 0x50, 0x5A, 0x44, 0x41, 0x2C, 0x31, 0x32, 0x30, 0x30, 0x30, 0x30, 0x2C, 0x30, 0x31, 0x2C, 0x30, 0x31, 0x2C,
  0x32, 0x30, 0x33, 0x31, 0x2C, 0x2C]
def zdaSum : Byte := (zda.drop 1).foldl (fun a x => a ^^^ x) 0
def hexChar (n : Nat) : Byte := BitVec.ofNat 8 (if n < 10 then 0x30 + n else 0x41 + n - 10)
def zdaSentence : Bytes := zda ++ [0x2A, hexChar (zdaSum.toNat / 16), hexChar (zdaSum.toNat % 16), 13, 10]
/-- The same half a second later. -/
def halfZda : Bytes := zda.take 13 ++ [0x2E, 0x35] ++ zda.drop 13
def halfSum : Byte := (halfZda.drop 1).foldl (fun a x => a ^^^ x) 0
def halfSentence : Bytes := halfZda ++ [0x2A, hexChar (halfSum.toNat / 16), hexChar (halfSum.toNat % 16), 13, 10]
theorem wit_LeapCompletes :
    ∃ s : State, Wf s ∧ s.n Obj.leap_delta ≠ 0 ∧ s.n Obj.leap_time + (if s.n Obj.leap_delta = 1 then unitsPerS else 0) ≤ s.time :=
  ⟨State.nums seeded [(Obj.leap_delta, 1), (Obj.leap_time, 90000000000000000000)], by unfold Wf; decide +kernel⟩
theorem wit_TimebaseCommands :
    (∃ (s : State) (r : Int), s.tb.followUp = some r ∧ s.tb.issued = none ∧ s.tb.running = true ∧ s.stepReserved = false
      ∧ s.tb.newest.start / 256 + 12500000 ≤ s.tb.raw + 2060 ∧ s.tb.raw + 2000 ≤ s.tb.newest.start / 256 + 12500000)
    ∧ (∃ (s : State) (r : Int), s.tb.followUp = some r ∧ s.tb.issued = none ∧ s.tb.running = true ∧ s.stepReserved = false
      ∧ s.tb.newest.start / 256 + 12500000 < s.tb.raw + 2000)
    ∧ (∃ (s : State) (w : SegRequest) (tick : Nat), 60 ≤ tick)
    ∧ (∃ (s : State) (g : Segment), s.tb.issued = some g ∧ s.tb.reserved = none ∧ s.tb.running = true ∧ g.start ≤ s.tb.raw * 256 ∧ g.step = false)
    ∧ (∃ (s : State) (g : Segment), s.tb.issued = some g ∧ s.tb.raw * 256 < g.start)
    ∧ (∃ (s : State) (amount : Int) (session : Nat), s.rateOnly = true ∧ s.stepOk amount = true ∧ s.hold.episode = false ∧ s.tb.issued.isSome = true
      ∧ s.tb.want = none)
    ∧ (∃ (s : State) (amount : Int) (session : Nat), s.rateOnly = true ∧ s.stepOk amount = true ∧ s.hold.episode = false ∧ s.tb.issued = none
      ∧ s.tb.want = none ∧ s.tb.running = true ∧ s.stepReserved = false ∧ s.tb.newest.start / 256 + 2500 ≤ s.tb.raw + 2060)
    ∧ (∃ s : State, s.keep.mainGood = true ∧ s.awake 2 = true ∧ s.mode.cur ≠ .cellar ∧ s.timeValid = true) :=
  ⟨⟨{ up with tb := { up.tb with followUp := some 5, segs := [{ start := 3987502030 * 256 }] } }, 5, by decide +kernel⟩,
   ⟨{ up with tb := { up.tb with followUp := some 5 } }, 5, by decide +kernel⟩,
   ⟨up, { rate := 5, kind := .rate true }, 60, by decide +kernel⟩,
   ⟨{ up with tb := { up.tb with issued := some { start := 256000 } } }, { start := 256000 }, by decide +kernel⟩,
   ⟨{ up with tb := { up.tb with issued := some { start := 2000000000001 } } }, { start := 2000000000001 }, by decide +kernel⟩,
   ⟨{ State.nums seeded [(Obj.tb_state, 2)] with tb := { seeded.tb with issued := some {} } }, 100, 3, by decide +kernel⟩,
   ⟨State.nums seeded [(Obj.tb_state, 2)], 100, 3, by decide +kernel⟩,
   ⟨seeded, by decide +kernel⟩⟩
theorem wit_JournalEntryBecomesVisible :
    ∃ (s : State) (e : JEntry), Wf s ∧ firstEntry s.journal.queue = some e ∧ s.awake 6 = true
      ∧ e.stamp + s.nn Obj.journal_reorder_delay * 1250 * 256 ≤ s.tb.raw * 256 :=
  ⟨{ up with journal := { queue := [{ stamp := 0, time := 0, source := 0, code := 0x2008, timeValid := true, dom := 2, data := [] }] } },
    { stamp := 0, time := 0, source := 0, code := 0x2008, timeValid := true, dom := 2, data := [] }, by unfold Wf; decide +kernel⟩
theorem wit_ModeCommands :
    (∃ (s : State) (t0 : Nat), s.mode.mashSince = some t0 ∧ s.nn Obj.mash_timeout ≠ 0 ∧ t0 + ticksS (s.nn Obj.mash_timeout) ≤ s.now
      ∧ (s.n Obj.timing_condition = 0 ∨ s.n Obj.timing_condition = 1))
    ∧ (∃ s : State, s.awake 2 = true ∧ (s.growBound.takeLoss.n Obj.timing_condition ≠ 3 ∨ s.growBound.takeLoss.overBudget = false))
    ∧ (∃ s : State, s.awake 2 = true ∧ s.growBound.takeLoss.n Obj.timing_condition = 3 ∧ s.growBound.takeLoss.overBudget = true)
    ∧ (∃ s : State, s.awake 2 = false) :=
  ⟨⟨{ State.nums up [(Obj.mash_timeout, 5)] with mode := { up.mode with mashSince := some 0 } }, 0, by decide +kernel⟩,
   ⟨up, by decide +kernel⟩,
   ⟨{ State.nums up [(Obj.timing_condition, 3)] with hold := { up.hold with bound := 10 ^ 60 } }, by decide +kernel⟩,
   ⟨State.reset, by decide +kernel⟩⟩
theorem wit_ReferenceInputs_1 :
    (∃ (s : State) (i : Fin 8) (stamp : Nat), s.awake 2 = true ∧ s.n (Obj.refin_mode i) ≠ 0
      ∧ refinDivider (s.nn (Obj.refin_frequency i)) ≤ s.refins[i].edges + 1)
    ∧ (∃ (s : State) (i : Fin 8) (stamp : Nat), s.awake 2 = true ∧ s.n (Obj.refin_mode i) ≠ 0
      ∧ s.refins[i].edges + 1 < refinDivider (s.nn (Obj.refin_frequency i)))
    ∧ (∃ (s : State) (i : Fin 8) (stamp : Nat), s.n (Obj.refin_mode i) = 0)
    ∧ (∃ (s : State) (n : Fin 8) (start : Nat) (b : Bytes) (i : Fin 16), s.slotsOn [2] n = [i] ∧ inLabelWindow s.slots[i].lastEdge start = true
      ∧ rafCrcOk b = false)
    ∧ (∃ (s : State) (n : Fin 8) (start : Nat) (b : Bytes) (i : Fin 16), s.slotsOn [2] n = [i] ∧ inLabelWindow s.slots[i].lastEdge start = false)
    ∧ (∃ (s : State) (n : Fin 8) (start e : Nat) (b : Bytes) (i : Fin 16), s.slotsOn [2] n = [i] ∧ s.slots[i].lastEdge = some e
      ∧ inLabelWindow (some e) start = true ∧ rafCrcOk b = true ∧ rafOk b = true)
    ∧ (∃ (s : State) (n : Fin 8) (start : Nat) (b body : Bytes) (t : Int) (i : Fin 16), s.slotsOn [3] n = [i] ∧ nmeaBody b = some body
      ∧ nmeaTime body = some (t, false) ∧ s.nn (Obj.nmea_label n) = 1)
    ∧ (∃ (s : State) (n : Fin 8) (start e : Nat) (b body : Bytes) (t : Int) (i : Fin 16), s.slotsOn [3] n = [i] ∧ nmeaBody b = some body
      ∧ nmeaTime body = some (t, false) ∧ s.nn (Obj.nmea_label n) ≠ 1 ∧ s.slots[i].lastEdge = some e ∧ inLabelWindow (some e) start = true) :=
  ⟨⟨State.nums up [(Obj.refin_mode 3, 1)], 3, 77, by decide +kernel⟩,
   ⟨State.nums up [(Obj.refin_mode 3, 1), (Obj.refin_frequency 3, 10000000)], 3, 77, by decide +kernel⟩,
   ⟨up, 3, 77, by decide +kernel⟩,
   ⟨slotOf up 2 1 { lastEdge := some 0 }, 1, 1000000000, [1], 0, by decide +kernel⟩,
   ⟨slotOf up 2 1 { lastEdge := some 0 }, 1, 1, [], 0, by decide +kernel⟩,
   ⟨slotOf seeded 2 1 { lastEdge := some 0 }, 1, 1000000000, 0, raf, 0, by decide +kernel⟩,
   ⟨State.nums (slotOf up 3 1 {}) [(Obj.nmea_label 1, 1)], 1, 5, zdaSentence, zda.drop 1, 1925035200, 0, by decide +kernel⟩,
   ⟨slotOf up 3 1 { lastEdge := some 0 }, 1, 1000000000, 0, zdaSentence, zda.drop 1, 1925035200, 0, by decide +kernel⟩⟩
theorem wit_ReferenceInputs_2 :
    (∃ (s : State) (n : Fin 8) (start e : Nat) (b body : Bytes) (t : Int) (i : Fin 16), s.slotsOn [3] n = [i] ∧ nmeaBody b = some body
      ∧ nmeaTime body = some (t, false) ∧ s.nn (Obj.nmea_label n) ≠ 1 ∧ s.slots[i].lastEdge = some e ∧ inLabelWindow (some e) start = false)
    ∧ (∃ (s : State) (n : Fin 8) (start : Nat) (b : Bytes) (i : Fin 16), s.slotsOn [3] n = [i] ∧ nmeaBody b = none)
    ∧ (∃ (s : State) (n : Fin 8) (start : Nat) (b : Bytes) (i : Fin 16), s.slotsOn [3] n = [i] ∧ ∃ body t, nmeaBody b = some body
      ∧ nmeaTime body = some (t, true))
    ∧ (∃ (s : State) (p : Fin 64) (ssm : Nat) (essm : Option Nat) (i : Fin 16), s.slotsOn [4] p = [i] ∧ s.nn (Obj.esmc_mode i) ≠ 2)
    ∧ (∃ (s : State) (p : Fin 64) (ssm : Nat) (essm : Option Nat) (i : Fin 16), s.slotsOn [4] p = [i] ∧ s.nn (Obj.esmc_mode i) = 2)
    ∧ (∃ (s : State) (i : Fin 16), s.kind i = 4 ∧ s.nn (Obj.esmc_mode i) ≠ 2 ∧ s.slots[i].state ≠ .disabled
      ∧ s.slots[i].lastEsmc.getD s.slots[i].boundAt + 6250000000 ≤ s.now)
    ∧ (∃ (s : State) (i : Fin 16), s.slots[i].state ≠ .disabled ∧ (s.kind i = 1 ∨ s.kind i = 2 ∨ s.kind i = 3)
      ∧ (s.slots[i].missed * 10000 + 10000 + s.nn (Obj.interval_tolerance i)) * refinPeriodNum (s.nn (Obj.refin_frequency (s.number i))) ≤ (s.stamp - s.slots[i].lastEdge.getD s.slots[i].boundStamp) * s.nn (Obj.refin_frequency (s.number i)) * 10000) :=
  ⟨⟨slotOf up 3 1 { lastEdge := some 0 }, 1, 1, 0, zdaSentence, zda.drop 1, 1925035200, 0, by decide +kernel⟩,
   ⟨slotOf up 3 1 {}, 1, 5, [], 0, by decide +kernel⟩,
   ⟨slotOf up 3 1 {}, 1, 5, halfSentence, 0, by refine ⟨by decide +kernel, halfZda.drop 1, 1925035200, ?_⟩; decide +kernel⟩,
   ⟨slotOf up 4 3 {}, 3, 2, none, 0, by decide +kernel⟩,
   ⟨State.nums (slotOf up 4 3 {}) [(Obj.esmc_mode 0, 2)], 3, 2, none, 0, by decide +kernel⟩,
   ⟨slotOf up 4 3 { state := .qualified }, 0, by decide +kernel⟩,
   ⟨slotOf up 1 0 { state := .qualified }, 0, by decide +kernel⟩⟩
theorem wit_SlotStates :
    (∃ (s : State) (i : Fin 16) (d : Nat), (s.evalSlot i).slots[i].state = .qualifying ∧ (s.evalSlot i).slots[i].deadline = some d
      ∧ d ≤ (s.evalSlot i).now ∧ (s.evalSlot i).mode.bringupDone = true
      ∧ ((s.evalSlot i).slots[i].everQualified = false ∨ (s.evalSlot i).n (Obj.wtr_time i) = 0))
    ∧ (∃ (s : State) (i : Fin 16) (d : Nat), (s.evalSlot i).slots[i].state = .qualifying ∧ (s.evalSlot i).slots[i].deadline = some d
      ∧ d ≤ (s.evalSlot i).now ∧ (s.evalSlot i).mode.bringupDone = true ∧ (s.evalSlot i).slots[i].everQualified = true
      ∧ (s.evalSlot i).n (Obj.wtr_time i) ≠ 0)
    ∧ (∃ (s : State) (i : Fin 16) (d : Nat), (s.evalSlot i).slots[i].state = .waitToRestore ∧ (s.evalSlot i).slots[i].deadline = some d
      ∧ d ≤ (s.evalSlot i).now)
    ∧ (∃ (s : State) (i : Fin 16), s.kind i = 5 ∧ s.mode.suspend5 = false)
    ∧ (∃ (s : State) (i : Fin 16) (time : Int), s.kind i = 7 ∧ s.slotEnabled i = true
      ∧ ((s.setSlot i { s.slots[i] with operatorAt := some s.now, operatorError := s.time - time, samples := [{ stamp := s.stamp, carried := time, phase := some (s.time - time) }] }).evalSlot i).selT.active ≠ some i)
    ∧ (∃ (s : State) (i : Fin 16) (time : Int), s.kind i = 7 ∧ s.slotEnabled i = true)
    ∧ (∃ (s : State) (i : Fin 16), (s.evalSlot i).mode.bringupDone = false) :=
  ⟨⟨slotOf up 2 0 { qualityReceived := 10, state := .qualifying, deadline := some 5 }, 0, 5, by decide +kernel⟩,
   ⟨State.nums (slotOf up 2 0 { qualityReceived := 10, state := .qualifying, deadline := some 5, everQualified := true }) [(Obj.wtr_time 0, 300)], 0,
     5, by decide +kernel⟩,
   ⟨slotOf up 2 0 { qualityReceived := 10, state := .waitToRestore, deadline := some 5 }, 0, 5, by decide +kernel⟩,
   ⟨slotOf up 5 0 {}, 0, by decide +kernel⟩,
   ⟨slotOf seeded 7 0 {}, 0, 5, by decide +kernel⟩,
   ⟨slotOf seeded 7 0 {}, 0, 5, by decide +kernel⟩,
   ⟨State.reset, 0, by decide +kernel⟩⟩
theorem wit_Captures :
    (∃ (s : State) (c : Fin 16) (stamp stable : Nat) (falling : Bool), s.awake 2 = true ∧ s.n (Obj.cap_input c) = 0 ∧ s.caps[c].level = falling
      ∧ stable < s.nn (Obj.cap_filter c))
    ∧ (∃ (s : State) (c : Fin 16) (stamp stable : Nat) (falling : Bool), s.awake 2 = true ∧ s.caps[c].level = falling
      ∧ s.nn (Obj.cap_filter c) ≤ stable ∧ s.n (Obj.cap_edge c) = 2 ∧ s.n (Obj.cap_filter c) ≠ 0 ∧ s.n (Obj.cap_input c) = 0
      ∧ s.flag (Obj.cap_enable c) = true ∧ s.caps[c].queue.length < 16 ∧ (∀ o : Fin 20, s.nn (Obj.align_source o) ≠ 16 + c))
    ∧ (∃ (s : State) (c : Fin 16) (stamp stable : Nat) (falling : Bool), s.awake 2 = true ∧ s.caps[c].level = falling
      ∧ s.nn (Obj.cap_filter c) ≤ stable ∧ s.n (Obj.cap_edge c) = 2 ∧ s.n (Obj.cap_filter c) ≠ 0 ∧ s.n (Obj.cap_input c) ≠ 0)
    ∧ (∃ (s : State) (c : Fin 16) (stamp : Nat) (falling : Bool) (r : List (Nat × Bool)), Wf s ∧ s.caps[c].queue = (stamp, falling) :: r
      ∧ s.caps[c].busyUntil ≤ s.now ∧ s.nn (Obj.cap_count c) < 64 ∧ s.flag (Obj.cap_journal c) = false)
    ∧ (∃ (s : State) (c : Fin 16) (seq : Nat), Wf s ∧ s.capAckOk c seq = true)
    ∧ (∃ (s : State) (c : Fin 16) (seq : Nat), s.capAckOk c seq = false) :=
  ⟨⟨State.nums up [(Obj.cap_filter 2, 10)], 2, 5, 9, false, by decide +kernel⟩,
   ⟨State.nums up [(Obj.cap_filter 2, 10), (Obj.cap_edge 2, 2), (Obj.cap_enable 2, 1)], 2, 5, 10, false, by decide +kernel⟩,
   ⟨State.nums up [(Obj.cap_filter 2, 10), (Obj.cap_edge 2, 2), (Obj.cap_input 2, 1)], 2, 5, 10, false, by decide +kernel⟩,
   ⟨{ State.nums up [(Obj.cap_journal 2, 0)] with caps := up.caps.set 2 { queue := [(5, true)] } }, 2, 5, true, [], by unfold Wf; decide +kernel⟩,
   ⟨State.nums up [(Obj.cap_newest_seq 2, 9)], 2, 9, by unfold Wf; decide +kernel⟩,
   ⟨up, 2, 1, by decide +kernel⟩⟩
theorem wit_SelectionCommands :
    (∃ (s : State) (manual : Nat), Wf s)
    ∧ (∃ (s : State) (left : Option (Fin 16)) (tEnd : Nat) (b : Int) (i : Fin 16), s.selT.transition = some (left, tEnd, b) ∧ s.selT.active = some i
      ∧ tEnd ≤ s.now ∧ (s.evalSlot i).fitActive i = true)
    ∧ (∃ (s : State) (left : Option (Fin 16)) (tEnd : Nat) (b : Int) (i : Fin 16), s.selF.transition = some (left, tEnd, b) ∧ s.selF.active = some i
      ∧ tEnd ≤ s.now ∧ (s.evalSlot i).fitActive i = true)
    ∧ (∃ (s : State) (forF : Bool) (left : Option (Fin 16)) (tEnd : Nat) (b : Int) (i : Fin 16), (s.sel forF).transition = some (left, tEnd, b)
      ∧ (s.sel forF).active = some i ∧ tEnd ≤ s.now ∧ (s.evalSlot i).fitActive i = false) :=
  ⟨⟨up, 3, by unfold Wf; decide +kernel⟩,
   ⟨{ slotOf up 1 0 { state := .qualified, qualityReceived := 10 } with selT := { active := some 0, transition := some (none, 5, 0) } }, none, 5, 0,
     0, by decide +kernel⟩,
   ⟨{ slotOf up 1 0 { state := .qualified, qualityReceived := 10 } with selF := { active := some 0, transition := some (none, 5, 0) } }, none, 5, 0,
     0, by decide +kernel⟩,
   ⟨{ up with selT := { active := some 0, transition := some (none, 5, 0) } }, false, none, 5, 0, 0, by decide +kernel⟩⟩
theorem wit_LoopMeasurements :
    (∃ (s : State) (i : Fin 16) (m : Sample) (r : List Sample) (p : Int), s.selT.active = some i ∧ s.slotClass i ≠ .o ∧ s.slots[i].samples = m :: r
      ∧ m.phase = some p)
    ∧ (∃ (s : State) (i : Fin 16), s.selT.active = some i ∧ s.slotClass i = .o)
    ∧ (∃ (s : State) (i : Fin 16), s.selT.active ≠ some i)
    ∧ (∃ (s : State) (i : Fin 16) (y : Int), s.selF.active = some i ∧ s.slots[i].freqLast = some y)
    ∧ (∃ (s : State) (i : Fin 16) (y : Int), s.kind i = 4 ∧ s.slotEnabled i = true ∧ (s.slotFreqMeasure i y).selF.active ≠ some i)
    ∧ (∃ (s : State) (temp : Int), ((s.updateTemp temp).loops[0].state = .holdover ∨ (s.updateTemp temp).loops[0].state = .freeRun)
      ∧ (s.updateTemp temp).updateAssist.hold.assist = none ∧ (s.updateTemp temp).updateAssist.hold.usable = true) :=
  ⟨⟨{ slotOf up 2 1 { samples := [{ stamp := 9, carried := 0, phase := some 7 }] } with selT := { active := some 0 } }, 0,
  { stamp := 9, carried := 0, phase := some 7 }, [], 7, by decide +kernel⟩,
   ⟨{ slotOf up 7 0 {} with selT := { active := some 0 } }, 0, by decide +kernel⟩,
   ⟨up, 3, by decide +kernel⟩,
   ⟨{ slotOf up 2 1 { freqs := [(10000000000000, 5)] } with selF := { active := some 0 } }, 0, 5, by decide +kernel⟩,
   ⟨slotOf up 4 1 {}, 0, 5, by decide +kernel⟩,
   ⟨{ up with hold := { up.hold with model := .valid } }, 2500, by decide +kernel⟩⟩
theorem wit_OscillatorModel :
    (∃ (s : State) (x : Int), Wf s ∧ s.n Obj.osc_monitor_limit * 1000000 < x.natAbs)
    ∧ (∃ (s : State) (x : Int), Wf s ∧ x.natAbs ≤ s.n Obj.osc_monitor_limit * 1000000)
    ∧ (∃ s : State, Wf s)
    ∧ (∃ s : State, s.keep.mainGood = true)
    ∧ (∃ (s : State) (temp : Int), (s.updateTemp temp).loops[0].state = .locked ∧ (s.updateTemp temp).selT.transition = none
      ∧ (s.updateTemp temp).hold.model ≠ .frozen ∧ (s.updateTemp temp).disputes = [])
    ∧ (∃ s : State, Wf s ∧ s.efcMay = true ∧ s.n Obj.efc_gain < 0 ∧ 0 < s.predictedOffset ∧ s.nn Obj.efc_code + 1 < 2 ^ s.nn Obj.efc_bits)
    ∧ (∃ s : State, s.hold.efcPending.filter (fun p => p.1 ≤ s.now) ≠ []) :=
  ⟨⟨up, 10 ^ 18, by unfold Wf; decide +kernel⟩,
   ⟨up, 0, by unfold Wf; decide +kernel⟩,
   ⟨up, by unfold Wf; decide +kernel⟩,
   ⟨up, by decide +kernel⟩,
   ⟨{ up with loops := up.loops.set 0 { state := .locked } }, 2500, by decide +kernel⟩,
   ⟨{ State.nums up [(Obj.efc_enable, 1), (Obj.efc_gain, -1000)] with hold := { up.hold with model := .valid, y0 := 10 ^ 15, t0 := up.now } },
     by unfold Wf; decide +kernel⟩,
   ⟨{ up with hold := { up.hold with efcPending := [(5, 1)] } }, by decide +kernel⟩⟩
theorem wit_OutputCommands_1 :
    (∃ (s : State) (n : Fin 20) (pad : Option Int) (t : Rat), s.awake 2 = true ∧ s.outs[n].fn = s.nn (Obj.out_function n)
      ∧ s.outs[n].loop = s.nn (Obj.out_loop n) ∧ s.outs[n].nextRaw = none ∧ s.outs[n].next = some t ∧ s.edgeStamp n t ≤ s.stamp ∧ s.holdCause n = none
      ∧ s.n (Obj.out_state n) ≠ 1)
    ∧ (∃ (s : State) (n : Fin 20) (pad : Option Int) (t : Rat), s.awake 2 = true ∧ s.outs[n].fn = s.nn (Obj.out_function n)
      ∧ s.outs[n].loop = s.nn (Obj.out_loop n) ∧ s.outs[n].nextRaw = none ∧ s.outs[n].next = some t ∧ s.edgeStamp n t ≤ s.stamp ∧ s.holdCause n = none
      ∧ s.n (Obj.out_state n) = 1)
    ∧ (∃ (s : State) (n : Fin 20) (pad : Option Int) (r : Rat), s.awake 2 = true ∧ s.outs[n].fn = s.nn (Obj.out_function n)
      ∧ s.outs[n].loop = s.nn (Obj.out_loop n) ∧ s.outs[n].nextRaw = some r ∧ r ≤ s.stamp ∧ s.outs[n].fn ≠ 0)
    ∧ (∃ (s : State) (n : Fin 20) (pad : Option Int) (t : Rat), s.outs[n].fn = s.nn (Obj.out_function n) ∧ s.outs[n].loop = s.nn (Obj.out_loop n)
      ∧ s.outs[n].nextRaw = none ∧ s.outs[n].next = some t ∧ s.stamp < s.edgeStamp n t)
    ∧ (∃ (s : State) (n : Fin 20) (pad : Option Int), s.awake 2 = true
      ∧ (s.outs[n].fn ≠ s.nn (Obj.out_function n) ∨ s.outs[n].loop ≠ s.nn (Obj.out_loop n)) ∧ s.outs[n].activeUntil ≤ s.stamp)
    ∧ (∃ (s : State) (n : Fin 20) (t : Rat), s.outs[n].next = some t ∧ s.outs[n].jump = true ∧ s.edgeStamp n t ≤ s.stamp)
    ∧ (∃ (s : State) (n : Fin 20) (time : Nat), (time = 0 ∨ s.time + 65536000000 ≤ time) ∧ s.n (Obj.start_time n) = 0)
    ∧ (∃ (s : State) (n : Fin 20) (time : Nat), time ≠ 0 ∧ (time : Int) < s.time + 65536000000) :=
  ⟨⟨{ State.nums seeded [(Obj.out_state 4, 2), (Obj.out_function 4, 1)] with outs := up.outs.set 4 { next := some 0, fn := 1 } }, 4, none, 0,
  by decide +kernel⟩,
   ⟨{ State.nums seeded [(Obj.out_state 4, 1), (Obj.out_function 4, 1)] with outs := up.outs.set 4 { next := some 0, fn := 1 } }, 4, none, 0,
     by decide +kernel⟩,
   ⟨{ State.nums up [(Obj.out_function 4, 2)] with outs := up.outs.set 4 { nextRaw := some 0, fn := 2 } }, 4, none, 0, by decide +kernel⟩,
   ⟨{ State.nums seeded [(Obj.out_function 4, 1)] with outs := up.outs.set 4 { next := some (10 ^ 30), fn := 1 } }, 4, none, 10 ^ 30,
     by decide +kernel⟩,
   ⟨{ State.nums seeded [(Obj.out_function 4, 1)] with outs := up.outs.set 4 { next := some 0, fn := 2 } }, 4, none, by decide +kernel⟩,
   ⟨{ up with outs := up.outs.set 4 { next := some 0, fn := 1, jump := true } }, 4, 0, by decide +kernel⟩,
   ⟨seeded, 4, 0, by decide +kernel⟩,
   ⟨seeded, 4, 1, by decide +kernel⟩⟩
theorem wit_OutputCommands_2 :
    (∃ (s : State) (n : Fin 20) (time : Nat), (time = 0 ∨ s.time + 65536000000 ≤ time) ∧ s.n (Obj.start_time n) ≠ 0 ∧ s.outs[n].fn = 7
      ∧ s.nn (Obj.start_count n) ≠ 0)
    ∧ (∃ (s : State) (n : Fin 20) (d : Int), Wf s ∧ s.n (Obj.out_state n) = 2 ∧ 64 ≤ s.outs[n].padFirst.length ∧ (∀ a, s.outs[n].padAt = some a
      → a + 1250000000 ≤ s.now))
    ∧ (∃ (s : State) (n : Fin 20) (d : Option Int) (a : Nat), s.outs[n].padAt = some a ∧ s.now < a + 1250000000)
    ∧ (∃ (s : State) (n : Fin 20) (d : Int), Wf s ∧ s.n (Obj.out_state n) = 4 ∧ 64 ≤ s.outs[n].padFirst.length ∧ (∀ a, s.outs[n].padAt = some a
      → a + 1250000000 ≤ s.now)) :=
  ⟨⟨{ State.nums seeded [(Obj.start_time 4, 1), (Obj.start_count 4, 2)] with outs := up.outs.set 4 { fn := 7 } }, 4, 0, by decide +kernel⟩,
   ⟨{ State.nums up [(Obj.out_state 4, 2)] with outs := up.outs.set 4 { padFirst := List.replicate 64 0 } }, 4, 3, by unfold Wf; decide +kernel⟩,
   ⟨{ State.nums up [(Obj.out_state 4, 2)] with outs := up.outs.set 4 { padFirst := List.replicate 64 0, padAt := some up.now } }, 4, some 3, up.now,
     by decide +kernel⟩,
   ⟨{ State.nums up [(Obj.out_state 4, 4)] with outs := up.outs.set 4 { padFirst := List.replicate 64 0 } }, 4, 3, by unfold Wf; decide +kernel⟩⟩
/-- Bring-up step `k` under way. -/
def atK (k : Nat) : State := { up with mode := {}, sys := { step := k } }
/-- CELLAR by command. -/
def cellar : State := { up with mode := { cur := .cellar, cellarIdled := true } }
/-- SPARGE. -/
def sparge : State := { up with mode := { cur := .sparge, bringupDone := true, spargeDeadline := some 5 } }
/-- The public key of the private scalar 1 on secp384r1. -/
def unitKey : Bytes := 4 :: (beNat 48 (curveG 2).1 ++ beNat 48 (curveG 2).2)
/-- A firmware image of the layout of R393, security version 0, key 0, one byte of payload: header and payload, then the signature
by the scalar 1 with the secret number 1. -/
def imageHead : Bytes := [0x53, 0x46, 0x57, 0x31, 1, 0, 0, 0] ++ List.replicate 8 0 ++ [0, 0, 0, 1] ++ List.replicate 45 0
def imageSig : Bytes := beNat 48 (curveG 2).1
  ++ beNat 48 0x6F0799D93F543AD05ACB7AD494537CB67A167A378E8F2EE7D06BDB17C2970B3CB2573F52009D2E3D29277D96ED1A5449
def image0 : Bytes := imageHead ++ imageSig
theorem image0_signed : sigVerify 1 unitKey (image0.take (64 + fwLength image0)) (field image0 (64 + fwLength image0) 96) = true := by
  decide +kernel
/-- Its key is one of the boot ROM, not revoked, and the security floor is 0. -/
def Accepted : Prop := Config.firmwareRevoked 0 = false ∧ Config.firmwareKey 0 = unitKey ∧ up.get Obj.security_floor = .num 0
theorem accepted_cause (s : State) (h : Accepted) (f : s.get Obj.security_floor = up.get Obj.security_floor) : s.fwCause image0 = 0 := by
  obtain ⟨h1, h2, h3⟩ := h
  have k : fieldN image0 5 1 = 0 := by decide +kernel
  have l : fwLayoutOk image0 = true := by decide +kernel
  have m : fwSecurity image0 = 0 := by decide +kernel
  simp [State.fwCause, State.nn, State.n, k, l, m, h1, h2, h3, f, image0_signed]
theorem none_fst {α β : Type} : ∀ p : Option α × β, p.1.isNone = true → p = (none, p.2)
  | (none, _), _ => rfl
def bare0 : State := { atK 4 with flash := { imageA := [], imageB := [] } }
def boot0 : State := { atK 4 with flash := { imageA := image0 } }
theorem get_of_obj (s t : State) (h : s.obj = t.obj) (k : Nat) : s.get k = t.get k := by unfold State.get; rw [h]
/-- A state whose spare bank holds it. -/
def spare0 : State := { up with flash := { imageB := image0 } }
theorem spare0_bank : spare0.nn Obj.fw_running_bank = 0 := by decide +kernel
theorem spare0_cause (h : Accepted) : spare0.fwCause (spare0.flash.image (1 - spare0.nn Obj.fw_running_bank)) = 0 := by
  rw [spare0_bank]
  exact accepted_cause spare0 h (get_of_obj spare0 up rfl Obj.security_floor)
theorem tile_passes (s : State) (r a : Nat) (h : r = 2 ∨ r = 5) : s.tilePasses r a .none = true := by
  obtain rfl | rfl := h <;> simp [State.tilePasses, State.tileFound, State.tileSum]
theorem tile_fails (s : State) (r a : Nat) (h : r = 2 ∨ r = 5) : s.tilePasses r a (.flips [] 1) = false := by
  have k : ∀ x : Nat, (x == x ^^^ 1) = false := fun x => beq_false_of_ne fun h => by
    have := (Nat.xor_assoc x x 1).trans (congrArg _ h.symm)
    simp at this
  obtain rfl | rfl := h <;> simp [State.tilePasses, State.tileFound, State.tileSum, k]
theorem wit_AlignmentCommands_1 :
    (∃ (s : State) (n : Fin 20), Wf s ∧ s.n (Obj.align_mode n) ≠ 0 ∧ s.n (Obj.align_source n) ≠ 0)
    ∧ (∃ (s : State) (n : Fin 20), (s.n (Obj.align_mode n) = 0 ∨ s.n (Obj.align_source n) = 0))
    ∧ (∃ (s : State) (n : Fin 20), Wf s ∧ s.blockFull n = true ∧ (s.n (Obj.align_mode n) = 1 ∨ (s.n (Obj.align_mode n) = 2
      ∧ s.outs[n].align.first = true)) ∧ 0 < s.gridPeriod n s.outs[n].fn)
    ∧ (∃ (s : State) (n : Fin 20), Wf s ∧ s.blockFull n = true ∧ s.n (Obj.align_mode n) = 2 ∧ s.outs[n].align.first = false
      ∧ 0 < s.gridPeriod n s.outs[n].fn)
    ∧ (∃ (s : State) (n : Fin 20), Wf s ∧ s.outs[n].align.on = true ∧ s.blockFull n = false ∧ s.outs[n].align.since + s.alignLimit n ≤ s.now
      ∧ (s.n (Obj.align_mode n) ≠ 2 ∨ s.outs[n].align.first = true))
    ∧ (∃ (s : State) (n : Fin 20), Wf s ∧ s.outs[n].align.on = true ∧ s.blockFull n = false ∧ s.outs[n].align.since + s.alignLimit n ≤ s.now
      ∧ s.n (Obj.align_mode n) = 2 ∧ s.outs[n].align.first = false)
    ∧ (∃ (s : State) (k : Fin 4) (stamp : Nat) (lbl : Int), s.tods[k].edge = some (stamp, lbl)
      ∧ stamp + s.nn (Obj.todout_delay k) * 320000000 ≤ s.stamp ∧ s.n Obj.timing_condition ≠ 0 ∧ s.n (Obj.out_state (s.nn (Obj.todout_output k))) = 2)
    ∧ (∃ (s : State) (k : Fin 4) (stamp : Nat) (lbl : Int), s.tods[k].edge = some (stamp, lbl)
      ∧ stamp + s.nn (Obj.todout_delay k) * 320000000 ≤ s.stamp ∧ s.n Obj.timing_condition = 0) :=
  ⟨⟨State.nums up [(Obj.align_mode 3, 1), (Obj.align_source 3, 1)], 3, by unfold Wf; decide +kernel⟩,
   ⟨State.reset, 3, by decide +kernel⟩,
   ⟨{ State.nums up [(Obj.align_mode 3, 1), (Obj.out_period 3, 1000), (Obj.align_count 3, 1)] with outs := up.outs.set 3 { fn := 1, align := { on := true, diffs := [1] } } },
     3, by unfold Wf; decide +kernel⟩,
   ⟨{ State.nums up [(Obj.align_mode 3, 2), (Obj.out_period 3, 1000), (Obj.align_count 3, 1)] with outs := up.outs.set 3 { fn := 1, align := { on := true, first := false, diffs := [1] } } },
     3, by unfold Wf; decide +kernel⟩,
   ⟨{ State.nums up [(Obj.align_mode 3, 2), (Obj.align_source 3, 1)] with outs := up.outs.set 3 { fn := 1, align := { on := true } } }, 3,
     by unfold Wf; decide +kernel⟩,
   ⟨{ State.nums up [(Obj.align_mode 3, 2), (Obj.align_source 3, 1)] with outs := up.outs.set 3 { fn := 1, align := { on := true, first := false } } },
     3, by unfold Wf; decide +kernel⟩,
   ⟨{ State.nums up [(Obj.timing_condition, 3), (Obj.todout_output 2, 3), (Obj.out_state 3, 2)] with tods := up.tods.set 2 { edge := some (0, 5) } },
     2, 0, 5, by decide +kernel⟩,
   ⟨{ State.nums up [(Obj.timing_condition, 0)] with tods := up.tods.set 2 { edge := some (0, 5) } }, 2, 0, 5, by decide +kernel⟩⟩
theorem wit_AlignmentCommands_2 :
    ∃ (s : State) (g : Segment), s.tb.issued = some g ∧ s.tb.reserved = none ∧ s.tb.running = true ∧ g.start ≤ s.tb.raw * 256 ∧ g.step = true :=
  ⟨{ seeded with tb := { seeded.tb with issued := some { start := 256000, step := true } } }, { start := 256000, step := true }, by decide +kernel⟩
theorem wit_SupplyCommands_1 :
    (∃ (s : State) (vkeep : Bool), s.sys.keepPowered = false)
    ∧ (∃ s : State, s.sys.keepPowered = false)
    ∧ (∃ s : State, s.keep.mainGood = true ∧ s.sys.keepPowered = true ∧ s.keep.vkeep = true)
    ∧ (∃ s : State, s.keep.mainGood = true ∧ s.sys.keepPowered = true ∧ s.keep.vkeep = false)
    ∧ (∃ s : State, s.keep.mainGood = false ∧ s.sys.keepPowered = true)
    ∧ (∃ s : State, s.keep.mainGood = true)
    ∧ (∃ s : State, s.keep.mainGood = false)
    ∧ (∃ (s : State) (mV : Nat), s.keep.mainGood = true ∧ s.awake 6 = true ∧ mV < 65536 ∧ s.n Obj.vkeep_low_limit ≤ mV) :=
  ⟨⟨{ up with sys := { up.sys with keepPowered := false } }, true, by decide +kernel⟩,
   ⟨{ up with sys := { up.sys with keepPowered := false } }, by decide +kernel⟩,
   ⟨up, by decide +kernel⟩,
   ⟨{ up with keep := { mainGood := true, vkeep := false } }, by decide +kernel⟩,
   ⟨{ cellar with keep := { mainGood := false } }, by decide +kernel⟩,
   ⟨up, by decide +kernel⟩,
   ⟨{ cellar with keep := { mainGood := false } }, by decide +kernel⟩,
   ⟨up, 3000, by decide +kernel⟩⟩
theorem wit_SupplyCommands_2 :
    ∃ (s : State) (mV : Nat), s.keep.mainGood = true ∧ s.awake 6 = true ∧ mV < 65536 ∧ (mV : Int) < s.n Obj.vkeep_low_limit :=
  ⟨State.nums up [(Obj.vkeep_low_limit, 2200)], 2199, by decide +kernel⟩
theorem wit_ResetCommands_1 :
    (∃ s : State, s.keep.mainGood = true ∧ s.sys.scope ≠ some 1 ∧ s.sys.scope ≠ some 2)
    ∧ (∃ s : State, s.awake 6 = true ∧ s.sys.scope = none ∧ s.sys.wdAt + ticksMs (s.nn Obj.wd_timeout) ≤ s.now)
    ∧ (∃ (s : State) (r : Nat), s.sys.wdRelease = some r ∧ s.mode.cur ≠ .cellar ∧ r + 2 * ticksMs (s.nn Obj.wd_timeout) ≤ s.now)
    ∧ (∃ s : State, 3 ≤ s.wdRecent.length ∧ s.mode.cur ≠ .cellar)
    ∧ (∃ (s : State) (d : Nat), s.sys.cmd = some (3, d) ∧ d ≤ s.now)
    ∧ (∃ (s : State) (d : Nat), s.sys.cmd = some (2, d) ∧ d ≤ s.now)
    ∧ (∃ s : State, s.mode.cur = .cellar)
    ∧ (∃ s : State, s.keep.mainGood = true ∧ s.mode.cur ≠ .cellar) :=
  ⟨⟨up, by decide +kernel⟩,
   ⟨{ up with sys := { up.sys with wdAt := 0 } }, by decide +kernel⟩,
   ⟨{ up with sys := { up.sys with wdRelease := some 0 } }, 0, by decide +kernel⟩,
   ⟨{ up with sys := { up.sys with wdWarm := [up.now, up.now, up.now] } }, by decide +kernel⟩,
   ⟨{ up with sys := { up.sys with cmd := some (3, 5) } }, 5, by decide +kernel⟩,
   ⟨{ up with sys := { up.sys with cmd := some (2, 5) } }, 5, by decide +kernel⟩,
   ⟨cellar, by decide +kernel⟩,
   ⟨up, by decide +kernel⟩⟩
theorem wit_ResetCommands_2 :
    (∃ (s : State) (temp : Int), s.awake 2 = true ∧ s.sys.warned = false ∧ s.n Obj.thermal_warn_limit < temp)
    ∧ (∃ (s : State) (temp : Int), s.awake 2 = true ∧ s.sys.warned = true ∧ temp ≤ s.n Obj.thermal_warn_limit - 200)
    ∧ (∃ (s : State) (temp : Int), s.awake 2 = true
      ∧ (if s.sys.warned = true then s.n Obj.thermal_warn_limit - 200 < temp else temp ≤ s.n Obj.thermal_warn_limit))
    ∧ (∃ s : State, s.sys.keepClock = false ∧ s.keep.mainGood = true)
    ∧ (∃ s : State, s.sys.keepClock = true ∧ s.keep.mainGood = true)
    ∧ (∃ s : State, s.sys.keepPowered = true ∧ s.keep.mainGood = true ∧ s.nn Obj.fw_staged_status ≠ 1)
    ∧ (∃ s : State, s.sys.keepPowered = true ∧ s.keep.mainGood = true ∧ s.nn Obj.fw_staged_status = 1)
    ∧ (∃ s : State, s.sys.keepPowered = true ∧ s.keep.mainGood = false) :=
  ⟨⟨State.nums up [(Obj.thermal_warn_limit, 11000)], 11001, by decide +kernel⟩,
   ⟨{ State.nums up [(Obj.thermal_warn_limit, 11000)] with sys := { up.sys with warned := true } }, 10800, by decide +kernel⟩,
   ⟨up, 0, by decide +kernel⟩,
   ⟨up, by decide +kernel⟩,
   ⟨{ up with sys := { up.sys with keepClock := true } }, by decide +kernel⟩,
   ⟨up, by decide +kernel⟩,
   ⟨State.nums up [(Obj.fw_staged_status, 1)], by decide +kernel⟩,
   ⟨{ cellar with keep := { mainGood := false } }, by decide +kernel⟩⟩
theorem wit_ResetCommands_3 :
    ∃ (s : State) (k : Fin 32), s.firmwareUp = true ∧ s.flag Obj.tamper_latch = true :=
  ⟨State.nums up [(Obj.tamper_latch, 1)], 3, by decide +kernel⟩
theorem wit_BringUp_1 :
    (∃ (s : State) (b : Fin 8) (o : Fin 4) (diff dukOk : Bool) (tj : Int) (since : Nat), Wf s ∧ (s.sys.scope = some 1 ∨ s.sys.scope = some 2)
      ∧ s.keep.mainGood = true ∧ s.sys.mainSince + ticksMs 2 ≤ s.now ∧ s.sys.oscSince = some since ∧ since + ticksMs 10 ≤ s.now ∧ tj ≤ 10500
      ∧ s.sys.rstnLow = false ∧ s.sys.wrstnLow = false ∧ s.sys.holdUntil ≤ s.now)
    ∧ (∃ (s : State) (b : Fin 8) (o : Fin 4) (diff dukOk : Bool) (tj : Int), s.now < s.sys.holdUntil)
    ∧ (∃ (s : State) (bOk : Bool), s.atStep 1 = true)
    ∧ (∃ s : State, s.atStep 1 = true)
    ∧ (∃ (s : State) (a b : Nat), s.keep.verifyWake = none ∧ s.atStep 3 = true)
    ∧ (Accepted → ∃ (s u : State) (d : Option Bytes) (k : Nat), s.atStep 4 = true ∧ s.bootRevert.nn Obj.boot_source_used = 0
      ∧ s.bootRevert.bootBank = (some k, u))
    ∧ (∃ (s u : State) (d : Option Bytes), s.atStep 4 = true ∧ s.bootRevert.nn Obj.boot_source_used = 0 ∧ s.bootRevert.bootBank = (none, u))
    ∧ (Accepted → ∃ (s : State) (img : Bytes), s.atStep 4 = true ∧ s.bootRevert.nn Obj.boot_source_used ≠ 0 ∧ s.bootRevert.fwCause img = 0) :=
  ⟨⟨{ up with mode := {}, sys := { scope := some 2, oscSince := some 9937500000000 } }, 0, 0, false, true, 10500, 9937500000000,
  by unfold Wf; decide +kernel⟩,
   ⟨{ up with mode := {}, sys := { scope := some 2, holdUntil := 10000000000001 } }, 0, 0, false, true, 2500, by decide +kernel⟩,
   ⟨atK 1, true, by decide +kernel⟩,
   ⟨atK 1, by decide +kernel⟩,
   ⟨atK 3, 8, 8, by decide +kernel⟩,
   fun h => ⟨boot0, boot0, none, 0, by decide +kernel, by decide +kernel,
     by rw [show boot0.bootRevert = boot0 from rfl, State.bootBank]; exact if_pos (accepted_cause boot0 h rfl)⟩,
   ⟨bare0, bare0.bootRevert.bootBank.2, none, by decide +kernel, by decide +kernel, none_fst _ (by decide +kernel)⟩,
   fun h => ⟨State.nums (atK 4) [(Obj.boot_source_used, 1)], image0, by decide +kernel, by decide +kernel,
     accepted_cause _ h (State.get_put_ne (atK 4) (a := Obj.security_floor) (b := Obj.boot_source_used) (.num 1) (by decide +kernel))⟩⟩
theorem wit_BringUp_2 :
    (∃ s : State, s.atStep 4 = true ∧ s.bootRevert.nn Obj.boot_source_used ≠ 0)
    ∧ (∃ (s : State) (fail : Fin 16) (cap ms : Nat), Wf s ∧ s.atStep 6 = true ∧ cap < 2 ^ 32)
    ∧ (∃ s : State, s.atStep 9 = true)
    ∧ (∃ s : State, s.atStep 10 = true)
    ∧ (∃ s : State, s.domState 3 = 1) :=
  ⟨⟨State.nums (atK 4) [(Obj.boot_source_used, 1)], by decide +kernel⟩,
   ⟨atK 6, 0, 100, 5, by unfold Wf; decide +kernel⟩,
   ⟨{ State.nums (atK 9) [(Obj.dram_state, 2)] with sec := { up.sec with storageOff := true } }, by decide +kernel⟩,
   ⟨State.nums (atK 10) [(Obj.steep_hold, 1)], by decide +kernel⟩,
   ⟨(atK 10).putN (Obj.domain_state 2) 1, by decide +kernel⟩⟩
theorem wit_WarmRelease :
    (∃ s : State, s.sys.scope = some 3 ∧ s.sys.holdUntil ≤ s.now ∧ s.sys.wrstnLow = false)
    ∧ (∃ s : State, s.sys.scope = some 3 ∧ s.now < s.sys.holdUntil)
    ∧ (∃ (s : State) (w : Nat), s.sys.warmAt = some w ∧ 5 ≤ s.sys.warmStage)
    ∧ (∃ (s : State) (w : Nat), s.sys.servedAt = some w ∧ w + 625000000 ≤ s.now)
    ∧ (∃ (s : State) (w : Nat), s.sys.servedAt = some w ∧ s.now < w + 625000000) :=
  ⟨⟨{ up with sys := { up.sys with scope := some 3 } }, by decide +kernel⟩,
   ⟨{ up with sys := { up.sys with scope := some 3, holdUntil := 10000000000001 } }, by decide +kernel⟩,
   ⟨{ up with sys := { up.sys with warmAt := some 5, warmStage := 5 } }, 5, by decide +kernel⟩,
   ⟨{ up with sys := { up.sys with servedAt := some 9999375000000 } }, 9999375000000, by decide +kernel⟩,
   ⟨{ up with sys := { up.sys with servedAt := some 9999375000001 } }, 9999375000001, by decide +kernel⟩⟩
theorem wit_BlockAndCrossingCommands_1 :
    (∃ (s : State) (code : Nat) (force : Bool), Wf s ∧ s.firmwareUp = true ∧ blockKnown code = true ∧ s.awake (blockDomain code) = true
      ∧ s.sys.block = none ∧ (code / 256 ≠ 2 ∨ s.serve.pairs[blockPair code].state ≠ 0))
    ∧ (∃ (s : State) (code : Nat) (force : Bool), Wf s ∧ s.firmwareUp = true ∧ blockKnown code = true ∧ s.awake (blockDomain code) = true
      ∧ s.sys.block = none ∧ code / 256 = 2 ∧ s.serve.pairs[blockPair code].state = 0)
    ∧ (∃ (s : State) (b : BlockReq), s.sys.block = some b ∧ s.blockIdle b = true ∧ (∀ g, b.expected = some g → s.n Obj.generation = (g : Int)))
    ∧ (∃ (s : State) (b : BlockReq) (g : Nat), s.sys.block = some b ∧ s.blockIdle b = true ∧ b.expected = some g ∧ s.n Obj.generation ≠ (g : Int))
    ∧ (∃ (s : State) (b : BlockReq), s.sys.block = some b ∧ s.blockIdle b = false)
    ∧ (∃ (s : State) (b : BlockReq) (lost : Nat), Wf s)
    ∧ (∃ (s : State) (b : BlockReq) (status : Nat), Wf s)
    ∧ (∃ (s : State) (b : BlockReq), s.sys.block = some b ∧ s.blockIdle b = false ∧ b.force = false
      ∧ b.since + ticksMs (s.nn Obj.quiesce_timeout) ≤ s.now) :=
  ⟨⟨up, 0x0400, false, by unfold Wf; decide +kernel⟩,
   ⟨up, 0x0201, false, by unfold Wf; decide +kernel⟩,
   ⟨{ up with sys := { up.sys with block := some { code := 0x0300, force := false, since := 0, aes := 0 } } },
     { code := 0x0300, force := false, since := 0, aes := 0 }, by decide +kernel⟩,
   ⟨{ up with sys := { up.sys with block := some { code := 0x0300, force := false, since := 0, aes := 0, expected := some 7 } } },
     { code := 0x0300, force := false, since := 0, aes := 0, expected := some 7 }, 7, by decide +kernel⟩,
   ⟨{ up with sys := { up.sys with block := some { code := 0x0300, force := false, since := 0, aes := 2 } } },
     { code := 0x0300, force := false, since := 0, aes := 2 }, by decide +kernel⟩,
   ⟨up, { code := 0x0300, force := false, since := 0, aes := 0, expected := none }, 3, by unfold Wf; decide +kernel⟩,
   ⟨up, { code := 0x0300, force := false, since := 0, aes := 0, expected := none }, 22, by unfold Wf; decide +kernel⟩,
   ⟨{ up with sys := { up.sys with block := some { code := 0x0300, force := false, since := 0, aes := 2 } } },
     { code := 0x0300, force := false, since := 0, aes := 2 }, by decide +kernel⟩⟩
theorem wit_BlockAndCrossingCommands_2 :
    (∃ (s : State) (b : BlockReq), s.sys.block = some b ∧ s.blockIdle b = false ∧ b.force = true
      ∧ b.since + ticksMs (s.nn Obj.quiesce_timeout) ≤ s.now ∧ (∀ g, b.expected = some g → s.n Obj.generation = (g : Int)))
    ∧ (∃ (s : State) (a b d : Nat), 1 ≤ a ∧ a ≤ 8 ∧ 1 ≤ b ∧ b ≤ 8 ∧ crossCapacity a b ≠ 0
      ∧ (s.sys.resync.contains a = true ∨ s.sys.resync.contains b = true) ∧ s.domState a ≠ 3 ∧ s.domState b ≠ 3
      ∧ s.sys.resynced.contains (a * 256 + b) = false ∧ s.sys.resynced.contains (b * 256 + a) = false ∧ d ≠ 0 ∧ d ≤ s.inFlight a b)
    ∧ (∃ (s : State) (a b : Nat), 1 ≤ a ∧ a ≤ 8 ∧ 1 ≤ b ∧ b ≤ 8 ∧ crossCapacity a b ≠ 0
      ∧ (s.sys.resync.contains a = true ∨ s.sys.resync.contains b = true) ∧ s.domState a ≠ 3 ∧ s.domState b ≠ 3
      ∧ s.sys.resynced.contains (a * 256 + b) = false ∧ s.sys.resynced.contains (b * 256 + a) = false)
    ∧ (∃ (s : State) (a b : Nat) (p : Option (Fin 4)), s.awake a = true ∧ a < 256 ∧ b < 256 ∧ requestCrossing a b = true) :=
  ⟨⟨{ up with sys := { up.sys with block := some { code := 0x0300, force := true, since := 0, aes := 2 } } },
  { code := 0x0300, force := true, since := 0, aes := 2 }, by decide +kernel⟩,
   ⟨{ up with sys := { up.sys with resync := [5] } }, 5, 6, 3, by decide +kernel⟩,
   ⟨{ up with sys := { up.sys with resync := [5] } }, 5, 6, by decide +kernel⟩,
   ⟨up, 6, 4, none, by decide +kernel⟩⟩
theorem wit_CommandedModes_1 :
    (∃ s : State, s.firmwareUp = true ∧ s.spargeOk = true)
    ∧ (∃ (s : State) (r : Bool), s.firmwareUp = false)
    ∧ (∃ (s : State) (d : Nat), s.mode.spargeDeadline = some d ∧ d ≤ s.now)
    ∧ (∃ (s : State) (d : Nat), s.mode.spargeDeadline = some d ∧ s.now < d)
    ∧ (∃ s : State, s.firmwareUp = true ∧ s.kilnMode = true ∧ s.nn Obj.debug_state ≠ 0)
    ∧ (∃ s : State, s.nn Obj.debug_state = 0)
    ∧ (∃ s : State, s.firmwareUp = true ∧ s.cellarOk = true)
    ∧ (∃ s : State, s.idled = true ∧ s.keep.coarseValid = true ∧ s.keep.wakeTime ≠ 0 ∧ s.keep.wakeTime ≤ s.coarseNow) :=
  ⟨⟨up, by decide +kernel⟩,
   ⟨State.reset, true, by decide +kernel⟩,
   ⟨sparge, 5, by decide +kernel⟩,
   ⟨{ sparge with mode := { sparge.mode with spargeDeadline := some 10000000000001 } }, 10000000000001, by decide +kernel⟩,
   ⟨{ State.nums up [(Obj.debug_state, 1)] with mode := { bringupDone := true } }, by decide +kernel⟩,
   ⟨State.reset, by decide +kernel⟩,
   ⟨up, by decide +kernel⟩,
   ⟨{ cellar with keep := { mainGood := true, coarseValid := true, wakeTime := 1, coarse := 1 - Config.keepDrift 0 cellar.now } }, by decide +kernel,
     rfl, by decide, by rw [State.coarseNow, show rneDiv _ 5 = 524288000000000000 from by decide +kernel]; simp only; omega⟩⟩
theorem wit_CommandedModes_2 :
    (∃ (s : State) (d : Nat), s.idled = true ∧ s.keep.verifyDue = some d ∧ d ≤ s.now ∧ s.keep.verifyWake = none)
    ∧ (∃ (s : State) (since r0 first : Nat) (f u c : Int), s.keep.verifyWake = some since ∧ s.sky.grist.fix = some (f, u, first)
      ∧ s.keep.verifySample = some (c, r0) ∧ ((c + rneDiv (((first : Int) - r0) * 1024) 5 - f).natAbs : Int) ≤ (s.coarseUnc + u) * 65536)
    ∧ (∃ (s : State) (since r0 first : Nat) (f u c : Int), s.keep.verifyWake = some since ∧ s.sky.grist.fix = some (f, u, first)
      ∧ s.keep.verifySample = some (c, r0) ∧ (s.coarseUnc + u) * 65536 < ((c + rneDiv (((first : Int) - r0) * 1024) 5 - f).natAbs : Int))
    ∧ (∃ (s : State) (since : Nat), s.keep.verifyWake = some since ∧ s.sky.grist.fix = none ∧ since + 6250000000 ≤ s.now) :=
  ⟨⟨{ cellar with keep := { mainGood := true, verifyDue := some 5 } }, 5, by decide +kernel⟩,
   ⟨{ cellar with keep := { mainGood := true, verifyWake := some 5, verifySample := some (1000, 7) }, sky := { up.sky with grist := { up.sky.grist with fix := some (1000, 10, 7) } } },
     5, 7, 7, 1000, 10, 1000, by decide +kernel⟩,
   ⟨{ cellar with keep := { mainGood := true, verifyWake := some 5, verifySample := some (1000, 7) }, sky := { up.sky with grist := { up.sky.grist with fix := some (10 ^ 24, 10, 7) } } },
     5, 7, 7, 10 ^ 24, 10, 1000, by decide +kernel⟩,
   ⟨{ cellar with keep := { mainGood := true, verifyWake := some 5 } }, 5, by decide +kernel⟩⟩
theorem wit_FirmwareAndDebug_1 :
    (Accepted → ∃ s : State, s.firmwareUp = true ∧ s.fwCause (s.flash.image (1 - s.nn Obj.fw_running_bank)) = 0)
    ∧ (∃ s : State, s.firmwareUp = true ∧ s.fwCause (s.flash.image (1 - s.nn Obj.fw_running_bank)) ≠ 0)
    ∧ (∃ s : State, s.firmwareUp = true ∧ s.canActivate = true)
    ∧ (∃ s : State, s.canActivate = false)
    ∧ (∃ (s : State) (since : Nat), Wf s ∧ s.sys.activation = some since ∧ s.mode.spargeExit = none)
    ∧ (∃ s : State, s.firmwareUp = true)
    ∧ (∃ (s : State) (r : Bytes), s.firmwareUp = true)
    ∧ (∃ (s : State) (c : Bytes) (since : Nat), s.sec.challenge = some (c, since) ∧ since + 375000000000 ≤ s.now) :=
  ⟨fun h => ⟨spare0, by decide +kernel, spare0_cause h⟩,
   ⟨{ up with flash := { imageA := [], imageB := [] } }, by decide +kernel⟩,
   ⟨State.nums sparge [(Obj.fw_staged_status, 3)], by decide +kernel⟩,
   ⟨up, by decide +kernel⟩,
   ⟨{ sparge with sys := { sparge.sys with activation := some 5 } }, 5, by unfold Wf; decide +kernel⟩,
   ⟨up, by decide +kernel⟩,
   ⟨up, [1], by decide +kernel⟩,
   ⟨{ up with sec := { up.sec with challenge := some ([1], 5) } }, [1], 5, by decide +kernel⟩⟩
theorem wit_FirmwareAndDebug_2 :
    ∃ (s : State) (c : Bytes) (since : Nat), s.sec.challenge = some (c, since) ∧ s.now < since + 375000000000 :=
  ⟨{ up with sec := { up.sec with challenge := some ([1], 9999999999999) } }, [1], 9999999999999, by decide +kernel⟩
theorem wit_TileCommands_1 :
    (∃ (s : State) (region : Nat) (addr : BitVec 64) (f : TileFault) (h : TileHolds), 1 ≤ region ∧ region ≤ 10 ∧ region ≠ 1 ∧ region ≠ 5 ∧ region ≠ 7
      ∧ s.awake (regionDomain region) = true ∧ s.tilePasses region addr.toNat f = true)
    ∧ (∃ (s : State) (dram : Bool), (if dram then s.mem.patrolDram else s.mem.patrolSram) ≤ s.now)
    ∧ (∃ (s : State) (region : Nat) (addr : BitVec 64) (f : TileFault) (h : TileHolds), 1 ≤ region ∧ region ≤ 10 ∧ region ≠ 1 ∧ region ≠ 5
      ∧ region ≠ 7 ∧ s.awake (regionDomain region) = true ∧ s.tilePasses region addr.toNat f = false)
    ∧ (∃ (s : State) (addr : BitVec 64) (f : TileFault) (h : TileHolds), s.awake (regionDomain 5) = true ∧ s.tilePasses 5 addr.toNat f = true)
    ∧ (∃ (s : State) (addr : BitVec 64) (f : TileFault) (h : TileHolds), s.awake (regionDomain 5) = true ∧ s.tilePasses 5 addr.toNat f = false)
    ∧ (∃ (u : MemUnits) (sp x : Nat) (b : Bytes), (u.sums sp).Pairwise (fun p q => p.1 < q.1) ∧ ∃ k, k ∈ tilesOf x b.length)
    ∧ (∃ (u : MemUnits) (sp x : Nat) (b : Bytes) (k : Nat), k ∉ tilesOf x b.length)
    ∧ (∃ (s : State) (region : Nat) (addr : BitVec 64) (x : BadTile),
      s.mem.tiles.find? (fun y => y.region == region && y.addr / 256 == tileOffset addr.toNat / 256) = some x ∧ x.freed = false ∧ x.retired = false
      ∧ x.again = false) :=
  ⟨⟨up, 2, 256, .none, .plain, by exact ⟨by decide, by decide, by decide, by decide, by decide, by decide +kernel, tile_passes _ _ _ (.inl rfl)⟩⟩,
   ⟨up, true, by decide +kernel⟩,
   ⟨up, 2, 256, .flips [] 1, .plain, by exact ⟨by decide, by decide, by decide, by decide, by decide, by decide +kernel, tile_fails _ _ _ (.inl rfl)⟩⟩,
   ⟨up, 256, .none, .plain, by exact ⟨by decide +kernel, tile_passes _ _ _ (.inr rfl)⟩⟩,
   ⟨up, 256, .flips [] 1, .plain, by exact ⟨by decide +kernel, tile_fails _ _ _ (.inr rfl)⟩⟩,
   ⟨up.mem, 0, 256, [1], by exact ⟨by decide +kernel, 1, by decide +kernel⟩⟩,
   ⟨up.mem, 0, 256, [1], 5, by decide +kernel⟩,
   ⟨{ up with mem := { up.mem with tiles := [{ region := 2, addr := 256, since := 0 }] } }, 2, 256, { region := 2, addr := 256, since := 0 },
     by decide +kernel⟩⟩
theorem wit_TileCommands_2 :
    ∃ (s : State) (region : Nat) (addr : BitVec 64) (x : BadTile),
      s.mem.tiles.find? (fun y => y.region == region && y.addr / 256 == tileOffset addr.toNat / 256) = some x ∧ x.freed = false ∧ x.retired = false
      ∧ x.again = true ∧ s.retiredIn region < 256 :=
  ⟨{ up with mem := { up.mem with tiles := [{ region := 2, addr := 256, since := 0, again := true }] } }, 2, 256,
    { region := 2, addr := 256, since := 0, again := true }, by decide +kernel⟩
/-- A tracker of channel 7. -/
def trkOf (s : State) (b : Fin 2) (x : Tracker) : State :=
  { s with sky := { s.sky with channels := s.sky.channels.set 7 { s.sky.channels[7] with sat := 257, trk := s.sky.channels[7].trk.set b x } } }
/-- An ephemeris of satellite 257 with reference time now. -/
def eph : Bytes := orbRecord 1 257 1 0 0 1525882 []
def aidS : State :=
  { trkOf (State.nums seeded [(Obj.timing_condition, 2), (Obj.position_mode, 1), (Obj.ref_uncertainty, 0)]) 0 { st := .track, signal := 1 } with
    sky := { (trkOf seeded 0 { st := .track, signal := 1 }).sky with orbit := [(0, eph)] } }
theorem aid_finds (n : Nat) : aidS.orbitFor 1 257 n = some eph := by
  have h : (orbRef eph : Int) - aidS.taiSeconds = 0 := by decide +kernel
  have k : (orbKind eph == 1) = true := by decide +kernel
  have m : (orbSat eph == 257) = true := by decide +kernel
  have o : aidS.sky.orbit = [(0, eph)] := rfl
  simp [State.orbitFor, o, h, k, m]
theorem aid_resolves : aidS.aidedBy 257 1 = some (orbContent eph, (0, 0, 0)) := by
  have h : aidS.positionAid = some ((0, 0, 0), 0) := by decide +kernel
  have k : aidS.timeAidUnc = some 0 := by decide +kernel
  simp [State.aidedBy, State.ephemeris, aid_finds, h, k, codePeriodNs, codePeriodMs, signalRow]
/-- Four satellites with usable records and ephemerides at a fixed position, `k` fixes of which lay too far from it. -/
def fixS (k : Nat) : State :=
  let sats : List (Fin 256 × Nat) := [(0, 257), (1, 258), (2, 259), (3, 260)]
  { State.nums seeded [(Obj.position_mode, 1), (Obj.move_limit, 10), (Obj.band_state 0, 1)] with
    sky := { seeded.sky with
      departs := k
      channels := sats.foldl (fun v p => v.set p.1 { sat := p.2, elev := 4500 }) seeded.sky.channels
      orbit := sats.map fun p => (p.1, orbRecord 1 p.2 1 0 0 1525882 [])
      recs := sats.map fun p => { channel := p.1, band := 0, sat := p.2, signal := 1, st := .ready, flags := 32768, tau := 100000000000000000000, p := 5000000000, phi := 0, dop := 0, cn0 := 4500, lockMs := 1000, dNotch := 0 } } }
theorem fix_limit0 : (fixS 0).nn Obj.move_limit = 10 := by decide +kernel
theorem fix_limit4 : (fixS 4).nn Obj.move_limit = 10 := by decide +kernel
/-- Port 3 with its link up. -/
def link3 (l : List (Nat × Int)) : State := State.nums seeded ([(Obj.port_enable 3, 1), (Obj.port_speed 3, 3), (Obj.link_state 3, 3), (Obj.an_enable 3, 0)] ++ l)
/-- Stamps of `n` edges at even distances. -/
def evenStamps (n : Nat) : List Nat := (List.range n).map (· * 1000)
theorem even_length (n : Nat) : (evenStamps n).length = n := by simp [evenStamps]
theorem even_head (n : Nat) : (evenStamps n).headD 0 = 0 := by cases n <;> simp [evenStamps, List.range_succ_eq_map]
theorem even_diff (n : Nat) : (evenStamps n).map (fun x : Nat => (x : Int) - ((0 : Nat) : Int)) = (List.range n).map fun i : Nat => (1000 * i : Int) := by
  simp only [evenStamps, List.map_map]; congr 1; funext i; simp; ring
theorem even_zip (n : Nat) : (List.range n).zip ((List.range n).map fun i : Nat => (1000 * i : Int)) = (List.range n).map fun i : Nat => (i, (1000 * i : Int)) := by
  induction n with
  | zero => rfl
  | succ n ih => simp [List.range_succ, List.zip_append, ih]
theorem even_sum (n : Nat) : 2 * ((List.range n).map fun i : Nat => (1000 * i : Int)).sum = 1000 * (n * (n - 1)) := by
  induction n with
  | zero => rfl
  | succ n ih => simp only [List.range_succ, List.map_append, List.sum_append, List.map_cons, List.map_nil, List.sum_singleton, mul_add, ih]; push_cast; ring
theorem even_squares (n : Nat) : 6 * ((List.range n).map fun i : Nat => (i, (1000 * i : Int))).foldl (fun (a : Int) p => a + p.1 * p.2) 0 = 1000 * (n * (n - 1) * (2 * n - 1)) := by
  induction n with
  | zero => rfl
  | succ n ih => simp only [List.range_succ, List.map_append, List.foldl_append, List.map_cons, List.map_nil, List.foldl_cons, List.foldl_nil, mul_add, ih]; push_cast; ring
theorem even_good (n : Nat) (h : n = 4096) : (stampLine (evenStamps n)).good = true := by
  have a := even_sum n
  have b := even_squares n
  have sy : ((List.range n).map fun i : Nat => (1000 * i : Int)).sum = 8386560000 := by rw [h] at a ⊢; norm_num at a ⊢; omega
  have sq : ((List.range n).map fun i : Nat => (i, (1000 * i : Int))).foldl (fun (a : Int) p => a + p.1 * p.2) 0 = 22898104320000 := by subst h; norm_num at b ⊢; omega
  simp only [stampLine, StampLine.good, even_length, even_head, even_diff, even_zip, sy, sq]
  simp only [h, Bool.and_eq_true, decide_eq_true_eq, List.all_map, List.all_eq_true, List.mem_range]
  refine ⟨by norm_num, fun i hi => ?_⟩
  norm_num
  omega
/-- The 4095 stamps after the first of 4096. -/
def laterStamps : List Nat := (evenStamps 4096).tail
theorem later_cons : 0 :: laterStamps = evenStamps 4096 := by
  have h := even_length 4096
  have k := even_head 4096
  unfold laterStamps
  generalize evenStamps 4096 = l at h k
  cases l with
  | nil => simp at h
  | cons a l => simp at k; simp [k]
theorem later_length : laterStamps.length = 4095 := by simp [laterStamps, even_length]
theorem later_last : laterStamps.getLast?.getD 0 ≤ (link3 [(Obj.rx_sentinel_state 3, 1)]).stamp := by decide +kernel
theorem later_good : (stampLine (0 :: laterStamps)).good = true := by rw [later_cons]; exact even_good 4096 rfl
/-- A frame of 60 zero octets with its FCS. -/
def frame60 : Bytes := List.replicate 60 0 ++ fcs (List.replicate 60 0)
/-- A calibration frame without its FCS. -/
def calOctets : Bytes := [1, 0x80, 0xC2, 0, 0, 0x0E] ++ List.replicate 6 2 ++ [0x88, 0xB5, 0x53, 0x43] ++ List.replicate 44 0
/-- A broadcast of the out-of-line port. -/
def oolHead : Bytes := List.replicate 6 0xFF ++ List.replicate 6 2 ++ [8, 0, 0x45, 0, 0, 46, 0, 0, 0, 0, 64, 17] ++ List.replicate 10 0
  ++ [0x12, 0x34, 0xAB, 0xCD, 0, 26, 0, 0] ++ List.replicate 18 0
theorem ool_taken (a b : Bytes) : [a, List.replicate 6 0xFF, b].contains (field ((oolHead ++ fcs oolHead).take ((oolHead ++ fcs oolHead).length - 4)) 0 6) = true := by
  rw [show field ((oolHead ++ fcs oolHead).take ((oolHead ++ fcs oolHead).length - 4)) 0 6 = List.replicate 6 0xFF by decide +kernel]; simp
/-- A capture of band 1 to be solved at a known position and a known time. -/
def priorS : State :=
  { State.nums seeded [(Obj.timing_condition, 2), (Obj.ref_uncertainty, 0), (Obj.grist_state, 3)] with
    sky := { seeded.sky with grist := { seeded.sky.grist with req := some (.owner true, 5), flags := 4 } } }
/-- What its search finds, which the model leaves free. -/
def SolveFinds (f sigma3 : Int) : Prop :=
  let band := fun (b : Fin 2) => if bit (4 : Nat) (b + 1) && !(bit (0 : Nat) b) then (everyOther (priorS.sky.grist.samples.drop b)).map fun y => priorS.sampleOf b y.toNat else []
  6 ≤ Config.gristSatellites [band 0, band 1] [] none 100000000000000000000 0 ∧ Config.gristCandidates [band 0, band 1] [] none 100000000000000000000 0 = [(f, sigma3)]
/-- Thread 2 waits for the entry of its client, which thread 3 holds. -/
def heldS : State :=
  let waiting : Thread := { busy := true, wait := .lookup false 5 1 0 true 10000000000000 }
  let holding : Thread := { busy := true, held := some (Config.ctHash 0 key1 % 2 ^ 21 * 8) }
  (up.setEngine 0 { threads := (up.serve.engines[0].threads.set 2 waiting).set 3 holding }).setCt hitCt
theorem held_waits : heldS.runLookup 0 2 false 5 1 0 true = none := by
  have k : (heldS.thread 0 2).packet.clientKey 1 0 = key1 := by decide +kernel
  have h : heldS.ctFind key1 = some (Config.ctHash 0 key1 % 2 ^ 21 * 8) := (finds rfl rfl).1
  have o : heldS.heldElsewhere 0 2 (Config.ctHash 0 key1 % 2 ^ 21 * 8) = true :=
    List.any_eq_true.2 ⟨3, List.mem_finRange 3, by
      have g : (heldS.thread 0 3).held = some (Config.ctHash 0 key1 % 2 ^ 21 * 8) := rfl
      have w : (heldS.thread 0 3).wait = .none := rfl
      have b : (heldS.thread 0 3).busy = true := rfl
      simp [Thread.holds, g, w, b]⟩
  simp only [State.runLookup, k, h, o, if_true]
/-- Thread 2 waits for the entry that its built-in program looks up since `n`; it runs program 2 on a frame that is no request. -/
def builtinS (n : Nat) : State := up.setEngine 0 { threads := up.serve.engines[0].threads.set 2 { busy := true, entry := 2, wait := .builtin n } }
/-- A thread that waits for its job 4. -/
def jobS : State :=
  let s := up.setEngine 0 { threads := up.serve.engines[0].threads.set 2 { busy := true, serial := 7, wait := .aes 5 4 } }
  { s with serve := { s.serve with jobs := [{ engine := 0, thread := 2, serial := 7, tag := 4, blocks := 1, out := 0, result := [], status := 0 }] } }
/-- An owner's program image of one instruction, without entries, signed by the scalar 1 with the secret number 1. -/
def prog1 : Bytes := [0x53, 0x50, 0x52, 0x47, 1, 2, 0, 1, 0, 0, 0, 0, 0, 0, 0, 9] ++ List.replicate 8 0 ++ List.replicate 32 0xFF ++ List.replicate 8 0
  ++ [0x32] ++ List.replicate 7 0 ++ beNat 48 (curveG 2).1
  ++ beNat 48 0xFC8821083350097BD3A8AC51B56011F9E5C18E806266B0A8537466FCCCCDC13A462C855AE8AF960E5DB05DC4187A4268
def progS : State :=
  let s := (State.nums up [(Obj.owner_program_key_id, 9)]).putO Obj.owner_program_key unitKey
  { s with serve := { s.serve with prog := { s.serve.prog with checking := true, staging := prog1 } } }
theorem prog_passes : progS.imageCause prog1 = 0 := by
  have a : imageLayoutOk prog1 = true := by decide +kernel
  have b : progS.programKey prog1 = some unitKey := by decide +kernel
  have g : sigVerify 1 unitKey (prog1.take (imageSize prog1 - 96)) (field prog1 (imageSize prog1 - 96) 96) = true := by decide +kernel
  have c : imageEntries prog1 = List.replicate 8 0xFFFFFFFF := by decide +kernel
  have d : (imageCode prog1).any badTarget = false := by decide +kernel
  have e : (imageCode prog1).any badEncoding = false := by decide +kernel
  simp [State.imageCause, a, b, c, d, e, g]
theorem wit_SkyFrontEnd_1 :
    (∃ (s : State) (b : Fin 2) (l : List (Bytes × Bytes)), Wf s ∧ s.awake 3 = true ∧ s.sky.bands[b].scriptDue = true
      ∧ scriptRecords 1024 (s.octs (Obj.fespi_script b)) = l.map (fun r => (false, r.1, r.2)) ∧ (s.putN (Obj.fespi_status b) 1).n Obj.grist_state ≠ 2)
    ∧ (∃ (s : State) (b : Fin 2) (reads : List Bytes), s.sky.bands[b].scriptDue = false)
    ∧ (∃ (s : State) (b : Fin 2) (e k : Nat), s.sky.bands[b].settle = some (e, k) ∧ e ≤ s.now)
    ∧ (∃ (s : State) (b : Fin 2) (e k : Nat), s.sky.bands[b].settle = some (e, k) ∧ s.now < e)
    ∧ (∃ s : State, s.sky.antEn = true)
    ∧ (∃ (s : State) (k : Nat), s.sky.antShortAt = some k ∧ k + ticksS (s.nn Obj.ant_retry) ≤ s.now ∧ s.awake 3 = true
      ∧ s.flag Obj.ant_supply_enable = true)
    ∧ (∃ s : State, s.sky.antEn = true ∧ s.n Obj.ant_state = 2)
    ∧ (∃ s : State, s.sky.antEn = false) :=
  ⟨⟨{ up with sky := { up.sky with bands := up.sky.bands.set 1 { scriptDue := true } } }, 1, [], by unfold Wf; decide +kernel⟩,
   ⟨up, 1, [], by decide +kernel⟩,
   ⟨{ up with sky := { up.sky with bands := up.sky.bands.set 1 { settle := some (5, 5) } } }, 1, 5, 5, by decide +kernel⟩,
   ⟨{ up with sky := { up.sky with bands := up.sky.bands.set 1 { settle := some (10000000000001, 5) } } }, 1, 10000000000001, 5, by decide +kernel⟩,
   ⟨{ up with sky := { up.sky with antEn := true } }, by decide +kernel⟩,
   ⟨{ State.nums up [(Obj.ant_supply_enable, 1)] with sky := { up.sky with antShortAt := some 5 } }, 5, by decide +kernel⟩,
   ⟨{ State.nums up [(Obj.ant_state, 2)] with sky := { up.sky with antEn := true } }, by decide +kernel⟩,
   ⟨up, by decide +kernel⟩⟩
theorem wit_SkyFrontEnd_2 :
    (∃ (s : State) (b : Fin 2) (l : List (Int × Nat)), s.sampling b = true ∧ s.sky.bands[b].scannedAt + 12500000 ≤ s.now
      ∧ s.flag (Obj.notch_enable b) = false)
    ∧ (∃ (s : State) (b : Fin 2) (l : List (Int × Nat)), s.sampling b = true ∧ s.sky.bands[b].scannedAt + 12500000 ≤ s.now
      ∧ s.flag (Obj.notch_enable b) = true)
    ∧ (∃ (s : State) (b : Fin 2) (m0 m1 m2 m3 m4 : List PinBlock), s.awake 3 = true ∧ s.settling b = false
      ∧ s.sky.bands[b].monitoredAt + 125000000 ≤ s.now)
    ∧ (∃ (s : State) (b : Fin 2) (blocks : List PinBlock), s.flag (Obj.band_enable b) = false)
    ∧ (∃ (s : State) (b : Fin 2) (blocks : List PinBlock), s.flag (Obj.band_enable b) = true
      ∧ blocks.any (pinStuck (s.nn (Obj.sample_bits b))) = true)
    ∧ (∃ (s : State) (b : Fin 2) (m0 m1 m2 m3 m4 : List PinBlock), s.settling b = true) :=
  ⟨⟨State.nums up [(Obj.band_enable 1, 1), (Obj.notch_enable 1, 0)], 1, [(1000, 900)], by decide +kernel⟩,
   ⟨State.nums up [(Obj.band_enable 1, 1), (Obj.notch_enable 1, 1)], 1, [(1000, 900)], by decide +kernel⟩,
   ⟨up, 1, [], [], [], [], [], by decide +kernel⟩,
   ⟨State.nums up [(Obj.band_enable 1, 0)], 1, [], by decide +kernel⟩,
   ⟨State.nums up [(Obj.band_enable 1, 1)], 1, [[(0, 1)]], by decide +kernel⟩,
   ⟨{ up with sky := { up.sky with bands := up.sky.bands.set 1 { settle := some (10000000000001, 5) } } }, 1, [], [], [], [], [], by decide +kernel⟩⟩
theorem wit_SkyTrackers_1 :
    (∃ (s : State) (c : Fin 256) (b : Fin 2) (d : Detection) (done : Nat), s.sampling b = true ∧ s.sky.channels[c].trk[b].st = .search
      ∧ (s.windowOf c b).1.holds (s.windowOf c b).2 s.sky.channels[c].trk[b].signal d = true
      ∧ done = max s.sky.engine (max s.sky.channels[c].trk[b].since s.sky.bands[b].usedFrom + stageDwell s.sky.channels[c].trk[b].stageB) + (s.windowOf c b).1.cost s.sky.channels[c].trk[b].signal s.sky.channels[c].trk[b].stageB
      ∧ done ≤ s.now)
    ∧ (∃ (s : State) (c : Fin 256) (b : Fin 2), s.sampling b = true ∧ s.sky.channels[c].trk[b].st = .reacq ∧ ∃ d : Detection,
      (s.windowOf c b).1.holds (s.windowOf c b).2 s.sky.channels[c].trk[b].signal d = true)
    ∧ (∃ (s : State) (c : Fin 256) (b : Fin 2), s.sampling b = true ∧ s.sky.channels[c].trk[b].st = .reacq)
    ∧ (∃ (s : State) (c : Fin 256) (b : Fin 2) (done : Nat), s.sampling b = true ∧ s.sky.channels[c].trk[b].st = .search
      ∧ s.sky.channels[c].trk[b].stageB = false
      ∧ done = max s.sky.engine (max s.sky.channels[c].trk[b].since s.sky.bands[b].usedFrom + stageDwell false) + (s.windowOf c b).1.cost s.sky.channels[c].trk[b].signal false
      ∧ done ≤ s.now ∧ s.sky.channels[c].predicted = true)
    ∧ (∃ (s : State) (c : Fin 256) (b : Fin 2) (done : Nat), s.sampling b = true ∧ s.sky.channels[c].trk[b].st = .search
      ∧ s.sky.channels[c].trk[b].stageB = false
      ∧ done = max s.sky.engine (max s.sky.channels[c].trk[b].since s.sky.bands[b].usedFrom + stageDwell false) + (s.windowOf c b).1.cost s.sky.channels[c].trk[b].signal false
      ∧ done ≤ s.now ∧ s.sky.channels[c].predicted = false)
    ∧ (∃ (s : State) (c : Fin 256) (b : Fin 2) (f : Option Detection), s.sky.channels[c].trk[b].st = .search
      ∧ s.now < max s.sky.engine (max s.sky.channels[c].trk[b].since s.sky.bands[b].usedFrom + stageDwell s.sky.channels[c].trk[b].stageB) + (s.windowOf c b).1.cost s.sky.channels[c].trk[b].signal s.sky.channels[c].trk[b].stageB)
    ∧ (∃ (s : State) (c : Fin 256) (b : Fin 2) (f : Option Detection), s.sampling b = false)
    ∧ (∃ (s : State) (c : Fin 256) (b : Fin 2) (l : List Dump), s.sky.channels[c].trk[b].st = .pullIn
      ∧ 100 ≤ (s.runTracker b l s.sky.channels[c].trk[b]).rep.goodMs ∧ s.sky.channels[c].trk[1 - b].st ≠ .idle) :=
  ⟨⟨trkOf (State.nums up [(Obj.band_enable 1, 1), (Obj.band_enable 0, 1)]) 1 { st := .search, signal := 1 }, 7, 1, { code := 0, dop := 0 }, _,
  by decide +kernel, by decide +kernel, by decide +kernel, rfl, by decide +kernel⟩,
   ⟨trkOf (State.nums up [(Obj.band_enable 1, 1), (Obj.band_enable 0, 1)]) 1 { st := .reacq, signal := 1 }, 7, 1, by decide +kernel,
     by decide +kernel, { code := 0, dop := 0 }, by decide +kernel⟩,
   ⟨trkOf (State.nums up [(Obj.band_enable 1, 1), (Obj.band_enable 0, 1)]) 1 { st := .reacq, signal := 1 }, 7, 1, by decide +kernel⟩,
   ⟨{ State.nums up [(Obj.band_enable 1, 1), (Obj.band_enable 0, 1)] with sky := { up.sky with channels := up.sky.channels.set 7 { sat := 257, predicted := true, trk := up.sky.channels[7].trk.set 1 { st := .search, signal := 1 } } } },
     7, 1, _, by decide +kernel, by decide +kernel, by decide +kernel, rfl, by decide +kernel⟩,
   ⟨trkOf (State.nums up [(Obj.band_enable 1, 1), (Obj.band_enable 0, 1)]) 1 { st := .search, signal := 1 }, 7, 1, _, by decide +kernel,
     by decide +kernel, by decide +kernel, rfl, by decide +kernel⟩,
   ⟨trkOf (State.nums up [(Obj.band_enable 1, 1), (Obj.band_enable 0, 1)]) 1 { st := .search, signal := 1, since := 10000000000001 }, 7, 1, none,
     by decide +kernel⟩,
   ⟨trkOf (State.nums up [(Obj.band_enable 1, 0)]) 1 { st := .search, signal := 1 }, 7, 1, none, by decide +kernel⟩,
   ⟨trkOf (trkOf up 1 { st := .pullIn, signal := 1, rep := { goodMs := 100 } }) 0 { st := .search }, 7, 1, [], by decide +kernel⟩⟩
theorem wit_SkyTrackers_2 :
    (∃ (s : State) (c : Fin 256) (l : List Dump), s.sky.channels[c].trk[(0 : Fin 2)].st = .pullIn
      ∧ 100 ≤ (s.runTracker 0 l s.sky.channels[c].trk[(0 : Fin 2)]).rep.goodMs ∧ s.sky.channels[c].trk[(1 : Fin 2)].st = .idle)
    ∧ (∃ (s : State) (c : Fin 256) (b : Fin 2) (l : List Dump), s.sky.channels[c].trk[b].st = .pullIn
      ∧ (s.runTracker b l s.sky.channels[c].trk[b]).rep.goodMs < 100)
    ∧ (∃ (s : State) (c : Fin 256) (b : Fin 2), s.sky.channels[c].trk[b].st = .pullIn ∧ s.sky.channels[c].trk[b].since + 2500000000 ≤ s.now)
    ∧ (∃ (s : State) (c : Fin 256) (b : Fin 2) (l : List Dump),
      (s.sky.channels[c].trk[b].st = .track ∨ s.sky.channels[c].trk[b].st = .sync ∨ s.sky.channels[c].trk[b].st = .ready)
      ∧ (s.nn Obj.loss_time ≤ (s.runTracker b l s.sky.channels[c].trk[b]).rep.weakMs ∨ s.coasted b (s.runTracker b l s.sky.channels[c].trk[b]) = true))
    ∧ (∃ (s : State) (c : Fin 256) (b : Fin 2) (l : List Dump),
      (s.sky.channels[c].trk[b].st = .track ∨ s.sky.channels[c].trk[b].st = .sync ∨ s.sky.channels[c].trk[b].st = .ready)
      ∧ (s.runTracker b l s.sky.channels[c].trk[b]).rep.weakMs < s.nn Obj.loss_time ∧ s.coasted b (s.runTracker b l s.sky.channels[c].trk[b]) = false)
    ∧ (∃ (s : State) (c : Fin 256) (b : Fin 2), s.sky.channels[c].trk[b].st = .reacq
      ∧ s.sky.channels[c].trk[b].since + ticksS (s.nn Obj.reacq_time) ≤ s.now)
    ∧ (∃ (s : State) (c : Fin 256) (b : Fin 2), s.sky.channels[c].trk[b].st = .track)
    ∧ (∃ (s : State) (c : Fin 256) (b : Fin 2) (week towMs : Nat) (code : Int), s.sky.channels[c].trk[b].st = .sync
      ∧ s.aidedBy s.sky.channels[c].sat s.sky.channels[c].trk[b].signal = none) :=
  ⟨⟨trkOf up 0 { st := .pullIn, signal := 1, rep := { goodMs := 100 } }, 7, [], by decide +kernel⟩,
   ⟨trkOf (State.nums up [(Obj.band_enable 1, 1), (Obj.band_enable 0, 1)]) 1 { st := .pullIn, signal := 1 }, 7, 1, [], by decide +kernel⟩,
   ⟨trkOf (State.nums up [(Obj.band_enable 1, 1), (Obj.band_enable 0, 1)]) 1 { st := .pullIn, signal := 1 }, 7, 1, by decide +kernel⟩,
   ⟨trkOf (State.nums up [(Obj.band_enable 1, 1), (Obj.band_enable 0, 1)]) 1 { st := .sync, signal := 1, rep := { weakMs := 100000 } }, 7, 1, [],
     by decide +kernel⟩,
   ⟨trkOf (State.nums up [(Obj.band_enable 1, 1), (Obj.band_enable 0, 1)]) 1 { st := .track, signal := 1 }, 7, 1, [], by decide +kernel⟩,
   ⟨trkOf (State.nums up [(Obj.band_enable 1, 1), (Obj.band_enable 0, 1)]) 1 { st := .reacq, signal := 1 }, 7, 1, by decide +kernel⟩,
   ⟨trkOf (State.nums up [(Obj.band_enable 1, 1), (Obj.band_enable 0, 1)]) 1 { st := .track, signal := 1 }, 7, 1, by decide +kernel⟩,
   ⟨trkOf (State.nums up [(Obj.band_enable 1, 1), (Obj.band_enable 0, 1)]) 1 { st := .sync, signal := 1 }, 7, 1, 2000, 0, 0, by decide +kernel⟩⟩
theorem wit_SkyTrackers_3 :
    (∃ (s : State) (c : Fin 256) (b : Fin 2) (week towMs : Nat) (code : Int) (k : Bytes) (p : Int × Int × Int),
      (s.sky.channels[c].trk[b].st = .track ∨ s.sky.channels[c].trk[b].st = .sync)
      ∧ s.aidedBy s.sky.channels[c].sat s.sky.channels[c].trk[b].signal = some (k, p))
    ∧ (∃ (s : State) (c : Fin 256) (b : Fin 2) (f : Option Detection) (l : List Dump) (week towMs : Nat) (code : Int),
      s.sky.channels[c].trk[b].st = .idle) :=
  ⟨⟨aidS, 7, 0, 0, 0, 0, orbContent eph, (0, 0, 0), by decide +kernel, aid_resolves⟩,
   ⟨up, 7, 1, none, [], 0, 0, 0, by decide +kernel⟩⟩
theorem wit_SkySolution_1 :
    (∃ (s : State) (c : Fin 256) (b : Fin 2) (bits : List Bool) (kind sat message issue : Nat) (content : Bytes), s.sky.channels[c].sat ≠ 0
      ∧ pageOk s.sky.channels[c].trk[b].signal bits = true)
    ∧ (∃ (s : State) (c : Fin 256) (b : Fin 2) (bits : List Bool) (sat sig : Nat), s.sky.channels[c].sat ≠ 0
      ∧ pageOk s.sky.channels[c].trk[b].signal bits = true)
    ∧ (∃ (s : State) (c : Fin 256) (b : Fin 2) (bits : List Bool) (dtLS dtLSF delta : Int) (week day : Nat), s.sky.channels[c].sat ≠ 0
      ∧ pageOk s.sky.channels[c].trk[b].signal bits = true)
    ∧ (∃ (s : State) (c : Fin 256) (b : Fin 2) (bits : List Bool) (offset : Int), s.sky.channels[c].sat ≠ 0
      ∧ pageOk s.sky.channels[c].trk[b].signal bits = true)
    ∧ (∃ (s : State) (c : Fin 256) (b : Fin 2) (bits : List Bool) (item : NavItem), s.sky.channels[c].sat ≠ 0
      ∧ pageOk s.sky.channels[c].trk[b].signal bits = false ∧ s.sky.channels[c].lastBad = none)
    ∧ (∃ s : State, s.awake 3 = true ∧ s.awake 8 = true ∧ s.sky.persistedAt + 1125000000000 ≤ s.now)
    ∧ (∃ (s : State) (obs : List SkyObs), s.awake 3 = true ∧ s.tb.running = true ∧ sampleStamp s.nextEpoch.2.1 ≤ s.stamp)
    ∧ (∃ (s : State) (obs : List SkyObs), s.awake 3 = false) :=
  ⟨⟨trkOf up 1 {}, 7, 1, [], 1, 1, 1, 1, [], by decide +kernel⟩,
   ⟨trkOf up 1 {}, 7, 1, [], 257, 1, by decide +kernel⟩,
   ⟨trkOf up 1 {}, 7, 1, [], 5, 5, 0, 1, 1, by decide +kernel⟩,
   ⟨trkOf up 1 {}, 7, 1, [], 5, by decide +kernel⟩,
   ⟨trkOf up 1 { signal := 2 }, 7, 1, [true], .bad, by decide +kernel⟩,
   ⟨up, by decide +kernel⟩,
   ⟨seeded, [], by decide +kernel⟩,
   ⟨State.reset, [], by decide +kernel⟩⟩
theorem wit_SkySolution_2 :
    (∃ (s : State) (e : SkyEpoch), s.sky.epoch = some e ∧ s.sky.solved = false ∧ s.awake 3 = true)
    ∧ (∃ (s : State) (e : SkyEpoch), s.sky.epoch = some e ∧ s.sky.solved = true)
    ∧ (∀ d : Nat, d ≤ 10 * 1000 → (fixS 0).navDeparture = some d → ∃ (s : State) (d : Nat), s.positionInUse ≠ none ∧ s.awake 3 = true
      ∧ s.sky.fixedAt + 75000000000 ≤ s.now ∧ s.navDeparture = some d ∧ d ≤ s.nn Obj.move_limit * 1000)
    ∧ (∀ d : Nat, 10 * 1000 < d → (fixS 0).navDeparture = some d → ∃ (s : State) (d : Nat), s.positionInUse ≠ none ∧ s.awake 3 = true
      ∧ s.sky.fixedAt + 75000000000 ≤ s.now ∧ s.navDeparture = some d ∧ s.nn Obj.move_limit * 1000 < d ∧ s.sky.departs < 4)
    ∧ (∀ d : Nat, 10 * 1000 < d → (fixS 4).navDeparture = some d → ∃ (s : State) (d : Nat), s.positionInUse ≠ none ∧ s.awake 3 = true
      ∧ s.sky.fixedAt + 75000000000 ≤ s.now ∧ s.navDeparture = some d ∧ s.nn Obj.move_limit * 1000 < d ∧ s.sky.departs = 4 ∧ s.sky.posAlarm = false)
    ∧ (∃ (s : State) (e : Nat), (s.navDeparture = none ∨ e ≠ s.sky.seq)) :=
  ⟨⟨{ up with sky := { up.sky with epoch := some {}, solved := false } }, {}, by decide +kernel⟩,
   ⟨{ up with sky := { up.sky with epoch := some {}, solved := true } }, {}, by decide +kernel⟩,
   fun d hd h => ⟨fixS 0, d, by decide +kernel, by decide +kernel, by decide +kernel, h, by rw [fix_limit0]; exact hd⟩,
   fun d hd h => ⟨fixS 0, d, by decide +kernel, by decide +kernel, by decide +kernel, h, by rw [fix_limit0]; exact hd, by decide +kernel⟩,
   fun d hd h => ⟨fixS 4, d, by decide +kernel, by decide +kernel, by decide +kernel, h, by rw [fix_limit4]; exact hd, by decide +kernel⟩,
   ⟨up, 0, by decide +kernel⟩⟩
theorem wit_SnapshotCommands_1 :
    (∃ s : State, s.gristBusy = false)
    ∧ (∃ (s : State) (r : Nat), s.gristBusy = true)
    ∧ (∃ (s : State) (src : GristFrom) (k : Nat), s.sky.grist.req = some (src, k) ∧ s.n Obj.grist_start_time = 0 ∧ s.n Obj.grist_state = 1
      ∧ s.awake 3 = true ∧ s.settled = true ∧ s.flag Obj.grist_hold = false ∧ Wf s)
    ∧ (∃ (s : State) (samples : Bytes) (k : Nat), Wf s ∧ s.sky.grist.req = some (.owner true, k) ∧ s.n Obj.grist_state = 2
      ∧ sampleStamp (s.sky.grist.n0 + s.sky.grist.length * 61380) ≤ s.stamp)
    ∧ (∃ (s : State) (samples : Bytes) (k : Nat), Wf s ∧ s.sky.grist.req = some (.owner false, k) ∧ s.n Obj.grist_state = 2
      ∧ sampleStamp (s.sky.grist.n0 + s.sky.grist.length * 61380) ≤ s.stamp)
    ∧ (∃ (s : State) (src : GristFrom) (k : Nat), s.sky.grist.req = some (src, k) ∧ s.n Obj.grist_state = 3 ∧ bit s.sky.grist.flags 1 = false
      ∧ bit s.sky.grist.flags 2 = false)
    ∧ (∀ f sigma3 : Int, SolveFinds f sigma3 → ∃ (s : State) (solve : Bool) (k : Nat) (t w f sigma3 : Int), s.sky.grist.req = some (.owner solve, k)
      ∧ s.n Obj.grist_state = 3 ∧ ((bit s.sky.grist.flags 1 = true ∧ bit s.sky.grist.scripted 0 = false) ∨ (bit s.sky.grist.flags 2 = true
      ∧ bit s.sky.grist.scripted 1 = false)) ∧ s.gristPrior (sampleStamp s.sky.grist.n0) = some (t, w)
      ∧ (let orbits := s.ephemerides t; let band := fun (b : Fin 2) => if bit s.sky.grist.flags (b + 1) && !(bit s.sky.grist.scripted b) then (everyOther (s.sky.grist.samples.drop b)).map fun y => s.sampleOf b y.toNat else []; (if s.positionInUse.isSome then 3 else 6) ≤ Config.gristSatellites [band 0, band 1] orbits s.positionInUse t w
      ∧ Config.gristCandidates [band 0, band 1] orbits s.positionInUse t w = [(f, sigma3)]))
    ∧ (∃ (s : State) (i : Fin 16) (enable : Bool) (kind number : Nat), kind ≠ 6
      ∧ (((((s.putB (Obj.slot_enable i) enable).putN (Obj.source_kind i) kind).putN (Obj.source_number i) number).bindSlot i enable).skyPower).skyBound = s.skyBound) :=
  ⟨⟨up, by decide +kernel⟩,
   ⟨State.nums up [(Obj.grist_hold, 1)], 1, by decide +kernel⟩,
   ⟨{ State.nums up [(Obj.grist_state, 1)] with sky := { up.sky with grist := { up.sky.grist with req := some (.steep, 5) } } }, .steep, 5,
     by unfold Wf; decide +kernel⟩,
   ⟨{ State.nums up [(Obj.grist_state, 2)] with sky := { up.sky with grist := { up.sky.grist with req := some (.owner true, 5) } } }, [], 5,
     by unfold Wf; decide +kernel⟩,
   ⟨{ State.nums up [(Obj.grist_state, 2)] with sky := { up.sky with grist := { up.sky.grist with req := some (.owner false, 5) } } }, [], 5,
     by unfold Wf; decide +kernel⟩,
   ⟨{ State.nums up [(Obj.grist_state, 3)] with sky := { up.sky with grist := { up.sky.grist with req := some (.steep, 5) } } }, .steep, 5,
     by decide +kernel⟩,
   fun f sigma3 h => ⟨priorS, true, 5, 100000000000000000000, 0, f, sigma3, by decide +kernel, by decide +kernel, by decide +kernel,
     by decide +kernel, h⟩,
   ⟨up, 3, true, 1, 0, by decide +kernel⟩⟩
theorem wit_SnapshotCommands_2 :
    ∃ (s : State) (i : Fin 16) (number : Nat), s.skyBound = true ∧ (s.slotEnabled i && s.kind i == 6) = false
      ∧ (let u := ((((s.putB (Obj.slot_enable i) true).putN (Obj.source_kind i) 6).putN (Obj.source_number i) number).bindSlot i true).skyPower; u.mode.cur = .steep
      ∧ u.gristBusy = false) :=
  ⟨State.nums { up with mode := { up.mode with cur := .steep } } [(Obj.slot_enable 5, 1), (Obj.source_kind 5, 6)], 3, 1, by decide +kernel⟩
theorem wit_PortCommands_1 :
    (∃ (s : State) (p : Fin 64) (speed fec : Nat) (eee : Bool), s.portsAwake = true ∧ (s.restState p = 1 ∨ s.restState p = 2) ∧ s.linkUp p = false
      ∧ bit s.side.absent p = false ∧ (bit s.side.loss p = false ∨ s.flag (Obj.los_action p) = false) ∧ (s.negotiates p = true
      → modeOk speed fec = true ∧ (s.advertised p).contains speed = true ∧ (speed ≠ 4 ∨ s.nn (Obj.port_fec p) ≤ fec)) ∧ (s.negotiates p = false
      → speed = s.nn (Obj.port_speed p) ∧ fec = s.nn (Obj.port_fec p)))
    ∧ (∃ (s : State) (p : Fin 64) (speed fec : Nat) (eee : Bool), s.negotiates p = false ∧ speed ≠ s.nn (Obj.port_speed p))
    ∧ (∃ (s : State) (p : Fin 64) (cause : Nat), s.portsAwake = true ∧ s.linkUp p = true ∧ (cause = 0 ∨ (cause = 1 ∧ bit s.side.loss p = true
      ∧ s.flag (Obj.los_action p) = true) ∨ (cause = 2 ∧ bit s.side.absent p = true)))
    ∧ (∃ (s : State) (p : Fin 64), bit s.side.absent p = false)
    ∧ (∃ (s : State) (p : Fin 64) (speed fec : Nat), s.portsAwake = true
      ∧ ((s.putN (Obj.port_speed p) speed).putN (Obj.port_fec p) fec).portOk p = true ∧ (∀ n : Fin 64, (n = p ∨ s.nn (Obj.cal_partner n) = p.val)
      → ((s.putN (Obj.port_speed p) speed).putN (Obj.port_fec p) fec).partnerOk n = true))
    ∧ (∃ (s : State) (p : Fin 64) (first : FirstEdge) (l : List Nat), s.portsAwake = true ∧ s.linkUp p = true ∧ l.length = 4095
      ∧ s.ports[p].rxSince ≤ first.stamp ∧ l.getLast?.getD 0 ≤ s.stamp ∧ (stampLine (first.stamp :: l)).good = true)
    ∧ (∃ (s : State) (p : Fin 64) (first : FirstEdge) (l : List Nat), s.portsAwake = true ∧ s.linkUp p = true ∧ l.length = 4095
      ∧ s.ports[p].txSince ≤ first.stamp ∧ l.getLast?.getD 0 ≤ s.stamp ∧ (stampLine (first.stamp :: l)).good = true)
    ∧ (∃ (s : State) (p : Fin 64) (tx : Bool) (first : FirstEdge) (l : List Nat), (l.length ≠ 4095 ∨ (stampLine (first.stamp :: l)).good = false)) :=
  ⟨⟨State.nums up [(Obj.port_enable 3, 1), (Obj.port_speed 3, 3), (Obj.an_enable 3, 0), (Obj.los_action 3, 0)], 3, 3, 2, false, by decide +kernel⟩,
   ⟨State.nums up [(Obj.port_speed 3, 3), (Obj.an_enable 3, 0)], 3, 4, 0, false, by decide +kernel⟩,
   ⟨link3 [], 3, 0, by decide +kernel⟩,
   ⟨up, 3, by decide +kernel⟩,
   ⟨State.nums up [(Obj.an_enable 3, 0)], 3, 3, 0, by decide +kernel⟩,
   ⟨link3 [(Obj.rx_sentinel_state 3, 1)], 3, { stamp := 0, word := 0, marker := 0 }, laterStamps, by decide +kernel, by decide +kernel, later_length,
     by decide +kernel, later_last, later_good⟩,
   ⟨link3 [(Obj.tx_sentinel_state 3, 1)], 3, { stamp := 0, word := 0, marker := 0 }, laterStamps, by decide +kernel, by decide +kernel, later_length,
     by decide +kernel, later_last, later_good⟩,
   ⟨up, 3, true, { stamp := 0, word := 0, marker := 0 }, [], by decide +kernel⟩⟩
theorem wit_PortCommands_2 :
    (∃ (s : State) (p : Fin 64) (x : SentinelLoss), s.portsAwake = true ∧ s.nn (sentinelKey p x.tx) = 2 ∧ s.sentinelFails p x.tx x.event = true)
    ∧ (∃ (s : State) (p : Fin 64) (x : SentinelLoss), (s.nn (sentinelKey p x.tx) ≠ 2 ∨ s.sentinelFails p x.tx x.event = false))
    ∧ (∃ (s : State) (p : Fin 64), s.portsAwake = true ∧ s.ports[p].govNext ≤ s.now
      ∧ (s.setPort p { s.ports[p] with rxOct := 0, txOct := 0, govHist := ((s.ports[p].rxOct, s.ports[p].txOct) :: s.ports[p].govHist).take 3600, govNext := s.now + ticksS 1 }).governs p = false)
    ∧ (∃ (s : State) (p : Fin 64) (m : Nat), s.portsAwake = true ∧ s.ports[p].govNext ≤ s.now ∧ s.ports[p].govAt = none
      ∧ (let u := s.setPort p { s.ports[p] with rxOct := 0, txOct := 0, govHist := ((s.ports[p].rxOct, s.ports[p].txOct) :: s.ports[p].govHist).take 3600, govNext := s.now + ticksS 1 }; let cur := u.nn (Obj.speed_resolved p); u.governs p = true
      ∧ ((u.govModes p).filter fun m => cur < m).head? = some m ∧ u.nn (Obj.gov_up p) * modeOctets cur < max s.ports[p].rxOct s.ports[p].txOct * 100))
    ∧ (∃ (s : State) (p : Fin 64), s.portsAwake = true ∧ s.linkUp p = true ∧ (s.nn (Obj.speed_resolved p) = 3 ∨ s.nn (Obj.speed_resolved p) = 4)
      ∧ s.nn (Obj.fec_resolved p) < 2 ∧ s.ports[p].eee = true ∧ s.flag (Obj.gov_lpi p) = true ∧ s.ports[p].lpi = none ∧ s.ports[p].fixed = []
      ∧ s.ports[p].lastFix + ticksUs (s.nn (Obj.gov_lpi_idle p)) ≤ s.now)
    ∧ (∃ (s : State) (p : Fin 64), s.esmcOn p = true ∧ s.ports[p].esmcNext ≤ s.now)
    ∧ (∃ (s : State) (p : Fin 64) (c : Nat) (k : Bool), s.ports[p].esmcSent = some (c, k) ∧ s.esmcOn p = true ∧ c ≠ s.esmcCode p)
    ∧ (∃ (s : State) (p : Fin 64) (c : Nat) (k : Bool), s.ports[p].esmcSent = some (c, k) ∧ c = s.esmcCode p) :=
  ⟨⟨link3 [(Obj.tx_sentinel_state 3, 2)], 3, { tx := true, event := .wordSlip }, by decide +kernel⟩,
   ⟨up, 3, { tx := true, event := .wordSlip }, by decide +kernel⟩,
   ⟨up, 3, by decide +kernel⟩,
   ⟨{ link3 [(Obj.gov_enable 3, 1), (Obj.an_enable 3, 1), (Obj.port_speed 3, 4), (Obj.speed_resolved 3, 3)] with ports := up.ports.set 3 { rxOct := 1250000000 } },
     3, 4, by decide +kernel⟩,
   ⟨{ link3 [(Obj.speed_resolved 3, 4), (Obj.gov_lpi 3, 1)] with ports := up.ports.set 3 { eee := true } }, 3, by decide +kernel⟩,
   ⟨link3 [(Obj.esmc_tx_enable 3, 1)], 3, by decide +kernel⟩,
   ⟨{ link3 [(Obj.esmc_tx_enable 3, 1)] with ports := up.ports.set 3 { esmcSent := some (99, true) } }, 3, 99, true, by decide +kernel⟩,
   ⟨{ link3 [] with ports := up.ports.set 3 { esmcSent := some ((link3 []).esmcCode 3, true) } }, 3, (link3 []).esmcCode 3, true, by decide +kernel⟩⟩
theorem wit_PortFrames_1 :
    (∃ (s : State) (p : Fin 64) (edge : Rat) (o : Nat) (skew : Rat) (frame : Bytes), s.portsAwake = true ∧ s.linkUp p = true
      ∧ o ≤ modeWord (s.nn (Obj.speed_resolved p)) ∧ s.macDown = false ∧ s.blockBusy (0x0100 + p) = false ∧ fcsOk frame = false)
    ∧ (∃ (s u : State) (p : Fin 64) (edge : Rat) (o : Nat) (skew : Rat) (frame : Bytes), s.portsAwake = true ∧ s.linkUp p = true
      ∧ o ≤ modeWord (s.nn (Obj.speed_resolved p)) ∧ s.macDown = false ∧ s.blockBusy (0x0100 + p) = false ∧ fcsOk frame = true ∧ 64 ≤ frame.length
      ∧ s.nn (Obj.speed_resolved p) ≠ 5
      ∧ u = ((((s.setPort p { s.ports[p] with rxOct := s.ports[p].rxOct + frame.length + 20 }).bump (Obj.rx_frames p)).bump (Obj.rx_bytes p) frame.length).countP p 0x01).countP p 0x02 frame.length
      ∧ frame.length ≤ u.nn (Obj.max_frame p))
    ∧ (∃ (s : State) (p : Fin 64) (edge : Rat) (o : Nat) (skew : Rat) (frame : Bytes), s.portsAwake = true ∧ s.linkUp p = true
      ∧ o ≤ modeWord (s.nn (Obj.speed_resolved p)) ∧ s.macDown = true)
    ∧ (∃ (s : State) (a b : Fin 64), s.calPairOf a = some (a, b) ∧ s.portsAwake = true ∧ s.pairUp a b = true ∧ s.ports[a].calNext ≤ s.now
      ∧ s.macDown = false ∧ s.ports[a].cal.isOpen = false)
    ∧ (∃ (s u : State) (p : Fin 64) (edge : Rat) (o : Nat) (frame : Bytes), s.portsAwake = true ∧ s.linkUp p = true
      ∧ o ≤ modeWord (s.nn (Obj.speed_resolved p)) ∧ s.macDown = false ∧ s.blockBusy (0x0100 + p) = false ∧ fcsOk frame = true ∧ 64 ≤ frame.length
      ∧ isCalFrame frame = true ∧ isCalFrame (frame.take (frame.length - 4)) = true ∧ (s.calPairOf p).isSome = true
      ∧ u = ((((s.setPort p { s.ports[p] with rxOct := s.ports[p].rxOct + frame.length + 20 }).bump (Obj.rx_frames p)).bump (Obj.rx_bytes p) frame.length).countP p 0x01).countP p 0x02 frame.length
      ∧ frame.length ≤ u.nn (Obj.max_frame p) ∧ (u.calPairOf p).isSome = true
      ∧ (rxHeaders (u.nn (Obj.vlan_tpid p)) (frame.take (frame.length - 4))).etype ≠ 0x8809)
    ∧ (∃ (s : State) (p : Fin 64) (edge : Rat) (o : Nat) (frame : Bytes), (isCalFrame frame = false ∨ s.calPairOf p = none))
    ∧ (∃ (s : State) (p : Fin 64) (word : Nat) (o : Nat) (f : EFrame), s.portsAwake = true ∧ s.linkUp p = true ∧ s.tb.running = true
      ∧ s.macDown = false ∧ s.blockBusy (0x0100 + p) = false ∧ s.nextFrame p s.earliest = some f ∧ s.ports[p].lpi = none
      ∧ s.ports[p].lineFree ≤ s.earliest ∧ s.sfdFits p s.earliest (s.txWord p s.earliest word) o = true
      ∧ (f.kind = 0 ∨ s.nn (Obj.tx_sentinel_state p) = 2))
    ∧ (∃ (s : State) (p : Fin 64) (word : Nat) (o : Nat) (f : EFrame), s.portsAwake = true ∧ s.linkUp p = true ∧ s.tb.running = true
      ∧ s.macDown = false ∧ s.blockBusy (0x0100 + p) = false ∧ s.nextFrame p s.earliest = some f ∧ s.ports[p].lpi = none
      ∧ s.ports[p].lineFree ≤ s.earliest ∧ s.sfdFits p s.earliest (s.txWord p s.earliest word) o = true ∧ f.kind ≠ 0
      ∧ s.nn (Obj.tx_sentinel_state p) ≠ 2) :=
  ⟨⟨link3 [], 3, 0, 0, 0, [1, 2, 3, 4, 5], by decide +kernel⟩,
   ⟨link3 [], _, 3, 0, 0, 0, frame60, by decide +kernel, by decide +kernel, by decide +kernel, by decide +kernel, by decide +kernel,
     by decide +kernel, by decide +kernel, by decide +kernel, rfl, by decide +kernel⟩,
   ⟨{ link3 [] with sys := { up.sys with scope := some 3 } }, 3, 0, 0, 0, [], by decide +kernel⟩,
   ⟨link3 [(Obj.cal_partner 3, 5), (Obj.cal_partner 5, 3), (Obj.link_state 5, 3)], 3, 5, by decide +kernel⟩,
   ⟨link3 [(Obj.cal_partner 3, 5), (Obj.cal_partner 5, 3), (Obj.link_state 5, 3)], _, 3, 0, 0, calOctets ++ fcs calOctets, by decide +kernel,
     by decide +kernel, by decide +kernel, by decide +kernel, by decide +kernel, by decide +kernel, by decide +kernel, by decide +kernel,
     by decide +kernel, by decide +kernel, rfl, by decide +kernel⟩,
   ⟨link3 [], 3, 0, 0, [1, 0x80, 0xC2, 0, 0, 0x0E] ++ List.replicate 6 2 ++ [0x88, 0xB5, 0x53, 0x43], by decide +kernel⟩,
   ⟨{ link3 [] with ports := up.ports.set 3 { egress := [{ cls := 1, data := [] }] } }, 3, 1, 0, { cls := 1, data := [] }, by decide +kernel⟩,
   ⟨{ link3 [] with ports := up.ports.set 3 { egress := [{ cls := 1, data := [], kind := 1 }] } }, 3, 1, 0, { cls := 1, data := [], kind := 1 },
     by decide +kernel⟩⟩
theorem wit_PortFrames_2 :
    (∃ (s : State) (p : Fin 64) (word : Nat) (o : Nat) (f : EFrame) (at' : Nat), s.portsAwake = true ∧ s.linkUp p = true ∧ s.tb.running = true
      ∧ s.macDown = false ∧ s.blockBusy (0x0100 + p) = false ∧ s.nextFrame p s.earliest = some f ∧ s.ports[p].lpi = some at')
    ∧ (∃ (s : State) (p : Fin 64) (err : Rat) (x : Fixed) (rest : List Fixed), s.ports[p].fixed = x :: rest ∧ s.tb.raw < x.depart)
    ∧ (∃ (s : State) (p : Fin 64) (err : Rat) (x : Fixed) (rest : List Fixed), s.ports[p].fixed = x :: rest ∧ x.depart ≤ s.tb.raw) :=
  ⟨⟨{ link3 [] with ports := up.ports.set 3 { egress := [{ cls := 1, data := [] }], lpi := some 5 } }, 3, 0, 0, { cls := 1, data := [] }, 5,
  by decide +kernel⟩,
   ⟨{ up with ports := up.ports.set 3 { fixed := [{ frame := { cls := 1, data := [] }, depart := 4000000001, stamp := 0, time := 0, edge := 0, rest := 0 }] } },
     3, 0, { frame := { cls := 1, data := [] }, depart := 4000000001, stamp := 0, time := 0, edge := 0, rest := 0 }, [], by decide +kernel⟩,
   ⟨{ up with ports := up.ports.set 3 { fixed := [{ frame := { cls := 1, data := [] }, depart := 4000000000, stamp := 0, time := 0, edge := 0, rest := 0 }] } },
     3, 0, { frame := { cls := 1, data := [] }, depart := 4000000000, stamp := 0, time := 0, edge := 0, rest := 0 }, [], by decide +kernel⟩⟩
theorem wit_SidebandAndManagement :
    (∃ (s : State) (first second third : Nat), s.portsAwake = true ∧ s.flag Obj.sb_enable = true ∧ s.side.next ≤ s.now ∧ s.side.anyScan = true)
    ∧ (∃ (s : State) (first second third : Nat), s.portsAwake = true ∧ s.flag Obj.sb_enable = true ∧ s.side.next ≤ s.now ∧ s.side.anyScan = false)
    ∧ (∃ (s : State) (first second third : Nat), s.now < s.side.next)
    ∧ (∃ (s : State) (r1 r4 r5 r9 r10 : Nat), s.portsAwake = true ∧ s.flag Obj.mgmt_enable = true ∧ s.ool.phyNext ≤ s.now)
    ∧ (∃ (s : State) (r1 r4 r5 r9 r10 : Nat), s.now < s.ool.phyNext)
    ∧ (∃ (s : State) (frame : Bytes), s.portsAwake = true ∧ s.flag Obj.mgmt_enable = true ∧ s.nn Obj.mgmt_link ≠ 0 ∧ s.macDown = false
      ∧ (fcsOk frame = false ∨ frame.length < 64 ∨ ([s.octs Obj.mgmt_mac, List.replicate 6 0xFF, [0x33, 0x33, 0xFF] ++ (s.octs Obj.mgmt_mac).drop 3].contains (field (frame.take (frame.length - 4)) 0 6) = false)))
    ∧ (∃ (s : State) (frame : Bytes), s.portsAwake = true ∧ s.flag Obj.mgmt_enable = true ∧ s.nn Obj.mgmt_link ≠ 0 ∧ s.macDown = false
      ∧ fcsOk frame = true ∧ 64 ≤ frame.length
      ∧ [s.octs Obj.mgmt_mac, List.replicate 6 0xFF, [0x33, 0x33, 0xFF] ++ (s.octs Obj.mgmt_mac).drop 3].contains (field (frame.take (frame.length - 4)) 0 6) = true
      ∧ (s.bump Obj.mgmt_rx_frames).isOol (rxHeaders 0x8100 (frame.take (frame.length - 4))) (frame.take (frame.length - 4)) = true)
    ∧ (∃ (s : State) (frame : Bytes), s.portsAwake = true ∧ s.flag Obj.mgmt_enable = true ∧ s.nn Obj.mgmt_link ≠ 0 ∧ s.macDown = false
      ∧ fcsOk frame = true ∧ 64 ≤ frame.length
      ∧ [s.octs Obj.mgmt_mac, List.replicate 6 0xFF, [0x33, 0x33, 0xFF] ++ (s.octs Obj.mgmt_mac).drop 3].contains (field (frame.take (frame.length - 4)) 0 6) = true
      ∧ (s.bump Obj.mgmt_rx_frames).isOol (rxHeaders 0x8100 (frame.take (frame.length - 4))) (frame.take (frame.length - 4)) = false) :=
  ⟨⟨{ State.nums up [(Obj.sb_enable, 1)] with side := { anyScan := true } }, 1, 0, 0, by decide +kernel⟩,
   ⟨State.nums up [(Obj.sb_enable, 1)], 1, 0, 0, by decide +kernel⟩,
   ⟨{ up with side := { next := 10000000000001 } }, 1, 0, 0, by decide +kernel⟩,
   ⟨State.nums up [(Obj.mgmt_enable, 1)], 4, 128, 128, 0, 0, by decide +kernel⟩,
   ⟨{ up with ool := { up.ool with phyNext := 10000000000001 } }, 0, 0, 0, 0, 0, by decide +kernel⟩,
   ⟨State.nums up [(Obj.mgmt_enable, 1), (Obj.mgmt_link, 3)], [1, 2, 3, 4, 5], by decide +kernel⟩,
   ⟨State.nums up [(Obj.mgmt_enable, 1), (Obj.mgmt_link, 3), (Obj.ool_udp_port, 0xABCD)], oolHead ++ fcs oolHead, by decide +kernel,
     by decide +kernel, by decide +kernel, by decide +kernel, by decide +kernel, by decide +kernel, ool_taken _ _, by decide +kernel⟩,
   ⟨State.nums up [(Obj.mgmt_enable, 1), (Obj.mgmt_link, 3)], oolHead ++ fcs oolHead, by decide +kernel, by decide +kernel, by decide +kernel,
     by decide +kernel, by decide +kernel, by decide +kernel, ool_taken _ _, by decide +kernel⟩⟩
theorem wit_CounterAndTableCommands_1 :
    (∃ s : State, s.snapsRun = true)
    ∧ (∃ s : State, s.snapsRun = true ∧ s.nn Obj.snap_period ≠ 0 ∧ s.tb.raw % (s.nn Obj.snap_period * 1250000) = 0)
    ∧ (∃ s : State, s.tb.raw % (s.nn Obj.snap_period * 1250000) ≠ 0)
    ∧ (∃ (s : State) (b : Fin 16) (k : Fin 9), bit s.ctrs[b].newWraps k = true ∧ bit s.ctrs[b].firstWraps k = true)
    ∧ (∃ (s : State) (b : Fin 16) (k : Fin 9), bit s.ctrs[b].newWraps k = true ∧ bit s.ctrs[b].firstWraps k = false)
    ∧ (∃ (s : State) (b : Fin 16) (k : Fin 9), bit s.ctrs[b].newWraps k = false)
    ∧ (∃ s : State, s.serve.quietLow = true)
    ∧ (∃ s : State, s.serve.quietLow = false) :=
  ⟨⟨up, by decide +kernel⟩,
   ⟨State.nums up [(Obj.snap_period, 1)], by decide +kernel⟩,
   ⟨{ State.nums up [(Obj.snap_period, 1)] with tb := { up.tb with raw := 1 } }, by decide +kernel⟩,
   ⟨{ up with ctrs := up.ctrs.set 3 { newWraps := 2, firstWraps := 2 } }, 3, 1, by decide +kernel⟩,
   ⟨{ up with ctrs := up.ctrs.set 3 { newWraps := 2, firstWraps := 0 } }, 3, 1, by decide +kernel⟩,
   ⟨up, 3, 1, by decide +kernel⟩,
   ⟨{ up with serve := { up.serve with quietLow := true } }, by decide +kernel⟩,
   ⟨up, by decide +kernel⟩⟩
theorem wit_CounterAndTableCommands_2 :
    (∃ (s : State) (v : Bool), s.serveAwake = true)
    ∧ (∃ s : State, s.serve.stopped = true ∧ s.serve.quietLow = false ∧ (∀ h, s.serve.quietHighAt = some h → h + 1250000 ≤ s.now)
      ∧ s.flag Obj.serve_quiet = false)
    ∧ (∃ (s : State) (h : Nat), s.serve.quietHighAt = some h ∧ s.now < h + 1250000)
    ∧ (∃ (s : State) (r : Nat) (x : RingItem) (rest : List RingItem), s.firmwareUp = true ∧ (r = 2 ∨ r = 4 ∨ r = 5 ∨ r = 6 ∨ (8 ≤ r ∧ r ≤ 127))
      ∧ (s.ring r).items = x :: rest)
    ∧ (∃ (s : State) (r : Nat), (s.ring r).items = [])
    ∧ (∃ (s : State) (i : Nat) (l : CacheLine), s.serve.ct.cache.find? (fun l => l.index == i && l.dirty.isSome) = some l)
    ∧ (∃ s : State, s.serveAwake = true ∧ s.serve.ct.ready = true ∧ s.serve.ct.sweepNext ≤ s.now)
    ∧ (∃ s : State, s.serveAwake = true ∧ s.serve.ct.sketchNext ≤ s.now) :=
  ⟨⟨up, true, by decide +kernel⟩,
   ⟨{ up with serve := { up.serve with stopped := true, quietHighAt := some 5 } }, by decide +kernel, by decide +kernel,
     fun h e => by cases e; decide +kernel, by decide +kernel⟩,
   ⟨{ up with serve := { up.serve with quietHighAt := some 10000000000000 } }, 10000000000000, by decide +kernel⟩,
   ⟨up.setRing 8 { items := [{ pkt := {}, reason := 1, seq := 0 }] }, 8, { pkt := {}, reason := 1, seq := 0 }, [], by decide +kernel⟩,
   ⟨up, 8, by decide +kernel⟩,
   ⟨up.setCt { cache := [{ index := 5, data := [], dirty := some 1 }] }, 5, { index := 5, data := [], dirty := some 1 }, by decide +kernel⟩,
   ⟨up.setCt { ready := true }, by decide +kernel⟩,
   ⟨up, by decide +kernel⟩⟩
theorem wit_CounterAndTableCommands_3 :
    ∃ s : State, s.now < s.serve.ct.sketchNext :=
  ⟨up.setCt { sketchNext := 10000000000001 }, by decide +kernel⟩
theorem wit_ThreadCommands_1 :
    (∃ (s : State) (e : Fin 8) (t : Fin 16) (c : Fin 3) (g : Engine) (p : Pkt) (rest : List Work), s.engineRuns e = true
      ∧ s.blockBusy (0x0200 + e / 2) = false ∧ s.serve.prog.activateAt = none ∧ (s.thread e t).busy = false
      ∧ s.nextClass s.serve.engines[e] = (some c, g) ∧ g.queues[c] = .frame p :: rest
      ∧ (((s.setEngine e { g with queues := g.queues.set c rest }).bump (Obj.frames_taken e)).count 10 0x02).isStale p = false)
    ∧ (∃ (s : State) (e : Fin 8) (t : Fin 16) (c : Fin 3) (g : Engine) (w : Work) (rest : List Work), s.engineRuns e = true
      ∧ s.blockBusy (0x0200 + e / 2) = false ∧ s.serve.prog.activateAt = none ∧ (s.thread e t).busy = false
      ∧ s.nextClass s.serve.engines[e] = (some c, g) ∧ g.queues[c] = w :: rest ∧ w.isFrame = false)
    ∧ (∃ (s : State) (e : Fin 8) (t : Fin 16) (c : Fin 3) (g : Engine) (p : Pkt) (rest : List Work), s.engineRuns e = true
      ∧ s.blockBusy (0x0200 + e / 2) = false ∧ s.serve.prog.activateAt = none ∧ (s.thread e t).busy = false
      ∧ s.nextClass s.serve.engines[e] = (some c, g) ∧ g.queues[c] = .frame p :: rest
      ∧ (((s.setEngine e { g with queues := g.queues.set c rest }).bump (Obj.frames_taken e)).count 10 0x02).isStale p = true)
    ∧ (∃ (s : State) (e : Fin 8) (t : Fin 16), (s.thread e t).busy = true)
    ∧ (∃ (s : State) (e : Fin 8) (t : Fin 16), (s.thread e t).busy = true ∧ s.nn Obj.instr_limit ≤ (s.thread e t).issued
      ∧ ((s.bump (Obj.engine_faults e)).countE e 0x0B).serve.engines[e].limitSec = some ((s.bump (Obj.engine_faults e)).countE e 0x0B).second)
    ∧ (∃ (s : State) (e : Fin 8) (t : Fin 16), (s.thread e t).busy = true ∧ s.nn Obj.instr_limit ≤ (s.thread e t).issued
      ∧ ((s.bump (Obj.engine_faults e)).countE e 0x0B).serve.engines[e].limitSec ≠ some ((s.bump (Obj.engine_faults e)).countE e 0x0B).second)
    ∧ (∃ (s : State) (e : Fin 8) (t : Fin 16), (s.thread e t).issued < s.nn Obj.instr_limit)
    ∧ (∃ (s : State) (e : Fin 8) (t : Fin 16) (create : Bool) (dest kind inst : Nat) (take : Bool) (since : Nat), (s.thread e t).busy = true
      ∧ (s.thread e t).wait = .lookup create dest kind inst take since ∧ since + ticksUs (s.nn Obj.lookup_deadline) < s.now) :=
  ⟨⟨(up.setEngine 0 { queues := #v[[], [.frame { ageless := true }], []] }), 0, 2, 1, { queues := #v[[], [.frame { ageless := true }], []] },
  { ageless := true }, [], by decide +kernel⟩,
   ⟨(up.setEngine 0 { queues := #v[[], [.timer 5 2 0 0], []] }), 0, 2, 1, { queues := #v[[], [.timer 5 2 0 0], []] }, .timer 5 2 0 0, [],
     by decide +kernel⟩,
   ⟨(up.setEngine 0 { queues := #v[[], [.frame {}], []] }), 0, 2, 1, { queues := #v[[], [.frame {}], []] }, {}, [], by decide +kernel⟩,
   ⟨(up.setEngine 0 { threads := up.serve.engines[0].threads.set 2 { busy := true }, queues := #v[[], [], []] }), 0, 2, by decide +kernel⟩,
   ⟨(State.nums up [(Obj.instr_limit, 5)]).setEngine 0 { threads := up.serve.engines[0].threads.set 2 { busy := true, issued := 5 }, limitSec := some 8000 },
     0, 2, by decide +kernel⟩,
   ⟨(State.nums up [(Obj.instr_limit, 5)]).setEngine 0 { threads := up.serve.engines[0].threads.set 2 { busy := true, issued := 5 }, limitSec := some 7999 },
     0, 2, by decide +kernel⟩,
   ⟨State.nums up [(Obj.instr_limit, 5)], 0, 2, by decide +kernel⟩,
   ⟨(up.setEngine 0 { threads := up.serve.engines[0].threads.set 2 { busy := true, wait := .lookup true 5 2 0 true 0 }, queues := #v[[], [], []] }),
     0, 2, true, 5, 2, 0, true, 0, by decide +kernel⟩⟩
theorem wit_ThreadCommands_2 :
    (∃ (s u : State) (e : Fin 8) (t : Fin 16) (create : Bool) (dest kind inst : Nat) (take : Bool) (since : Nat), (s.thread e t).busy = true
      ∧ (s.thread e t).wait = .lookup create dest kind inst take since ∧ s.now ≤ since + ticksUs (s.nn Obj.lookup_deadline)
      ∧ s.runLookup e t create dest kind inst take = some u)
    ∧ (∃ (s : State) (e : Fin 8) (t : Fin 16) (create : Bool) (dest kind inst : Nat) (take : Bool) (since : Nat),
      (s.thread e t).wait = .lookup create dest kind inst take since ∧ s.now ≤ since + ticksUs (s.nn Obj.lookup_deadline)
      ∧ s.runLookup e t create dest kind inst take = none)
    ∧ (∃ (s : State) (e : Fin 8) (t : Fin 16) (since : Nat), (s.thread e t).busy = true ∧ (s.thread e t).wait = .builtin since
      ∧ s.now ≤ since + ticksUs (s.nn Obj.lookup_deadline) ∧ (∀ i, (s.builtinKey (s.thread e t).entry (s.thread e t).work).bind s.ctFind = some i
      → s.heldElsewhere e t i = false))
    ∧ (∃ (s : State) (e : Fin 8) (t : Fin 16) (since : Nat), (s.thread e t).busy = true ∧ (s.thread e t).wait = .builtin since
      ∧ since + ticksUs (s.nn Obj.lookup_deadline) < s.now ∧ (s.thread e t).work.isFrame = true)
    ∧ (∃ (s : State) (e : Fin 8) (t : Fin 16) (tag dest : Nat) (j : AesJob),
      (s.serve.jobs.take s.aesRunning).find? (fun j => j.engine = e && j.thread = t && j.tag = tag) = some j ∧ j.status = 0
      ∧ (s.thread e t).busy = true ∧ (s.thread e t).serial = j.serial ∧ (s.thread e t).wait = .aes dest tag) :=
  ⟨by refine ⟨(up.setEngine 0 { threads := up.serve.engines[0].threads.set 2 { busy := true, wait := .lookup false 5 2 0 true 10000000000000 }, queues := #v[[], [], []] }), _, 0, 2, false, 5, 2, 0, true, 10000000000000, by decide +kernel, by decide +kernel, by decide +kernel, rfl⟩,
   ⟨heldS, 0, 2, false, 5, 1, 0, true, 10000000000000, rfl, by decide +kernel, held_waits⟩,
   ⟨builtinS 10000000000000, 0, 2, 10000000000000, by decide +kernel, rfl, by decide +kernel,
     fun i h => by rw [show (builtinS 10000000000000).builtinKey ((builtinS 10000000000000).thread 0 2).entry ((builtinS 10000000000000).thread 0 2).work = none by decide +kernel] at h; cases h⟩,
   ⟨builtinS 0, 0, 2, 0, by decide +kernel⟩,
   ⟨jobS, 0, 2, 4, 5, { engine := 0, thread := 2, serial := 7, tag := 4, blocks := 1, out := 0, result := [], status := 0 }, by decide +kernel⟩⟩
theorem wit_PairAndProgramCommands_1 :
    (∃ s : State, s.serveAwake = true ∧ 10 ≤ s.sys.step ∧ s.serve.demandNext ≤ s.now)
    ∧ (∃ s : State, s.now < s.serve.demandNext)
    ∧ (∃ (s : State) (p : Fin 4), s.serveAwake = true ∧ s.blockBusy (0x0200 + p) = false ∧ s.flag Obj.consolidate_enable = true ∧ s.mode.cur ≠ .steep
      ∧ s.serve.pairs[p].state = 2 ∧ s.serve.keepPairs ≤ p ∧ (∀ b < 256, s.nn (Obj.bucket_map b) / 2 ≠ p.val) ∧ (∀ e : Fin 8, e.val / 2 = p.val
      → (∀ x ∈ s.serve.engines[e].threads.toList, x.busy = false) ∧ ∀ q ∈ s.serve.engines[e].queues.toList, q = [])
      ∧ s.serve.pairs[p].idleAt + ticksMs (s.nn Obj.gate_delay) ≤ s.now)
    ∧ (∃ (s : State) (p : Fin 4), s.mode.cur = .steep)
    ∧ (∃ (s : State) (p : Fin 4), s.serveAwake = true ∧ s.blockBusy (0x0200 + p) = false ∧ s.serve.pairs[p].state = 1)
    ∧ (∃ (s : State) (p : Fin 4), s.serve.pairs[p].state ≠ 1)
    ∧ (∃ s : State, s.serveAwake = true ∧ s.serve.ct.ready = true ∧ s.sys.warmAt = none ∧ s.tb.running = true
      ∧ s.serve.ct.wheel ≠ (s.time * 1024 / unitsPerS).toNat + 1 ∧ s.serve.stopped = false)
    ∧ (∃ s : State, s.serveAwake = true ∧ s.serve.ct.ready = true ∧ s.sys.warmAt = none ∧ s.tb.running = true
      ∧ s.serve.ct.wheel ≠ (s.time * 1024 / unitsPerS).toNat + 1 ∧ s.serve.stopped = true) :=
  ⟨⟨State.nums up [(Obj.consolidate_enable, 0)], by decide +kernel⟩,
   ⟨{ up with serve := { up.serve with demandNext := 10000000000001 } }, by decide +kernel⟩,
   ⟨{ State.nums up ((Obj.consolidate_enable, 1) :: (List.range 256).map fun b => (Obj.bucket_map b, 0)) with serve := { up.serve with keepPairs := 1, pairs := up.serve.pairs.set 3 { state := 2 } } },
     3, by decide +kernel⟩,
   ⟨State.reset, 3, by decide +kernel⟩,
   ⟨{ up with mode := {}, serve := { up.serve with pairs := up.serve.pairs.set 3 { state := 1 } } }, 3, by decide +kernel⟩,
   ⟨up, 3, by decide +kernel⟩,
   ⟨{ seeded with serve := { up.serve with ct := { ready := true } } }, by decide +kernel⟩,
   ⟨{ seeded with serve := { up.serve with ct := { ready := true }, stopped := true } }, by decide +kernel⟩⟩
theorem wit_PairAndProgramCommands_2 :
    (∃ (s : State) (b : Bytes), s.serveAwake = true)
    ∧ (∃ s : State, Wf s ∧ s.serveAwake = true ∧ s.serve.prog.checking = true ∧ s.imageCause s.serve.prog.staging = 0)
    ∧ (∃ s : State, Wf s ∧ s.serveAwake = true ∧ s.serve.prog.checking = true ∧ s.imageCause s.serve.prog.staging ≠ 0)
    ∧ (∃ (s : State) (at' : Nat) (b : Bytes), Wf s ∧ s.serve.prog.activateAt = some at' ∧ s.serve.prog.activating = some b ∧ s.serveAwake = true
      ∧ (∀ g ∈ s.serve.engines.toList, ∀ x ∈ g.threads.toList, x.busy = false))
    ∧ (∃ (s : State) (e : Fin 8) (k : Fin 16), (s.thread e k).busy = true)
    ∧ (∃ s : State, s.serveAwake = true) :=
  ⟨⟨up, [], by decide +kernel⟩,
   ⟨progS, by unfold Wf; decide +kernel, by decide +kernel, rfl, prog_passes⟩,
   ⟨{ up with serve := { up.serve with prog := { up.serve.prog with checking := true, staging := [] } } }, by unfold Wf; decide +kernel⟩,
   ⟨{ up with serve := { up.serve with prog := { up.serve.prog with activateAt := some 5, activating := some [1] } } }, 5, [1],
     by unfold Wf; decide +kernel⟩,
   ⟨(up.setEngine 0 { threads := up.serve.engines[0].threads.set 2 { busy := true }, queues := #v[[], [], []] }), 0, 2, by decide +kernel⟩,
   ⟨up, by decide +kernel⟩⟩
/-- An instruction word: opcode, dest, srcA, srcB, flags, immediate (R292). -/
def isaWord (op d a b fl imm : Nat) : Word64 := BitVec.ofNat 64 (op * 2 ^ 56 + d * 2 ^ 51 + a * 2 ^ 46 + b * 2 ^ 41 + fl + imm)
/-- Thread 2 of engine 0 about to issue `w`, every register `g`, every window byte `v`. -/
def isaS (w : Word64) (g : Nat := 0) (v : Byte := 0) (f : Thread → Thread := id) : State :=
  let s := up.setEngine 0 { threads := up.serve.engines[0].threads.set 2 (f
    { busy := true, entry := 8, pc := 10240, regs := Vector.replicate 32 (BitVec.ofNat 64 g), win := List.replicate 1024 v }) }
  { s with serve := { s.serve with prog := { s.serve.prog with regionB := [w] } } }
theorem wit_IsaArithmeticAndCompare : ∀ p ∈ isaOps, IsaNext (isaS (isaWord p.1 0 0 0 0 0)) 0 2 p.1 (isaWord p.1 0 0 0 0 0) := by
  unfold IsaNext; decide +kernel
def callS (n : Nat) : State := isaS (isaWord 0x19 0 0 0 0 10241) 0 0 fun x => { x with stack := List.replicate n 10241 }
def retS (n : Nat) : State := isaS (isaWord 0x1A 0 0 0 0 0) 0 0 fun x => { x with stack := List.replicate n 10241 }
def xentS (n : Nat) : State := isaS (isaWord 0x1B 0 0 0 0 2) 0 0 fun x => { x with emits := n }
theorem wit_IsaControl :
    (∀ n ∈ [0, 7, 8], IsaNext (callS n) 0 2 0x19 (isaWord 0x19 0 0 0 0 10241)) ∧ (issued (callS 7) 0 2).stack.length < 8
    ∧ 8 ≤ (issued (callS 8) 0 2).stack.length
    ∧ (∀ n ∈ [0, 1], IsaNext (retS n) 0 2 0x1A (isaWord 0x1A 0 0 0 0 0)) ∧ (issued (retS 1) 0 2).stack = [10241] ∧ (issued (retS 0) 0 2).stack = []
    ∧ (∀ n ∈ [0, 1], IsaNext (xentS n) 0 2 0x1B (isaWord 0x1B 0 0 0 0 2)) ∧ (issued (xentS 0) 0 2).emits = 0 ∧ (issued (xentS 1) 0 2).emits ≠ 0
    ∧ ((isaS 0 0 0 fun x => { x with pc := 10241 }).issues 0 2 = true ∧ (isaS 0 0 0 fun x => { x with pc := 10241 }).fetch 10241 = none)
    ∧ up.issues 0 2 = false ∧ (0x01, Instr.isaAdd) ∈ isaOps := by
  refine ⟨?_, ?_, ?_, ?_, ?_, ?_, ?_, ?_, ?_, ?_, ?_, ?_⟩ <;> first | (unfold IsaNext; decide +kernel) | decide +kernel
def cpyImm (dst src n : Nat) : Nat := dst * 4194304 + src * 4096 + n
theorem wit_IsaWindows :
    (∀ p ∈ [(0x20, 1), (0x21, 2), (0x22, 4), (0x23, 8)], ∀ g ∈ [0, 1024], IsaNext (isaS (isaWord p.1 3 1 0 0 0) g) 0 2 p.1 (isaWord p.1 3 1 0 0 0)
      ∧ accessFault 0 p.2 false = none ∧ accessFault 1024 p.2 false = some 1)
    ∧ (∀ p ∈ [(0x24, 1), (0x25, 2), (0x26, 4), (0x27, 8)], ∀ g ∈ [0, 0x240], IsaNext (isaS (isaWord p.1 3 1 0 0 0) g) 0 2 p.1 (isaWord p.1 3 1 0 0 0)
      ∧ accessFault 0 p.2 true = none ∧ accessFault 0x240 p.2 true = some 2)
    ∧ (∀ i ∈ [cpyImm 0 8 4, cpyImm 0x240 8 4, cpyImm 0 0x1FE 4], IsaNext (isaS (isaWord 0x28 0 0 0 0 i)) 0 2 0x28 (isaWord 0x28 0 0 0 0 i)) ∧ accessFault 8 4 false = none
    ∧ accessFault 0 4 true = none ∧ accessFault 0x240 4 true = some 2 ∧ accessFault 0x1FE 4 false = some 1
    ∧ (∀ i ∈ [512 * 65536, 512 * 65536 + 1], IsaNext (isaS (isaWord 0x29 1 0 0 0 i)) 0 2 0x29 (isaWord 0x29 1 0 0 0 i))
    ∧ accessFault 0 512 false = none ∧ accessFault 1 512 false = some 1
    ∧ (∀ i ∈ [1, 2], ∀ v ∈ [0, 0xFF], IsaNext (isaS (isaWord 0x2A 0 0 0 0 i) 0 (BitVec.ofNat 8 v)) 0 2 0x2A (isaWord 0x2A 0 0 0 0 i))
    ∧ (turnedWindows (List.replicate 1024 0xFF) 1).isSome = true ∧ turnedWindows (List.replicate 1024 0xFF) 2 = none
    ∧ fieldN (List.replicate 1024 0xFF) 0x268 2 = 0xFFFF := by
  refine ⟨?_, ?_, ?_, ?_, ?_, ?_, ?_, ?_, ?_, ?_, ?_, ?_, ?_, ?_⟩ <;> first | (unfold IsaNext; decide +kernel) | decide +kernel
/-- A thread whose client has an entry. -/
def lookS (op : Nat) : State := (isaS (isaWord op 3 0 0 0 1)).setCt hitCt
/-- The state and thread at which a lookup hits. -/
def hitS : State := (counted (lookS 0x30) 0 2).countE 0 0x0C
def hitU : State := hitS.setThread 0 2 { (issued (lookS 0x30) 0 2) with worked := true, pc := 10241 }
theorem wit_IsaClientLookups :
    (∀ op ∈ [0x30, 0x31], IsaNext (lookS op) 0 2 op (isaWord op 3 0 0 0 1))
    ∧ hitS.lookupHits ((issued (lookS 0x30) 0 2).packet.clientKey 1 0) = true ∧ (hitU.runLookup 0 2 false 3 1 0 false).isSome = true
    ∧ ((counted (isaS (isaWord 0x30 3 0 0 0 1)) 0 2).countE 0 0x0C).lookupHits (({} : Thread).packet.clientKey 1 0) = false := by
  refine ⟨by unfold IsaNext; decide +kernel, ?_, ?_, by decide +kernel⟩
  · rw [show (issued (lookS 0x30) 0 2).packet.clientKey 1 0 = key1 by decide +kernel]; exact (finds rfl rfl).2
  · have h : hitU.ctFind key1 = some (Config.ctHash 0 key1 % 2 ^ 21 * 8) := (finds rfl rfl).1
    have k : ∀ i, hitU.heldElsewhere 0 2 i = false := fun i => rfl
    rw [State.runLookup, show (hitU.thread 0 2).packet.clientKey 1 0 = key1 by decide +kernel]
    simp only [h, k]; rfl
/-- Held entry, jobs. -/
def thS (op : Nat) (f : Thread → Thread) : State := isaS (isaWord op 3 1 0 0 0) 0 0 f
/-- A descriptor at W[0x000]: SIV seal with a 256-bit key from g4-g7, 16 bytes of text at 0x100, output at 0x180. -/
def descWin (out : Nat) : Bytes := [1, 1, 0, 4, 0, 0, 0, 0] ++ List.replicate 20 0 ++ [1, 0, 0, 16] ++ beNat 2 out ++ List.replicate 990 0
def aesS (win : Bytes) (g : Nat := 0) (jobs : List Nat := []) : State :=
  isaS (isaWord 0x40 3 1 0 0 0) g 0 fun x => { x with win := win, jobs := jobs }
theorem wit_IsaClientAndCrypto :
    (∀ o ∈ [none, some 5], ∀ b, IsaNext (thS 0x32 fun x => { x with held := o, heldLost := b }) 0 2 0x32 (isaWord 0x32 3 1 0 0 0))
    ∧ (∀ y ∈ [Work.frame {}, .timer 5 1 0 0], IsaNext (thS 0x38 fun x => { x with work := y }) 0 2 0x38 (isaWord 0x38 3 1 0 0 0))
    ∧ (IsaNext (aesS (descWin 0x180)) 0 2 0x40 (isaWord 0x40 3 1 0 0 0) ∧ accessFault 0 40 false = none
      ∧ (issued (aesS (descWin 0x180)) 0 2).freeTag = some 0
      ∧ ∃ d key, aesDesc (descWin 0x180) 0 = some d ∧ d.outLen = 32 ∧ accessFault d.out d.outLen true = none
        ∧ (counted (aesS (descWin 0x180)) 0 2).aesKey (issued (aesS (descWin 0x180)) 0 2) d = some key)
    ∧ (IsaNext (aesS (descWin 0x180) 1024) 0 2 0x40 (isaWord 0x40 3 1 0 0 0) ∧ accessFault 1024 40 false = some 1)
    ∧ (IsaNext (aesS (descWin 0x180) 0 [0, 1, 2, 3]) 0 2 0x40 (isaWord 0x40 3 1 0 0 0)
      ∧ (issued (aesS (descWin 0x180) 0 [0, 1, 2, 3]) 0 2).freeTag = none)
    ∧ (IsaNext (aesS (List.replicate 1024 0)) 0 2 0x40 (isaWord 0x40 3 1 0 0 0) ∧ aesDesc (List.replicate 1024 0) 0 = none)
    ∧ (IsaNext (aesS (descWin 0x240)) 0 2 0x40 (isaWord 0x40 3 1 0 0 0)
      ∧ ∃ d, aesDesc (descWin 0x240) 0 = some d ∧ 0 < d.outLen ∧ accessFault d.out d.outLen true = some 2)
    ∧ (IsaNext (aesS (patch (descWin 0x180) 1 [0, 0, 3])) 0 2 0x40 (isaWord 0x40 3 1 0 0 0)
      ∧ ∃ d, aesDesc (patch (descWin 0x180) 1 [0, 0, 3]) 0 = some d
        ∧ (counted (aesS (patch (descWin 0x180) 1 [0, 0, 3])) 0 2).aesKey (issued (aesS (patch (descWin 0x180) 1 [0, 0, 3])) 0 2) d = none)
    ∧ (∀ p ∈ [([], [(0, 0)]), ([0], []), ([], [])],
        IsaNext (thS 0x41 fun x => { x with jobs := p.1, doneJobs := p.2 }) 0 2 0x41 (isaWord 0x41 3 1 0 0 0)) := by
  refine ⟨?_, ?_, ⟨?_, ?_, ?_, _, _, rfl, ?_, ?_, rfl⟩, ?_, ?_, ?_, ⟨?_, _, rfl, ?_, ?_⟩, ⟨?_, _, rfl, ?_⟩, ?_⟩ <;>
    first | (unfold IsaNext; decide +kernel) | decide +kernel
/-- An emit of control word `cw`. -/
def emitS (cw : Nat) (fl : Nat := 0) (n : Nat := 0) (nb : Nat := 0) (kind : Nat := 0) : State :=
  isaS (isaWord 0x50 3 1 0 fl (kind * 65536)) 0 0 fun x => { x with emits := n, regs := (x.regs.set 1 (BitVec.ofNat 64 cw)).set 3 (BitVec.ofNat 64 nb) }
theorem wit_IsaEndings :
    -- a frame of 14 and of 512 bytes on port 3, and on the port of arrival; with and without flag E
    (∀ cw ∈ [3 * 65536 + 14, 3 * 65536 + 512, 0xFE * 65536 + 14], ∀ fl ∈ [0, 2 ^ 36], ∀ nb ∈ [0, 4012500000],
      IsaNext (emitS cw fl 3 nb) 0 2 0x50 (isaWord 0x50 3 1 0 fl 0) ∧ (issued (emitS cw fl 3 nb) 0 2).emits < 4
      ∧ nb ≤ (emitS cw fl 3 nb).tb.raw + 12500000 ∧ cw / 2 ^ 32 = 0 ∧ cw / 2 ^ 24 % 32 = 0 ∧ 14 ≤ cw % 65536 ∧ cw % 65536 ≤ 512
      ∧ insertOk 0 0 (cw % 65536) = true)
    ∧ (issued (emitS 0 0 4) 0 2).emits = 4 ∧ IsaNext (emitS 0 0 4) 0 2 0x50 (isaWord 0x50 3 1 0 0 0)
    ∧ (emitS 0 0 0 4012500001).tb.raw + 12500000 < 4012500001 ∧ IsaNext (emitS 0 0 0 4012500001) 0 2 0x50 (isaWord 0x50 3 1 0 0 0)
    -- fault 11: 13 and 513 bytes, a reserved bit, an insertion past the end, port 64
    ∧ (∀ p ∈ [(13, 0), (513, 0), (2 ^ 24 + 14, 0), (14, 1), (64 * 65536 + 14, 0)], IsaNext (emitS p.1 0 0 0 p.2) 0 2 0x50 (isaWord 0x50 3 1 0 0 (p.2 * 65536)))
    ∧ insertOk 1 0 14 = true ∧ insertOk 2 0 14 = false
    ∧ (∀ fl ∈ [0, 2 ^ 35], IsaNext (isaS (isaWord 0x51 0 0 0 fl 200)) 0 2 0x51 (isaWord 0x51 0 0 0 fl 200))
    ∧ (∀ y ∈ [Work.frame {}, .timer 5 1 0 0], IsaNext (thS 0x52 fun x => { x with work := y }) 0 2 0x52 (isaWord 0x52 3 1 0 0 0))
    ∧ (∀ a ∈ [0, 1], IsaNext (isaS (isaWord 0x58 0 a 0 0 200)) 0 2 0x58 (isaWord 0x58 0 a 0 0 200)) := by
  refine ⟨?_, ?_, ?_, ?_, ?_, ?_, ?_, ?_, ?_, ?_, ?_⟩ <;> first | (unfold IsaNext; decide +kernel) | decide +kernel
/-- PTP instance 0 on port 3, whose link is up. -/
def ptpS (l : List (Nat × Int) := []) : State :=
  State.nums seeded ([(Obj.link_state 3, 3), (Obj.inst_enable 0, 1), (Obj.member_ports 0, 8), (Obj.transport 0, 0), (Obj.instance_role 0, 0),
    (Obj.profile 0, 0), (Obj.domain_number 0, 0), (Obj.timing_condition, 3)] ++ l)
/-- A PTP message of a type on port 3, in a ring 4 item; action field `act`, managementId 0x2000. -/
def ptpPkt (type act : Nat) : Pkt :=
  { data := List.replicate 12 2 ++ [0x88, 0xF7] ++ beNat 1 type ++ [0x12, 0, 64] ++ List.replicate 42 0 ++ beNat 1 act ++ List.replicate 5 0 ++ [0x20, 0] ++ List.replicate 10 0,
    port := 3, payload := 14 }
def withRing4 (s : State) (p : Pkt) : State := s.setRing 4 { items := [{ pkt := p, reason := 2, seq := 0 }] }
def ringTaken (s : State) : State := (s.setRing 4 {}).count 8 0x08
def steepOf (s : State) : State := { s with mode := { s.mode with cur := .steep } }
/-- The state an NTS-KE handshake starts from, and a client hello with the base point of P-256. -/
def keS : State := { State.nums up [(Obj.nts_ke_max_sessions, 4)] with
  sec := { up.sec with keySlots := [(1, [7])] }, flash := { up.flash with keKey := some ([7], 1) } }
def hello (tls alpn : Bool) : KeHello :=
  { conn := 5, tls13 := tls, alpn := alpn, suites := [0x1301], sigs := [1], records := [],
    shares := [(1, [4] ++ beNat 32 0x6B17D1F2E12C4247F8BCE6E563A440F277037D812DEB33A0F4A13945D898C296
      ++ beNat 32 0x4FE342E2FE1A7F9B8EE7EB4A7C0F9E162BCE33576B315ECECBB6406837BF51F5)] }
/-- The first segment of a client hello to the NTS-KE port, from port 3. -/
def kePkt : Pkt :=
  { data := List.replicate 12 2 ++ [8, 0, 0x45, 0, 0, 40, 0, 0, 0, 0, 64, 6] ++ List.replicate 10 0 ++ [0x12, 0x34, 0x11, 0x6C] ++ List.replicate 16 0, port := 3 }
/-- That segment waits on ring 3; firmware has taken it. -/
def keWaits (s : State) : State := s.setRing 3 { items := [{ pkt := kePkt, reason := 0, seq := 0 }] }
def keTaken (s : State) : State := (s.setRing 3 {}).count 8 0x08 1
theorem ke_taken (s : State) (h : (keWaits s).nn (Obj.vlan_tpid 3) = 0x8100) (r : (keWaits s).ring 3 = { items := [{ pkt := kePkt, reason := 0, seq := 0 }] }) :
    (keWaits s).takeNtsKe false = some (kePkt, keTaken (keWaits s)) := by
  have t : (keWaits s).tpidOf kePkt = 0x8100 := by rw [← h]; rfl
  have n : isNtsKe 0x8100 kePkt.data = true := by decide +kernel
  have c : (keWaits s).sameConn kePkt kePkt = true := by simp [State.sameConn]
  simp [State.takeNtsKe, r, t, n, c, keTaken]
theorem crcBit_lt : ∀ k c : Nat, c < 2 ^ 32 → crcBit k c < 2 ^ 32
  | 0, _, h => h
  | k + 1, c, h => crcBit_lt k _ (by
      have x : c / 2 < 2 ^ 32 := by omega
      split
      · exact Nat.xor_lt_two_pow x (by decide)
      · exact x)
theorem crc32c_lt (b : Bytes) : crc32c b < 2 ^ 32 := by
  refine Nat.xor_lt_two_pow ?_ (by decide)
  suffices h : ∀ (l : Bytes) (c : Nat), c < 2 ^ 32 → l.foldl (fun c x => crcBit 8 (c ^^^ x.toNat)) c < 2 ^ 32 from h b _ (by decide)
  intro l
  induction l with
  | nil => exact fun _ h => h
  | cons x l ih => exact fun c h => ih _ (crcBit_lt 8 _ (Nat.xor_lt_two_pow h (by have := x.isLt; omega)))
/-- A descriptor at address 64 with an operation and flags; its destination is the tile at 1024. -/
def bnMem (op flags : Nat) : Memory :=
  memWrite [] 64 (beNat 1 op ++ beNat 1 flags ++ [1, 0, 0, 1, 0, 1] ++ List.replicate 46 0 ++ [4, 0])
/-- A chain with that descriptor, and the check values of its memory. -/
def bnS (op flags : Nat) (sums : List (Nat × Nat)) : State := { up with
  mem := { up.mem with sram := bnMem op flags, sramSums := sums }
  bn := { up.bn with cur := some { queue := 1, addr := 64 } } }
/-- Tile 0 holds the check value of its bytes, tile 4 one that no bytes give. -/
def tile0 (op flags : Nat) : List (Nat × Nat) := [(0, memCheck (bnMem op flags) 0), (4, 1099511627776)]
theorem tile0_passes (op flags : Nat) : (bnS op flags (tile0 op flags)).mem.passes 0 none 0 = true := by
  simp [MemUnits.passes, MemUnits.space, MemUnits.sums, bnS, tile0, sumOf, memCheck]
theorem tile_above (op flags k : Nat) (l : List (Nat × Nat)) (h : sumOf l k = 1099511627776) : (bnS op flags l).mem.passes 0 none k = false := by
  simp only [MemUnits.passes, MemUnits.space, MemUnits.sums, bnS, h, if_true, tileCheck]
  refine beq_false_of_ne fun e => ?_
  have := e ▸ crc32c_lt _
  omega
theorem bn_spare (op flags : Nat) (r : Nat × Nat) (h : spaceOf r.1 = 0) (k : tilesOf (byteOf r.1) r.2 = [0]) :
    (bnS op flags (tile0 op flags)).failedTile none false r = none := by
  simp [State.failedTile, h, k, tile0_passes]
theorem bn_sources (op flags : Nat) (h : ∀ r ∈ (64, 64) :: ((bnS op flags (tile0 op flags)).bnDesc { queue := 1, addr := 64 }).sources,
    spaceOf r.1 = 0 ∧ tilesOf (byteOf r.1) r.2 = [0]) :
    (bnS op flags (tile0 op flags)).badSource none { queue := 1, addr := 64 } ((bnS op flags (tile0 op flags)).bnDesc { queue := 1, addr := 64 }) = none := by
  simp only [State.badSource, List.findSome?_eq_none_iff]
  exact fun r hr => bn_spare op flags r (h r hr).1 (h r hr).2
theorem bn_first (op flags : Nat) : (bnS op flags [(0, 1099511627776)]).badSource none { queue := 1, addr := 64 }
    ((bnS op flags [(0, 1099511627776)]).bnDesc { queue := 1, addr := 64 }) = some 0 := by
  simp [State.badSource, State.failedTile, show spaceOf 64 = 0 by decide, show tilesOf (byteOf 64) 64 = [0] by decide, tile_above op flags 0 [(0, 1099511627776)] rfl]
theorem bn_target : (bnS 2 8 (tile0 2 8)).badTarget none ((bnS 2 8 (tile0 2 8)).bnDesc { queue := 1, addr := 64 }) = some 1024 := by
  have w : ((bnS 2 8 (tile0 2 8)).bnDesc { queue := 1, addr := 64 }).writes = true := by decide +kernel
  have d : ((bnS 2 8 (tile0 2 8)).bnDesc { queue := 1, addr := 64 }).d = 1024 := by decide +kernel
  have l : ((bnS 2 8 (tile0 2 8)).bnDesc { queue := 1, addr := 64 }).lenC = 2 := by decide +kernel
  simp [State.badTarget, w, d, l, State.failedTile, show spaceOf 1024 = 0 by decide, show partTiles (byteOf 1024) 16 = [4] by decide, tile_above 2 8 4 (tile0 2 8) rfl]
theorem wit_PtpCommands_1 :
    (∃ (s t u : State) (p : Pkt) (i : Fin 4), s.firmwareUp = true ∧ s.takeRing4 11 = some (p, t)
      ∧ t.instOf p.port p.transport (p.data.drop p.payload) = some i ∧ t.secured? i (p.data.drop p.payload) = (true, u))
    ∧ (∃ (s t : State) (p : Pkt), s.firmwareUp = true ∧ s.takeRing4 11 = some (p, t) ∧ t.instOf p.port p.transport (p.data.drop p.payload) = none)
    ∧ (∃ s : State, s.takeRing4 11 = none)
    ∧ (∃ (s : State) (i : Fin 4) (n : Fin 64) (at' : Nat), s.firmwareUp = true ∧ (s.ptpPort i n).timeoutAt = some at' ∧ at' ≤ s.now
      ∧ s.announceWaits i n = false)
    ∧ (∃ (s : State) (i : Fin 4) (n : Fin 64) (at' : Nat), (s.ptpPort i n).timeoutAt = some at' ∧ (s.now < at' ∨ s.announceWaits i n = true))
    ∧ (∃ (s : State) (i : Fin 4) (n : Fin 64), s.serveAwake = true ∧ s.serve.stopped = false ∧ s.receives i n = true
      ∧ (s.nn (Obj.port_state i n) = 9 ∨ s.nn (Obj.port_state i n) = 8) ∧ s.isP2p i = false ∧ (s.ptpPort i n).reqNext ≤ s.now)
    ∧ (∃ (s : State) (i : Fin 4) (n : Fin 64), s.now < (s.ptpPort i n).reqNext)
    ∧ (∃ (s : State) (i : Fin 4) (n : Fin 64), s.serveAwake = true ∧ s.serve.stopped = false ∧ s.member i n = true ∧ s.isP2p i = true
      ∧ s.mode.cur ≠ .steep ∧ s.linkUp n = true ∧ (s.transmitMode = true ∨ s.nn (Obj.port_state i n) ≠ 6) ∧ (s.ptpPort i n).pdelayNext ≤ s.now) :=
  ⟨⟨withRing4 ptpS (ptpPkt 11 0), ringTaken (withRing4 ptpS (ptpPkt 11 0)), _, ptpPkt 11 0, 0, by decide +kernel, rfl, by decide +kernel, rfl⟩,
   ⟨withRing4 up (ptpPkt 11 0), ringTaken (withRing4 up (ptpPkt 11 0)), ptpPkt 11 0, by decide +kernel, rfl, by decide +kernel⟩,
   ⟨up, rfl⟩,
   ⟨up.setPtpPort 2 7 { timeoutAt := some 5 }, 2, 7, 5, by decide +kernel⟩,
   ⟨up.setPtpPort 2 7 { timeoutAt := some 10000000000001 }, 2, 7, 10000000000001, by decide +kernel⟩,
   ⟨ptpS [(Obj.instance_role 0, 1), (Obj.port_state 0 3, 9)], 0, 3, by decide +kernel⟩,
   ⟨up.setPtpPort 2 7 { reqNext := 10000000000001 }, 2, 7, by decide +kernel⟩,
   ⟨ptpS [(Obj.profile 0, 1)], 0, 3, by decide +kernel⟩⟩
theorem wit_PtpCommands_2 :
    (∃ (s : State) (i : Fin 4) (n : Fin 64), (s.mode.cur = .steep ∨ s.transmitMode = false ∧ s.nn (Obj.port_state i n) = 6))
    ∧ (∃ (s t u : State) (p : Pkt) (i : Fin 4) (h : p.port < 64) (act : Nat), s.firmwareUp = true ∧ s.takeRing4 13 = some (p, t)
      ∧ t.instOf p.port p.transport (p.data.drop p.payload) = some i ∧ t.secured? i (p.data.drop p.payload) = (true, u) ∧ u.mode.cur ≠ .steep
      ∧ (u.transmitMode = true ∨ u.nn (Obj.port_state i p.port) ≠ 6) ∧ fieldN (p.data.drop p.payload) 46 1 % 16 = act ∧ (act = 0 ∨ act = 1 ∨ act = 3)
      ∧ ∃ (tlv hdr : Bytes) (flags : Nat),
      (match u.managementData i p.port (fieldN (p.data.drop p.payload) 52 2) with | some d => tlv = if act = 0 then [0, 1] ++ beNat 2 (2 + d.length) ++ beNat 2 (fieldN (p.data.drop p.payload) 52 2) ++ d else [0, 2, 0, 8, 0, 6] ++ beNat 2 (fieldN (p.data.drop p.payload) 52 2) ++ [0, 0, 0, 0] | none => tlv = [0, 2, 0, 8, 0, 6] ++ beNat 2 (fieldN (p.data.drop p.payload) 52 2) ++ [0, 0, 0, 0])
      ∧ (if fieldN p.data 0 1 % 2 = 1 then hdr = u.multicastHeader i p.port false false ∧ flags = 0 else hdr = replyHeader p 320 ∧ flags = 4))
    ∧ (∃ (s t u : State) (p : Pkt) (i : Fin 4), s.firmwareUp = true ∧ s.takeRing4 13 = some (p, t)
      ∧ t.instOf p.port p.transport (p.data.drop p.payload) = some i ∧ t.secured? i (p.data.drop p.payload) = (true, u)
      ∧ (u.mode.cur = .steep ∨ u.transmitMode = false ∧ u.nn (Obj.port_state i p.port) = 6))
    ∧ (∃ (s t : State) (p : Pkt), s.firmwareUp = true ∧ s.takeRing4 13 = some (p, t) ∧ t.instOf p.port p.transport (p.data.drop p.payload) = none)
    ∧ (∃ s : State, s.takeRing4 13 = none)
    ∧ (∃ (s : State) (i : Fin 4) (n : Fin 64), s.firmwareUp = true ∧ s.serve.stopped = false ∧ s.profile i = 4 ∧ s.transmits i n = true
      ∧ (s.ptpPort i n).smNext ≤ s.now)
    ∧ (∃ (s : State) (i : Fin 4) (n : Fin 64), s.profile i ≠ 4)
    ∧ (∃ (s : State) (i m : Fin 4) (n : Fin 64), s.serveAwake = true ∧ s.serve.stopped = false ∧ s.unicastOn i = true ∧ s.receives i n = true
      ∧ s.nn (Obj.receiver_port i) = n.val ∧ (s.octs (Obj.unicast_masters i m)).length = 16 ∧ s.octs (Obj.unicast_masters i m) ≠ List.replicate 16 0
      ∧ s.prot.insts[i].renewals = []) :=
  ⟨⟨steepOf up, 2, 7, by decide +kernel⟩,
   ⟨withRing4 ptpS (ptpPkt 13 0), ringTaken (withRing4 ptpS (ptpPkt 13 0)), _, ptpPkt 13 0, 0, by decide +kernel, 0, by decide +kernel, rfl,
     by decide +kernel, rfl, by decide +kernel, by decide +kernel, by decide +kernel, by decide +kernel, _, _, 4,
     by rw [show fieldN ((ptpPkt 13 0).data.drop (ptpPkt 13 0).payload) 52 2 = 0x2000 by decide +kernel]; rfl,
     by rw [if_neg (by decide +kernel)]; exact ⟨rfl, rfl⟩⟩,
   ⟨steepOf (withRing4 ptpS (ptpPkt 13 0)), ringTaken (steepOf (withRing4 ptpS (ptpPkt 13 0))), _, ptpPkt 13 0, 0, by decide +kernel, rfl,
     by decide +kernel, rfl, by decide +kernel⟩,
   ⟨withRing4 up (ptpPkt 13 0), ringTaken (withRing4 up (ptpPkt 13 0)), ptpPkt 13 0, by decide +kernel, rfl, by decide +kernel⟩,
   ⟨up, rfl⟩,
   ⟨{ ptpS [(Obj.profile 0, 4), (Obj.instance_role 0, 1), (Obj.port_state 0 3, ptpTransmitter), (Obj.domain_number 0, 127)] with mode := { cur := .tap, bringupDone := true } },
     0, 3, by decide +kernel⟩,
   ⟨State.nums up [(Obj.profile 2, 3)], 2, 7, by decide +kernel⟩,
   ⟨(ptpS [(Obj.unicast_enable 0, 1), (Obj.instance_role 0, 1), (Obj.receiver_port 0, 3)]).putO (Obj.unicast_masters 0 2) (List.replicate 16 1), 0, 2,
     3, by decide +kernel⟩⟩
theorem wit_PtpCommands_3 :
    ∃ (s : State) (i m : Fin 4) (k : Nat), s.unicastOn i = false :=
  ⟨State.nums up [(Obj.unicast_enable 0, 0)], 0, 2, 11, by decide +kernel⟩
theorem wit_RankOrderIsStrict :
    (∃ a b : List Nat, lexLess a b = true)
    ∧ (∃ a b c : List Nat, a.length = b.length ∧ b.length = c.length ∧ lexLess a b = true ∧ lexLess b c = true) :=
  ⟨⟨[1, 2], [1, 3], by decide +kernel⟩,
   ⟨[1, 2], [1, 3], [2, 0], by decide +kernel⟩⟩
theorem wit_NtsCommands_1 :
    (∃ s : State, Wf s ∧ s.awake 7 = true ∧ s.sec.cookieKeys = true ∧ s.prot.keyIndex ≠ some s.keyIndexNow)
    ∧ (∃ s : State, s.prot.keyIndex = some s.keyIndexNow)
    ∧ (∃ (s : State) (key : Bytes) (k : Nat), s.firmwareUp = true ∧ key.length = 32 ∧ s.prot.keyIndex = some k)
    ∧ (∃ (s : State) (key : Bytes), s.firmwareUp = false)
    ∧ (∃ (s : State) (h : KeHello), s.takeNtsKe h.mgmt = none)
    ∧ (∃ (s u : State) (h : KeHello) (p : Pkt), s.takeNtsKe h.mgmt = some (p, u))
    ∧ (∃ (s u : State) (h : KeHello) (p : Pkt), s.firmwareUp = true ∧ s.awake 7 = true ∧ s.serveAwake = true ∧ s.serve.stopped = false
      ∧ s.sys.warmAt = none ∧ s.takeNtsKe h.mgmt = some (p, u) ∧ s.nn Obj.nts_ke_max_sessions ≤ (s.prot.keConns.filter fun c => c.id ≠ h.conn).length)
    ∧ (∃ (s u : State) (h : KeHello) (p : Pkt) (key : Bytes) (alg : Nat), s.firmwareUp = true ∧ s.awake 7 = true ∧ s.serveAwake = true
      ∧ s.serve.stopped = false ∧ s.sys.warmAt = none ∧ s.takeNtsKe h.mgmt = some (p, u)
      ∧ (s.prot.keConns.filter fun c => c.id ≠ h.conn).length < s.nn Obj.nts_ke_max_sessions ∧ s.bn.failed = false ∧ s.sec.storageOff = false
      ∧ s.keySlot 1 = some key ∧ s.flash.keKey.map (fun p => p.2) = some alg ∧ h.tls13 = false) :=
  ⟨⟨{ seeded with sec := { up.sec with cookieKeys := true } }, by unfold Wf; decide +kernel⟩,
   ⟨{ seeded with prot := { up.prot with keyIndex := some seeded.keyIndexNow } }, by decide +kernel⟩,
   ⟨{ seeded with prot := { up.prot with keyIndex := some 3 } }, List.replicate 32 1, 3, by decide +kernel⟩,
   ⟨State.reset, [], by decide +kernel⟩,
   ⟨up, hello true true, rfl⟩,
   ⟨keWaits up, keTaken (keWaits up), hello true true, kePkt, ke_taken _ (by decide +kernel) rfl⟩,
   ⟨keWaits (State.nums up [(Obj.nts_ke_max_sessions, 0)]), keTaken (keWaits (State.nums up [(Obj.nts_ke_max_sessions, 0)])), hello true true, kePkt,
     by decide +kernel, by decide +kernel, by decide +kernel, by decide +kernel, by decide +kernel, ke_taken _ (by decide +kernel) rfl,
     by decide +kernel⟩,
   ⟨keWaits (keS), keTaken (keWaits (keS)), hello false true, kePkt, [7], 1, by decide +kernel, by decide +kernel, by decide +kernel,
     by decide +kernel, by decide +kernel, ke_taken _ (by decide +kernel) rfl, by decide +kernel⟩⟩
theorem wit_NtsCommands_2 :
    (∃ (s u : State) (h : KeHello) (p : Pkt) (key : Bytes) (alg : Nat), s.firmwareUp = true ∧ s.awake 7 = true ∧ s.serveAwake = true
      ∧ s.serve.stopped = false ∧ s.sys.warmAt = none ∧ s.takeNtsKe h.mgmt = some (p, u)
      ∧ (s.prot.keConns.filter fun c => c.id ≠ h.conn).length < s.nn Obj.nts_ke_max_sessions ∧ s.bn.failed = false ∧ s.sec.storageOff = false
      ∧ s.keySlot 1 = some key ∧ s.flash.keKey.map (fun p => p.2) = some alg ∧ h.tls13 = true ∧ h.alpn = false)
    ∧ (∃ (s u : State) (h : KeHello) (p : Pkt), s.firmwareUp = true ∧ s.awake 7 = true ∧ s.serveAwake = true ∧ s.serve.stopped = false
      ∧ s.sys.warmAt = none ∧ s.takeNtsKe h.mgmt = some (p, u) ∧ (s.prot.keConns.filter fun c => c.id ≠ h.conn).length < s.nn Obj.nts_ke_max_sessions
      ∧ s.bn.failed = true)
    ∧ (∃ (s u : State) (h : KeHello) (p : Pkt) (key point : Bytes) (alg suite group : Nat), s.firmwareUp = true ∧ s.awake 7 = true
      ∧ s.serveAwake = true ∧ s.serve.stopped = false ∧ s.sys.warmAt = none ∧ s.takeNtsKe h.mgmt = some (p, u)
      ∧ (s.prot.keConns.filter fun c => c.id ≠ h.conn).length < s.nn Obj.nts_ke_max_sessions ∧ s.bn.failed = false ∧ s.sec.storageOff = false
      ∧ s.keySlot 1 = some key ∧ s.flash.keKey.map (fun p => p.2) = some alg ∧ h.tls13 = true ∧ h.alpn = true ∧ allZero (s.chain 0x8344) = false
      ∧ h.suites.find? (fun c => c == 0x1301 || c == 0x1302) = some suite ∧ h.shares.find? (fun g => g.1 ≤ 2) = some (group, point)
      ∧ h.sigs.contains alg = true ∧ h.sigBad = false ∧ ∃ priv v,
      ({ u with prot := { u.prot with keConns := (u.prot.keConns.filter fun c => c.id ≠ h.conn) ++ [{ id := h.conn, lastAt := s.now }] } } : State).random (if group = 2 then 48 else 32) = (priv,
      v) ∧ pointOk group priv point = true)
    ∧ (∃ (s u : State) (k : Bytes), Wf s ∧ s.firmwareUp = true ∧ s.awake 7 = true ∧ s.sec.storageOff = false
      ∧ s.random (if s.nn Obj.nts_ke_key_alg = 1 then 48 else 32) = (k, u))
    ∧ (∃ s : State, s.firmwareUp = false) :=
  ⟨⟨keWaits (keS), keTaken (keWaits (keS)), hello true false, kePkt, [7], 1, by decide +kernel, by decide +kernel, by decide +kernel, by decide +kernel,
  by decide +kernel, ke_taken _ (by decide +kernel) rfl, by decide +kernel⟩,
   ⟨keWaits ({ keS with bn := { up.bn with failed := true } }), keTaken (keWaits ({ keS with bn := { up.bn with failed := true } })), hello true true,
     kePkt, by decide +kernel, by decide +kernel, by decide +kernel, by decide +kernel, by decide +kernel, ke_taken _ (by decide +kernel) rfl,
     by decide +kernel⟩,
   (by refine ⟨keWaits (keS.putO (0x8344 * 256) [1]), keTaken (keWaits (keS.putO (0x8344 * 256) [1])), hello true true, kePkt, [7],
     (hello true true).shares.headD (0, []) |>.2, 1, 0x1301, 1, by decide +kernel, by decide +kernel, by decide +kernel, by decide +kernel,
     by decide +kernel, ke_taken _ (by decide +kernel) rfl, ?_⟩; (iterate 12 refine ⟨by decide +kernel, ?_⟩); exact ⟨_, _, rfl, by decide +kernel⟩),
   ⟨up, _, _, by unfold Wf; decide +kernel, by decide +kernel, by decide +kernel, by decide +kernel, rfl⟩,
   ⟨State.reset, by decide +kernel⟩⟩
theorem wit_BigNumberResults :
    ∃ (s : State) (bad : Option (Nat × Byte)) (c : BnChain) (d : BnDesc) (a b cc n n' : Nat), Wf s ∧ s.awake 7 = true ∧ s.bn.cur = some c
      ∧ d = s.bnDesc c ∧ spaceOf d.d ≤ 2 ∧ s.bnOperands d = (a, b, cc, n, n') ∧ s.badSource bad c d = none ∧ s.badTarget bad d = none :=
  ⟨bnS 3 0 (tile0 3 0), none, { queue := 1, addr := 64 }, _, _, _, _, _, _, by unfold Wf; decide +kernel, by decide +kernel, rfl, rfl,
    by decide +kernel, rfl, bn_sources 3 0 (by decide +kernel), by decide +kernel⟩
theorem wit_MontgomeryRowFits :
    ∃ w a b n n' c : Nat, 0 < w ∧ n < 2 ^ (64 * w) ∧ (n * n' + 1) % 2 ^ 64 = 0 ∧ c < 2 * n ∧ a < 2 * n ∧ b < 2 ^ 64 :=
  ⟨1, 4, 1, 3, 0x5555555555555555, 5, by decide +kernel⟩
theorem wit_BigNumberCommands_1 :
    (∃ s : State, s.awake 7 = true ∧ s.blockBusy 0x0400 = false)
    ∧ (∃ (s : State) (q : Fin 4) (a : Nat) (w : List (Nat × Bytes)), s.awake 7 = true ∧ s.firmwareUp = true ∧ s.blockBusy 0x0400 = true)
    ∧ (∃ (s : State) (p : Option (Fin 4 × Nat × List (Nat × Bytes))), s.awake 7 = false)
    ∧ (∃ (s : State) (c : BnChain) (bad : Option (Nat × Byte)) (a : Nat), s.awake 7 = true ∧ s.bn.cur = some c
      ∧ s.badSource bad c (s.bnDesc c) = some a ∧ ∃ p, p ∈ [(1, Instr.rowMac bad), (2, .product bad), (3, .montRow bad)] ∧ (s.bnDesc c).op = p.1)
    ∧ (∃ (s : State) (c : BnChain) (bad : Option (Nat × Byte)) (a : Nat), s.awake 7 = true ∧ s.bn.cur = some c ∧ s.badSource bad c (s.bnDesc c) = none
      ∧ s.badTarget bad (s.bnDesc c) = some a ∧ ∃ p, p ∈ [(1, Instr.rowMac bad), (2, .product bad), (3, .montRow bad)] ∧ (s.bnDesc c).op = p.1)
    ∧ (∃ (s : State) (bad : Option (Nat × Byte)), s.bn.cur = none)
    ∧ (∃ (s : State) (c : BnChain), s.awake 7 = true ∧ s.bn.cur = some c)
    ∧ (∃ (s : State) (q : Fin 4), s.awake 7 = true ∧ s.bn.cur = none ∧ s.bn.queues[q] ≠ []) :=
  ⟨⟨up, by decide +kernel⟩,
   ⟨{ up with sys := { up.sys with block := some { code := 0x0400, force := false, since := 0 } } }, 2, 64, [], by decide +kernel⟩,
   ⟨State.reset, none, by decide +kernel⟩,
   ⟨bnS 1 0 [(0, 1099511627776)], { queue := 1, addr := 64 }, none, 0, by decide +kernel, rfl, bn_first 1 0, (1, .rowMac none), by simp,
     by decide +kernel⟩,
   ⟨bnS 2 8 (tile0 2 8), { queue := 1, addr := 64 }, none, 1024, by decide +kernel, rfl, bn_sources 2 8 (by decide +kernel), bn_target, (2,
     .product none), by simp, by decide +kernel⟩,
   ⟨up, none, by decide +kernel⟩,
   ⟨bnS 1 0 [], { queue := 1, addr := 64 }, by decide +kernel⟩,
   ⟨{ up with bn := { up.bn with queues := up.bn.queues.set 2 [64] } }, 2, by decide +kernel⟩⟩
theorem wit_BigNumberCommands_2 :
    (∃ (s : State) (q : Fin 4), s.bn.cur = none ∧ s.bn.queues[q] = [])
    ∧ (∃ (s : State) (pass : Bool) (cause : Nat), Wf s ∧ s.awake 7 = true ∧ s.bn.test = some cause ∧ s.bn.cur = none)
    ∧ (∃ (s : State) (pass : Bool), s.bn.test = none) :=
  ⟨⟨up, 2, by decide +kernel⟩,
   ⟨{ up with bn := { up.bn with test := some 1 } }, true, 1, by unfold Wf; decide +kernel⟩,
   ⟨up, true, by decide +kernel⟩⟩
theorem wit_HostSpiCommands :
    (∃ (s : State) (b : Bytes), s.agentUp = true ∧ 4 ≤ b.length ∧ b[0]! = 0x5A ∧ b[1]!.getLsbD 7 = false ∧ fieldN b 2 2 + 4 = b.length
      ∧ s.ool.spiQ.length < 16)
    ∧ (∃ (s : State) (b : Bytes), s.agentUp = true ∧ 4 ≤ b.length ∧ b[0]! = 0x5A ∧ b[1]!.getLsbD 7 = false ∧ fieldN b 2 2 + 4 = b.length
      ∧ s.ool.spiQ.length = 16)
    ∧ (∃ (s : State) (b : Bytes), s.agentUp = true ∧ (b.length < 4 ∨ b[0]! ≠ 0x5A ∨ b[1]!.getLsbD 7 = true ∨ fieldN b 2 2 + 4 ≠ b.length))
    ∧ (∃ (s : State) (clocked : Nat) (f : Bytes) (rest : List Bytes), s.agentUp = true ∧ s.ool.spiOut = f :: rest ∧ 8 + f.length ≤ clocked)
    ∧ (∃ (s : State) (clocked : Nat) (f : Bytes) (rest : List Bytes), s.agentUp = true ∧ s.ool.spiOut = f :: rest ∧ clocked < 8 + f.length)
    ∧ (∃ (s : State) (clocked : Nat), s.agentUp = true ∧ s.ool.spiOut = [])
    ∧ (∃ (s : State) (b : Bytes) (n : Nat), s.agentUp = false) :=
  ⟨⟨up, [0x5A, 1, 0, 2, 9, 9], by decide +kernel⟩,
   ⟨{ up with ool := { up.ool with spiQ := List.replicate 16 { path := .spi, frame := [] } } }, [0x5A, 1, 0, 2, 9, 9], by decide +kernel⟩,
   ⟨up, [0x5A, 1, 0], by decide +kernel⟩,
   ⟨{ up with ool := { up.ool with spiOut := [[1, 2]] } }, 10, [1, 2], [], by decide +kernel⟩,
   ⟨{ up with ool := { up.ool with spiOut := [[1, 2]] } }, 9, [1, 2], [], by decide +kernel⟩,
   ⟨up, 4, by decide +kernel⟩,
   ⟨State.reset, [], 0, by decide +kernel⟩⟩
theorem wit_ItemChecks :
    (∃ (s : State) (own ext : Bool) (i sub ty : Nat) (b : Bytes), bulkRow i = none ∧ objRow (objKey i sub) = none)
    ∧ (∃ (s : State) (own ext : Bool) (i sub ty : Nat) (b : Bytes) (r : ObjRow), bulkRow i = none ∧ objRow (objKey i sub) = some r
      ∧ s.answers (r.domain i) = false)
    ∧ (∃ (s : State) (own ext : Bool) (i ty : Nat) (b : Bytes) (w : BulkRow), bulkRow i = some w ∧ s.answers w.dom = true)
    ∧ (∃ (s : State) (own : Bool) (i sub ty : Nat) (b : Bytes) (r : ObjRow), bulkRow i = none ∧ objRow (objKey i sub) = some r
      ∧ s.answers (r.domain i) = true ∧ (r.acc = .const ∨ r.acc = .ro ∨ r.acc = .rx))
    ∧ (∃ (s : State) (i sub ty : Nat) (b : Bytes) (r : ObjRow), bulkRow i = none ∧ objRow (objKey i sub) = some r ∧ s.answers (r.domain i) = true
      ∧ (r.acc = .rw ∨ r.acc = .ow ∨ r.acc = .wo)) :=
  ⟨⟨up, true, true, 0, 0, 1, [], by decide +kernel⟩,
   ⟨State.reset, true, true, 0x4000, 1, 1, [], _, by decide +kernel, rfl, by decide +kernel⟩,
   ⟨up, true, true, 0x8000, 1, [], _, rfl, by decide +kernel⟩,
   ⟨up, true, 0x5200, 1, 1, [], _, by decide +kernel, rfl, by decide +kernel⟩,
   ⟨up, 0x5400, 2, 1, [], _, by decide +kernel, rfl, by decide +kernel⟩⟩
/-- A configuration set with one record, and a write of it. -/
def set3 : CfgSet := { sequence := 3, generation := 1, records := [clearRecord Obj.tamper_policy [1]] }
def writing : State := { up with ool := { up.ool with persisting := some { set := set3, since := 0 } } }
theorem writing_bank : writing.flash.activeBank = none := by decide +kernel
/-- Session 3: identifier 7, owner right or not, local authority or not. -/
def sess (o l : Bool) : Session := { id := 7, key := [1], method := 1, path := .spi, owner := o, localAuth := l }
/-- Session 3 is open. -/
def opened (l : List (Nat × Int) := []) (o : Bool := true) (la : Bool := false) : State :=
  let s := State.nums seeded l
  { s with ool := { s.ool with sessions := s.ool.sessions.set 3 (some (sess o la)) } }
/-- Session 3 owns the device, with a transaction or without. -/
def owned (txn : Option Txn := none) (l : List (Nat × Int) := []) : State :=
  let s := opened ([(Obj.owner_session, 3), (Obj.owner_state, 2), (Obj.owner_priority, 9)] ++ l)
  { s with ool := { s.ool with txn } }
/-- A request's frame: sequence 1 of the session of identifier 7, its tag appended (R52). -/
def reqBody (op : Nat) (p : Bytes) : Bytes := [0x4F, 0x4C, 1, BitVec.ofNat 8 op, 0, 0, 0, 7, 0, 0, 0, 0, 0, 0, 0, 1] ++ beNat 2 p.length ++ [1, 0] ++ p
def reqItem (op : Nat) (p : Bytes) : RxItem := { path := .spi, frame := reqBody op p ++ oolTag (some [1]) (reqBody op p) }
/-- The request waits. -/
def sent (s : State) (op : Nat) (p : Bytes) : State := { s with ool := { s.ool with spiQ := [reqItem op p], mgmtOut := [] } }
def emptied (s : State) : State := { s with ool := { s.ool with spiQ := [], mgmtOut := [] } }
/-- The request is accepted, and as what. -/
def taken (s : State) (op : Nat) (p : Bytes) (o : Bool := true) (la : Bool := false) : State :=
  (emptied s).accept 3 (sess o la) (frSeq (reqItem op p).frame)
def reqOf (op : Nat) (p : Bytes) : Req :=
  { k := 3, path := .spi, hdr := [], opcode := frOpcode (reqItem op p).frame, seq := frSeq (reqItem op p).frame, payload := frPayload (reqItem op p).frame }
theorem field_append (a b : Bytes) : field (a ++ b) a.length b.length = b := by
  apply List.ext_getElem
  · simp [field]
  · intro i _ h; simp [field, List.getD_eq_getElem?_getD, List.getElem?_append_right, List.getElem?_eq_getElem h]
theorem tag_ok (op : Nat) (p : Bytes) (h : 20 + frLen (reqItem op p).frame = (reqBody op p).length) : frTagOk (some [1]) (reqItem op p).frame = true := by
  have ht : (oolTag (some [1]) (reqBody op p)).length = 32 := by simp [oolTag, field]
  rw [frTagOk, h, ← ht]
  simp only [reqItem, List.take_left, field_append]
  exact beq_self_eq_true _
/-- What makes a frame a request, but for its tag. -/
def Sendable (s : State) (op : Nat) (p : Bytes) (o la : Bool) : Prop :=
  let b := (reqItem op p).frame
  s.agentUp = true ∧ s.ool.spiOut = [] ∧ s.ool.ring0 = [] ∧ s.ool.ring1 = [] ∧ s.ool.setups = [] ∧ s.sessionOf 7 = some (3, sess o la)
    ∧ 20 + frLen b = (reqBody op p).length ∧ b ≠ [] ∧ oolMalformed b = false ∧ frId b = 7 ∧ seqFate 0 [] [] (frSeq b) = .fresh
    ∧ badTime (frOpcode b) (frPayload b) = false ∧ knownOpcode (frOpcode b) = true ∧ frOpcode b ≠ 2 ∧ frOpcode b ≠ 3
    ∧ (sess o la).fits (frOpcode b) (frPayload b) = true ∧ frOpcode b = op
theorem serving {s : State} {op : Nat} {p : Bytes} {o la : Bool} (h : Sendable s op p o la) : Serving (sent s op p) op (taken s op p o la) (reqOf op p) := by
  obtain ⟨h1, h2, h3, h4, h5, h6, h7, h8, h9, h10, h11, h12, h13, h14, h15, h16, h17⟩ := h
  have f : (emptied s).fate (reqItem op p) = .request 3 (sess o la) := by
    have g : (emptied s).sessionOf 7 = some (3, sess o la) := h6
    have e : (emptied s).ool.setups = [] := h5
    have k : frTagOk (some (sess o la).key) (reqItem op p).frame = true := tag_ok op p h7
    have q : seqFate (sess o la).hi (sess o la).seen (sess o la).cache (frSeq (reqItem op p).frame) = .fresh := h11
    simp [State.fate, h8, h9, h10, e, g, State.sessionFate, k, q, h12, h13, h14, h15, h16]
  have n : (sent s op p).nextRx = some (reqItem op p, emptied s) := by
    show (match (if s.ool.spiOut.length < 16 then [reqItem op p] else []), s.ool.ring0, s.ool.ring1 with
      | i :: _, _, _ => some (i, emptied s)
      | [], i :: r, _ => some (i, { sent s op p with ool := { (sent s op p).ool with ring0 := r } })
      | [], [], i :: r => some (i, { sent s op p with ool := { (sent s op p).ool with ring1 := r } })
      | [], [], [] => none) = _
    rw [h2, h3, h4]; rfl
  have a : (sent s op p).agentBegin = sent s op p := by
    rw [State.agentBegin, show State.waiting _ = 1 by simp [State.waiting, sent, h3, h4]]
    show State.settleRx 1 (sent s op p) = _
    simp [State.settleRx, n, f]
  refine ⟨h1, ?_, h17⟩
  rw [a, State.nextReq, n]; simp only [f]; rfl
/-- Session 5 is open beside it, eligible. -/
def with5 (s : State) (own : Bool := true) : State :=
  { s with ool := { s.ool with sessions := s.ool.sessions.set 5 (some { id := 9, key := [2], method := 1, path := .spi, owner := own }) } }
/-- Session 5, of local authority, owns the device. -/
def held5 : State :=
  let s := opened [(Obj.owner_session, 5), (Obj.owner_state, 2), (Obj.owner_priority, 0)]
  { s with ool := { s.ool with sessions := s.ool.sessions.set 5 (some { id := 9, key := [2], method := 1, path := .spi, owner := true, localAuth := true }) } }
/-- A COMMIT payload: transaction 5, flags, expected generation, time in seconds. -/
def commitP (flags expected secs : Nat) : Bytes := [0, 0, 0, 5, BitVec.ofNat 8 flags, 0, 0, 0] ++ beNat 8 expected ++ beNat 8 secs ++ List.replicate 6 0
def wr (txn : Nat) (i sub ty : Nat) (v : Bytes) : Bytes := beNat 4 txn ++ beNat 2 i ++ beNat 1 sub ++ beNat 1 ty ++ beNat 2 v.length ++ v
def sched4 (time : Int) (flags : Nat := 0) : Sched := { id := 4, time, session := 3, flags, expected := 77, items := [] }
def withSched (s : State) (c : Sched) : State := { s with sched := [c] }
/-- A HELLO by a pre-shared key. -/
def helloItem : RxItem := { path := .spi, frame := [0x4F, 0x4C, 1, 1, 0, 0, 0, 0, 0, 0, 0, 0, 0, 0, 0, 1, 0, 60, 1, 0, 1] ++ List.replicate 91 0 }
/-- A setup in progress. -/
def setup9 (method : Nat) : Setup := { id := 9, key := [1], method, path := .spi, owner := true, hello := [], startedAt := 0 }
def settingOn (s : State) (method : Nat) (q : List RxItem) : State := { s with ool := { s.ool with setups := [setup9 method], spiQ := q, mgmtOut := [] } }
def settingUp (method : Nat) (i : RxItem) : State := settingOn up method [i]
def settingUp' (method : Nat) : State := settingOn up method []
theorem emptied_on (s : State) (method : Nat) (q : List RxItem) : emptied (settingOn s method q) = settingOn s method [] := rfl
def setupBody (op : Nat) (p : Bytes) : Bytes := [0x4F, 0x4C, 1, BitVec.ofNat 8 op, 0, 0, 0, 9, 0, 0, 0, 0, 0, 0, 0, 1] ++ beNat 2 p.length ++ [1, 0] ++ p
/-- Its frame with its tag, and with a wrong one. -/
def setupItem (op : Nat) (p : Bytes) : RxItem := { path := .spi, frame := setupBody op p ++ oolTag (some [1]) (setupBody op p) }
def badItem (op : Nat) (p : Bytes) : RxItem := { path := .spi, frame := setupBody op p ++ (oolTag (some [1]) (setupBody op p)).map fun x => x + 1 }
/-- The proof of FINISH by a pre-shared key. -/
def proof9 : Bytes := field (hmacSha256 [1] []) 0 32
theorem setup_tag (op : Nat) (p : Bytes) (h : 20 + frLen (setupItem op p).frame = (setupBody op p).length) : frTagOk (some [1]) (setupItem op p).frame = true := by
  have ht : (oolTag (some [1]) (setupBody op p)).length = 32 := by simp [oolTag, field]
  rw [frTagOk, h, ← ht]
  simp only [setupItem, List.take_left, field_append]
  exact beq_self_eq_true _
theorem bad_tag (op : Nat) (p : Bytes) (h : 20 + frLen (badItem op p).frame = (setupBody op p).length) : frTagOk (some [1]) (badItem op p).frame = false := by
  have ht : ((oolTag (some [1]) (setupBody op p)).map fun x => x + 1).length = 32 := by simp [oolTag, field]
  rw [frTagOk, h, ← ht]
  simp only [badItem, List.take_left, field_append]
  simp only [oolTag, field, List.map_map, beq_eq_false_iff_ne, ne_eq]
  intro e
  have := congrArg (fun l => l.headD 0) e
  simp [List.range_succ] at this
theorem begin_one {s : State} {i : RxItem} (h : s.ool.spiQ = [i]) (h1 : s.ool.ring0 = []) (h2 : s.ool.ring1 = []) (h3 : s.ool.spiOut = [])
    (h4 : s.ool.mgmtOut = []) (hf : ∀ u, (emptied s).fate i ≠ .settled u) : s.agentBegin = s ∧ s.nextRx = some (i, emptied s) := by
  have n : s.nextRx = some (i, emptied s) := by simp [State.nextRx, h, h1, h2, h3, emptied, h4]
  have e : ({ s with ool := { s.ool with mgmtOut := [] } } : State) = s := by rw [← h4]
  refine ⟨?_, n⟩
  rw [State.agentBegin, e, show s.waiting = 1 by simp [State.waiting, h, h1, h2]]
  show (match s.nextRx with
    | none => s
    | some (i, t) => match t.fate i with
      | .settled u => State.settleRx 0 u
      | _ => s) = s
  rw [n]
  show (match (emptied s).fate i with
      | .settled u => State.settleRx 0 u
      | _ => s) = s
  cases g : (emptied s).fate i
  · exact absurd g (hf _)
  · rfl
  · rfl
  · rfl
def SetupNext (m : Nat) (i : RxItem) : Prop :=
  (settingUp m i).agentBegin.nextRx = some (i, settingUp' m) ∧ (settingUp' m).fate i = .setup (setup9 m)
theorem setup_next {m : Nat} {i : RxItem} (f : (settingUp' m).fate i = .setup (setup9 m)) : SetupNext m i := by
  have b := begin_one (s := settingUp m i) (i := i) rfl rfl rfl rfl rfl (fun u h => by
    rw [settingUp, emptied_on] at h; rw [settingUp'] at f; rw [f] at h; cases h)
  rw [settingUp, emptied_on] at b
  exact ⟨by rw [settingUp, b.1]; exact b.2, f⟩
/-- What makes a frame one of setup 9, but for its tag. -/
def SetupFrame (m : Nat) (b : Bytes) : Prop :=
  b ≠ [] ∧ oolMalformed b = false ∧ frId b = 9 ∧ (frOpcode b = 2 ∨ frOpcode b = 3) ∧ seqFate 0 [] [] (frSeq b) = .fresh
    ∧ ¬(frOpcode b = 2 ∧ m = 1) ∧ (setup9 m).fits (frOpcode b) (frPayload b) = true
theorem setup_fate {m : Nat} {i : RxItem} (h : SetupFrame m i.frame) (k : frTagOk (some [1]) i.frame = true) :
    (settingUp' m).fate i = .setup (setup9 m) := by
  obtain ⟨h1, h2, h3, h4, h5, h6, h7⟩ := h
  have q : seqFate (setup9 m).hi (setup9 m).seen (setup9 m).cache (frSeq i.frame) = .fresh := h5
  have e : (settingUp' m).ool.setups.find? (fun x => x.id == frId i.frame) = some (setup9 m) := by rw [h3]; rfl
  have g : ¬(frOpcode i.frame ≠ 2 ∧ frOpcode i.frame ≠ 3) := by omega
  rw [State.fate, if_neg h1, h2, if_neg (by decide), if_neg (by rw [h3]; decide), e]
  show State.setupFate _ _ _ = _
  rw [State.setupFate, if_neg (by simpa using g)]
  show (if (!frTagOk (some [1]) i.frame) = true then _ else _) = _
  rw [k, if_neg (by decide), q, h7]
  show (if (decide (frOpcode i.frame = 2) && decide (m = 1)) = true then _ else _) = _
  rw [if_neg (by simpa using fun a => (not_and.mp h6) a)]
theorem cert_next : SetupNext 2 (setupItem 2 [0, 0, 0, 0, 1]) := setup_next (m := 2) (i := setupItem 2 [0, 0, 0, 0, 1])
  (setup_fate (by unfold SetupFrame; decide +kernel) (setup_tag 2 _ (by decide +kernel)))
/-- A proof that is not the pre-shared key's. -/
def noProof9 : Bytes := proof9.map fun x => x + 1
theorem wrong_next : SetupNext 1 (setupItem 3 noProof9) := setup_next (m := 1) (i := setupItem 3 noProof9)
  (setup_fate (by unfold SetupFrame; decide +kernel) (setup_tag 3 _ (by decide +kernel)))
theorem wrong_rights : (settingUp' 1).proofRights (setup9 1) (frPayload (setupItem 3 noProof9).frame) = .error 0 := by
  have h : frPayload (setupItem 3 noProof9).frame = noProof9 := rfl
  have k : (field (hmacSha256 (setup9 1).key (setup9 1).hello) 0 32 == noProof9) = false := by
    refine beq_false_of_ne fun e => ?_
    have := congrArg (fun l => l.headD 0) e
    simp [noProof9, proof9, field, List.range_succ, setup9] at this
  rw [h, State.proofRights, if_pos (by decide), if_neg (by decide), if_neg (by rw [k]; decide)]
theorem fin_next : SetupNext 1 (setupItem 3 proof9) := setup_next (m := 1) (i := setupItem 3 proof9)
  (setup_fate (by unfold SetupFrame; decide +kernel) (setup_tag 3 _ (by decide +kernel)))
theorem fin_rights : (settingUp' 1).proofRights (setup9 1) (frPayload (setupItem 3 proof9).frame) = .ok 1 := by
  have h : frPayload (setupItem 3 proof9).frame = proof9 := rfl
  have k : (field (hmacSha256 (setup9 1).key (setup9 1).hello) 0 32 == proof9) = true := beq_self_eq_true _
  rw [h, State.proofRights, if_pos (by decide), if_neg (by decide), if_pos k]; rfl
def greeting (s : State) (q : List RxItem) : State := { s with ool := { s.ool with spiQ := q, mgmtOut := [] } }
theorem emptied_greeting (s : State) (q : List RxItem) : emptied (greeting s q) = greeting s [] := rfl
theorem hello_next : (greeting up [helloItem]).agentBegin.nextRx = some (helloItem, greeting up []) ∧ (greeting up []).fate helloItem = .hello := by
  have f : (greeting up []).fate helloItem = .hello := by
    rw [State.fate, if_neg (by decide +kernel), if_neg (by decide +kernel), if_pos (by decide +kernel), if_neg (by decide +kernel),
      if_neg (by decide +kernel), if_neg (by decide +kernel)]
  have b := begin_one (s := greeting up [helloItem]) (i := helloItem) rfl rfl rfl rfl rfl (fun u h => by rw [emptied_greeting, f] at h; cases h)
  rw [emptied_greeting] at b
  exact ⟨by rw [b.1]; exact b.2, f⟩
/-- Session 3 is the successor. -/
def succ3 : State :=
  let s := State.nums opened [(Obj.owner_session, 5), (Obj.owner_state, 3)]
  { s with ool := { s.ool with successor := some (3, 5, 7) } }
theorem wit_StepRunsFront :
    (∃ (c : Instr) (rest : List Instr) (s : State), s.pending = c :: rest)
    ∧ (∃ s : State, s.pending = []) :=
  ⟨⟨.begin, [.abort], { up with pending := [.begin, .abort] }, rfl⟩,
   ⟨up, rfl⟩⟩
theorem wit_RequestsInOrder :
    (∃ p, p ∈ requestOps ∧ ∃ s : State, s.agentUp = false)
    ∧ (∃ p, p ∈ requestOps ∧ ∃ (s t : State) (r : Req), s.agentUp = true ∧ (p.1 = 0x30 ∨ p.1 = 0x33 → s.commitOpen = false)
      ∧ s.agentBegin.nextReq = some (t, r) ∧ r.opcode ≠ p.1)
    ∧ (∃ p, p ∈ requestOps ∧ ∃ s : State, s.agentUp = true ∧ (p.1 = 0x30 ∨ p.1 = 0x33 → s.commitOpen = false) ∧ s.agentBegin.nextReq = none)
    ∧ (∃ (hi : Nat) (seen : List Nat) (cache : List Cached) (seq : Nat), seqFate hi seen cache seq = .fresh)
    ∧ (∃ (hi : Nat) (seen : List Nat) (cache : List Cached) (seq : Nat), hi < seq ∧ (∀ c ∈ cache, c.seq ≤ hi))
    ∧ (∃ (hi : Nat) (seen : List Nat) (cache : List Cached) (seq : Nat), seq + 64 < hi ∧ (∀ c ∈ cache, c.seq ≠ seq)) :=
  ⟨⟨(0x20, Instr.begin), by simp [requestOps], State.reset, by decide +kernel⟩,
   ⟨(0x20, Instr.begin), by simp [requestOps], sent (opened) 0x31 [], taken (opened) 0x31 [], reqOf 0x31 [],
     (serving (o := true) (la := false) (by unfold Sendable; decide +kernel)).1, by decide,
     (serving (o := true) (la := false) (by unfold Sendable; decide +kernel)).2.1, by decide +kernel⟩,
   ⟨(0x20, Instr.begin), by simp [requestOps], up, by decide +kernel⟩,
   ⟨0, [], [], 1, by decide +kernel⟩,
   ⟨64, [], [], 65, by decide +kernel⟩,
   ⟨65, [], [], 0, by decide +kernel⟩⟩
theorem wit_ReadCommands :
    (∃ (s t u : State) (r : Req) (items : Bytes), Serving s 0x10 t r ∧ t.readItems (t.extendedRead r.k) (readItemsOf r.payload) = (items, u))
    ∧ (∃ (s t : State) (r : Req) (w : BulkRow), Serving s 0x11 t r ∧ bulkRow (fieldN r.payload 0 2) = some w ∧ t.answers w.dom = true)
    ∧ (∃ (s t u : State) (r : Req) (items : Bytes) (k : Nat), Serving s 0x11 t r ∧ t.recordStatus (fieldN r.payload 0 2) = stOk
      ∧ t.objView (objKey (fieldN r.payload 0 2) 0) = .num k
      ∧ t.readItems (t.extendedRead r.k) ((List.range (k + 1)).map fun sub => (fieldN r.payload 0 2, sub)) = (items, u))
    ∧ (∃ (s t : State) (r : Req), Serving s 0x13 t r ∧ bulkRow (fieldN r.payload 0 2) = none)
    ∧ (∃ (s t : State) (r : Req) (w : BulkRow) (off count : Nat), Serving s 0x13 t r ∧ bulkRow (fieldN r.payload 0 2) = some w
      ∧ off = fieldN r.payload 2 8 ∧ count = fieldN r.payload 10 2 ∧ (count = 0 ∨ 1024 < count))
    ∧ (∃ (s t : State) (r : Req) (w : BulkRow) (off count : Nat), Serving s 0x13 t r ∧ bulkRow (fieldN r.payload 0 2) = some w
      ∧ off = fieldN r.payload 2 8 ∧ count = fieldN r.payload 10 2 ∧ 0 < count ∧ count ≤ 1024 ∧ w.size < off + count)
    ∧ (∃ (s t : State) (r : Req) (w : BulkRow) (off count : Nat), Serving s 0x13 t r ∧ bulkRow (fieldN r.payload 0 2) = some w
      ∧ off = fieldN r.payload 2 8 ∧ count = fieldN r.payload 10 2 ∧ 0 < count ∧ count ≤ 1024 ∧ off + count ≤ w.size ∧ w.acc = .rx
      ∧ t.extendedRead r.k = false)
    ∧ (∃ (s t : State) (r : Req) (w : BulkRow) (off count : Nat), Serving s 0x13 t r ∧ bulkRow (fieldN r.payload 0 2) = some w
      ∧ off = fieldN r.payload 2 8 ∧ count = fieldN r.payload 10 2 ∧ 0 < count ∧ count ≤ 1024 ∧ off + count ≤ w.size
      ∧ (w.acc ≠ .rx ∨ t.extendedRead r.k = true) ∧ t.answers w.dom = true) :=
  ⟨⟨sent (opened) 0x10 ([0x52, 0, 1, 0]), taken (opened) 0x10 ([0x52, 0, 1, 0]), _, reqOf 0x10 ([0x52, 0, 1, 0]), _,
  (serving (o := true) (la := false) (by unfold Sendable; decide +kernel)), Prod.mk.eta.symm⟩,
   ⟨sent (opened) 0x11 ([0x80, 0]), taken (opened) 0x11 ([0x80, 0]), reqOf 0x11 ([0x80, 0]),
     (bulkRow (fieldN (reqOf 0x11 ([0x80, 0])).payload 0 2)).get (by decide +kernel),
     (serving (o := true) (la := false) (by unfold Sendable; decide +kernel)), (Option.some_get _).symm, by decide +kernel⟩,
   ⟨sent (opened) 0x11 ([0x20, 0]), taken (opened) 0x11 ([0x20, 0]), _, reqOf 0x11 ([0x20, 0]), _, 8,
     (serving (o := true) (la := false) (by unfold Sendable; decide +kernel)), by decide +kernel, by decide +kernel, Prod.mk.eta.symm⟩,
   ⟨sent (opened) 0x13 (beNat 2 0x5400 ++ beNat 8 0 ++ beNat 2 1), taken (opened) 0x13 (beNat 2 0x5400 ++ beNat 8 0 ++ beNat 2 1),
     reqOf 0x13 (beNat 2 0x5400 ++ beNat 8 0 ++ beNat 2 1), (serving (o := true) (la := false) (by unfold Sendable; decide +kernel)),
     by decide +kernel⟩,
   ⟨sent (opened) 0x13 (beNat 2 0x8000 ++ beNat 8 0 ++ beNat 2 1025), taken (opened) 0x13 (beNat 2 0x8000 ++ beNat 8 0 ++ beNat 2 1025),
     reqOf 0x13 (beNat 2 0x8000 ++ beNat 8 0 ++ beNat 2 1025),
     (bulkRow (fieldN (reqOf 0x13 (beNat 2 0x8000 ++ beNat 8 0 ++ beNat 2 1025)).payload 0 2)).get (by decide +kernel), _, _,
     (serving (o := true) (la := false) (by unfold Sendable; decide +kernel)), (Option.some_get _).symm, rfl, rfl, by decide +kernel⟩,
   ⟨sent (opened) 0x13 (beNat 2 0x8000 ++ beNat 8 0xFFFFFFFFFFFF ++ beNat 2 1),
     taken (opened) 0x13 (beNat 2 0x8000 ++ beNat 8 0xFFFFFFFFFFFF ++ beNat 2 1), reqOf 0x13 (beNat 2 0x8000 ++ beNat 8 0xFFFFFFFFFFFF ++ beNat 2 1),
     (bulkRow (fieldN (reqOf 0x13 (beNat 2 0x8000 ++ beNat 8 0xFFFFFFFFFFFF ++ beNat 2 1)).payload 0 2)).get (by decide +kernel), _, _,
     (serving (o := true) (la := false) (by unfold Sendable; decide +kernel)), (Option.some_get _).symm, rfl, rfl, by decide +kernel⟩,
   ⟨sent (opened) 0x13 (beNat 2 0x8350 ++ beNat 8 0 ++ beNat 2 1), taken (opened) 0x13 (beNat 2 0x8350 ++ beNat 8 0 ++ beNat 2 1),
     reqOf 0x13 (beNat 2 0x8350 ++ beNat 8 0 ++ beNat 2 1),
     (bulkRow (fieldN (reqOf 0x13 (beNat 2 0x8350 ++ beNat 8 0 ++ beNat 2 1)).payload 0 2)).get (by decide +kernel), _, _,
     (serving (o := true) (la := false) (by unfold Sendable; decide +kernel)), (Option.some_get _).symm, rfl, rfl, by decide +kernel⟩,
   ⟨sent (opened) 0x13 (beNat 2 0x8000 ++ beNat 8 0 ++ beNat 2 1024), taken (opened) 0x13 (beNat 2 0x8000 ++ beNat 8 0 ++ beNat 2 1024),
     reqOf 0x13 (beNat 2 0x8000 ++ beNat 8 0 ++ beNat 2 1024),
     (bulkRow (fieldN (reqOf 0x13 (beNat 2 0x8000 ++ beNat 8 0 ++ beNat 2 1024)).payload 0 2)).get (by decide +kernel), _, _,
     (serving (o := true) (la := false) (by unfold Sendable; decide +kernel)), (Option.some_get _).symm, rfl, rfl, by decide +kernel⟩⟩
theorem wit_TransactionCommands_1 :
    (∃ (s t : State) (r : Req), Serving s 0x20 t r ∧ t.owns r = false)
    ∧ (∃ (s t : State) (r : Req), Serving s 0x20 t r ∧ t.owns r = true ∧ t.handingOver = false ∧ t.ool.txn.isSome = true)
    ∧ (∃ (s t : State) (r : Req), Serving s 0x20 t r ∧ Wf s ∧ t.owns r = true ∧ t.handingOver = false ∧ t.ool.txn = none)
    ∧ (∃ (s t : State) (r : Req), Serving s 0x12 t r ∧ t.owns r = true ∧ t.handingOver = false ∧ fieldN r.payload 0 4 = 0 ∧ t.ool.txn.isSome = true)
    ∧ (∃ (s t : State) (r : Req) (raw : List (Nat × Nat × Nat × Bytes)), Serving s 0x12 t r ∧ t.owns r = true ∧ t.handingOver = false
      ∧ fieldN r.payload 0 4 ≠ 0 ∧ t.txnOf (fieldN r.payload 0 4) = none ∧ writeItems r.payload.length (r.payload.drop 4) = some raw)
    ∧ (∃ (s t : State) (r : Req) (x : Txn) (raw : List (Nat × Nat × Nat × Bytes)), Serving s 0x12 t r ∧ t.owns r = true ∧ t.handingOver = false
      ∧ fieldN r.payload 0 4 ≠ 0 ∧ t.txnOf (fieldN r.payload 0 4) = some x ∧ writeItems r.payload.length (r.payload.drop 4) = some raw
      ∧ (∀ c ∈ t.checkItems r 0 raw, c.1 = stOk) ∧ txnFull (stageItems x.items ((t.checkItems r 0 raw).filterMap fun c => c.2)) x.bulk = false)
    ∧ (∃ (s t : State) (r : Req) (x : Txn) (raw : List (Nat × Nat × Nat × Bytes)), Serving s 0x12 t r ∧ t.owns r = true ∧ t.handingOver = false
      ∧ fieldN r.payload 0 4 ≠ 0 ∧ t.txnOf (fieldN r.payload 0 4) = some x ∧ writeItems r.payload.length (r.payload.drop 4) = some raw
      ∧ (∃ c ∈ t.checkItems r 0 raw, c.1 ≠ stOk))
    ∧ (∃ (s t : State) (r : Req) (raw : List (Nat × Nat × Nat × Bytes)) (l : List StagedItem), Serving s 0x12 t r ∧ t.owns r = true
      ∧ t.handingOver = false ∧ fieldN r.payload 0 4 = 0 ∧ t.ool.txn = none ∧ writeItems r.payload.length (r.payload.drop 4) = some raw
      ∧ (∀ c ∈ t.checkItems r 0 raw, c.1 = stOk) ∧ l = stageItems [] ((t.checkItems r 0 raw).filterMap fun c => c.2) ∧ txnFull l [] = false
      ∧ t.runDue.commitNow l [] 0 0 = stOk) :=
  ⟨⟨sent (opened) 0x20 ([]), taken (opened) 0x20 ([]), reqOf 0x20 ([]), (serving (o := true) (la := false) (by unfold Sendable; decide +kernel)),
  by decide +kernel⟩,
   ⟨sent (owned (some { id := 5 })) 0x20 ([]), taken (owned (some { id := 5 })) 0x20 ([]), reqOf 0x20 ([]),
     (serving (o := true) (la := false) (by unfold Sendable; decide +kernel)), by decide +kernel⟩,
   ⟨sent (owned) 0x20 ([]), taken (owned) 0x20 ([]), reqOf 0x20 ([]), (serving (o := true) (la := false) (by unfold Sendable; decide +kernel)),
     by unfold Wf; decide +kernel, by decide +kernel⟩,
   ⟨sent (owned (some { id := 5 })) 0x12 (wr 0 0x5400 6 2 [5]), taken (owned (some { id := 5 })) 0x12 (wr 0 0x5400 6 2 [5]),
     reqOf 0x12 (wr 0 0x5400 6 2 [5]), (serving (o := true) (la := false) (by unfold Sendable; decide +kernel)), by decide +kernel⟩,
   ⟨sent (owned (some { id := 5 })) 0x12 (wr 6 0x5400 6 2 [5]), taken (owned (some { id := 5 })) 0x12 (wr 6 0x5400 6 2 [5]),
     reqOf 0x12 (wr 6 0x5400 6 2 [5]), [(0x5400, 6, 2, [5])], (serving (o := true) (la := false) (by unfold Sendable; decide +kernel)),
     by decide +kernel⟩,
   ⟨sent (owned (some { id := 5 })) 0x12 (wr 5 0x5400 6 2 [5]), taken (owned (some { id := 5 })) 0x12 (wr 5 0x5400 6 2 [5]),
     reqOf 0x12 (wr 5 0x5400 6 2 [5]), { id := 5 }, [(0x5400, 6, 2, [5])], (serving (o := true) (la := false) (by unfold Sendable; decide +kernel)),
     by decide +kernel⟩,
   ⟨sent (owned (some { id := 5 })) 0x12 (wr 5 0 0 2 [5]), taken (owned (some { id := 5 })) 0x12 (wr 5 0 0 2 [5]), reqOf 0x12 (wr 5 0 0 2 [5]),
     { id := 5 }, [(0, 0, 2, [5])], (serving (o := true) (la := false) (by unfold Sendable; decide +kernel)), by decide +kernel⟩,
   ⟨sent (owned) 0x12 (wr 0 0x5400 6 2 [5]), taken (owned) 0x12 (wr 0 0x5400 6 2 [5]), reqOf 0x12 (wr 0 0x5400 6 2 [5]), [(0x5400, 6, 2, [5])], _,
     (serving (o := true) (la := false) (by unfold Sendable; decide +kernel)), by decide +kernel, by decide +kernel, by decide +kernel,
     by decide +kernel, by decide +kernel, by decide +kernel, rfl, by decide +kernel⟩⟩
theorem wit_TransactionCommands_2 :
    (∃ (s t : State) (r : Req) (w : BulkRow) (x : Txn), Serving s 0x14 t r ∧ bulkRow (fieldN r.payload 4 2) = some w
      ∧ t.bulkWriteStatus r w (fieldN r.payload 0 4) (fieldN r.payload 6 8) (r.payload.drop 14).length = stOk ∧ w.index ≠ 0x8340
      ∧ t.txnOf (fieldN r.payload 0 4) = some x
      ∧ txnFull x.items (x.bulk ++ [{ index := w.index, offset := fieldN r.payload 6 8, data := r.payload.drop 14 }]) = false)
    ∧ (∃ (s t : State) (r : Req), Serving s 0x14 t r ∧ t.owns r = false)
    ∧ (∃ (s t : State) (r : Req), Serving s 0x22 t r ∧ t.owns r = false)
    ∧ (∃ (s t : State) (r : Req), Serving s 0x22 t r ∧ t.owns r = true ∧ t.txnOf (fieldN r.payload 0 4) = none)
    ∧ (∃ (s t : State) (r : Req), Serving s 0x22 t r ∧ Wf s ∧ t.owns r = true ∧ t.txnOf (fieldN r.payload 0 4) ≠ none) :=
  ⟨⟨sent (owned (some { id := 5 })) 0x14 (beNat 4 5 ++ beNat 2 0x8342 ++ beNat 8 0 ++ [1]),
  taken (owned (some { id := 5 })) 0x14 (beNat 4 5 ++ beNat 2 0x8342 ++ beNat 8 0 ++ [1]),
  reqOf 0x14 (beNat 4 5 ++ beNat 2 0x8342 ++ beNat 8 0 ++ [1]),
  (bulkRow (fieldN (reqOf 0x14 (beNat 4 5 ++ beNat 2 0x8342 ++ beNat 8 0 ++ [1])).payload 4 2)).get (by decide +kernel), { id := 5 },
  (serving (o := true) (la := false) (by unfold Sendable; decide +kernel)), (Option.some_get _).symm, by decide +kernel⟩,
   ⟨sent (opened) 0x14 (beNat 4 5 ++ beNat 2 0x8342 ++ beNat 8 0 ++ [1]), taken (opened) 0x14 (beNat 4 5 ++ beNat 2 0x8342 ++ beNat 8 0 ++ [1]),
     reqOf 0x14 (beNat 4 5 ++ beNat 2 0x8342 ++ beNat 8 0 ++ [1]), (serving (o := true) (la := false) (by unfold Sendable; decide +kernel)),
     by decide +kernel⟩,
   ⟨sent (opened) 0x22 (beNat 4 5), taken (opened) 0x22 (beNat 4 5), reqOf 0x22 (beNat 4 5),
     (serving (o := true) (la := false) (by unfold Sendable; decide +kernel)), by decide +kernel⟩,
   ⟨sent (owned (some { id := 5 })) 0x22 (beNat 4 6), taken (owned (some { id := 5 })) 0x22 (beNat 4 6), reqOf 0x22 (beNat 4 6),
     (serving (o := true) (la := false) (by unfold Sendable; decide +kernel)), by decide +kernel⟩,
   ⟨sent (owned (some { id := 5 })) 0x22 (beNat 4 5), taken (owned (some { id := 5 })) 0x22 (beNat 4 5), reqOf 0x22 (beNat 4 5),
     (serving (o := true) (la := false) (by unfold Sendable; decide +kernel)), by unfold Wf; decide +kernel, by decide +kernel⟩⟩
theorem wit_CommitCommands_1 :
    (∃ (s t : State) (r : Req), Serving s 0x21 t r ∧ t.owns r = false)
    ∧ (∃ (s t : State) (r : Req), Serving s 0x21 t r ∧ t.owns r = true ∧ t.txnOf (fieldN r.payload 0 4) = none)
    ∧ (∃ (s t : State) (r : Req) (x : Txn), Serving s 0x21 t r ∧ t.owns r = true ∧ t.txnOf (fieldN r.payload 0 4) = some x ∧ x.spoiled = true)
    ∧ (∃ (s t : State) (r : Req) (x : Txn), Serving s 0x21 t r ∧ t.owns r = true ∧ t.txnOf (fieldN r.payload 0 4) = some x ∧ x.spoiled = false
      ∧ bit (fieldN r.payload 4 1) 0 = false)
    ∧ (∃ (s t : State) (r : Req) (x : Txn) (time : Int), Serving s 0x21 t r ∧ t.owns r = true ∧ t.txnOf (fieldN r.payload 0 4) = some x
      ∧ x.spoiled = false ∧ bit (fieldN r.payload 4 1) 0 = true ∧ time = timeOfBytes (field r.payload 16 14)
      ∧ t.abortTxn.commitLater x.items x.bulk (fieldN r.payload 4 1) time = stOk)
    ∧ (∃ (s t : State) (r : Req), Serving s 0x23 t r ∧ t.owns r = false)
    ∧ (∃ (s t : State) (r : Req), Serving s 0x23 t r ∧ t.owns r = true ∧ (∀ c ∈ t.sched, c.id ≠ fieldN r.payload 0 4 ∨ t.schedDue c = true))
    ∧ (∃ (s t : State) (r : Req), Serving s 0x23 t r ∧ ∃ c, c ∈ t.sched ∧ t.owns r = true ∧ c.id = fieldN r.payload 0 4 ∧ t.schedDue c = false) :=
  ⟨⟨sent (opened) 0x21 (commitP 0 0 0), taken (opened) 0x21 (commitP 0 0 0), reqOf 0x21 (commitP 0 0 0),
  (serving (o := true) (la := false) (by unfold Sendable; decide +kernel)), by decide +kernel⟩,
   ⟨sent (owned) 0x21 (commitP 0 0 0), taken (owned) 0x21 (commitP 0 0 0), reqOf 0x21 (commitP 0 0 0),
     (serving (o := true) (la := false) (by unfold Sendable; decide +kernel)), by decide +kernel⟩,
   ⟨sent (owned (some { id := 5, spoiled := true })) 0x21 (commitP 0 0 0), taken (owned (some { id := 5, spoiled := true })) 0x21 (commitP 0 0 0),
     reqOf 0x21 (commitP 0 0 0), { id := 5, spoiled := true }, (serving (o := true) (la := false) (by unfold Sendable; decide +kernel)),
     by decide +kernel⟩,
   ⟨sent (owned (some { id := 5 })) 0x21 (commitP 0 0 0), taken (owned (some { id := 5 })) 0x21 (commitP 0 0 0), reqOf 0x21 (commitP 0 0 0),
     { id := 5 }, (serving (o := true) (la := false) (by unfold Sendable; decide +kernel)), by decide +kernel⟩,
   ⟨sent (owned (some { id := 5 })) 0x21 (commitP 1 0 1525884), taken (owned (some { id := 5 })) 0x21 (commitP 1 0 1525884),
     reqOf 0x21 (commitP 1 0 1525884), { id := 5 }, _, (serving (o := true) (la := false) (by unfold Sendable; decide +kernel)), by decide +kernel,
     by decide +kernel, by decide +kernel, by decide +kernel, rfl, by decide +kernel⟩,
   ⟨sent (opened) 0x23 (beNat 4 4), taken (opened) 0x23 (beNat 4 4), reqOf 0x23 (beNat 4 4),
     (serving (o := true) (la := false) (by unfold Sendable; decide +kernel)), by decide +kernel⟩,
   ⟨sent (owned) 0x23 (beNat 4 4), taken (owned) 0x23 (beNat 4 4), reqOf 0x23 (beNat 4 4),
     (serving (o := true) (la := false) (by unfold Sendable; decide +kernel)), by decide +kernel⟩,
   ⟨sent (withSched owned (sched4 (10 ^ 30))) 0x23 (beNat 4 4), taken (withSched owned (sched4 (10 ^ 30))) 0x23 (beNat 4 4), reqOf 0x23 (beNat 4 4),
     (serving (o := true) (la := false) (by unfold Sendable; decide +kernel)), sched4 (10 ^ 30), by decide +kernel⟩⟩
theorem wit_CommitCommands_2 :
    (∃ (s : State) (c : Sched), s.firmwareUp = true ∧ s.sched = [c] ∧ s.schedDue c = true)
    ∧ (∃ s : State, (∀ c ∈ s.sched, s.schedDue c = false)) :=
  ⟨⟨withSched owned (sched4 0), sched4 0, by decide +kernel⟩,
   ⟨up, by decide +kernel⟩⟩
theorem wit_ConfigurationCommands_1 :
    (∃ (s : State) (i sub : Nat) (v : Bytes) (x : StagedItem), s.itemOk i sub v = some x ∧ s.firmwareUp = true ∧ x.key ≠ Obj.block_reset_target
      ∧ confirmed [x] = true ∧ s.runDue.rules [x] [] 0 = stOk)
    ∧ (∃ (s : State) (i sub : Nat) (v : Bytes) (x : StagedItem), s.itemOk i sub v = some x ∧ s.firmwareUp = true ∧ x.key ≠ Obj.block_reset_target
      ∧ confirmed [x] = true ∧ s.runDue.rules [x] [] 0 ≠ stOk)
    ∧ (∃ (s : State) (i sub : Nat) (v : Bytes), s.itemOk i sub v = none)
    ∧ (∃ (s : State) (p : Persisting), Wf s ∧ s.ool.persisting = some p ∧ s.sys.scope = none)
    ∧ (∃ (s : State) (p : Persisting), Wf s ∧ s.ool.persisting = some p ∧ s.sys.scope = none ∧ p.set.fits = true ∧ (∀ k b,
      s.flash.activeBank = some (k, b) → b.sequence < p.set.sequence))
    ∧ (∃ (s : State) (ok : Bool), s.ool.persisting = none)
    ∧ (∃ (s t : State) (ok : Bool) (k : Nat) (b : CfgSet), s.flash.activeBank = some (k, b))
    ∧ (∃ (l : List (Nat × Val)) (s : State) (x : CfgRecord), x ∈ (State.recordsOf l s).1 ∧ secretKey x.key = true) :=
  ⟨⟨up, 0x5400, 6, [5], _, rfl, by decide +kernel⟩,
   ⟨up, 16448, 2, [5], _, rfl, by decide +kernel⟩,
   ⟨up, 0, 0, [], by decide +kernel⟩,
   ⟨{ up with ool := { up.ool with persisting := some { set := { sequence := 3, generation := 1, records := [] }, since := 0 } } }, _,
     by unfold Wf; decide +kernel, rfl, rfl⟩,
   ⟨writing, _, by unfold Wf; decide +kernel, rfl, rfl, by decide +kernel, fun _ _ h => absurd h (by rw [writing_bank]; exact nofun)⟩,
   ⟨up, true, by decide +kernel⟩,
   ⟨{ up with flash := { up.flash with cfg0 := set3.bank } }, up, true, 0, set3, by decide +kernel⟩,
   ⟨[(Obj.nts_master_key, .oct [1])], up, _, List.mem_singleton_self _, by decide +kernel⟩⟩
theorem wit_ConfigurationCommands_2 :
    (∃ (s : State) (bad : List Nat), s.atStep 5 = true ∧ (setBase s bad).flash.activeBank = none)
    ∧ (∃ (s : State) (bad : List Nat) (k : Nat) (c : CfgSet), s.atStep 5 = true ∧ (setBase s bad).flash.activeBank = some (k, c))
    ∧ (∃ (s : State) (bad : List Nat), s.atStep 5 = false) :=
  ⟨⟨{ up with mode := {}, sys := { step := 5 } }, [], by decide +kernel⟩,
   ⟨{ up with mode := {}, sys := { step := 5 }, flash := { up.flash with cfg0 := set3.bank } }, [], 0, set3, by decide +kernel⟩,
   ⟨up, [], by decide +kernel⟩⟩
theorem wit_SessionCommands_1 :
    (∃ (s t : State) (i : RxItem) (bad : Bool), s.agentUp = true ∧ s.agentBegin.nextRx = some (i, t) ∧ t.fate i = .hello)
    ∧ (∃ (s : State) (bad : Bool), s.agentUp = false)
    ∧ (∃ (s t : State) (i : RxItem) (x : Setup), s.agentUp = true ∧ s.agentBegin.nextRx = some (i, t) ∧ t.fate i = .setup x ∧ frOpcode i.frame = 0x02
      ∧ 5 ≤ (frPayload i.frame).length)
    ∧ (∃ (s t : State) (i : RxItem) (x : Setup), s.agentUp = true ∧ s.agentBegin.nextRx = some (i, t) ∧ t.fate i = .setup x ∧ frOpcode i.frame = 0x03
      ∧ ((∃ c, t.proofRights x (frPayload i.frame) = .error c) ∨ (List.finRange 32).find? (fun k => t.ool.sessions[k].isNone) = none))
    ∧ (∃ (t : State) (i : RxItem) (x : Setup), (frOpcode i.frame = 0x02 ∨ (frOpcode i.frame = 0x03 ∧ x.unknown = false))
      ∧ frTagOk (some x.key) i.frame = false)
    ∧ (∃ (s t : State) (i : RxItem) (x : Setup) (rights : Nat) (k : Fin 32), s.agentUp = true ∧ s.agentBegin.nextRx = some (i, t)
      ∧ t.fate i = .setup x ∧ frOpcode i.frame = 0x03 ∧ t.proofRights x (frPayload i.frame) = .ok rights
      ∧ (List.finRange 32).find? (fun k => t.ool.sessions[k].isNone) = some k)
    ∧ (∃ s : State, s.firmwareUp = true)
    ∧ (∃ s : State, s.firmwareUp = false) :=
  ⟨⟨greeting up [helloItem], greeting up [], helloItem, true, by decide +kernel, hello_next.1, hello_next.2⟩,
   ⟨State.reset, true, by decide +kernel⟩,
   ⟨settingUp 2 (setupItem 2 [0, 0, 0, 0, 1]), settingUp' 2, setupItem 2 [0, 0, 0, 0, 1], setup9 2, by decide +kernel, cert_next.1, cert_next.2,
     by decide +kernel⟩,
   ⟨settingUp 1 (setupItem 3 noProof9), settingUp' 1, setupItem 3 noProof9, setup9 1, by decide +kernel, wrong_next.1, wrong_next.2,
     by decide +kernel, .inl ⟨_, wrong_rights⟩⟩,
   ⟨up, badItem 3 (List.replicate 32 0), setup9 1, .inr ⟨by decide +kernel, rfl⟩, bad_tag 3 (List.replicate 32 0) (by decide +kernel)⟩,
   ⟨settingUp 1 (setupItem 3 proof9), settingUp' 1, setupItem 3 proof9, setup9 1, 1, 0, by decide +kernel, fin_next.1, fin_next.2, by decide +kernel,
     fin_rights, by decide +kernel⟩,
   ⟨up, by decide +kernel⟩,
   ⟨State.reset, by decide +kernel⟩⟩
theorem wit_SessionCommands_2 :
    (∃ (s t : State) (r : Req), Serving s 0x04 t r)
    ∧ (∃ (s : State) (k : Fin 32) (x : Session) (cause : Nat), Wf s ∧ s.ool.sessions[k] = some x)
    ∧ (∃ (s : State) (k : Fin 32) (x : Session) (cause : Nat), Wf s ∧ s.ool.sessions[k] = some x ∧ ∃ j : Fin 32, j ≠ k)
    ∧ (∃ (s : State) (k : Fin 32) (x : Session) (cause : Nat), Wf s ∧ s.ool.sessions[k] = some x ∧ s.owner = some k)
    ∧ (∃ (s : State) (k : Fin 32) (x : Session) (cause : Nat), Wf s ∧ s.ool.sessions[k] = some x ∧ s.owner ≠ some k) :=
  ⟨⟨sent (opened) 0x04 ([]), taken (opened) 0x04 ([]), reqOf 0x04 ([]), (serving (o := true) (la := false) (by unfold Sendable; decide +kernel))⟩,
   ⟨opened, 3, _, 0, by unfold Wf; decide +kernel, rfl⟩,
   ⟨opened, 3, _, 0, by unfold Wf; decide +kernel, rfl, 5, by decide +kernel⟩,
   ⟨owned, 3, _, 0, by unfold Wf; decide +kernel, rfl, by decide +kernel⟩,
   ⟨opened, 3, _, 0, by unfold Wf; decide +kernel, rfl, by decide +kernel⟩⟩
theorem wit_ElectionCommands_1 :
    (∃ s : State, s.commitOpen = true)
    ∧ (∃ (s t : State) (r : Req), s.commitOpen = false ∧ Serving s 0x30 t r ∧ t.eligible r.k = false)
    ∧ (∃ (s t : State) (r : Req), s.commitOpen = false ∧ Serving s 0x30 t r ∧ Wf s ∧ t.eligible r.k = true ∧ t.nn Obj.owner_state < 2
      ∧ t.localAuth r.k = false)
    ∧ (∃ (s t : State) (r : Req), s.commitOpen = false ∧ Serving s 0x30 t r ∧ Wf s ∧ t.eligible r.k = true ∧ t.owner = none ∧ t.localAuth r.k = true)
    ∧ (∃ (s t : State) (r : Req), s.commitOpen = false ∧ Serving s 0x30 t r ∧ Wf s ∧ t.eligible r.k = true ∧ t.owner = some r.k)
    ∧ (∃ (s t : State) (r : Req), s.commitOpen = false ∧ Serving s 0x30 t r ∧ ∃ o : Fin 32, t.eligible r.k = true ∧ t.owner = some o ∧ o ≠ r.k ∧ Wf s
      ∧ t.localAuth o = false ∧ (t.localAuth r.k = true ∨ t.nn Obj.owner_priority < fieldN r.payload 0 1))
    ∧ (∃ (s t : State) (r : Req), s.commitOpen = false ∧ Serving s 0x30 t r ∧ ∃ o : Fin 32, t.eligible r.k = true ∧ t.owner = some o ∧ o ≠ r.k
      ∧ t.localAuth r.k = false ∧ fieldN r.payload 0 1 ≤ t.nn Obj.owner_priority)
    ∧ (∃ (s t : State) (r : Req), s.commitOpen = false ∧ Serving s 0x30 t r ∧ ∃ o : Fin 32, t.eligible r.k = true ∧ t.owner = some o ∧ o ≠ r.k
      ∧ t.localAuth o = true) :=
  ⟨⟨{ up with sys := { up.sys with block := some { code := 0x0400, force := false, since := 0, session := some 3 } } }, by decide +kernel⟩,
   ⟨sent (opened [] false) 0x30 ([5] ++ List.replicate 15 0), taken (opened [] false) 0x30 ([5] ++ List.replicate 15 0) false false,
     reqOf 0x30 ([5] ++ List.replicate 15 0), by decide +kernel, (serving (o := false) (la := false) (by unfold Sendable; decide +kernel)),
     by decide +kernel⟩,
   ⟨sent (opened) 0x30 ([5] ++ List.replicate 15 0), taken (opened) 0x30 ([5] ++ List.replicate 15 0), reqOf 0x30 ([5] ++ List.replicate 15 0),
     by decide +kernel, (serving (o := true) (la := false) (by unfold Sendable; decide +kernel)), by unfold Wf; decide +kernel, by decide +kernel⟩,
   ⟨sent (opened [] true true) 0x30 ([5] ++ List.replicate 15 0), taken (opened [] true true) 0x30 ([5] ++ List.replicate 15 0) true true,
     reqOf 0x30 ([5] ++ List.replicate 15 0), by decide +kernel, (serving (o := true) (la := true) (by unfold Sendable; decide +kernel)),
     by unfold Wf; decide +kernel, by decide +kernel⟩,
   ⟨sent (owned) 0x30 ([5] ++ List.replicate 15 0), taken (owned) 0x30 ([5] ++ List.replicate 15 0), reqOf 0x30 ([5] ++ List.replicate 15 0),
     by decide +kernel, (serving (o := true) (la := false) (by unfold Sendable; decide +kernel)), by unfold Wf; decide +kernel, by decide +kernel⟩,
   ⟨sent (opened [(Obj.owner_session, 5), (Obj.owner_state, 2), (Obj.owner_priority, 4)]) 0x30 ([5] ++ List.replicate 15 0),
     taken (opened [(Obj.owner_session, 5), (Obj.owner_state, 2), (Obj.owner_priority, 4)]) 0x30 ([5] ++ List.replicate 15 0),
     reqOf 0x30 ([5] ++ List.replicate 15 0), by decide +kernel, (serving (o := true) (la := false) (by unfold Sendable; decide +kernel)), 5,
     by decide +kernel, by decide +kernel, by decide +kernel, by unfold Wf; decide +kernel, by decide +kernel⟩,
   ⟨sent (opened [(Obj.owner_session, 5), (Obj.owner_state, 2), (Obj.owner_priority, 5)]) 0x30 ([5] ++ List.replicate 15 0),
     taken (opened [(Obj.owner_session, 5), (Obj.owner_state, 2), (Obj.owner_priority, 5)]) 0x30 ([5] ++ List.replicate 15 0),
     reqOf 0x30 ([5] ++ List.replicate 15 0), by decide +kernel, (serving (o := true) (la := false) (by unfold Sendable; decide +kernel)), 5,
     by decide +kernel⟩,
   ⟨sent (held5) 0x30 ([5] ++ List.replicate 15 0), taken (held5) 0x30 ([5] ++ List.replicate 15 0), reqOf 0x30 ([5] ++ List.replicate 15 0),
     by decide +kernel, (serving (o := true) (la := false) (by unfold Sendable; decide +kernel)), 5, by decide +kernel⟩⟩
theorem wit_ElectionCommands_2 :
    (∃ (s : State) (c : Claimant), Wf s ∧ s.windowOver = true ∧ bestClaim s.ool.claims = some c)
    ∧ (∃ (l : List Claimant) (c : Claimant), bestClaim l = some c)
    ∧ (∃ (l : List Claimant) (c : Claimant), bestClaim l = some c ∧ ∃ d, d ∈ l)
    ∧ (∃ s : State, Wf s ∧ s.windowOver = true ∧ s.ool.claims = [])
    ∧ (∃ s : State, s.windowOver = false)
    ∧ (∃ (s t : State) (r : Req), Serving s 0x31 t r ∧ t.owner = some r.k)
    ∧ (∃ (s t : State) (r : Req), Serving s 0x31 t r ∧ t.owner ≠ some r.k)
    ∧ (∃ s : State, Wf s ∧ s.firmwareUp = true ∧ s.owner ≠ none ∧ s.ool.leaseEnd ≤ s.now) :=
  ⟨⟨{ State.nums up [(Obj.owner_state, 1)] with ool := { up.ool with claims := [{ session := 3, prio := 5, node := 1, seq := 1, path := .spi }] } },
  { session := 3, prio := 5, node := 1, seq := 1, path := .spi }, by unfold Wf; decide +kernel⟩,
   ⟨[{ session := 3, prio := 5, node := 1, seq := 1, path := .spi }], { session := 3, prio := 5, node := 1, seq := 1, path := .spi },
     by decide +kernel⟩,
   ⟨[{ session := 3, prio := 5, node := 1, seq := 1, path := .spi }, { session := 4, prio := 5, node := 2, seq := 1, path := .spi }],
     { session := 4, prio := 5, node := 2, seq := 1, path := .spi }, by decide +kernel,
     { session := 3, prio := 5, node := 1, seq := 1, path := .spi }, by simp⟩,
   ⟨State.nums up [(Obj.owner_state, 1)], by unfold Wf; decide +kernel⟩,
   ⟨up, by decide +kernel⟩,
   ⟨sent (owned) 0x31 ([]), taken (owned) 0x31 ([]), reqOf 0x31 ([]), (serving (o := true) (la := false) (by unfold Sendable; decide +kernel)),
     by decide +kernel⟩,
   ⟨sent (opened) 0x31 ([]), taken (opened) 0x31 ([]), reqOf 0x31 ([]), (serving (o := true) (la := false) (by unfold Sendable; decide +kernel)),
     by decide +kernel⟩,
   ⟨owned, by unfold Wf; decide +kernel⟩⟩
theorem wit_ElectionCommands_3 :
    ∃ s : State, s.now < s.ool.leaseEnd :=
  ⟨{ up with ool := { up.ool with leaseEnd := 10000000000001 } }, by decide +kernel⟩
theorem wit_HandoverCommands_1 :
    (∃ (s t : State) (r : Req), Serving s 0x32 t r ∧ t.owner ≠ some r.k)
    ∧ (∃ (s t : State) (r : Req), Serving s 0x32 t r ∧ t.owner = some r.k ∧ t.nn Obj.owner_state = 3)
    ∧ (∃ (s t : State) (r : Req), Serving s 0x32 t r ∧ t.owner = some r.k ∧ t.nn Obj.owner_state = 2 ∧ t.ool.txn.isSome = true)
    ∧ (∃ (s t : State) (r : Req), Serving s 0x32 t r ∧ t.owner = some r.k ∧ t.nn Obj.owner_state = 2 ∧ t.ool.txn = none
      ∧ t.sessionOf (fieldN r.payload 0 4) = none)
    ∧ (∃ (s t : State) (r : Req), Serving s 0x32 t r ∧ ∃ k x, t.owner = some r.k ∧ t.nn Obj.owner_state = 2 ∧ t.ool.txn = none
      ∧ t.sessionOf (fieldN r.payload 0 4) = some (k, x) ∧ x.owner = false)
    ∧ (∃ (s t : State) (r : Req), Serving s 0x32 t r ∧ ∃ k x, t.owner = some r.k ∧ t.nn Obj.owner_state = 2 ∧ t.ool.txn = none
      ∧ t.sessionOf (fieldN r.payload 0 4) = some (k, x) ∧ x.owner = true ∧ k = r.k)
    ∧ (∃ (s t : State) (r : Req), Serving s 0x32 t r ∧ ∃ k x, t.owner = some r.k ∧ t.nn Obj.owner_state = 2 ∧ t.ool.txn = none
      ∧ t.sessionOf (fieldN r.payload 0 4) = some (k, x) ∧ x.owner = true ∧ k ≠ r.k ∧ Wf s)
    ∧ (∃ (s t : State) (r : Req), s.commitOpen = false ∧ Serving s 0x33 t r ∧ Wf s ∧ t.eligible r.k = true ∧ t.isSuccessor r.k = true) :=
  ⟨⟨sent (opened) 0x32 (beNat 4 9), taken (opened) 0x32 (beNat 4 9), reqOf 0x32 (beNat 4 9),
  (serving (o := true) (la := false) (by unfold Sendable; decide +kernel)), by decide +kernel⟩,
   ⟨sent (owned none [(Obj.owner_state, 3)]) 0x32 (beNat 4 9), taken (owned none [(Obj.owner_state, 3)]) 0x32 (beNat 4 9), reqOf 0x32 (beNat 4 9),
     (serving (o := true) (la := false) (by unfold Sendable; decide +kernel)), by decide +kernel⟩,
   ⟨sent (owned (some { id := 5 })) 0x32 (beNat 4 9), taken (owned (some { id := 5 })) 0x32 (beNat 4 9), reqOf 0x32 (beNat 4 9),
     (serving (o := true) (la := false) (by unfold Sendable; decide +kernel)), by decide +kernel⟩,
   ⟨sent (owned) 0x32 (beNat 4 9), taken (owned) 0x32 (beNat 4 9), reqOf 0x32 (beNat 4 9),
     (serving (o := true) (la := false) (by unfold Sendable; decide +kernel)), by decide +kernel⟩,
   ⟨sent (with5 owned false) 0x32 (beNat 4 9), taken (with5 owned false) 0x32 (beNat 4 9), reqOf 0x32 (beNat 4 9),
     (serving (o := true) (la := false) (by unfold Sendable; decide +kernel)), 5, _, by decide +kernel, by decide +kernel, by decide +kernel, rfl,
     by decide +kernel⟩,
   ⟨sent (owned) 0x32 (beNat 4 7), taken (owned) 0x32 (beNat 4 7), reqOf 0x32 (beNat 4 7),
     (serving (o := true) (la := false) (by unfold Sendable; decide +kernel)), 3, _, by decide +kernel, by decide +kernel, by decide +kernel, rfl,
     by decide +kernel⟩,
   ⟨sent (with5 owned) 0x32 (beNat 4 9), taken (with5 owned) 0x32 (beNat 4 9), reqOf 0x32 (beNat 4 9),
     (serving (o := true) (la := false) (by unfold Sendable; decide +kernel)), 5, _, by decide +kernel, by decide +kernel, by decide +kernel, rfl,
     by decide +kernel, by decide +kernel, by unfold Wf; decide +kernel⟩,
   ⟨sent (succ3) 0x33 ([5] ++ List.replicate 15 0), taken (succ3) 0x33 ([5] ++ List.replicate 15 0), reqOf 0x33 ([5] ++ List.replicate 15 0),
     by decide +kernel, (serving (o := true) (la := false) (by unfold Sendable; decide +kernel)), by unfold Wf; decide +kernel, by decide +kernel⟩⟩
theorem wit_HandoverCommands_2 :
    (∃ (s t : State) (r : Req), s.commitOpen = false ∧ Serving s 0x33 t r ∧ t.isSuccessor r.k = false)
    ∧ (∃ s : State, s.commitOpen = true)
    ∧ (∃ (s : State) (k : Fin 32) (at' id : Nat), Wf s ∧ s.firmwareUp = true ∧ s.ool.successor = some (k, at', id) ∧ s.nn Obj.owner_state = 3
      ∧ at' ≤ s.now)
    ∧ (∃ (s : State) (k : Fin 32) (at' id : Nat), s.ool.successor = some (k, at', id) ∧ s.now < at')
    ∧ (∃ (s t : State) (r : Req), Serving s 0x34 t r ∧ Wf s ∧ t.owner = some r.k)
    ∧ (∃ (s t : State) (r : Req), Serving s 0x34 t r ∧ t.owner ≠ some r.k) :=
  ⟨⟨sent (owned) 0x33 ([5] ++ List.replicate 15 0), taken (owned) 0x33 ([5] ++ List.replicate 15 0), reqOf 0x33 ([5] ++ List.replicate 15 0),
  by decide +kernel, (serving (o := true) (la := false) (by unfold Sendable; decide +kernel)), by decide +kernel⟩,
   ⟨{ up with sys := { up.sys with block := some { code := 0x0400, force := false, since := 0, session := some 3 } } }, by decide +kernel⟩,
   ⟨{ State.nums up [(Obj.owner_state, 3), (Obj.owner_session, 5)] with ool := { up.ool with successor := some (3, 5, 7) } }, 3, 5, 7,
     by unfold Wf; decide +kernel⟩,
   ⟨{ up with ool := { up.ool with successor := some (3, 10000000000001, 7) } }, 3, 10000000000001, 7, by decide +kernel⟩,
   ⟨sent (owned) 0x34 ([]), taken (owned) 0x34 ([]), reqOf 0x34 ([]), (serving (o := true) (la := false) (by unfold Sendable; decide +kernel)),
     by unfold Wf; decide +kernel, by decide +kernel⟩,
   ⟨sent (opened) 0x34 ([]), taken (opened) 0x34 ([]), reqOf 0x34 ([]), (serving (o := true) (la := false) (by unfold Sendable; decide +kernel)),
     by decide +kernel⟩⟩
theorem wit_ConditionalCommit :
    (∃ (s t : State) (r : Req) (x : Txn), Serving s 0x21 t r ∧ t.owns r = true ∧ t.txnOf (fieldN r.payload 0 4) = some x ∧ x.spoiled = false
      ∧ bit (fieldN r.payload 4 1) 0 = false ∧ bit (fieldN r.payload 4 1) 2 = true)
    ∧ (∃ (s : State) (c : Sched), s.firmwareUp = true ∧ s.sched = [c] ∧ s.schedDue c = true ∧ bit c.flags 2 = true
      ∧ s.n Obj.generation ≠ (c.expected : Int)) :=
  ⟨⟨sent (owned (some { id := 5 }) [(Obj.generation, 6)]) 0x21 (commitP 4 5 0),
  taken (owned (some { id := 5 }) [(Obj.generation, 6)]) 0x21 (commitP 4 5 0), reqOf 0x21 (commitP 4 5 0), { id := 5 },
  (serving (o := true) (la := false) (by unfold Sendable; decide +kernel)), by decide +kernel⟩,
   ⟨withSched owned (sched4 0 4), sched4 0 4, by decide +kernel⟩⟩
theorem wit_RoundsHalfToEven :
    (∃ (a : Int) (d : Nat), 0 < d)
    ∧ (∃ (a : Int) (d : Nat), 0 < d ∧ 2 * (rneDiv a d * d - a).natAbs = d) :=
  ⟨⟨5, 2, by decide +kernel⟩,
   ⟨5, 2, by decide +kernel⟩⟩
theorem wit_ThreadsAreIsolated :
    ∃ (s u : State) (e e' : Fin 8) (t t' : Fin 16), ∃ p, p ∈ isaOps ∧ p.1 ≠ 0x1B :=
  ⟨up, up, 0, 1, 2, 3, (0x01, .isaAdd), by simp [isaOps], by decide⟩
theorem wit_ResetValues :
    ∃ d, 2 ≤ d ∧ d ≤ 8 :=
  ⟨8, by decide +kernel⟩
theorem wit_StepKeepsWellKept :
    ∃ s t : State, Wf s ∧ step s = .next t :=
  ⟨up, _, by unfold Wf; decide +kernel, rfl⟩
theorem wit_CommandFrame :
    ∃ t, exec .cert { up with pending := [.cert] } = .next t :=
  ⟨_, rfl⟩
theorem wit_StepKeepsWellKept_command :
    ∃ t, Wf { up with pending := [.cert] } ∧ step { up with pending := [.cert] } = .next t :=
  ⟨_, by unfold Wf; decide +kernel, rfl⟩

end Sys2Proof.Tests
end

section
/-! What every command keeps, rounding half to even, the state at the release of a power-on reset. -/

namespace Sys2Proof.Machine

/-! ## Every command keeps the queue, elapsed time, and the order of free values and draws -/

/-- One arm per command, as in the dispatch: each meaning keeps what the operations it is made of keep. -/
theorem exec_kept {s0 : State} (c : Instr) (s : State) (hK : Kept s0 s) : KeptO s0 (exec c s) :=
  match c with
  | .hello sigBad => execHello_kept sigBad s hK
  | .cert => execCert_kept s hK
  | .finish => execFinish_kept s hK
  | .close => execClose_kept s hK
  | .read => execRead_kept s hK
  | .readRecord => execReadRecord_kept s hK
  | .write => execWrite_kept s hK
  | .bulkRead => execBulkRead_kept s hK
  | .bulkWrite => execBulkWrite_kept s hK
  | .begin => execBegin_kept s hK
  | .commit => execCommit_kept s hK
  | .objectWrite index sub value => execObjectWrite_kept index sub value s hK
  | .abort => execAbort_kept s hK
  | .schedCancel => execSchedCancel_kept s hK
  | .scheduledCommitExecute => execScheduledCommitExecute_kept s hK
  | .persistWriteComplete ok => execPersistWriteComplete_kept ok s hK
  | .claim => execClaim_kept s hK
  | .electionWindowEnd => execElectionWindowEnd_kept s hK
  | .heartbeat => execHeartbeat_kept s hK
  | .leaseExpiry => execLeaseExpiry_kept s hK
  | .handover => execHandover_kept s hK
  | .confirm => execConfirm_kept s hK
  | .handoverTimerExpiry => execHandoverTimerExpiry_kept s hK
  | .release => execRelease_kept s hK
  | .setupTimeout => execSetupTimeout_kept s hK
  | .sessionIdleTimeout => execSessionIdleTimeout_kept s hK
  | .hostSpiWrite bytes => execHostSpiWrite_kept bytes s hK
  | .hostSpiRead clocked => execHostSpiRead_kept clocked s hK
  | .mgmtFrameReceive frame => execMgmtFrameReceive_kept frame s hK
  | .mgmtPhyPoll r1 r4 r5 r9 r10 => execMgmtPhyPoll_kept r1 r4 r5 r9 r10 s hK
  | .firstPower vkeep main => execFirstPower_kept vkeep main s hK
  | .mainSupplyLoss => execMainSupplyLoss_kept s hK
  | .mainSupplyReturn => execMainSupplyReturn_kept s hK
  | .rstnAssert => execRstnAssert_kept s hK
  | .rstnDeassert => execRstnDeassert_kept s hK
  | .wrstnAssert => execWrstnAssert_kept s hK
  | .wrstnDeassert => execWrstnDeassert_kept s hK
  | .coldResetRelease bootsel oscsel oscdiff dukOk tj => execColdResetRelease_kept bootsel oscsel oscdiff dukOk tj s hK
  | .trimLoadComplete aOk bOk => execTrimLoadComplete_kept aOk bOk s hK
  | .tickClockLock bankA bankB => execTickClockLock_kept bankA bankB s hK
  | .firmwareBootCheck download => execFirmwareBootCheck_kept download s hK
  | .configSetApply bad => execConfigSetApply_kept bad s hK
  | .dramTrainingComplete fail capacity ms => execDramTrainingComplete_kept fail capacity ms s hK
  | .clientTableInitComplete => execClientTableInitComplete_kept s hK
  | .bringupComplete => execBringupComplete_kept s hK
  | .domainWakeComplete domain => execDomainWakeComplete_kept domain s hK
  | .warmResetRelease => execWarmResetRelease_kept s hK
  | .warmServingResume => execWarmServingResume_kept s hK
  | .slotMissingCheckResume => execSlotMissingCheckResume_kept s hK
  | .thermalTrip => execThermalTrip_kept s hK
  | .thermalWarning temp => execThermalWarning_kept temp s hK
  | .watchdogWarm => execWatchdogWarm_kept s hK
  | .watchdogCold => execWatchdogCold_kept s hK
  | .resetRequestWarm => execResetRequestWarm_kept s hK
  | .resetRequestCold => execResetRequestCold_kept s hK
  | .blockReset code force => execBlockReset_kept code force s hK
  | .blockQuiesced => execBlockQuiesced_kept s hK
  | .quiesceTimeout => execQuiesceTimeout_kept s hK
  | .oscEdgeLoss => execOscEdgeLoss_kept s hK
  | .oscRestored => execOscRestored_kept s hK
  | .vkeepMonitor mV => execVkeepMonitor_kept mV s hK
  | .tamperAssert => execTamperAssert_kept s hK
  | .tamperLatchClear session => execTamperLatchClear_kept session s hK
  | .timingConditionEvaluate => execTimingConditionEvaluate_kept s hK
  | .mashTimeout => execMashTimeout_kept s hK
  | .spargeRequest request => execSpargeRequest_kept request s hK
  | .spargeTimeout => execSpargeTimeout_kept s hK
  | .kilnRequest => execKilnRequest_kept s hK
  | .cellarRequest => execCellarRequest_kept s hK
  | .cellarWakeTime => execCellarWakeTime_kept s hK
  | .cellarVerifyWake => execCellarVerifyWake_kept s hK
  | .cellarVerifyEnd => execCellarVerifyEnd_kept s hK
  | .snowdropAlign => execSnowdropAlign_kept s hK
  | .segmentStart => execSegmentStart_kept s hK
  | .slopeFollowupSegment => execSlopeFollowupSegment_kept s hK
  | .step amount session => execStep_kept amount session s hK
  | .leapComplete => execLeapComplete_kept s hK
  | .journalEntryVisible => execJournalEntryVisible_kept s hK
  | .refinEdge input stamp => execRefinEdge_kept input stamp s hK
  | .missingEdge slot => execMissingEdge_kept slot s hK
  | .todinFrame input start frame => execTodinFrame_kept input start frame s hK
  | .nmeaSentence input start sentence => execNmeaSentence_kept input start sentence s hK
  | .esmcPduReceive port ssm essm => execEsmcPduReceive_kept port ssm essm s hK
  | .esmcAbsent slot => execEsmcAbsent_kept slot s hK
  | .qualifyTimerExpiry slot => execQualifyTimerExpiry_kept slot s hK
  | .wtrTimerExpiry slot => execWtrTimerExpiry_kept slot s hK
  | .operatorValidityExpiry slot => execOperatorValidityExpiry_kept slot s hK
  | .operatorTime slot time => execOperatorTime_kept slot time s hK
  | .slotConfigCommit slot enable kind number => execSlotConfigCommit_kept slot enable kind number s hK
  | .manualSlotArm forF manual => execManualSlotArm_kept forF manual s hK
  | .selectionEvaluate => execSelectionEvaluate_kept s hK
  | .transitionComplete forF => execTransitionComplete_kept forF s hK
  | .disputeCompare => execDisputeCompare_kept s hK
  | .dpllTMeasurement slot => execDpllTMeasurement_kept slot s hK
  | .dpllFMeasurement sample => execDpllFMeasurement_kept sample s hK
  | .mediaLoopUpdate loopB => execMediaLoopUpdate_kept loopB s hK
  | .steering value => execSteering_kept value s hK
  | .oscMonitor offset => execOscMonitor_kept offset s hK
  | .efcUpdate => execEfcUpdate_kept s hK
  | .efcCompensate => execEfcCompensate_kept s hK
  | .modelLearnSample temp => execModelLearnSample_kept temp s hK
  | .holdoverRateUpdate temp => execHoldoverRateUpdate_kept temp s hK
  | .holdoverRemainingUpdate => execHoldoverRemainingUpdate_kept s hK
  | .modelStore => execModelStore_kept s hK
  | .modelReset => execModelReset_kept s hK
  | .outputEdge output pad => execOutputEdge_kept output pad s hK
  | .padCompensationUpdate output delay => execPadCompensationUpdate_kept output delay s hK
  | .outputPhaseJump output => execOutputPhaseJump_kept output s hK
  | .startTimeCommit output time => execStartTimeCommit_kept output time s hK
  | .alignTrigger output => execAlignTrigger_kept output s hK
  | .alignApplied output => execAlignApplied_kept output s hK
  | .alignTimeout output => execAlignTimeout_kept output s hK
  | .alignContinuousUpdate output => execAlignContinuousUpdate_kept output s hK
  | .todoutFrame todout => execTodoutFrame_kept todout s hK
  | .captureEdge capture stamp falling stable => execCaptureEdge_kept capture stamp falling stable s hK
  | .captureConvert capture => execCaptureConvert_kept capture s hK
  | .capAckSeq capture seq => execCapAckSeq_kept capture seq s hK
  | .bandMonitor band ms0 ms20 ms40 ms60 ms80 => execBandMonitor_kept band ms0 ms20 ms40 ms60 ms80 s hK
  | .fespiScriptSend band reads => execFespiScriptSend_kept band reads s hK
  | .fespiSettleEnd band => execFespiSettleEnd_kept band s hK
  | .antShort => execAntShort_kept s hK
  | .antRetry => execAntRetry_kept s hK
  | .antOpen => execAntOpen_kept s hK
  | .notchScan band lines => execNotchScan_kept band lines s hK
  | .acquisitionSearch channel band found => execAcquisitionSearch_kept channel band found s hK
  | .trackerLock channel run => execTrackerLock_kept channel run s hK
  | .pullInTimeout channel band => execPullInTimeout_kept channel band s hK
  | .trackerLoss channel run => execTrackerLoss_kept channel run s hK
  | .reacqTimeout channel band => execReacqTimeout_kept channel band s hK
  | .symbolSync channel band => execSymbolSync_kept channel band s hK
  | .transmitTimeResolved channel read => execTransmitTimeResolved_kept channel read s hK
  | .navPage channel band page => execNavPage_kept channel band page s hK
  | .orbitStorePersist => execOrbitStorePersist_kept s hK
  | .observationEpoch obs => execObservationEpoch_kept obs s hK
  | .timingSolution => execTimingSolution_kept s hK
  | .positionCheckFix epoch => execPositionCheckFix_kept epoch s hK
  | .surveyRestart => execSurveyRestart_kept s hK
  | .gristRequest request => execGristRequest_kept request s hK
  | .gristCaptureStart => execGristCaptureStart_kept s hK
  | .gristCaptureComplete samples => execGristCaptureComplete_kept samples s hK
  | .gristSolveComplete => execGristSolveComplete_kept s hK
  | .gristHold hold => execGristHold_kept hold s hK
  | .linkUp port speed fec eee => execLinkUp_kept port speed fec eee s hK
  | .linkDown port cause => execLinkDown_kept port cause s hK
  | .portSpeedChange port speed fec => execPortSpeedChange_kept port speed fec s hK
  | .portFrameReceive port edge o skew frame => execPortFrameReceive_kept port edge o skew frame s hK
  | .sentinelLock port tx first later => execSentinelLock_kept port tx first later s hK
  | .sentinelUnlock port loss => execSentinelUnlock_kept port loss s hK
  | .calFrameSend port => execCalFrameSend_kept port s hK
  | .calFrameReceive port edge o frame => execCalFrameReceive_kept port edge o frame s hK
  | .departureFix port word o => execDepartureFix_kept port word o s hK
  | .frameDeparture port err => execFrameDeparture_kept port err s hK
  | .governorEvaluate port => execGovernorEvaluate_kept port s hK
  | .lpiEnter port => execLpiEnter_kept port s hK
  | .esmcTx port => execEsmcTx_kept port s hK
  | .esmcEventPdu port => execEsmcEventPdu_kept port s hK
  | .sidebandScan first second third => execSidebandScan_kept first second third s hK
  | .threadStart engine thread => execThreadStart_kept engine thread s hK
  | .instructionLimit engine thread => execInstructionLimit_kept engine thread s hK
  | .aesJobComplete engine thread tag => execAesJobComplete_kept engine thread tag s hK
  | .clientLookupComplete engine thread => execClientLookupComplete_kept engine thread s hK
  | .cacheWriteback index => execCacheWriteback_kept index s hK
  | .clientTableSweep => execClientTableSweep_kept s hK
  | .timerWheelSlot => execTimerWheelSlot_kept s hK
  | .sketchDecay => execSketchDecay_kept s hK
  | .quietnAssert => execQuietnAssert_kept s hK
  | .quietnDeassert => execQuietnDeassert_kept s hK
  | .serveQuiet value => execServeQuiet_kept value s hK
  | .servingResume => execServingResume_kept s hK
  | .consolidationEvaluate => execConsolidationEvaluate_kept s hK
  | .pairGate pair => execPairGate_kept pair s hK
  | .pairWakeComplete pair => execPairWakeComplete_kept pair s hK
  | .programVerify image => execProgramVerify_kept image s hK
  | .programVerifyComplete => execProgramVerifyComplete_kept s hK
  | .programActivate => execProgramActivate_kept s hK
  | .programCounterClear => execProgramCounterClear_kept s hK
  | .ringFrameHandle ring => execRingFrameHandle_kept ring s hK
  | .isaNop engine thread => execIsaNop_kept engine thread s hK
  | .isaAdd engine thread => execIsaAdd_kept engine thread s hK
  | .isaSub engine thread => execIsaSub_kept engine thread s hK
  | .isaAnd engine thread => execIsaAnd_kept engine thread s hK
  | .isaOr engine thread => execIsaOr_kept engine thread s hK
  | .isaXor engine thread => execIsaXor_kept engine thread s hK
  | .isaShl engine thread => execIsaShl_kept engine thread s hK
  | .isaShr engine thread => execIsaShr_kept engine thread s hK
  | .isaSar engine thread => execIsaSar_kept engine thread s hK
  | .isaMul engine thread => execIsaMul_kept engine thread s hK
  | .isaMulhu engine thread => execIsaMulhu_kept engine thread s hK
  | .isaAddc engine thread => execIsaAddc_kept engine thread s hK
  | .isaMinu engine thread => execIsaMinu_kept engine thread s hK
  | .isaMaxu engine thread => execIsaMaxu_kept engine thread s hK
  | .isaSltu engine thread => execIsaSltu_kept engine thread s hK
  | .isaOrhi engine thread => execIsaOrhi_kept engine thread s hK
  | .isaBeq engine thread => execIsaBeq_kept engine thread s hK
  | .isaBne engine thread => execIsaBne_kept engine thread s hK
  | .isaBltu engine thread => execIsaBltu_kept engine thread s hK
  | .isaBgeu engine thread => execIsaBgeu_kept engine thread s hK
  | .isaBlt engine thread => execIsaBlt_kept engine thread s hK
  | .isaBge engine thread => execIsaBge_kept engine thread s hK
  | .isaBset engine thread => execIsaBset_kept engine thread s hK
  | .isaBclr engine thread => execIsaBclr_kept engine thread s hK
  | .isaJmp engine thread => execIsaJmp_kept engine thread s hK
  | .isaCall engine thread => execIsaCall_kept engine thread s hK
  | .isaRet engine thread => execIsaRet_kept engine thread s hK
  | .isaXent engine thread => execIsaXent_kept engine thread s hK
  | .isaLd8 engine thread => execIsaLd8_kept engine thread s hK
  | .isaLd16 engine thread => execIsaLd16_kept engine thread s hK
  | .isaLd32 engine thread => execIsaLd32_kept engine thread s hK
  | .isaLd64 engine thread => execIsaLd64_kept engine thread s hK
  | .isaSt8 engine thread => execIsaSt8_kept engine thread s hK
  | .isaSt16 engine thread => execIsaSt16_kept engine thread s hK
  | .isaSt32 engine thread => execIsaSt32_kept engine thread s hK
  | .isaSt64 engine thread => execIsaSt64_kept engine thread s hK
  | .isaCpy engine thread => execIsaCpy_kept engine thread s hK
  | .isaCsum engine thread => execIsaCsum_kept engine thread s hK
  | .isaTurn engine thread => execIsaTurn_kept engine thread s hK
  | .isaClook engine thread => execIsaClook_kept engine thread s hK
  | .isaCcreate engine thread => execIsaCcreate_kept engine thread s hK
  | .isaCwrite engine thread => execIsaCwrite_kept engine thread s hK
  | .isaSketch engine thread => execIsaSketch_kept engine thread s hK
  | .isaAesq engine thread => execIsaAesq_kept engine thread s hK
  | .isaAesw engine thread => execIsaAesw_kept engine thread s hK
  | .isaRand engine thread => execIsaRand_kept engine thread s hK
  | .isaEmit engine thread => execIsaEmit_kept engine thread s hK
  | .isaDrop engine thread => execIsaDrop_kept engine thread s hK
  | .isaPunt engine thread => execIsaPunt_kept engine thread s hK
  | .isaCinc engine thread => execIsaCinc_kept engine thread s hK
  | .announceReceive => execAnnounceReceive_kept s hK
  | .announceReceiptTimeout inst port => execAnnounceReceiptTimeout_kept inst port s hK
  | .ptpManagement => execPtpManagement_kept s hK
  | .smTlvSend inst port => execSmTlvSend_kept inst port s hK
  | .unicastRenew inst master message => execUnicastRenew_kept inst master message s hK
  | .cookieKeyRotate => execCookieKeyRotate_kept s hK
  | .ntsMasterKey key => execNtsMasterKey_kept key s hK
  | .ntsKeHandshake hello => execNtsKeHandshake_kept hello s hK
  | .ntsKeIdleTimeout conn => execNtsKeIdleTimeout_kept conn s hK
  | .bnChainStart post => execBnChainStart_kept post s hK
  | .rowMac bad => execRowMac_kept bad s hK
  | .product bad => execProduct_kept bad s hK
  | .montRow bad => execMontRow_kept bad s hK
  | .bnAbort queue => execBnAbort_kept queue s hK
  | .bnSelftest pass => execBnSelftest_kept pass s hK
  | .ntsKeKeygen => execNtsKeKeygen_kept s hK
  | .fwVerify => execFwVerify_kept s hK
  | .fwActivate => execFwActivate_kept s hK
  | .debugChallenge => execDebugChallenge_kept s hK
  | .debugResponse response => execDebugResponse_kept response s hK
  | .debugChallengeExpiry => execDebugChallengeExpiry_kept s hK
  | .jtagBypass => execJtagBypass_kept s hK
  | .jtagIdcode => execJtagIdcode_kept s hK
  | .jtagSamplePreload => execJtagSamplePreload_kept s hK
  | .jtagExtest => execJtagExtest_kept s hK
  | .patrolRead region addr fault last holds => execPatrolRead_kept region addr fault last holds s hK
  | .quarantineComplete region addr => execQuarantineComplete_kept region addr s hK
  | .tileCopyReload => execTileCopyReload_kept s hK
  | .crossingResync crossing discarded => execCrossingResync_kept crossing discarded s hK
  | .crossingHang crossing processor => execCrossingHang_kept crossing processor s hK
  | .snapRequest => execSnapRequest_kept s hK
  | .snapPeriodic => execSnapPeriodic_kept s hK
  | .counterWrap block counter => execCounterWrap_kept block counter s hK
  | .sampleClear => execSampleClear_kept s hK
  | .activationComplete => execActivationComplete_kept s hK
  | .syncReceiptTimeout slot => execSyncReceiptTimeout_kept slot s hK
  | .antCurrentInRange => execAntCurrentInRange_kept s hK
  | .vkeepRemoval => execVkeepRemoval_kept s hK
  | .delayReqSend inst port => execDelayReqSend_kept inst port s hK
  | .pdelayReqSend inst port => execPdelayReqSend_kept inst port s hK

/-- Settles O59: a command's next state is one reached from the state before without a tick. -/
theorem commandFrame : Obligations.CommandFrame := by
  intro c s t h
  obtain ⟨hpending, hnow, hfree, hdraws, _⟩ := (exec_kept c s (Kept.refl s)).ofNext t h
  exact ⟨hpending, hnow, hfree, hdraws⟩

/-! ## Rounding half to even (R11) -/

/-- The three cases of the remainder: below half, above half, and the tie, which goes to the even neighbour. -/
theorem rneDiv_cases (a : Int) (d : Nat) :
    (2 * (a % d) < d ∧ rneDiv a d = a / d) ∨ ((d : Int) < 2 * (a % d) ∧ rneDiv a d = a / d + 1)
      ∨ (2 * (a % d) = d ∧ rneDiv a d % 2 = 0 ∧ (rneDiv a d = a / d ∨ rneDiv a d = a / d + 1)) := by
  simp only [rneDiv]
  split_ifs with below above even
  · exact .inl ⟨below, rfl⟩
  · exact .inr (.inl ⟨above, rfl⟩)
  · exact .inr (.inr ⟨by omega, even, .inl rfl⟩)
  · exact .inr (.inr ⟨by omega, by omega, .inr rfl⟩)

/-- Settles O54: the distance to the quotient is the remainder or what the remainder lacks of the divisor. -/
theorem roundsHalfToEven : Obligations.RoundsHalfToEven := by
  intro a d hd
  have hr0 : 0 ≤ a % (d : Int) := Int.emod_nonneg a (by omega)
  have hrd : a % (d : Int) < d := Int.emod_lt_of_pos a (by omega)
  have hdown : a / d * d - a = -(a % d) := by linarith [Int.ediv_mul_add_emod a d]
  have hup : (a / d + 1) * d - a = d - a % d := by linarith [Int.ediv_mul_add_emod a d]
  obtain ⟨hlt, hq⟩ | ⟨hgt, hq⟩ | ⟨htie, heven, hq | hq⟩ := rneDiv_cases a d
  · rw [hq, hdown]; omega
  · rw [hq, hup]; omega
  · rw [hq] at heven; rw [hq, hdown]; omega
  · rw [hq] at heven; rw [hq, hup]; omega

/-! ## The release of a power-on reset (R66, R71) -/

/-- Nothing is stored: every object reads as its default (R15). -/
theorem State.get_reset (k : Nat) : State.reset.get k = objDefault k := rfl

/-- Every domain but the keep island sleeps: the default of its domain_state. -/
theorem State.domState_reset {d : Nat} (h2 : 2 ≤ d) (h8 : d ≤ 8) : State.reset.domState d = 0 := by
  interval_cases d <;> decide +kernel

/-- Settles O56: the fields of the reset state and the defaults of the objects it reads. -/
theorem resetValues : Obligations.ResetValues := by
  refine ⟨rfl, by decide +kernel, rfl, fun d => State.domState_reset, rfl, rfl, fun k => ?_, fun e t => ?_, State.get_reset,
    by decide +kernel, by decide +kernel⟩
  · simp [State.reset]
  · simp [State.thread, State.reset]

end Sys2Proof.Machine
end

section
/-! Requests of a session: what serving one reaches, and what a response leaves alone. -/

namespace Sys2Proof.Safety

open Sys2Proof.Machine

/-- Accepting a request runs no clock and writes the store by the model's operations alone. -/
theorem Serving.kept {s t : State} {r : Req} {op : Nat} (h : Serving s op t r) : Kept s t := by
  obtain ⟨_, hnext, _⟩ := h
  exact (State.nextReq_kept _ (State.agentBegin_kept s (Kept.refl s))).ofSome t r hnext

theorem Serving.storeWf {s t : State} {r : Req} {op : Nat} (h : Serving s op t r) (hw : Wf s) : storeWf t.obj = true := by
  obtain ⟨_, _, _, _, hforms⟩ := h.kept
  obtain ⟨hstore, _⟩ := hforms hw
  exact hstore

end Sys2Proof.Safety

namespace Sys2Proof.Machine

open Sys2Proof.Safety

/-! ## Serving a request -/

theorem State.serveReq_of_serving {s t : State} {r : Req} {op : Nat} (h : Serving s op t r) (f : State → Req → State) :
    s.serveReq op f = f t r := by
  obtain ⟨hup, hnext, hop⟩ := h
  simp [State.serveReq, hup, hnext, hop]

section
variable {s t : State} {r : Req}

theorem exec_begin_of_serving (h : Serving s 0x20 t r) : exec .begin s = .next (t.runBegin r) :=
  congrArg Host.Outcome.next (State.serveReq_of_serving h _)

theorem exec_abort_of_serving (h : Serving s 0x22 t r) : exec .abort s = .next (t.runAbort r) :=
  congrArg Host.Outcome.next (State.serveReq_of_serving h _)

theorem exec_write_of_serving (h : Serving s 0x12 t r) : exec .write s = .next (t.runWrite r) :=
  congrArg Host.Outcome.next (State.serveReq_of_serving h _)

theorem exec_bulkWrite_of_serving (h : Serving s 0x14 t r) : exec .bulkWrite s = .next (t.runBulkWrite r) :=
  congrArg Host.Outcome.next (State.serveReq_of_serving h _)

theorem exec_commit_of_serving (h : Serving s 0x21 t r) : exec .commit s = .next (t.runCommit r) :=
  congrArg Host.Outcome.next (State.serveReq_of_serving h _)

theorem exec_schedCancel_of_serving (h : Serving s 0x23 t r) : exec .schedCancel s = .next (t.runSchedCancel r) :=
  congrArg Host.Outcome.next (State.serveReq_of_serving h _)

end

/-! ## Responses -/

/-- `t` is `s` once response frames were cached and sent: the frames pending for the SPI host and the management port, the
sessions' caches, the packet buffer's bookkeeping, the ports' egress and the counters may differ, nothing else. -/
def Answered (s t : State) : Prop :=
  ∃ (spiOut mgmtOut : List Bytes) (sessions : Vector (Option Session) 32) (serve : Serve) (ports : Vector PortUnit 64)
    (ctrs : Vector CtrBlock 16),
    t = { s with ool := { s.ool with spiOut, mgmtOut, sessions }, serve, ports, ctrs }

theorem Answered.refl (s : State) : Answered s s := ⟨_, _, _, _, _, _, rfl⟩

theorem Answered.trans {s t u : State} (h : Answered s t) (h' : Answered t u) : Answered s u := by
  obtain ⟨_, _, _, _, _, _, rfl⟩ := h
  obtain ⟨_, _, _, _, _, _, rfl⟩ := h'
  exact ⟨_, _, _, _, _, _, rfl⟩

theorem State.setSession_answered (s : State) (k : Fin 32) (x : Option Session) : Answered s (s.setSession k x) :=
  ⟨_, _, _, _, _, _, rfl⟩

theorem State.count_answered (s : State) (blk : Fin 16) (code w unit : Nat) : Answered s (s.count blk code w unit) :=
  ⟨_, _, _, _, _, _, rfl⟩

theorem State.describe_answered (s : State) (ring : Nat) (f : EFrame) : Answered s (s.describe ring f).2 := by
  unfold State.describe
  dsimp only [State.buffer]
  split <;> exact ⟨_, _, _, _, _, _, rfl⟩

theorem State.post_answered (s : State) (n : Fin 64) (f : EFrame) : Answered s (s.post n f) :=
  have placed (g : EFrame) (u : State) : Answered u (u.setPort n { u.ports[n] with egress := u.ports[n].egress ++ [g] }) :=
    ⟨_, _, _, _, _, _, rfl⟩
  ((s.describe_answered _ f).trans (placed _ _)).trans (State.count_answered _ _ _ _ _)

theorem State.sendOol_answered (s : State) (path : Path) (hdr frame : Bytes) : Answered s (s.sendOol path hdr frame) := by
  cases path with
  | spi => exact ⟨_, _, _, _, _, _, rfl⟩
  | mgmt => exact ⟨_, _, _, _, _, _, rfl⟩
  | inband n =>
    simp only [State.sendOol]
    split
    · exact Answered.refl s
    · exact s.post_answered n _

theorem State.sendFrames_answered (s : State) (path : Path) (hdr : Bytes) (l : List Bytes) :
    Answered s (s.sendFrames path hdr l) := by
  unfold State.sendFrames
  induction l generalizing s with
  | nil => exact Answered.refl s
  | cons f l ih => exact (s.sendOol_answered path hdr f).trans (ih _)

/-- What a response to a request leaves alone. -/
theorem State.reply_answered (s : State) (r : Req) (status : Nat) (payload : Bytes) (more : Bool) :
    Answered s (s.reply r status payload more) := by
  unfold State.reply State.answer
  split
  · exact Answered.refl s
  · exact (s.setSession_answered _ _).trans (State.sendFrames_answered _ _ _ _)

section
variable {s t : State} (h : Answered s t)
include h

theorem Answered.obj : t.obj = s.obj := by obtain ⟨_, _, _, _, _, _, rfl⟩ := h; rfl

theorem Answered.sched : t.sched = s.sched := by obtain ⟨_, _, _, _, _, _, rfl⟩ := h; rfl

theorem Answered.txn : t.ool.txn = s.ool.txn := by obtain ⟨_, _, _, _, _, _, rfl⟩ := h; rfl

theorem Answered.nextTxn : t.ool.nextTxn = s.ool.nextTxn := by obtain ⟨_, _, _, _, _, _, rfl⟩ := h; rfl

theorem Answered.nextSched : t.ool.nextSched = s.ool.nextSched := by obtain ⟨_, _, _, _, _, _, rfl⟩ := h; rfl

theorem Answered.get (k : Nat) : t.get k = s.get k := State.get_of_obj h.obj k

end

section
variable (s : State) (r : Req) (status : Nat) (payload : Bytes) (more : Bool)

@[simp] theorem State.reply_obj : (s.reply r status payload more).obj = s.obj := (s.reply_answered ..).obj

@[simp] theorem State.reply_sched : (s.reply r status payload more).sched = s.sched := (s.reply_answered ..).sched

@[simp] theorem State.reply_txn : (s.reply r status payload more).ool.txn = s.ool.txn := (s.reply_answered ..).txn

@[simp] theorem State.reply_nextTxn : (s.reply r status payload more).ool.nextTxn = s.ool.nextTxn :=
  (s.reply_answered ..).nextTxn

@[simp] theorem State.reply_nextSched : (s.reply r status payload more).ool.nextSched = s.ool.nextSched :=
  (s.reply_answered ..).nextSched

@[simp] theorem State.reply_get (k : Nat) : (s.reply r status payload more).get k = s.get k :=
  (s.reply_answered ..).get k

@[simp] theorem State.reply_n (k : Nat) : (s.reply r status payload more).n k = s.n k := by simp only [State.n, State.reply_get]

@[simp] theorem State.reply_nn (k : Nat) : (s.reply r status payload more).nn k = s.nn k := by
  simp only [State.nn, State.reply_n]

end

end Sys2Proof.Machine
end

section
/-! Transactions (R44): opening, showing and ending one, the checks of a WRITE, BULK_WRITE. -/

namespace Sys2Proof.Machine

open Sys2Proof.Safety

/-! ## The open transaction -/

@[simp] theorem State.setTxn_txn (s : State) (x : Txn) : (s.setTxn x).ool.txn = some x := rfl

@[simp] theorem State.setTxn_nextTxn (s : State) (x : Txn) : (s.setTxn x).ool.nextTxn = s.ool.nextTxn := rfl

/-- Showing a transaction writes txn_state and txn_staged_count alone. -/
theorem State.get_setTxn_ne (s : State) (x : Txn) {k : Nat} (hstate : k ≠ Obj.txn_state) (hcount : k ≠ Obj.txn_staged_count) :
    (s.setTxn x).get k = s.get k := by
  rw [State.setTxn, State.get_putN_ne _ _ hcount, State.get_putN_ne _ _ hstate]
  rfl

theorem State.setTxn_state {s : State} (h : storeWf s.obj = true) (x : Txn) : (s.setTxn x).nn Obj.txn_state = 1 := by
  have hshown : (({ s with ool := { s.ool with txn := some x } } : State).putN Obj.txn_state 1).n Obj.txn_state = 1 :=
    State.n_putN_same (s := { s with ool := { s.ool with txn := some x } }) h _ _
  rw [State.nn, State.setTxn, State.n_putN_ne _ _ (by decide), hshown]
  rfl

theorem State.setTxn_staged_count {s : State} (h : storeWf s.obj = true) (x : Txn) :
    (s.setTxn x).nn Obj.txn_staged_count = x.items.length + (stagedWindows x.bulk).length := by
  rw [State.setTxn, State.nn_putN_same (State.storeWf_putN (s := { s with ool := { s.ool with txn := some x } }) h _ _)]
  exact Int.toNat_natCast _

@[simp] theorem State.abortTxn_txn (s : State) : s.abortTxn.ool.txn = none := rfl

/-- Ending a transaction writes txn_state and txn_staged_count alone. -/
theorem State.get_abortTxn_ne (s : State) {k : Nat} (hstate : k ≠ Obj.txn_state) (hcount : k ≠ Obj.txn_staged_count) :
    s.abortTxn.get k = s.get k := by
  rw [State.abortTxn, State.get_putN_ne _ _ hcount, State.get_putN_ne _ _ hstate]
  rfl

theorem State.abortTxn_state {s : State} (h : storeWf s.obj = true) : s.abortTxn.nn Obj.txn_state = 0 := by
  have hended : (({ s with ool := { s.ool with txn := none } } : State).putN Obj.txn_state 0).n Obj.txn_state = 0 :=
    State.n_putN_same (s := { s with ool := { s.ool with txn := none } }) h _ _
  rw [State.nn, State.abortTxn, State.n_putN_ne _ _ (by decide), hended]
  rfl

theorem State.abortTxn_staged_count {s : State} (h : storeWf s.obj = true) : s.abortTxn.nn Obj.txn_staged_count = 0 := by
  rw [State.abortTxn, State.nn_putN_same (State.storeWf_putN (s := { s with ool := { s.ool with txn := none } }) h _ _)]
  rfl

theorem State.n_setTxn_generation (s : State) (x : Txn) : (s.setTxn x).n Obj.generation = s.n Obj.generation := by
  rw [State.n, s.get_setTxn_ne x (by decide) (by decide)]
  rfl

theorem State.n_abortTxn_generation (s : State) : s.abortTxn.n Obj.generation = s.n Obj.generation := by
  rw [State.n, s.get_abortTxn_ne (by decide) (by decide)]
  rfl

theorem State.txnOf_eq_some {s : State} {id : Nat} {x : Txn} (h : s.txnOf id = some x) :
    s.ool.txn = some x ∧ x.id = id ∧ id ≠ 0 := by
  unfold State.txnOf at h
  split at h
  · next y hy =>
    split at h
    · next hid =>
      obtain rfl := Option.some.inj h
      simpa [hy] using hid
    · cases h
  · cases h

/-! ## BEGIN and ABORT -/

theorem State.runBegin_not_owner {s : State} {r : Req} (h : s.owns r = false) : s.runBegin r = s.reply r stNotOwner [] := by
  simp [State.runBegin, h]

theorem State.runBegin_open {s : State} {r : Req} (hown : s.owns r = true) (hover : s.handingOver = false)
    (htxn : s.ool.txn.isSome = true) : s.runBegin r = s.reply r stTxnOpen [] := by
  simp [State.runBegin, hown, hover, htxn]

/-- BEGIN opens a transaction with the next identifier, which then counts on. -/
theorem State.runBegin_new {s : State} {r : Req} (hown : s.owns r = true) (hover : s.handingOver = false)
    (htxn : s.ool.txn = none) :
    s.runBegin r = (({ s with ool := { s.ool with nextTxn := s.ool.nextTxn % (2 ^ 32 - 1) + 1 } } : State).setTxn
      { id := s.ool.nextTxn }).reply r stOk (beNat 4 s.ool.nextTxn) := by
  simp [State.runBegin, hown, hover, htxn]

theorem State.runAbort_not_owner {s : State} {r : Req} (h : s.owns r = false) : s.runAbort r = s.reply r stNotOwner [] := by
  simp [State.runAbort, h]

theorem State.runAbort_none {s : State} {r : Req} (hown : s.owns r = true) (htxn : s.txnOf (fieldN r.payload 0 4) = none) :
    s.runAbort r = s.reply r stTxnNone [] := by
  simp [State.runAbort, hown, htxn]

theorem State.runAbort_open {s : State} {r : Req} (hown : s.owns r = true) (htxn : s.txnOf (fieldN r.payload 0 4) ≠ none) :
    s.runAbort r = s.abortTxn.reply r stOk [] := by
  simp [State.runAbort, hown, htxn]

/-- A fresh transaction stages nothing. -/
theorem stagedWindows_nil : stagedWindows [] = [] := by simp [stagedWindows, stages]

/-! ## WRITE -/

theorem firstFail_checks_eq_ok_iff {α : Type} (l : List (Nat × α)) :
    firstFail (l.map fun c => (c.1 != stOk, c.1)) = stOk ↔ ∀ c ∈ l, c.1 = stOk := by
  induction l with
  | nil => simp [firstFail]
  | cons c l ih => by_cases hc : c.1 = stOk <;> simp [firstFail, hc, ih]

section
variable {s : State} {r : Req} (hown : s.owns r = true) (hover : s.handingOver = false)
include hown hover

theorem State.writeGate_open (htxn : s.ool.txn.isSome = true) : s.writeGate r 0 = stTxnOpen := by
  simp [State.writeGate, firstFail, hown, hover, htxn]

theorem State.writeGate_immediate (htxn : s.ool.txn = none) : s.writeGate r 0 = stOk := by
  simp [State.writeGate, firstFail, hown, hover, htxn]

theorem State.writeGate_none {id : Nat} (hid : id ≠ 0) (htxn : s.txnOf id = none) : s.writeGate r id = stTxnNone := by
  simp [State.writeGate, firstFail, hown, hover, htxn, hid]

theorem State.writeGate_staging {id : Nat} {x : Txn} (htxn : s.txnOf id = some x) : s.writeGate r id = stOk := by
  obtain ⟨_, _, hid⟩ := State.txnOf_eq_some htxn
  simp [State.writeGate, firstFail, hown, hover, htxn, hid]

end

/-- A WRITE stopped before its items is answered that status for each. -/
theorem State.runWrite_gated {s : State} {r : Req} (h : s.writeGate r (fieldN r.payload 0 4) ≠ stOk) :
    s.runWrite r = s.reply r (s.writeGate r (fieldN r.payload 0 4))
      (List.replicate ((writeItems r.payload.length (r.payload.drop 4)).getD []).length
          (BitVec.ofNat 8 (s.writeGate r (fieldN r.payload 0 4)))
        ++ if fieldN r.payload 0 4 = 0 then s.genBytes else []) := by
  simp only [State.runWrite, ne_eq, h, not_false_eq_true, if_true]

section
variable {s : State} {r : Req} {raw : List (Nat × Nat × Nat × Bytes)}
  (hraw : writeItems r.payload.length (r.payload.drop 4) = some raw)
include hraw

/-- A WRITE with a failing item is answered; of the state it changes the transaction's spoiled mark alone (R7). -/
theorem State.runWrite_failing (hgate : s.writeGate r (fieldN r.payload 0 4) = stOk)
    (hfail : ∃ c ∈ s.checkItems r 0 raw, c.1 ≠ stOk) :
    Answered (if (s.checkItems r 0 raw).any fun c => c.1 == stReserved then s.spoil (fieldN r.payload 0 4) else s)
      (s.runWrite r) := by
  have hst : firstFail ((s.checkItems r 0 raw).map fun c => (c.1 != stOk, c.1)) ≠ stOk := by
    rw [ne_eq, firstFail_checks_eq_ok_iff]
    simpa using hfail
  simp only [State.runWrite, hgate, hraw, Option.getD_some, ne_eq, hst, not_true_eq_false, not_false_eq_true, if_true, if_false]
  exact State.reply_answered _ _ _ _ _

/-- A WRITE of the open transaction whose items pass and fit is staged. -/
theorem State.runWrite_staged {x : Txn} (hgate : s.writeGate r (fieldN r.payload 0 4) = stOk)
    (htxn : s.txnOf (fieldN r.payload 0 4) = some x) (hpass : ∀ c ∈ s.checkItems r 0 raw, c.1 = stOk)
    (hfits : txnFull (stageItems x.items ((s.checkItems r 0 raw).filterMap fun c => c.2)) x.bulk = false) :
    Answered (s.setTxn { x with items := stageItems x.items ((s.checkItems r 0 raw).filterMap fun c => c.2) }) (s.runWrite r) := by
  obtain ⟨_, _, hid⟩ := State.txnOf_eq_some htxn
  have hst := (firstFail_checks_eq_ok_iff _).mpr hpass
  simp only [State.runWrite, hgate, hraw, Option.getD_some, ne_eq, hst, htxn, hid, hfits, not_true_eq_false, Bool.false_eq_true,
    if_false]
  exact State.reply_answered _ _ _ _ _

/-- A WRITE of transaction 0 with none open, whose items pass, is an immediate commit after the scheduled ones that are due. -/
theorem State.runWrite_immediate {l : List StagedItem} (hgate : s.writeGate r (fieldN r.payload 0 4) = stOk)
    (hid : fieldN r.payload 0 4 = 0) (hpass : ∀ c ∈ s.checkItems r 0 raw, c.1 = stOk)
    (hl : l = stageItems [] ((s.checkItems r 0 raw).filterMap fun c => c.2)) (hfits : txnFull l [] = false)
    (hnow : s.runDue.commitNow l [] 0 0 = stOk) : s.runWrite r = s.runDue.commitApply r l [] 0 raw.length 0 := by
  have hst := (firstFail_checks_eq_ok_iff _).mpr hpass
  rw [hid] at hgate
  simp only [State.runWrite, hid, hgate, hraw, Option.getD_some, ne_eq, hst, ← hl, hfits, hnow, not_true_eq_false,
    Bool.false_eq_true, if_true, if_false]

end

@[simp] theorem State.spoil_obj (s : State) (id : Nat) : (s.spoil id).obj = s.obj := by
  unfold State.spoil
  split <;> rfl

theorem State.spoil_txn {s : State} {id : Nat} {x : Txn} (h : s.txnOf id = some x) :
    (s.spoil id).ool.txn = some { x with spoiled := true } := by
  simp [State.spoil, h]

/-! ## BULK_WRITE -/

/-- The owner is checked first, of a window and of an index that names none (R433). -/
theorem State.runBulkWrite_not_owner {s : State} {r : Req} (h : s.owns r = false) :
    s.runBulkWrite r = s.reply r stNotOwner [] := by
  cases hrow : bulkRow (fieldN r.payload 4 2) with
  | none => simp [State.runBulkWrite, hrow, h]
  | some w => simp [State.runBulkWrite, hrow, State.bulkWriteStatus, firstFail, h]

/-- Bytes for a window of the open transaction are staged after those it holds. -/
theorem State.runBulkWrite_staged {s : State} {r : Req} {w : BulkRow} {x : Txn} (hrow : bulkRow (fieldN r.payload 4 2) = some w)
    (hst : s.bulkWriteStatus r w (fieldN r.payload 0 4) (fieldN r.payload 6 8) (r.payload.drop 14).length = stOk)
    (hfw : w.index ≠ 0x8340) (htxn : s.txnOf (fieldN r.payload 0 4) = some x)
    (hfits : txnFull x.items (x.bulk ++ [{ index := w.index, offset := fieldN r.payload 6 8, data := r.payload.drop 14 }]) = false) :
    s.runBulkWrite r = (s.setTxn
      { x with bulk := x.bulk ++ [{ index := w.index, offset := fieldN r.payload 6 8, data := r.payload.drop 14 }] }).reply r stOk [] := by
  simp only [State.runBulkWrite, hrow, hst, hfw, htxn, hfits, ne_eq, not_true_eq_false, Bool.false_eq_true, if_false]

end Sys2Proof.Machine
end

section
/-! Transactions stage writes whole or not at all, for the owner alone (R44). -/

namespace Sys2Proof.Machine

open Sys2Proof.Safety

section
variable {s t : State} {r : Req}

theorem begin_yields_open_txn (h : Serving s 0x20 t r) (hw : Wf s) (hown : t.owns r = true) (hover : t.handingOver = false)
    (htxn : t.ool.txn = none) :
    Yields .begin s fun u => u.ool.txn = some { id := t.ool.nextTxn } ∧ u.nn Obj.txn_state = 1 ∧ u.nn Obj.txn_staged_count = 0
      ∧ u.ool.nextTxn = t.ool.nextTxn % (2 ^ 32 - 1) + 1 ∧ u.n Obj.generation = t.n Obj.generation := by
  have hstore : storeWf ({ t with ool := { t.ool with nextTxn := t.ool.nextTxn % (2 ^ 32 - 1) + 1 } } : State).obj = true :=
    h.storeWf hw
  refine ⟨_, exec_begin_of_serving h, ?_⟩
  rw [State.runBegin_new hown hover htxn]
  refine ⟨by simp, by rw [State.reply_nn, State.setTxn_state hstore], ?_, by simp, ?_⟩
  · rw [State.reply_nn, State.setTxn_staged_count hstore, stagedWindows_nil]
    rfl
  · rw [State.reply_n, State.n_setTxn_generation]
    rfl

theorem abort_yields_no_txn (h : Serving s 0x22 t r) (hw : Wf s) (hown : t.owns r = true)
    (htxn : t.txnOf (fieldN r.payload 0 4) ≠ none) :
    Yields .abort s fun u => u.ool.txn = none ∧ u.nn Obj.txn_state = 0 ∧ u.nn Obj.txn_staged_count = 0
      ∧ u.n Obj.generation = t.n Obj.generation := by
  refine ⟨_, exec_abort_of_serving h, ?_⟩
  rw [State.runAbort_open hown htxn]
  simp [State.abortTxn_state (h.storeWf hw), State.abortTxn_staged_count (h.storeWf hw), State.n_abortTxn_generation]

/-- A WRITE of transaction 0 while a transaction is open is answered, and nothing else. -/
theorem write_zero_while_open (h : Serving s 0x12 t r) (hown : t.owns r = true) (hover : t.handingOver = false)
    (hid : fieldN r.payload 0 4 = 0) (htxn : t.ool.txn.isSome = true) :
    Yields .write s fun u => u.obj = t.obj ∧ u.ool.txn = t.ool.txn := by
  have hgate : t.writeGate r (fieldN r.payload 0 4) = stTxnOpen := by
    rw [hid, State.writeGate_open hown hover htxn]
  refine ⟨_, exec_write_of_serving h, ?_⟩
  rw [State.runWrite_gated (by rw [hgate]; decide)]
  exact ⟨State.reply_obj .., State.reply_txn ..⟩

theorem write_without_txn {raw : List (Nat × Nat × Nat × Bytes)} (h : Serving s 0x12 t r) (hown : t.owns r = true)
    (hover : t.handingOver = false) (hid : fieldN r.payload 0 4 ≠ 0) (htxn : t.txnOf (fieldN r.payload 0 4) = none)
    (hraw : writeItems r.payload.length (r.payload.drop 4) = some raw) :
    exec .write s = .next (t.reply r stTxnNone (List.replicate raw.length 0x08)) := by
  have hgate := State.writeGate_none hown hover hid htxn
  rw [exec_write_of_serving h, State.runWrite_gated (by rw [hgate]; decide), hgate, hraw, if_neg hid, List.append_nil]
  rfl

theorem write_staged {x : Txn} {raw : List (Nat × Nat × Nat × Bytes)} (h : Serving s 0x12 t r) (hown : t.owns r = true)
    (hover : t.handingOver = false) (htxn : t.txnOf (fieldN r.payload 0 4) = some x)
    (hraw : writeItems r.payload.length (r.payload.drop 4) = some raw) (hpass : ∀ c ∈ t.checkItems r 0 raw, c.1 = stOk)
    (hfits : txnFull (stageItems x.items ((t.checkItems r 0 raw).filterMap fun c => c.2)) x.bulk = false) :
    Yields .write s fun u =>
      u.ool.txn = some { x with items := stageItems x.items ((t.checkItems r 0 raw).filterMap fun c => c.2) }
      ∧ ∀ k, k ≠ Obj.txn_state → k ≠ Obj.txn_staged_count → u.get k = t.get k := by
  have hu := State.runWrite_staged hraw (State.writeGate_staging hown hover htxn) htxn hpass hfits
  exact ⟨_, exec_write_of_serving h, hu.txn, fun k hstate hcount => (hu.get k).trans (t.get_setTxn_ne _ hstate hcount)⟩

theorem write_failing_stages_none {x : Txn} {raw : List (Nat × Nat × Nat × Bytes)} (h : Serving s 0x12 t r)
    (hown : t.owns r = true) (hover : t.handingOver = false) (htxn : t.txnOf (fieldN r.payload 0 4) = some x)
    (hraw : writeItems r.payload.length (r.payload.drop 4) = some raw) (hfail : ∃ c ∈ t.checkItems r 0 raw, c.1 ≠ stOk) :
    Yields .write s fun u => u.obj = t.obj
      ∧ ((∀ c ∈ t.checkItems r 0 raw, c.1 ≠ stReserved) → u.ool.txn = t.ool.txn)
      ∧ ((∃ c ∈ t.checkItems r 0 raw, c.1 = stReserved) → u.ool.txn = some { x with spoiled := true }) := by
  have hu := State.runWrite_failing hraw (State.writeGate_staging hown hover htxn) hfail
  refine ⟨_, exec_write_of_serving h, ?_, fun hnone => ?_, fun hsome => ?_⟩
  · rw [hu.obj]
    split
    · exact State.spoil_obj ..
    · rfl
  · rw [hu.txn, if_neg (by simpa only [List.any_eq_true, beq_iff_eq, not_exists, not_and] using hnone)]
  · rw [hu.txn, if_pos (by simpa only [List.any_eq_true, beq_iff_eq] using hsome), State.spoil_txn htxn]

end

/-- Settles O45: each clause is the equation of its command's branch, after which the response leaves the store and the
transaction alone. -/
theorem transactionCommands : Obligations.TransactionCommands := by
  refine ⟨fun s t r h => ⟨fun hown => ?_, fun hown hover htxn => ?_, fun hw => begin_yields_open_txn h hw⟩,
    fun s t r => write_zero_while_open, fun s t r raw => write_without_txn,
    fun s t r x raw h hown hover _ => write_staged h hown hover,
    fun s t r x raw h hown hover _ => write_failing_stages_none h hown hover,
    fun s t r raw l h hown hover hid htxn hraw hpass hl hfits hnow => ?_,
    fun s t r w x h hrow hst hfw htxn hfits => ⟨_, exec_bulkWrite_of_serving h, ?_⟩, fun s t r h hown => ?_,
    fun s t r h => ⟨fun hown => ?_, fun hown htxn => ?_, fun hw => abort_yields_no_txn h hw⟩⟩
  · rw [exec_begin_of_serving h, State.runBegin_not_owner hown]
  · rw [exec_begin_of_serving h, State.runBegin_open hown hover htxn]
  · have hgate : t.writeGate r (fieldN r.payload 0 4) = stOk := by
      rw [hid, State.writeGate_immediate hown hover htxn]
    rw [exec_write_of_serving h, State.runWrite_immediate hraw hgate hid hpass hl hfits hnow]
  · rw [State.runBulkWrite_staged hrow hst hfw htxn hfits]
    exact (State.reply_txn ..).trans (State.setTxn_txn ..)
  · rw [exec_bulkWrite_of_serving h, State.runBulkWrite_not_owner hown]
  · rw [exec_abort_of_serving h, State.runAbort_not_owner hown]
  · rw [exec_abort_of_serving h, State.runAbort_none hown htxn]

end Sys2Proof.Machine
end

section
/-! Commits (R44-R49): the commit of the open transaction, schedules, their order and execution. -/

namespace Sys2Proof.Machine

open Sys2Proof.Safety

/-! ## COMMIT -/

theorem State.runCommit_not_owner {s : State} {r : Req} (h : s.owns r = false) : s.runCommit r = s.reply r stNotOwner [] := by
  simp [State.runCommit, h]

section
variable {s : State} {r : Req} (hown : s.owns r = true)
include hown

theorem State.runCommit_none (htxn : s.txnOf (fieldN r.payload 0 4) = none) : s.runCommit r = s.reply r stTxnNone [] := by
  simp [State.runCommit, hown, htxn]

section
variable {x : Txn} (htxn : s.txnOf (fieldN r.payload 0 4) = some x)
include htxn

theorem State.runCommit_spoiled (hspoiled : x.spoiled = true) : s.runCommit r = s.abortTxn.reply r stReserved [] := by
  simp [State.runCommit, hown, htxn, hspoiled]

variable (hspoiled : x.spoiled = false)
include hspoiled

theorem State.runCommit_now (hflag : bit (fieldN r.payload 4 1) 0 = false)
    (hst : s.abortTxn.runDue.commitNow x.items x.bulk (fieldN r.payload 4 1) (fieldN r.payload 8 8) = stOk) :
    s.runCommit r
      = s.abortTxn.runDue.commitApply r x.items x.bulk (fieldN r.payload 4 1) 0 (fieldN r.payload 8 8) := by
  simp only [State.runCommit, hown, htxn, hspoiled, hflag, hst, Bool.not_true, Bool.false_eq_true, ne_eq, not_true_eq_false,
    if_false]

theorem State.runCommit_now_failed (hflag : bit (fieldN r.payload 4 1) 0 = false)
    (hst : s.abortTxn.runDue.commitNow x.items x.bulk (fieldN r.payload 4 1) (fieldN r.payload 8 8) ≠ stOk) :
    s.runCommit r = s.abortTxn.runDue.reply r
      (s.abortTxn.runDue.commitNow x.items x.bulk (fieldN r.payload 4 1) (fieldN r.payload 8 8)) [] := by
  simp only [State.runCommit, hown, htxn, hspoiled, hflag, hst, Bool.not_true, Bool.false_eq_true, ne_eq, not_false_eq_true,
    if_true, if_false]

theorem State.runCommit_later (hflag : bit (fieldN r.payload 4 1) 0 = true)
    (hst : s.abortTxn.commitLater x.items x.bulk (fieldN r.payload 4 1) (timeOfBytes (field r.payload 16 14)) = stOk) :
    s.runCommit r = s.abortTxn.schedule r x.items x.bulk (fieldN r.payload 4 1) (fieldN r.payload 8 8)
      (timeOfBytes (field r.payload 16 14)) := by
  simp only [State.runCommit, hown, htxn, hspoiled, hflag, hst, Bool.not_true, Bool.false_eq_true, ne_eq, not_true_eq_false,
    if_true, if_false]

end

end

section
variable (s : State) (r : Req) (l : List StagedItem) (w : List StagedBulk) (flags expected : Nat) (time : Int)

theorem State.schedule_txn : (s.schedule r l w flags expected time).ool.txn = s.ool.txn := State.reply_txn ..

theorem State.schedule_sched : (s.schedule r l w flags expected time).sched
    = s.sched ++ [{ id := s.ool.nextSched, time, session := r.k.val, flags, expected, items := l, bulk := w }] :=
  State.reply_sched ..

theorem State.schedule_nextSched :
    (s.schedule r l w flags expected time).ool.nextSched = s.ool.nextSched % (2 ^ 32 - 1) + 1 :=
  State.reply_nextSched ..

end

/-! ## SCHED_CANCEL -/

/-- A step segment whose commit is gone is withdrawn from the timebase; nothing else changes. -/
theorem State.dropLostStep_frame (s : State) : s.dropLostStep = { s with tb := s.dropLostStep.tb } := by
  unfold State.dropLostStep
  split
  · split <;> rfl
  · rfl

@[simp] theorem State.dropLostStep_obj (s : State) : s.dropLostStep.obj = s.obj := by
  rw [State.dropLostStep_frame]

@[simp] theorem State.dropLostStep_sched (s : State) : s.dropLostStep.sched = s.sched := by
  rw [State.dropLostStep_frame]

@[simp] theorem State.dropLostStep_outs (s : State) : s.dropLostStep.outs = s.outs := by
  rw [State.dropLostStep_frame]

@[simp] theorem State.dropLostStep_slots (s : State) : s.dropLostStep.slots = s.slots := by
  rw [State.dropLostStep_frame]

@[simp] theorem State.dropLostStep_n (s : State) (k : Nat) : s.dropLostStep.n k = s.n k := by
  simp only [State.n, State.get, State.dropLostStep_obj]

@[simp] theorem State.dropLostStep_nn (s : State) (k : Nat) : s.dropLostStep.nn k = s.nn k := by
  simp only [State.nn, State.dropLostStep_n]

theorem State.runSchedCancel_not_owner {s : State} {r : Req} (h : s.owns r = false) :
    s.runSchedCancel r = s.reply r stNotOwner [] := by
  simp [State.runSchedCancel, h]

theorem State.runSchedCancel_unknown {s : State} {r : Req} (hown : s.owns r = true)
    (hnone : ∀ c ∈ s.sched, c.id ≠ fieldN r.payload 0 4 ∨ s.schedDue c = true) :
    s.runSchedCancel r = s.reply r stNoObject [] := by
  have hany : (s.sched.any fun c => c.id == fieldN r.payload 0 4 && !s.schedDue c) = false := by
    rw [List.any_eq_false]
    intro c hc
    obtain hid | hdue := hnone c hc
    · simp [hid]
    · simp [hdue]
  simp only [State.runSchedCancel, hown, hany, Bool.not_true, Bool.not_false, Bool.false_eq_true, if_true, if_false]

theorem State.runSchedCancel_pending {s : State} {r : Req} {c : Sched} (hc : c ∈ s.sched) (hown : s.owns r = true)
    (hid : c.id = fieldN r.payload 0 4) (hdue : s.schedDue c = false) :
    (s.runSchedCancel r).sched = s.sched.filter fun d => !(d.id == fieldN r.payload 0 4 && !s.schedDue d) := by
  have hany : (s.sched.any fun d => d.id == fieldN r.payload 0 4 && !s.schedDue d) = true :=
    List.any_eq_true.mpr ⟨c, hc, by simp [hid, hdue]⟩
  simp only [State.runSchedCancel, hown, hany, Bool.not_true, Bool.false_eq_true, if_false, State.reply_sched,
    State.dropLostStep_sched]

/-! ## The order of execution (R49) -/

theorem schedIns_perm (c : Sched) (l : List Sched) : (schedIns c l).Perm (c :: l) := by
  induction l with
  | nil => exact List.Perm.refl _
  | cons d l ih =>
    unfold schedIns
    split
    · exact List.Perm.refl _
    · exact (ih.cons d).trans (List.Perm.swap c d l)

theorem schedIns_pairwise {c : Sched} {l : List Sched} (h : l.Pairwise fun a b => a.time ≤ b.time) :
    (schedIns c l).Pairwise fun a b => a.time ≤ b.time := by
  induction l with
  | nil => exact List.pairwise_singleton _ c
  | cons d l ih =>
    obtain ⟨hd, hl⟩ := List.pairwise_cons.mp h
    unfold schedIns
    split
    · next hlt =>
      refine List.pairwise_cons.mpr ⟨fun b hb => ?_, h⟩
      obtain rfl | hb := List.mem_cons.mp hb
      · exact hlt.le
      · exact hlt.le.trans (hd b hb)
    · next hge =>
      refine List.pairwise_cons.mpr ⟨fun b hb => ?_, ih hl⟩
      obtain rfl | hb := List.mem_cons.mp ((schedIns_perm c l).mem_iff.mp hb)
      · exact not_lt.mp hge
      · exact hd b hb

theorem schedOrder_perm (l : List Sched) : (schedOrder l).Perm l := by
  suffices h : ∀ acc : List Sched, (l.foldl (fun a c => schedIns c a) acc).Perm (l ++ acc) by simpa [schedOrder] using h []
  intro acc
  induction l generalizing acc with
  | nil => exact List.Perm.refl _
  | cons c l ih => exact (ih (schedIns c acc)).trans (((schedIns_perm c acc).append_left l).trans List.perm_middle)

theorem schedOrder_pairwise (l : List Sched) : (schedOrder l).Pairwise fun a b => a.time ≤ b.time := by
  suffices h : ∀ acc : List Sched, (acc.Pairwise fun a b => a.time ≤ b.time) →
      (l.foldl (fun a c => schedIns c a) acc).Pairwise fun a b => a.time ≤ b.time from h [] List.Pairwise.nil
  induction l with
  | nil => exact fun acc h => h
  | cons c l ih => exact fun acc h => ih _ (schedIns_pairwise h)

/-! ## SCHEDULED_COMMIT_EXECUTE (R48, R49) -/

theorem State.runDue_none {s : State} (h : ∀ c ∈ s.sched, s.schedDue c = false) : s.runDue = s := by
  have hdue : (s.sched.filter fun c => s.schedDue c) = [] := List.filter_eq_nil_iff.mpr fun c hc => by simp [h c hc]
  simp [State.runDue, hdue, schedOrder]

theorem State.runDue_one {s : State} {c : Sched} (hsched : s.sched = [c]) (hdue : s.schedDue c = true) :
    s.runDue = s.runSched c := by
  simp [State.runDue, hsched, hdue, schedOrder, schedIns]

section
variable {s : State} {c : Sched} (hsched : s.sched = [c])
include hsched

theorem State.runSched_one_ok (hst : ({ s with sched := [] } : State).schedStatus c = stOk) :
    s.runSched c = ({ s with sched := [] } : State).takeEffect c.items c.bulk c.flags c.session (some c.time) := by
  simp [State.runSched, hsched, hst]

/-- A commit that fails at its time is journalled and counted, and its step segment withdrawn. -/
theorem State.runSched_one_failed (hst : ({ s with sched := [] } : State).schedStatus c ≠ stOk) :
    s.runSched c = ((({ s with sched := [] } : State).log 0 0x1104
      (beNat 4 c.id ++ beNat 1 (({ s with sched := [] } : State).schedStatus c) ++ be 8 (c.time / unitsPerS))).bump
        Obj.sched_failed_count).dropLostStep := by
  simp [State.runSched, hsched, hst]

end

theorem exec_scheduledCommitExecute {s : State} (h : s.firmwareUp = true) :
    exec .scheduledCommitExecute s = .next s.runDue := by
  show execScheduledCommitExecute s = _
  rw [execScheduledCommitExecute, if_pos h]

/-- A scheduled commit that fails does so whole: of the objects only sched_failed_count changes. -/
theorem scheduled_commit_fails_whole {s : State} {c : Sched} (hup : s.firmwareUp = true) (hsched : s.sched = [c])
    (hdue : s.schedDue c = true) (hst : ({ s with sched := [] } : State).schedStatus c ≠ stOk) (hw : Wf s) :
    Yields .scheduledCommitExecute s fun v => v.sched = [] ∧ v.n Obj.generation = s.n Obj.generation
      ∧ v.nn Obj.sched_failed_count = (s.nn Obj.sched_failed_count + 1) % 2 ^ 32 ∧ v.outs = s.outs ∧ v.slots = s.slots := by
  refine ⟨_, exec_scheduledCommitExecute hup, ?_⟩
  rw [State.runDue_one hsched hdue, State.runSched_one_failed hsched hst]
  generalize beNat 4 c.id ++ _ ++ _ = data
  have hobj : (({ s with sched := [] } : State).log 0 0x1104 data).obj = s.obj := State.log_obj _ _ _ _ (by decide)
  have hstore : storeWf (({ s with sched := [] } : State).log 0 0x1104 data).obj = true := by
    obtain ⟨hstore, _⟩ := hw
    rw [hobj]
    exact hstore
  have hwidth : counterModulus Obj.sched_failed_count = 2 ^ 32 := by decide +kernel
  have hget (k : Nat) : (({ s with sched := [] } : State).log 0 0x1104 data).get k = s.get k := State.get_of_obj hobj k
  refine ⟨by simp, ?_, ?_, by simp, by simp⟩
  · rw [State.dropLostStep_n, State.n, State.get_bump_ne _ (by decide), hget]
    rfl
  · rw [State.dropLostStep_nn, State.nn_bump_same hstore, hwidth, State.nn, State.n, hget]
    rfl

/-- Where no scheduled commit is due, the execution does nothing, whether firmware runs or not. -/
theorem exec_scheduledCommitExecute_none {s : State} (h : ∀ c ∈ s.sched, s.schedDue c = false) :
    exec .scheduledCommitExecute s = .next s := by
  show execScheduledCommitExecute s = _
  rw [execScheduledCommitExecute, State.runDue_none h, ite_self]

theorem scheduled_commit_waits {s t : State} {r : Req} {x : Txn} (h : Serving s 0x21 t r) (hown : t.owns r = true)
    (htxn : t.txnOf (fieldN r.payload 0 4) = some x) (hspoiled : x.spoiled = false)
    (hflag : bit (fieldN r.payload 4 1) 0 = true)
    (hst : t.abortTxn.commitLater x.items x.bulk (fieldN r.payload 4 1) (timeOfBytes (field r.payload 16 14)) = stOk) :
    Yields .commit s fun u => u.ool.txn = none
      ∧ u.sched = t.sched ++ [{ id := t.ool.nextSched, time := timeOfBytes (field r.payload 16 14), session := r.k.val,
                                flags := fieldN r.payload 4 1, expected := fieldN r.payload 8 8, items := x.items, bulk := x.bulk }]
      ∧ u.ool.nextSched = t.ool.nextSched % (2 ^ 32 - 1) + 1 := by
  refine ⟨_, exec_commit_of_serving h, ?_⟩
  rw [State.runCommit_later hown htxn hspoiled hflag hst]
  exact ⟨State.schedule_txn .., State.schedule_sched .., State.schedule_nextSched ..⟩

/-- Settles O46: each clause is the equation of its command's branch; the order of execution is an insertion sort's. -/
theorem commitCommands : Obligations.CommitCommands := by
  refine ⟨fun s t r h => ⟨fun hown => ?_, fun hown htxn => ?_⟩, fun s t r x h hown htxn hspoiled => ?_,
    fun s t r x h hown htxn hspoiled hflag => ⟨fun hst => ?_, fun hst => ?_⟩,
    fun s t r x time h hown htxn hspoiled hflag htime hst => ?_,
    fun s t r h => ⟨fun hown => ?_, fun hown hnone => ?_, fun c hc hown hid hdue => ⟨_, exec_schedCancel_of_serving h, ?_⟩⟩,
    fun s c hup hsched hdue => ⟨fun hst => ?_, scheduled_commit_fails_whole hup hsched hdue⟩,
    fun s => exec_scheduledCommitExecute_none, fun l => ⟨schedOrder_perm l, schedOrder_pairwise l⟩⟩
  · rw [exec_commit_of_serving h, State.runCommit_not_owner hown]
  · rw [exec_commit_of_serving h, State.runCommit_none hown htxn]
  · rw [exec_commit_of_serving h, State.runCommit_spoiled hown htxn hspoiled]
  · rw [exec_commit_of_serving h, State.runCommit_now hown htxn hspoiled hflag hst]
  · rw [exec_commit_of_serving h, State.runCommit_now_failed hown htxn hspoiled hflag hst]
  · subst htime
    exact scheduled_commit_waits h hown htxn hspoiled hflag hst
  · rw [exec_schedCancel_of_serving h, State.runSchedCancel_not_owner hown]
  · rw [exec_schedCancel_of_serving h, State.runSchedCancel_unknown hown hnone]
  · exact State.runSchedCancel_pending hc hown hid hdue
  · rw [exec_scheduledCommitExecute hup, State.runDue_one hsched hdue, State.runSched_one_ok hsched hst]

end Sys2Proof.Machine
end

section
/-! The checks of a READ or WRITE item (R36, R23, R39, R430, R458): the status of each, in their order. -/

namespace Sys2Proof.Machine

section
variable {s : State} {i sub : Nat}

/-- An item that a check refuses answers the check's status, no type and no value. -/
theorem State.readItem_refused {ext : Bool} {st : Nat} (h : s.readCheck ext i sub = (st, none)) :
    (s.readItem ext i sub).1 = beNat 1 st ++ [0, 0, 0] := by
  rw [State.readItem, h]

/-! ## A bulk window whose domain is awake (R430) -/

theorem State.readCheck_window {w : BulkRow} (hbulk : bulkRow i = some w) (hup : s.answers w.dom = true) (ext : Bool) :
    s.readCheck ext i 0 = (stDenied, none) := by
  simp [State.readCheck, hbulk, hup]

theorem State.writeCheck_window {w : BulkRow} (hbulk : bulkRow i = some w) (hup : s.answers w.dom = true) (own : Bool)
    (ty : Nat) (b : Bytes) : s.writeCheck own i 0 ty b = (stDenied, none) := by
  simp [State.writeCheck, hbulk, hup]

theorem State.recordStatus_window {w : BulkRow} (hbulk : bulkRow i = some w) (hup : s.answers w.dom = true) :
    s.recordStatus i = stDenied := by
  simp [State.recordStatus, hbulk, hup]

variable (hbulk : bulkRow i = none)
include hbulk

/-! ## An unused index or subindex (R36) -/

theorem State.readCheck_unused (hrow : objRow (objKey i sub) = none) (ext : Bool) :
    s.readCheck ext i sub = (stNoObject, none) := by
  simp only [State.readCheck, hbulk, hrow]

theorem State.writeCheck_unused (hrow : objRow (objKey i sub) = none) (own : Bool) (ty : Nat) (b : Bytes) :
    s.writeCheck own i sub ty b = (stNoObject, none) := by
  simp only [State.writeCheck, hbulk, hrow]

variable {r : ObjRow} (hrow : objRow (objKey i sub) = some r)
include hrow

/-! ## A sleeping domain (R23) -/

theorem State.readCheck_asleep (hup : s.answers (r.domain i) = false) (ext : Bool) :
    s.readCheck ext i sub = (stAsleep, none) := by
  simp [State.readCheck, hbulk, hrow, hup]

theorem State.writeCheck_asleep (hup : s.answers (r.domain i) = false) (own : Bool) (ty : Nat) (b : Bytes) :
    s.writeCheck own i sub ty b = (stAsleep, none) := by
  simp [State.writeCheck, hbulk, hrow, hup]

variable (hup : s.answers (r.domain i) = true)
include hup

/-! ## Access and ownership (R39) -/

theorem State.writeCheck_readOnly (hacc : r.acc = .const ∨ r.acc = .ro ∨ r.acc = .rx) (own : Bool) (ty : Nat) (b : Bytes) :
    s.writeCheck own i sub ty b = (stDenied, none) := by
  rcases hacc with hacc | hacc | hacc <;> simp [State.writeCheck, hbulk, hrow, hup, hacc]

/-- Ownership is asked before the type, the encoding and the range of the value. -/
theorem State.writeCheck_not_owner (hacc : r.acc = .rw ∨ r.acc = .ow ∨ r.acc = .wo) (ty : Nat) (b : Bytes) :
    s.writeCheck false i sub ty b = (stNotOwner, none) := by
  rcases hacc with hacc | hacc | hacc <;> simp [State.writeCheck, hbulk, hrow, hup, hacc]

end

/-! ## Index 0x0000 -/

theorem rows20_base_pos : ∀ r ∈ rows20, 0 < r.base := by decide

/-- The rows of the lowest stretch, chapter 20's, start above index 0. -/
theorem objRow_index_zero {sub : Nat} (h : sub < 256) : objRow (objKey 0 sub) = none := by
  have hindex : objKey 0 sub / 256 = 0 := by simp [objKey, h]
  rw [objRow, hindex]
  refine List.find?_eq_none.mpr fun r hr => ?_
  have hbase := rows20_base_pos r hr
  simp [ObjRow.covers, Nat.ne_of_gt hbase]

theorem bulkRow_index_zero : bulkRow 0 = none := by decide

/-- Settles O53: each clause is the first of the item's checks that fails. -/
theorem itemChecks : Obligations.ItemChecks := by
  refine ⟨fun s own ext i sub ty b hbulk hrow => ⟨?_, State.writeCheck_unused hbulk hrow own ty b⟩,
    fun s own ext i sub ty b r hbulk hrow hup => ⟨?_, State.writeCheck_asleep hbulk hrow hup own ty b⟩,
    fun s own ext i ty b w hbulk hup =>
      ⟨?_, State.recordStatus_window hbulk hup, State.writeCheck_window hbulk hup own ty b⟩,
    fun s own i sub ty b r hbulk hrow hup hacc => State.writeCheck_readOnly hbulk hrow hup hacc own ty b,
    fun s i sub ty b r hbulk hrow hup hacc => State.writeCheck_not_owner hbulk hrow hup hacc ty b,
    fun sub h => ⟨objRow_index_zero h, bulkRow_index_zero⟩⟩
  · exact State.readItem_refused (State.readCheck_unused hbulk hrow ext)
  · exact State.readItem_refused (State.readCheck_asleep hbulk hrow hup ext)
  · exact State.readItem_refused (State.readCheck_window hbulk hup ext)

end Sys2Proof.Machine
end

section
/-! The reference inputs (R112-R118): what an edge, a frame, a sentence, an ESMC message or its absence does to a slot. -/

namespace Sys2Proof.Machine

/-! ## REFIN_EDGE (R112) -/

theorem exec_refinEdge_off {s : State} {i : Fin 8} (hmode : s.n (Obj.refin_mode i) = 0) (stamp : Nat) :
    exec (.refinEdge i stamp) s = .next s := by
  show execRefinEdge i stamp s = _
  simp [execRefinEdge, hmode]

section
variable {s : State} {i : Fin 8} (hawake : s.awake 2 = true) (hmode : s.n (Obj.refin_mode i) ≠ 0)
include hawake hmode

theorem exec_refinEdge_between (hedges : s.refins[i].edges + 1 < refinDivider (s.nn (Obj.refin_frequency i))) (stamp : Nat) :
    exec (.refinEdge i stamp) s = .next (s.setRefin i { s.refins[i] with edges := s.refins[i].edges + 1 }) := by
  show execRefinEdge i stamp s = _
  simp only [execRefinEdge, hawake, hmode, hedges, Bool.not_true, Bool.false_or, decide_false, Bool.false_eq_true, if_true, if_false]

theorem exec_refinEdge_monitored (hedges : refinDivider (s.nn (Obj.refin_frequency i)) ≤ s.refins[i].edges + 1) (stamp : Nat) :
    exec (.refinEdge i stamp) s = .next (
      let st := stamp128 stamp
      let s1 := (s.setRefin i { edges := 0, stamp := st, time := s.convert st }).putO (Obj.refin_last_stamp i) (be 9 st)
      let s2 := ((s1.slotsOn [1, 2, 3] i).foldl (fun (u : State) (k : Fin 16) => u.slotEdge k st) s1).alignFeed (1 + i) st
      (List.finRange 16).foldl (fun (u : State) (c : Fin 16) =>
        if u.nn (Obj.cap_input c) = 1 + i then u.capPush c st (s2.n (Obj.refin_edge i) == 1) else u) s2) := by
  show execRefinEdge i stamp s = _
  simp only [execRefinEdge, hawake, hmode, Nat.not_lt.mpr hedges, Bool.not_true, Bool.false_or, decide_false, Bool.false_eq_true,
    if_false]

end

/-! ## TODIN_FRAME (R113, R114) -/

section
variable {s : State} {n : Fin 8} {i : Fin 16} {start : Nat} {b : Bytes}

theorem exec_todinFrame_of_slot (hslots : s.slotsOn [2] n = [i]) (start : Nat) (b : Bytes) :
    exec (.todinFrame n start b) s = .next (s.rafSlot n start b i) := by
  show execTodinFrame n start b s = _
  simp only [execTodinFrame, hslots, List.foldl_cons, List.foldl_nil]

theorem State.rafSlot_outside (hwindow : inLabelWindow s.slots[i].lastEdge start = false) (input : Nat) (b : Bytes) :
    s.rafSlot input start b i = s.discardTod input i 0 := by
  simp only [State.rafSlot, hwindow, Bool.not_false, if_true]

theorem State.rafSlot_badCrc (hwindow : inLabelWindow s.slots[i].lastEdge start = true) (hcrc : rafCrcOk b = false) (input : Nat) :
    s.rafSlot input start b i = s.discardTod input i 1 := by
  simp only [State.rafSlot, hwindow, hcrc, Bool.not_true, Bool.not_false, Bool.false_eq_true, if_true, if_false]

theorem State.rafSlot_accepted {e : Nat} (hedge : s.slots[i].lastEdge = some e) (hwindow : inLabelWindow (some e) start = true)
    (hcrc : rafCrcOk b = true) (hok : rafOk b = true) (input : Nat) :
    s.rafSlot input start b i =
      let u := ((s.bump (Obj.todin_accepted input)).setSlot i { s.slots[i] with qualityReceived := fieldN b 20 1,
                                                                                timeSource := fieldN b 21 1 }).acceptLabel
          i e (timeOfBytes (field b 6 14))
      if u.selT.active = some i then u.adoptRaf b else u := by
  simp only [State.rafSlot, hedge, hwindow, hcrc, hok, Bool.not_true, Bool.false_eq_true, if_false, Option.getD_some]

/-! ## NMEA_SENTENCE (R115) -/

theorem exec_nmeaSentence_of_slot (hslots : s.slotsOn [3] n = [i]) (start : Nat) (b : Bytes) :
    exec (.nmeaSentence n start b) s = .next (s.nmeaSlot n start b i) := by
  show execNmeaSentence n start b s = _
  simp only [execNmeaSentence, hslots, List.foldl_cons, List.foldl_nil]

theorem State.nmeaSlot_badChecksum (hbody : nmeaBody b = none) (input start : Nat) :
    s.nmeaSlot input start b i = s.noteDiscard i 1 := by
  simp only [State.nmeaSlot, hbody]

section
variable {body : Bytes} {t : Int} (hbody : nmeaBody b = some body)
include hbody

theorem State.nmeaSlot_fraction (htime : nmeaTime body = some (t, true)) (input start : Nat) :
    s.nmeaSlot input start b i = s.discardTod input i 3 := by
  simp only [State.nmeaSlot, hbody, htime]

variable {input : Nat} (htime : nmeaTime body = some (t, false))
include htime

theorem State.nmeaSlot_labelsNext (hmode : s.nn (Obj.nmea_label input) = 1) (start : Nat) :
    s.nmeaSlot input start b i = s.setSlot i { s.slots[i] with
      nextLabels := s.slots[i].nextLabels ++ [((t + s.n Obj.utc_offset) * unitsPerS, start)] } := by
  simp only [State.nmeaSlot, hbody, htime, hmode, if_true]

variable {e : Nat} (hmode : s.nn (Obj.nmea_label input) ≠ 1) (hedge : s.slots[i].lastEdge = some e)
include hmode hedge

theorem State.nmeaSlot_labelsLast (hwindow : inLabelWindow (some e) start = true) :
    s.nmeaSlot input start b i
      = (s.bump (Obj.todin_accepted input)).acceptLabel i e ((t + s.n Obj.utc_offset) * unitsPerS) := by
  simp only [State.nmeaSlot, hbody, htime, hmode, hedge, hwindow, Bool.not_true, Bool.false_eq_true, if_false, Option.getD_some]

theorem State.nmeaSlot_outside (hwindow : inLabelWindow (some e) start = false) :
    s.nmeaSlot input start b i = s.discardTod input i 0 := by
  simp only [State.nmeaSlot, hbody, htime, hmode, hedge, hwindow, Bool.not_false, if_true, if_false]

end

end

/-! ## ESMC_PDU_RECEIVE, ESMC_ABSENT (R116, R117) -/

section
variable {s : State} {p : Fin 64} {i : Fin 16} (hslots : s.slotsOn [4] p = [i])
include hslots

theorem exec_esmcPduReceive_used (hmode : s.nn (Obj.esmc_mode i) ≠ 2) (ssm : Nat) (essm : Option Nat) :
    exec (.esmcPduReceive p ssm essm) s = .next ((s.setSlot i { s.slots[i] with
      qualityReceived := esmcQuality (s.nn (Obj.esmc_mode i) == 1) ssm (essm.getD 0xFF), lastEsmc := some s.now,
      esmcAbsent := false }).evalSlot i) := by
  show execEsmcPduReceive p ssm essm s = _
  simp only [execEsmcPduReceive, hslots, List.foldl_cons, List.foldl_nil, hmode, if_false]

theorem exec_esmcPduReceive_ignored (hmode : s.nn (Obj.esmc_mode i) = 2) (ssm : Nat) (essm : Option Nat) :
    exec (.esmcPduReceive p ssm essm) s
      = .next (s.setSlot i { s.slots[i] with lastEsmc := some s.now, esmcAbsent := false }) := by
  show execEsmcPduReceive p ssm essm s = _
  simp only [execEsmcPduReceive, hslots, List.foldl_cons, List.foldl_nil, hmode, if_true]

end

theorem exec_esmcAbsent_due {s : State} {i : Fin 16} (hkind : s.kind i = 4) (hmode : s.nn (Obj.esmc_mode i) ≠ 2)
    (hstate : s.slots[i].state ≠ .disabled) (hdue : s.slots[i].lastEsmc.getD s.slots[i].boundAt + ticksS 5 ≤ s.now) :
    exec (.esmcAbsent i) s = .next ((s.setSlot i { s.slots[i] with qualityReceived := 255, esmcAbsent := true }).evalSlot i) :=
  if_pos ⟨hkind, hmode, hstate, hdue⟩

/-! ## MISSING_EDGE (R118, R120) -/

theorem exec_missingEdge_due {s : State} {i : Fin 16} (hstate : s.slots[i].state ≠ .disabled)
    (hkind : s.kind i = 1 ∨ s.kind i = 2 ∨ s.kind i = 3)
    (hdue : (s.slots[i].missed * 10000 + 10000 + s.nn (Obj.interval_tolerance i))
        * refinPeriodNum (s.nn (Obj.refin_frequency (s.number i)))
      ≤ (s.stamp - s.slots[i].lastEdge.getD s.slots[i].boundStamp) * s.nn (Obj.refin_frequency (s.number i)) * 10000) :
    exec (.missingEdge i) s = .next (((s.bump (Obj.missing_count i)).setSlot i { s.slots[i] with
      missed := s.slots[i].missed + 1,
      failing := if s.nn (Obj.missing_limit i) ≤ s.slots[i].missed + 1 then setBit s.slots[i].failing causeMissing true
        else s.slots[i].failing }).evalSlot i) :=
  if_neg (by simpa [hstate, hdue, -Fin.getElem_fin, imp_iff_not_or, or_assoc] using hkind)

/-- Settles O6: each clause is the equation of its command's branch. -/
theorem referenceInputs : Obligations.ReferenceInputs := by
  refine ⟨fun s i stamp hawake hmode hedges => exec_refinEdge_monitored hawake hmode hedges stamp,
    fun s i stamp hawake hmode hedges => exec_refinEdge_between hawake hmode hedges stamp,
    fun s i stamp hmode => exec_refinEdge_off hmode stamp,
    fun s n start b i hslots hwindow hcrc => ?_, fun s n start b i hslots hwindow => ?_,
    fun s n start e b i hslots hedge hwindow hcrc hok => ?_,
    fun s n start b body t i hslots hbody htime hmode => ?_,
    fun s n start e b body t i hslots hbody htime hmode hedge => ⟨fun hwindow => ?_, fun hwindow => ?_⟩,
    fun s n start b i hslots => ⟨fun hbody => ?_, fun body t hbody htime => ?_⟩,
    fun s p ssm essm i hslots => ⟨fun hmode => exec_esmcPduReceive_used hslots hmode ssm essm,
      fun hmode => exec_esmcPduReceive_ignored hslots hmode ssm essm⟩,
    fun s i => exec_esmcAbsent_due, fun s i => exec_missingEdge_due⟩
  · rw [exec_todinFrame_of_slot hslots, State.rafSlot_badCrc hwindow hcrc]
  · rw [exec_todinFrame_of_slot hslots, State.rafSlot_outside hwindow]
  · rw [exec_todinFrame_of_slot hslots, State.rafSlot_accepted hedge hwindow hcrc hok]
  · rw [exec_nmeaSentence_of_slot hslots, State.nmeaSlot_labelsNext hbody htime hmode]
  · rw [exec_nmeaSentence_of_slot hslots, State.nmeaSlot_labelsLast hbody htime hmode hedge hwindow]
  · rw [exec_nmeaSentence_of_slot hslots, State.nmeaSlot_outside hbody htime hmode hedge hwindow]
  · rw [exec_nmeaSentence_of_slot hslots, State.nmeaSlot_badChecksum hbody]
  · rw [exec_nmeaSentence_of_slot hslots, State.nmeaSlot_fraction hbody htime]

end Sys2Proof.Machine
end

section
/-! Every step keeps the canonical forms of the dictionary store and the memories. -/

namespace Sys2Proof.Machine

open Sys2Proof.Safety

/-- A state reached from a well-kept one is well kept. -/
theorem Kept.wf {s t : State} (h : Kept s t) (hw : Wf s) : Wf t := by
  obtain ⟨_, _, _, _, hforms⟩ := h
  exact hforms hw

/-- Settles O57: nothing is stored at reset, neither in the dictionary nor in the memories. -/
theorem resetIsWellKept : Obligations.ResetIsWellKept := ⟨rfl, rfl, rfl, rfl⟩

/-- Settles O58: a command and a tick each reach their next state by operations that keep the canonical forms, and neither the
queue nor elapsed time is part of these. -/
theorem stepKeepsWellKept : Obligations.StepKeepsWellKept := by
  intro s t hw hstep
  unfold step at hstep
  split at hstep
  · obtain rfl := Host.Outcome.next.inj hstep
    exact (State.tick_kept s (Kept.refl _)).wf hw
  · next c rest _ => exact ((exec_kept c _ (Kept.refl { s with pending := rest })).ofNext t hstep).wf hw

end Sys2Proof.Machine
end
section
/-! No command stops the machine: every branch of every meaning answers a next state. -/

namespace Sys2Proof.Machine

/-- An outcome is a next state: no fault, no refusal. -/
def Completes (o : Host.Outcome State Fault Refusal) : Prop := ∃ t, o = .next t

theorem Completes.next (t : State) : Completes (.next t) := ⟨t, rfl⟩

theorem Completes.ite {p : Prop} [Decidable p] {a b : Host.Outcome State Fault Refusal} (ha : Completes a) (hb : Completes b) :
    Completes (if p then a else b) := by
  split
  · exact ha
  · exact hb

/-- An instruction issues, finds nothing to issue, or raises the fault of an address that holds no instruction (R299). -/
theorem State.instr_completes (s : State) (e : Fin 8) (t : Fin 16) (op : Nat) (f : State → Thread → Word64 → State) :
    Completes (s.instr e t op f) := by
  unfold State.instr
  refine .ite (.next _) ?_
  split
  · exact .next _
  · exact .ite (.next _) (.next _)

/-- A thread that waits for random bytes draws them; any other issues the instruction (R303). -/
theorem execIsaRand_completes (e : Fin 8) (t : Fin 16) (s : State) : Completes (execIsaRand e t s) := by
  unfold execIsaRand
  extract_lets x
  split
  · exact .next _
  · exact s.instr_completes e t _ _

/-- The first group's meanings are one update of the state, the second's start by looking for what they act on, and those of
the rest, the instructions of the serve engines among them, by their guard; every branch that follows ends in a next state. -/
theorem exec_completes (c : Instr) (s : State) : Completes (exec c s) := by
  cases c
  case
    cert | finish | close | read | readRecord | write | bulkRead | bulkWrite | begin | commit | abort | schedCancel |
    scheduledCommitExecute | claim | heartbeat | leaseExpiry | handover | confirm | release | rstnAssert |
    rstnDeassert | wrstnAssert | wrstnDeassert | warmResetRelease | watchdogCold | resetRequestWarm |
    resetRequestCold | tamperLatchClear | kilnRequest | cellarRequest | cellarWakeTime | todinFrame | nmeaSentence |
    esmcPduReceive | operatorValidityExpiry | operatorTime | manualSlotArm | selectionEvaluate | disputeCompare |
    mediaLoopUpdate | steering | holdoverRemainingUpdate | modelStore | modelReset | startTimeCommit |
    surveyRestart | gristHold | portFrameReceive | quietnAssert | ntsMasterKey | ntsKeIdleTimeout | rowMac |
    product | montRow | bnAbort | ntsKeKeygen | fwActivate | debugChallenge | debugResponse | jtagBypass |
    jtagIdcode | jtagSamplePreload | jtagExtest | tileCopyReload | sampleClear =>
    exact ⟨_, rfl⟩
  case isaRand e t => exact execIsaRand_completes e t s
  case
    objectWrite | persistWriteComplete | handoverTimerExpiry | slotMissingCheckResume | blockQuiesced |
    quiesceTimeout | mashTimeout | spargeTimeout | cellarVerifyEnd | segmentStart | slopeFollowupSegment |
    journalEntryVisible | transitionComplete | outputPhaseJump | todoutFrame | captureConvert | fespiSettleEnd |
    antRetry | transmitTimeResolved | timingSolution | gristCaptureStart | gristCaptureComplete |
    gristSolveComplete | calFrameSend | frameDeparture | esmcEventPdu | aesJobComplete | clientLookupComplete |
    cacheWriteback | programActivate | announceReceiptTimeout | unicastRenew | bnSelftest | debugChallengeExpiry |
    quarantineComplete =>
    simp -zeta only [exec, execObjectWrite, execPersistWriteComplete, execHandoverTimerExpiry, execSlotMissingCheckResume,
      execBlockQuiesced, execQuiesceTimeout, execMashTimeout, execSpargeTimeout, execCellarVerifyEnd,
      execSegmentStart, execSlopeFollowupSegment, execJournalEntryVisible, execTransitionComplete,
      execOutputPhaseJump, execTodoutFrame, execCaptureConvert, execFespiSettleEnd, execAntRetry,
      execTransmitTimeResolved, execTimingSolution, execGristCaptureStart, execGristCaptureComplete,
      execGristSolveComplete, execCalFrameSend, execFrameDeparture, execEsmcEventPdu, execAesJobComplete,
      execClientLookupComplete, execCacheWriteback, execProgramActivate, execAnnounceReceiptTimeout,
      execUnicastRenew, execBnSelftest, execDebugChallengeExpiry, execQuarantineComplete]
    repeat' first
      | with_reducible exact Completes.next _
      | with_reducible apply Completes.ite
      | (extract_lets; clear_value *)
      | split
  all_goals
    apply Completes.ite
    repeat' first
      | with_reducible exact Completes.next _
      | with_reducible apply Completes.ite
      | (extract_lets; clear_value *)
      | split

/-- Settles O60: every branch of every meaning ends in a next state. -/
theorem noCommandStops : Obligations.NoCommandStops := exec_completes

end Sys2Proof.Machine
end

section
/-! A session command carries out the request that is next, once (R54, R57, R62). -/

namespace Sys2Proof.Machine

open Sys2Proof.Safety

/-! ## Serving the request that is next -/

theorem State.serveReq_down {s : State} (h : s.agentUp = false) (op : Nat) (f : State → Req → State) : s.serveReq op f = s := by
  simp [State.serveReq, h]

theorem State.serveReq_other {s t : State} {r : Req} {op : Nat} (hup : s.agentUp = true)
    (hnext : s.agentBegin.nextReq = some (t, r)) (hop : r.opcode ≠ op) (f : State → Req → State) :
    s.serveReq op f = s.agentBegin := by
  simp [State.serveReq, hup, hnext, hop]

theorem State.serveReq_none {s : State} (hup : s.agentUp = true) (hnext : s.agentBegin.nextReq = none) (op : Nat)
    (f : State → Req → State) : s.serveReq op f = s.agentBegin := by
  simp [State.serveReq, hup, hnext]

/-- The opcodes of CLAIM and CONFIRM, whose requests wait for an accepted commit (R59). -/
def waitsForCommit (op : Nat) : Prop := op = 0x30 ∨ op = 0x33

/-- A session command serves the request of its opcode; CLAIM and CONFIRM leave it at the front while a commit is open. -/
def ServesRequest (op : Nat) (c : Instr) : Prop :=
  ∃ f, ∀ s : State, exec c s = .next (s.serveReq op f) ∨ (waitsForCommit op ∧ s.commitOpen = true ∧ exec c s = .next s)

theorem ServesRequest.of_serveReq {op : Nat} {c : Instr} {f : State → Req → State}
    (h : ∀ s, exec c s = .next (s.serveReq op f)) : ServesRequest op c :=
  ⟨f, fun s => .inl (h s)⟩

theorem ServesRequest.of_waiting {op : Nat} {c : Instr} {f : State → Req → State} (hop : waitsForCommit op)
    (h : ∀ s, exec c s = .next (if s.commitOpen then s else s.serveReq op f)) : ServesRequest op c := by
  refine ⟨f, fun s => ?_⟩
  cases hopen : s.commitOpen with
  | false => exact .inl (by simpa [hopen] using h s)
  | true => exact .inr ⟨hop, rfl, by simpa [hopen] using h s⟩

theorem requestOps_serve : ∀ p ∈ requestOps, ServesRequest p.1 p.2 := by
  simp only [requestOps, List.forall_mem_cons]
  exact ⟨.of_serveReq fun _ => rfl, .of_serveReq fun _ => rfl, .of_serveReq fun _ => rfl, .of_serveReq fun _ => rfl,
    .of_serveReq fun _ => rfl, .of_serveReq fun _ => rfl, .of_serveReq fun _ => rfl, .of_serveReq fun _ => rfl,
    .of_serveReq fun _ => rfl, .of_serveReq fun _ => rfl, .of_waiting (.inl rfl) fun _ => rfl, .of_serveReq fun _ => rfl,
    .of_serveReq fun _ => rfl, .of_waiting (.inr rfl) fun _ => rfl, .of_serveReq fun _ => rfl, List.forall_mem_nil _⟩

section
variable {op : Nat} {c : Instr} (h : ServesRequest op c)
include h

theorem ServesRequest.down {s : State} (hup : s.agentUp = false) : exec c s = .next s := by
  obtain ⟨f, hf⟩ := h
  obtain hs | ⟨_, _, hs⟩ := hf s
  · rw [hs, State.serveReq_down hup]
  · exact hs

theorem ServesRequest.exec_eq : ∃ f, ∀ s : State, (waitsForCommit op → s.commitOpen = false) →
    exec c s = .next (s.serveReq op f) := by
  obtain ⟨f, hf⟩ := h
  refine ⟨f, fun s hopen => ?_⟩
  obtain hs | ⟨hop, htrue, _⟩ := hf s
  · exact hs
  · rw [hopen hop] at htrue
    cases htrue

theorem ServesRequest.other {s t : State} {r : Req} (hup : s.agentUp = true) (hopen : waitsForCommit op → s.commitOpen = false)
    (hnext : s.agentBegin.nextReq = some (t, r)) (hop : r.opcode ≠ op) : exec c s = .next s.agentBegin := by
  obtain ⟨f, hf⟩ := h.exec_eq
  rw [hf s hopen, State.serveReq_other hup hnext hop]

theorem ServesRequest.none {s : State} (hup : s.agentUp = true) (hopen : waitsForCommit op → s.commitOpen = false)
    (hnext : s.agentBegin.nextReq = .none) : exec c s = .next s.agentBegin := by
  obtain ⟨f, hf⟩ := h.exec_eq
  rw [hf s hopen, State.serveReq_none hup hnext]

end

/-! ## Sequences (R57) -/

section
variable {hi : Nat} {seen : List Nat} {cache : List Cached} {seq : Nat}

/-- The newest entry of the cache is the accepted sequence's, so the same sequence is then answered from it. -/
theorem seqFate_accepted : seqFate (seqHi hi seq) (seqSeen hi seen seq) (seqCache cache seq) seq = .again := by
  simp [seqFate, seqCache]

theorem seqFate_of_not_cached (h : ∀ c ∈ cache, c.seq ≠ seq) :
    seqFate hi seen cache seq
      = if hi < seq || (seq < hi && hi ≤ seq + 64 && !seen.contains seq) then .fresh else .stale := by
  have hcache : (cache.any fun c => c.seq == seq) = false := by simpa using h
  rw [seqFate, hcache]
  rfl

theorem seqFate_above (hseq : hi < seq) (h : ∀ c ∈ cache, c.seq ≤ hi) : seqFate hi seen cache seq = .fresh := by
  rw [seqFate_of_not_cached fun c hc => by have := h c hc; omega]
  simp [hseq]

theorem seqFate_below (hseq : seq + 64 < hi) (h : ∀ c ∈ cache, c.seq ≠ seq) : seqFate hi seen cache seq = .stale := by
  have habove : ¬hi < seq := by omega
  have hwindow : ¬hi ≤ seq + 64 := by omega
  rw [seqFate_of_not_cached h]
  simp [habove, hwindow]

theorem seqCache_length_le : (seqCache cache seq).length ≤ 8 := List.length_take_le ..

end

/-- Settles O43: a command serves the request of its opcode or leaves it, and the accepted sequence enters the cache. -/
theorem requestsInOrder : Obligations.RequestsInOrder :=
  ⟨fun p hp => ⟨fun _ => (requestOps_serve p hp).down, fun _ _ _ => (requestOps_serve p hp).other,
      fun _ => (requestOps_serve p hp).none⟩,
    fun _ _ _ _ _ => seqFate_accepted, fun _ _ _ _ => seqFate_above, fun _ _ _ _ => seqFate_below,
    fun _ _ => seqCache_length_le⟩

end Sys2Proof.Machine
end

section
/-! Reads return the items and the generation of one state; bulk windows are read by BULK_READ alone (R42, R430, R432, R458). -/

namespace Sys2Proof.Machine

open Sys2Proof.Safety

section
variable {s t : State} {r : Req}

theorem exec_read_of_serving (h : Serving s 0x10 t r) : exec .read s = .next (t.runRead r) :=
  congrArg Host.Outcome.next (State.serveReq_of_serving h _)

theorem exec_readRecord_of_serving (h : Serving s 0x11 t r) : exec .readRecord s = .next (t.runReadRecord r) :=
  congrArg Host.Outcome.next (State.serveReq_of_serving h _)

theorem exec_bulkRead_of_serving (h : Serving s 0x13 t r) : exec .bulkRead s = .next (t.runBulkRead r) :=
  congrArg Host.Outcome.next (State.serveReq_of_serving h _)

end

section
variable {s : State} {r : Req}

/-! ## READ and READ_RECORD -/

theorem State.runRead_items {u : State} {items : Bytes}
    (h : s.readItems (s.extendedRead r.k) (readItemsOf r.payload) = (items, u)) :
    s.runRead r = u.reply r stOk (s.genBytes ++ items) := by
  rw [State.runRead, h]

theorem State.runReadRecord_refused (h : s.recordStatus (fieldN r.payload 0 2) ≠ stOk) :
    s.runReadRecord r = s.reply r (s.recordStatus (fieldN r.payload 0 2)) [] :=
  if_pos h

theorem State.runReadRecord_items {u : State} {items : Bytes} {k : Nat} (hst : s.recordStatus (fieldN r.payload 0 2) = stOk)
    (hlast : s.objView (objKey (fieldN r.payload 0 2) 0) = .num k)
    (h : s.readItems (s.extendedRead r.k) ((List.range (k + 1)).map fun sub => (fieldN r.payload 0 2, sub)) = (items, u)) :
    s.runReadRecord r = u.reply r stOk (s.genBytes ++ items) := by
  simp only [State.runReadRecord, hst, hlast, Int.toNat_natCast, h, ne_eq, not_true_eq_false, if_false]

/-! ## BULK_READ -/

theorem State.runBulkRead_unused (h : bulkRow (fieldN r.payload 0 2) = none) : s.runBulkRead r = s.reply r stNoObject [] := by
  simp only [State.runBulkRead, h]

section
variable {w : BulkRow} (hrow : bulkRow (fieldN r.payload 0 2) = some w)
include hrow

theorem State.runBulkRead_refused {st : Nat} (hne : st ≠ stOk)
    (hst : s.bulkReadStatus r.k w (fieldN r.payload 2 8) (fieldN r.payload 10 2) = st) :
    s.runBulkRead r = s.reply r st [] := by
  simp only [State.runBulkRead, hrow, hst, hne, if_false]

theorem State.runBulkRead_bytes (hst : s.bulkReadStatus r.k w (fieldN r.payload 2 8) (fieldN r.payload 10 2) = stOk) :
    s.runBulkRead r
      = s.reply r stOk (s.genBytes ++ field (s.window w) (fieldN r.payload 2 8) (fieldN r.payload 10 2)) := by
  simp only [State.runBulkRead, hrow, hst, if_true]

end

section
variable {k : Fin 32} {w : BulkRow} {off count : Nat}

theorem State.bulkReadStatus_count (h : count = 0 ∨ 1024 < count) : s.bulkReadStatus k w off count = stRange := by
  simp [State.bulkReadStatus, firstFail, h]

variable (hpos : 0 < count) (hmax : count ≤ 1024)
include hpos hmax

/-- With a count in range the window's end is checked next. -/
theorem State.bulkReadStatus_outside (h : w.size < off + count) : s.bulkReadStatus k w off count = stBulkRange := by
  simp [State.bulkReadStatus, firstFail, h, hpos.ne', hmax]

variable (hsize : off + count ≤ w.size)
include hsize

theorem State.bulkReadStatus_denied (hacc : w.acc = .rx) (hext : s.extendedRead k = false) :
    s.bulkReadStatus k w off count = stDenied := by
  simp [State.bulkReadStatus, firstFail, hpos.ne', hmax.not_gt, hsize.not_gt, hacc, hext]

theorem State.bulkReadStatus_ok (hacc : w.acc ≠ .rx ∨ s.extendedRead k = true) (hup : s.answers w.dom = true) :
    s.bulkReadStatus k w off count = stOk := by
  have hright : (w.acc == .rx && !s.extendedRead k) = false := by
    obtain hacc | hext := hacc
    · rw [beq_false_of_ne hacc, Bool.false_and]
    · rw [hext, Bool.not_true, Bool.and_false]
  simp [State.bulkReadStatus, firstFail, hpos.ne', hmax.not_gt, hsize.not_gt, hright, hup]

end

end

/-- Settles O44: each clause is the equation of its command's branch, BULK_READ's by the first of its checks that fails. -/
theorem readCommands : Obligations.ReadCommands := by
  refine ⟨fun s t u r items h hitems => ?_, fun s t r w h hrow hup => ?_, fun s t u r items k h hst hlast hitems => ?_,
    fun s t r h hrow => ?_, ?_⟩
  · rw [exec_read_of_serving h, State.runRead_items hitems]
  · have hst := State.recordStatus_window hrow hup
    rw [exec_readRecord_of_serving h, State.runReadRecord_refused (by rw [hst]; decide), hst]
  · rw [exec_readRecord_of_serving h, State.runReadRecord_items hst hlast hitems]
  · rw [exec_bulkRead_of_serving h, State.runBulkRead_unused hrow]
  · rintro s t r w off count h hrow rfl rfl
    rw [exec_bulkRead_of_serving h]
    refine ⟨fun hcount => ?_, fun hpos hmax hend => ?_, fun hpos hmax hsize hacc hext => ?_,
      fun hpos hmax hsize hacc hup => ?_⟩
    · rw [State.runBulkRead_refused hrow (by decide) (State.bulkReadStatus_count hcount)]
    · rw [State.runBulkRead_refused hrow (by decide) (State.bulkReadStatus_outside hpos hmax hend)]
    · rw [State.runBulkRead_refused hrow (by decide) (State.bulkReadStatus_denied hpos hmax hsize hacc hext)]
    · rw [State.runBulkRead_bytes hrow (State.bulkReadStatus_ok hpos hmax hsize hacc hup)]

end Sys2Proof.Machine
end

section
/-! The owner: what a change of owner writes, and what a response leaves of it (R58). -/

namespace Sys2Proof.Machine

open Sys2Proof.Safety

/-! ## Numbers read beside other writes -/

theorem State.nn_putN_ne (s : State) {a b : Nat} (h : a ≠ b) (x : Int) : (s.putN b x).nn a = s.nn a := by
  simp only [State.nn, s.n_putN_ne x h]

theorem State.nn_bump_ne (s : State) {a b : Nat} (h : a ≠ b) (d : Nat) : (s.bump b d).nn a = s.nn a := s.nn_putN_ne h _

theorem State.nn_of_obj {s t : State} (h : s.obj = t.obj) (k : Nat) : s.nn k = t.nn k := by
  simp only [State.nn, State.n, State.get_of_obj h]

/-! ## The owner as the objects show it -/

theorem State.owner_eq_some {s : State} {k : Fin 32} :
    s.owner = some k ↔ s.nn Obj.owner_session = k ∧ 2 ≤ s.nn Obj.owner_state := by
  simp only [State.owner]
  split_ifs with hlt hheld
  · simp [Fin.ext_iff, hheld]
  · simp [hheld]
  · simp only [false_iff, not_and]
    omega

theorem State.owner_eq_none {s : State} : s.owner = none ↔ 32 ≤ s.nn Obj.owner_session ∨ s.nn Obj.owner_state < 2 := by
  simp only [State.owner]
  split_ifs with hlt hheld
  · simp only [false_iff, not_or]
    omega
  · simp [Nat.lt_of_not_le hheld]
  · simp [Nat.le_of_not_lt hlt]

theorem State.owner_of_obj {s t : State} (h : s.obj = t.obj) : s.owner = t.owner := by
  simp only [State.owner, State.nn_of_obj h]

theorem State.owner_of_nn {s t : State} (hsession : s.nn Obj.owner_session = t.nn Obj.owner_session)
    (hstate : s.nn Obj.owner_state = t.nn Obj.owner_state) : s.owner = t.owner := by
  simp only [State.owner, hsession, hstate]

/-! ## Taking and freeing ownership -/

/-- The source of the entry is a session's or the device's own, never the security source. -/
theorem State.logOwner_obj (s : State) (cause : Nat) : (s.logOwner cause).obj = s.obj := by
  refine State.log_obj _ _ _ _ ?_
  split_ifs
  · omega
  · decide

@[simp] theorem State.logOwner_ool (s : State) (cause : Nat) : (s.logOwner cause).ool = s.ool := State.log_ool ..

theorem State.storeWf_abortTxn {s : State} (h : storeWf s.obj = true) : storeWf s.abortTxn.obj = true :=
  State.storeWf_putN (State.storeWf_putN (s := { s with ool := { s.ool with txn := none } }) h _ _) _ _

theorem State.nn_abortTxn_ne (s : State) {k : Nat} (hstate : k ≠ Obj.txn_state) (hcount : k ≠ Obj.txn_staged_count) :
    s.abortTxn.nn k = s.nn k := by
  simp only [State.nn, State.n, s.get_abortTxn_ne hstate hcount]

theorem counterModulus_owner_epoch : counterModulus Obj.owner_epoch = 2 ^ 32 := by decide +kernel

/-- The objects of a change of owner, on a state whose transaction has ended. -/
def State.showOwner (s : State) (session prio node state : Int) : State :=
  ((((s.putN Obj.owner_session session).putN Obj.owner_priority prio).putN Obj.owner_node_id node).putN Obj.owner_state state).bump
    Obj.owner_epoch

section
variable (s : State) (session prio node state : Int)

theorem State.nn_showOwner_ne {k : Nat} (hsession : k ≠ Obj.owner_session) (hprio : k ≠ Obj.owner_priority)
    (hnode : k ≠ Obj.owner_node_id) (hstate : k ≠ Obj.owner_state) (hepoch : k ≠ Obj.owner_epoch) :
    (s.showOwner session prio node state).nn k = s.nn k := by
  rw [State.showOwner, State.nn_bump_ne _ hepoch, State.nn_putN_ne _ hstate, State.nn_putN_ne _ hnode,
    State.nn_putN_ne _ hprio, State.nn_putN_ne _ hsession]

variable {s} (h : storeWf s.obj = true)
include h

theorem State.showOwner_session : (s.showOwner session prio node state).nn Obj.owner_session = session.toNat := by
  rw [State.showOwner, State.nn_bump_ne _ (by decide), State.nn_putN_ne _ (by decide), State.nn_putN_ne _ (by decide),
    State.nn_putN_ne _ (by decide), State.nn_putN_same h]

theorem State.showOwner_priority : (s.showOwner session prio node state).nn Obj.owner_priority = prio.toNat := by
  rw [State.showOwner, State.nn_bump_ne _ (by decide), State.nn_putN_ne _ (by decide), State.nn_putN_ne _ (by decide),
    State.nn_putN_same (State.storeWf_putN h _ _)]

theorem State.showOwner_node : (s.showOwner session prio node state).nn Obj.owner_node_id = node.toNat := by
  rw [State.showOwner, State.nn_bump_ne _ (by decide), State.nn_putN_ne _ (by decide),
    State.nn_putN_same (State.storeWf_putN (State.storeWf_putN h _ _) _ _)]

theorem State.showOwner_state : (s.showOwner session prio node state).nn Obj.owner_state = state.toNat := by
  rw [State.showOwner, State.nn_bump_ne _ (by decide),
    State.nn_putN_same (State.storeWf_putN (State.storeWf_putN (State.storeWf_putN h _ _) _ _) _ _)]

theorem State.showOwner_epoch :
    (s.showOwner session prio node state).nn Obj.owner_epoch = (s.nn Obj.owner_epoch + 1) % 2 ^ 32 := by
  rw [State.showOwner, State.nn_bump_same (State.storeWf_putN (State.storeWf_putN (State.storeWf_putN (State.storeWf_putN h _ _)
      _ _) _ _) _ _), counterModulus_owner_epoch, State.nn_putN_ne _ (by decide), State.nn_putN_ne _ (by decide),
    State.nn_putN_ne _ (by decide), State.nn_putN_ne _ (by decide)]

end

section
variable {s : State} (h : storeWf s.obj = true)
include h

theorem State.takeOwnership_ownedBy (k : Fin 32) (prio node cause : Nat) :
    OwnedBy s (s.takeOwnership k prio node cause) k prio node := by
  let v : State := { s.abortTxn with ool := { s.abortTxn.ool with successor := none, claims := [], leaseEnd := s.now + ticksS 3 } }
  have hv : storeWf v.obj = true := State.storeWf_abortTxn h
  have hobj (i : Nat) : (s.takeOwnership k prio node cause).nn i = (v.showOwner k prio node 2).nn i :=
    State.nn_of_obj (State.logOwner_obj _ cause) i
  have hool : (s.takeOwnership k prio node cause).ool = v.ool := State.logOwner_ool _ cause
  have hstate : (v.showOwner k prio node 2).nn Obj.owner_state = 2 := State.showOwner_state k prio node 2 hv
  have hsession : (v.showOwner k prio node 2).nn Obj.owner_session = k := State.showOwner_session k prio node 2 hv
  have hepoch : v.nn Obj.owner_epoch = s.nn Obj.owner_epoch := s.nn_abortTxn_ne (by decide) (by decide)
  have htxn : v.nn Obj.txn_state = 0 := State.abortTxn_state h
  refine ⟨State.owner_eq_some.mpr ⟨?_, ?_⟩, ?_, ?_, ?_, ?_, ?_, ?_, ?_, ?_, ?_⟩
  · rw [hobj, hsession]
  · rw [hobj, hstate]
  · rw [hobj, hstate]
  · rw [hobj]
    exact State.showOwner_priority k prio node 2 hv
  · rw [hobj]
    exact State.showOwner_node k prio node 2 hv
  · rw [hobj, State.showOwner_epoch k prio node 2 hv, hepoch]
  · rw [hool]
    rfl
  · rw [hobj, State.nn_showOwner_ne _ _ _ _ _ (by decide) (by decide) (by decide) (by decide) (by decide), htxn]
  all_goals rw [hool]

theorem State.freeOwnership_unowned (cause : Nat) : Unowned s (s.freeOwnership cause) := by
  let v : State := { s.abortTxn with ool := { s.abortTxn.ool with successor := none } }
  have hv : storeWf v.obj = true := State.storeWf_abortTxn h
  have hobj (i : Nat) : (s.freeOwnership cause).nn i = (v.showOwner 255 0 0 0).nn i :=
    State.nn_of_obj (State.logOwner_obj _ cause) i
  have hool : (s.freeOwnership cause).ool = v.ool := State.logOwner_ool _ cause
  have hstate : (v.showOwner 255 0 0 0).nn Obj.owner_state = 0 := State.showOwner_state 255 0 0 0 hv
  have hepoch : v.nn Obj.owner_epoch = s.nn Obj.owner_epoch := s.nn_abortTxn_ne (by decide) (by decide)
  have htxn : v.nn Obj.txn_state = 0 := State.abortTxn_state h
  refine ⟨State.owner_eq_none.mpr (.inr ?_), ?_, ?_, ?_, ?_, ?_, ?_, ?_⟩
  · rw [hobj, hstate]
    decide
  · rw [hobj, hstate]
  · rw [hobj]
    exact State.showOwner_session 255 0 0 0 hv
  · rw [hobj]
    exact State.showOwner_priority 255 0 0 0 hv
  · rw [hobj, State.showOwner_epoch 255 0 0 0 hv, hepoch]
  · rw [hool]
    rfl
  · rw [hobj, State.nn_showOwner_ne _ _ _ _ _ (by decide) (by decide) (by decide) (by decide) (by decide), htxn]
  · rw [hool]

end

/-! ## Responses leave the owner alone -/

section
variable {s t : State} (h : Answered s t)
include h

theorem Answered.nn (k : Nat) : t.nn k = s.nn k := State.nn_of_obj h.obj k

theorem Answered.owner : t.owner = s.owner := State.owner_of_obj h.obj

theorem Answered.successor : t.ool.successor = s.ool.successor := by obtain ⟨_, _, _, _, _, _, rfl⟩ := h; rfl

theorem Answered.claims : t.ool.claims = s.ool.claims := by obtain ⟨_, _, _, _, _, _, rfl⟩ := h; rfl

theorem Answered.leaseEnd : t.ool.leaseEnd = s.ool.leaseEnd := by obtain ⟨_, _, _, _, _, _, rfl⟩ := h; rfl

theorem Answered.windowEnd : t.ool.windowEnd = s.ool.windowEnd := by obtain ⟨_, _, _, _, _, _, rfl⟩ := h; rfl

end

theorem Answered.ownedBy {s t u : State} {k : Fin 32} {prio node : Nat} (h : Answered t u) (ho : OwnedBy s t k prio node) :
    OwnedBy s u k prio node := by
  simpa only [OwnedBy, h.owner, h.nn, h.txn, h.successor, h.claims, h.leaseEnd] using ho

/-- What a change of owner starts from matters in its objects and its time alone. -/
theorem ownedBy_of_obj {s s' u : State} {k : Fin 32} {prio node : Nat} (hobj : s'.obj = s.obj) (hnow : s'.now = s.now)
    (ho : OwnedBy s' u k prio node) : OwnedBy s u k prio node := by
  simpa only [OwnedBy, State.nn_of_obj hobj, hnow] using ho

theorem Answered.unowned {s t u : State} (h : Answered t u) (ho : Unowned s t) : Unowned s u := by
  simpa only [Unowned, h.owner, h.nn, h.txn, h.successor] using ho

end Sys2Proof.Machine
end

section
/-! The election (R58-R60): claims, the window's end, the lease. -/

namespace Sys2Proof.Machine

open Sys2Proof.Safety

section
variable {s t : State} {r : Req}

theorem exec_claim_of_serving (hopen : s.commitOpen = false) (h : Serving s 0x30 t r) : exec .claim s = .next (t.runClaim r) := by
  show Host.Outcome.next (if s.commitOpen then s else s.serveReq 0x30 State.runClaim) = _
  rw [hopen, State.serveReq_of_serving h]
  rfl

theorem exec_claim_waits (hopen : s.commitOpen = true) : exec .claim s = .next s := congrArg Host.Outcome.next (if_pos hopen)

theorem exec_heartbeat_of_serving (h : Serving s 0x31 t r) :
    exec .heartbeat s = .next (if t.owner ≠ some r.k then t.reply r stNotOwner [] else t.renewLease.reply r stOk (beNat 2 3000)) :=
  congrArg Host.Outcome.next (State.serveReq_of_serving h _)

end

/-! ## CLAIM -/

section
variable {s : State} {r : Req}

theorem State.runClaim_not_eligible (h : s.eligible r.k = false) : s.runClaim r = s.reply r stDenied [] := by
  simp [State.runClaim, h]

section
variable (hel : s.eligible r.k = true)
include hel

/-- The first claim of a FREE device opens the window. -/
theorem State.runClaim_free (howner : s.owner = none) (hla : s.localAuth r.k = false) (hstate : s.nn Obj.owner_state ≠ 1) :
    s.runClaim r = (({ s with ool := { s.ool with windowEnd := s.now + ticksMs 200, claims := [] } } : State).putN
      Obj.owner_state 1).recordClaim r (fieldN r.payload 0 1) (fieldN r.payload 8 8) := by
  simp only [State.runClaim, hel, howner, hla, hstate, Bool.not_true, Bool.false_eq_true, if_false]

theorem State.runClaim_electing (howner : s.owner = none) (hla : s.localAuth r.k = false) (hstate : s.nn Obj.owner_state = 1) :
    s.runClaim r = s.recordClaim r (fieldN r.payload 0 1) (fieldN r.payload 8 8) := by
  simp only [State.runClaim, hel, howner, hla, hstate, Bool.not_true, Bool.false_eq_true, if_false, if_true]

theorem State.runClaim_local (howner : s.owner = none) (hla : s.localAuth r.k = true) :
    s.runClaim r = ((s.takeOwnership r.k (fieldN r.payload 0 1) (fieldN r.payload 8 8) 6).tellClaims s.ool.claims r.k
      (fieldN r.payload 8 8)).reply r stOk (claimResult 0 (fieldN r.payload 8 8)) := by
  simp only [State.runClaim, hel, howner, hla, Bool.not_true, Bool.false_eq_true, if_false, if_true]

theorem State.runClaim_own (howner : s.owner = some r.k) :
    s.runClaim r = s.ownClaim r (fieldN r.payload 0 1) (fieldN r.payload 8 8) := by
  simp only [State.runClaim, hel, howner, Bool.not_true, Bool.false_eq_true, if_false, if_true]

section
variable {o : Fin 32} (howner : s.owner = some o) (hne : o ≠ r.k)
include howner hne

theorem State.runClaim_owner_local (hla : s.localAuth o = true) : s.runClaim r = s.reply r stOwnerHeld [] := by
  simp only [State.runClaim, hel, howner, hne, hla, Bool.not_true, Bool.false_eq_true, if_false, if_true]

/-- Local authority or a strictly higher priority takes ownership; the cause journalled says which. -/
theorem State.runClaim_takes (hown : s.localAuth o = false)
    (h : s.localAuth r.k = true ∨ s.nn Obj.owner_priority < fieldN r.payload 0 1) :
    s.runClaim r = (s.takeOwnership r.k (fieldN r.payload 0 1) (fieldN r.payload 8 8)
      (if s.localAuth r.k then 6 else 1)).reply r stOk (claimResult 0 (fieldN r.payload 8 8)) := by
  cases hla : s.localAuth r.k with
  | true => simp only [State.runClaim, hel, howner, hne, hown, hla, Bool.not_true, Bool.false_eq_true, if_false, if_true]
  | false =>
    have hprio : s.nn Obj.owner_priority < fieldN r.payload 0 1 := by simpa [hla] using h
    simp only [State.runClaim, hel, howner, hne, hown, hla, hprio, Bool.not_true, Bool.false_eq_true, if_false, if_true]

theorem State.runClaim_held (hla : s.localAuth r.k = false) (hprio : fieldN r.payload 0 1 ≤ s.nn Obj.owner_priority) :
    s.runClaim r = s.reply r stOwnerHeld [] := by
  simp only [State.runClaim, hel, howner, hne, hla, hprio.not_gt, Bool.not_true, Bool.false_eq_true, if_false, ite_self]

end

end

end

/-- Telling the claimants answers requests, and nothing else. -/
theorem State.tellClaims_answered (s : State) (l : List Claimant) (winner : Fin 32) (node : Nat) :
    Answered s (s.tellClaims l winner node) := by
  unfold State.tellClaims
  induction l generalizing s with
  | nil => exact Answered.refl s
  | cons c l ih =>
    exact (s.reply_answered { k := c.session, path := c.path, hdr := c.hdr, opcode := 0x30, seq := c.seq, payload := [] } stOk _
      false).trans (ih _)

/-- The claim a request makes. -/
def Req.claimant (r : Req) : Claimant :=
  { session := r.k, prio := fieldN r.payload 0 1, node := fieldN r.payload 8 8, seq := r.seq, path := r.path, hdr := r.hdr }

theorem State.recordClaim_answered (s : State) (r : Req) :
    Answered { s with ool := { s.ool with claims := s.ool.claims ++ [r.claimant] } }
      (s.recordClaim r (fieldN r.payload 0 1) (fieldN r.payload 8 8)) :=
  State.reply_answered ..

theorem State.recordClaim_nn (s : State) (r : Req) (k : Nat) :
    (s.recordClaim r (fieldN r.payload 0 1) (fieldN r.payload 8 8)).nn k = s.nn k :=
  State.nn_of_obj (s.recordClaim_answered r).obj k

theorem State.ownClaim_answered (s : State) (r : Req) (prio node : Nat) :
    Answered ((s.putN Obj.owner_priority prio).putN Obj.owner_node_id node).renewLease (s.ownClaim r prio node) :=
  State.reply_answered ..

theorem State.ownClaim_nn (s : State) (r : Req) (prio node k : Nat) :
    (s.ownClaim r prio node).nn k = ((s.putN Obj.owner_priority prio).putN Obj.owner_node_id node).nn k :=
  State.nn_of_obj (s.ownClaim_answered r prio node).obj k

section
variable {s t : State} {r : Req} (hopen : s.commitOpen = false) (h : Serving s 0x30 t r) (hel : t.eligible r.k = true)
include hopen h hel

theorem claim_joins_window (hw : Wf s) (hstate : t.nn Obj.owner_state < 2) (hla : t.localAuth r.k = false) :
    Yields .claim s fun u => u.nn Obj.owner_state = 1
      ∧ (t.nn Obj.owner_state = 0 → u.ool.windowEnd = t.now + ticksMs 200 ∧ u.ool.claims = [r.claimant])
      ∧ (t.nn Obj.owner_state = 1 → u.ool.windowEnd = t.ool.windowEnd ∧ u.ool.claims = t.ool.claims ++ [r.claimant]) := by
  have howner : t.owner = none := State.owner_eq_none.mpr (.inr hstate)
  refine ⟨_, exec_claim_of_serving hopen h, ?_⟩
  by_cases hone : t.nn Obj.owner_state = 1
  · have hu := t.recordClaim_answered r
    rw [State.runClaim_electing hel howner hla hone]
    refine ⟨(State.recordClaim_nn ..).trans hone, fun hzero => ?_, fun _ => ⟨hu.windowEnd, hu.claims⟩⟩
    rw [hone] at hzero
    cases hzero
  · have hu := (({ t with ool := { t.ool with windowEnd := t.now + ticksMs 200, claims := [] } } : State).putN
      Obj.owner_state 1).recordClaim_answered r
    rw [State.runClaim_free hel howner hla hone]
    refine ⟨(State.recordClaim_nn ..).trans (State.nn_putN_same ?_ _ _), fun _ => ⟨hu.windowEnd, hu.claims⟩,
      fun h1 => absurd h1 hone⟩
    exact h.storeWf hw

theorem claim_by_local_authority (hw : Wf s) (howner : t.owner = none) (hla : t.localAuth r.k = true) :
    Yields .claim s fun u => OwnedBy t u r.k (fieldN r.payload 0 1) (fieldN r.payload 8 8) := by
  refine ⟨_, exec_claim_of_serving hopen h, ?_⟩
  rw [State.runClaim_local hel howner hla]
  exact ((State.tellClaims_answered ..).trans (State.reply_answered ..)).ownedBy
    (State.takeOwnership_ownedBy (h.storeWf hw) ..)

theorem claim_of_owner (hw : Wf s) (howner : t.owner = some r.k) :
    Yields .claim s fun u => u.owner = some r.k ∧ u.nn Obj.owner_priority = fieldN r.payload 0 1
      ∧ u.nn Obj.owner_node_id = fieldN r.payload 8 8 ∧ u.ool.leaseEnd = t.now + ticksS 3
      ∧ u.nn Obj.owner_epoch = t.nn Obj.owner_epoch ∧ u.ool.txn = t.ool.txn := by
  have hstore := h.storeWf hw
  have hu := t.ownClaim_answered r (fieldN r.payload 0 1) (fieldN r.payload 8 8)
  have hother {k : Nat} (hprio : k ≠ Obj.owner_priority) (hnode : k ≠ Obj.owner_node_id) :
      (t.ownClaim r (fieldN r.payload 0 1) (fieldN r.payload 8 8)).nn k = t.nn k :=
    (State.ownClaim_nn ..).trans ((State.nn_putN_ne _ hnode _).trans (State.nn_putN_ne _ hprio _))
  refine ⟨_, exec_claim_of_serving hopen h, ?_⟩
  rw [State.runClaim_own hel howner]
  refine ⟨(State.owner_of_nn (hother (by decide) (by decide)) (hother (by decide) (by decide))).trans howner, ?_, ?_, hu.leaseEnd,
    hother (by decide) (by decide), hu.txn⟩
  · exact (State.ownClaim_nn ..).trans ((State.nn_putN_ne _ (by decide) _).trans (State.nn_putN_same hstore _ _))
  · exact (State.ownClaim_nn ..).trans (State.nn_putN_same (State.storeWf_putN hstore _ _) _ _)

end

/-! ## ELECTION_WINDOW_END -/

/-- `b` is no better than `a`: of lower priority, or of equal priority and no higher node. -/
def Claimant.NoBetter (b a : Claimant) : Prop := b.prio < a.prio ∨ (b.prio = a.prio ∧ b.node ≤ a.node)

theorem Claimant.NoBetter.refl (a : Claimant) : a.NoBetter a := .inr ⟨rfl, Nat.le_refl _⟩

theorem Claimant.NoBetter.trans {a b c : Claimant} (hab : a.NoBetter b) (hbc : b.NoBetter c) : a.NoBetter c := by
  unfold Claimant.NoBetter at *
  omega

theorem betterClaim_cases (a b : Claimant) :
    (betterClaim a b = b ∧ a.NoBetter b) ∨ (betterClaim a b = a ∧ b.NoBetter a) := by
  simp only [betterClaim, Bool.or_eq_true, Bool.and_eq_true, decide_eq_true_eq, Claimant.NoBetter]
  split_ifs with hbetter
  · exact .inl ⟨rfl, by omega⟩
  · exact .inr ⟨rfl, by omega⟩

/-- The fold keeps the best claim met: it is the first or one of the list, and none of them is better. -/
theorem foldl_betterClaim (l : List Claimant) (a : Claimant) :
    l.foldl betterClaim a ∈ a :: l ∧ ∀ d ∈ a :: l, d.NoBetter (l.foldl betterClaim a) := by
  induction l generalizing a with
  | nil => simp [Claimant.NoBetter.refl]
  | cons b l ih =>
    obtain ⟨hmem, hbest⟩ := ih (betterClaim a b)
    have hkept := hbest _ List.mem_cons_self
    obtain ⟨heq, hno⟩ | ⟨heq, hno⟩ := betterClaim_cases a b <;> rw [heq] at hmem hkept hbest <;>
      simp only [List.foldl_cons, heq, List.mem_cons] at hmem hbest ⊢
    · exact ⟨.inr hmem, by rintro d (rfl | rfl | hd); exacts [hno.trans hkept, hkept, hbest d (.inr hd)]⟩
    · exact ⟨hmem.imp_right .inr, by rintro d (rfl | rfl | hd); exacts [hkept, hno.trans hkept, hbest d (.inr hd)]⟩

theorem bestClaim_best {l : List Claimant} {c : Claimant} (h : bestClaim l = some c) : c ∈ l ∧ ∀ d ∈ l, d.NoBetter c := by
  cases l with
  | nil => cases h
  | cons a l =>
    obtain rfl := Option.some.inj h
    exact foldl_betterClaim l a

section
variable {s : State}

theorem exec_electionWindowEnd_open (h : s.windowOver = false) : exec .electionWindowEnd s = .next s := by
  show execElectionWindowEnd s = _
  simp [execElectionWindowEnd, h]

section
variable (h : s.windowOver = true)
include h

theorem exec_electionWindowEnd_won {c : Claimant} (hbest : bestClaim s.ool.claims = some c) :
    exec .electionWindowEnd s = .next ((({ s with ool := { s.ool with mgmtOut := [] } } : State).takeOwnership c.session c.prio
      c.node 0).tellClaims s.ool.claims c.session c.node) := by
  show execElectionWindowEnd s = _
  simp only [execElectionWindowEnd, h, hbest, Bool.not_true, Bool.false_eq_true, if_false]

theorem exec_electionWindowEnd_empty (hnone : s.ool.claims = []) :
    exec .electionWindowEnd s = .next (({ s with ool := { s.ool with mgmtOut := [] } } : State).putN Obj.owner_state 0) := by
  show execElectionWindowEnd s = _
  simp only [execElectionWindowEnd, h, hnone, bestClaim, Bool.not_true, Bool.false_eq_true, if_false]

end

/-- A change of owner from a state that shows the same objects at the same time. -/
theorem takeOwnership_told {v : State} (hobj : v.obj = s.obj) (hnow : v.now = s.now) (hstore : storeWf s.obj = true)
    (k : Fin 32) (prio node cause : Nat) (l : List Claimant) :
    OwnedBy s ((v.takeOwnership k prio node cause).tellClaims l k node) k prio node :=
  (State.tellClaims_answered ..).ownedBy
    (ownedBy_of_obj hobj hnow (State.takeOwnership_ownedBy (by rw [hobj, hstore]) ..))

theorem electionWindowEnd_winner {c : Claimant} (hw : Wf s) (hover : s.windowOver = true) (hbest : bestClaim s.ool.claims = some c) :
    Yields .electionWindowEnd s fun t => OwnedBy s t c.session c.prio c.node := by
  obtain ⟨hstore, _⟩ := hw
  exact ⟨_, exec_electionWindowEnd_won hover hbest,
    takeOwnership_told (v := { s with ool := { s.ool with mgmtOut := [] } }) rfl rfl hstore ..⟩

/-! ## The lease -/

theorem exec_leaseExpiry_over (hup : s.firmwareUp = true) (howner : s.owner ≠ none) (hend : s.ool.leaseEnd ≤ s.now) :
    exec .leaseExpiry s = .next (s.freeOwnership 4) := by
  show Host.Outcome.next _ = _
  rw [if_pos (by simp [hup, hend, Option.isSome_iff_ne_none.mpr howner])]

theorem exec_leaseExpiry_early (hend : s.now < s.ool.leaseEnd) : exec .leaseExpiry s = .next s := by
  show Host.Outcome.next _ = _
  rw [if_neg (by simp [hend.not_ge])]

end

/-- Settles O49: each clause is the equation of its command's branch; a change of owner is `takeOwnership` or
`freeOwnership`, after which the answers leave the owner alone. -/
theorem electionCommands : Obligations.ElectionCommands := by
  refine ⟨fun s => exec_claim_waits,
    fun s t r hopen h => ⟨fun hel => ?_, fun hw hel => claim_joins_window hopen h hel hw,
      fun hw hel => claim_by_local_authority hopen h hel hw, fun hw hel => claim_of_owner hopen h hel hw,
      fun o hel howner hne => ⟨fun hw hown hmore => ⟨_, exec_claim_of_serving hopen h, ?_⟩, fun hla hprio => ?_, fun hla => ?_⟩⟩,
    fun s c => electionWindowEnd_winner, fun l c => bestClaim_best,
    fun s hw hover hnone => ⟨_, exec_electionWindowEnd_empty hover hnone, ?_⟩, fun s => exec_electionWindowEnd_open,
    fun s t r h => ⟨fun howner => ⟨_, exec_heartbeat_of_serving h, ?_⟩, fun howner => ?_⟩,
    fun s hw hup howner hend => ⟨_, exec_leaseExpiry_over hup howner hend, State.freeOwnership_unowned hw.1 4⟩,
    fun s => exec_leaseExpiry_early⟩
  · rw [exec_claim_of_serving hopen h, State.runClaim_not_eligible hel]
  · rw [State.runClaim_takes hel howner hne hown hmore]
    exact (State.reply_answered ..).ownedBy (State.takeOwnership_ownedBy (h.storeWf hw) ..)
  · rw [exec_claim_of_serving hopen h, State.runClaim_held hel howner hne hla hprio]
  · rw [exec_claim_of_serving hopen h, State.runClaim_owner_local hel howner hne hla]
  · obtain ⟨hstore, _⟩ := hw
    exact State.nn_putN_same (s := { s with ool := { s.ool with mgmtOut := [] } }) hstore ..
  · rw [if_neg (not_not.mpr howner)]
    have hu := State.reply_answered t.renewLease r stOk (beNat 2 3000) false
    exact ⟨hu.leaseEnd, hu.owner.trans howner, hu.obj⟩
  · rw [exec_heartbeat_of_serving h, if_pos howner]

end Sys2Proof.Machine
end

section
/-! Handovers and release (R58, R59). -/

namespace Sys2Proof.Machine

open Sys2Proof.Safety

section
variable {s t : State} {r : Req}

theorem exec_handover_of_serving (h : Serving s 0x32 t r) : exec .handover s = .next (t.runHandover r) :=
  congrArg Host.Outcome.next (State.serveReq_of_serving h _)

theorem exec_confirm_of_serving (hopen : s.commitOpen = false) (h : Serving s 0x33 t r) :
    exec .confirm s = .next (t.runConfirm r) := by
  show Host.Outcome.next (if s.commitOpen then s else s.serveReq 0x33 State.runConfirm) = _
  rw [hopen, State.serveReq_of_serving h]
  rfl

theorem exec_confirm_waits (hopen : s.commitOpen = true) : exec .confirm s = .next s := congrArg Host.Outcome.next (if_pos hopen)

theorem exec_release_of_serving (h : Serving s 0x34 t r) :
    exec .release s = .next (if t.owner ≠ some r.k then t.reply r stNotOwner [] else (t.freeOwnership 3).reply r stOk []) :=
  congrArg Host.Outcome.next (State.serveReq_of_serving h _)

end

/-! ## HANDOVER -/

section
variable {s : State} {r : Req}

theorem State.runHandover_not_owner (h : s.owner ≠ some r.k) : s.runHandover r = s.reply r stNotOwner [] := if_pos h

section
variable (howner : s.owner = some r.k)
include howner

theorem State.runHandover_pending (hstate : s.nn Obj.owner_state = 3) : s.runHandover r = s.reply r stHandover [] := by
  simp only [State.runHandover, howner, hstate, ne_eq, not_true_eq_false, if_false, if_true]

section
variable (hstate : s.nn Obj.owner_state = 2)
include hstate

theorem State.runHandover_txn (htxn : s.ool.txn.isSome = true) : s.runHandover r = s.reply r stTxnOpen [] := by
  simp [State.runHandover, howner, hstate, htxn]

variable (htxn : s.ool.txn = none)
include htxn

theorem State.runHandover_unknown (hsession : s.sessionOf (fieldN r.payload 0 4) = none) :
    s.runHandover r = s.reply r stNoObject [] := by
  simp [State.runHandover, howner, hstate, htxn, hsession]

section
variable {k : Fin 32} {x : Session} (hsession : s.sessionOf (fieldN r.payload 0 4) = some (k, x))
include hsession

theorem State.runHandover_denied (hright : x.owner = false) : s.runHandover r = s.reply r stDenied [] := by
  simp [State.runHandover, howner, hstate, htxn, hsession, hright]

variable (hright : x.owner = true)
include hright

theorem State.runHandover_self (hk : k = r.k) : s.runHandover r = s.reply r stConsistency [] := by
  simp [State.runHandover, howner, hstate, htxn, hsession, hright, hk]

/-- The named session becomes the successor; its confirmation timer is 1 s. -/
theorem State.runHandover_named (hk : k ≠ r.k) :
    s.runHandover r = (({ s with ool := { s.ool with successor := some (k, s.now + ticksS 1, x.id) } } : State).putN
      Obj.owner_state 3).reply r stOk [] := by
  simp [State.runHandover, howner, hstate, htxn, hsession, hright, hk]

end

end

end

end

/-- A handover's beginning and end leave the owner the owner. -/
theorem State.owner_putN_state {s : State} (hstore : storeWf s.obj = true) (hstate : 2 ≤ s.nn Obj.owner_state) {x : Nat}
    (hx : 2 ≤ x) : (s.putN Obj.owner_state x).owner = s.owner := by
  simp only [State.owner, State.nn_putN_ne s (a := Obj.owner_session) (b := Obj.owner_state) (by decide),
    State.nn_putN_same hstore, Int.toNat_natCast, hstate, hx, if_true]

theorem handover_names_successor {s t : State} {r : Req} {k : Fin 32} {x : Session} (h : Serving s 0x32 t r) (hw : Wf s)
    (howner : t.owner = some r.k) (hstate : t.nn Obj.owner_state = 2) (htxn : t.ool.txn = none)
    (hsession : t.sessionOf (fieldN r.payload 0 4) = some (k, x)) (hright : x.owner = true) (hk : k ≠ r.k) :
    Yields .handover s fun u => u.nn Obj.owner_state = 3 ∧ u.ool.successor = some (k, t.now + ticksS 1, x.id)
      ∧ u.owner = some r.k := by
  have hstore : storeWf ({ t with ool := { t.ool with successor := some (k, t.now + ticksS 1, x.id) } } : State).obj = true :=
    h.storeWf hw
  refine ⟨_, exec_handover_of_serving h, ?_⟩
  rw [State.runHandover_named howner hstate htxn hsession hright hk]
  have hu := State.reply_answered (({ t with ool := { t.ool with successor := some (k, t.now + ticksS 1, x.id) } } : State).putN
    Obj.owner_state 3) r stOk [] false
  exact ⟨(hu.nn _).trans (State.nn_putN_same hstore _ _), hu.successor,
    (hu.owner.trans (State.owner_putN_state hstore hstate.ge (Nat.le_succ 2))).trans howner⟩

/-! ## CONFIRM -/

section
variable {s : State} {r : Req}

theorem State.runConfirm_denied (h : s.isSuccessor r.k = false) : s.runConfirm r = s.reply r stDenied [] := by
  simp [State.runConfirm, h]

theorem State.runConfirm_successor (hel : s.eligible r.k = true) (h : s.isSuccessor r.k = true) :
    s.runConfirm r = (s.takeOwnership r.k (fieldN r.payload 0 1) (fieldN r.payload 8 8) 2).reply r stOk [] := by
  simp [State.runConfirm, hel, h]

end

/-! ## HANDOVER_TIMER_EXPIRY -/

section
variable {s : State} {k : Fin 32} {at' id : Nat} (hsucc : s.ool.successor = some (k, at', id))
include hsucc

theorem exec_handoverTimerExpiry_over (hup : s.firmwareUp = true) (hstate : s.nn Obj.owner_state = 3) (hend : at' ≤ s.now) :
    exec .handoverTimerExpiry s
      = .next (({ s with ool := { s.ool with successor := none } } : State).putN Obj.owner_state 2) := by
  show execHandoverTimerExpiry s = _
  simp [execHandoverTimerExpiry, hsucc, hup, hstate, hend]

theorem exec_handoverTimerExpiry_early (hend : s.now < at') : exec .handoverTimerExpiry s = .next s := by
  show execHandoverTimerExpiry s = _
  simp [execHandoverTimerExpiry, hsucc, hend.not_ge]

/-- The former owner stays the owner, with its transaction. -/
theorem handover_lapses (hw : Wf s) (hup : s.firmwareUp = true) (hstate : s.nn Obj.owner_state = 3) (hend : at' ≤ s.now) :
    Yields .handoverTimerExpiry s fun t =>
      t.nn Obj.owner_state = 2 ∧ t.ool.successor = none ∧ t.owner = s.owner ∧ t.ool.txn = s.ool.txn := by
  have hstore : storeWf ({ s with ool := { s.ool with successor := none } } : State).obj = true := by
    obtain ⟨hstore, _⟩ := hw
    exact hstore
  exact ⟨_, exec_handoverTimerExpiry_over hsucc hup hstate hend, State.nn_putN_same hstore _ _, rfl,
    State.owner_putN_state hstore ((Nat.le_succ 2).trans hstate.ge) (Nat.le_refl 2), rfl⟩

end

/-- Settles O50: each clause is the equation of its command's branch; a change of owner is `takeOwnership` or
`freeOwnership`, after which the answers leave the owner alone. -/
theorem handoverCommands : Obligations.HandoverCommands := by
  refine ⟨fun s t r h => ⟨fun howner => ?_, fun howner hstate => ?_, fun howner hstate htxn => ?_,
      fun howner hstate htxn hsession => ?_, fun k x howner hstate htxn hsession => ⟨fun hright => ?_, fun hright hk => ?_,
        fun hright hk hw => handover_names_successor h hw howner hstate htxn hsession hright hk⟩⟩,
    fun s t r hopen h => ⟨fun hw hel hsucc => ⟨_, exec_confirm_of_serving hopen h, ?_⟩, fun hsucc => ?_⟩,
    fun s => exec_confirm_waits, fun s k at' id hw hup hsucc => handover_lapses hsucc hw hup,
    fun s k at' id => exec_handoverTimerExpiry_early,
    fun s t r h => ⟨fun hw howner => ⟨_, exec_release_of_serving h, ?_⟩, fun howner => ?_⟩⟩
  · rw [exec_handover_of_serving h, State.runHandover_not_owner howner]
  · rw [exec_handover_of_serving h, State.runHandover_pending howner hstate]
  · rw [exec_handover_of_serving h, State.runHandover_txn howner hstate htxn]
  · rw [exec_handover_of_serving h, State.runHandover_unknown howner hstate htxn hsession]
  · rw [exec_handover_of_serving h, State.runHandover_denied howner hstate htxn hsession hright]
  · rw [exec_handover_of_serving h, State.runHandover_self howner hstate htxn hsession hright hk]
  · rw [State.runConfirm_successor hel hsucc]
    exact (State.reply_answered ..).ownedBy (State.takeOwnership_ownedBy (h.storeWf hw) ..)
  · rw [exec_confirm_of_serving hopen h, State.runConfirm_denied hsucc]
  · rw [if_neg (not_not.mpr howner)]
    exact (State.reply_answered ..).unowned (State.freeOwnership_unowned (h.storeWf hw) 3)
  · rw [exec_release_of_serving h, if_pos howner]

end Sys2Proof.Machine
end

section
/-! A conditional commit takes effect at the expected generation alone (R46). -/

namespace Sys2Proof.Machine

open Sys2Proof.Safety

section
variable {s t : State} (h : Answered s t)
include h

theorem Answered.n (k : Nat) : t.n k = s.n k := by simp only [State.n, h.get]

theorem Answered.outs : t.outs = s.outs := by obtain ⟨_, _, _, _, _, _, rfl⟩ := h; rfl

theorem Answered.slots : t.slots = s.slots := by obtain ⟨_, _, _, _, _, _, rfl⟩ := h; rfl

theorem Answered.flash : t.flash = s.flash := by obtain ⟨_, _, _, _, _, _, rfl⟩ := h; rfl

end

/-! ## Immediate -/

section
variable {s : State} {l : List StagedItem} {w : List StagedBulk} {flags expected : Nat}

/-- A mismatch is the last check: where an earlier one fails, the commit fails too. -/
theorem State.commitNow_mismatch (hflag : bit flags 2 = true) (h : s.n Obj.generation ≠ (expected : Int)) :
    s.commitNow l w flags expected ≠ stOk := by
  simp only [State.commitNow, hflag, bne_iff_ne.mpr h, Bool.and_self, if_true]
  split_ifs with hgate hrules
  · exact hgate
  · exact hrules
  · decide

variable (hgate : s.commitGate l w flags = stOk) (hrules : s.rules l w flags = stOk)
include hgate hrules

theorem State.commitNow_generation (hflag : bit flags 2 = true) (h : s.n Obj.generation ≠ (expected : Int)) :
    s.commitNow l w flags expected = stGeneration := by
  simp [State.commitNow, hgate, hrules, hflag, h]

theorem State.commitNow_expected (h : s.n Obj.generation = (expected : Int)) : s.commitNow l w flags expected = stOk := by
  simp [State.commitNow, hgate, hrules, h]

end

/-! ## Scheduled -/

section
variable {s : State} {c : Sched} (hflag : bit c.flags 2 = true) (h : s.n Obj.generation ≠ (c.expected : Int))
include hflag h

theorem State.schedStatus_mismatch : s.schedStatus c ≠ stOk := by
  simp only [State.schedStatus, hflag, bne_iff_ne.mpr h, Bool.and_self, if_true]
  split_ifs with hasleep hrules
  · decide
  · exact hrules
  · decide

theorem State.schedStatus_generation (hawake : s.sleeping c.items c.bulk = false) (hrules : s.rules c.items c.bulk c.flags = stOk) :
    s.schedStatus c = stGeneration := by
  simp [State.schedStatus, hawake, hrules, hflag, h]

end

@[simp] theorem State.dropLostStep_flash (s : State) : s.dropLostStep.flash = s.flash := by
  rw [State.dropLostStep_frame]

/-- A scheduled commit that fails leaves the generation, the outputs, the slots and the flash. -/
theorem State.runSched_one_failed_frame {s : State} {c : Sched} (hsched : s.sched = [c])
    (hst : ({ s with sched := [] } : State).schedStatus c ≠ stOk) :
    (s.runSched c).n Obj.generation = s.n Obj.generation ∧ (s.runSched c).outs = s.outs ∧ (s.runSched c).slots = s.slots
      ∧ (s.runSched c).flash = s.flash := by
  rw [State.runSched_one_failed hsched hst]
  generalize beNat 4 c.id ++ _ ++ _ = data
  refine ⟨?_, by simp, by simp, by simp⟩
  have hobj : (({ s with sched := [] } : State).log 0 0x1104 data).obj = s.obj := State.log_obj _ _ _ _ (by decide)
  rw [State.dropLostStep_n, State.n, State.get_bump_ne _ (by decide), State.get_of_obj hobj]
  rfl

/-- Settles O52: the generation is the last of a commit's checks, so a mismatch fails every conditional commit, and a commit
that fails is answered or journalled and changes no value. -/
theorem conditionalCommit : Obligations.ConditionalCommit := by
  refine ⟨fun s t r x h hown htxn hspoiled hnow hflag => ⟨fun hne => ⟨⟨_, exec_commit_of_serving h, ?_⟩, fun hgate hrules => ?_⟩,
      fun heq hgate hrules => ?_⟩,
    fun s c hup hsched hdue hflag hne => ⟨⟨_, exec_scheduledCommitExecute hup, ?_⟩,
      fun hawake hrules => State.schedStatus_generation hflag hne hawake hrules⟩⟩
  · rw [State.runCommit_now_failed hown htxn hspoiled hnow (State.commitNow_mismatch hflag hne)]
    have hu := State.reply_answered t.abortTxn.runDue r
      (t.abortTxn.runDue.commitNow x.items x.bulk (fieldN r.payload 4 1) (fieldN r.payload 8 8)) [] false
    exact ⟨hu.n _, hu.outs, hu.slots, hu.flash⟩
  · have hst := State.commitNow_generation hgate hrules hflag hne
    rw [exec_commit_of_serving h, State.runCommit_now_failed hown htxn hspoiled hnow (by rw [hst]; decide), hst]
  · rw [exec_commit_of_serving h,
      State.runCommit_now hown htxn hspoiled hnow (State.commitNow_expected hgate hrules heq)]
  · rw [State.runDue_one hsched hdue]
    exact State.runSched_one_failed_frame hsched (State.schedStatus_mismatch hflag hne)

end Sys2Proof.Machine
end

section
/-! Sessions: what a frame sent, a setup begun and a session closed leave alone (R55-R58, R459). -/

namespace Sys2Proof.Machine

open Sys2Proof.Safety

/-! ## Frames that are sent -/

@[simp] theorem State.describe_ool (s : State) (ring : Nat) (f : EFrame) : (s.describe ring f).2.ool = s.ool := by
  unfold State.describe
  dsimp only [State.buffer]
  split <;> rfl

@[simp] theorem State.post_ool (s : State) (n : Fin 64) (f : EFrame) : (s.post n f).ool = s.ool := by
  show (s.describe _ f).2.ool = s.ool
  rw [State.describe_ool]

@[simp] theorem State.sendOol_sessions (s : State) (path : Path) (hdr frame : Bytes) :
    (s.sendOol path hdr frame).ool.sessions = s.ool.sessions := by
  cases path with
  | spi => rfl
  | mgmt => rfl
  | inband n =>
    simp only [State.sendOol]
    split
    · rfl
    · rw [State.post_ool]

@[simp] theorem State.sendFrames_sessions (s : State) (path : Path) (hdr : Bytes) (l : List Bytes) :
    (s.sendFrames path hdr l).ool.sessions = s.ool.sessions := by
  unfold State.sendFrames
  induction l generalizing s with
  | nil => rfl
  | cons f l ih => exact (ih _).trans (s.sendOol_sessions path hdr f)

theorem Answered.setups {s t : State} (h : Answered s t) : t.ool.setups = s.ool.setups := by
  obtain ⟨_, _, _, _, _, _, rfl⟩ := h
  rfl

@[simp] theorem State.sendOol_setups (s : State) (path : Path) (hdr frame : Bytes) :
    (s.sendOol path hdr frame).ool.setups = s.ool.setups := (s.sendOol_answered path hdr frame).setups

@[simp] theorem State.sendFrames_setups (s : State) (path : Path) (hdr : Bytes) (l : List Bytes) :
    (s.sendFrames path hdr l).ool.setups = s.ool.setups := (s.sendFrames_answered path hdr l).setups

/-- A response goes into the cache of its session, which stays what it was. -/
theorem State.answer_session {s : State} {k : Fin 32} {x : Session} (h : s.ool.sessions[k] = some x) (path : Path) (hdr : Bytes)
    (opcode seq status : Nat) (payload : Bytes) (more : Bool) :
    ∃ cache, (s.answer k path hdr opcode seq status payload more).ool.sessions
      = s.ool.sessions.set k (some { x with cache }) := by
  refine ⟨cacheAdd x.cache seq (oolResponse (some x.key) opcode x.id seq status payload more), ?_⟩
  simp only [State.answer, h, State.sendFrames_sessions]
  rfl

/-! ## Setups -/

@[simp] theorem State.setupFailed_ool (s : State) (method cause : Nat) : (s.setupFailed method cause).ool = s.ool := by
  simp [State.setupFailed, State.logSec]

/-- `t` is `s` after draws from the random-number source. -/
def Drew (s t : State) : Prop := ∃ draws, t = { s with draws }

theorem Drew.refl (s : State) : Drew s s := ⟨_, rfl⟩

theorem Drew.random {s t : State} (h : Drew s t) (len : Nat) : Drew s (t.random len).2 := by
  obtain ⟨_, rfl⟩ := h
  exact ⟨_, rfl⟩

theorem Drew.newId {s t : State} (h : Drew s t) (fuel : Nat) : Drew s (State.newId fuel t).2 := by
  induction fuel generalizing t with
  | zero => exact h
  | succ fuel ih =>
    simp only [State.newId]
    split
    · exact ih (h.random 4)
    · exact h.random 4

theorem Drew.pskSecret {s t : State} (h : Drew s t) (id : Nat) (path : Path) : Drew s (t.pskSecret id path).2 := by
  unfold State.pskSecret
  extract_lets inband
  split
  · exact h
  · split
    · exact h
    · exact h.random 32

/-- From `s` a setup starts and frames are sent, after draws. -/
def StartsSetup (s t : State) : Prop :=
  ∃ (u : State) (x : Setup) (path : Path) (hdr : Bytes) (l : List Bytes), Drew s u ∧ t = (u.addSetup x).sendFrames path hdr l

theorem State.helloPsk_starts (s : State) (i : RxItem) : StartsSetup s (s.helloPsk i) :=
  ⟨_, _, i.path, i.hdr, [_], (((Drew.refl s).pskSecret _ i.path).newId 64).random 16, rfl⟩

theorem State.helloCert_starts {s : State} {i : RxItem} (hkey : s.keySlot 0 ≠ none) (hbn : s.bn.failed = false)
    (hstore : s.sec.storageOff = false) (hmode : s.mode.cur ≠ .kiln)
    (hpoint : pointOk 0 (s.random 32).1 (field (frPayload i.frame) 28 32) = true) : StartsSetup s (s.helloCert i false) := by
  obtain ⟨identity, hidentity⟩ := Option.ne_none_iff_exists'.mp hkey
  simp only [State.helloCert, hidentity, hbn, hstore, beq_false_of_ne hmode, hpoint, Bool.or_self, Bool.not_true,
    Bool.false_eq_true, if_false]
  exact ⟨_, _, i.path, i.hdr, _, ((((Drew.refl s).random 32).newId 64).random 16).random 48, rfl⟩

section
variable {s t : State} (h : StartsSetup s t)
include h

theorem StartsSetup.setups_length : t.ool.setups.length = s.ool.setups.length + 1 := by
  obtain ⟨u, x, path, hdr, l, ⟨_, rfl⟩, rfl⟩ := h
  simp [State.addSetup]

theorem StartsSetup.sessions : t.ool.sessions = s.ool.sessions := by
  obtain ⟨u, x, path, hdr, l, ⟨_, rfl⟩, rfl⟩ := h
  simp [State.addSetup]

theorem StartsSetup.obj : t.obj = s.obj := by
  obtain ⟨u, x, path, hdr, l, ⟨_, rfl⟩, rfl⟩ := h
  exact (State.sendFrames_answered ..).obj

end

/-- A device whose big-number engine failed its tests refuses a certificate, whatever key it holds. -/
theorem State.helloCert_refused {s : State} (h : s.bn.failed = true) (i : RxItem) (bad : Bool) :
    s.helloCert i bad = (s.setupFailed 2 0).refuseHello i stAuthFailed := by
  unfold State.helloCert
  extract_lets p seq
  split
  · rfl
  · rw [if_pos (by simp [h])]

@[simp] theorem State.refuseHello_setups (s : State) (i : RxItem) (status : Nat) :
    (s.refuseHello i status).ool.setups = s.ool.setups := State.sendOol_setups ..

@[simp] theorem State.refuseHello_sessions (s : State) (i : RxItem) (status : Nat) :
    (s.refuseHello i status).ool.sessions = s.ool.sessions := State.sendOol_sessions ..

/-! ## HELLO -/

section
variable {s t : State} {i : RxItem}

theorem exec_hello_taken (hup : s.agentUp = true) (hnext : s.agentBegin.nextRx = some (i, t)) (hfate : t.fate i = .hello)
    (bad : Bool) : exec (.hello bad) s = .next (t.runHello i bad) := by
  show execHello bad s = _
  simp [execHello, hup, hnext, hfate]

/-- Every session number is taken, or as many setups are in progress. -/
def State.sessionsFull (s : State) : Prop :=
  32 ≤ (s.ool.sessions.toList.filter fun x => x.isSome).length ∨ 32 ≤ s.ool.setups.length

theorem State.runHello_reserved (h1 : fieldN (frPayload i.frame) 0 1 ≠ 1) (h2 : fieldN (frPayload i.frame) 0 1 ≠ 2) (bad : Bool) :
    s.runHello i bad = s.bump Obj.ool_malformed := by
  simp [State.runHello, h1, h2]

theorem State.runHello_full (h : fieldN (frPayload i.frame) 0 1 = 1 ∨ fieldN (frPayload i.frame) 0 1 = 2) (hfull : s.sessionsFull)
    (bad : Bool) : s.runHello i bad = s.refuseHello i stSessionLimit := by
  have hmethod : ¬(fieldN (frPayload i.frame) 0 1 ≠ 1 ∧ fieldN (frPayload i.frame) 0 1 ≠ 2) := by omega
  unfold State.sessionsFull at hfull
  simp only [State.runHello, Bool.and_eq_true, Bool.or_eq_true, decide_eq_true_eq, hmethod, hfull, if_false, if_true]

variable (hfull : ¬s.sessionsFull)
include hfull

theorem State.runHello_psk (h : fieldN (frPayload i.frame) 0 1 = 1) (bad : Bool) : s.runHello i bad = s.helloPsk i := by
  unfold State.sessionsFull at hfull
  simp [State.runHello, h, hfull]

theorem State.runHello_cert (h : fieldN (frPayload i.frame) 0 1 = 2) (bad : Bool) : s.runHello i bad = s.helloCert i bad := by
  unfold State.sessionsFull at hfull
  simp [State.runHello, h, hfull]

end

end Sys2Proof.Machine
end

section
/-! Sessions are set up by CERT and FINISH and closed by CLOSE and the timeouts (R55-R58, R459). -/

namespace Sys2Proof.Machine

open Sys2Proof.Safety

/-! ## A setup's frame -/

section
variable {s t : State} {i : RxItem} {x : Setup}

theorem State.serveSetup_taken {op : Nat} (hup : s.agentUp = true) (hnext : s.agentBegin.nextRx = some (i, t))
    (hfate : t.fate i = .setup x) (hop : frOpcode i.frame = op) (f : State → RxItem → Setup → State) :
    s.serveSetup op f = f t i x := by
  simp [State.serveSetup, hup, hnext, hfate, hop]

theorem exec_cert_taken (hup : s.agentUp = true) (hnext : s.agentBegin.nextRx = some (i, t)) (hfate : t.fate i = .setup x)
    (hop : frOpcode i.frame = 0x02) : exec .cert s = .next (t.runCert i x) :=
  congrArg Host.Outcome.next (State.serveSetup_taken hup hnext hfate hop _)

theorem exec_finish_taken (hup : s.agentUp = true) (hnext : s.agentBegin.nextRx = some (i, t)) (hfate : t.fate i = .setup x)
    (hop : frOpcode i.frame = 0x03) : exec .finish s = .next (t.runFinish i x) :=
  congrArg Host.Outcome.next (State.serveSetup_taken hup hnext hfate hop _)

theorem State.setupFate_setup {y : Setup} (h : s.setupFate i y = .setup x) : y = x := by
  cases hseq : seqFate y.hi y.seen y.cache (frSeq i.frame) <;> simp only [State.setupFate, hseq] at h <;> split_ifs at h <;>
    exact Fate.setup.inj h

theorem State.sessionFate_ne_setup (s : State) (i : RxItem) (k : Fin 32) (y : Session) (x : Setup) :
    s.sessionFate i k y ≠ .setup x := by
  intro h
  cases hseq : seqFate y.hi y.seen y.cache (frSeq i.frame) <;> simp only [State.sessionFate, hseq] at h <;> split_ifs at h

/-- A frame that is a setup's names a setup in progress. -/
theorem State.fate_setup_mem (h : s.fate i = .setup x) : x ∈ s.ool.setups := by
  simp only [State.fate] at h
  split_ifs at h
  split at h
  · next y hy =>
    obtain rfl := State.setupFate_setup h
    exact List.mem_of_find?_eq_some hy
  · split at h
    · exact (State.sessionFate_ne_setup _ _ _ _ _ h).elim
    · cases h

/-- A CERT, or a FINISH of a setup that an entry backs, is discarded and counted where its tag fails. -/
theorem State.setupFate_badTag (hop : frOpcode i.frame = 0x02 ∨ (frOpcode i.frame = 0x03 ∧ x.unknown = false))
    (htag : frTagOk (some x.key) i.frame = false) : s.setupFate i x = .settled (s.bump Obj.ool_auth_fail) := by
  obtain hop | ⟨hop, hknown⟩ := hop
  · simp [State.setupFate, hop, htag]
  · simp [State.setupFate, hop, hknown, htag]

end

/-! ## CERT -/

theorem field_eq_of_append (a p b : Bytes) : field (a ++ p ++ b) a.length p.length = p := by
  rw [List.append_assoc, field_append_zero, field_prefix]

/-- Bytes laid within or at the end of a string are read at their place. -/
theorem field_patch (b : Bytes) {off : Nat} (p : Bytes) (h : off ≤ b.length) : field (patch b off p) off p.length = p := by
  have hlen : (b.take off).length = off := List.length_take_of_le h
  have := field_eq_of_append (b.take off) p (b.drop (off + p.length))
  rwa [hlen] at this

/-- The chunk stands at its offset in the setup's chain, which zeros fill up to there. -/
theorem State.runCert_setup {s : State} {i : RxItem} {x : Setup} (hx : x ∈ s.ool.setups) :
    ∃ y ∈ (s.runCert i x).ool.setups, y.id = x.id ∧ y.key = x.key
      ∧ field y.chain (fieldN (frPayload i.frame) 0 4) ((frPayload i.frame).length - 4) = (frPayload i.frame).drop 4 := by
  simp only [State.runCert, State.answerSetup, State.sendFrames_setups, State.setSetup, List.mem_map]
  refine ⟨_, ⟨x, hx, if_pos rfl⟩, rfl, rfl, ?_⟩
  rw [show (frPayload i.frame).length - 4 = ((frPayload i.frame).drop 4).length by simp]
  refine field_patch _ _ ?_
  simp only [List.length_append, List.length_replicate]
  omega

@[simp] theorem State.runCert_sessions (s : State) (i : RxItem) (x : Setup) : (s.runCert i x).ool.sessions = s.ool.sessions := by
  simp [State.runCert, State.answerSetup, State.setSetup]

/-! ## FINISH -/

@[simp] theorem State.setSession_sessions (s : State) (k : Fin 32) (x : Option Session) :
    (s.setSession k x).ool.sessions = s.ool.sessions.set k x := rfl

@[simp] theorem State.countSessions_ool (s : State) : s.countSessions.ool = s.ool := rfl

@[simp] theorem State.dropSetup_sessions (s : State) (id : Nat) : (s.dropSetup id).ool.sessions = s.ool.sessions := rfl

theorem State.dropSetup_gone (s : State) (id : Nat) : ∀ y ∈ (s.dropSetup id).ool.setups, y.id ≠ id := by
  intro y hy
  simpa using (List.mem_filter.mp hy).2

/-- The state that answers a FINISH without opening a session. -/
def State.refuseFinish (s : State) (i : RxItem) (x : Setup) (status : Nat) : State :=
  (s.dropSetup x.id).sendFrames i.path i.hdr (oolResponse (some x.key) 0x03 x.id (frSeq i.frame) status [])

section
variable {s : State} {i : RxItem} {x : Setup}

theorem State.refuseFinish_gone (status : Nat) : ∀ y ∈ (s.refuseFinish i x status).ool.setups, y.id ≠ x.id := by
  rw [State.refuseFinish, State.sendFrames_setups]
  exact s.dropSetup_gone x.id

theorem State.refuseFinish_sessions (status : Nat) : (s.refuseFinish i x status).ool.sessions = s.ool.sessions := by
  rw [State.refuseFinish, State.sendFrames_sessions, State.dropSetup_sessions]

theorem State.runFinish_failed {c : Nat} (h : s.proofRights x (frPayload i.frame) = .error c) :
    s.runFinish i x = (s.setupFailed x.method c).refuseFinish i x stAuthFailed := by
  simp only [State.runFinish, h]
  rfl

theorem State.runFinish_full {rights : Nat} (h : s.proofRights x (frPayload i.frame) = .ok rights)
    (hfull : (List.finRange 32).find? (fun k => s.ool.sessions[k].isNone) = none) :
    s.runFinish i x = s.refuseFinish i x stSessionLimit := by
  simp only [State.runFinish, h, hfull]
  rfl

theorem State.runFinish_opens {rights : Nat} {k : Fin 32} (h : s.proofRights x (frPayload i.frame) = .ok rights)
    (hfree : (List.finRange 32).find? (fun k => s.ool.sessions[k].isNone) = some k) :
    s.runFinish i x = s.openSession k i x rights := by
  simp only [State.runFinish, h, hfree]

/-- A FINISH ends its setup and opens no session where its proof fails or no number is free. -/
theorem State.runFinish_refused (h : (∃ c, s.proofRights x (frPayload i.frame) = .error c)
      ∨ (List.finRange 32).find? (fun k => s.ool.sessions[k].isNone) = none) :
    (∀ y ∈ (s.runFinish i x).ool.setups, y.id ≠ x.id) ∧ (s.runFinish i x).ool.sessions = s.ool.sessions := by
  cases hproof : s.proofRights x (frPayload i.frame) with
  | error c =>
    rw [State.runFinish_failed hproof, State.refuseFinish_sessions, State.setupFailed_ool]
    exact ⟨State.refuseFinish_gone _, rfl⟩
  | ok rights =>
    have hfull := h.resolve_left (by simp [hproof])
    rw [State.runFinish_full hproof hfull, State.refuseFinish_sessions]
    exact ⟨State.refuseFinish_gone _, rfl⟩

/-- The session a FINISH opens, but for its cache. -/
def State.opened (s : State) (i : RxItem) (x : Setup) (rights : Nat) : Session :=
  { id := x.id, key := x.key, method := x.method, path := x.path, hdr := x.hdr, node := x.node, owner := bit rights 0,
    extended := bit rights 1, localAuth := x.path == .spi && s.flag Obj.local_authority_enable, port := s.nn Obj.ool_udp_port,
    psk := x.psk, proof := frLen i.frame, hi := (x.accept (frSeq i.frame)).hi, seen := (x.accept (frSeq i.frame)).seen,
    cache := (x.accept (frSeq i.frame)).cache, lastAt := s.now }

theorem State.answer_setups (s : State) (k : Fin 32) (path : Path) (hdr : Bytes) (opcode seq status : Nat) (payload : Bytes)
    (more : Bool) : (s.answer k path hdr opcode seq status payload more).ool.setups = s.ool.setups :=
  (s.reply_answered { k, path, hdr, opcode, seq, payload := [] } status payload more).setups

theorem State.openSession_gone (k : Fin 32) (rights : Nat) : ∀ y ∈ (s.openSession k i x rights).ool.setups, y.id ≠ x.id := by
  rw [State.openSession, State.answer_setups, State.log_ool, State.count_ool, State.countSessions_ool]
  exact s.dropSetup_gone x.id

theorem State.openSession_sessions (k : Fin 32) (rights : Nat) :
    ∃ cache, (s.openSession k i x rights).ool.sessions = s.ool.sessions.set k (some { s.opened i x rights with cache }) := by
  have hk : (((((s.dropSetup x.id).setSession k (some (s.opened i x rights))).countSessions).count 8 0x07).log (0x0700 + k.val)
      0x1102 (beNat 1 x.method ++ beNat 1 (rights % 4) ++ beNat 1 (pathCode x.path) ++ beNat 8 x.node)).ool.sessions
      = s.ool.sessions.set k (some (s.opened i x rights)) := by
    simp
  obtain ⟨cache, hcache⟩ := State.answer_session (x := s.opened i x rights) (k := k) (by rw [hk]; simp) i.path i.hdr 0x03
    (frSeq i.frame) stOk [] false
  refine ⟨cache, hcache.trans ?_⟩
  rw [hk, Vector.set_set]

end

end Sys2Proof.Machine
end

section
/-! Setups that time out, sessions that close, and the settlement of the session commands (R55-R58, R459). -/

namespace Sys2Proof.Machine

open Sys2Proof.Safety

/-! ## SETUP_TIMEOUT -/

section
variable {s : State}

theorem exec_setupTimeout_down (h : s.firmwareUp = false) : exec .setupTimeout s = .next s := by
  show execSetupTimeout s = _
  simp [execSetupTimeout, h]

/-- A setup begun 5 s ago or earlier. -/
def State.lateSetup (s : State) (x : Setup) : Bool := decide (x.startedAt + ticksS 5 ≤ s.now)

theorem exec_setupTimeout_up (h : s.firmwareUp = true) :
    exec .setupTimeout s = .next ((s.ool.setups.filter s.lateSetup).foldl
      (fun (s : State) x => s.setupFailed x.method (if x.unknown then 3 else 2))
      { s with ool := { s.ool with setups := s.ool.setups.filter fun x => !s.lateSetup x } }) := by
  show execSetupTimeout s = _
  simp only [execSetupTimeout, h, Bool.not_true, Bool.false_eq_true, if_false]
  rfl

theorem foldl_setupFailed_ool (f : Setup → Nat) (l : List Setup) (s : State) :
    (l.foldl (fun (s : State) x => s.setupFailed x.method (f x)) s).ool = s.ool := by
  induction l generalizing s with
  | nil => rfl
  | cons x l ih => exact (ih _).trans (s.setupFailed_ool x.method (f x))

/-- The late setups end; of the agent nothing else changes. -/
theorem setupTimeout_yields (h : s.firmwareUp = true) :
    Yields .setupTimeout s fun t =>
      t.ool.setups = (s.ool.setups.filter fun x => decide (s.now < x.startedAt + ticksS 5)) ∧ t.ool.sessions = s.ool.sessions := by
  refine ⟨_, exec_setupTimeout_up h, ?_⟩
  simp only [foldl_setupFailed_ool, and_true]
  refine List.filter_congr fun x _ => ?_
  rw [State.lateSetup, ← decide_not, decide_eq_decide, not_le]

end

/-! ## The closing of a session -/

@[simp] theorem State.freeOwnership_sessions (s : State) (cause : Nat) : (s.freeOwnership cause).ool.sessions = s.ool.sessions := by
  rw [State.freeOwnership, State.logOwner_ool]
  rfl

/-- A closed session's number, its claim and session_open_count, before an owner's closing frees ownership. -/
def State.dropSession (s : State) (k : Fin 32) (cause : Nat) : State :=
  ({ (s.setSession k none).countSessions with
      ool := { (s.setSession k none).countSessions.ool with claims := s.ool.claims.filter fun c => c.session ≠ k } } : State).log
    (0x0700 + k) 0x1103 (be 1 cause)

section
variable (s : State) (k : Fin 32) (cause : Nat)

theorem State.dropSession_obj : (s.dropSession k cause).obj = (s.setSession k none).countSessions.obj := by
  refine State.log_obj _ _ _ _ ?_
  have := k.isLt
  omega

theorem State.dropSession_sessions : (s.dropSession k cause).ool.sessions = s.ool.sessions.set k none := by
  rw [State.dropSession, State.log_ool]
  rfl

theorem State.dropSession_txn : (s.dropSession k cause).ool.txn = s.ool.txn := by
  rw [State.dropSession, State.log_ool]
  rfl

theorem State.dropSession_nn {i : Nat} (h : i ≠ Obj.session_open_count) : (s.dropSession k cause).nn i = s.nn i :=
  (State.nn_of_obj (s.dropSession_obj k cause) i).trans (State.nn_putN_ne (s.setSession k none) h _)

theorem State.dropSession_owner : (s.dropSession k cause).owner = s.owner :=
  State.owner_of_nn (s.dropSession_nn k cause (by decide)) (s.dropSession_nn k cause (by decide))

theorem State.storeWf_dropSession {s : State} (h : storeWf s.obj = true) : storeWf (s.dropSession k cause).obj = true := by
  rw [State.dropSession_obj]
  exact State.storeWf_putN (s := s.setSession k none) h _ _

end

section
variable {s : State} {k : Fin 32} {x : Session} (hx : s.ool.sessions[k] = some x) (cause : Nat)
include hx

theorem State.closeSession_owner (howner : s.owner = some k) :
    s.closeSession k cause = (s.dropSession k cause).freeOwnership 5 := by
  simp only [State.closeSession, hx, howner, beq_self_eq_true, if_true]
  rfl

theorem State.closeSession_other (howner : s.owner ≠ some k) : s.closeSession k cause = s.dropSession k cause := by
  simp only [State.closeSession, hx, beq_false_of_ne howner, Bool.false_eq_true, if_false]
  rfl

theorem State.closeSession_unowned (h : storeWf s.obj = true) (howner : s.owner = some k) :
    Unowned s (s.closeSession k cause) := by
  rw [State.closeSession_owner hx cause howner]
  have hepoch := s.dropSession_nn k cause (i := Obj.owner_epoch) (by decide)
  simpa only [Unowned, hepoch] using State.freeOwnership_unowned (State.storeWf_dropSession k cause h) 5

theorem State.closeSession_keeps (howner : s.owner ≠ some k) :
    (s.closeSession k cause).owner = s.owner ∧ (s.closeSession k cause).ool.txn = s.ool.txn := by
  rw [State.closeSession_other hx cause howner]
  exact ⟨s.dropSession_owner k cause, s.dropSession_txn k cause⟩

end

/-- Closing takes a session's number from the table, and no other. -/
theorem State.closeSession_sessions (s : State) (k : Fin 32) (cause : Nat) :
    (s.closeSession k cause).ool.sessions = s.ool.sessions.set k none := by
  cases hx : s.ool.sessions[k] with
  | none =>
    have hset : s.ool.sessions.set k none = s.ool.sessions := by
      rw [← hx]
      exact Vector.set_getElem_self ..
    simp only [State.closeSession, hx, hset]
  | some x =>
    by_cases howner : s.owner = some k
    · rw [State.closeSession_owner hx cause howner, State.freeOwnership_sessions, State.dropSession_sessions]
    · rw [State.closeSession_other hx cause howner, State.dropSession_sessions]

theorem State.closeSession_session (s : State) (k j : Fin 32) (cause : Nat) :
    (s.closeSession k cause).ool.sessions[j] = if j = k then none else s.ool.sessions[j] := by
  simp only [State.closeSession_sessions, Fin.getElem_fin, Vector.getElem_set, Fin.ext_iff, eq_comm]

theorem foldl_closeSession_session (l : List (Fin 32)) (s : State) (cause : Nat) (j : Fin 32) :
    (l.foldl (fun (s : State) k => s.closeSession k cause) s).ool.sessions[j] = if j ∈ l then none else s.ool.sessions[j] := by
  induction l generalizing s with
  | nil => rfl
  | cons k l ih =>
    rw [List.foldl_cons, ih, State.closeSession_session]
    by_cases hj : j = k <;> simp [hj]

/-! ## SESSION_IDLE_TIMEOUT -/

section
variable {s : State}

theorem exec_sessionIdleTimeout_down (h : s.firmwareUp = false) : exec .sessionIdleTimeout s = .next s := by
  show execSessionIdleTimeout s = _
  simp [execSessionIdleTimeout, h]

/-- Session `k` has accepted no request for session_idle_timeout. -/
def State.idleSession (s : State) (k : Fin 32) : Bool :=
  match s.ool.sessions[k] with
  | some x => decide (x.lastAt + ticksS (s.nn Obj.session_idle_timeout) ≤ s.now)
  | none => false

theorem exec_sessionIdleTimeout_up (h : s.firmwareUp = true) :
    exec .sessionIdleTimeout s = .next (((List.finRange 32).filter s.idleSession).foldl
      (fun (s : State) k => s.closeSession k 1) s) := by
  show execSessionIdleTimeout s = _
  simp only [execSessionIdleTimeout, h, Bool.not_true, Bool.false_eq_true, if_false]
  rfl

theorem sessionIdleTimeout_yields (h : s.firmwareUp = true) :
    Yields .sessionIdleTimeout s fun t => ∀ k : Fin 32,
      (∀ x, s.ool.sessions[k] = some x → s.now < x.lastAt + ticksS (s.nn Obj.session_idle_timeout) → t.ool.sessions[k] = some x)
      ∧ (∀ x, s.ool.sessions[k] = some x → x.lastAt + ticksS (s.nn Obj.session_idle_timeout) ≤ s.now →
        t.ool.sessions[k] = none) := by
  refine ⟨_, exec_sessionIdleTimeout_up h, fun k => ⟨fun x hx hearly => ?_, fun x hx hlate => ?_⟩⟩
  · have hidle : s.idleSession k = false := by simpa only [State.idleSession, hx, decide_eq_false_iff_not, not_le] using hearly
    rw [foldl_closeSession_session, if_neg (by simp [hidle]), hx]
  · have hidle : s.idleSession k = true := by simpa only [State.idleSession, hx, decide_eq_true_eq] using hlate
    rw [foldl_closeSession_session, if_pos (by simp [hidle, List.mem_finRange])]

end

/-! ## The agent is down -/

theorem exec_setupCommands_down {s : State} (h : s.agentUp = false) (bad : Bool) :
    exec (.hello bad) s = .next s ∧ exec .cert s = .next s ∧ exec .finish s = .next s := by
  have hserve (op : Nat) (f : State → RxItem → Setup → State) : s.serveSetup op f = s := by simp [State.serveSetup, h]
  refine ⟨?_, congrArg Host.Outcome.next (hserve _ _), congrArg Host.Outcome.next (hserve _ _)⟩
  show execHello bad s = _
  simp [execHello, h]

theorem exec_close_of_serving {s t : State} {r : Req} (h : Serving s 0x04 t r) :
    exec .close s = .next ((t.reply r stOk []).closeSession r.k 0) :=
  congrArg Host.Outcome.next (State.serveReq_of_serving h _)

/-- Settles O48: each clause is the equation of its command's branch; frames sent leave setups and sessions alone, and the
session table changes at the opened or closed number only. -/
theorem sessionCommands : Obligations.SessionCommands := by
  refine ⟨fun s t i bad hup hnext hfate => ⟨fun h1 h2 => ?_, fun hmethod hfull => ?_, fun h1 hfull => ?_,
      fun h2 hfull hbn => ?_, fun h2 hfull hbad hbn hstore hmode hkey hpoint => ?_⟩,
    fun s bad hdown => exec_setupCommands_down hdown bad,
    fun s t i x hup hnext hfate hop _ => ⟨_, exec_cert_taken hup hnext hfate hop, rfl, State.runCert_sessions ..,
      State.runCert_setup (State.fate_setup_mem hfate)⟩,
    fun s t i x hup hnext hfate hop hrefuse => ⟨_, exec_finish_taken hup hnext hfate hop, State.runFinish_refused hrefuse⟩,
    fun t i x => State.setupFate_badTag,
    fun s t i x rights k hup hnext hfate hop hproof hfree => ⟨_, exec_finish_taken hup hnext hfate hop, ?_⟩,
    fun s => setupTimeout_yields, fun s => exec_setupTimeout_down, fun s t r => exec_close_of_serving,
    fun s k x cause hw hx => ⟨?_, fun j hj => ?_, State.closeSession_unowned hx cause hw.1, State.closeSession_keeps hx cause⟩,
    fun s => sessionIdleTimeout_yields, fun s => exec_sessionIdleTimeout_down⟩
  · rw [exec_hello_taken hup hnext hfate, State.runHello_reserved h1 h2]
  · rw [exec_hello_taken hup hnext hfate, State.runHello_full hmethod hfull]
  · refine ⟨_, exec_hello_taken hup hnext hfate bad, ?_⟩
    rw [State.runHello_psk hfull h1]
    have hstarts := t.helloPsk_starts i
    exact ⟨hstarts.setups_length, hstarts.sessions, hstarts.obj⟩
  · refine ⟨_, exec_hello_taken hup hnext hfate bad, ?_⟩
    rw [State.runHello_cert hfull h2, State.helloCert_refused hbn]
    simp
  · subst hbad
    refine ⟨_, exec_hello_taken hup hnext hfate false, ?_⟩
    rw [State.runHello_cert hfull h2]
    have hstarts := State.helloCert_starts hkey hbn hstore hmode hpoint
    exact ⟨hstarts.setups_length, hstarts.sessions⟩
  · rw [State.runFinish_opens hproof hfree]
    obtain ⟨cache, hsessions⟩ := State.openSession_sessions (s := t) (i := i) (x := x) k rights
    refine ⟨State.openSession_gone k rights, ⟨{ t.opened i x rights with cache }, ?_, rfl, rfl, rfl, rfl, rfl, rfl⟩, fun j hj => ?_⟩
    · simp [hsessions]
    · rw [hsessions, Fin.getElem_fin, Vector.getElem_set_ne _ _ fun hkj => hj (Fin.ext hkj.symm)]
      rfl
  · rw [State.closeSession_session, if_pos rfl]
  · rw [State.closeSession_session, if_neg hj]

end Sys2Proof.Machine
end

section
/-! OBJECT_WRITE where a scheduled commit before it activates firmware (R45, R48, R358). -/

namespace Sys2Proof.Machine

open Sys2Proof.Safety

/-- Where the scheduled commits that execute first stop the firmware, OBJECT_WRITE writes nothing. -/
theorem exec_objectWrite_stopped {s : State} {i sub : Nat} {v : Bytes} {x : StagedItem} (hitem : s.itemOk i sub v = some x)
    (hup : s.firmwareUp = true) (hdown : s.runDue.firmwareUp = false) : exec (.objectWrite i sub v) s = .next s.runDue := by
  show execObjectWrite i sub v s = _
  simp only [execObjectWrite, hitem, hup, if_true, hdown, Bool.not_false, Bool.true_or]

/-- A scheduled commit of fw_activate whose time has come. -/
def activation : Sched :=
  { id := 4, time := 0, session := 3, flags := 0, expected := 0, items := [{ key := Obj.fw_activate, val := .num 1 }] }

/-- In SPARGE with every domain awake, valid time and a verified staged image, the activation is due. -/
def activating : State :=
  { ((List.range 8).foldl (fun (s : State) d => s.putN (Obj.domain_state d) 2) State.reset).putN Obj.fw_staged_status 3 with
    tb := { running := true, segs := [{ valid := true, time := 0 }] }
    mode := { cur := .sparge, bringupDone := true }
    sched := [activation] }

/-- The value that OBJECT_WRITE is to write: 100 s to sparge_timeout. -/
def timeoutItem : StagedItem := { key := Obj.sparge_timeout, val := .num 100 }

theorem activating_itemOk : activating.itemOk 0x1011 2 [0, 100] = some timeoutItem := by decide +kernel

theorem activating_firmwareUp : activating.firmwareUp = true := by decide +kernel

theorem activating_runDue_down : activating.runDue.firmwareUp = false := by decide +kernel

theorem activating_rules : activating.runDue.rules [timeoutItem] [] 0 = stOk := by decide +kernel

theorem activating_generations :
    activating.runDue.nn Obj.generation = 1 ∧ (activating.runDue.takeEffect [timeoutItem] [] 0 255).nn Obj.generation = 2 := by
  decide +kernel

/-- Refutes O47: the activation of firmware, a scheduled commit that executes first, stops the firmware, so the value is not
written although no rule fails; the statement asks for firmware before the scheduled commits, not after them. -/
theorem not_configurationCommands : ¬ Obligations.ConfigurationCommands := by
  unfold Obligations.ConfigurationCommands
  rintro ⟨hwrite, -⟩
  have hwritten := (hwrite activating 0x1011 2 [0, 100] timeoutItem activating_itemOk activating_firmwareUp (by decide) (by decide +kernel)).1
    activating_rules
  have hsame := hwritten.symm.trans (exec_objectWrite_stopped activating_itemOk activating_firmwareUp activating_runDue_down)
  obtain ⟨hbefore, hafter⟩ := activating_generations
  rw [Host.Outcome.next.inj hsame, hbefore] at hafter
  omega

end Sys2Proof.Machine
end

section
/-! Segments and steps (R72, R89-R91, R96): the segment fixed for a request, the follow-up, STEP, SNOWDROP_ALIGN. -/

namespace Sys2Proof.Machine

open Sys2Proof.Safety

/-! ## What journalling leaves alone -/

/-- `t` is `s` but for what the dictionary and the journal hold. -/
def OnlyLogged (s t : State) : Prop := ∃ (obj : List (Nat × Val)) (journal : Journal), t = { s with obj, journal }

theorem OnlyLogged.refl (s : State) : OnlyLogged s s := ⟨_, _, rfl⟩

theorem OnlyLogged.trans {s t u : State} (h : OnlyLogged s t) (h' : OnlyLogged t u) : OnlyLogged s u := by
  obtain ⟨_, _, rfl⟩ := h
  obtain ⟨_, _, rfl⟩ := h'
  exact ⟨_, _, rfl⟩

theorem State.put_onlyLogged (s : State) (k : Nat) (x : Val) : OnlyLogged s (s.put k x) := ⟨_, _, rfl⟩

theorem State.logAt_onlyLogged (s : State) (stamp source code : Nat) (data : Bytes) :
    OnlyLogged s (s.logAt stamp source code data) := ⟨_, _, s.logAt_frame ..⟩

/-! ## The segment fixed for a request (R87, R89-R92) -/

/-- `t` is `s` with the segment of a request fixed for a start tick, to be issued 40 to 60 ticks before it. -/
def Fixes (s : State) (w : SegRequest) (tick : Nat) (t : State) : Prop :=
  ∃ obj journal freeIdx tb, t = { s with obj, journal, freeIdx, tb } ∧ tb.issued = some (s.segmentAt w tick) ∧ tb.want = none
    ∧ tb.segs = s.tb.segs ∧ ∃ ahead, tb.issueTick = tick - (40 + ahead % 21)

/-- A request's step or seed writes objects, the journal and whether the first step is done (R93, R94, R96). -/
theorem State.segKindEffect_frame (s : State) (k : SegKind) (start : Nat) :
    ∃ firstDone, OnlyLogged { s with tb := { s.tb with firstDone } } (s.segKindEffect k start) := by
  cases k with
  | rate steering => exact ⟨_, .refl _⟩
  | withdraw => exact ⟨_, s.put_onlyLogged _ _⟩
  | ownerStep amount session => exact ⟨_, (s.put_onlyLogged _ _).trans (State.logAt_onlyLogged ..)⟩
  | firstStep amount slot =>
    refine ⟨true, .trans ?_ (State.logAt_onlyLogged ..)⟩
    exact ⟨_, _, rfl⟩
  | seed amount source unc slot =>
    refine ⟨s.tb.firstDone || source == 3, .trans ?_ (State.logAt_onlyLogged ..)⟩
    dsimp only
    split <;> exact ⟨_, _, rfl⟩

theorem State.fixAt_fixes (s : State) (w : SegRequest) (tick : Nat) : Fixes s w tick (s.fixAt w tick) := by
  unfold State.fixAt
  dsimp only [State.freeNat, State.logClamp]
  split
  · have hlog := s.logAt_frame s.stamp 0 0x2007 (be 8 w.rate ++ be 8 (s.segmentAt w tick).rate)
    rw [State.log, hlog]
    exact ⟨_, _, _, _, rfl, rfl, rfl, rfl, _, rfl⟩
  · exact ⟨_, _, _, _, rfl, rfl, rfl, rfl, _, rfl⟩

theorem State.issueAt_fixes (s : State) (w : SegRequest) (tick : Nat) : Fixes s w tick (s.issueAt w tick) := by
  obtain ⟨_, _, _, _, hfix, hissued, hwant, hsegs, ahead, htick⟩ := s.fixAt_fixes w tick
  obtain ⟨_, _, _, heffect⟩ := (s.fixAt w tick).segKindEffect_frame w.kind (tick * 256)
  rw [State.issueAt, heffect, hfix]
  exact ⟨_, _, _, _, rfl, hissued, hwant, hsegs, ahead, htick⟩

/-- A free value drawn first leaves the segment the same. -/
theorem Fixes.of_freeNat {s t : State} {w : SegRequest} {tick : Nat} (h : Fixes s.freeNat.2 w tick t) : Fixes s w tick t := h

/-- A waiting request is fixed once the spacing allows it, 2000 ticks ahead or more (R89). -/
theorem State.tryIssue_fixes {s : State} {w : SegRequest} (hissued : s.tb.issued = none) (hwant : s.tb.want = some w)
    (hfree : s.stepReserved = false) (hrun : s.tb.running = true) (hspace : s.tb.newest.start / 256 + 2500 ≤ s.tb.raw + 2060) :
    ∃ tick, s.tb.raw + 2000 ≤ tick ∧ Fixes s w tick s.tryIssue := by
  have hspace' : ¬ s.tb.raw + 2060 < s.tb.newest.start / 256 + 2500 := Nat.not_lt.mpr hspace
  simp only [State.tryIssue, hissued, hwant, hfree, hrun, hspace', Bool.not_true, Bool.or_self, decide_false,
    Bool.false_eq_true, if_false]
  exact ⟨_, le_max_of_le_left (Nat.le_add_right _ _), (State.issueAt_fixes ..).of_freeNat⟩

theorem State.tryIssue_issued {s : State} (h : s.tb.issued.isSome = true) : s.tryIssue = s := by
  obtain ⟨g, hg⟩ := Option.isSome_iff_exists.mp h
  simp only [State.tryIssue, hg]

/-! ## SLOPE_FOLLOWUP_SEGMENT -/

section
variable {s : State} {r : Int} (hfollow : s.tb.followUp = some r) (hissued : s.tb.issued = none) (hrun : s.tb.running = true)
  (hfree : s.stepReserved = false)
include hfollow hissued hrun hfree

theorem exec_slopeFollowupSegment_due (hnear : s.tb.newest.start / 256 + 12500000 ≤ s.tb.raw + 2060)
    (hahead : s.tb.raw + 2000 ≤ s.tb.newest.start / 256 + 12500000) :
    exec .slopeFollowupSegment s
      = .next (s.issueAt { rate := r, kind := .rate false } (s.tb.newest.start / 256 + 12500000)) := by
  show execSlopeFollowupSegment s = _
  simp only [execSlopeFollowupSegment, hfollow, hissued, hrun, hfree, Nat.not_lt.mpr hnear, hahead, Bool.not_true, Bool.or_self,
    decide_false, Bool.false_eq_true, if_false, if_true]

theorem exec_slopeFollowupSegment_late (hlate : s.tb.newest.start / 256 + 12500000 < s.tb.raw + 2000) :
    exec .slopeFollowupSegment s = .next (s.freeNat.2.issueAt { rate := r, kind := .rate false }
      (s.tb.raw + 2000 + s.freeNat.1 % 61)) := by
  show execSlopeFollowupSegment s = _
  have hnear : ¬ s.tb.raw + 2060 < s.tb.newest.start / 256 + 12500000 := by omega
  simp only [execSlopeFollowupSegment, hfollow, hissued, hrun, hfree, hnear, Nat.not_le.mpr hlate, Bool.not_true, Bool.or_self,
    decide_false, Bool.false_eq_true, if_false]
  rfl

end

/-- Where the rate is not clamped the segment has the rate asked for. -/
theorem State.segmentAt_rate {s : State} (h : s.rateOnly = false) (w : SegRequest) (tick : Nat) :
    (s.segmentAt w tick).rate = w.rate := by
  simp only [State.segmentAt, h, Bool.false_eq_true, if_false]

/-! ## SEGMENT_START -/

theorem exec_segmentStart_due {s : State} {g : Segment} (hissued : s.tb.issued = some g) (hreserved : s.tb.reserved = none)
    (hrun : s.tb.running = true) (hstart : g.start ≤ s.tb.raw * 256) (hstep : g.step = false) :
    exec .segmentStart s
      = .next (((List.finRange 20).foldl (fun (u : State) (n : Fin 20) => u.spanActive n g.start)
          { s with tb := { s.tb with segs := (g :: s.tb.segs).take 32, issued := none } }).evalOuts.tryIssue) := by
  show execSegmentStart s = _
  simp only [execSegmentStart, State.startIssued, hissued, hreserved, hrun, hstart, hstep, decide_true, Bool.and_self,
    Bool.false_eq_true, if_true, if_false]

theorem exec_segmentStart_early {s : State} {g : Segment} (hissued : s.tb.issued = some g) (hstart : s.tb.raw * 256 < g.start) :
    exec .segmentStart s = .next s := by
  show execSegmentStart s = _
  cases hreserved : s.tb.reserved with
  | none =>
    simp only [execSegmentStart, hissued, hreserved, Nat.not_le.mpr hstart, decide_false, Bool.and_false, Bool.false_eq_true,
      if_false]
    rw [State.tryIssue_issued (by rw [hissued]; rfl)]
  | some r => simp only [execSegmentStart, hissued, hreserved]

/-! ## STEP -/

/-- An owner step waits with the present rate; the clamp of the rate may be journalled (R91, R92). -/
theorem State.wantSegment_ownerStep {s : State} (hwant : s.tb.want = none) (amount : Int) (session : Nat) :
    ∃ journal rateClamped slopeClamped followUp rateCorr, s.wantSegment (.ownerStep amount session) = { s with
      journal, tb := { s.tb with want := some { rate := s.requestedRate, kind := .ownerStep amount session },
                                 rateClamped, slopeClamped, followUp, rateCorr } } := by
  unfold State.wantSegment
  dsimp only [State.logClamp]
  split
  · have hlog := s.logAt_frame s.stamp 0 0x2006 (be 8 s.corrRates.1 ++ be 8 s.corrRates.2)
    have hobj := s.log_obj 0 0x2006 (be 8 s.corrRates.1 ++ be 8 s.corrRates.2) (by decide)
    rw [State.log] at hobj ⊢
    rw [hobj] at hlog
    rw [hlog]
    simp only [hwant]
    exact ⟨_, _, _, _, _, rfl⟩
  · simp only [hwant]
    exact ⟨_, _, _, _, _, rfl⟩

section
variable {s : State} {amount : Int} {session : Nat} (hrate : s.rateOnly = true) (hok : s.stepOk amount = true)
  (hepisode : s.hold.episode = false)
include hrate hok hepisode

theorem exec_step :
    exec (.step amount session) s = .next (s.wantSegment (.ownerStep (amount * 65536) session)).tryIssue := by
  have hnow : s.ownerStep amount session = s.requestSegment (.ownerStep (amount * 65536) session) := by
    unfold State.ownerStep
    rw [hepisode]
    rfl
  exact (if_pos ⟨hrate, hok⟩ : execStep amount session s = _).trans (congrArg Host.Outcome.next hnow)

theorem step_waits (hissued : s.tb.issued.isSome = true) (hwant : s.tb.want = none) :
    Yields (.step amount session) s fun t =>
      t.tb.want = some { rate := s.requestedRate, kind := .ownerStep (amount * 65536) session } ∧ t.tb.issued = s.tb.issued
      ∧ t.tb.segs = s.tb.segs ∧ t = { s with tb := t.tb, journal := t.journal, obj := t.obj } := by
  obtain ⟨_, _, _, _, _, hu⟩ := State.wantSegment_ownerStep hwant (amount * 65536) session
  refine ⟨_, exec_step hrate hok hepisode, ?_⟩
  rw [hu, State.tryIssue_issued (by exact hissued)]
  exact ⟨rfl, rfl, rfl, rfl⟩

theorem step_issues (hissued : s.tb.issued = none) (hwant : s.tb.want = none) (hrun : s.tb.running = true)
    (hfree : s.stepReserved = false) (hspace : s.tb.newest.start / 256 + 2500 ≤ s.tb.raw + 2060) :
    Yields (.step amount session) s fun t => ∃ g, t.tb.issued = some g ∧ g.step = true ∧ g.seq = s.tb.newest.seq + 1
      ∧ g.time = s.tb.newest.convert g.start + amount * 65536 ∧ s.tb.raw * 256 < g.start ∧ t.tb.want = none
      ∧ t.tb.segs = s.tb.segs ∧ t.slots = s.slots ∧ t.ports = s.ports := by
  obtain ⟨_, _, _, _, _, hu⟩ := State.wantSegment_ownerStep hwant (amount * 65536) session
  obtain ⟨tick, htick, _, _, _, _, ht, hg, hnone, hsegs, _⟩ := State.tryIssue_fixes
    (s := s.wantSegment (.ownerStep (amount * 65536) session)) (by rw [hu]; exact hissued) (by rw [hu]) (by rw [hu]; exact hfree)
    (by rw [hu]; exact hrun) (by rw [hu]; exact hspace)
  refine ⟨_, exec_step hrate hok hepisode, ?_⟩
  rw [ht]
  rw [hu] at hg htick hsegs ⊢
  have hstart : s.tb.raw * 256 < tick * 256 := by
    have : s.tb.raw + 2000 ≤ tick := htick
    omega
  exact ⟨_, hg, rfl, rfl, rfl, hstart, hnone, hsegs, rfl, rfl⟩

end

/-! ## SNOWDROP_ALIGN -/

theorem exec_snowdropAlign {s : State} (hmain : s.keep.mainGood = true) (hawake : s.awake 2 = true) (hmode : s.mode.cur ≠ .cellar) :
    exec .snowdropAlign s = .next s.alignSnowdrop :=
  if_pos (by simp [hmain, hawake, hmode])

/-- Settles O3: the clauses on requests are what the segment fixed for one holds; those on starts and on Snowdrop are the equations
of their branches. -/
theorem timebaseCommands : Obligations.TimebaseCommands := by
  refine ⟨fun s r hfollow hissued hrun hfree hnear hahead => ?_, fun s r hfollow hissued hrun hfree hlate => ?_,
    fun s w tick hlong => ?_, fun s g hissued hreserved hrun hstart hstep => exec_segmentStart_due hissued hreserved hrun hstart hstep,
    fun s g hissued hstart => exec_segmentStart_early hissued hstart,
    fun s amount session hrate hok hepisode hissued hwant => step_waits hrate hok hepisode hissued hwant,
    fun s amount session hrate hok hepisode hissued hwant hrun hfree hspace =>
      step_issues hrate hok hepisode hissued hwant hrun hfree hspace,
    fun s hmain hawake hmode hvalid => ?_⟩
  · refine ⟨_, exec_slopeFollowupSegment_due hfollow hissued hrun hfree hnear hahead, ?_⟩
    obtain ⟨_, _, _, _, ht, hg, _, hsegs, _⟩ := s.issueAt_fixes { rate := r, kind := .rate false } (s.tb.newest.start / 256 + 12500000)
    rw [ht]
    exact ⟨_, hg, rfl, rfl, Int.add_zero _, rfl, rfl, fun hrate => State.segmentAt_rate hrate _ _, hsegs, rfl⟩
  · refine ⟨_, exec_slopeFollowupSegment_late hfollow hissued hrun hfree hlate, ?_⟩
    obtain ⟨_, _, _, _, ht, hg, _, hsegs, _⟩ := (s.freeNat.2.issueAt_fixes { rate := r, kind := .rate false }
      (s.tb.raw + 2000 + s.freeNat.1 % 61)).of_freeNat
    have hstart : (s.segmentAt { rate := r, kind := .rate false } (s.tb.raw + 2000 + s.freeNat.1 % 61)).start
        = (s.tb.raw + 2000 + s.freeNat.1 % 61) * 256 := rfl
    rw [ht]
    exact ⟨_, hg, by omega, by omega, rfl, Int.add_zero _, rfl, hsegs⟩
  · obtain ⟨_, _, _, _, ht, _, _, _, ahead, htick⟩ := s.issueAt_fixes w tick
    rw [ht]
    show _ + 40 ≤ tick ∧ tick ≤ _ + 60
    rw [htick]
    omega
  · rw [exec_snowdropAlign hmain hawake hmode, State.alignSnowdrop, if_pos hvalid]
    rfl

end Sys2Proof.Machine
end

section
/-! The mode machine's own commands (R66, R67): mash_timeout and the evaluation of timing condition and mode. -/

namespace Sys2Proof.Machine

open Sys2Proof.Safety

theorem exec_mashTimeout_due {s : State} {t0 : Nat} (hsince : s.mode.mashSince = some t0) (hlimit : s.nn Obj.mash_timeout ≠ 0)
    (hdue : t0 + ticksS (s.nn Obj.mash_timeout) ≤ s.now) (hcond : s.n Obj.timing_condition = 0 ∨ s.n Obj.timing_condition = 1) :
    exec .mashTimeout s = .next { s with mode := { s.mode with mashExpired := true, mashSince := none } } := by
  show execMashTimeout s = _
  simp only [execMashTimeout, hsince]
  exact if_pos ⟨hlimit, hdue, hcond⟩

section
variable {s : State} (hawake : s.awake 2 = true)
include hawake

/-- The bound grows, a loss is taken, then the budget's crossing where the condition is 3 (R67, R148); lock, timeout, pins and holds
follow. -/
theorem exec_timingConditionEvaluate_awake :
    exec .timingConditionEvaluate s = .next
      (if s.growBound.takeLoss.n Obj.timing_condition = 3 ∧ s.growBound.takeLoss.overBudget = true
        then s.growBound.takeLoss.crossBudget else s.growBound.takeLoss).takeLock.takeMash.drivePins.evalOuts := by
  show execTimingConditionEvaluate s = _
  simp only [execTimingConditionEvaluate, hawake, Bool.not_true, Bool.false_eq_true, if_false]

theorem exec_timingConditionEvaluate_within
    (h : s.growBound.takeLoss.n Obj.timing_condition ≠ 3 ∨ s.growBound.takeLoss.overBudget = false) :
    exec .timingConditionEvaluate s = .next s.growBound.takeLoss.takeLock.takeMash.drivePins.evalOuts := by
  rw [exec_timingConditionEvaluate_awake hawake, if_neg]
  rintro ⟨hcond, hover⟩
  exact h.elim (· hcond) (Bool.eq_false_iff.mp · hover)

theorem exec_timingConditionEvaluate_crossing (hcond : s.growBound.takeLoss.n Obj.timing_condition = 3)
    (hover : s.growBound.takeLoss.overBudget = true) :
    exec .timingConditionEvaluate s
      = .next s.growBound.takeLoss.crossBudget.takeLock.takeMash.drivePins.evalOuts := by
  rw [exec_timingConditionEvaluate_awake hawake, if_pos ⟨hcond, hover⟩]

end

theorem exec_timingConditionEvaluate_asleep {s : State} (hasleep : s.awake 2 = false) :
    exec .timingConditionEvaluate s = .next s :=
  if_pos (by rw [hasleep]; rfl)

/-- Settles O5: each clause is the equation of its command's branch. -/
theorem modeCommands : Obligations.ModeCommands :=
  ⟨fun _ _ => exec_mashTimeout_due, fun _ => exec_timingConditionEvaluate_within, fun _ => exec_timingConditionEvaluate_crossing,
    fun _ => exec_timingConditionEvaluate_asleep⟩

end Sys2Proof.Machine
end

section
/-! Bring-up from the release of a cold reset to MASH (R71, R357, R365, R385-R388). -/

namespace Sys2Proof.Machine

open Sys2Proof.Safety

/-! ## Domain states -/

theorem Obj.ne_domain_state {k : Nat} (h : k < Obj.domain_state 0) (d : Nat) : k ≠ Obj.domain_state d :=
  Nat.ne_of_lt (Nat.lt_of_lt_of_le h (Nat.le_add_right ..))

theorem State.setDoms_frame (s : State) (v : Nat) : ∃ obj, s.setDoms v = { s with obj } := by
  unfold State.setDoms
  induction List.range 7 generalizing s with
  | nil => exact ⟨_, rfl⟩
  | cons d l ih => exact ih (s.setDom (d + 2) v)

/-- An object that is no domain's state reads as before once domains are put into a state. -/
theorem State.get_setDoms_ne (s : State) (v : Nat) {k : Nat} (h : k < Obj.domain_state 0) : (s.setDoms v).get k = s.get k := by
  unfold State.setDoms
  induction List.range 7 generalizing s with
  | nil => rfl
  | cons d l ih => exact (ih _).trans (s.get_putN_ne _ (Obj.ne_domain_state h _))

/-! ## COLD_RESET_RELEASE (R388, R385, R348) -/

/-- The straps as sampled and the outcome of the key-derivation unit, as their objects hold them. -/
def State.withStraps (s : State) (bootsel : Fin 8) (oscsel : Fin 4) (oscdiff dukOk : Bool) : State :=
  let u := ((s.putN Obj.strap_bootsel bootsel.val).putN Obj.strap_oscsel oscsel.val).putB Obj.strap_oscdiff oscdiff
  let u := (u.putN Obj.boot_source_used (if bootsel.val ≤ 3 then bootsel.val else 0)).putB Obj.strap_reserved (4 ≤ bootsel.val)
  u.putN Obj.duk_state (if dukOk then 0 else 1)

section
variable {s : State} (hstore : storeWf s.obj = true) (b : Fin 8) (o : Fin 4) (diff dukOk : Bool)
include hstore

theorem State.withStraps_bootsel : (s.withStraps b o diff dukOk).get Obj.strap_bootsel = .num b.val := by
  unfold State.withStraps
  rw [State.get_putN_ne _ _ (by decide), State.get_putB_ne _ _ (by decide), State.get_putN_ne _ _ (by decide),
    State.get_putB_ne _ _ (by decide), State.get_putN_ne _ _ (by decide), State.putN, State.get_put_same hstore]

theorem State.withStraps_oscsel : (s.withStraps b o diff dukOk).get Obj.strap_oscsel = .num o.val := by
  unfold State.withStraps
  rw [State.get_putN_ne _ _ (by decide), State.get_putB_ne _ _ (by decide), State.get_putN_ne _ _ (by decide),
    State.get_putB_ne _ _ (by decide), State.putN, State.get_put_same (State.storeWf_putN hstore _ _)]

theorem State.withStraps_oscdiff : (s.withStraps b o diff dukOk).get Obj.strap_oscdiff = .num (if diff then 1 else 0) := by
  unfold State.withStraps
  rw [State.get_putN_ne _ _ (by decide), State.get_putB_ne _ _ (by decide), State.get_putN_ne _ _ (by decide), State.putB,
    State.get_put_same (State.storeWf_putN (State.storeWf_putN hstore _ _) _ _)]

end

theorem State.withStraps_onlyLogged (s : State) (b : Fin 8) (o : Fin 4) (diff dukOk : Bool) :
    OnlyLogged s (s.withStraps b o diff dukOk) :=
  (((((s.put_onlyLogged ..).trans (State.put_onlyLogged ..)).trans (State.put_onlyLogged ..)).trans (State.put_onlyLogged ..)).trans
    (State.put_onlyLogged ..)).trans (State.put_onlyLogged ..)

/-- Instant 0 of R71. -/
def State.released (s : State) (b : Fin 8) (o : Fin 4) (diff dukOk : Bool) : State :=
  let u := s.withStraps b o diff dukOk
  let u := (if dukOk then u else u.note 0x0900 0x1404 []).setDoms 0
  { u with mode := { cur := .steep }, sec := { u.sec with storageOff := !dukOk },
           sys := { u.sys with scope := none, step := 1, releasedAt := u.now, trimHold := false, imageHold := false,
                               resync := [2, 3, 4, 5, 6, 7, 8], parts := [], resynced := [] } }

/-- The release reads its straps as sampled. -/
theorem State.released_get (s : State) (b : Fin 8) (o : Fin 4) (diff dukOk : Bool) {k : Nat} (h : k < Obj.domain_state 0) :
    (s.released b o diff dukOk).get k = (s.withStraps b o diff dukOk).get k := by
  have hnote : (if dukOk then s.withStraps b o diff dukOk else (s.withStraps b o diff dukOk).note 0x0900 0x1404 []).get k
      = (s.withStraps b o diff dukOk).get k := by
    split <;> rfl
  have hobj : (s.released b o diff dukOk).obj
      = ((if dukOk then s.withStraps b o diff dukOk else (s.withStraps b o diff dukOk).note 0x0900 0x1404 []).setDoms 0).obj := rfl
  rw [State.get_of_obj hobj, State.get_setDoms_ne _ 0 h, hnote]

theorem State.released_frame (s : State) (b : Fin 8) (o : Fin 4) (diff dukOk : Bool) :
    (s.released b o diff dukOk).sys.releasedAt = s.now ∧ (s.released b o diff dukOk).keep = s.keep
      ∧ (s.released b o diff dukOk).flash = s.flash := by
  obtain ⟨obj, journal, sys, hnoted⟩ : ∃ obj journal sys, (if dukOk then s.withStraps b o diff dukOk
      else (s.withStraps b o diff dukOk).note 0x0900 0x1404 []) = { s with obj, journal, sys } := by
    obtain ⟨_, _, hstraps⟩ := s.withStraps_onlyLogged b o diff dukOk
    rw [hstraps]
    split <;> exact ⟨_, _, _, rfl⟩
  obtain ⟨_, hdoms⟩ := State.setDoms_frame { s with obj, journal, sys } 0
  unfold State.released
  dsimp only
  rw [hnoted, hdoms]
  exact ⟨rfl, rfl, rfl⟩

theorem exec_coldResetRelease_due {s : State} {since : Nat} {tj : Int} (hscope : s.sys.scope = some 1 ∨ s.sys.scope = some 2)
    (hmain : s.keep.mainGood = true) (hsupply : s.sys.mainSince + ticksMs 2 ≤ s.now) (hosc : s.sys.oscSince = some since)
    (hran : since + ticksMs 10 ≤ s.now) (htemp : tj ≤ 10500) (hrstn : s.sys.rstnLow = false) (hwrstn : s.sys.wrstnLow = false)
    (hhold : s.sys.holdUntil ≤ s.now) (b : Fin 8) (o : Fin 4) (diff dukOk : Bool) :
    exec (.coldResetRelease b o diff dukOk tj) s = .next (s.released b o diff dukOk) :=
  if_neg (by simpa [hmain, hsupply, hosc, hran, htemp, hrstn, hwrstn, hhold, imp_iff_not_or] using hscope)

theorem exec_coldResetRelease_held {s : State} (hhold : s.now < s.sys.holdUntil) (b : Fin 8) (o : Fin 4) (diff dukOk : Bool) (tj : Int) :
    exec (.coldResetRelease b o diff dukOk tj) s = .next s :=
  if_pos (by simp [Nat.not_le.mpr hhold])

/-! ## TRIM_LOAD_COMPLETE, TICK_CLOCK_LOCK, FIRMWARE_BOOT_CHECK (R71 steps 2 to 5) -/

section
variable {s : State} (hat : s.atStep 1 = true)
include hat

theorem exec_trimLoadComplete_hold : exec (.trimLoadComplete false false) s
    = .next ({ s with sys := { s.sys with trimHold := true } } : State).holdPins := by
  show execTrimLoadComplete false false s = _
  simp only [execTrimLoadComplete, hat, Bool.not_true, Bool.not_false, Bool.and_self, Bool.false_eq_true, if_false, if_true]

theorem exec_trimLoadComplete_copyA (bOk : Bool) : exec (.trimLoadComplete true bOk) s
    = .next (((s.putN Obj.trim_copy 0).setStep 3).setDom 2 1).drivePins := by
  show execTrimLoadComplete true bOk s = _
  simp only [execTrimLoadComplete, hat, Bool.not_true, Bool.false_and, Bool.false_eq_true, if_false, if_true]

theorem exec_trimLoadComplete_copyB : exec (.trimLoadComplete false true) s
    = .next ((((s.putN Obj.trim_copy 1).note 0x0800 0x1504 []).setStep 3).setDom 2 1).drivePins := by
  show execTrimLoadComplete false true s = _
  simp only [execTrimLoadComplete, hat, Bool.not_true, Bool.not_false, Bool.and_false, Bool.false_eq_true, if_false]

end

/-- The tick clock is locked: STEEP is journalled, the early objects take their values, Snowdrop seeds (R71 step 4, R72). -/
def State.tickLocked (s : State) (bankA bankB : Nat) : State :=
  let u := (((s.startRaw.setStep 4).bump Obj.mode_change_count).log 0 0x1001 [0, 1, 0, 3])
  let u := (u.putN Obj.bank_a_voltage bankA).putN Obj.bank_b_voltage bankB
  let u := earlyKeys.foldl (fun (u : State) k => u.put k (u.flash.configValue k)) u
  u.seedSnowdrop.restoreModel (if u.keep.coarseValid then some (u.coarseNow / unitsPerS) else none)

theorem exec_tickClockLock_locks {s : State} (hwake : s.keep.verifyWake = none) (hat : s.atStep 3 = true) (a b : Nat) :
    exec (.tickClockLock a b) s = .next (s.tickLocked a b) :=
  (if_neg (by simp [hwake]) : execTickClockLock a b s = _).trans (if_neg (by simp [hat]))

section
variable {s : State} (hat : s.atStep 4 = true)
include hat

theorem exec_firmwareBootCheck_flash (hsrc : s.bootRevert.nn Obj.boot_source_used = 0) {k : Nat} {u : State}
    (hbank : s.bootRevert.bootBank = (some k, u)) (d : Option Bytes) :
    exec (.firmwareBootCheck d) s = .next (u.startFirmware k (fwImageVersion (u.flash.image k))) := by
  show execFirmwareBootCheck d s = _
  simp only [execFirmwareBootCheck, hat, hsrc, hbank, Bool.not_true, Bool.false_eq_true, if_false, if_true]

theorem exec_firmwareBootCheck_hold (hsrc : s.bootRevert.nn Obj.boot_source_used = 0) {u : State}
    (hbank : s.bootRevert.bootBank = (none, u)) (d : Option Bytes) :
    exec (.firmwareBootCheck d) s = .next ({ u with sys := { u.sys with imageHold := true } } : State).holdPins := by
  show execFirmwareBootCheck d s = _
  simp only [execFirmwareBootCheck, hat, hsrc, hbank, Bool.not_true, Bool.false_eq_true, if_false, if_true]

theorem exec_firmwareBootCheck_downloaded (hsrc : s.bootRevert.nn Obj.boot_source_used ≠ 0) {img : Bytes}
    (hok : s.bootRevert.fwCause img = 0) : exec (.firmwareBootCheck (some img)) s
      = .next (s.bootRevert.startFirmware s.bootRevert.flash.boot.bank (fwImageVersion img)) := by
  show execFirmwareBootCheck (some img) s = _
  simp only [execFirmwareBootCheck, hat, hsrc, hok, Bool.not_true, Bool.false_eq_true, if_false, if_true]

theorem exec_firmwareBootCheck_waits (hsrc : s.bootRevert.nn Obj.boot_source_used ≠ 0) :
    exec (.firmwareBootCheck none) s = .next s.bootRevert := by
  show execFirmwareBootCheck none s = _
  simp only [execFirmwareBootCheck, hat, hsrc, Bool.not_true, Bool.false_eq_true, if_false]

end

/-! ## DRAM_TRAINING_COMPLETE (R365, R71 step 9) -/

/-- The objects of a training's outcome, at step 9. -/
def State.trained (s : State) (fail : Fin 16) (capacity ms : Nat) : State :=
  ((((s.putN Obj.dram_state (if fail = 0 then 2 else 3)).putN Obj.dram_train_fail fail.val).putN Obj.dram_train_time
    (ms % 65536 : Nat)).putN Obj.dram_capacity (capacity % 2 ^ 32 : Nat)).setStep 9

theorem State.setStep_n (s : State) (step k : Nat) : (s.setStep step).n k = s.n k := rfl

theorem exec_dramTrainingComplete_at {s : State} (hat : s.atStep 6 = true) (fail : Fin 16) (capacity ms : Nat) :
    exec (.dramTrainingComplete fail capacity ms) s = .next (if fail = 0 then s.trained fail capacity ms
      else (s.trained fail capacity ms).log 0 0x1603 (beNat 1 fail.val)) :=
  if_neg (by simp [hat])

section
variable {s : State} (hstore : storeWf s.obj = true) (fail : Fin 16) (capacity ms : Nat)
include hstore

theorem State.trained_state : (s.trained fail capacity ms).n Obj.dram_state = (if fail = 0 then 2 else 3) := by
  rw [State.trained, State.setStep_n, State.n_putN_ne _ _ (by decide), State.n_putN_ne _ _ (by decide),
    State.n_putN_ne _ _ (by decide), State.n_putN_same hstore]

theorem State.trained_fail : (s.trained fail capacity ms).n Obj.dram_train_fail = fail.val := by
  rw [State.trained, State.setStep_n, State.n_putN_ne _ _ (by decide), State.n_putN_ne _ _ (by decide),
    State.n_putN_same (State.storeWf_putN hstore _ _)]

theorem State.trained_capacity (hcap : capacity < 2 ^ 32) : (s.trained fail capacity ms).n Obj.dram_capacity = capacity := by
  rw [State.trained, State.setStep_n,
    State.n_putN_same (State.storeWf_putN (State.storeWf_putN (State.storeWf_putN hstore _ _) _ _) _ _), Nat.mod_eq_of_lt hcap]

end

theorem dramTrainingComplete_yields {s : State} (hstore : storeWf s.obj = true) (hat : s.atStep 6 = true) (fail : Fin 16)
    {capacity : Nat} (hcap : capacity < 2 ^ 32) (ms : Nat) :
    Yields (.dramTrainingComplete fail capacity ms) s fun t => t.sys.step = 9 ∧ t.n Obj.dram_state = (if fail = 0 then 2 else 3)
      ∧ t.n Obj.dram_train_fail = fail.val ∧ t.n Obj.dram_capacity = capacity ∧ (fail = 0 → t.journal = s.journal) := by
  have hstate := State.trained_state hstore fail capacity ms
  have hchannels := State.trained_fail hstore fail capacity ms
  have hsize := State.trained_capacity hstore fail capacity ms hcap
  by_cases hfail : fail = 0
  · exact ⟨_, (exec_dramTrainingComplete_at hat fail capacity ms).trans (congrArg Host.Outcome.next (if_pos hfail)), rfl, hstate,
      hchannels, hsize, fun _ => rfl⟩
  · have hn (k : Nat) : ((s.trained fail capacity ms).log 0 0x1603 (beNat 1 fail.val)).n k = (s.trained fail capacity ms).n k := by
      rw [State.n, State.n, State.get_of_obj (State.log_obj _ 0 0x1603 _ (by decide))]
    have hstep : ((s.trained fail capacity ms).log 0 0x1603 (beNat 1 fail.val)).sys.step = 9 := by
      rw [State.log_sys]
      rfl
    exact ⟨_, (exec_dramTrainingComplete_at hat fail capacity ms).trans (congrArg Host.Outcome.next (if_neg hfail)), hstep,
      (hn _).trans hstate, (hn _).trans hchannels, (hn _).trans hsize, fun h => absurd h hfail⟩

/-! ## CLIENT_TABLE_INIT_COMPLETE (R71 step 10, R328) -/

/-- Step 10: the client table is ready where training succeeded. -/
def State.tableInit (s : State) : State :=
  if s.nn Obj.dram_state = 2 then (s.setStep 10).setCt { s.serve.ct with ready := true } else s.setStep 10

/-- Ports 8 to 63 come up and the big-number engine is tested. -/
def State.portsUp (s : State) : State :=
  ((List.finRange 64).foldl (fun (v : State) (n : Fin 64) => if 8 ≤ n.val then v.refreshPort n 1 else v) s).bnTest 0

/-- The cookie keys of the present boundary are loaded. -/
def State.loadCookieKeys (s : State) : State :=
  let k := s.loadMaster.keyIndexNow
  let v := s.loadMaster.putN Obj.nts_key_number (k % 32768 : Nat)
  { v with sec := { v.sec with cookieKeys := true }, prot := { v.prot with keyIndex := some k } }

theorem State.tableInit_frame (s : State) : ∃ sys serve, s.tableInit = { s with sys, serve } := by
  unfold State.tableInit
  split <;> exact ⟨_, _, rfl⟩

section
variable {s : State} (hat : s.atStep 9 = true)
include hat

theorem exec_clientTableInitComplete_at : exec .clientTableInitComplete s = .next
    (if s.tableInit.sec.storageOff || s.tableInit.mode.cur = .kiln then s.tableInit else s.tableInit.loadCookieKeys).portsUp :=
  if_neg (by simp [hat])

theorem exec_clientTableInitComplete_noKeys (h : s.sec.storageOff = true ∨ s.mode.cur = .kiln) :
    exec .clientTableInitComplete s = .next s.tableInit.portsUp := by
  obtain ⟨_, _, hu⟩ := s.tableInit_frame
  rw [exec_clientTableInitComplete_at hat, if_pos (by simpa [hu] using h)]

theorem exec_clientTableInitComplete_keys (hstorage : s.sec.storageOff = false) (hmode : s.mode.cur ≠ .kiln) :
    exec .clientTableInitComplete s = .next s.tableInit.loadCookieKeys.portsUp := by
  obtain ⟨_, _, hu⟩ := s.tableInit_frame
  rw [exec_clientTableInitComplete_at hat, if_neg (by simp [hu, hstorage, hmode])]

end

/-! ## BRINGUP_COMPLETE (R71 step 11, R66) -/

/-- A slot that is qualifying starts its time anew. -/
def State.restartQualify (s : State) (i : Fin 16) : State :=
  if s.slots[i].state = .qualifying then
    s.setSlot i { s.slots[i] with deadline := some (s.now + ticksS (s.nn (Obj.qualify_time i))) } else s

/-- Step 11: bring-up is done and the qualify timers start. -/
def State.broughtUp (s : State) : State :=
  (List.finRange 16).foldl State.restartQualify { s with sys := { s.sys with step := 11 }, mode := { s.mode with bringupDone := true } }

theorem foldl_restartQualify_frame (l : List (Fin 16)) (s : State) : ∃ slots, l.foldl State.restartQualify s = { s with slots } := by
  induction l generalizing s with
  | nil => exact ⟨_, rfl⟩
  | cons i l ih =>
    obtain ⟨slots, h⟩ := ih (s.restartQualify i)
    refine ⟨slots, h.trans ?_⟩
    unfold State.restartQualify
    split <;> rfl

theorem State.broughtUp_frame (s : State) : ∃ slots, s.broughtUp = { s with
    slots, sys := { s.sys with step := 11 }, mode := { s.mode with bringupDone := true } } :=
  foldl_restartQualify_frame _ _

theorem State.broughtUp_flag (s : State) (k : Nat) : s.broughtUp.flag k = s.flag k := by
  obtain ⟨_, hu⟩ := s.broughtUp_frame
  rw [hu]
  rfl

theorem State.broughtUp_cur (s : State) : s.broughtUp.mode.cur = s.mode.cur := by
  obtain ⟨_, hu⟩ := s.broughtUp_frame
  rw [hu]

section
variable {s : State} (hat : s.atStep 10 = true)
include hat

theorem exec_bringupComplete_at : exec .bringupComplete s
    = .next (if s.broughtUp.flag Obj.steep_hold || s.broughtUp.mode.cur = .kiln then s.broughtUp else s.broughtUp.toMash 3) := by
  show execBringupComplete s = _
  simp only [execBringupComplete, hat, Bool.not_true, Bool.false_eq_true, if_false]
  generalize hu : List.foldl _ _ _ = u
  obtain rfl : s.broughtUp = u := hu
  rfl

theorem exec_bringupComplete_stays (h : s.flag Obj.steep_hold = true ∨ s.mode.cur = .kiln) :
    exec .bringupComplete s = .next s.broughtUp := by
  rw [exec_bringupComplete_at hat, if_pos]
  rw [s.broughtUp_flag, s.broughtUp_cur]
  simpa using h

theorem exec_bringupComplete_mash (hhold : s.flag Obj.steep_hold = false) (hmode : s.mode.cur ≠ .kiln) :
    exec .bringupComplete s = .next (s.broughtUp.toMash 3) := by
  rw [exec_bringupComplete_at hat, if_neg]
  rw [s.broughtUp_flag, s.broughtUp_cur]
  simpa using ⟨hhold, hmode⟩

end

/-! ## DOMAIN_WAKE_COMPLETE (R24) -/

theorem exec_domainWakeComplete_sky {s : State} (hwaking : s.domState 3 = 1) :
    exec (.domainWakeComplete 3) s = .next (s.setDom 3 2).skyObjects.skyAwake.skyPower := by
  show execDomainWakeComplete 3 s = _
  simp only [execDomainWakeComplete, hwaking, beq_self_eq_true, Bool.true_or, decide_true, Bool.and_self, if_true]

/-- Settles O16: each clause is the equation of its command's branch; the release reads back the straps it wrote. -/
theorem bringUp : Obligations.BringUp := by
  refine ⟨fun s b o diff dukOk tj since hw hscope hmain hsupply hosc hran htemp hrstn hwrstn hhold => ?_,
    fun s b o diff dukOk tj hhold => exec_coldResetRelease_held hhold b o diff dukOk tj,
    fun s bOk hat => exec_trimLoadComplete_copyA hat bOk, fun s hat => exec_trimLoadComplete_copyB hat,
    fun s hat => exec_trimLoadComplete_hold hat, fun s a b hwake hat => exec_tickClockLock_locks hwake hat a b,
    fun s u d k hat hsrc hbank => exec_firmwareBootCheck_flash hat hsrc hbank d,
    fun s u d hat hsrc hbank => exec_firmwareBootCheck_hold hat hsrc hbank d,
    fun s img hat hsrc hok => exec_firmwareBootCheck_downloaded hat hsrc hok,
    fun s hat hsrc => exec_firmwareBootCheck_waits hat hsrc,
    fun s fail cap ms hw hat hcap => dramTrainingComplete_yields hw.1 hat fail hcap ms,
    fun s hat => ⟨exec_clientTableInitComplete_noKeys hat, exec_clientTableInitComplete_keys hat⟩,
    fun s hat => ⟨exec_bringupComplete_stays hat, exec_bringupComplete_mash hat⟩, fun s => exec_domainWakeComplete_sky⟩
  have hget {k : Nat} (h : k < Obj.domain_state 0) := s.released_get b o diff dukOk h
  refine ⟨_, exec_coldResetRelease_due hscope hmain hsupply hosc hran htemp hrstn hwrstn hhold b o diff dukOk,
    rfl, rfl, rfl, ?_, ?_, ?_, ?_, rfl, ?_, ?_⟩
  · exact (s.released_frame b o diff dukOk).1
  · rw [State.nn, State.n, hget (by decide), State.withStraps_bootsel hw.1]
    rfl
  · rw [State.nn, State.n, hget (by decide), State.withStraps_oscsel hw.1]
    rfl
  · rw [State.flag, State.n, hget (by decide), State.withStraps_oscdiff hw.1]
    cases diff <;> rfl
  · exact (s.released_frame b o diff dukOk).2.1
  · exact (s.released_frame b o diff dukOk).2.2

end Sys2Proof.Machine
end

section
/-! The commanded modes (R76, R81-R83): SPARGE, KILN, CELLAR and its verification wakes. -/

namespace Sys2Proof.Machine

open Sys2Proof.Safety

/-! ## SPARGE_REQUEST and SPARGE_TIMEOUT (R76) -/

theorem exec_spargeRequest_taken {s : State} (hup : s.firmwareUp = true) (hok : s.spargeOk = true) (request : Bool) :
    exec (.spargeRequest request) s = .next (if request then s.enterSparge else s.leaveSparge true) :=
  if_neg (by simp [hup, hok])

theorem exec_spargeRequest_down {s : State} (hdown : s.firmwareUp = false) (request : Bool) :
    exec (.spargeRequest request) s = .next s :=
  if_pos (by simp [hdown])

theorem exec_spargeTimeout {s : State} {d : Nat} (hd : s.mode.spargeDeadline = some d) :
    exec .spargeTimeout s = .next (if d ≤ s.now then s.leaveSparge false else s) := by
  show execSpargeTimeout s = _
  simp only [execSpargeTimeout, hd]

/-! ## KILN_REQUEST and CELLAR_REQUEST (R81, R82) -/

theorem exec_kilnRequest_unlocked {s : State} (hup : s.firmwareUp = true) (hmode : s.kilnMode = true)
    (hdebug : s.nn Obj.debug_state ≠ 0) : exec .kilnRequest s = .next s.enterKiln :=
  congrArg Host.Outcome.next (if_pos (by simpa [hup, hmode] using Nat.one_le_iff_ne_zero.mpr hdebug))

theorem exec_kilnRequest_locked {s : State} (hdebug : s.nn Obj.debug_state = 0) : exec .kilnRequest s = .next s :=
  congrArg Host.Outcome.next (if_neg (by simp [hdebug]))

theorem exec_cellarRequest_taken {s : State} (hup : s.firmwareUp = true) (hok : s.cellarOk = true) :
    exec .cellarRequest s = .next s.enterCellar :=
  congrArg Host.Outcome.next (if_pos (by rw [hup, hok]; rfl))

/-! ## The wakes from CELLAR (R83) -/

theorem exec_cellarWakeTime_reached {s : State} (hidled : s.idled = true) (hvalid : s.keep.coarseValid = true)
    (hset : s.keep.wakeTime ≠ 0) (hdue : s.keep.wakeTime ≤ s.coarseNow) :
    exec .cellarWakeTime s = .next (s.assertCold 7 (ticksMs 1)) :=
  congrArg Host.Outcome.next (if_pos (by simp [hidled, hvalid, hset, hdue]))

theorem exec_cellarVerifyWake_due {s : State} {d : Nat} (hidled : s.idled = true) (hd : s.keep.verifyDue = some d) (hdue : d ≤ s.now)
    (hno : s.keep.verifyWake = none) :
    exec .cellarVerifyWake s = .next (
      let u := ((s.setDom 2 1).setDom 6 1).setDom 8 1
      (({ u with keep := { u.keep with verifyWake := some s.now, verifySample := none }, tb := {} } : State).gristBegin .verify)) :=
  if_neg (by simp [hidled, hd, hdue, hno])

section
variable {s : State} {since : Nat} (hwake : s.keep.verifyWake = some since)
include hwake

section
variable {r0 first : Nat} {f u c : Int} (hfix : s.sky.grist.fix = some (f, u, first)) (hsample : s.keep.verifySample = some (c, r0))
include hfix hsample

theorem exec_cellarVerifyEnd_agrees
    (h : ((c + rneDiv (((first : Int) - r0) * 1024) 5 - f).natAbs : Int) ≤ (s.coarseUnc + u) * 65536) :
    exec .cellarVerifyEnd s = .next ({ s with keep := { s.keep with
      coarse := f + rneDiv (((s.stamp : Int) - first) * 1024) 5, alignedAt := s.now, uncAtAlign := u } } : State).endVerify := by
  show execCellarVerifyEnd s = _
  simp only [execCellarVerifyEnd, hwake, hfix, hsample, h, if_true]

theorem exec_cellarVerifyEnd_disagrees
    (h : (s.coarseUnc + u) * 65536 < ((c + rneDiv (((first : Int) - r0) * 1024) 5 - f).natAbs : Int)) :
    exec .cellarVerifyEnd s = .next (
      let v := s.bump Obj.cellar_verify_disagree
      ({ v with keep := { v.keep with disagree := some (v.nn Obj.cellar_verify_disagree,
          unitsToNs (c + rneDiv (((first : Int) - r0) * 1024) 5 - f)) } } : State).endVerify) := by
  show execCellarVerifyEnd s = _
  simp only [execCellarVerifyEnd, hwake, hfix, hsample, Int.not_le.mpr h, if_false]

end

theorem exec_cellarVerifyEnd_noFix (hfix : s.sky.grist.fix = none) (hover : since + ticksS 5 ≤ s.now) :
    exec .cellarVerifyEnd s = .next s.endVerify := by
  show execCellarVerifyEnd s = _
  simp only [execCellarVerifyEnd, hwake, hfix, hover, decide_true, Bool.or_true, if_true]

end

/-- Settles O19: each clause is the equation of its command's branch. -/
theorem commandedModes : Obligations.CommandedModes :=
  ⟨fun _ hup hok => exec_spargeRequest_taken hup hok true, fun _ hup hok => exec_spargeRequest_taken hup hok false,
    fun _ r hdown => exec_spargeRequest_down hdown r,
    fun _ _ hd hdue => (exec_spargeTimeout hd).trans (congrArg Host.Outcome.next (if_pos hdue)),
    fun _ _ hd hearly => (exec_spargeTimeout hd).trans (congrArg Host.Outcome.next (if_neg (Nat.not_le.mpr hearly))),
    fun _ => exec_kilnRequest_unlocked, fun _ => exec_kilnRequest_locked, fun _ => exec_cellarRequest_taken,
    fun _ => exec_cellarWakeTime_reached, fun _ _ => exec_cellarVerifyWake_due,
    fun _ _ _ _ _ _ _ hwake hfix hsample => exec_cellarVerifyEnd_agrees hwake hfix hsample,
    fun _ _ _ _ _ _ _ hwake hfix hsample => exec_cellarVerifyEnd_disagrees hwake hfix hsample, fun _ _ => exec_cellarVerifyEnd_noFix⟩

end Sys2Proof.Machine
end

section
/-! Firmware (R79, R358), debug access (R362) and boundary scan (R361). -/

namespace Sys2Proof.Machine

open Sys2Proof.Safety

/-! ## FW_VERIFY and FW_ACTIVATE (R358, R77) -/

section
variable {s : State} (hup : s.firmwareUp = true)
include hup

theorem exec_fwVerify_passed (hok : s.fwCause (s.flash.image (1 - s.nn Obj.fw_running_bank)) = 0) :
    exec .fwVerify s = .next (((s.putN Obj.fw_staged_status 3).putB Obj.fw_verify false).logSec 0x1406
      (be 1 1 ++ be 4 (fwImageVersion (s.flash.image (1 - s.nn Obj.fw_running_bank))))) := by
  show execFwVerify s = _
  simp only [execFwVerify, hup, hok, Bool.not_true, Bool.false_eq_true, if_false, if_true]

theorem exec_fwVerify_failed (hbad : s.fwCause (s.flash.image (1 - s.nn Obj.fw_running_bank)) ≠ 0) :
    exec .fwVerify s = .next (((s.putN Obj.fw_staged_status 4).putB Obj.fw_verify false).logSec 0x1406
      (be 1 2 ++ be 4 (fwImageVersion (s.flash.image (1 - s.nn Obj.fw_running_bank))))) := by
  show execFwVerify s = _
  simp only [execFwVerify, hup, hbad, Bool.not_true, Bool.false_eq_true, if_false]

theorem exec_fwActivate_starts (hcan : s.canActivate = true) : exec .fwActivate s = .next s.activateFirmware :=
  congrArg Host.Outcome.next (if_pos (by rw [hup, hcan]; rfl))

theorem exec_debugChallenge_up : exec .debugChallenge s = .next s.makeChallenge := congrArg Host.Outcome.next (if_pos hup)

theorem exec_debugResponse_up (r : Bytes) : exec (.debugResponse r) s = .next (s.debugRespond r) :=
  congrArg Host.Outcome.next (if_pos hup)

end

theorem exec_fwActivate_refused {s : State} (hcan : s.canActivate = false) : exec .fwActivate s = .next s :=
  congrArg Host.Outcome.next (if_neg (by rw [hcan, Bool.and_false]; decide))

/-! ## ACTIVATION_COMPLETE (R79) -/

/-- The control domain out of its restart on the image of `bank`. -/
def State.onImage (s : State) (bank : Nat) : State :=
  let u : State := { s.releaseSide 6 true with sys := { (s.releaseSide 6 true).sys with activation := none, wdAt := s.now } }
  ((u.putN Obj.fw_running_bank bank).putN Obj.fw_running_version (fwImageVersion (s.flash.image bank))).putN Obj.fw_staged_status 0

theorem exec_activationComplete_stays {s : State} {since : Nat} (hact : s.sys.activation = some since)
    (hexit : s.mode.spargeExit = none) : exec .activationComplete s = .next (s.onImage s.flash.boot.bank) := by
  have hmode : (s.onImage s.flash.boot.bank).mode.spargeExit = none := hexit
  have hrun : exec .activationComplete s = .next (match (s.onImage s.flash.boot.bank).mode.spargeExit with
      | some c => (s.onImage s.flash.boot.bank).exitSparge c
      | none => s.onImage s.flash.boot.bank) := if_neg (by simp [hact])
  rw [hrun, hmode]

section
variable {s : State} (hstore : storeWf s.obj = true) (bank : Nat)
include hstore

theorem State.onImage_running_bank : (s.onImage bank).nn Obj.fw_running_bank = bank := by
  rw [State.nn, State.onImage, State.n_putN_ne _ _ (by decide), State.n_putN_ne _ _ (by decide), State.n_putN_same (by exact hstore),
    Int.toNat_natCast]

theorem State.onImage_staged_status : (s.onImage bank).nn Obj.fw_staged_status = 0 :=
  State.nn_putN_same (State.storeWf_putN (State.storeWf_putN (by exact hstore) _ _) _ _) _ _

end

/-! ## DEBUG_CHALLENGE_EXPIRY (R362) -/

theorem exec_debugChallengeExpiry {s : State} {c : Bytes} {since : Nat} (hc : s.sec.challenge = some (c, since)) :
    exec .debugChallengeExpiry s
      = .next (if since + ticksS 300 ≤ s.now then { s with sec := { s.sec with challenge := none } } else s) := by
  show execDebugChallengeExpiry s = _
  simp only [execDebugChallengeExpiry, hc]

/-- Settles O20: each clause is the equation of its command's branch; the activation's end reads back the objects it wrote. -/
theorem firmwareAndDebug : Obligations.FirmwareAndDebug := by
  refine ⟨fun s => exec_fwVerify_passed, fun s => exec_fwVerify_failed, fun s => exec_fwActivate_starts, fun s => exec_fwActivate_refused,
    fun s since hw hact hexit => ⟨_, exec_activationComplete_stays hact hexit, rfl, rfl, ?_, ?_, rfl, rfl, rfl, rfl, rfl⟩,
    fun s => exec_debugChallenge_up, fun s r hup => exec_debugResponse_up hup r, fun s c since hc hdue => ?_,
    fun s c since hc hearly => ?_, fun s => rfl, fun s => rfl, fun s => rfl, fun s => rfl⟩
  · exact State.onImage_running_bank hw.1 _
  · exact State.onImage_staged_status hw.1 _
  · rw [exec_debugChallengeExpiry hc, if_pos hdue]
  · rw [exec_debugChallengeExpiry hc, if_neg (Nat.not_le.mpr hearly)]

end Sys2Proof.Machine
end

section
/-! Announce messages and what firmware sends for PTP (R311-R313, R316-R318). -/

namespace Sys2Proof.Machine

open Sys2Proof.Safety

/-! ## PTP ports (R310) -/

theorem portIns_find (l : List (Nat × PtpPort)) (n : Nat) (x : PtpPort) :
    (portIns l n x).find? (fun p => p.1 == n) = some (n, x) := by
  induction l with
  | nil => simp [portIns]
  | cons p l ih =>
    obtain ⟨k, y⟩ := p
    by_cases hlt : n < k
    · simp [portIns, hlt]
    · by_cases heq : k = n
      · simp [portIns, heq]
      · simp [portIns, hlt, heq, ih]

/-- A PTP port reads as it was set. -/
@[simp] theorem State.ptpPort_setPtpPort (s : State) (i : Fin 4) (n : Nat) (x : PtpPort) : (s.setPtpPort i n x).ptpPort i n = x := by
  simp [State.ptpPort, State.setPtpPort, State.setInst, portIns_find]

/-! ## Posting an egress descriptor (R266, R267) -/

section
variable {s t : State} (h : Answered s t)
include h

theorem Answered.tb : t.tb = s.tb := by obtain ⟨_, _, _, _, _, _, rfl⟩ := h; rfl

theorem Answered.prot : t.prot = s.prot := by obtain ⟨_, _, _, _, _, _, rfl⟩ := h; rfl

end

section
variable (s : State) (n : Fin 64) {f : EFrame}

@[simp] theorem State.post_obj : (s.post n f).obj = s.obj := (s.post_answered n f).obj

@[simp] theorem State.post_tb : (s.post n f).tb = s.tb := (s.post_answered n f).tb

@[simp] theorem State.post_prot : (s.post n f).prot = s.prot := (s.post_answered n f).prot

@[simp] theorem State.post_ptpPort (i : Fin 4) (m : Nat) : (s.post n f).ptpPort i m = s.ptpPort i m := by
  simp only [State.ptpPort, State.post_prot]

/-- Posting leaves a PTP port as it was set before. -/
theorem State.ptpPort_post_setPtpPort (i : Fin 4) (m : Nat) (x : PtpPort) : ((s.setPtpPort i m x).post n f).ptpPort i m = x := by
  rw [State.post_ptpPort, State.ptpPort_setPtpPort]

/-- A frame of the firmware's own goes on ring 130: its place in the packet buffer and its sequence are set. -/
theorem State.post_ports (h : f.cls = 3) : (s.post n f).ports = s.ports.set n { s.ports[n] with
    egress := s.ports[n].egress ++ [{ f with buffer := s.serve.bufNext, seq := s.serve.seq130 }] } := by
  have hring : (if f.cls = 1 then 128 else if f.cls = 3 then 130 else 0) = 130 := by simp [h]
  unfold State.post State.toEgress
  rw [hring]
  rfl

theorem State.post_egress (h : f.cls = 3) : (s.post n f).ports[n].egress
    = s.ports[n].egress ++ [{ f with buffer := s.serve.bufNext, seq := s.serve.seq130 }] := by
  simp [State.post_ports s n h]

theorem State.post_port_ne (h : f.cls = 3) {m : Fin 64} (hm : m ≠ n) : (s.post n f).ports[m] = s.ports[m] := by
  simp [State.post_ports s n h, Vector.getElem_set_ne, Fin.val_ne_of_ne hm.symm]

end

/-! ## ANNOUNCE_RECEIVE and ANNOUNCE_RECEIPT_TIMEOUT (R79, R311, R313) -/

section
variable {s : State} (hup : s.firmwareUp = true)
include hup

section
variable {t : State} {p : Pkt} (htake : s.takeRing4 11 = some (p, t))
include htake

theorem exec_announceReceive_taken {u : State} {i : Fin 4} (hinst : t.instOf p.port p.transport (p.data.drop p.payload) = some i)
    (hsec : t.secured? i (p.data.drop p.payload) = (true, u)) :
    exec .announceReceive s = .next (
      let d := annOf (p.data.drop p.payload)
      let x := u.ptpPort i p.port
      let old := x.foreign.find? fun f => f.data.sender == d.sender
      (u.setPtpPort i p.port { x with
        foreign := { data := d, times := (u.arrival p :: (old.map fun f => f.times).getD []).take 8, address := p.unicastFrom }
          :: x.foreign.filter (fun f => f.data.sender != d.sender),
        timeoutAt := some (u.arrival p + u.nn (Obj.announce_timeout i) * logTicks (u.logAnnounce i)) }).runBmca i) := by
  show execAnnounceReceive s = _
  simp only [execAnnounceReceive, hup, htake, hinst, hsec, Bool.not_true, Bool.false_eq_true, if_false]

theorem exec_announceReceive_noInstance (hinst : t.instOf p.port p.transport (p.data.drop p.payload) = none) :
    exec .announceReceive s = .next (t.bump (Obj.program_counters 12)) := by
  show execAnnounceReceive s = _
  simp only [execAnnounceReceive, hup, htake, hinst, Bool.not_true, Bool.false_eq_true, if_false]

end

theorem exec_announceReceiptTimeout_due {i : Fin 4} {n : Fin 64} {at' : Nat} (hat : (s.ptpPort i n).timeoutAt = some at')
    (hdue : at' ≤ s.now) (hnone : s.announceWaits i n = false) : exec (.announceReceiptTimeout i n) s
      = .next ((s.setPtpPort i n { s.ptpPort i n with timeoutAt := none, foreign := [] }).runBmca i) := by
  show execAnnounceReceiptTimeout i n s = _
  simp only [execAnnounceReceiptTimeout, hat, hup, hdue, hnone, decide_true, Bool.not_false, Bool.and_self, if_true]

end

theorem exec_announceReceive_none {s : State} (htake : s.takeRing4 11 = none) : exec .announceReceive s = .next s := by
  show execAnnounceReceive s = _
  simp only [execAnnounceReceive, htake, ite_self]

theorem exec_announceReceiptTimeout_waits {s : State} {i : Fin 4} {n : Fin 64} {at' : Nat}
    (hat : (s.ptpPort i n).timeoutAt = some at') (hwait : s.now < at' ∨ s.announceWaits i n = true) :
    exec (.announceReceiptTimeout i n) s = .next s := by
  show execAnnounceReceiptTimeout i n s = _
  have hno : (s.firmwareUp && decide (at' ≤ s.now) && !s.announceWaits i n) = false := by
    rcases hwait with hearly | hring
    · simp [Nat.not_le.mpr hearly]
    · simp [hring]
  simp only [execAnnounceReceiptTimeout, hat, hno, Bool.false_eq_true, if_false]

/-! ## DELAY_REQ_SEND and PDELAY_REQ_SEND (R313, R316) -/

section
variable {s : State} {i : Fin 4} {n : Fin 64} (hawake : s.serveAwake = true) (hrun : s.serve.stopped = false)
include hawake hrun

theorem exec_delayReqSend_due (hrole : s.receives i n = true)
    (hstate : s.nn (Obj.port_state i n) = 9 ∨ s.nn (Obj.port_state i n) = 8) (he2e : s.isP2p i = false)
    (hdue : (s.ptpPort i n).reqNext ≤ s.now) :
    exec (.delayReqSend i n) s = .next ((s.setPtpPort i n { s.ptpPort i n with
        reqSeq := ((s.ptpPort i n).reqSeq + 1) % 65536, reqNext := s.now + logTicks (s.logDelay i), dl3 := none }).post n
      { cls := 3, after := .request i false, data := wrap (s.toParent i n).1
          (s.ptpMessage i n 1 (s.toParent i n).2 0 (s.ptpPort i n).reqSeq 0x7F (List.replicate 10 0)) }) := by
  have hfollows : s.followsParent i n = true := by simpa [State.followsParent] using hstate
  exact if_neg (by simp [hawake, hrun, hrole, hfollows, he2e, hdue])

theorem exec_pdelayReqSend_due (hmember : s.member i n = true) (hp2p : s.isP2p i = true) (hmode : s.mode.cur ≠ .steep)
    (hlink : s.linkUp n = true) (hrole : s.transmitMode = true ∨ s.nn (Obj.port_state i n) ≠ 6)
    (hdue : (s.ptpPort i n).pdelayNext ≤ s.now) :
    exec (.pdelayReqSend i n) s = .next ((s.setPtpPort i n { s.ptpPort i n with
        pdelaySeq := ((s.ptpPort i n).pdelaySeq + 1) % 65536, pdelayNext := s.now + logTicks (s.logDelay i), pd1 := none, pd24 := none,
        pdelayGood := if (s.ptpPort i n).pd1.isSome then 0 else (s.ptpPort i n).pdelayGood }).post n
      { cls := 3, after := .request i true, data := wrap (s.multicastHeader i n true true)
          (s.ptpMessage i n 2 0 0 (s.ptpPort i n).pdelaySeq 0x7F (List.replicate 20 0)) }) := by
  have hanswers : s.answersPeer i n = true := by simpa [State.answersPeer, hp2p, hmember, hmode, hlink] using hrole
  exact if_neg (by simp [hawake, hrun, hanswers, hdue])

end

theorem exec_delayReqSend_early {s : State} {i : Fin 4} {n : Fin 64} (hearly : s.now < (s.ptpPort i n).reqNext) :
    exec (.delayReqSend i n) s = .next s :=
  if_pos (by simp [Nat.not_le.mpr hearly])

theorem exec_pdelayReqSend_silent {s : State} {i : Fin 4} {n : Fin 64}
    (h : s.mode.cur = .steep ∨ s.transmitMode = false ∧ s.nn (Obj.port_state i n) = 6) : exec (.pdelayReqSend i n) s = .next s := by
  have hanswers : s.answersPeer i n = false := by
    rcases h with hmode | ⟨htransmit, hstate⟩
    · simp [State.answersPeer, hmode]
    · simp [State.answersPeer, htransmit, hstate]
  exact if_pos (by simp [hanswers])

/-! ## PTP_MANAGEMENT (R317) -/

/-- The TLV that answers a management message: the data set of a GET, else NOT_SUPPORTED. -/
def State.managementTlv (s : State) (i : Fin 4) (n act id : Nat) : Bytes :=
  match if act = 0 then s.managementData i n id else none with
  | some d => [0, 1] ++ beNat 2 (2 + d.length) ++ beNat 2 id ++ d
  | none => [0, 2, 0, 8, 0, 6] ++ beNat 2 id ++ [0, 0, 0, 0]

theorem State.managementTlv_data {s : State} {i : Fin 4} {n id : Nat} {d : Bytes} (h : s.managementData i n id = some d) (act : Nat) :
    s.managementTlv i n act id = if act = 0 then [0, 1] ++ beNat 2 (2 + d.length) ++ beNat 2 id ++ d
      else [0, 2, 0, 8, 0, 6] ++ beNat 2 id ++ [0, 0, 0, 0] := by
  by_cases hget : act = 0
  · simp only [State.managementTlv, hget, if_true, h]
  · simp only [State.managementTlv, hget, if_false]

theorem State.managementTlv_none {s : State} {i : Fin 4} {n id : Nat} (h : s.managementData i n id = none) (act : Nat) :
    s.managementTlv i n act id = [0, 2, 0, 8, 0, 6] ++ beNat 2 id ++ [0, 0, 0, 0] := by
  unfold State.managementTlv
  rw [h, ite_self]

/-- The TLV is what a management message is answered with by its action (R317). -/
theorem State.managementTlv_eq {s : State} {i : Fin 4} {n act id : Nat} {tlv : Bytes}
    (h : match s.managementData i n id with
      | some d => tlv = if act = 0 then [0, 1] ++ beNat 2 (2 + d.length) ++ beNat 2 id ++ d
          else [0, 2, 0, 8, 0, 6] ++ beNat 2 id ++ [0, 0, 0, 0]
      | none => tlv = [0, 2, 0, 8, 0, 6] ++ beNat 2 id ++ [0, 0, 0, 0]) : s.managementTlv i n act id = tlv := by
  cases hdata : s.managementData i n id with
  | some d =>
    rw [hdata] at h
    exact (State.managementTlv_data hdata act).trans h.symm
  | none =>
    rw [hdata] at h
    exact (State.managementTlv_none hdata act).trans h.symm

/-- The headers of the answer and the first byte of its flag field: to the group, or to the sender of a unicast message. -/
def State.managementHeader (s : State) (i : Fin 4) (p : Pkt) : Bytes × Nat :=
  if fieldN p.data 0 1 % 2 = 1 then (s.multicastHeader i p.port false false, 0) else (replyHeader p 320, 4)

/-- The frame that answers a management message of an action. -/
def State.managementReply (s : State) (i : Fin 4) (p : Pkt) (act : Nat) : EFrame :=
  let msg := p.data.drop p.payload
  { cls := 3
    data := wrap (s.managementHeader i p).1 (s.secured i (s.ptpMessage i p.port 13 (s.managementHeader i p).2 0 (fieldN msg 30 2) 0x7F
      (field msg 20 10 ++ field msg 44 2 ++ [if act = 3 then 4 else 2, 0] ++ s.managementTlv i p.port act (fieldN msg 52 2)))) }

section
variable {s t : State} {p : Pkt} (hup : s.firmwareUp = true) (htake : s.takeRing4 13 = some (p, t))
include hup htake

section
variable {u : State} {i : Fin 4} (hinst : t.instOf p.port p.transport (p.data.drop p.payload) = some i)
  (hsec : t.secured? i (p.data.drop p.payload) = (true, u))
include hinst hsec

theorem exec_ptpManagement_answered (h : p.port < 64) (hmode : u.mode.cur ≠ .steep)
    (hrole : u.transmitMode = true ∨ u.nn (Obj.port_state i p.port) ≠ 6) {act : Nat}
    (hact : fieldN (p.data.drop p.payload) 46 1 % 16 = act) (hkind : act = 0 ∨ act = 1 ∨ act = 3) :
    exec .ptpManagement s = .next (u.post ⟨p.port, h⟩ (u.managementReply i p act)) := by
  have hspeaks : (decide (u.mode.cur = .steep) || (!u.transmitMode && u.nn (Obj.port_state i p.port) == ptpTransmitter)) = false := by
    simpa [hmode, or_iff_not_imp_left] using hrole
  have hanswers : (decide (act = 0) || decide (act = 1) || decide (act = 3)) = true := by simpa [or_assoc] using hkind
  have haction (l : Bytes) : l ++ beNat 1 (if act = 3 then 4 else 2) ++ [0] = l ++ [if act = 3 then 4 else 2, 0] := by
    split <;> simp [beNat]
  show execPtpManagement s = _
  simp only [execPtpManagement, hup, htake, hinst, hsec, hact, hspeaks, hanswers, h, Bool.not_true, Bool.or_self, Bool.false_eq_true,
    if_false, dite_true]
  rw [haction, State.managementReply, State.managementHeader]
  split <;> rfl

theorem exec_ptpManagement_silent (h : u.mode.cur = .steep ∨ u.transmitMode = false ∧ u.nn (Obj.port_state i p.port) = 6) :
    exec .ptpManagement s = .next u := by
  have hsilent : (decide (u.mode.cur = .steep) || (!u.transmitMode && u.nn (Obj.port_state i p.port) == ptpTransmitter)) = true := by
    rcases h with hmode | ⟨htransmit, hstate⟩
    · simp [hmode]
    · simp [htransmit, hstate]
  show execPtpManagement s = _
  simp only [execPtpManagement, hup, htake, hinst, hsec, Bool.not_true, Bool.false_eq_true, if_false]
  simp [hsilent]

end

theorem exec_ptpManagement_noInstance (hinst : t.instOf p.port p.transport (p.data.drop p.payload) = none) :
    exec .ptpManagement s = .next (t.bump (Obj.program_counters 12)) := by
  show execPtpManagement s = _
  simp only [execPtpManagement, hup, htake, hinst, Bool.not_true, Bool.false_eq_true, if_false]

end

theorem exec_ptpManagement_none {s : State} (htake : s.takeRing4 13 = none) : exec .ptpManagement s = .next s := by
  show execPtpManagement s = _
  simp only [execPtpManagement, htake, ite_self]

/-! ## SM_TLV_SEND (R317) -/

theorem be_length (w : Nat) (x : Int) : (be w x).length = w := beNat_length w _

/-- The ST 2059-2 metadata of a port, after the identifiers of the organisation extension. -/
def State.smData (s : State) (i : Fin 4) : Bytes :=
  [0x68, 0x97, 0xE8, 0, 0, 1] ++ List.replicate 8 0 ++ beNat 1 s.lockingStatus ++ [0] ++ be 4 (s.n (Obj.sm_local_offset i))
    ++ be 4 (s.n Obj.leap_delta) ++ be 6 (if s.n Obj.leap_delta = 0 then 0 else s.n Obj.leap_time / unitsPerS) ++ List.replicate 18 0

theorem State.smData_length (s : State) (i : Fin 4) : (s.smData i).length = 48 := by simp [State.smData, be_length]

theorem exec_smTlvSend_due {s : State} {i : Fin 4} {n : Fin 64} (hup : s.firmwareUp = true) (hrun : s.serve.stopped = false)
    (hprofile : s.profile i = 4) (hrole : s.transmits i n = true) (hdue : (s.ptpPort i n).smNext ≤ s.now) :
    exec (.smTlvSend i n) s = .next ((s.setPtpPort i n { s.ptpPort i n with
        smNext := s.now + ticksS 1, managementSeq := ((s.ptpPort i n).managementSeq + 1) % 65536 }).post n
      { cls := 3, data := wrap (s.multicastHeader i n false false) (s.secured i
          (s.ptpMessage i n 13 0 0 (s.ptpPort i n).managementSeq 0x7F
            (List.replicate 10 0xFF ++ [0, 0, 3, 0] ++ [0, 3] ++ beNat 2 (s.smData i).length ++ s.smData i))) }) :=
  if_neg (by simp [hup, hrun, hprofile, hrole, hdue])

theorem exec_smTlvSend_otherProfile {s : State} {i : Fin 4} (hprofile : s.profile i ≠ 4) (n : Fin 64) :
    exec (.smTlvSend i n) s = .next s :=
  if_pos (by simp [hprofile])

/-! ## UNICAST_RENEW (R318) -/

theorem exec_unicastRenew_first {s : State} {i m : Fin 4} {n : Fin 64} (hawake : s.serveAwake = true) (hrun : s.serve.stopped = false)
    (hon : s.unicastOn i = true) (hrole : s.receives i n = true) (hport : s.nn (Obj.receiver_port i) = n.val)
    (hlength : (s.octs (Obj.unicast_masters i m)).length = 16) (hset : s.octs (Obj.unicast_masters i m) ≠ List.replicate 16 0)
    (hnew : s.prot.insts[i].renewals = []) :
    ∃ data, exec (.unicastRenew i m 11) s = .next ((s.setInst i { s.prot.insts[i] with
      signalSeq := (s.prot.insts[i].signalSeq + 1) % 65536,
      renewals := [{ master := m, message := 11, due := s.now + ticksS 8 }] }).post n { cls := 3, data }) := by
  have hsome : n.val ≠ 255 := by omega
  show ∃ data, execUnicastRenew i m 11 s = _
  simp only [execUnicastRenew, hport, hsome, hnew, hawake, hrun, hon, hrole, hlength, hset, n.isLt, List.find?_nil, List.filter_nil,
    ne_eq, not_false_eq_true, decide_true, Bool.not_true, Bool.not_false, Bool.true_or, Bool.and_self,
    Bool.false_eq_true, if_true, if_false, dite_true]
  exact ⟨_, rfl⟩

theorem exec_unicastRenew_off {s : State} {i : Fin 4} (hoff : s.unicastOn i = false) (m : Fin 4) (k : Nat) :
    exec (.unicastRenew i m k) s = .next s := by
  show execUnicastRenew i m k s = _
  simp only [execUnicastRenew, hoff, Bool.and_false, Bool.false_and, Bool.not_false, if_true]
  split
  · rfl
  · split <;> rfl

/-- Settles O37: each clause is the equation of its command's branch; a posted frame joins the egress of its port alone. -/
theorem ptpCommands : Obligations.PtpCommands := by
  refine ⟨fun s t u p i hup htake hinst hsec => exec_announceReceive_taken hup htake hinst hsec,
    fun s t p hup htake hinst => exec_announceReceive_noInstance hup htake hinst, fun s => exec_announceReceive_none,
    fun s i n at' hup hat hdue hnone => exec_announceReceiptTimeout_due hup hat hdue hnone,
    fun s i n at' hat hwait => exec_announceReceiptTimeout_waits hat hwait,
    fun s i n hawake hrun hrole hstate he2e hdue => ⟨_, exec_delayReqSend_due hawake hrun hrole hstate he2e hdue, ?_⟩,
    fun s i n => exec_delayReqSend_early,
    fun s i n hawake hrun hmember hp2p hmode hlink hrole hdue =>
      ⟨_, exec_pdelayReqSend_due hawake hrun hmember hp2p hmode hlink hrole hdue, ?_⟩,
    fun s i n => exec_pdelayReqSend_silent,
    fun s t u p i h act hup htake hinst hsec hmode hrole hact hkind tlv hdr flags htlv hhdr =>
      ⟨_, exec_ptpManagement_answered hup htake hinst hsec h hmode hrole hact hkind, ?_⟩,
    fun s t u p i hup htake hinst hsec => exec_ptpManagement_silent hup htake hinst hsec,
    fun s t p hup htake hinst => exec_ptpManagement_noInstance hup htake hinst, fun s => exec_ptpManagement_none,
    fun s i n hup hrun hprofile hrole hdue => ⟨_, exec_smTlvSend_due hup hrun hprofile hrole hdue, ?_⟩,
    fun s i n hprofile => exec_smTlvSend_otherProfile hprofile n,
    fun s i m n hawake hrun hon hrole hport hlength hset hnew => ?_, fun s i m k hoff => exec_unicastRenew_off hoff m k⟩
  · exact ⟨State.post_obj .., State.post_tb .., fun m hm => State.post_port_ne _ n rfl hm,
      congrArg PtpPort.reqSeq (State.ptpPort_post_setPtpPort ..), congrArg PtpPort.reqNext (State.ptpPort_post_setPtpPort ..),
      _, State.post_egress _ n rfl, rfl, rfl, rfl, rfl⟩
  · exact ⟨State.post_obj .., State.post_tb .., fun m hm => State.post_port_ne _ n rfl hm,
      congrArg PtpPort.pdelaySeq (State.ptpPort_post_setPtpPort ..), congrArg PtpPort.pdelayGood (State.ptpPort_post_setPtpPort ..),
      _, State.post_egress _ n rfl, rfl, rfl, rfl, rfl⟩
  · have hheader : u.managementHeader i p = (hdr, flags) := by
      unfold State.managementHeader
      by_cases hgroup : fieldN p.data 0 1 % 2 = 1
      · rw [if_pos hgroup] at hhdr ⊢
        rw [hhdr.1, hhdr.2]
      · rw [if_neg hgroup] at hhdr ⊢
        rw [hhdr.1, hhdr.2]
    refine ⟨_, State.post_egress _ _ rfl, rfl, ?_⟩
    rw [← State.managementTlv_eq htlv]
    simp only [State.managementReply, hheader]
  · refine ⟨State.post_obj .., congrArg PtpPort.smNext (State.ptpPort_post_setPtpPort ..),
      congrArg PtpPort.managementSeq (State.ptpPort_post_setPtpPort ..), _, State.post_egress _ n rfl, rfl, ?_⟩
    have hlength : beNat 2 48 = [0, 48] := rfl
    simp only [State.smData_length, hlength]
    simp only [State.smData, List.append_assoc, List.cons_append, List.nil_append]
  · obtain ⟨data, hexec⟩ := exec_unicastRenew_first hawake hrun hon hrole hport hlength hset hnew
    refine ⟨_, hexec, State.post_obj .., ?_, ?_, _, State.post_egress _ n rfl, rfl, rfl⟩
    · simp [State.setInst]
    · simp [State.setInst]

end Sys2Proof.Machine
end

section
/-! A step (R85): the command at the front of the queue, or a tick, in which nothing but the tick itself moves the raw counter. -/

namespace Sys2Proof.Machine

open Sys2Proof.Safety

/-! ## Operations that leave the timebase alone

The lemmas form one set for `simp`, which follows an operation's branches by `ite_tb` and its loops by `foldl_tb` to the operations
that it calls. -/

theorem ite_tb (p : Prop) [Decidable p] (s t : State) : (if p then s else t).tb = if p then s.tb else t.tb :=
  apply_ite State.tb p s t

@[simp] theorem foldl_tb {α : Type} {f : State → α → State} (hf : ∀ s a, (f s a).tb = s.tb) (l : List α) (s : State) :
    (l.foldl f s).tb = s.tb := by
  induction l generalizing s with
  | nil => rfl
  | cons a l ih => exact (ih (f s a)).trans (hf s a)

/-! ### Frames that serving stops discard (R304, R420) -/

@[simp] theorem State.countE_tb (s : State) (e : Fin 8) (code w : Nat) : (s.countE e code w).tb = s.tb := rfl

@[simp] theorem State.storeSample_tb (s : State) (e : Fin 8) (rec : Bytes) : (s.storeSample e rec).tb = s.tb := by
  simp [State.storeSample, ite_tb]

@[simp] theorem State.sampleEnded_tb (s : State) (e : Fin 8) (x : EndedThread) (depart : Option Nat) :
    (s.sampleEnded e x depart).tb = s.tb := by
  simp [State.sampleEnded, ite_tb]

@[simp] theorem State.emitDone_tb (s : State) (owner : Option (Fin 8 × Fin 16 × Nat)) (port : Nat) (r : Option (Nat × Nat)) :
    (s.emitDone owner port r).tb = s.tb := by
  rcases owner with _ | ⟨e, t, serial⟩
  · rfl
  · simp only [State.emitDone, ite_tb, State.setThread_tb, State.countE_tb, ite_self]
    generalize List.find? _ _ = ended
    cases ended <;> simp [ite_tb]

@[simp] theorem State.dropEgress_tb (s : State) (n : Fin 64) (p : EFrame → Bool) (counter : Nat) :
    (s.dropEgress n p counter).tb = s.tb := by
  simp [State.dropEgress]

@[simp] theorem State.stopServing_tb (s : State) (cause : Nat) : (s.stopServing cause).tb = s.tb := by
  simp [State.stopServing, ite_tb]

/-! ### Work that waits while its bucket moves (R283) -/

@[simp] theorem State.wakePair_tb (s : State) (p : Fin 4) : (s.wakePair p).tb = s.tb := by
  simp [State.wakePair, ite_tb]

@[simp] theorem State.classDiscard_tb (s : State) (e : Fin 8) (c : Fin 3) : (s.classDiscard e c).tb = s.tb := by
  unfold State.classDiscard
  dsimp only
  split
  · rfl
  · exact State.log_tb ..

@[simp] theorem State.enqueue_tb (s : State) (w : Work) (c : Fin 3) : (s.enqueue w c).tb = s.tb := by
  simp [State.enqueue, ite_tb, apply_dite State.tb]

@[simp] theorem State.moveBuckets_tb (s : State) : s.moveBuckets.tb = s.tb := by
  simp [State.moveBuckets, ite_tb]

/-! ### Counter blocks (R409, R415) -/

@[simp] theorem State.blockTick_tb (s : State) (n : Fin 16) : (s.blockTick n).tb = s.tb := by
  unfold State.blockTick
  rw [ite_tb]
  exact ite_self _

@[simp] theorem State.armBlock_tb (s : State) (n : Fin 16) : (s.armBlock n).tb = s.tb := by
  unfold State.armBlock
  refine foldl_tb (fun _ _ => ?_) _ _
  rfl

/-! ### The stages of a warm release (R388) -/

@[simp] theorem State.admitHeld_tb (s : State) : s.admitHeld.tb = s.tb := by
  simp [State.admitHeld]

@[simp] theorem State.revertTrial_tb (s : State) : s.revertTrial.tb = s.tb := by
  simp [State.revertTrial, ite_tb, State.setBoot, State.logTrial, State.logSec]

theorem State.warmStep2_tb (s : State) : s.warmStep2.tb = s.tb := by
  unfold State.warmStep2
  dsimp only
  split <;> simp only [State.log_tb, State.putN_tb, State.revertTrial_tb, State.admitHeld_tb, State.setDom_tb,
    foldl_tb, implies_true]

@[simp] theorem State.loadKeys_tb (s : State) : s.loadKeys.tb = s.tb := by
  unfold State.loadKeys
  split <;> rfl

@[simp] theorem State.warmObjects_tb (s : State) : s.warmObjects.tb = s.tb := by
  unfold State.warmObjects
  refine foldl_tb (fun _ _ => ?_) _ _
  rfl

@[simp] theorem State.serveQuiet_tb (s : State) : s.serveQuiet.tb = s.tb := by
  simp [State.serveQuiet, ite_tb]

theorem State.warmStep4_tb (s : State) : s.warmStep4.tb = s.tb := by
  unfold State.warmStep4
  dsimp only
  split <;> simp [State.bnShow, ite_tb]

@[simp] theorem State.deliverPulses_tb (s : State) (n : Fin 64) : (s.deliverPulses n).tb = s.tb := by
  simp [State.deliverPulses, ite_tb]

@[simp] theorem State.warmTick_tb (s : State) : s.warmTick.tb = s.tb := by
  unfold State.warmTick
  split
  · rfl
  · simp [ite_tb, State.warmStep2_tb, State.warmStep4_tb, State.releaseSide]

/-! ## The segment of a scheduled owner step (R91): the raw counter stands -/

theorem State.wantSegment_raw (s : State) (k : SegKind) : (s.wantSegment k).tb.raw = s.tb.raw := by
  simp [State.wantSegment, State.logClamp, ite_tb]

theorem State.fixAt_raw (s : State) (w : SegRequest) (tick : Nat) : (s.fixAt w tick).tb.raw = s.tb.raw := by
  simp [State.fixAt, State.logClamp, ite_tb]

theorem State.reserveStep_raw (s : State) (id : Nat) (k : SegKind) (tick : Nat) : (s.reserveStep id k tick).tb.raw = s.tb.raw := by
  unfold State.reserveStep
  dsimp only
  split
  · exact (State.fixAt_raw (s.wantSegment k) _ tick).trans (s.wantSegment_raw k)
  · exact s.wantSegment_raw k

theorem State.reserveSteps_raw (s : State) : s.reserveSteps.tb.raw = s.tb.raw := by
  unfold State.reserveSteps
  split
  · dsimp only
    split
    · exact s.reserveStep_raw ..
    · rfl
  · rfl

/-! ## A step -/

/-- The tick itself moves the counter; of what follows, the step segment's reservation leaves it and the rest the timebase. -/
theorem State.tick_raw (s : State) : s.tick.tb.raw = if s.tb.running then s.tb.raw + 1 else s.tb.raw := by
  simp [State.tick, ite_tb, State.reserveSteps_raw]

theorem step_of_pending_nil {s : State} (h : s.pending = []) : step s = .next s.tick := by simp only [step, h]

theorem step_of_pending_cons {s : State} {c : Instr} {rest : List Instr} (h : s.pending = c :: rest) :
    step s = exec c { s with pending := rest } := by simp only [step, h]

/-- Settles O1: the two branches of a step; what a tick moves apart from elapsed time and the raw counter touches neither them nor
the queue. -/
theorem stepRunsFront : Obligations.StepRunsFront := by
  refine ⟨fun c rest s => step_of_pending_cons, fun s hempty => ⟨s.tick, step_of_pending_nil hempty, ?_⟩⟩
  obtain ⟨hpending, hnow, _⟩ := State.tick_kept s (Kept.refl _)
  exact ⟨hnow, hpending.trans hempty, s.tick_raw⟩

end Sys2Proof.Machine
end

section
/-! LEAP_COMPLETE (R99) and JOURNAL_ENTRY_VISIBLE (R102). -/

namespace Sys2Proof.Machine

open Sys2Proof.Safety

/-! ## LEAP_COMPLETE -/

/-- The offset takes the leap and the schedule is cleared (R99). -/
def State.leapTaken (s : State) : State :=
  ((s.putN Obj.utc_offset (s.n Obj.utc_offset + s.n Obj.leap_delta)).putN Obj.leap_time 0).putN Obj.leap_delta 0

/-- The data of entry 0x2008: the leap and the offset it leads to. -/
def State.leapData (s : State) : Bytes := be 1 (s.n Obj.leap_delta) ++ be 2 (s.n Obj.utc_offset + s.n Obj.leap_delta)

theorem exec_leapComplete_due {s : State} (hleap : s.n Obj.leap_delta ≠ 0)
    (hdue : s.n Obj.leap_time + (if s.n Obj.leap_delta = 1 then unitsPerS else 0) ≤ s.time) :
    exec .leapComplete s = .next (s.leapTaken.log 0 0x2008 s.leapData) :=
  if_pos ⟨hleap, hdue⟩

theorem State.get_leapTaken_ne (s : State) {k : Nat} (h : k ∉ [Obj.utc_offset, Obj.leap_time, Obj.leap_delta]) :
    s.leapTaken.get k = s.get k := by
  simp only [List.mem_cons, List.not_mem_nil, or_false, not_or] at h
  obtain ⟨hoffset, htime, hdelta⟩ := h
  exact ((State.get_putN_ne _ 0 hdelta).trans (State.get_putN_ne _ 0 htime)).trans (State.get_putN_ne _ _ hoffset)

section
variable {s : State} (hstore : storeWf s.obj = true)
include hstore

theorem State.leapTaken_utc_offset : s.leapTaken.n Obj.utc_offset = s.n Obj.utc_offset + s.n Obj.leap_delta :=
  ((State.n_putN_ne _ 0 (by decide)).trans (State.n_putN_ne _ 0 (by decide))).trans (State.n_putN_same hstore _ _)

theorem State.leapTaken_leap_time : s.leapTaken.n Obj.leap_time = 0 :=
  (State.n_putN_ne _ 0 (by decide)).trans (State.n_putN_same (State.storeWf_putN hstore _ _) _ 0)

theorem State.leapTaken_leap_delta : s.leapTaken.n Obj.leap_delta = 0 :=
  State.n_putN_same (State.storeWf_putN (State.storeWf_putN hstore _ _) _ _) _ 0

end

theorem State.leapTaken_controlDown (s : State) : s.leapTaken.controlDown = s.controlDown :=
  ((State.controlDown_putN _ (by decide) 0).trans (State.controlDown_putN _ (by decide) 0)).trans
    (s.controlDown_putN (by decide) _)

theorem State.leapTaken_onlyLogged (s : State) : OnlyLogged s s.leapTaken :=
  ((s.put_onlyLogged ..).trans (State.put_onlyLogged ..)).trans (State.put_onlyLogged ..)

/-- Settles O2: the completion writes three objects, and its journal entry depends on none of them. -/
theorem leapCompletes : Obligations.LeapCompletes := by
  intro s hw hleap hdue
  obtain ⟨hstore, -⟩ := hw
  have hobj : (s.leapTaken.log 0 0x2008 s.leapData).obj = s.leapTaken.obj := State.log_obj _ _ _ _ (by decide)
  have hget (k : Nat) := State.get_of_obj hobj k
  have hn (k : Nat) : (s.leapTaken.log 0 0x2008 s.leapData).n k = s.leapTaken.n k := by simp only [State.n, hget]
  refine ⟨_, exec_leapComplete_due hleap hdue, ?_, ?_, ?_, ?_, fun k hk => ?_, ?_⟩
  · rw [hn, State.leapTaken_utc_offset hstore]
  · rw [hn, State.leapTaken_leap_time hstore]
  · rw [hn, State.leapTaken_leap_delta hstore]
  · exact State.log_journal_congr (s := s.leapTaken) (t := s) rfl rfl s.leapTaken_controlDown _ _ _
  · rw [hget, s.get_leapTaken_ne hk]
  · obtain ⟨_, _, hlogged⟩ := s.leapTaken_onlyLogged.trans (State.logAt_onlyLogged _ s.leapTaken.stamp 0 0x2008 s.leapData)
    rw [State.log, hlogged]

/-! ## JOURNAL_ENTRY_VISIBLE -/

/-- The entries visible once `e` has joined them: a full journal loses its oldest (R102). -/
def State.visibleWith (s : State) (e : JEntry) : List JEntry :=
  (if 4096 ≤ s.journal.visible.length then s.journal.visible.drop 1 else s.journal.visible)
    ++ [{ e with seq := (s.nn Obj.journal_newest_seq + 1) % 2 ^ 32 }]

/-- An entry leaves the queue and is visible, numbered and counted; the loss of another is not yet counted. -/
def State.numberEntry (s : State) (e : JEntry) : State :=
  let u : State := { s with journal := { s.journal with queue := s.journal.queue.erase e, visible := s.visibleWith e } }
  ((u.putN Obj.journal_newest_seq ((s.nn Obj.journal_newest_seq + 1) % 2 ^ 32 : Nat)).putN Obj.journal_count
    (s.visibleWith e).length).count 8 0x0B

/-- An entry becomes visible; the loss of another from a full journal is counted. -/
def State.showEntry (s : State) (e : JEntry) : State :=
  if 4096 ≤ s.journal.visible.length then (s.numberEntry e).bump Obj.journal_overflow else s.numberEntry e

theorem exec_journalEntryVisible_due {s : State} {e : JEntry} (hfirst : firstEntry s.journal.queue = some e) (hawake : s.awake 6 = true)
    (hpast : e.stamp + s.nn Obj.journal_reorder_delay * 1250 * 256 ≤ s.tb.raw * 256) :
    exec .journalEntryVisible s = .next (s.showEntry e) := by
  show execJournalEntryVisible s = _
  simp only [execJournalEntryVisible, hfirst, hawake, Nat.not_lt.mpr hpast, Bool.not_true, decide_false, Bool.or_self,
    Bool.false_eq_true, if_false]
  rfl

/-! ### The entry numbered and counted -/

theorem State.count_frame (s : State) (blk : Fin 16) (code w unit : Nat) :
    s.count blk code w unit = { s with ctrs := (s.count blk code w unit).ctrs } := rfl

/-- The two objects written, as the last entry's number and the number of entries. -/
theorem State.numberEntry_obj (s : State) (e : JEntry) : (s.numberEntry e).obj
    = ((s.putN Obj.journal_newest_seq ((s.nn Obj.journal_newest_seq + 1) % 2 ^ 32 : Nat)).putN Obj.journal_count
        (s.visibleWith e).length).obj :=
  State.count_obj ..

theorem State.numberEntry_frame (s : State) (e : JEntry) : ∃ obj ctrs, s.numberEntry e = { s with
    obj, ctrs, journal := { s.journal with queue := s.journal.queue.erase e, visible := s.visibleWith e } } := by
  dsimp only [State.numberEntry, State.putN, State.put]
  rw [State.count_frame]
  exact ⟨_, _, rfl⟩

theorem State.get_numberEntry_ne (s : State) (e : JEntry) {k : Nat} (hseq : k ≠ Obj.journal_newest_seq)
    (hcount : k ≠ Obj.journal_count) : (s.numberEntry e).get k = s.get k := by
  rw [State.get_of_obj (s.numberEntry_obj e), State.get_putN_ne _ _ hcount, State.get_putN_ne _ _ hseq]

section
variable {s : State} (hstore : storeWf s.obj = true) (e : JEntry)
include hstore

theorem State.storeWf_numberEntry : storeWf (s.numberEntry e).obj = true := by
  rw [s.numberEntry_obj e]
  exact State.storeWf_putN (State.storeWf_putN hstore _ _) _ _

theorem State.numberEntry_newest_seq :
    (s.numberEntry e).nn Obj.journal_newest_seq = (s.nn Obj.journal_newest_seq + 1) % 2 ^ 32 := by
  rw [State.nn_of_obj (s.numberEntry_obj e), State.nn_putN_ne _ (by decide), State.nn_putN_same hstore, Int.toNat_natCast]

theorem State.numberEntry_count : (s.numberEntry e).nn Obj.journal_count = (s.visibleWith e).length := by
  rw [State.nn_of_obj (s.numberEntry_obj e), State.nn_putN_same (State.storeWf_putN hstore _ _), Int.toNat_natCast]

end

/-! ### The loss of the oldest -/

section
variable (s : State) (e : JEntry)

theorem State.showEntry_frame : ∃ obj ctrs, s.showEntry e = { s with
    obj, ctrs, journal := { s.journal with queue := s.journal.queue.erase e, visible := s.visibleWith e } } := by
  obtain ⟨_, _, hframe⟩ := s.numberEntry_frame e
  rw [State.showEntry, hframe]
  split <;> exact ⟨_, _, rfl⟩

theorem State.get_showEntry_ne {k : Nat} (h : k ≠ Obj.journal_overflow) : (s.showEntry e).get k = (s.numberEntry e).get k := by
  unfold State.showEntry
  split
  · exact State.get_bump_ne _ h 1
  · rfl

theorem State.nn_showEntry_ne {k : Nat} (h : k ≠ Obj.journal_overflow) : (s.showEntry e).nn k = (s.numberEntry e).nn k := by
  simp only [State.nn, State.n, s.get_showEntry_ne e h]

theorem State.showEntry_overflow_of_full (hstore : storeWf s.obj = true) (hfull : 4096 ≤ s.journal.visible.length) :
    (s.showEntry e).nn Obj.journal_overflow = (s.nn Obj.journal_overflow + 1) % 2 ^ 32 := by
  have hmodulus : counterModulus Obj.journal_overflow = 2 ^ 32 := by decide
  have hbefore : (s.numberEntry e).nn Obj.journal_overflow = s.nn Obj.journal_overflow := by
    simp only [State.nn, State.n, s.get_numberEntry_ne e (k := Obj.journal_overflow) (by decide) (by decide)]
  rw [State.showEntry, if_pos hfull, State.nn_bump_same (State.storeWf_numberEntry hstore e), hmodulus, hbefore]

theorem State.showEntry_overflow_of_room (hroom : ¬ 4096 ≤ s.journal.visible.length) :
    (s.showEntry e).get Obj.journal_overflow = s.get Obj.journal_overflow := by
  rw [State.showEntry, if_neg hroom, s.get_numberEntry_ne e (by decide) (by decide)]

end

/-- Settles O4: the entry is numbered and counted, then the loss of another, which touches the count of losses alone. -/
theorem journalEntryBecomesVisible : Obligations.JournalEntryBecomesVisible := by
  intro s e hw hfirst hawake hpast
  obtain ⟨hstore, -⟩ := hw
  obtain ⟨_, _, hframe⟩ := s.showEntry_frame e
  refine ⟨_, exec_journalEntryVisible_due hfirst hawake hpast, ?_, ?_, ?_, ?_, ?_, s.showEntry_overflow_of_full e hstore,
    fun k hk => ?_, s.showEntry_overflow_of_room e, ?_⟩
  · rw [hframe]
    rfl
  · rw [hframe]
  · rw [hframe]
  · rw [s.nn_showEntry_ne e (by decide), State.numberEntry_newest_seq hstore e]
  · rw [s.nn_showEntry_ne e (by decide), State.numberEntry_count hstore e, hframe]
  · simp only [List.mem_cons, List.not_mem_nil, or_false, not_or] at hk
    obtain ⟨hseq, hcount, hoverflow⟩ := hk
    rw [s.get_showEntry_ne e hoverflow, s.get_numberEntry_ne e hseq hcount]
  · rw [hframe]

end Sys2Proof.Machine
end

section
/-! The timers and events that move a slot between its states (R110, R118, R119, R121). -/

namespace Sys2Proof.Machine

/-! ## What a change of a slot's state leaves alone -/

/-- `t` is `s` but for its slots, its journal and what its dictionary holds. -/
def SlotsLogged (s t : State) : Prop := ∃ slots journal obj, t = { s with slots, journal, obj }

theorem SlotsLogged.frame {s t : State} (h : SlotsLogged s t) :
    t = { s with slots := t.slots, journal := t.journal, obj := t.obj } := by
  obtain ⟨_, _, _, rfl⟩ := h
  rfl

/-- A write to a slot, journalled. -/
theorem State.log_setSlot_slotsLogged (s : State) (i : Fin 16) (x : Slot) (source code : Nat) (data : Bytes) :
    SlotsLogged s ((s.setSlot i x).log source code data) :=
  ⟨_, _, _, State.logAt_frame ..⟩

@[simp] theorem State.setSlot_n (s : State) (i : Fin 16) (x : Slot) (k : Nat) : (s.setSlot i x).n k = s.n k := rfl

theorem State.qualifySlot_slot (s : State) (i : Fin 16) : (s.qualifySlot i).slots[i]
    = { s.slots[i] with state := .qualified, deadline := none, everQualified := true, qualifiedAt := s.now } := by
  simp [State.qualifySlot]

theorem State.qualifySlot_slotsLogged (s : State) (i : Fin 16) : SlotsLogged s (s.qualifySlot i) :=
  s.log_setSlot_slotsLogged ..

/-! ## QUALIFY_TIMER_EXPIRY, WTR_TIMER_EXPIRY (R119, R94) -/

/-- The slot keeps the measurements of the last second of its qualify timer. -/
def State.noteLastSecond (s : State) (i : Fin 16) : State :=
  s.setSlot i { s.slots[i] with qualified1s := s.lastSecond s.slots[i] }

theorem State.noteLastSecond_slotsLogged {s t : State} {i : Fin 16} (h : SlotsLogged (s.noteLastSecond i) t) : SlotsLogged s t := by
  obtain ⟨_, _, _, rfl⟩ := h
  exact ⟨_, _, _, rfl⟩

/-- A slot `x` waits for wtr_time before it is QUALIFIED again. -/
def State.startWait (s : State) (i : Fin 16) (x : Slot) : State :=
  (s.setSlot i { x with state := .waitToRestore, deadline := some (s.now + ticksS (s.nn (Obj.wtr_time i))) }).log
    (slotSource i) 0x2303 (be 2 (s.nn (Obj.wtr_time i)))

theorem State.startWait_slot (s : State) (i : Fin 16) (x : Slot) : (s.startWait i x).slots[i]
    = { x with state := .waitToRestore, deadline := some (s.now + ticksS (s.nn (Obj.wtr_time i))) } := by
  simp [State.startWait]

theorem State.startWait_slotsLogged (s : State) (i : Fin 16) (x : Slot) : SlotsLogged s (s.startWait i x) :=
  s.log_setSlot_slotsLogged ..

theorem exec_qualifyTimerExpiry_early {s : State} {i : Fin 16} (hup : (s.evalSlot i).mode.bringupDone = false) :
    exec (.qualifyTimerExpiry i) s = .next (s.evalSlot i) :=
  if_pos (by simp [hup])

section
variable {s : State} {i : Fin 16} {d : Nat} (hstate : (s.evalSlot i).slots[i].state = .qualifying)
  (hdeadline : (s.evalSlot i).slots[i].deadline = some d) (hdue : d ≤ (s.evalSlot i).now)
  (hup : (s.evalSlot i).mode.bringupDone = true)
include hstate hdeadline hdue hup

theorem exec_qualifyTimerExpiry_first
    (hfirst : (s.evalSlot i).slots[i].everQualified = false ∨ (s.evalSlot i).n (Obj.wtr_time i) = 0) :
    exec (.qualifyTimerExpiry i) s = .next (((s.evalSlot i).noteLastSecond i).qualifySlot i) :=
  (if_neg (by simp [hstate, hdeadline, hdue, hup, -Fin.getElem_fin])).trans (if_pos
    (by simp only [Bool.or_eq_true, Bool.not_eq_true', decide_eq_true_eq]; exact hfirst))

theorem exec_qualifyTimerExpiry_again (hever : (s.evalSlot i).slots[i].everQualified = true)
    (hwtr : (s.evalSlot i).n (Obj.wtr_time i) ≠ 0) : exec (.qualifyTimerExpiry i) s
      = .next (((s.evalSlot i).noteLastSecond i).startWait i
          { (s.evalSlot i).slots[i] with qualified1s := (s.evalSlot i).lastSecond (s.evalSlot i).slots[i] }) :=
  (if_neg (by simp [hstate, hdeadline, hdue, hup, -Fin.getElem_fin])).trans (if_neg (by simp [hever, hwtr, -Fin.getElem_fin]))

end

theorem exec_wtrTimerExpiry_due {s : State} {i : Fin 16} {d : Nat} (hstate : (s.evalSlot i).slots[i].state = .waitToRestore)
    (hdeadline : (s.evalSlot i).slots[i].deadline = some d) (hdue : d ≤ (s.evalSlot i).now) :
    exec (.wtrTimerExpiry i) s = .next ((s.evalSlot i).qualifySlot i) :=
  if_pos (by simp [hstate, hdeadline, hdue, -Fin.getElem_fin])

/-! ## OPERATOR_TIME (R110) -/

/-- The slot takes an operator entry as its one measurement, and its checks are applied. -/
def State.takeEntry (s : State) (i : Fin 16) (time : Int) : State :=
  (s.setSlot i { s.slots[i] with operatorAt := some s.now, operatorError := s.time - time,
                                 samples := [{ stamp := s.stamp, carried := time, phase := some (s.time - time) }] }).evalSlot i

/-- DPLL-T takes an error to remove by rate, and is LOCKED from the first (R110). -/
def State.removeByRate (s : State) (err : Int) : State :=
  let v := s.addPending err
  let v := if v.loops[0].state = .acquiring then v.lockT none else v
  (v.updateLoop 0 v.tb.pendingPhase v.stamp false).requestSegment (.rate false)

theorem exec_operatorTime_enabled {s : State} {i : Fin 16} (hkind : s.kind i = 7) (henabled : s.slotEnabled i = true) (time : Int) :
    exec (.operatorTime i time) s = .next (if (s.takeEntry i time).selT.active = some i
      then (s.takeEntry i time).removeByRate (s.time - time) else s.takeEntry i time) :=
  congrArg Host.Outcome.next (if_neg (by simp [hkind, henabled]))

/-- Settles O7: each clause is the equation of its command's branch. -/
theorem slotStates : Obligations.SlotStates := by
  refine ⟨fun s i d hstate hdeadline hdue hup hfirst => ⟨_, exec_qualifyTimerExpiry_first hstate hdeadline hdue hup hfirst, ?_, ?_, ?_⟩,
    fun s i d hstate hdeadline hdue hup hever hwtr => ⟨_, exec_qualifyTimerExpiry_again hstate hdeadline hdue hup hever hwtr, ?_, ?_, ?_⟩,
    fun s i d hstate hdeadline hdue => ⟨_, exec_wtrTimerExpiry_due hstate hdeadline hdue, ?_, ?_, ?_⟩,
    fun s i => rfl, fun s i hkind hon => if_pos (by simp [hkind, hon]),
    fun s i time hkind henabled hactive => ?_, fun s i time hkind henabled hactive => ?_,
    fun s i => exec_qualifyTimerExpiry_early⟩
  · rw [State.qualifySlot_slot]
  · rw [State.qualifySlot_slot]
    rfl
  · exact (State.noteLastSecond_slotsLogged (State.qualifySlot_slotsLogged ..)).frame
  · rw [State.startWait_slot]
  · rw [State.startWait_slot]
    rfl
  · exact (State.noteLastSecond_slotsLogged (State.startWait_slotsLogged ..)).frame
  · rw [State.qualifySlot_slot]
  · rw [State.qualifySlot_slot]
  · exact (State.qualifySlot_slotsLogged ..).frame
  · exact (exec_operatorTime_enabled hkind henabled time).trans (congrArg _ (if_neg hactive))
  · exact (exec_operatorTime_enabled hkind henabled time).trans (congrArg _ (if_pos hactive))

end Sys2Proof.Machine
end

section
/-! What the operations do not see of the selections. The operations on slots, loops and segments see neither selection,
the checks of the slots see the active slot alone, and DPLL-T's selection does not see DPLL-F's; which slot was last active
(R321) is seen by none of them, and an evaluation writes it afresh. -/

namespace Sys2Proof.Machine

/-! ## The operations that see no selection -/

/-- A selection as `State.setSel` stores it: the active slot is the one that was last active. -/
def Selection.noted (x : Selection) : Selection := { x with lastActive := x.active.orElse fun _ => x.lastActive }

/-- Both selections replaced by functions of themselves. -/
def State.mapSels (s : State) (g h : Selection → Selection) : State := { s with selT := g s.selT, selF := h s.selF }

section
variable (s : State) (g h : Selection → Selection)

theorem State.mapSels_ite (c : Prop) [Decidable c] (a b : State) :
    (if c then a else b).mapSels g h = if c then a.mapSels g h else b.mapSels g h := by
  split <;> rfl

theorem State.setSlot_mapSels (i : Fin 16) (x : Slot) : (s.setSlot i x).mapSels g h = (s.mapSels g h).setSlot i x := rfl

theorem State.setLoop_mapSels (d : Fin 4) (x : Loop) : (s.setLoop d x).mapSels g h = (s.mapSels g h).setLoop d x := rfl

theorem State.putN_mapSels (k : Nat) (x : Int) : (s.putN k x).mapSels g h = (s.mapSels g h).putN k x := rfl

theorem State.putB_mapSels (k : Nat) (x : Bool) : (s.putB k x).mapSels g h = (s.mapSels g h).putB k x := rfl

theorem State.bump_mapSels (k d : Nat) : (s.bump k d).mapSels g h = (s.mapSels g h).bump k d := rfl

theorem State.logAt_mapSels (stamp source code : Nat) (data : Bytes) :
    (s.logAt stamp source code data).mapSels g h = (s.mapSels g h).logAt stamp source code data := by
  unfold State.logAt
  dsimp only
  split <;>
  · rw [State.mapSels_ite]
    rfl

theorem State.log_mapSels (source code : Nat) (data : Bytes) :
    (s.log source code data).mapSels g h = (s.mapSels g h).log source code data :=
  s.logAt_mapSels ..

theorem State.growBound_mapSels : s.growBound.mapSels g h = (s.mapSels g h).growBound := by
  unfold State.growBound
  simp only [State.mapSels_ite]
  rfl

/-! ## The model and the disputes (R126) -/

theorem State.setModel_mapSels (m : ModelSt) : (s.setModel m).mapSels g h = (s.mapSels g h).setModel m := by
  unfold State.setModel
  simp only [State.mapSels_ite, State.log_mapSels]
  rw [← State.growBound_mapSels]
  rfl

theorem State.markDisputes_mapSels (i : Fin 16) : (s.markDisputes i).mapSels g h = (s.mapSels g h).markDisputes i := rfl

/-- The marks and the journal entries of disputes that clear. -/
def State.noteEnded (s : State) (mine : List Dispute) : State :=
  mine.foldl (fun (s : State) d =>
    (((s.markDisputes d.a).markDisputes d.b).log (slotSource d.a) 0x2307 (be 1 (d.b : Nat))).log (slotSource d.b) 0x2307
      (be 1 (d.a : Nat))) s

/-- The model is free again once none of the disputes is left. -/
def State.freeModel (s : State) (mine : List Dispute) : State :=
  if mine ≠ [] ∧ s.disputes = [] ∧ s.hold.model = .frozen then s.setModel s.hold.frozenFrom else s

theorem State.endDisputes_eq (gone : Dispute → Bool) : s.endDisputes gone
    = (({ s with disputes := s.disputes.filter fun d => !gone d } : State).noteEnded (s.disputes.filter gone)).freeModel
        (s.disputes.filter gone) := rfl

theorem State.noteEnded_mapSels (mine : List Dispute) : (s.noteEnded mine).mapSels g h = (s.mapSels g h).noteEnded mine :=
  (List.foldl_hom (fun t : State => t.mapSels g h) fun t d => by simp only [State.log_mapSels, State.markDisputes_mapSels]).symm

theorem State.freeModel_mapSels (mine : List Dispute) : (s.freeModel mine).mapSels g h = (s.mapSels g h).freeModel mine := by
  unfold State.freeModel
  rw [State.mapSels_ite, State.setModel_mapSels]
  rfl

theorem State.endDisputes_mapSels (gone : Dispute → Bool) :
    (s.endDisputes gone).mapSels g h = (s.mapSels g h).endDisputes gone := by
  rw [State.endDisputes_eq, State.freeModel_mapSels, State.noteEnded_mapSels]
  rfl

theorem State.leaveQualified_mapSels (i : Fin 16) : (s.leaveQualified i).mapSels g h = (s.mapSels g h).leaveQualified i :=
  State.endDisputes_mapSels ..

/-! ## Changes of a slot's state (R119) -/

theorem State.logSlot_mapSels (i : Fin 16) : (s.logSlot i).mapSels g h = (s.mapSels g h).logSlot i :=
  State.log_mapSels ..

theorem State.dropFirst_mapSels (i : Fin 16) : (s.dropFirst i).mapSels g h = (s.mapSels g h).dropFirst i :=
  State.mapSels_ite ..

theorem State.failSlot_mapSels (i : Fin 16) (bits : Nat) : (s.failSlot i bits).mapSels g h = (s.mapSels g h).failSlot i bits := by
  unfold State.failSlot
  simp only [State.mapSels_ite, State.leaveQualified_mapSels, State.dropFirst_mapSels, State.log_mapSels, State.bump_mapSels,
    State.setSlot_mapSels]
  rfl

/-! ## The loops (R130, R131, R134) -/

theorem State.setDpll_mapSels (d : Fin 4) (x : DpllState) : (s.setDpll d x).mapSels g h = (s.mapSels g h).setDpll d x := by
  unfold State.setDpll
  simp only [State.mapSels_ite, State.log_mapSels, State.bump_mapSels, State.setLoop_mapSels]
  rfl

theorem State.setBandwidth_mapSels (d : Fin 4) (rate : Option Nat) :
    (s.setBandwidth d rate).mapSels g h = (s.mapSels g h).setBandwidth d rate := by
  unfold State.setBandwidth
  simp only [State.mapSels_ite, State.log_mapSels, State.setLoop_mapSels]
  rfl

theorem State.endEpisode_mapSels : s.endEpisode.mapSels g h = (s.mapSels g h).endEpisode := by
  unfold State.endEpisode
  rw [State.mapSels_ite]
  simp only [State.putB_mapSels, State.putN_mapSels]
  cases hassist : s.hold.assist with
  | none =>
    rw [show (s.mapSels g h).hold = s.hold from rfl, hassist, ← State.log_mapSels]
    rfl
  | some a =>
    obtain ⟨_, _, i⟩ := a
    simp only [show (s.mapSels g h).hold = s.hold from rfl, hassist, ← State.log_mapSels]
    rfl

theorem State.lockT_mapSels (rate : Option Nat) : (s.lockT rate).mapSels g h = (s.mapSels g h).lockT rate := by
  unfold State.lockT
  rw [State.setBandwidth_mapSels, ← State.growBound_mapSels, ← State.setDpll_mapSels, ← State.endEpisode_mapSels]
  rfl

theorem State.reducePending_mapSels (stamp : Nat) : (s.reducePending stamp).mapSels g h = (s.mapSels g h).reducePending stamp := rfl

theorem State.addPending_mapSels (e : Int) : (s.addPending e).mapSels g h = (s.mapSels g h).addPending e := rfl

theorem State.updateLoop_mapSels (d : Fin 4) (err : Int) (stamp : Nat) (integrate : Bool) :
    (s.updateLoop d err stamp integrate).mapSels g h = (s.mapSels g h).updateLoop d err stamp integrate := rfl

theorem State.startSeedBound_mapSels (unc : Int) : (s.startSeedBound unc).mapSels g h = (s.mapSels g h).startSeedBound unc := rfl

/-! ## Requests for a segment (R90-R94) -/

theorem State.segKindEffect_mapSels (k : SegKind) (start : Nat) :
    (s.segKindEffect k start).mapSels g h = (s.mapSels g h).segKindEffect k start := by
  cases k with
  | rate steering => rfl
  | withdraw => rfl
  | ownerStep amount session => exact State.logAt_mapSels ..
  | firstStep amount slot => exact State.logAt_mapSels ..
  | seed amount source unc slot =>
    simp only [State.segKindEffect, State.logAt_mapSels]
    simp only [← State.putN_mapSels, ← State.bump_mapSels, ← State.mapSels_ite]
    rfl

theorem State.fixAt_mapSels (w : SegRequest) (tick : Nat) : (s.fixAt w tick).mapSels g h = (s.mapSels g h).fixAt w tick := by
  unfold State.fixAt State.logClamp
  simp only [← State.log_mapSels, ← State.mapSels_ite]
  rfl

theorem State.issueAt_mapSels (w : SegRequest) (tick : Nat) : (s.issueAt w tick).mapSels g h = (s.mapSels g h).issueAt w tick := by
  unfold State.issueAt
  rw [State.segKindEffect_mapSels, State.fixAt_mapSels]

theorem State.tryIssue_mapSels : s.tryIssue.mapSels g h = (s.mapSels g h).tryIssue := by
  unfold State.tryIssue
  rw [show (s.mapSels g h).tb = s.tb from rfl]
  cases s.tb.issued <;> cases s.tb.want <;> simp only [State.mapSels_ite, State.issueAt_mapSels]
  rfl

theorem State.wantSegment_mapSels (k : SegKind) : (s.wantSegment k).mapSels g h = (s.mapSels g h).wantSegment k := by
  unfold State.wantSegment State.logClamp
  simp only [← State.log_mapSels, ← State.mapSels_ite]
  rfl

theorem State.requestSegment_mapSels (k : SegKind) : (s.requestSegment k).mapSels g h = (s.mapSels g h).requestSegment k := by
  unfold State.requestSegment
  rw [State.tryIssue_mapSels, State.wantSegment_mapSels]

theorem State.firstReference_mapSels (i : Fin 16) : (s.firstReference i).mapSels g h = (s.mapSels g h).firstReference i := by
  unfold State.firstReference
  simp only [State.mapSels_ite, State.requestSegment_mapSels, State.log_mapSels, State.addPending_mapSels,
    State.startSeedBound_mapSels]
  rfl

/-! ## A loop takes a slot (R131, R134) -/

/-- A loop that ran free or held, in state `st`, acquires from the frequency in force. -/
def State.wakeLoop (s : State) (d : Fin 4) (st : DpllState) : State :=
  if st = .freeRun ∨ st = .holdover then
    (s.setLoop d { s.loops[d] with freqEst := (s.loopWord d).1, freqWord := (s.loopWord d).2, synthPhase := 0,
                                   lastStamp := none }).setDpll d .acquiring
  else s

/-- DPLL-T is LOCKED from an operator slot's entry. -/
def State.lockOperator (s : State) (forF : Bool) (i : Fin 16) : State :=
  if !forF && s.slotClass i = .o && s.slots[i].operatorAt.isSome then s.lockT none else s

theorem State.loopTakes_eq (forF : Bool) (i : Fin 16) : s.loopTakes forF i =
    let u := s.growBound.wakeLoop (selLoop forF) s.loops[selLoop forF].state
    (u.setBandwidth (selLoop forF) (u.slotRate i)).lockOperator forF i := rfl

theorem State.wakeLoop_mapSels (d : Fin 4) (st : DpllState) : (s.wakeLoop d st).mapSels g h = (s.mapSels g h).wakeLoop d st := by
  unfold State.wakeLoop
  rw [State.mapSels_ite, State.setDpll_mapSels]
  rfl

theorem State.lockOperator_mapSels (forF : Bool) (i : Fin 16) :
    (s.lockOperator forF i).mapSels g h = (s.mapSels g h).lockOperator forF i := by
  unfold State.lockOperator
  rw [State.mapSels_ite, State.lockT_mapSels]
  rfl

theorem State.loopTakes_mapSels (forF : Bool) (i : Fin 16) :
    (s.loopTakes forF i).mapSels g h = (s.mapSels g h).loopTakes forF i := by
  rw [State.loopTakes_eq, State.lockOperator_mapSels, State.setBandwidth_mapSels, State.loopTakes_eq, ← State.growBound_mapSels]
  dsimp only
  rw [← State.wakeLoop_mapSels]
  rfl

/-! ## Holdover (R145, R147) -/

/-- DPLL-T's loop `l` goes to holdover on the estimator's term or its mean frequency, with nothing pending. -/
def State.holdLoop (s : State) (l : Loop) : State :=
  let s := s.setLoop 0 { l with freqEst := if s.hold.usable then s.estimatorTerm else s.meanEstimate 0, phaseCorr := 0 }
  ({ s with tb := { s.tb with pendingPhase := 0 } } : State).setDpll 0 .holdover

/-- The holdover bound takes the phase a slot left behind and what was pending, in 2^-16 ns. -/
def State.boundHoldover (s : State) (phase pend : Int) : State :=
  let toAs := fun u : Int => rneDiv (u * boundDen * 10 ^ 9) 65536
  if s.hold.episode then { s with hold := { s.hold with bound := s.hold.bound + toAs pend, grownAt := s.now } }
  else
    let b := toAs (phase + pend) + s.n Obj.ref_uncertainty * 10 ^ 9 * boundDen
    let s : State := { s with hold := { s.hold with episode := true, fromSeed := false, start := s.now, grownAt := s.now,
                                                    bound := b, tEntry := s.hold.tFilt } }
    (s.bump Obj.holdover_count).log 0 0x2103 (be 1 0 ++ durToBytes s.hold.boundNs)

/-- The mean phase offset of the slot that is left, 0 of none. -/
def State.leftPhase (s : State) (left : Option (Fin 16)) : Int :=
  match left.bind fun i => (s.slots[i].phaseMean 10).orElse fun _ => s.slots[i].leftMean with
  | some p => p.natAbs
  | none => 0

theorem State.holdT_eq (left : Option (Fin 16)) : s.holdT left =
    if s.loops[0].state = .freeRun ∨ s.loops[0].state = .holdover then s
    else if !s.loops[0].everLocked then (s.setLoop 0 { s.loops[0] with phaseCorr := 0 }).setDpll 0 .freeRun
    else
      let u := (s.reducePending s.stamp).growBound
      ((u.holdLoop s.loops[0]).boundHoldover (u.leftPhase left) u.tb.pendingPhase.natAbs).requestSegment (.rate false) := rfl

theorem State.holdLoop_mapSels (l : Loop) : (s.holdLoop l).mapSels g h = (s.mapSels g h).holdLoop l := State.setDpll_mapSels ..

theorem State.boundHoldover_mapSels (phase pend : Int) :
    (s.boundHoldover phase pend).mapSels g h = (s.mapSels g h).boundHoldover phase pend := by
  unfold State.boundHoldover
  simp only [State.mapSels_ite, State.log_mapSels]
  rfl

theorem State.holdT_mapSels (left : Option (Fin 16)) : (s.holdT left).mapSels g h = (s.mapSels g h).holdT left := by
  rw [State.holdT_eq, State.mapSels_ite, State.mapSels_ite, State.setDpll_mapSels]
  dsimp only
  rw [State.requestSegment_mapSels, State.boundHoldover_mapSels, State.holdLoop_mapSels, State.holdT_eq]
  dsimp only
  rw [← State.reducePending_mapSels, ← State.growBound_mapSels]
  rfl

/-! ## The checks of the slots see the active slot of DPLL-T alone (R118) -/

section
variable {g h} (hg : ∀ x, (g x).active = x.active)
include hg

theorem State.phaseFails_mapSels (i : Fin 16) : (s.mapSels g h).phaseFails i = s.phaseFails i := by
  unfold State.phaseFails
  rw [show (s.mapSels g h).selT.active = s.selT.active from hg _, ← State.growBound_mapSels]
  rfl

theorem State.failingChecks_mapSels (i : Fin 16) : (s.mapSels g h).failingChecks i = s.failingChecks i := by
  unfold State.failingChecks
  rw [s.phaseFails_mapSels hg]
  rfl

theorem State.evalSlot_mapSels (i : Fin 16) : (s.evalSlot i).mapSels g h = (s.mapSels g h).evalSlot i := by
  unfold State.evalSlot
  rw [s.failingChecks_mapSels hg]
  simp only [State.mapSels_ite, State.setSlot_mapSels, State.failSlot_mapSels, State.logSlot_mapSels]
  rfl

end

/-! ## DPLL-T's selection does not see DPLL-F's (R122-R124) -/

theorem State.considered_mapSels (forF : Bool) (i : Fin 16) : (s.mapSels g h).considered forF i = s.considered forF i := by
  unfold State.considered State.timeUncertainty
  rw [← State.growBound_mapSels]
  rfl

theorem State.candidates_mapSels (forF : Bool) (st : SlotState) : (s.mapSels g h).candidates forF st = s.candidates forF st := by
  unfold State.candidates
  simp only [State.considered_mapSels]
  rfl

theorem State.best_mapSels (l : List (Fin 16)) : (s.mapSels id h).best false l = s.best false l := by
  induction l with
  | nil => rfl
  | cons i l ih =>
    unfold State.best
    rw [ih]
    rfl

theorem State.trackAhead_mapSels : (s.trackAhead false).mapSels id h = (s.mapSels id h).trackAhead false := by
  unfold State.trackAhead
  rw [State.candidates_mapSels]
  rfl

theorem State.setSel_mapSels (x : Selection) : (s.setSel false x).mapSels id h = (s.mapSels id h).setSel false x := rfl

/-- What an operator slot has pending is removed by rate. -/
def State.removeOperator (s : State) (i : Fin 16) : State :=
  if s.slotClass i = .o then (s.updateLoop 0 s.tb.pendingPhase s.stamp false).requestSegment (.rate false) else s

theorem State.removeOperator_mapSels (i : Fin 16) : (s.removeOperator i).mapSels g h = (s.mapSels g h).removeOperator i := by
  unfold State.removeOperator
  rw [State.mapSels_ite, State.requestSegment_mapSels, State.updateLoop_mapSels]
  rfl

theorem State.switchTo_first (hrate : s.rateOnly = false) (i : Fin 16) : s.switchTo false i
    = (((s.setSel false { s.sel false with active := some i, transition := none, ahead := [] }).firstReference i).loopTakes
        false i).removeOperator i :=
  if_pos (by simp [hrate])

theorem State.rateOnly_mapSels : (s.mapSels g h).rateOnly = s.rateOnly := rfl

theorem State.sel_mapSels : (s.mapSels id h).sel false = s.sel false := rfl

theorem State.buildOut_mapSels (left : Option (Fin 16)) (i : Fin 16) : (s.mapSels g h).buildOut left i = s.buildOut left i := rfl

theorem State.loopWord_mapSels (d : Fin 4) : (s.mapSels g h).loopWord d = s.loopWord d := rfl

theorem State.nn_mapSels (k : Nat) : (s.mapSels g h).nn k = s.nn k := rfl

theorem State.n_mapSels (k : Nat) : (s.mapSels g h).n k = s.n k := rfl

theorem State.flag_mapSels (k : Nat) : (s.mapSels g h).flag k = s.flag k := rfl

theorem State.now_mapSels : (s.mapSels g h).now = s.now := rfl

theorem State.switchTo_mapSels (i : Fin 16) : (s.switchTo false i).mapSels id h = (s.mapSels id h).switchTo false i := by
  cases hrate : s.rateOnly with
  | false =>
    rw [State.switchTo_first _ hrate, State.switchTo_first (s.mapSels id h) hrate]
    simp only [State.removeOperator_mapSels, State.loopTakes_mapSels, State.firstReference_mapSels, State.setSel_mapSels,
      State.sel_mapSels]
  | true =>
    unfold State.switchTo
    simp only [State.rateOnly_mapSels, hrate, Bool.not_true, Bool.and_false, Bool.false_eq_true, if_false,
      State.loopTakes_mapSels, State.log_mapSels, State.bump_mapSels, State.setSel_mapSels, State.sel_mapSels,
      State.buildOut_mapSels, State.loopWord_mapSels, State.nn_mapSels, State.now_mapSels]

theorem State.noCandidate_mapSels : (s.noCandidate false).mapSels id h = (s.mapSels id h).noCandidate false := by
  unfold State.noCandidate
  simp only [State.mapSels_ite, Bool.false_eq_true, if_false, State.holdT_mapSels]
  simp only [← State.setSel_mapSels, ← State.log_mapSels]
  rfl

/-- The best of a list, where it has one, is switched to (R123). -/
def State.switchBest (s : State) (l : List (Fin 16)) : Option State := (s.best false l).map fun i => s.switchTo false i

theorem State.switchBest_mapSels (l : List (Fin 16)) :
    (s.mapSels id h).switchBest l = (s.switchBest l).map fun t => t.mapSels id h := by
  unfold State.switchBest
  rw [State.best_mapSels]
  cases s.best false l with
  | none => rfl
  | some i => exact congrArg some (s.switchTo_mapSels h i).symm

/-- The candidates ahead of the active slot whose ranking may act (R124). -/
def State.mayAct (s : State) (a : Fin 16) : List (Fin 16) :=
  ((s.sel false).ahead.filter fun p =>
    decide (s.n (Obj.priority p.1) < s.n (Obj.priority a)) || decide (p.2 + ticksS (s.nn Obj.quality_hold) ≤ s.now)).map (·.1)

theorem State.decide68_eq (a : Fin 16) (qual : List (Fin 16)) : s.decide68 false a qual =
    if s.slots[a].state = .waitToRestore ∧ qual ≠ [] then (s.switchBest qual).getD s
    else if !s.flag Obj.revertive then s else (s.switchBest (s.mayAct a)).getD s := by
  unfold State.decide68 State.switchBest
  change (if _ then _ else if _ then _ else (match s.best false (s.mayAct a) with | none => s | some i => s.switchTo false i)) = _
  cases s.best false qual <;> cases s.best false (s.mayAct a) <;> rfl

theorem State.decide68_mapSels (a : Fin 16) (qual : List (Fin 16)) :
    (s.decide68 false a qual).mapSels id h = (s.mapSels id h).decide68 false a qual := by
  rw [State.decide68_eq, State.decide68_eq, State.mapSels_ite, State.mapSels_ite, State.switchBest_mapSels,
    State.switchBest_mapSels,
    Option.getD_map (fun t : State => t.mapSels id h), Option.getD_map (fun t : State => t.mapSels id h)]
  rfl

/-- Without a fit active slot: the best QUALIFIED candidate, else the best that waits to restore, else none. -/
def State.takeBest (s : State) (qual wtr : List (Fin 16)) : State :=
  ((s.switchBest qual).orElse fun _ => s.switchBest wtr).getD (s.noCandidate false)

/-- A manual slot that failed is released where selection is not revertive (R123). -/
def State.releaseManual (s : State) (a : Fin 16) : State :=
  if (s.sel false).armed && s.slots[a].state == .failed && some a == s.manual false && !s.flag Obj.revertive then
    s.setSel false { s.sel false with active := some a, armed := false }
  else s

/-- With a fit active slot: the manual slot, or rows 6 to 8. -/
def State.keepOrMove (s : State) (a : Fin 16) (qual : List (Fin 16)) : State :=
  match if (s.sel false).armed then s.manual false else none with
  | some m => if m ≠ a ∧ qual.contains m then s.switchTo false m else if m = a then s else s.decide68 false a qual
  | none => s.decide68 false a qual

theorem State.takeBest_eq (qual wtr : List (Fin 16)) : s.takeBest qual wtr =
    match s.best false qual with
    | some i => s.switchTo false i
    | none => match s.best false wtr with
      | some i => s.switchTo false i
      | none => s.noCandidate false := by
  unfold State.takeBest State.switchBest
  cases s.best false qual <;> cases s.best false wtr <;> rfl

theorem State.decide38_idle (hactive : (s.sel false).active = none) :
    s.decide38 false = s.takeBest (s.candidates false .qualified) (s.candidates false .waitToRestore) := by
  unfold State.decide38
  simp only [hactive, Bool.not_false, if_true, Bool.and_false, Bool.false_and, Bool.false_eq_true, if_false]
  exact (State.takeBest_eq ..).symm

theorem State.decide38_unfit {a : Fin 16} (hactive : (s.sel false).active = some a) (hfit : s.fitActive a = false) :
    s.decide38 false = (s.releaseManual a).takeBest (s.candidates false .qualified) (s.candidates false .waitToRestore) := by
  unfold State.decide38
  simp only [hactive, hfit, Bool.not_false, if_true]
  exact (State.takeBest_eq (s.releaseManual a) ..).symm

theorem State.decide38_fit {a : Fin 16} (hactive : (s.sel false).active = some a) (hfit : s.fitActive a = true) :
    s.decide38 false = s.keepOrMove a (s.candidates false .qualified) := by
  unfold State.decide38
  simp only [hactive, hfit, Bool.not_true, Bool.false_eq_true, if_false]
  rfl

theorem State.takeBest_mapSels (qual wtr : List (Fin 16)) :
    (s.takeBest qual wtr).mapSels id h = (s.mapSels id h).takeBest qual wtr := by
  unfold State.takeBest
  rw [State.switchBest_mapSels, State.switchBest_mapSels, ← State.noCandidate_mapSels]
  cases s.switchBest qual <;> cases s.switchBest wtr <;> rfl

theorem State.releaseManual_mapSels (a : Fin 16) : (s.releaseManual a).mapSels id h = (s.mapSels id h).releaseManual a :=
  State.mapSels_ite ..

theorem State.keepOrMove_mapSels (a : Fin 16) (qual : List (Fin 16)) :
    (s.keepOrMove a qual).mapSels id h = (s.mapSels id h).keepOrMove a qual := by
  unfold State.keepOrMove
  rw [State.sel_mapSels, show (s.mapSels id h).manual false = s.manual false from rfl, ← State.decide68_mapSels]
  cases (if (s.sel false).armed then s.manual false else none) with
  | none => rfl
  | some m =>
    dsimp only
    rw [State.mapSels_ite, State.mapSels_ite, State.switchTo_mapSels]

theorem State.decide38_mapSels : (s.decide38 false).mapSels id h = (s.mapSels id h).decide38 false := by
  cases hactive : (s.sel false).active with
  | none =>
    rw [State.decide38_idle s hactive, State.decide38_idle (s.mapSels id h) hactive, State.takeBest_mapSels,
      State.candidates_mapSels, State.candidates_mapSels]
  | some a =>
    cases hfit : s.fitActive a with
    | false =>
      rw [State.decide38_unfit s hactive hfit, State.decide38_unfit (s.mapSels id h) hactive hfit, State.takeBest_mapSels,
        State.releaseManual_mapSels, State.candidates_mapSels, State.candidates_mapSels]
    | true =>
      rw [State.decide38_fit s hactive hfit, State.decide38_fit (s.mapSels id h) hactive hfit, State.keepOrMove_mapSels,
        State.candidates_mapSels]

theorem State.evalSelection_mapSels : (s.evalSelection false).mapSels id h = (s.mapSels id h).evalSelection false := by
  unfold State.evalSelection
  simp only [← State.trackAhead_mapSels]
  generalize s.trackAhead false = u
  simp only [State.sel_mapSels]
  cases htransition : (u.sel false).transition with
  | none => exact u.decide38_mapSels h
  | some p =>
    cases hactive : (u.sel false).active with
    | none => exact u.decide38_mapSels h
    | some i =>
      dsimp only
      rw [State.mapSels_ite, State.decide38_mapSels, State.log_mapSels]
      rfl

/-! ## An evaluation writes which slots were last active afresh (R120, R123) -/

theorem Selection.noted_noted (x : Selection) : x.noted.noted = x.noted := by
  unfold Selection.noted
  cases x.active <;> rfl

theorem State.setSelT_of_noted {x y : Selection} (hnoted : y.noted = x.noted) (g h : Selection → Selection) :
    (s.mapSels g h).setSel false y = (s.setSel false x).mapSels id h :=
  congrArg (fun z => ({ s with selT := z, selF := h s.selF } : State)) hnoted

theorem State.setSelF_of_noted {x y : Selection} (hnoted : y.noted = x.noted) (h : Selection → Selection) :
    (s.mapSels id h).setSel true y = s.setSel true x :=
  congrArg (fun z => ({ s with selF := z } : State)) hnoted

theorem State.trackAhead_notedT : (s.mapSels Selection.noted h).trackAhead false = (s.trackAhead false).mapSels id h := by
  unfold State.trackAhead
  rw [State.candidates_mapSels]
  exact s.setSelT_of_noted (Selection.noted_noted { s.sel false with ahead := (s.trackAhead false).selT.ahead })
    Selection.noted h

theorem State.trackAhead_notedF : (s.mapSels id Selection.noted).trackAhead true = s.trackAhead true := by
  unfold State.trackAhead
  rw [State.candidates_mapSels]
  exact s.setSelF_of_noted (Selection.noted_noted { s.sel true with ahead := (s.trackAhead true).selF.ahead })
    Selection.noted

theorem State.evalSlots_mapSels {g h} (hg : ∀ x, (g x).active = x.active) :
    (List.finRange 16).foldl (fun (u : State) (i : Fin 16) => u.evalSlot i) (s.mapSels g h)
      = ((List.finRange 16).foldl (fun (u : State) (i : Fin 16) => u.evalSlot i) s).mapSels g h :=
  List.foldl_hom (fun t : State => t.mapSels g h) fun t i => (t.evalSlot_mapSels hg i).symm

theorem State.evalSelection_notedT :
    (s.mapSels Selection.noted h).evalSelection false = (s.evalSelection false).mapSels id h := by
  rw [State.evalSelection_mapSels]
  unfold State.evalSelection
  rw [State.trackAhead_notedT, State.trackAhead_mapSels]

theorem State.evalSelection_notedF : (s.mapSels id Selection.noted).evalSelection true = s.evalSelection true := by
  unfold State.evalSelection
  rw [State.trackAhead_notedF]

theorem State.evaluate_noted : (s.mapSels Selection.noted Selection.noted).evaluate = s.evaluate := by
  unfold State.evaluate
  dsimp only
  rw [State.evalSlots_mapSels s (g := Selection.noted) fun _ => rfl, State.evalSelection_notedT, State.evalSelection_notedF]

end

/-- States alike but for which slots were last active evaluate alike. -/
theorem State.evaluate_congr {s t : State}
    (h : s.mapSels Selection.noted Selection.noted = t.mapSels Selection.noted Selection.noted) : s.evaluate = t.evaluate := by
  rw [← s.evaluate_noted, h, t.evaluate_noted]

end Sys2Proof.Machine
end

section
/-! Selection's commands (R120, R123, R127). -/

namespace Sys2Proof.Machine

/-! ## TRANSITION_COMPLETE (R127, R128, R132) -/

/-- The end of a transition: DPLL-T's build-out joins pending_phase, lock is measured afresh, the switch is journalled. -/
def State.handOver (s : State) (forF : Bool) (b : Int) (i : Fin 16) : State :=
  let s := if forF then s else s.addPending b
  let s := s.setLoop (selLoop forF) { s.loops[selLoop forF] with goodSince := none, freshFrom := s.stamp }
  s.log (slotSource i) 0x2202 (be 1 (if forF then 1 else 0) ++ durToBytes (unitsToNs b))

theorem State.handOver_mapSels (s : State) (g h : Selection → Selection) (forF : Bool) (b : Int) (i : Fin 16) :
    (s.handOver forF b i).mapSels g h = (s.mapSels g h).handOver forF b i := by
  unfold State.handOver
  rw [State.log_mapSels]
  cases forF <;> rfl

section
variable {s : State} {forF : Bool} {left : Option (Fin 16)} {tEnd : Nat} {b : Int} {i : Fin 16}
  (htransition : (s.sel forF).transition = some (left, tEnd, b)) (hactive : (s.sel forF).active = some i) (hend : tEnd ≤ s.now)
include htransition hactive hend

theorem exec_transitionComplete_fit (hfit : (s.evalSlot i).fitActive i = true) : exec (.transitionComplete forF) s
    = .next ((s.setSel forF { s.sel forF with transition := none }).handOver forF b i).evaluate := by
  show execTransitionComplete forF s = _
  simp only [execTransitionComplete, htransition, hactive, Nat.not_lt.mpr hend, hfit, Bool.not_true, Bool.false_eq_true, if_false]
  rfl

theorem exec_transitionComplete_unfit (hfit : (s.evalSlot i).fitActive i = false) :
    exec (.transitionComplete forF) s = .next s.evaluate := by
  show execTransitionComplete forF s = _
  simp only [execTransitionComplete, htransition, hactive, Nat.not_lt.mpr hend, hfit, Bool.not_false, if_false, if_true]

end

theorem State.evaluate_handOver_setSelT (s : State) (x : Selection) (b : Int) (i : Fin 16) :
    ((s.setSel false x).handOver false b i).evaluate = (({ s with selT := x } : State).handOver false b i).evaluate := by
  apply State.evaluate_congr
  rw [State.handOver_mapSels, State.handOver_mapSels]
  exact congrArg (fun z => ({ s with selT := z, selF := s.selF.noted } : State).handOver false b i) x.noted_noted

theorem State.evaluate_handOver_setSelF (s : State) (x : Selection) (b : Int) (i : Fin 16) :
    ((s.setSel true x).handOver true b i).evaluate = (({ s with selF := x } : State).handOver true b i).evaluate := by
  apply State.evaluate_congr
  rw [State.handOver_mapSels, State.handOver_mapSels]
  exact congrArg (fun z => ({ s with selT := s.selT.noted, selF := z } : State).handOver true b i) x.noted_noted

/-- Settles O9: each clause is the equation of its command's branch; which slot was last active, which the end of a transition
writes too, is what the evaluation after it writes itself. -/
theorem selectionCommands : Obligations.SelectionCommands := by
  refine ⟨fun s => rfl,
    fun s manual ⟨hstore, _⟩ => ⟨_, rfl, rfl, rfl, rfl, State.nn_putN_same hstore _ _, rfl,
      fun k hk => s.get_putN_ne _ (by simpa using hk)⟩,
    fun s manual ⟨hstore, _⟩ => ⟨_, rfl, rfl, rfl, rfl, State.nn_putN_same hstore _ _, rfl,
      fun k hk => s.get_putN_ne _ (by simpa using hk)⟩,
    fun s left tEnd b i htransition hactive hend hfit => ?_, fun s b => ⟨rfl, rfl, rfl, rfl⟩,
    fun s left tEnd b i htransition hactive hend hfit => ?_,
    fun s forF left tEnd b i => exec_transitionComplete_unfit, fun s => rfl⟩
  · rw [exec_transitionComplete_fit (forF := false) htransition hactive hend hfit, State.evaluate_handOver_setSelT]
    rfl
  · rw [exec_transitionComplete_fit (forF := true) htransition hactive hend hfit, State.evaluate_handOver_setSelF]
    rfl

end Sys2Proof.Machine
end

section
/-! The oscillator's monitor, the estimator's model and the EFC output (R138-R143). -/

namespace Sys2Proof.Machine

open Sys2Proof.Safety

/-! ## Objects read beside other writes -/

theorem State.n_of_obj {s t : State} (h : s.obj = t.obj) (k : Nat) : s.n k = t.n k := by
  simp only [State.n, State.get_of_obj h]

theorem State.flag_of_obj {s t : State} (h : s.obj = t.obj) (k : Nat) : s.flag k = t.flag k := by
  simp only [State.flag, State.n_of_obj h]

theorem State.flag_putN_ne (s : State) {a b : Nat} (x : Int) (h : a ≠ b) : (s.putN b x).flag a = s.flag a := by
  simp only [State.flag, s.n_putN_ne x h]

theorem State.n_putB_ne (s : State) {a b : Nat} (x : Bool) (h : a ≠ b) : (s.putB b x).n a = s.n a := s.n_putN_ne _ h

/-! ## OSC_MONITOR (R138) -/

/-- The measured offset shown, and whether it exceeds the limit. -/
def State.showOffset (s : State) (x : Int) (alarm : Bool) : State :=
  (s.putN Obj.osc_monitor_offset x).putB Obj.osc_alarm alarm

theorem State.showOffset_offset {s : State} (hstore : storeWf s.obj = true) (x : Int) (alarm : Bool) :
    (s.showOffset x alarm).n Obj.osc_monitor_offset = x :=
  (State.n_putB_ne _ alarm (by decide)).trans (State.n_putN_same hstore _ x)

theorem State.showOffset_alarm {s : State} (hstore : storeWf s.obj = true) (x : Int) (alarm : Bool) :
    (s.showOffset x alarm).flag Obj.osc_alarm = alarm :=
  State.flag_putB_same (State.storeWf_putN hstore _ x) _ alarm

theorem State.showOffset_objBut (s : State) (x : Int) (alarm : Bool) :
    ObjBut s (s.showOffset x alarm) [Obj.osc_monitor_offset, Obj.osc_alarm] := by
  intro k hk
  simp only [List.mem_cons, List.not_mem_nil, or_false, not_or] at hk
  obtain ⟨hoffset, halarm⟩ := hk
  exact (State.get_putB_ne _ alarm halarm).trans (s.get_putN_ne x hoffset)

section
variable {s : State} {x : Int}

theorem exec_oscMonitor (s : State) (x : Int) : exec (.oscMonitor x) s = .next
    (if s.n Obj.osc_monitor_limit * 1000000 < x.natAbs ∧ s.flag Obj.osc_alarm = false
      then (s.showOffset x true).log 0 0x2108 (be 8 x)
      else s.showOffset x (s.n Obj.osc_monitor_limit * 1000000 < x.natAbs)) := by
  show execOscMonitor x s = _
  have hlimit : (s.putN Obj.osc_monitor_offset x).n Obj.osc_monitor_limit = s.n Obj.osc_monitor_limit := s.n_putN_ne x (by decide)
  have halarm : (s.putN Obj.osc_monitor_offset x).flag Obj.osc_alarm = s.flag Obj.osc_alarm := s.flag_putN_ne x (by decide)
  simp only [execOscMonitor, hlimit, halarm, Bool.and_eq_true, decide_eq_true_eq, Bool.not_eq_true', apply_ite Host.Outcome.next]
  rfl

theorem exec_oscMonitor_raises (habove : s.n Obj.osc_monitor_limit * 1000000 < x.natAbs) (hoff : s.flag Obj.osc_alarm = false) :
    exec (.oscMonitor x) s = .next ((s.showOffset x true).log 0 0x2108 (be 8 x)) := by
  rw [exec_oscMonitor, if_pos ⟨habove, hoff⟩]

theorem exec_oscMonitor_lasts (habove : s.n Obj.osc_monitor_limit * 1000000 < x.natAbs) (hon : s.flag Obj.osc_alarm = true) :
    exec (.oscMonitor x) s = .next (s.showOffset x true) := by
  rw [exec_oscMonitor, if_neg (by simp [hon]), decide_eq_true habove]

theorem exec_oscMonitor_within (hwithin : x.natAbs ≤ s.n Obj.osc_monitor_limit * 1000000) :
    exec (.oscMonitor x) s = .next (s.showOffset x false) := by
  rw [exec_oscMonitor, if_neg fun ⟨habove, _⟩ => Int.not_lt.mpr hwithin habove, decide_eq_false (Int.not_lt.mpr hwithin)]

theorem oscMonitor_above (hw : Wf s) (habove : s.n Obj.osc_monitor_limit * 1000000 < x.natAbs) :
    Yields (.oscMonitor x) s fun t => t.n Obj.osc_monitor_offset = x ∧ t.flag Obj.osc_alarm = true
      ∧ ObjBut s t [Obj.osc_monitor_offset, Obj.osc_alarm] ∧ t = { s with obj := t.obj, journal := t.journal }
      ∧ (s.flag Obj.osc_alarm = true → t.journal = s.journal) := by
  obtain ⟨hstore, -⟩ := hw
  cases hflag : s.flag Obj.osc_alarm with
  | true =>
    exact ⟨_, exec_oscMonitor_lasts habove hflag, State.showOffset_offset hstore x true, State.showOffset_alarm hstore x true,
      s.showOffset_objBut x true, rfl, fun _ => rfl⟩
  | false =>
    have hobj : ((s.showOffset x true).log 0 0x2108 (be 8 x)).obj = (s.showOffset x true).obj := State.log_obj _ _ _ _ (by decide)
    refine ⟨_, exec_oscMonitor_raises habove hflag, (State.n_of_obj hobj _).trans (State.showOffset_offset hstore x true),
      (State.flag_of_obj hobj _).trans (State.showOffset_alarm hstore x true),
      fun k hk => (State.get_of_obj hobj k).trans (s.showOffset_objBut x true k hk), ?_, nofun⟩
    exact State.logAt_frame ..

theorem oscMonitor_within (hw : Wf s) (hwithin : x.natAbs ≤ s.n Obj.osc_monitor_limit * 1000000) :
    Yields (.oscMonitor x) s fun t => t.n Obj.osc_monitor_offset = x ∧ t.flag Obj.osc_alarm = false
      ∧ ObjBut s t [Obj.osc_monitor_offset, Obj.osc_alarm] ∧ t = { s with obj := t.obj } := by
  obtain ⟨hstore, -⟩ := hw
  exact ⟨_, exec_oscMonitor_within hwithin, State.showOffset_offset hstore x false, State.showOffset_alarm hstore x false,
    s.showOffset_objBut x false, rfl⟩

end

/-! ## What the estimator's operations write -/

/-- The bound grows up to the present (R147); nothing else moves. -/
theorem State.growBound_frame (s : State) :
    ∃ bound grownAt, s.growBound = { s with hold := { s.hold with bound, grownAt } } := by
  unfold State.growBound
  dsimp only
  split
  · exact ⟨_, _, rfl⟩
  · exact ⟨_, _, rfl⟩

/-- A model's change of state writes it, the bound grown to it, and the journal (R142, R147). -/
theorem State.setModel_frame (s : State) (m : ModelSt) : ∃ bound grownAt journal,
    s.setModel m = { s with hold := { s.hold with bound, grownAt, model := m }, journal } := by
  unfold State.setModel
  split
  case isTrue h => exact ⟨s.hold.bound, s.hold.grownAt, s.journal, by rw [← h]⟩
  case isFalse =>
    obtain ⟨bound, grownAt, hgrown⟩ := s.growBound_frame
    dsimp only
    rw [hgrown, State.log, State.logAt_frame, ← State.log, State.log_obj _ _ _ _ (by decide)]
    exact ⟨bound, grownAt, _, rfl⟩

/-- A temperature reading writes die_temperature, the filter and the bound grown to it (R141). -/
theorem State.updateTemp_frame (s : State) (temp : Int) : ∃ bound grownAt tFilt tEntry,
    s.updateTemp temp = { s.putN Obj.die_temperature temp with
      hold := { s.hold with bound, grownAt, tFilt, tFiltAt := some s.now, tEntry } } := by
  obtain ⟨bound, grownAt, hgrown⟩ := s.growBound_frame
  unfold State.updateTemp
  rw [hgrown]
  exact ⟨bound, grownAt, _, _, rfl⟩

/-- A term that the samples leave open takes a free value; nothing else moves. -/
theorem State.orFree_frame (s : State) (x : Option Int) : ∃ freeIdx, (s.orFree x).2 = { s with freeIdx } := by
  cases x with
  | none => exact ⟨_, rfl⟩
  | some v => exact ⟨_, rfl⟩

/-! ## MODEL_RESET and MODEL_STORE (R142, R143) -/

/-- The model without terms, with nothing learned, and its request taken back. -/
def State.forgetModel (s : State) : State :=
  (({ s with hold := { s.hold with
      samples := [], learned := 0, fromRestore := false, frozenFrom := .none, y0 := 0, t0 := s.now, a := 0, c := 0,
      tRef := 0, uy := 0, ua := 0, uc := 0 } } : State).putN Obj.model_learn_time 0).putB Obj.model_reset false

theorem exec_modelReset (s : State) : exec .modelReset s = .next (s.setModel .none).forgetModel := rfl

theorem State.forgetModel_learn_time {s : State} (hstore : storeWf s.obj = true) : s.forgetModel.n Obj.model_learn_time = 0 :=
  (State.n_putB_ne _ false (by decide)).trans (State.n_putN_same hstore _ 0)

theorem State.forgetModel_reset {s : State} (hstore : storeWf s.obj = true) : s.forgetModel.flag Obj.model_reset = false :=
  State.flag_putB_same (State.storeWf_putN hstore _ 0) _ false

theorem modelReset_forgets {s : State} (hw : Wf s) : Yields .modelReset s fun t =>
    t.hold.model = .none ∧ t.hold.samples = [] ∧ t.hold.learned = 0 ∧ t.hold.y0 = 0 ∧ t.hold.a = 0 ∧ t.hold.c = 0
      ∧ t.n Obj.model_learn_time = 0 ∧ t.flag Obj.model_reset = false ∧ t.loops = s.loops ∧ t.tb = s.tb ∧ t.keep = s.keep := by
  obtain ⟨hstore, -⟩ := hw
  obtain ⟨bound, grownAt, journal, hmodel⟩ := s.setModel_frame .none
  refine ⟨_, exec_modelReset s, ?_⟩
  rw [hmodel]
  exact ⟨rfl, rfl, rfl, rfl, rfl, rfl, State.forgetModel_learn_time hstore, State.forgetModel_reset hstore, rfl, rfl, rfl⟩

theorem exec_modelStore {s : State} (hmain : s.keep.mainGood = true) : exec .modelStore s = .next s.storeModel :=
  congrArg Host.Outcome.next (if_pos hmain)

/-! ## MODEL_LEARN_SAMPLE (R142) -/

/-- The sample of the present instant (R140, R142): the frequency without the compensations applied, the filtered
temperature. -/
def State.sampleNow (s : State) : LearnSample :=
  { t := s.now, y := s.hold.efcApplied - s.loops[0].freqEst, temp := s.hold.tFilt }

/-- The samples once the present one has joined them: those older than model_window leave. -/
def State.windowed (s : State) : List LearnSample :=
  (s.sampleNow :: s.hold.samples).filter fun x => (s.now : Int) - x.t ≤ (ticksS (s.nn Obj.model_window) : Nat)

/-- The present sample learned. -/
def State.withSample (s : State) : State :=
  { s with hold := { s.hold with samples := s.windowed, learned := s.windowed.length } }

/-- The present sample learned, by a model that is NONE no longer. -/
def State.learn (s : State) : State :=
  if s.hold.model = .none then s.withSample.setModel .learning else s.withSample

/-- A refit's offset and its uncertainty, as of the present instant. -/
def State.takeOffset (s : State) (fit : Fit) : State :=
  let (y0, s) := s.orFree fit.y0
  let (uy, s) := s.orFree fit.uy
  { s with hold := { s.hold with y0, uy := uy.natAbs, t0 := s.now } }

/-- A refit's further terms, their uncertainties and the reference temperature of the samples `l`. -/
def State.takeTerms (s : State) (fit : Fit) (l : List LearnSample) : State :=
  let (a, s) := s.orFree fit.a
  let (c, s) := s.orFree fit.c
  let (ua, s) := s.orFree fit.ua
  let (uc, s) := s.orFree fit.uc
  { s with hold := { s.hold with a, c, ua := ua.natAbs, uc := uc.natAbs, tRef := meanTemp l } }

/-- The refit over the samples `l`: of the offset alone while a restored model has learned too little. -/
def State.refit (s : State) (l : List LearnSample) : State :=
  let offsetOnly := s.hold.fromRestore && l.length < s.nn Obj.model_min_learn
  let fit := if offsetOnly then fitOffset s.hold l s.now else fitFull l s.now
  if offsetOnly then s.takeOffset fit else (s.takeOffset fit).takeTerms fit l

/-- A model that has learned for long enough becomes VALID. -/
def State.qualifyModel (s : State) (learned : Nat) : State :=
  if s.hold.model = .learning && s.nn Obj.model_min_learn ≤ learned then s.setModel .valid
  else if s.hold.model = .restored && 3600 ≤ learned then s.setModel .valid
  else s

/-- The present sample learned, the model refitted to the samples of the window, model_learn_time shown. -/
def State.learnAndRefit (s : State) : State :=
  ((s.learn.refit s.windowed).putN Obj.model_learn_time (min s.windowed.length (s.nn Obj.model_window))).qualifyModel
    s.windowed.length

theorem exec_modelLearnSample_learns {s : State} {temp : Int} (hlocked : (s.updateTemp temp).loops[0].state = .locked)
    (htransition : (s.updateTemp temp).selT.transition = none) (hfree : (s.updateTemp temp).hold.model ≠ .frozen)
    (hdisputes : (s.updateTemp temp).disputes = []) :
    exec (.modelLearnSample temp) s = .next (s.updateTemp temp).learnAndRefit := by
  have hlearns : ¬ (((s.updateTemp temp).loops[0].state ≠ .locked || (s.updateTemp temp).selT.transition.isSome
      || (s.updateTemp temp).hold.model = .frozen || !(s.updateTemp temp).disputes.isEmpty) = true) := by
    simp [hlocked, htransition, hfree, hdisputes]
  rw [State.learnAndRefit, State.qualifyModel, apply_ite Host.Outcome.next, apply_ite Host.Outcome.next]
  exact if_neg hlearns

/-- `t` has learned what `s` has, by a model that is not NONE where that of `s` is not; loops and timebase are those of `s`. -/
structure KeepsLearning (s t : State) : Prop where
  samples : t.hold.samples = s.hold.samples
  learned : t.hold.learned = s.hold.learned
  model : s.hold.model ≠ .none → t.hold.model ≠ .none
  loops : t.loops = s.loops
  tb : t.tb = s.tb

theorem KeepsLearning.refl (s : State) : KeepsLearning s s := ⟨rfl, rfl, id, rfl, rfl⟩

theorem KeepsLearning.trans {s t u : State} (h : KeepsLearning s t) (h' : KeepsLearning t u) : KeepsLearning s u :=
  ⟨h'.samples.trans h.samples, h'.learned.trans h.learned, h'.model ∘ h.model, h'.loops.trans h.loops, h'.tb.trans h.tb⟩

theorem State.setModel_keepsLearning (s : State) {m : ModelSt} (hm : m ≠ .none) : KeepsLearning s (s.setModel m) := by
  obtain ⟨_, _, _, hmodel⟩ := s.setModel_frame m
  rw [hmodel]
  exact ⟨rfl, rfl, fun _ => hm, rfl, rfl⟩

theorem State.orFree_keepsLearning (s : State) (x : Option Int) : KeepsLearning s (s.orFree x).2 := by
  obtain ⟨_, hfree⟩ := s.orFree_frame x
  rw [hfree]
  exact ⟨rfl, rfl, id, rfl, rfl⟩

theorem State.putN_keepsLearning (s : State) (k : Nat) (x : Int) : KeepsLearning s (s.putN k x) := ⟨rfl, rfl, id, rfl, rfl⟩

theorem State.takeOffset_keepsLearning (s : State) (fit : Fit) : KeepsLearning s (s.takeOffset fit) :=
  ((s.orFree_keepsLearning _).trans (State.orFree_keepsLearning _ fit.uy)).trans ⟨rfl, rfl, id, rfl, rfl⟩

theorem State.takeTerms_keepsLearning (s : State) (fit : Fit) (l : List LearnSample) : KeepsLearning s (s.takeTerms fit l) :=
  ((((s.orFree_keepsLearning _).trans (State.orFree_keepsLearning _ fit.c)).trans (State.orFree_keepsLearning _ fit.ua)).trans
    (State.orFree_keepsLearning _ fit.uc)).trans ⟨rfl, rfl, id, rfl, rfl⟩

theorem State.refit_keepsLearning (s : State) (l : List LearnSample) : KeepsLearning s (s.refit l) := by
  unfold State.refit
  dsimp only
  split
  · exact s.takeOffset_keepsLearning _
  · exact (s.takeOffset_keepsLearning _).trans (State.takeTerms_keepsLearning _ _ l)

theorem State.qualifyModel_keepsLearning (s : State) (learned : Nat) : KeepsLearning s (s.qualifyModel learned) := by
  unfold State.qualifyModel
  split
  · exact s.setModel_keepsLearning (by decide)
  · split
    · exact s.setModel_keepsLearning (by decide)
    · exact KeepsLearning.refl s

theorem State.learn_learns (s : State) : s.learn.hold.samples = s.windowed ∧ s.learn.hold.learned = s.windowed.length
    ∧ s.learn.hold.model ≠ .none ∧ s.learn.loops = s.loops ∧ s.learn.tb = s.tb := by
  unfold State.learn
  split
  case isTrue =>
    obtain ⟨_, _, _, hmodel⟩ := s.withSample.setModel_frame .learning
    rw [hmodel]
    exact ⟨rfl, rfl, nofun, rfl, rfl⟩
  case isFalse hmodel => exact ⟨rfl, rfl, hmodel, rfl, rfl⟩

theorem State.learnAndRefit_keepsLearning (s : State) : KeepsLearning s.learn s.learnAndRefit :=
  (s.learn.refit_keepsLearning s.windowed).trans
    ((State.putN_keepsLearning _ _ _).trans (State.qualifyModel_keepsLearning _ _))

/-- The reading that comes with a sample changes neither the samples, what they are made of, nor their window. -/
theorem State.windowed_updateTemp (s : State) (temp : Int) : (s.updateTemp temp).windowed
    = (({ t := s.now, y := s.hold.efcApplied - s.loops[0].freqEst, temp := (s.updateTemp temp).hold.tFilt } : LearnSample)
        :: s.hold.samples).filter (fun x => (s.now : Int) - x.t ≤ (ticksS (s.nn Obj.model_window) : Nat)) := by
  obtain ⟨_, _, _, _, htemp⟩ := s.updateTemp_frame temp
  have hwindow : (s.updateTemp temp).nn Obj.model_window = s.nn Obj.model_window := by
    rw [htemp]
    exact s.nn_putN_ne (by decide) temp
  rw [State.windowed, hwindow, htemp]
  rfl

theorem modelLearnSample_learns {s : State} {temp : Int} (hlocked : (s.updateTemp temp).loops[0].state = .locked)
    (htransition : (s.updateTemp temp).selT.transition = none) (hfree : (s.updateTemp temp).hold.model ≠ .frozen)
    (hdisputes : (s.updateTemp temp).disputes = []) :
    Yields (.modelLearnSample temp) s fun t => t.hold.samples = (s.updateTemp temp).windowed
      ∧ t.hold.learned = t.hold.samples.length ∧ t.hold.model ≠ .none ∧ t.loops = s.loops ∧ t.tb = s.tb := by
  obtain ⟨hsamples, hlearned, hmodel, hloops, htb⟩ := (s.updateTemp temp).learn_learns
  obtain ⟨_, _, _, _, htemp⟩ := s.updateTemp_frame temp
  have hkeeps := (s.updateTemp temp).learnAndRefit_keepsLearning
  refine ⟨_, exec_modelLearnSample_learns hlocked htransition hfree hdisputes, hkeeps.samples.trans hsamples, ?_,
    hkeeps.model hmodel, ?_, ?_⟩
  · rw [hkeeps.learned, hkeeps.samples, hlearned, hsamples]
  · rw [hkeeps.loops, hloops, htemp]
    rfl
  · rw [hkeeps.tb, htb, htemp]
    rfl

/-! ## EFC_UPDATE and EFC_COMPENSATE (R139, R140) -/

/-- The DAC takes a code one LSB up or down; the compensation of its step waits for efc_settle (R140). -/
def State.efcStep (s : State) (up : Bool) (code : Nat) : State :=
  let amount := (if up then -s.n Obj.efc_gain else s.n Obj.efc_gain) * 1000
  let t := s.writeDac code
  ({ t with hold := { t.hold with
      efcLast := some t.now, efcUp := some up,
      efcPending := t.hold.efcPending ++ [(t.now + ticksUs (t.nn Obj.efc_settle), amount)] } } : State).bump Obj.efc_update_count

theorem State.efcStep_code {s : State} (hstore : storeWf s.obj = true) (up : Bool) (code : Nat) :
    (s.efcStep up code).nn Obj.efc_code = code :=
  (State.nn_bump_ne _ (by decide) 1).trans ((State.nn_of_obj rfl _).trans (State.nn_putN_same hstore _ code))

theorem State.efcStep_pending (s : State) (code : Nat) : (s.efcStep true code).hold.efcPending
    = s.hold.efcPending ++ [(s.now + ticksUs (s.nn Obj.efc_settle), -s.n Obj.efc_gain * 1000)] := by
  have hsettle : (s.writeDac code).nn Obj.efc_settle = s.nn Obj.efc_settle := s.nn_putN_ne (by decide) code
  rw [← hsettle]
  rfl

/-- With a negative gain a positive offset takes the code up; a turn of direction is journalled (R140). -/
theorem exec_efcUpdate_up {s : State} (hmay : s.efcMay = true) (hgain : s.n Obj.efc_gain < 0) (hoffset : 0 < s.predictedOffset)
    (hroom : s.nn Obj.efc_code + 1 < 2 ^ s.nn Obj.efc_bits) :
    exec .efcUpdate s = .next (if s.hold.efcUp = some false
      then (s.efcStep true (s.nn Obj.efc_code + 1)).log 0 0x2107 (be 4 (s.nn Obj.efc_code + 1 : Nat) ++ be 1 1)
      else s.efcStep true (s.nn Obj.efc_code + 1)) := by
  have hup : decide ((0 < s.n Obj.efc_gain) ≠ (0 < s.predictedOffset)) = true := by
    simp [Int.not_lt.mpr hgain.le, hoffset]
  have hopen : ¬ ((!s.efcMay || s.n Obj.efc_gain = 0 || s.predictedOffset = 0) = true) := by
    simp [hmay, hgain.ne, hoffset.ne']
  have hcode : ¬ ((true && 2 ^ s.nn Obj.efc_bits ≤ s.nn Obj.efc_code + 1 || !true && s.nn Obj.efc_code = 0) = true) := by
    simp [hroom]
  refine (if_neg hopen).trans ?_
  rw [hup]
  refine (if_neg hcode).trans ?_
  cases hlast : s.hold.efcUp with
  | none => rfl
  | some up =>
    cases up with
    | false => rfl
    | true => rfl

theorem efcUpdate_up {s : State} (hw : Wf s) (hmay : s.efcMay = true) (hgain : s.n Obj.efc_gain < 0)
    (hoffset : 0 < s.predictedOffset) (hroom : s.nn Obj.efc_code + 1 < 2 ^ s.nn Obj.efc_bits) :
    Yields .efcUpdate s fun t => t.nn Obj.efc_code = s.nn Obj.efc_code + 1 ∧ t.hold.efcLast = some s.now
      ∧ t.hold.efcUp = some true
      ∧ t.hold.efcPending = s.hold.efcPending ++ [(s.now + ticksUs (s.nn Obj.efc_settle), -s.n Obj.efc_gain * 1000)]
      ∧ t.loops = s.loops ∧ t.tb = s.tb := by
  obtain ⟨hstore, -⟩ := hw
  refine ⟨_, exec_efcUpdate_up hmay hgain hoffset hroom, ?_⟩
  split
  · rw [State.nn_of_obj (State.log_obj _ _ _ _ (by decide)), State.log_hold, State.log_loops, State.log_tb]
    exact ⟨State.efcStep_code hstore _ _, rfl, rfl, s.efcStep_pending _, rfl, rfl⟩
  · exact ⟨State.efcStep_code hstore _ _, rfl, rfl, s.efcStep_pending _, rfl, rfl⟩

theorem exec_efcCompensate_due {s : State} (hdue : s.hold.efcPending.filter (fun p => p.1 ≤ s.now) ≠ []) :
    exec .efcCompensate s = .next
      ((({ s with hold := { s.hold with efcPending := s.hold.efcPending.filter fun p => s.now < p.1 } } : State).compensate
        ((s.hold.efcPending.filter fun p => p.1 ≤ s.now).map (·.2)).sum).requestSegment (.rate false)) :=
  if_neg hdue

/-- Settles O11: each clause is the equation of its command's branch; what follows a learned sample, the refit and a change of the
model's state, leaves what was learned. -/
theorem oscillatorModel : Obligations.OscillatorModel := by
  refine ⟨fun s x => oscMonitor_above, fun s x => oscMonitor_within, fun s => modelReset_forgets, fun s => exec_modelStore,
    fun s temp hlocked htransition hfree hdisputes => ?_, fun s => efcUpdate_up, fun s => exec_efcCompensate_due⟩
  rw [← State.windowed_updateTemp]
  exact modelLearnSample_learns hlocked htransition hfree hdisputes

end Sys2Proof.Machine
end

section
/-! Captures (R173-R175): CAPTURE_EDGE, CAPTURE_CONVERT, CAP_ACK_SEQ. -/

namespace Sys2Proof.Machine

open Sys2Proof.Safety

/-! ## CAPTURE_EDGE -/

theorem State.setCap_cap (s : State) (c : Fin 16) (x : Capture) : (s.setCap c x).caps[c] = x := by simp

theorem State.setCap_setCap (s : State) (c : Fin 16) (x y : Capture) : (s.setCap c x).setCap c y = s.setCap c y := by
  simp [State.setCap]

section
variable (s : State) (c : Fin 16) (x : Capture)

theorem State.setCap_nn (k : Nat) : (s.setCap c x).nn k = s.nn k := rfl

theorem State.setCap_flag (k : Nat) : (s.setCap c x).flag k = s.flag k := rfl

theorem State.setCap_octs (k : Nat) : (s.setCap c x).octs k = s.octs k := rfl

theorem State.setCap_putN (k : Nat) (v : Int) : (s.setCap c x).putN k v = (s.putN k v).setCap c x := rfl

theorem State.setCap_putO (k : Nat) (b : Bytes) : (s.setCap c x).putO k b = (s.putO k b).setCap c x := rfl

theorem State.setCap_capBytes (seq stamp : Nat) (falling : Bool) :
    (s.setCap c x).capBytes seq stamp falling = s.capBytes seq stamp falling := rfl

end

/-- An edge that no output names as its alignment source reaches none (R168). -/
theorem State.alignFeed_of_no_source {s : State} {source : Nat} (h : ∀ o : Fin 20, s.nn (Obj.align_source o) ≠ source)
    (stamp : Nat) : s.alignFeed source stamp = s :=
  List.foldl_fixed' (fun o => if_neg (h o)) _

/-- The level a transition leads to, and the selected edge it is. -/
def State.noteEdge (s : State) (c : Fin 16) (stamp : Nat) (falling : Bool) : State :=
  s.setCap c { s.caps[c] with level := !falling, lastEdge := some stamp }

/-- A selected edge of the unit's own pin enters the stamp queue; one of a REFIN source does not (R173). -/
def State.takeEdge (s : State) (c : Fin 16) (stamp : Nat) (falling : Bool) : State :=
  if s.n (Obj.cap_input c) = 0 then (s.noteEdge c stamp falling).capPush c stamp falling else s.noteEdge c stamp falling

/-- A unit with room whose queue a stamp has entered, cap_delay subtracted. -/
def State.queuedEdge (s : State) (c : Fin 16) (stamp : Nat) (falling : Bool) : Capture :=
  { level := !falling, lastEdge := some stamp,
    queue := s.caps[c].queue ++ [(stampLess stamp (s.n (Obj.cap_delay c)), falling)],
    busyUntil := if s.caps[c].queue = [] then max s.caps[c].busyUntil (s.now + 50) else s.caps[c].busyUntil }

theorem State.takeEdge_pin {s : State} {c : Fin 16} (hpin : s.n (Obj.cap_input c) = 0) (henable : s.flag (Obj.cap_enable c) = true)
    (hroom : s.caps[c].queue.length < 16) (stamp : Nat) (falling : Bool) :
    s.takeEdge c stamp falling = s.setCap c (s.queuedEdge c stamp falling) := by
  have hcap : (s.noteEdge c stamp falling).caps[c] = { s.caps[c] with level := !falling, lastEdge := some stamp } :=
    s.setCap_cap c _
  have henable : (s.noteEdge c stamp falling).flag (Obj.cap_enable c) = true := henable
  rw [State.takeEdge, if_pos hpin, State.capPush, hcap, if_neg (by simp [henable]), if_neg (Nat.not_le.mpr hroom)]
  exact s.setCap_setCap ..

section
variable {s : State} {c : Fin 16} {stamp stable : Nat} {falling : Bool} (hawake : s.awake 2 = true)
  (hlevel : s.caps[c].level = falling)
include hawake hlevel

theorem exec_captureEdge_glitch (hpin : s.n (Obj.cap_input c) = 0) (hshort : stable < s.nn (Obj.cap_filter c)) :
    exec (.captureEdge c stamp falling stable) s = .next (s.bump (Obj.cap_glitch c)) := by
  show execCaptureEdge c stamp falling stable s = _
  simp [execCaptureEdge, hawake, hlevel, hpin, hshort, -Fin.getElem_fin]

variable (hlong : s.nn (Obj.cap_filter c) ≤ stable) (hboth : s.n (Obj.cap_edge c) = 2) (hfilter : s.n (Obj.cap_filter c) ≠ 0)
include hlong hboth hfilter

/-- With both edges selected and a filter set, an edge that lasts is taken, however close the one before it. -/
theorem exec_captureEdge_selected : exec (.captureEdge c stamp falling stable) s
    = .next ((s.takeEdge c stamp falling).alignFeed (16 + c)
        (stampLess stamp ((s.takeEdge c stamp falling).n (Obj.cap_delay c)))) := by
  have hn (k : Nat) (x : Capture) : (s.setCap c x).n k = s.n k := rfl
  refine (if_neg ?_).trans ((if_neg (Nat.not_lt.mpr hlong)).trans ((if_neg ?_).trans ((if_neg ?_).trans ?_)))
  · simp [hawake, hlevel, -Fin.getElem_fin]
  · simp [hn, hboth]
  · cases s.caps[c].lastEdge <;> simp [hn, hfilter]
  · simp only [State.setCap_setCap, State.setCap_cap, beq_iff_eq]
    rfl

theorem captureEdge_queues (hpin : s.n (Obj.cap_input c) = 0) (henable : s.flag (Obj.cap_enable c) = true)
    (hroom : s.caps[c].queue.length < 16) (hsource : ∀ o : Fin 20, s.nn (Obj.align_source o) ≠ 16 + c) :
    Yields (.captureEdge c stamp falling stable) s fun t =>
      t.caps[c].queue = s.caps[c].queue ++ [(stampLess stamp (s.n (Obj.cap_delay c)), falling)]
      ∧ t.caps[c].level = !falling ∧ t = { s with caps := t.caps } := by
  refine ⟨_, exec_captureEdge_selected hawake hlevel hlong hboth hfilter, ?_⟩
  rw [State.takeEdge_pin hpin henable hroom, State.alignFeed_of_no_source (by exact hsource)]
  exact ⟨congrArg Capture.queue (s.setCap_cap ..), congrArg Capture.level (s.setCap_cap ..), rfl⟩

theorem exec_captureEdge_refin (hrefin : s.n (Obj.cap_input c) ≠ 0) : exec (.captureEdge c stamp falling stable) s
    = .next ((s.noteEdge c stamp falling).alignFeed (16 + c) (stampLess stamp (s.n (Obj.cap_delay c)))) := by
  rw [exec_captureEdge_selected hawake hlevel hlong hboth hfilter, State.takeEdge, if_neg hrefin]
  rfl

end

/-! ## CAPTURE_CONVERT -/

theorem State.n_putO_ne (s : State) {a b : Nat} (x : Bytes) (h : a ≠ b) : (s.putO b x).n a = s.n a := by
  simp only [State.n, s.get_putO_ne x h]

/-- The sequence of the entry that comes next. -/
def State.nextCapSeq (s : State) (c : Fin 16) : Nat := (s.nn (Obj.cap_newest_seq c) + 1) % 2 ^ 32

/-- An entry joins the FIFO (R173): the newest sequence, the counts and the entry's bytes. -/
def State.addEntry (s : State) (c : Fin 16) (stamp : Nat) (falling : Bool) : State :=
  (((s.putN (Obj.cap_newest_seq c) (s.nextCapSeq c)).putN (Obj.cap_count c) (s.nn (Obj.cap_count c) + 1)).putN
    (Obj.cap_entries c) (s.nn (Obj.cap_count c) + 1)).putO (Obj.cap_entry c (s.nextCapSeq c % 64))
    (s.capBytes (s.nextCapSeq c) stamp falling)

theorem State.addEntry_frame (s : State) (c : Fin 16) (stamp : Nat) (falling : Bool) :
    ∃ obj, s.addEntry c stamp falling = { s with obj } := by
  unfold State.addEntry State.putN State.putO State.put
  exact ⟨_, rfl⟩

/-- The entries lie above the unit's other objects. -/
theorem State.addEntry_n_below (s : State) (c : Fin 16) (stamp : Nat) (falling : Bool) {k : Nat} (h : k < Obj.cap_entries c) :
    (s.addEntry c stamp falling).n k
      = ((s.putN (Obj.cap_newest_seq c) (s.nextCapSeq c)).putN (Obj.cap_count c) (s.nn (Obj.cap_count c) + 1)).n k := by
  have hentry : k ≠ Obj.cap_entry c (s.nextCapSeq c % 64) := by
    unfold Obj.cap_entries at h
    unfold Obj.cap_entry
    omega
  rw [State.addEntry, State.n_putO_ne _ _ hentry, State.n_putN_ne _ _ h.ne]

theorem State.addEntry_flag_journal (s : State) (c : Fin 16) (stamp : Nat) (falling : Bool) :
    (s.addEntry c stamp falling).flag (Obj.cap_journal c) = s.flag (Obj.cap_journal c) := by
  have hbelow : Obj.cap_journal c < Obj.cap_entries c := by unfold Obj.cap_journal Obj.cap_entries; omega
  have hcount : Obj.cap_journal c ≠ Obj.cap_count c := by unfold Obj.cap_journal Obj.cap_count; omega
  have hnewest : Obj.cap_journal c ≠ Obj.cap_newest_seq c := by unfold Obj.cap_journal Obj.cap_newest_seq; omega
  rw [State.flag, State.addEntry_n_below _ _ _ _ hbelow, State.n_putN_ne _ _ hcount, State.n_putN_ne _ _ hnewest, State.flag]

section
variable {s : State} (hstore : storeWf s.obj = true) (c : Fin 16) (stamp : Nat) (falling : Bool)
include hstore

theorem State.addEntry_newest_seq : (s.addEntry c stamp falling).nn (Obj.cap_newest_seq c) = s.nextCapSeq c := by
  have hbelow : Obj.cap_newest_seq c < Obj.cap_entries c := by unfold Obj.cap_newest_seq Obj.cap_entries; omega
  have hcount : Obj.cap_newest_seq c ≠ Obj.cap_count c := by unfold Obj.cap_newest_seq Obj.cap_count; omega
  rw [State.nn, State.addEntry_n_below _ _ _ _ hbelow, State.n_putN_ne _ _ hcount, State.n_putN_same hstore, Int.toNat_natCast]

theorem State.addEntry_count : (s.addEntry c stamp falling).nn (Obj.cap_count c) = s.nn (Obj.cap_count c) + 1 := by
  have hbelow : Obj.cap_count c < Obj.cap_entries c := by unfold Obj.cap_count Obj.cap_entries; omega
  rw [State.nn, State.addEntry_n_below _ _ _ _ hbelow, State.n_putN_same (State.storeWf_putN hstore ..)]
  rfl

theorem State.addEntry_entry : (s.addEntry c stamp falling).octs (Obj.cap_entry c (s.nextCapSeq c % 64))
    = s.capBytes (s.nextCapSeq c) stamp falling :=
  State.octs_putO_same (State.storeWf_putN (State.storeWf_putN (State.storeWf_putN hstore ..) ..) ..) ..

end

/-- With room in the FIFO the oldest stamp leaves the queue for it, and the unit is busy for 40 ns (model choice, log entry 40). -/
theorem exec_captureConvert_room {s : State} {c : Fin 16} {stamp : Nat} {falling : Bool} {r : List (Nat × Bool)}
    (hqueue : s.caps[c].queue = (stamp, falling) :: r) (hidle : s.caps[c].busyUntil ≤ s.now) (hroom : s.nn (Obj.cap_count c) < 64)
    (hquiet : s.flag (Obj.cap_journal c) = false) : exec (.captureConvert c) s
      = .next ((s.addEntry c stamp falling).setCap c { s.caps[c] with queue := r, busyUntil := s.now + 50 }) := by
  have hflag : ¬ ((s.addEntry c stamp falling).setCap c { s.caps[c] with queue := r, busyUntil := s.now + 50 }).flag
      (Obj.cap_journal c) = true :=
    Bool.eq_false_iff.mp ((State.setCap_flag ..).trans ((s.addEntry_flag_journal c stamp falling).trans hquiet))
  show execCaptureConvert c s = _
  simp only [execCaptureConvert, hqueue, if_neg (Nat.not_lt.mpr hidle), State.setCap_nn, Nat.not_le.mpr hroom, decide_false,
    Bool.false_and, Bool.false_eq_true, if_false, State.setCap_putN, State.setCap_putO, State.setCap_capBytes]
  exact congrArg Host.Outcome.next (if_neg hflag)

theorem captureConvert_room {s : State} {c : Fin 16} {stamp : Nat} {falling : Bool} {r : List (Nat × Bool)} (hw : Wf s)
    (hqueue : s.caps[c].queue = (stamp, falling) :: r) (hidle : s.caps[c].busyUntil ≤ s.now) (hroom : s.nn (Obj.cap_count c) < 64)
    (hquiet : s.flag (Obj.cap_journal c) = false) : Yields (.captureConvert c) s fun t =>
      t.caps[c].queue = r ∧ t.caps[c].busyUntil = s.now + 50 ∧ t.nn (Obj.cap_newest_seq c) = s.nextCapSeq c
      ∧ t.nn (Obj.cap_count c) = s.nn (Obj.cap_count c) + 1
      ∧ t.octs (Obj.cap_entry c (s.nextCapSeq c % 64)) = s.capBytes (s.nextCapSeq c) stamp falling
      ∧ t = { s with caps := t.caps, obj := t.obj } := by
  obtain ⟨hstore, -⟩ := hw
  refine ⟨_, exec_captureConvert_room hqueue hidle hroom hquiet, ?_, ?_, ?_, ?_, ?_, ?_⟩
  · rw [State.setCap_cap]
  · rw [State.setCap_cap]
  · rw [State.setCap_nn, State.addEntry_newest_seq hstore]
  · rw [State.setCap_nn, State.addEntry_count hstore]
  · rw [State.setCap_octs, State.addEntry_entry hstore]
  · obtain ⟨_, hframe⟩ := s.addEntry_frame c stamp falling
    rw [hframe]
    rfl

/-! ## CAP_ACK_SEQ -/

/-- The entries left once those up to a sequence are consumed (R175). -/
def State.capLeft (s : State) (c : Fin 16) (seq : Nat) : Int :=
  min (s.n (Obj.cap_count c)) (s.n (Obj.cap_newest_seq c) - seq)

/-- The entries up to a sequence are consumed. -/
def State.consumeTo (s : State) (c : Fin 16) (seq : Nat) : State :=
  ((s.putN (Obj.cap_ack_seq c) seq).putN (Obj.cap_count c) (s.capLeft c seq)).putN (Obj.cap_entries c) (s.capLeft c seq)

section
variable {s : State} {c : Fin 16} {seq : Nat}

theorem exec_capAckSeq_ok (hok : s.capAckOk c seq = true) : exec (.capAckSeq c seq) s = .next (s.consumeTo c seq) :=
  if_neg (by simp [hok])

theorem exec_capAckSeq_refused (hok : s.capAckOk c seq = false) : exec (.capAckSeq c seq) s = .next s :=
  if_pos (by simp [hok])

theorem State.consumeTo_ack_seq (hstore : storeWf s.obj = true) : (s.consumeTo c seq).n (Obj.cap_ack_seq c) = seq := by
  have hentries : Obj.cap_ack_seq c ≠ Obj.cap_entries c := by unfold Obj.cap_ack_seq Obj.cap_entries; omega
  have hcount : Obj.cap_ack_seq c ≠ Obj.cap_count c := by unfold Obj.cap_ack_seq Obj.cap_count; omega
  rw [State.consumeTo, State.n_putN_ne _ _ hentries, State.n_putN_ne _ _ hcount, State.n_putN_same hstore]

theorem State.consumeTo_count (hstore : storeWf s.obj = true) : (s.consumeTo c seq).n (Obj.cap_count c) = s.capLeft c seq := by
  have hentries : Obj.cap_count c ≠ Obj.cap_entries c := by unfold Obj.cap_count Obj.cap_entries; omega
  rw [State.consumeTo, State.n_putN_ne _ _ hentries, State.n_putN_same (State.storeWf_putN hstore ..)]

theorem State.consumeTo_objBut (s : State) (c : Fin 16) (seq : Nat) :
    ObjBut s (s.consumeTo c seq) [Obj.cap_ack_seq c, Obj.cap_count c, Obj.cap_entries c] := by
  intro k hk
  simp only [List.mem_cons, List.not_mem_nil, or_false, not_or] at hk
  obtain ⟨hack, hcount, hentries⟩ := hk
  rw [State.consumeTo, State.get_putN_ne _ _ hentries, State.get_putN_ne _ _ hcount, State.get_putN_ne _ _ hack]

end

/-- Settles O8: each clause is the equation of its command's branch; the objects it writes are read back. -/
theorem captures : Obligations.Captures :=
  ⟨fun _ _ _ _ _ hawake hpin hlevel => exec_captureEdge_glitch hawake hlevel hpin,
    fun _ _ _ _ _ => captureEdge_queues, fun _ _ _ _ _ => exec_captureEdge_refin, fun _ _ _ _ _ => captureConvert_room,
    fun s c seq ⟨hstore, _⟩ hok => ⟨_, exec_capAckSeq_ok hok, State.consumeTo_ack_seq hstore, State.consumeTo_count hstore,
      s.consumeTo_objBut c seq, rfl⟩,
    fun _ _ _ => exec_capAckSeq_refused⟩

end Sys2Proof.Machine
end

section
/-! Outputs (R153-R166): OUTPUT_EDGE, OUTPUT_PHASE_JUMP, START_TIME_COMMIT, PAD_COMPENSATION_UPDATE. -/

namespace Sys2Proof.Machine

open Sys2Proof.Safety

/-! ## OUTPUT_EDGE -/

section
variable {s : State} {n : Fin 20} {t : Rat}

/-- A committed function or loop is adopted once no interval is in progress (R163). -/
theorem exec_outputEdge_changed (hawake : s.awake 2 = true)
    (hchanged : s.outs[n].fn ≠ s.nn (Obj.out_function n) ∨ s.outs[n].loop ≠ s.nn (Obj.out_loop n))
    (hidle : s.outs[n].activeUntil ≤ s.stamp) (pad : Option Int) : exec (.outputEdge n pad) s = .next (s.evalOut n) := by
  refine (if_neg (by simp [hawake])).trans (if_pos ?_)
  simpa only [Bool.and_eq_true, Bool.or_eq_true, decide_eq_true_eq] using And.intro hchanged hidle

variable (hfn : s.outs[n].fn = s.nn (Obj.out_function n)) (hloop : s.outs[n].loop = s.nn (Obj.out_loop n))
include hfn hloop

theorem exec_outputEdge_early (hraw : s.outs[n].nextRaw = none) (hnext : s.outs[n].next = some t)
    (hearly : s.stamp < s.edgeStamp n t) (pad : Option Int) : exec (.outputEdge n pad) s = .next s := by
  cases hawake : s.awake 2 with
  | false => exact if_pos (by simp [hawake])
  | true =>
    refine (if_neg (by simp [hawake])).trans ((if_neg (by simp [hfn, hloop, -Fin.getElem_fin])).trans ?_)
    simp only [hraw, hnext]
    exact if_pos hearly

variable (hawake : s.awake 2 = true)
include hawake

/-- A clock on DPLL-F takes its next rising edge one period later (R155). -/
theorem exec_outputEdge_clock {r : Rat} (hraw : s.outs[n].nextRaw = some r) (hdue : r ≤ s.stamp) (hon : s.outs[n].fn ≠ 0)
    (pad : Option Int) : exec (.outputEdge n pad) s = .next (((s.setOut n
      { s.outs[n] with nextRaw := some (r + s.periodF n), activeUntil := (r + s.periodF n / 2).floor.toNat,
                       lastEdge := (r.floor.toNat, s.convert r.floor.toNat) }).padSample n pad).evalOut n) := by
  refine (if_neg (by simp [hawake])).trans ((if_neg (by simp [hfn, hloop, -Fin.getElem_fin])).trans ?_)
  simp only [hraw]
  exact if_neg (by simp [not_lt.mpr hdue, hon, -Fin.getElem_fin])

variable (hraw : s.outs[n].nextRaw = none) (hnext : s.outs[n].next = some t) (hdue : s.edgeStamp n t ≤ s.stamp)
  (hfree : s.holdCause n = none)
include hraw hnext hdue hfree

/-- A grid edge that is due is produced; an output held until then starts with it (R161). -/
theorem exec_outputEdge_due (pad : Option Int) : exec (.outputEdge n pad) s = .next ((if s.n (Obj.out_state n) = 1
    then ((s.setOut n (s.outs[n].padStart s n)).putN (Obj.out_state n) 2).logStarted n else s).produceEdge n t pad) := by
  refine (if_neg (by simp [hawake])).trans ((if_neg (by simp [hfn, hloop, -Fin.getElem_fin])).trans ?_)
  simp only [hraw, hnext, hfree]
  exact (if_neg (Nat.not_lt.mpr hdue)).trans (if_neg nofun)

theorem exec_outputEdge_running (hstate : s.n (Obj.out_state n) ≠ 1) (pad : Option Int) :
    exec (.outputEdge n pad) s = .next (s.produceEdge n t pad) := by
  rw [exec_outputEdge_due hfn hloop hawake hraw hnext hdue hfree, if_neg hstate]

theorem exec_outputEdge_starts (hstate : s.n (Obj.out_state n) = 1) (pad : Option Int) : exec (.outputEdge n pad) s
    = .next ((((s.setOut n (s.outs[n].padStart s n)).putN (Obj.out_state n) 2).logStarted n).produceEdge n t pad) := by
  rw [exec_outputEdge_due hfn hloop hawake hraw hnext hdue hfree, if_pos hstate]

end

/-! ## OUTPUT_PHASE_JUMP -/

theorem exec_outputPhaseJump_due {s : State} {n : Fin 20} {t : Rat} (hnext : s.outs[n].next = some t)
    (hjump : s.outs[n].jump = true) (hdue : s.edgeStamp n t ≤ s.stamp) :
    exec (.outputPhaseJump n) s = .next (s.takeJump n t) := by
  show execOutputPhaseJump n s = _
  simp only [execOutputPhaseJump, hnext]
  exact if_pos (by simp [hjump, hdue, -Fin.getElem_fin])

/-! ## START_TIME_COMMIT -/

section
variable {s : State} {n : Fin 20} {time : Nat}

theorem exec_startTimeCommit_soon (htime : time ≠ 0) (hsoon : (time : Int) < s.time + 65536000000) :
    exec (.startTimeCommit n time) s = .next s :=
  congrArg Host.Outcome.next (if_pos ⟨htime, hsoon⟩)

/-- A series whose index 0 comes at start_time plus output_offset, in a state `u` in which start_time is written (R160). -/
def State.newSeries (u : State) (g : OutGen) (n : Fin 20) (time : Nat) : State :=
  let base : Rat := (time : Int) + u.n (Obj.output_offset n) * unitsPerPs
  (u.setOut n { g with base, index := 0, jump := false, after := none,
                       next := if g.fn = 7 ∧ time ≠ 0 then some base else none }).evalOut n

variable (htime : time = 0 ∨ s.time + 65536000000 ≤ time)
include htime

theorem startTime_ahead : ¬ (time ≠ 0 ∧ (time : Int) < s.time + 65536000000) :=
  fun ⟨hset, hsoon⟩ => htime.elim hset (Int.not_le.mpr hsoon)

theorem exec_startTimeCommit_first (hfirst : s.n (Obj.start_time n) = 0) :
    exec (.startTimeCommit n time) s = .next ((s.putN (Obj.start_time n) time).newSeries s.outs[n] n time) := by
  have hformer : (!decide (s.n (Obj.start_time n) ≠ 0 ∧ s.outs[n].fn = 7)) = true := by simp [hfirst]
  show execStartTimeCommit n time s = _
  simp only [execStartTimeCommit, State.startSeries, if_neg (startTime_ahead htime), if_pos hformer]
  rfl

theorem exec_startTimeCommit_again (hset : s.n (Obj.start_time n) ≠ 0) (hfn : s.outs[n].fn = 7)
    (hcount : s.nn (Obj.start_count n) ≠ 0) : exec (.startTimeCommit n time) s
      = .next (((s.putN (Obj.start_time n) time).bump (Obj.skipped_count n) (s.nn (Obj.start_count n) - s.outs[n].index)).newSeries
          s.outs[n] n time) := by
  have hformer : ¬ (!decide (s.n (Obj.start_time n) ≠ 0 ∧ s.outs[n].fn = 7)) = true := by simp [hset, hfn, -Fin.getElem_fin]
  show execStartTimeCommit n time s = _
  simp only [execStartTimeCommit, State.startSeries, if_neg (startTime_ahead htime), if_neg hformer, if_neg hcount]
  rfl

end

/-! ## PAD_COMPENSATION_UPDATE -/

/-- A measured delay is shown, and the compensation moves (R166). -/
def State.movePad (s : State) (n : Fin 20) (d move : Int) : State :=
  (s.putN (Obj.pad_delay n) d).setOut n { s.outs[n] with padComp := s.outs[n].padComp + move, padAt := some s.now }

section
variable (s : State) {n : Fin 20} (d move : Int)

theorem State.movePad_pad_delay (hstore : storeWf s.obj = true) : (s.movePad n d move).n (Obj.pad_delay n) = d :=
  State.n_putN_same hstore ..

theorem State.movePad_padComp : (s.movePad n d move).outs[n].padComp = s.outs[n].padComp + move := by simp [State.movePad]

theorem State.movePad_objBut : ObjBut s (s.movePad n d move) [Obj.pad_delay n] :=
  fun _ hk => s.get_putN_ne d (mt List.mem_singleton.mpr hk)

end

theorem natAbs_clampInt_le (x : Int) : (clampInt (-10) 10 x).natAbs ≤ 10 := by
  unfold clampInt
  split_ifs <;> omega

section
variable {s : State} {n : Fin 20}

theorem exec_padCompensationUpdate_early {a : Nat} (hat : s.outs[n].padAt = some a) (hearly : s.now < a + 1250000000)
    (delay : Option Int) : exec (.padCompensationUpdate n delay) s = .next s := by
  show execPadCompensationUpdate n delay s = _
  cases delay with
  | none => simp only [execPadCompensationUpdate, ite_self]
  | some d =>
    have hearly : s.now < a + ticksS 1 := hearly
    simp only [execPadCompensationUpdate, hat, hearly, decide_true, if_true, ite_self]

variable (hfirst : 64 ≤ s.outs[n].padFirst.length) (hlate : ∀ a, s.outs[n].padAt = some a → a + 1250000000 ≤ s.now)
  (d : Int)
include hfirst hlate

/-- A second after the last change and with the first 64 edges measured, the delay is taken. -/
theorem exec_padCompensationUpdate_due (hstate : s.n (Obj.out_state n) = 2 ∨ s.n (Obj.out_state n) = 4) :
    exec (.padCompensationUpdate n (some d)) s = .next (s.movePad n d
      (if s.n (Obj.out_state n) = 4 then 0 else clampInt (-10) 10 (d - s.outs[n].padComp))) := by
  have hdrives : ¬ (!(s.n (Obj.out_state n) == 2 || s.n (Obj.out_state n) == 4)) = true := by
    rcases hstate with h | h <;> simp [h]
  show execPadCompensationUpdate n (some d) s = _
  simp only [execPadCompensationUpdate, if_neg hdrives, if_neg (Nat.not_lt.mpr hfirst)]
  refine (if_neg ?_).trans rfl
  cases hat : s.outs[n].padAt with
  | none => nofun
  | some a => exact fun hearly => Nat.not_lt.mpr (hlate a hat) (of_decide_eq_true hearly)

theorem exec_padCompensationUpdate_running (hstate : s.n (Obj.out_state n) = 2) : exec (.padCompensationUpdate n (some d)) s
    = .next (s.movePad n d (clampInt (-10) 10 (d - s.outs[n].padComp))) := by
  rw [exec_padCompensationUpdate_due hfirst hlate d (.inl hstate), if_neg (by rw [hstate]; decide)]

theorem exec_padCompensationUpdate_faulted (hstate : s.n (Obj.out_state n) = 4) :
    exec (.padCompensationUpdate n (some d)) s = .next (s.movePad n d 0) := by
  rw [exec_padCompensationUpdate_due hfirst hlate d (.inr hstate), if_pos hstate]

end

/-- Settles O12: each clause is the equation of its command's branch; a change of the compensation reads back what it wrote. -/
theorem outputCommands : Obligations.OutputCommands := by
  refine ⟨fun s n pad t hawake hfn hloop hraw hnext hdue hfree hstate =>
      exec_outputEdge_running hfn hloop hawake hraw hnext hdue hfree hstate pad,
    fun s n pad t hawake hfn hloop hraw hnext hdue hfree hstate =>
      exec_outputEdge_starts hfn hloop hawake hraw hnext hdue hfree hstate pad,
    fun s n pad r hawake hfn hloop hraw hdue hon => exec_outputEdge_clock hfn hloop hawake hraw hdue hon pad,
    fun s n pad t hfn hloop hraw hnext hearly => exec_outputEdge_early hfn hloop hraw hnext hearly pad,
    fun s n pad hawake hchanged hidle => exec_outputEdge_changed hawake hchanged hidle pad,
    fun s n t => exec_outputPhaseJump_due, fun s n time => exec_startTimeCommit_first, fun s n time => exec_startTimeCommit_soon,
    fun s n time htime hset hfn hcount => ?_, fun s n d ⟨hstore, _⟩ hstate hfirst hlate => ?_,
    fun s n d a hat hearly => exec_padCompensationUpdate_early hat hearly d, fun s n d ⟨hstore, _⟩ hstate hfirst hlate => ?_⟩
  · rw [exec_startTimeCommit_again htime hset hfn hcount]
    simp only [State.newSeries, hfn, true_and]
  · refine ⟨_, exec_padCompensationUpdate_running hfirst hlate d hstate, s.movePad_pad_delay d _ hstore,
      s.movePad_padComp d _, ?_, s.movePad_objBut d _, rfl⟩
    rw [s.movePad_padComp, add_sub_cancel_left]
    exact natAbs_clampInt_le _
  · exact ⟨_, exec_padCompensationUpdate_faulted hfirst hlate d hstate, s.movePad_pad_delay d 0 hstore,
      (s.movePad_padComp d 0).trans (Int.add_zero _), s.movePad_objBut d 0, rfl⟩

end Sys2Proof.Machine
end

section
/-! Alignment of outputs (R168-R170), time-of-day frames (R171, R172), the start of a step segment (R90, R164). -/

namespace Sys2Proof.Machine

open Sys2Proof.Safety

/-! ## What a move of the grid leaves alone -/

/-- `t` has the alignment of output `n` that `s` has, and its objects but for skipped_count. -/
structure KeepsAlign (n : Fin 20) (s t : State) : Prop where
  align : t.outs[n].align = s.outs[n].align
  get : ∀ k ≠ Obj.skipped_count n, t.get k = s.get k

theorem outSource_ne_security (n : Fin 20) : outSource n ≠ 0x0900 := by
  unfold outSource
  omega

theorem State.setOut_out (s : State) (n : Fin 20) (g : OutGen) : (s.setOut n g).outs[n] = g := by simp

theorem Obj.align_trigger_ne_status (n : Fin 20) : Obj.align_trigger n ≠ Obj.align_status n := by
  unfold Obj.align_trigger Obj.align_status
  omega

namespace KeepsAlign

variable {n : Fin 20} {s t u : State}

theorem refl (s : State) : KeepsAlign n s s := ⟨rfl, fun _ _ => rfl⟩

theorem trans (h : KeepsAlign n s t) (h' : KeepsAlign n t u) : KeepsAlign n s u :=
  ⟨h'.align.trans h.align, fun k hk => (h'.get k hk).trans (h.get k hk)⟩

theorem setOut (h : KeepsAlign n s t) {g : OutGen} (hg : g.align = t.outs[n].align := by rfl) : KeepsAlign n s (t.setOut n g) :=
  h.trans ⟨by rw [State.setOut_out, hg], fun _ _ => rfl⟩

theorem putSkipped (h : KeepsAlign n s t) (x : Int) : KeepsAlign n s (t.putN (Obj.skipped_count n) x) :=
  h.trans ⟨rfl, fun _ hk => t.get_putN_ne x hk⟩

theorem bumpSkipped (h : KeepsAlign n s t) (d : Nat) : KeepsAlign n s (t.bump (Obj.skipped_count n) d) := h.putSkipped _

theorem log (h : KeepsAlign n s t) (code : Nat) (data : Bytes) : KeepsAlign n s (t.log (outSource n) code data) :=
  h.trans ⟨by rw [State.log_outs], fun k _ => State.get_of_obj (State.log_obj t _ _ _ (outSource_ne_security n)) k⟩

theorem setJournal (h : KeepsAlign n s t) (journal : Journal) : KeepsAlign n s { t with journal } :=
  h.trans ⟨rfl, fun _ _ => rfl⟩

theorem skipAtStep (h : KeepsAlign n s t) (start k : Nat) : KeepsAlign n s (t.skipAtStep n start k) := by
  unfold State.skipAtStep
  dsimp only
  split
  · exact setOut h
  · exact log (bumpSkipped (setOut h) _) _ _

theorem unskipAtStep (h : KeepsAlign n s t) (start : Nat) : KeepsAlign n s (t.unskipAtStep n start) := by
  unfold State.unskipAtStep
  dsimp only
  split
  · split
    · exact h
    · exact putSkipped (setJournal h _) _
  · exact h

theorem rephase (h : KeepsAlign n s t) (seg : Segment) : KeepsAlign n s (t.rephase n seg) := by
  unfold State.rephase
  dsimp only
  split
  · exact h
  · exact skipAtStep (setOut h) _ _

theorem seriesStep (h : KeepsAlign n s t) (seg : Segment) (x : Rat) : KeepsAlign n s (t.seriesStep n seg x) := by
  unfold State.seriesStep
  exact skipAtStep (setOut h) _ _

theorem moveSeries (h : KeepsAlign n s t) : KeepsAlign n s (t.moveSeries n) := by
  unfold State.moveSeries
  dsimp only
  split
  · exact setOut h
  · exact h

/-- A jump at the next instant, or the step's own adjustment of a series or of another function. -/
theorem regrid (h : KeepsAlign n s t) : KeepsAlign n s (t.regrid n) := by
  unfold State.regrid
  dsimp only
  split
  · exact setOut h
  · have hback := h.unskipAtStep t.stamp
    split
    · exact setOut h
    · split
      · exact seriesStep (moveSeries (setOut hback)) _ _
      · exact rephase (setOut hback) _

end KeepsAlign

/-! ## ALIGN_TRIGGER -/

section
variable {s : State} {n : Fin 20}

theorem exec_alignTrigger_refused (h : s.n (Obj.align_mode n) = 0 ∨ s.n (Obj.align_source n) = 0) :
    exec (.alignTrigger n) s = .next s := if_pos h

theorem alignTrigger_begins (hw : Wf s) (hmode : s.n (Obj.align_mode n) ≠ 0) (hsource : s.n (Obj.align_source n) ≠ 0) :
    Yields (.alignTrigger n) s fun t => t.n (Obj.align_status n) = 1 ∧ t.flag (Obj.align_trigger n) = true
      ∧ t.outs[n] = { s.outs[n] with align := { on := true, since := s.now } }
      ∧ t = { s with obj := t.obj, outs := t.outs } := by
  obtain ⟨hstore, -⟩ := hw
  have htrigger := State.storeWf_putB hstore (Obj.align_trigger n) true
  refine ⟨_, if_neg (not_or.mpr ⟨hmode, hsource⟩), State.n_putN_same htrigger .., ?_, ?_, rfl⟩
  · rw [State.alignBegin, State.flag_putN_ne _ _ (Obj.align_trigger_ne_status n)]
    exact State.flag_putB_same hstore ..
  · rw [State.alignBegin, State.putN_outs, State.setOut_out]
    rfl

end

/-! ## ALIGN_APPLIED -/

/-- The correction of a full block joins align_correction modulo the period, and measuring begins anew or ends (R169). -/
def State.applyBlock (s : State) (n : Fin 20) : State :=
  (s.putN (Obj.align_correction n) (psMod ((s.n (Obj.align_correction n)
    + psMod (s.blockMean n) (s.gridPeriod n s.outs[n].fn) : Int) : Rat) (s.gridPeriod n s.outs[n].fn))).setOut n
    { s.outs[n] with align := { on := s.n (Obj.align_mode n) == 2, first := false, since := s.now } }

theorem State.applyBlock_wf {s : State} (hw : Wf s) (n : Fin 20) : Wf (s.applyBlock n) :=
  (State.setOut_kept _ n _ (s.putN_kept _ _ (Kept.refl s))).wf hw

/-- The grid of an output that runs has moved. -/
def State.regridRunning (s : State) (n : Fin 20) : State :=
  if s.n (Obj.out_state n) == 2 || s.n (Obj.out_state n) == 4 then s.regrid n else s

theorem State.regridRunning_keepsAlign (s : State) (n : Fin 20) : KeepsAlign n s (s.regridRunning n) := by
  unfold State.regridRunning
  split
  · exact (KeepsAlign.refl s).regrid
  · exact .refl s

theorem State.regridRunning_wf {s : State} (hw : Wf s) (n : Fin 20) : Wf (s.regridRunning n) := by
  unfold State.regridRunning
  split
  · exact (s.regrid_kept n (Kept.refl s)).wf hw
  · exact hw

/-- The jump's end: the trigger is cleared and the alignment's status is 2, journalled. -/
def State.showApplied (s : State) (n : Fin 20) (data : Bytes) : State :=
  ((s.putB (Obj.align_trigger n) false).putN (Obj.align_status n) 2).log (outSource n) 0x2406 data

section
variable {s : State} (hstore : storeWf s.obj = true) (n : Fin 20) (data : Bytes)

theorem State.showApplied_outs : (s.showApplied n data).outs = s.outs := State.log_outs ..

theorem State.showApplied_obj : (s.showApplied n data).obj
    = ((s.putB (Obj.align_trigger n) false).putN (Obj.align_status n) 2).obj :=
  State.log_obj _ _ _ _ (outSource_ne_security n)

theorem State.showApplied_correction : (s.showApplied n data).n (Obj.align_correction n) = s.n (Obj.align_correction n) := by
  have hstatus : Obj.align_correction n ≠ Obj.align_status n := by unfold Obj.align_correction Obj.align_status; omega
  have htrigger : Obj.align_correction n ≠ Obj.align_trigger n := by unfold Obj.align_correction Obj.align_trigger; omega
  rw [State.n_of_obj (State.showApplied_obj ..), State.n_putN_ne _ _ hstatus, State.n_putB_ne _ _ htrigger]

include hstore

theorem State.showApplied_status : (s.showApplied n data).n (Obj.align_status n) = 2 := by
  rw [State.n_of_obj (State.showApplied_obj ..), State.n_putN_same (State.storeWf_putB hstore ..)]

theorem State.showApplied_trigger : (s.showApplied n data).flag (Obj.align_trigger n) = false := by
  rw [State.flag_of_obj (State.showApplied_obj ..), State.flag_putN_ne _ _ (Obj.align_trigger_ne_status n),
    State.flag_putB_same hstore]

end

section
variable {s : State} {n : Fin 20} (hfull : s.blockFull n = true)
  (hmode : s.n (Obj.align_mode n) = 1 ∨ (s.n (Obj.align_mode n) = 2 ∧ s.outs[n].align.first = true))
  (hperiod : 0 < s.gridPeriod n s.outs[n].fn)
include hfull hmode hperiod

theorem exec_alignApplied_full : exec (.alignApplied n) s = .next (((s.applyBlock n).regridRunning n).showApplied n
    (be 8 (psMod (s.blockMean n) (s.gridPeriod n s.outs[n].fn)) ++ be 1 (s.n (Obj.align_mode n)))) := by
  refine (if_neg ?_).trans ?_
  · have happlies : s.n (Obj.align_mode n) == 1 || (s.n (Obj.align_mode n) == 2 && s.outs[n].align.first) := by
      rcases hmode with h | ⟨h, hfirst⟩
      · simp [h]
      · simp [h, hfirst, -Fin.getElem_fin]
    simp [hfull, happlies, not_le.mpr hperiod, -Fin.getElem_fin]
  · rfl

theorem alignApplied_full (hw : Wf s) : Yields (.alignApplied n) s fun t =>
    t.n (Obj.align_correction n) = psMod ((s.n (Obj.align_correction n)
      + psMod (s.blockMean n) (s.gridPeriod n s.outs[n].fn) : Int) : Rat) (s.gridPeriod n s.outs[n].fn)
    ∧ t.n (Obj.align_status n) = 2 ∧ t.flag (Obj.align_trigger n) = false
    ∧ t.outs[n].align = { on := s.n (Obj.align_mode n) == 2, first := false, since := s.now } := by
  have hkeeps := (s.applyBlock n).regridRunning_keepsAlign n
  obtain ⟨hregrid, -⟩ := State.regridRunning_wf (State.applyBlock_wf hw n) n
  have hcorrection : Obj.align_correction n ≠ Obj.skipped_count n := by unfold Obj.align_correction Obj.skipped_count; omega
  obtain ⟨hstore, -⟩ := hw
  refine ⟨_, exec_alignApplied_full hfull hmode hperiod, ?_, State.showApplied_status hregrid ..,
    State.showApplied_trigger hregrid .., ?_⟩
  · rw [State.showApplied_correction, State.n, hkeeps.get _ hcorrection]
    exact State.n_putN_same hstore ..
  · rw [State.showApplied_outs, hkeeps.align, State.applyBlock, State.setOut_out]

end

/-! ## ALIGN_CONTINUOUS_UPDATE -/

/-- A later block's correction, in (-P/2, P/2] (R170). -/
def State.laterCorrection (s : State) (n : Fin 20) : Int :=
  let p := s.gridPeriod n s.outs[n].fn
  let r := psMod (s.blockMean n) p
  rneRat (if p / unitsPerPs / 2 < r then r - p / unitsPerPs else r)

/-- A later block's correction joins align_correction and is to be slewed in; an empty block follows. -/
def State.slewBlock (s : State) (n : Fin 20) : State :=
  (s.putN (Obj.align_correction n) (psMod ((s.n (Obj.align_correction n) + s.laterCorrection n : Int) : Rat)
    (s.gridPeriod n s.outs[n].fn))).setOut n
    { s.outs[n] with slew := s.outs[n].slew + s.laterCorrection n * unitsPerPs,
                     align := { on := true, first := false, since := s.now } }

section
variable {s : State} {n : Fin 20} (hfull : s.blockFull n = true) (hmode : s.n (Obj.align_mode n) = 2)
  (hlater : s.outs[n].align.first = false) (hperiod : 0 < s.gridPeriod n s.outs[n].fn)
include hfull hmode hlater hperiod

theorem exec_alignContinuousUpdate_full :
    exec (.alignContinuousUpdate n) s = .next (((s.slewBlock n).putN (Obj.align_status n) 2).log (outSource n) 0x2406
      (be 8 (s.laterCorrection n) ++ be 1 2)) :=
  if_neg (by simp [hfull, hmode, hlater, not_le.mpr hperiod, -Fin.getElem_fin])

theorem alignContinuousUpdate_full (hw : Wf s) :
    Yields (.alignContinuousUpdate n) s fun t => t.n (Obj.align_status n) = 2
      ∧ t.outs[n].align = { on := true, first := false, since := s.now } ∧ t.outs[n].jump = s.outs[n].jump
      ∧ t.outs[n].next = s.outs[n].next := by
  obtain ⟨hstore, -⟩ := hw
  have hslewed : storeWf (s.slewBlock n).obj = true := State.storeWf_putN hstore ..
  refine ⟨_, exec_alignContinuousUpdate_full hfull hmode hlater hperiod, ?_, ?_, ?_, ?_⟩
  · rw [State.n_of_obj (State.log_obj _ _ _ _ (outSource_ne_security n)), State.n_putN_same hslewed]
  all_goals rw [State.log_outs, State.putN_outs, State.slewBlock, State.setOut_out]

end

/-! ## ALIGN_TIMEOUT -/

/-- The alignment ends with status 3, and the trigger is cleared. -/
def State.endAlign (s : State) (n : Fin 20) : State :=
  ((s.setOut n { s.outs[n] with align := {} }).putN (Obj.align_status n) 3).putB (Obj.align_trigger n) false

section
variable {s : State} (hstore : storeWf s.obj = true) (n : Fin 20)
include hstore

theorem State.endAlign_status : (s.endAlign n).n (Obj.align_status n) = 3 :=
  (State.n_putB_ne _ false (Obj.align_trigger_ne_status n).symm).trans (State.n_putN_same hstore ..)

theorem State.endAlign_trigger : (s.endAlign n).flag (Obj.align_trigger n) = false :=
  State.flag_putB_same (State.storeWf_putN hstore ..) ..

end

section
variable {s : State} {n : Fin 20} (hon : s.outs[n].align.on = true) (hpart : s.blockFull n = false)
  (hlate : s.outs[n].align.since + s.alignLimit n ≤ s.now)
include hon hpart hlate

theorem align_late :
    ¬ (!s.outs[n].align.on || s.blockFull n || decide (s.now < s.outs[n].align.since + s.alignLimit n)) = true := by
  simp [hon, hpart, hlate, -Fin.getElem_fin]

/-- A first block that is not complete in time ends the alignment (R169). -/
theorem exec_alignTimeout_first (hfirst : s.n (Obj.align_mode n) ≠ 2 ∨ s.outs[n].align.first = true) : exec (.alignTimeout n) s
    = .next ((s.endAlign n).log (outSource n) 0x2407 (be 1 ((s.endAlign n).n (Obj.align_source n)))) := by
  refine (if_neg (align_late hon hpart hlate)).trans (if_neg ?_)
  rintro ⟨hmode, hlater⟩
  rcases hfirst with h | h
  · exact h hmode
  · simp [h, -Fin.getElem_fin] at hlater

theorem alignTimeout_first (hw : Wf s) (hfirst : s.n (Obj.align_mode n) ≠ 2 ∨ s.outs[n].align.first = true) :
    Yields (.alignTimeout n) s fun t => t.n (Obj.align_status n) = 3 ∧ t.flag (Obj.align_trigger n) = false
      ∧ t.outs[n] = { s.outs[n] with align := {} } := by
  obtain ⟨hstore, -⟩ := hw
  have hobj (data : Bytes) : ((s.endAlign n).log (outSource n) 0x2407 data).obj = (s.endAlign n).obj :=
    State.log_obj _ _ _ _ (outSource_ne_security n)
  refine ⟨_, exec_alignTimeout_first hon hpart hlate hfirst, ?_, ?_, ?_⟩
  · rw [State.n_of_obj (hobj _), State.endAlign_status hstore]
  · rw [State.flag_of_obj (hobj _), State.endAlign_trigger hstore]
  · rw [State.log_outs, State.endAlign, State.putB_outs, State.putN_outs, State.setOut_out]

/-- A later block of a continuous alignment has status 3, and an empty block follows (R170). -/
theorem exec_alignTimeout_later (hmode : s.n (Obj.align_mode n) = 2) (hlater : s.outs[n].align.first = false) :
    exec (.alignTimeout n) s = .next ((s.setOut n { s.outs[n] with
      align := { s.outs[n].align with diffs := [], stamps := [], since := s.now } }).putN (Obj.align_status n) 3) :=
  (if_neg (align_late hon hpart hlate)).trans (if_pos ⟨hmode, by simp [hlater, -Fin.getElem_fin]⟩)

theorem alignTimeout_later (hw : Wf s) (hmode : s.n (Obj.align_mode n) = 2) (hlater : s.outs[n].align.first = false) :
    Yields (.alignTimeout n) s fun t => t.n (Obj.align_status n) = 3 ∧ t.outs[n].align.on = true ∧ t.outs[n].align.diffs = []
      ∧ ObjBut s t [Obj.align_status n] ∧ t = { s with obj := t.obj, outs := t.outs } := by
  obtain ⟨hstore, -⟩ := hw
  refine ⟨_, exec_alignTimeout_later hon hpart hlate hmode hlater, State.n_putN_same hstore .., ?_, ?_,
    fun _ hk => State.get_putN_ne _ 3 (mt List.mem_singleton.mpr hk), rfl⟩
  · rw [State.putN_outs, State.setOut_out, hon]
  · rw [State.putN_outs, State.setOut_out]

end

/-! ## TODOUT_FRAME -/

/-- The output once the frame of a labelled edge is sent, todout_delay after it (R171, R172). -/
def State.frameSent (s : State) (k : Fin 4) (stamp : Nat) (lbl : Int) : TodOut :=
  { edge := none, seq := (s.tods[k].seq + 1) % 65536,
    sent := if s.n (Obj.todout_format k) = 0 then s.rafFrame s.tods[k].seq lbl else s.zda lbl,
    sentFrom := some (stamp + s.nn (Obj.todout_delay k) * 320000000), sentBaud := s.nn (Obj.todout_baud k) }

theorem State.setTod_tod (s : State) (k : Fin 4) (x : TodOut) : (s.setTod k x).tods[k] = x := by simp

section
variable {s : State} {k : Fin 4} {stamp : Nat} {lbl : Int} (hedge : s.tods[k].edge = some (stamp, lbl))
  (hdue : stamp + s.nn (Obj.todout_delay k) * 320000000 ≤ s.stamp)
include hedge hdue

theorem exec_todoutFrame_omitted (hcond : s.n Obj.timing_condition = 0) :
    exec (.todoutFrame k) s = .next (s.setTod k { s.tods[k] with edge := none }) := by
  show execTodoutFrame k s = _
  simp only [execTodoutFrame, hedge, if_neg (Nat.not_lt.mpr hdue)]
  exact if_pos (.inl hcond)

theorem exec_todoutFrame_sent (hcond : s.n Obj.timing_condition ≠ 0)
    (hrun : s.n (Obj.out_state (s.nn (Obj.todout_output k))) = 2) :
    exec (.todoutFrame k) s = .next ((s.setTod k (s.frameSent k stamp lbl)).bump (Obj.todout_sent k)) := by
  show execTodoutFrame k s = _
  simp only [execTodoutFrame, hedge, if_neg (Nat.not_lt.mpr hdue)]
  exact if_neg (by simp [hcond, hrun])

theorem todoutFrame_sent (hcond : s.n Obj.timing_condition ≠ 0) (hrun : s.n (Obj.out_state (s.nn (Obj.todout_output k))) = 2) :
    Yields (.todoutFrame k) s fun t => t.tods[k].edge = none ∧ t.tods[k].seq = (s.tods[k].seq + 1) % 65536
      ∧ t.tods[k].sent = (if s.n (Obj.todout_format k) = 0 then s.rafFrame s.tods[k].seq lbl else s.zda lbl)
      ∧ t = { s with tods := t.tods, obj := t.obj } ∧ ObjBut s t [Obj.todout_sent k] := by
  refine ⟨_, exec_todoutFrame_sent hedge hdue hcond hrun, ?_, ?_, ?_, rfl,
    fun _ hk => State.get_bump_ne _ (mt List.mem_singleton.mpr hk) 1⟩
  all_goals rw [State.bump_tods, State.setTod_tod, State.frameSent]

end

/-! ## SEGMENT_START -/

/-- The outputs' intervals in progress move with the step, loops A and B take it, then each output acts on it (R162, R164). -/
theorem exec_segmentStart_step {s : State} {g : Segment} (hissued : s.tb.issued = some g) (hreserved : s.tb.reserved = none)
    (hrun : s.tb.running = true) (hstart : g.start ≤ s.tb.raw * 256) (hstep : g.step = true) :
    exec .segmentStart s = .next (
      let amount := g.time - (s.tb.segs.headD {}).convert g.start
      let u := (List.finRange 20).foldl (fun (u : State) (n : Fin 20) =>
        if u.seesStep n then u.carryWave n g.start amount else u) s
      let u := (List.finRange 20).foldl (fun (u : State) (n : Fin 20) => u.spanActive n g.start) (u.startIssued.mediaStep amount)
      ((List.finRange 20).foldl (fun (u : State) (n : Fin 20) => u.outStep n g amount) u).evalOuts.tryIssue) := by
  show execSegmentStart s = _
  simp only [execSegmentStart, hissued, hreserved, hrun, hstart, hstep, decide_true, Bool.and_self, if_true]

/-- Settles O13: each clause is the equation of its command's branch; a move of the grid leaves what an alignment has written. -/
theorem alignmentCommands : Obligations.AlignmentCommands :=
  ⟨fun _ _ => alignTrigger_begins, fun _ _ => exec_alignTrigger_refused,
    fun _ _ hw hfull hmode hperiod => alignApplied_full hfull hmode hperiod hw,
    fun _ _ hw hfull hmode hlater hperiod => alignContinuousUpdate_full hfull hmode hlater hperiod hw,
    fun _ _ hw hon hpart hlate => alignTimeout_first hon hpart hlate hw,
    fun _ _ hw hon hpart hlate => alignTimeout_later hon hpart hlate hw, fun _ _ _ _ => todoutFrame_sent,
    fun _ _ _ _ => exec_todoutFrame_omitted, fun _ _ => exec_segmentStart_step⟩

end Sys2Proof.Machine
end

section
/-! The front end of the sky receiver (R180-R188): scripts, the antenna supply, notches, the band monitors. -/

namespace Sys2Proof.Machine

open Sys2Proof.Safety

/-! ## FESPI_SCRIPT_SEND and FESPI_SETTLE_END (R183) -/

theorem State.setBand_band (s : State) (b : Fin 2) (x : Band) : (s.setBand b x).sky.bands[b] = x := by simp [State.setBand]

section
variable {s : State} {b : Fin 2}

theorem exec_fespiScriptSend_idle (hidle : s.sky.bands[b].scriptDue = false) (reads : List Bytes) :
    exec (.fespiScriptSend b reads) s = .next s :=
  if_pos (by simp [hidle, -Fin.getElem_fin])

/-- A band as its script begins. -/
def State.sendingBand (s : State) (b : Fin 2) : Band :=
  let recs := scriptRecords 1024 (s.octs (Obj.fespi_script b))
  let u := s.putN (Obj.fespi_status b) 1
  let e := u.fespiFree b + u.scriptTicks recs + ticksMs 10
  { s.sky.bands[b] with scriptDue := false, sent := recs.map (·.2.1), settle := some (e, u.fespiFree b), usedFrom := e }

theorem exec_fespiScriptSend_due (hawake : s.awake 3 = true) (hdue : s.sky.bands[b].scriptDue = true)
    (hgrist : (s.putN (Obj.fespi_status b) 1).n Obj.grist_state ≠ 2) :
    exec (.fespiScriptSend b []) s = .next ((s.putN (Obj.fespi_status b) 1).setBand b (s.sendingBand b)) := by
  show execFespiScriptSend b [] s = _
  refine (if_neg (by simp [hawake, hdue, -Fin.getElem_fin])).trans ?_
  simp only [List.zip_nil_right, List.filter_nil, if_true, List.foldl_nil]
  exact if_neg hgrist

theorem fespiScriptSend_due {l : List (Bytes × Bytes)} (hw : Wf s) (hawake : s.awake 3 = true)
    (hdue : s.sky.bands[b].scriptDue = true)
    (hrecs : scriptRecords 1024 (s.octs (Obj.fespi_script b)) = l.map fun r => (false, r.1, r.2))
    (hgrist : (s.putN (Obj.fespi_status b) 1).n Obj.grist_state ≠ 2) :
    Yields (.fespiScriptSend b []) s fun t => t.n (Obj.fespi_status b) = 1
      ∧ t.sky.bands[b] = { s.sendingBand b with sent := l.map (·.1) }
      ∧ ObjBut s t [Obj.fespi_status b] ∧ t = { s with obj := t.obj, sky := t.sky } := by
  obtain ⟨hstore, -⟩ := hw
  have hsent : (s.sendingBand b).sent = l.map (·.1) := by
    simp only [State.sendingBand, hrecs, List.map_map, Function.comp_def]
  refine ⟨_, exec_fespiScriptSend_due hawake hdue hgrist, State.n_putN_same hstore .., ?_,
    fun k hk => s.get_putN_ne 1 (mt List.mem_singleton.mpr hk), rfl⟩
  rw [State.setBand_band, ← hsent]

theorem exec_fespiSettleEnd {e k : Nat} (hsettle : s.sky.bands[b].settle = some (e, k)) :
    exec (.fespiSettleEnd b) s = .next (if e ≤ s.now then s.setBand b { s.sky.bands[b] with settle := none } else s) := by
  show execFespiSettleEnd b s = _
  simp only [execFespiSettleEnd, hsettle, apply_ite Host.Outcome.next]

/-! ## The antenna supply (R184) -/

theorem exec_antShort_supplied (hon : s.sky.antEn = true) : exec .antShort s
    = .next ((({ s with sky := { s.sky with antEn := false, antShortAt := some s.now } } : State).bump
        Obj.ant_short_count).setAnt 3) :=
  if_neg (by simp [hon])

theorem exec_antRetry_due {k : Nat} (hshort : s.sky.antShortAt = some k) (hdue : k + ticksS (s.nn Obj.ant_retry) ≤ s.now)
    (hawake : s.awake 3 = true) (henable : s.flag Obj.ant_supply_enable = true) :
    exec .antRetry s = .next (({ s with sky := { s.sky with antEn := true, antShortAt := none } } : State).setAnt 1) := by
  show execAntRetry s = _
  simp only [execAntRetry, hshort]
  exact if_pos ⟨hdue, hawake, henable⟩

/-! ## NOTCH_SCAN (R187) -/

/-- The lines of a scan above the threshold, each with the consecutive scans it has been seen in. -/
def State.seenLines (s : State) (b : Fin 2) (l : List (Int × Nat)) : List (Int × Nat × Nat) :=
  (l.filter fun x => s.nn (Obj.notch_threshold b) * 100 < x.2).map fun x =>
    match s.sky.bands[b].lines.find? fun m => sameLine m.1 x.1 with
    | some m => (x.1, m.2.1 + 1, x.2)
    | none => (x.1, 1, x.2)

section
variable {l : List (Int × Nat)} (hsampling : s.sampling b = true) (hdue : s.sky.bands[b].scannedAt + ticksMs 10 ≤ s.now)
include hsampling hdue

theorem exec_notchScan_off (hoff : s.flag (Obj.notch_enable b) = false) :
    exec (.notchScan b l) s = .next ((List.finRange 4).foldl (fun (u : State) (k : Fin 4) => u.releaseNotch b k) s) :=
  (if_neg (by simp [hsampling, Nat.not_lt.mpr hdue, -Fin.getElem_fin])).trans (if_pos (by simp [hoff]))

theorem exec_notchScan_on (hon : s.flag (Obj.notch_enable b) = true) : exec (.notchScan b l) s
    = .next (((List.finRange 4).foldl (fun (u : State) (k : Fin 4) => u.trackNotch b l k)
        (s.setBand b { s.sky.bands[b] with lines := s.seenLines b l, scannedAt := s.now })).placeNotches b 4) :=
  (if_neg (by simp [hsampling, Nat.not_lt.mpr hdue, -Fin.getElem_fin])).trans (if_neg (by simp [hon]))

end

/-! ## BAND_MONITOR (R182, R218) -/

theorem exec_bandMonitor_due (hawake : s.awake 3 = true) (hsettled : s.settling b = false)
    (hdue : s.sky.bands[b].monitoredAt + ticksMs 100 ≤ s.now) (m0 m1 m2 m3 m4 : List PinBlock) :
    exec (.bandMonitor b m0 m1 m2 m3 m4) s = .next (
      let u := s.noteBand b (s.monitor b (m0 ++ m1 ++ m2 ++ m3 ++ m4))
      if u.detectors.nn Obj.sky_alarms = u.nn Obj.sky_alarms then u.detectors else u.detectors.updateIntegrity) :=
  if_neg (by simp [hawake, hsettled, Nat.not_lt.mpr hdue, -Fin.getElem_fin])

theorem State.monitor_disabled (hoff : s.flag (Obj.band_enable b) = false) (blocks : List PinBlock) :
    (s.monitor b blocks).1 = 0 :=
  if_pos (by simp [hoff])

theorem State.monitor_stuck (hon : s.flag (Obj.band_enable b) = true) {blocks : List PinBlock}
    (hstuck : blocks.any (pinStuck (s.nn (Obj.sample_bits b))) = true) : (s.monitor b blocks).1 = 3 :=
  (if_neg (by simp [hon])).trans (if_pos hstuck)

end

/-- Settles O22: each clause is the equation of its command's branch. -/
theorem skyFrontEnd : Obligations.SkyFrontEnd := by
  refine ⟨fun s b l => fespiScriptSend_due, fun s b reads hidle => exec_fespiScriptSend_idle hidle reads,
    fun s b e k hsettle hover => ?_, fun s b e k hsettle hearly => ?_, fun s => exec_antShort_supplied, fun s k => exec_antRetry_due,
    fun s hon => if_pos hon, fun s hon hopen => if_pos (by simp [hon, hopen]),
    fun s hoff => ⟨if_neg (by simp [hoff]), if_neg (by simp [hoff]), if_pos (by simp [hoff])⟩,
    fun s b l => exec_notchScan_off, fun s b l => exec_notchScan_on,
    fun s b m0 m1 m2 m3 m4 hawake hsettled hdue => exec_bandMonitor_due hawake hsettled hdue m0 m1 m2 m3 m4,
    fun s b blocks => ⟨fun hoff => State.monitor_disabled hoff blocks, fun hon hstuck => State.monitor_stuck hon hstuck⟩,
    fun s b m0 m1 m2 m3 m4 hsettling => if_pos (by simp [hsettling])⟩
  · rw [exec_fespiSettleEnd hsettle, if_pos hover]
  · rw [exec_fespiSettleEnd hsettle, if_neg (Nat.not_le.mpr hearly)]

end Sys2Proof.Machine
end

section
/-! The trackers of the sky channels (R191, R192, R199, R200). -/

namespace Sys2Proof.Machine

open Sys2Proof.Safety

/-! ## What a tracker's replacement leaves alone -/

/-- Replacing a tracker writes its channel, and journals. -/
theorem State.setTracker_sky (s : State) (c : Fin 256) (b : Fin 2) (t : Tracker) :
    (s.setTracker c b t).sky
      = (s.setChannel c { s.sky.channels[c] with trk := s.sky.channels[c].trk.set b t }).sky := by
  unfold State.setTracker
  dsimp only
  split
  · rfl
  · exact State.log_sky ..

theorem State.setTracker_trk (s : State) (c : Fin 256) (b d : Fin 2) (t : Tracker) :
    (s.setTracker c b t).sky.channels[c].trk[d] = if d = b then t else s.sky.channels[c].trk[d] := by
  rw [State.setTracker_sky]
  by_cases h : d = b
  · subst h
    simp [State.setChannel]
  · have hne : (b : Nat) ≠ d := fun e => h (Fin.ext e.symm)
    simp [State.setChannel, h, Vector.getElem_set_ne _ _ hne]

theorem State.trackerReady_trk (s : State) (c : Fin 256) (b : Fin 2) (o : Int) (aided : Bool) :
    (s.trackerReady c b o aided).sky.channels[c].trk[b]
      = { s.sky.channels[c].trk[b] with st := .ready, since := s.now, aided,
                                        rep := { s.sky.channels[c].trk[b].rep with origin := some o } } := by
  rw [State.trackerReady, State.setTracker_trk, if_pos rfl]

/-! ## ACQUISITION_SEARCH (R191, R192) -/

/-- The elapsed tick at which the engine is done with a channel's search on a band: its samples dwelt on, then the stages
before it and its own done. -/
def State.searchDone (s : State) (c : Fin 256) (b : Fin 2) : Nat :=
  max s.sky.engine (max s.sky.channels[c].trk[b].since s.sky.bands[b].usedFrom + stageDwell s.sky.channels[c].trk[b].stageB)
    + (s.windowOf c b).1.cost s.sky.channels[c].trk[b].signal s.sky.channels[c].trk[b].stageB

/-- The detection that a channel's search on a band takes: one in its window. -/
def State.hit (s : State) (c : Fin 256) (b : Fin 2) (f : Option Detection) : Option Detection :=
  f.filter fun d => (s.windowOf c b).1.holds (s.windowOf c b).2 s.sky.channels[c].trk[b].signal d

/-- The engine has worked on a search. -/
def State.takeEngine (s : State) (c : Fin 256) (b : Fin 2) : State := { s with sky := { s.sky with engine := s.searchDone c b } }

/-- A stage over without a detection: stage B follows stage A for a predicted satellite; else the search ends, and a predicted
satellite not found on band 0 is searched on band 1 first (R191, R192). -/
def State.missStage (s : State) (c : Fin 256) (b : Fin 2) : State :=
  let t := s.sky.channels[c].trk[b]
  if !t.stageB && s.sky.channels[c].predicted then s.setTracker c b { t with stageB := true, since := s.now }
  else
    let u := s.moveTracker c b .idle
    if b = 0 ∧ s.sky.channels[c].predicted ∧ !s.sky.channels[c].band1First then
      (u.setChannel c { u.sky.channels[c] with band1First := true }).searchBand c 1
    else u

section
variable {s : State} {c : Fin 256} {b : Fin 2}

theorem State.hit_some {d : Detection}
    (h : (s.windowOf c b).1.holds (s.windowOf c b).2 s.sky.channels[c].trk[b].signal d = true) :
    s.hit c b (some d) = some d := Option.filter_some_pos h

theorem exec_acquisitionSearch_unsampled (hno : s.sampling b = false) (f : Option Detection) :
    exec (.acquisitionSearch c b f) s = .next s :=
  if_pos (by rw [hno]; rfl)

theorem exec_acquisitionSearch_reacq (hsampling : s.sampling b = true) (hst : s.sky.channels[c].trk[b].st = .reacq)
    (f : Option Detection) : exec (.acquisitionSearch c b f) s = .next ((s.hit c b f).elim s (s.detect c b)) := by
  show execAcquisitionSearch c b f s = _
  unfold execAcquisitionSearch State.hit
  cases s.windowOf c b
  simp only [hsampling, hst, Bool.not_true, Bool.false_eq_true, if_false]
  cases Option.filter _ f with
  | none => rfl
  | some d => rfl

section
variable (hst : s.sky.channels[c].trk[b].st = .search)
include hst

theorem exec_acquisitionSearch_early (hearly : s.now < s.searchDone c b) (f : Option Detection) :
    exec (.acquisitionSearch c b f) s = .next s := by
  cases hsampling : s.sampling b with
  | false => exact exec_acquisitionSearch_unsampled hsampling f
  | true =>
    show execAcquisitionSearch c b f s = _
    unfold State.searchDone at hearly
    unfold execAcquisitionSearch
    cases hwindow : s.windowOf c b
    rw [hwindow] at hearly
    simp only [hsampling, hst, Bool.not_true, Bool.false_eq_true, if_false]
    exact if_pos hearly

variable (hsampling : s.sampling b = true) (hover : s.searchDone c b ≤ s.now)
include hsampling hover

theorem exec_acquisitionSearch_over (f : Option Detection) : exec (.acquisitionSearch c b f) s
    = .next ((s.hit c b f).elim ((s.takeEngine c b).missStage c b) ((s.takeEngine c b).detect c b)) := by
  show execAcquisitionSearch c b f s = _
  have hover : ¬ s.now < s.searchDone c b := Nat.not_lt.mpr hover
  unfold State.takeEngine State.searchDone State.hit at *
  unfold execAcquisitionSearch
  cases hwindow : s.windowOf c b
  rw [hwindow] at hover
  simp only [hsampling, Bool.not_true, Bool.false_eq_true, if_false, if_neg hover]
  split
  case h_1 hreacq _ => exact absurd (hst.symm.trans hreacq) nofun
  case h_2 =>
    cases Option.filter _ f with
    | some d => rfl
    | none => simp only [State.missStage, Option.elim_none, apply_ite Host.Outcome.next]
  case h_3 hother _ => exact absurd hst hother

end
end

theorem State.missStage_predicted {s : State} {c : Fin 256} {b : Fin 2} (hstage : s.sky.channels[c].trk[b].stageB = false)
    (hpredicted : s.sky.channels[c].predicted = true) :
    s.missStage c b = s.setTracker c b { s.sky.channels[c].trk[b] with stageB := true, since := s.now } :=
  if_pos (by rw [hstage, hpredicted]; rfl)

theorem State.missStage_unpredicted {s : State} {c : Fin 256} {b : Fin 2} (hpredicted : s.sky.channels[c].predicted = false) :
    s.missStage c b = s.moveTracker c b .idle :=
  (if_neg (by simp [hpredicted, -Fin.getElem_fin])).trans (if_neg (by simp [hpredicted, -Fin.getElem_fin]))

/-! ## TRACKER_LOCK, PULL_IN_TIMEOUT (R192, R199) -/

/-- A tracker that has run on `l` and pulled in. -/
def State.lockedTracker (s : State) (c : Fin 256) (b : Fin 2) (l : List Dump) : Tracker :=
  let t := s.runTracker b l s.sky.channels[c].trk[b]
  { t with st := .track, since := s.now, carrier := true, lockSince := s.now, restarted := true, rep := { t.rep with weakMs := 0 } }

/-- The other band's tracker is searched where it is idle, band 0's only behind a first search on band 1 (R191, R192). -/
def State.searchOther (s : State) (c : Fin 256) (b : Fin 2) : State :=
  if s.sky.channels[c].trk[1 - b].st = .idle ∧ (b = 0 ∨ s.sky.channels[c].band1First) then s.searchBand c (1 - b) else s

section
variable {s : State} {c : Fin 256} {b : Fin 2} {l : List Dump}

section
variable (hst : s.sky.channels[c].trk[b].st = .pullIn)
include hst

theorem exec_trackerLock_early (hshort : (s.runTracker b l s.sky.channels[c].trk[b]).rep.goodMs < 100) :
    exec (.trackerLock c ⟨b, l⟩) s = .next (s.setTracker c b (s.runTracker b l s.sky.channels[c].trk[b])) :=
  (if_neg (not_not.mpr hst)).trans (if_pos hshort)

theorem exec_trackerLock_locks (hlong : 100 ≤ (s.runTracker b l s.sky.channels[c].trk[b]).rep.goodMs) :
    exec (.trackerLock c ⟨b, l⟩) s = .next ((s.setTracker c b (s.lockedTracker c b l)).searchOther c b) := by
  refine (if_neg (not_not.mpr hst)).trans ((if_neg (Nat.not_lt.mpr hlong)).trans ?_)
  obtain rfl | rfl : b = 0 ∨ b = 1 := by omega
  all_goals exact (apply_ite Host.Outcome.next ..).symm

theorem exec_trackerLock_alone (hlong : 100 ≤ (s.runTracker b l s.sky.channels[c].trk[b]).rep.goodMs)
    (hother : s.sky.channels[c].trk[1 - b].st ≠ .idle) :
    exec (.trackerLock c ⟨b, l⟩) s = .next (s.setTracker c b (s.lockedTracker c b l)) := by
  have hne : 1 - b ≠ b := by omega
  rw [exec_trackerLock_locks hst hlong, State.searchOther, if_neg]
  rw [State.setTracker_trk, if_neg hne]
  exact fun h => hother h.1

theorem exec_pullInTimeout_due (hdue : s.sky.channels[c].trk[b].since + ticksS 2 ≤ s.now) :
    exec (.pullInTimeout c b) s = .next (s.moveTracker c b .reacq) :=
  if_pos ⟨hst, hdue⟩

end

/-! ## TRACKER_LOSS, REACQ_TIMEOUT (R199) -/

section
variable (hst : s.sky.channels[c].trk[b].st = .track ∨ s.sky.channels[c].trk[b].st = .sync
  ∨ s.sky.channels[c].trk[b].st = .ready)
include hst

theorem exec_trackerLoss_lost (hlost : s.nn Obj.loss_time ≤ (s.runTracker b l s.sky.channels[c].trk[b]).rep.weakMs
      ∨ s.coasted b (s.runTracker b l s.sky.channels[c].trk[b]) = true) :
    exec (.trackerLoss c ⟨b, l⟩) s = .next (
      let t := s.runTracker b l s.sky.channels[c].trk[b]
      (s.setTracker c b { t with st := .reacq, since := s.now, carrier := false, aided := false, sync := false,
                                 rep := { t.rep with origin := none } }).log (skySource c) 0x3102
        (be 1 (b : Nat) ++ be 2 t.cn0)) := by
  refine (if_pos hst).trans (if_neg fun ⟨hstrong, hfed⟩ => ?_)
  obtain hweak | hcoasted := hlost
  · exact Nat.not_lt.mpr hweak hstrong
  · rw [hcoasted] at hfed
    exact absurd hfed nofun

theorem exec_trackerLoss_runs (hstrong : (s.runTracker b l s.sky.channels[c].trk[b]).rep.weakMs < s.nn Obj.loss_time)
    (hfed : s.coasted b (s.runTracker b l s.sky.channels[c].trk[b]) = false) :
    exec (.trackerLoss c ⟨b, l⟩) s = .next (s.setTracker c b (s.runTracker b l s.sky.channels[c].trk[b])) :=
  (if_pos hst).trans (if_pos ⟨hstrong, by rw [hfed]; rfl⟩)

end

/-! ## TRANSMIT_TIME_RESOLVED (R199, R200) -/

section
variable {week towMs : Nat} {code : Int}

theorem exec_transmitTimeResolved_message (hst : s.sky.channels[c].trk[b].st = .sync)
    (hunaided : s.aidedBy s.sky.channels[c].sat s.sky.channels[c].trk[b].signal = none) :
    exec (.transmitTimeResolved c ⟨b, week, towMs, code⟩) s = .next (s.trackerReady c b
      (messageOrigin s.sky.channels[c].sat s.sky.channels[c].trk[b].signal week towMs code) false) := by
  show execTransmitTimeResolved c ⟨b, week, towMs, code⟩ s = _
  simp only [execTransmitTimeResolved, hst, hunaided]

theorem exec_transmitTimeResolved_aided {k : Bytes} {p : Int × Int × Int}
    (hst : s.sky.channels[c].trk[b].st = .track ∨ s.sky.channels[c].trk[b].st = .sync)
    (haided : s.aidedBy s.sky.channels[c].sat s.sky.channels[c].trk[b].signal = some (k, p)) :
    exec (.transmitTimeResolved c ⟨b, week, towMs, code⟩) s
      = .next (s.trackerReady c b (s.aidedOrigin s.sky.channels[c].trk[b] k p) true) := by
  show execTransmitTimeResolved c ⟨b, week, towMs, code⟩ s = _
  obtain hst | hst := hst <;> simp only [execTransmitTimeResolved, hst, haided]

end

/-! ## A tracker in IDLE -/

section
variable (hst : s.sky.channels[c].trk[b].st = .idle)
include hst

theorem exec_acquisitionSearch_idle (f : Option Detection) : exec (.acquisitionSearch c b f) s = .next s := by
  cases hsampling : s.sampling b with
  | false => exact exec_acquisitionSearch_unsampled hsampling f
  | true =>
    show execAcquisitionSearch c b f s = _
    simp only [execAcquisitionSearch, hsampling, hst, Bool.not_true, Bool.false_eq_true, if_false]

theorem exec_transmitTimeResolved_idle (week towMs : Nat) (code : Int) :
    exec (.transmitTimeResolved c ⟨b, week, towMs, code⟩) s = .next s := by
  show execTransmitTimeResolved c ⟨b, week, towMs, code⟩ s = _
  simp only [execTransmitTimeResolved, hst]

theorem idle_tracker_answers_nothing (f : Option Detection) (l : List Dump) (week towMs : Nat) (code : Int) :
    exec (.acquisitionSearch c b f) s = .next s ∧ exec (.trackerLock c ⟨b, l⟩) s = .next s
      ∧ exec (.trackerLoss c ⟨b, l⟩) s = .next s ∧ exec (.symbolSync c b) s = .next s
      ∧ exec (.transmitTimeResolved c ⟨b, week, towMs, code⟩) s = .next s :=
  ⟨exec_acquisitionSearch_idle hst f, if_pos (by simp [hst, -Fin.getElem_fin]), if_neg (by simp [hst, -Fin.getElem_fin]),
    (if_neg (by simp [hst, -Fin.getElem_fin])).trans (if_neg (by simp [hst, -Fin.getElem_fin])),
    exec_transmitTimeResolved_idle hst week towMs code⟩

end

end

/-- Settles O23: each clause is the equation of its command's branch; a tracker's replacement leaves the other band's alone. -/
theorem skyTrackers : Obligations.SkyTrackers := by
  refine ⟨fun s c b d done hsampling hst hholds hdone hover => ?_,
    fun s c b hsampling hst => ⟨fun d hholds => ?_, exec_acquisitionSearch_reacq hsampling hst none⟩,
    fun s c b done hsampling hst hstage hdone hover => ?_, fun s c b f hst hearly => exec_acquisitionSearch_early hst hearly f,
    fun s c b f hno => exec_acquisitionSearch_unsampled hno f, fun s c b l => exec_trackerLock_alone,
    fun s c l hst hlong hidle => ?_,
    fun s c b l => exec_trackerLock_early, fun s c b => exec_pullInTimeout_due, fun s c b l => exec_trackerLoss_lost,
    fun s c b l => exec_trackerLoss_runs, fun s c b hst hdue => if_pos ⟨hst, hdue⟩, fun s c b hst => if_pos hst,
    fun s c b week towMs code => exec_transmitTimeResolved_message,
    fun s c b week towMs code k p => exec_transmitTimeResolved_aided, State.trackerReady_trk,
    fun s c b f l week towMs code hst => idle_tracker_answers_nothing hst f l week towMs code⟩
  · subst hdone
    rw [exec_acquisitionSearch_over hst hsampling hover, State.hit_some hholds]
    rfl
  · rw [exec_acquisitionSearch_reacq hsampling hst, State.hit_some hholds]
    rfl
  · have hdone : done = s.searchDone c b := by rw [hdone, State.searchDone, hstage]
    subst hdone
    have hexec := exec_acquisitionSearch_over hst hsampling hover none
    exact ⟨fun hpredicted => hexec.trans (congrArg _ (State.missStage_predicted hstage hpredicted)),
      fun hpredicted => hexec.trans (congrArg _ (State.missStage_unpredicted hpredicted))⟩
  · rw [exec_trackerLock_locks hst hlong, State.searchOther, if_pos]
    · rfl
    · exact ⟨by rwa [State.setTracker_trk], .inl rfl⟩

end Sys2Proof.Machine
end

section
/-! Navigation data, observation epochs, the timing solution, the position checks and the survey (R194-R197, R201-R220). -/

namespace Sys2Proof.Machine

open Sys2Proof.Safety

/-! ## NAV_PAGE (R194, R201, R202) -/

/-- What a page's item leaves: a data set in the orbit store, an almanac under the satellite it describes; the health of a
signal; the UTC parameters, or the offset, of the system that sent it. -/
def State.keepItem (s : State) (c : Fin 256) : NavItem → State
  | .bad => s
  | .orbit kind sat message issue content =>
    s.storeOrbit kind (if kind = 2 then sat else s.sky.channels[c].sat) message issue content
  | .health sat sig usable =>
    let l := s.sky.unhealthy.filter (· != (sat, sig))
    { s with sky := { s.sky with unhealthy := if usable then l else (sat, sig) :: l } }
  | .utc dtLS week day dtLSF delta =>
    let sys : Fin 4 := ⟨(s.sky.channels[c].sat / 256 - 1) % 4, Nat.mod_lt _ (by decide)⟩
    ({ s with sky := { s.sky with
        utc := s.sky.utc.set sys (some (utcOf (s.sky.channels[c].sat / 256) dtLS week day dtLSF delta)) } } : State).adoptSky
  | .isb offset =>
    let sys : Fin 4 := ⟨(s.sky.channels[c].sat / 256 - 1) % 4, Nat.mod_lt _ (by decide)⟩
    { s with sky := { s.sky with isb := s.sky.isb.set sys (some offset) } }

section
variable {s : State} {c : Fin 256} {b : Fin 2} {bits : List Bool} (hsat : s.sky.channels[c].sat ≠ 0)
include hsat

theorem exec_navPage_ok (hok : pageOk s.sky.channels[c].trk[b].signal bits = true) {item : NavItem} (hitem : item ≠ .bad) :
    exec (.navPage c b ⟨bits, item⟩) s = .next ((s.count 11 0x04).keepItem c item) := by
  show execNavPage c b _ s = _
  simp only [execNavPage, hok, if_true]
  cases item with
  | bad => exact absurd rfl hitem
  | _ => exact if_neg hsat

theorem exec_navPage_bad (hbad : pageOk s.sky.channels[c].trk[b].signal bits = false) (hfirst : s.sky.channels[c].lastBad = none)
    (item : NavItem) : exec (.navPage c b ⟨bits, item⟩) s
      = .next ((((s.count 11 0x05).bump Obj.nav_page_errors).setChannel c
        { s.sky.channels[c] with lastBad := some s.now }).log (skySource c) 0x3103 (be 1 s.sky.channels[c].trk[b].signal)) := by
  show execNavPage c b _ s = _
  simp only [execNavPage, hbad, Bool.false_eq_true, if_false, hfirst]
  exact if_neg hsat

end

/-! ## OBSERVATION_EPOCH (R203-R206) -/

theorem State.segFor_of_tb (s : State) {t : State} (h : t.tb = s.tb) (stamp : Nat) : t.segFor stamp = s.segFor stamp := by
  simp only [State.segFor, h]

/-- `t` has the timebase of `s` and shows its epoch. -/
structure KeepsEpoch (s t : State) : Prop where
  tb : t.tb = s.tb
  seq : t.sky.seq = s.sky.seq
  epoch : t.sky.epoch = s.sky.epoch
  solved : t.sky.solved = s.sky.solved

theorem KeepsEpoch.refl (s : State) : KeepsEpoch s s := ⟨rfl, rfl, rfl, rfl⟩

theorem KeepsEpoch.trans {s t u : State} (h : KeepsEpoch s t) (h' : KeepsEpoch t u) : KeepsEpoch s u :=
  ⟨h'.tb.trans h.tb, h'.seq.trans h.seq, h'.epoch.trans h.epoch, h'.solved.trans h.solved⟩

theorem KeepsEpoch.log {s t : State} (h : KeepsEpoch s t) (source code : Nat) (data : Bytes) :
    KeepsEpoch s (t.log source code data) :=
  h.trans ⟨State.log_tb .., by rw [State.log_sky], by rw [State.log_sky], by rw [State.log_sky]⟩

theorem foldl_keepsEpoch {α : Type} {f : State → α → State} (hf : ∀ s a, KeepsEpoch s (f s a)) (l : List α) (s : State) :
    KeepsEpoch s (l.foldl f s) :=
  List.foldlRecOn l f (KeepsEpoch.refl s) fun t h a _ => h.trans (hf t a)

theorem State.setChannel_keepsEpoch (s : State) (c : Fin 256) (x : Channel) : KeepsEpoch s (s.setChannel c x) :=
  ⟨rfl, rfl, rfl, rfl⟩

theorem State.setTracker_keepsEpoch (s : State) (c : Fin 256) (b : Fin 2) (t : Tracker) : KeepsEpoch s (s.setTracker c b t) := by
  unfold State.setTracker
  dsimp only
  split
  · exact s.setChannel_keepsEpoch ..
  · exact (s.setChannel_keepsEpoch ..).log ..

theorem State.runObs_keepsEpoch (s : State) (o : SkyObs) : KeepsEpoch s (s.runObs o) := s.setTracker_keepsEpoch ..

theorem State.releaseChannel_keepsEpoch (s : State) (c : Fin 256) : KeepsEpoch s (s.releaseChannel c) := by
  have hlog : KeepsEpoch s (if s.sky.channels[c].state = .idle then s
      else s.log (skySource c) 0x3101 (be 2 s.sky.channels[c].sat ++ be 1 s.sky.channels[c].state.code ++ be 1 0)) := by
    split
    · exact .refl s
    · exact (KeepsEpoch.refl s).log ..
  exact hlog.trans ⟨rfl, rfl, rfl, rfl⟩

theorem State.allocate_keepsEpoch (s : State) (c : Fin 256) (sat : Nat) : KeepsEpoch s (s.allocate c sat) := by
  unfold State.allocate
  split
  · exact .refl s
  · refine KeepsEpoch.trans ?_ (State.setTracker_keepsEpoch ..)
    exact ⟨rfl, rfl, rfl, rfl⟩

theorem State.allocateAll_keepsEpoch (s : State) : KeepsEpoch s s.allocateAll := by
  unfold State.allocateAll
  extract_lets u taken free cand pred order
  refine KeepsEpoch.trans ?_ (foldl_keepsEpoch (fun t (p : Fin 256 × Nat) => t.allocate_keepsEpoch p.1 p.2) _ u)
  refine foldl_keepsEpoch (fun t c => ?_) _ s
  dsimp only
  split
  · exact t.releaseChannel_keepsEpoch c
  · split
    · split
      · exact t.setTracker_keepsEpoch ..
      · exact .refl t
    · exact .refl t

/-- The latest epoch `e` with its records. -/
def State.showEpoch (s : State) (e : SkyEpoch) (recs : List SkyRec) : State :=
  { s with sky := { s.sky with seq := e.seq, epoch := some e, recs, solved := false } }

/-- The first fix once 4 channels are READY. -/
def State.noteFirstFix (s : State) : State :=
  if 4 ≤ s.channelsReady then
    let s : State := { s with sky := { s.sky with firstFix := true } }
    if s.nn Obj.ttff = 0xFFFFFFFF then s.putN Obj.ttff (rneDiv (s.now - s.sky.startAt) 1250000) else s
  else s

theorem State.noteFirstFix_keepsEpoch (s : State) : KeepsEpoch s s.noteFirstFix := by
  unfold State.noteFirstFix
  split
  · dsimp only
    split <;> exact ⟨rfl, rfl, rfl, rfl⟩
  · exact .refl s

theorem State.showEpoch_shown (s : State) (e : SkyEpoch) (recs : List SkyRec) :
    KeepsEpoch (s.showEpoch e recs) (s.showEpoch e recs).noteFirstFix.allocateAll :=
  (State.noteFirstFix_keepsEpoch _).trans (State.allocateAll_keepsEpoch _)

/-- An outcome that answers a next state of which `P` holds. -/
def Answers (P : State → Prop) (o : Host.Outcome State Fault Refusal) : Prop := ∃ t, o = .next t ∧ P t

/-- The trackers run and the records are taken without moving the timebase; once shown, an epoch stands while channels are
given anew. -/
theorem observationEpoch_shows {s : State} (hawake : s.awake 3 = true) (hrun : s.tb.running = true)
    (hreached : sampleStamp s.nextEpoch.2.1 ≤ s.stamp) (obs : List SkyObs) : Yields (.observationEpoch obs) s fun t =>
      t.sky.seq = (s.sky.seq + 1) % 2 ^ 32 ∧ t.sky.solved = false
      ∧ ∃ e, t.sky.epoch = some e ∧ e.seq = (s.sky.seq + 1) % 2 ^ 32 ∧ e.raw = sampleStamp s.nextEpoch.2.1
        ∧ e.time = s.convert e.raw := by
  show Answers _ (execObservationEpoch obs s)
  unfold execObservationEpoch
  rw [if_neg (by simp [hawake, hrun])]
  split
  next grid n fl hnext =>
  rw [hnext] at hreached ⊢
  extract_lets raw u₁ seq u₂ active recs g e u₃ u₄
  rw [if_neg (Nat.not_lt.mpr hreached)]
  have hseg : g = s.segFor raw := s.segFor_of_tb (foldl_keepsEpoch State.runObs_keepsEpoch obs u₁).tb raw
  have hshown := u₄.showEpoch_shown e recs
  exact ⟨(u₄.showEpoch e recs).noteFirstFix.allocateAll, rfl, hshown.seq, hshown.solved, e, hshown.epoch, rfl,
    by simp only [e, raw], by simp only [e, hseg, State.convert]⟩

/-! ## What the checks of a slot and the adoption of the sky's leaps leave alone -/

@[simp] theorem State.setModel_sky (s : State) (m : ModelSt) : (s.setModel m).sky = s.sky := by
  obtain ⟨_, _, _, hset⟩ := s.setModel_frame m
  rw [hset]

@[simp] theorem State.markDisputes_sky (s : State) (i : Fin 16) : (s.markDisputes i).sky = s.sky := rfl

theorem foldl_sky {α : Type} {f : State → α → State} (hf : ∀ s a, (f s a).sky = s.sky) (l : List α) (s : State) :
    (l.foldl f s).sky = s.sky :=
  List.foldlRecOn l f (motive := fun t => t.sky = s.sky) rfl fun t h a _ => (hf t a).trans h

@[simp] theorem State.endDisputes_sky (s : State) (gone : Dispute → Bool) : (s.endDisputes gone).sky = s.sky := by
  unfold State.endDisputes
  extract_lets mine u v
  have hmarked : v.sky = s.sky := foldl_sky (fun t (d : Dispute) => by simp) mine u
  split
  · rw [State.setModel_sky, hmarked]
  · exact hmarked

@[simp] theorem State.leaveQualified_sky (s : State) (i : Fin 16) : (s.leaveQualified i).sky = s.sky :=
  State.endDisputes_sky ..

@[simp] theorem State.dropFirst_sky (s : State) (i : Fin 16) : (s.dropFirst i).sky = s.sky := by
  unfold State.dropFirst
  extract_lets mine
  split <;> rfl

@[simp] theorem State.failSlot_sky (s : State) (i : Fin 16) (bits : Nat) : (s.failSlot i bits).sky = s.sky := by
  unfold State.failSlot
  dsimp only
  split <;> simp

@[simp] theorem State.logSlot_sky (s : State) (i : Fin 16) : (s.logSlot i).sky = s.sky := by simp [State.logSlot]

@[simp] theorem State.evalSlot_sky (s : State) (i : Fin 16) : (s.evalSlot i).sky = s.sky := by
  unfold State.evalSlot
  dsimp only
  split
  · rfl
  · split
    · split <;> simp
    · split <;> simp

@[simp] theorem State.adoptLeap_sky (s : State) (offset : Int) (sched : Option (Option (Int × Int))) :
    (s.adoptLeap offset sched).sky = s.sky := by
  unfold State.adoptLeap
  split
  · rfl
  · extract_lets cur next u
    split
    · rfl
    · simp [u]

@[simp] theorem State.adoptSky_sol (s : State) : s.adoptSky.sky.sol = s.sky.sol := by
  unfold State.adoptSky
  extract_lets l
  clear_value l
  split
  · rfl
  · extract_lets agree u sky v
    have hnoted : v.sky.sol = s.sky.sol := by
      show u.sky.sol = s.sky.sol
      unfold u
      split <;> simp
    split
    · split
      · rw [State.adoptLeap_sky, hnoted]
      · exact hnoted
    · exact hnoted

/-! ## TIMING_SOLUTION (R208-R220) -/

/-- A solution is shown and delivered to the slots of kind 6 (R213); what it holds stands. -/
theorem timingSolution_shows {s : State} {e : SkyEpoch} (hepoch : s.sky.epoch = some e) (hnew : s.sky.solved = false)
    (hawake : s.awake 3 = true) : Yields .timingSolution s fun t => t.sky.sol.seq = e.seq := by
  show Answers _ (execTimingSolution s)
  unfold execTimingSolution
  split
  case h_1 hnone => exact absurd (hepoch.symm.trans hnone) nofun
  case h_2 ep hsome =>
    obtain rfl : e = ep := Option.some.inj (hepoch.symm.trans hsome)
    rw [if_neg (by simp [hnew, hawake])]
    -- whatever the fit finds and whatever residuals are left open, the solution takes the epoch's sequence
    extract_lets
    split
    extract_lets
    split
    extract_lets left recs sky u delivered
    split
    · exact ⟨u, rfl, rfl⟩
    · have hsky : delivered.sky = u.sky := by
        refine foldl_sky (fun t i => ?_) _ _
        split
        · simp
        · rfl
      refine ⟨_, rfl, ?_⟩
      show delivered.adoptSky.sky.sol.seq = e.seq
      rw [State.adoptSky_sol, hsky]

/-! ## POSITION_CHECK_FIX (R215) -/

section
variable {s : State} {d : Nat} (hknown : s.positionInUse ≠ none) (hawake : s.awake 3 = true)
  (hdue : s.sky.fixedAt + ticksS 60 ≤ s.now) (hfix : s.navDeparture = some d)
include hknown hawake hdue hfix

/-- A fix that does not make five departures in a row counts, or ends the run of them. -/
theorem exec_positionCheckFix_counts {k : Nat} (hk : (if s.nn Obj.move_limit * 1000 < d then s.sky.departs + 1 else 0) = k)
    (hfew : k < 5) : exec (.positionCheckFix s.sky.seq) s
      = .next { s with sky := { s.sky with departs := k, fixedAt := s.now } } := by
  show execPositionCheckFix s.sky.seq s = _
  refine (if_neg (by simp [hknown, hawake, hdue])).trans ?_
  simp only [hfix, hk]
  exact if_pos (.inl hfew)

theorem exec_positionCheckFix_near (hnear : d ≤ s.nn Obj.move_limit * 1000) :
    exec (.positionCheckFix s.sky.seq) s = .next { s with sky := { s.sky with departs := 0, fixedAt := s.now } } :=
  exec_positionCheckFix_counts hknown hawake hdue hfix (if_neg (Nat.not_lt.mpr hnear)) (by decide)

variable (hfar : s.nn Obj.move_limit * 1000 < d)
include hfar

theorem exec_positionCheckFix_departs (hfew : s.sky.departs < 4) : exec (.positionCheckFix s.sky.seq) s
    = .next { s with sky := { s.sky with departs := s.sky.departs + 1, fixedAt := s.now } } :=
  exec_positionCheckFix_counts hknown hawake hdue hfix (if_pos hfar) (by omega)

theorem exec_positionCheckFix_alarms (hfour : s.sky.departs = 4) (hquiet : s.sky.posAlarm = false) :
    exec (.positionCheckFix s.sky.seq) s
      = .next (((({ s with sky := { s.sky with departs := 5, fixedAt := s.now, posAlarm := true } } : State).putN
          Obj.position_state 5).log 0 0x3008 (be 4 (rneDiv d 1000))).detectors.autoResurvey.updateIntegrity) := by
  show execPositionCheckFix s.sky.seq s = _
  refine (if_neg (by simp [hknown, hawake, hdue])).trans ?_
  simp only [hfix, if_pos hfar, hfour]
  exact if_neg (by simp [hquiet])

end

theorem exec_positionCheckFix_without {s : State} {e : Nat} (h : s.navDeparture = none ∨ e ≠ s.sky.seq) :
    exec (.positionCheckFix e) s = .next s := by
  show execPositionCheckFix e s = _
  obtain hnone | hother := h
  · simp only [execPositionCheckFix, hnone, ite_self]
  · exact if_pos (.inr (.inr (.inr hother)))

/-- Settles O24: each clause is the equation of its command's branch; what an epoch and a solution show stands through what
follows them. -/
theorem skySolution : Obligations.SkySolution := by
  refine ⟨fun s c b bits kind sat message issue content hsat hok => exec_navPage_ok hsat hok nofun,
    fun s c b bits sat sig hsat hok => ⟨⟨_, exec_navPage_ok hsat hok nofun, List.mem_cons_self, rfl⟩,
      ⟨_, exec_navPage_ok hsat hok nofun, by simp [State.keepItem]⟩⟩,
    fun s c b bits dtLS dtLSF delta week day hsat hok => exec_navPage_ok hsat hok nofun,
    fun s c b bits offset hsat hok => exec_navPage_ok hsat hok nofun,
    fun s c b bits item hsat hbad hfirst => exec_navPage_bad hsat hbad hfirst item,
    fun s hawake hcontrol hdue => if_pos (by simp [hawake, hcontrol, hdue]),
    fun s obs hawake hrun hreached => observationEpoch_shows hawake hrun hreached obs,
    fun s obs hasleep => if_pos (by simp [hasleep]), fun s e => timingSolution_shows, fun s e hepoch hsolved => ?_,
    fun s d => exec_positionCheckFix_near, fun s d => exec_positionCheckFix_departs, fun s d => exec_positionCheckFix_alarms,
    fun s e => exec_positionCheckFix_without, fun s => rfl⟩
  show execTimingSolution s = _
  simp only [execTimingSolution, hepoch, hsolved, Bool.true_or, if_true]

end Sys2Proof.Machine
end

section
/-! Grist snapshots and the commits of a slot's source (R221-R225, R72, R73, R119, R22). -/

namespace Sys2Proof.Machine

open Sys2Proof.Safety

/-! ## What the sky domain's power leaves alone (R22, R24) -/

/-- `t` has the snapshot unit of `s`, in the same state. -/
structure KeepsGrist (s t : State) : Prop where
  state : t.get Obj.grist_state = s.get Obj.grist_state
  grist : t.sky.grist = s.sky.grist

theorem KeepsGrist.refl (s : State) : KeepsGrist s s := ⟨rfl, rfl⟩

theorem KeepsGrist.trans {s t u : State} (h : KeepsGrist s t) (h' : KeepsGrist t u) : KeepsGrist s u :=
  ⟨h'.state.trans h.state, h'.grist.trans h.grist⟩

theorem KeepsGrist.ite {s t u : State} {p : Prop} [Decidable p] (ht : KeepsGrist s t) (hu : KeepsGrist s u) :
    KeepsGrist s (if p then t else u) := by
  split
  · exact ht
  · exact hu

theorem foldl_keepsGrist {α : Type} {f : State → α → State} (hf : ∀ s a, KeepsGrist s (f s a)) (l : List α) (s : State) :
    KeepsGrist s (l.foldl f s) :=
  List.foldlRecOn l f (KeepsGrist.refl s) fun t h a _ => h.trans (hf t a)

theorem KeepsGrist.putN {s t : State} (h : KeepsGrist s t) {k : Nat} (hk : Obj.grist_state ≠ k) (x : Int) :
    KeepsGrist s (t.putN k x) :=
  h.trans ⟨t.get_putN_ne x hk, rfl⟩

theorem KeepsGrist.log {s t : State} (h : KeepsGrist s t) (source code : Nat) (data : Bytes) :
    KeepsGrist s (t.log source code data) :=
  h.trans ⟨t.log_get _ _ _ _ (by decide), congrArg Sky.grist (t.log_sky ..)⟩

theorem KeepsGrist.setBandState {s t : State} (h : KeepsGrist s t) (b : Fin 2) (v : Nat) : KeepsGrist s (t.setBandState b v) :=
  have hput := h.putN (k := Obj.band_state b) (by simp only [Obj.grist_state, Obj.band_state]; omega) v
  .ite hput (hput.log ..)

theorem KeepsGrist.driveClock {s t : State} (h : KeepsGrist s t) (b : Fin 2) : KeepsGrist s (t.driveClock b) := by
  unfold State.driveClock
  dsimp only
  split <;> exact h.trans ⟨rfl, rfl⟩

theorem KeepsGrist.updateAnt {s t : State} (h : KeepsGrist s t) : KeepsGrist s t.updateAnt := by
  unfold State.updateAnt
  extract_lets on sky supplied
  have hsupplied : KeepsGrist s supplied := h.trans ⟨rfl, rfl⟩
  refine .ite h ?_
  unfold State.setAnt
  exact .ite hsupplied ((hsupplied.putN (by decide) _).log ..)

theorem KeepsGrist.releaseChannel {s t : State} (h : KeepsGrist s t) (c : Fin 256) : KeepsGrist s (t.releaseChannel c) :=
  (KeepsGrist.ite h (h.log ..)).trans ⟨rfl, rfl⟩

theorem State.sleepSky_keepsGrist (s : State) : KeepsGrist s s.sleepSky := by
  unfold State.sleepSky
  extract_lets released asleep dark sky sol idle unsolved old told
  have hreleased : KeepsGrist s released :=
    foldl_keepsGrist (fun t c => .ite (.refl t) ((KeepsGrist.refl t).releaseChannel c)) (List.finRange 256) s
  have hasleep : KeepsGrist s asleep := hreleased.putN (k := Obj.domain_state 2) (by decide) 0
  have hdark : KeepsGrist s dark := (hasleep.setBandState 0 0).setBandState 1 0
  clear_value dark
  have hidle : KeepsGrist s idle := hdark.trans ⟨rfl, rfl⟩
  have hunsolved : KeepsGrist s unsolved := ((hidle.putN (by decide) 0).putN (by decide) 0).putN (by decide) 0
  have htold : KeepsGrist s told := .ite hunsolved ((hunsolved.putN (by decide) 0).log ..)
  exact ((htold.driveClock 0).driveClock 1).updateAnt

theorem State.skyPower_keepsGrist (s : State) : KeepsGrist s s.skyPower :=
  have hsame := KeepsGrist.refl s
  .ite hsame (.ite (.ite (hsame.putN (k := Obj.domain_state 2) (by decide) 1) hsame) (.ite s.sleepSky_keepsGrist hsame))

/-! ## The end of a request (R221) -/

theorem State.gristEnd_state {s : State} (hstore : storeWf s.obj = true) : s.gristEnd.n Obj.grist_state = 4 := by
  simp only [State.gristEnd, State.n, (State.skyPower_keepsGrist _).state]
  exact State.n_putN_same (State.storeWf_putN (s := s.setGrist _) hstore _ _) _ _

theorem State.gristEnd_req (s : State) : s.gristEnd.sky.grist.req = none := by
  simp only [State.gristEnd, (State.skyPower_keepsGrist _).grist]
  rfl

/-! ## GRIST_REQUEST (R221) -/

theorem exec_gristRequest_idle {s : State} (hidle : s.gristBusy = false) {r : Nat} (hr : r = 1 ∨ r = 2) :
    exec (.gristRequest r) s = .next ((s.putN Obj.grist_request r).gristBegin (.owner (r == 1))) :=
  if_neg (by simpa [hidle, imp_iff_not_or] using hr)

theorem exec_gristRequest_busy {s : State} (hbusy : s.gristBusy = true) (r : Nat) : exec (.gristRequest r) s = .next s :=
  if_pos (by rw [hbusy, Bool.true_or])

/-! ## GRIST_CAPTURE_START (R222) -/

theorem gristCaptureStart_begins {s : State} {src : GristFrom} {k : Nat} (hreq : s.sky.grist.req = some (src, k))
    (hfree : s.n Obj.grist_start_time = 0) (hstate : s.n Obj.grist_state = 1) (hawake : s.awake 3 = true)
    (hsettled : s.settled = true) (hhold : s.flag Obj.grist_hold = false) (hstore : storeWf s.obj = true) :
    Yields .gristCaptureStart s fun t => t.n Obj.grist_state = 2 ∧ t.sky.grist.n0 = sampleFrom s.stamp
      ∧ t.sky.grist.firstTime = s.convert (sampleStamp (sampleFrom s.stamp)) ∧ t.sky.grist.samples = []
      ∧ t.sky.grist.length = s.nn Obj.grist_length ∧ t = { s with obj := t.obj, sky := { s.sky with grist := t.sky.grist } }
      ∧ ObjBut s t [Obj.grist_state] := by
  show Answers _ (execGristCaptureStart s)
  simp only [execGristCaptureStart, hreq]
  rw [if_neg (by simp [hfree, hstate, hawake, hsettled, hhold])]
  exact ⟨_, rfl, State.n_putN_same (s := s.setGrist _) hstore .., rfl, rfl, rfl, rfl, rfl,
    fun _ hk => State.get_putN_ne (s.setGrist _) 2 (mt List.mem_singleton.mpr hk)⟩

/-! ## GRIST_CAPTURE_COMPLETE (R222, R223) -/

/-- `u` holds the snapshot that the samples of a capture give, under the next sequence number. -/
structure TakesSnapshot (s u : State) (samples : Bytes) : Prop where
  store : storeWf u.obj = true
  sequence : u.n Obj.grist_sequence = (s.n Obj.grist_sequence + 1) % 2 ^ 32
  samples : u.sky.grist.samples = maskBands (bit s.sky.grist.flags 1) (bit s.sky.grist.flags 2)
    (padTo (s.sky.grist.length * 122760) samples)
  req : u.sky.grist.req = s.sky.grist.req

/-- With its last sample taken a capture is kept; then it is solved, or its request ends. -/
theorem exec_gristCaptureComplete_due {s : State} {src : GristFrom} {k : Nat} (hstore : storeWf s.obj = true)
    (hreq : s.sky.grist.req = some (src, k)) (hstate : s.n Obj.grist_state = 2)
    (hlast : sampleStamp (s.sky.grist.n0 + s.sky.grist.length * 61380) ≤ s.stamp) (samples : Bytes) :
    ∃ u, TakesSnapshot s u samples ∧ exec (.gristCaptureComplete samples) s
      = .next (if src = .owner false then u.gristEnd else u.putN Obj.grist_state 3) := by
  show ∃ u, _ ∧ execGristCaptureComplete samples s = _
  unfold execGristCaptureComplete
  extract_lets x last first stepped flags seq header kept u v
  simp -zeta only [show x.req = some (src, k) from hreq]
  rw [if_neg (by simp [hstate, last, x, hlast])]
  have hlogged : v.obj = (u.putN Obj.grist_sequence seq).obj := State.log_obj _ _ _ _ (by decide)
  have hsky : v.sky = u.sky := State.log_sky ..
  refine ⟨v, ⟨?_, ?_, by rw [hsky]; rfl, by rw [hsky]; rfl⟩, ?_⟩
  · rw [hlogged]
    exact State.storeWf_putN (s := u) hstore _ _
  · rw [State.n_of_obj hlogged, State.n_putN_same (s := u) hstore]
  · match src with
    | .owner false | .owner true | .steep | .verify => rfl

/-! ## GRIST_SOLVE_COMPLETE (R224, R72, R73) -/

section
variable {s : State}

theorem exec_gristSolveComplete_unusable {src : GristFrom} {k : Nat} (hreq : s.sky.grist.req = some (src, k))
    (hstate : s.n Obj.grist_state = 3) (hband0 : bit s.sky.grist.flags 1 = false) (hband1 : bit s.sky.grist.flags 2 = false) :
    exec .gristSolveComplete s = .next (
      let u := (s.putN Obj.grist_fix_status 5).log 0 0x300F (be 1 5 ++ durToBytes 0)
      (u.setGrist { u.sky.grist with fix := none }).gristEnd) := by
  show execGristSolveComplete s = _
  simp only [execGristSolveComplete, hreq, hstate, hband0, hband1]
  rfl

/-- The samples of a band as a solve takes them: none of a band that is off or was sent a script. -/
def State.solveSamples (s : State) (b : Fin 2) : List (Int × Int) :=
  if bit s.sky.grist.flags (b + 1) && !(bit s.sky.grist.scripted b) then
    (everyOther (s.sky.grist.samples.drop b)).map fun y => s.sampleOf b y.toNat else []

/-- One candidate time from enough satellites, of a request of the owner's: the fix is shown, journalled and meets the
timebase. -/
theorem exec_gristSolveComplete_fix {solve : Bool} {k : Nat} {t w f sigma3 : Int}
    (hreq : s.sky.grist.req = some (.owner solve, k)) (hstate : s.n Obj.grist_state = 3)
    (husable : (bit s.sky.grist.flags 1 = true ∧ bit s.sky.grist.scripted 0 = false)
      ∨ (bit s.sky.grist.flags 2 = true ∧ bit s.sky.grist.scripted 1 = false))
    (hprior : s.gristPrior (sampleStamp s.sky.grist.n0) = some (t, w))
    (henough : (if s.positionInUse.isSome then 3 else 6)
      ≤ Config.gristSatellites [s.solveSamples 0, s.solveSamples 1] (s.ephemerides t) s.positionInUse t w)
    (hone : Config.gristCandidates [s.solveSamples 0, s.solveSamples 1] (s.ephemerides t) s.positionInUse t w = [(f, sigma3)]) :
    exec .gristSolveComplete s = .next (
      let first := sampleStamp s.sky.grist.n0
      let u := s.putN Obj.grist_fix_status 1
      let err := unitsToNs (u.seg.convert first - f)
      let unc := sigma3 + s.n Obj.coarse_fix_margin
      let v := ((u.putN Obj.grist_fix_time_error err).putN Obj.grist_fix_uncertainty unc).log 0 0x300F (be 1 1 ++ durToBytes err)
      ((v.setGrist { v.sky.grist with fix := some (f, unc, first) }).meetFix f unc first).gristEnd) := by
  have hbands : ((bit s.sky.grist.flags 1 && !(bit s.sky.grist.scripted 0))
      || (bit s.sky.grist.flags 2 && !(bit s.sky.grist.scripted 1))) = true := by
    obtain ⟨hon, hquiet⟩ | ⟨hon, hquiet⟩ := husable <;> simp [hon, hquiet]
  unfold State.solveSamples at henough hone
  show execGristSolveComplete s = _
  simp only [execGristSolveComplete, hreq, hstate, hbands, hprior, if_neg (Nat.not_lt.mpr henough), hone]
  rfl

end

/-! ## SLOT_CONFIG_COMMIT (R119, R22) -/

/-- The slot is bound to its new source, and the sky domain's power follows. -/
def State.commitSlot (s : State) (i : Fin 16) (enable : Bool) (kind number : Nat) : State :=
  ((((s.putB (Obj.slot_enable i) enable).putN (Obj.source_kind i) kind).putN (Obj.source_number i) number).bindSlot i
    enable).skyPower

/-- Unless the commit binds a sky receiver that no slot was bound to, no start is classed; a sky slot newly enabled in STEEP
asks for a capture for the seed. -/
theorem exec_slotConfigCommit_noStart {s : State} {i : Fin 16} {enable : Bool} {kind number : Nat}
    (hstart : (!s.skyBound && (s.commitSlot i enable kind number).skyBound) = false) :
    exec (.slotConfigCommit i enable kind number) s = .next (
      let u := s.commitSlot i enable kind number
      if enable && kind == 6 && !(s.slotEnabled i && s.kind i == 6) && u.mode.cur = .steep && !u.gristBusy then
        u.gristBegin .steep
      else u) := by
  show execSlotConfigCommit i enable kind number s = _
  unfold State.commitSlot at hstart ⊢
  simp only [execSlotConfigCommit, hstart, Bool.false_and, Bool.false_eq_true, if_false, apply_ite Host.Outcome.next]

/-- Settles O25: each clause is the equation of its command's branch; what a capture wrote stands when its request ends, as
the sky domain's power moves no snapshot. -/
theorem snapshotCommands : Obligations.SnapshotCommands := by
  refine ⟨fun s hidle => exec_gristRequest_idle hidle (.inl rfl), fun s hidle => exec_gristRequest_idle hidle (.inr rfl),
    fun s r hbusy => exec_gristRequest_busy hbusy r,
    fun s src k hreq hfree hstate hawake hsettled hhold ⟨hstore, _⟩ =>
      gristCaptureStart_begins hreq hfree hstate hawake hsettled hhold hstore,
    fun s samples k ⟨hstore, _⟩ hreq hstate hlast => ?_, fun s samples k ⟨hstore, _⟩ hreq hstate hlast => ?_,
    fun s src k => exec_gristSolveComplete_unusable,
    fun s solve k t w f sigma3 hreq hstate husable hprior ⟨henough, hone⟩ =>
      exec_gristSolveComplete_fix hreq hstate husable hprior henough hone,
    fun s hold => rfl, fun s i enable kind number hkind hbound => ?_, fun s i number hbound hwas ⟨hsteep, hidle⟩ => ?_⟩
  · obtain ⟨u, hu, hexec⟩ := exec_gristCaptureComplete_due hstore hreq hstate hlast samples
    exact ⟨_, hexec, State.n_putN_same hu.store .., (u.n_putN_ne 3 (by decide)).trans hu.sequence, hu.samples, hu.req⟩
  · obtain ⟨u, hu, hexec⟩ := exec_gristCaptureComplete_due hstore hreq hstate hlast samples
    exact ⟨_, hexec, State.gristEnd_state hu.store, u.gristEnd_req⟩
  · rw [exec_slotConfigCommit_noStart (by rw [State.commitSlot, hbound, Bool.not_and_self])]
    exact congrArg _ (if_neg (by simp [hkind]))
  · rw [exec_slotConfigCommit_noStart (by simp [hbound])]
    exact congrArg _ (if_pos (by simp [State.commitSlot, hwas, hsteep, hidle]))

end Sys2Proof.Machine
end

section
/-! Frames received on a port, calibration exchanges and departures (R230, R240-R248). -/

namespace Sys2Proof.Machine

open Sys2Proof.Safety

theorem State.setPort_port (s : State) (p : Fin 64) (x : PortUnit) : (s.setPort p x).ports[p] = x := Vector.getElem_set_self ..

/-! ## The receive path of a port (R230) -/

/-- A frame of `len` octets takes its line time on a port. -/
def State.tookLine (s : State) (p : Fin 64) (len : Nat) : State :=
  s.setPort p { s.ports[p] with rxOct := s.ports[p].rxOct + len + 20 }

/-- A frame of `len` octets whose FCS holds counts on its port. -/
def State.countReceived (s : State) (p : Fin 64) (len : Nat) : State :=
  ((((s.tookLine p len).bump (Obj.rx_frames p)).bump (Obj.rx_bytes p) len).countP p 0x01).countP p 0x02 len

section
variable {s : State} {p : Fin 64} {o : Nat} (hawake : s.portsAwake = true) (hlink : s.linkUp p = true)
  (hpos : o ≤ modeWord (s.nn (Obj.speed_resolved p)))
include hawake hlink hpos

theorem State.receivePort_macDown (hmacs : s.macDown = true) (edge skew : Rat) (frame : Bytes) :
    s.receivePort p edge o skew frame = ((s.tookLine p frame.length).holdPulse p).countP p 0x06 := by
  unfold State.receivePort
  rw [if_neg (by simp [hawake, hlink, hpos]), if_pos hmacs]
  rfl

variable (hmacs : s.macDown = false) (hblock : s.blockBusy (0x0100 + p) = false) {frame : Bytes}
include hmacs hblock

theorem State.receivePort_badFcs (hfcs : fcsOk frame = false) (edge skew : Rat) : s.receivePort p edge o skew frame
    = ((s.tookLine p frame.length).bump (Obj.rx_fcs_errors p)).countP p 0x05 := by
  unfold State.receivePort
  extract_lets _ u
  have hblock : u.blockBusy (0x0100 + p) = false := hblock
  rw [if_neg (by simp [hawake, hlink, hpos]), if_neg (by simp [hmacs]), if_neg (by simp [hblock]), if_pos (by simp [hfcs])]
  rfl

/-- A good frame of an allowed size, on a port of no group or without skew, goes on with its two stamps. -/
theorem State.receivePort_good {skew : Rat} (hskew : (if s.nn (Obj.speed_resolved p) = 5 then skew else 0) = 0)
    (hfcs : fcsOk frame = true) (hlong : 64 ≤ frame.length)
    (hmax : frame.length ≤ (s.countReceived p frame.length).nn (Obj.max_frame p)) (edge : Rat) :
    s.receivePort p edge o skew frame = (s.countReceived p frame.length).acceptFrame p (s.rxStamp p edge o 0)
      ((s.countReceived p frame.length).rxStamp p edge o 0 false) (s.nn (Obj.rx_sentinel_state p) != 2)
      (frame.take (frame.length - 4)) := by
  unfold State.receivePort
  rw [hskew]
  extract_lets _ u _ _ _ _ w
  have hblock : u.blockBusy (0x0100 + p) = false := hblock
  have hcounted : w = s.countReceived p frame.length := rfl
  rw [if_neg (by simp [hawake, hlink, hpos]), if_neg (by simp [hmacs]), if_neg (by simp [hblock]), if_neg (by simp [hfcs]),
    hcounted, if_neg (by simp [hlong, hmax])]

end

/-- A calibration frame of a paired port, which no ESMC PDU is, goes to its exchange. -/
theorem State.acceptFrame_calibration {u : State} {p : Fin 64} {b : Bytes} (hesmc : (rxHeaders (u.nn (Obj.vlan_tpid p)) b).etype ≠ 0x8809)
    (hcal : isCalFrame b = true) (hpair : (u.calPairOf p).isSome = true) (stamp calStamp : Nat) (uncal : Bool) :
    u.acceptFrame p stamp calStamp uncal b = u.calReceive p calStamp b := by
  unfold State.acceptFrame
  rw [if_neg (by simp [hesmc]), if_pos (by rw [hcal, hpair]; rfl)]

/-! ## CAL_FRAME_RECEIVE (R242, R243) -/

theorem exec_calFrameReceive_paired {s : State} {p : Fin 64} {frame : Bytes} (hcal : isCalFrame frame = true)
    (hpair : (s.calPairOf p).isSome = true) (edge : Rat) (o : Nat) :
    exec (.calFrameReceive p edge o frame) s = .next (s.receivePort p edge o 0 frame) :=
  if_pos (by rw [hcal, hpair]; rfl)

theorem exec_calFrameReceive_none {s : State} {p : Fin 64} {frame : Bytes} (hnone : isCalFrame frame = false ∨ s.calPairOf p = none)
    (edge : Rat) (o : Nat) : exec (.calFrameReceive p edge o frame) s = .next s :=
  if_neg (by obtain hcal | hpair := hnone <;> simp [*])

/-! ## CAL_FRAME_SEND (R241, R243) -/

/-- The lower-numbered port opens a new exchange with its own frame. -/
theorem calFrameSend_opens {s : State} {a b : Fin 64} (hpair : s.calPairOf a = some (a, b)) (hawake : s.portsAwake = true)
    (hup : s.pairUp a b = true) (hdue : s.ports[a].calNext ≤ s.now) (hmacs : s.macDown = false)
    (hclosed : s.ports[a].cal.isOpen = false) :
    Yields (.calFrameSend a) s fun t => t.ports[a].cal.seq = (s.ports[a].cal.seq + 1) % 2 ^ 32 ∧ t.ports[a].cal.isOpen = true
      ∧ t.ports[a].cal.sentLo = true ∧ t.ports[a].cal.done = s.ports[a].cal.done
      ∧ t.ports[a].egress.length = s.ports[a].egress.length + 1 := by
  show Answers _ (execCalFrameSend a s)
  unfold execCalFrameSend
  simp -zeta only [hpair]
  rw [if_neg (by rw [hawake, hup, hmacs, decide_eq_true hdue]; decide)]
  extract_lets old lo again v opened c src w shown peer f x t
  have hold : old.isOpen = false := hclosed
  have hopened : opened = { seq := (old.seq + 1) % 2 ^ 32, isOpen := true, done := old.done } := if_pos (by simp [again, hold])
  have hc : c = { opened with sentLo := true } := if_pos rfl
  have hv : v = s := if_neg (by simp [hold])
  have hshown : shown.ports[a] = { s.ports[a] with cal := c } := by
    have hports : shown.ports = w.ports := by
      unfold shown
      split <;> rfl
    rw [hports, ← hv]
    exact State.setPort_port ..
  have ht : (t.countP a 0x0C).ports[a] = { shown.ports[a] with
      egress := shown.ports[a].egress ++ [f], calNext := shown.now + ticksMs (shown.nn (Obj.cal_interval a)) } :=
    State.setPort_port ..
  refine ⟨_, rfl, ?_⟩
  beta_reduce
  rw [ht, hshown, hc, hopened]
  exact ⟨rfl, rfl, rfl, rfl, List.length_append⟩

/-! ## DEPARTURE_FIX (R244, R240, R253) -/

/-- The frame leaves a port's egress. -/
def State.takeFrame (s : State) (p : Fin 64) (f : EFrame) : State :=
  s.setPort p { s.ports[p] with egress := s.ports[p].egress.erase f }

section
variable {s : State} {p : Fin 64} {f : EFrame} (hawake : s.portsAwake = true) (hlink : s.linkUp p = true)
  (hrun : s.tb.running = true) (hmacs : s.macDown = false) (hblock : s.blockBusy (0x0100 + p) = false)
  (hnext : s.nextFrame p s.earliest = some f)
include hawake hlink hrun hmacs hblock hnext

theorem exec_departureFix_asleep {since : Nat} (hlpi : s.ports[p].lpi = some since) (word o : Nat) :
    exec (.departureFix p word o) s = .next (s.wakeLine p) := by
  show execDepartureFix p word o s = _
  unfold execDepartureFix
  rw [if_neg (by simp [hawake, hlink, hrun, hmacs, hblock])]
  simp only [hnext, hlpi, Option.isSome_some, if_true]

/-- On a line that is awake and free, a frame without its sentinel is discarded and any other is fixed. -/
theorem exec_departureFix_free {word o : Nat} (hlpi : s.ports[p].lpi = none) (hfree : s.ports[p].lineFree ≤ s.earliest)
    (hfits : s.sfdFits p s.earliest (s.txWord p s.earliest word) o = true) : exec (.departureFix p word o) s
      = if f.kind ≠ 0 ∧ s.nn (Obj.tx_sentinel_state p) ≠ 2 then
          .next ((((s.takeFrame p f).bump (Obj.ts_uncal_drop p)).countP p 0x07).emitDone f.owner p none)
        else .next ((s.takeFrame p f).fixFrame p f s.earliest (s.txWord p s.earliest word) o) := by
  show execDepartureFix p word o s = _
  unfold execDepartureFix
  rw [if_neg (by simp [hawake, hlink, hrun, hmacs, hblock])]
  extract_lets d u edge
  simp -zeta only [show s.nextFrame p d = some f from hnext]
  rw [if_neg (by rw [show u.lpi = none from hlpi]; decide), if_neg (by rw [decide_eq_false (Nat.not_lt.mpr hfree), hfits]; decide)]
  refine if_congr ?_ rfl rfl
  rw [Bool.and_eq_true, decide_eq_true_eq, decide_eq_true_eq]
  rfl

end

/-! ## FRAME_DEPARTURE (R246, R248) -/

/-- `t` has what port `p` of `s` sends and is to send, the timebase and the engines of `s`. -/
structure KeepsLine (p : Fin 64) (s t : State) : Prop where
  fixed : t.ports[p].fixed = s.ports[p].fixed
  wire : t.ports[p].wire = s.ports[p].wire
  txOct : t.ports[p].txOct = s.ports[p].txOct
  egress : t.ports[p].egress = s.ports[p].egress
  tb : t.tb = s.tb
  serve : t.serve = s.serve

namespace KeepsLine
variable {p : Fin 64} {s t u : State}

theorem refl (p : Fin 64) (s : State) : KeepsLine p s s := ⟨rfl, rfl, rfl, rfl, rfl, rfl⟩

theorem of_eq (hports : t.ports = s.ports) (htb : t.tb = s.tb) (hserve : t.serve = s.serve) : KeepsLine p s t :=
  ⟨by rw [hports], by rw [hports], by rw [hports], by rw [hports], htb, hserve⟩

theorem trans (h : KeepsLine p s t) (h' : KeepsLine p t u) : KeepsLine p s u :=
  ⟨h'.fixed.trans h.fixed, h'.wire.trans h.wire, h'.txOct.trans h.txOct, h'.egress.trans h.egress, h'.tb.trans h.tb,
    h'.serve.trans h.serve⟩

theorem ite {c : Prop} [Decidable c] (h : KeepsLine p s t) (h' : KeepsLine p s u) : KeepsLine p s (if c then t else u) := by
  split
  · exact h
  · exact h'

theorem bump (h : KeepsLine p s t) (key d : Nat) : KeepsLine p s (t.bump key d) := h.trans (.of_eq rfl rfl rfl)

theorem putN (h : KeepsLine p s t) (key : Nat) (x : Int) : KeepsLine p s (t.putN key x) := h.trans (.of_eq rfl rfl rfl)

theorem countP (h : KeepsLine p s t) (n : Fin 64) (code w : Nat) : KeepsLine p s (t.countP n code w) :=
  h.trans (.of_eq rfl rfl rfl)

theorem count (h : KeepsLine p s t) (blk : Fin 16) (code w : Nat) : KeepsLine p s (t.count blk code w) :=
  h.trans (.of_eq rfl rfl rfl)

theorem log (h : KeepsLine p s t) (source code : Nat) (data : Bytes) : KeepsLine p s (t.log source code data) :=
  h.trans (.of_eq (State.log_ports ..) (State.log_tb ..) (State.log_serve ..))

/-- What a sentinel and its measurements note at a port stands beside its frames. -/
theorem setPort (h : KeepsLine p s t) (x : PortUnit)
    (hx : x.fixed = t.ports[p].fixed ∧ x.wire = t.ports[p].wire ∧ x.txOct = t.ports[p].txOct ∧ x.egress = t.ports[p].egress) :
    KeepsLine p s (t.setPort p x) := by
  obtain ⟨hfixed, hwire, hoct, hegress⟩ := hx
  exact h.trans ⟨by rw [State.setPort_port, hfixed], by rw [State.setPort_port, hwire], by rw [State.setPort_port, hoct],
    by rw [State.setPort_port, hegress], rfl, rfl⟩

theorem noteMispredict (h : KeepsLine p s t) (second : Option Nat) :
    KeepsLine p s (t.setPort p { t.ports[p] with mispredictAt := second }) := h.setPort _ ⟨rfl, rfl, rfl, rfl⟩

theorem setSentinel (h : KeepsLine p s t) (tx : Bool) (v : Nat) : KeepsLine p s (t.setSentinel p tx v) := by
  unfold State.setSentinel
  extract_lets old u x w
  have hlogged : KeepsLine p s u := (h.putN _ _).log _ _ _
  have hnoted : KeepsLine p s w := by
    refine hlogged.ite (hlogged.setPort _ ?_)
    cases tx <;> exact ⟨rfl, rfl, rfl, rfl⟩
  exact h.ite (((hnoted.bump _ _).countP _ _ _).ite hnoted)

end KeepsLine

theorem exec_frameDeparture_early {s : State} {p : Fin 64} {x : Fixed} {rest : List Fixed} (hfixed : s.ports[p].fixed = x :: rest)
    (hearly : s.tb.raw < x.depart) (err : Rat) : exec (.frameDeparture p err) s = .next s := by
  show execFrameDeparture p err s = _
  simp only [execFrameDeparture, hfixed, if_pos hearly]

/-- The frame is on the wire. -/
def State.sendFixed (s : State) (p : Fin 64) (x : Fixed) (rest : List Fixed) : State :=
  let wire := withFcs (x.frame.departing x.ins).1
  s.setPort p { s.ports[p] with fixed := rest, wire, txOct := s.ports[p].txOct + wire.length + 20 }

/-- After the frame is on the wire its departure is counted and its prediction compared (R248). -/
theorem frameDeparture_sends {s : State} {p : Fin 64} {x : Fixed} {rest : List Fixed} (hfixed : s.ports[p].fixed = x :: rest)
    (hdue : x.depart ≤ s.tb.raw) (err : Rat) : Yields (.frameDeparture p err) s (KeepsLine p (s.sendFixed p x rest)) := by
  show Answers _ (execFrameDeparture p err s)
  unfold execFrameDeparture
  simp -zeta only [hfixed]
  rw [if_neg (Nat.not_lt.mpr hdue)]
  extract_lets wire u sent noted counted blocks frames diff ps missed restarted
  rw [show s.sendFixed p x rest = sent from rfl]
  have hframes : KeepsLine p sent frames := by
    have hnoted : KeepsLine p sent noted := ((KeepsLine.refl p sent).bump _ _).ite (.refl p sent)
    exact ((((hnoted.bump _ _).bump _ _).countP _ _ _).countP _ _ _).count _ _ _
  have hmissed : KeepsLine p sent missed := ((hframes.bump _ _).countP _ _ _).putN _ _
  have hrestarted : KeepsLine p sent restarted := (hmissed.setSentinel _ _).ite hmissed
  split
  · exact ⟨_, rfl, hframes⟩
  · split
    · exact ⟨_, rfl, hmissed⟩
    · split
      · exact ⟨_, rfl, hrestarted⟩
      · exact ⟨_, rfl, (hrestarted.noteMispredict _).log _ _ _⟩

/-- Settles O27: each clause is the equation of its command's branch; what counts and compares a departure leaves the frames of
the port as they are. -/
theorem portFrames : Obligations.PortFrames := by
  refine ⟨fun s p edge o skew frame hawake hlink hpos hmacs hblock hfcs =>
      congrArg Host.Outcome.next (State.receivePort_badFcs hawake hlink hpos hmacs hblock hfcs edge skew),
    fun s u p edge o skew frame hawake hlink hpos hmacs hblock hfcs hlong hsingle hu hmax => ?_,
    fun s p edge o skew frame hawake hlink hpos hmacs =>
      congrArg Host.Outcome.next (State.receivePort_macDown hawake hlink hpos hmacs edge skew frame),
    fun s a b hpair hawake hup hdue hmacs hclosed => calFrameSend_opens hpair hawake hup hdue hmacs hclosed,
    fun s u p edge o frame hawake hlink hpos hmacs hblock hfcs hlong hcal hcut hpair hu hmax hpaired hesmc => ?_,
    fun s p edge o frame hnone => exec_calFrameReceive_none hnone edge o,
    fun s p word o f hawake hlink hrun hmacs hblock hnext hlpi hfree hfits hmay => ?_,
    fun s p word o f hawake hlink hrun hmacs hblock hnext hlpi hfree hfits hkind hunlocked => ?_,
    fun s p word o f since hawake hlink hrun hmacs hblock hnext hlpi =>
      exec_departureFix_asleep hawake hlink hrun hmacs hblock hnext hlpi word o,
    fun s p err x rest hfixed hearly => exec_frameDeparture_early hfixed hearly err,
    fun s p err x rest hfixed hdue => ?_⟩
  · subst hu
    exact congrArg Host.Outcome.next
      (State.receivePort_good hawake hlink hpos hmacs hblock (if_neg hsingle) hfcs hlong hmax edge)
  · subst hu
    rw [exec_calFrameReceive_paired hcal hpair, State.receivePort_good hawake hlink hpos hmacs hblock (ite_self 0) hfcs hlong hmax]
    exact congrArg Host.Outcome.next (State.acceptFrame_calibration hesmc hcut hpaired ..)
  · rw [exec_departureFix_free hawake hlink hrun hmacs hblock hnext hlpi hfree hfits]
    exact if_neg fun ⟨hkind, hunlocked⟩ => hmay.elim hkind hunlocked
  · rw [exec_departureFix_free hawake hlink hrun hmacs hblock hnext hlpi hfree hfits]
    exact if_pos ⟨hkind, hunlocked⟩
  · obtain ⟨t, ht, ⟨hrest, hwire, hoct, hegress, htb, hserve⟩⟩ := frameDeparture_sends hfixed hdue err
    rw [State.sendFixed, State.setPort_port] at hrest hwire hoct hegress
    exact ⟨t, ht, hrest, hwire, by rw [hoct, hwire], hegress, htb, hserve⟩

end Sys2Proof.Machine
end

section
/-! The sideband chains and the management port (R255-R257). -/

namespace Sys2Proof.Machine

open Sys2Proof.Safety

/-! ## Operations that leave the sideband's state alone

What a module's inputs effect on its port (R257, R229). The lemmas form one set for `simp`, which follows an operation's
branches by `ite_side` and its loops by `foldl_side` to the operations that it calls. -/

theorem ite_side (p : Prop) [Decidable p] (s t : State) : (if p then s else t).side = if p then s.side else t.side :=
  apply_ite State.side p s t

@[simp] theorem foldl_side {α : Type} {f : State → α → State} (hf : ∀ s a, (f s a).side = s.side) (l : List α) (s : State) :
    (l.foldl f s).side = s.side :=
  List.foldlRecOn l f (motive := fun t => t.side = s.side) rfl fun t h a _ => (hf t a).trans h

/-! ### Frames a port discards (R229, R304, R420) -/

@[simp] theorem State.countE_side (s : State) (e : Fin 8) (code w : Nat) : (s.countE e code w).side = s.side := rfl

@[simp] theorem State.storeSample_side (s : State) (e : Fin 8) (rec : Bytes) : (s.storeSample e rec).side = s.side := by
  simp [State.storeSample, ite_side]

@[simp] theorem State.sampleEnded_side (s : State) (e : Fin 8) (x : EndedThread) (depart : Option Nat) :
    (s.sampleEnded e x depart).side = s.side := by
  simp [State.sampleEnded, ite_side]

@[simp] theorem State.emitDone_side (s : State) (owner : Option (Fin 8 × Fin 16 × Nat)) (port : Nat) (r : Option (Nat × Nat)) :
    (s.emitDone owner port r).side = s.side := by
  rcases owner with _ | ⟨e, t, serial⟩
  · rfl
  · simp only [State.emitDone, ite_side, State.setThread_side, State.countE_side, ite_self]
    generalize List.find? _ _ = ended
    cases ended <;> simp [ite_side]

@[simp] theorem State.dropEgress_side (s : State) (n : Fin 64) (p : EFrame → Bool) (counter : Nat) :
    (s.dropEgress n p counter).side = s.side := by
  simp [State.dropEgress]

/-! ### The slots bound to a port (R118, R119, R126) -/

@[simp] theorem State.setModel_side (s : State) (m : ModelSt) : (s.setModel m).side = s.side := by
  obtain ⟨_, _, _, hset⟩ := s.setModel_frame m
  rw [hset]

@[simp] theorem State.markDisputes_side (s : State) (i : Fin 16) : (s.markDisputes i).side = s.side := rfl

@[simp] theorem State.endDisputes_side (s : State) (gone : Dispute → Bool) : (s.endDisputes gone).side = s.side := by
  simp [State.endDisputes, ite_side]

@[simp] theorem State.leaveQualified_side (s : State) (i : Fin 16) : (s.leaveQualified i).side = s.side :=
  State.endDisputes_side ..

@[simp] theorem State.dropFirst_side (s : State) (i : Fin 16) : (s.dropFirst i).side = s.side := by
  simp [State.dropFirst, ite_side]

@[simp] theorem State.failSlot_side (s : State) (i : Fin 16) (bits : Nat) : (s.failSlot i bits).side = s.side := by
  simp [State.failSlot, ite_side]

@[simp] theorem State.logSlot_side (s : State) (i : Fin 16) : (s.logSlot i).side = s.side := by simp [State.logSlot]

@[simp] theorem State.evalSlot_side (s : State) (i : Fin 16) : (s.evalSlot i).side = s.side := by
  simp [State.evalSlot, ite_side]

/-! ### The PTP instances a port runs in (R311) -/

@[simp] theorem State.setPtpState_side (s : State) (i : Fin 4) (n v : Nat) : (s.setPtpState i n v).side = s.side := by
  simp [State.setPtpState, ite_side]

@[simp] theorem State.listenOn_side (s : State) (i : Fin 4) (n : Nat) : (s.listenOn i n).side = s.side := by
  simp [State.listenOn, State.setPtpPort, ite_side]

@[simp] theorem State.ptpLink_side (s : State) (n : Nat) : (s.ptpLink n).side = s.side := by
  simp [State.ptpLink, ite_side]

/-! ### The link of a port (R229, R239, R253) -/

@[simp] theorem State.setLink_side (s : State) (n : Fin 64) (v code : Nat) (data : Bytes) :
    (s.setLink n v code data).side = s.side := by
  simp [State.setLink, ite_side]

@[simp] theorem State.countP_side (s : State) (n : Fin 64) (code w : Nat) : (s.countP n code w).side = s.side := rfl

@[simp] theorem State.setSentinel_side (s : State) (n : Fin 64) (tx : Bool) (v : Nat) : (s.setSentinel n tx v).side = s.side := by
  simp [State.setSentinel, ite_side]

@[simp] theorem State.endLpi_side (s : State) (n : Fin 64) : (s.endLpi n).side = s.side := by
  unfold State.endLpi
  split <;> rfl

@[simp] theorem State.clearPair_side (s : State) (n : Fin 64) : (s.clearPair n).side = s.side := by
  unfold State.clearPair
  split <;> simp

@[simp] theorem State.portDown_side (s : State) (n : Fin 64) (v cause : Nat) : (s.portDown n v cause).side = s.side := by
  simp [State.portDown]

/-- What a module's inputs effect (R257) reads the chains and moves nothing of them. -/
@[simp] theorem State.moduleEffect_side (s : State) (old : Sideband) (n : Fin 64) : (s.moduleEffect old n).side = s.side := by
  simp [State.moduleEffect, ite_side]

/-! ## SIDEBAND_SCAN (R256, R257) -/

theorem exec_sidebandScan_early {s : State} (hearly : s.now < s.side.next) (first second third : Nat) :
    exec (.sidebandScan first second third) s = .next s :=
  if_pos (by simp [Nat.not_le.mpr hearly])

section
variable {s : State} (hawake : s.portsAwake = true) (hon : s.flag Obj.sb_enable = true) (hdue : s.side.next ≤ s.now)
include hawake hon hdue

theorem exec_sidebandScan_again (hagain : s.side.anyScan = true) (first second third : Nat) :
    exec (.sidebandScan first second third) s = .next (
      let b := s.side
      let a := s.sbRead 0 (chainMask first second third 0)
      let l := s.sbRead 1 (chainMask first second third 1)
      let f := s.sbRead 2 (chainMask first second third 2)
      let g : Sideband := { next := s.now + ticksUs (s.nn Obj.sb_period), scanAt := s.now, rawAbsent := a, rawLoss := l, rawFault := f,
                            absent := debounce a b.rawAbsent b.absent, loss := debounce l b.rawLoss b.loss,
                            fault := debounce f b.rawFault b.fault, latched := b.shifted, shifted := s.disableMask, anyScan := true }
      (List.finRange 64).foldl (fun (u : State) n => u.moduleEffect b n) (({ s with side := g } : State).bump Obj.sb_scan_count)) := by
  show execSidebandScan first second third s = _
  unfold execSidebandScan
  dsimp only
  rw [if_neg (by simp [hawake, hon, hdue])]
  simp only [hagain, if_true]

/-- A scan, the first or a later one, leaves its readings and the time of the next; the modules' effects stand apart. -/
theorem sidebandScan_reads (first second third : Nat) :
    Yields (.sidebandScan first second third) s fun t => t.side.anyScan = true
      ∧ t.side.next = s.now + ticksUs (s.nn Obj.sb_period) ∧ t.side.rawAbsent = s.sbRead 0 (chainMask first second third 0)
      ∧ t.side.latched = s.side.shifted := by
  show Answers _ (execSidebandScan first second third s)
  unfold execSidebandScan
  extract_lets b a l f pa pl pf g s1 s2
  rw [if_neg (by simp [b, hawake, hon, hdue])]
  have hstands : (List.foldl (fun (u : State) n => u.moduleEffect b n) s2 (List.finRange 64)).side = g :=
    foldl_side (fun t n => t.moduleEffect_side b n) _ s2
  exact ⟨_, rfl, by rw [hstands], by rw [hstands], by rw [hstands], by rw [hstands]⟩

end

/-! ## MGMT_PHY_POLL (R255) -/

theorem exec_mgmtPhyPoll_early {s : State} (hearly : s.now < s.ool.phyNext) (r1 r4 r5 r9 r10 : Nat) :
    exec (.mgmtPhyPoll r1 r4 r5 r9 r10) s = .next s :=
  if_pos (by simp [Nat.not_le.mpr hearly])

/-- The poll has been taken: the MDIO frames sent, the next poll 100 ms away. -/
def State.polledPhy (s : State) : State :=
  { s with ool := { s.ool with phyNext := s.now + 125000000, mdio := phyPoll (s.nn Obj.mgmt_phy_addr) } }

theorem exec_mgmtPhyPoll_due {s : State} (hawake : s.portsAwake = true) (hon : s.flag Obj.mgmt_enable = true)
    (hdue : s.ool.phyNext ≤ s.now) (r1 r4 r5 r9 r10 : Nat) : exec (.mgmtPhyPoll r1 r4 r5 r9 r10) s
      = if phyLink r1 r4 r5 r9 r10 = s.nn Obj.mgmt_link then .next s.polledPhy
        else .next ((s.polledPhy.putN Obj.mgmt_link (phyLink r1 r4 r5 r9 r10)).log 0 0x4009
          (be 1 (phyLink r1 r4 r5 r9 r10 : Nat))) :=
  if_neg (by simp [hawake, hon, hdue])

/-! ## MGMT_FRAME_RECEIVE (R255, R61, R260) -/

/-- The addresses the management port takes frames for: its own, broadcast and its solicited-node address. -/
def State.mgmtAddresses (s : State) : List Bytes :=
  [s.octs Obj.mgmt_mac, List.replicate 6 0xFF, [0x33, 0x33, 0xFF] ++ (s.octs Obj.mgmt_mac).drop 3]

theorem State.mgmtAddresses_contains (s : State) (d : Bytes) : s.mgmtAddresses.contains d
    = (d == s.octs Obj.mgmt_mac || d == List.replicate 6 0xFF || d == [0x33, 0x33, 0xFF] ++ (s.octs Obj.mgmt_mac).drop 3) := by
  simp only [State.mgmtAddresses, List.contains_cons, List.contains_nil, Bool.or_false, Bool.or_assoc]

section
variable {s : State} {frame : Bytes} (hawake : s.portsAwake = true) (hon : s.flag Obj.mgmt_enable = true)
  (hlink : s.nn Obj.mgmt_link ≠ 0) (hmacs : s.macDown = false)
include hawake hon hlink hmacs

theorem exec_mgmtFrameReceive_bad (hbad : fcsOk frame = false ∨ frame.length < 64
      ∨ s.mgmtAddresses.contains (field (frame.take (frame.length - 4)) 0 6) = false) :
    exec (.mgmtFrameReceive frame) s = .next (s.bump Obj.mgmt_rx_dropped) := by
  show execMgmtFrameReceive frame s = _
  unfold execMgmtFrameReceive
  extract_lets b mac dst mine
  have hmine : s.mgmtAddresses.contains dst = mine := s.mgmtAddresses_contains dst
  rw [if_neg (by simp [hawake, hon, hlink, hmacs])]
  refine if_pos ?_
  obtain hfcs | hshort | hother := hbad
  · rw [hfcs, Bool.false_and, Bool.false_and, Bool.not_false]
  · rw [decide_eq_false (Nat.not_le.mpr hshort), Bool.and_false, Bool.false_and, Bool.not_false]
  · rw [← hmine, hother, Bool.and_false, Bool.not_false]

theorem exec_mgmtFrameReceive_good (hfcs : fcsOk frame = true) (hlong : 64 ≤ frame.length)
    (hmine : s.mgmtAddresses.contains (field (frame.take (frame.length - 4)) 0 6) = true) :
    exec (.mgmtFrameReceive frame) s = (
      let b := frame.take (frame.length - 4)
      let h := rxHeaders 0x8100 b
      let u := s.bump Obj.mgmt_rx_frames
      if u.isOol h b then .next (u.placeOol
        { path := .mgmt, hdr := b.take h.payload, frame := b.drop h.payload |>.take h.udpLen, tagged := h.tagged })
      else .next ((u.buffer b.length).2.toRing 2 { pkt :=
        { buffer := (u.buffer b.length).1, data := b, port := 0xFF, tagged := h.tagged, vid := h.vid }, reason := 0, seq := 0 })) := by
  show execMgmtFrameReceive frame s = _
  unfold execMgmtFrameReceive
  extract_lets b mac dst mine u h
  have hmine : mine = true := (s.mgmtAddresses_contains dst).symm.trans hmine
  rw [if_neg (by simp [hawake, hon, hlink, hmacs])]
  exact if_neg (by simp [hfcs, hlong, hmine])

end

/-- Settles O28: each clause is the equation of its command's branch; what a scan read stands through what the modules' inputs
effect on their ports. -/
theorem sidebandAndManagement : Obligations.SidebandAndManagement := by
  refine ⟨fun s first second third hawake hon hdue hagain => exec_sidebandScan_again hawake hon hdue hagain first second third,
    fun s first second third hawake hon hdue _ => sidebandScan_reads hawake hon hdue first second third,
    fun s first second third hearly => exec_sidebandScan_early hearly first second third,
    fun s r1 r4 r5 r9 r10 hawake hon hdue => ?_,
    fun s r1 r4 r5 r9 r10 hearly => exec_mgmtPhyPoll_early hearly r1 r4 r5 r9 r10,
    fun s frame hawake hon hlink hmacs hbad => exec_mgmtFrameReceive_bad hawake hon hlink hmacs hbad,
    fun s frame hawake hon hlink hmacs hfcs hlong hmine hool => ?_,
    fun s frame hawake hon hlink hmacs hfcs hlong hmine hool => ?_⟩
  · rw [exec_mgmtPhyPoll_due hawake hon hdue]
    exact ⟨fun hchanged => if_neg hchanged, fun hsame => if_pos hsame⟩
  · rw [exec_mgmtFrameReceive_good hawake hon hlink hmacs hfcs hlong hmine]
    exact if_pos hool
  · rw [exec_mgmtFrameReceive_good hawake hon hlink hmacs hfcs hlong hmine]
    exact if_neg (by simp [hool])

end Sys2Proof.Machine
end

section
/-! The issue of an instruction (R264, R292, R297-R299): what every opcode's effect acts on, the ALU and compare instructions. -/

namespace Sys2Proof.Machine

open Sys2Proof.Safety

/-! ## The issue of an instruction -/

/-- An issued instruction has its effect on the state and the thread with the issue counted. -/
theorem State.instr_of_next {s : State} {e : Fin 8} {t : Fin 16} {op : Nat} {w : Word64} (h : IsaNext s e t op w)
    (f : State → Thread → Word64 → State) : s.instr e t op f = .next (f (counted s e t) (issued s e t) w) := by
  obtain ⟨hissues, hfetch, hop⟩ := h
  unfold State.instr
  rw [if_neg (by simp [hissues])]
  simp only [hfetch]
  exact if_neg (not_not_intro hop)

section
variable {s : State} {e : Fin 8} {t : Fin 16} {op : Nat} {w : Word64} {c : Instr} {f : State → Thread → Word64 → State}

theorem issues_instr (h : IsaNext s e t op w) (hc : exec c s = s.instr e t op f) {y : Thread}
    (hy : f (counted s e t) (issued s e t) w = (counted s e t).setThread e t y) : Issues c s e t y := by
  unfold Issues
  rw [hc, State.instr_of_next h, hy]

theorem faults_instr (h : IsaNext s e t op w) (hc : exec c s = s.instr e t op f) {cause : Nat}
    (hf : f (counted s e t) (issued s e t) w = (counted s e t).progFault e t cause) : Faults c s e t cause := by
  unfold Faults
  rw [hc, State.instr_of_next h, hf]

end

/-- The thread after an instruction with result `v`. -/
def Thread.gives (x : Thread) (w : Word64) (v : Nat) : Thread :=
  { x with pc := x.pc + 1, regs := if destOf w = 0 then x.regs else x.regs.set (destOf w) (BitVec.ofNat 64 v) }

theorem Thread.setReg_pc (x : Thread) (d : Fin 32) (v : Word64) (k : Nat) :
    { x.setReg d v with pc := k } = { x with pc := k, regs := if d = 0 then x.regs else x.regs.set d v } := by
  unfold Thread.setReg
  split <;> rfl

theorem Thread.setReg_gives (x : Thread) (w : Word64) {v : Word64} {n : Nat} (hv : v = BitVec.ofNat 64 n) :
    { x.setReg (destOf w) v with pc := x.pc + 1 } = x.gives w n := by
  rw [x.setReg_pc, hv]
  rfl

/-! ## Operands (R292, R297) -/

theorem Thread.operandB_eq (x : Thread) (w : Word64) : x.operandB w = if flagOf w 32
    then BitVec.ofInt 64 (if flagOf w 33 && immOf w ≥ 2 ^ 31 then (immOf w : Int) - 2 ^ 32 else immOf w)
    else if srcBOf w = 0 then 0 else x.regs[srcBOf w] := by
  unfold Thread.operandB
  cases flagOf w 32
  · rfl
  · cases flagOf w 33
    · simp
    · refine congrArg (BitVec.ofInt 64) ?_
      by_cases hneg : immOf w ≥ 2 ^ 31
      · exact (if_neg (Nat.not_lt.mpr hneg)).trans (if_pos (by simpa using hneg)).symm
      · exact (if_pos (Nat.not_le.mp hneg)).trans (if_neg (by simpa using hneg)).symm

/-! ## Results modulo 2^64 (R297) -/

theorem ofNat_add (a b : Word64) : a + b = BitVec.ofNat 64 (a.toNat + b.toNat) := rfl

theorem ofNat_mul (a b : Word64) : a * b = BitVec.ofNat 64 (a.toNat * b.toNat) := rfl

theorem ofNat_sub_wrap (a b : Word64) : a - b = BitVec.ofNat 64 (a.toNat + 2 ^ 64 - b.toNat) := by
  apply BitVec.eq_of_toNat_eq
  have := b.isLt
  simp only [BitVec.toNat_sub, BitVec.toNat_ofNat]
  omega

theorem ofNat_and (a b : Word64) : a &&& b = BitVec.ofNat 64 (a.toNat &&& b.toNat) := by
  rw [← BitVec.toNat_and, BitVec.ofNat_toNat, BitVec.setWidth_eq]

theorem ofNat_or (a b : Word64) : a ||| b = BitVec.ofNat 64 (a.toNat ||| b.toNat) := by
  rw [← BitVec.toNat_or, BitVec.ofNat_toNat, BitVec.setWidth_eq]

theorem ofNat_or_ofNat (a : Word64) (n : Nat) : a ||| BitVec.ofNat 64 n = BitVec.ofNat 64 (a.toNat ||| n) := by
  rw [BitVec.ofNat_or, BitVec.ofNat_toNat, BitVec.setWidth_eq]

theorem ofNat_xor (a b : Word64) : a ^^^ b = BitVec.ofNat 64 (a.toNat ^^^ b.toNat) := by
  rw [← BitVec.toNat_xor, BitVec.ofNat_toNat, BitVec.setWidth_eq]

theorem ofNat_shl (a : Word64) (k : Nat) : a <<< k = BitVec.ofNat 64 (a.toNat * 2 ^ k) := by
  apply BitVec.eq_of_toNat_eq
  rw [BitVec.toNat_shiftLeft, BitVec.toNat_ofNat, Nat.shiftLeft_eq]

theorem ofNat_shr (a : Word64) (k : Nat) : a >>> k = BitVec.ofNat 64 (a.toNat / 2 ^ k) := by
  rw [← Nat.shiftRight_eq_div_pow, ← BitVec.toNat_ushiftRight, BitVec.ofNat_toNat, BitVec.setWidth_eq]

/-- An arithmetic shift of a negative number shifts its complement. -/
theorem ofNat_sar (a : Word64) (k : Nat) : a.sshiftRight k =
    BitVec.ofNat 64 (if a.toNat < 2 ^ 63 then a.toNat / 2 ^ k else 2 ^ 64 - 1 - (2 ^ 64 - 1 - a.toNat) / 2 ^ k) := by
  by_cases hpos : a.toNat < 2 ^ 63
  · rw [if_pos hpos, BitVec.sshiftRight_eq_of_msb_false (by rw [BitVec.msb_eq_decide]; simpa using hpos), ofNat_shr]
  · rw [if_neg hpos, BitVec.sshiftRight_eq_of_msb_true (by rw [BitVec.msb_eq_decide]; simpa using hpos)]
    apply BitVec.eq_of_toNat_eq
    rw [BitVec.toNat_not, BitVec.toNat_ushiftRight, BitVec.toNat_not, Nat.shiftRight_eq_div_pow, BitVec.toNat_ofNat,
      Nat.mod_eq_of_lt (Nat.lt_of_le_of_lt (Nat.sub_le _ _) (by decide))]

/-- The sum of two 16-bit numbers takes one end-around carry. -/
theorem addcWord_eq (a b : Word64) : addcWord a b = BitVec.ofNat 64
    ((a.toNat % 65536 + b.toNat % 65536) % 65536 + (a.toNat % 65536 + b.toNat % 65536) / 65536) := by
  refine congrArg (BitVec.ofNat 64) ?_
  simp only [addc16, fold16]
  omega

theorem ofNat_minu (a b : Word64) : (if a < b then a else b) = BitVec.ofNat 64 (min a.toNat b.toNat) := by
  by_cases h : a < b
  · rw [if_pos h, Nat.min_eq_left (Nat.le_of_lt h), BitVec.ofNat_toNat, BitVec.setWidth_eq]
  · rw [if_neg h, Nat.min_eq_right (Nat.le_of_not_lt h), BitVec.ofNat_toNat, BitVec.setWidth_eq]

theorem ofNat_maxu (a b : Word64) : (if a < b then b else a) = BitVec.ofNat 64 (max a.toNat b.toNat) := by
  by_cases h : a < b
  · rw [if_pos h, Nat.max_eq_right (Nat.le_of_lt h), BitVec.ofNat_toNat, BitVec.setWidth_eq]
  · rw [if_neg h, Nat.max_eq_left (Nat.le_of_not_lt h), BitVec.ofNat_toNat, BitVec.setWidth_eq]

theorem ofNat_sltu (a b : Word64) : (if a < b then 1 else 0 : Word64) = BitVec.ofNat 64 (if a.toNat < b.toNat then 1 else 0) := by
  by_cases h : a < b
  · rw [if_pos h, if_pos (BitVec.lt_def.mp h)]; rfl
  · rw [if_neg h, if_neg (mt BitVec.lt_def.mpr h)]; rfl

/-! ## ALU and compare instructions (R298) -/

section
variable {s : State} {e : Fin 8} {t : Fin 16} {op : Nat} {w : Word64} {c : Instr}

/-- An ALU instruction issues with the result of its operation on A and B. -/
theorem issues_alu (h : IsaNext s e t op w) {f : Word64 → Word64 → Word64} (hc : exec c s = s.alu e t op f) {n : Nat}
    (hv : f ((issued s e t).g (srcAOf w)) ((issued s e t).operandB w) = BitVec.ofNat 64 n) :
    Issues c s e t ((issued s e t).gives w n) :=
  issues_instr h hc (congrArg _ (Thread.setReg_gives _ _ hv))

/-- A compare branch goes to its target where its condition holds of A and B, else on. -/
theorem issues_compare (h : IsaNext s e t op w) {f : Word64 → Word64 → Bool} (hc : exec c s = s.compare e t op f) {b : Bool}
    (hb : f ((issued s e t).g (srcAOf w)) ((issued s e t).branchB w) = b) :
    Issues c s e t { issued s e t with pc := if b then immOf w % 16384 else (issued s e t).pc + 1 } := by
  subst hb
  rw [State.compare, State.branch] at hc
  exact issues_instr h hc rfl

end

/-- Settles O32: each clause is the issue of its instruction, with its operation written in natural numbers. -/
theorem isaArithmeticAndCompare : Obligations.IsaArithmeticAndCompare := by
  intro s e t w x aw a imm bw b cb go sum gives
  have hb : x.operandB w = bw := x.operandB_eq w
  have alu {op : Nat} {c : Instr} {f : Word64 → Word64 → Word64} {n : Nat} (hc : exec c s = s.alu e t op f)
      (hv : f aw bw = BitVec.ofNat 64 n) (h : IsaNext s e t op w) : Issues c s e t (gives n) :=
    issues_alu h hc (hb ▸ hv)
  have compare {op : Nat} {c : Instr} {f : Word64 → Word64 → Bool} {p : Bool} (hc : exec c s = s.compare e t op f)
      (hp : f aw cb = p) (h : IsaNext s e t op w) : Issues c s e t (go p) := issues_compare h hc hp
  exact ⟨fun h => issues_instr (c := .isaNop e t) h (show execIsaNop e t s = _ from rfl) rfl,
    alu (show execIsaAdd e t s = _ from rfl) (ofNat_add aw bw),
    alu (show execIsaSub e t s = _ from rfl) (ofNat_sub_wrap aw bw),
    alu (show execIsaAnd e t s = _ from rfl) (ofNat_and aw bw),
    alu (show execIsaOr e t s = _ from rfl) (ofNat_or aw bw),
    alu (show execIsaXor e t s = _ from rfl) (ofNat_xor aw bw),
    alu (show execIsaShl e t s = _ from rfl) (ofNat_shl aw _),
    alu (show execIsaShr e t s = _ from rfl) (ofNat_shr aw _),
    alu (show execIsaSar e t s = _ from rfl) (ofNat_sar aw _),
    alu (show execIsaMul e t s = _ from rfl) (ofNat_mul aw bw),
    alu (show execIsaMulhu e t s = _ from rfl) rfl,
    alu (show execIsaAddc e t s = _ from rfl) (addcWord_eq aw bw),
    alu (show execIsaMinu e t s = _ from rfl) (ofNat_minu aw bw),
    alu (show execIsaMaxu e t s = _ from rfl) (ofNat_maxu aw bw),
    alu (show execIsaSltu e t s = _ from rfl) (ofNat_sltu aw bw),
    fun h => issues_instr (c := .isaOrhi e t) h (show execIsaOrhi e t s = _ from rfl) (congrArg _ (x.setReg_gives w (ofNat_or_ofNat aw _))),
    compare (show execIsaBeq e t s = _ from rfl) rfl,
    compare (show execIsaBne e t s = _ from rfl) (decide_not (p := aw = cb)).symm,
    compare (show execIsaBltu e t s = _ from rfl) rfl,
    compare (show execIsaBgeu e t s = _ from rfl) rfl,
    compare (show execIsaBlt e t s = _ from rfl) rfl,
    compare (show execIsaBge e t s = _ from rfl) rfl⟩

end Sys2Proof.Machine
end

section
/-! Window instructions (R293, R298, R301): loads, stores, copies and turns within one region, and the faults of others. -/

namespace Sys2Proof.Machine

open Sys2Proof.Safety

/-! ## The regions (R293) -/

theorem regions_disjoint : ∀ r ∈ regions, ∀ q ∈ regions, r = q ∨ r.2.1 ≤ q.1 ∨ q.2.1 ≤ r.1 := by decide

/-- A byte lies in one region at most. -/
theorem regions_unique {r q : Nat × Nat × Bool} (hr : r ∈ regions) (hq : q ∈ regions) {a : Nat} (har : r.1 ≤ a ∧ a < r.2.1)
    (haq : q.1 ≤ a ∧ a < q.2.1) : r = q := by
  obtain heq | hapart := regions_disjoint r hr q hq
  · exact heq
  · omega

theorem accessFault_outside {a n : Nat} (write : Bool) (h : ∀ r ∈ regions, ¬ (r.1 ≤ a ∧ a + n ≤ r.2.1)) :
    accessFault a n write = some 1 := by
  unfold accessFault
  rw [List.find?_eq_none.mpr fun r hr => by simpa using h r hr]

theorem accessFault_inside {a n : Nat} (write : Bool) {r : Nat × Nat × Bool} (hr : r ∈ regions) (hn : 0 < n)
    (h : r.1 ≤ a ∧ a + n ≤ r.2.1) : accessFault a n write = if write && !r.2.2 then some 2 else none := by
  unfold accessFault
  cases hfind : regions.find? fun r => r.1 ≤ a && a + n ≤ r.2.1 with
  | none => exact absurd h (by simpa using List.find?_eq_none.mp hfind r hr)
  | some q =>
    have hq : q.1 ≤ a ∧ a + n ≤ q.2.1 := by simpa using List.find?_some hfind
    rw [regions_unique hr (List.mem_of_find?_eq_some hfind) ⟨h.1, by omega⟩ ⟨hq.1, by omega⟩]

theorem accessFault_packet {a n : Nat} (write : Bool) (h : a + n ≤ 0x200) : accessFault a n write = none := by
  unfold accessFault regions
  rw [List.find?_cons_of_pos (by simpa using h)]
  simp

/-! ## Loads and stores -/

theorem Thread.addr_eq (x : Thread) (r : Fin 32) (offset : Nat) : x.addr r offset = ((x.g r).toNat + offset) % 2 ^ 64 := by
  rw [Thread.addr, BitVec.toNat_add, BitVec.toNat_ofNat, Nat.add_mod_mod]

section
variable {s : State} {e : Fin 8} {t : Fin 16} {op n : Nat} {w : Word64} {c : Instr}

/-- A load issues with the bytes of its address where they lie in one region, else it faults. -/
theorem load_issues (hc : exec c s = s.load e t op n) (h : IsaNext s e t op w) {a : Nat}
    (ha : a = ((issued s e t).g (srcAOf w)).toNat + immOf w % 1024) :
    (accessFault (a % 2 ^ 64) n false = none →
      Issues c s e t ((issued s e t).gives w (fieldN (issued s e t).win (a % 2 ^ 64) n)))
    ∧ ∀ cause, accessFault (a % 2 ^ 64) n false = some cause → Faults c s e t cause := by
  rw [ha, ← Thread.addr_eq]
  rw [State.load] at hc
  exact ⟨fun hin => issues_instr h hc (by simp only [hin]; exact congrArg _ (Thread.setReg_gives _ _ rfl)),
    fun cause hout => faults_instr h hc (by simp only [hout])⟩

/-- A store issues with the low bytes of B where its address lies in one writable region, else it faults. -/
theorem store_issues (hc : exec c s = s.store e t op n) (h : IsaNext s e t op w) {a : Nat}
    (ha : a = ((issued s e t).g (srcAOf w)).toNat + immOf w % 1024) :
    (accessFault (a % 2 ^ 64) n true = none →
      Issues c s e t { issued s e t with pc := (issued s e t).pc + 1
                                         win := patch (issued s e t).win (a % 2 ^ 64) (beNat n ((issued s e t).g (srcBOf w)).toNat) })
    ∧ ∀ cause, accessFault (a % 2 ^ 64) n true = some cause → Faults c s e t cause := by
  rw [ha, ← Thread.addr_eq]
  rw [State.store] at hc
  exact ⟨fun hin => issues_instr h hc (by simp only [hin]), fun cause hout => faults_instr h hc (by simp only [hout])⟩

end

/-! ## CPY, CSUM, TURN -/

section
variable {s : State} {e : Fin 8} {t : Fin 16} {w : Word64}

theorem cpy_issues (h : IsaNext s e t 0x28 w) {src dst n : Nat} (hn : n = immOf w % 1024)
    (hsrc : src = (issued s e t).addr (srcBOf w) (immOf w / 4096 % 1024))
    (hdst : dst = (issued s e t).addr (srcAOf w) (immOf w / 4194304)) :
    (accessFault src n false = none → accessFault dst n true = none →
      Issues (.isaCpy e t) s e t { issued s e t with pc := (issued s e t).pc + 1
                                                     win := patch (issued s e t).win dst (field (issued s e t).win src n) })
    ∧ (∀ cause, accessFault src n false = some cause → Faults (.isaCpy e t) s e t cause)
    ∧ ∀ cause, accessFault src n false = none → accessFault dst n true = some cause → Faults (.isaCpy e t) s e t cause := by
  subst hn hsrc hdst
  have hc : exec (.isaCpy e t) s = _ := show execIsaCpy e t s = _ from rfl
  exact ⟨fun hin hout => issues_instr h hc (by simp only [hin, hout]),
    fun cause hin => faults_instr h hc (by simp only [hin]),
    fun cause hin hout => faults_instr h hc (by simp only [hin, hout])⟩

theorem csum_issues (h : IsaNext s e t 0x29 w) {a n : Nat} (hn : n = immOf w / 65536 % 1024)
    (ha : a = (issued s e t).addr (srcAOf w) (immOf w % 1024)) :
    (accessFault a n false = none →
      Issues (.isaCsum e t) s e t ((issued s e t).gives w (fold16 (sum16 (field (issued s e t).win a n)))))
    ∧ ∀ cause, accessFault a n false = some cause → Faults (.isaCsum e t) s e t cause := by
  subst hn ha
  have hc : exec (.isaCsum e t) s = _ := show execIsaCsum e t s = _ from rfl
  exact ⟨fun hin => issues_instr h hc (by simp only [hin]; exact congrArg _ (Thread.setReg_gives _ _ rfl)),
    fun cause hout => faults_instr h hc (by simp only [hout])⟩

theorem turn_issues (h : IsaNext s e t 0x2A w) {win : Bytes} (hwin : turnedWindows (issued s e t).win (immOf w) = some win) :
    Issues (.isaTurn e t) s e t { issued s e t with pc := (issued s e t).pc + 1, win := win } :=
  issues_instr (c := .isaTurn e t) h (show execIsaTurn e t s = _ from rfl) (by simp only [hwin])

theorem turn_faults (h : IsaNext s e t 0x2A w) (hwin : turnedWindows (issued s e t).win (immOf w) = none) :
    Faults (.isaTurn e t) s e t 1 :=
  faults_instr (c := .isaTurn e t) h (show execIsaTurn e t s = _ from rfl) (by simp only [hwin])

end

theorem turnedWindows_macs (win : Bytes) : turnedWindows win 1 = some (swapFields win 0 6 6) := rfl

/-- Without a network header its offset reads 0xFFFF, beyond the packet window. -/
theorem turnedWindows_noAddress {win : Bytes} (h : fieldN win 0x268 2 = 0xFFFF) : turnedWindows win 2 = none := by
  unfold turnedWindows
  rw [h]
  exact if_pos (by cases bit (fieldN win 0x25F 1) 5 <;> rfl)

/-- Settles O34: each clause is the issue of its instruction, or its fault by the regions. -/
theorem isaWindows : Obligations.IsaWindows := by
  intro s e t w x a b at' put
  have load {op n : Nat} {c : Instr} (hc : exec c s = s.load e t op n) (h : IsaNext s e t op w) := load_issues hc h rfl
  have store {op n : Nat} {c : Instr} (hc : exec c s = s.store e t op n) (h : IsaNext s e t op w) := store_issues hc h rfl
  have haddr : at' = x.addr (srcAOf w) (immOf w % 1024) := (x.addr_eq _ _).symm
  refine ⟨by
      simp only [List.forall_mem_cons]
      exact ⟨load (show execIsaLd8 e t s = _ from rfl), load (show execIsaLd16 e t s = _ from rfl),
        load (show execIsaLd32 e t s = _ from rfl), load (show execIsaLd64 e t s = _ from rfl), List.forall_mem_nil _⟩,
    by
      simp only [List.forall_mem_cons]
      exact ⟨store (show execIsaSt8 e t s = _ from rfl), store (show execIsaSt16 e t s = _ from rfl),
        store (show execIsaSt32 e t s = _ from rfl), store (show execIsaSt64 e t s = _ from rfl), List.forall_mem_nil _⟩,
    fun src dst hsrc hdst h => cpy_issues h rfl (hsrc.trans (x.addr_eq _ _).symm) (hdst.trans (x.addr_eq _ _).symm),
    fun h => (csum_issues h rfl haddr).1, fun c h => (csum_issues h rfl haddr).2 c,
    fun win h => turn_issues h, fun h => turn_faults h,
    fun h himm => turn_issues h (by rw [himm, turnedWindows_macs]),
    fun h himm hnone => turn_faults h (by rw [himm, turnedWindows_noAddress hnone]),
    fun a n write hend => accessFault_outside write fun r hr => ?_,
    fun a n write hn hin hend => accessFault_outside write fun r hr => ?_,
    fun a n hn hlow hend => ⟨?_, ?_⟩,
    fun a n write hend => accessFault_packet write hend,
    fun a n write hn hlow hend => ?_⟩
  · have : ∀ r ∈ regions, r.2.1 ≤ 0x400 := by decide
    have := this r hr
    omega
  · have : ∀ r ∈ regions, 0x200 ≤ r.1 ∨ r.2.1 ≤ 0x200 := by decide
    have := this r hr
    omega
  · exact accessFault_inside true (r := (0x240, 0x280, false)) (by decide) hn ⟨hlow, hend⟩
  · exact accessFault_inside false (r := (0x240, 0x280, false)) (by decide) hn ⟨hlow, hend⟩
  · exact (accessFault_inside write (r := (0x300, 0x400, true)) (by decide) hn ⟨hlow, hend⟩).trans (by simp)

end Sys2Proof.Machine
end

section
/-! Client and crypto instructions (R302, R303): lookups, cwrite, the sketch, AES jobs, random draws. -/

namespace Sys2Proof.Machine

open Sys2Proof.Safety

/-! ## Threads read and written -/

@[simp] theorem State.thread_setThread (s : State) (e : Fin 8) (t : Fin 16) (x : Thread) : (s.setThread e t x).thread e t = x := by
  simp [State.thread, State.setThread, State.setEngine]

@[simp] theorem State.countE_obj (s : State) (e : Fin 8) (code n : Nat) : (s.countE e code n).obj = s.obj := rfl

@[simp] theorem State.countE_now (s : State) (e : Fin 8) (code n : Nat) : (s.countE e code n).now = s.now := rfl

@[simp] theorem State.countE_serve (s : State) (e : Fin 8) (code n : Nat) : (s.countE e code n).serve = s.serve := rfl

@[simp] theorem counted_obj (s : State) (e : Fin 8) (t : Fin 16) : (counted s e t).obj = s.obj := rfl

@[simp] theorem counted_now (s : State) (e : Fin 8) (t : Fin 16) : (counted s e t).now = s.now := rfl

@[simp] theorem counted_tb (s : State) (e : Fin 8) (t : Fin 16) : (counted s e t).tb = s.tb := rfl

@[simp] theorem counted_jobs (s : State) (e : Fin 8) (t : Fin 16) : (counted s e t).serve.jobs = s.serve.jobs := rfl

theorem Thread.addr_zero (x : Thread) (r : Fin 32) : x.addr r 0 = (x.g r).toNat := by
  exact congrArg BitVec.toNat (BitVec.add_zero _)

section
variable {s : State} {e : Fin 8} {t : Fin 16} {w : Word64}

/-! ## CLOOK, CCREATE, CWRITE (R302) -/

/-- The state in which a lookup is made: its issue counted, the thread at the next address. -/
def State.lookingUp (s : State) (e : Fin 8) (t : Fin 16) : State :=
  ((counted s e t).countE e 0x0C).setThread e t { issued s e t with worked := true, pc := (issued s e t).pc + 1 }

theorem lookup_hits {op : Nat} {c : Instr} {create : Bool}
    (hc : exec c s = s.instr e t op fun s x w => s.issueLookup e t x create w) (h : IsaNext s e t op w) {u : State}
    (hhit : ((counted s e t).countE e 0x0C).lookupHits ((issued s e t).packet.clientKey (immOf w % 256) (immOf w / 256 % 256)) = true)
    (hrun : (s.lookingUp e t).runLookup e t create (destOf w).val (immOf w % 256) (immOf w / 256 % 256) (flagOf w 34) = some u) :
    exec c s = .next u := by
  rw [hc, State.instr_of_next h]
  refine congrArg Host.Outcome.next ?_
  unfold State.issueLookup
  extract_lets dest kind inst take v y now y'
  have hnow : now = some u := hrun
  have hhit : v.lookupHits (y.packet.clientKey kind inst) = true := hhit
  rw [hnow, hhit]

/-- A lookup that the cache does not answer makes its thread wait. -/
theorem lookup_waits {op : Nat} {c : Instr} {create : Bool}
    (hc : exec c s = s.instr e t op fun s x w => s.issueLookup e t x create w) (h : IsaNext s e t op w)
    (hmiss : ((counted s e t).countE e 0x0C).lookupHits ((issued s e t).packet.clientKey (immOf w % 256) (immOf w / 256 % 256)) = false
      ∨ (s.lookingUp e t).runLookup e t create (destOf w).val (immOf w % 256) (immOf w / 256 % 256) (flagOf w 34) = none) :
    Yields c s fun u =>
      (u.thread e t).wait = .lookup create (destOf w).val (immOf w % 256) (immOf w / 256 % 256) (flagOf w 34) s.now
      ∧ (u.thread e t).pc = (issued s e t).pc + 1 ∧ (u.thread e t).regs = (issued s e t).regs ∧ u.obj = s.obj := by
  rw [Yields, hc, State.instr_of_next h]
  refine ⟨_, rfl, ?_⟩
  unfold State.issueLookup
  extract_lets dest kind inst take v y now y'
  split
  · next u hhit hrun =>
    obtain hmiss | hmiss := hmiss
    · exact absurd (hhit.symm.trans hmiss) (by decide)
    · exact absurd (hrun.symm.trans hmiss) (by simp)
  · exact ⟨by rw [State.thread_setThread]; rfl, by rw [State.thread_setThread], by rw [State.thread_setThread]; rfl,
      by rw [State.setThread_obj, State.countE_obj, counted_obj]⟩

theorem exec_isaCwrite_held (h : IsaNext s e t 0x32 w) {i : Nat} (hheld : (issued s e t).held = some i)
    (hkept : (issued s e t).heldLost = false) : exec (.isaCwrite e t) s
      = .next ((((counted s e t).ctWrite i (field (issued s e t).win 0x200 64)).ctCount).setThread e t
          { issued s e t with pc := (issued s e t).pc + 1 }) := by
  show execIsaCwrite e t s = _
  rw [execIsaCwrite, State.instr_of_next h]
  simp only [hheld, hkept, Bool.false_eq_true, if_false]

theorem cwrite_lost (h : IsaNext s e t 0x32 w) {i : Nat} (hheld : (issued s e t).held = some i)
    (hlost : (issued s e t).heldLost = true) : Issues (.isaCwrite e t) s e t { issued s e t with pc := (issued s e t).pc + 1 } :=
  issues_instr (c := .isaCwrite e t) h (show execIsaCwrite e t s = _ from rfl) (by simp only [hheld, hlost, if_true])

theorem cwrite_faults (h : IsaNext s e t 0x32 w) (hheld : (issued s e t).held = none) : Faults (.isaCwrite e t) s e t 6 :=
  faults_instr (c := .isaCwrite e t) h (show execIsaCwrite e t s = _ from rfl) (by simp only [hheld])

/-! ## SKETCH (R280) -/

theorem exec_isaSketch_frame (h : IsaNext s e t 0x38 w) {p : Pkt} (hp : (issued s e t).work = .frame p) :
    exec (.isaSketch e t) s = .next (
      let r := (counted s e t).sketchCount (beNat 1 p.sketchKey.1 ++ p.sketchKey.2)
      r.2.setThread e t (({ issued s e t with worked := true } : Thread).gives w r.1)) := by
  show execIsaSketch e t s = _
  rw [execIsaSketch, State.instr_of_next h]
  refine congrArg Host.Outcome.next ?_
  split
  · next q hq =>
    obtain rfl : q = p := Work.frame.inj (hq.symm.trans hp)
    exact congrArg (State.setThread ((counted s e t).sketchCount _).2 e t)
      (Thread.setReg_gives { issued s e t with worked := true } w rfl)
  · next hno => exact absurd hp (hno p)

theorem sketch_timer (h : IsaNext s e t 0x38 w) (hwork : (issued s e t).work.isFrame = false) :
    Issues (.isaSketch e t) s e t { issued s e t with pc := (issued s e t).pc + 1 } := by
  refine issues_instr (c := .isaSketch e t) h (show execIsaSketch e t s = _ from rfl) ?_
  split
  · next p hp => simp [hp, Work.isFrame] at hwork
  · rfl

/-! ## AESQ, AESW (R303) -/

section
variable {a : Nat} (h : IsaNext s e t 0x40 w) (ha : a = ((issued s e t).g (srcAOf w)).toNat)
include h ha

theorem aesq_outside {c : Nat} (hout : accessFault a 40 false = some c) : Faults (.isaAesq e t) s e t c := by
  subst ha
  exact faults_instr (c := .isaAesq e t) h (show execIsaAesq e t s = _ from rfl) (by simp only [Thread.addr_zero, hout])

variable (hin : accessFault a 40 false = none)
include hin

theorem aesq_noTag (htag : (issued s e t).freeTag = none) : Faults (.isaAesq e t) s e t 7 := by
  subst ha
  exact faults_instr (c := .isaAesq e t) h (show execIsaAesq e t s = _ from rfl) (by simp only [Thread.addr_zero, hin, htag])

variable {tag : Nat} (htag : (issued s e t).freeTag = some tag)
include htag

theorem aesq_badDescriptor (hdesc : aesDesc (issued s e t).win a = none) : Faults (.isaAesq e t) s e t 8 := by
  subst ha
  exact faults_instr (c := .isaAesq e t) h (show execIsaAesq e t s = _ from rfl)
    (by simp only [Thread.addr_zero, hin, htag, hdesc])

variable {d : AesDesc} (hdesc : aesDesc (issued s e t).win a = some d)
include hdesc

theorem aesq_readOnly (hlen : 0 < d.outLen) (hro : accessFault d.out d.outLen true = some 2) : Faults (.isaAesq e t) s e t 2 := by
  subst ha
  exact faults_instr (c := .isaAesq e t) h (show execIsaAesq e t s = _ from rfl)
    (by simp [Thread.addr_zero, hin, htag, hdesc, hlen, hro])

variable (hrw : 0 < d.outLen → accessFault d.out d.outLen true ≠ some 2)
include hrw

theorem aesq_noKey (hkey : (counted s e t).aesKey (issued s e t) d = none) : Faults (.isaAesq e t) s e t 9 := by
  subst ha
  refine faults_instr (c := .isaAesq e t) h (show execIsaAesq e t s = _ from rfl) ?_
  simp only [Thread.addr_zero, hin, htag, hdesc]
  rw [if_neg (by simpa using hrw), hkey]

theorem aesq_submits {key result : Bytes} {status blocks : Nat} (hkey : (counted s e t).aesKey (issued s e t) d = some key)
    (hrun : aesRun d key (issued s e t).win = (result, status, blocks)) :
    Yields (.isaAesq e t) s fun u =>
      u.serve.jobs = s.serve.jobs ++ [{ engine := e, thread := t, serial := (issued s e t).serial, tag, blocks, out := d.out,
                                        result, status }]
      ∧ u.thread e t = ({ issued s e t with worked := true, jobs := (issued s e t).jobs ++ [tag] } : Thread).gives w tag
      ∧ u.obj = s.obj := by
  subst ha
  show ∃ u, execIsaAesq e t s = .next u ∧ _
  rw [execIsaAesq, State.instr_of_next h]
  refine ⟨_, rfl, ?_⟩
  simp only [Thread.addr_zero, hin, htag, hdesc]
  rw [if_neg (by simpa using hrw), hkey]
  simp only [hrun]
  refine ⟨rfl, ?_, ?_⟩
  · rw [State.thread_setThread]
    exact Thread.setReg_gives { issued s e t with worked := true, jobs := (issued s e t).jobs ++ [tag] } w rfl
  · rw [State.setThread_obj, State.countE_obj, State.countE_obj, counted_obj]

end

section
variable {tag : Nat} (h : IsaNext s e t 0x41 w) (htag : tag = ((issued s e t).g (srcAOf w)).toNat)
include h htag

theorem aesw_done {p : Nat × Nat} (hdone : (issued s e t).doneJobs.find? (fun p => p.1 == tag) = some p) :
    Issues (.isaAesw e t) s e t
      (({ issued s e t with doneJobs := (issued s e t).doneJobs.erase p } : Thread).gives w p.2) := by
  subst htag
  refine issues_instr (c := .isaAesw e t) h (show execIsaAesw e t s = _ from rfl) ?_
  simp only [hdone]
  exact congrArg _ (Thread.setReg_gives { issued s e t with doneJobs := (issued s e t).doneJobs.erase p } w rfl)

variable (hnot : (issued s e t).doneJobs.find? (fun p => p.1 == tag) = none)
include hnot

theorem aesw_waits (hjob : tag ∈ (issued s e t).jobs) : Issues (.isaAesw e t) s e t
    { (issued s e t).waits (.aes (destOf w).val tag) s.now with pc := (issued s e t).pc + 1 } := by
  subst htag
  refine issues_instr (c := .isaAesw e t) h (show execIsaAesw e t s = _ from rfl) ?_
  simp only [hnot, List.contains_iff_mem.mpr hjob, if_true]
  rfl

theorem aesw_unknown (hjob : tag ∉ (issued s e t).jobs) : Faults (.isaAesw e t) s e t 7 := by
  subst htag
  refine faults_instr (c := .isaAesw e t) h (show execIsaAesw e t s = _ from rfl) ?_
  simp only [hnot]
  exact if_neg (by simpa using hjob)

end

/-! ## RAND (R303) -/

theorem wait_of_isaNext {op : Nat} (h : IsaNext s e t op w) : (issued s e t).wait = .none := by
  obtain ⟨hissues, -, -⟩ := h
  simp only [State.issues, Bool.and_eq_true, beq_iff_eq] at hissues
  exact hissues.1.1.2

theorem exec_isaRand_issued (h : IsaNext s e t 0x42 w) :
    exec (.isaRand e t) s = .next ((counted s e t).drawRand e t (issued s e t) (destOf w).val) := by
  show execIsaRand e t s = _
  unfold execIsaRand
  extract_lets x
  split
  · next d _ hwait => exact absurd (hwait.symm.trans (wait_of_isaNext h)) (by simp)
  · exact State.instr_of_next h _

theorem exec_isaRand_waiting {d : Nat} (hbusy : (s.thread e t).busy = true) (hruns : s.engineRuns e = true)
    (hwait : (s.thread e t).wait = .rand d) : exec (.isaRand e t) s = .next (s.drawRand e t (s.thread e t) d) := by
  show execIsaRand e t s = _
  unfold execIsaRand
  simp only [hbusy, hruns, hwait, Bool.and_self]

end

section
variable {s u : State} {ready : Nat} (hfree : s.freeNat = (ready, u)) (e : Fin 8) (t : Fin 16) {x : Thread}
include hfree

theorem State.drawRand_issued (hx : x.wait = .none) (w : Word64) (hready : ready % 2 = 0) :
    s.drawRand e t x (destOf w).val = (u.random 8).2.setThread e t (x.gives w (fieldN (u.random 8).1 0 8)) := by
  unfold State.drawRand
  simp only [hfree]
  rw [if_pos hready, if_pos hx, ← Thread.setReg_gives x w rfl, Fin.ofNat_val_eq_self]
  unfold Thread.setReg
  split <;> rfl

theorem State.drawRand_waits (hx : x.wait = .none) (hready : ready % 2 = 1) (d : Nat) :
    s.drawRand e t x d = u.setThread e t { x.waits (.rand d) u.now with pc := x.pc + 1 } := by
  unfold State.drawRand
  simp only [hfree]
  exact (if_neg (by simp [hready])).trans (if_pos hx)

theorem State.drawRand_answers {d : Nat} (hx : x.wait = .rand d) (hready : ready % 2 = 0) :
    s.drawRand e t x d = (u.random 8).2.setThread e t
      ((x.ready s.now).setReg (Fin.ofNat 32 d) (BitVec.ofNat 64 (fieldN (u.random 8).1 0 8))) := by
  have hnow : u.now = s.now := (congrArg (fun r => r.2.now) hfree).symm
  unfold State.drawRand
  simp only [hfree]
  rw [if_pos hready, if_neg (by simp [hx]), State.random_now, hnow]

theorem State.drawRand_again {d : Nat} (hx : x.wait = .rand d) (hready : ready % 2 = 1) : s.drawRand e t x d = u := by
  unfold State.drawRand
  simp only [hfree]
  exact (if_neg (by simp [hready])).trans (if_neg (by simp [hx]))

end

/-- Settles O35: each clause is the issue of its instruction, in the order of its checks. -/
theorem isaClientAndCrypto : Obligations.IsaClientAndCrypto := by
  intro s e t w x a put v kind inst y
  have hnow {ready : Nat} {u : State} (hfree : (counted s e t).freeNat = (ready, u)) : u.now = s.now :=
    (congrArg (fun r => r.2.now) hfree).symm
  refine ⟨by
      simp only [List.forall_mem_cons]
      refine ⟨fun h => ⟨fun u hhit hrun => lookup_hits (c := .isaClook e t) (show execIsaClook e t s = _ from rfl) h hhit hrun,
          fun hmiss => lookup_waits (c := .isaClook e t) (show execIsaClook e t s = _ from rfl) h hmiss⟩,
        fun h => ⟨fun u hhit hrun => lookup_hits (c := .isaCcreate e t) (show execIsaCcreate e t s = _ from rfl) h hhit hrun,
          fun hmiss => lookup_waits (c := .isaCcreate e t) (show execIsaCcreate e t s = _ from rfl) h hmiss⟩, List.forall_mem_nil _⟩,
    fun i h hheld hkept => exec_isaCwrite_held h hheld hkept,
    fun i h hheld hlost => cwrite_lost h hheld hlost,
    fun h hheld => cwrite_faults h hheld,
    fun p h hp => exec_isaSketch_frame h hp,
    fun h hwork => sketch_timer h hwork,
    fun tag d key result status blocks h hin htag hdesc hrw hkey hrun => aesq_submits h rfl hin htag hdesc hrw hkey hrun,
    fun c h hout => aesq_outside h rfl hout,
    fun h hin htag => aesq_noTag h rfl hin htag,
    fun h hin htag hdesc => ?_,
    fun tag d h hin htag hdesc => ⟨fun hlen hro => aesq_readOnly h rfl hin htag hdesc hlen hro,
      fun hrw hkey => aesq_noKey h rfl hin htag hdesc hrw hkey⟩,
    fun p h hdone => aesw_done h rfl hdone,
    fun h hnot hjob => aesw_waits h rfl hnot hjob,
    fun h hnot hjob => aesw_unknown h rfl hnot hjob,
    fun ready u h hfree => ⟨fun hready => ?_, fun hready => ?_⟩,
    fun d ready u hbusy hruns hwait hfree => ⟨fun hready => ?_, fun hready => ?_⟩⟩
  · obtain ⟨tag, htag⟩ := Option.ne_none_iff_exists'.mp htag
    exact aesq_badDescriptor h rfl hin htag hdesc
  · rw [exec_isaRand_issued h, State.drawRand_issued hfree e t (wait_of_isaNext h) w hready]
    rfl
  · rw [exec_isaRand_issued h, State.drawRand_waits hfree e t (wait_of_isaNext h) hready, hnow hfree]
  · rw [exec_isaRand_waiting hbusy hruns hwait, State.drawRand_answers hfree e t hwait hready]
  · rw [exec_isaRand_waiting hbusy hruns hwait, State.drawRand_again hfree e t hwait hready]

end Sys2Proof.Machine
end

section
/-! One thread's instruction leaves every other thread as it is (R290, R307). -/

namespace Sys2Proof.Machine

open Sys2Proof.Safety

/-! ## Operations that leave the engines alone -/

theorem State.thread_of_engines {s u : State} (h : u.serve.engines = s.serve.engines) (e : Fin 8) (t : Fin 16) :
    u.thread e t = s.thread e t := by
  unfold State.thread
  rw [h]

@[simp] theorem State.setCt_engines (s : State) (x : ClientTable) : (s.setCt x).serve.engines = s.serve.engines := rfl

@[simp] theorem State.writeBack_engines (s : State) (l : CacheLine) : (s.writeBack l).serve.engines = s.serve.engines := by
  simp [State.writeBack]

@[simp] theorem State.cacheLine_engines (s : State) (l : CacheLine) : (s.cacheLine l).serve.engines = s.serve.engines := by
  unfold State.cacheLine
  extract_lets ct u
  split
  · rfl
  · next v _ =>
    rw [State.setCt_engines]
    split
    · exact State.writeBack_engines u v
    · rfl

@[simp] theorem State.ctWrite_engines (s : State) (i : Nat) (d : Bytes) : (s.ctWrite i d).serve.engines = s.serve.engines :=
  s.cacheLine_engines _

@[simp] theorem State.ctRead_engines (s : State) (i : Nat) : (s.ctRead i).serve.engines = s.serve.engines := by
  unfold State.ctRead
  split
  · simp
  · split <;> simp

@[simp] theorem State.ctTouch_engines (s : State) (i : Nat) (take : Bool) :
    (s.ctTouch i take).2.serve.engines = s.serve.engines := by
  unfold State.ctTouch
  split
  · rfl
  · simp

@[simp] theorem State.ctCount_serve (s : State) : s.ctCount.serve = s.serve := rfl

theorem State.foldl_ctWrite_engines {α : Type} (l : List α) (i : α → Nat) (d : Bytes) (s : State) :
    (l.foldl (fun (s : State) a => s.ctWrite (i a) d) s).serve.engines = s.serve.engines := by
  induction l generalizing s with
  | nil => rfl
  | cons a l ih => rw [List.foldl_cons, ih, State.ctWrite_engines]

@[simp] theorem State.reclaim_engines (s : State) (l : List Nat) : (s.reclaim l).serve.engines = s.serve.engines :=
  State.foldl_ctWrite_engines l id _ s

@[simp] theorem State.reclaimFull_engines (s : State) : s.reclaimFull.serve.engines = s.serve.engines := s.reclaim_engines _

theorem State.makeRoom_engines {n b i : Nat} {s u : State} (h : s.makeRoom n b = some (i, u)) :
    u.serve.engines = s.serve.engines := by
  induction n generalizing b i u with
  | zero =>
    obtain ⟨j, -, hj⟩ := Option.map_eq_some_iff.mp h
    rw [← (Prod.mk.inj hj).2]
  | succ n ih =>
    unfold State.makeRoom at h
    split at h
    · rw [← (Prod.mk.inj (Option.some.inj h)).2]
    · extract_lets mov pick at h
      clear_value pick
      split at h
      · exact absurd h (by simp)
      · split at h
        · exact absurd h (by simp)
        · next j t hroom =>
          split at h
          · rw [← (Prod.mk.inj (Option.some.inj h)).2, ih hroom]
          · rw [← (Prod.mk.inj (Option.some.inj h)).2, State.ctWrite_engines, State.ctWrite_engines, ih hroom]

/-- What a creation finds room in has the engines of the state before. -/
theorem State.ctRoom_engines {s u : State} {key : Bytes} {i : Nat}
    (h : (((Machine.candidates key).findSome? fun b => (s.freeIn b).map fun i => (i, s)).orElse
      fun _ => s.makeRoom 8 ((Machine.candidates key).headD 0)) = some (i, u)) : u.serve.engines = s.serve.engines := by
  cases hfree : (Machine.candidates key).findSome? fun b => (s.freeIn b).map fun i => (i, s) with
  | none => rw [hfree] at h; exact State.makeRoom_engines h
  | some r =>
    rw [hfree] at h
    obtain ⟨b, -, hb⟩ := List.exists_of_findSome?_eq_some hfree
    obtain ⟨j, -, hj⟩ := Option.map_eq_some_iff.mp hb
    rw [← (Prod.mk.inj (hj.trans (Option.some.inj h))).2]

@[simp] theorem State.ctCreate_engines (s : State) (key : Bytes) (kind : Nat) :
    (s.ctCreate key kind).2.serve.engines = s.serve.engines := by
  unfold State.ctCreate
  split
  · rfl
  · extract_lets v n full room
    have hv : v.serve.engines = s.serve.engines := by
      unfold v
      split
      · rfl
      · exact s.reclaimFull_engines
    split
    · refine Eq.trans ?_ hv
      show full.serve.engines = _
      unfold full
      split
      · rfl
      · rw [State.log_serve]; rfl
    · split
      · exact hv
      · have hroom {i : Nat} {u : State} (h : room = some (i, u)) : u.serve.engines = v.serve.engines := State.ctRoom_engines h
        clear_value room
        cases room with
        | none => exact hv
        | some r =>
          obtain ⟨i, u⟩ := r
          specialize hroom rfl
          dsimp -zeta only
          extract_lets burst d ct written counted shown
          have hshown : shown.serve.engines = counted.serve.engines := by
            unfold shown
            split
            · rw [State.log_serve]; rfl
            · rfl
          rw [hshown]
          exact (State.ctWrite_engines u i d).trans (hroom.trans hv)

@[simp] theorem State.sketchCount_engines (s : State) (key : Bytes) : (s.sketchCount key).2.serve.engines = s.serve.engines := rfl

@[simp] theorem State.toRing_engines (s : State) (k : Nat) (i : RingItem) : (s.toRing k i).serve.engines = s.serve.engines := by
  unfold State.toRing
  extract_lets x len i' tap
  split <;> rfl

@[simp] theorem State.toEgress_engines (s : State) (n : Fin 64) (f : EFrame) :
    (s.toEgress n f).serve.engines = s.serve.engines := by
  unfold State.toEgress State.describe
  simp only [State.buffer]
  split <;> rfl

/-! ## Operations on one thread -/

/-- `u` has the threads of `s` but for thread `t` of engine `e`. -/
def OnlyThread (e : Fin 8) (t : Fin 16) (s u : State) : Prop := ∀ e' t', (e', t') ≠ (e, t) → u.thread e' t' = s.thread e' t'

namespace OnlyThread
variable {e : Fin 8} {t : Fin 16} {s u v : State}

theorem refl (e : Fin 8) (t : Fin 16) (s : State) : OnlyThread e t s s := fun _ _ _ => rfl

theorem trans (h : OnlyThread e t s u) (h' : OnlyThread e t u v) : OnlyThread e t s v :=
  fun e' t' hne => (h' e' t' hne).trans (h e' t' hne)

theorem of_engines (h : OnlyThread e t s u) (hv : v.serve.engines = u.serve.engines) : OnlyThread e t s v :=
  h.trans fun e' t' _ => State.thread_of_engines hv e' t'

/-- An engine takes a record with its threads but for one. -/
theorem setEngine (h : OnlyThread e t s u) {x : Engine} (hx : ∀ t', t' ≠ t → x.threads[t'] = u.serve.engines[e].threads[t']) :
    OnlyThread e t s (u.setEngine e x) := by
  refine h.trans fun e' t' hne => ?_
  by_cases he : e' = e
  · subst he
    simpa [State.thread, State.setEngine] using hx t' (by simpa using hne)
  · simp [State.thread, State.setEngine, Fin.val_ne_of_ne (Ne.symm he)]

theorem setThread (h : OnlyThread e t s u) (x : Thread) : OnlyThread e t s (u.setThread e t x) :=
  h.setEngine fun t' hne => by simp [Fin.val_ne_of_ne (Ne.symm hne)]

theorem bump (h : OnlyThread e t s u) (key d : Nat) : OnlyThread e t s (u.bump key d) := h.of_engines rfl

theorem countE (h : OnlyThread e t s u) (e' : Fin 8) (code w : Nat) : OnlyThread e t s (u.countE e' code w) := h.of_engines rfl

theorem countP (h : OnlyThread e t s u) (n : Fin 64) (code w : Nat) : OnlyThread e t s (u.countP n code w) := h.of_engines rfl

theorem log (h : OnlyThread e t s u) (source code : Nat) (data : Bytes) : OnlyThread e t s (u.log source code data) :=
  h.of_engines (by rw [State.log_serve])

theorem ite {c : Prop} [Decidable c] (h : OnlyThread e t s u) (h' : OnlyThread e t s v) :
    OnlyThread e t s (if c then u else v) := by
  split
  · exact h
  · exact h'

theorem storeSample (h : OnlyThread e t s u) (rec : Bytes) : OnlyThread e t s (u.storeSample e rec) := by
  unfold State.storeSample
  extract_lets g stored bumped
  have hstored : OnlyThread e t s stored := h.setEngine fun _ _ => rfl
  have hbumped : OnlyThread e t s bumped := hstored.bump _ _
  exact h.ite ((hbumped.log _ _ _).ite hbumped)

theorem sampleEnded (h : OnlyThread e t s u) (x : EndedThread) (depart : Option Nat) :
    OnlyThread e t s (u.sampleEnded e x depart) := by
  unfold State.sampleEnded
  extract_lets wasted counted latency lim late seq flags
  have hcounted : OnlyThread e t s counted := (h.countE _ _ _).ite h
  exact hcounted.ite (hcounted.ite (hcounted.storeSample _))

theorem endThread (h : OnlyThread e t s u) (kind : Nat) (waits : Bool) : OnlyThread e t s (u.endThread e t kind waits) := by
  unfold State.endThread
  extract_lets g x n on hit y ended p serve pair idle
  have hended : OnlyThread e t s ended := h.setEngine fun t' hne => by simp [g, Fin.val_ne_of_ne (Ne.symm hne)]
  have hidle : OnlyThread e t s idle := hended.of_engines rfl
  exact hidle.ite (hidle.sampleEnded _ _)

theorem progFault (h : OnlyThread e t s u) (cause : Nat) : OnlyThread e t s (u.progFault e t cause) := by
  unfold State.progFault
  extract_lets x counted g noted
  have hcounted : OnlyThread e t s counted := (h.bump _ _).countE _ _ _
  have hnoted : OnlyThread e t s noted := by
    refine hcounted.ite (log ?_ _ _ _)
    exact hcounted.setEngine fun _ _ => rfl
  exact hnoted.endThread _ _

theorem emitDone (h : OnlyThread e t s u) (serial port : Nat) (r : Option (Nat × Nat)) :
    OnlyThread e t s (u.emitDone (some (e, t, serial)) port r) := by
  unfold State.emitDone
  dsimp -zeta only
  extract_lets counted x
  have hcounted : OnlyThread e t s counted := (h.countE _ _ _).ite h
  split
  · exact hcounted.setThread _
  · split
    · exact hcounted
    · refine sampleEnded ?_ _ _
      exact hcounted.setEngine fun _ _ => rfl

/-- An emit of thread `t` answers it alone. -/
theorem emitFrame (h : OnlyThread e t s u) (n : Fin 64) {f : EFrame} {serial : Nat} (hf : f.owner = some (e, t, serial)) :
    OnlyThread e t s (u.emitFrame n f) := by
  unfold State.emitFrame
  rw [hf]
  split
  · exact (h.bump _ _).emitDone _ _ _
  · split
    · exact ((h.bump _ _).countP _ _ _).emitDone _ _ _
    · split
      · exact (h.bump _ _).emitDone _ _ _
      · exact h.of_engines (u.toEgress_engines n f)

theorem lookupAnswer (h : OnlyThread e t s u) (dest status : Nat) (entry : Option Nat) :
    OnlyThread e t s (u.lookupAnswer e t dest status entry) := h.setThread _

theorem runLookup (h : OnlyThread e t s u) {create take : Bool} {dest kind inst : Nat}
    (hv : u.runLookup e t create dest kind inst take = some v) : OnlyThread e t s v := by
  unfold State.runLookup at hv
  extract_lets key at hv
  split at hv
  · next i hfind =>
    split at hv
    · exact absurd hv (by simp)
    · rw [← Option.some.inj hv]
      exact (h.of_engines (u.ctTouch_engines i _)).lookupAnswer _ _ _
  · split at hv
    · rw [← Option.some.inj hv]
      exact h.lookupAnswer _ _ _
    · rw [← Option.some.inj hv]
      exact (h.of_engines (u.ctCreate_engines key kind)).lookupAnswer _ _ _

theorem issueLookup (h : OnlyThread e t s u) (x : Thread) (create : Bool) (w : Word64) :
    OnlyThread e t s (u.issueLookup e t x create w) := by
  unfold State.issueLookup
  extract_lets dest kind inst take counted y now y'
  have hcounted : OnlyThread e t s counted := h.countE _ _ _
  split
  · next v _ hrun => exact (hcounted.setThread _).runLookup hrun
  · exact hcounted.setThread _

theorem drawRand (h : OnlyThread e t s u) (x : Thread) (dest : Nat) : OnlyThread e t s (u.drawRand e t x dest) := by
  have hfree : OnlyThread e t s u.freeNat.2 := h.of_engines rfl
  have hdrawn : OnlyThread e t s (u.freeNat.2.random 8).2 := hfree.of_engines rfl
  exact (hdrawn.setThread _).ite ((hfree.setThread _).ite hfree)

end OnlyThread

/-! ## Instructions -/

/-- A command leaves every thread but `t` of engine `e`. -/
def Isolated (e : Fin 8) (t : Fin 16) (c : Instr) (s : State) : Prop := ∀ u, exec c s = .next u → OnlyThread e t s u

section
variable {s : State} {e : Fin 8} {t : Fin 16} {op : Nat} {c : Instr}

theorem counted_onlyThread (s : State) (e : Fin 8) (t : Fin 16) : OnlyThread e t s (counted s e t) := by
  unfold counted
  extract_lets u
  have hset : OnlyThread e t s u := (OnlyThread.refl e t s).setThread _
  have hdemand : OnlyThread e t s (u.setEngine e { u.serve.engines[e] with demand := u.serve.engines[e].demand + 1 }) :=
    hset.setEngine fun _ _ => rfl
  exact hdemand.of_engines rfl

/-- An instruction is isolated where its effect is: it issues, faults for want of an instruction, or does nothing. -/
theorem State.instr_onlyThread {f : State → Thread → Word64 → State} {u : State} (h : s.instr e t op f = .next u)
    (hf : ∀ v x w, OnlyThread e t s v → OnlyThread e t s (f v x w)) : OnlyThread e t s u := by
  unfold State.instr at h
  split at h
  · rw [← Host.Outcome.next.inj h]
    exact .refl e t s
  · split at h
    · rw [← Host.Outcome.next.inj h]
      exact (OnlyThread.refl e t s).progFault 4
    · split at h
      · rw [← Host.Outcome.next.inj h]
        exact .refl e t s
      · rw [← Host.Outcome.next.inj h]
        exact hf _ _ _ (counted_onlyThread s e t)

theorem isolated_instr {f : State → Thread → Word64 → State} (hc : exec c s = s.instr e t op f)
    (hf : ∀ v x w, OnlyThread e t s v → OnlyThread e t s (f v x w)) : Isolated e t c s :=
  fun _ hu => State.instr_onlyThread (hc.symm.trans hu) hf

theorem isolated_alu {f : Word64 → Word64 → Word64} (hc : exec c s = s.alu e t op f) : Isolated e t c s :=
  isolated_instr hc fun _ _ _ h => h.setThread _

theorem isolated_branch {f : Thread → Word64 → Bool} (hc : exec c s = s.branch e t op f) : Isolated e t c s :=
  isolated_instr hc fun _ _ _ h => h.setThread _

theorem isolated_compare {f : Word64 → Word64 → Bool} (hc : exec c s = s.compare e t op f) : Isolated e t c s :=
  isolated_branch hc

theorem isolated_load {n : Nat} (hc : exec c s = s.load e t op n) : Isolated e t c s := by
  refine isolated_instr hc fun v x w h => ?_
  dsimp only
  split
  · exact h.progFault _
  · exact h.setThread _

theorem isolated_store {n : Nat} (hc : exec c s = s.store e t op n) : Isolated e t c s := by
  refine isolated_instr hc fun v x w h => ?_
  dsimp only
  split
  · exact h.progFault _
  · exact h.setThread _

theorem isolated_lookup {create : Bool} (hc : exec c s = s.instr e t op fun s x w => s.issueLookup e t x create w) :
    Isolated e t c s :=
  isolated_instr hc fun _ x w h => h.issueLookup x create w

end

section
variable (s : State) (e : Fin 8) (t : Fin 16)

theorem isaNop_isolated : Isolated e t (.isaNop e t) s :=
  isolated_instr (show execIsaNop e t s = _ from rfl) fun _ _ _ h => h.setThread _

theorem isaOrhi_isolated : Isolated e t (.isaOrhi e t) s :=
  isolated_instr (show execIsaOrhi e t s = _ from rfl) fun _ _ _ h => h.setThread _

theorem isaCall_isolated : Isolated e t (.isaCall e t) s :=
  isolated_instr (show execIsaCall e t s = _ from rfl) fun _ _ _ h => (h.progFault _).ite (h.setThread _)

theorem isaRet_isolated : Isolated e t (.isaRet e t) s := by
  refine isolated_instr (show execIsaRet e t s = _ from rfl) fun v x w h => ?_
  split
  · exact h.progFault _
  · exact h.setThread _

theorem isaCpy_isolated : Isolated e t (.isaCpy e t) s := by
  refine isolated_instr (show execIsaCpy e t s = _ from rfl) fun v x w h => ?_
  dsimp only
  split
  · exact h.progFault _
  · exact h.progFault _
  · exact h.setThread _

theorem isaCsum_isolated : Isolated e t (.isaCsum e t) s := by
  refine isolated_instr (show execIsaCsum e t s = _ from rfl) fun v x w h => ?_
  dsimp only
  split
  · exact h.progFault _
  · exact h.setThread _

theorem isaTurn_isolated : Isolated e t (.isaTurn e t) s := by
  refine isolated_instr (show execIsaTurn e t s = _ from rfl) fun v x w h => ?_
  split
  · exact h.progFault _
  · exact h.setThread _

theorem isaCwrite_isolated : Isolated e t (.isaCwrite e t) s := by
  refine isolated_instr (show execIsaCwrite e t s = _ from rfl) fun v x w h => ?_
  split
  · exact h.progFault _
  · next i _ => exact (h.setThread _).ite ((h.of_engines (by simp)).setThread _)

theorem isaSketch_isolated : Isolated e t (.isaSketch e t) s := by
  refine isolated_instr (show execIsaSketch e t s = _ from rfl) fun v x w h => ?_
  split
  · exact (h.of_engines (v.sketchCount_engines _)).setThread _
  · exact h.setThread _

theorem isaAesq_isolated : Isolated e t (.isaAesq e t) s := by
  refine isolated_instr (show execIsaAesq e t s = _ from rfl) fun v x w h => ?_
  dsimp only
  split
  · exact h.progFault _
  · exact h.progFault _
  · split
    · exact h.progFault _
    · refine (h.progFault _).ite ?_
      split
      · exact h.progFault _
      · exact (h.of_engines rfl).setThread _

theorem isaAesw_isolated : Isolated e t (.isaAesw e t) s := by
  refine isolated_instr (show execIsaAesw e t s = _ from rfl) fun v x w h => ?_
  dsimp only
  split
  · exact h.setThread _
  · exact (h.setThread _).ite (h.progFault _)

theorem isaRand_isolated : Isolated e t (.isaRand e t) s := by
  intro u hu
  have hu : execIsaRand e t s = .next u := hu
  unfold execIsaRand at hu
  extract_lets x at hu
  split at hu
  · rw [← Host.Outcome.next.inj hu]
    exact (OnlyThread.refl e t s).drawRand _ _
  · exact State.instr_onlyThread hu fun _ x w h => h.drawRand x _

theorem isaEmit_isolated : Isolated e t (.isaEmit e t) s := by
  refine isolated_instr (show execIsaEmit e t s = _ from rfl) fun v x w h => ?_
  extract_lets cw length port kind offset nb
  refine (h.progFault _).ite ((h.progFault _).ite ((h.progFault _).ite ?_))
  split
  · have hended := (h.setThread { x with emits := x.emits + 1 }).endThread 0 true
    exact (hended.emitFrame _ rfl).ite ((h.setThread _).emitFrame _ rfl)
  · exact h.progFault _

theorem isaDrop_isolated : Isolated e t (.isaDrop e t) s :=
  isolated_instr (show execIsaDrop e t s = _ from rfl) fun _ _ _ h => (((h.bump _ _).ite h).countE _ _ _).endThread _ _

theorem isaPunt_isolated : Isolated e t (.isaPunt e t) s := by
  refine isolated_instr (show execIsaPunt e t s = _ from rfl) fun v x w h => ?_
  dsimp only
  have hended : OnlyThread e t s ((v.countE e 0x0A).endThread e t 2 false) := (h.countE _ _ _).endThread _ _
  split
  · exact hended.of_engines (by simp)
  · exact hended

theorem isaCinc_isolated : Isolated e t (.isaCinc e t) s :=
  isolated_instr (show execIsaCinc e t s = _ from rfl) fun _ _ _ h => (h.bump _ _).setThread _

/-- XENT apart, whose built-in program acts on what its thread serves. -/
theorem isaOps_isolated : ∀ p ∈ isaOps, p.1 ≠ 0x1B → Isolated e t (p.2 e t) s := by
  simp only [isaOps, List.cons_append, List.nil_append, List.forall_mem_cons]
  exact ⟨fun _ => isaNop_isolated s e t,
    fun _ => isolated_alu (show execIsaAdd e t s = _ from rfl),
    fun _ => isolated_alu (show execIsaSub e t s = _ from rfl),
    fun _ => isolated_alu (show execIsaAnd e t s = _ from rfl),
    fun _ => isolated_alu (show execIsaOr e t s = _ from rfl),
    fun _ => isolated_alu (show execIsaXor e t s = _ from rfl),
    fun _ => isolated_alu (show execIsaShl e t s = _ from rfl),
    fun _ => isolated_alu (show execIsaShr e t s = _ from rfl),
    fun _ => isolated_alu (show execIsaSar e t s = _ from rfl),
    fun _ => isolated_alu (show execIsaMul e t s = _ from rfl),
    fun _ => isolated_alu (show execIsaMulhu e t s = _ from rfl),
    fun _ => isolated_alu (show execIsaAddc e t s = _ from rfl),
    fun _ => isolated_alu (show execIsaMinu e t s = _ from rfl),
    fun _ => isolated_alu (show execIsaMaxu e t s = _ from rfl),
    fun _ => isolated_alu (show execIsaSltu e t s = _ from rfl),
    fun _ => isaOrhi_isolated s e t,
    fun _ => isolated_compare (show execIsaBeq e t s = _ from rfl),
    fun _ => isolated_compare (show execIsaBne e t s = _ from rfl),
    fun _ => isolated_compare (show execIsaBltu e t s = _ from rfl),
    fun _ => isolated_compare (show execIsaBgeu e t s = _ from rfl),
    fun _ => isolated_compare (show execIsaBlt e t s = _ from rfl),
    fun _ => isolated_compare (show execIsaBge e t s = _ from rfl),
    fun _ => isolated_branch (show execIsaBset e t s = _ from rfl),
    fun _ => isolated_branch (show execIsaBclr e t s = _ from rfl),
    fun _ => isolated_branch (show execIsaJmp e t s = _ from rfl),
    fun _ => isaCall_isolated s e t, fun _ => isaRet_isolated s e t, fun h => absurd rfl h,
    fun _ => isolated_load (show execIsaLd8 e t s = _ from rfl),
    fun _ => isolated_load (show execIsaLd16 e t s = _ from rfl),
    fun _ => isolated_load (show execIsaLd32 e t s = _ from rfl),
    fun _ => isolated_load (show execIsaLd64 e t s = _ from rfl),
    fun _ => isolated_store (show execIsaSt8 e t s = _ from rfl),
    fun _ => isolated_store (show execIsaSt16 e t s = _ from rfl),
    fun _ => isolated_store (show execIsaSt32 e t s = _ from rfl),
    fun _ => isolated_store (show execIsaSt64 e t s = _ from rfl),
    fun _ => isaCpy_isolated s e t, fun _ => isaCsum_isolated s e t, fun _ => isaTurn_isolated s e t,
    fun _ => isolated_lookup (show execIsaClook e t s = _ from rfl), fun _ => isolated_lookup (show execIsaCcreate e t s = _ from rfl),
    fun _ => isaCwrite_isolated s e t, fun _ => isaSketch_isolated s e t, fun _ => isaAesq_isolated s e t,
    fun _ => isaAesw_isolated s e t, fun _ => isaRand_isolated s e t, fun _ => isaEmit_isolated s e t,
    fun _ => isaDrop_isolated s e t, fun _ => isaPunt_isolated s e t, fun _ => isaCinc_isolated s e t, List.forall_mem_nil _⟩

end

/-- Settles O55: an instruction's effect is on its own thread, on the client table, the rings and the egress, and on no thread but
its own. -/
theorem threadsAreIsolated : Obligations.ThreadsAreIsolated := by
  intro s u e e' t t' p hp hop hexec hne
  exact isaOps_isolated s e t p hp hop u hexec e' t' hne

end Sys2Proof.Machine
end

section
/-! The ends of a thread (R304-R307): emit, drop, punt, cinc, and a program fault. -/

namespace Sys2Proof.Machine

open Sys2Proof.Safety

/-! ## The end of a thread (R290, R307, R420) -/

theorem State.setEngine_self (s : State) (e : Fin 8) : s.setEngine e s.serve.engines[e] = s := by
  simp [State.setEngine]

/-- A sample record joins those of its engine; nothing else of the serve domain changes. -/
theorem State.storeSample_serve (s : State) (e : Fin 8) (rec : Bytes) : ∃ samples sampleCount,
    (s.storeSample e rec).serve = (s.setEngine e { s.serve.engines[e] with samples, sampleCount }).serve := by
  unfold State.storeSample
  extract_lets g stored bumped
  split
  · exact ⟨g.samples, g.sampleCount, congrArg State.serve (s.setEngine_self e).symm⟩
  · refine ⟨(rec :: g.samples).take 1024, g.sampleCount + 1, ?_⟩
    split
    · exact (State.log_serve _ _ _ _).trans rfl
    · rfl

theorem State.sampleEnded_serve (s : State) (e : Fin 8) (x : EndedThread) (depart : Option Nat) : ∃ samples sampleCount,
    (s.sampleEnded e x depart).serve = (s.setEngine e { s.serve.engines[e] with samples, sampleCount }).serve := by
  unfold State.sampleEnded
  extract_lets wasted counted latency lim late seq flags
  have hcounted : counted.serve = s.serve := by
    unfold counted
    split
    · exact State.countE_serve _ _ _ _
    · rfl
  have hsame : ∃ samples sampleCount, counted.serve = (s.setEngine e { s.serve.engines[e] with samples, sampleCount }).serve :=
    ⟨s.serve.engines[e].samples, s.serve.engines[e].sampleCount, hcounted.trans (congrArg State.serve (s.setEngine_self e).symm)⟩
  split
  · exact hsame
  · split
    · exact hsame
    · obtain ⟨samples, sampleCount, hstored⟩ := counted.storeSample_serve e _
      exact ⟨samples, sampleCount, hstored.trans (by rw [State.setEngine, State.setEngine, hcounted])⟩

/-- A thread as its end leaves it: its entries released, its registers, windows and address as they were. -/
def Thread.ended (x : Thread) : Thread := { x with busy := false, held := none, also := [], incs := [], wait := .none }

theorem State.endThread_serve (s : State) (e : Fin 8) (t : Fin 16) (kind : Nat) (waits : Bool) :
    (s.endThread e t kind waits).thread e t = (s.thread e t).ended
    ∧ (s.endThread e t kind waits).serve.engines[e].faultSec = s.serve.engines[e].faultSec
    ∧ (s.endThread e t kind waits).serve.ct = s.serve.ct := by
  unfold State.endThread
  extract_lets g x n on hit y ended p serve pair idle
  have hended : idle.thread e t = (s.thread e t).ended ∧ idle.serve.engines[e].faultSec = s.serve.engines[e].faultSec
      ∧ idle.serve.ct = s.serve.ct := by
    refine ⟨?_, ?_, rfl⟩
    · simp [idle, serve, ended, State.thread, State.setEngine, Thread.ended, x, g]
    · simp [idle, serve, ended, State.setEngine, g]
  split
  · exact hended
  · obtain ⟨samples, sampleCount, hsampled⟩ := idle.sampleEnded_serve e y x.lastDeparture
    obtain ⟨hthread, hfault, hct⟩ := hended
    refine ⟨hthread ▸ ?_, hfault ▸ ?_, hct ▸ ?_⟩
    · simp [State.thread, hsampled, State.setEngine]
    · simp [hsampled, State.setEngine]
    · rw [hsampled]
      rfl

/-! ## A program fault (R307, R309) -/

/-- The fault counted, and noted where it is the first of its engine in the second. -/
theorem State.progFault_serve (s : State) (e : Fin 8) (t : Fin 16) (cause : Nat) :
    (s.progFault e t cause).thread e t = (s.thread e t).ended
    ∧ (s.progFault e t cause).serve.engines[e].faultSec = some s.second
    ∧ (s.progFault e t cause).serve.ct = s.serve.ct := by
  unfold State.progFault
  extract_lets x counted g noted
  have hnoted : noted.thread e t = s.thread e t ∧ noted.serve.engines[e].faultSec = some s.second ∧ noted.serve.ct = s.serve.ct := by
    unfold noted
    split
    · next hsec => exact ⟨rfl, hsec, rfl⟩
    · refine ⟨?_, ?_, ?_⟩
      · simp [State.thread, State.setEngine, g, counted]
      · simp [State.setEngine, counted, State.second]
      · rw [State.log_serve]
        rfl
  obtain ⟨hthread, hfault, hct⟩ := hnoted
  rw [← hthread, ← hfault, ← hct]
  exact noted.endThread_serve e t 3 false

/-! ## EMIT (R304) -/

section
variable {s : State} {e : Fin 8} {t : Fin 16} {w : Word64} (h : IsaNext s e t 0x50 w)
include h

theorem emit_fifth (hfull : 4 ≤ (issued s e t).emits) : Faults (.isaEmit e t) s e t 5 :=
  faults_instr (c := .isaEmit e t) h (show execIsaEmit e t s = _ from rfl) (if_pos hfull)

variable (hroom : (issued s e t).emits < 4) {nb : Nat} (hnb : nb = ((issued s e t).g (destOf w)).toNat)
include hroom hnb

theorem emit_tooLate (hlate : s.tb.raw + 12500000 < nb) : Faults (.isaEmit e t) s e t 10 := by
  subst hnb
  exact faults_instr (c := .isaEmit e t) h (show execIsaEmit e t s = _ from rfl)
    ((if_neg (Nat.not_le.mpr hroom)).trans (if_pos hlate))

variable (hsoon : nb ≤ s.tb.raw + 12500000) {cw : Nat} (hcw : cw = ((issued s e t).g (srcAOf w)).toNat)
include hsoon hcw

/-- The port a control word names: that of the frame's arrival, or a number. -/
theorem emit_noPort (hhigh : 64 ≤ cw / 65536 % 256) (hother : cw / 65536 % 256 ≠ 0xFE) : Faults (.isaEmit e t) s e t 11 := by
  subst hnb hcw
  refine faults_instr (c := .isaEmit e t) h (show execIsaEmit e t s = _ from rfl) ?_
  refine (if_neg (Nat.not_le.mpr hroom)).trans ((if_neg (Nat.not_lt.mpr hsoon)).trans ?_)
  split
  · rfl
  · exact dif_neg (Nat.not_lt.mpr hhigh)

variable {kind offset : Nat} (hkind : kind = immOf w / 65536 % 16)
  (hoffset : offset = (issued s e t).addr (srcBOf w) (immOf w % 1024))
include hkind hoffset

theorem emit_malformed (hbad : cw % 65536 < 14 ∨ 512 < cw % 65536 ∨ cw / 2 ^ 32 ≠ 0 ∨ cw / 2 ^ 24 % 32 ≠ 0
    ∨ insertOk kind offset (cw % 65536) = false) : Faults (.isaEmit e t) s e t 11 := by
  subst hnb hcw hkind hoffset
  refine faults_instr (c := .isaEmit e t) h (show execIsaEmit e t s = _ from rfl) ?_
  refine (if_neg (Nat.not_le.mpr hroom)).trans ((if_neg (Nat.not_lt.mpr hsoon)).trans (if_pos ?_))
  simp only [Bool.or_eq_true, decide_eq_true_eq, Bool.not_eq_true']
  tauto

theorem exec_isaEmit (hword : cw / 2 ^ 32 = 0) (hrsv : cw / 2 ^ 24 % 32 = 0) (hlong : 14 ≤ cw % 65536) (hshort : cw % 65536 ≤ 512)
    (hinsert : insertOk kind offset (cw % 65536) = true) {port : Fin 64}
    (hport : (if cw / 65536 % 256 = 0xFE then (issued s e t).packet.port else cw / 65536 % 256) = port.val) {f : EFrame}
    (hf : f = { cls := egressClass (issued s e t).packet.cls, data := (issued s e t).win.take (cw % 65536),
                flags := cw / 2 ^ 24 % 256, kind := kind, offset := offset, notBefore := nb,
                owner := some (e, t, (issued s e t).serial) }) :
    exec (.isaEmit e t) s = .next (if flagOf w 36
      then (((counted s e t).setThread e t { issued s e t with emits := (issued s e t).emits + 1 }).endThread e t 0 true).emitFrame
        port f
      else ((counted s e t).setThread e t
        { (({ issued s e t with emits := (issued s e t).emits + 1 } : Thread).waits .emit s.now) with
          pc := (issued s e t).pc + 1 }).emitFrame port f) := by
  subst hnb hcw hkind hoffset hf
  show execIsaEmit e t s = _
  rw [execIsaEmit, State.instr_of_next h]
  refine congrArg Host.Outcome.next ?_
  obtain ⟨n, hn⟩ := port
  obtain rfl : _ = n := hport
  refine (if_neg (Nat.not_le.mpr hroom)).trans ((if_neg (Nat.not_lt.mpr hsoon)).trans ((if_neg ?_).trans (dif_pos hn)))
  simp only [hword, hrsv, hinsert, Nat.not_lt.mpr hlong, Nat.not_lt.mpr hshort]
  decide

end

/-! ## DROP, PUNT, CINC (R305, R306) -/

section
variable {s : State} {e : Fin 8} {t : Fin 16} {w : Word64}

theorem exec_isaDrop (h : IsaNext s e t 0x51 w) : exec (.isaDrop e t) s = .next
    (((if flagOf w 35 then (counted s e t).bump (Obj.program_counters (immOf w % 256)) else counted s e t).countE e 0x09).endThread
      e t 1 false) := by
  show execIsaDrop e t s = _
  rw [execIsaDrop, State.instr_of_next h]

theorem exec_isaPunt_frame (h : IsaNext s e t 0x52 w) {p : Pkt} (hp : (issued s e t).work = .frame p) : exec (.isaPunt e t) s
    = .next ((((counted s e t).countE e 0x0A).endThread e t 2 false).toRing (immOf w % 256)
        { pkt := p, reason := 2, code := immOf w / 256 % 256, engine := e.val, client := (issued s e t).held.getD 0xFFFFFFFF,
          seq := 0 }) := by
  show execIsaPunt e t s = _
  rw [execIsaPunt, State.instr_of_next h]
  simp only [hp]

theorem exec_isaPunt_timer (h : IsaNext s e t 0x52 w) (hwork : (issued s e t).work.isFrame = false) :
    exec (.isaPunt e t) s = .next (((counted s e t).countE e 0x0A).endThread e t 2 false) := by
  show execIsaPunt e t s = _
  rw [execIsaPunt, State.instr_of_next h]
  refine congrArg Host.Outcome.next ?_
  split
  · next p hp => simp [hp, Work.isFrame] at hwork
  · rfl

theorem exec_isaCinc (h : IsaNext s e t 0x58 w) {d : Nat}
    (hd : d = if srcAOf w = 0 then 1 else ((issued s e t).g (srcAOf w)).toNat) : exec (.isaCinc e t) s
    = .next (((counted s e t).bump (Obj.program_counters (immOf w % 256)) d).setThread e t
        { issued s e t with pc := (issued s e t).pc + 1, incs := (immOf w % 256, d) :: (issued s e t).incs }) := by
  subst hd
  show execIsaCinc e t s = _
  rw [execIsaCinc, State.instr_of_next h]

end

/-- Settles O36: each clause is its instruction's branch, in the order of its checks; a fault ends its thread by `endThread`. -/
theorem isaEndings : Obligations.IsaEndings := by
  refine ⟨fun s e t w => ?_, fun s e t cause => ?_⟩
  · intro x a b nb cw offset kind u
    have hoffset : offset = x.addr (srcBOf w) (immOf w % 1024) := (x.addr_eq _ _).symm
    refine ⟨fun port h hroom hsoon hword hrsv hlong hshort hinsert hport f hf => ?_,
      fun h hfull => emit_fifth h hfull,
      fun h hroom hlate => emit_tooLate h hroom rfl hlate,
      fun h hroom hsoon hbad => emit_malformed h hroom rfl hsoon rfl rfl hoffset hbad,
      fun h hroom hsoon hhigh hother => emit_noPort h hroom rfl hsoon rfl hhigh hother,
      fun h hflag => (exec_isaDrop h).trans (by rw [hflag]; rfl),
      fun h hflag => (exec_isaDrop h).trans (by rw [hflag]; rfl),
      fun p h hp => exec_isaPunt_frame h hp,
      fun h hwork => exec_isaPunt_timer h hwork,
      fun h d hd => exec_isaCinc h (hd.trans ?_)⟩
    · have hemit := exec_isaEmit h hroom rfl hsoon rfl rfl hoffset hword hrsv hlong hshort hinsert hport hf
      exact ⟨fun hends => hemit.trans (by rw [hends]; rfl), fun hwaits => hemit.trans (by rw [hwaits]; rfl)⟩
    · rfl
  · obtain ⟨hthread, hfault, hct⟩ := s.progFault_serve e t cause
    obtain ⟨hpending, hnow, -⟩ := s.progFault_kept e t cause (.refl s)
    intro u
    rw [show u.thread e t = (s.thread e t).ended from hthread]
    exact ⟨rfl, rfl, rfl, rfl, (OnlyThread.refl e t s).progFault cause, congrArg ClientTable.dram hct, hfault, hpending, hnow⟩

end Sys2Proof.Machine
end

section
/-! The order of rank lists (R311), the Montgomery row (R332) and the host SPI's transactions (R447). -/

namespace Sys2Proof.Machine

open Sys2Proof.Safety

/-! ## The order of rank lists (R311) -/

theorem lexLess_cons {x y : Nat} {a b : List Nat} :
    lexLess (x :: a) (y :: b) = true ↔ x < y ∨ x = y ∧ lexLess a b = true := by
  simp [lexLess]

theorem lexLess_asymm : ∀ a b : List Nat, lexLess a b = true → lexLess b a = false
  | x :: a, y :: b, h => by
    rw [Bool.eq_false_iff, Ne, lexLess_cons]
    rintro (hlt | ⟨rfl, hba⟩)
    · rcases lexLess_cons.1 h with h | ⟨rfl, -⟩ <;> omega
    · rcases lexLess_cons.1 h with h | ⟨-, hab⟩
      · exact lt_irrefl _ h
      · simp [lexLess_asymm a b hab] at hba
  | [], _, h => by simp [lexLess] at h
  | _ :: _, [], h => by simp [lexLess] at h

theorem lexLess_trans : ∀ a b c : List Nat, lexLess a b = true → lexLess b c = true → lexLess a c = true
  | x :: a, y :: b, z :: c, hab, hbc => by
    rw [lexLess_cons] at hab hbc ⊢
    rcases hab with hab | ⟨rfl, hab⟩ <;> rcases hbc with hbc | ⟨rfl, hbc⟩
    · exact .inl (hab.trans hbc)
    · exact .inl hab
    · exact .inl hbc
    · exact .inr ⟨rfl, lexLess_trans a b c hab hbc⟩
  | [], _, _, h, _ => by simp [lexLess] at h
  | _ :: _, [], _, h, _ => by simp [lexLess] at h
  | _ :: _, _ :: _, [], _, h => by simp [lexLess] at h

/-- Settles O38: both by induction along the lists; a head decides, or the heads are equal and the tails decide. -/
theorem rankOrderIsStrict : Obligations.RankOrderIsStrict :=
  ⟨lexLess_asymm, fun a b c _ _ => lexLess_trans a b c⟩

/-! ## The Montgomery row (R332) -/

/-- The low word of C + A·b is that of its low words. -/
theorem lowWord_mod (c a b W : Nat) : (c % W + a % W * b) % W = (c + a * b) % W := by
  simp [Nat.add_mod, Nat.mul_mod]

/-- With n·n' = -1 the multiple m·n cancels the low word. -/
theorem montRow_low {n n' W : Nat} (h : (n * n' + 1) % W = 0) (x y : Nat) (hxy : x % W = y % W) :
    (y + x * n' % W * n) % W = 0 := by
  calc (y + x * n' % W * n) % W
      = (x + x * n' * n) % W := by rw [Nat.add_mod, ← hxy, Nat.mod_mul_mod, ← Nat.add_mod]
    _ = x * (n * n' + 1) % W := by ring_nf
    _ = 0 := by rw [Nat.mul_mod, h, mul_zero, Nat.zero_mod]

/-- The sum of a row stays below 3N words. -/
theorem montRow_sum_lt {a b c m n W : Nat} (hc : c < 2 * n) (ha : a < 2 * n) (hb : b < W) (hm : m < W) :
    c + a * b + m * n < 3 * n * W := by
  obtain ⟨V, rfl⟩ : ∃ V, W = V + 1 := ⟨W - 1, by omega⟩
  have hab : a * b ≤ 2 * n * V := Nat.mul_le_mul ha.le (by omega)
  have hmn : m * n ≤ V * n := Nat.mul_le_mul (by omega) le_rfl
  nlinarith only [hab, hmn, hc]

/-- Settles O41: the low word cancels, so the division is exact; the sum is below 3N words, which fits `w + 1` words. -/
theorem montgomeryRowFits : Obligations.MontgomeryRowFits := by
  intro w a b n n' c _ hn hnn hc ha hb m
  have hlow : (c + a * b + m * n) % 2 ^ 64 = 0 := montRow_low hnn _ _ (lowWord_mod c a b _)
  have hdiv : (c + a * b + m * n) / 2 ^ 64 * 2 ^ 64 = c + a * b + m * n :=
    Nat.div_mul_cancel (Nat.dvd_of_mod_eq_zero hlow)
  have hlt : (c + a * b + m * n) / 2 ^ 64 < 3 * n :=
    (Nat.div_lt_iff_lt_mul (by positivity)).2 (montRow_sum_lt hc ha hb (Nat.mod_lt _ (by positivity)))
  have hfit : montRow w a b n n' c = (c + a * b + m * n) / 2 ^ 64 := by
    refine Nat.mod_eq_of_lt (hlt.trans ?_)
    calc 3 * n < 2 ^ 64 * 2 ^ (64 * w) := by omega
      _ = 2 ^ (64 * (w + 1)) := by ring
  rw [hfit]
  exact ⟨hlow, hdiv, hlt⟩

/-! ## Host SPI (R447) -/

theorem fieldN_one (b : Bytes) (i : Nat) : fieldN b i 1 = (b.getD i 0).toNat := by
  simp [fieldN, field, ofBe]

theorem bit_toNat (x : Byte) (i : Nat) : bit x.toNat i = x.getLsbD i := by
  simp [bit, BitVec.getLsbD, Nat.testBit_eq_decide_div_mod_eq]

/-- A field read past the end of the string pads it with zeros. -/
theorem field_past_end (b : Bytes) (k : Nat) : field b 0 (b.length + k) = b ++ List.replicate k 0 := by
  refine List.ext_getElem (by simp [field]) fun i h _ => ?_
  simp only [field, List.getElem_map, List.getElem_range, zero_add]
  rw [List.getElem_append]
  split
  · next hi => rw [List.getD_eq_getElem _ _ hi]
  · next hi => rw [List.getD_eq_default _ _ (by omega), List.getElem_replicate]

/-- The envelope check of HOST_SPI_WRITE in the bytes themselves. -/
theorem spiMalformed_iff (b : Bytes) :
    (decide (b.length < 4) || decide (fieldN b 0 1 ≠ 0x5A) || bit (fieldN b 1 1) 7 || decide (fieldN b 2 2 + 4 ≠ b.length)) = true ↔
      (b.length < 4 ∨ b[0]! ≠ 0x5A ∨ b[1]!.getLsbD 7 = true ∨ fieldN b 2 2 + 4 ≠ b.length) := by
  have h0 : (fieldN b 0 1 ≠ 0x5A) ↔ b[0]! ≠ 0x5A := by
    rw [fieldN_one, not_iff_not, ← BitVec.toNat_inj, getElem!_def, List.getD_eq_getElem?_getD]
    cases b[0]? <;> rfl
  have h1 : bit (fieldN b 1 1) 7 = b[1]!.getLsbD 7 := by
    rw [fieldN_one, bit_toNat, getElem!_def, List.getD_eq_getElem?_getD]
    cases b[1]? <;> rfl
  simp only [Bool.or_eq_true, decide_eq_true_eq, h0, h1, or_assoc]

variable {s : State} {b : Bytes}

theorem exec_hostSpiWrite_malformed (hup : s.agentUp = true)
    (h : b.length < 4 ∨ b[0]! ≠ 0x5A ∨ b[1]!.getLsbD 7 = true ∨ fieldN b 2 2 + 4 ≠ b.length) :
    exec (.hostSpiWrite b) s = .next (s.bump Obj.ool_malformed) := by
  show execHostSpiWrite b s = _
  rw [execHostSpiWrite, if_neg (by simp [hup]), if_pos ((spiMalformed_iff b).2 h)]

/-- A well-formed transaction ends in the queue, or is dropped where that is full. -/
theorem exec_hostSpiWrite_wellFormed (hup : s.agentUp = true) (hlen : 4 ≤ b.length) (h0 : b[0]! = 0x5A)
    (h1 : b[1]!.getLsbD 7 = false) (h2 : fieldN b 2 2 + 4 = b.length) :
    exec (.hostSpiWrite b) s = if 16 ≤ s.ool.spiQ.length then .next s
      else .next { s with ool := { s.ool with spiQ := s.ool.spiQ ++ [{ path := .spi, frame := b.drop 4 }] } } := by
  show execHostSpiWrite b s = _
  rw [execHostSpiWrite, if_neg (by simp [hup]), if_neg]
  rw [spiMalformed_iff, h1]
  rintro (h | h | h | h)
  · omega
  · exact h h0
  · cases h
  · exact h h2

theorem exec_hostSpiRead_pending {clocked : Nat} {f : Bytes} {rest : List Bytes} (hup : s.agentUp = true)
    (h : s.ool.spiOut = f :: rest) :
    exec (.hostSpiRead clocked) s = .next { s with ool := { s.ool with
      spiMiso := field (spiEnvelope f ++ f) 0 (clocked - 4),
      spiOut := if 8 + f.length ≤ clocked then rest else f :: rest } } := by
  show execHostSpiRead clocked s = _
  rw [execHostSpiRead, if_neg (by simp [hup])]
  simp only [h]

/-- A read long enough carries the envelope, the whole frame, and zeros. -/
theorem field_spiEnvelope {f : Bytes} {clocked : Nat} (h : 8 + f.length ≤ clocked) :
    field (spiEnvelope f ++ f) 0 (clocked - 4)
      = [0x5A, 0x80] ++ beNat 2 f.length ++ f ++ List.replicate (clocked - 8 - f.length) 0 := by
  have hk : clocked - 4 = (spiEnvelope f ++ f).length + (clocked - 8 - f.length) := by
    simp [spiEnvelope]; omega
  rw [hk, field_past_end]
  rfl

/-- Settles O51: a write by its envelope and the queue's room, a read by the length clocked. -/
theorem hostSpiCommands : Obligations.HostSpiCommands := by
  refine ⟨?write, ?full, ?malformed, ?read, ?idle, ?down⟩
  case write =>
    intro s b hup hlen h0 h1 h2 hq
    rw [exec_hostSpiWrite_wellFormed hup hlen h0 h1 h2, if_neg (by omega)]
  case full =>
    intro s b hup hlen h0 h1 h2 hq
    rw [exec_hostSpiWrite_wellFormed hup hlen h0 h1 h2, if_pos hq.ge]
  case malformed => exact fun s b hup h => exec_hostSpiWrite_malformed hup h
  case read =>
    intro s clocked f rest hup hout
    refine ⟨fun hle => ⟨_, exec_hostSpiRead_pending hup hout, if_pos hle, field_spiEnvelope hle, rfl, ?_⟩,
      fun hlt => ⟨_, exec_hostSpiRead_pending hup hout, if_neg (by omega), ?_⟩⟩
    · simp only [State.hspiInt, if_pos hle]
    · simp only [State.hspiInt, if_neg (not_le.2 hlt)]
      rfl
  case idle =>
    intro s clocked hup hout
    show execHostSpiRead clocked s = _
    rw [execHostSpiRead, if_neg (by simp [hup])]
    simp only [hout]
  case down =>
    intro s b n hdown
    exact ⟨show execHostSpiWrite b s = _ by simp [execHostSpiWrite, hdown],
      show execHostSpiRead n s = _ by simp [execHostSpiRead, hdown]⟩

end Sys2Proof.Machine
end

section
/-! Resets, the watchdog, the thermal monitor and tamper (R352, R379-R393), and the release of a warm reset (R388, R121). -/

namespace Sys2Proof.Machine

open Sys2Proof.Safety

variable {s : State}

/-! ## The assertion of a cold reset (R379-R381) -/

theorem State.breakPersist_pins (s : State) : s.breakPersist.sys.rstnLow = s.sys.rstnLow ∧ s.breakPersist.now = s.now := by
  unfold State.breakPersist
  split <;> exact ⟨rfl, rfl⟩

/-- Outside a power-on or cold reset the scope is asserted, held as long as its source holds it; RSTn's level stays. -/
theorem State.assertCold_asserts (hmain : s.keep.mainGood = true) (h1 : s.sys.scope ≠ some 1) (h2 : s.sys.scope ≠ some 2)
    (cause hold : Nat) : (s.assertCold cause hold).sys.scope = some 2
      ∧ (s.assertCold cause hold).sys.holdUntil = s.now + hold ∧ (s.assertCold cause hold).sys.rstnLow = s.sys.rstnLow := by
  rw [State.assertCold, if_neg (by simp [hmain]), if_neg (by simp [h1, h2])]
  obtain ⟨obj, hdoms⟩ := ((s.recordCause 2 cause).coldBase).setDoms_frame 3
  obtain ⟨hrstn, hnow⟩ := (s.recordCause 2 cause).breakPersist_pins
  rw [hdoms]
  exact ⟨rfl, congrArg (· + hold) hnow, hrstn⟩

/-! ## The thermal monitor (R393) -/

/-- The temperature is shown; what else happens follows from the limit and from whether its crossing was journalled. -/
theorem exec_thermalWarning_awake (hawake : s.awake 2 = true) (temp : Int) : exec (.thermalWarning temp) s = .next (
    if s.sys.warned = false ∧ s.n Obj.thermal_warn_limit < temp then
      ({ s.putN Obj.die_temperature temp with sys := { s.sys with warned := true } } : State).log 0x0800 0x1505 ([1] ++ be 2 temp)
    else if s.sys.warned = true ∧ temp ≤ s.n Obj.thermal_warn_limit - 200 then
      ({ s.putN Obj.die_temperature temp with sys := { s.sys with warned := false } } : State).log 0x0800 0x1505 ([0] ++ be 2 temp)
    else s.putN Obj.die_temperature temp) := by
  have hlimit : (s.putN Obj.die_temperature temp).n Obj.thermal_warn_limit = s.n Obj.thermal_warn_limit :=
    s.n_putN_ne _ (by decide)
  show execThermalWarning temp s = _
  rw [execThermalWarning, if_neg (by simp [hawake])]
  dsimp only
  rw [hlimit, State.putN_sys]
  by_cases hw : s.sys.warned = true
  · by_cases hl : temp ≤ s.n Obj.thermal_warn_limit - 200 <;> simp [hw, hl]
  · by_cases hl : s.n Obj.thermal_warn_limit < temp <;> simp [hw, hl]

/-! ## Tamper (R352) -/

/-- The latch set and its entry noted. -/
def State.latched (s : State) : State :=
  (s.putB Obj.tamper_latch true).note 0x0900 0x1401 [if s.mode.cur = .cellar then 1 else 0]

theorem exec_tamperAssert_main (hkeep : s.sys.keepPowered = true) (hmain : s.keep.mainGood = true) :
    exec .tamperAssert s = .next ((if s.nn Obj.fw_staged_status = 1 then
      ({ s.latched with flash := s.latched.flash.setImage (1 - s.latched.nn Obj.fw_running_bank) [] } : State)
      else s.latched).assertCold 4 (ticksMs 1)) := by
  have hstaged : s.latched.nn Obj.fw_staged_status = s.nn Obj.fw_staged_status :=
    congrArg Int.toNat (s.n_putB_ne (a := Obj.fw_staged_status) (b := Obj.tamper_latch) true (by decide))
  rw [← hstaged]
  show execTamperAssert s = _
  rw [execTamperAssert, if_neg (by simp [hkeep])]
  simp only [hmain, Bool.not_true, Bool.or_false, decide_eq_true_eq]
  exact if_neg (by simp [State.note, hmain])

theorem exec_tamperAssert_keep (hkeep : s.sys.keepPowered = true) (hmain : s.keep.mainGood = false) :
    exec .tamperAssert s = .next ((s.putB Obj.tamper_latch true).note 0x0900 0x1401 [1]) := by
  show execTamperAssert s = _
  rw [execTamperAssert, if_neg (by simp [hkeep])]
  simp [hmain, State.note]

/-- Settles O15: each clause is the equation of its command's branch. -/
theorem resetCommands : Obligations.ResetCommands := by
  refine ⟨fun _ => rfl, ?rstn, fun _ => rfl, fun _ => rfl, fun _ => rfl, ?wdWarm, ?wdCold, ?wdThird, ?warm, ?cold, ?cellar, ?trip,
    ?above, ?below, ?between, ?oscLoss, ?oscBack, ?tamper, ?tamperStaged, ?tamperKeep, ?clear⟩
  case rstn =>
    exact fun s hmain h1 h2 => ⟨_, rfl, State.assertCold_asserts (s := { s with sys := { s.sys with rstnLow := true } }) hmain h1 h2 2 0⟩
  case wdWarm =>
    intro s hawake hscope hdue
    show execWatchdogWarm s = _
    rw [execWatchdogWarm, if_neg (by simp [hawake, hscope, hdue])]
    rfl
  case wdCold =>
    intro s r hr hmode hdue
    show execWatchdogCold s = _
    simp [execWatchdogCold, hr, hmode, hdue]
  case wdThird =>
    intro s hthree hmode
    show execWatchdogCold s = _
    simp [execWatchdogCold, hthree, hmode]
  case warm =>
    intro s d hcmd hdue
    exact congrArg Host.Outcome.next (if_pos (by simp [State.resetDue, hcmd, hdue]))
  case cold =>
    intro s d hcmd hdue
    exact congrArg Host.Outcome.next (if_pos (by simp [State.resetDue, hcmd, hdue]))
  case cellar => exact fun s hmode => if_neg (by simp [hmode])
  case trip => exact fun s hmain hmode => if_pos (by simp [hmain, hmode])
  case above =>
    intro s temp hawake hw hl
    rw [exec_thermalWarning_awake hawake, if_pos ⟨hw, hl⟩]
  case below =>
    intro s temp hawake hw hl
    rw [exec_thermalWarning_awake hawake, if_neg (by simp [hw]), if_pos ⟨hw, hl⟩]
  case between =>
    intro s temp hawake hbetween
    rw [exec_thermalWarning_awake hawake]
    by_cases hw : s.sys.warned = true
    · rw [if_pos hw] at hbetween
      rw [if_neg (by simp [hw]), if_neg (by omega)]
    · rw [if_neg hw] at hbetween
      rw [if_neg (by omega), if_neg (by simp [hw])]
  case oscLoss => exact fun s hclock hmain => if_neg (by simp [hclock, hmain])
  case oscBack => exact fun s hclock hmain => if_neg (by simp [hclock, hmain])
  case tamper =>
    intro s hkeep hmain hstaged
    rw [exec_tamperAssert_main hkeep hmain, if_neg hstaged]
    rfl
  case tamperStaged =>
    intro s hkeep hmain hstaged
    rw [exec_tamperAssert_main hkeep hmain, if_pos hstaged]
    rfl
  case tamperKeep => exact fun _ => exec_tamperAssert_keep
  case clear => exact fun s k hup hlatch => congrArg Host.Outcome.next (if_pos (by simp [hup, hlatch]))

/-- Settles O17: each clause is the equation of its command's branch. -/
theorem warmRelease : Obligations.WarmRelease := by
  refine ⟨?release, ?held, ?resume, ?check, ?early⟩
  case release => exact fun s hscope hhold hpin => congrArg Host.Outcome.next (if_pos (by simp [hscope, hhold, hpin]))
  case held => exact fun s _ hhold => congrArg Host.Outcome.next (if_neg (by simp [hhold]))
  case resume => exact fun s w hat hstage => if_pos (by simp [hat, hstage])
  case check =>
    intro s w hat hdue
    show execSlotMissingCheckResume s = _
    simp only [execSlotMissingCheckResume, hat]
    exact if_pos (by simpa [ticksMs] using hdue)
  case early =>
    intro s w hat hdue
    show execSlotMissingCheckResume s = _
    simp only [execSlotMissingCheckResume, hat]
    exact if_neg (by simpa [ticksMs] using hdue)

end Sys2Proof.Machine
end

section
/-! Block resets (R390, R283, R46) and clock-domain crossings (R403, R404). -/

namespace Sys2Proof.Machine

open Sys2Proof.Safety

variable {s : State} {b : BlockReq}

/-! ## The end of a block reset -/

theorem State.answer_answered (s : State) (k : Fin 32) (path : Path) (hdr : Bytes) (opcode seq status : Nat) (payload : Bytes) :
    Answered s (s.answer k path hdr opcode seq status payload) := by
  unfold State.answer
  split
  · exact Answered.refl s
  · exact (s.setSession_answered _ _).trans (State.sendFrames_answered _ _ _ _)

theorem State.answerBlock_answered (s : State) (b : BlockReq) (status : Nat) : Answered s (s.answerBlock b status) := by
  unfold State.answerBlock
  rcases b.session with _ | k
  · exact Answered.refl s
  · dsimp only
    split_ifs
    · exact Answered.refl s
    all_goals exact s.answer_answered ..

theorem Answered.sys {s t : State} (h : Answered s t) : t.sys = s.sys := by
  obtain ⟨_, _, _, _, _, _, rfl⟩ := h
  rfl

theorem blockTimely_iff : s.blockTimely b = true ↔ ∀ g, b.expected = some g → s.n Obj.generation = (g : Int) := by
  unfold State.blockTimely
  cases b.expected <;> simp

theorem State.effectBlock_timely (h : ∀ g, b.expected = some g → s.n Obj.generation = (g : Int)) (lose : Bool) :
    s.effectBlock b lose = if lose then (s.loseBlock b).2.finishBlock b (s.loseBlock b).1
      else s.finishBlock { b with force := false } 0 := by
  rw [State.effectBlock, if_neg (by simp [blockTimely_iff.2 h])]

theorem State.effectBlock_late {g : Nat} (hb : b.expected = some g) (h : s.n Obj.generation ≠ (g : Int)) (lose : Bool) :
    s.effectBlock b lose = s.dropBlock b stGeneration := by
  refine if_pos ?_
  rw [Bool.not_eq_true', Bool.eq_false_iff, Ne, blockTimely_iff]
  exact fun hall => h (hall g hb)

/-- The block is reset, its request withdrawn, and its side of the crossings released. -/
def State.blockOff (s : State) (b : BlockReq) : State :=
  ({ s.restartBlock b with sys := { (s.restartBlock b).sys with block := none } } : State).releaseSide (blockDomain b.code)
    (b.code = 0x0500)

/-- What the device writes back: the two objects and the force flag, the work lost and the generation counted. -/
def State.blockWritten (s : State) (lost : Nat) : State :=
  ((((s.putN Obj.block_reset_state 0).putN Obj.block_reset_target 0).putB Obj.block_force false).bump Obj.block_lost lost).bump
    Obj.generation

theorem State.finishBlock_eq (s : State) (b : BlockReq) (lost : Nat) : s.finishBlock b lost
    = (((s.blockOff b).blockWritten lost).log 0x0800 0x1502
        (beNat 2 b.code ++ beNat 1 (if b.force then 1 else 0) ++ beNat 4 lost)).answerBlock b stOk := rfl

theorem State.nn_blockWritten (s : State) (lost : Nat) {k : Nat} (hforce : k ≠ Obj.block_force) (hlost : k ≠ Obj.block_lost)
    (hgen : k ≠ Obj.generation) : (s.blockWritten lost).nn k
      = ((s.putN Obj.block_reset_state 0).putN Obj.block_reset_target 0).nn k := by
  unfold State.blockWritten
  rw [State.nn_bump_ne _ hgen, State.nn_bump_ne _ hlost]
  exact congrArg Int.toNat (State.n_putB_ne _ _ hforce)

/-- The reset block resumes: no reset is open, its two objects read 0. -/
theorem State.finishBlock_ends (hwf : Wf s) (b : BlockReq) (lost : Nat) : (s.finishBlock b lost).sys.block = none
    ∧ (s.finishBlock b lost).nn Obj.block_reset_state = 0 ∧ (s.finishBlock b lost).nn Obj.block_reset_target = 0 := by
  have hstore : storeWf (s.blockOff b).obj = true := ((s.restartBlock_kept b (Kept.refl s)).wf hwf).1
  rw [State.finishBlock_eq]
  generalize beNat 2 b.code ++ beNat 1 (if b.force then 1 else 0) ++ beNat 4 lost = data
  have hans := (((s.blockOff b).blockWritten lost).log 0x0800 0x1502 data).answerBlock_answered b stOk
  have hlog := ((s.blockOff b).blockWritten lost).log_obj 0x0800 0x1502 data (by decide)
  refine ⟨?_, ?_, ?_⟩
  · rw [hans.sys, State.log_sys]
    rfl
  · rw [hans.nn, State.nn_of_obj hlog, State.nn_blockWritten _ _ (by decide) (by decide) (by decide),
      State.nn_putN_ne _ (by decide), State.nn_putN_same hstore]
    rfl
  · rw [hans.nn, State.nn_of_obj hlog, State.nn_blockWritten _ _ (by decide) (by decide) (by decide),
      State.nn_putN_same (State.storeWf_putN hstore _ _)]
    rfl

/-- A dropped one is withdrawn; the generation stays. -/
theorem State.dropBlock_ends (hwf : Wf s) (b : BlockReq) (status : Nat) : (s.dropBlock b status).sys.block = none
    ∧ (s.dropBlock b status).nn Obj.block_reset_state = 0 ∧ (s.dropBlock b status).n Obj.generation = s.n Obj.generation := by
  unfold State.dropBlock
  set u : State := { s with sys := { s.sys with block := none } }
  have hans := (u.putN Obj.block_reset_state 0).answerBlock_answered b status
  refine ⟨congrArg (·.block) hans.sys, (hans.nn _).trans (State.nn_putN_same hwf.1 _ _), (hans.n _).trans ?_⟩
  exact u.n_putN_ne 0 (by decide)

/-! ## The request (R390) -/

/-- The request as it stands once the block is asked to go idle. -/
def State.asked (s : State) (code : Nat) (force : Bool) : BlockReq :=
  { code, force, since := s.now, aes := min 24 s.serve.jobs.length }

/-- The block is asked to go idle. -/
def State.askBlock (s : State) (code : Nat) (force : Bool) : State :=
  ({ s with sys := { s.sys with block := some (s.asked code force) } } : State).putN Obj.block_reset_state 1

section
variable {code : Nat} {force : Bool} (hup : s.firmwareUp = true) (hknown : blockKnown code = true)
  (hawake : s.awake (blockDomain code) = true) (hblock : s.sys.block = none)
include hup hknown hawake hblock

theorem exec_blockReset (force : Bool) : exec (.blockReset code force) s = .next (
    if code / 256 = 2 ∧ s.serve.pairs[blockPair code].state = 0 then
      (s.askBlock code force).effectBlock (s.asked code force) false
    else s.askBlock code force) := by
  show execBlockReset code force s = _
  rw [execBlockReset, if_neg (by simp [hup, hknown, hawake, hblock])]
  refine congrArg Host.Outcome.next ?_
  show (if (s.askBlock code force).gatedPair (s.asked code force) = true then _ else _) = _
  simp only [State.gatedPair, Bool.and_eq_true, decide_eq_true_eq]
  rfl

end

/-! ## BLOCK_QUIESCED and QUIESCE_TIMEOUT -/

theorem exec_blockQuiesced (h : s.sys.block = some b) :
    exec .blockQuiesced s = .next (if s.blockIdle b then s.effectBlock b false else s) := by
  show execBlockQuiesced s = _
  simp only [execBlockQuiesced, h]

theorem exec_quiesceTimeout (h : s.sys.block = some b) (hidle : s.blockIdle b = false)
    (hdue : b.since + ticksMs (s.nn Obj.quiesce_timeout) ≤ s.now) :
    exec .quiesceTimeout s = if b.force then .next (s.effectBlock b true)
      else .next ((s.log 0x0800 0x1503 (beNat 2 b.code)).dropBlock b stQuiesce) := by
  show execQuiesceTimeout s = _
  simp only [execQuiesceTimeout, h]
  exact if_neg (by simp [hidle, hdue])

/-! ## Crossings -/

theorem exec_crossingResync {a c d : Nat} (ha : a ≤ 8) (hc : c ≤ 8) (hcap : crossCapacity a c ≠ 0)
    (hside : s.sys.resync.contains a = true ∨ s.sys.resync.contains c = true) (hda : s.domState a ≠ 3) (hdc : s.domState c ≠ 3)
    (hac : s.sys.resynced.contains (a * 256 + c) = false) (hca : s.sys.resynced.contains (c * 256 + a) = false)
    (hd : d ≤ s.inFlight a c) :
    exec (.crossingResync (a * 256 + c) d) s = .next (
      let u := ((({ s with sys := { s.sys with resynced := (a * 256 + c) :: s.sys.resynced } } : State).bump
        Obj.xing_discard_count d).bump Obj.xing_resync_count)
      if d = 0 then u else u.log 0x0800 0x150A (beNat 2 (a * 256 + c) ++ beNat 4 d)) := by
  have hhigh : (a * 256 + c) / 256 % 256 = a := by omega
  have hlow : (a * 256 + c) % 256 = c := by omega
  show execCrossingResync (a * 256 + c) d s = _
  unfold execCrossingResync
  simp only [hhigh, hlow]
  refine if_neg ?_
  simp only [hda, hdc, hac, hca, hd, ne_eq, not_false_eq_true, decide_true, Bool.not_false, Bool.and_true, Bool.not_eq_true',
    Bool.and_eq_false_iff, Bool.or_eq_false_iff, bne_eq_false_iff_eq, hcap, or_false]
  rintro ⟨hna, hnc⟩
  simp only [hna, hnc] at hside
  exact hside.elim Bool.noConfusion Bool.noConfusion

theorem State.inFlight_le (s : State) (a c : Nat) : s.inFlight a c ≤ crossCapacity a c := by
  unfold State.inFlight
  split
  · exact Nat.zero_le _
  · exact le_rfl

theorem exec_crossingHang {a c : Nat} (hawake : s.awake a = true) (ha : a < 256) (hc : c < 256)
    (hcross : requestCrossing a c = true) (p : Option (Fin 4)) :
    exec (.crossingHang (a * 256 + c) p) s = .next (((s.putN Obj.xing_hang_last ((a * 256 + c : Nat) : Int)).bump
      Obj.xing_hang_count).log 0x0800 0x150C
        (beNat 2 (a * 256 + c) ++ beNat 1 (match p with | some x => x.val | none => 0xFF))) := by
  have hhigh : (a * 256 + c) / 256 % 256 = a := by omega
  have hlow : (a * 256 + c) % 256 = c := by omega
  have hall : (a * 256 + c) % 65536 = a * 256 + c := by omega
  show execCrossingHang (a * 256 + c) p s = _
  unfold execCrossingHang
  simp only [hhigh, hlow, hall]
  exact if_neg (by simp [hawake, hcross])

/-- Settles O18: a request by the block it names, its end by the generation and the block's idleness, crossings by their
sides. -/
theorem blockAndCrossingCommands : Obligations.BlockAndCrossingCommands := by
  refine ⟨?ask, ?gated, ?quiet, ?late, ?busy, fun s b lost hwf => State.finishBlock_ends hwf b lost,
    fun s b status hwf => State.dropBlock_ends hwf b status, ?timeout, ?forced, ?discard, ?none, State.inFlight_le,
    fun s a c p hawake ha hc hcross => exec_crossingHang hawake ha hc hcross p⟩
  case ask =>
    intro s code force hwf hup hknown hawake hblock hpair
    refine ⟨s.askBlock code force, ?_, ⟨s.asked code force, rfl, rfl, rfl, rfl, rfl, rfl⟩, State.nn_putN_same hwf.1 _ _, ?_, rfl⟩
    · rw [exec_blockReset hup hknown hawake hblock, if_neg (by tauto)]
    · exact fun k hk => State.get_putN_ne _ _ (List.ne_of_not_mem_cons hk)
  case gated =>
    intro s code force hwf hup hknown hawake hblock hcode hpair
    refine ⟨_, exec_blockReset hup hknown hawake hblock force, ?_⟩
    rw [if_pos ⟨hcode, hpair⟩, State.effectBlock_timely (fun g hg => by cases hg), if_neg Bool.false_ne_true]
    have hwf' : Wf (s.askBlock code force) := ⟨State.storeWf_putN hwf.1 _ _, hwf.2⟩
    obtain ⟨hnone, hstate, -⟩ := State.finishBlock_ends hwf' { s.asked code force with force := false } 0
    exact .intro hnone hstate
  case quiet =>
    intro s b hb hidle hgen
    rw [exec_blockQuiesced hb, if_pos hidle, State.effectBlock_timely hgen, if_neg Bool.false_ne_true]
  case late =>
    intro s b g hb hidle hexp hgen
    rw [exec_blockQuiesced hb, if_pos hidle, State.effectBlock_late hexp hgen]
  case busy =>
    intro s b hb hidle
    rw [exec_blockQuiesced hb, if_neg (by simp [hidle])]
  case timeout =>
    intro s b hb hidle hforce hdue
    rw [exec_quiesceTimeout hb hidle hdue, if_neg (by simp [hforce])]
  case forced =>
    intro s b hb hidle hforce hdue hgen
    rw [exec_quiesceTimeout hb hidle hdue, if_pos hforce, State.effectBlock_timely hgen, if_pos rfl]
  case discard =>
    intro s a c d _ ha _ hc hcap hside hda hdc hac hca hd hfit
    rw [exec_crossingResync ha hc hcap hside hda hdc hac hca hfit]
    exact congrArg Host.Outcome.next (if_neg hd)
  case none =>
    intro s a c _ ha _ hc hcap hside hda hdc hac hca
    rw [exec_crossingResync ha hc hcap hside hda hdc hac hca (Nat.zero_le _)]
    rfl

end Sys2Proof.Machine
end

section
/-! Check values of the byte memories' tiles (R369), and tiles that fail their check (R370-R372). -/

namespace Sys2Proof.Machine

open Sys2Proof.Safety

/-! ## The list of check values (R369) -/

/-- Check values in the order of their tiles. -/
def sumsSorted (l : List (Nat × Nat)) : Prop := l.Pairwise fun p q => p.1 < q.1

theorem sumOf_cons (j v : Nat) (r : List (Nat × Nat)) (k : Nat) : sumOf ((j, v) :: r) k = if j = k then v else sumOf r k := rfl

/-- A tile that is not listed has the check value of zeros. -/
theorem sumOf_unlisted {l : List (Nat × Nat)} {k : Nat} (h : ∀ p ∈ l, p.1 ≠ k) : sumOf l k = tileCheck (k * 256) [] := by
  induction l with
  | nil => rfl
  | cons p r ih =>
    rw [sumOf_cons, if_neg (h p (List.mem_cons_self ..)), ih fun q hq => h q (List.mem_cons_of_mem _ hq)]

theorem sumOf_del_same {l : List (Nat × Nat)} (h : sumsSorted l) (k : Nat) : sumOf (sumDel l k) k = tileCheck (k * 256) [] := by
  induction l with
  | nil => rfl
  | cons p r ih =>
    obtain ⟨hhead, htail⟩ := List.pairwise_cons.1 h
    unfold sumDel
    split
    · next hk => exact sumOf_unlisted fun q hq => by have := hhead q hq; omega
    · next hk => rw [sumOf_cons, if_neg hk, ih htail]

theorem sumOf_ins_same (l : List (Nat × Nat)) (k x : Nat) : sumOf (sumIns l k x) k = x := by
  induction l with
  | nil => simp [sumIns, sumOf]
  | cons p r ih =>
    unfold sumIns
    split_ifs with hlt heq
    · exact if_pos rfl
    · exact if_pos rfl
    · rw [sumOf_cons, if_neg heq, ih]

theorem sumOf_put_same {l : List (Nat × Nat)} (h : sumsSorted l) (k x : Nat) : sumOf (sumPut l k x) k = x := by
  unfold sumPut
  split
  · next hx => rw [sumOf_del_same h, hx]
  · exact sumOf_ins_same l k x

theorem sumOf_del_ne (l : List (Nat × Nat)) {j k : Nat} (h : j ≠ k) : sumOf (sumDel l j) k = sumOf l k := by
  induction l with
  | nil => rfl
  | cons p r ih =>
    unfold sumDel
    split
    · next hj => rw [sumOf_cons, if_neg (hj ▸ h)]
    · rw [sumOf_cons, sumOf_cons, ih]

theorem sumOf_ins_ne (l : List (Nat × Nat)) {j k : Nat} (x : Nat) (h : j ≠ k) : sumOf (sumIns l j x) k = sumOf l k := by
  induction l with
  | nil => exact if_neg h
  | cons p r ih =>
    unfold sumIns
    split_ifs with hlt heq
    · exact if_neg h
    · rw [sumOf_cons, sumOf_cons, if_neg h, if_neg (heq ▸ h)]
    · rw [sumOf_cons, sumOf_cons, ih]

theorem sumOf_put_ne (l : List (Nat × Nat)) {j k : Nat} (x : Nat) (h : j ≠ k) : sumOf (sumPut l j x) k = sumOf l k := by
  unfold sumPut
  split
  · exact sumOf_del_ne l h
  · exact sumOf_ins_ne l x h

theorem mem_sumIns {l : List (Nat × Nat)} {k x : Nat} {q : Nat × Nat} (h : q ∈ sumIns l k x) : q = (k, x) ∨ q ∈ l := by
  induction l with
  | nil => exact .inl (List.mem_singleton.1 h)
  | cons p r ih =>
    unfold sumIns at h
    split_ifs at h
    · exact List.mem_cons.1 h
    · exact (List.mem_cons.1 h).imp_right (List.mem_cons_of_mem _)
    · rcases List.mem_cons.1 h with rfl | h
      · exact .inr (List.mem_cons_self ..)
      · exact (ih h).imp_right (List.mem_cons_of_mem _)

theorem sumsSorted_ins {l : List (Nat × Nat)} (h : sumsSorted l) (k x : Nat) : sumsSorted (sumIns l k x) := by
  induction l with
  | nil => exact List.pairwise_singleton ..
  | cons p r ih =>
    obtain ⟨hhead, htail⟩ := List.pairwise_cons.1 h
    unfold sumIns
    split_ifs with hlt heq
    · refine List.pairwise_cons.2 ⟨fun q hq => ?_, h⟩
      rcases List.mem_cons.1 hq with rfl | hq
      · exact hlt
      · exact hlt.trans (hhead q hq)
    · exact List.pairwise_cons.2 ⟨fun q hq => heq ▸ hhead q hq, htail⟩
    · refine List.pairwise_cons.2 ⟨fun q hq => ?_, ih htail⟩
      rcases mem_sumIns hq with rfl | hq
      · dsimp only at hlt heq ⊢
        omega
      · exact hhead q hq

theorem sumDel_sublist (l : List (Nat × Nat)) (k : Nat) : (sumDel l k).Sublist l := by
  induction l with
  | nil => exact .slnil
  | cons p r ih =>
    unfold sumDel
    split
    · exact List.sublist_cons_self ..
    · exact ih.cons_cons _

theorem sumsSorted_put {l : List (Nat × Nat)} (h : sumsSorted l) (k x : Nat) : sumsSorted (sumPut l k x) := by
  unfold sumPut
  split
  · exact h.sublist (sumDel_sublist l k)
  · exact sumsSorted_ins h k x

/-! ## The check values after a write (R369) -/

/-- Every tile of a list gets its check value anew. -/
theorem sumOf_recheck_mem (m : Memory) (ts : List Nat) {l : List (Nat × Nat)} (h : sumsSorted l) {k : Nat} (hk : k ∈ ts ∨ sumOf l k = memCheck m k) :
    sumOf (ts.foldl (fun l k => sumPut l k (memCheck m k)) l) k = memCheck m k := by
  induction ts generalizing l with
  | nil => exact hk.resolve_left List.not_mem_nil
  | cons t ts ih =>
    refine ih (sumsSorted_put h _ _) ?_
    by_cases htk : t = k
    · exact .inr (htk ▸ sumOf_put_same h _ _)
    · rw [sumOf_put_ne l _ htk]
      exact hk.imp_left fun hmem => (List.mem_cons.1 hmem).resolve_left (Ne.symm htk)

theorem sumOf_recheck_not_mem (m : Memory) (ts : List Nat) (l : List (Nat × Nat)) {k : Nat} (hk : k ∉ ts) :
    sumOf (ts.foldl (fun l k => sumPut l k (memCheck m k)) l) k = sumOf l k := by
  induction ts generalizing l with
  | nil => rfl
  | cons t ts ih =>
    rw [List.mem_cons, not_or] at hk
    exact (ih _ hk.2).trans (sumOf_put_ne l _ (Ne.symm hk.1))

theorem MemUnits.space_write (u : MemUnits) (sp x : Nat) (b : Bytes) : (u.write sp x b).space sp = memWrite (u.space sp) x b := by
  unfold MemUnits.write MemUnits.space
  split_ifs <;> rfl

theorem MemUnits.sums_write (u : MemUnits) (sp x : Nat) (b : Bytes) :
    (u.write sp x b).sums sp = sumsAfter ((u.write sp x b).space sp) (u.sums sp) x b.length := by
  rw [MemUnits.space_write]
  unfold MemUnits.write MemUnits.sums
  split_ifs <;> rfl

theorem memRead_length (m : Memory) (x n : Nat) : (memRead m x n).length = n := by simp [memRead]

/-- The check value of a tile of a byte memory: over its address and all its 256 bytes. -/
theorem memCheck_eq (m : Memory) (k : Nat) : memCheck m k = crc32c (beNat 8 (k * 256) ++ memRead m (k * 256) 256) := by
  have h := field_prefix (memRead m (k * 256) 256) []
  rw [memRead_length, List.append_nil] at h
  rw [memCheck, tileCheck, h]

/-! ## The patrol (R370) -/

variable {s : State}

theorem exec_patrolRead {region : Nat} (hlo : 1 ≤ region) (hhi : region ≤ 10) (hawake : s.awake (regionDomain region) = true)
    (addr : BitVec 64) (f : TileFault) (last : Bool) (h : TileHolds) : exec (.patrolRead region addr f last h) s = .next (
      let u := if last then s.patrolEnd (inDram region addr.toNat) else s
      let u := if [1, 5, 7].contains region then (u.count 9 0x03).count 9 0x05 else u
      let u := if [1, 5, 7].contains region && !s.tilePasses region addr.toNat f then u.count 9 0x04 else u
      if s.tilePasses region addr.toNat f then u else u.tileMismatch region (addr.toNat / 256 * 256) h) := by
  show execPatrolRead region addr f last h s = _
  rw [execPatrolRead, if_neg (by simp [hlo, hhi, hawake])]

/-- Outside the DRAM regions no burst counts. -/
theorem exec_patrolRead_sram {region : Nat} (hlo : 1 ≤ region) (hhi : region ≤ 10) (h1 : region ≠ 1) (h5 : region ≠ 5)
    (h7 : region ≠ 7) (hawake : s.awake (regionDomain region) = true) (addr : BitVec 64) (f : TileFault) (last : Bool)
    (h : TileHolds) : exec (.patrolRead region addr f last h) s = .next (
      let u := if last then s.patrolEnd (inDram region addr.toNat) else s
      if s.tilePasses region addr.toNat f then u else u.tileMismatch region (addr.toNat / 256 * 256) h) := by
  have hsram : [1, 5, 7].contains region = false := by simp [h1, h5, h7]
  rw [exec_patrolRead hlo hhi hawake, hsram]
  simp only [Bool.false_and, Bool.false_eq_true, if_false]

theorem State.patrolEnd_due {dram : Bool} (h : (if dram then s.mem.patrolDram else s.mem.patrolSram) ≤ s.now) :
    s.patrolEnd dram = (s.bump Obj.patrol_passes).setPatrol dram (s.now
      + ticksS ((s.bump Obj.patrol_passes).nn (if dram then Obj.patrol_dram_period else Obj.patrol_sram_period))) :=
  if_neg (Nat.not_lt.2 h)

theorem State.setPatrol_obj (s : State) (dram : Bool) (due : Nat) : (s.setPatrol dram due).obj = s.obj := by
  cases dram <;> rfl

theorem State.setPatrol_due (s : State) (dram : Bool) (due : Nat) :
    (if dram then (s.setPatrol dram due).mem.patrolDram else (s.setPatrol dram due).mem.patrolSram) = due := by
  cases dram <;> rfl

theorem State.patrolEnd_counts (dram : Bool) (h : (if dram then s.mem.patrolDram else s.mem.patrolSram) ≤ s.now) :
    (s.patrolEnd dram).nn Obj.patrol_passes = (s.bump Obj.patrol_passes).nn Obj.patrol_passes
    ∧ (if dram then (s.patrolEnd dram).mem.patrolDram else (s.patrolEnd dram).mem.patrolSram)
        = s.now + ticksS ((s.bump Obj.patrol_passes).nn (if dram then Obj.patrol_dram_period else Obj.patrol_sram_period)) := by
  rw [State.patrolEnd_due h]
  exact ⟨State.nn_of_obj (State.setPatrol_obj ..) _, State.setPatrol_due ..⟩

/-! ## Quarantine (R372) -/

/-- A tile in the region, at the address of the tile that `addr` lies in. -/
def BadTile.here (region : Nat) (addr : BitVec 64) (y : BadTile) : Bool :=
  y.region == region && y.addr / 256 == tileOffset addr.toNat / 256

theorem BadTile.here_iff {region : Nat} {addr : BitVec 64} {y : BadTile} :
    y.here region addr = true ↔ y.region = region ∧ y.addr / 256 = tileOffset addr.toNat / 256 := by
  simp [BadTile.here]

/-- After the tiles of a place are marked, every tile there bears the mark. -/
theorem BadTile.marked_of_mem {p q : BadTile → Bool} {f : BadTile → BadTile} {l : List BadTile}
    (hmark : ∀ u, q (f u) = true) {y : BadTile}
    (hy : y ∈ l.map fun u => if p u then f u else u) (hp : p y = true) : q y = true := by
  obtain ⟨u, -, rfl⟩ := List.mem_map.1 hy
  split at hp
  · next hu => rw [if_pos hu]; exact hmark u
  · next hu => exact absurd hp hu

/-- The tiles of the place retired. -/
def State.retireTiles (s : State) (region : Nat) (addr : BitVec 64) : State :=
  { s with mem := { s.mem with tiles := s.mem.tiles.map fun u => if u.here region addr then { u with retired := true } else u } }

section
variable {region : Nat} {addr : BitVec 64} {x : BadTile}
  (hfind : s.mem.tiles.find? (fun y => y.region == region && y.addr / 256 == tileOffset addr.toNat / 256) = some x)
  (hfreed : x.freed = false) (hretired : x.retired = false)
include hfind hfreed hretired

theorem exec_quarantineComplete_frees (hagain : x.again = false) : exec (.quarantineComplete region addr) s = .next
    { s with mem := { s.mem with tiles := s.mem.tiles.map fun u => if u.here region addr then { u with freed := true } else u } } := by
  show execQuarantineComplete region addr s = _
  simp only [execQuarantineComplete, hfind, hfreed, hretired, hagain]
  rfl

theorem exec_quarantineComplete_retires (hagain : x.again = true) (hroom : s.retiredIn region < 256) :
    exec (.quarantineComplete region addr) s = .next (((s.retireTiles region addr).putN (Obj.tiles_retired_region (region - 1))
      ((s.retireTiles region addr).retiredIn region)).log 0 0x1602 (beNat 1 region ++ beNat 8 addr.toNat)) := by
  show execQuarantineComplete region addr s = _
  simp only [execQuarantineComplete, hfind, hfreed, hretired, hagain, hroom]
  rfl

end

/-- Settles O21: a patrol read by the tile's check, a write's check values along the tiles it touches, quarantine by the tile's
record. -/
theorem tileCommands : Obligations.TileCommands := by
  refine ⟨?pass, fun s dram hdue => s.patrolEnd_counts dram hdue, ?fails, ?dram, ?written, ?others, ?freed, ?retired, fun s => rfl⟩
  case pass =>
    intro s region addr f h hlo hhi h1 h5 h7 hawake hpass
    constructor <;> rw [exec_patrolRead_sram hlo hhi h1 h5 h7 hawake, hpass] <;> rfl
  case fails =>
    intro s region addr f h hlo hhi h1 h5 h7 hawake hfail
    rw [exec_patrolRead_sram hlo hhi h1 h5 h7 hawake, hfail]
    rfl
  case dram =>
    intro s addr f h hawake
    constructor <;> intro hcheck <;> rw [exec_patrolRead (by decide) (by decide) hawake, hcheck] <;> rfl
  case written =>
    intro u sp x b hsorted k hk
    have hsum : sumOf ((u.write sp x b).sums sp) k = memCheck ((u.write sp x b).space sp) k := by
      rw [MemUnits.sums_write]
      exact sumOf_recheck_mem _ _ hsorted (.inl hk)
    exact ⟨hsum.trans (memCheck_eq _ k), beq_iff_eq.2 hsum.symm⟩
  case others =>
    intro u sp x b k hk
    rw [MemUnits.sums_write]
    exact sumOf_recheck_not_mem _ _ _ hk
  case freed =>
    intro s region addr x hfind hfreed hretired hagain
    refine ⟨_, exec_quarantineComplete_frees hfind hfreed hretired hagain, rfl, fun y hy hregion haddr => ?_⟩
    exact BadTile.marked_of_mem (q := BadTile.freed) (f := fun u => { u with freed := true }) (fun _ => rfl) hy (BadTile.here_iff.2 ⟨hregion, haddr⟩)
  case retired =>
    intro s region addr x hfind hfreed hretired hagain hroom
    refine ⟨_, exec_quarantineComplete_retires hfind hfreed hretired hagain hroom, ?_⟩
    obtain ⟨obj, journal, hlogged⟩ := ((s.retireTiles region addr).put_onlyLogged (Obj.tiles_retired_region (region - 1))
      (.num ((s.retireTiles region addr).retiredIn region))).trans
        (State.logAt_onlyLogged _ _ 0 0x1602 (beNat 1 region ++ beNat 8 addr.toNat))
    rw [State.log, State.putN, hlogged]
    refine .intro rfl fun y hy hregion haddr => ?_
    exact BadTile.marked_of_mem (q := BadTile.retired) (f := fun u => { u with retired := true }) (fun _ => rfl) hy
      (BadTile.here_iff.2 ⟨hregion, haddr⟩)

end Sys2Proof.Machine
end

section
/-! The big-number engine's other commands (R335, R336, R342, R343). -/

namespace Sys2Proof.Machine

open Sys2Proof.Safety

variable {s : State} {c : BnChain}

/-! ## Queues and statuses -/

theorem Vector.get_set_same {α : Type} (v : Vector α 4) (q : Fin 4) (x : α) : (v.set q x)[q] = x := by simp

theorem Vector.get_set_ne {α : Type} (v : Vector α 4) {q p : Fin 4} (h : p ≠ q) (x : α) : (v.set q x)[p] = v[p] := by
  simp [Fin.val_inj, Ne.symm h]

/-! ## The end of a chain (R336, R342) -/

/-- The engine once the chain running has ended with a status. -/
def BigNum.ended (b : BigNum) (c : BnChain) (st : Nat) : BigNum := { b with cur := none, status := b.status.set c.queue (some st) }

theorem State.bnEnd_frame (h : s.bn.cur = some c) (st : Nat) :
    ∃ obj ctrs, s.bnEnd st = { s with obj, ctrs, bn := s.bn.ended c st } := by
  unfold State.bnEnd
  simp only [h]
  split
  · exact ⟨_, _, rfl⟩
  · split <;> exact ⟨_, _, rfl⟩

theorem State.bnEnd_bn (h : s.bn.cur = some c) (st : Nat) : (s.bnEnd st).bn = s.bn.ended c st := by
  obtain ⟨obj, ctrs, he⟩ := State.bnEnd_frame h st
  rw [he]

/-- A torn destination changes memory alone. -/
theorem State.bnTorn_bn (s : State) (d : BnDesc) : (s.bnTorn d).bn = s.bn := by
  have stores (l : List Nat) (m : Nat) (r : Bytes) (u : State) : (l.foldl (fun (s : State) k =>
      if bit m k then s.bnWrite (d.d + 8 * k) (field r (8 * k) 8) else s) u).bn = u.bn := by
    induction l generalizing u with
    | nil => rfl
    | cons k l ih =>
      refine (ih _).trans ?_
      dsimp only
      split <;> rfl
  unfold State.bnTorn
  split
  · rfl
  · exact stores _ _ _ _

/-- The engine with its accumulator and buffers cleared. -/
def BigNum.cleared (b : BigNum) : BigNum :=
  { b with acc := 0, accKey := false, bufA := 0, aKey := false, bufN := 0, nKey := false, nPrime := 0 }

theorem State.bnStop_bn (h : s.bn.cur = some c) (st : Nat) : (s.bnStop st).bn = (s.bn.ended c st).cleared := by
  have htorn : (s.bnTorn (s.bnDesc c)).bn.cur = some c := by rw [State.bnTorn_bn, h]
  unfold State.bnStop
  simp only [h, State.log_bn, State.bump_bn, State.bnEnd_bn htorn, State.bnTorn_bn]
  rfl

/-! ## Posting a chain (R335) -/

theorem State.bnPost_frame (s : State) (q : Fin 4) (a : Nat) (w : List (Nat × Bytes)) :
    ∃ mem, s.bnPost q a w = { s with mem, bn := { s.bn with queues := s.bn.queues.set q (s.bn.queues[q] ++ [a]) } } := by
  have stores (l : List (Nat × Bytes)) (u : State) : ∃ mem, l.foldl (fun (s : State) w =>
      if s.rangeOk (w.1, w.2.length) then s.bnWrite w.1 w.2 else s) u = { u with mem } := by
    induction l generalizing u with
    | nil => exact ⟨_, rfl⟩
    | cons w l ih =>
      obtain ⟨mem, hmem⟩ : ∃ mem, (if u.rangeOk (w.1, w.2.length) then u.bnWrite w.1 w.2 else u) = { u with mem } := by
        split
        · exact ⟨_, rfl⟩
        · exact ⟨_, rfl⟩
      rw [List.foldl_cons, hmem]
      exact ih _
  obtain ⟨mem, hmem⟩ := stores w s
  refine ⟨mem, ?_⟩
  unfold State.bnPost
  rw [hmem]

/-! ## The three operations (R332, R370) -/

/-- The three operations run the descriptor in progress. -/
theorem exec_bnOperation {bad : Option (Nat × Byte)} {p : Nat × Instr}
    (hp : p ∈ [(1, Instr.rowMac bad), (2, .product bad), (3, .montRow bad)]) : exec p.2 s = .next (s.bnRun p.1 bad) := by
  simp only [List.mem_cons, List.not_mem_nil, or_false] at hp
  rcases hp with rfl | rfl | rfl
  · exact (show execRowMac bad s = _ from rfl)
  · exact (show execProduct bad s = _ from rfl)
  · exact (show execMontRow bad s = _ from rfl)

theorem State.bnRun_idle (h : s.bn.cur = none) (op : Nat) (bad : Option (Nat × Byte)) : s.bnRun op bad = s := by
  simp only [State.bnRun, h]

section
variable (hawake : s.awake 7 = true) (hcur : s.bn.cur = some c) {bad : Option (Nat × Byte)}
include hawake hcur

theorem State.bnRun_badSource {a : Nat} (h : s.badSource bad c (s.bnDesc c) = some a) :
    s.bnRun (s.bnDesc c).op bad = (s.bnEnd 4).bnMismatch a := by
  simp only [State.bnRun, hcur, h]
  exact if_neg (by simp [hawake])

theorem State.bnRun_badTarget {a : Nat} (hsource : s.badSource bad c (s.bnDesc c) = none)
    (h : s.badTarget bad (s.bnDesc c) = some a) : s.bnRun (s.bnDesc c).op bad = s.bnMismatch a := by
  simp only [State.bnRun, hcur, hsource, h]
  exact if_neg (by simp [hawake])

theorem State.bnRun_executes (hsource : s.badSource bad c (s.bnDesc c) = none) (htarget : s.badTarget bad (s.bnDesc c) = none) :
    s.bnRun (s.bnDesc c).op bad = s.bnExecute c (s.bnDesc c) := by
  simp only [State.bnRun, hcur, hsource, htarget]
  exact if_neg (by simp [hawake])

end

/-! ## BN_ABORT (R342) -/

/-- The engine once a queue's waiting chains have ended with status 1. -/
def BigNum.withdrawn (b : BigNum) (q : Fin 4) : BigNum := { b with queues := b.queues.set q [], status := b.status.set q (some 1) }

theorem State.bnAbort_running (h : s.bn.cur = some c) : (s.bnAbort c.queue).bn =
    if (s.bn.queues[c.queue]).isEmpty then (s.bn.ended c 1).cleared else (s.bn.ended c 1).cleared.withdrawn c.queue := by
  rw [← State.bnStop_bn h]
  unfold State.bnAbort
  simp only [h, beq_self_eq_true, if_true, Bool.not_eq_true']
  cases (s.bn.queues[c.queue]).isEmpty <;> rfl

theorem State.bnAbort_queued (h : s.bn.cur = none) {q : Fin 4} (hq : (s.bn.queues[q]).isEmpty = false) :
    (s.bnAbort q).bn = s.bn.withdrawn q ∧ (s.bnAbort q).mem = s.mem := by
  unfold State.bnAbort
  simp only [h, hq, Bool.not_false, if_true, Bool.false_eq_true, if_false, State.log_bn, State.log_mem]
  exact .intro rfl rfl

theorem State.bnAbort_none (h : s.bn.cur = none) {q : Fin 4} (hq : (s.bn.queues[q]).isEmpty = true) : s.bnAbort q = s := by
  unfold State.bnAbort
  simp only [h, hq, Bool.not_true, if_false, Bool.false_eq_true]

/-- The chain in progress and the queued ones end with status 1; no other queue is touched. -/
theorem State.bnAbort_ends (h : s.bn.cur = some c) : (s.bnAbort c.queue).bn.cur = none ∧ (s.bnAbort c.queue).bn.status[c.queue] = some 1
    ∧ (s.bnAbort c.queue).bn.acc = 0 ∧ (s.bnAbort c.queue).bn.bufA = 0 ∧ (s.bnAbort c.queue).bn.bufN = 0
    ∧ (s.bnAbort c.queue).bn.queues[c.queue] = []
    ∧ ∀ q : Fin 4, q ≠ c.queue → (s.bnAbort c.queue).bn.queues[q] = s.bn.queues[q] ∧ (s.bnAbort c.queue).bn.status[q] = s.bn.status[q] := by
  rw [State.bnAbort_running h]
  split
  · next hempty =>
    exact ⟨rfl, Vector.get_set_same .., rfl, rfl, rfl, List.isEmpty_iff.1 hempty, fun q hq => ⟨rfl, Vector.get_set_ne _ hq _⟩⟩
  · exact ⟨rfl, Vector.get_set_same .., rfl, rfl, rfl, Vector.get_set_same ..,
      fun q hq => ⟨Vector.get_set_ne _ hq _, (Vector.get_set_ne _ hq _).trans (Vector.get_set_ne _ hq _)⟩⟩

/-! ## BN_SELFTEST (R343) -/

/-- The engine once its self-test has ended. -/
def BigNum.tested (b : BigNum) (pass : Bool) : BigNum := { b with test := none, failed := !pass }

/-- The result shown, then the engine's state. -/
def State.tested (s : State) (pass : Bool) : State :=
  ({ s with bn := s.bn.tested pass } : State).putB Obj.bn_selftest false |>.putN Obj.bn_selftest_result (if pass then 1 else 2)

theorem exec_bnSelftest (hawake : s.awake 7 = true) {cause : Nat} (htest : s.bn.test = some cause) (hcur : s.bn.cur = none)
    (pass : Bool) : exec (.bnSelftest pass) s = .next ((((s.tested pass).putN Obj.bn_selftest_time (s.tested pass).time).putN Obj.bn_state
      (if pass then 0 else 3)).log 0 0x5803 (be 1 (if pass then 1 else 2) ++ beNat 1 cause)) := by
  show execBnSelftest pass s = _
  simp only [execBnSelftest, htest, hawake, hcur]
  cases pass <;> simp [State.bnShow, State.tested, BigNum.tested, hcur]

theorem State.tested_shows (hwf : Wf s) (pass : Bool) (time : Int) (shown : Int) (data : Bytes) :
    let t := (((s.tested pass).putN Obj.bn_selftest_time time).putN Obj.bn_state shown).log 0 0x5803 data
    t.bn.test = none ∧ t.bn.failed = (!pass) ∧ t.flag Obj.bn_selftest = false
      ∧ t.nn Obj.bn_selftest_result = (if pass then 1 else 2) ∧ t.nn Obj.bn_state = shown.toNat ∧ t.mem = s.mem := by
  intro t
  have hstored : storeWf (({ s with bn := s.bn.tested pass } : State).putB Obj.bn_selftest false).obj = true := State.storeWf_putB hwf.1 _ _
  have hlog : t.obj = (((s.tested pass).putN Obj.bn_selftest_time time).putN Obj.bn_state shown).obj := State.log_obj _ _ _ _ (by decide)
  have hbn : t.bn = s.bn.tested pass := State.log_bn _ _ _ _
  refine ⟨by rw [hbn]; rfl, by rw [hbn]; rfl, ?_, ?_, ?_, State.log_mem _ _ _ _⟩
  · rw [State.flag_of_obj hlog, State.flag_putN_ne _ _ (by decide), State.flag_putN_ne _ _ (by decide)]
    exact (State.flag_putN_ne _ _ (by decide)).trans (State.flag_putB_same hwf.1 _ _)
  · rw [State.nn_of_obj hlog, State.nn_putN_ne _ (by decide), State.nn_putN_ne _ (by decide)]
    refine (State.nn_putN_same hstored _ _).trans ?_
    cases pass <;> rfl
  · rw [State.nn_of_obj hlog]
    exact State.nn_putN_same (State.storeWf_putN (State.storeWf_putN hstored _ _) _ _) _ _

/-- Settles O42: chain starts by the engine's block, a failed tile by the checks before the operation, aborts by whether the
queue's chain runs, the self-test by its outcome. -/
theorem bigNumberCommands : Obligations.BigNumberCommands := by
  refine ⟨?take, ?post, ?asleep, ?source, ?target, ?idle, ?abort, ?abortQueued, ?abortNone, ?test, ?noTest⟩
  case take =>
    intro s hawake hblock
    show execBnChainStart none s = _
    simp [execBnChainStart, hawake, hblock]
  case post =>
    intro s q a w hawake hup hblock
    obtain ⟨mem, hpost⟩ := s.bnPost_frame q a w
    refine ⟨s.bnPost q a w, ?_, ?_⟩
    · show execBnChainStart (some (q, a, w)) s = _
      have hbusy : (s.bnPost q a w).blockBusy 0x0400 = true := by rw [hpost]; exact hblock
      simp [execBnChainStart, hawake, hup, hbusy]
    · rw [hpost]
      exact .intro (Vector.get_set_same ..) ⟨rfl, rfl⟩
  case asleep =>
    intro s p hasleep
    show execBnChainStart p s = _
    simp [execBnChainStart, hasleep]
  case source =>
    intro s c bad a hawake hcur hsource p hp hop
    rw [exec_bnOperation hp, ← hop, State.bnRun_badSource hawake hcur hsource]
  case target =>
    intro s c bad a hawake hcur hsource htarget p hp hop
    rw [exec_bnOperation hp, ← hop, State.bnRun_badTarget hawake hcur hsource htarget]
  case idle =>
    intro s bad hcur
    have hall (p : Nat × Instr) (hp : p ∈ [(1, Instr.rowMac bad), (2, .product bad), (3, .montRow bad)]) : exec p.2 s = .next s := by
      rw [exec_bnOperation hp, State.bnRun_idle hcur]
    exact ⟨hall (1, .rowMac bad) (by simp), hall (2, .product bad) (by simp), hall (3, .montRow bad) (by simp)⟩
  case abort =>
    intro s c hawake hcur
    exact ⟨_, congrArg Host.Outcome.next (if_pos hawake), State.bnAbort_ends hcur⟩
  case abortQueued =>
    intro s q hawake hcur hqueued
    refine ⟨_, congrArg Host.Outcome.next (if_pos hawake), ?_⟩
    obtain ⟨hbn, hmem⟩ := State.bnAbort_queued hcur (q := q) (by simpa using hqueued)
    rw [hbn]
    exact ⟨Vector.get_set_same .., Vector.get_set_same .., hmem, rfl⟩
  case abortNone =>
    intro s q hcur hempty
    show execBnAbort q s = _
    rw [execBnAbort, State.bnAbort_none hcur (by simp [hempty]), ite_self]
  case test =>
    intro s pass cause hwf hawake htest hcur
    refine ⟨_, exec_bnSelftest hawake htest hcur pass, ?_⟩
    obtain ⟨hnone, hfailed, hflag, hresult, hstate, hmem⟩ := State.tested_shows hwf pass (s.tested pass).time (if pass then 0 else 3)
      (be 1 (if pass then 1 else 2) ++ beNat 1 cause)
    refine ⟨hnone, hfailed, hflag, hresult, hstate.trans ?_, hmem⟩
    cases pass <;> rfl
  case noTest =>
    intro s pass htest
    show execBnSelftest pass s = _
    simp only [execBnSelftest, htest]

end Sys2Proof.Machine
end

section
/-! The big-number engine's results (R332, R337, R370). -/

namespace Sys2Proof.Machine

open Sys2Proof.Safety

/-! ## Reading what was written -/

theorem memGet_write_in (b : Bytes) {m : Memory} (h : memWf m = true) (x : Nat) {i : Nat} (hi : i < b.length) :
    memGet (memWrite m x b) (x + i) = b[i] := by
  induction b generalizing m x i with
  | nil => cases hi
  | cons v r ih =>
    cases i with
    | zero => exact (memGet_write_out r (.inl (Nat.lt_succ_self x))).trans (memGet_put_same x v h)
    | succ i =>
      have htail := ih (memWf_put x v h) (x + 1) (Nat.lt_of_succ_lt_succ hi)
      rw [Nat.add_right_comm] at htail
      exact htail

theorem memRead_write_same {m : Memory} (h : memWf m = true) (x : Nat) (b : Bytes) :
    memRead (memWrite m x b) x b.length = b := by
  refine List.ext_getElem (memRead_length _ _ _) fun i hi _ => ?_
  rw [memRead_length] at hi
  simp only [memRead, List.getElem_map, List.getElem_range]
  exact memGet_write_in b h x hi

theorem MemUnits.space_write_ne (u : MemUnits) {sp tgt : Nat} (hsp : sp ≤ 2) (htgt : tgt ≤ 2) (hne : sp ≠ tgt) (x : Nat) (b : Bytes) :
    (u.write tgt x b).space sp = u.space sp := by
  unfold MemUnits.write MemUnits.space
  split_ifs <;> grind

/-- A write leaves every byte outside its range as it was. -/
theorem MemUnits.get_write_out (u : MemUnits) {sp tgt : Nat} (hsp : sp ≤ 2) (htgt : tgt ≤ 2) {a x : Nat} {b : Bytes}
    (h : ¬ (sp = tgt ∧ a ≤ x ∧ x < a + b.length)) : memGet ((u.write tgt a b).space sp) x = memGet (u.space sp) x := by
  by_cases hsame : sp = tgt
  · subst hsame
    rw [MemUnits.space_write]
    exact memGet_write_out b (by omega)
  · rw [MemUnits.space_write_ne u hsp htgt hsame]

theorem MemUnits.space_wf {u : MemUnits} (h : memWf u.sram = true ∧ memWf u.dram = true ∧ memWf u.key = true) (sp : Nat) :
    memWf (u.space sp) = true := by
  obtain ⟨hsram, hdram, hkey⟩ := h
  unfold MemUnits.space
  split_ifs <;> assumption

/-! ## A descriptor executed (R332) -/

section
variable (s : State) (c : BnChain) (d : BnDesc)

/-- The engine once a descriptor's operands and sum are in: buffers, accumulator, marks, cycles, signals. -/
def State.bnFilled : BigNum :=
  let x := s.bnOperands d
  let marks := s.bnMarks d
  { s.bn with
    acc := d.sum x, accKey := marks.2.2, bufA := x.1, aKey := marks.1, bufN := x.2.2.2.1, nPrime := x.2.2.2.2, nKey := marks.2.1,
    cycles := s.bn.cycles + (if c.index = 0 then 0 else 4) + d.cycles, keyCycles := s.bn.keyCycles + d.keyCycles,
    signals := if d.signals then s.bn.signals.set c.queue (s.bn.signals[c.queue] + 1) else s.bn.signals }

/-- The memories once a descriptor's destination is written. -/
def State.bnStored : MemUnits :=
  if d.writes then s.mem.write (spaceOf d.d) (byteOf d.d) (beNat (8 * d.lenC) (d.result (s.bnOperands d))) else s.mem

/-- The state once the descriptor is done, before its chain goes on or ends. -/
def State.bnDone : State := ({ s with mem := s.bnStored d, bn := s.bnFilled c d } : State).bump Obj.bn_descriptors

/-- The chain as it stands at the linked descriptor. -/
def BnChain.follow : BnChain := { c with addr := d.link, index := c.index + 1, prevA := some d.lenA }

theorem State.bnExecute_eq : s.bnExecute c d = if d.linked then
      ({ s.bnDone c d with bn := { s.bnFilled c d with cur := some (c.follow d) } } : State).bnFetch
    else (s.bnDone c d).bnEnd 0 := by
  unfold State.bnExecute State.bnDone State.bnFilled State.bnStored
  cases d.writes <;> cases d.signals <;> rfl

end

section
variable {s : State} {c : BnChain} {d : BnDesc}

/-- The chain stays at its descriptor, or is rejected there. -/
theorem State.bnFetch_or_ends (h : s.bn.cur = some c) : s.bnFetch = s ∨ ∃ st, st ≠ 0 ∧ s.bnFetch = s.bnEnd st := by
  unfold State.bnFetch
  simp only [h]
  split
  · exact .inr ⟨6, by decide, rfl⟩
  · split
    · exact .inr ⟨2, by decide, rfl⟩
    · split
      · exact .inl rfl
      · next hst => exact .inr ⟨_, hst, rfl⟩

/-- How the chain stands after a descriptor: ended with status 0, at the linked descriptor, or rejected there. -/
def ChainGoesOn (s : State) (c : BnChain) (d : BnDesc) (cur : Option BnChain) (status : Vector (Option Nat) 4) : Prop :=
  (d.linked = false → cur = none ∧ status[c.queue] = some 0)
  ∧ (d.linked = true → (cur = some (c.follow d) ∧ status = s.bn.status) ∨ (cur = none ∧ ∃ st, status[c.queue] = some st ∧ st ≠ 0))

theorem State.bnExecute_frame (hcur : s.bn.cur = some c) : ∃ obj ctrs cur status,
    s.bnExecute c d = { s with mem := s.bnStored d, obj, ctrs, bn := { s.bnFilled c d with cur, status } }
    ∧ ChainGoesOn s c d cur status := by
  rw [State.bnExecute_eq]
  by_cases hlinked : d.linked = true
  · rw [if_pos hlinked]
    set u : State := { s.bnDone c d with bn := { s.bnFilled c d with cur := some (c.follow d) } }
    rcases State.bnFetch_or_ends (s := u) (c := c.follow d) rfl with hstays | ⟨st, hst, hends⟩
    · exact ⟨_, _, _, _, hstays, by simp [hlinked], fun _ => .inl ⟨rfl, rfl⟩⟩
    · obtain ⟨obj, ctrs, hend⟩ := State.bnEnd_frame (s := u) (c := c.follow d) rfl st
      exact ⟨obj, ctrs, _, _, hends.trans hend, by simp [hlinked], fun _ => .inr ⟨rfl, st, Vector.get_set_same .., hst⟩⟩
  · rw [if_neg hlinked]
    obtain ⟨obj, ctrs, hend⟩ := State.bnEnd_frame (s := s.bnDone c d) (c := c) hcur 0
    exact ⟨obj, ctrs, _, _, hend, fun _ => ⟨rfl, Vector.get_set_same ..⟩, fun h => absurd h hlinked⟩

end

/-! ## What the engine and the memories show afterwards -/

/-- The outcome of a descriptor with accumulator `v`, result `r` and `k` row cycles. -/
def BnOutcome (s : State) (c : BnChain) (d : BnDesc) (a n n' v r k : Nat) (t : State) : Prop :=
  t.bn.acc = v ∧ t.bn.bufA = a ∧ t.bn.bufN = n ∧ t.bn.nPrime = n'
    ∧ t.bn.cycles = s.bn.cycles + (if c.index = 0 then 0 else 4) + 6 + k
    ∧ t.bn.signals[c.queue] = s.bn.signals[c.queue] + (if bit d.flags 6 then 1 else 0)
    ∧ (d.writes = true → t.bnRead d.d (8 * d.lenC) = beNat (8 * d.lenC) r)
    ∧ (∀ sp x, sp ≤ 2 → ¬ (d.writes = true ∧ sp = spaceOf d.d ∧ byteOf d.d ≤ x ∧ x < byteOf d.d + 8 * d.lenC) →
        memGet (t.mem.space sp) x = memGet (s.mem.space sp) x)
    ∧ (d.linked = false → t.bn.cur = none ∧ t.bn.status[c.queue] = some 0)
    ∧ (d.linked = true → (t.bn.cur = some (c.follow d) ∧ t.bn.status = s.bn.status)
        ∨ (t.bn.cur = none ∧ ∃ st, t.bn.status[c.queue] = some st ∧ st ≠ 0))
    ∧ t.bn.queues = s.bn.queues ∧ t.tb = s.tb ∧ t.serve = s.serve

section
variable {s : State} {c : BnChain} {d : BnDesc}

theorem State.bnStored_read (hwf : Wf s) (hwrites : d.writes = true) :
    memRead ((s.bnStored d).space (spaceOf d.d)) (byteOf d.d) (8 * d.lenC) = beNat (8 * d.lenC) (d.result (s.bnOperands d)) := by
  have h := memRead_write_same (MemUnits.space_wf hwf.2 (spaceOf d.d)) (byteOf d.d) (beNat (8 * d.lenC) (d.result (s.bnOperands d)))
  rw [beNat_length] at h
  rw [State.bnStored, if_pos hwrites, MemUnits.space_write, h]

theorem State.bnStored_out (hspace : spaceOf d.d ≤ 2) {sp x : Nat} (hsp : sp ≤ 2)
    (hout : ¬ (d.writes = true ∧ sp = spaceOf d.d ∧ byteOf d.d ≤ x ∧ x < byteOf d.d + 8 * d.lenC)) :
    memGet ((s.bnStored d).space sp) x = memGet (s.mem.space sp) x := by
  unfold State.bnStored
  split
  · next hwrites =>
    exact MemUnits.get_write_out _ hsp hspace fun h => hout ⟨hwrites, by rwa [beNat_length] at h⟩
  · rfl

theorem State.bnFilled_signals : (s.bnFilled c d).signals[c.queue] = s.bn.signals[c.queue] + (if bit d.flags 6 then 1 else 0) := by
  show (if bit d.flags 6 then s.bn.signals.set c.queue (s.bn.signals[c.queue] + 1) else s.bn.signals)[c.queue] = _
  split
  · exact Vector.get_set_same ..
  · rfl

theorem State.bnExecute_outcome (hwf : Wf s) (hcur : s.bn.cur = some c) (hspace : spaceOf d.d ≤ 2) {a b cc n n' k : Nat}
    (hops : s.bnOperands d = (a, b, cc, n, n')) (hcycles : d.cycles = 6 + k) :
    BnOutcome s c d a n n' (d.sum (a, b, cc, n, n')) (d.result (a, b, cc, n, n')) k (s.bnExecute c d) := by
  obtain ⟨obj, ctrs, cur, status, hexec, hends, hlinks⟩ := State.bnExecute_frame (d := d) hcur
  rw [hexec, ← hops]
  refine ⟨rfl, congrArg (·.1) hops, congrArg (·.2.2.2.1) hops, congrArg (·.2.2.2.2) hops, ?_, State.bnFilled_signals,
    State.bnStored_read hwf, fun sp x hsp hout => State.bnStored_out hspace hsp hout, hends, hlinks, rfl, rfl, rfl⟩
  show s.bn.cycles + _ + d.cycles = _
  rw [hcycles]
  exact (Nat.add_assoc _ 6 k).symm

end

/-- Settles O40: the three operations execute the descriptor in progress; their sums, results and cycles are those of its
operation. -/
theorem bigNumberResults : Obligations.BigNumberResults := by
  intro s bad c d a b cc n n' hwf hawake hcur hd hspace hops hsource htarget rows done
  subst hd
  have runs (p : Nat × Instr) (hp : p ∈ [(1, Instr.rowMac bad), (2, .product bad), (3, .montRow bad)])
      (hop : (s.bnDesc c).op = p.1) : exec p.2 s = .next (s.bnExecute c (s.bnDesc c)) := by
    rw [exec_bnOperation hp, ← hop, State.bnRun_executes hawake hcur hsource htarget]
  refine ⟨fun hop => ?rowMac, fun hop => ?product, fun hop r hr => ?montRow⟩
  case rowMac =>
    have h := State.bnExecute_outcome hwf hcur hspace hops (k := rows) (by simp [BnDesc.cycles, hop, rows])
    simp only [BnDesc.sum, BnDesc.result, hop] at h
    exact ⟨_, runs (1, .rowMac bad) (by simp) hop, h⟩
  case product =>
    have h := State.bnExecute_outcome hwf hcur hspace hops (k := (s.bnDesc c).lenB * rows) (by simp [BnDesc.cycles, hop, rows])
    simp only [BnDesc.sum, BnDesc.result, hop] at h
    exact ⟨_, runs (2, .product bad) (by simp) hop, h⟩
  case montRow =>
    have h := State.bnExecute_outcome hwf hcur hspace hops (k := 2 * rows) (by simp [BnDesc.cycles, hop, rows])
    simp only [BnDesc.sum, BnDesc.result, hop] at h
    subst hr
    exact ⟨_, runs (3, .montRow bad) (by simp) hop, h⟩

end Sys2Proof.Machine
end

section
/-! NTS keys and NTS-KE (R328, R329, R434). -/

namespace Sys2Proof.Machine

open Sys2Proof.Safety

variable {s u : State}

/-! ## Rings and key slots -/

theorem ringIns_find_same (l : List (Nat × Ring)) (k : Nat) (x : Ring) : (ringIns l k x).find? (fun p => p.1 == k) = some (k, x) := by
  induction l with
  | nil => simp [ringIns]
  | cons p r ih =>
    unfold ringIns
    split_ifs with hlt heq
    · exact List.find?_cons_of_pos (beq_self_eq_true k)
    · exact List.find?_cons_of_pos (beq_self_eq_true k)
    · rw [List.find?_cons_of_neg (by simpa using heq), ih]

theorem ringIns_find_ne (l : List (Nat × Ring)) {j k : Nat} (h : j ≠ k) (x : Ring) :
    (ringIns l k x).find? (fun p => p.1 == j) = l.find? (fun p => p.1 == j) := by
  have hk : ¬ ((k, x).1 == j) = true := by simpa using Ne.symm h
  induction l with
  | nil => exact List.find?_cons_of_neg hk
  | cons p r ih =>
    unfold ringIns
    split_ifs with hlt heq
    · exact List.find?_cons_of_neg hk
    · rw [List.find?_cons_of_neg (p := fun p : Nat × Ring => p.1 == j) hk]
      exact (List.find?_cons_of_neg (by simpa [heq] using Ne.symm h)).symm
    · rw [List.find?_cons, List.find?_cons, ih]

theorem State.ring_setRing_same (s : State) (k : Nat) (x : Ring) : (s.setRing k x).ring k = x := by
  simp only [State.ring, State.setRing, ringIns_find_same]
  rfl

theorem State.ring_setRing_ne (s : State) {j k : Nat} (h : j ≠ k) (x : Ring) : (s.setRing k x).ring j = s.ring j := by
  simp only [State.ring, State.setRing, ringIns_find_ne _ h]

theorem State.ring_count (s : State) (blk : Fin 16) (code w : Nat) (k : Nat) : (s.count blk code w).ring k = s.ring k := rfl

theorem slotIns_find_same (l : List (Nat × Bytes)) (k : Nat) (x : Bytes) : (slotIns l k x).find? (fun p => p.1 == k) = some (k, x) := by
  induction l with
  | nil => simp [slotIns]
  | cons p r ih =>
    unfold slotIns
    split_ifs with hlt heq
    · exact List.find?_cons_of_pos (beq_self_eq_true k)
    · exact List.find?_cons_of_pos (beq_self_eq_true k)
    · rw [List.find?_cons_of_neg (by simpa using heq), ih]

theorem State.keySlot_setKeySlot (s : State) (k : Nat) (x : Bytes) : (s.setKeySlot k x).keySlot k = some x := by
  simp only [State.keySlot, State.setKeySlot, slotIns_find_same]
  rfl

/-! ## Cookie keys (R328) -/

theorem exec_cookieKeyRotate (hawake : s.awake 7 = true) (hkeys : s.sec.cookieKeys = true)
    (hnew : s.prot.keyIndex ≠ some s.keyIndexNow) :
    exec .cookieKeyRotate s = .next ((s.setKeyIndex s.keyIndexNow).log 0 0x5501 (beNat 2 (s.keyIndexNow % 32768))) := by
  show execCookieKeyRotate s = _
  rw [execCookieKeyRotate, if_neg (by simp [hawake, hkeys, hnew])]

theorem exec_ntsMasterKey (hup : s.firmwareUp = true) {key : Bytes} (hkey : key.length = 32) :
    exec (.ntsMasterKey key) s = .next (s.commitMaster key) :=
  congrArg Host.Outcome.next (if_pos (by simp [hup, hkey]))

theorem State.commitMaster_prot (s : State) (key : Bytes) : (s.commitMaster key).prot
    = { s.prot with master := key, masterOld := if s.prot.masterFrom.isSome then s.prot.masterOld else s.prot.master,
                    masterFrom := some (s.prot.keyIndex.getD 0 + 1) } :=
  State.log_prot ..

/-! ## Taking the frames of a connection (R266) -/

/-- What taking leaves alone. -/
theorem State.takeNtsKe_frame {mgmt : Bool} {p : Pkt} (h : s.takeNtsKe mgmt = some (p, u)) :
    ∃ serve ctrs, u = { s with serve, ctrs } := by
  unfold State.takeNtsKe at h
  dsimp only at h
  split at h
  · cases h
  · cases h
    exact ⟨_, _, rfl⟩

/-- The frame answered came from the ring; its connection's frames are gone from it. -/
theorem State.takeNtsKe_items {mgmt : Bool} {p : Pkt} (h : s.takeNtsKe mgmt = some (p, u)) :
    (∃ i ∈ (s.ring (if mgmt then 2 else 3)).items, i.pkt = p)
    ∧ (u.ring (if mgmt then 2 else 3)).items.length < (s.ring (if mgmt then 2 else 3)).items.length := by
  unfold State.takeNtsKe at h
  dsimp only at h
  generalize (if mgmt then 2 else 3) = k at h ⊢
  split at h
  · cases h
  · next i hfind =>
    have hmem : i ∈ (s.ring k).items := List.mem_of_find?_eq_some hfind
    have hnts := List.find?_some hfind
    cases h
    constructor
    · refine ⟨_, ?_, rfl⟩
      rcases List.mem_cons.1 (List.getLastD_mem_cons (l := (s.ring k).items.filter fun j =>
        isNtsKe (s.tpidOf j.pkt) j.pkt.data && s.sameConn i.pkt j.pkt) (a := i)) with heq | hlast
      · rw [heq]
        exact hmem
      · exact (List.mem_filter.1 hlast).1
    · rw [State.ring_count, State.ring_setRing_same]
      refine List.length_filter_lt_length_iff_exists.2 ⟨i, hmem, ?_⟩
      simp [hnts, State.sameConn]

theorem State.takeNtsKe_ring_ne {mgmt : Bool} {p : Pkt} (h : s.takeNtsKe mgmt = some (p, u)) :
    u.ring (if mgmt then 3 else 2) = s.ring (if mgmt then 3 else 2) := by
  unfold State.takeNtsKe at h
  dsimp only at h
  split at h
  · cases h
  · cases h
    rw [State.ring_count]
    exact State.ring_setRing_ne _ (by cases mgmt <;> decide) _

/-! ## Posting an answer (R266) -/

theorem State.postMgmt_prot (s : State) (l : List Bytes) : (s.postMgmt l).prot = s.prot := by
  have posted (l : List Bytes) (u : State) : (l.foldl (fun (s : State) b =>
      let (f, s) := s.describe 129 { cls := 3, data := b }
      ({ s with serve := { s.serve with ring129 := s.serve.ring129 ++ [f] } } : State).count 8 0x09) u).prot = u.prot := by
    induction l generalizing u with
    | nil => rfl
    | cons b l ih => exact (ih _).trans (u.describe_answered 129 { cls := 3, data := b }).prot
  unfold State.postMgmt
  extract_lets v
  have hv : v.prot = s.prot := posted l s
  clear_value v
  unfold State.release129
  split_ifs <;> exact hv

theorem State.postAnswer_prot (s : State) (port : Nat) (l : List Bytes) : (s.postAnswer port l).prot = s.prot := by
  unfold State.postAnswer
  split
  · next hport =>
    induction l generalizing s with
    | nil => rfl
    | cons b l ih => exact (ih _).trans (State.post_prot ..)
  · exact s.postMgmt_prot l

theorem State.postKe_prot (s : State) (p : Pkt) : (s.postKe p).prot = s.prot := by
  unfold State.postKe
  split
  · rfl
  · exact State.postAnswer_prot ..

/-- Octets of one segment are sent as one segment. -/
theorem Segment4460.send_one (x : Segment4460) (mac b : Bytes) (seq : Nat) {data : Bytes} (h : data.length < 1220) :
    x.send mac b (data.length / 1220 + 1) seq data = [x.answer mac b seq 0x18 (data.take 1220)] := by
  rw [Nat.div_eq_of_lt h]
  simp [Segment4460.send, h.le]

/-- An alert goes out as one frame. -/
theorem State.postKe_egress {p : Pkt} {r : KeReply} {a : Nat} (hout : s.prot.keOut = some r) (ha : r.alert = some a)
    (g : p.port < 64) : (s.postKe p).ports[(⟨p.port, g⟩ : Fin 64)].egress.length
      = s.ports[(⟨p.port, g⟩ : Fin 64)].egress.length + 1 := by
  have hone (draw : Nat) : (keOctets r draw).length < 1220 := by simp [keOctets, ha]
  have hpost (v : State) (b : Bytes) : v.postAnswer p.port [b] = v.post ⟨p.port, g⟩ { cls := 3, data := b } := dif_pos g
  unfold State.postKe
  simp only [hout, Segment4460.send_one _ _ _ _ (hone _), hpost]
  rw [State.post_egress _ _ rfl, List.length_append]
  rfl

/-! ## The exchange (R329) -/

/-- An alert is the exchange's answer; the connection is closed; no port is touched. -/
theorem State.keAlert_facts (s : State) (conn alert : Nat) :
    (s.keAlert conn alert).prot.keOut = some { conn, alert := some alert }
    ∧ (s.keAlert conn alert).prot.keConns = s.prot.keConns.filter (fun c => c.id ≠ conn)
    ∧ (s.keAlert conn alert).ports = s.ports := by
  unfold State.keAlert
  dsimp only
  split
  · exact ⟨rfl, rfl, rfl⟩
  · rw [State.log_prot, State.log_ports]
    exact ⟨rfl, rfl, rfl⟩

/-- The connection of an exchange is noted, with the instant. -/
def State.keAdmitted (s : State) (conn : Nat) : State :=
  { s with prot := { s.prot with keConns := (s.prot.keConns.filter fun c => c.id ≠ conn) ++ [{ id := conn, lastAt := s.now }] } }

/-- NTS-KE is served: firmware and the domains are up, serving runs. -/
def State.servesKe (s : State) : Bool :=
  s.firmwareUp && s.awake 7 && s.serveAwake && !s.serve.stopped && s.sys.warmAt.isNone

theorem State.servesKe_iff : s.servesKe = true ↔ s.firmwareUp = true ∧ s.awake 7 = true ∧ s.serveAwake = true
    ∧ s.serve.stopped = false ∧ s.sys.warmAt = none := by
  simp [State.servesKe, and_assoc]

section
variable {h : KeHello} {p : Pkt}

theorem exec_ntsKeHandshake_none (htake : s.takeNtsKe h.mgmt = none) : exec (.ntsKeHandshake h) s = .next s := by
  show execNtsKeHandshake h s = _
  simp only [execNtsKeHandshake, htake]
  exact ite_self _

theorem exec_ntsKeHandshake_full (hserves : s.servesKe = true) (htake : s.takeNtsKe h.mgmt = some (p, u))
    (hfull : s.nn Obj.nts_ke_max_sessions ≤ (s.prot.keConns.filter fun c => c.id ≠ h.conn).length) :
    exec (.ntsKeHandshake h) s = .next (u.postReset p) := by
  have hobj : u.obj = s.obj := by obtain ⟨_, _, rfl⟩ := State.takeNtsKe_frame htake; rfl
  rw [← State.nn_of_obj hobj] at hfull
  show execNtsKeHandshake h s = _
  unfold execNtsKeHandshake
  rw [if_neg (by simpa [State.servesKe] using hserves)]
  simp only [htake]
  exact if_pos hfull

theorem exec_ntsKeHandshake_admits (hserves : s.servesKe = true) (htake : s.takeNtsKe h.mgmt = some (p, u))
    (hroom : (s.prot.keConns.filter fun c => c.id ≠ h.conn).length < s.nn Obj.nts_ke_max_sessions) :
    exec (.ntsKeHandshake h) s = .next (((u.keAdmitted h.conn).keExchange h).postKe p) := by
  obtain ⟨serve, ctrs, hframe⟩ := State.takeNtsKe_frame htake
  have hobj : u.obj = s.obj := by rw [hframe]
  have hprot : u.prot = s.prot := by rw [hframe]
  rw [← State.nn_of_obj hobj, ← hprot] at hroom
  show execNtsKeHandshake h s = _
  unfold execNtsKeHandshake
  rw [if_neg (by simpa [State.servesKe] using hserves)]
  simp only [htake, ← hprot]
  exact if_neg (Nat.not_le.2 hroom)

end

section
variable {h : KeHello}

theorem State.keExchange_failed (hfailed : s.bn.failed = true) : s.keExchange h = s.keAlert h.conn 80 :=
  if_pos (by simp [hfailed])

variable (hbn : s.bn.failed = false) (hsec : s.sec.storageOff = false) {key : Bytes} (hkey : s.keySlot 1 = some key) {alg : Nat}
  (halg : s.flash.keKey.map (fun p => p.2) = some alg)
include hbn hsec hkey halg

theorem State.keExchange_oldTls (htls : h.tls13 = false) : s.keExchange h = s.keAlert h.conn 70 := by
  simp [State.keExchange, hbn, hsec, hkey, halg, htls]

theorem State.keExchange_noAlpn (htls : h.tls13 = true) (halpn : h.alpn = false) : s.keExchange h = s.keAlert h.conn 120 := by
  simp [State.keExchange, hbn, hsec, hkey, halg, htls, halpn]

/-- An exchange with everything in place ends in its answer. -/
theorem State.keExchange_answers (htls : h.tls13 = true) (halpn : h.alpn = true) (hchain : allZero (s.chain 0x8344) = false)
    {suite group : Nat} {point : Bytes} (hsuite : h.suites.find? (fun c => c == 0x1301 || c == 0x1302) = some suite)
    (hshare : h.shares.find? (fun g => g.1 ≤ 2) = some (group, point)) (hsig : h.sigs.contains alg = true) (hgood : h.sigBad = false)
    {priv : Bytes} {v : State} (hpriv : s.random (if group = 2 then 48 else 32) = (priv, v)) (hpoint : pointOk group priv point = true)
    {draw : Bytes} {x : State} (hdraw : v.random 48 = (draw, x)) :
    ∃ o, (s.keExchange h).prot.keOut = some o ∧ o.conn = h.conn ∧ o.suite = suite ∧ o.group = group
      ∧ o.signature = tlsSignature alg (signWith alg key (verifyContent suite h.transcript) draw)
      ∧ o.records = (x.keAnswer h.records suite (keMaster suite alg
          (if group = 0 then x25519 priv point else ecdh group priv point) h.transcript o.signature)).1 := by
  have hmem : alg ∈ h.sigs := List.contains_iff_mem.1 hsig
  simp [State.keExchange, hbn, hsec, hkey, halg, htls, halpn, hchain, hsuite, hshare, hmem, hpriv, hpoint, hgood, hdraw]

end

end Sys2Proof.Machine
end

section
/-! NTS_KE_KEYGEN (R350, R434), and the obligation of the NTS commands. -/

namespace Sys2Proof.Machine

open Sys2Proof.Safety

variable {s u : State}

/-! ## The key of slot 1 -/

/-- The key drawn is in its slot, its public key shown. -/
def State.keyed (s : State) (alg : Nat) (k : Bytes) : State := (s.setKeySlot 1 k).putO Obj.nts_ke_public_key (publicKey alg k)

/-- The key's record is written, the chain's window zeroed, the request taken back. -/
def State.keyRecorded (s : State) (alg : Nat) (k : Bytes) : State :=
  ({ (s.random 12).2 with flash := { s.flash with keKey := some (sealRecord storageKey (s.random 12).1 Obj.nts_ke_keygen k, alg) } } : State).put
    (0x8344 * 256) (.num 0) |>.putB Obj.nts_ke_keygen false

theorem State.keGenerate_eq (hsec : s.sec.storageOff = false) {k : Bytes}
    (hdraw : s.random (if s.nn Obj.nts_ke_key_alg = 1 then 48 else 32) = (k, u)) :
    s.keGenerate = (u.keyed (s.nn Obj.nts_ke_key_alg) k).keyRecorded (s.nn Obj.nts_ke_key_alg) k := by
  have hu : u.sec.storageOff = false := by rw [← (Prod.mk.inj hdraw).2]; exact hsec
  have hstore : ((u.setKeySlot 1 k).putO Obj.nts_ke_public_key (publicKey (s.nn Obj.nts_ke_key_alg) k)).storeKey = some storageKey :=
    if_neg (by simp [State.setKeySlot, hu])
  simp only [State.keGenerate, hdraw, State.sealed, hstore]
  rfl

theorem State.keyRecorded_shows (hwf : storeWf u.obj = true) (alg : Nat) (k : Bytes) :
    let t := (u.keyed alg k).keyRecorded alg k
    t.keySlot 1 = some k ∧ t.octs Obj.nts_ke_public_key = publicKey alg k
      ∧ t.flash.keKey = some (sealRecord storageKey (u.random 12).1 Obj.nts_ke_keygen k, alg)
      ∧ t.flag Obj.nts_ke_keygen = false ∧ t.chain 0x8344 = [] := by
  intro t
  have hkeyed : storeWf (u.keyed alg k).obj = true := storeWf_put _ _ hwf
  have hchain : t.get (0x8344 * 256) = .num 0 := (State.get_putB_ne _ _ (by decide)).trans (State.get_put_same hkeyed ..)
  have hpublic : t.get Obj.nts_ke_public_key = .oct (publicKey alg k) :=
    ((State.get_putB_ne _ _ (by decide)).trans (State.get_put_ne _ _ (by decide))).trans (State.get_put_same hwf ..)
  refine ⟨State.keySlot_setKeySlot u 1 k, ?_, rfl, State.flag_putB_same (storeWf_put (0x8344 * 256) (.num 0) hkeyed) _ _, ?_⟩
  · rw [State.octs, hpublic]
  · rw [State.chain, hchain]
    rfl

/-! ## What an alert shows -/

/-- An alert is the answer, and goes out as one frame. -/
theorem State.postKe_keAlert (v : State) (conn alert : Nat) (p : Pkt) :
    ((v.keAlert conn alert).postKe p).prot.keOut = some { conn, alert := some alert }
    ∧ (((v.keAlert conn alert).postKe p).prot.keConns = v.prot.keConns.filter fun c => c.id ≠ conn)
    ∧ ∀ g : p.port < 64, ((v.keAlert conn alert).postKe p).ports[(⟨p.port, g⟩ : Fin 64)].egress.length
        = v.ports[(⟨p.port, g⟩ : Fin 64)].egress.length + 1 := by
  obtain ⟨hout, hconns, hports⟩ := v.keAlert_facts conn alert
  rw [State.postKe_prot]
  refine ⟨hout, hconns, fun g => ?_⟩
  rw [State.postKe_egress hout rfl g, hports]

/-- Settles O39: keys by their commands' equations, the exchange along its checks, the answer by the frame it came by. -/
theorem ntsCommands : Obligations.NtsCommands := by
  refine ⟨?rotate, ?same, ?master, ?masterDown, ?none, ?takes, ?full, ?alerts, ?failed, ?answers, ?idle, ?keygen, ?keygenDown⟩
  case rotate =>
    intro s hwf hawake hkeys hnew
    refine ⟨_, exec_cookieKeyRotate hawake hkeys hnew, ?_⟩
    generalize beNat 2 (s.keyIndexNow % 32768) = data
    have hprot : ((s.setKeyIndex s.keyIndexNow).log 0 0x5501 data).prot = (s.setKeyIndex s.keyIndexNow).prot := State.log_prot _ _ _ _
    have hobj := (s.setKeyIndex s.keyIndexNow).log_obj 0 0x5501 data (by decide)
    rw [hprot, State.nn_of_obj hobj, State.log_tb]
    exact ⟨rfl, State.nn_putN_same hwf.1 _ _, rfl, rfl, rfl⟩
  case same =>
    intro s hsame
    show execCookieKeyRotate s = _
    simp [execCookieKeyRotate, hsame]
  case master =>
    intro s key k hup hkey hindex
    refine ⟨_, exec_ntsMasterKey hup hkey, ?_⟩
    beta_reduce
    rw [State.commitMaster_prot, hindex]
    exact ⟨rfl, rfl, rfl, rfl⟩
  case masterDown => exact fun s key hdown => congrArg Host.Outcome.next (if_neg (by simp [hdown]))
  case none => exact fun s h => exec_ntsKeHandshake_none
  case takes =>
    intro s u h p htake
    obtain ⟨hmem, hlen⟩ := State.takeNtsKe_items htake
    have hprot : u.prot = s.prot := by obtain ⟨_, _, rfl⟩ := State.takeNtsKe_frame htake; rfl
    exact ⟨State.takeNtsKe_ring_ne htake, hmem, hprot, hlen⟩
  case full =>
    intro s u h p hup hawake hserve hstop hwarm htake hfull
    exact exec_ntsKeHandshake_full (State.servesKe_iff.2 ⟨hup, hawake, hserve, hstop, hwarm⟩) htake hfull
  case alerts =>
    intro s u h p key alg hup hawake hserve hstop hwarm htake hroom hbn hsec hkey halg
    have hexec := exec_ntsKeHandshake_admits (State.servesKe_iff.2 ⟨hup, hawake, hserve, hstop, hwarm⟩) htake hroom
    obtain ⟨serve, ctrs, rfl⟩ := State.takeNtsKe_frame htake
    refine ⟨fun htls => ⟨_, hexec, ?_⟩, fun htls halpn => ⟨_, hexec, ?_⟩⟩
    · rw [State.keExchange_oldTls (s := ({ s with serve, ctrs } : State).keAdmitted h.conn) hbn hsec hkey halg htls]
      obtain ⟨hout, -, hegress⟩ := State.postKe_keAlert (({ s with serve, ctrs } : State).keAdmitted h.conn) h.conn 70 p
      exact ⟨hout, hegress⟩
    · rw [State.keExchange_noAlpn (s := ({ s with serve, ctrs } : State).keAdmitted h.conn) hbn hsec hkey halg htls halpn]
      exact (State.postKe_keAlert _ h.conn 120 p).1
  case failed =>
    intro s u h p hup hawake hserve hstop hwarm htake hroom hbn
    have hexec := exec_ntsKeHandshake_admits (State.servesKe_iff.2 ⟨hup, hawake, hserve, hstop, hwarm⟩) htake hroom
    refine ⟨_, hexec, ?_⟩
    have hfailed : (u.keAdmitted h.conn).bn.failed = true := by obtain ⟨_, _, rfl⟩ := State.takeNtsKe_frame htake; exact hbn
    rw [State.keExchange_failed hfailed]
    obtain ⟨hout, hconns, -⟩ := State.postKe_keAlert (u.keAdmitted h.conn) h.conn 80 p
    refine ⟨hout, fun c hc => ?_⟩
    rw [hconns] at hc
    simpa using (List.mem_filter.1 hc).2
  case answers =>
    intro s u h p key point alg suite group hup hawake hserve hstop hwarm htake hroom hbn hsec hkey halg htls halpn hchain hsuite hshare
      hsig hgood priv v hpriv hpoint
    have hexec := exec_ntsKeHandshake_admits (State.servesKe_iff.2 ⟨hup, hawake, hserve, hstop, hwarm⟩) htake hroom
    refine ⟨_, hexec, ?_⟩
    obtain ⟨serve, ctrs, rfl⟩ := State.takeNtsKe_frame htake
    obtain ⟨o, hout, hconn, hosuite, hgroup, hosig, horec⟩ := State.keExchange_answers
      (s := ({ s with serve, ctrs } : State).keAdmitted h.conn) hbn hsec hkey halg htls halpn hchain hsuite hshare hsig hgood hpriv hpoint
      (draw := (v.random 48).1) (x := (v.random 48).2) rfl
    rw [State.postKe_prot]
    refine ⟨o, hout, hconn, hosuite, hgroup, fun draw x hdraw => ?_⟩
    rw [hdraw] at hosig horec
    exact ⟨hosig, horec⟩
  case idle =>
    intro s conn
    show execNtsKeIdleTimeout conn s = _
    simp [execNtsKeIdleTimeout]
  case keygen =>
    intro s u k hwf hup hawake hsec hdraw
    have hobj : storeWf u.obj = true := by rw [← (Prod.mk.inj hdraw).2]; exact hwf.1
    refine ⟨s.keGenerate, congrArg Host.Outcome.next (if_pos (by simp [hup, hawake])), ?_⟩
    rw [State.keGenerate_eq hsec hdraw]
    exact State.keyRecorded_shows hobj _ k
  case keygenDown => exact fun s hdown => congrArg Host.Outcome.next (if_neg (by simp [hdown]))

end Sys2Proof.Machine
end
